-- ==== Sys2Proof/Word.lean ====
section
/-! DEFINITION. The word and byte types of Ezhild-9 (01 R22: 64-bit registers; 01 R13: little-endian bytes). -/

namespace Sys2Proof

/-- A 64-bit word: every general register, special register and pointer. -/
abbrev Word := BitVec 64

/-- One byte of memory. -/
abbrev Byte := BitVec 8

end Sys2Proof
end

