-- ==== Sys2Proof/Syntax.lean ====
section
/-! DEFINITION. The rows of the opcode table as one inductive: the words of Ezhild-9 with their operand fields, and the
indivisible steps and host commands of the module with what each carries. Reserved fields are dropped (01 R19). -/

namespace Sys2Proof.Machine

/-- The mode of a full/empty access (04 R86): what it waits for and what it leaves. -/
inductive FeMode where
  | ff | fe | ef | xf
  deriving DecidableEq, Repr

/-- The integer atomics (04 R92). -/
inductive AtomOp where
  | add | and | or | xor | min | max | minu | maxu | swap
  deriving DecidableEq, Repr

/-- The two kinds of reduction line (04 R96). -/
inductive DrKind where
  | f32 | f64
  deriving DecidableEq, Repr

/-- The formats a reduction instruction names (04 R98, R100). -/
inductive DrFmt where
  | f32 | bf16 | f64 | acc
  deriving DecidableEq, Repr

/-- What a request asks of a home or a port (04 R80 to R101). `load n` and `store n` move n bytes; `fetch` reads a line for
an instruction cache; `watch` waits until the word is full or empty, as SUSP asks (03 R70). -/
inductive MemOp where
  | load (n : Nat)
  | fetch
  | store (n : Nat)
  | ldfe (m : FeMode)
  | stfe (m : FeMode)
  | feq
  | feset (full : Bool)
  | atom (op : AtomOp)
  | cas
  | fadd32
  | fadd64
  | drinit (k : DrKind)
  | dred (f : DrFmt)
  | dread (f : DrFmt)
  | watch (full : Bool)
  deriving DecidableEq, Repr

/-- Who waits for the answer to a request: a slot of this module, or a requester of another module named by its
group index in a job's group, the job and the tag it gave (22 R355, R356). -/
inductive Origin where
  | slot (id : Nat)
  | remote (modul job tag : Nat)
  deriving DecidableEq, Repr

/-- A request that reaches this module over the fabric, or a global-window access that reaches a port (22 R355, R356;
07 R141). `va` is the virtual address translated here under the job's mapping, `data` the operand, `data2` the
expected value of CAS, `acc` the words of DRED.ACC; `inc` the incarnation of the module it comes from (22 R358). `pa` is
the physical address where a core of this module has translated it, and `tag` then the request's; `late` marks the second part
of a DRED.ACC (04 R99); `turn` numbers an access that has its place at a port's bank (06 R119); `table` tells
that the page holds tables of the job (25 R394). -/
structure Request where
  op     : MemOp
  va     : Word
  data   : Word := 0
  data2  : Word := 0
  acc    : List Word := []
  job    : Nat := 0
  tenant : Nat := 0
  inc    : Nat := 0
  origin : Origin
  pa     : Option Nat := none
  late   : Bool := false
  tag    : Nat := 0
  turn   : Nat := 0
  table  : Bool := false
  deriving DecidableEq, Repr

/-- The answer of a home or port to a waiting access: values for the destination registers, or a refusal with its cause
code and address (04 R414), or TRAPWRITER beside the values (04 R89); `tag` repeats the request's.
`posted` answers a posted write; `more` asks for the registers above D+4 of an F64 line (04 R99); `requeue` is firmware's
order to requeue the strand parked under the tag (04 R89); `items` are the side-band items of a fetch, one for each line
(08 R159). -/
structure Reply where
  vals       : List Word := []
  refusal    : Option Nat := none
  addr       : Word := 0
  trapWriter : Bool := false
  tag        : Nat := 0
  posted     : Bool := false
  more       : Bool := false
  requeue    : Bool := false
  items      : List (Bool × Word) := []
  level      : Nat := 0
  deriving DecidableEq, Repr

/-- What the header of a packet from another module and its second word say for its delivery: its module's group index and incarnation,
its endpoints, class and number in its flow, its tenant and its job (22 R350, R351). `link` tells the modules apart that packets come from:
group indices are a job's own (22 R355). -/
structure PacketHead where
  modul : Nat
  inc   : Nat
  src   : Nat
  dst   : Nat
  cls   : Nat
  fseq  : Nat
  tenant : Nat := 0
  job   : Nat := 0
  link  : Nat := modul
  deriving DecidableEq, Repr

/-- A home's answer to a commit (13 R238, 16 R277). -/
inductive Answer where
  | commitOk | cancelled | versionFull | prot
  deriving DecidableEq, Repr

/-- A message or anti-message of 64 bytes, with the colour and the VT its packet carries (18 R296). -/
structure Message where
  w0 : Word := 0
  w1 : Word := 0
  w2 : Word := 0
  w3 : Word := 0
  payload : List Word := []
  colour : Bool := false
  vt : Nat := 0
  deriving DecidableEq, Repr

/-- What an outbox entry holds (13 R232): the 64-byte operand, and a SPAWN's gang header. -/
inductive OutKind where
  | spawn (hdr : Word)
  | send
  | irrev
  deriving DecidableEq, Repr

/-- An entry of an outbox (13 R232), with the cluster of the strand that issued it (13 R235, R240). -/
structure OutEntry where
  kind : OutKind
  words : List Word
  cluster : Nat := 0
  deriving DecidableEq, Repr

/-- What a COMMIT sends to its arbitrating home (13 R237): the gang that waits, on this module or (`modul`) another, the
task, copy and version, the result bytes, the outbox, and what the home needs of the task: its job, cluster, class, tile,
completion counter, and the LP and rollback count it was dispatched with (18 R303). -/
structure CommitMsg where
  gang : Nat
  modul : Option Nat := none
  job : Nat
  task : Nat
  copy : Nat
  version : Nat
  size : Nat
  bytes : List Byte
  outbox : List OutEntry
  cluster : Nat
  tile : Word
  done : Word
  hedge : Bool
  lp : Option (Nat × Word × Word × Word) := none
  rback : Nat := 0
  /-- the header of the tile of which it waits for a reader to end (16 R279). -/
  reader : Option Nat := none
  deriving DecidableEq, Repr

/-- A live copy named in a hedge record (16 R280). -/
structure HedgeCopy where
  copy : Nat
  modul : Nat
  core : Nat
  gang : Nat
  deriving DecidableEq, Repr

/-- A hedge record of an arbitrating home (16 R280), with what a backup repeats (16 R290). -/
structure HedgeRec where
  home : Nat
  task : Nat
  job : Nat
  version : Nat
  packet : List Word
  hdr : Word
  flags : BitVec 5
  bind : List (List Nat) := []
  next : Nat := 1
  copies : List HedgeCopy
  winner : Option Nat := Option.none
  parent : Option (Nat × Word × Word × Word) := Option.none
  deriving DecidableEq, Repr

/-- A backup copy as the Weir sends it out (16 R288 to R290): its task, its charge, the slow copy's module and core, and the module, cluster
and cores it may take. -/
structure Backup where
  job : Nat
  task : Nat
  copy : Nat
  packet : List Word
  hdr : Word
  flags : BitVec 5
  bind : List (List Nat) := []
  parent : Option (Nat × Word × Word × Word) := Option.none
  charge : Nat
  slowModul : Nat
  slow : Nat
  modul : Nat
  cluster : Nat := 0
  only : List Nat := []
  deriving DecidableEq, Repr

/-- What modules tell each other of the copies of a task (16 R280, R286 to R290; log 94): a placed or moved copy, to its task's record; the Weir's
question about a slow copy and its record in answer; the Weir's request to add a copy and the home's consent; the backup itself; the
work of a winner; and a rollback that undoes the children of an LP's tasks from a key on (18 R304). -/
inductive HedgeMsg where
  | record (r : HedgeRec)
  | moved (task job : Nat) (c : HedgeCopy)
  | ask (modul job k task copy : Nat)
  | offer (home k slowModul slow : Nat) (r : HedgeRec)
  | add (modul : Nat) (b : Backup)
  | consent (b : Backup)
  | backup (b : Backup)
  | mean (job c x : Nat)
  | children (job lp : Nat) (key : Nat × Nat × Nat)
  deriving DecidableEq, Repr

/-- What the Low-Water token carries during a pass (18 R309): the colour the cut moves to, C, M and MARK; and whether the pass before it
ended with C = 0 and MARK = 0, by which each module finds its deadlocked gangs (18 R316). `start` marks the wish of a module that has the job's
first work, which only begins passes that have not begun (log 43). -/
structure Token where
  n    : Bool := true
  c    : Int := 0
  m    : Nat := 2 ^ 64 - 1
  mark : Bool := false
  quiet : Bool := false
  start : Bool := false
  deriving DecidableEq, Repr

/-- A hardware error that reaches the machine from outside (25 R397 to R399): a beat whose parity fails `fails` times on a lane
before it passes, the array ECC at a word (or, odd, its FE bit), and an error of the storage of R399: local memory, the L1 of
a core, its instruction cache, a register or an accumulator tile of it, or a line of a last-level cache. -/
inductive HwError where
  | beat (pa lane fails : Nat)
  | array (pa : Nat) (corrected : Bool)
  | localMem (pa : Nat) (corrected : Bool)
  | llc (pa : Nat) (corrected : Bool)
  | l1 (core pa : Nat) (corrected : Bool)
  | icache (core key : Nat) (corrected : Bool)
  | regs (slot : Nat) (corrected : Bool)
  | acc (core : Nat) (slot : Nat) (corrected : Bool)
  deriving DecidableEq, Repr

/-- A module's announcement of its complete part of a ring (21 R336). -/
structure Announce where
  job : Nat
  ring : Nat
  k : Nat
  pos : Nat
  s : Nat
  bsz : Nat
  modul : Nat
  deriving DecidableEq, Repr

/-- The counters that firmware reads and clears (22 R359). -/
inductive Counter where
  | tnDrop (core : Nat)
  | incDrop (engine : Nat)
  | tmiss (job : Nat)
  | wakes (g : Nat)
  | narrow (g : Nat)
  | clDrop
  deriving DecidableEq, Repr

end Sys2Proof.Machine

namespace Sys2Proof

open Machine

/-- What each indivisible step and host command carries: the row of the opcode table it performs is `Ev.instr`. -/
inductive Ev where
  | delayedRegisterWrite (core : Nat)  -- DELAYED_REGISTER_WRITE, R112
  | asyncTrapRaise (slot : Nat)  -- ASYNC_TRAP_RAISE, R388
  | vectorStep (slot : Nat)  -- VECTOR_STEP, R177
  | bmovStep (slot : Nat)  -- BMOV_STEP, R102
  | slotRemoval (slot : Nat)  -- SLOT_REMOVAL, R121
  | slotRestore (slot : Nat)  -- SLOT_RESTORE, R121
  | debugStop (slot : Nat)  -- DEBUG_STOP, R375
  | breakpoint (slot : Nat)  -- BREAKPOINT, R410
  | suspDelayExpiry (slot : Nat)  -- SUSP_DELAY_EXPIRY, R70
  | homeRequest (r : Request)  -- HOME_REQUEST, R128
  | parkSave (slot : Nat) (tag : Nat)  -- PARK_SAVE, R88; tag 0: the order of a home of this module
  | parkConfirm (o : Origin)  -- PARK_CONFIRM, R88
  | homeReply (slot : Nat) (r : Reply)  -- HOME_REPLY, R106
  | storeAcknowledge (slot : Nat) (addr : Nat)  -- STORE_ACKNOWLEDGE, R107
  | revocation (core : Nat) (addr : Nat)  -- REVOCATION, R128
  | portAccess (r : Request)  -- PORT_ACCESS, R141
  | metadataUpdate (line : Nat) (w : Word)  -- METADATA_UPDATE, R157
  | tlbWalkComplete (cluster : Nat)  -- TLB_WALK_COMPLETE, R393
  | copyCommandStart (core : Nat) (ch : Nat)  -- COPY_COMMAND_START, R193
  | copyChunkReadReply (core : Nat) (ch : Nat)  -- COPY_CHUNK_READ_REPLY, R225
  | copyChunkWrite (core : Nat) (ch : Nat)  -- COPY_CHUNK_WRITE, R225
  | gatherBegin (core : Nat)  -- GATHER_BEGIN, R214
  | gatherEnd (core : Nat)  -- GATHER_END, R215
  | arrayStart (core : Nat)  -- ARRAY_START, R217
  | mxopComplete (core : Nat)  -- MXOP_COMPLETE, R217
  | portOperationComplete (core : Nat)  -- PORT_OPERATION_COMPLETE, R217
  | holdQuantumExpiry (core : Nat)  -- HOLD_QUANTUM_EXPIRY, R207
  | dutyWindowStart (pair : Nat)  -- DUTY_WINDOW_START, R229
  | withheldIntervalStart (pair : Nat)  -- WITHHELD_INTERVAL_START, R229
  | engineGate (core : Nat)  -- ENGINE_GATE, R123
  | breakEvenHoldExpiry (core : Nat)  -- BREAK_EVEN_HOLD_EXPIRY, R124
  | inrushAdmission (cluster : Nat)  -- INRUSH_ADMISSION, R124
  | engineWakeComplete (core : Nat)  -- ENGINE_WAKE_COMPLETE, R124
  | engineReturn (slot : Nat)  -- ENGINE_RETURN, R117
  | attentionEngineComplete (slot : Nat)  -- ATTENTION_ENGINE_COMPLETE, R330
  | barrierArrival (core : Nat) (gang : Nat) (bx : Nat)  -- BARRIER_ARRIVAL, R249
  | barrierRelease (core : Nat) (gang : Nat) (bx : Nat)  -- BARRIER_RELEASE, R249
  | agingStep (cluster : Nat)  -- AGING_STEP, R262
  | stealProbe (prober : Nat) (victim : Nat)  -- STEAL_PROBE, R264
  | probeAnswer (prober : Nat) (won : Bool)  -- PROBE_ANSWER, R264
  | stealRetryExpiry (cluster : Nat)  -- STEAL_RETRY_EXPIRY, R264
  | preemption (cluster : Nat)  -- PREEMPTION, R395
  | commitArrival (m : CommitMsg)  -- COMMIT_ARRIVAL, R281
  | commitAnswer (gang : Nat) (a : Answer)  -- COMMIT_ANSWER, R238
  | cancel (job task : Nat) (c : HedgeCopy)  -- CANCEL, R282, for a copy where its task's record has it
  | dropConfirmation (job task copy : Nat)  -- DROP_CONFIRMATION, R280
  | checkpoint (gang : Nat) (k : Nat)  -- CHECKPOINT, R285
  | weirReport (job : Nat) (c : Nat) (k : Nat) (r : Nat) (task : Nat) (copy : Nat) (home : Nat)  -- WEIR_REPORT, R286
  | hedge (m : HedgeMsg)  -- what other modules say of a task's copies, R280, R286 to R290: within AGING_STEP, COMMIT_ARRIVAL and WEIR_REPORT
  | messageArrival (job : Nat) (m : Message)  -- MESSAGE_ARRIVAL, R299
  | antiMessageArrival (job : Nat) (m : Message)  -- ANTI_MESSAGE_ARRIVAL, R305
  | inboxDispatch (job : Nat) (lp : Nat)  -- INBOX_DISPATCH, R300
  | versionRevocation (header : Nat) (v : Nat) (rback : Nat)  -- VERSION_REVOCATION, R303
  | lwTokenVisit (job : Nat) (part : Nat) (t : Token)  -- LW_TOKEN_VISIT, R309
  | lwgapExpiry (job : Nat)  -- LWGAP_EXPIRY, R312
  | lwMarkArrival (job : Nat) (part : Nat) (v : Nat)  -- LW_MARK_ARRIVAL, R310; parts 4,096 and 4,097: the cut to white or to red has ended, R419
  | abortTokenVisit (job : Nat) (part : Nat) (second : Bool) (a : Nat) (reason : Word) (since : Nat)  -- the abort began in mesh cycle since; ABORT_TOKEN_VISIT, R317; part 4,096: it has returned
  | restart (job : Nat) (part : Nat)  -- RESTART, R318
  | ringAnnouncement (a : Announce)  -- RING_ANNOUNCEMENT, R336
  | rillToken (job : Nat) (ring : Nat) (step : Nat)  -- RILL_TOKEN, R338
  | rillBeat (job : Nat) (ring : Nat) (step : Nat) (off : Nat) (data : List Byte) (bad : Option Word)  -- RILL_BEAT, R341; the address of a word in it that cannot be corrected, R398
  | rillLand (owner core memb gang step off : Nat) (data : List Byte) (bad : Option Word)  -- a beat has its bank at a member's core, R119, R341: within RILL_BEAT
  | readOut (job : Nat) (ring : Nat) (step : Nat)  -- READ_OUT, R339
  | ringBreak (job : Nat) (ring : Nat)  -- BREAK, R346
  | packetRefusal (cls : Nat) (slot : Nat) (addr : Nat) (posted : Bool) (job : Nat)  -- PACKET_REFUSAL, R353
  | groupPark (g : Nat)  -- GROUP_PARK, R361
  | groupWake (g : Nat)  -- GROUP_WAKE, R361
  | heaterSettle (g : Nat)  -- HEATER_SETTLE, R361
  | lockComplete (g : Nat)  -- LOCK_COMPLETE, R361
  | linkQueue (g n : Nat)  -- the longest queue of a fibre group's links becomes n flits: within GROUP_WAKE, R361
  | reset  -- RESET, R358
  | incarnationAnnouncement (job modul inc link : Nat)  -- INCARNATION_ANNOUNCEMENT, R358, to the members of a job's group
  | readySet (bit : Nat)  -- READY_SET, R407
  | migrRequestArrival (slot : Nat)  -- MIGR_REQUEST_ARRIVAL, R372
  | contextStreamEnd (slot : Nat)  -- CONTEXT_STREAM_END, R372
  | forwardingEntryExpiry (core : Nat) (idx : Nat)  -- FORWARDING_ENTRY_EXPIRY, R373
  | powerMeasurement  -- POWER_MEASUREMENT, R409
  | retry (slot : Nat)  -- RETRY, R389
  | skip (slot : Nat)  -- SKIP, R389
  | drop (slot : Nat)  -- DROP, R389
  | abortResp (slot : Nat)  -- ABORT_RESP, R389
  | hostLaunch (jslot : Nat) (off : Nat) (data : List Word)  -- HOST_LAUNCH, R268
  | peerLaunch (job : Nat) (modul : Nat) (tenant : Nat) (red : Bool) (data : List Word)  -- PEER_LAUNCH, R269
  | stagingAccess (off : Nat) (n : Nat) (w : Option (List Byte))  -- STAGING_ACCESS, R401
  | hostRegisterWrite (off : Nat) (v : Word)  -- HOST_REGISTER_WRITE, R402
  | identify (k : Nat)  -- IDENTIFY, R403
  | attest (k : Nat)  -- ATTEST, R408
  | jobOpen (k : Nat) (rcd : List Word)  -- JOB_OPEN, R404
  | jobClose (k : Nat)  -- JOB_CLOSE, R405
  | tenantMap (k : Nat)  -- TENANT_MAP, R403
  | formatRange (k : Nat)  -- FORMAT_RANGE, R155
  | actSet (k : Nat)  -- ACT_SET, R269
  | powerCap (k : Nat)  -- POWER_CAP, R409
  | groupSet (k : Nat)  -- GROUP_SET, R357
  | circuitChange (k : Nat)  -- CIRCUIT_CHANGE, R357
  | parkPolicy (k : Nat)  -- PARK_POLICY, R361
  | traceCtl (k : Nat)  -- TRACE_CTL, R410
  | lockstep (k : Nat)  -- LOCKSTEP, R411
  | illegalEncoding (w : BitVec 32)  -- ILLEGAL_ENCODING, R42
  | instructionFetchFault (prot : Bool) (addr : Word) (level : Nat)  -- INSTRUCTION_FETCH_FAULT, R14
  | notSupportedCommand (k : Nat)  -- NOT_SUPPORTED_COMMAND, R403
  | evqheadAdvance (v : Nat)  -- EVQHEAD_ADVANCE, R406
  | fromModule (h : PacketHead) (engine : Nat) (e : Ev)  -- a packet of another module with its header, R350, R351, R358
  | timed (id : Nat) (e : Ev)  -- a packet of the timed channel, R354
  | handlerLaunch (core job : Nat) (rcd : List Word)  -- a handler task for a record without a trapping strand that waited for room in the pool, R389: within ASYNC_TRAP_RAISE
  | clearCounter (c : Counter)  -- firmware clears a counter, R359: in the management window, within HOST_REGISTER_WRITE
  | contextArrival (k : Nat)  -- the last class 5 packet of another module's context, R372: within CONTEXT_STREAM_END
  | hwError (h : HwError)  -- HOME_REQUEST, R397 to R399: the storage's own error, met by the access that reads it
  deriving DecidableEq, Repr

/-- One constructor per row of the opcode table; the rule of spec/ stands beside each. `st` is the stall count ST. -/
inductive Instr where
  | add (d a b : BitVec 7) (st : BitVec 2)  -- ADD, R50
  | sub (d a b : BitVec 7) (st : BitVec 2)  -- SUB, R50
  | mul (d a b : BitVec 7) (st : BitVec 2)  -- MUL, R50
  | mulh (d a b : BitVec 7) (st : BitVec 2)  -- MULH, R50
  | mulhu (d a b : BitVec 7) (st : BitVec 2)  -- MULHU, R50
  | div (d a b : BitVec 7) (st : BitVec 2)  -- DIV, R51
  | divu (d a b : BitVec 7) (st : BitVec 2)  -- DIVU, R51
  | rem (d a b : BitVec 7) (st : BitVec 2)  -- REM, R51
  | remu (d a b : BitVec 7) (st : BitVec 2)  -- REMU, R51
  | min (d a b : BitVec 7) (st : BitVec 2)  -- MIN, R50
  | max (d a b : BitVec 7) (st : BitVec 2)  -- MAX, R50
  | minu (d a b : BitVec 7) (st : BitVec 2)  -- MINU, R50
  | maxu (d a b : BitVec 7) (st : BitVec 2)  -- MAXU, R50
  | and (d a b : BitVec 7) (st : BitVec 2)  -- AND, R50
  | or (d a b : BitVec 7) (st : BitVec 2)  -- OR, R50
  | xor (d a b : BitVec 7) (st : BitVec 2)  -- XOR, R50
  | andn (d a b : BitVec 7) (st : BitVec 2)  -- ANDN, R50
  | shl (d a b : BitVec 7) (st : BitVec 2)  -- SHL, R52
  | shr (d a b : BitVec 7) (st : BitVec 2)  -- SHR, R52
  | sar (d a b : BitVec 7) (st : BitVec 2)  -- SAR, R52
  | rol (d a b : BitVec 7) (st : BitVec 2)  -- ROL, R52
  | seq (d a b : BitVec 7) (st : BitVec 2)  -- SEQ, R50
  | sne (d a b : BitVec 7) (st : BitVec 2)  -- SNE, R50
  | slt (d a b : BitVec 7) (st : BitVec 2)  -- SLT, R50
  | sltu (d a b : BitVec 7) (st : BitVec 2)  -- SLTU, R50
  | sel (d a b : BitVec 7) (st : BitVec 2)  -- SEL, R50
  | bfx (d a b : BitVec 7) (st : BitVec 2)  -- BFX, R53
  | bfi (d a b : BitVec 7) (st : BitVec 2)  -- BFI, R53
  | addsh (d a b : BitVec 7) (k st : BitVec 2)  -- ADDSH, R50
  | sadd (d : BitVec 7) (a : BitVec 4) (b : BitVec 7) (st : BitVec 2)  -- SADD, R57
  | shli (d a : BitVec 7) (n : BitVec 6) (st : BitVec 2)  -- SHLI, R52
  | shri (d a : BitVec 7) (n : BitVec 6) (st : BitVec 2)  -- SHRI, R52
  | sari (d a : BitVec 7) (n : BitVec 6) (st : BitVec 2)  -- SARI, R52
  | mov (d a : BitVec 7) (st : BitVec 2)  -- MOV, R56
  | clz (d a : BitVec 7) (st : BitVec 2)  -- CLZ, R56
  | ctz (d a : BitVec 7) (st : BitVec 2)  -- CTZ, R56
  | popc (d a : BitVec 7) (st : BitVec 2)  -- POPC, R56
  | sextB (d a : BitVec 7) (st : BitVec 2)  -- SEXT_B, R56
  | sextH (d a : BitVec 7) (st : BitVec 2)  -- SEXT_H, R56
  | sextW (d a : BitVec 7) (st : BitVec 2)  -- SEXT_W, R56
  | zextB (d a : BitVec 7) (st : BitVec 2)  -- ZEXT_B, R56
  | zextH (d a : BitVec 7) (st : BitVec 2)  -- ZEXT_H, R56
  | zextW (d a : BitVec 7) (st : BitVec 2)  -- ZEXT_W, R56
  | rdcyc (d : BitVec 7) (st : BitVec 2)  -- RDCYC, R60
  | rdid (d : BitVec 7) (st : BitVec 2)  -- RDID, R61
  | srd (d : BitVec 7) (a : BitVec 4) (st : BitVec 2)  -- SRD, R57
  | swr (d : BitVec 4) (a : BitVec 7) (st : BitVec 2)  -- SWR, R57
  | addi (d a : BitVec 7) (i : BitVec 9) (st : BitVec 2)  -- ADDI, R54
  | andi (d a : BitVec 7) (i : BitVec 9) (st : BitVec 2)  -- ANDI, R54
  | ori (d a : BitVec 7) (i : BitVec 9) (st : BitVec 2)  -- ORI, R54
  | xori (d a : BitVec 7) (i : BitVec 9) (st : BitVec 2)  -- XORI, R54
  | li (d : BitVec 7) (i : BitVec 16) (st : BitVec 2)  -- LI, R55
  | lih (d : BitVec 7) (i : BitVec 16) (st : BitVec 2)  -- LIH, R55
  | bz (a : BitVec 7) (o : BitVec 9) (st : BitVec 2)  -- BZ, R62
  | bnz (a : BitVec 7) (o : BitVec 9) (st : BitVec 2)  -- BNZ, R62
  | bltz (a : BitVec 7) (o : BitVec 9) (st : BitVec 2)  -- BLTZ, R62
  | bgez (a : BitVec 7) (o : BitVec 9) (st : BitVec 2)  -- BGEZ, R62
  | dbnz (a : BitVec 7) (o : BitVec 9) (st : BitVec 2)  -- DBNZ, R63
  | beq (a b : BitVec 7) (o : BitVec 9) (st : BitVec 2)  -- BEQ, R62
  | bne (a b : BitVec 7) (o : BitVec 9) (st : BitVec 2)  -- BNE, R62
  | blt (a b : BitVec 7) (o : BitVec 9) (st : BitVec 2)  -- BLT, R62
  | bltu (a b : BitVec 7) (o : BitVec 9) (st : BitVec 2)  -- BLTU, R62
  | j (o : BitVec 23) (st : BitVec 2)  -- J, R65
  | call (o : BitVec 23) (st : BitVec 2)  -- CALL, R65
  | ret (st : BitVec 2)  -- RET, R66
  | jr (a : BitVec 7) (st : BitVec 2)  -- JR, R66
  | jalr (d a : BitVec 7) (st : BitVec 2)  -- JALR, R66
  | rep (a : BitVec 7) (st : BitVec 2)  -- REP, R67
  | susp (a : BitVec 7) (st : BitVec 2)  -- SUSP, R70
  | halt (st : BitVec 2)  -- HALT, R72
  | yield (st : BitVec 2)  -- YIELD, R73
  | nop (st : BitVec 2)  -- NOP, R74
  | ldB (d a : BitVec 7) (o : BitVec 6) (st : BitVec 2)  -- LD_B, R80
  | ldBU (d a : BitVec 7) (o : BitVec 6) (st : BitVec 2)  -- LD_B_U, R80
  | ldH (d a : BitVec 7) (o : BitVec 6) (st : BitVec 2)  -- LD_H, R80
  | ldHU (d a : BitVec 7) (o : BitVec 6) (st : BitVec 2)  -- LD_H_U, R80
  | ldW (d a : BitVec 7) (o : BitVec 6) (st : BitVec 2)  -- LD_W, R80
  | ldWU (d a : BitVec 7) (o : BitVec 6) (st : BitVec 2)  -- LD_W_U, R80
  | ldD (d a : BitVec 7) (o : BitVec 6) (st : BitVec 2)  -- LD_D, R80
  | stB (d a : BitVec 7) (o : BitVec 6) (st : BitVec 2)  -- ST_B, R80
  | stH (d a : BitVec 7) (o : BitVec 6) (st : BitVec 2)  -- ST_H, R80
  | stW (d a : BitVec 7) (o : BitVec 6) (st : BitVec 2)  -- ST_W, R80
  | stD (d a : BitVec 7) (o : BitVec 6) (st : BitVec 2)  -- ST_D, R80
  | ldx (d a b : BitVec 7) (st : BitVec 2)  -- LDX, R81
  | stx (d a b : BitVec 7) (st : BitVec 2)  -- STX, R81
  | ldAcq (d a : BitVec 7) (st : BitVec 2)  -- LD_ACQ, R82
  | stRel (d a : BitVec 7) (st : BitVec 2)  -- ST_REL, R82
  | fenceAcq (st : BitVec 2)  -- FENCE_ACQ, R83
  | fenceRel (st : BitVec 2)  -- FENCE_REL, R83
  | fenceFull (st : BitVec 2)  -- FENCE_FULL, R83
  | lbsync (st : BitVec 2)  -- LBSYNC, R84
  | feq (d a : BitVec 7) (st : BitVec 2)  -- FEQ, R90
  | fesetE (a : BitVec 7) (st : BitVec 2)  -- FESET_E, R90
  | fesetF (a : BitVec 7) (st : BitVec 2)  -- FESET_F, R90
  | pref (a : BitVec 7) (st : BitVec 2)  -- PREF, R103
  | drinitF32 (a : BitVec 7) (st : BitVec 2)  -- DRINIT_F32, R97
  | drinitF64 (a : BitVec 7) (st : BitVec 2)  -- DRINIT_F64, R97
  | dredF32 (d a : BitVec 7) (st : BitVec 2)  -- DRED_F32, R98
  | dredBf16 (d a : BitVec 7) (st : BitVec 2)  -- DRED_BF16, R98
  | dredF64 (d a : BitVec 7) (st : BitVec 2)  -- DRED_F64, R98
  | dredAcc (d a : BitVec 7) (st : BitVec 2)  -- DRED_ACC, R99
  | dreadF32 (d a : BitVec 7) (st : BitVec 2)  -- DREAD_F32, R100
  | dreadBf16 (d a : BitVec 7) (st : BitVec 2)  -- DREAD_BF16, R100
  | dreadF64 (d a : BitVec 7) (st : BitVec 2)  -- DREAD_F64, R100
  | dreadAcc (d a : BitVec 7) (st : BitVec 2)  -- DREAD_ACC, R100
  | ldfeFf (d a : BitVec 7) (st : BitVec 2)  -- LDFE_FF, R86
  | ldfeFe (d a : BitVec 7) (st : BitVec 2)  -- LDFE_FE, R86
  | ldfeEf (d a : BitVec 7) (st : BitVec 2)  -- LDFE_EF, R86
  | bmov (d a b : BitVec 7) (st : BitVec 2)  -- BMOV, R102
  | stfeFf (d a : BitVec 7) (st : BitVec 2)  -- STFE_FF, R86
  | stfeFe (d a : BitVec 7) (st : BitVec 2)  -- STFE_FE, R86
  | stfeEf (d a : BitVec 7) (st : BitVec 2)  -- STFE_EF, R86
  | stfeXf (d a : BitVec 7) (st : BitVec 2)  -- STFE_XF, R86
  | atomAdd (d a b : BitVec 7) (st : BitVec 2)  -- ATOM_ADD, R92
  | atomAnd (d a b : BitVec 7) (st : BitVec 2)  -- ATOM_AND, R92
  | atomOr (d a b : BitVec 7) (st : BitVec 2)  -- ATOM_OR, R92
  | atomXor (d a b : BitVec 7) (st : BitVec 2)  -- ATOM_XOR, R92
  | atomMin (d a b : BitVec 7) (st : BitVec 2)  -- ATOM_MIN, R92
  | atomMax (d a b : BitVec 7) (st : BitVec 2)  -- ATOM_MAX, R92
  | atomMinu (d a b : BitVec 7) (st : BitVec 2)  -- ATOM_MINU, R92
  | atomMaxu (d a b : BitVec 7) (st : BitVec 2)  -- ATOM_MAXU, R92
  | atomSwap (d a b : BitVec 7) (st : BitVec 2)  -- ATOM_SWAP, R92
  | cas (d a b : BitVec 7) (st : BitVec 2)  -- CAS, R93
  | fatomAddF32 (d a b : BitVec 7) (st : BitVec 2)  -- FATOM_ADD_F32, R94
  | fatomAddF64 (d a b : BitVec 7) (st : BitVec 2)  -- FATOM_ADD_F64, R94
  | faddF32 (d a b : BitVec 7) (st : BitVec 2)  -- FADD_F32, R167
  | fsubF32 (d a b : BitVec 7) (st : BitVec 2)  -- FSUB_F32, R167
  | fmulF32 (d a b : BitVec 7) (st : BitVec 2)  -- FMUL_F32, R167
  | fdivF32 (d a b : BitVec 7) (st : BitVec 2)  -- FDIV_F32, R167
  | faddF64 (d a b : BitVec 7) (st : BitVec 2)  -- FADD_F64, R167
  | fsubF64 (d a b : BitVec 7) (st : BitVec 2)  -- FSUB_F64, R167
  | fmulF64 (d a b : BitVec 7) (st : BitVec 2)  -- FMUL_F64, R167
  | fdivF64 (d a b : BitVec 7) (st : BitVec 2)  -- FDIV_F64, R167
  | fminF32 (d a b : BitVec 7) (st : BitVec 2)  -- FMIN_F32, R168
  | fmaxF32 (d a b : BitVec 7) (st : BitVec 2)  -- FMAX_F32, R168
  | ffmaF32 (d a b : BitVec 7) (st : BitVec 2)  -- FFMA_F32, R167
  | fsqrtF32 (d a : BitVec 7) (st : BitVec 2)  -- FSQRT_F32, R168
  | fabsF32 (d a : BitVec 7) (st : BitVec 2)  -- FABS_F32, R168
  | fnegF32 (d a : BitVec 7) (st : BitVec 2)  -- FNEG_F32, R168
  | fclassF32 (d a : BitVec 7) (st : BitVec 2)  -- FCLASS_F32, R170
  | fminF64 (d a b : BitVec 7) (st : BitVec 2)  -- FMIN_F64, R168
  | fmaxF64 (d a b : BitVec 7) (st : BitVec 2)  -- FMAX_F64, R168
  | ffmaF64 (d a b : BitVec 7) (st : BitVec 2)  -- FFMA_F64, R167
  | fsqrtF64 (d a : BitVec 7) (st : BitVec 2)  -- FSQRT_F64, R168
  | fabsF64 (d a : BitVec 7) (st : BitVec 2)  -- FABS_F64, R168
  | fnegF64 (d a : BitVec 7) (st : BitVec 2)  -- FNEG_F64, R168
  | fclassF64 (d a : BitVec 7) (st : BitVec 2)  -- FCLASS_F64, R170
  | fcmpEqF32 (d a b : BitVec 7) (st : BitVec 2)  -- FCMP_EQ_F32, R169
  | fcmpLtF32 (d a b : BitVec 7) (st : BitVec 2)  -- FCMP_LT_F32, R169
  | fcmpLeF32 (d a b : BitVec 7) (st : BitVec 2)  -- FCMP_LE_F32, R169
  | fcmpUnF32 (d a b : BitVec 7) (st : BitVec 2)  -- FCMP_UN_F32, R169
  | fcmpEqF64 (d a b : BitVec 7) (st : BitVec 2)  -- FCMP_EQ_F64, R169
  | fcmpLtF64 (d a b : BitVec 7) (st : BitVec 2)  -- FCMP_LT_F64, R169
  | fcmpLeF64 (d a b : BitVec 7) (st : BitVec 2)  -- FCMP_LE_F64, R169
  | fcmpUnF64 (d a b : BitVec 7) (st : BitVec 2)  -- FCMP_UN_F64, R169
  | fcvt (d a : BitVec 7) (q : BitVec 1) (t v : BitVec 3) (st : BitVec 2)  -- FCVT, R171
  | icvt (d a : BitVec 7) (g h w : BitVec 1) (v : BitVec 3) (st : BitVec 2)  -- ICVT, R172
  | vadd (d a b : BitVec 7) (st : BitVec 2)  -- VADD, R178
  | vsub (d a b : BitVec 7) (st : BitVec 2)  -- VSUB, R178
  | vmul (d a b : BitVec 7) (st : BitVec 2)  -- VMUL, R178
  | vfma (d a b : BitVec 7) (st : BitVec 2)  -- VFMA, R178
  | vmax (d a b : BitVec 7) (st : BitVec 2)  -- VMAX, R178
  | vmin (d a b : BitVec 7) (st : BitVec 2)  -- VMIN, R178
  | vscale (d a : BitVec 7) (st : BitVec 2)  -- VSCALE, R178
  | vcmp (d a b : BitVec 7) (st : BitVec 2)  -- VCMP, R178
  | vset (d : BitVec 7) (st : BitVec 2)  -- VSET, R178
  | vexp2 (d a : BitVec 7) (st : BitVec 2)  -- VEXP2, R179
  | vrcp (d a : BitVec 7) (st : BitVec 2)  -- VRCP, R179
  | vred (d a : BitVec 7) (st : BitVec 2)  -- VRED, R180
  | vcvt (d a : BitVec 7) (st : BitVec 2)  -- VCVT, R178
  | vqnt (d a b : BitVec 7) (st : BitVec 2)  -- VQNT, R181
  | vdeq (d a b : BitVec 7) (st : BitVec 2)  -- VDEQ, R181
  | oxl (d : BitVec 3) (a : BitVec 7) (st : BitVec 2)  -- OXL, R189
  | oxr (d : BitVec 7) (a : BitVec 3) (st : BitVec 2)  -- OXR, R189
  | oxli (d : BitVec 3) (i : BitVec 16) (st : BitVec 2)  -- OXLI, R189
  | cpy (d a b : BitVec 7) (st : BitVec 2)  -- CPY, R193
  | cpyV (d a b : BitVec 7) (st : BitVec 2)  -- CPY_V, R194
  | cpyW (d a b : BitVec 7) (st : BitVec 2)  -- CPY_W, R196
  | cpym (d a b : BitVec 7) (st : BitVec 2)  -- CPYM, R195
  | tlw (a b : BitVec 7) (st : BitVec 2)  -- TLW, R200
  | tlr (d a : BitVec 7) (st : BitVec 2)  -- TLR, R201
  | mxop (d : BitVec 3) (a b : BitVec 7) (st : BitVec 2)  -- MXOP, R203
  | mxz (d : BitVec 3) (st : BitVec 2)  -- MXZ, R205
  | mxld (d : BitVec 3) (a : BitVec 7) (st : BitVec 2)  -- MXLD, R205
  | mxst (d : BitVec 3) (a : BitVec 7) (st : BitVec 2)  -- MXST, R205
  | mxuc (a : BitVec 7) (st : BitVec 2)  -- MXUC, R206
  | mxmode (d a : BitVec 7) (st : BitVec 2)  -- MXMODE, R206
  | twx (d : BitVec 7) (a st : BitVec 2)  -- TWX, R209
  | twr (d : BitVec 7) (a st : BitVec 2)  -- TWR, R209
  | tww (d : BitVec 2) (a : BitVec 7) (st : BitVec 2)  -- TWW, R209
  | licq (d a : BitVec 7) (st : BitVec 2)  -- LICQ, R208
  | licr (st : BitVec 2)  -- LICR, R208
  | spawn (d a : BitVec 7) (st : BitVec 2)  -- SPAWN, R235
  | spawnInl (d a : BitVec 7) (st : BitVec 2)  -- SPAWN_INL, R236
  | commit (a : BitVec 7) (st : BitVec 2)  -- COMMIT, R237
  | send (d a : BitVec 7) (st : BitVec 2)  -- SEND, R240
  | irrev (d a : BitVec 7) (st : BitVec 2)  -- IRREV, R241
  | work (a : BitVec 7) (st : BitVec 2)  -- WORK, R243
  | tvt (d : BitVec 7) (st : BitVec 2)  -- TVT, R244
  | lwait (d a : BitVec 7) (st : BitVec 2)  -- LWAIT, R245
  | barc (d : BitVec 3) (a : BitVec 7) (st : BitVec 2)  -- BARC, R247
  | bar (d : BitVec 3) (st : BitVec 2)  -- BAR, R248
  | barw (d : BitVec 3) (st : BitVec 2)  -- BARW, R248
  | rjoin (d a : BitVec 7) (st : BitVec 2)  -- RJOIN, R323
  | rsend (d a b : BitVec 7) (st : BitVec 2)  -- RSEND, R326
  | rwait (d a b : BitVec 7) (st : BitVec 2)  -- RWAIT, R324
  | rrel (a b : BitVec 7) (st : BitVec 2)  -- RREL, R325
  | rleave (a : BitVec 7) (st : BitVec 2)  -- RLEAVE, R327
  | attnInit (d a : BitVec 7) (st : BitVec 2)  -- ATTN_INIT, R330
  | attnStep (d a b : BitVec 7) (st : BitVec 2)  -- ATTN_STEP, R331
  | attnFin (d a : BitVec 7) (st : BitVec 2)  -- ATTN_FIN, R332
  | csrr (d : BitVec 7) (c : BitVec 9) (st : BitVec 2)  -- CSRR, R363
  | csrw (d : BitVec 7) (c : BitVec 9) (st : BitVec 2)  -- CSRW, R363
  | csrs (d : BitVec 7) (c : BitVec 9) (st : BitVec 2)  -- CSRS, R363
  | csrc (d : BitVec 7) (c : BitVec 9) (st : BitVec 2)  -- CSRC, R363
  | trap (a : BitVec 7) (st : BitVec 2)  -- TRAP, R370
  | eret (st : BitVec 2)  -- ERET, R371
  | migr (d a : BitVec 7) (st : BitVec 2)  -- MIGR, R372
  | slot (d a : BitVec 7) (st : BitVec 2)  -- SLOT, R375
  | xinv (a : BitVec 7) (st : BitVec 2)  -- XINV, R377
  | xprobe (d a : BitVec 7) (st : BitVec 2)  -- XPROBE, R378
  | fwd (d a : BitVec 7) (st : BitVec 2)  -- FWD, R374
  | abort (a : BitVec 7) (st : BitVec 2)  -- ABORT, R379
  | haltc (d a : BitVec 7) (st : BitVec 2)  -- HALTC, R376
  | wake (st : BitVec 2)  -- WAKE, R124
  | hint (f : BitVec 2) (r : BitVec 21) (maj : BitVec 1) (st : BitVec 2)  -- HINT, R41
  | movShort (d a : BitVec 4)  -- MOV_SHORT, R43
  | addiShort (d a : BitVec 4) (i : BitVec 3)  -- ADDI_SHORT, R43
  | addShort (d a : BitVec 4)  -- ADD_SHORT, R43
  | subShort (d a : BitVec 4)  -- SUB_SHORT, R43
  | andShort (d a : BitVec 4)  -- AND_SHORT, R43
  | orShort (d a : BitVec 4)  -- OR_SHORT, R43
  | xorShort (d a : BitVec 4)  -- XOR_SHORT, R43
  | shliShort (d a : BitVec 4) (n : BitVec 3)  -- SHLI_SHORT, R43
  | shriShort (d a : BitVec 4) (n : BitVec 3)  -- SHRI_SHORT, R43
  | ldDShort (d a : BitVec 4) (o : BitVec 3)  -- LD_D_SHORT, R43
  | stDShort (d a : BitVec 4) (o : BitVec 3)  -- ST_D_SHORT, R43
  | liShort (d : BitVec 4) (i : BitVec 7)  -- LI_SHORT, R43
  | nopShort  -- NOP_SHORT, R43
  | yieldShort  -- YIELD_SHORT, R43
  | retShort  -- RET_SHORT, R43
  | jrShort (a : BitVec 4)  -- JR_SHORT, R43
  | haltShort  -- HALT_SHORT, R43
  | delayedRegisterWrite  -- DELAYED_REGISTER_WRITE, R112
  | asyncTrapRaise  -- ASYNC_TRAP_RAISE, R388
  | vectorStep  -- VECTOR_STEP, R177
  | bmovStep  -- BMOV_STEP, R102
  | slotRemoval  -- SLOT_REMOVAL, R121
  | slotRestore  -- SLOT_RESTORE, R121
  | debugStop  -- DEBUG_STOP, R375
  | breakpoint  -- BREAKPOINT, R410
  | suspDelayExpiry  -- SUSP_DELAY_EXPIRY, R70
  | homeRequest  -- HOME_REQUEST, R128
  | parkSave  -- PARK_SAVE, R88
  | parkConfirm  -- PARK_CONFIRM, R88
  | homeReply  -- HOME_REPLY, R106
  | storeAcknowledge  -- STORE_ACKNOWLEDGE, R107
  | revocation  -- REVOCATION, R128
  | portAccess  -- PORT_ACCESS, R141
  | metadataUpdate  -- METADATA_UPDATE, R157
  | tlbWalkComplete  -- TLB_WALK_COMPLETE, R393
  | copyCommandStart  -- COPY_COMMAND_START, R193
  | copyChunkReadReply  -- COPY_CHUNK_READ_REPLY, R225
  | copyChunkWrite  -- COPY_CHUNK_WRITE, R225
  | gatherBegin  -- GATHER_BEGIN, R214
  | gatherEnd  -- GATHER_END, R215
  | arrayStart  -- ARRAY_START, R217
  | mxopComplete  -- MXOP_COMPLETE, R217
  | portOperationComplete  -- PORT_OPERATION_COMPLETE, R217
  | holdQuantumExpiry  -- HOLD_QUANTUM_EXPIRY, R207
  | dutyWindowStart  -- DUTY_WINDOW_START, R229
  | withheldIntervalStart  -- WITHHELD_INTERVAL_START, R229
  | engineGate  -- ENGINE_GATE, R123
  | breakEvenHoldExpiry  -- BREAK_EVEN_HOLD_EXPIRY, R124
  | inrushAdmission  -- INRUSH_ADMISSION, R124
  | engineWakeComplete  -- ENGINE_WAKE_COMPLETE, R124
  | engineReturn  -- ENGINE_RETURN, R117
  | attentionEngineComplete  -- ATTENTION_ENGINE_COMPLETE, R330
  | barrierArrival  -- BARRIER_ARRIVAL, R249
  | barrierRelease  -- BARRIER_RELEASE, R249
  | agingStep  -- AGING_STEP, R262
  | stealProbe  -- STEAL_PROBE, R264
  | probeAnswer  -- PROBE_ANSWER, R264
  | stealRetryExpiry  -- STEAL_RETRY_EXPIRY, R264
  | preemption  -- PREEMPTION, R395
  | commitArrival  -- COMMIT_ARRIVAL, R281
  | commitAnswer  -- COMMIT_ANSWER, R238
  | cancel  -- CANCEL, R282
  | dropConfirmation  -- DROP_CONFIRMATION, R280
  | checkpoint  -- CHECKPOINT, R285
  | weirReport  -- WEIR_REPORT, R286
  | messageArrival  -- MESSAGE_ARRIVAL, R299
  | antiMessageArrival  -- ANTI_MESSAGE_ARRIVAL, R305
  | inboxDispatch  -- INBOX_DISPATCH, R300
  | versionRevocation  -- VERSION_REVOCATION, R303
  | lwTokenVisit  -- LW_TOKEN_VISIT, R309
  | lwgapExpiry  -- LWGAP_EXPIRY, R312
  | lwMarkArrival  -- LW_MARK_ARRIVAL, R310
  | abortTokenVisit  -- ABORT_TOKEN_VISIT, R317
  | restart  -- RESTART, R318
  | ringAnnouncement  -- RING_ANNOUNCEMENT, R336
  | rillToken  -- RILL_TOKEN, R338
  | rillBeat  -- RILL_BEAT, R341
  | readOut  -- READ_OUT, R339
  | ringBreak  -- BREAK, R346
  | packetRefusal  -- PACKET_REFUSAL, R353
  | groupPark  -- GROUP_PARK, R361
  | groupWake  -- GROUP_WAKE, R361
  | heaterSettle  -- HEATER_SETTLE, R361
  | lockComplete  -- LOCK_COMPLETE, R361
  | reset  -- RESET, R358
  | incarnationAnnouncement  -- INCARNATION_ANNOUNCEMENT, R358
  | readySet  -- READY_SET, R407
  | migrRequestArrival  -- MIGR_REQUEST_ARRIVAL, R372
  | contextStreamEnd  -- CONTEXT_STREAM_END, R372
  | forwardingEntryExpiry  -- FORWARDING_ENTRY_EXPIRY, R373
  | powerMeasurement  -- POWER_MEASUREMENT, R409
  | retry  -- RETRY, R389
  | skip  -- SKIP, R389
  | drop  -- DROP, R389
  | abortResp  -- ABORT_RESP, R389
  | hostLaunch  -- HOST_LAUNCH, R268
  | peerLaunch  -- PEER_LAUNCH, R269
  | stagingAccess  -- STAGING_ACCESS, R401
  | hostRegisterWrite  -- HOST_REGISTER_WRITE, R402
  | identify  -- IDENTIFY, R403
  | attest  -- ATTEST, R408
  | jobOpen  -- JOB_OPEN, R404
  | jobClose  -- JOB_CLOSE, R405
  | tenantMap  -- TENANT_MAP, R403
  | formatRange  -- FORMAT_RANGE, R155
  | actSet  -- ACT_SET, R269
  | powerCap  -- POWER_CAP, R409
  | groupSet  -- GROUP_SET, R357
  | circuitChange  -- CIRCUIT_CHANGE, R357
  | parkPolicy  -- PARK_POLICY, R361
  | traceCtl  -- TRACE_CTL, R410
  | lockstep  -- LOCKSTEP, R411
  | illegalEncoding  -- ILLEGAL_ENCODING, R42
  | instructionFetchFault  -- INSTRUCTION_FETCH_FAULT, R14
  | notSupportedCommand  -- NOT_SUPPORTED_COMMAND, R403
  | evqheadAdvance  -- EVQHEAD_ADVANCE, R406
  deriving DecidableEq, Repr

/-- The step within which such a message acts. -/
def Machine.HedgeMsg.instr : HedgeMsg → Instr
  | .record _ => .agingStep
  | .moved _ _ _ => .contextStreamEnd
  | .mean _ _ _ => .commitArrival
  | .ask .. | .offer .. | .add .. | .consent _ | .backup _ => .weirReport
  | .children .. => .cancel

/-- The row of the opcode table that a step performs. -/
def Ev.instr : Ev → Instr
  | .delayedRegisterWrite _ => .delayedRegisterWrite
  | .asyncTrapRaise _ => .asyncTrapRaise
  | .vectorStep _ => .vectorStep
  | .bmovStep _ => .bmovStep
  | .slotRemoval _ => .slotRemoval
  | .slotRestore _ => .slotRestore
  | .debugStop _ => .debugStop
  | .breakpoint _ => .breakpoint
  | .suspDelayExpiry _ => .suspDelayExpiry
  | .homeRequest _ => .homeRequest
  | .parkSave _ _ => .parkSave
  | .parkConfirm _ => .parkConfirm
  | .homeReply _ _ => .homeReply
  | .storeAcknowledge _ _ => .storeAcknowledge
  | .revocation _ _ => .revocation
  | .portAccess _ => .portAccess
  | .metadataUpdate _ _ => .metadataUpdate
  | .tlbWalkComplete _ => .tlbWalkComplete
  | .copyCommandStart _ _ => .copyCommandStart
  | .copyChunkReadReply _ _ => .copyChunkReadReply
  | .copyChunkWrite _ _ => .copyChunkWrite
  | .gatherBegin _ => .gatherBegin
  | .gatherEnd _ => .gatherEnd
  | .arrayStart _ => .arrayStart
  | .mxopComplete _ => .mxopComplete
  | .portOperationComplete _ => .portOperationComplete
  | .holdQuantumExpiry _ => .holdQuantumExpiry
  | .dutyWindowStart _ => .dutyWindowStart
  | .withheldIntervalStart _ => .withheldIntervalStart
  | .engineGate _ => .engineGate
  | .breakEvenHoldExpiry _ => .breakEvenHoldExpiry
  | .inrushAdmission _ => .inrushAdmission
  | .engineWakeComplete _ => .engineWakeComplete
  | .engineReturn _ => .engineReturn
  | .attentionEngineComplete _ => .attentionEngineComplete
  | .barrierArrival _ _ _ => .barrierArrival
  | .barrierRelease _ _ _ => .barrierRelease
  | .agingStep _ => .agingStep
  | .stealProbe _ _ => .stealProbe
  | .probeAnswer _ _ => .probeAnswer
  | .stealRetryExpiry _ => .stealRetryExpiry
  | .preemption _ => .preemption
  | .commitArrival _ => .commitArrival
  | .commitAnswer _ _ => .commitAnswer
  | .cancel _ _ _ => .cancel
  | .dropConfirmation _ _ _ => .dropConfirmation
  | .checkpoint _ _ => .checkpoint
  | .weirReport _ _ _ _ _ _ _ => .weirReport
  | .hedge m => m.instr
  | .messageArrival _ _ => .messageArrival
  | .antiMessageArrival _ _ => .antiMessageArrival
  | .inboxDispatch _ _ => .inboxDispatch
  | .versionRevocation _ _ _ => .versionRevocation
  | .lwTokenVisit _ _ _ => .lwTokenVisit
  | .lwgapExpiry _ => .lwgapExpiry
  | .lwMarkArrival _ _ _ => .lwMarkArrival
  | .abortTokenVisit _ _ _ _ _ _ => .abortTokenVisit
  | .restart _ _ => .restart
  | .ringAnnouncement _ => .ringAnnouncement
  | .rillToken _ _ _ => .rillToken
  | .rillBeat _ _ _ _ _ _ => .rillBeat
  | .rillLand _ _ _ _ _ _ _ _ => .rillBeat
  | .readOut _ _ _ => .readOut
  | .ringBreak _ _ => .ringBreak
  | .packetRefusal _ _ _ _ _ => .packetRefusal
  | .groupPark _ => .groupPark
  | .groupWake _ => .groupWake
  | .heaterSettle _ => .heaterSettle
  | .lockComplete _ => .lockComplete
  | .linkQueue _ _ => .groupWake
  | .reset => .reset
  | .incarnationAnnouncement _ _ _ _ => .incarnationAnnouncement
  | .readySet _ => .readySet
  | .migrRequestArrival _ => .migrRequestArrival
  | .contextStreamEnd _ => .contextStreamEnd
  | .forwardingEntryExpiry _ _ => .forwardingEntryExpiry
  | .powerMeasurement => .powerMeasurement
  | .retry _ => .retry
  | .skip _ => .skip
  | .drop _ => .drop
  | .abortResp _ => .abortResp
  | .hostLaunch _ _ _ => .hostLaunch
  | .peerLaunch _ _ _ _ _ => .peerLaunch
  | .stagingAccess _ _ _ => .stagingAccess
  | .hostRegisterWrite _ _ => .hostRegisterWrite
  | .identify _ => .identify
  | .attest _ => .attest
  | .jobOpen _ _ => .jobOpen
  | .jobClose _ => .jobClose
  | .tenantMap _ => .tenantMap
  | .formatRange _ => .formatRange
  | .actSet _ => .actSet
  | .powerCap _ => .powerCap
  | .groupSet _ => .groupSet
  | .circuitChange _ => .circuitChange
  | .parkPolicy _ => .parkPolicy
  | .traceCtl _ => .traceCtl
  | .lockstep _ => .lockstep
  | .illegalEncoding _ => .illegalEncoding
  | .instructionFetchFault _ _ _ => .instructionFetchFault
  | .notSupportedCommand _ => .notSupportedCommand
  | .evqheadAdvance _ => .evqheadAdvance
  | .fromModule _ _ e => e.instr
  | .timed _ e => e.instr
  | .handlerLaunch _ _ _ => .asyncTrapRaise
  | .clearCounter _ => .hostRegisterWrite
  | .contextArrival _ => .contextStreamEnd
  | .hwError _ => .homeRequest

end Sys2Proof
end

