-- ==== Sys2Proof/WellFormed.lean ====
section
/-! DEFINITION. Which terms of Instr a word can encode: the four checks of 02 R37, R38, R41 that the fields' widths do not
make, and that the row is a word at all. -/

namespace Sys2Proof

/-- The row is an instruction word, not a step or a command. -/
def Instr.isWord (i : Instr) : Bool :=
  match i with
  | .add _ _ _ _ => true
  | .sub _ _ _ _ => true
  | .mul _ _ _ _ => true
  | .mulh _ _ _ _ => true
  | .mulhu _ _ _ _ => true
  | .div _ _ _ _ => true
  | .divu _ _ _ _ => true
  | .rem _ _ _ _ => true
  | .remu _ _ _ _ => true
  | .min _ _ _ _ => true
  | .max _ _ _ _ => true
  | .minu _ _ _ _ => true
  | .maxu _ _ _ _ => true
  | .and _ _ _ _ => true
  | .or _ _ _ _ => true
  | .xor _ _ _ _ => true
  | .andn _ _ _ _ => true
  | .shl _ _ _ _ => true
  | .shr _ _ _ _ => true
  | .sar _ _ _ _ => true
  | .rol _ _ _ _ => true
  | .seq _ _ _ _ => true
  | .sne _ _ _ _ => true
  | .slt _ _ _ _ => true
  | .sltu _ _ _ _ => true
  | .sel _ _ _ _ => true
  | .bfx _ _ _ _ => true
  | .bfi _ _ _ _ => true
  | .addsh _ _ _ _ _ => true
  | .sadd _ _ _ _ => true
  | .shli _ _ _ _ => true
  | .shri _ _ _ _ => true
  | .sari _ _ _ _ => true
  | .mov _ _ _ => true
  | .clz _ _ _ => true
  | .ctz _ _ _ => true
  | .popc _ _ _ => true
  | .sextB _ _ _ => true
  | .sextH _ _ _ => true
  | .sextW _ _ _ => true
  | .zextB _ _ _ => true
  | .zextH _ _ _ => true
  | .zextW _ _ _ => true
  | .rdcyc _ _ => true
  | .rdid _ _ => true
  | .srd _ _ _ => true
  | .swr _ _ _ => true
  | .addi _ _ _ _ => true
  | .andi _ _ _ _ => true
  | .ori _ _ _ _ => true
  | .xori _ _ _ _ => true
  | .li _ _ _ => true
  | .lih _ _ _ => true
  | .bz _ _ _ => true
  | .bnz _ _ _ => true
  | .bltz _ _ _ => true
  | .bgez _ _ _ => true
  | .dbnz _ _ _ => true
  | .beq _ _ _ _ => true
  | .bne _ _ _ _ => true
  | .blt _ _ _ _ => true
  | .bltu _ _ _ _ => true
  | .j _ _ => true
  | .call _ _ => true
  | .ret _ => true
  | .jr _ _ => true
  | .jalr _ _ _ => true
  | .rep _ _ => true
  | .susp _ _ => true
  | .halt _ => true
  | .yield _ => true
  | .nop _ => true
  | .ldB _ _ _ _ => true
  | .ldBU _ _ _ _ => true
  | .ldH _ _ _ _ => true
  | .ldHU _ _ _ _ => true
  | .ldW _ _ _ _ => true
  | .ldWU _ _ _ _ => true
  | .ldD _ _ _ _ => true
  | .stB _ _ _ _ => true
  | .stH _ _ _ _ => true
  | .stW _ _ _ _ => true
  | .stD _ _ _ _ => true
  | .ldx _ _ _ _ => true
  | .stx _ _ _ _ => true
  | .ldAcq _ _ _ => true
  | .stRel _ _ _ => true
  | .fenceAcq _ => true
  | .fenceRel _ => true
  | .fenceFull _ => true
  | .lbsync _ => true
  | .feq _ _ _ => true
  | .fesetE _ _ => true
  | .fesetF _ _ => true
  | .pref _ _ => true
  | .drinitF32 _ _ => true
  | .drinitF64 _ _ => true
  | .dredF32 _ _ _ => true
  | .dredBf16 _ _ _ => true
  | .dredF64 _ _ _ => true
  | .dredAcc _ _ _ => true
  | .dreadF32 _ _ _ => true
  | .dreadBf16 _ _ _ => true
  | .dreadF64 _ _ _ => true
  | .dreadAcc _ _ _ => true
  | .ldfeFf _ _ _ => true
  | .ldfeFe _ _ _ => true
  | .ldfeEf _ _ _ => true
  | .bmov _ _ _ _ => true
  | .stfeFf _ _ _ => true
  | .stfeFe _ _ _ => true
  | .stfeEf _ _ _ => true
  | .stfeXf _ _ _ => true
  | .atomAdd _ _ _ _ => true
  | .atomAnd _ _ _ _ => true
  | .atomOr _ _ _ _ => true
  | .atomXor _ _ _ _ => true
  | .atomMin _ _ _ _ => true
  | .atomMax _ _ _ _ => true
  | .atomMinu _ _ _ _ => true
  | .atomMaxu _ _ _ _ => true
  | .atomSwap _ _ _ _ => true
  | .cas _ _ _ _ => true
  | .fatomAddF32 _ _ _ _ => true
  | .fatomAddF64 _ _ _ _ => true
  | .faddF32 _ _ _ _ => true
  | .fsubF32 _ _ _ _ => true
  | .fmulF32 _ _ _ _ => true
  | .fdivF32 _ _ _ _ => true
  | .faddF64 _ _ _ _ => true
  | .fsubF64 _ _ _ _ => true
  | .fmulF64 _ _ _ _ => true
  | .fdivF64 _ _ _ _ => true
  | .fminF32 _ _ _ _ => true
  | .fmaxF32 _ _ _ _ => true
  | .ffmaF32 _ _ _ _ => true
  | .fsqrtF32 _ _ _ => true
  | .fabsF32 _ _ _ => true
  | .fnegF32 _ _ _ => true
  | .fclassF32 _ _ _ => true
  | .fminF64 _ _ _ _ => true
  | .fmaxF64 _ _ _ _ => true
  | .ffmaF64 _ _ _ _ => true
  | .fsqrtF64 _ _ _ => true
  | .fabsF64 _ _ _ => true
  | .fnegF64 _ _ _ => true
  | .fclassF64 _ _ _ => true
  | .fcmpEqF32 _ _ _ _ => true
  | .fcmpLtF32 _ _ _ _ => true
  | .fcmpLeF32 _ _ _ _ => true
  | .fcmpUnF32 _ _ _ _ => true
  | .fcmpEqF64 _ _ _ _ => true
  | .fcmpLtF64 _ _ _ _ => true
  | .fcmpLeF64 _ _ _ _ => true
  | .fcmpUnF64 _ _ _ _ => true
  | .fcvt _ _ _ _ _ _ => true
  | .icvt _ _ _ _ _ _ _ => true
  | .vadd _ _ _ _ => true
  | .vsub _ _ _ _ => true
  | .vmul _ _ _ _ => true
  | .vfma _ _ _ _ => true
  | .vmax _ _ _ _ => true
  | .vmin _ _ _ _ => true
  | .vscale _ _ _ => true
  | .vcmp _ _ _ _ => true
  | .vset _ _ => true
  | .vexp2 _ _ _ => true
  | .vrcp _ _ _ => true
  | .vred _ _ _ => true
  | .vcvt _ _ _ => true
  | .vqnt _ _ _ _ => true
  | .vdeq _ _ _ _ => true
  | .oxl _ _ _ => true
  | .oxr _ _ _ => true
  | .oxli _ _ _ => true
  | .cpy _ _ _ _ => true
  | .cpyV _ _ _ _ => true
  | .cpyW _ _ _ _ => true
  | .cpym _ _ _ _ => true
  | .tlw _ _ _ => true
  | .tlr _ _ _ => true
  | .mxop _ _ _ _ => true
  | .mxz _ _ => true
  | .mxld _ _ _ => true
  | .mxst _ _ _ => true
  | .mxuc _ _ => true
  | .mxmode _ _ _ => true
  | .twx _ _ _ => true
  | .twr _ _ _ => true
  | .tww _ _ _ => true
  | .licq _ _ _ => true
  | .licr _ => true
  | .spawn _ _ _ => true
  | .spawnInl _ _ _ => true
  | .commit _ _ => true
  | .send _ _ _ => true
  | .irrev _ _ _ => true
  | .work _ _ => true
  | .tvt _ _ => true
  | .lwait _ _ _ => true
  | .barc _ _ _ => true
  | .bar _ _ => true
  | .barw _ _ => true
  | .rjoin _ _ _ => true
  | .rsend _ _ _ _ => true
  | .rwait _ _ _ _ => true
  | .rrel _ _ _ => true
  | .rleave _ _ => true
  | .attnInit _ _ _ => true
  | .attnStep _ _ _ _ => true
  | .attnFin _ _ _ => true
  | .csrr _ _ _ => true
  | .csrw _ _ _ => true
  | .csrs _ _ _ => true
  | .csrc _ _ _ => true
  | .trap _ _ => true
  | .eret _ => true
  | .migr _ _ _ => true
  | .slot _ _ _ => true
  | .xinv _ _ => true
  | .xprobe _ _ _ => true
  | .fwd _ _ _ => true
  | .abort _ _ => true
  | .haltc _ _ _ => true
  | .wake _ => true
  | .hint _ _ _ _ => true
  | .movShort _ _ => true
  | .addiShort _ _ _ => true
  | .addShort _ _ => true
  | .subShort _ _ => true
  | .andShort _ _ => true
  | .orShort _ _ => true
  | .xorShort _ _ => true
  | .shliShort _ _ _ => true
  | .shriShort _ _ _ => true
  | .ldDShort _ _ _ => true
  | .stDShort _ _ _ => true
  | .liShort _ _ => true
  | .nopShort => true
  | .yieldShort => true
  | .retShort => true
  | .jrShort _ => true
  | .haltShort => true
  | .delayedRegisterWrite => false
  | .asyncTrapRaise => false
  | .vectorStep => false
  | .bmovStep => false
  | .slotRemoval => false
  | .slotRestore => false
  | .debugStop => false
  | .breakpoint => false
  | .suspDelayExpiry => false
  | .homeRequest => false
  | .parkSave => false
  | .parkConfirm => false
  | .homeReply => false
  | .storeAcknowledge => false
  | .revocation => false
  | .portAccess => false
  | .metadataUpdate => false
  | .tlbWalkComplete => false
  | .copyCommandStart => false
  | .copyChunkReadReply => false
  | .copyChunkWrite => false
  | .gatherBegin => false
  | .gatherEnd => false
  | .arrayStart => false
  | .mxopComplete => false
  | .portOperationComplete => false
  | .holdQuantumExpiry => false
  | .dutyWindowStart => false
  | .withheldIntervalStart => false
  | .engineGate => false
  | .breakEvenHoldExpiry => false
  | .inrushAdmission => false
  | .engineWakeComplete => false
  | .engineReturn => false
  | .attentionEngineComplete => false
  | .barrierArrival => false
  | .barrierRelease => false
  | .agingStep => false
  | .stealProbe => false
  | .probeAnswer => false
  | .stealRetryExpiry => false
  | .preemption => false
  | .commitArrival => false
  | .commitAnswer => false
  | .cancel => false
  | .dropConfirmation => false
  | .checkpoint => false
  | .weirReport => false
  | .messageArrival => false
  | .antiMessageArrival => false
  | .inboxDispatch => false
  | .versionRevocation => false
  | .lwTokenVisit => false
  | .lwgapExpiry => false
  | .lwMarkArrival => false
  | .abortTokenVisit => false
  | .restart => false
  | .ringAnnouncement => false
  | .rillToken => false
  | .rillBeat => false
  | .readOut => false
  | .ringBreak => false
  | .packetRefusal => false
  | .groupPark => false
  | .groupWake => false
  | .heaterSettle => false
  | .lockComplete => false
  | .reset => false
  | .incarnationAnnouncement => false
  | .readySet => false
  | .migrRequestArrival => false
  | .contextStreamEnd => false
  | .forwardingEntryExpiry => false
  | .powerMeasurement => false
  | .retry => false
  | .skip => false
  | .drop => false
  | .abortResp => false
  | .hostLaunch => false
  | .peerLaunch => false
  | .stagingAccess => false
  | .hostRegisterWrite => false
  | .identify => false
  | .attest => false
  | .jobOpen => false
  | .jobClose => false
  | .tenantMap => false
  | .formatRange => false
  | .actSet => false
  | .powerCap => false
  | .groupSet => false
  | .circuitChange => false
  | .parkPolicy => false
  | .traceCtl => false
  | .lockstep => false
  | .illegalEncoding => false
  | .instructionFetchFault => false
  | .notSupportedCommand => false
  | .evqheadAdvance => false

/-- Fields that the row's own word can hold: ADDSH shifts by 1 to 3 (its fourth function value is SADD, 02 R37); an
unallocated hint of major 0x3E has F other than 0 (02 R41); .SAT is written only for E5M2 (02 R38). -/
def Instr.fieldsOk (i : Instr) : Bool :=
  match i with
  | .addsh _ _ _ k _ => k != 3
  | .hint f _ maj _ => maj == 1 || f != 0
  | .fcvt _ _ q t _ _ => q == 0 || t == 4
  | _ => true

/-- FCVT and ICVT with format codes the map names: others are words that trap ILLEGAL (02 R38). -/
def Instr.codesOk (i : Instr) : Bool :=
  match i with
  | .fcvt _ _ _ t v _ => decide (t.toNat ≤ 4) && decide (v.toNat ≤ 4) && t != v
  | .icvt _ _ _ _ _ v _ => decide (v.toNat ≤ 2)
  | _ => true

/-- A well-formed instruction: a word whose fields and format codes the opcode map allows. -/
def Instr.wf (i : Instr) : Bool := i.isWord && i.fieldsOk && i.codesOk

end Sys2Proof
end

