-- ==== Sys2Proof/Decode.lean ====
section
/-! DEFINITION. Instruction words and back: the framing and formats of 01 R13 to R18, the opcode map of 02 R37 to R43, the
fate of every other encoding (02 R42), and the encoder. Words are numbers here; every field is a quotient and a remainder. -/

namespace Sys2Proof

/-- Bits [lo + n − 1 : lo] of a word (00 R8). -/
def fld (w lo n : Nat) : BitVec n := BitVec.ofNat n (w / 2 ^ lo)

/-- A number as n bytes, least significant first (00 R11). -/
def toBytes (v : Nat) : Nat → List Byte
  | 0 => []
  | n + 1 => BitVec.ofNat 8 v :: toBytes (v / 256) n

/-- Bytes, least significant first, as a number (00 R11). -/
def ofBytes : List Byte → Nat
  | [] => 0
  | b :: r => b.toNat + 256 * ofBytes r

/-- Why bits are no instruction (02 R42): each traps ILLEGAL; `tooShort` is no encoding but missing bytes. -/
inductive DecodeError where
  | tooShort
  | reservedMajor
  | unallocatedMajor (op : Nat)
  | unallocatedFunction (op f : Nat)
  | unlistedSelector (op f b : Nat)
  | unlistedCsrOperation (a : Nat)
  | unsignedDoubleword
  | unallocatedOp4 (op4 : Nat)
  | unallocatedControl (f3 : Nat)
  deriving DecidableEq, Repr

/-- Group G-INT (02 R39). -/
def decodeInt (w : Nat) : Except DecodeError Instr :=
  let r9 : BitVec 7 := fld w 9 7
  let r16 : BitVec 7 := fld w 16 7
  let st : BitVec 2 := fld w 1 2
  match w / 2 ^ 23 % 2 ^ 7 with
  | 0 => .ok (.mov r9 r16 st)
  | 1 => .ok (.clz r9 r16 st)
  | 2 => .ok (.ctz r9 r16 st)
  | 3 => .ok (.popc r9 r16 st)
  | 4 => .ok (.sextB r9 r16 st)
  | 5 => .ok (.sextH r9 r16 st)
  | 6 => .ok (.sextW r9 r16 st)
  | 7 => .ok (.zextB r9 r16 st)
  | 8 => .ok (.zextH r9 r16 st)
  | 9 => .ok (.zextW r9 r16 st)
  | 10 => .ok (.rdcyc r9 st)
  | 11 => .ok (.rdid r9 st)
  | 12 => .ok (.srd r9 (fld w 16 4) st)
  | 13 => .ok (.swr (fld w 9 4) r16 st)
  | b => .error (.unlistedSelector 0x09 3 b)

/-- Group G-BR (02 R39). -/
def decodeBr (w : Nat) : Except DecodeError Instr :=
  let r9 : BitVec 7 := fld w 9 7
  let st : BitVec 2 := fld w 1 2
  match w / 2 ^ 16 % 2 ^ 7 with
  | 0 => .ok (.bz r9 (fld w 23 9) st)
  | 1 => .ok (.bnz r9 (fld w 23 9) st)
  | 2 => .ok (.bltz r9 (fld w 23 9) st)
  | 3 => .ok (.bgez r9 (fld w 23 9) st)
  | 4 => .ok (.dbnz r9 (fld w 23 9) st)
  | b => .error (.unlistedSelector 0x10 0 b)

/-- Group G-CTL (02 R39). -/
def decodeCtl (w : Nat) : Except DecodeError Instr :=
  let r16 : BitVec 7 := fld w 16 7
  let st : BitVec 2 := fld w 1 2
  match w / 2 ^ 23 % 2 ^ 7 with
  | 0 => .ok (.rep r16 st)
  | 1 => .ok (.susp r16 st)
  | 2 => .ok (.halt st)
  | 3 => .ok (.yield st)
  | 4 => .ok (.nop st)
  | b => .error (.unlistedSelector 0x17 3 b)

/-- Group G-MEM (02 R39). -/
def decodeMem (w : Nat) : Except DecodeError Instr :=
  let r9 : BitVec 7 := fld w 9 7
  let r16 : BitVec 7 := fld w 16 7
  let st : BitVec 2 := fld w 1 2
  match w / 2 ^ 23 % 2 ^ 7 with
  | 0 => .ok (.ldAcq r9 r16 st)
  | 1 => .ok (.stRel r9 r16 st)
  | 2 => .ok (.fenceAcq st)
  | 3 => .ok (.fenceRel st)
  | 4 => .ok (.fenceFull st)
  | 5 => .ok (.lbsync st)
  | 6 => .ok (.feq r9 r16 st)
  | 7 => .ok (.fesetE r16 st)
  | 8 => .ok (.fesetF r16 st)
  | 9 => .ok (.pref r16 st)
  | 10 => .ok (.drinitF32 r16 st)
  | 11 => .ok (.drinitF64 r16 st)
  | 12 => .ok (.dredF32 r9 r16 st)
  | 13 => .ok (.dredBf16 r9 r16 st)
  | 14 => .ok (.dredF64 r9 r16 st)
  | 15 => .ok (.dredAcc r9 r16 st)
  | 16 => .ok (.dreadF32 r9 r16 st)
  | 17 => .ok (.dreadBf16 r9 r16 st)
  | 18 => .ok (.dreadF64 r9 r16 st)
  | 19 => .ok (.dreadAcc r9 r16 st)
  | b => .error (.unlistedSelector 0x1A 2 b)

/-- Group G-F32 (02 R39). -/
def decodeF32 (w : Nat) : Except DecodeError Instr :=
  let r9 : BitVec 7 := fld w 9 7
  let r16 : BitVec 7 := fld w 16 7
  let st : BitVec 2 := fld w 1 2
  match w / 2 ^ 23 % 2 ^ 7 with
  | 0 => .ok (.fsqrtF32 r9 r16 st)
  | 1 => .ok (.fabsF32 r9 r16 st)
  | 2 => .ok (.fnegF32 r9 r16 st)
  | 3 => .ok (.fclassF32 r9 r16 st)
  | b => .error (.unlistedSelector 0x22 3 b)

/-- Group G-F64 (02 R39). -/
def decodeF64 (w : Nat) : Except DecodeError Instr :=
  let r9 : BitVec 7 := fld w 9 7
  let r16 : BitVec 7 := fld w 16 7
  let st : BitVec 2 := fld w 1 2
  match w / 2 ^ 23 % 2 ^ 7 with
  | 0 => .ok (.fsqrtF64 r9 r16 st)
  | 1 => .ok (.fabsF64 r9 r16 st)
  | 2 => .ok (.fnegF64 r9 r16 st)
  | 3 => .ok (.fclassF64 r9 r16 st)
  | b => .error (.unlistedSelector 0x23 3 b)

/-- The CSR group (02 R40). -/
def decodeCsr (w : Nat) : Except DecodeError Instr :=
  let r9 : BitVec 7 := fld w 9 7
  let st : BitVec 2 := fld w 1 2
  match w / 2 ^ 16 % 2 ^ 7 with
  | 0 => .ok (.csrr r9 (fld w 23 9) st)
  | 1 => .ok (.csrw r9 (fld w 23 9) st)
  | 2 => .ok (.csrs r9 (fld w 23 9) st)
  | 3 => .ok (.csrc r9 (fld w 23 9) st)
  | b => .error (.unlistedCsrOperation b)

/-- Group G-SYS (02 R39). -/
def decodeSys (w : Nat) : Except DecodeError Instr :=
  let r9 : BitVec 7 := fld w 9 7
  let r16 : BitVec 7 := fld w 16 7
  let st : BitVec 2 := fld w 1 2
  match w / 2 ^ 23 % 2 ^ 7 with
  | 0 => .ok (.trap r16 st)
  | 1 => .ok (.eret st)
  | 2 => .ok (.migr r9 r16 st)
  | 3 => .ok (.slot r9 r16 st)
  | 4 => .ok (.xinv r16 st)
  | 5 => .ok (.xprobe r9 r16 st)
  | 6 => .ok (.fwd r9 r16 st)
  | 7 => .ok (.abort r16 st)
  | 8 => .ok (.haltc r9 r16 st)
  | b => .error (.unlistedSelector 0x3D 0 b)

/-- The long word of 32 bits (01 R15, 02 R37). -/
def decodeLong (w : Nat) : Except DecodeError Instr :=
  let r9 : BitVec 7 := fld w 9 7
  let r16 : BitVec 7 := fld w 16 7
  let r23 : BitVec 7 := fld w 23 7
  let st : BitVec 2 := fld w 1 2
  match w / 2 ^ 3 % 2 ^ 6 with
  | 0x00 => .error .reservedMajor
  | 0x01 =>
    match w / 2 ^ 30 % 4 with
    | 0 => .ok (.add r9 r16 r23 st)
    | 1 => .ok (.sub r9 r16 r23 st)
    | 2 => .ok (.mul r9 r16 r23 st)
    | _ => .ok (.mulh r9 r16 r23 st)
  | 0x02 =>
    match w / 2 ^ 30 % 4 with
    | 0 => .ok (.mulhu r9 r16 r23 st)
    | 1 => .ok (.div r9 r16 r23 st)
    | 2 => .ok (.divu r9 r16 r23 st)
    | _ => .ok (.rem r9 r16 r23 st)
  | 0x03 =>
    match w / 2 ^ 30 % 4 with
    | 0 => .ok (.remu r9 r16 r23 st)
    | 1 => .ok (.min r9 r16 r23 st)
    | 2 => .ok (.max r9 r16 r23 st)
    | _ => .ok (.minu r9 r16 r23 st)
  | 0x04 =>
    match w / 2 ^ 30 % 4 with
    | 0 => .ok (.maxu r9 r16 r23 st)
    | 1 => .ok (.and r9 r16 r23 st)
    | 2 => .ok (.or r9 r16 r23 st)
    | _ => .ok (.xor r9 r16 r23 st)
  | 0x05 =>
    match w / 2 ^ 30 % 4 with
    | 0 => .ok (.andn r9 r16 r23 st)
    | 1 => .ok (.shl r9 r16 r23 st)
    | 2 => .ok (.shr r9 r16 r23 st)
    | _ => .ok (.sar r9 r16 r23 st)
  | 0x06 =>
    match w / 2 ^ 30 % 4 with
    | 0 => .ok (.rol r9 r16 r23 st)
    | 1 => .ok (.seq r9 r16 r23 st)
    | 2 => .ok (.sne r9 r16 r23 st)
    | _ => .ok (.slt r9 r16 r23 st)
  | 0x07 =>
    match w / 2 ^ 30 % 4 with
    | 0 => .ok (.sltu r9 r16 r23 st)
    | 1 => .ok (.sel r9 r16 r23 st)
    | 2 => .ok (.bfx r9 r16 r23 st)
    | _ => .ok (.bfi r9 r16 r23 st)
  | 0x08 =>
    match w / 2 ^ 30 % 4 with
    | 0 => .ok (.addsh r9 r16 r23 (fld w 30 2) st)
    | 1 => .ok (.addsh r9 r16 r23 (fld w 30 2) st)
    | 2 => .ok (.addsh r9 r16 r23 (fld w 30 2) st)
    | _ => .ok (.sadd r9 (fld w 16 4) r23 st)
  | 0x09 =>
    match w / 2 ^ 30 % 4 with
    | 0 => .ok (.shli r9 r16 (fld w 23 6) st)
    | 1 => .ok (.shri r9 r16 (fld w 23 6) st)
    | 2 => .ok (.sari r9 r16 (fld w 23 6) st)
    | _ => decodeInt w
  | 0x0A => .ok (.addi r9 r16 (fld w 23 9) st)
  | 0x0B => .ok (.andi r9 r16 (fld w 23 9) st)
  | 0x0C => .ok (.ori r9 r16 (fld w 23 9) st)
  | 0x0D => .ok (.xori r9 r16 (fld w 23 9) st)
  | 0x0E => .ok (.li r9 (fld w 16 16) st)
  | 0x0F => .ok (.lih r9 (fld w 16 16) st)
  | 0x10 => decodeBr w
  | 0x11 => .ok (.beq r9 r16 (fld w 23 9) st)
  | 0x12 => .ok (.bne r9 r16 (fld w 23 9) st)
  | 0x13 => .ok (.blt r9 r16 (fld w 23 9) st)
  | 0x14 => .ok (.bltu r9 r16 (fld w 23 9) st)
  | 0x15 => .ok (.j (fld w 9 23) st)
  | 0x16 => .ok (.call (fld w 9 23) st)
  | 0x17 =>
    match w / 2 ^ 30 % 4 with
    | 0 => .ok (.ret st)
    | 1 => .ok (.jr r16 st)
    | 2 => .ok (.jalr r9 r16 st)
    | _ => decodeCtl w
  | 0x18 =>
    match w / 2 ^ 30 % 4 with
    | 0 => if w / 2 ^ 29 % 2 = 0 then .ok (.ldB r9 r16 (fld w 23 6) st) else .ok (.ldBU r9 r16 (fld w 23 6) st)
    | 1 => if w / 2 ^ 29 % 2 = 0 then .ok (.ldH r9 r16 (fld w 23 6) st) else .ok (.ldHU r9 r16 (fld w 23 6) st)
    | 2 => if w / 2 ^ 29 % 2 = 0 then .ok (.ldW r9 r16 (fld w 23 6) st) else .ok (.ldWU r9 r16 (fld w 23 6) st)
    | _ => if w / 2 ^ 29 % 2 = 0 then .ok (.ldD r9 r16 (fld w 23 6) st) else .error .unsignedDoubleword
  | 0x19 =>
    match w / 2 ^ 30 % 4 with
    | 0 => .ok (.stB r9 r16 (fld w 23 6) st)
    | 1 => .ok (.stH r9 r16 (fld w 23 6) st)
    | 2 => .ok (.stW r9 r16 (fld w 23 6) st)
    | _ => .ok (.stD r9 r16 (fld w 23 6) st)
  | 0x1A =>
    match w / 2 ^ 30 % 4 with
    | 0 => .ok (.ldx r9 r16 r23 st)
    | 1 => .ok (.stx r9 r16 r23 st)
    | 2 => decodeMem w
    | _ => .error (.unallocatedFunction 0x1A 3)
  | 0x1B =>
    match w / 2 ^ 30 % 4 with
    | 0 => .ok (.ldfeFf r9 r16 st)
    | 1 => .ok (.ldfeFe r9 r16 st)
    | 2 => .ok (.ldfeEf r9 r16 st)
    | _ => .ok (.bmov r9 r16 r23 st)
  | 0x1C =>
    match w / 2 ^ 30 % 4 with
    | 0 => .ok (.stfeFf r9 r16 st)
    | 1 => .ok (.stfeFe r9 r16 st)
    | 2 => .ok (.stfeEf r9 r16 st)
    | _ => .ok (.stfeXf r9 r16 st)
  | 0x1D =>
    match w / 2 ^ 30 % 4 with
    | 0 => .ok (.atomAdd r9 r16 r23 st)
    | 1 => .ok (.atomAnd r9 r16 r23 st)
    | 2 => .ok (.atomOr r9 r16 r23 st)
    | _ => .ok (.atomXor r9 r16 r23 st)
  | 0x1E =>
    match w / 2 ^ 30 % 4 with
    | 0 => .ok (.atomMin r9 r16 r23 st)
    | 1 => .ok (.atomMax r9 r16 r23 st)
    | 2 => .ok (.atomMinu r9 r16 r23 st)
    | _ => .ok (.atomMaxu r9 r16 r23 st)
  | 0x1F =>
    match w / 2 ^ 30 % 4 with
    | 0 => .ok (.atomSwap r9 r16 r23 st)
    | 1 => .ok (.cas r9 r16 r23 st)
    | 2 => .ok (.fatomAddF32 r9 r16 r23 st)
    | _ => .ok (.fatomAddF64 r9 r16 r23 st)
  | 0x20 =>
    match w / 2 ^ 30 % 4 with
    | 0 => .ok (.faddF32 r9 r16 r23 st)
    | 1 => .ok (.fsubF32 r9 r16 r23 st)
    | 2 => .ok (.fmulF32 r9 r16 r23 st)
    | _ => .ok (.fdivF32 r9 r16 r23 st)
  | 0x21 =>
    match w / 2 ^ 30 % 4 with
    | 0 => .ok (.faddF64 r9 r16 r23 st)
    | 1 => .ok (.fsubF64 r9 r16 r23 st)
    | 2 => .ok (.fmulF64 r9 r16 r23 st)
    | _ => .ok (.fdivF64 r9 r16 r23 st)
  | 0x22 =>
    match w / 2 ^ 30 % 4 with
    | 0 => .ok (.fminF32 r9 r16 r23 st)
    | 1 => .ok (.fmaxF32 r9 r16 r23 st)
    | 2 => .ok (.ffmaF32 r9 r16 r23 st)
    | _ => decodeF32 w
  | 0x23 =>
    match w / 2 ^ 30 % 4 with
    | 0 => .ok (.fminF64 r9 r16 r23 st)
    | 1 => .ok (.fmaxF64 r9 r16 r23 st)
    | 2 => .ok (.ffmaF64 r9 r16 r23 st)
    | _ => decodeF64 w
  | 0x24 =>
    match w / 2 ^ 30 % 4 with
    | 0 => .ok (.fcmpEqF32 r9 r16 r23 st)
    | 1 => .ok (.fcmpLtF32 r9 r16 r23 st)
    | 2 => .ok (.fcmpLeF32 r9 r16 r23 st)
    | _ => .ok (.fcmpUnF32 r9 r16 r23 st)
  | 0x25 =>
    match w / 2 ^ 30 % 4 with
    | 0 => .ok (.fcmpEqF64 r9 r16 r23 st)
    | 1 => .ok (.fcmpLtF64 r9 r16 r23 st)
    | 2 => .ok (.fcmpLeF64 r9 r16 r23 st)
    | _ => .ok (.fcmpUnF64 r9 r16 r23 st)
  | 0x26 =>
    match w / 2 ^ 30 % 4 with
    | 0 => .ok (.fcvt r9 r16 (fld w 29 1) (fld w 26 3) (fld w 23 3) st)
    | 1 => .ok (.icvt r9 r16 (fld w 29 1) (fld w 28 1) (fld w 27 1) (fld w 23 3) st)
    | 2 => .error (.unallocatedFunction 0x26 2)
    | _ => .error (.unallocatedFunction 0x26 3)
  | 0x27 => .error (.unallocatedMajor 0x27)
  | 0x28 =>
    match w / 2 ^ 30 % 4 with
    | 0 => .ok (.vadd r9 r16 r23 st)
    | 1 => .ok (.vsub r9 r16 r23 st)
    | 2 => .ok (.vmul r9 r16 r23 st)
    | _ => .ok (.vfma r9 r16 r23 st)
  | 0x29 =>
    match w / 2 ^ 30 % 4 with
    | 0 => .ok (.vmax r9 r16 r23 st)
    | 1 => .ok (.vmin r9 r16 r23 st)
    | 2 => .ok (.vscale r9 r16 st)
    | _ => .ok (.vcmp r9 r16 r23 st)
  | 0x2A =>
    match w / 2 ^ 30 % 4 with
    | 0 => .ok (.vset r9 st)
    | 1 => .ok (.vexp2 r9 r16 st)
    | 2 => .ok (.vrcp r9 r16 st)
    | _ => .ok (.vred r9 r16 st)
  | 0x2B =>
    match w / 2 ^ 30 % 4 with
    | 0 => .ok (.vcvt r9 r16 st)
    | 1 => .ok (.vqnt r9 r16 r23 st)
    | 2 => .ok (.vdeq r9 r16 r23 st)
    | _ => .error (.unallocatedFunction 0x2B 3)
  | 0x2C =>
    match w / 2 ^ 30 % 4 with
    | 0 => .ok (.oxl (fld w 9 3) r16 st)
    | 1 => .ok (.oxr r9 (fld w 16 3) st)
    | 2 => .error (.unallocatedFunction 0x2C 2)
    | _ => .error (.unallocatedFunction 0x2C 3)
  | 0x2D => .ok (.oxli (fld w 9 3) (fld w 16 16) st)
  | 0x2E =>
    match w / 2 ^ 30 % 4 with
    | 0 => .ok (.cpy r9 r16 r23 st)
    | 1 => .ok (.cpyV r9 r16 r23 st)
    | 2 => .ok (.cpyW r9 r16 r23 st)
    | _ => .ok (.cpym r9 r16 r23 st)
  | 0x2F =>
    match w / 2 ^ 30 % 4 with
    | 0 => .ok (.tlw r16 r23 st)
    | 1 => .ok (.tlr r9 r16 st)
    | 2 => .error (.unallocatedFunction 0x2F 2)
    | _ => .error (.unallocatedFunction 0x2F 3)
  | 0x30 =>
    match w / 2 ^ 30 % 4 with
    | 0 => .ok (.mxop (fld w 9 3) r16 r23 st)
    | 1 => .ok (.mxz (fld w 9 3) st)
    | 2 => .ok (.mxld (fld w 9 3) r16 st)
    | _ => .ok (.mxst (fld w 9 3) r16 st)
  | 0x31 =>
    match w / 2 ^ 30 % 4 with
    | 0 => .ok (.mxuc r16 st)
    | 1 => .ok (.mxmode r9 r16 st)
    | 2 => .error (.unallocatedFunction 0x31 2)
    | _ => .error (.unallocatedFunction 0x31 3)
  | 0x32 =>
    match w / 2 ^ 30 % 4 with
    | 0 => .ok (.twx r9 (fld w 16 2) st)
    | 1 => .ok (.twr r9 (fld w 16 2) st)
    | 2 => .ok (.tww (fld w 9 2) r16 st)
    | _ => .error (.unallocatedFunction 0x32 3)
  | 0x33 =>
    match w / 2 ^ 30 % 4 with
    | 0 => .ok (.licq r9 r16 st)
    | 1 => .ok (.licr st)
    | 2 => .error (.unallocatedFunction 0x33 2)
    | _ => .error (.unallocatedFunction 0x33 3)
  | 0x34 => .error (.unallocatedMajor 0x34)
  | 0x35 => .error (.unallocatedMajor 0x35)
  | 0x36 =>
    match w / 2 ^ 30 % 4 with
    | 0 => .ok (.spawn r9 r16 st)
    | 1 => .ok (.spawnInl r9 r16 st)
    | 2 => .ok (.commit r16 st)
    | _ => .ok (.send r9 r16 st)
  | 0x37 =>
    match w / 2 ^ 30 % 4 with
    | 0 => .ok (.irrev r9 r16 st)
    | 1 => .ok (.work r16 st)
    | 2 => .ok (.tvt r9 st)
    | _ => .ok (.lwait r9 r16 st)
  | 0x38 =>
    match w / 2 ^ 30 % 4 with
    | 0 => .ok (.barc (fld w 9 3) r16 st)
    | 1 => .ok (.bar (fld w 9 3) st)
    | 2 => .ok (.barw (fld w 9 3) st)
    | _ => .error (.unallocatedFunction 0x38 3)
  | 0x39 => .error (.unallocatedMajor 0x39)
  | 0x3A =>
    match w / 2 ^ 30 % 4 with
    | 0 => .ok (.rjoin r9 r16 st)
    | 1 => .ok (.rsend r9 r16 r23 st)
    | 2 => .ok (.rwait r9 r16 r23 st)
    | _ => .ok (.rrel r16 r23 st)
  | 0x3B =>
    match w / 2 ^ 30 % 4 with
    | 0 => .ok (.rleave r16 st)
    | 1 => .ok (.attnInit r9 r16 st)
    | 2 => .ok (.attnStep r9 r16 r23 st)
    | _ => .ok (.attnFin r9 r16 st)
  | 0x3C => decodeCsr w
  | 0x3D =>
    match w / 2 ^ 30 % 4 with
    | 0 => decodeSys w
    | 1 => .error (.unallocatedFunction 0x3D 1)
    | 2 => .error (.unallocatedFunction 0x3D 2)
    | _ => .error (.unallocatedFunction 0x3D 3)
  | 0x3E => if w / 2 ^ 30 % 4 = 0 then .ok (.wake st) else .ok (.hint (fld w 30 2) (fld w 9 21) (fld w 3 1) st)
  | 0x3F => .ok (.hint (fld w 30 2) (fld w 9 21) (fld w 3 1) st)
  | op => .error (.unallocatedMajor op)

/-- The short word of 16 bits (01 R16, 02 R43). -/
def decodeShort (w : Nat) : Except DecodeError Instr :=
  match w / 2 % 2 ^ 4 with
  | 0 => .ok (.movShort (fld w 5 4) (fld w 9 4))
  | 1 => .ok (.addiShort (fld w 5 4) (fld w 9 4) (fld w 13 3))
  | 2 => .ok (.addShort (fld w 5 4) (fld w 9 4))
  | 3 => .ok (.subShort (fld w 5 4) (fld w 9 4))
  | 4 => .ok (.andShort (fld w 5 4) (fld w 9 4))
  | 5 => .ok (.orShort (fld w 5 4) (fld w 9 4))
  | 6 => .ok (.xorShort (fld w 5 4) (fld w 9 4))
  | 7 => .ok (.shliShort (fld w 5 4) (fld w 9 4) (fld w 13 3))
  | 8 => .ok (.shriShort (fld w 5 4) (fld w 9 4) (fld w 13 3))
  | 9 => .ok (.ldDShort (fld w 5 4) (fld w 9 4) (fld w 13 3))
  | 10 => .ok (.stDShort (fld w 5 4) (fld w 9 4) (fld w 13 3))
  | 11 => .ok (.liShort (fld w 5 4) (fld w 9 7))
  | 12 =>
    match w / 2 ^ 13 % 2 ^ 3 with
    | 0 => .ok .nopShort
    | 1 => .ok .yieldShort
    | 2 => .ok .retShort
    | 3 => .ok (.jrShort (fld w 9 4))
    | 4 => .ok .haltShort
    | f3 => .error (.unallocatedControl f3)
  | op4 => .error (.unallocatedOp4 op4)

/-- Bit 0 of the first halfword is 1 in a long word (01 R13). -/
def isLong (half : Nat) : Bool := half % 2 = 1

/-- The instruction at the head of a list of bytes, and the bytes after it (01 R13). -/
def decode (bytes : List Byte) : Except DecodeError (Instr × List Byte) :=
  match bytes with
  | b0 :: b1 :: r =>
    if isLong b0.toNat then
      match r with
      | b2 :: b3 :: r' => (decodeLong (ofBytes [b0, b1, b2, b3])).map (fun i => (i, r'))
      | _ => .error .tooShort
    else (decodeShort (ofBytes [b0, b1])).map (fun i => (i, r))
  | _ => .error .tooShort

/-- The instruction the decoder reads from a row of the opcode table: its bits laid out as little-endian halfwords, zeros
above them. -/
def decodeTableWord (nbits w : Nat) : Option Instr :=
  match decode (toBytes (w % 2 ^ nbits) 4) with
  | .ok (i, _) => some i
  | .error _ => none

/-! ## The encoder -/

/-- Format L3 (01 R15). -/
def packL3 (op f b a d st : Nat) : Nat :=
  1 + 2 * st + 2 ^ 3 * op + 2 ^ 9 * d + 2 ^ 16 * a + 2 ^ 23 * b + 2 ^ 30 * f
/-- Format LIA (01 R15). -/
def packLIA (op i a d st : Nat) : Nat := 1 + 2 * st + 2 ^ 3 * op + 2 ^ 9 * d + 2 ^ 16 * a + 2 ^ 23 * i
/-- Format LIW (01 R15). -/
def packLIW (op i d st : Nat) : Nat := 1 + 2 * st + 2 ^ 3 * op + 2 ^ 9 * d + 2 ^ 16 * i
/-- Format LBB (01 R15). -/
def packLBB (op h b a st : Nat) : Nat := 1 + 2 * st + 2 ^ 3 * op + 2 ^ 9 * a + 2 ^ 16 * b + 2 ^ 23 * h
/-- Format LJ (01 R15). -/
def packLJ (op h st : Nat) : Nat := 1 + 2 * st + 2 ^ 3 * op + 2 ^ 9 * h
/-- A short word (01 R16). -/
def packShort (op4 d a f3 : Nat) : Nat := 2 * op4 + 2 ^ 5 * d + 2 ^ 9 * a + 2 ^ 13 * f3

/-- The word of an instruction as a number, 0 in every reserved bit (01 R19); none for the rows that are no word. -/
def encodeNat (i : Instr) : Option Nat :=
  match i with
  | .add d a b st => some (packL3 0x01 0 b.toNat a.toNat d.toNat st.toNat)
  | .sub d a b st => some (packL3 0x01 1 b.toNat a.toNat d.toNat st.toNat)
  | .mul d a b st => some (packL3 0x01 2 b.toNat a.toNat d.toNat st.toNat)
  | .mulh d a b st => some (packL3 0x01 3 b.toNat a.toNat d.toNat st.toNat)
  | .mulhu d a b st => some (packL3 0x02 0 b.toNat a.toNat d.toNat st.toNat)
  | .div d a b st => some (packL3 0x02 1 b.toNat a.toNat d.toNat st.toNat)
  | .divu d a b st => some (packL3 0x02 2 b.toNat a.toNat d.toNat st.toNat)
  | .rem d a b st => some (packL3 0x02 3 b.toNat a.toNat d.toNat st.toNat)
  | .remu d a b st => some (packL3 0x03 0 b.toNat a.toNat d.toNat st.toNat)
  | .min d a b st => some (packL3 0x03 1 b.toNat a.toNat d.toNat st.toNat)
  | .max d a b st => some (packL3 0x03 2 b.toNat a.toNat d.toNat st.toNat)
  | .minu d a b st => some (packL3 0x03 3 b.toNat a.toNat d.toNat st.toNat)
  | .maxu d a b st => some (packL3 0x04 0 b.toNat a.toNat d.toNat st.toNat)
  | .and d a b st => some (packL3 0x04 1 b.toNat a.toNat d.toNat st.toNat)
  | .or d a b st => some (packL3 0x04 2 b.toNat a.toNat d.toNat st.toNat)
  | .xor d a b st => some (packL3 0x04 3 b.toNat a.toNat d.toNat st.toNat)
  | .andn d a b st => some (packL3 0x05 0 b.toNat a.toNat d.toNat st.toNat)
  | .shl d a b st => some (packL3 0x05 1 b.toNat a.toNat d.toNat st.toNat)
  | .shr d a b st => some (packL3 0x05 2 b.toNat a.toNat d.toNat st.toNat)
  | .sar d a b st => some (packL3 0x05 3 b.toNat a.toNat d.toNat st.toNat)
  | .rol d a b st => some (packL3 0x06 0 b.toNat a.toNat d.toNat st.toNat)
  | .seq d a b st => some (packL3 0x06 1 b.toNat a.toNat d.toNat st.toNat)
  | .sne d a b st => some (packL3 0x06 2 b.toNat a.toNat d.toNat st.toNat)
  | .slt d a b st => some (packL3 0x06 3 b.toNat a.toNat d.toNat st.toNat)
  | .sltu d a b st => some (packL3 0x07 0 b.toNat a.toNat d.toNat st.toNat)
  | .sel d a b st => some (packL3 0x07 1 b.toNat a.toNat d.toNat st.toNat)
  | .bfx d a b st => some (packL3 0x07 2 b.toNat a.toNat d.toNat st.toNat)
  | .bfi d a b st => some (packL3 0x07 3 b.toNat a.toNat d.toNat st.toNat)
  | .addsh d a b k st => some (packL3 0x08 k.toNat b.toNat a.toNat d.toNat st.toNat)
  | .sadd d a b st => some (packL3 0x08 3 b.toNat a.toNat d.toNat st.toNat)
  | .shli d a n st => some (packL3 0x09 0 n.toNat a.toNat d.toNat st.toNat)
  | .shri d a n st => some (packL3 0x09 1 n.toNat a.toNat d.toNat st.toNat)
  | .sari d a n st => some (packL3 0x09 2 n.toNat a.toNat d.toNat st.toNat)
  | .mov d a st => some (packL3 0x09 3 0 a.toNat d.toNat st.toNat)
  | .clz d a st => some (packL3 0x09 3 1 a.toNat d.toNat st.toNat)
  | .ctz d a st => some (packL3 0x09 3 2 a.toNat d.toNat st.toNat)
  | .popc d a st => some (packL3 0x09 3 3 a.toNat d.toNat st.toNat)
  | .sextB d a st => some (packL3 0x09 3 4 a.toNat d.toNat st.toNat)
  | .sextH d a st => some (packL3 0x09 3 5 a.toNat d.toNat st.toNat)
  | .sextW d a st => some (packL3 0x09 3 6 a.toNat d.toNat st.toNat)
  | .zextB d a st => some (packL3 0x09 3 7 a.toNat d.toNat st.toNat)
  | .zextH d a st => some (packL3 0x09 3 8 a.toNat d.toNat st.toNat)
  | .zextW d a st => some (packL3 0x09 3 9 a.toNat d.toNat st.toNat)
  | .rdcyc d st => some (packL3 0x09 3 10 0 d.toNat st.toNat)
  | .rdid d st => some (packL3 0x09 3 11 0 d.toNat st.toNat)
  | .srd d a st => some (packL3 0x09 3 12 a.toNat d.toNat st.toNat)
  | .swr d a st => some (packL3 0x09 3 13 a.toNat d.toNat st.toNat)
  | .addi d a i st => some (packLIA 0x0A i.toNat a.toNat d.toNat st.toNat)
  | .andi d a i st => some (packLIA 0x0B i.toNat a.toNat d.toNat st.toNat)
  | .ori d a i st => some (packLIA 0x0C i.toNat a.toNat d.toNat st.toNat)
  | .xori d a i st => some (packLIA 0x0D i.toNat a.toNat d.toNat st.toNat)
  | .li d i st => some (packLIW 0x0E i.toNat d.toNat st.toNat)
  | .lih d i st => some (packLIW 0x0F i.toNat d.toNat st.toNat)
  | .bz a o st => some (packLBB 0x10 o.toNat 0 a.toNat st.toNat)
  | .bnz a o st => some (packLBB 0x10 o.toNat 1 a.toNat st.toNat)
  | .bltz a o st => some (packLBB 0x10 o.toNat 2 a.toNat st.toNat)
  | .bgez a o st => some (packLBB 0x10 o.toNat 3 a.toNat st.toNat)
  | .dbnz a o st => some (packLBB 0x10 o.toNat 4 a.toNat st.toNat)
  | .beq a b o st => some (packLBB 0x11 o.toNat b.toNat a.toNat st.toNat)
  | .bne a b o st => some (packLBB 0x12 o.toNat b.toNat a.toNat st.toNat)
  | .blt a b o st => some (packLBB 0x13 o.toNat b.toNat a.toNat st.toNat)
  | .bltu a b o st => some (packLBB 0x14 o.toNat b.toNat a.toNat st.toNat)
  | .j o st => some (packLJ 0x15 o.toNat st.toNat)
  | .call o st => some (packLJ 0x16 o.toNat st.toNat)
  | .ret st => some (packL3 0x17 0 0 0 0 st.toNat)
  | .jr a st => some (packL3 0x17 1 0 a.toNat 0 st.toNat)
  | .jalr d a st => some (packL3 0x17 2 0 a.toNat d.toNat st.toNat)
  | .rep a st => some (packL3 0x17 3 0 a.toNat 0 st.toNat)
  | .susp a st => some (packL3 0x17 3 1 a.toNat 0 st.toNat)
  | .halt st => some (packL3 0x17 3 2 0 0 st.toNat)
  | .yield st => some (packL3 0x17 3 3 0 0 st.toNat)
  | .nop st => some (packL3 0x17 3 4 0 0 st.toNat)
  | .ldB d a o st => some (packL3 0x18 0 o.toNat a.toNat d.toNat st.toNat)
  | .ldBU d a o st => some (packL3 0x18 0 (64 + o.toNat) a.toNat d.toNat st.toNat)
  | .ldH d a o st => some (packL3 0x18 1 o.toNat a.toNat d.toNat st.toNat)
  | .ldHU d a o st => some (packL3 0x18 1 (64 + o.toNat) a.toNat d.toNat st.toNat)
  | .ldW d a o st => some (packL3 0x18 2 o.toNat a.toNat d.toNat st.toNat)
  | .ldWU d a o st => some (packL3 0x18 2 (64 + o.toNat) a.toNat d.toNat st.toNat)
  | .ldD d a o st => some (packL3 0x18 3 o.toNat a.toNat d.toNat st.toNat)
  | .stB d a o st => some (packL3 0x19 0 o.toNat a.toNat d.toNat st.toNat)
  | .stH d a o st => some (packL3 0x19 1 o.toNat a.toNat d.toNat st.toNat)
  | .stW d a o st => some (packL3 0x19 2 o.toNat a.toNat d.toNat st.toNat)
  | .stD d a o st => some (packL3 0x19 3 o.toNat a.toNat d.toNat st.toNat)
  | .ldx d a b st => some (packL3 0x1A 0 b.toNat a.toNat d.toNat st.toNat)
  | .stx d a b st => some (packL3 0x1A 1 b.toNat a.toNat d.toNat st.toNat)
  | .ldAcq d a st => some (packL3 0x1A 2 0 a.toNat d.toNat st.toNat)
  | .stRel d a st => some (packL3 0x1A 2 1 a.toNat d.toNat st.toNat)
  | .fenceAcq st => some (packL3 0x1A 2 2 0 0 st.toNat)
  | .fenceRel st => some (packL3 0x1A 2 3 0 0 st.toNat)
  | .fenceFull st => some (packL3 0x1A 2 4 0 0 st.toNat)
  | .lbsync st => some (packL3 0x1A 2 5 0 0 st.toNat)
  | .feq d a st => some (packL3 0x1A 2 6 a.toNat d.toNat st.toNat)
  | .fesetE a st => some (packL3 0x1A 2 7 a.toNat 0 st.toNat)
  | .fesetF a st => some (packL3 0x1A 2 8 a.toNat 0 st.toNat)
  | .pref a st => some (packL3 0x1A 2 9 a.toNat 0 st.toNat)
  | .drinitF32 a st => some (packL3 0x1A 2 10 a.toNat 0 st.toNat)
  | .drinitF64 a st => some (packL3 0x1A 2 11 a.toNat 0 st.toNat)
  | .dredF32 d a st => some (packL3 0x1A 2 12 a.toNat d.toNat st.toNat)
  | .dredBf16 d a st => some (packL3 0x1A 2 13 a.toNat d.toNat st.toNat)
  | .dredF64 d a st => some (packL3 0x1A 2 14 a.toNat d.toNat st.toNat)
  | .dredAcc d a st => some (packL3 0x1A 2 15 a.toNat d.toNat st.toNat)
  | .dreadF32 d a st => some (packL3 0x1A 2 16 a.toNat d.toNat st.toNat)
  | .dreadBf16 d a st => some (packL3 0x1A 2 17 a.toNat d.toNat st.toNat)
  | .dreadF64 d a st => some (packL3 0x1A 2 18 a.toNat d.toNat st.toNat)
  | .dreadAcc d a st => some (packL3 0x1A 2 19 a.toNat d.toNat st.toNat)
  | .ldfeFf d a st => some (packL3 0x1B 0 0 a.toNat d.toNat st.toNat)
  | .ldfeFe d a st => some (packL3 0x1B 1 0 a.toNat d.toNat st.toNat)
  | .ldfeEf d a st => some (packL3 0x1B 2 0 a.toNat d.toNat st.toNat)
  | .bmov d a b st => some (packL3 0x1B 3 b.toNat a.toNat d.toNat st.toNat)
  | .stfeFf d a st => some (packL3 0x1C 0 0 a.toNat d.toNat st.toNat)
  | .stfeFe d a st => some (packL3 0x1C 1 0 a.toNat d.toNat st.toNat)
  | .stfeEf d a st => some (packL3 0x1C 2 0 a.toNat d.toNat st.toNat)
  | .stfeXf d a st => some (packL3 0x1C 3 0 a.toNat d.toNat st.toNat)
  | .atomAdd d a b st => some (packL3 0x1D 0 b.toNat a.toNat d.toNat st.toNat)
  | .atomAnd d a b st => some (packL3 0x1D 1 b.toNat a.toNat d.toNat st.toNat)
  | .atomOr d a b st => some (packL3 0x1D 2 b.toNat a.toNat d.toNat st.toNat)
  | .atomXor d a b st => some (packL3 0x1D 3 b.toNat a.toNat d.toNat st.toNat)
  | .atomMin d a b st => some (packL3 0x1E 0 b.toNat a.toNat d.toNat st.toNat)
  | .atomMax d a b st => some (packL3 0x1E 1 b.toNat a.toNat d.toNat st.toNat)
  | .atomMinu d a b st => some (packL3 0x1E 2 b.toNat a.toNat d.toNat st.toNat)
  | .atomMaxu d a b st => some (packL3 0x1E 3 b.toNat a.toNat d.toNat st.toNat)
  | .atomSwap d a b st => some (packL3 0x1F 0 b.toNat a.toNat d.toNat st.toNat)
  | .cas d a b st => some (packL3 0x1F 1 b.toNat a.toNat d.toNat st.toNat)
  | .fatomAddF32 d a b st => some (packL3 0x1F 2 b.toNat a.toNat d.toNat st.toNat)
  | .fatomAddF64 d a b st => some (packL3 0x1F 3 b.toNat a.toNat d.toNat st.toNat)
  | .faddF32 d a b st => some (packL3 0x20 0 b.toNat a.toNat d.toNat st.toNat)
  | .fsubF32 d a b st => some (packL3 0x20 1 b.toNat a.toNat d.toNat st.toNat)
  | .fmulF32 d a b st => some (packL3 0x20 2 b.toNat a.toNat d.toNat st.toNat)
  | .fdivF32 d a b st => some (packL3 0x20 3 b.toNat a.toNat d.toNat st.toNat)
  | .faddF64 d a b st => some (packL3 0x21 0 b.toNat a.toNat d.toNat st.toNat)
  | .fsubF64 d a b st => some (packL3 0x21 1 b.toNat a.toNat d.toNat st.toNat)
  | .fmulF64 d a b st => some (packL3 0x21 2 b.toNat a.toNat d.toNat st.toNat)
  | .fdivF64 d a b st => some (packL3 0x21 3 b.toNat a.toNat d.toNat st.toNat)
  | .fminF32 d a b st => some (packL3 0x22 0 b.toNat a.toNat d.toNat st.toNat)
  | .fmaxF32 d a b st => some (packL3 0x22 1 b.toNat a.toNat d.toNat st.toNat)
  | .ffmaF32 d a b st => some (packL3 0x22 2 b.toNat a.toNat d.toNat st.toNat)
  | .fsqrtF32 d a st => some (packL3 0x22 3 0 a.toNat d.toNat st.toNat)
  | .fabsF32 d a st => some (packL3 0x22 3 1 a.toNat d.toNat st.toNat)
  | .fnegF32 d a st => some (packL3 0x22 3 2 a.toNat d.toNat st.toNat)
  | .fclassF32 d a st => some (packL3 0x22 3 3 a.toNat d.toNat st.toNat)
  | .fminF64 d a b st => some (packL3 0x23 0 b.toNat a.toNat d.toNat st.toNat)
  | .fmaxF64 d a b st => some (packL3 0x23 1 b.toNat a.toNat d.toNat st.toNat)
  | .ffmaF64 d a b st => some (packL3 0x23 2 b.toNat a.toNat d.toNat st.toNat)
  | .fsqrtF64 d a st => some (packL3 0x23 3 0 a.toNat d.toNat st.toNat)
  | .fabsF64 d a st => some (packL3 0x23 3 1 a.toNat d.toNat st.toNat)
  | .fnegF64 d a st => some (packL3 0x23 3 2 a.toNat d.toNat st.toNat)
  | .fclassF64 d a st => some (packL3 0x23 3 3 a.toNat d.toNat st.toNat)
  | .fcmpEqF32 d a b st => some (packL3 0x24 0 b.toNat a.toNat d.toNat st.toNat)
  | .fcmpLtF32 d a b st => some (packL3 0x24 1 b.toNat a.toNat d.toNat st.toNat)
  | .fcmpLeF32 d a b st => some (packL3 0x24 2 b.toNat a.toNat d.toNat st.toNat)
  | .fcmpUnF32 d a b st => some (packL3 0x24 3 b.toNat a.toNat d.toNat st.toNat)
  | .fcmpEqF64 d a b st => some (packL3 0x25 0 b.toNat a.toNat d.toNat st.toNat)
  | .fcmpLtF64 d a b st => some (packL3 0x25 1 b.toNat a.toNat d.toNat st.toNat)
  | .fcmpLeF64 d a b st => some (packL3 0x25 2 b.toNat a.toNat d.toNat st.toNat)
  | .fcmpUnF64 d a b st => some (packL3 0x25 3 b.toNat a.toNat d.toNat st.toNat)
  | .fcvt d a q t v st => some (packL3 0x26 0 (v.toNat + 8 * t.toNat + 64 * q.toNat) a.toNat d.toNat st.toNat)
  | .icvt d a g h w v st => some (packL3 0x26 1 (v.toNat + 16 * w.toNat + 32 * h.toNat + 64 * g.toNat) a.toNat d.toNat st.toNat)
  | .vadd d a b st => some (packL3 0x28 0 b.toNat a.toNat d.toNat st.toNat)
  | .vsub d a b st => some (packL3 0x28 1 b.toNat a.toNat d.toNat st.toNat)
  | .vmul d a b st => some (packL3 0x28 2 b.toNat a.toNat d.toNat st.toNat)
  | .vfma d a b st => some (packL3 0x28 3 b.toNat a.toNat d.toNat st.toNat)
  | .vmax d a b st => some (packL3 0x29 0 b.toNat a.toNat d.toNat st.toNat)
  | .vmin d a b st => some (packL3 0x29 1 b.toNat a.toNat d.toNat st.toNat)
  | .vscale d a st => some (packL3 0x29 2 0 a.toNat d.toNat st.toNat)
  | .vcmp d a b st => some (packL3 0x29 3 b.toNat a.toNat d.toNat st.toNat)
  | .vset d st => some (packL3 0x2A 0 0 0 d.toNat st.toNat)
  | .vexp2 d a st => some (packL3 0x2A 1 0 a.toNat d.toNat st.toNat)
  | .vrcp d a st => some (packL3 0x2A 2 0 a.toNat d.toNat st.toNat)
  | .vred d a st => some (packL3 0x2A 3 0 a.toNat d.toNat st.toNat)
  | .vcvt d a st => some (packL3 0x2B 0 0 a.toNat d.toNat st.toNat)
  | .vqnt d a b st => some (packL3 0x2B 1 b.toNat a.toNat d.toNat st.toNat)
  | .vdeq d a b st => some (packL3 0x2B 2 b.toNat a.toNat d.toNat st.toNat)
  | .oxl d a st => some (packL3 0x2C 0 0 a.toNat d.toNat st.toNat)
  | .oxr d a st => some (packL3 0x2C 1 0 a.toNat d.toNat st.toNat)
  | .oxli d i st => some (packLIW 0x2D i.toNat d.toNat st.toNat)
  | .cpy d a b st => some (packL3 0x2E 0 b.toNat a.toNat d.toNat st.toNat)
  | .cpyV d a b st => some (packL3 0x2E 1 b.toNat a.toNat d.toNat st.toNat)
  | .cpyW d a b st => some (packL3 0x2E 2 b.toNat a.toNat d.toNat st.toNat)
  | .cpym d a b st => some (packL3 0x2E 3 b.toNat a.toNat d.toNat st.toNat)
  | .tlw a b st => some (packL3 0x2F 0 b.toNat a.toNat 0 st.toNat)
  | .tlr d a st => some (packL3 0x2F 1 0 a.toNat d.toNat st.toNat)
  | .mxop d a b st => some (packL3 0x30 0 b.toNat a.toNat d.toNat st.toNat)
  | .mxz d st => some (packL3 0x30 1 0 0 d.toNat st.toNat)
  | .mxld d a st => some (packL3 0x30 2 0 a.toNat d.toNat st.toNat)
  | .mxst d a st => some (packL3 0x30 3 0 a.toNat d.toNat st.toNat)
  | .mxuc a st => some (packL3 0x31 0 0 a.toNat 0 st.toNat)
  | .mxmode d a st => some (packL3 0x31 1 0 a.toNat d.toNat st.toNat)
  | .twx d a st => some (packL3 0x32 0 0 a.toNat d.toNat st.toNat)
  | .twr d a st => some (packL3 0x32 1 0 a.toNat d.toNat st.toNat)
  | .tww d a st => some (packL3 0x32 2 0 a.toNat d.toNat st.toNat)
  | .licq d a st => some (packL3 0x33 0 0 a.toNat d.toNat st.toNat)
  | .licr st => some (packL3 0x33 1 0 0 0 st.toNat)
  | .spawn d a st => some (packL3 0x36 0 0 a.toNat d.toNat st.toNat)
  | .spawnInl d a st => some (packL3 0x36 1 0 a.toNat d.toNat st.toNat)
  | .commit a st => some (packL3 0x36 2 0 a.toNat 0 st.toNat)
  | .send d a st => some (packL3 0x36 3 0 a.toNat d.toNat st.toNat)
  | .irrev d a st => some (packL3 0x37 0 0 a.toNat d.toNat st.toNat)
  | .work a st => some (packL3 0x37 1 0 a.toNat 0 st.toNat)
  | .tvt d st => some (packL3 0x37 2 0 0 d.toNat st.toNat)
  | .lwait d a st => some (packL3 0x37 3 0 a.toNat d.toNat st.toNat)
  | .barc d a st => some (packL3 0x38 0 0 a.toNat d.toNat st.toNat)
  | .bar d st => some (packL3 0x38 1 0 0 d.toNat st.toNat)
  | .barw d st => some (packL3 0x38 2 0 0 d.toNat st.toNat)
  | .rjoin d a st => some (packL3 0x3A 0 0 a.toNat d.toNat st.toNat)
  | .rsend d a b st => some (packL3 0x3A 1 b.toNat a.toNat d.toNat st.toNat)
  | .rwait d a b st => some (packL3 0x3A 2 b.toNat a.toNat d.toNat st.toNat)
  | .rrel a b st => some (packL3 0x3A 3 b.toNat a.toNat 0 st.toNat)
  | .rleave a st => some (packL3 0x3B 0 0 a.toNat 0 st.toNat)
  | .attnInit d a st => some (packL3 0x3B 1 0 a.toNat d.toNat st.toNat)
  | .attnStep d a b st => some (packL3 0x3B 2 b.toNat a.toNat d.toNat st.toNat)
  | .attnFin d a st => some (packL3 0x3B 3 0 a.toNat d.toNat st.toNat)
  | .csrr d c st => some (1 + 2 * st.toNat + 2 ^ 3 * 0x3C + 2 ^ 9 * d.toNat + 2 ^ 16 * 0 + 2 ^ 23 * c.toNat)
  | .csrw d c st => some (1 + 2 * st.toNat + 2 ^ 3 * 0x3C + 2 ^ 9 * d.toNat + 2 ^ 16 * 1 + 2 ^ 23 * c.toNat)
  | .csrs d c st => some (1 + 2 * st.toNat + 2 ^ 3 * 0x3C + 2 ^ 9 * d.toNat + 2 ^ 16 * 2 + 2 ^ 23 * c.toNat)
  | .csrc d c st => some (1 + 2 * st.toNat + 2 ^ 3 * 0x3C + 2 ^ 9 * d.toNat + 2 ^ 16 * 3 + 2 ^ 23 * c.toNat)
  | .trap a st => some (packL3 0x3D 0 0 a.toNat 0 st.toNat)
  | .eret st => some (packL3 0x3D 0 1 0 0 st.toNat)
  | .migr d a st => some (packL3 0x3D 0 2 a.toNat d.toNat st.toNat)
  | .slot d a st => some (packL3 0x3D 0 3 a.toNat d.toNat st.toNat)
  | .xinv a st => some (packL3 0x3D 0 4 a.toNat 0 st.toNat)
  | .xprobe d a st => some (packL3 0x3D 0 5 a.toNat d.toNat st.toNat)
  | .fwd d a st => some (packL3 0x3D 0 6 a.toNat d.toNat st.toNat)
  | .abort a st => some (packL3 0x3D 0 7 a.toNat 0 st.toNat)
  | .haltc d a st => some (packL3 0x3D 0 8 a.toNat d.toNat st.toNat)
  | .wake st => some (packL3 0x3E 0 0 0 0 st.toNat)
  | .hint f r maj st => some (1 + 2 * st.toNat + 2 ^ 3 * (0x3E + maj.toNat) + 2 ^ 9 * r.toNat + 2 ^ 30 * f.toNat)
  | .movShort d a => some (packShort 0 d.toNat a.toNat 0)
  | .addiShort d a i => some (packShort 1 d.toNat a.toNat i.toNat)
  | .addShort d a => some (packShort 2 d.toNat a.toNat 0)
  | .subShort d a => some (packShort 3 d.toNat a.toNat 0)
  | .andShort d a => some (packShort 4 d.toNat a.toNat 0)
  | .orShort d a => some (packShort 5 d.toNat a.toNat 0)
  | .xorShort d a => some (packShort 6 d.toNat a.toNat 0)
  | .shliShort d a n => some (packShort 7 d.toNat a.toNat n.toNat)
  | .shriShort d a n => some (packShort 8 d.toNat a.toNat n.toNat)
  | .ldDShort d a o => some (packShort 9 d.toNat a.toNat o.toNat)
  | .stDShort d a o => some (packShort 10 d.toNat a.toNat o.toNat)
  | .liShort d i => some (2 * 11 + 2 ^ 5 * d.toNat + 2 ^ 9 * i.toNat)
  | .nopShort => some (packShort 12 0 0 0)
  | .yieldShort => some (packShort 12 0 0 1)
  | .retShort => some (packShort 12 0 0 2)
  | .jrShort a => some (packShort 12 0 a.toNat 3)
  | .haltShort => some (packShort 12 0 0 4)
  | .delayedRegisterWrite => none
  | .asyncTrapRaise => none
  | .vectorStep => none
  | .bmovStep => none
  | .slotRemoval => none
  | .slotRestore => none
  | .debugStop => none
  | .breakpoint => none
  | .suspDelayExpiry => none
  | .homeRequest => none
  | .parkSave => none
  | .parkConfirm => none
  | .homeReply => none
  | .storeAcknowledge => none
  | .revocation => none
  | .portAccess => none
  | .metadataUpdate => none
  | .tlbWalkComplete => none
  | .copyCommandStart => none
  | .copyChunkReadReply => none
  | .copyChunkWrite => none
  | .gatherBegin => none
  | .gatherEnd => none
  | .arrayStart => none
  | .mxopComplete => none
  | .portOperationComplete => none
  | .holdQuantumExpiry => none
  | .dutyWindowStart => none
  | .withheldIntervalStart => none
  | .engineGate => none
  | .breakEvenHoldExpiry => none
  | .inrushAdmission => none
  | .engineWakeComplete => none
  | .engineReturn => none
  | .attentionEngineComplete => none
  | .barrierArrival => none
  | .barrierRelease => none
  | .agingStep => none
  | .stealProbe => none
  | .probeAnswer => none
  | .stealRetryExpiry => none
  | .preemption => none
  | .commitArrival => none
  | .commitAnswer => none
  | .cancel => none
  | .dropConfirmation => none
  | .checkpoint => none
  | .weirReport => none
  | .messageArrival => none
  | .antiMessageArrival => none
  | .inboxDispatch => none
  | .versionRevocation => none
  | .lwTokenVisit => none
  | .lwgapExpiry => none
  | .lwMarkArrival => none
  | .abortTokenVisit => none
  | .restart => none
  | .ringAnnouncement => none
  | .rillToken => none
  | .rillBeat => none
  | .readOut => none
  | .ringBreak => none
  | .packetRefusal => none
  | .groupPark => none
  | .groupWake => none
  | .heaterSettle => none
  | .lockComplete => none
  | .reset => none
  | .incarnationAnnouncement => none
  | .readySet => none
  | .migrRequestArrival => none
  | .contextStreamEnd => none
  | .forwardingEntryExpiry => none
  | .powerMeasurement => none
  | .retry => none
  | .skip => none
  | .drop => none
  | .abortResp => none
  | .hostLaunch => none
  | .peerLaunch => none
  | .stagingAccess => none
  | .hostRegisterWrite => none
  | .identify => none
  | .attest => none
  | .jobOpen => none
  | .jobClose => none
  | .tenantMap => none
  | .formatRange => none
  | .actSet => none
  | .powerCap => none
  | .groupSet => none
  | .circuitChange => none
  | .parkPolicy => none
  | .traceCtl => none
  | .lockstep => none
  | .illegalEncoding => none
  | .instructionFetchFault => none
  | .notSupportedCommand => none
  | .evqheadAdvance => none

/-- Bytes of an instruction's word (01 R13): 2 for a short word, 4 for a long one. -/
def wordBytes (w : Nat) : Nat := if isLong w then 4 else 2

/-- The bytes of an instruction's word; empty for the rows that are no word. -/
def encode (i : Instr) : List Byte :=
  match encodeNat i with
  | some w => toBytes w (wordBytes w)
  | none => []

end Sys2Proof
end

