-- ==== Sys2Proof/Config.lean ====
section
/-! DEFINITION. What an implementation fixes and the spec does not give: uninterpreted constants, so that no proof can
use a value of one. -/

namespace Sys2Proof.Config

/-- The address at which firmware's trap handler starts: the spec gives none (25 R385; log 6). PRESUMED to exist. -/
opaque handlerEntry : Word

/-- Which neighbour of an inexact 2^a VEXP2 returns: 09 R179 fixes only that it lies within 1 ulp (log 7). -/
opaque exp2Up : BitVec 32 → Bool

/-- Which neighbour of an inexact 1/a VRCP returns: 09 R179 fixes only that it lies within 1 ulp (log 7). -/
opaque rcpUp : BitVec 32 → Bool

/-- The module's serial, ROM version, identity public key, configuration record length and digest (26 R403, R408; log 8). -/
opaque serial : List Word
opaque romVersion : Word
opaque identityKey : List Word
opaque cfgLength : Word
opaque cfgDigest : List Word
opaque cfgRecord : Nat → Word

/-- The signature of an attestation report over its first 112 bytes (26 R408; log 8). -/
opaque attestSignature : List Word → List Word

/-- Module power in W at the n-th measurement (26 R409; log 8). -/
opaque measuredPower : Nat → Nat

/-- The matrix-heaviest twin position at the n-th measurement (26 R409; log 8). -/
opaque heaviestPair : Nat → Nat

/-- The pseudo-channel that holds a line of HBM: R400 logs it and no rule maps a line to one (log 8). -/
opaque pseudoChannel : Nat → Nat

/-- One-way link latency in ns of the n-th group set (22 R355, 26 R403; log 8). -/
opaque linkNs : Nat → Nat

/-- Flits that leave a waking fibre group on one wavelength while a queue is above HIGH: a matter of the traffic's timing
(22 R359; log 8). -/
opaque narrowFlits : Nat → Nat

/-- The core-ticks of a tenant on the other modules of its jobs' groups between two ticks: a bucket of 16 R288 counts them and no rule says
how a module learns of them (log 93). -/
opaque awayCoreTicks : Nat → Nat → Nat → Nat

/-- The module on which a job is open that this module does not hold, where that job's access-control table admits a module and tenant (log
95). -/
opaque awayJob : Nat → Nat → Nat → Option Nat

/-- The value at which the counters of 22 R359 saturate, one less than a power of two: no rule gives their width (log 78). -/
opaque counterMax : Nat

/-- The line a home evicts, among the n it may evict, at the k-th eviction: 07 R128 names no policy (log 28). -/
opaque victim : Nat → Nat

end Sys2Proof.Config
end

