-- ==== Sys2Proof/Machine/State.lean ====
section
/-! DEFINITION. The state of one VG9 module as plain data. Each field's docstring gives: width; the file and rule of
spec/ that names it; its value at reset. Tables are sparse: an unlisted key holds the structure's default. -/

namespace Sys2Proof.Machine

/-- A sparse table keyed by a number; an unlisted key holds the default its reader names. -/
abbrev Table (α : Type) := List (Nat × α)

/-- The trap causes of 23 R366, under the codes given there. -/
inductive Cause where
  | illegal | priv | align | xlat | prot | regwin | stallShort | fpe | scaleMismatch | versionGone | versionFull
  | detConflict | badHeader | uncorrectable | deadlock | abort | forwarded | trapWriter
  deriving DecidableEq, Repr

/-- What a trap record says of its cause, beside the strand's own identity (25 R384, R386). -/
structure TrapInfo where
  cause  : Cause
  origin : Nat := 0
  addr   : Word := 0
  detail : Nat := 0
  info   : BitVec 32 := 0
  opn    : Word := 0
  ring   : Nat := 0
  ctx    : Nat := 0
  /-- physical address of a TRAPWRITER's word: what the firmware's park list is kept by (04 R89). -/
  pa     : Nat := 0
  deriving DecidableEq, Repr

/-- A result that lands in a general register (of the shadow bank if `fw`), with the flags it ORs in, at a later tick
(06 R112, 23 R364). `reg` is none once a later result to the register has taken its place. `pc` is the address of a floating-point instruction, for the trap
of an enabled flag as it lands (09 R173). -/
structure DelayedWrite where
  at_   : Nat
  reg   : Option (BitVec 7)
  fw    : Bool := false
  value : Word
  flags : BitVec 5 := 0
  pc    : Option Word := none
  deriving DecidableEq, Repr

/-- A write to a core-shared register that applies 8 cycles after its issue: SWR sets, SADD adds and returns the old value
to a register of its slot (03 R57, R58). -/
structure SharedWrite where
  at_  : Nat
  reg  : BitVec 4
  add  : Bool
  value : Word
  dst  : Option (Nat × Bool × BitVec 7) := none
  deriving DecidableEq, Repr

/-- The conditions a strand out of rotation waits for; its instruction issues again once the condition holds. -/
inductive Cond where
  | acked                              -- every earlier store acknowledged (07 R133)
  | storeRoom                          -- fewer than 8 stores unacknowledged (05 R107)
  | timeline (sel : Word) (n : Nat)    -- 10 R200
  | lwAtLeast (v : Nat)                -- 13 R245
  | channelRoom (ch : Nat)             -- 10 R193
  | streamRoom                         -- 12 R216
  | streamIdle                         -- 10 R206
  | enginesIdle                        -- 10 R199
  | lastStrand                         -- 13 R237
  | barrierGen (bx : Nat) (gen : Nat)  -- 13 R248
  | rillStep (m : Nat) (step : Nat) (bytes : Nat)   -- 19 R324
  | rillSend (m : Nat) (step : Nat)    -- 19 R326
  | overflowRoom (lp : Nat)            -- 13 R240
  | ackRelease (n : Nat)               -- 19 R325
  | poolRoom (bytes : Nat)             -- 15 R261
  | lwChange (v : Nat)                 -- 13 R238
  | fpSettled (t : Nat)                -- 09 R173
  | engineAwake                        -- 06 R124
  | mxf64Room                          -- 02 R45
  | never                              -- 10 R200
  | ringJoined                         -- 19 R323
  | until (t : Nat)                    -- 23 R376
  | groupFree (modul : Nat)            -- a circuit to the module, and no group set of the job at work: 22 R355, R357
  | bank                               -- 06 R109: a bank lost in the issue cycle
  | slotmask (w : Nat)                 -- the core's other slots are present as the bits of w say: 23 R368, R375
  deriving DecidableEq, Repr

/-- Why a slot with a strand does not issue (06 R109). -/
inductive Wait where
  | none
  | cond (c : Cond)
  | retry                 -- in a home's retry list, or remote (04 R87, 22 R356)
  | vector                -- between steps of a REP pair (03 R67)
  | bmov                  -- between steps of a BMOV (04 R102)
  | delay (t : Nat)       -- SUSP of kind DELAY, resumes at tick t (03 R70)
  | low (v : Nat)         -- SUSP of kind LOWWATER (03 R70)
  | parked                -- its continuation is on the firmware's park list (04 R88)
  | gather                -- MXOP waiting for its gather (10 R203)
  | engine                -- registers handed to an engine (06 R117)
  | commit                -- COMMIT sent (13 R238)
  | migr                  -- MIGR in progress (23 R372)
  | fetch                 -- an instruction fetch from another module (03 R47, 22 R356)
  | firmware              -- the firmware's handler holds the slot (25 R385, R389)
  deriving DecidableEq, Repr

/-- An asynchronous cause kept pending in a slot (25 R388; 04 R414). -/
structure AsyncCause where
  info : TrapInfo
  /-- the tick at which it reached the slot. -/
  since : Nat := 0
  deriving DecidableEq, Repr

/-- An access a strand waits for: the first destination register, the
width it is sign-extended from (0: not at all), the instruction's length, whether it acquires, the word of HBM of this
module that it wrote, for the L1, the physical address it reached, the tag of a request to another module, whether it is a read step of a BMOV, whether it brings
a 64-byte operand that lies in another module, the address the strand used, whether the request went to another module,
whether the reply fills the L1 line, the resume
kind of an FE access that may be parked, and the register of a DRED.ACC whose home may ask for eight (04 R80 to R102; 13
R234). -/
structure InFlight where
  dst   : Option (BitVec 7) := none
  ext   : Nat := 0
  bytes : Nat := 4
  st    : BitVec 2 := 0
  acquire : Bool := false
  wrote : Option Nat := none
  pa    : Nat := 0
  tag   : Nat := 0
  bmov  : Bool := false
  line  : Bool := false
  va    : Word := 0
  away  : Bool := false
  fill  : Bool := false
  park  : Option Nat := none
  more  : Option (BitVec 7) := none
  deriving DecidableEq, Repr

/-- The parent of an inline child, as SPAWN.INL saves it (13 R236). -/
structure Saved where
  gang : Nat
  index : Nat
  n : Nat
  pc : Word
  x : Vector Word 128
  lr : Word
  fcsr : Word
  ox : Vector Word 8
  vt : Word
  tid : Word
  chk : Bool
  dest : BitVec 7
  save : Nat
  pending : List AsyncCause := []
  mxNext : Nat := 1
  mxDone : Nat := 0
  ucode : Option Word := none
  uc : Bool := false
  deriving DecidableEq, Repr

/-- One of the 16 slots of a core with the strand it holds. -/
structure Slot where
  /-- 1 bit; 06 R109; reset: no strand. -/
  live : Bool := false
  /-- 32 bits; 15 R260 w4 GANG; reset 0. -/
  gang : Nat := 0
  /-- 12 bits; 15 R260 w4 STRAND; reset 0. -/
  index : Nat := 0
  /-- window size 8 to 128; 01 R22; 0 once the strand has halted and its slot stays with the gang (03 R72); reset 0. -/
  n : Nat := 0
  /-- x0 to x127, 64 bits each; 01 R22, 06 R114; zero at strand creation (01 R23); at module reset no strand: DESIGN CHOICE 0 (log 10). -/
  x : Vector Word 128 := Vector.replicate 128 0
  /-- 64 bits, always even; 01 R13; reset: none given, DESIGN CHOICE 0 (log 10). -/
  pc : Word := 0
  /-- the PC mode bit, 1 = firmware privilege; 01 R25; reset 0 (a task starts at job privilege, 13 R235). -/
  mode : Bool := false
  /-- 64 bits; 01 R25 CSR 0x000; reset: none given, DESIGN CHOICE 0 (log 10). -/
  lr : Word := 0
  /-- 64 bits; 23 R365; 0 at strand creation. -/
  fcsr : Word := 0
  /-- ox0 to ox7, 64 bits each; 01 R22; zero at strand creation. -/
  ox : Vector Word 8 := Vector.replicate 8 0
  /-- 64 bits; 01 R25 CSR 0x401; set at dispatch; reset DESIGN CHOICE 0 (log 10). -/
  vt : Word := 0
  /-- 64 bits, continuation word w2; 01 R25 CSR 0x402, 15 R260; set at dispatch; reset DESIGN CHOICE 0 (log 10). -/
  tid : Word := 0
  /-- 1 bit; 01 R25 CSR 0x406, 06 R113; set from the gang header; reset 0. -/
  chk : Bool := false
  /-- 64 bits; 23 R366; reset 0. -/
  cause : Word := 0
  /-- 64 bits; 01 R25 CSR 0x801; reset: none given, DESIGN CHOICE 0 (log 10). -/
  epc : Word := 0
  /-- the shadow bank of 16 registers of firmware privilege; 25 R385; reset: none given, DESIGN CHOICE 0 (log 10). -/
  shadow : Vector Word 16 := Vector.replicate 16 0
  /-- the trap area: records of 8 words, innermost first; 25 R384, R388; reset empty. -/
  trapArea : List (List Word) := []
  /-- cause and epc saved by a nested trap; 25 R388; reset empty. -/
  nestedCsr : List (Word × Word) := []
  /-- pending asynchronous causes; 25 R388; reset empty. -/
  pending : List AsyncCause := []
  /-- fixed-latency results not yet landed; 06 R112; reset empty. -/
  writes : List DelayedWrite := []
  /-- unacknowledged stores with the address of the instruction that issued each, up to 8; 05 R107, 04 R414; reset empty. -/
  unacked : List (Nat × Word) := []
  /-- why the strand does not issue; 06 R109; reset none. -/
  wait : Wait := .none
  /-- tick before which the strand does not issue again; 06 R109; reset 0. -/
  nextTick : Nat := 0
  /-- tick of the first issue of the VAR instruction in flight, from which the next issue is counted; 05 R106; reset none. -/
  issuedAt : Option Nat := Option.none
  /-- consecutive attempts of the scalar access at pc that lost their bank; 06 R119; reset 0. -/
  losses : Nat := 0
  /-- removed for power; 06 R121; reset present. -/
  removed : Bool := false
  /-- debug stop; 23 R375; reset running. -/
  stopped : Bool := false
  /-- the breakpoint at which the slot last stopped, so that a resumed strand passes it; 26 R410; reset none. -/
  past : Option Word := Option.none
  /-- strands that wait in SLOT for an operation on this slot, with the state each will report; 23 R375; reset none. -/
  askers : List (Nat × Nat) := []
  /-- PC of the slot's last issue; 23 R378 SPACE 2 WORD 1; reset: none given, DESIGN CHOICE 0 (log 10). -/
  lastPc : Word := 0
  /-- number of the next operation of the slot's matrix stream; 10 R192; reset 1. -/
  mxNext : Nat := 1
  /-- the matrix stream's timeline counter; 07 R138; reset 0. -/
  mxDone : Nat := 0
  /-- the stream's cell microprogram word; 10 R206; reset: none loaded. -/
  ucode : Option Word := Option.none
  /-- UC of the stream's mode word; 10 R206; reset 0. -/
  uc : Bool := false
  /-- the access in flight; 06 R108; reset none. -/
  inFlight : Option InFlight := Option.none
  /-- the core at which the wait of a strand that has moved since was begun, whose forwarding entry its wake-up needs; 23 R373; reset none. -/
  via : Option Nat := Option.none
  /-- operand lines brought from other modules for the instruction in progress; the model's own field (log 36); reset none. -/
  lines : List (Word × List Word) := []
  /-- the REP pair in progress, its body and its count register, or the BMOV in progress; 03 R67, 04 R102; reset none. -/
  rep : Option (Instr × BitVec 7) := Option.none
  /-- bytes that the block-move step in progress has read, and how many of them it has posted; 04 R102; reset none. -/
  bread : List Byte := []
  bput : Nat := 0
  /-- tick at which the next step of a REP pair, BMOV or engine operation of the slot is due; the model's own field (log 4); reset 0. -/
  stepAt : Nat := 0
  /-- saved parents of inline children, innermost first; 13 R236; reset empty. -/
  saved : List Saved := []
  /-- firmware's handler block of a forwarded trap (address, handler task); 25 R389; reset none. -/
  handlerBlock : Option (Nat × Nat) := Option.none
  /-- the trap being handled is asynchronous; 25 R388, R389; reset no. -/
  asyncTrap : Bool := false
  /-- a trap whose handler has not acted yet: its first instruction has not issued, or its block waits for room in the pool; 25 R385, R389; reset none. -/
  owed : Option TrapInfo := Option.none
  /-- slot held at the strand's first issue; 15 R260 w4; reset 0. -/
  firstSlot : Nat := 0
  /-- virtual address of the strand's save area, 0 for none; 15 R260 w1; reset 0. -/
  save : Nat := 0
  /-- resume kind and operand of a suspended strand; 15 R260 w5; reset 0. -/
  resume : Nat × Word := (0, 0)
  deriving DecidableEq, Repr

/-- One L1 line: for each of its eight words valid, owned, pending and the data (07 R127). -/
structure L1Word where
  valid : Bool := false
  owned : Bool := false
  pending : Bool := false
  data : Word := 0
  deriving DecidableEq, Repr

structure L1Line where
  addr  : Nat
  words : Vector L1Word 8 := Vector.replicate 8 {}
  deriving DecidableEq, Repr

/-- A valid leaf held by a TLB (25 R393): the page of a job, its level and its entry. -/
structure TlbEntry where
  job   : Nat
  page  : Nat
  level : Nat
  leaf  : Word
  deriving DecidableEq, Repr

/-- A barrier register with its hidden arrival state (13 R246): the slots that have arrived in the current generation, and the
GEN at which each slot last arrived. -/
structure Barrier where
  word    : Word := 0
  arrived : List (Nat × Nat) := []
  lastGen : List (Nat × Nat) := []
  deriving DecidableEq, Repr

/-- An accumulator tile: 1,024 FP32 bit patterns row-major and NV, OF, UF, NX (01 R22, 12 R219, R220). -/
structure Tile where
  cells : List (BitVec 32) := []
  flags : BitVec 4 := 0
  deriving DecidableEq, Repr

/-- Gating of a matrix engine (06 R123, R124). -/
inductive Gate where
  | gated (holdUntil : Nat)
  | queued
  | waking
  | awake
  deriving DecidableEq, Repr

/-- The kinds of matrix-stream operation (12 R216). -/
inductive MxKind where
  | mxop | followOn | mxz | mxld | mxst
  deriving DecidableEq, Repr

/-- Where an operation of a matrix stream stands (12 R214, R217). -/
inductive MxStage where
  | notReady      -- a follow-on whose copies are not complete
  | waiting       -- ready for an operand buffer set, or for the accumulator port
  | gathering (until_ : Nat)
  | gathered (at_ : Nat)
  | running
  deriving DecidableEq, Repr

/-- A range of a virtual operand that the homes were asked for: its address and length, the tag of a request to another module, its
bytes and the side-band item of its line once they have come, when they came, and its beat's sequence number (08 R159). -/
structure RangeRead where
  va    : Nat
  n     : Nat
  tag   : Nat := 0
  bytes : Option (List Byte) := Option.none
  item  : Bool × Word := (false, 0)
  at_   : Nat := 0
  seq   : Nat := 0
  deriving DecidableEq, Repr

/-- A multicast group of a cluster: its key (job, MTAG, B address, BSTRIDE, FMTB, K), the tick at which its first member's gather
began, the sequence start value of that member's fetch, which tells the groups apart, and what was fetched of B (10 R204; 12 R223). -/
structure Mcast where
  job    : Nat
  tag    : Nat
  b      : Word
  stride : Nat
  fmt    : Nat
  k      : Nat
  since  : Nat
  start  : Nat := 0
  reads  : List RangeRead := []
  deriving DecidableEq, Repr

/-- An operation of a matrix stream with everything its issue captured (10 R198, R203, R205). -/
structure MxOp where
  slot   : Nat
  gang   : Nat
  num    : Nat
  kind   : MxKind
  d      : BitVec 3
  tiles  : List Nat
  fmtA   : Nat := 0
  fmtB   : Nat := 0
  k      : Nat := 0
  a      : Word := 0
  b      : Word := 0
  virtA  : Bool := false
  virtB  : Bool := false
  strideA : Nat := 0
  strideB : Nat := 0
  scaleA : Nat := 0
  scaleB : Nat := 0
  uc     : Option Word := Option.none
  opsA   : List (List Nat) := []
  opsB   : List (List Nat) := []
  /-- MTAG, 8 bits; 10 R190, R204. -/
  mtag   : Nat := 0
  /-- ranges that the gather has fetched or asked for on its own: those of other modules, and the beats it missed of its group (12 R223). -/
  remote : List RangeRead := []
  /-- the multicast group of B, by its sequence start value. -/
  group  : Option Nat := Option.none
  /-- the strand's writes that precede the instruction; 07 R139. -/
  after  : List (Nat × Word) := []
  /-- physical address of an accumulator's bytes, found at issue; 10 R205. -/
  pa     : Nat := 0
  /-- the tick at which it became ready, and that at which its gather or its port cycles began; 12 R214, R215, R217. -/
  ready  : Option Nat := Option.none
  began  : Nat := 0
  stage  : MxStage := .waiting
  deriving DecidableEq, Repr

/-- A core's matrix engine. -/
structure Engine where
  /-- gating state; 06 R123; reset gated with no hold running. -/
  gate : Gate := .gated 0
  /-- operations issued and not complete, in issue order; 12 R216; reset empty. -/
  ops : List MxOp := []
  /-- the engine's licence hold; 10 R207; reset clear. -/
  hold : Bool := false
  /-- tick at which a pending licence request was registered; 12 R227; reset none. -/
  request : Option Nat := Option.none
  /-- a wake requested during the break-even hold; 06 R124; reset none. -/
  wakeWanted : Bool := false
  /-- a LICQ request that waits for the wake; 10 R208; reset none. -/
  licqPending : Bool := false
  /-- the array runs an MXOP until this tick; 12 R217; reset idle. -/
  arrayBusy : Option Nat := Option.none
  /-- the accumulator port runs an operation; 12 R217; reset idle. -/
  portBusy : Option Nat := Option.none
  /-- tick since which the engine has been idle; 12 R230; reset 0. -/
  idleSince : Nat := 0
  /-- IDLE_GATE in cc; 06 R123; reset 4,096. -/
  idleGate : Nat := 4096
  deriving DecidableEq, Repr

/-- State of a copy-command entry (12 R224). -/
inductive CopyState where
  | queued | running | stopped | followOnPending
  deriving DecidableEq, Repr

/-- The copies' kinds (12 R224 w11 KIND). -/
inductive CopyKind where
  | cpy | cpyV | cpyM | cpyW
  deriving DecidableEq, Repr

/-- A part of a chunk's source that lies in one 64-byte line: its address, its length, its place (a physical address, or 2^64 and
more for another module's), the tag of its request, the core whose bank it takes, and its bytes once they have come (12 R225). -/
structure CopyPart where
  va   : Word
  n    : Nat
  key  : Nat
  tag  : Nat := 0
  bank : Option Nat := Option.none
  data : Option (List Byte) := Option.none
  deriving DecidableEq, Repr

/-- A chunk read ahead of the write pointer: where it begins, the parts that have been sent for, and the fault met after them (12
R225; 10 R197). -/
structure CopyChunk where
  off   : Nat
  parts : List CopyPart := []
  fault : Option TrapInfo := Option.none
  deriving DecidableEq, Repr

/-- One entry of a core's copy command store (12 R224), with what its channel has in hand: the chunks read ahead, the tag of a write
on its way, whether the chunk at the write pointer has taken its banks, the first tick of its next write, the ticks at which its next
steps are due, the writes of its strand that precede it (07 R139), and the words that a CPY.W has read. -/
structure CopyCmd where
  entry : Nat
  gang  : Nat
  slot  : Nat
  ch    : Nat
  kind  : CopyKind
  src   : Word
  dst   : Word
  ox0   : Word := 0
  ox2   : Word := 0
  ox1   : Word := 0
  fo    : Option (List Word) := Option.none
  fac   : Nat := 0
  num   : Nat := 0
  mxNum : Nat := 0
  tmask : Nat := 0
  next  : Nat := 0
  wp    : Nat := 0
  ctl   : Word := 0
  buf   : Nat := 0
  state : CopyState := .queued
  due   : Nat := 0
  ahead : List CopyChunk := []
  wtag  : Nat := 0
  claimed : Bool := false
  rAt   : Option Nat := Option.none
  wAt   : Option Nat := Option.none
  after : List (Nat × Word) := []
  got   : List Byte := []
  size  : Nat := 0
  base  : Nat := 0
  deriving DecidableEq, Repr

/-- A forwarding entry (23 R373), with the jobs of the gangs that moved, whose lw ends it (18 R311). -/
structure FwdEntry where
  f0 : Word := 0
  f1 : Word := 0
  f2 : Word := 0
  f3 : Word := 0
  jobs : List Nat := []
  deriving DecidableEq, Repr

/-- A Rill membership of a core (19 R322 to R327). -/
structure Member where
  gang : Nat
  job  : Nat
  ring : Nat
  lead : Bool
  buf  : Nat
  oldest : Nat := 0
  landed : Table (List Nat) := []
  counter : Nat := 0
  /-- steps that a damaged beat marked, with the address of its word (25 R398). -/
  uncorr : Table Word := []
  deriving DecidableEq, Repr

/-- One line access that a requester makes at a bank of a core's local memory in a core cycle, or, under bank 3, one beat of
the core's port: its priority, the requester, and the consecutive cycles it has lost (06 R118, R119; 12 R222). -/
structure Claim where
  bank  : Nat
  cycle : Nat
  rank  : Nat
  owner : Nat
  lost  : Nat := 0
  deriving DecidableEq, Repr

/-- A core, beside its slots. -/
structure Core where
  /-- s0 to s15, 64 bits each; 01 R22, 03 R57; zero for a new tenant; at module reset DESIGN CHOICE 0 (log 11). -/
  s : Vector Word 16 := Vector.replicate 16 0
  /-- core-shared writes not yet applied; 03 R58; reset empty. -/
  sPend : List SharedWrite := []
  /-- bx0 to bx7, 64 bits each, with arrival state; 01 R22, 13 R246; zero at allocation. -/
  bx : Table Barrier := []
  /-- accumulator tiles 0 to 7; 12 R219; zero at allocation. -/
  tiles : Table Tile := []
  /-- L1 data cache lines, newest first; 07 R127; reset empty. -/
  l1 : List L1Line := []
  /-- instruction cache: halfwords held by physical address; 07 R132; reset empty. -/
  icache : List (Nat × BitVec 16) := []
  /-- 64-entry TLB, newest first; 25 R393; reset empty. -/
  tlb : List TlbEntry := []
  /-- matrix engine; 12 R213; reset gated. -/
  eng : Engine := {}
  /-- copy command store, in issue order; 12 R224; reset empty. -/
  copies : List CopyCmd := []
  /-- next entry of each channel's circular chain; 12 R224; reset 0. -/
  chTail : Table Nat := []
  /-- 16 forwarding entries; 23 R373; reset V = 0. -/
  fwd : Table FwdEntry := []
  /-- accesses to the banks and beats of the port, by core cycle; 06 R118, R119, 12 R222; reset none. -/
  claims : List Claim := []
  /-- four Rill memberships; 19 R323; reset none. -/
  members : Table Member := []
  /-- gangs that the HALTC in progress on the core has dropped; 23 R376; reset 0. -/
  haltDrops : Nat := 0
  /-- halted by HALTC; 23 R376; reset clear. -/
  halted : Bool := false
  /-- the tenant the core last served; 01 R22; reset 0 (firmware). -/
  tenant : Nat := 0
  /-- the MIGR in progress from this core; 23 R372; reset none. -/
  migrating : Bool := false
  deriving DecidableEq, Repr

/-- The licence of a twin pair (10 R207, 12 R227, R229): its holder (false root, true crown), the tick from which the
holder's array may begin, and the duty value W. -/
structure Pair where
  /-- w0 to w3 of each slot pair, 64 bits each, by slot number; 01 R22, 06 R116; zero for a new tenant; at module reset DESIGN CHOICE 0 (log 11). -/
  w : Table (Vector Word 4) := []
  /-- of each slot pair, the tick of the last cycle in which a window register was written, and w0 to w3 at its start; 06 R116; reset 0. -/
  wOld : Table (Nat × Vector Word 4) := []
  /-- holder of the matrix licence; 10 R207; reset parked (06 R123). -/
  holder : Option Bool := Option.none
  /-- tick at which a parked licence last went to the crown, which the root's request of the same cycle takes over; 10 R207; reset none. -/
  granted : Option Nat := Option.none
  /-- tick from which the holder's array may begin; 12 R227; reset 0. -/
  freeAt : Nat := 0
  /-- W, 4 bits; 12 R229; reset 0. -/
  duty : Nat := 0
  /-- inside the withheld part of a window; 12 R229; reset no. -/
  withheld : Bool := false
  /-- the tenant the pair last served; 01 R22; reset 0 (firmware). -/
  tenant : Nat := 0
  deriving DecidableEq, Repr

/-- A placed copy of a task: its gang (15 R253 to R260). -/
structure Gang where
  /-- 1 bit; 15 R255; the gang holds slots. -/
  live : Bool := false
  /-- 16 bits; 15 R257 JOB; 65,536 stands for no job. -/
  job : Nat := 65536
  /-- the launch packet's eight words; 15 R257. -/
  packet : List Word := []
  /-- word h0 of the gang header; 15 R259. -/
  hdr : Word := 0
  /-- task id; 15 R258. -/
  task : Nat := 0
  /-- copy number; 15 R258. -/
  copy : Nat := 0
  /-- effective flags INLOK, ROAM, OPT, DET, HEDGE from bit 4 down; 15 R258, R260. -/
  flags : BitVec 5 := 0
  /-- first core's column, row and layer; 15 R256. -/
  x0 : Nat := 0
  y0 : Nat := 0
  z0 : Nat := 0
  /-- strands that have not halted; 03 R72. -/
  running : Nat := 0
  /-- retired-work counter, saturating at 64 bits; 16 R283. -/
  work : Nat := 0
  /-- the outbox, up to 256 entries; 13 R232. -/
  outbox : List OutEntry := []
  /-- uncorrectable data received since dispatch; 25 R398. -/
  uncorr : Bool := false
  /-- requeues after uncorrectable data; 25 R398. -/
  retries : Nat := 0
  /-- the gang has issued SWR or SADD; 03 R59. -/
  shw : Bool := false
  /-- enqueue stamp, dequeue stamp, hungry instant in ns and failed steals; 15 R272, R273. -/
  enq : Nat := 0
  deq : Nat := 0
  hungry : Nat := 0
  steals : Nat := 0
  rqw : Nat := 0
  /-- effective priority at dequeue; 15 R262. -/
  prio : Nat := 0
  /-- the LP whose inbox dispatched the task, with the key's words and the LP's rollback count; 18 R300, R303. -/
  lp : Option (Nat × Word × Word × Word) := Option.none
  rback : Nat := 0
  /-- physical accumulator tiles assigned per core; 12 R219. -/
  tiles : Table (List Nat) := []
  /-- physical barrier registers assigned per core; 15 R260 BXB. -/
  bars : Table (List Nat) := []
  /-- operations issued on each channel (key core × 4 + channel); 10 R192. -/
  chIssued : Table Nat := []
  /-- the gang's copy-channel counters; 10 R192; 0 at placement. -/
  chDone : Table Nat := []
  /-- where each of the gang's parts stands now (placed core, present core); 23 R372. -/
  moved : List (Nat × Nat) := []
  /-- the COMMIT in flight, and the slot that sent it; 13 R237. -/
  commit : Option (CommitMsg × Nat) := Option.none
  /-- an inline child's slot; 13 R236. -/
  inline : Option Nat := Option.none
  /-- forwarded trap this gang's task handles: the trapping slot; 25 R389. -/
  handlerFor : Option Nat := Option.none
  /-- reported as deadlocked since its last issue; found still at every visit of the last pass; found still at every visit of this pass so
  far; 18 R316. -/
  dlReported : Bool := false
  dlSeen : Bool := false
  dlNow : Bool := false
  /-- read selector of an inbox task, and the cores a backup or an inbox task may be placed on; 18 R300, 16 R289. -/
  ox1 : Word := 0
  only : Option (List Nat) := Option.none
  /-- checkpoints already reported; 16 R285. -/
  check : Nat := 0
  /-- the LP and key of the task whose commit released this one; 18 R304. -/
  parent : Option (Nat × Word × Word × Word) := Option.none
  /-- the rollback of its parent has cancelled it while its COMMIT is under way; 18 R304. -/
  undone : Bool := false
  deriving DecidableEq, Repr

/-- An entry of a Cistern (15 R262): a task to dispatch, or a requeued continuation with its saved slot; `row` is its row in the table of
15 R415, from 0, and `waitAt` the tick in which it began to wait for a full Cistern. -/
structure Entry where
  packet : List Word
  hdr    : Word
  job    : Nat
  task   : Nat
  copy   : Nat
  flags  : BitVec 5
  prio   : Nat
  enq    : Nat
  lp     : Option (Nat × Word × Word × Word) := Option.none
  ox1    : Word := 0
  rback  : Nat := 0
  retries : Nat := 0
  only   : Option (List Nat) := Option.none
  bind   : List (List Nat) := []
  home   : Option Nat := Option.none
  row    : Nat := 4
  waitAt : Nat := 0
  cont   : Option Slot := Option.none
  gang   : Nat := 0
  handlerFor : Option Nat := Option.none
  reserved : Option (Nat × Nat × Nat) := Option.none
  since  : Nat := 0
  late   : Bool := false
  core   : Nat := 0
  work   : Nat := 0
  rqw    : Nat := 0
  deq    : Nat := 0
  parent : Option (Nat × Word × Word × Word) := Option.none
  /-- colour in which a spawn or a peer launch was sent, until a Cistern has received it (18 R306). -/
  sent : Option Bool := Option.none
  deriving DecidableEq, Repr

/-- An attention context (19 R328 to R332). -/
structure AttnCtx where
  gang : Nat
  qa : Nat
  sa : Nat
  scale : BitVec 32
  causal : Bool
  qpos : Nat
  counter : Nat := 0
  finished : Bool := false
  deriving DecidableEq, Repr

/-- A walk in progress with its waiters: PREF requests by core and address (25 R393). -/
structure Walk where
  job  : Nat
  page : Nat
  waiters : List (Nat × Word)
  deriving DecidableEq, Repr

/-- A cluster: its task queue unit, shared TLB and walker, attention engine, in-rush queue. -/
structure Cluster where
  /-- the Cistern, 4,096 entries, in arrival order; 15 R262; reset empty. -/
  cistern : List Entry := []
  /-- work waiting for a full Cistern, earliest first; 15 R415; reset empty. -/
  waiting : List Entry := []
  /-- next task count, 25 bits; 15 R258; first value not given: DESIGN CHOICE 1 (log 21). -/
  taskCount : Nat := 1
  /-- next gang count; 15 R260; first value not given: DESIGN CHOICE 1 (log 21). -/
  gangCount : Nat := 1
  /-- sequence counter of sender 0xFFFF_FFFF per job; 13 R240; reset 0. -/
  seq : Table Nat := []
  /-- L1 fused; 07 R131; reset unfused. -/
  fused : Bool := false
  /-- shared TLB of 1,024 entries, newest first; 25 R393; reset empty. -/
  tlb : List TlbEntry := []
  /-- walks in progress; 25 R393; reset empty. -/
  walks : List Walk := []
  /-- requests that wait for a place, oldest first: job, core and address; 25 R393; reset empty. -/
  walkWait : List (Nat × Nat × Word) := []
  /-- operations of the attention engine in issue order, by slot and gang; 19 R331, 21 R348; reset none. -/
  attnQ : List (Nat × Nat) := []
  /-- tick at which the attention engine's array ends the first of them, 0 while it gathers; 21 R348; reset 0. -/
  attnFree : Nat := 0
  /-- the copy engine: the tick of the core cycle in which it last wrote chunks, the channels that wrote in it, by 4 × core index +
  channel, and the last one served; 12 R225; reset none. -/
  copyAt : Nat := 0
  copyWon : List Nat := []
  copyTurn : Nat := 31
  /-- multicast groups of operands; 10 R204, 12 R223; reset none. -/
  mcast : List Mcast := []
  /-- eight attention contexts; 19 R330; reset free. -/
  attn : Table AttnCtx := []
  /-- in-rush queue of cores in arrival order; 06 R124; reset empty. -/
  inrush : List Nat := []
  /-- tick of the last in-rush admission plus 64 cc; 06 R124; reset 0. -/
  inrushFree : Nat := 0
  /-- instant the cluster became hungry, failed steals, clusters left in the ring pass; 15 R264; reset none. -/
  hungry : Option Nat := Option.none
  steals : Nat := 0
  probes : List Nat := []
  /-- the cluster that has the probe under way; 15 R264; reset none. -/
  probing : Option Nat := Option.none
  /-- tick at which the pause after a pass without success ends, 0 without one; 15 R264; reset 0. -/
  retryAt : Nat := 0
  /-- the entry a successful probe carries back; 15 R264; reset none. -/
  stolen : Option Entry := Option.none
  deriving DecidableEq, Repr

/-- A waiter in a word's retry list (04 R87, R88), with the address its strand used, the tag of another module's request, and whether the
page holds tables of the job (25 R394). -/
structure Retry where
  addr   : Nat
  origin : Origin
  op     : MemOp
  data   : Word
  count  : Nat := 0
  parking : Bool := false
  saved  : Bool := false
  va     : Word := 0
  tag    : Nat := 0
  table  : Bool := false
  deriving DecidableEq, Repr

/-- A held irrevocable action (13 R242). -/
structure Held where
  home : Nat
  job  : Nat
  vt   : Nat
  task : Nat
  entry : Nat
  words : List Word
  gang : Nat
  key  : Option (Nat × Word × Word × Word) := Option.none
  deriving DecidableEq, Repr

/-- Who is on firmware's park list for a word (04 R88, R89): a slot that its gang strand keeps, the record of a ROAM solo task,
a strand that another module has saved, by the tag of its request; or a strand of a gang that has moved to another module from a core, whose
forwarding entry redirects its wake-ups (23 R373). -/
inductive Parked where
  | slot (id : Nat)
  | record (e : Entry)
  | away (modul job tag : Nat)
  | moved (core gang modul job tag : Nat)
  deriving DecidableEq, Repr

/-- A packet on the timed channel (22 R354): its number, the mc of its injection, its job, its source endpoint, its flits and the
ports of its dimension-order route. -/
structure TimedPkt where
  id    : Nat
  inj   : Nat
  job   : Nat
  src   : Nat
  flits : Nat
  path  : List Nat
  deriving DecidableEq, Repr

/-- A pseudo-channel of an HBM stack (25 R397): the spare lanes used up, and the tick until which a swap stops it. -/
structure Channel where
  used  : Nat := 0
  stop  : Nat := 0
  deriving DecidableEq, Repr

/-- A version buffer's readers at the tile's home (16 R278): header, buffer, and the copy command's core, gang, channel and
number. -/
structure Reader where
  header : Nat
  buf : Nat
  core : Nat
  gang : Nat
  ch : Nat
  num : Nat
  deriving DecidableEq, Repr

/-- State of an inbox entry (18 R299). -/
inductive InboxState where
  | pos | run | done | anti
  deriving DecidableEq, Repr

/-- An entry of an inbox or of an overflow list (18 R299, R301): its message, its arrival number, its place (the entry's
number, or the address of its overflow area), and the task of a RUN entry. -/
structure InboxEntry where
  st  : InboxState
  msg : Message
  at_ : Nat := 0
  idx : Nat := 0
  task : Nat := 0
  deriving DecidableEq, Repr

/-- A send log entry (18 R298): the message's VRT, w1, w2 and the key of the task that sent it. -/
structure LogEntry where
  w0 : Word
  w1 : Word
  w2 : Word
  tvrt : Word
  tw1 : Word
  tw2 : Word
  idx : Nat := 0
  deriving DecidableEq, Repr

/-- A logical process: its descriptor and its live state (18 R297, R298). -/
structure Lp where
  desc : List Word := []
  /-- messages of either sign that have arrived and wait for an earlier one to be taken (18 R299, R302). -/
  inq : List Message := []
  inbox : List InboxEntry := []
  overflow : List InboxEntry := []
  lvt : Option (Word × Word × Word) := Option.none
  /-- the highest key that fossil collection has freed (18 R298). -/
  fossil : Option (Word × Word × Word) := Option.none
  nseq : Nat := 0
  rback : Nat := 0
  annih : Nat := 0
  late : Nat := 0
  log : List LogEntry := []
  statusPa : Nat := 0
  deriving DecidableEq, Repr

/-- The Weir's parameters of a class (16 R284). -/
structure ClassParam where
  tck : Nat := 2
  m : Nat := 4
  d : Nat := 5
  kmin : Nat := 3
  mw : Nat := 0
  deriving DecidableEq, Repr

/-- What a part of a job keeps for the Low-Water unit (18 R307) and its low-water mark (18 R311). -/
structure Part where
  red : Bool := false
  sentW : Nat := 0
  sentR : Nat := 0
  recvW : Nat := 0
  recvR : Nat := 0
  redmin : Nat := 2 ^ 64 - 1
  mark : Bool := false
  lw : Nat := 0
  frozen : Bool := false
  deriving DecidableEq, Repr

/-- Abort of a job (18 R317, R318). -/
inductive AbortPhase where
  | none | first | second | stopped
  deriving DecidableEq, Repr

/-- An open job (26 R404 and the rules it names). -/
structure Job where
  isOpen : Bool := false
  jslot : Nat := 0
  tenant : Nat := 0
  det : Bool := false
  opt : Bool := false
  l1fuse : Bool := false
  subX : Nat := 0
  subY : Nat := 0
  subW : Nat := 1
  subH : Nat := 1
  root : Nat := 0
  poolBase : Nat := 0
  poolBytes : Nat := 0
  poolUsed : List (Nat × Nat) := []
  pages : List (Nat × Nat) := []
  tracePages : List (Nat × Nat) := []
  stampBase : Nat := 0
  stampEntries : Nat := 0
  stampNext : Nat := 0
  stampLost : Nat := 0
  hEntry : Word := 0
  hGang : Word := 0
  hClass : Nat := 0
  inGang : Word := 0
  inClass : Nat := 0
  inPrio : Nat := 0
  lps : Table Lp := []
  maxc : Nat := 2
  lwgap : Nat := 0
  preemptWait : Nat := 100
  classMap : List Nat := []
  hostBase : Nat := 0
  hostLen : Nat := 0
  classes : Table ClassParam := []
  weirQ : Table Nat := []
  weirM : Table Nat := []
  stalls : Nat := 0
  traceBase : Nat := 0
  traceEntries : Nat := 0
  traceNext : Nat := 0
  traceTraps : Bool := false
  breakpoints : List (Nat × Word) := []
  group : List (Nat × Nat) := []
  circuits : List (Nat × Nat × Nat) := []
  self : Nat := 0
  act : Table (Nat × Nat) := []
  parts : Table Part := []
  token : Token := {}
  abort : AbortPhase := .none
  abortA : Nat := 0
  reason : Word := 0
  /-- mesh cycle in which the abort began; 18 R418; reset 0. -/
  abortCycle : Nat := 0
  /-- the abort's first circuit has begun on this module; 18 R317; reset no. -/
  circled : Bool := false
  terminated : Bool := false
  tmiss : Nat := 0
  lockstep : Option (Nat × Nat × Bool) := Option.none
  streams : List (List Nat) := []
  nextLaunch : Nat := 0
  groupBusy : Bool := false
  /-- completion atomics sent to other modules and not yet answered; 13 R238, 22 R357; reset 0. -/
  doneAway : Nat := 0
  dlPasses : Nat := 0
  cut : Bool := false
  /-- the Low-Water passes of the job have begun (log 43). -/
  passing : Bool := false
  arrivals : Nat := 0
  deriving DecidableEq, Repr

/-- A tenant: its rectangle and its hedging bucket (15 R271, 16 R288): refill rate in 1/256, cap in core-µs, and the content at a
tick in units of 1/12,288 ns-core, in which the refill of a tick is a whole number. -/
structure Tenant where
  valid : Bool := false
  x : Nat := 0
  y : Nat := 0
  w : Nat := 1
  h : Nat := 1
  rate : Nat := 1
  cap : Nat := 1
  level : Nat := 0
  atTick : Nat := 0
  deriving DecidableEq, Repr

/-- State of a ring slot on this module (21 R339). -/
inductive RingSlot where
  | init
  | await (step : Nat)
  | held (step : Nat) (readOut : Bool)
  deriving DecidableEq, Repr

/-- This module's part of a Rill ring (21 R336 to R346): its description, its members (core and index), the strands that wait
in RJOIN (slot, lead, index), its slots, the steps whose tokens it holds, the links formed, the next step to send and the
number of steps read out. -/
structure Ring where
  job : Nat
  ring : Nat
  k : Nat
  pos : Nat
  s : Nat
  bsz : Nat
  ncl : Nat
  own : Word
  ownPa : List (Nat × Nat) := []
  members : List (Nat × Nat) := []
  joining : List (Nat × Bool × Nat) := []
  complete : Bool := false
  slots : Table RingSlot := []
  tokens : List Nat := []
  linkPred : Option Nat := Option.none
  linkSucc : Option Nat := Option.none
  conflict : Bool := false
  broken : Bool := false
  /-- the end of the cycle in which a BREAK arrived (21 R340). -/
  breakAt : Option Nat := Option.none
  sent : Nat := 0
  readOut : Nat := 0
  deriving DecidableEq, Repr

/-- A format range (08 R155). -/
structure FmtRange where
  base : Word := 0
  lim : Word := 0
  scl : Word := 0
  job : Nat := 65536
  deriving DecidableEq, Repr

/-- A group of eight transmit fibres (22 R361). -/
inductive FibreState where
  | wide | parked | waking
  deriving DecidableEq, Repr

structure Fibre where
  low : Nat := 0
  high : Nat := 64
  hold : Nat := 50
  st : FibreState := .wide
  settled : Bool := false
  /-- tick since which every link's queue has stayed at or below LOW. -/
  quietSince : Nat := 0
  wakes : Nat := 0
  narrow : Nat := 0
  /-- flits in the longest queue of the group's links. -/
  queue : Nat := 0
  deriving DecidableEq, Repr

/-- A mailbox slot (26 R402): 32 words and whether it is busy. -/
structure MailSlot where
  words : List Word := []
  busy : Bool := false
  deriving DecidableEq, Repr

/-- The context that a migration to another module streams (23 R372 step 3): the gangs, the strands by their slots with the tags under
which their wake-ups will come, what they have in the engine, the contents of their accumulators and barrier registers, the local memory
in use, and s0 to s15 of a whole core context. -/
structure Context where
  gangs  : List (Nat × Gang)
  slots  : List (Nat × Slot)
  wakes  : List (Nat × Nat) := []
  ops    : List MxOp := []
  copies : List CopyCmd := []
  tiles  : List (Nat × List Tile) := []
  bars   : List (Nat × List Barrier) := []
  memory : List (Nat × List Byte) := []
  shared : Option (Vector Word 16) := Option.none
  hold   : Bool := false
  fused  : Bool := false
  deriving DecidableEq, Repr

/-- What leaves the module: packets over the fabric, writes to host memory, interrupts to the host. -/
inductive Out where
  | hostWrite (addr : Nat) (data : List Byte)
  | hostRead (addr n : Nat)
  | message (modul job : Nat) (m : Message)
  | request (modul slot : Nat) (r : Request)
  | reply (modul job tag : Nat) (r : Reply)
  | rillBeats (modul job ring step : Nat) (data : List Byte) (bad : Option Word)
  | rillToken (modul job ring step : Nat)
  | announce (a : Announce)
  | ringBreak (job ring : Nat)
  | lwToken (modul job : Nat) (t : Token)
  | lwMark (job v : Nat) (n published : Bool)
  | abortToken (modul job : Nat) (second : Bool) (a : Nat) (reason : Word) (since : Nat)
  | abortDone (job a : Nat) (reason : Word)
  | restart (job : Nat)
  | weir (job c k r task copy home : Nat)
  | confirm (modul job task copy : Nat)
  | hedge (modul : Nat) (m : HedgeMsg)
  | context (modul core : Nat) (c : Context)
  | incarnation (job inc : Nat)
  | parkOrder (modul job tag : Nat)
  | parkConfirm (modul tag : Nat)
  | cancel (modul job task : Nat) (c : HedgeCopy)
  | commit (modul : Nat) (m : CommitMsg)
  | commitAnswer (modul gang : Nat) (a : Answer)
  | stagingRead (data : List Byte)
  | msix (vector : Nat)
  deriving DecidableEq, Repr

/-- A flow of packets from another module, by the module's `link`: the number of the next to be performed, and those that arrived ahead of a
gap (22 R351). -/
structure Flow where
  link : Nat
  src : Nat
  dst : Nat
  cls : Nat
  next : Nat := 0
  held : List (Nat × Ev) := []
  deriving DecidableEq, Repr

/-- A migration in progress: the requesting slot, gang (0 for the core), source and destination (23 R372). -/
structure Migr where
  slot : Nat
  gang : Nat
  score : Nat
  dcore : Nat
  dmod : Nat
  len : Nat
  dest : BitVec 7
  deriving DecidableEq, Repr

/-- The machine. -/
structure State where
  /-- the instant, in ticks of 1/48 ns (every clock of 00 R5, R6 and the ns are whole numbers of ticks); 03 R60, 15 R272; reset 0. -/
  now : Nat := 0
  /-- pending steps with the tick at which each is due, in order; the model's own field (log 4); reset empty. -/
  agenda : List (Nat × Ev) := []
  /-- the step being performed; the model's own field (log 4); reset none. -/
  ev : Option Ev := Option.none
  /-- the slot (core × 16 + slot) whose instruction is being executed; the model's own field (log 4); reset 0. -/
  cur : Nat := 0
  /-- counter of free values drawn; the model's own field (log 8); reset 0. -/
  fresh : Nat := 0
  /-- HBM and local memory by physical address; 07 R126; reset: nothing listed (log 1). -/
  mem : List Host.Cell := []
  /-- lines of local memory written since their core passed to its tenant, which a migration streams as the local memory in use; the model's own field (log 32); reset none. -/
  used : List Nat := []
  /-- physical word addresses whose FE bit is 1, rising; 04 R86; reset: none given, DESIGN CHOICE all empty (log 2). -/
  fe : List Nat := []
  /-- words and FE bits of HBM that cannot be corrected; 25 R398; reset none. -/
  bad : List Nat := []
  /-- slots by core × 16 + slot; 06 R108; reset: no strand anywhere. -/
  slots : Table Slot := []
  /-- cores by (z × 16 + y) × 32 + x; 00 R2. -/
  cores : Table Core := []
  /-- twin pairs by y × 32 + x; 00 R3. -/
  pairs : Table Pair := []
  /-- clusters 0 to 127; 00 R4. -/
  clusters : Table Cluster := []
  /-- gangs by gang id; 15 R260; reset none. -/
  gangs : Table Gang := []
  /-- jobs by job id; 26 R404; reset none open. -/
  jobs : Table Job := []
  /-- tenants by id; 15 R271; reset none. -/
  tenants : Table Tenant := []
  /-- retry lists of all homes, each word's in arrival order; 04 R87; reset empty. -/
  retries : List Retry := []
  /-- suspended ROAM continuations that hold no slot, by a number from 65,536 up; 03 R71; reset none. -/
  records : Table Entry := []
  /-- next number of a suspended continuation; the model's own field (log 4); reset 65,536. -/
  nextRecord : Nat := 65536
  /-- words whose park mark is set; 04 R88; reset none. -/
  parkMarks : List Nat := []
  /-- the firmware's park lists, by word, or by 2^64 and the tag of the request for a word of another module; 04 R88; reset none. -/
  parks : List (Nat × Parked) := []
  /-- reduction lines: line address, kind, marking job; 04 R96; reset none. -/
  drLines : List (Nat × DrKind × Nat) := []
  /-- tile headers in use: line address and marking job; 16 R276; reset none. -/
  tileMarks : List (Nat × Nat) := []
  /-- ownership records: word address and owner (core, or 1,024 + fused cluster); 07 R128; reset none. -/
  owners : List (Nat × Nat) := []
  /-- lines of HBM resident in the last-level cache, the oldest first, 131,072 for each home; 00 R6, 07 R125; reset none. -/
  resident : List Nat := []
  /-- pseudo-channels by stack × 16 + number: spare lanes used, and swaps in progress; 25 R397; reset none used. -/
  channels : Table Channel := []
  /-- packets of the timed channel not yet delivered, or delivered lately; 22 R354; reset none. -/
  timed : List TimedPkt := []
  /-- number of the next packet of the timed channel; the model's own field (log 84); reset 0. -/
  nextTimed : Nat := 0
  /-- readers of version buffers; 16 R278; reset none. -/
  readers : List Reader := []
  /-- rollback count of each tile at its home; 18 R303; reset 0. -/
  tileRback : Table Nat := []
  /-- hedge records of all homes; 16 R280; reset none. -/
  hedges : List HedgeRec := []
  /-- copies that left this module, by job, task, copy, gang and source core, whose CANCELs a forwarding entry passes on; 16 R282; reset none. -/
  awayTasks : List (Nat × Nat × Nat × Nat × Nat) := []
  /-- held actions of all homes; 13 R242; reset none. -/
  held : List Held := []
  /-- sequence counter of external messages per home; 13 R242; reset 0. -/
  homeSeq : Table Nat := []
  /-- commits waiting at their homes for a reader to end or for send-log room; 16 R279, 18 R298; reset none. -/
  commits : List CommitMsg := []
  /-- messages released from an outbox and waiting for overflow room: home, job and message; 18 R301; reset none. -/
  relWait : List (Nat × Nat × Message) := []
  /-- side bits of formatted lines resident at their homes; 08 R156; reset none. -/
  side : Table Word := []
  /-- format ranges 0 to 7, three 64-bit registers each; 08 R155; reset 0. -/
  ranges : Table FmtRange := []
  /-- rings this module takes part in; 21 R336; reset none. -/
  rings : List Ring := []
  /-- announcements received for rings; 21 R336; reset none. -/
  anns : List Announce := []
  /-- contexts on their way in from other modules, with the core each goes to; 23 R372; reset none. -/
  contexts : Table (Nat × Context) := []
  /-- migrations in progress; 23 R372; reset none. -/
  migrs : List Migr := []
  /-- READY, 39 bits; 23 R367, 26 R407; reset 0. -/
  ready : Word := 0
  /-- tick at which each frond's first die became ready; 03 R60; reset 0. -/
  start0 : Nat := 0
  start1 : Nat := 0
  /-- the module's incarnation, 16 bits; 22 R358; value at first reset not given: DESIGN CHOICE 0 (log 22). -/
  incarnation : BitVec 16 := 0
  /-- recorded incarnations of other modules, by job and group index; 22 R355, R358; reset none. -/
  peers : List ((Nat × Nat) × Nat) := []
  /-- mailbox slots 0 to 7; 26 R402; reset 0. -/
  mailbox : Table MailSlot := []
  /-- busy mailbox slots in doorbell order; 26 R402; reset none. -/
  bells : List Nat := []
  /-- EVQBASE, EVQHEAD, EVQTAIL, STAGEBASE, MBDROP; 26 R401; no reset value given: DESIGN CHOICE 0 (log 23). -/
  evqBase : Word := 0
  evqHead : Nat := 0
  evqTail : Nat := 0
  stageBase : Word := 0
  mbDrop : Nat := 0
  /-- events held while the ring is full, and events lost; 26 R406; reset none. -/
  evHeld : List (List Word) := []
  evLost : Nat := 0
  /-- flows of packets from other modules; 22 R351; reset none. -/
  flows : List Flow := []
  /-- power cap in W (0: none set), removed slots newest first, first tick of a run below 95% of CAP; 26 R409; no reset value given: DESIGN CHOICE 0 (log 23). -/
  cap : Nat := 0
  removals : List Nat := []
  lowSince : Option Nat := Option.none
  /-- fibre groups 0 to 63; 22 R361; reset WIDE with the default policy. -/
  fibres : Table Fibre := []
  /-- counters TNDROP per core's router, INCDROP per engine, CLDROP, dropped packets; 22 R359; reset 0. -/
  tnDrop : Table Nat := []
  incDrop : Table Nat := []
  clDrop : Nat := 0
  misDrop : Nat := 0
  launchDrop : Nat := 0
  /-- UELOG of each stack under 0 to 15, SRLOG of each cluster from 16, TRLOG, LANELOG and CELOG of each stack from 144, 160 and 176:
  stamp and e1; 25 R400; reset empty. -/
  logs : List (Nat × Nat × Word) := []
  logLost : Table Nat := []
  /-- what has left the module, newest first; 26 R401, 22 R350; reset empty. -/
  out : List Out := []
  deriving DecidableEq, Repr

/-- Why the machine stops with a fault. -/
inductive Fault where
  /-- Raised by STAGING_ACCESS at an address beyond this module's HBM: 26 R401 places the aperture on HBM and says
  nothing of the rest. Safe: the model stops. -/
  | stagingOutsideHbm
  deriving DecidableEq, Repr

/-- Why the model gives an instruction no meaning. -/
inductive Refusal where
  /-- Raised by a dispatch arm that has no meaning yet. Safe: the model stops. -/
  | notModelled (mnemonic : String)
  deriving DecidableEq, Repr

/-- The machine right after reset: no strand, no job, nothing ready, every engine gated and every licence parked. -/
def State.reset : State := {}

end Sys2Proof.Machine
end

