-- ==== Sys2Proof/Machine/Base.lean ====
section
/-! DEFINITION. The plainest operations over the state: tables, geometry and clocks, bit fields, memory, the accessors of its parts, the
agenda and the counters. -/

namespace Sys2Proof.Machine

/-! ## Tables -/

/-- The entry of a table under a key, or the default. -/
def tget {α : Type} (t : Table α) (k : Nat) (dflt : α) : α :=
  match t with
  | [] => dflt
  | (i, v) :: r => if i = k then v else tget r k dflt

/-- A table with one entry set. -/
def tset {α : Type} (t : Table α) (k : Nat) (v : α) : Table α :=
  match t with
  | [] => [(k, v)]
  | (i, w) :: r => if i = k then (k, v) :: r else (i, w) :: tset r k v

/-- A table without an entry. -/
def tdel {α : Type} (t : Table α) (k : Nat) : Table α := t.filter (fun e => e.1 != k)

/-- An element put in place in a sorted list, before the first that does not precede it. -/
def insertBy {α : Type} (le : α → α → Bool) (x : α) : List α → List α
  | [] => [x]
  | y :: r => if le x y then x :: y :: r else y :: insertBy le x r
/-- A list sorted, equals in their order. -/
def isort {α : Type} (le : α → α → Bool) (l : List α) : List α := l.foldr (insertBy le) []

/-! ## Geometry and clocks (00 R2 to R6, 07 R126) -/

/-- Column, row and layer of a core number. -/
def coreX (c : Nat) : Nat := c % 32
def coreY (c : Nat) : Nat := c / 32 % 16
def coreZ (c : Nat) : Nat := c / 512 % 2
/-- Core number of (x, y, z). -/
def coreOf (x y z : Nat) : Nat := (z * 16 + y) * 32 + x
/-- Frond of a core. -/
def frondOf (c : Nat) : Nat := coreX c / 16
/-- The twin pair of a core: y × 32 + x. -/
def pairOf (c : Nat) : Nat := c % 512
/-- The twin of a core. -/
def twinOf (c : Nat) : Nat := (c + 512) % 1024
/-- Cluster index of a core and the core's index in it (00 R4). -/
def clusterOf (c : Nat) : Nat := coreY c / 2 * 16 + coreX c / 2
def clusterIdx (c : Nat) : Nat := coreZ c * 4 + coreY c % 2 * 2 + coreX c % 2
/-- Core k of a cluster. -/
def clusterCore (cl k : Nat) : Nat :=
  coreOf (cl % 16 * 2 + k % 2) (cl / 16 * 2 + k / 2 % 2) (k / 4)
/-- Column class: 1 efficient, 2 fast, 3 medium (00 R5, 15 R266). -/
def classOf (c : Nat) : Nat :=
  let l := coreX c % 16
  if l < 4 then 1 else if l < 10 then 2 else 3
/-- Ticks of 1/48 ns per core cycle (00 R5). -/
def tickLen (c : Nat) : Nat :=
  match classOf c with
  | 1 => 20
  | 2 => 12
  | _ => 15
/-- The extension register: BASE, and MXF64 outside the fast columns (02 R44). -/
def extsOf (c : Nat) : Word := if classOf c = 2 then 1 else 3
/-- Ticks per mesh cycle, per ns, per µs. -/
def mcTicks : Nat := 16
def nsTicks : Nat := 48
def usTicks : Nat := 48000

/-- The tick at which a core's cycle count is zero (03 R60). -/
def State.startOf (s : State) (c : Nat) : Nat := if frondOf c = 0 then s.start0 else s.start1
/-- The cycle a core stands in (03 R60). -/
def State.cycleOf (s : State) (c : Nat) : Nat := (s.now - s.startOf c) / tickLen c
/-- The tick of the first cycle of a slot at or after a tick (06 R108). -/
def State.slotTick (s : State) (id t : Nat) : Nat :=
  let c := id / 16
  let len := tickLen c
  let t0 := s.startOf c
  let cyc := (t - t0 + (len - 1)) / len
  let cyc' := cyc + (id % 16 + 16 - cyc % 16) % 16
  t0 + cyc' * len
/-- The stamp clock in ns (15 R272). -/
def State.stamp (s : State) : Nat := s.now / nsTicks

/-! ## Bit fields, extension and bytes -/

/-- v[lo + n − 1 : lo] as a number (00 R8). -/
def bits (v : Word) (lo n : Nat) : Nat := v.toNat / 2 ^ lo % 2 ^ n
/-- One bit (00 R8). -/
def bitAt (v : Word) (i : Nat) : Bool := v.getLsbD i
/-- sext(v, n) as a word (00 R11). -/
def sextN (v : Word) (n : Nat) : Word := (BitVec.ofNat n v.toNat).signExtend 64
/-- zext(v, n) as a word (00 R11). -/
def zextN (v : Word) (n : Nat) : Word := BitVec.ofNat 64 (v.toNat % 2 ^ n)
/-! ## Memory: physical bytes in canonical form -/

/-- A listed byte put in place among rising addresses. -/
def cellInsert (m : List Host.Cell) (a : Nat) (b : Byte) : List Host.Cell :=
  match m with
  | [] => [(a, b)]
  | (k, v) :: r => if a < k then (a, b) :: (k, v) :: r else (k, v) :: cellInsert r a b

/-- The byte at a physical address; an unlisted address reads 0 (log 1). -/
def memByte (m : List Host.Cell) (a : Nat) : Byte :=
  match m with
  | [] => 0
  | (k, v) :: r => if k = a then v else memByte r a

/-- Memory with one byte written. -/
def memSet (m : List Host.Cell) (a : Nat) (b : Byte) : List Host.Cell :=
  let m' := m.filter (fun c => c.1 != a)
  if b = 0 then m' else cellInsert m' a b

/-- The n bytes from an address, little-endian (00 R11). -/
def memRead (m : List Host.Cell) (a : Nat) : Nat → Nat
  | 0 => 0
  | n + 1 => (memByte m a).toNat + 256 * memRead m (a + 1) n

/-- Memory with the low n bytes of a number written (00 R11). -/
def memWrite (m : List Host.Cell) (a v : Nat) : Nat → List Host.Cell
  | 0 => m
  | n + 1 => memWrite (memSet m a (BitVec.ofNat 8 v)) (a + 1) (v / 256) n

/-- The bytes from an address as a list. -/
def memBytes (m : List Host.Cell) (a : Nat) : Nat → List Byte
  | 0 => []
  | n + 1 => memByte m a :: memBytes m (a + 1) n

/-- Memory with a list of bytes written from an address. -/
def memPut (m : List Host.Cell) (a : Nat) : List Byte → List Host.Cell
  | [] => m
  | b :: r => memPut (memSet m a b) (a + 1) r

/-- Addresses strictly rise and no listed byte is 0. -/
def memWfFrom (lo : Nat) : List Host.Cell → Bool
  | [] => true
  | (k, v) :: r => decide (lo ≤ k) && v != 0 && memWfFrom (k + 1) r

/-- The canonical form of memory. -/
def Memory.wf (m : List Host.Cell) : Bool := memWfFrom 0 m

/-- n 64-bit words from a physical address. -/
def State.readWords (s : State) (a : Nat) : Nat → List Word
  | 0 => []
  | n + 1 => BitVec.ofNat 64 (memRead s.mem a 8) :: s.readWords (a + 8) n

/-- 64-bit words written from a physical address. -/
def memWords (m : List Host.Cell) (a : Nat) : List Word → List Host.Cell
  | [] => m
  | w :: r => memWords (memWrite m a w.toNat 8) (a + 8) r


/-- The first physical address of a core's local memory and of the window (07 R126). -/
def windowBase : Nat := 0x7E0000000000
def localBase (c : Nat) : Nat := windowBase + c * 0x200000
/-- The end of HBM. -/
def hbmEnd : Nat := 0xC000000000
/-- A physical address in HBM. -/
def isHbm (p : Nat) : Bool := p < hbmEnd
/-- The core whose local memory holds a physical address of the window. -/
def windowCore (p : Nat) : Option Nat :=
  if windowBase ≤ p ∧ p < windowBase + 1024 * 0x200000 then some ((p - windowBase) / 0x200000) else none
/-- The home of a physical address and its stack (07 R126). -/
def homeOf (p : Nat) : Nat := p / 4096 % 32
def stackOf (p : Nat) : Nat := homeOf p / 2
/-- The word and the line that hold an address. -/
def wordAddr (p : Nat) : Nat := p / 8 * 8
def lineAddr (p : Nat) : Nat := p / 64 * 64

/-- Lines of local memory that n bytes from an address touch are in use (23 R372; log 32). -/
def State.markLocal (s : State) (pa n : Nat) : State :=
  if n = 0 ∨ isHbm pa then s
  else
    let lines := (List.range ((pa % 64 + n + 63) / 64)).map fun i => lineAddr pa + 64 * i
    { s with used := lines.foldl (fun l a => if l.contains a then l else a :: l) s.used }
/-- 64-bit words written to local memory from a physical address. -/
def State.writeWords (s : State) (a : Nat) (ws : List Word) : State := { (s.markLocal a (8 * ws.length)) with mem := memWords s.mem a ws }

/-- The FE bit of a word (04 R86). -/
def State.feBit (s : State) (p : Nat) : Bool := s.fe.contains (wordAddr p)

/-- A sorted list of numbers with one put in place. -/
def natInsert (l : List Nat) (a : Nat) : List Nat :=
  match l with
  | [] => [a]
  | k :: r => if a < k then a :: k :: r else k :: natInsert r a

/-- The state with a word's FE bit set to b. -/
def State.setFe (s : State) (p : Nat) (b : Bool) : State :=
  let l := s.fe.filter (fun w => w != wordAddr p)
  { s with fe := if b then natInsert l (wordAddr p) else l }

/-! ## Accessors -/

def State.slot (s : State) (id : Nat) : Slot := tget s.slots id {}
def State.setSlot (s : State) (id : Nat) (v : Slot) : State := { s with slots := tset s.slots id v }
def State.core (s : State) (c : Nat) : Core := tget s.cores c {}
def State.setCore (s : State) (c : Nat) (v : Core) : State := { s with cores := tset s.cores c v }
def State.pair (s : State) (p : Nat) : Pair := tget s.pairs p {}
def State.setPair (s : State) (p : Nat) (v : Pair) : State := { s with pairs := tset s.pairs p v }
def State.cluster (s : State) (c : Nat) : Cluster := tget s.clusters c {}
def State.setCluster (s : State) (c : Nat) (v : Cluster) : State := { s with clusters := tset s.clusters c v }
def State.gang (s : State) (g : Nat) : Gang := tget s.gangs g {}
def State.setGang (s : State) (g : Nat) (v : Gang) : State := { s with gangs := tset s.gangs g v }
def State.job (s : State) (j : Nat) : Job := tget s.jobs j {}
def State.setJob (s : State) (j : Nat) (v : Job) : State := { s with jobs := tset s.jobs j v }
def Job.part (j : Job) (p : Nat) : Part := tget j.parts p {}
def State.setPart (s : State) (j p : Nat) (v : Part) : State :=
  s.setJob j { s.job j with parts := tset (s.job j).parts p v }
def Core.barrier (c : Core) (i : Nat) : Barrier := tget c.bx i {}
def Core.tile (c : Core) (i : Nat) : Tile := tget c.tiles i {}

/-- The issuing slot, its core, its gang and its job. -/
def State.me (s : State) : Slot := s.slot s.cur
def State.setMe (s : State) (v : Slot) : State := s.setSlot s.cur v
def State.coreId (s : State) : Nat := s.cur / 16
def State.myCore (s : State) : Core := s.core s.coreId
def State.myGang (s : State) : Gang := s.gang s.me.gang
def State.myJob (s : State) : Job := s.job s.myGang.job

/-- The job's low-water mark at a part (18 R311); 0 where no job is open. -/
def State.lwAt (s : State) (j part : Nat) : Nat :=
  if (s.job j).isOpen then ((s.job j).part part).lw else 0

/-! ## The agenda -/

/-- An event put in place: after every event due no later. -/
def agendaInsert (l : List (Nat × Ev)) (t : Nat) (e : Ev) : List (Nat × Ev) :=
  match l with
  | [] => [(t, e)]
  | (k, v) :: r => if t < k then (t, e) :: (k, v) :: r else (k, v) :: agendaInsert r t e

/-- The state with an event due at a tick. -/
def State.schedule (s : State) (t : Nat) (e : Ev) : State := { s with agenda := agendaInsert s.agenda t e }
/-- The state with an event due now. -/
def State.soon (s : State) (e : Ev) : State := s.schedule s.now e
/-- The end of the present mc: what one unit receives in one cycle is ordered there (15 R265; 16 R281, R285). -/
def State.cycleEnd (s : State) : Nat := (s.now / mcTicks + 1) * mcTicks
/-- What a packet of another module, or one of the timed channel, performs here. -/
def plainEv (e : Ev) : Ev :=
  match e with
  | .fromModule _ _ e => e
  | .timed _ e => e
  | e => e
/-- Another step is due now that goes before the present one. -/
def State.yields (s : State) (first : Ev → Bool) : Bool := s.agenda.any fun e => decide (e.1 ≤ s.now) && first (plainEv e.2)
/-- The state with an event due at a tick, once. -/
def State.scheduleOnce (s : State) (t : Nat) (e : Ev) : State := if s.agenda.contains (t, e) then s else s.schedule t e
/-- The state with a packet sent off the module. -/
def State.send (s : State) (o : Out) : State := { s with out := o :: s.out }

/-- Whether a core lies in a job's sub-mesh. -/
def Job.covers (j : Job) (c : Nat) : Bool :=
  decide (j.subX ≤ coreX c ∧ coreX c < j.subX + j.subW ∧ j.subY ≤ coreY c ∧ coreY c < j.subY + j.subH)

/-! ## Counters (22 R359) -/

/-- A counter of R359 after one more: it saturates at a width that no rule gives (log 78). -/
def counterUp (n k : Nat) : Nat := if Config.counterMax < n + k then max n Config.counterMax else n + k
/-- A router's refused packet is counted. -/
def State.countDrop (s : State) (router : Nat) : State := { s with tnDrop := tset s.tnDrop router (counterUp (tget s.tnDrop router 0) 1) }
/-- A packet for a job closed on this module is dropped and counted (26 R405). -/
def State.countClosed (s : State) : State := { s with clDrop := counterUp s.clDrop 1 }

end Sys2Proof.Machine
end

