-- ==== Sys2Proof/Machine/Timed.lean ====
section
/-! DEFINITION. The timed channel of the mesh (22 R354): which packets travel on it, their dimension-order routes (22 R352), the
mc in which each is delivered, and the flits that two packets' ports make late (log 84). -/

namespace Sys2Proof.Machine

/-! ## Endpoints (22 R350; 26 R412): cores 0 to 1,023, homes from 1,024 -/

/-- Distance of two numbers. -/
def dist (a b : Nat) : Nat := (a - b) + (b - a)
/-- Mesh hops between two cores (26 R412). -/
def hops (a b : Nat) : Nat := dist (coreX a) (coreX b) + dist (coreY a) (coreY b) + dist (coreZ a) (coreZ b)
/-- The core whose router a home attaches to (26 R412). -/
def homeRouter (h : Nat) : Nat :=
  let k := h / 2
  let i := k % 8
  if i < 4 then coreOf (k / 8 * 16 + 4 * i + 1) 0 0 else coreOf (k / 8 * 16 + 4 * (i - 4) + 2) 15 0
/-- The endpoint of a home. -/
def homeEnd (h : Nat) : Nat := 1024 + h
/-- The router of an endpoint. -/
def routerOf (e : Nat) : Nat := if e < 1024 then e else homeRouter (e - 1024)

/-! ## Routes (22 R352) -/

/-- The ports that a packet leaves by along one row or column, n hops from router r in direction d. -/
def portsAlong (r d step : Nat) (up : Bool) : Nat → List Nat
  | 0 => []
  | n + 1 => (r * 8 + d) :: portsAlong (if up then r + step else r - step) d step up n
/-- The ports of the escape route between two routers: all of x, then all of y, then z. -/
def routePorts (a b : Nat) : List Nat :=
  let xu := decide (coreX a ≤ coreX b)
  let yu := decide (coreY a ≤ coreY b)
  let c := coreOf (coreX b) (coreY a) (coreZ a)
  let d := coreOf (coreX b) (coreY b) (coreZ a)
  portsAlong a (if xu then 0 else 1) 1 xu (dist (coreX a) (coreX b)) ++
    portsAlong c (if yu then 2 else 3) 32 yu (dist (coreY a) (coreY b)) ++
    portsAlong d 4 0 true (dist (coreZ a) (coreZ b))
/-- The ports of a packet between two endpoints: a home's own link, the route, and the link to the endpoint. -/
def packetPorts (src dst : Nat) : List Nat :=
  (if src < 1024 then [] else [16384 + src]) ++ routePorts (routerOf src) (routerOf dst) ++ [8192 + dst]
/-- Flits that a port carries in one mc: two on a seam link (22 R352). -/
def portWidth (p : Nat) : Nat := if p < 8192 ∧ ((p % 8 = 0 ∧ p / 8 % 32 = 15) ∨ (p % 8 = 1 ∧ p / 8 % 32 = 16)) then 2 else 1

/-! ## Times -/

/-- The mc in which the machine stands. -/
def State.mcNow (s : State) : Nat := s.now / mcTicks
/-- Which of two packets passes a port first: the earlier injected, then the lower job, then the lower source (22 R354). -/
def TimedPkt.before (a b : TimedPkt) : Bool :=
  decide (a.inj < b.inj ∨ (a.inj = b.inj ∧ (a.job < b.job ∨ (a.job = b.job ∧ (a.src < b.src ∨ (a.src = b.src ∧ a.id ≤ b.id))))))

/-- The mc, from m in steps of 2, in which a port still has room for a flit (22 R354). -/
def portRoom (taken : List (Nat × Nat)) (p m : Nat) : Nat → Nat
  | 0 => m
  | fuel + 1 => if (taken.filter (· == (p, m))).length < portWidth p then m else portRoom taken p (m + 2) fuel
/-- A flit's passage along its ports from mc t: the delay it meets and the places it takes, in ports already taken. -/
def passPorts (taken : List (Nat × Nat)) (t : Nat) : List Nat → Nat → Nat × List (Nat × Nat)
  | [], late => (late, taken)
  | p :: r, late =>
    let m := portRoom taken p (t + late) taken.length
    passPorts ((p, m) :: taken) (t + 2) r (m - t)
/-- The flits of packets, each with the mc of its injection, in the order in which they pass a port they meet at: the earlier injected, then
the lower job, then the lower source (22 R354). -/
def flitOrder (l : List TimedPkt) : List (Nat × TimedPkt) :=
  isort (fun a b => if a.1 = b.1 then { a.2 with inj := a.1 }.before { b.2 with inj := b.1 } else decide (a.1 < b.1))
    (l.flatMap fun p => (List.range p.flits).map fun i => (p.inj + i, p))
/-- The passage of flits in their order: the packet and the delay of each, in mc. -/
def passFlits (taken : List (Nat × Nat)) : List (Nat × TimedPkt) → List (Nat × Nat)
  | [] => []
  | f :: r =>
    let q := passPorts taken f.1 f.2.path 0
    (f.2.id, q.1) :: passFlits q.2 r
/-- The delays of one packet's flits among those in flight, in mc. -/
def flitDelays (l : List TimedPkt) (id : Nat) : List Nat := ((passFlits [] (flitOrder l)).filter fun f => f.1 == id).map (·.2)
/-- The delay of a packet: its latest flit's. -/
def lateness (l : List TimedPkt) (id : Nat) : Nat := (flitDelays l id).foldl max 0

/-- The first mc from m in which a core has no TIMED flit of its own (22 R354). -/
def State.injectFrom (s : State) (src flits : Nat) : Nat → Nat → Nat
  | 0, m => m
  | fuel + 1, m =>
    if s.timed.any (fun p => p.src == src && decide (p.inj < m + flits ∧ m < p.inj + p.flits)) then s.injectFrom src flits fuel (m + 1)
    else m

/-- A packet between these endpoints sets TIMED: of a DET job, between two cores of its sub-mesh or such a core and a home. -/
def State.isTimed (s : State) (j src dst : Nat) : Bool :=
  let job := s.job j
  let ok := fun (e : Nat) => decide (1024 ≤ e) || job.covers e
  job.isOpen && job.det && src != dst && ok src && ok dst && (decide (src < 1024) || decide (dst < 1024))

/-- A packet of `flits` flits on its way: on the timed channel, where it is delivered 2 × hops + 6 mc after its injection, or
in no time that the spec states (22 R354; log 3). -/
def State.carry (s : State) (j src dst flits : Nat) (e : Ev) : State :=
  if s.isTimed j src dst then
    let m := if src < 1024 then s.injectFrom src flits 4096 s.mcNow else s.mcNow
    let p : TimedPkt := { id := s.nextTimed, inj := m, job := j, src := src, flits := flits, path := packetPorts src dst }
    { s with timed := s.timed.filter (fun (q : TimedPkt) => decide (s.mcNow ≤ q.inj + 1024)) ++ [p], nextTimed := s.nextTimed + 1 }.schedule
      ((m + 2 * hops (routerOf src) (routerOf dst) + 6) * mcTicks) (.timed s.nextTimed e)
  else s.soon e

/-- A packet as `carry` takes it, or one that arrives by the end of the mc where the spec states no time, so that what one unit
receives in one cycle can be ordered (16 R281, R285). -/
def State.carryBy (s : State) (j src dst flits : Nat) (e : Ev) : State :=
  if s.isTimed j src dst then s.carry j src dst flits e else s.schedule s.cycleEnd e

/-- The time a packet between two endpoints takes, in ticks: what R354 states for a DET job, else none. -/
def State.carryTicks (s : State) (j src dst : Nat) : Nat :=
  if s.isTimed j src dst then (2 * hops (routerOf src) (routerOf dst) + 6) * mcTicks else 0

/-- A packet of the timed channel reaches its endpoint: none where it is delivered now, else the state in which it is held back by
the delay that its ports made, of which TMISS counts each 2 mc of each flit (22 R354), or until an earlier packet of its flow is delivered (22
R351). -/
def State.timedLate (s : State) (id : Nat) (e : Ev) : Option State :=
  match s.timed.find? (fun p => p.id == id) with
  | none => none
  | some p =>
    let flow := s.timed.filter (fun (q : TimedPkt) => q.path == p.path && decide (q.id < id))
    let hold := flow.foldl (fun m q => max m (q.inj + lateness s.timed q.id - p.inj)) (lateness s.timed id)
    if hold = 0 then none
    else
      let n := ((flitDelays s.timed id).map (· / 2)).foldl (· + ·) 0
      let s1 := s.setJob p.job { s.job p.job with tmiss := counterUp (s.job p.job).tmiss n }
      some (s1.schedule (s.now + hold * mcTicks) e)

/-! ## Revocations (07 R128) -/

/-- The open DET job whose sub-mesh holds a core. -/
def State.detJob (s : State) (c : Nat) : Option Nat := (s.jobs.find? fun j => j.2.isOpen && j.2.det && j.2.covers c).map (·.1)
/-- A revocation of a word on its way from its home to an owner: on the timed channel where the owner is a core of a DET job (22 R354). -/
def State.revoke (s : State) (o w : Nat) : State :=
  let c := if o < 1024 then o else clusterCore (o - 1024) (w / 64 % 8)
  match s.detJob c with
  | some j => s.carry j (homeEnd (homeOf w)) c 1 (.revocation o w)
  | none => s.soon (.revocation o w)

end Sys2Proof.Machine
end

