-- ==== Sys2Proof/Machine/Ops.lean ====
section
/-! DEFINITION. The named operations over the state: writes of homes and units, slots and registers, the pool and job areas,
translation, launching handlers, and taking and returning from a trap. -/

namespace Sys2Proof.Machine

/-! ## Writes that a home or a unit makes itself (07 R128, R136; 08 R155 to R157; 25 R398) -/

/-- A word of HBM as its home holds it. -/
def State.homeWord (s : State) (pa : Nat) : Word := BitVec.ofNat 64 (memRead s.mem (wordAddr pa) 8)

/-- The format range in force whose scale region holds an address, and the data line it describes (08 R155, R157). -/
def State.scaleLine (s : State) (pa : Nat) : Option Nat :=
  (s.ranges.find? (fun r => bitAt r.2.base 63 &&
    (let base := bits r.2.base 6 42
     let lim := bits r.2.lim 6 42
     let scl := bits r.2.scl 3 45 * 8
     decide (scl ≤ pa ∧ pa < scl + 8 * (lim + 1 - base))))).map
    (fun r => (bits r.2.base 6 42 + (pa - bits r.2.scl 3 45 * 8) / 8) * 64)

/-- A write to a scale region sends the new bytes to the data line's home (08 R157). -/
def State.noteScale (s : State) (pa : Nat) : State :=
  match s.scaleLine pa with
  | some l => s.soon (.metadataUpdate l (s.homeWord pa))
  | none => s

/-- The words that n bytes from an address touch. -/
def wordSpan (pa n : Nat) : List Nat := if n = 0 then [] else (List.range ((pa % 8 + n + 7) / 8)).map fun i => wordAddr pa + 8 * i

/-- n bytes written to HBM at a home: the words are no longer damaged (25 R398), and metadata follows (08 R157). -/
def State.hbmWrite (s : State) (pa v n : Nat) : State :=
  (wordSpan pa n).foldl (fun (u : State) w => u.noteScale w)
    { s with mem := memWrite s.mem pa v n, bad := s.bad.filter (fun w => !(wordSpan pa n).contains w) }

/-- The owners of the words of a write that registers none, an engine's or a unit's, are sent a revocation, and the words are left
without an owner (07 R128, R136). -/
def State.revokeWords (s : State) (l : List Nat) : State :=
  l.foldl (fun (u : State) w =>
    match u.owners.find? (fun e => e.1 == w) with
    | some e => ({ u with owners := tdel u.owners w }).revoke e.2 w
    | none => u) s

/-- Words written at their home by the home or a unit itself (07 R136; 16 R276). -/
def State.unitWrite (s : State) (pa : Nat) (ws : List Word) : State :=
  (s.hbmWrite pa (ws.foldr (fun w n => w.toNat + 2 ^ 64 * n) 0) (8 * ws.length)).revokeWords (wordSpan pa (8 * ws.length))

/-! ## General registers, windows and retirement -/

/-- General register r of the strand, or of the shadow bank at firmware privilege (01 R22, 25 R385). -/
def Slot.rx (v : Slot) (r : BitVec 7) : Word :=
  if v.mode then v.shadow[r.toNat % 16]'(Nat.mod_lt _ (by decide)) else v.x[r.toNat]'r.isLt
/-- The slot with a general register written. -/
def Slot.wx (v : Slot) (r : BitVec 7) (w : Word) : Slot :=
  if v.mode then { v with shadow := v.shadow.set (r.toNat % 16) w (Nat.mod_lt _ (by decide)) }
  else { v with x := v.x.set r.toNat w r.isLt }
/-- A strand stands in a slot: it has not halted (03 R72). -/
def Slot.runs (v : Slot) : Bool := v.live && v.n != 0
/-- A register field inside the window (01 R22, 25 R385). -/
def Slot.regOk (v : Slot) (r : Nat) : Bool := if v.mode then r < 16 else r < v.n

def State.rx (s : State) (r : BitVec 7) : Word := s.me.rx r
def State.wx (s : State) (r : BitVec 7) (w : Word) : State := s.setMe (s.me.wx r w)
/-- Consecutive registers written from r. -/
def Slot.wxs (v : Slot) (r : Nat) : List Word → Slot
  | [] => v
  | w :: ws => (v.wx (BitVec.ofNat 7 r) w).wxs (r + 1) ws
/-- Consecutive registers read from r. -/
def Slot.rxs (v : Slot) (r : Nat) : Nat → List Word
  | 0 => []
  | n + 1 => v.rx (BitVec.ofNat 7 r) :: v.rxs (r + 1) n

/-- The strand goes on: pc past the word, next issue after 1 + ST rotations (06 R109). -/
def Slot.advance (v : Slot) (now len core : Nat) (st : BitVec 2) (bytes : Nat) : Slot :=
  { v with pc := v.pc + BitVec.ofNat 64 bytes, wait := .none, lines := [],
           nextTick := now + 16 * (1 + st.toNat) * tickLen core + len }
/-- The tick from which the strand's next issue is counted: the first issue of a VAR instruction that waited, else now (05
R106). -/
def State.base (s : State) : Nat := s.me.issuedAt.getD s.now
/-- The issuing strand's instruction of `bytes` bytes is complete. -/
def State.retire (s : State) (bytes : Nat) (st : BitVec 2) : State :=
  s.setMe (s.me.advance s.base 0 s.coreId st bytes)
/-- The issuing strand goes on at a target (03 R62, R64). -/
def State.retireTo (s : State) (pc : Word) (st : BitVec 2) : State :=
  s.setMe { s.me with pc := pc, wait := .none, nextTick := s.base + 16 * (1 + st.toNat) * tickLen s.coreId }
/-- A strand completes an instruction it waited in: it issues at its slot's next cycle (05 R106). -/
def State.complete (s : State) (id bytes : Nat) : State :=
  s.setSlot id { s.slot id with pc := (s.slot id).pc + BitVec.ofNat 64 bytes, wait := .none, lines := [] }
/-- The issuing strand waits; its instruction goes on once the condition holds (05 R106). -/
def State.block (s : State) (c : Cond) : State :=
  s.setMe { s.me with wait := .cond c, nextTick := s.now + 1, issuedAt := some s.base }
/-- The issuing strand leaves rotation for another reason, for 1 + ST rotations at the least (05 R106). -/
def State.waitFor (s : State) (w : Wait) (st : BitVec 2 := 0) : State :=
  s.setMe { s.me with wait := w, nextTick := s.base + 16 * (1 + st.toNat) * tickLen s.coreId }

/-- The physical accumulator tile that ac k names on the issuing core, if the gang holds it (12 R219). -/
def State.acTile (s : State) (k : Nat) : Option Nat := (tget s.myGang.tiles s.coreId [])[k]?
/-- The physical barrier register that bx k names on a core, if the gang holds it (15 R260). -/
def State.bxReg (s : State) (g core k : Nat) : Option Nat := (tget (s.gang g).bars core [])[k]?

/-! ## Continuation pool and job areas (15 R261, 26 R416) -/

/-- The physical address of a byte of a job area, from the pages found when the job opened. -/
def pagePa (pages : List (Nat × Nat)) (va : Nat) : Option Nat :=
  match pages.find? (fun p => p.1 = va / 65536) with
  | some (_, pa) => some (pa + va % 65536)
  | none => none
def Job.areaPa (j : Job) (va : Nat) : Option Nat := pagePa j.pages va

/-- The lowest 64-byte-aligned free offset of the pool that holds n bytes (log 16). -/
def poolFit (used : List (Nat × Nat)) (size n : Nat) : Nat → Nat → Option Nat
  | 0, _ => none
  | fuel + 1, off =>
    if off + n > size then none
    else match used.find? (fun u => decide (u.1 < off + n ∧ off < u.1 + u.2)) with
      | none => some off
      | some u => poolFit used size n fuel ((u.1 + u.2 + 63) / 64 * 64)

/-- An area of n bytes taken from a job's pool: its virtual address. -/
def State.poolAlloc (s : State) (j n : Nat) : Option (Nat × State) :=
  let job := s.job j
  match poolFit job.poolUsed job.poolBytes n (job.poolUsed.length + 1) 0 with
  | none => none
  | some off => some (job.poolBase + off, s.setJob j { job with poolUsed := (off, n) :: job.poolUsed })
/-- An area returned to its pool. -/
def State.poolFree (s : State) (j va : Nat) : State :=
  let job := s.job j
  s.setJob j { job with poolUsed := job.poolUsed.filter (fun u => job.poolBase + u.1 != va) }

/-- Words written into a job area at a virtual address. -/
def State.writeArea (s : State) (j va : Nat) (ws : List Word) : State :=
  match (s.job j).areaPa va with
  | some pa => s.unitWrite pa ws
  | none => s

/-! ## Translation (25 R392, R393) -/

/-- What an access needs of its page. -/
inductive Access where
  | fetch | read | write | rmw
  deriving DecidableEq, Repr

/-- Where an address leads: local memory through the alias or the window, HBM, a remote module, or a fault. -/
inductive Place where
  | ownMem (pa : Nat)
  | window (pa core : Nat)
  | hbm (pa : Nat) (table : Bool)
  | remote (modul : Nat)
  | xlat (level : Nat)
  | prot
  deriving DecidableEq, Repr

/-- Index of a virtual address at a table level. -/
def tableIndex (va level : Nat) : Nat :=
  match level with
  | 0 => va / 2 ^ 39 % 512
  | 1 => va / 2 ^ 30 % 512
  | 2 => va / 2 ^ 21 % 512
  | _ => va / 2 ^ 16 % 32
/-- Bytes of a page mapped by a leaf at a level. -/
def pageSize (level : Nat) : Nat :=
  match level with
  | 1 => 2 ^ 30
  | 2 => 2 ^ 21
  | _ => 2 ^ 16

/-- The table walk from a level: the leaf and its level, or the level at which it failed. -/
def walkFrom (m : List Host.Cell) (va : Nat) : Nat → Nat → Nat → Except Nat (Word × Nat)
  | 0, level, _ => .error level
  | fuel + 1, level, tbl =>
    let e : Word := BitVec.ofNat 64 (memRead m (tbl + 8 * tableIndex va level) 8)
    if bitAt e 0 = false then .error level
    else if level = 0 ∧ bitAt e 5 then .error 0
    else if level = 3 ∨ bitAt e 5 then .ok (e, level)
    else walkFrom m va fuel (level + 1) (bits e 8 40 * 256)

/-- A TLB's leaf for an address of a job. -/
def tlbFind (l : List TlbEntry) (job va : Nat) : Option TlbEntry :=
  l.find? (fun e => e.job == job && e.page == va / pageSize e.level)

/-- The leaf for an address: core TLB, cluster TLB, then a walk. -/
def State.leafOf (s : State) (core job va : Nat) : Except Nat (Word × Nat) :=
  match tlbFind (s.core core).tlb job va with
  | some e => .ok (e.leaf, e.level)
  | none =>
    match tlbFind (s.cluster (clusterOf core)).tlb job va with
    | some e => .ok (e.leaf, e.level)
    | none => walkFrom s.mem va 4 0 (s.job job).root

/-- A twin position inside a tenant's rectangle: bit t of its router's membership bitmap, which is always 1 for firmware, tenant 0 (15 R271;
22 R353). -/
def State.inTenant (s : State) (t core : Nat) : Bool :=
  let r := tget s.tenants t {}
  t == 0 || r.valid && decide (r.x ≤ coreX core ∧ coreX core < r.x + r.w ∧ r.y ≤ coreY core ∧ coreY core < r.y + r.h)

/-- The permission a leaf gives an access. -/
def leafAllows (leaf : Word) : Access → Bool
  | .fetch => bitAt leaf 4
  | .read => bitAt leaf 2
  | .write => bitAt leaf 3
  | .rmw => bitAt leaf 2 && bitAt leaf 3

/-- Where a leaf takes an access of a job. A leaf that a TLB held was judged by its walk: should its window's core have passed to another
tenant since, the routers refuse the packet (22 R353). -/
def State.leafPlace (s : State) (job va : Nat) (acc : Access) (leaf : Word) (level : Nat) (held : Bool := false) : Place :=
  let size := pageSize level
  let pa := bits leaf 8 40 * 256 / size * size + va % size
  if isHbm pa then
    if s.ready.getLsbD (2 + stackOf pa) = false then .xlat 4
    else if leafAllows leaf acc then .hbm pa (bitAt leaf 7) else .prot
  else match windowCore pa with
    | some c =>
      if (held || s.inTenant (s.job job).tenant c) && leafAllows leaf acc && decide (pa % 0x200000 < 0x180000)
      then .window pa c else .prot
    | none => .prot

/-- The ordinary address that an address names: a fabric address of the module itself without its index (22 R355; DEDUCED, log 98). -/
def Job.ordinary (j : Job) (a : Nat) : Nat := if j.self ≠ 0 ∧ a / 2 ^ 48 = j.self then a % 2 ^ 48 else a

/-- A job's packets to another module of its group wait: a group set of the job is at work (22 R357), or the group has no circuit to it, over which alone
they travel (22 R355; log 98). -/
def Job.noPath (j : Job) (m : Nat) : Bool := j.groupBusy || !(j.circuits.any fun c => c.1 == j.self && c.2.1 == m && c.2.2 != 0)

/-- The leaf for an address as the engines and units of a core find it: cluster TLB, then a walk (25 R393). -/
def State.unitLeaf (s : State) (core job va : Nat) : Except Nat (Word × Nat) :=
  match tlbFind (s.cluster (clusterOf core)).tlb job va with
  | some e => .ok (e.leaf, e.level)
  | none => walkFrom s.mem va 4 0 (s.job job).root

/-- Translation of a virtual address for a core and a job, by the leaf that a lookup finds for it, in a TLB or by a walk. -/
def State.translateBy (s : State) (leafAt : Nat → Except Nat (Word × Nat)) (held : Nat → Bool) (core job : Nat) (va : Word) (acc : Access) : Place :=
  let a := (s.job job).ordinary va.toNat
  if a < 0x180000 then .ownMem (localBase core + a)
  else if a < 0x200000 then .xlat 4
  else if a / 2 ^ 60 ≠ 0 then .xlat 4
  else
    let n := a / 2 ^ 48
    let j := s.job job
    if n ≠ 0 ∧ n ≠ j.self then
      if j.group.any (fun m => m.1 == n) then .remote n else .xlat 4
    else
      let a' := a % 2 ^ 48
      match leafAt a' with
      | .error l => .xlat l
      | .ok (leaf, level) => s.leafPlace job a' acc leaf level (held a')
/-- Translation for a core's strands. -/
def State.translate (s : State) (core job : Nat) (va : Word) (acc : Access) : Place :=
  s.translateBy (s.leafOf core job)
    (fun a => (tlbFind (s.core core).tlb job a).isSome || (tlbFind (s.cluster (clusterOf core)).tlb job a).isSome) core job va acc
/-- Translation for the engines of a core and for its Rill unit (25 R393). -/
def State.translateUnit (s : State) (core job : Nat) (va : Word) (acc : Access) : Place :=
  s.translateBy (s.unitLeaf core job) (fun a => (tlbFind (s.cluster (clusterOf core)).tlb job a).isSome) core job va acc

/-- A successful translation fills the core's TLB and its cluster's (25 R393; log 15). -/
def State.fillTlb (s : State) (core job : Nat) (va : Word) : State :=
  let a := (s.job job).ordinary va.toNat
  if a < 0x200000 then s
  else
    let a' := a % 2 ^ 48
    match tlbFind (s.core core).tlb job a' with
    | some _ => s
    | none =>
      match s.leafOf core job a' with
      | .error _ => s
      | .ok (leaf, level) =>
        let e : TlbEntry := { job := job, page := a' / pageSize level, level := level, leaf := leaf }
        let c := s.core core
        let cl := s.cluster (clusterOf core)
        let s1 := s.setCore core { c with tlb := (e :: c.tlb).take 64 }
        match tlbFind cl.tlb job a' with
        | some _ => s1
        | none => s1.setCluster (clusterOf core) { cl with tlb := (e :: cl.tlb).take 1024 }

/-- An engine's translation fills the cluster's TLB alone (25 R393). -/
def State.fillUnit (s : State) (core job : Nat) (va : Word) : State :=
  let a := (s.job job).ordinary va.toNat
  let cl := s.cluster (clusterOf core)
  let a' := a % 2 ^ 48
  if a < 0x200000 ∨ (tlbFind cl.tlb job a').isSome then s
  else
    match s.unitLeaf core job a' with
    | .error _ => s
    | .ok (leaf, level) =>
      s.setCluster (clusterOf core) { cl with tlb := ({ job := job, page := a' / pageSize level, level := level, leaf := leaf } :: cl.tlb).take 1024 }

/-- A table write: every TLB entry of the job on the module is invalidated (25 R394). -/
def State.tlbFlush (s : State) (job : Nat) : State :=
  { s with cores := s.cores.map (fun c => (c.1, { c.2 with tlb := c.2.tlb.filter (fun e => e.job != job) })),
           clusters := s.clusters.map (fun c => (c.1, { c.2 with tlb := c.2.tlb.filter (fun e => e.job != job) })) }

/-! ## Ring order of a job's parts (18 R306) -/

/-- Cores of one row of a sub-mesh: x ascends on even rows and descends on odd rows. -/
def rowCores (z y x0 w : Nat) : List Nat :=
  let r := (List.range w).map (fun i => coreOf (x0 + i) y z)
  if y % 2 = 0 then r else r.reverse
/-- The parts of a job on this module: root layer, crown layer, then the homes 1,024 + h. -/
def Job.ringParts (j : Job) : List Nat :=
  let layer := fun z => (List.range j.subH).flatMap (fun i => rowCores z (j.subY + i) j.subX j.subW)
  layer 0 ++ layer 1 ++ (List.range 32).map (fun h => 1024 + h)
/-- The part after one in a list. -/
def nextIn (l : List Nat) (p : Nat) : Option Nat :=
  match l with
  | [] => none
  | a :: r => if a = p then r.head? else nextIn r p
/-- The next and the first module of a job's group; this module is the last of the ring when none follows. -/
def Job.nextModule (j : Job) : Option Nat :=
  (j.group.map (·.1)).foldl (fun (b : Option Nat) m =>
    if m ≤ j.self then b else match b with
      | none => some m
      | some x => some (min x m)) none
def Job.firstModule (j : Job) : Nat := (j.group.map (·.1)).foldl min j.self

/-! ## Entering work into a Cistern (15 R262, R415) -/

/-- A waiter of a Cistern takes its place: behind those that began to wait in an earlier cycle, and of one cycle by the rows of the table (15
R415). -/
def Cluster.addWaiter (c : Cluster) (e : Entry) : Cluster :=
  let first := fun (x : Entry) =>
    decide (x.waitAt / mcTicks < e.waitAt / mcTicks ∨ (x.waitAt / mcTicks = e.waitAt / mcTicks ∧ x.row ≤ e.row))
  { c with waiting := c.waiting.takeWhile first ++ e :: c.waiting.dropWhile first }
/-- A cluster's search for work ends. It stays hungry as long as it has a free slot that its entries cannot take, since the same instant (15
R264, R272). -/
def Cluster.endSearch (c : Cluster) : Cluster := { c with probes := [], probing := none, retryAt := 0 }
/-- A cluster is hungry no longer. -/
def Cluster.fed (c : Cluster) : Cluster := { c.endSearch with hungry := none, steals := 0 }

/-- An arrival at a part in a colour. -/
def State.countRecv (s : State) (j part : Nat) (red : Bool) : State :=
  let p := (s.job j).part part
  s.setPart j part { p with recvW := p.recvW + (if red then 0 else 1), recvR := p.recvR + (if red then 1 else 0) }
/-- The core that stands for a cluster's share of a job's queue in the ring: that of lowest index in the job's sub-mesh (18 R306, R308; log
43). -/
def Job.shareCore (j : Job) (cl : Nat) : Nat :=
  (((List.range 8).map (clusterCore cl)).find? j.covers).getD (clusterCore cl 0)
/-- A Cistern receives a spawn or a peer launch (18 R306). -/
def State.receive (s : State) (cl : Nat) (e : Entry) : State :=
  match e.sent with
  | none => s
  | some red => s.countRecv e.job ((s.job e.job).shareCore cl) red

/-- An entry joins a Cistern, which ends the cluster's search for work, or waits for it when it is full; the unit then places
work (15 R263, R264). -/
def State.enqueue (s : State) (cl : Nat) (e : Entry) : State :=
  let c := s.cluster cl
  let s1 := if c.cistern.length < 4096 ∧ c.waiting = []
            then (s.setCluster cl { c.endSearch with cistern := c.cistern ++ [{ e with sent := none }] }).receive cl e
            else s.setCluster cl (c.addWaiter { e with waitAt := s.now })
  s1.soon (.agingStep cl)

/-- A gang header that passes the checks made at launch (06 R115). -/
def headerOk (h : Word) : Bool :=
  let regs := bits h 8 8
  let spc := bits h 0 5
  decide (1 ≤ regs ∧ regs ≤ 128 ∧ 1 ≤ spc ∧ spc ≤ 16 ∧ bits h 16 4 ≤ 8 ∧ bits h 20 4 ≤ 8 ∧
    spc * (bits h 24 5 + 1) * (bits h 29 4 + 1) * (bits h 33 1 + 1) ≤ 4096)

/-! ## Events for the host (26 R406) -/

/-- An event is written at EVQTAIL of the host's ring, with the count of events lost before it, and MSI-X vector 1 is raised
(26 R406). -/
def State.writeEvent (s : State) (ws : List Word) : State :=
  let e0 := (ws.getD 0 0) ||| BitVec.ofNat 64 (s.evLost % 65536 * 2 ^ 32)
  let bytes := (e0 :: ws.drop 1).flatMap (fun w => toBytes w.toNat 8)
  ({ s with evqTail := s.evqTail + 1, evLost := 0 }.send
    (.hostWrite (s.evqBase.toNat + 32 * (s.evqTail % 128)) bytes)).send (.msix 1)

/-- An event is posted; with 128 unread it is held in order, and beyond 64 held the oldest is dropped (26 R406). -/
def State.postEvent (s : State) (kind job : Nat) (d1 d2 d3 : Word) : State :=
  let ws : List Word := [BitVec.ofNat 64 (job % 65536 * 65536 + kind), d1, d2, d3]
  if s.evqTail < s.evqHead + 128 ∧ s.evHeld = [] then s.writeEvent ws
  else if s.evHeld.length < 64 then { s with evHeld := s.evHeld ++ [ws] }
  else { s with evHeld := s.evHeld.tail ++ [ws], evLost := s.evLost + 1 }

/-! ## Aborting a job (18 R317, R418) -/

/-- The abort of a job begins, its token in the module of lowest index, or joins the abort under way. -/
def State.startAbort (s : State) (j source detail : Nat) : State :=
  let job := s.job j
  if job.isOpen = false ∨ job.abort = .first ∨ job.abort = .second then s
  else
    let reason : Word := BitVec.ofNat 64 (source * 2 ^ 60 + job.self * 2 ^ 48 + detail % 2 ^ 32)
    let s1 := s.setJob j { job with abort := .first, reason := reason, abortA := 2 ^ 64 - 1, circled := false, abortCycle := s.now / mcTicks }
    if job.firstModule = job.self then s1.soon (.abortTokenVisit j (job.ringParts.headD 1024) false (2 ^ 64 - 1) reason (s.now / mcTicks))
    else s1.send (.abortToken job.firstModule j false (2 ^ 64 - 1) reason (s.now / mcTicks))

/-! ## Taking a trap (25 R384 to R389) and returning from one (23 R371) -/

/-- The code of a cause (23 R366). -/
def Cause.code : Cause → Nat
  | .illegal => 1 | .priv => 2 | .align => 3 | .xlat => 4 | .prot => 5 | .regwin => 6 | .stallShort => 7
  | .fpe => 8 | .scaleMismatch => 9 | .versionGone => 10 | .versionFull => 11 | .detConflict => 12
  | .badHeader => 13 | .uncorrectable => 14 | .deadlock => 15 | .abort => 16 | .forwarded => 17 | .trapWriter => 18

/-- Word w0 of a record, the layout of cause (23 R366). -/
def TrapInfo.word0 (t : TrapInfo) : Word :=
  BitVec.ofNat 64 (t.info.toNat * 2 ^ 32 + t.origin * 256 + t.cause.code)

/-- The trap record of a strand (25 R384). -/
def State.trapRecord (s : State) (id : Nat) (t : TrapInfo) (epc : Word) : List Word :=
  let v := s.slot id
  let c := id / 16
  let g := s.gang v.gang
  [ t.word0, epc, t.addr,
    BitVec.ofNat 64 (bits v.tid 0 32 * 2 ^ 32 + bits v.tid 32 4 * 2 ^ 28 + v.index * 2 ^ 16 + id % 16 * 2 ^ 10 +
      coreZ c * 2 ^ 9 + coreY c * 2 ^ 5 + coreX c),
    BitVec.ofNat 64 (t.detail * 2 ^ 48 + g.job % 65536 * 2 ^ 32 + v.gang),
    t.opn, BitVec.ofNat 64 (t.ring * 2 ^ 32 + t.ctx), v.vt ]

/-- A record appended to a job's trace ring (26 R410). -/
def State.trace (s : State) (j : Nat) (ws : List Word) : State :=
  let job := s.job j
  if job.traceEntries = 0 then s
  else
    let s1 := match pagePa job.tracePages (job.traceBase + 64 * (job.traceNext % job.traceEntries)) with
      | some pa => s.unitWrite pa ws
      | none => s
    s1.setJob j { s1.job j with traceNext := job.traceNext + 1 }

/-- The gang header a job names at a virtual address, through its translation. -/
def State.readHeader (s : State) (core j : Nat) (va : Word) : Except Nat Word :=
  match s.translate core j va .read with
  | .hbm pa _ => .ok (BitVec.ofNat 64 (memRead s.mem pa 8))
  | .ownMem pa => .ok (BitVec.ofNat 64 (memRead s.mem pa 8))
  | .window pa _ => .ok (BitVec.ofNat 64 (memRead s.mem pa 8))
  | .xlat l => .error l
  | .remote _ => .error 4
  | .prot => .error 5

/-- A trap whose handler acts at a later tick (25 R385). -/
def State.owe (s : State) (id : Nat) (t : TrapInfo) (at_ : Nat) : State :=
  (s.setSlot id { s.slot id with owed := some t }).schedule at_ (.asyncTrapRaise id)

/-- The gang header of a job's handler, for a launch at a core; none where R270 or R389 refuses the packet: its entry is odd, its header cannot
be read, fails its checks or is not of one strand (log 29), or the job has terminated or aborts. -/
def State.handlerHeader (s : State) (core j : Nat) : Option Word :=
  let job := s.job j
  match s.readHeader core j (job.hGang &&& ~~~63) with
  | .error _ => none
  | .ok hdr =>
    let strands := bits hdr 0 5 * (bits hdr 24 5 + 1) * (bits hdr 29 4 + 1) * (bits hdr 33 1 + 1)
    if bitAt job.hEntry 0 ∨ headerOk hdr = false ∨ strands ≠ 1 ∨ job.terminated ∨ job.abort = .first ∨ job.abort = .second then none else some hdr

/-- The handler task of a job launched for a record (25 R389): block in the pool, priority 15, VT of the record. A refused packet starts the
job's abort, or joins it; a pool without room is tried again. `waiter` is the trapping slot
with its trap, none for a record without a trapping strand. -/
def State.launchHandler (s : State) (core j : Nat) (rcd : List Word) (waiter : Option (Nat × TrapInfo)) : State :=
  let job := s.job j
  let code := bits (rcd.getD 0 0) 0 8
  let gang := job.hGang &&& ~~~63
  match s.handlerHeader core j with
  | none => s.startAbort j 1 code
  | some hdr =>
    match s.poolAlloc j 128 with
      | none =>
        match waiter with
        | some (id, t) => s.owe id t (s.now + usTicks)
        | none => s.schedule (s.now + usTicks) (.handlerLaunch core j rcd)
      | some (va, s1) =>
        let s2 := s1.writeArea j va (rcd ++ [0])
        let cl := clusterOf core
        let c := s2.cluster cl
        let task := cl * 2 ^ 25 + c.taskCount
        let s3 := s2.setCluster cl { c with taskCount := (c.taskCount + 1) % 2 ^ 25 }
        let packet : List Word := [job.hEntry, gang, BitVec.ofNat 64 va, rcd.getD 7 0,
          BitVec.ofNat 64 (15 * 256 + job.hClass), 0, BitVec.ofNat 64 (job.tenant * 65536 + j), 0]
        let e : Entry := { packet := packet, hdr := hdr, job := j, task := task, copy := 0, flags := 0, prio := 15,
                           enq := s.stamp, handlerFor := some ((waiter.map (·.1)).getD (2 ^ 20)), since := s.now, row := 3 }
        let s4 := match waiter with
          | some (id, _) => s3.setSlot id { s3.slot id with handlerBlock := some (va, task) }
          | none => s3
        s4.enqueue cl e

/-- The forwarding entry of a core that names one of these gangs, or its whole context (23 R373). -/
def State.fwdTo (s : State) (c : Nat) (gs : List Nat) : Option FwdEntry :=
  ((List.range 16).map fun i => tget (s.core c).fwd i {}).find? fun f =>
    bitAt f.f0 63 && (bits f.f1 0 32 == 0 || gs.contains (bits f.f1 0 32))
/-- A packet for a strand that has moved finds no entry at the core it was sent to: it is dropped and counted (23 R373). -/
def State.strayed (s : State) (id : Nat) : Bool :=
  let v := s.slot id
  match v.via with
  | none => false
  | some c => (s.fwdTo c (v.gang :: v.saved.map (·.gang))).isNone
def State.stray (s : State) : State := { s with misDrop := counterUp s.misDrop 1 }

/-- One parked strand is requeued: a gang strand issues again in its slot, a ROAM task's record joins the Cistern of the cluster
where it was parked, and another module is told to requeue its own (04 R88, R89). -/
def State.unparkOne (s : State) (p : Parked) : State :=
  match p with
  | .record e => s.enqueue (clusterOf e.core) { e with since := s.now }
  | .away m j tag => s.send (.reply m j tag { requeue := true })
  | .moved c g m j tag => if (s.fwdTo c [g]).isSome then s.send (.reply m j tag { requeue := true }) else s.stray
  | .slot id =>
    let v := s.slot id
    if s.strayed id then s.stray else
    let s1 := s.setSlot id { v with wait := .none, save := 0, via := none }
    if v.save = 0 then s1 else s1.poolFree (s1.gang v.gang).job v.save
/-- Firmware requeues every parked continuation of a word (04 R89). -/
def State.unpark (s : State) (key : Nat) : State :=
  (s.parks.filter (fun p => p.1 == key)).foldl (fun (u : State) p => u.unparkOne p.2)
    { s with parks := s.parks.filter (fun p => p.1 != key) }

/-- What firmware's handler does with a trap once it issues (25 R386, R389, R398, R399): it counts STALL_SHORT and returns; it
requeues a word's parked waiters and returns on TRAPWRITER; it drops and requeues on UNCORRECTABLE of ADDR 0, three times, by
the DROP of that gang; it aborts the job for a trap in a handler task; it forwards every other trap. -/
def State.firmwareAct (s : State) (id : Nat) (t : TrapInfo) (rcd : List Word) : State :=
  let g := s.gang (s.slot id).gang
  let j := g.job
  match t.cause with
  | .stallShort => (s.setJob j { s.job j with stalls := (s.job j).stalls + 1 }).soon (.retry id)
  | .trapWriter => (s.unpark t.pa).soon (.retry id)
  | .uncorrectable =>
    if t.addr = 0 ∧ g.retries < 3 then s.soon (.drop id)
    else if g.handlerFor.isSome then s.startAbort j 1 t.cause.code
    else s.launchHandler (id / 16) j rcd (some (id, t))
  | _ =>
    if (s.job j).isOpen = false then s
    else if g.handlerFor.isSome then s.startAbort j 1 t.cause.code
    else s.launchHandler (id / 16) j rcd (some (id, t))

/-- The address at which firmware's handler starts, even as every pc is (01 R13). -/
def handlerPc : Word := Config.handlerEntry &&& ~~~1

/-- TAKING A TRAP in a slot: the record is written to the slot's trap area, cause and epc are set, the mode bit becomes
1, the pc goes to firmware's handler and firmware holds the slot (25 R384, R385; 23 R366). The handler's first instruction issues at the slot's
first cycle at or after 16 cycles from now (06 R109), and firmware acts there (log 6). At firmware privilege cause and
epc are saved first; a trap at the second nesting level drops the gang and aborts the job (25 R388). -/
def State.takeTrap (s : State) (id : Nat) (t : TrapInfo) (epc : Word) : State :=
  let v := s.slot id
  let rcd := s.trapRecord id t epc
  let j := (s.gang v.gang).job
  let v' : Slot := { v with trapArea := rcd :: v.trapArea, cause := t.word0, epc := epc, mode := true,
                            pc := handlerPc, wait := .firmware, inFlight := none, lines := [], asyncTrap := false,
                            nextTick := s.now + 16 * tickLen (id / 16), owed := none,
                            nestedCsr := if v.mode then (v.cause, v.epc) :: v.nestedCsr else v.nestedCsr }
  let s1 := { s.setSlot id v' with retries := s.retries.filter (fun r => r.origin != Origin.slot id) }
  let s2 := if (s1.job j).traceTraps then
      s1.trace j ([BitVec.ofNat 64 (id / 16 * 2 ^ 32 + id % 16 * 2 ^ 28 + 1), v.vt] ++ rcd.take 6) else s1
  if v.mode then
    if v.nestedCsr = [] then s2 else (s2.soon (.drop id)).startAbort j 1 t.cause.code
  else s2.owe id t (s2.slotTick id (s2.now + 16 * tickLen (id / 16)))

/-- A precise trap of the instruction being executed (00 R11): its address is the PC of the record. -/
def State.trapHere (s : State) (t : TrapInfo) : State := s.takeTrap s.cur t s.me.pc

/-- A stopped copy of a gang whose fault the record of a trap names by its operation number and its channel (10 R197; 25
R384 w5, w6). -/
def CopyCmd.handled (k : CopyCmd) (gang : Nat) (rcd : List Word) : Bool :=
  k.state == .stopped && k.gang == gang && rcd.getD 5 0 == BitVec.ofNat 64 k.num &&
    bits (rcd.getD 6 0) 0 4 == 0 && bits (rcd.getD 6 0) 4 4 == k.ch && bits (rcd.getD 0 0) 8 4 == 1

/-- RETURNING FROM A TRAP (23 R371): pc from epc with bit 0 cleared, mode 0, cause 0, the innermost record gone; the
copy commands of the slot's gang that stopped on the handled fault go on (10 R197). The same at every nesting level: what a nested trap saved is
firmware's to put back (log 102). The strand issues at the slot's first cycle at or after 16 cycles from now, where a pending asynchronous
cause enters the handler again (25 R388). -/
def State.returnFromTrap (s : State) (id : Nat) (pc : Word) : State :=
  let v := s.slot id
  let core := id / 16
  let v' : Slot := { v with pc := pc &&& ~~~1, mode := false, cause := 0, nestedCsr := v.nestedCsr.tail,
                            trapArea := v.trapArea.tail, handlerBlock := none, owed := none,
                            wait := .none, nextTick := s.now + 16 * tickLen core }
  let s1 := s.setSlot id v'
  let c := s1.core core
  let mine := fun (k : CopyCmd) => k.handled v.gang (v.trapArea.headD [])
  let s2 := s1.setCore core { c with copies := c.copies.map (fun k => if mine k then { k with state := .queued } else k) }
  (c.copies.filter mine).foldl (fun (u : State) k => u.soon (.copyCommandStart core k.ch)) s2

/-- An asynchronous cause becomes pending in a slot, raised at the strand's next issue boundary, and at once where it waits
as `now?` says (25 R388). -/
def State.postCause (s : State) (id : Nat) (t : TrapInfo) (now? : Wait → Bool) : State :=
  let v := s.slot id
  let s1 := s.setSlot id { v with pending := v.pending ++ [{ info := t, since := s.now }] }
  if v.live && !v.mode && now? v.wait then s1.soon (.asyncTrapRaise id) else s1

/-- An engine's fault for the strand of a gang in a slot: at once in a TLW, a matrix gather or a HALT that waits for the engines (10
R197). A parent saved under its inline child has it once it issues again; a slot that holds another gang has no part in it. -/
def State.postEngine (s : State) (id gang : Nat) (t : TrapInfo) : State :=
  let v := s.slot id
  if v.gang ≠ gang ∧ !v.saved.any (fun p => p.gang == gang) then s
  else if v.gang ≠ gang then
    s.setSlot id { v with saved := v.saved.map fun p => if p.gang = gang then { p with pending := p.pending ++ [{ info := t, since := s.now }] } else p }
  else
    s.postCause id t fun w =>
      match w with
      | .gather | .cond (.timeline _ _) | .cond .enginesIdle => true
      | _ => false

/-- A refused posted write: at once in any wait (04 R414). -/
def State.postAsync (s : State) (id : Nat) (t : TrapInfo) : State := s.postCause id t fun w => w != .none

end Sys2Proof.Machine
end

