-- ==== Sys2Proof/Machine/Fp.lean ====
section
/-! DEFINITION. Number formats, rounding and exact arithmetic on them (08 R143 to R154). A finite value is a sign and a
magnitude m × 2^e; every operation computes exactly and rounds once. -/

namespace Sys2Proof.Machine

/-! ## Formats (08 R143, R145) -/

/-- A format's exponent width, mantissa width, and whether its largest exponent holds finite values (E4M3). -/
structure Fmt where
  eb : Nat
  mb : Nat
  e4m3 : Bool := false
  deriving DecidableEq, Repr

def fp64 : Fmt := { eb := 11, mb := 52 }
def fp32 : Fmt := { eb := 8, mb := 23 }
def bf16 : Fmt := { eb := 8, mb := 7 }
def fE4m3 : Fmt := { eb := 4, mb := 3, e4m3 := true }
def fE5m2 : Fmt := { eb := 5, mb := 2 }

/-- The format of a code, for the five formats with a layout of their own (08 R145). -/
def fmtOf (code : Nat) : Option Fmt :=
  match code with
  | 0 => some fp64
  | 1 => some fp32
  | 2 => some bf16
  | 3 => some fE4m3
  | 4 => some fE5m2
  | _ => none

/-- Width in bits and in bytes. -/
def Fmt.width (f : Fmt) : Nat := 1 + f.eb + f.mb
def Fmt.bytes (f : Fmt) : Nat := f.width / 8
/-- The exponent bias. -/
def Fmt.bias (f : Fmt) : Nat := 2 ^ (f.eb - 1) - 1
/-- The exponent of the smallest normal value. -/
def Fmt.emin (f : Fmt) : Int := 1 - (f.bias : Int)
/-- The sign bit's weight. -/
def Fmt.signBit (f : Fmt) : Nat := 2 ^ (f.eb + f.mb)
/-- The bits of +infinity; for E4M3 the bits of NaN. -/
def Fmt.infBits (f : Fmt) : Nat := if f.e4m3 then 0x7F else (2 ^ f.eb - 1) * 2 ^ f.mb
/-- The bits of the largest finite value. -/
def Fmt.maxBits (f : Fmt) : Nat := f.infBits - 1
/-- The canonical NaN (08 R146). -/
def Fmt.nanBits (f : Fmt) : Nat := if f.e4m3 then 0x7F else f.infBits + 2 ^ (f.mb - 1)

/-! ## Values -/

/-- A value: a NaN (signalling or not), an infinity, or ±m × 2^e. -/
inductive Fv where
  | nan (signalling : Bool)
  | inf (neg : Bool)
  | fin (neg : Bool) (m : Nat) (e : Int)
  deriving DecidableEq, Repr

/-- The value that bits hold in a format (08 R143, R146, R147). -/
def Fmt.decode (f : Fmt) (v : Nat) : Fv :=
  let neg := v / f.signBit % 2 = 1
  let e := v / 2 ^ f.mb % 2 ^ f.eb
  let m := v % 2 ^ f.mb
  if f.e4m3 then
    if e = 15 ∧ m = 7 then .nan false
    else if e = 0 then .fin neg m (f.emin - f.mb) else .fin neg (m + 2 ^ f.mb) ((e : Int) - f.bias - f.mb)
  else if e = 2 ^ f.eb - 1 then
    if m = 0 then .inf neg else .nan (m < 2 ^ (f.mb - 1))
  else if e = 0 then .fin neg m (f.emin - f.mb)
  else .fin neg (m + 2 ^ f.mb) ((e : Int) - f.bias - f.mb)

def Fv.isNan : Fv → Bool
  | .nan _ => true
  | _ => false
def Fv.isSnan : Fv → Bool
  | .nan b => b
  | _ => false
def Fv.isZero : Fv → Bool
  | .fin _ m _ => m == 0
  | _ => false
def Fv.neg : Fv → Bool
  | .nan _ => false
  | .inf b => b
  | .fin b _ _ => b
/-- A value with its sign changed. -/
def Fv.negate : Fv → Fv
  | .nan b => .nan b
  | .inf b => .inf !b
  | .fin b m e => .fin (!b) m e

/-! ## Rounding modes and flags (08 R151, R153; 23 R365) -/

inductive Rm where
  | rne | rtz | rdn | rup
  deriving DecidableEq, Repr

/-- The mode of a field value (08 R151). -/
def rmOf (n : Nat) : Rm :=
  match n with
  | 0 => .rne
  | 1 => .rtz
  | 2 => .rdn
  | _ => .rup

def flagNV : BitVec 5 := 16
def flagDZ : BitVec 5 := 8
def flagOF : BitVec 5 := 4
def flagUF : BitVec 5 := 2
def flagNX : BitVec 5 := 1

/-- Whether a quotient q with remainder r over d is rounded up in magnitude. -/
def roundUp (rm : Rm) (neg : Bool) (q r d : Nat) : Bool :=
  match rm with
  | .rne => decide (2 * r > d) || (decide (2 * r = d) && q % 2 == 1)
  | .rtz => false
  | .rdn => neg && r != 0
  | .rup => !neg && r != 0

/-- floor(log2(num / den × 2^e)) for positive num and den. -/
def ratLog2 (num den : Nat) (e : Int) : Int :=
  let k : Int := (num.log2 : Int) - den.log2
  let ge : Bool := if 0 ≤ k then decide (den * 2 ^ k.toNat ≤ num) else decide (den ≤ num * 2 ^ (-k).toNat)
  (if ge then k else k - 1) + e

/-- num / den × 2^(e − u) rounded to an integer, and whether that was exact. -/
def roundAt (rm : Rm) (neg : Bool) (num den : Nat) (e u : Int) : Nat × Bool :=
  let d := e - u
  let n := if 0 ≤ d then num * 2 ^ d.toNat else num
  let dn := if 0 ≤ d then den else den * 2 ^ (-d).toNat
  let q := n / dn
  let r := n % dn
  (if roundUp rm neg q r dn then q + 1 else q, r == 0)

/-- The result bits of an overflow (08 R152). -/
def Fmt.overflowBits (f : Fmt) (rm : Rm) (neg sat : Bool) : Nat :=
  if f.e4m3 || sat then f.maxBits
  else match rm with
    | .rne => f.infBits
    | .rtz => f.maxBits
    | .rdn => if neg then f.infBits else f.maxBits
    | .rup => if neg then f.maxBits else f.infBits

/-- The bits with their sign. -/
def Fmt.withSign (f : Fmt) (neg : Bool) (v : Nat) : Nat := if neg then v + f.signBit else v

/-- ±num / den × 2^e rounded to a format, with its flags (08 R151 to R153). Tininess is detected after rounding. -/
def Fmt.roundRat (f : Fmt) (rm : Rm) (sat neg : Bool) (num den : Nat) (e : Int) : Nat × BitVec 5 :=
  if num = 0 then (f.withSign neg 0, 0)
  else
    let top := ratLog2 num den e
    let u := max (top - f.mb) (f.emin - f.mb)
    let q := roundAt rm neg num den e u
    let base := (u + f.mb + f.bias - 1).toNat
    let v := base * 2 ^ f.mb + q.1
    let tiny := decide (top < f.emin) &&
      !(decide (top = f.emin - 1) && decide (2 ^ (f.mb + 1) ≤ (roundAt rm neg num den e (top - f.mb)).1))
    if f.infBits ≤ v then (f.withSign neg (f.overflowBits rm neg sat), flagOF ||| flagNX)
    else if q.2 then (f.withSign neg v, 0)
    else (f.withSign neg v, flagNX ||| (if tiny then flagUF else 0))

/-- A value rounded to a format. An infinity that E4M3 or a saturating form cannot hold saturates (08 R152, R153). -/
def Fmt.round (f : Fmt) (rm : Rm) (sat : Bool) (x : Fv) : Nat × BitVec 5 :=
  match x with
  | .nan _ => (f.nanBits, 0)
  | .inf neg => if f.e4m3 || sat then (f.withSign neg f.maxBits, flagOF ||| flagNX) else (f.withSign neg f.infBits, 0)
  | .fin neg m e => f.roundRat rm sat neg m 1 e

/-! ## Exact operations -/

/-- NV for a signalling operand (08 R146). -/
def snanFlag (l : List Fv) : BitVec 5 := if l.any Fv.isSnan then flagNV else 0

/-- A signed magnitude as a value. -/
def ofSigned (v : Int) (e : Int) : Fv := .fin (v < 0) v.natAbs e

/-- The exact sum; an exact zero of opposite signs is +0, or −0 under RDN (09 R167). -/
def Fv.add (rm : Rm) (x y : Fv) : Fv × BitVec 5 :=
  match x, y with
  | .nan a, .nan b => (.nan false, if a || b then flagNV else 0)
  | .nan a, _ => (.nan false, if a then flagNV else 0)
  | _, .nan b => (.nan false, if b then flagNV else 0)
  | .inf a, .inf b => if a = b then (.inf a, 0) else (.nan false, flagNV)
  | .inf a, _ => (.inf a, 0)
  | _, .inf b => (.inf b, 0)
  | .fin a m e, .fin b n f =>
    let g := min e f
    let v : Int := (if a then -1 else 1) * (m * 2 ^ (e - g).toNat : Nat)
    let w : Int := (if b then -1 else 1) * (n * 2 ^ (f - g).toNat : Nat)
    if v + w = 0 then (if a = b then .fin a 0 0 else .fin (rm == .rdn) 0 0, 0) else (ofSigned (v + w) g, 0)

/-- The exact product (09 R167). -/
def Fv.mul (x y : Fv) : Fv × BitVec 5 :=
  match x, y with
  | .nan a, .nan b => (.nan false, if a || b then flagNV else 0)
  | .nan a, _ => (.nan false, if a then flagNV else 0)
  | _, .nan b => (.nan false, if b then flagNV else 0)
  | .inf a, .inf b => (.inf (a != b), 0)
  | .inf a, .fin b n _ => if n = 0 then (.nan false, flagNV) else (.inf (a != b), 0)
  | .fin a m _, .inf b => if m = 0 then (.nan false, flagNV) else (.inf (a != b), 0)
  | .fin a m e, .fin b n f => (.fin (a != b) (m * n) (e + f), 0)

/-- a × b + c exactly; ∞ × 0 is invalid whatever c holds (09 R167). -/
def Fv.fma (rm : Rm) (x y z : Fv) : Fv × BitVec 5 :=
  let p := x.mul y
  let q := p.1.add rm z
  (q.1, p.2 ||| q.2)

/-- The five operations that round once to a format (09 R167). -/
def Fmt.add (f : Fmt) (rm : Rm) (x y : Fv) : Nat × BitVec 5 :=
  let r := x.add rm y
  let o := f.round rm false r.1
  (o.1, o.2 ||| r.2)
def Fmt.mul (f : Fmt) (rm : Rm) (x y : Fv) : Nat × BitVec 5 :=
  let r := x.mul y
  let o := f.round rm false r.1
  (o.1, o.2 ||| r.2)
def Fmt.fma (f : Fmt) (rm : Rm) (x y z : Fv) : Nat × BitVec 5 :=
  let r := x.fma rm y z
  let o := f.round rm false r.1
  (o.1, o.2 ||| r.2)
def Fmt.div (f : Fmt) (rm : Rm) (x y : Fv) : Nat × BitVec 5 :=
  match x, y with
  | .nan _, _ => (f.nanBits, snanFlag [x, y])
  | _, .nan _ => (f.nanBits, snanFlag [x, y])
  | .inf _, .inf _ => (f.nanBits, flagNV)
  | .inf a, .fin b _ _ => f.round rm false (.inf (a != b))
  | .fin a _ _, .inf b => (f.withSign (a != b) 0, 0)
  | .fin a m e, .fin b n g =>
    if n = 0 then
      if m = 0 then (f.nanBits, flagNV)
      else ((f.round rm false (.inf (a != b))).1, flagDZ)
    else f.roundRat rm false (a != b) m n (e - g)

/-- floor(√n), bit by bit from bit k down. -/
def sqrtFrom (n : Nat) : Nat → Nat → Nat
  | 0, r => r
  | k + 1, r => if (r + 2 ^ k) * (r + 2 ^ k) ≤ n then sqrtFrom n k (r + 2 ^ k) else sqrtFrom n k r

/-- The square root, correctly rounded: the integer root of the magnitude widened by 2^128, with a sticky bit (09 R168). -/
def Fmt.sqrt (f : Fmt) (rm : Rm) (x : Fv) : Nat × BitVec 5 :=
  match x with
  | .nan b => (f.nanBits, if b then flagNV else 0)
  | .inf neg => if neg then (f.nanBits, flagNV) else (f.infBits, 0)
  | .fin neg m e =>
    if m = 0 then (f.withSign neg 0, 0)
    else if neg then (f.nanBits, flagNV)
    else
      let odd := e % 2 = 1
      let n := (if odd then 2 * m else m) * 2 ^ 128
      let e' := (if odd then e - 1 else e) / 2 - 64
      let r := sqrtFrom n 96 0
      f.roundRat rm false false (2 * r + (if r * r = n then 0 else 1)) 1 (e' - 1)

/-- Comparison: whether a < b, and whether a = b, for values that are no NaN (08 R146). -/
def Fv.lt (x y : Fv) : Bool :=
  match x, y with
  | .inf a, .inf b => a && !b
  | .inf a, _ => a
  | _, .inf b => !b
  | .fin a m e, .fin b n f =>
    let g := min e f
    let v : Int := (if a then -1 else 1) * (m * 2 ^ (e - g).toNat : Nat)
    let w : Int := (if b then -1 else 1) * (n * 2 ^ (f - g).toNat : Nat)
    decide (v < w)
  | _, _ => false
def Fv.eq (x y : Fv) : Bool := !x.isNan && !y.isNan && !x.lt y && !y.lt x

/-- MIN or MAX of two operands' bits: −0 is less than +0, a NaN gives the canonical NaN (09 R168). -/
def Fmt.minMax (f : Fmt) (isMax : Bool) (a b : Nat) : Nat × BitVec 5 :=
  let x := f.decode a
  let y := f.decode b
  if x.isNan || y.isNan then (f.nanBits, snanFlag [x, y])
  else
    let less := x.lt y || (x.isZero && y.isZero && x.neg && !y.neg)
    (if less == isMax then b else a, 0)

/-- The relations of FCMP and VCMP (09 R169): 0 EQ, 1 LT, 2 LE, 3 UN. -/
def fpCompare (cond : Nat) (x y : Fv) : Bool × BitVec 5 :=
  let nan := x.isNan || y.isNan
  let s := snanFlag [x, y]
  match cond with
  | 0 => (x.eq y, s)
  | 1 => (!nan && x.lt y, if nan then flagNV else 0)
  | 2 => (!nan && (x.lt y || x.eq y), if nan then flagNV else 0)
  | _ => (nan, s)

/-- The class mask of FCLASS (09 R170). -/
def Fmt.classify (f : Fmt) (v : Nat) : Nat :=
  let e := v / 2 ^ f.mb % 2 ^ f.eb
  match f.decode v with
  | .nan sn => if sn then 2 ^ 8 else 2 ^ 9
  | .inf neg => if neg then 1 else 2 ^ 7
  | .fin neg m _ =>
    if m = 0 then (if neg then 2 ^ 3 else 2 ^ 4)
    else if e = 0 then (if neg then 2 ^ 2 else 2 ^ 5)
    else (if neg then 2 else 2 ^ 6)

/-- A value rounded to an integer and clamped to [lo, hi] (08 R154). -/
def toIntClamp (rm : Rm) (lo hi : Int) (x : Fv) : Int × BitVec 5 :=
  match x with
  | .nan _ => (0, flagNV)
  | .inf neg => (if neg then lo else hi, flagNV)
  | .fin neg m e =>
    let q := roundAt rm neg m 1 e 0
    let v : Int := if neg then -(q.1 : Int) else q.1
    if v < lo then (lo, flagNV) else if hi < v then (hi, flagNV) else (v, if q.2 then 0 else flagNX)

/-- A conversion between formats: NV only for a signalling NaN (09 R171). -/
def fpConvert (src dst : Fmt) (rm : Rm) (sat : Bool) (v : Nat) : Nat × BitVec 5 :=
  let x := src.decode v
  let o := dst.round rm (sat && dst == fE5m2) x
  (o.1, o.2 ||| snanFlag [x])

/-! ## 2^a and 1 / a (09 R179) -/

/-- 1 / a in FP32: exact where representable; otherwise one of the two neighbours, which Config.rcpUp chooses (log 7). Beyond 2^128 no
finite value lies within 1 ulp, and the result is an infinity. -/
def rcp32 (v : Nat) : Nat × BitVec 5 :=
  match fp32.decode v with
  | .nan b => (fp32.nanBits, if b then flagNV else 0)
  | .inf neg => (fp32.withSign neg 0, 0)
  | .fin neg m e =>
    if m = 0 then (fp32.withSign neg fp32.infBits, flagDZ)
    else
      let lo := fp32.roundRat .rtz false neg 1 m (-e)
      if lo.2 &&& flagNX = 0 then lo
      else
        let up := decide (m < 2 ^ (-e - 128).toNat) || Config.rcpUp (BitVec.ofNat 32 v)
        let r := fp32.roundRat (if up then (if neg then .rdn else .rup) else .rtz) false neg 1 m (-e)
        (r.1, r.2)

/-- 2^f in fixed point with w fraction bits, rounded down, for a fraction f given by its bits from 2^−1 down: the product
of 2^(2^−i) over the set bits, each factor the square root of the one before. -/
def exp2Frac (fracBits : List Bool) (w : Nat) : Nat :=
  (fracBits.foldl (fun (acc : Nat × Nat) b =>
    let root := sqrtFrom (acc.2 * 2 ^ w) (w + 2) 0
    (if b then acc.1 * root / 2 ^ w else acc.1, root)) (2 ^ w, 2 ^ (w + 1))).1

/-- 2^a in FP32: exact for integer a; otherwise one of the two FP32 neighbours of a fixed-point value good to far below an
ulp, which Config.exp2Up chooses (log 7). -/
def exp2_32 (v : Nat) : Nat × BitVec 5 :=
  match fp32.decode v with
  | .nan b => (fp32.nanBits, if b then flagNV else 0)
  | .inf neg => (if neg then 0 else fp32.infBits, 0)
  | .fin neg m e =>
    let big := decide (2 ^ 9 ≤ m * 2 ^ e.toNat) && decide (0 ≤ e)
    let fl := roundAt .rdn neg m 1 e 0
    let ip : Int := if neg then -(fl.1 : Int) else fl.1
    if m = 0 then (0x3F800000, 0)
    else if fl.2 && !big then fp32.roundRat .rne false false 1 1 ip
    else if (big || decide (128 ≤ ip)) && !neg then (fp32.infBits, flagOF ||| flagNX)
    else if (big || decide (ip < -150)) && neg then
      (if Config.exp2Up (BitVec.ofNat 32 v) then 1 else 0, flagUF ||| flagNX)
    else
      -- fraction a − floor(a), as 64 bits from 2^−1 down
      let sc : Int := (if neg then -(m : Int) else m) * 2 ^ (e + 200).toNat
      let frac := (sc - ip * 2 ^ 200).toNat
      let fb := (List.range 100).map (fun i => frac / 2 ^ (199 - i) % 2 == 1)
      let y := exp2Frac fb 128
      let lo := fp32.roundRat .rtz false false (2 * y + 1) 1 (ip - 129)
      let hi := fp32.roundRat .rup false false (2 * y + 1) 1 (ip - 129)
      if hi.2 &&& flagOF != 0 || Config.exp2Up (BitVec.ofNat 32 v) then (hi.1, hi.2 ||| flagNX) else (lo.1, lo.2 ||| flagNX)

end Sys2Proof.Machine
end

