-- ==== Sys2Proof/Machine/Blocks.lean ====
section
/-! DEFINITION. The E2M1X block format: decoding an element and quantising a block (08 R148 to R150). -/

namespace Sys2Proof.Machine

/-- Element size of a format code. -/
def zOf (code : Nat) : Nat := ((fmtOf code).map Fmt.bytes).getD 1

/-- The 64-byte lines that a range touches. -/
def linesOf (p len : Nat) : List Nat := if len = 0 then [] else (List.range ((p % 64 + len + 63) / 64)).map fun i => p / 64 + i

/-- Twice the magnitude of the base value of an element code's low three bits (08 R148). -/
def e2m1Twice (c : Nat) : Nat :=
  match c % 8 with
  | 0 => 0 | 1 => 1 | 2 => 2 | 3 => 3 | 4 => 4 | 5 => 6 | 6 => 8 | _ => 12

/-- A finite value multiplied by a power of two. -/
def Fv.scale (x : Fv) (k : Int) : Fv :=
  match x with
  | .fin neg m e => .fin neg m (e + k)
  | y => y

/-- The base value of an element code under a block's alt byte (08 R148, R149). -/
def e2m1Base (code alt : Nat) : Fv :=
  if code % 16 = 8 then
    match fE4m3.decode alt with
    | .nan _ => .nan false
    | v => v
  else .fin (code % 16 / 8 = 1) (e2m1Twice code) (-1)

/-- An element's exact value under its block's scale and alt bytes (08 R148, R149). -/
def e2m1Value (code scale alt : Nat) : Fv :=
  if scale = 255 then .nan false else (e2m1Base code alt).scale ((scale : Int) - 127)

/-- A value as a multiple of 2^−600, for the exact comparisons of a quantiser; FP32 and BF16 values are such multiples. -/
def Fv.fixed (x : Fv) : Int :=
  match x with
  | .fin neg m e => (if neg then -1 else 1) * (m * 2 ^ (e + 600).toNat : Nat)
  | _ => 0

/-- The code of the grid value nearest a magnitude, a multiple of 2^−600; a tie goes to mantissa bit 0 (08 R150). -/
def gridCode (a : Nat) : Nat :=
  let mids := [1, 3, 5, 7, 10, 14, 20]   -- quarters
  (mids.zipIdx).foldl (fun (c : Nat) p =>
    let mid := p.1 * 2 ^ 598
    if mid < a ∨ (mid = a ∧ p.2 % 2 = 1) then c + 1 else c) 0

/-- The lowest index at which a list of numbers has its largest entry. -/
def argMax (l : List Nat) : Nat :=
  ((l.zipIdx).foldl (fun (b : Nat × Nat) p => if b.1 < p.1 then p else b) (l.headD 0, 0)).2

/-- The two nibbles of each byte, low first. -/
def packNibbles : List Nat → List Byte
  | a :: b :: r => BitVec.ofNat 8 (a + 16 * b) :: packNibbles r
  | [a] => [BitVec.ofNat 8 a]
  | [] => []

/-- VQNT's procedure on 32 values: 16 data bytes, the scale and alt (08 R150). -/
def quantise (x : List Fv) : List Byte × Nat × Nat :=
  if x.any (fun v => match v with
    | .fin _ _ _ => false
    | _ => true) then (List.replicate 16 0, 255, 0)
  else
    let amax := x.foldl (fun (m : Nat) v => max m v.fixed.natAbs) 0
    if amax = 0 then (List.replicate 16 0, 127, 0)
    else
      let e := (max 1 (min 254 ((amax.log2 : Int) - 600 - 2 + 127))).toNat
      let y := x.map (fun v => v.scale (127 - (e : Int)))
      let f := y.map Fv.fixed
      let g := f.map (fun v => gridCode v.natAbs)
      let err := (f.zip g).map (fun p => ((p.1.natAbs : Int) - (e2m1Twice p.2 * 2 ^ 599 : Nat)).natAbs)
      let alt := if err.all (· == 0) then 0
        else (fE4m3.round .rne true (y.getD (argMax err) (.fin false 0 0))).1
      let av := (fE4m3.decode alt).fixed
      let codes := ((f.zip g).zip err).map (fun p =>
        if (p.1.1 - av).natAbs < p.2 then 8
        else if p.1.2 = 0 then 0 else if p.1.1 < 0 then p.1.2 + 8 else p.1.2)
      (packNibbles codes, e, alt)

end Sys2Proof.Machine
end

