-- ==== Sys2Proof/Machine/Operands.lean ====
section
/-! DEFINITION. Operand checks in the order of 25 R387, latency classes (02 R46), landing of results (06 R112, R113),
immediates, effective addresses and the control and status registers (01 R25). -/

namespace Sys2Proof.Machine

/-! ## Latency classes in core cycles (02 R46) -/

def latInt : Nat := 8
def latMul : Nat := 10
def latFp : Nat := 12
def latFp64 : Nat := 14
def latFdiv : Nat := 32
def latIdiv : Nat := 40
def latFdiv64 : Nat := 56

/-! ## Checks at issue -/

/-- The first of the general register fields an instruction uses that lies outside the window (01 R22). -/
def Slot.badReg (v : Slot) (regs : List (BitVec 7)) : Option (BitVec 7) := regs.find? (fun r => !v.regOk r.toNat)

/-- A pending write to a register of the bank the strand names (06 R113). -/
def Slot.regPending (v : Slot) (r : BitVec 7) : Bool := v.writes.any (fun w => w.reg == some r && w.fw == v.mode)

/-- The first register that an instruction reads or writes before a pending write to it lands, where CHK is set (06 R113). -/
def Slot.earlyReg (v : Slot) (regs : List (BitVec 7)) : Option (BitVec 7) :=
  if v.chk then regs.find? v.regPending else none

/-- The checks REGWIN then STALL_SHORT over the general registers an instruction uses, in the order D, A, B (25 R387 stages
3 and 5; log 24), and the instruction's own effect behind them. -/
def State.guarded (s : State) (regs : List (BitVec 7)) (k : State → State) : State :=
  match s.me.badReg regs with
  | some r => s.trapHere { cause := .regwin, detail := r.toNat }
  | none =>
    match s.me.earlyReg regs with
    | some r => s.trapHere { cause := .stallShort, detail := r.toNat }
    | none => k s

/-- The same with stage 4 between them: an instruction that traps PRIV at job privilege (25 R387, 23 R369). -/
def State.guardedPriv (s : State) (regs : List (BitVec 7)) (k : State → State) : State :=
  match s.me.badReg regs with
  | some r => s.trapHere { cause := .regwin, detail := r.toNat }
  | none => if s.me.mode then s.guarded regs k else s.trapHere { cause := .priv }

/-- The checks of an instruction that also names registers of another class: `extra` is the field value that names one at
or beyond the gang's allocation (01 R22). -/
def State.guardedWith (s : State) (extra : Option Nat) (regs : List (BitVec 7)) (k : State → State) : State :=
  match extra with
  | some f => s.trapHere { cause := .regwin, detail := f }
  | none => s.guarded regs k

/-- Consecutive register fields from r, as far as the field reaches. -/
def regRun (r : BitVec 7) (n : Nat) : List (BitVec 7) := (List.range n).map (fun i => BitVec.ofNat 7 (r.toNat + i))

/-- A run of n registers from r passes the window end (02 R39). -/
def Slot.runBad (v : Slot) (r : BitVec 7) (n : Nat) : Option Nat :=
  if v.regOk (r.toNat + n - 1) then none else some ((r.toNat + n - 1) % 128)

/-- Checks for an instruction that uses a run of n registers from r beside others. -/
def State.guardedRun (s : State) (r : BitVec 7) (n : Nat) (regs : List (BitVec 7)) (k : State → State) : State :=
  match s.me.badReg (r :: regs) with
  | some f => s.trapHere { cause := .regwin, detail := f.toNat }
  | none =>
    match s.me.runBad r n with
    | some f => s.trapHere { cause := .regwin, detail := f }
    | none => s.guarded (regRun r n ++ regs) k

/-! ## Results -/

/-- A sticky flag ORed into fcsr (23 R365). -/
def Slot.orFlags (v : Slot) (f : BitVec 5) : Slot := { v with fcsr := v.fcsr ||| f.setWidth 64 }

/-- A pending write whose place a later-issued result takes: it lands no later, in the same register (06 R112). -/
def DelayedWrite.supersede (w : DelayedWrite) (fw : Bool) (d : BitVec 7) (at_ : Nat) : DelayedWrite :=
  if w.reg = some d ∧ w.fw = fw ∧ w.at_ ≤ at_ then { w with reg := none, value := 0 } else w

/-- A fixed-latency result for x[d] with its flags. It lands `lat` cycles after the issue; where the strand cannot issue
before that it is written at once, which nothing can tell apart (06 R112; log 9). -/
def State.land (s : State) (d : BitVec 7) (v : Word) (lat : Nat) (st : BitVec 2) (flags : BitVec 5 := 0) : State :=
  let m := s.me
  let at_ := s.now + lat * tickLen s.coreId
  if lat ≤ 16 * (1 + st.toNat) then
    s.setMe { (m.wx d v).orFlags flags with writes := m.writes.map (fun w => w.supersede m.mode d at_) }
  else
    (s.setMe { m with writes := m.writes ++ [{ at_ := at_, reg := some d, fw := m.mode, value := v, flags := flags }] }).schedule
      at_ (.delayedRegisterWrite s.coreId)

/-- A fixed-latency instruction of `bytes` bytes that uses the registers `regs` and writes a value computed from the state. -/
def State.alu (s : State) (bytes lat : Nat) (regs : List (BitVec 7)) (d : BitVec 7) (st : BitVec 2)
    (v : State → Word) : State :=
  s.guarded regs fun s => (s.land d (v s) lat st).retire bytes st

/-- A three-register instruction (03 R50): x[D] ← f(x[A], x[B]). -/
def State.alu3 (s : State) (lat : Nat) (d a b : BitVec 7) (st : BitVec 2) (f : Word → Word → Word) : State :=
  s.alu 4 lat [d, a, b] d st fun s => f (s.rx a) (s.rx b)

/-- A single-source instruction (03 R56): x[D] ← f(x[A]). -/
def State.alu2 (s : State) (lat : Nat) (d a : BitVec 7) (st : BitVec 2) (f : Word → Word) : State :=
  s.alu 4 lat [d, a] d st fun s => f (s.rx a)

/-- A 4-bit register field of a short word, naming x0 to x15 (01 R16). -/
def short (r : BitVec 4) : BitVec 7 := r.setWidth 7

/-- A short word's instruction of class INT: x[D] ← f(x[D], x[A]) (02 R43). -/
def State.aluShort (s : State) (d a : BitVec 4) (f : Word → Word → Word) : State :=
  s.alu 2 latInt [short d, short a] (short d) 0 fun s => f (s.rx (short d)) (s.rx (short a))

/-! ## Immediates and effective addresses -/

/-- A signed immediate as a word (01 R17). -/
def imm {n : Nat} (i : BitVec n) : Word := i.signExtend 64
/-- The target of a branch or jump: the word's own address and twice its signed offset (01 R17). -/
def State.target {n : Nat} (s : State) (o : BitVec n) : Word := s.me.pc + 2 * imm o
/-- The effective address of a load or store: x[A] + n × sext(B[5:0], 6) (04 R80). -/
def State.ea (s : State) (n : Nat) (a : BitVec 7) (o : BitVec 6) : Word := s.rx a + BitVec.ofNat 64 n * imm o

/-! ## Operand extension registers -/

/-- ox k of the strand (01 R22). -/
def Slot.oxr (v : Slot) (k : BitVec 3) : Word := v.ox[k.toNat]'k.isLt
def State.oxr (s : State) (k : BitVec 3) : Word := s.me.oxr k
/-- The slot with ox k written. -/
def Slot.wox (v : Slot) (k : BitVec 3) (w : Word) : Slot := { v with ox := v.ox.set k.toNat w k.isLt }

/-! ## Control and status registers (01 R25) -/

/-- The registers of R25's table. -/
inductive Csr where
  | lr | fcsr | pc | vt | tid | lw | exts | slotmask | chk | ready | cause | epc
  deriving DecidableEq, Repr

/-- The register that a CSR number names: F in bits [8:7] of the 9-bit field, B in [6:0] (01 R25). -/
def csrOf (c : BitVec 9) : Option Csr :=
  match c.toNat / 128, c.toNat % 128 with
  | 0, 0 => some .lr
  | 0, 1 => some .fcsr
  | 1, 0 => some .pc
  | 1, 1 => some .vt
  | 1, 2 => some .tid
  | 1, 3 => some .lw
  | 1, 4 => some .exts
  | 1, 5 => some .slotmask
  | 1, 6 => some .chk
  | 1, 7 => some .ready
  | 2, 0 => some .cause
  | 2, 1 => some .epc
  | _, _ => none

/-- A register that no privilege writes (01 R25, R26). -/
def Csr.readOnly : Csr → Bool
  | .pc | .lw | .exts | .ready => true
  | _ => false

/-- The bank of a register (01 R25). -/
def Csr.bank : Csr → Nat
  | .lr | .fcsr => 0
  | .cause | .epc => 2
  | _ => 1

/-- The slots of a core that are present, as slotmask shows them: 0 on a core halted by HALTC (01 R25, 23 R376). -/
def State.slotmask (s : State) (core : Nat) : Word :=
  if (s.core core).halted then 0
  else BitVec.ofNat 64 ((List.range 16).foldl
    (fun n i => if (s.slot (core * 16 + i)).removed then n else n + 2 ^ i) 0)

/-- The bits of fcsr that hold fields: RM, the enables and the flags (23 R365). -/
def fcsrMask : Word := 0x31F1F
/-- The bits of cause that hold fields (23 R366). -/
def causeMask : Word := 0xFFFFFFFF00000FFF

/-- New bits under a mask, the others kept (23 R363). -/
def merge (old new mask : Word) : Word := (old &&& ~~~mask) ||| (new &&& mask)

/-- Continuation word w2 of the strand as it stands: SHW and NEST follow the gang and the slot (01 R25, 15 R260), so that a value
firmware writes to those two fields of tid is never read back (DESIGN CHOICE, log 92: R25 does not say whether the write changes
them). -/
def State.tidWord (s : State) : Word :=
  let v := s.me
  merge v.tid (BitVec.ofNat 64 (v.saved.length % 8 * 2 ^ 56 + (if s.myGang.shw then 2 ^ 50 else 0))) 0x0704000000000000

/-- The value of a register as the issuing strand reads it (01 R25, 23 R364). -/
def State.csrRead (s : State) (c : Csr) : Word :=
  let v := s.me
  match c with
  | .lr => v.lr
  | .fcsr => v.fcsr
  | .pc => v.pc
  | .vt => v.vt
  | .tid => s.tidWord
  | .lw => BitVec.ofNat 64 (s.lwAt s.myGang.job s.coreId)
  | .exts => extsOf s.coreId
  | .slotmask => s.slotmask s.coreId
  | .chk => if v.chk then 1 else 0
  | .ready => s.ready
  | .cause => v.cause
  | .epc => v.epc

/-- A write of a slot's own register; reserved bits stay as they were (23 R363, R368). slotmask is written through the
slots it names, and pc, lw, exts and ready are never written. -/
def Slot.csrWrite (v : Slot) (c : Csr) (w : Word) : Slot :=
  match c with
  | .lr => { v with lr := w }
  | .fcsr => { v with fcsr := merge v.fcsr w fcsrMask }
  | .vt => { v with vt := w }
  | .tid => { v with tid := merge v.tid w 0x07F7FFFFFFFFFFFF }
  | .chk => { v with chk := bitAt w 0 }
  | .cause => { v with cause := merge v.cause w causeMask }
  | .epc => { v with epc := w }
  | .pc | .lw | .exts | .slotmask | .ready => v

end Sys2Proof.Machine
end

