-- ==== Sys2Proof/Machine/Flags.lean ====
section
/-! DEFINITION. The floating-point status register: rounding mode, trap enables, sticky flags, and how a scalar result lands
with its flags or traps (23 R365; 09 R173; 08 R151, R153). -/

namespace Sys2Proof.Machine

/-- The rounding mode RM (23 R365). -/
def Slot.rm (v : Slot) : Rm := rmOf (bits v.fcsr 16 2)
/-- The trap enables ENV to ENX, in the bit order of the flags (23 R365). -/
def Slot.enables (v : Slot) : BitVec 5 := BitVec.ofNat 5 (bits v.fcsr 8 5)
/-- The sticky flags (23 R365). -/
def Slot.flags (v : Slot) : BitVec 5 := BitVec.ofNat 5 (bits v.fcsr 0 5)

/-- The FPE trap of the enabled flags an operation raised (25 R386). -/
def fpeTrap (f : BitVec 5) (addr : Word) : TrapInfo := { cause := .fpe, addr := addr, detail := f.toNat }

/-- The instruction at pc goes on to an FPE trap at a tick ahead: nothing is written, and the trap's PC is the instruction's (09
R173, R185). -/
def State.deferFpe (s : State) (t : TrapInfo) (at_ : Nat) (st : BitVec 2) : State :=
  let m := s.me
  let w : DelayedWrite := { at_ := at_, reg := none, fw := m.mode, value := t.addr, flags := BitVec.ofNat 5 t.detail, pc := some m.pc }
  ((s.setMe { m with writes := m.writes ++ [w] }).schedule at_ (.delayedRegisterWrite s.coreId)).retire 4 st

/-- A scalar floating-point result and its flags land `lat` cycles after the issue; an enabled flag traps FPE there, with nothing
written (09 R173; 06 R112). -/
def State.landFp (s : State) (d : BitVec 7) (r : Nat × BitVec 5) (lat : Nat) (bytes : Nat) (st : BitVec 2) : State :=
  let m := s.me
  if r.2 &&& m.enables = 0 ∧ lat ≤ 16 * (1 + st.toNat) then (s.land d (BitVec.ofNat 64 r.1) lat st r.2).retire bytes st
  else
    let at_ := s.now + lat * tickLen s.coreId
    let w : DelayedWrite := { at_ := at_, reg := some d, fw := m.mode, value := BitVec.ofNat 64 r.1, flags := r.2,
                              pc := some m.pc }
    ((s.setMe { m with writes := m.writes ++ [w] }).schedule at_ (.delayedRegisterWrite s.coreId)).retire bytes st

/-- A strand with a trap enable set does not issue before its pending floating-point results have landed (09 R173). -/
def Slot.fpHold (v : Slot) : Nat :=
  if v.enables = 0 then 0
  else v.writes.foldl (fun t w => if w.pc.isSome then max t w.at_ else t) 0

end Sys2Proof.Machine
end

