-- ==== Sys2Proof/Machine/Banks.lean ====
section
/-! DEFINITION. The three banks of a core's local memory and the core's port to the cluster network: who performs an access
in which core cycle (06 R118, R119; 12 R222; log 85). An access of an engine, of the window port or of a vector step takes its place in a
cycle before it is performed, and a requester of a higher rank moves it on; a scalar access meets the places already taken
in the cycle of its issue, and holds the place it gets. -/

namespace Sys2Proof.Machine

/-- The bank of a physical address of local memory (06 R118). -/
def bankOf (pa : Nat) : Nat := pa % 0x200000 / 64 % 3
/-- The place of a beat of the core's port among the banks' (12 R222). -/
def portBank : Nat := 3

/-! ## Ranks: the lower number wins (06 R119) -/

def rankStarved : Nat := 0
def rankDetVector : Nat := 1
def rankDetScalar : Nat := 2
def rankStarvedVector : Nat := 3
def rankAttention : Nat := 8
def rankMatrix : Nat := 9
def rankCopy : Nat := 10
def rankPort : Nat := 11
def rankVector : Nat := 12
def rankScalar : Nat := 13

/-- The rank of a claim: a vector step that has lost three times on a line wins (06 R119). -/
def Claim.key (c : Claim) : Nat := if c.rank = rankVector ∧ 3 ≤ c.lost then rankStarvedVector else c.rank
/-- The claim after it has lost a cycle. -/
def Claim.next (c : Claim) : Claim := { c with cycle := c.cycle + 1, lost := c.lost + 1 }
/-- The claim after it has stood back behind its requester's own other line. -/
def Claim.after (c : Claim) : Claim := { c with cycle := c.cycle + 1 }

/-- The claim that holds a bank in a cycle. -/
def claimAt (l : List Claim) (bank cycle : Nat) : Option Claim := l.find? (fun c => c.bank == bank && c.cycle == cycle)

/-- A claim put in place: in a cycle already taken the lower rank keeps it, and the other tries the next; of one requester's lines the one that
has lost more cycles goes first, and the other has not lost one by that. -/
def placeClaim (l : List Claim) (c : Claim) : Nat → List Claim
  | 0 => c :: l
  | fuel + 1 =>
    match claimAt l c.bank c.cycle with
    | none => c :: l
    | some x =>
      if x.owner = c.owner then
        if x.lost < c.lost then placeClaim (c :: l.filter (· != x)) x.after fuel else placeClaim l c.after fuel
      else if c.key < x.key then placeClaim (c :: l.filter (· != x)) x.next fuel else placeClaim l c.next fuel

/-- A core's claims with one more; those long past are forgotten. -/
def State.claim (s : State) (core : Nat) (c : Claim) : State :=
  let k := s.core core
  let l := k.claims.filter (fun x => decide (s.cycleOf core ≤ x.cycle + 2048))
  s.setCore core { k with claims := placeClaim l c (2 * l.length + 1) }
/-- Line accesses of one requester, each at its address and cycle. -/
def State.claimAll (s : State) (core rank owner : Nat) (l : List (Nat × Nat)) : State :=
  l.foldl (fun (u : State) p => u.claim core { bank := p.1, cycle := p.2, rank := rank, owner := owner }) s

/-- The last cycle that a requester holds at a core, if it holds one. -/
def Core.lastClaim (k : Core) (owner : Nat) : Option Nat :=
  (k.claims.filter (fun c => c.owner == owner)).foldl (fun m c => some (max (m.getD 0) c.cycle)) none
/-- The most cycles that a requester has lost on one line at a core. -/
def Core.claimLost (k : Core) (owner : Nat) : Nat :=
  (k.claims.filter (fun c => c.owner == owner)).foldl (fun m c => max m c.lost) 0
/-- A core without a requester's claims from a cycle on. -/
def State.unclaim (s : State) (core owner cycle : Nat) : State :=
  let k := s.core core
  s.setCore core { k with claims := k.claims.filter (fun c => !(c.owner == owner && decide (cycle ≤ c.cycle))) }
/-- The cores of a core's cluster without a requester's claims. -/
def State.unclaimAll (s : State) (core owner : Nat) : State :=
  (List.range 8).foldl (fun (u : State) i =>
    let k := clusterCore (clusterOf core) i
    if (u.core k).claims.any (fun c => c.owner == owner) then u.unclaim k owner 0 else u) s
/-- The first cycle of a core that begins at or after now, and the tick at which a cycle begins. -/
def State.cycleFrom (s : State) (c : Nat) : Nat := (s.now - s.startOf c + (tickLen c - 1)) / tickLen c
def State.cycleTick (s : State) (c n : Nat) : Nat := s.startOf c + n * tickLen c

/-- The first rotation boundary of a core more than n cycles after the present one begins (06 R108). -/
def State.rotationAfter (s : State) (c n : Nat) : Nat := s.cycleTick c ((s.cycleOf c + n) / 16 * 16 + 16)
/-- The next rotation boundary of a core after now (06 R108). -/
def State.nextRotation (s : State) (c : Nat) : Nat := s.rotationAfter c 0

/-! ## Requesters -/

def ownerScalar : Nat := 0
def ownerVector (slot : Nat) : Nat := 16 + slot % 16
/-- An operation of a matrix stream, by core, slot and number; the accumulator port's is number 4,095. -/
def ownerMatrix (core op : Nat) : Nat := 4096 + core * 4096 + op % 4096
def ownerAttention (id : Nat) : Nat := 2 ^ 30 + id
/-- An access through a window port, by the number its request has there; 0 for one that its strand makes in a free cycle. -/
def ownerPort (n : Nat) : Nat := 2 ^ 40 + n
/-- A channel's reads; its writes are the next number. -/
def ownerCopy (core ch : Nat) : Nat := 2 ^ 28 + (core * 4 + ch) * 2

/-- Lines that an engine reads or writes, by source core, one per cycle from the present one; those of another core than its own come
over that core's port (12 R215, R222). -/
def State.claimLines (s : State) (c rank owner : Nat) (l : List (Nat × Nat)) : State :=
  ((l.map (·.1)).eraseDups).foldl (fun (u : State) src =>
    (l.filter (fun p => p.1 == src)).zipIdx.foldl (fun (w : State) p =>
      let cl : Claim := { bank := bankOf (p.1.2 * 64), cycle := w.cycleFrom src + p.2, rank := rank, owner := owner }
      let w1 := w.claim src cl
      if src = c then w1 else w1.claim src { cl with bank := portBank }) u) s
/-- The cycles that an engine's transfer of lines takes: the most that one core supplies, with those lost there (12 R215). -/
def State.lineCycles (s : State) (owner : Nat) (l : List (Nat × Nat)) : Nat :=
  ((l.map (·.1)).eraseDups).foldl (fun m src => max m ((l.filter (fun p => p.1 == src)).length + (s.core src).claimLost owner)) 0

/-! ## The issuing strand's scalar access (06 R119, R109) -/

/-- The rank of the issuing strand's scalar access. -/
def State.scalarRank (s : State) : Nat :=
  if 3 ≤ s.me.losses then rankStarved else if s.myJob.det then rankDetScalar else rankScalar

/-- The issuing strand's access at its own core's bank in this cycle: none where it loses, else the state in which it has the bank, which
no later request of the cycle takes from it. -/
def State.winBank (s : State) (pa : Nat) : Option State :=
  let mine : Claim := { bank := bankOf pa, cycle := s.cycleOf s.coreId, rank := rankStarved, owner := ownerScalar }
  match claimAt s.myCore.claims mine.bank mine.cycle with
  | none => some (s.claim s.coreId mine)
  | some x => if s.scalarRank < x.key then some (s.claim s.coreId mine) else none

/-- A scalar access that lost its bank forfeits the issue cycle: the same instruction issues at t + 16, and nothing else has
happened (06 R109). -/
def State.forfeit (s : State) : State :=
  s.setMe { s.me with wait := .cond .bank, nextTick := s.now + 16 * tickLen s.coreId, losses := s.me.losses + 1 }

/-- A scalar access of the issuing strand to its own core's local memory, once it has its bank. -/
def State.withBank (s : State) (pa : Nat) (k : State → State) : State :=
  match s.winBank pa with
  | some s1 => k s1
  | none => s.forfeit

/-- The ticks that a vector step in flight has lost to engines on one line (06 R119, R120). -/
def State.vLost (s : State) (id : Nat) : Nat := (s.core (id / 16)).claimLost (ownerVector id) * tickLen (id / 16)

/-! ## The window port of a core (06 R119; 07 R141) -/

/-- The bank that an access through a core's window port needs is free in the first cycle that begins at or after now. -/
def State.portFree (s : State) (core pa : Nat) : Bool := (claimAt (s.core core).claims (bankOf pa) (s.cycleFrom core)).isNone
/-- An access through a core's port takes its place from that cycle on; one that is performed at once in a free cycle keeps it. -/
def State.portClaim (s : State) (core pa n : Nat) : State :=
  s.claim core { bank := bankOf pa, cycle := s.cycleFrom core, rank := if n = 0 then rankStarved else rankPort, owner := ownerPort n }

/-- The tick at which a requester's access is performed, if that lies ahead: the end of the last cycle that it holds at a core. -/
def State.claimEnds (s : State) (core owner : Nat) : Option Nat :=
  match (s.core core).lastClaim owner with
  | some y => let t := s.cycleTick core (y + 1); if s.now < t then some t else none
  | none => none

end Sys2Proof.Machine
end

