-- ==== Sys2Proof/Machine/Memory.lean ====
section
/-! DEFINITION. Accesses: their checks, the L1 caches and ownership (07 R127 to R130), the home's service of every kind of
access with retry lists, parking and reduction lines (04 R86 to R101, R414), the ports of local memory (07 R141) and
accesses to other modules (22 R356). An access whose home or port is on this module is served in the step that issues it
(log 12), but for a DET job's, which travels on the timed channel and is served when it arrives (22 R354). -/

namespace Sys2Proof.Machine

/-! ## The cores of a gang (15 R256, R259) -/

def hdrSpc (h : Word) : Nat := bits h 0 5
def hdrRegs (h : Word) : Nat := bits h 8 8
def hdrAcc (h : Word) : Nat := bits h 16 4
def hdrBars (h : Word) : Nat := bits h 20 4
def hdrW (h : Word) : Nat := bits h 24 5 + 1
def hdrH (h : Word) : Nat := bits h 29 4 + 1
def hdrLayers (h : Word) : Nat := bits h 33 1 + 1
/-- The window size: the header's count rounded up to a multiple of 8 (06 R114). -/
def hdrWindow (h : Word) : Nat := (hdrRegs h + 7) / 8 * 8
/-- Strands of the whole gang. -/
def hdrStrands (h : Word) : Nat := hdrSpc h * hdrW h * hdrH h * hdrLayers h

/-- The cores a gang was placed on, in the order of strand indices (15 R256). -/
def Gang.placed (g : Gang) : List Nat :=
  (List.range (hdrLayers g.hdr)).flatMap fun l =>
    (List.range (hdrH g.hdr)).flatMap fun j =>
      (List.range (hdrW g.hdr)).map fun i =>
        coreOf (g.x0 + i) (g.y0 + j) (if hdrLayers g.hdr = 2 then l else g.z0)
/-- Where the part placed on a core stands now (23 R372). -/
def Gang.now (g : Gang) (c : Nat) : Nat := ((g.moved.find? (fun m => m.1 == c)).map (·.2)).getD c
/-- The cores that hold a gang's parts. -/
def Gang.cores (g : Gang) : List Nat := g.placed.map g.now
/-- HEDGE or OPT in effect: the task's writes are confined (04 R78). -/
def Gang.confined (g : Gang) : Bool := g.flags.getLsbD 0 || g.flags.getLsbD 2

/-! ## Checks of an access (04 R77, R78; 25 R387 stages 7 and 8) -/

/-- A place in local memory. -/
def Place.isLocal : Place → Bool
  | .ownMem _ | .window _ _ => true
  | _ => false

/-- An address in the inbox area of a logical process (18 R297). -/
def State.inInbox (s : State) (pa : Nat) : Bool :=
  s.jobs.any fun j => j.2.isOpen && j.2.lps.any fun l =>
    let d3 := l.2.desc.getD 3 0
    let lo := localBase (bits d3 0 10) + bits (l.2.desc.getD 4 0) 6 15 * 64
    decide (lo ≤ pa ∧ pa < lo + bits d3 32 13 * 64)

/-- A confined task writes only local memory of cores of its own gang (04 R78); no job write enters an inbox area (18 R297). -/
def State.mayWriteFor (s : State) (g : Gang) (p : Place) : Bool :=
  match p with
  | .ownMem pa => !s.inInbox pa
  | .window pa c => (!g.confined || g.cores.contains c) && !s.inInbox pa
  | _ => !g.confined
def State.mayWrite (s : State) (p : Place) : Bool := s.mayWriteFor s.myGang p

/-- The checks ALIGN, XLAT and PROT of an access of the issuing strand to `va`, aligned to n, and what it does at the place
the address reaches. `home` marks an access that needs a home (04 R77 step 5). -/
def State.reach (s : State) (n : Nat) (va : Word) (acc : Access) (home writes : Bool) (k : Place → State → State) : State :=
  if va.toNat % n ≠ 0 then s.trapHere { cause := .align, addr := va }
  else
    match s.translate s.coreId s.myGang.job va acc with
    | .xlat l => s.trapHere { cause := .xlat, addr := va, detail := l }
    | .prot => s.trapHere { cause := .prot, addr := va }
    | p =>
      if (home && p.isLocal) || (writes && !s.mayWrite p) then s.trapHere { cause := .prot, addr := va }
      else k p (s.fillTlb s.coreId s.myGang.job va)

/-! ## The L1 (07 R127, R129, R130) -/

/-- The core whose L1 slice holds a line for a core: its own, or in a fused cluster the core of index [8:6] (07 R130). -/
def State.l1Core (s : State) (core pa : Nat) : Nat :=
  if (s.cluster (clusterOf core)).fused then clusterCore (clusterOf core) (pa / 64 % 8) else core
/-- The owner a home records for a core: the core, or 1,024 + its fused cluster (07 R128). -/
def State.ownerId (s : State) (core : Nat) : Nat :=
  if (s.cluster (clusterOf core)).fused then 1024 + clusterOf core else core
/-- The cores whose L1s an owner stands for. -/
def ownerCores (o : Nat) : List Nat := if o < 1024 then [o] else (List.range 8).map (clusterCore (o - 1024))

/-- The word of a line that holds an address. -/
def L1Line.word (l : L1Line) (pa : Nat) : L1Word := l.words[pa / 8 % 8]'(Nat.mod_lt _ (by decide))
/-- A core's cached word, if the line is present. -/
def Core.l1Word (c : Core) (pa : Nat) : Option L1Word := (c.l1.find? (fun l => l.addr == lineAddr pa)).map (·.word pa)
/-- A core with a change made to the cached word of a present line. -/
def Core.l1Map (c : Core) (pa : Nat) (f : L1Word → L1Word) : Core :=
  { c with l1 := c.l1.map fun l =>
      if l.addr = lineAddr pa then
        { l with words := l.words.set (pa / 8 % 8) (f (l.word pa)) (Nat.mod_lt _ (by decide)) }
      else l }
/-- A core without the words that an acquire drops: valid, neither owned nor pending (07 R129). -/
def Core.selfInvalidate (c : Core) : Core :=
  { c with l1 := c.l1.map fun l =>
      { l with words := l.words.map fun w => if w.owned || w.pending then w else { w with valid := false } } }

/-- An acquire by a core: its own L1, or every slice of its fused cluster (07 R129). -/
def State.acquire (s : State) (core : Nat) : State :=
  (if (s.cluster (clusterOf core)).fused then (List.range 8).map (clusterCore (clusterOf core)) else [core]).foldl
    (fun (u : State) c => u.setCore c (u.core c).selfInvalidate) s

/-- Some bytes of a word replaced. -/
def mergeBytes (old : Word) (pa n v : Nat) : Word :=
  let sh := 8 * (pa % 8)
  merge old (BitVec.ofNat 64 (v * 2 ^ sh)) (BitVec.ofNat 64 ((2 ^ (8 * n) - 1) * 2 ^ sh))

/-- A posted store on its way to its home on this module: its slot, address and length. -/
def storeOf (e : Ev) : Option (Nat × Nat × Nat) :=
  match plainEv e with
  | .homeRequest r =>
    match r.origin, r.op, r.pa with
    | .slot id, .store n, some pa => some (id, pa, n)
    | _, _, _ => none
  | _ => none
/-- A store of a core, or of its fused cluster, to a word is still on its way to the home. -/
def State.storeTravels (s : State) (core w : Nat) : Bool :=
  s.agenda.any fun e => match storeOf e.2 with
    | some (id, pa, n) => s.ownerId (id / 16) == s.ownerId core && (wordSpan pa n).contains w
    | none => false
/-- A store of a core, or of its fused cluster, to a word is not yet acknowledged (07 R127 pending). -/
def State.storePending (s : State) (core w : Nat) : Bool :=
  s.slots.any fun v => v.2.live && s.ownerId (v.1 / 16) == s.ownerId core && v.2.unacked.any fun u => wordAddr u.1 == w
/-- The home has a word registered to a core, or to its fused cluster. -/
def State.ownsWord (s : State) (core w : Nat) : Bool := s.owners.any fun o => o.1 == w && o.2 == s.ownerId core

/-- The line that a load of a core fills from the home: a word of it that cannot be corrected stays not valid, and one to which a store of the
core is still on its way keeps what the store left of it, since its home does not yet have those bytes (07 R127, R128, R136). -/
def State.fillLine (s : State) (core pa : Nat) : State :=
  let lc := s.l1Core core pa
  let c := s.core lc
  let base := lineAddr pa
  let word := fun (w : Nat) =>
    if s.storeTravels core w then
      match c.l1Word w with
      | some h => if h.pending then h else { pending := true }
      | none => { pending := true }
    else { valid := !s.bad.contains w, owned := s.ownsWord core w, pending := s.storePending core w, data := s.homeWord w }
  let line : L1Line := { addr := base, words := Vector.ofFn fun i : Fin 8 => word (base + 8 * i.val) }
  s.setCore lc { c with l1 := (line :: c.l1.filter (fun l => l.addr != base)).take 1024 }

/-- A line is marked as a reduction line, and how (04 R96). -/
def State.drKind (s : State) (pa : Nat) : Option DrKind :=
  (s.drLines.find? (fun l => l.1 == lineAddr pa)).map (·.2.1)

/-- The store's own L1: a valid word, or a whole word, takes the bytes (07 R127). -/
def State.l1Store (s : State) (core pa n v : Nat) : State :=
  let lc := s.l1Core core pa
  s.setCore lc ((s.core lc).l1Map pa fun w =>
    if w.valid || n == 8 then { w with valid := true, pending := true, data := mergeBytes w.data pa n v }
    else { w with pending := true })

/-- An acknowledged store in the L1: pending clears, unless another store to the word is unacknowledged, and owned is set where the home has not
given the word to another since (07 R127, R128). -/
def State.l1Ack (s : State) (core pa : Nat) : State :=
  let lc := s.l1Core core pa
  s.setCore lc ((s.core lc).l1Map pa fun w =>
    { w with pending := s.storePending core (wordAddr pa), owned := s.ownsWord core (wordAddr pa) })
/-- A refused store in the L1: its bytes are not kept (04 R414). -/
def State.l1Refused (s : State) (core pa : Nat) : State :=
  let lc := s.l1Core core pa
  s.setCore lc ((s.core lc).l1Map pa fun w => { w with pending := s.storePending core (wordAddr pa), valid := false })

/-- The whole word that an atomic's reply carries, in a present line (07 R127). -/
def State.l1Atomic (s : State) (core pa : Nat) : State :=
  let lc := s.l1Core core pa
  if s.storeTravels core (wordAddr pa) then s
  else s.setCore lc ((s.core lc).l1Map pa fun w =>
    { w with valid := true, owned := s.ownsWord core (wordAddr pa), data := s.homeWord pa })

/-- A revocation of a word at an owner: valid and owned clear in every L1 of it, and in the slice that holds the word for a core
whose cluster has been fused since (07 R128, R131). -/
def State.revokeAt (s : State) (o pa : Nat) : State :=
  (if o < 1024 then [o, s.l1Core o pa] else ownerCores o).foldl (fun (u : State) c =>
    u.setCore c ((u.core c).l1Map pa fun w => { w with valid := false, owned := false })) s

/-! ## Writes performed at a home -/

/-- The home records the writer as the word's owner and sends the old owner a revocation (07 R128). -/
def State.register (s : State) (pa own : Nat) : State :=
  let w := wordAddr pa
  let s1 := { s with owners := tset s.owners w own }
  match s.owners.find? (fun o => o.1 == w) with
  | some o => if o.2 = own then s1 else s1.revoke o.2 w
  | none => s1

/-! ## The last-level cache (00 R6; 07 R125, R128; log 28) -/

/-- Lines that a home's slice holds. -/
def homeLines : Nat := 131072
/-- A line leaves its home's slice: first every registered word of it is revoked (07 R128); its side bits go with it. -/
def State.evictLine (s : State) (line : Nat) : State :=
  let s1 := s.revokeWords ((List.range 8).map fun i => line + 8 * i)
  { s1 with resident := s1.resident.filter (· != line), side := tdel s1.side line }
/-- The range of E2M1X in force that holds an address (08 R155, R159). -/
def State.formatRange (s : State) (pa : Nat) : Option FmtRange :=
  (s.ranges.find? (fun r => bitAt r.2.base 63 && bits r.2.base 56 3 == 5 &&
    decide (bits r.2.base 6 42 ≤ pa / 64 ∧ pa / 64 ≤ bits r.2.lim 6 42))).map (·.2)
/-- The metadata word that a fetch of a line in a range in force joins to it, and the line with its side bits (08 R156, R159). -/
def State.metaWord (s : State) (pa : Nat) : Option (Word × State) :=
  let line := lineAddr pa
  match s.formatRange pa with
  | none => none
  | some r =>
    match s.side.find? (fun e => e.1 == line) with
    | some e => some (e.2, s)
    | none =>
      let w := s.homeWord (bits r.scl 3 45 * 8 + 8 * (pa / 64 - bits r.base 6 42))
      some (w, { s with side := tset s.side line w })
/-- The side-band items of the lines that n bytes touch: PRES and META (08 R159). -/
def State.sideItems (s : State) (pa n : Nat) : List (Bool × Word) :=
  (List.range ((pa % 64 + n + 63) / 64)).map fun i =>
    match s.metaWord (lineAddr pa + 64 * i) with
    | some (w, _) => (true, w)
    | none => (false, 0)

/-- A line comes into its home's slice, joined to its metadata where a range holds it (08 R156); a full slice first evicts a line that
no waiter names. -/
def State.bringIn (s : State) (pa : Nat) : State :=
  let line := lineAddr pa
  if s.resident.contains line then s
  else
    let put := fun (u : State) => let u1 := { u with resident := u.resident ++ [line] }; ((u1.metaWord line).map (·.2)).getD u1
    let mine := s.resident.filter (fun l => homeOf l == homeOf line)
    if mine.length < homeLines then put s
    else
      let cand := mine.filter (fun l => s.retries.all (fun r => lineAddr r.addr != l))
      match cand[Config.victim s.fresh % cand.length]? with
      | some v => put ({ s with fresh := s.fresh + 1 }.evictLine v)
      | none => s

/-- A line of bytes written to a home by an engine. -/
def State.hbmPut (s : State) (pa : Nat) (bs : List Byte) : State :=
  let s1 := { s with mem := memPut s.mem pa bs,
                     bad := s.bad.filter (fun w => decide (w + 8 ≤ pa ∨ pa + bs.length ≤ w)) }
  (List.range ((bs.length + 7) / 8 + 1)).foldl (fun (u : State) i => u.noteScale (wordAddr pa + 8 * i)) s1

/-! ## Reduction lines (04 R96 to R101, 08 R164) -/

def DrKind.width : DrKind → Nat
  | .f32 => 320
  | .f64 => 512
/-- Registers that hold a whole accumulator (04 R99). -/
def DrKind.regs : DrKind → Nat
  | .f32 => 5
  | .f64 => 8
/-- The exponent of the accumulator's LSB. -/
def DrKind.lsb : DrKind → Int
  | .f32 => -149
  | .f64 => -256
/-- The saturation mark −2^(N−1). -/
def DrKind.mark (k : DrKind) : Int := -(2 ^ (k.width - 1) : Nat)

/-- An accumulator's value from its two's-complement bits. -/
def DrKind.ofBits (k : DrKind) (n : Nat) : Int :=
  let m := n % 2 ^ k.width
  if m < 2 ^ (k.width - 1) then m else (m : Int) - (2 ^ k.width : Nat)
/-- The bits of an accumulator's value. -/
def DrKind.toBits (k : DrKind) (v : Int) : Nat := (v % (2 ^ k.width : Nat)).toNat

/-- Exact addition with the sticky mark (04 R96, R98). -/
def DrKind.add (k : DrKind) (acc v : Int) : Int :=
  if acc = k.mark ∨ v = k.mark then k.mark
  else if (2 ^ (k.width - 1) - 1 : Nat) < (acc + v).natAbs then k.mark else acc + v

/-- An addend on a line's grid: the mark for an infinity, a NaN or an FP64 magnitude from 2^255 up, truncation toward zero on
an F64 line (04 R98; 08 R164; log 86). -/
def DrKind.addend (k : DrKind) (x : Fv) : Int :=
  match x with
  | .fin neg m e =>
    let d := e - k.lsb
    let v : Nat := if 0 ≤ d then m * 2 ^ d.toNat else m / 2 ^ (-d).toNat
    if 2 ^ (k.width - 1) ≤ v then k.mark else if neg then -(v : Int) else v
  | _ => k.mark

/-- The accumulator of a marked line. -/
def State.drAcc (s : State) (k : DrKind) (pa : Nat) : Int := k.ofBits (memRead s.mem (lineAddr pa) (k.width / 8))
/-- A line with its accumulator written; the bytes above an F32 value are zero (04 R96). -/
def State.setDrAcc (s : State) (k : DrKind) (pa : Nat) (v : Int) : State :=
  s.hbmWrite (lineAddr pa) (k.toBits v) 64

/-- The job that marked a reduction line, for JOB_CLOSE (04 R96). -/
def State.drMarkedBy (s : State) (pa j : Nat) : State :=
  { s with drLines := s.drLines.map fun (l : Nat × DrKind × Nat) => if l.1 = lineAddr pa then (l.1, l.2.1, j) else l }

/-- A number cut into words from the low end. -/
def toWords (v : Nat) : Nat → List Word
  | 0 => []
  | n + 1 => BitVec.ofNat 64 v :: toWords (v / 2 ^ 64) n
/-- Words joined from the low end. -/
def ofWords : List Word → Nat
  | [] => 0
  | w :: r => w.toNat + 2 ^ 64 * ofWords r

/-- A format that DRED or DREAD names (04 R98, R100). -/
def DrFmt.fmt : DrFmt → Fmt
  | .f32 => fp32
  | .bf16 => Machine.bf16
  | .f64 => fp64
  | .acc => fp64
/-- The kind a DRED's format needs (04 R98). -/
def DrFmt.fits (f : DrFmt) (k : DrKind) : Bool :=
  match f, k with
  | .f32, .f32 | .bf16, .f32 | .f64, .f64 | .acc, _ => true
  | _, _ => false

/-- What DREAD returns (04 R100). -/
def drRead (k : DrKind) (f : DrFmt) (acc : Int) : List Word :=
  match f with
  | .acc => toWords (k.toBits acc) k.regs
  | _ =>
    if acc = k.mark then [BitVec.ofNat 64 f.fmt.nanBits]
    else [BitVec.ofNat 64 (f.fmt.roundRat .rne false (acc < 0) acc.natAbs 1 k.lsb).1]

/-! ## The home's service (04 R86 to R101, R414) -/

/-- An access that a reduction line refuses (04 R101). -/
def MemOp.clashes : MemOp → Bool
  | .store _ | .stfe _ | .ldfe _ | .feset _ | .atom _ | .cas | .fadd32 | .fadd64 => true
  | _ => false
/-- An access that writes its word or its FE bit, which the line of a tile header in use refuses (16 R276); DRINIT writes its
line. -/
def MemOp.writes : MemOp → Bool
  | .store _ | .stfe _ | .feset _ | .atom _ | .cas | .fadd32 | .fadd64 | .drinit _ => true
  | .ldfe m => m == .fe || m == .ef
  | _ => false
/-- An access that changes what its word or line holds: one that writes it, or DRED. -/
def MemOp.changes : MemOp → Bool
  | .dred _ => true
  | op => op.writes

/-- An access to the FE bit (25 R398). -/
def MemOp.usesFe : MemOp → Bool
  | .ldfe _ | .stfe _ | .feq | .feset _ | .watch _ => true
  | _ => false
/-- An access that reads data (25 R398). -/
def MemOp.reads : MemOp → Bool
  | .load _ | .fetch | .ldfe _ | .atom _ | .cas | .fadd32 | .fadd64 | .dred _ | .dread _ => true
  | _ => false
/-- An access that registers ownership (04 R85). -/
def MemOp.registers : MemOp → Bool
  | .store _ | .stfe _ | .atom _ | .cas | .fadd32 | .fadd64 => true
  | .ldfe m => m == .fe || m == .ef
  | _ => false
/-- The words an access reads. -/
def MemOp.span (op : MemOp) (pa : Nat) : List Nat :=
  match op with
  | .fetch | .dred _ | .dread _ => (List.range 8).map fun i => lineAddr pa + 8 * i
  | .load n | .store n => wordSpan pa n
  | _ => [wordAddr pa]

/-- The address that a refusal reports: the line's for DETCONFLICT, the damaged word's for UNCORRECTABLE, else the refused access's (25 R386;
04 R414; log 87). -/
def refusedAddr (c : Cause) (va : Word) : Word :=
  match c with
  | .detConflict => va &&& ~~~63
  | .uncorrectable => va &&& ~~~7
  | _ => va
/-- The same for an access at a physical address, where the damaged word is known. -/
def State.refusedAt (s : State) (op : MemOp) (pa : Nat) (c : Cause) (va : Word) : Word :=
  match c, (op.span pa).find? s.bad.contains with
  | .uncorrectable, some w => va + BitVec.ofNat 64 w - BitVec.ofNat 64 pa
  | _, _ => refusedAddr c va

/-- Why a home refuses an access, if it does: DETCONFLICT (04 R101), PROT (16 R276), UNCORRECTABLE (25 R398; a damaged FE
bit is the odd address beside its word). -/
def State.homeRefusal (s : State) (op : MemOp) (pa : Nat) (isPrivate : Bool) : Option Cause :=
  let kind := s.drKind pa
  let conflict : Bool :=
    match op with
    | .dred f => (match kind with
      | some k => !f.fits k
      | none => true)
    | .dread _ => kind.isNone
    | _ => op.clashes && kind.isSome
  if conflict then some .detConflict
  else if op.writes && s.tileMarks.any (fun t => t.1 == lineAddr pa) then some .prot
  else if op.usesFe && s.bad.contains (wordAddr pa + 1) then some .uncorrectable
  else if op.reads && !isPrivate && (op.span pa).any s.bad.contains then some .uncorrectable
  else none

/-- The FE value at which a mode is served (04 R86). -/
def FeMode.needs : FeMode → Option Bool
  | .ff | .fe => some true
  | .ef => some false
  | .xf => none
/-- The FE value a mode leaves (04 R86). -/
def FeMode.leaves : FeMode → Bool
  | .fe => false
  | _ => true

/-- Whether an access can be served at an FE value (04 R86). -/
def MemOp.servable (op : MemOp) (full : Bool) : Bool :=
  match op with
  | .ldfe m | .stfe m => m.needs.all (· == full)
  | .watch b => b == full
  | _ => true
def MemOp.isStore : MemOp → Bool
  | .store _ => true
  | _ => false
def MemOp.isLoad : MemOp → Bool
  | .load _ => true
  | _ => false
/-- A watcher of SUSP, which only waits for its word (03 R70). -/
def MemOp.isWatch : MemOp → Bool
  | .watch _ => true
  | _ => false
/-- The FE value an access leaves (04 R86, R90). -/
def MemOp.feAfter (op : MemOp) (full : Bool) : Bool :=
  match op with
  | .ldfe m | .stfe m => m.leaves
  | .feset b => b
  | _ => full

/-- The function of an atomic (04 R92). -/
def AtomOp.apply (o : AtomOp) (old v : Word) : Word :=
  match o with
  | .add => old + v
  | .and => old &&& v
  | .or => old ||| v
  | .xor => old ^^^ v
  | .min => if v.slt old then v else old
  | .max => if old.slt v then v else old
  | .minu => if v.ult old then v else old
  | .maxu => if old.ult v then v else old
  | .swap => v

/-- The data transfer of an access at its home: what it returns, and memory after it (04 R80 to R100). -/
def State.homeData (s : State) (op : MemOp) (pa : Nat) (data data2 : Word) (acc : List Word) : List Word × State :=
  match op with
  | .load n =>
    if n ≤ 8 then ([BitVec.ofNat 64 (memRead s.mem pa n)], s) else (toWords (memRead s.mem pa n) ((n + 7) / 8), s)
  | .fetch => (s.readWords (lineAddr pa) 8, s)
  | .watch _ => ([], s)
  | .store n => ([], s.hbmWrite pa (if n ≤ 8 then data.toNat else ofWords acc) n)
  | .ldfe _ => ([s.homeWord pa], s)
  | .stfe _ => ([], s.hbmWrite pa data.toNat 8)
  | .feq => ([if s.feBit pa then 1 else 0], s)
  | .feset _ => ([], s)
  | .atom o => ([s.homeWord pa], s.hbmWrite pa (o.apply (s.homeWord pa) data).toNat 8)
  | .cas =>
    let old := s.homeWord pa
    ([old], if old = data2 then s.hbmWrite pa data.toNat 8 else s)
  | .fadd32 =>
    let old := memRead s.mem pa 4
    ([BitVec.ofNat 64 old], s.hbmWrite pa (fp32.add .rne (fp32.decode old) (fp32.decode (data.toNat % 2 ^ 32))).1 4)
  | .fadd64 =>
    let old := s.homeWord pa
    ([old], s.hbmWrite pa (fp64.add .rne (fp64.decode old.toNat) (fp64.decode data.toNat)).1 8)
  | .drinit k =>
    ([], { s.hbmWrite (lineAddr pa) 0 64 with
             drLines := (lineAddr pa, k, 65536) :: s.drLines.filter (fun l => l.1 != lineAddr pa) })
  | .dred f =>
    match s.drKind pa with
    | some k =>
      let v := match f with
        | .acc => k.ofBits (ofWords (acc.take k.regs))
        | _ => k.addend (f.fmt.decode (data.toNat % 2 ^ f.fmt.width))
      ([], s.setDrAcc k pa (k.add (s.drAcc k pa) v))
    | none => ([], s)
  | .dread f =>
    match s.drKind pa with
    | some k => (drRead k f (s.drAcc k pa), s)
    | none => ([], s)

/-- An answer on its way from a home or a port: to a slot or record of this module, or over the fabric (22 R356). -/
def State.answer (s : State) (src : Nat) (o : Origin) (r : Reply) : State :=
  match o with
  | .slot id =>
    if 65536 ≤ id then s.soon (.homeReply id r)
    else s.carry (s.gang (s.slot id).gang).job src (id / 16) (max 1 ((r.vals.length + 7) / 8)) (.homeReply id r)
  | .remote m j t => s.send (.reply m j t r)

/-- The owner a home records for a waiter on this module; a remote writer registers none, since no L1 holds a remote word. -/
def State.originOwner (s : State) (o : Origin) : Option Nat :=
  match o with
  | .slot id => some (s.ownerId (id / 16))
  | .remote .. => none

/-- The registration of every word that an access R85 marks has written; a remote write only revokes the words' owners (07
R128). -/
def State.registerFor (s : State) (op : MemOp) (pa : Nat) (own : Option Nat) : State :=
  if op.registers then
    match own with
    | some o => (op.span pa).foldl (fun (u : State) w => u.register w o) s
    | none => s.revokeWords (op.span pa)
  else s

/-- The indivisible part of a served access: data, FE change, ownership; and whether its writer is answered TRAPWRITER, the
park mark then clear (04 R86, R89). -/
def State.homePerform (s : State) (op : MemOp) (pa : Nat) (data data2 : Word) (acc : List Word) (own : Option Nat) :
    List Word × Bool × State :=
  let r := s.homeData op pa data data2 acc
  let full := s.feBit pa
  let after := op.feAfter full
  let changed := full != after
  let s1 := if changed then r.2.setFe pa after else r.2
  let w := wordAddr pa
  let tw := changed && s1.parkMarks.contains w
  let s2 := if tw then { s1 with parkMarks := s1.parkMarks.filter (· != w) } else s1
  (r.1, tw, s2.registerFor op pa own)

/-- A list without the first element equal to a given one. -/
def dropFirst {α : Type} [DecidableEq α] (l : List α) (x : α) : List α :=
  match l with
  | [] => []
  | a :: r => if a = x then r else a :: dropFirst r x

/-! ## Lockstep (26 R411) -/

/-- The two jobs' comparison ends with a first difference: both abort, and the host is told. -/
def State.lockMismatch (s : State) (a b home idx pa pb : Nat) : State :=
  let s1 := s.setJob a { s.job a with lockstep := none, streams := [] }
  let s2 := s1.setJob b { s1.job b with lockstep := none }
  ((s2.startAbort a 1 0).startAbort b 1 0).postEvent 4 a (BitVec.ofNat 64 (idx * 2 ^ 32 + home)) (BitVec.ofNat 64 pa)
    (BitVec.ofNat 64 pb)

/-- A store of a job in lockstep is compared with the first store of its partner at the same home by the strand of the same
index that has not been compared, or kept until the partner makes it. -/
def State.lockStore (s : State) (j idx pa n v : Nat) : State :=
  match (s.job j).lockstep with
  | none => s
  | some (o, d, first) =>
    let a := if first then j else o
    let own := if first then pa else pa - d
    let side := if first then 0 else 1
    let l := (s.job a).streams
    match l.find? (fun e => e.take 3 == [homeOf pa, idx, 1 - side]) with
    | none => s.setJob a { s.job a with streams := l ++ [[homeOf pa, idx, side, own, n, v]] }
    | some e =>
      if e.drop 3 = [own, n, v] then s.setJob a { s.job a with streams := dropFirst l e }
      else
        let other := e.getD 3 0 + (if first then d else 0)
        if first then s.lockMismatch j o (homeOf pa) idx pa other else s.lockMismatch o j (homeOf pa) idx other pa

/-- A store of a slot's strand that its home has performed, as lockstep sees it (26 R411). -/
def State.lockFor (s : State) (o : Origin) (op : MemOp) (pa : Nat) (v : Nat) : State :=
  match o, op with
  | .slot id, .stfe _ => s.lockStore (s.gang (s.slot id).gang).job (s.slot id).index pa 8 v
  | .slot id, .store n => s.lockStore (s.gang (s.slot id).gang).job (s.slot id).index pa n v
  | _, _ => s

/-! ## Retry lists (04 R87, R88) -/

/-- A write that a home performs in a page of the job's tables invalidates every TLB entry of the job on the module before it is
acknowledged (25 R394; log 15). -/
def State.tableWritten (s : State) (table : Bool) (job : Nat) : State := if table then s.tlbFlush job else s
/-- The same for an operation of a strand on this module. -/
def State.tableOp (s : State) (table : Bool) (op : MemOp) (o : Origin) : State :=
  match o with
  | .slot id => s.tableWritten (table && op.changes) (s.gang (s.slot id).gang).job
  | .remote .. => s

/-- The first waiter of a word that its FE bit lets the home serve (04 R87). -/
def State.feFirst (s : State) (w : Nat) : Option Retry :=
  s.retries.find? fun r => r.addr == w && r.op.servable (s.feBit w)

/-- One pass over a word's retry list after its FE bit changed: the oldest servable waiter is served and the scan restarts
(04 R87). A TRAPWRITER answer to a waiter of another module requeues the parked continuations here. -/
def State.feScan (s : State) (w : Nat) : Nat → State
  | 0 => s
  | fuel + 1 =>
    match s.feFirst w with
    | none => s
    | some r =>
      let s1 := { s with retries := dropFirst s.retries r }.tableOp r.table r.op r.origin
      let p := s1.homePerform r.op w r.data 0 [] (s.originOwner r.origin)
      ((p.2.2.lockFor r.origin r.op w r.data.toNat).answer (homeEnd (homeOf w)) r.origin { vals := p.1, trapWriter := p.2.1, addr := r.va, tag := r.tag }).feScan w fuel

/-- A waiting access still unserved after a scan: its failure count rises, and at 16 it is marked PARKING and its core is
ordered to save the strand (04 R87, R88). A watcher only waits. -/
def State.feCount (s : State) (w : Nat) : State :=
  let due := s.retries.filter (fun r => r.addr == w && !r.op.isWatch && !r.parking && decide (15 ≤ r.count))
  let s1 := { s with retries := s.retries.map fun r =>
    if r.addr = w then { r with count := r.count + 1, parking := r.parking || (!r.op.isWatch && decide (15 ≤ r.count)) }
    else r }
  due.foldl (fun (u : State) r =>
    match r.origin with
    | .slot id => if 65536 ≤ id then u else u.carry (u.gang (u.slot id).gang).job (homeEnd (homeOf w)) (id / 16) 1 (.parkSave id 0)
    | .remote m j t => u.send (.parkOrder m j t)) s1

/-- What follows a change of a word's FE bit (04 R87). -/
def State.feChanged (s : State) (w : Nat) : State :=
  let n := (s.retries.filter (fun r => r.addr == w)).length
  (s.feScan w (n + 1)).feCount w

/-- What a home does with an access. -/
inductive Served where
  | done (vals : List Word) (trapWriter : Bool) (s : State)
  | wait
  | refused (c : Cause)
  deriving DecidableEq, Repr

/-- The service of one access at its home, whose slice takes the line in, with everything a change of the FE bit sets off (04 R86 to R101). `isPrivate` is a
requester of a HEDGE or OPT task, which reads damaged data as it stands (25 R398). -/
def State.serve (s : State) (op : MemOp) (pa : Nat) (data data2 : Word) (acc : List Word) (own : Option Nat)
    (isPrivate : Bool) : Served :=
  let s := s.bringIn pa
  match s.homeRefusal op pa isPrivate with
  | some c => .refused c
  | none =>
    if op.servable (s.feBit pa) then
      let p := s.homePerform op pa data data2 acc own
      let changed := s.feBit pa != p.2.2.feBit pa
      .done p.1 p.2.1 (if changed then p.2.2.feChanged (wordAddr pa) else p.2.2)
    else .wait

/-! ## Answers at the core -/

/-- A cause from its code (23 R366). -/
def causeOfCode (n : Nat) : Cause :=
  match n with
  | 4 => .xlat
  | 5 => .prot
  | 12 => .detConflict
  | 14 => .uncorrectable
  | _ => .prot

/-- The trap of a refusal: a home's or a port's, or a walk's at another module with the level at which it failed (04 R414; 25 R386; log
98). -/
def Reply.trap (r : Reply) (code : Nat) : TrapInfo :=
  let c := causeOfCode code
  { cause := c, origin := if c = .xlat then 0 else 5, addr := r.addr, detail := r.level }

/-- A load's value, sign-extended where its form says so (04 R80). -/
def extend (ext : Nat) (v : Word) : Word := if ext = 0 then v else sextN v ext

/-- The answer to an access of a slot's strand completes its instruction: registers, acquire, L1, and the TRAPWRITER trap
after it; a refusal traps precisely (04 R414, R89; 05 R106; 07 R127, R129). -/
def State.deliver (s : State) (id : Nat) (f : InFlight) (r : Reply) : State :=
  let v := s.slot id
  match r.refusal with
  | some code =>
    let u := if code = Cause.uncorrectable.code ∧ r.addr = 0 then s.setGang v.gang { s.gang v.gang with uncorr := true } else s
    u.takeTrap id (r.trap code) v.pc
  | none =>
    match f.dst.bind (fun d => v.runBad d r.vals.length) with
    | some bad => s.takeTrap id { cause := .regwin, detail := bad } v.pc
    | none =>
      let vals := r.vals.map (extend f.ext)
      let v1 := match f.dst with
        | some d => v.wxs d.toNat vals
        | none => v
      let s1 := s.setSlot id { v1 with pc := v.pc + BitVec.ofNat 64 f.bytes, wait := .none, inFlight := none, lines := [] }
      let s2 := if f.acquire then s1.acquire (id / 16) else s1
      let s3 := match f.wrote with
        | some pa => s2.l1Atomic (id / 16) pa
        | none => if f.fill && (s2.drKind f.pa).isNone then s2.fillLine (id / 16) f.pa else s2
      if r.trapWriter then
        s3.takeTrap id { cause := .trapWriter, origin := 5, addr := r.addr, pa := if f.away then 2 ^ 65 else wordAddr f.pa }
          (v.pc + BitVec.ofNat 64 f.bytes)
      else s3

/-- The issuing strand is out of rotation: it issues next after 1 + ST rotations at the earliest (05 R106). -/
def State.leave (s : State) (st : BitVec 2) : State :=
  s.setMe { s.me with nextTick := s.base + 16 * (1 + st.toNat) * tickLen s.coreId }

/-- The answer to the issuing strand's access, in the step that issued it. -/
def State.reply (s : State) (f : InFlight) (r : Reply) : State := (s.leave f.st).deliver s.cur f r

/-- An entry of a log of 64: the stacks' UELOG under 0 to 15, the clusters' SRLOG from 16, the stacks' TRLOG, LANELOG and CELOG
from 144, 160 and 176. Beyond 64 the oldest is overwritten and the lost count rises (25 R400). -/
def State.logError (s : State) (ring : Nat) (e1 : Word) : State :=
  let e := (ring, s.stamp, e1)
  let l := s.logs ++ [e]
  if (s.logs.filter (fun x => x.1 == ring)).length < 64 then { s with logs := l }
  else match s.logs.find? (fun x => x.1 == ring) with
    | some x => { s with logs := dropFirst l x, logLost := tset s.logLost ring (tget s.logLost ring 0 + 1) }
    | none => { s with logs := l }
/-- The word e1 of an entry: KIND, PCH, LANE and the line's address (25 R400). -/
def logWord (kind pch lane line : Nat) : Word :=
  BitVec.ofNat 64 (kind * 2 ^ 60 + pch % 16 * 2 ^ 56 + lane % 256 * 2 ^ 48 + line % 2 ^ 48 / 64 * 64)
/-- An uncorrectable word of HBM is logged at its stack. -/
def State.logHbm (s : State) (pa : Nat) : State :=
  s.logError (stackOf pa) (logWord 3 (Config.pseudoChannel (lineAddr pa)) 0 pa)
/-- An uncorrectable word of a core's storage is logged at its cluster: PCH 0 local memory, 2 L1, 3 instruction cache, 4 register file,
5 accumulator (25 R400). -/
def State.logCore (s : State) (core kind pch : Nat) : State :=
  s.logError (16 + clusterOf core) (logWord kind pch 0 (core * 64))
/-- An uncorrectable word of a core's local memory is logged at its cluster. -/
def State.logLocal (s : State) (core : Nat) : State := s.logCore core 3 0

/-- A damaged word read by a strand of a HEDGE or OPT task marks its gang (25 R398). -/
def State.markDamageOf (s : State) (g : Nat) (op : MemOp) (pa : Nat) : State :=
  if (s.gang g).confined && op.reads && (op.span pa).any s.bad.contains then
    (s.logHbm pa).setGang g { s.gang g with uncorr := true }
  else s
def State.markDamage (s : State) (op : MemOp) (pa : Nat) : State := s.markDamageOf s.me.gang op pa

/-- The resume kind with which an access that waits at its home may be parked: FULL or EMPTY, whichever its mode waits for (04
R88). -/
def MemOp.parkKind : MemOp → Option Nat
  | .ldfe m | .stfe m => some (if m.needs = some false then 3 else 2)
  | _ => none

/-- A request of the issuing strand; a DRED.ACC with eight words is its second part (04 R99). -/
def State.request (s : State) (op : MemOp) (va data data2 : Word) (acc : List Word) : Request :=
  { op := op, late := op == .dred .acc && acc.length == 8, va := va, data := data, data2 := data2, acc := acc, job := s.myGang.job, tenant := s.myJob.tenant,
    inc := s.incarnation.toNat, origin := .slot s.cur }

/-- A request sent to another module under a fresh tag; the strand leaves rotation until the answer (22 R356). Without a way
there it waits (22 R355, R357). -/
def State.askRemote (s : State) (f : InFlight) (modul : Nat) (op : MemOp) (va data data2 : Word) (acc : List Word) : State :=
  if s.myJob.noPath modul then s.block (.groupFree modul)
  else
  let tag := s.fresh + 1
  let s1 := ({ s with fresh := tag }.send (.request modul tag (s.request op va data data2 acc))).leave f.st
  s1.setMe { s1.me with wait := .retry, inFlight := some { f with tag := tag, va := va, away := true, park := op.parkKind } }

/-- A request sent on the timed channel to a home or a core's port of this module (22 R354). -/
def State.askTimed (s : State) (f : InFlight) (dst : Nat) (op : MemOp) (va : Word) (pa : Nat) (data data2 : Word) (acc : List Word)
    (table : Bool := false) : State :=
  let tag := s.fresh + 1
  let r := { s.request op va data data2 acc with pa := some pa, tag := tag, table := table }
  let s1 := ({ s with fresh := tag }.carry r.job s.coreId dst (max 1 ((acc.length + 7) / 8)) (if isHbm pa then .homeRequest r else .portAccess r)).leave f.st
  let wrote := if op.registers && isHbm pa then some pa else none
  s1.setMe { s1.me with wait := .retry, inFlight := some { f with tag := tag, pa := pa, va := va, park := op.parkKind, wrote := wrote } }

/-- An access of the issuing strand to a home travels on the timed channel. -/
def State.timedHome (s : State) (pa : Nat) : Bool := s.isTimed s.myGang.job s.coreId (homeEnd (homeOf pa))
/-- An access of the issuing strand through another core's window port travels on the timed channel; the loop-back port is no
packet. -/
def State.timedPort (s : State) (c : Nat) : Bool := c != s.coreId && s.isTimed s.myGang.job s.coreId c

/-! ## Accesses at their homes -/


/-- An access of the issuing strand that its home serves and it waits for (04 R86 to R101, R414). -/
def State.atHome (s : State) (f : InFlight) (op : MemOp) (va : Word) (pa : Nat) (data data2 : Word) (acc : List Word)
    (table : Bool := false) : State :=
  match (s.tableOp table op (.slot s.cur)).serve op pa data data2 acc (some (s.ownerId s.coreId)) s.myGang.confined with
  | .refused c => (if c = .uncorrectable then s.logHbm pa else s).reply f { refusal := some c.code, addr := s.refusedAt op pa c va }
  | .done vals tw s0 =>
    let s1 := match op with
      | .stfe _ => s0.lockStore s.myGang.job s.me.index pa 8 data.toNat
      | _ => s0
    (s1.markDamage op pa).reply { f with wrote := if op.registers then some pa else none, pa := pa }
      { vals := vals, trapWriter := tw, addr := va }
  | .wait =>
    let w : Retry := { addr := wordAddr pa, origin := .slot s.cur, op := op, data := data, va := va, table := table }
    let s1 := { s.bringIn pa with retries := s.retries ++ [w] }
    let s2 := s1.leave f.st
    s2.setMe { s2.me with wait := .retry, inFlight := some { f with wrote := if op.registers then some pa else none, pa := pa,
                                                                    va := va, park := op.parkKind } }

/-- An access of the issuing strand, wherever its home is. -/
def State.homeAccess (s : State) (f : InFlight) (op : MemOp) (va : Word) (p : Place) (data data2 : Word)
    (acc : List Word) : State :=
  match p with
  | .hbm pa t =>
    if s.timedHome pa then s.askTimed f (homeEnd (homeOf pa)) op va pa data data2 acc t else s.atHome f op va pa data data2 acc t
  | .remote m => s.askRemote f m op va data data2 acc
  | _ => s

/-- What a home of this module does with a request of the slot's strand that has come by the timed channel: it serves it as it
serves one in the step of its issue, and answers (22 R354; 04 R86 to R101). A store is acknowledged, or refused as a posted write. -/
def State.serveTimed (s : State) (id pa : Nat) (r : Request) : State :=
  let g := (s.slot id).gang
  let src := homeEnd (homeOf pa)
  let posted := r.op.isStore
  if r.op == .dred .acc && !r.late && s.drKind pa == some .f64 then s.answer src r.origin { more := true, addr := r.va, tag := r.tag }
  else
  match (s.tableOp r.table r.op r.origin).serve r.op pa r.data r.data2 r.acc (some (s.ownerId (id / 16))) (!posted && (s.gang g).confined) with
  | .refused c =>
    (if c = .uncorrectable then s.logHbm pa else s).answer src r.origin
      { refusal := some c.code, addr := s.refusedAt r.op pa c r.va, posted := posted, tag := if posted then pa else r.tag }
  | .done vals tw s0 =>
    let s1 := match r.op with
      | .stfe _ | .store _ => s0.lockFor r.origin r.op pa r.data.toNat
      | .drinit _ => s0.drMarkedBy pa r.job
      | _ => s0
    if posted then s1.carry r.job src (id / 16) 1 (.storeAcknowledge id pa)
    else
      let s2 := s1.markDamageOf g r.op pa
      s2.answer src r.origin { vals := vals, trapWriter := tw, addr := r.va, tag := r.tag }
  | .wait =>
    { s.bringIn pa with retries := s.retries ++ [{ addr := wordAddr pa, origin := r.origin, op := r.op, data := r.data, va := r.va, tag := r.tag, table := r.table }] }

/-! ## Loads and stores -/

/-- A word of local memory that cannot be corrected (25 R399). -/
def State.damagedLocal (s : State) (pa n : Nat) : Bool := (MemOp.span (.load n) pa).any s.bad.contains

/-- UNCORRECTABLE of local memory, register file or accumulators: the gang is marked and the strand traps with ADDR 0
(25 R399). -/
def State.strandDamage (s : State) (id : Nat) : State :=
  let g := (s.slot id).gang
  (s.setGang g { s.gang g with uncorr := true }).takeTrap id { cause := .uncorrectable } (s.slot id).pc
/-- The same for a word of local memory, which is logged. -/
def State.localDamage (s : State) (id : Nat) : State := (s.logLocal (id / 16)).strandDamage id

/-- A core that a window access of the issuing strand reaches has passed to another tenant: its router refuses the packet (22 R353). -/
def State.foreign (s : State) (c : Nat) : Bool := c != s.coreId && !s.inTenant s.myJob.tenant c

/-- A load of n bytes by the issuing strand: from its bank or a port, from the L1 where the word is valid there, or from the
home, which fills the line unless it is a reduction line (04 R76, R80; 06 R119; 07 R127). One that may not read the L1 (LD.ACQ) leaves
its line there as it was (DESIGN CHOICE, log 92: 04 R82 does not say whether the home's answer fills it). -/
def State.doLoad (s : State) (f : InFlight) (n : Nat) (va : Word) (useL1 : Bool) : State :=
  s.reach n va .read false false fun p s =>
    let local_ := fun (pa : Nat) (s : State) =>
      if s.damagedLocal pa n then (s.logLocal ((windowCore pa).getD 0)).strandDamage s.cur
      else s.reply f { vals := [BitVec.ofNat 64 (memRead s.mem pa n)] }
    match p with
    | .ownMem pa => s.withBank pa (local_ pa)
    | .window pa c =>
      if s.foreign c then (s.countDrop c).reply f { refusal := some Cause.prot.code, addr := va }
      else if s.timedPort c || !s.portFree c pa then s.askTimed f c (.load n) va pa 0 0 []
      else local_ pa (s.portClaim c pa 0)
    | .hbm pa _ =>
      let held := if useL1 then (s.core (s.l1Core s.coreId pa)).l1Word pa else none
      if held.any (·.valid) then
        s.reply f { vals := [BitVec.ofNat 64 (bits ((held.map (·.data)).getD 0) (8 * (pa % 8)) (8 * n))] }
      else if s.timedHome pa then s.askTimed { f with fill := useL1 } (homeEnd (homeOf pa)) (.load n) va pa 0 0 []
      else (if useL1 && (s.drKind pa).isNone then s.fillLine s.coreId pa else s).atHome f (.load n) va pa 0 0 []
    | .remote m => s.askRemote f m (.load n) va 0 0 []
    | _ => s

/-- A store of the issuing strand's store path is on its way: it stays unacknowledged until its home or port answers (05 R107, 07
R133). -/
def State.posting (s : State) (key : Nat) : State := s.setMe { s.me with unacked := s.me.unacked ++ [(key, s.me.pc)] }
/-- A store that its home or port has performed: the acknowledgement is on its way. -/
def State.postAck (s : State) (key : Nat) : State := (s.posting key).soon (.storeAcknowledge s.cur key)

/-- A refused posted write is an asynchronous cause whose w5 holds the address of its instruction (04 R414). -/
def State.refusePosted (s : State) (id : Nat) (c : Cause) (va pc : Word) : State :=
  s.postAsync id { cause := c, origin := 5, addr := refusedAddr c va, opn := pc }

/-- n bytes of local memory written. -/
def State.localWrite (s : State) (pa v n : Nat) : State :=
  { (s.markLocal pa n) with mem := memWrite s.mem pa v n, bad := s.bad.filter (fun w => !(wordSpan pa n).contains w) }

/-- n bytes posted to a place by the issuing strand: performed at the home or port, then acknowledged; a DET job's travel there on
the timed channel (04 R80, R414; 22 R354). -/
def State.post (s : State) (p : Place) (va : Word) (n v : Nat) (words : List Word) : State :=
  let r := s.request (.store n) va (BitVec.ofNat 64 v) 0 words
  match p with
  | .ownMem pa => s.localWrite pa v n
  | .window pa c =>
    if s.foreign c then (s.countDrop c).refusePosted s.cur .prot va s.me.pc
    else if s.timedPort c || !s.portFree c pa then (s.posting pa).carry r.job s.coreId c 1 (.portAccess { r with pa := some pa })
    else ((s.portClaim c pa 0).localWrite pa v n).postAck pa
  | .hbm pa t =>
    if s.timedHome pa then
      ((s.l1Store s.coreId pa n v).posting pa).carry r.job s.coreId (homeEnd (homeOf pa)) 1
        (.homeRequest { r with pa := some pa, table := t })
    else
    match (s.tableWritten t s.myGang.job).serve (.store n) pa (BitVec.ofNat 64 v) 0 words (some (s.ownerId s.coreId)) false with
    | .done _ _ s1 =>
      (((s1.l1Store s.coreId pa n v).lockStore s.myGang.job s.me.index pa n (if n ≤ 8 then v else ofWords words))).postAck pa
    | .refused c => s.refusePosted s.cur c va s.me.pc
    | .wait => s
  | .remote m =>
    let key := 2 ^ 70 + s.fresh + 1
    ({ s with fresh := s.fresh + 1 }.send (.request m key { r with tag := key })).posting key
  | _ => s

/-- A store enters the issuing strand's store path, where it completes; with 8 stores unacknowledged it waits for one of them,
and a store to the private alias takes no place there (05 R107; 04 R80, R82). -/
def State.storeTo (s : State) (p : Place) (n : Nat) (va v : Word) (bytes : Nat) (st : BitVec 2) : State :=
  let put := fun (s : State) => (s.post p va n (v.toNat % 2 ^ (8 * n)) []).retire bytes st
  match p with
  | .ownMem pa => s.withBank pa put
  | .remote m =>
    if s.myJob.noPath m then s.block (.groupFree m)
    else if s.me.unacked.length < 8 then put s else s.block .storeRoom
  | _ => if s.me.unacked.length < 8 then put s else s.block .storeRoom

/-- A posted store of n bytes by the issuing strand (04 R80, R81). -/
def State.doStore (s : State) (n : Nat) (va v : Word) (bytes : Nat) (st : BitVec 2) : State :=
  s.reach n va .write false true fun p s => s.storeTo p n va v bytes st

/-- A release first waits until every earlier write of the strand is acknowledged (07 R133). -/
def State.released (s : State) (k : State → State) : State :=
  if s.me.unacked.isEmpty then k s else s.block .acked

end Sys2Proof.Machine
end

