-- ==== Sys2Proof/Machine/LoadStore.lean ====
section
/-! DEFINITION. Loads, stores, ordered accesses, fences, full-empty accesses, atomics, reduction lines, block move and
prefetch (04 R80 to R103). -/

namespace Sys2Proof.Machine

open Host

/-- The access of an instruction that fills registers from `d`. -/
def flight (d : Option (BitVec 7)) (ext bytes : Nat) (st : BitVec 2) (acquire : Bool) : InFlight :=
  { dst := d, ext := ext, bytes := bytes, st := st, acquire := acquire }

/-! ## Loads and stores (04 R80, R81) -/

/-- LdB (04 R80). -/
def execLdB (d a : BitVec 7) (o : BitVec 6) (st : BitVec 2) (s : State) : Outcome State Fault Refusal :=
  .next (s.guarded [d, a] fun s => s.doLoad (flight (some d) 8 4 st false) 1 (s.ea 1 a o) true)

/-- LdBU (04 R80). -/
def execLdBU (d a : BitVec 7) (o : BitVec 6) (st : BitVec 2) (s : State) : Outcome State Fault Refusal :=
  .next (s.guarded [d, a] fun s => s.doLoad (flight (some d) 0 4 st false) 1 (s.ea 1 a o) true)

/-- LdH (04 R80). -/
def execLdH (d a : BitVec 7) (o : BitVec 6) (st : BitVec 2) (s : State) : Outcome State Fault Refusal :=
  .next (s.guarded [d, a] fun s => s.doLoad (flight (some d) 16 4 st false) 2 (s.ea 2 a o) true)

/-- LdHU (04 R80). -/
def execLdHU (d a : BitVec 7) (o : BitVec 6) (st : BitVec 2) (s : State) : Outcome State Fault Refusal :=
  .next (s.guarded [d, a] fun s => s.doLoad (flight (some d) 0 4 st false) 2 (s.ea 2 a o) true)

/-- LdW (04 R80). -/
def execLdW (d a : BitVec 7) (o : BitVec 6) (st : BitVec 2) (s : State) : Outcome State Fault Refusal :=
  .next (s.guarded [d, a] fun s => s.doLoad (flight (some d) 32 4 st false) 4 (s.ea 4 a o) true)

/-- LdWU (04 R80). -/
def execLdWU (d a : BitVec 7) (o : BitVec 6) (st : BitVec 2) (s : State) : Outcome State Fault Refusal :=
  .next (s.guarded [d, a] fun s => s.doLoad (flight (some d) 0 4 st false) 4 (s.ea 4 a o) true)

/-- LdD (04 R80). -/
def execLdD (d a : BitVec 7) (o : BitVec 6) (st : BitVec 2) (s : State) : Outcome State Fault Refusal :=
  .next (s.guarded [d, a] fun s => s.doLoad (flight (some d) 0 4 st false) 8 (s.ea 8 a o) true)

/-- StB (04 R80). -/
def execStB (d a : BitVec 7) (o : BitVec 6) (st : BitVec 2) (s : State) : Outcome State Fault Refusal :=
  .next (s.guarded [d, a] fun s => s.doStore 1 (s.ea 1 a o) (s.rx d) 4 st)

/-- StH (04 R80). -/
def execStH (d a : BitVec 7) (o : BitVec 6) (st : BitVec 2) (s : State) : Outcome State Fault Refusal :=
  .next (s.guarded [d, a] fun s => s.doStore 2 (s.ea 2 a o) (s.rx d) 4 st)

/-- StW (04 R80). -/
def execStW (d a : BitVec 7) (o : BitVec 6) (st : BitVec 2) (s : State) : Outcome State Fault Refusal :=
  .next (s.guarded [d, a] fun s => s.doStore 4 (s.ea 4 a o) (s.rx d) 4 st)

/-- StD (04 R80). -/
def execStD (d a : BitVec 7) (o : BitVec 6) (st : BitVec 2) (s : State) : Outcome State Fault Refusal :=
  .next (s.guarded [d, a] fun s => s.doStore 8 (s.ea 8 a o) (s.rx d) 4 st)

/-- LDX (04 R81). -/
def execLdx (d a b : BitVec 7) (st : BitVec 2) (s : State) : Outcome State Fault Refusal :=
  .next (s.guarded [d, a, b] fun s => s.doLoad (flight (some d) 0 4 st false) 8 (s.rx a + s.rx b) true)

/-- STX (04 R81). -/
def execStx (d a b : BitVec 7) (st : BitVec 2) (s : State) : Outcome State Fault Refusal :=
  .next (s.guarded [d, a, b] fun s => s.doStore 8 (s.rx a + s.rx b) (s.rx d) 4 st)

/-- Short LD.D: offset 8 × zext(f3) (02 R43). -/
def execLdDShort (d a : BitVec 4) (o : BitVec 3) (s : State) : Outcome State Fault Refusal :=
  .next (s.guarded [short d, short a] fun s =>
    s.doLoad (flight (some (short d)) 0 2 0 false) 8 (s.rx (short a) + 8 * o.setWidth 64) true)

/-- Short ST.D: offset 8 × zext(f3) (02 R43). -/
def execStDShort (d a : BitVec 4) (o : BitVec 3) (s : State) : Outcome State Fault Refusal :=
  .next (s.guarded [short d, short a] fun s =>
    s.doStore 8 (s.rx (short a) + 8 * o.setWidth 64) (s.rx (short d)) 2 0)

/-! ## Ordered accesses and fences (04 R82 to R84) -/

/-- LD.ACQ: read at the home, never from the L1, then an acquire (04 R82). -/
def execLdAcq (d a : BitVec 7) (st : BitVec 2) (s : State) : Outcome State Fault Refusal :=
  .next (s.guarded [d, a] fun s => s.doLoad (flight (some d) 0 4 st true) 8 (s.rx a) false)

/-- ST.REL: a release, then a store the store path accepts (04 R82). -/
def execStRel (d a : BitVec 7) (st : BitVec 2) (s : State) : Outcome State Fault Refusal :=
  .next (s.guarded [d, a] fun s =>
    s.reach 8 (s.rx a) .write false true fun p s =>
      s.released fun s => s.storeTo p 8 (s.rx a) (s.rx d) 4 st)

/-- FENCE.ACQ (04 R83). -/
def execFenceAcq (st : BitVec 2) (s : State) : Outcome State Fault Refusal :=
  .next ((s.acquire s.coreId).retire 4 st)

/-- FENCE.REL (04 R83). -/
def execFenceRel (st : BitVec 2) (s : State) : Outcome State Fault Refusal :=
  .next (s.released fun s => s.retire 4 st)

/-- FENCE.FULL: FENCE.REL, then FENCE.ACQ (04 R83). -/
def execFenceFull (st : BitVec 2) (s : State) : Outcome State Fault Refusal :=
  .next (s.released fun s => (s.acquire s.coreId).retire 4 st)

/-- LBSYNC: the accesses it waits for have been performed in the steps that issued them (04 R84; log 12). -/
def execLbsync (st : BitVec 2) (s : State) : Outcome State Fault Refusal := .next (s.retire 4 st)

/-! ## Full-empty accesses (04 R86, R90) -/

/-- LDFE.FF: an acquire once served (04 R86; log 25). -/
def execLdfeFf (d a : BitVec 7) (st : BitVec 2) (s : State) : Outcome State Fault Refusal :=
  .next (s.guarded [d, a] fun s =>
    s.reach 8 (s.rx a) .read true false fun p s =>
      s.homeAccess (flight (some d) 0 4 st true) (.ldfe .ff) (s.rx a) p 0 0 [])

/-- LDFE.FE: an acquire once served (04 R86; log 25). -/
def execLdfeFe (d a : BitVec 7) (st : BitVec 2) (s : State) : Outcome State Fault Refusal :=
  .next (s.guarded [d, a] fun s =>
    s.reach 8 (s.rx a) .rmw true true fun p s =>
      s.homeAccess (flight (some d) 0 4 st true) (.ldfe .fe) (s.rx a) p 0 0 [])

/-- LDFE.EF: an acquire once served (04 R86; log 25). -/
def execLdfeEf (d a : BitVec 7) (st : BitVec 2) (s : State) : Outcome State Fault Refusal :=
  .next (s.guarded [d, a] fun s =>
    s.reach 8 (s.rx a) .rmw true true fun p s =>
      s.homeAccess (flight (some d) 0 4 st true) (.ldfe .ef) (s.rx a) p 0 0 [])

/-- STFE.FF: a release (04 R86; log 25). -/
def execStfeFf (d a : BitVec 7) (st : BitVec 2) (s : State) : Outcome State Fault Refusal :=
  .next (s.guarded [d, a] fun s =>
    s.reach 8 (s.rx a) .rmw true true fun p s =>
      s.released fun s => s.homeAccess (flight none 0 4 st false) (.stfe .ff) (s.rx a) p (s.rx d) 0 [])

/-- STFE.FE: a release (04 R86; log 25). -/
def execStfeFe (d a : BitVec 7) (st : BitVec 2) (s : State) : Outcome State Fault Refusal :=
  .next (s.guarded [d, a] fun s =>
    s.reach 8 (s.rx a) .rmw true true fun p s =>
      s.released fun s => s.homeAccess (flight none 0 4 st false) (.stfe .fe) (s.rx a) p (s.rx d) 0 [])

/-- STFE.EF: a release (04 R86; log 25). -/
def execStfeEf (d a : BitVec 7) (st : BitVec 2) (s : State) : Outcome State Fault Refusal :=
  .next (s.guarded [d, a] fun s =>
    s.reach 8 (s.rx a) .rmw true true fun p s =>
      s.released fun s => s.homeAccess (flight none 0 4 st false) (.stfe .ef) (s.rx a) p (s.rx d) 0 [])

/-- STFE.XF: a release (04 R86; log 25). -/
def execStfeXf (d a : BitVec 7) (st : BitVec 2) (s : State) : Outcome State Fault Refusal :=
  .next (s.guarded [d, a] fun s =>
    s.reach 8 (s.rx a) .rmw true true fun p s =>
      s.released fun s => s.homeAccess (flight none 0 4 st false) (.stfe .xf) (s.rx a) p (s.rx d) 0 [])

/-- FEQ (04 R90). -/
def execFeq (d a : BitVec 7) (st : BitVec 2) (s : State) : Outcome State Fault Refusal :=
  .next (s.guarded [d, a] fun s =>
    s.reach 8 (s.rx a) .read true false fun p s =>
      s.homeAccess (flight (some d) 0 4 st false) .feq (s.rx a) p 0 0 [])

/-- FESET.E (04 R90). -/
def execFesetE (a : BitVec 7) (st : BitVec 2) (s : State) : Outcome State Fault Refusal :=
  .next (s.guarded [a] fun s =>
    s.reach 8 (s.rx a) .write true true fun p s =>
      s.homeAccess (flight none 0 4 st false) (.feset false) (s.rx a) p 0 0 [])

/-- FESET.F (04 R90). -/
def execFesetF (a : BitVec 7) (st : BitVec 2) (s : State) : Outcome State Fault Refusal :=
  .next (s.guarded [a] fun s =>
    s.reach 8 (s.rx a) .write true true fun p s =>
      s.homeAccess (flight none 0 4 st false) (.feset true) (s.rx a) p 0 0 [])

/-! ## Atomics (04 R92 to R95): releases, served at the home -/

/-- An atomic on n bytes at x[A] with operand x[B] and, for CAS, the expected value x[D]. -/
def State.atomic (s : State) (op : MemOp) (n : Nat) (d a b : BitVec 7) (st : BitVec 2) : State :=
  s.guarded [d, a, b] fun s =>
    s.reach n (s.rx a) .rmw true true fun p s =>
      s.released fun s => s.homeAccess (flight (some d) 0 4 st false) op (s.rx a) p (s.rx b) (s.rx d) []

/-- ATOM.ADD (04 R92). -/
def execAtomAdd (d a b : BitVec 7) (st : BitVec 2) (s : State) : Outcome State Fault Refusal :=
  .next (s.atomic (.atom .add) 8 d a b st)

/-- ATOM.AND (04 R92). -/
def execAtomAnd (d a b : BitVec 7) (st : BitVec 2) (s : State) : Outcome State Fault Refusal :=
  .next (s.atomic (.atom .and) 8 d a b st)

/-- ATOM.OR (04 R92). -/
def execAtomOr (d a b : BitVec 7) (st : BitVec 2) (s : State) : Outcome State Fault Refusal :=
  .next (s.atomic (.atom .or) 8 d a b st)

/-- ATOM.XOR (04 R92). -/
def execAtomXor (d a b : BitVec 7) (st : BitVec 2) (s : State) : Outcome State Fault Refusal :=
  .next (s.atomic (.atom .xor) 8 d a b st)

/-- ATOM.MIN (04 R92). -/
def execAtomMin (d a b : BitVec 7) (st : BitVec 2) (s : State) : Outcome State Fault Refusal :=
  .next (s.atomic (.atom .min) 8 d a b st)

/-- ATOM.MAX (04 R92). -/
def execAtomMax (d a b : BitVec 7) (st : BitVec 2) (s : State) : Outcome State Fault Refusal :=
  .next (s.atomic (.atom .max) 8 d a b st)

/-- ATOM.MINU (04 R92). -/
def execAtomMinu (d a b : BitVec 7) (st : BitVec 2) (s : State) : Outcome State Fault Refusal :=
  .next (s.atomic (.atom .minu) 8 d a b st)

/-- ATOM.MAXU (04 R92). -/
def execAtomMaxu (d a b : BitVec 7) (st : BitVec 2) (s : State) : Outcome State Fault Refusal :=
  .next (s.atomic (.atom .maxu) 8 d a b st)

/-- ATOM.SWAP (04 R92). -/
def execAtomSwap (d a b : BitVec 7) (st : BitVec 2) (s : State) : Outcome State Fault Refusal :=
  .next (s.atomic (.atom .swap) 8 d a b st)

/-- CAS (04 R93). -/
def execCas (d a b : BitVec 7) (st : BitVec 2) (s : State) : Outcome State Fault Refusal :=
  .next (s.atomic .cas 8 d a b st)

/-- FATOM.ADD.F32 (04 R94). -/
def execFatomAddF32 (d a b : BitVec 7) (st : BitVec 2) (s : State) : Outcome State Fault Refusal :=
  .next (s.atomic .fadd32 4 d a b st)

/-- FATOM.ADD.F64 (04 R94). -/
def execFatomAddF64 (d a b : BitVec 7) (st : BitVec 2) (s : State) : Outcome State Fault Refusal :=
  .next (s.atomic .fadd64 8 d a b st)

/-! ## Reduction lines (04 R97 to R101) -/

/-- DRINIT of a kind (04 R97); the line's job is recorded for JOB_CLOSE (04 R96). -/
def State.drInit (s : State) (k : DrKind) (a : BitVec 7) (st : BitVec 2) : State :=
  s.guarded [a] fun s =>
    s.reach 64 (s.rx a) .write true true fun p s =>
      let s1 := s.homeAccess (flight none 0 4 st false) (.drinit k) (s.rx a) p 0 0 []
      match p with
      | .hbm pa _ => if s.timedHome pa then s1 else s1.drMarkedBy pa s.myGang.job
      | _ => s1

/-- DRINIT.F32 (04 R97). -/
def execDrinitF32 (a : BitVec 7) (st : BitVec 2) (s : State) : Outcome State Fault Refusal := .next (s.drInit .f32 a st)

/-- DRINIT.F64 (04 R97). -/
def execDrinitF64 (a : BitVec 7) (st : BitVec 2) (s : State) : Outcome State Fault Refusal := .next (s.drInit .f64 a st)

/-- DRED of one addend (04 R98). -/
def State.dRed (s : State) (f : DrFmt) (d a : BitVec 7) (st : BitVec 2) : State :=
  s.guarded [d, a] fun s =>
    s.reach 64 (s.rx a) .rmw true true fun p s =>
      s.homeAccess (flight none 0 4 st false) (.dred f) (s.rx a) p (s.rx d) 0 []

/-- DRED.F32 (04 R98). -/
def execDredF32 (d a : BitVec 7) (st : BitVec 2) (s : State) : Outcome State Fault Refusal := .next (s.dRed .f32 d a st)

/-- DRED.BF16 (04 R98). -/
def execDredBf16 (d a : BitVec 7) (st : BitVec 2) (s : State) : Outcome State Fault Refusal := .next (s.dRed .bf16 d a st)

/-- DRED.F64 (04 R98). -/
def execDredF64 (d a : BitVec 7) (st : BitVec 2) (s : State) : Outcome State Fault Refusal := .next (s.dRed .f64 d a st)

/-- The registers that DRED.ACC first sends to a place: eight where the home, served in this step, names an F64 line, else five
(04 R99). -/
def State.accRegs (s : State) (p : Place) : Nat :=
  match p with
  | .hbm pa _ => if s.timedHome pa then 5 else ((s.drKind pa).map DrKind.regs).getD 5
  | _ => 5

/-- DRED.ACC: D+4 is checked at issue, D+7 once the home names an F64 line (04 R99). -/
def execDredAcc (d a : BitVec 7) (st : BitVec 2) (s : State) : Outcome State Fault Refusal :=
  .next (s.guardedRun d 5 [a] fun s =>
    s.reach 64 (s.rx a) .rmw true true fun p s =>
      match s.me.runBad d (s.accRegs p) with
      | some f => s.trapHere { cause := .regwin, detail := f }
      | none => s.homeAccess { flight none 0 4 st false with more := some d } (.dred .acc) (s.rx a) p 0 0
          (s.me.rxs d.toNat (s.accRegs p)))

/-- DREAD: it first waits until every earlier DRED and store of the strand is acknowledged (04 R100). -/
def State.dRead (s : State) (f : DrFmt) (d a : BitVec 7) (st : BitVec 2) : State :=
  s.reach 64 (s.rx a) .read true false fun p s =>
    s.released fun s => s.homeAccess (flight (some d) 0 4 st false) (.dread f) (s.rx a) p 0 0 []

/-- DREAD.F32 (04 R100). -/
def execDreadF32 (d a : BitVec 7) (st : BitVec 2) (s : State) : Outcome State Fault Refusal :=
  .next (s.guarded [d, a] fun s => s.dRead .f32 d a st)

/-- DREAD.BF16 (04 R100). -/
def execDreadBf16 (d a : BitVec 7) (st : BitVec 2) (s : State) : Outcome State Fault Refusal :=
  .next (s.guarded [d, a] fun s => s.dRead .bf16 d a st)

/-- DREAD.F64 (04 R100). -/
def execDreadF64 (d a : BitVec 7) (st : BitVec 2) (s : State) : Outcome State Fault Refusal :=
  .next (s.guarded [d, a] fun s => s.dRead .f64 d a st)

/-- DREAD.ACC: the register check is made as in DRED.ACC (04 R100). -/
def execDreadAcc (d a : BitVec 7) (st : BitVec 2) (s : State) : Outcome State Fault Refusal :=
  .next (s.guardedRun d 5 [a] fun s => s.dRead .acc d a st)

/-! ## Prefetch (04 R103) and its walks (25 R393) -/

/-- The line at an address translated by a leaf comes into the L1; anything else drops the request (04 R103). -/
def State.prefLine (s : State) (core job : Nat) (va : Word) (leaf : Word) (level : Nat) : State :=
  match s.leafPlace job (va.toNat % 2 ^ 48) .read leaf level with
  | .hbm pa _ => if (s.drKind pa).isNone then s.fillLine core pa else s
  | _ => s

/-- A TLB entry for an address, from the core's TLB or its cluster's. -/
def State.tlbHit (s : State) (core job va : Nat) : Option TlbEntry :=
  match tlbFind (s.core core).tlb job va with
  | some e => some e
  | none => tlbFind (s.cluster (clusterOf core)).tlb job va

/-- A request joins the walk of its page, or starts one; with 32 walks running, or 4,096 requests in the walk's list, it waits for a place (25
R393). -/
def State.joinWalk (s : State) (core job : Nat) (va : Word) : State :=
  let cl := clusterOf core
  let c := s.cluster cl
  let page := va.toNat % 2 ^ 48 / 65536
  match c.walks.find? (fun w => w.job == job && w.page == page) with
  | some w =>
    if w.waiters.length < 4096 then
      s.setCluster cl { c with walks := c.walks.map fun x => if x = w then { x with waiters := x.waiters ++ [(core, va)] } else x }
    else s.setCluster cl { c with walkWait := c.walkWait ++ [(job, core, va)] }
  | none =>
    if c.walks.length < 32 then
      (s.setCluster cl { c with walks := c.walks ++ [{ job := job, page := page, waiters := [(core, va)] }] }).soon
        (.tlbWalkComplete cl)
    else s.setCluster cl { c with walkWait := c.walkWait ++ [(job, core, va)] }
/-- The requests that wait for a place ask again, oldest first (25 R393). -/
def State.walkPlaces (s : State) (cl : Nat) : State :=
  (s.cluster cl).walkWait.foldl (fun (u : State) p => u.joinWalk p.2.1 p.1 p.2.2) (s.setCluster cl { s.cluster cl with walkWait := [] })

/-- PREF: a line of this module's HBM asked into the L1; it never traps but under REGWIN (04 R103). -/
def State.prefetch (s : State) (va : Word) : State :=
  let job := s.myGang.job
  let a := s.myJob.ordinary va.toNat
  if a < 0x200000 ∨ a / 2 ^ 48 ≠ 0 then s
  else
    match s.tlbHit s.coreId job (a % 2 ^ 48) with
    | some e => s.prefLine s.coreId job va e.leaf e.level
    | none => s.joinWalk s.coreId job va

/-- PREF: no early register traps (04 R103). -/
def execPref (a : BitVec 7) (st : BitVec 2) (s : State) : Outcome State Fault Refusal :=
  .next (match s.me.badReg [a] with
    | some r => s.trapHere { cause := .regwin, detail := r.toNat }
    | none => (s.prefetch (s.rx a)).retire 4 st)

/-! ## Block move (04 R102) -/

/-- A range of bytes cut at 8-byte boundaries: each piece's address and length. -/
def pieces : Nat → Word → Nat → List (Word × Nat)
  | 0, _, _ => []
  | fuel + 1, va, k =>
    if k = 0 then []
    else
      let n := min k (8 - va.toNat % 8)
      (va, n) :: pieces fuel (va + BitVec.ofNat 64 n) (k - n)

/-- What a step of a block move finds at an address. -/
inductive Piece where
  | got (bs : List Byte) (s : State)
  | fault (t : TrapInfo)
  | remote (modul : Nat)
  | timed (pa : Nat)
  deriving DecidableEq, Repr

/-- A read piece of a block move, as an ordinary load (04 R102); a word of HBM that a DET job's packet must ask for is asked like
one of another module. -/
def State.readPiece (s : State) (va : Word) (n : Nat) : Piece :=
  match s.translate s.coreId s.myGang.job va .read with
  | .xlat l => .fault { cause := .xlat, addr := va, detail := l }
  | .prot => .fault { cause := .prot, addr := va }
  | .remote m => .remote m
  | .ownMem pa => if s.damagedLocal pa n then .fault { cause := .uncorrectable } else .got (memBytes s.mem pa n) s
  | .window pa c =>
    if s.foreign c then .fault { cause := .prot, origin := 5, addr := va }
    else if s.timedPort c then .timed pa
    else if s.damagedLocal pa n then .fault { cause := .uncorrectable }
    else .got (memBytes s.mem pa n) s
  | .hbm pa _ =>
    let s1 := s.fillTlb s.coreId s.myGang.job va
    let w := (s1.core (s1.l1Core s1.coreId pa)).l1Word pa
    if (w.map (·.valid)).getD false then
      .got (toBytes (bits ((w.map (·.data)).getD 0) (8 * (pa % 8)) (8 * n)) n) s1
    else if s1.timedHome pa then .timed pa
    else
      match s1.serve (.load n) pa 0 0 [] none s1.myGang.confined with
      | .done vals _ s2 =>
        let s3 := if (s2.drKind pa).isNone then s2.fillLine s2.coreId pa else s2
        .got (toBytes (ofWords vals) n) (s3.markDamage (.load n) pa)
      | .refused c => .fault { cause := c, origin := 5, addr := refusedAddr c va }
      | .wait => .got [] s1

/-- The lines of local memory that pieces of the issuing strand read take their banks, at its own core or through a port, in this cycle; none
where a line loses its bank (06 R118, R119). -/
def State.pieceBanks (s : State) (l : List (Word × Nat)) : Option State :=
  let places := l.filterMap fun p =>
    match s.translate s.coreId s.myGang.job p.1 .read with
    | .ownMem pa => some (lineAddr pa, none)
    | .window pa c => if s.timedPort c then none else some (lineAddr pa, some c)
    | _ => none
  places.eraseDups.foldl (fun (u : Option State) p => u.bind fun u =>
    match p.2 with
    | none => u.winBank p.1
    | some c => if u.portFree c p.1 then some (u.portClaim c p.1 0) else none) (some s)

/-- All the read pieces of an operand: its bytes, or what stops it (13 R234). -/
def State.readPieces (s : State) : List (Word × Nat) → List Byte → Piece
  | [], acc => .got acc s
  | (va, n) :: r, acc =>
    match s.readPiece va n with
    | .got bs s1 => s1.readPieces r (acc ++ bs)
    | other => other

/-- The first write piece that translation, protection or R78 refuses. -/
def State.writeFault (s : State) (l : List (Word × Nat)) : Option TrapInfo :=
  l.findSome? fun p =>
    match s.translate s.coreId s.myGang.job p.1 .write with
    | .xlat lv => some { cause := .xlat, addr := p.1, detail := lv }
    | .prot => some { cause := .prot, addr := p.1 }
    | q => if s.mayWrite q then none else some { cause := .prot, addr := p.1 }

/-- The current slot waits for the next action of its block move. -/
def State.bmovAt (s : State) (v : Slot) (t : Nat) : State :=
  (s.setMe { v with wait := .bmov, stepAt := t }).schedule t (.bmovStep s.cur)

/-- A fabric address of another module (22 R355). -/
def Job.away (j : Job) (va : Word) : Bool := bits va 48 12 != 0 && bits va 48 12 != j.self
/-- One that packets of the job cannot reach for now (22 R355, R357). -/
def Job.cutOff (j : Job) (va : Word) : Bool := j.away va && j.noPath (bits va 48 12)

/-- Bytes that the next step of a block move moves. -/
def bmovBytes (d b : Word) : Nat := min b.toNat (64 - d.toNat % 64)

/-- The write pieces of a step, posted in ascending order, as far as the store path accepts them: the bytes posted so far, and
the state (04 R102; 05 R107). -/
def State.writePieces (s : State) : List (Word × Nat) → List Byte → Nat → Nat × State
  | [], _, done => (done, s)
  | (va, n) :: r, bs, done =>
    if 8 ≤ s.me.unacked.length || s.myJob.cutOff va then (done, s)
    else
      ((s.fillTlb s.coreId s.myGang.job va).post (s.translate s.coreId s.myGang.job va .write) va n
        (ofBytes (bs.take n)) [BitVec.ofNat 64 (ofBytes (bs.take n))]).writePieces r (bs.drop n) (done + n)

/-- The line of its own core's local memory that a step writes takes a place at its bank from this cycle on, with a scalar access's rank (06
R118, R119; log 85). -/
def State.bmovLine (s : State) (va : Word) : State :=
  match s.translate s.coreId s.myGang.job va .write with
  | .ownMem pa => s.claim s.coreId { bank := bankOf pa, cycle := s.cycleFrom s.coreId, rank := s.scalarRank, owner := ownerScalar }
  | _ => s

/-- The second half of a step, once all its bytes are read: its writes, then the progress of D, A and B; the last step completes
the instruction. While the store path is full the rest of the writes waits (04 R102). -/
def State.bmovWrite (s : State) (d a b : BitVec 7) : State :=
  let bs := s.me.bread
  let done := s.me.bput
  let at_ := s.rx d + BitVec.ofNat 64 done
  let w := pieces 10 at_ (bs.length - done)
  let s := if done = 0 then s.bmovLine (s.rx d) else s
  match if done = 0 then s.writeFault w else none with
  | some t => s.trapHere t
  | none =>
    let r := s.writePieces w (bs.drop done) done
    let s1 := r.2
    if r.1 < bs.length then s1.bmovAt { s1.me with bput := r.1 } (s1.now + tickLen s1.coreId)
    else
      let kk : Word := BitVec.ofNat 64 bs.length
      let v := { ((s1.me.wx d (s1.rx d + kk)).wx a (s1.rx a + kk)).wx b (s1.rx b - kk) with bread := [], bput := 0 }
      if v.rx b = 0 then s1.setMe { v with pc := v.pc + 4, wait := .none, rep := none }
      else
        let s2 := s1.bmovAt v (s1.now + tickLen s1.coreId)
        if v.pending ≠ [] ∧ v.mode = false then s2.soon (.asyncTrapRaise s2.cur) else s2

/-- The stall count of the block move in progress. -/
def State.bmovSt (s : State) : BitVec 2 :=
  match s.me.rep with
  | some (.bmov _ _ _ st, _) => st
  | _ => 0
/-- The reads of a step of a block move by the current slot, piece by piece; a piece of another module, or one that a DET job asks
for by a packet, is asked for, and its bytes join those read (04 R102). -/
def State.bmovRead (s : State) (d a b : BitVec 7) : List (Word × Nat) → State
  | [] => s.bmovWrite d a b
  | (va, n) :: r =>
    match s.readPiece va n with
    | .got bs s1 => (s1.setMe { s1.me with bread := s1.me.bread ++ bs }).bmovRead d a b r
    | .fault t => if t.cause = .uncorrectable ∧ t.addr = 0 then s.localDamage s.cur else s.trapHere t
    | .remote m => s.askRemote { bmov := true, st := s.bmovSt } m (.load n) va 0 0 []
    | .timed pa =>
      s.askTimed { bmov := true, fill := true, st := s.bmovSt } ((windowCore pa).getD (homeEnd (homeOf pa))) (.load n) va pa 0 0 []

/-- The bytes that the step in progress has not read yet. -/
def State.bmovPieces (s : State) (d a b : BitVec 7) : List (Word × Nat) :=
  let have_ := s.me.bread.length
  pieces 10 (s.rx a + BitVec.ofNat 64 have_) (bmovBytes (s.rx d) (s.rx b) - have_)

/-- One step of a block move by the current slot: its reads first (04 R102). A step that loses a bank tries again in the next cycle, with a
scalar access's rank and its bound on losses (DESIGN CHOICE, log 85: 06 R119 does not name BMOV). -/
def State.bmovStep (s : State) (d a b : BitVec 7) : State :=
  let l := s.bmovPieces d a b
  if s.me.bput ≠ 0 then s.bmovWrite d a b
  else if s.myJob.cutOff (s.rx d) || s.myJob.cutOff (s.rx a) then s.bmovAt s.me (s.now + usTicks)
  else match s.pieceBanks l with
    | none => s.bmovAt { s.me with losses := s.me.losses + 1 } (s.cycleTick s.coreId (s.cycleOf s.coreId + 1))
    | some s1 => (s1.setMe { s1.me with losses := 0 }).bmovRead d a b l

/-- BMOV: D, A and B must be three different registers; a count of 0 makes no access (04 R102). -/
def execBmov (d a b : BitVec 7) (st : BitVec 2) (s : State) : Outcome State Fault Refusal :=
  .next (s.guarded [d, a, b] fun s =>
    if d = a ∨ d = b ∨ a = b then s.trapHere { cause := .illegal }
    else if s.rx b = 0 then s.retire 4 st
    else
      let s1 := s.leave st
      s1.bmovAt { s1.me with rep := some (.bmov d a b st, b), bread := [], bput := 0, issuedAt := some s.base } (s.now + tickLen s.coreId))

end Sys2Proof.Machine
end

