-- ==== Sys2Proof/Machine/Engine.lean ====
section
/-! DEFINITION. A core's matrix engine as a unit: gating and waking (06 R123, R124; 12 R230), the twin licence (10 R207,
R208; 12 R227, R229), and how an engine drops a gang's work (10 R210). -/

namespace Sys2Proof.Machine

open Host

def State.eng (s : State) (c : Nat) : Engine := (s.core c).eng
def State.setEng (s : State) (c : Nat) (e : Engine) : State := s.setCore c { s.core c with eng := e }

/-! ## The idle count (12 R230) -/

/-- A follow-on in STATE 4 on a copy channel of the core. -/
def Core.followOnWaits (c : Core) : Bool := c.copies.any (fun k => k.state == .followOnPending && k.fo.isSome)
/-- Nothing of R230's list is present in the engine. A follow-on whose copy has not completed counts as an operation of its stream (DEDUCED, log
89: R198 gives it its number at the copy's issue, while R230 also names a follow-on in STATE 4). -/
def Core.engineIdle (c : Core) : Bool :=
  c.eng.ops.isEmpty && c.eng.arrayBusy.isNone && c.eng.portBusy.isNone && !c.followOnWaits

/-- An awake engine begins its idle count again: it would gate after IDLE_GATE cycles (06 R123). -/
def State.restartIdle (s : State) (c : Nat) : State :=
  match (s.eng c).gate with
  | .awake => (s.setEng c { s.eng c with idleSince := s.now }).schedule
      (s.now + (s.eng c).idleGate * tickLen c) (.engineGate c)
  | _ => s

/-- The count runs from now if the engine has just become idle. -/
def State.ifIdle (s : State) (c : Nat) : State := if (s.core c).engineIdle then s.restartIdle c else s

/-! ## Waking (06 R124) -/

/-- A core's engine joins its cluster's in-rush queue. -/
def State.joinInrush (s : State) (c : Nat) : State :=
  let cl := clusterOf c
  let k := s.cluster cl
  let s1 := s.setEng c { s.eng c with gate := .queued, wakeWanted := false }
  (s1.setCluster cl { k with inrush := k.inrush ++ [c] }).schedule (max s.now k.inrushFree) (.inrushAdmission cl)

/-- A request to wake an engine: it joins the queue at once, or when the break-even hold expires; a waking engine goes on,
and an awake one restarts its idle count. -/
def State.wakeEngine (s : State) (c : Nat) : State :=
  match (s.eng c).gate with
  | .gated until_ =>
    if until_ ≤ s.now then s.joinInrush c else s.setEng c { s.eng c with wakeWanted := true }
  | .queued | .waking => s
  | .awake => s.restartIdle c

def Engine.isAwake (e : Engine) : Bool := e.gate == .awake

/-! ## The licence (10 R207; 12 R227, R229) -/

/-- The layer of a core as the licence names it: false root, true crown. -/
def layerOf (c : Nat) : Bool := coreZ c == 1
/-- The core of a pair at a layer. -/
def pairCore (p : Nat) (crown : Bool) : Nat := if crown then p + 512 else p
/-- The engine holds its pair's licence. -/
def State.holdsLicence (s : State) (c : Nat) : Bool := (s.pair (pairOf c)).holder == some (layerOf c)
/-- An operation whose operands are gathered. -/
def MxOp.isGathered (o : MxOp) : Bool :=
  match o.stage with
  | .gathered _ => true
  | _ => false

/-- The licence goes to a layer of a pair, whose array may begin at tick t. -/
def State.grant (s : State) (p : Nat) (crown : Bool) (t : Nat) : State :=
  let c := pairCore p crown
  let s1 := s.setPair p { s.pair p with holder := some crown, freeAt := t, granted := none }
  (s1.setEng c { s1.eng c with request := none }).schedule (max s.now t) (.arrayStart c)

/-- The last tick of a core's present cycle. -/
def State.cycleLast (s : State) (c : Nat) : Nat := s.cycleTick c (s.cycleOf c + 1) - 1
/-- A parked licence goes to a requester: to the root at once, to the crown by the end of the cycle, in which the root may still ask (10
R207). -/
def State.grantParked (s : State) (p : Nat) (crown : Bool) : State :=
  let u := s.grant p crown (s.pair p).freeAt
  if crown then (u.setPair p { u.pair p with granted := some s.now }).schedule (s.cycleLast (pairCore p true)) (.arrayStart (pairCore p true))
  else u
/-- The crown's parked licence of this cycle is not yet settled. -/
def State.unsettled (s : State) (p : Nat) : Bool :=
  match (s.pair p).granted with
  | some t => (s.pair p).holder == some true && s.cycleOf p == (t - s.startOf p) / tickLen p && (s.eng (pairCore p true)).arrayBusy.isNone
  | none => false

/-- The request of an engine that the licence may pass to: none while a migration or a HALTC empties its core (25 R396). -/
def State.asks (s : State) (c : Nat) : Option Nat := if (s.core c).migrating || (s.core c).halted then none else (s.eng c).request
/-- The tick at which a holder with its hold set gives way to a request (10 R207). -/
def State.quantum (s : State) (c t : Nat) : Nat := s.cycleTick c ((t - s.startOf c) / tickLen c + 4096)
/-- A holder with its hold set is looked at again when its twin's request is 4,096 cycles old (10 R207). -/
def State.watchHold (s : State) (p : Nat) : State :=
  match (s.pair p).holder with
  | some crown =>
    let c := pairCore p crown
    match s.asks (twinOf c) with
    | some t => if (s.eng c).hold then s.scheduleOnce (max s.now (s.quantum c t)) (.holdQuantumExpiry c) else s
    | none => s
  | none => s

/-- The holder passes the licence to its twin at a boundary in the present cycle: no array runs for 15 cycles, and a holder
with gathered operands asks back (12 R227). -/
def State.passLicence (s : State) (p : Nat) (crown : Bool) : State :=
  let c := pairCore p crown
  let s1 := s.grant p (!crown) (s.cycleTick c (s.cycleOf c + 16))
  if (s1.eng c).ops.any (·.isGathered) && (s1.eng c).isAwake then
    (s1.setEng c { s1.eng c with request := some s.now }).watchHold p
  else s1

/-- An operation of the array. -/
def MxOp.isArray (o : MxOp) : Bool := o.kind == .mxop || o.kind == .followOn
/-- The stream of an operation stands before that of another: lower number, an operation without a number last. -/
def MxOp.before (a b : MxOp) : Bool := a.num != 0 && (b.num == 0 || decide (a.num < b.num))
/-- The operation at the head of its stream. -/
def Engine.isHead (e : Engine) (o : MxOp) : Bool := !(e.ops.any fun p => p.slot == o.slot && p.gang == o.gang && p.before o)
/-- The accumulators of an operation are not in use by one that has started. -/
def Engine.tilesFree (e : Engine) (o : MxOp) : Bool :=
  !(e.ops.any fun p => p.stage == .running && p.tiles.any o.tiles.contains)
/-- Gathered operations that the array may take (12 R217): one whose accumulator an operation of the port is using is passed over for the next
(DESIGN CHOICE, log 104: R217's choice names only the end of the gather). -/
def Engine.canRun (e : Engine) : List MxOp := e.ops.filter fun o => o.isArray && o.isGathered && e.isHead o && e.tilesFree o

/-- A holder that waits for the end of a hand-over to run its operation keeps the licence until then (12 R227). -/
def State.mayBegin (s : State) (p : Nat) (c : Nat) : Bool :=
  (s.eng c).isAwake && decide (s.now ≤ (s.pair p).freeAt) && !(s.eng c).canRun.isEmpty

/-- The licence of a pair after any change: the holder at a boundary parks it in a withheld interval or passes it to a twin
that asks, unless its hold keeps it; a parked licence goes to a requester, the root first (10 R207; 12 R227, R229). -/
def State.settleLicence (s : State) (p : Nat) : State :=
  let r := s.pair p
  match r.holder with
  | some crown =>
    let c := pairCore p crown
    if (s.eng c).arrayBusy.isSome then s
    else if r.withheld then s.setPair p { r with holder := none }
    else
      match s.asks (twinOf c) with
      | some t =>
        if s.mayBegin p c then s
        else if (s.eng c).isAwake ∧ (s.eng c).hold ∧ s.now < s.quantum c t then s.watchHold p else s.passLicence p crown
      | none => if (s.eng c).isAwake then s else s.setPair p { r with holder := none }
  | none =>
    if r.withheld then s
    else if (s.asks (pairCore p false)).isSome then s.grantParked p false
    else if (s.asks (pairCore p true)).isSome then s.grantParked p true
    else s

/-- An engine registers a request, unless it holds the licence or has asked already (12 R227). A parked licence that its crown twin
asked for in the same cycle goes to the root, and the crown's request stands (10 R207). -/
def State.requestLicence (s : State) (c : Nat) : State :=
  let p := pairOf c
  if s.holdsLicence c then s.schedule (max s.now (s.pair p).freeAt) (.arrayStart c)
  else if (s.eng c).request.isSome then s
  else
    let s1 := s.setEng c { s.eng c with request := some s.now }
    if layerOf c = false ∧ s.unsettled p then
      (s1.setEng (twinOf c) { s1.eng (twinOf c) with request := some s.now }).grant p false (s.pair p).freeAt
    else (s1.settleLicence p).watchHold p

/-- A core gives up a licence whose array is idle: it passes to a twin that asks and is not being emptied, or parks (10 R208; 23 R372 step
2; 25 R396). -/
def State.leaveLicence (s : State) (c : Nat) : State :=
  let p := pairOf c
  if s.holdsLicence c && (s.eng c).arrayBusy.isNone then
    if (s.asks (twinOf c)).isSome && !(s.pair p).withheld then s.passLicence p (layerOf c)
    else s.setPair p { s.pair p with holder := none }
  else s

/-- A migration from a core has ended: a parked licence that its engine asked for meanwhile is granted (25 R396). -/
def State.endMigrating (s : State) (c : Nat) : State :=
  (s.setCore c { s.core c with migrating := false }).settleLicence (pairOf c)

/-! ## Gating and waking steps -/

/-- ENGINE_GATE: an engine idle for IDLE_GATE cycles gates, gives up the licence and stays gated for the break-even hold of
1,024 cycles (06 R123; 10 R207). -/
def execEngineGate (s : State) : Outcome State Fault Refusal :=
  match s.ev with
  | some (.engineGate c) =>
    let e := s.eng c
    if e.isAwake && (s.core c).engineIdle && decide (e.idleSince + e.idleGate * tickLen c ≤ s.now) then
      let t := s.now + 1024 * tickLen c
      .next (((s.setEng c { e with gate := .gated t, request := none }).settleLicence (pairOf c)).schedule t
        (.breakEvenHoldExpiry c))
    else .next s
  | _ => .next s

/-- BREAK_EVEN_HOLD_EXPIRY: a wake asked for during the hold joins the in-rush queue (06 R124). -/
def execBreakEvenHoldExpiry (s : State) : Outcome State Fault Refusal :=
  match s.ev with
  | some (.breakEvenHoldExpiry c) =>
    match (s.eng c).gate with
    | .gated t => .next (if t ≤ s.now ∧ (s.eng c).wakeWanted then s.joinInrush c else s)
    | _ => .next s
  | _ => .next s

/-- INRUSH_ADMISSION: the arbiter admits one wake per 64 cycles, in arrival order; a wake takes 200 cycles (06 R124). -/
def execInrushAdmission (s : State) : Outcome State Fault Refusal :=
  match s.ev with
  | some (.inrushAdmission cl) =>
    let k := s.cluster cl
    match k.inrush with
    | [] => .next s
    | c :: rest =>
      if s.now < k.inrushFree then .next s
      else
        let t := s.now + 64 * tickLen c
        let s1 := s.setCluster cl { k with inrush := rest, inrushFree := t }
        let s2 := (s1.setEng c { s1.eng c with gate := .waking }).schedule (s.now + 200 * tickLen c) (.engineWakeComplete c)
        .next (if rest = [] then s2 else s2.schedule t (.inrushAdmission cl))
  | _ => .next s

/-- ENGINE_WAKE_COMPLETE: the engine accepts work; a LICQ's request is registered now, and gathers and port operations that
wait begin (06 R124; 10 R208). -/
def execEngineWakeComplete (s : State) : Outcome State Fault Refusal :=
  match s.ev with
  | some (.engineWakeComplete c) =>
    let e := s.eng c
    if e.gate = .waking then
      let s1 := (s.setEng c { e with gate := .awake, licqPending := false }).restartIdle c
      let s2 := if e.licqPending then s1.requestLicence c else s1
      .next (s2.soon (.gatherBegin c))
    else .next s
  | _ => .next s

/-- HOLD_QUANTUM_EXPIRY: the holder's hold no longer keeps the licence from a request 4,096 cycles old; it passes at this
boundary or the next (10 R207). -/
def execHoldQuantumExpiry (s : State) : Outcome State Fault Refusal :=
  match s.ev with
  | some (.holdQuantumExpiry c) =>
    .next (s.settleLicence (pairOf c))
  | _ => .next s

/-- WITHHELD_INTERVAL_START: in the last W × 1,024 cycles of a window no grant is made; the holder parks the licence at its
first boundary (12 R229). -/
def execWithheldIntervalStart (s : State) : Outcome State Fault Refusal :=
  match s.ev with
  | some (.withheldIntervalStart p) =>
    if (s.pair p).duty = 0 then .next s
    else .next ((s.setPair p { s.pair p with withheld := true }).settleLicence p)
  | _ => .next s

/-- DUTY_WINDOW_START: a window of 16,384 cycles begins; grants are made again, and its own withheld interval is set
(12 R229). -/
def execDutyWindowStart (s : State) : Outcome State Fault Refusal :=
  match s.ev with
  | some (.dutyWindowStart p) =>
    let s1 := (s.setPair p { s.pair p with withheld := false }).settleLicence p
    let w := (s1.pair p).duty
    if w = 0 then .next s1
    else
      let n := s1.cycleOf p / 16384 * 16384
      .next ((s1.schedule (s1.cycleTick p (n + (16 - w) * 1024)) (.withheldIntervalStart p)).schedule
        (s1.cycleTick p (n + 16384)) (.dutyWindowStart p))
  | _ => .next s

/-! ## The command store (12 R224) -/

/-- A free entry number of a channel's chain (12 R224). -/
def Core.copyEntry (k : Core) (ch : Nat) : Nat :=
  ((List.range 16).find? fun i => !(k.copies.any fun x => x.entry == ch * 16 + (tget k.chTail ch 0 + i) % 16)).elim 0
    fun i => ch * 16 + (tget k.chTail ch 0 + i) % 16

/-- A command put at the tail of its channel's chain, the entry before it linked to it (12 R224). -/
def Core.chain (k : Core) (x : CopyCmd) : Core :=
  let last := (k.copies.filter (fun y => y.ch == x.ch)).getLast?
  { k with copies := (k.copies.map fun y => if some y = last then { y with next := x.entry % 16 } else y) ++ [{ x with next := (x.entry + 1) % 16 }]
           chTail := tset k.chTail x.ch ((x.entry + 1) % 16) }

/-- Entries of a channel in use. -/
def Core.channelUsed (k : Core) (ch : Nat) : Nat := (k.copies.filter (fun x => x.ch == ch)).length

/-! ## A gang leaves an engine (10 R208, R210) -/

/-- The gangs that use a core's engine: those that hold an accumulator of it or have an operation in it. -/
def State.engineUsers (s : State) (c : Nat) : List Nat :=
  ((s.gangs.filter (fun g => g.2.live && !(tget g.2.tiles c []).isEmpty)).map (·.1)) ++ (s.eng c).ops.map (·.gang)

/-- A core's engine and copy channels without a gang's operations; an operation in the array or the port ends with nothing
written, which is a boundary, and the hold falls with the last user. The engine's request, and a LICQ's that waits for the wake, fall with it
(DESIGN CHOICE, log 104: 10 R208 says so of the hold alone). -/
def State.dropFromCore (s : State) (g c : Nat) : State :=
  let k := s.core c
  let e := k.eng
  let mine := fun (o : MxOp) => o.gang == g
  let portOp := fun (o : MxOp) => o.stage == .running && o.kind != .mxop && o.kind != .followOn
  let arrayOp := fun (o : MxOp) => o.stage == .running && (o.kind == .mxop || o.kind == .followOn)
  let e1 : Engine :=
    { e with
      ops := e.ops.filter (fun o => !mine o)
      arrayBusy := if e.ops.any (fun o => mine o && arrayOp o) then none else e.arrayBusy
      portBusy := if e.ops.any (fun o => mine o && portOp o) then none else e.portBusy }
  let chans := (k.copies.filter (fun x => x.gang == g)).map (·.ch)
  let worked := e.ops.any mine || k.copies.any (fun x => x.gang == g && x.state == .followOnPending && x.fo.isSome)
  let s1 := s.setCore c { k with eng := e1, copies := k.copies.filter (fun x => x.gang != g) }
  let started := chans.foldl (fun (u : State) ch => u.soon (.copyCommandStart c ch)) s1
  let s2 := if worked then ((started.soon (.gatherBegin c)).soon (.arrayStart c)).ifIdle c else started
  let s3 := if (s2.engineUsers c).filter (· != g) = [] then
      s2.setEng c { s2.eng c with hold := false, request := none, licqPending := false } else s2
  s3.settleLicence (pairOf c)

/-- State of buffer i of a versioned tile (16 R275). -/
def tileState (h6 : Word) (i : Nat) : Nat := bits h6 (2 * i) 2
/-- A superseded buffer that no command reads is empty from now on (16 R279). -/
def State.settleBuffer (s : State) (header buf : Nat) : State :=
  let h6 := s.homeWord (header + 48)
  if tileState h6 buf = 3 ∧ !(s.readers.any fun q => q.header == header && q.buf == buf) then
    s.unitWrite (header + 48) [h6 - BitVec.ofNat 64 (3 * 2 ^ (2 * buf))]
  else s
/-- Commits to one tile, or to one completion counter, of which one is decided at a time (16 R281). -/
def CommitMsg.sameTile (a b : CommitMsg) : Bool :=
  a.job == b.job && (if a.tile = 0 then b.tile = 0 ∧ a.done = b.done else a.tile = b.tile)
/-- Commits that wait at their homes for room in a send log, for a group's change or for those before them are looked at again, in the order in
which they wait (16 R281; 18 R298; 22 R357). -/
def State.retryCommits (s : State) : State :=
  (s.commits.filter fun m => m.reader.isNone).foldl (fun (u : State) m => u.scheduleOnce u.now (.commitArrival m)) s
/-- Readers of a tile's buffers have ended: a commit that waits for one is decided again (16 R279). -/
def State.retryReaders (s : State) (headers : List Nat) : State :=
  (s.commits.filter fun m => m.reader.any headers.contains).foldl (fun (u : State) m => u.scheduleOnce u.now (.commitArrival m)) s
/-- Readers of version buffers have ended, having read their last byte or with their commands; commits that wait for them are decided again (16
R278, R279). -/
def State.endReaders (s : State) (l : List Reader) : State :=
  (l.foldl (fun (u : State) r => u.settleBuffer r.header r.buf) { s with readers := s.readers.filter fun r => !l.contains r }).retryReaders
    (l.map (·.header))
/-- The readers that a gang's copies on a core are end with them. -/
def State.dropReaders (s : State) (c g : Nat) : State := s.endReaders (s.readers.filter fun r => r.core == c && r.gang == g)

end Sys2Proof.Machine
end

