-- ==== Sys2Proof/Machine/Rings.lean ====
section
/-! DEFINITION. A module's part of a Rill ring as a unit: slots, tokens, arrivals, read-out, announcements and links, and the
end of a membership (21 R336 to R346); and how an attention context is freed (19 R332, R333). -/

namespace Sys2Proof.Machine

open Host

/-! ## Members and rings -/

/-- A membership of a core. -/
def State.member (s : State) (c i : Nat) : Option Member := ((s.core c).members.find? (fun m => m.1 == i)).map (·.2)
def State.setMember (s : State) (c i : Nat) (m : Member) : State :=
  s.setCore c { s.core c with members := tset (s.core c).members i m }
/-- The module's part of a ring of a job. -/
def State.ring (s : State) (job ring : Nat) : Option Ring := s.rings.find? (fun r => r.job == job && r.ring == ring)
def State.setRing (s : State) (r : Ring) : State :=
  { s with rings := s.rings.map fun q => if q.job = r.job ∧ q.ring = r.ring then r else q }
/-- A membership and its ring, for a wait. -/
def State.memberRing (s : State) (core i : Nat) : Option (Member × Ring) :=
  (s.member core i).bind fun m => (s.ring m.job m.ring).map fun r => (m, r)

/-- The announcements of a ring that its present part goes by: the first of each module; a later one is of that module's next part
(DEDUCED, log 97). -/
def firstAnns (l : List Announce) (job ring : Nat) : List Announce :=
  l.foldl (fun (acc : List Announce) a =>
    if a.job = job ∧ a.ring = ring ∧ !acc.any (fun b => b.modul == a.modul) then acc ++ [a] else acc) []
/-- The module's ring state is freed, and the announcements it went by with it (21 R339). -/
def State.dropRing (s : State) (r : Ring) : State :=
  { s with rings := s.rings.filter fun q => !(q.job == r.job && q.ring == r.ring)
           anns := (firstAnns s.anns r.job r.ring).foldl (fun l a => l.erase a) s.anns }

/-- Block bytes (19 R322). -/
def Ring.block (r : Ring) : Nat := 4096 * (r.bsz + 1)
/-- A state with the ring changed, if the module still holds it. -/
def State.withRing (s : State) (job ring : Nat) (k : Ring → State) : State :=
  match s.ring job ring with
  | some r => k r
  | none => s

/-- Beats of 64 bytes landed without a gap from offset 0, among at most n. -/
def landedRun (l : List Nat) : Nat → Nat → Nat
  | 0, i => i
  | fuel + 1, i => if l.contains i then landedRun l fuel (i + 1) else i
/-- A member's arrival pointer for a step, in bytes (19 R324, 21 R341). -/
def Member.pointer (m : Member) (block step : Nat) : Nat := 64 * landedRun (tget m.landed step []) (block / 64) 0
/-- A step has fully arrived in a member's buffer. -/
def Member.arrived (m : Member) (block step : Nat) : Bool := decide (block ≤ m.pointer block step)

/-- The steps that have fully arrived without a gap, from one on (07 R138). -/
def Member.stepsRun (m : Member) (block : Nat) : Nat → Nat → Nat
  | 0, c => c
  | fuel + 1, c => if m.arrived block c then m.stepsRun block fuel (c + 1) else c

/-! ## Slots and tokens (21 R338, R339) -/

/-- The members of a ring on this module that have not ended. -/
def State.ringMembers (s : State) (r : Ring) : List Member := r.members.filterMap (fun p => s.member p.1 p.2)

/-- Every member has released a step (19 R325): releases are made in order. -/
def State.allReleased (s : State) (r : Ring) (step : Nat) : Bool := (s.ringMembers r).all (fun m => decide (step < m.oldest))

/-- One slot's move out of HELD, with the token it sends to the predecessor. -/
def State.slotFree (s : State) (r : Ring) (i : Nat) : State :=
  match tget r.slots i .init, r.linkPred with
  | .held step ro, some p =>
    if s.allReleased r step && (ro || decide (r.k - 1 ≤ step)) then
      (s.setRing { r with slots := tset r.slots i (.await (step + r.s)) }).send
        (.rillToken p r.job r.ring (step + r.s))
    else s
  | .init, some p =>
    if r.complete && decide (1 ≤ i) then
      (s.setRing { r with slots := tset r.slots i (.await i) }).send (.rillToken p r.job r.ring i)
    else s
  | _, _ => s

/-- Every slot of a ring after any change to it; the ring's state is freed when its last member has ended. -/
def State.ringSettle (s : State) (job ring : Nat) : State :=
  s.withRing job ring fun r =>
    if r.members = [] then s.dropRing r
    else if r.broken || r.conflict then s
    else (List.range r.s).foldl (fun (u : State) i => u.withRing job ring fun q => u.slotFree q i) s

/-- A slot holds a step. -/
def Ring.holds (r : Ring) (step : Nat) : Bool :=
  match tget r.slots (step % r.s) .init with
  | .held t _ => t == step
  | _ => false

/-- The membership a step is linked to, by ox2, with its step (19 R331). -/
def linkOf (ox2 : Word) : Option (Nat × Nat) := if bitAt ox2 2 then some (bits ox2 0 2, bits ox2 8 56) else none
/-- The operation of a slot is a step linked to a member's step of this number. -/
def State.linkedTo (s : State) (id core i step : Nat) : Bool :=
  id / 16 == core && match (s.slot id).rep with
    | some (.attnStep _ _ _ _, _) => linkOf ((s.slot id).ox.toList.getD 2 0) == some (i, step)
    | _ => false
/-! ## The attention engine's order (19 R331; 21 R348) -/

/-- Bytes of Q, of K and V, and of a state area (19 R328, R329). -/
def qBytes : Nat := 16384
def kvBytes : Nat := 32768
def saBytes : Nat := 33344

/-- The lines of a range at a cluster-local address, each with its core's index in the cluster. -/
def attnLines (a n : Nat) : List (Nat × Nat) := (linesOf (a % 2 ^ 21) n).map fun l => (a % 2 ^ 24 / 2 ^ 21, l)
/-- The ranges that an operation gathers: for a step Q, the block and the state area; for ATTN.FIN O and l (21 R348). -/
def AttnCtx.ranges (x : AttnCtx) (block : Option (Nat × Nat)) : List (Nat × Nat) :=
  match block with
  | some b => [(x.qa, qBytes), b, (x.sa, saBytes)]
  | none => [(x.sa, kvBytes), (x.sa + 33024, 256)]
/-- The bytes of the block that a slot's step may gather by now: all of an unlinked one, and of a linked one those that its member's
arrival pointer has passed (19 R331; 21 R348). -/
def State.blockPassed (s : State) (id : Nat) : Nat :=
  match linkOf ((s.slot id).ox.toList.getD 2 0) with
  | none => kvBytes
  | some (i, step) =>
    match s.memberRing (id / 16) i with
    | some (m, r) => if r.holds step then min kvBytes (m.pointer r.block step) else 0
    | none => 0
/-- The lines that the operation that a slot's strand has handed to the engine may gather by now. -/
def State.attnGathers (s : State) (id : Nat) : List (Nat × Nat) :=
  let v := s.slot id
  let ctx := fun (i : BitVec 7) => ((s.cluster (clusterOf (id / 16))).attn.find? (fun a => a.1 == i.toNat)).map (·.2)
  match v.rep with
  | some (.attnStep _ _ b _, i) =>
    ((ctx i).map fun x =>
      (x.ranges (some ((v.rx b).toNat % 2 ^ 24, s.blockPassed id))).flatMap fun p => attnLines p.1 p.2).getD []
  | some (.attnFin _ _ _, i) => ((ctx i).map fun x => (x.ranges none).flatMap fun p => attnLines p.1 p.2).getD []
  | _ => []

/-- Lines that the attention engine reads or writes, one per cycle of each bank, so many cycles from now (21 R348; 06 R119). -/
def State.attnClaim (s : State) (cl id offset : Nat) (l : List (Nat × Nat)) : State :=
  (List.range 24).foldl (fun (u : State) k =>
    (l.filter (fun p => p.1 == k / 3 && p.2 % 3 == k % 3)).zipIdx.foldl (fun (w : State) p =>
      let c := clusterCore cl (k / 3)
      w.claim c { bank := k % 3, cycle := w.cycleOf c + offset + p.2, rank := rankAttention, owner := ownerAttention id }) u) s
/-- The cluster's banks without what an operation took. -/
def State.attnUnclaim (s : State) (cl id : Nat) : State :=
  (List.range 8).foldl (fun (u : State) i => u.unclaim (clusterCore cl i) (ownerAttention id) 0) s
/-- So many cycles after the last of the lines; a tick not past where nothing was taken. -/
def State.attnDue (s : State) (cl id after : Nat) : Nat :=
  (List.range 8).foldl (fun m i =>
    let c := clusterCore cl i
    match (s.core c).lastClaim (ownerAttention id) with
    | some y => max m (s.cycleTick c (y + 1 + after))
    | none => m) 0

/-- The arrival pointer of a member's step at an offset of a core's local memory has passed from byte lo to byte hi of its block: a step linked to
it gathers those lines, and its gather ends 4 cc after the last of them at the earliest (21 R348). -/
def State.attnPassed (s : State) (core i step at_ lo hi : Nat) : State :=
  let cl := clusterOf core
  ((s.cluster cl).attnQ.take 2).foldl (fun (u : State) e =>
    if u.linkedTo e.1 core i step ∧ (u.slot e.1).stepAt ≠ 0 ∧ lo < min hi kvBytes then
      let w := u.attnClaim cl e.1 0 (attnLines (clusterIdx core * 2 ^ 21 + at_ + lo) (min hi kvBytes - lo))
      let t := max (w.slot e.1).stepAt (w.attnDue cl e.1 4)
      (w.setSlot e.1 { w.slot e.1 with stepAt := t }).schedule t (.engineReturn e.1)
    else u) s
/-- A ring's members may have a linked step that waits in vain (21 R337, R346). -/
def State.attnWake (s : State) (r : Ring) : State :=
  r.members.foldl (fun (u : State) p =>
    ((u.cluster (clusterOf p.1)).attnQ.take 1).foldl (fun (w : State) e => w.soon (.engineReturn e.1)) u) s

/-- The banks' requester of one beat that arrives for a Rill buffer (21 R341; 06 R119). -/
def ownerRill (n : Nat) : Nat := 2 ^ 41 + n

/-- One beat that has reached a member's core takes its bank there, as an arrival of the copy engine does, and lands at the end of that
cycle (21 R341; 06 R119). -/
def State.reachMember (s : State) (r : Ring) (step off : Nat) (bs : List Byte) (bad : Option Word) (p : Nat × Nat) : State :=
  match s.member p.1 p.2 with
  | none => s
  | some m =>
    let pa := localBase p.1 + m.buf + step % r.s * r.block + off
    let n := s.fresh + 1
    let u := { s with fresh := n }.claim p.1 { bank := bankOf pa, cycle := s.cycleFrom p.1, rank := rankCopy, owner := ownerRill n }
    u.schedule ((u.claimEnds p.1 (ownerRill n)).getD s.now) (.rillLand (ownerRill n) p.1 p.2 m.gang step off bs bad)

/-- A beat of a step reaches every member of a ring on this module, if its slot awaits or holds that step (21 R339). -/
def State.beat (s : State) (job ring step off : Nat) (bs : List Byte) (bad : Option Word) : State :=
  match s.ring job ring with
  | none => s.countClosed
  | some r =>
    if r.broken then s
    else
      match tget r.slots (step % r.s) .init with
      | .await t | .held t _ =>
        if t = step then r.members.foldl (fun (u : State) p => u.reachMember r step off bs bad p) s else s
      | .init => s

/-- A member after a beat of a step has landed; its counter is the number of steps that have fully arrived from the first on (07
R138; 19 R323). -/
def Member.land (m : Member) (r : Ring) (step off : Nat) (bad : Option Word) : Member :=
  let m1 := { m with landed := tset m.landed step (natInsert (tget m.landed step []) (off / 64)),
                     uncorr := match bad with
                       | some a => if m.uncorr.any (fun e => e.1 == step) then m.uncorr else m.uncorr ++ [(step, a)]
                       | none => m.uncorr }
  { m1 with counter := m1.stepsRun r.block r.k m1.counter }

/-- A beat lands in a member's buffer: its slot holds the step, its bytes stand, and a linked step reads the lines that its pointer
has passed (21 R339, R341, R348). -/
def State.landIn (s : State) (r : Ring) (p : Nat × Nat) (m : Member) (step off : Nat) (bs : List Byte) (bad : Option Word) : State :=
  let pa := localBase p.1 + m.buf + step % r.s * r.block + off
  let m1 := m.land r step off bad
  let i := step % r.s
  let r1 := match tget r.slots i .init with
    | .await _ => { r with slots := tset r.slots i (.held step false) }
    | _ => r
  let u := ((s.setMember p.1 p.2 m1).setRing r1).markLocal pa bs.length
  let w : State := { u with mem := memPut u.mem pa bs, bad := u.bad.filter (fun w => decide (w + 8 ≤ pa ∨ pa + bs.length ≤ w)) }
  w.attnPassed p.1 p.2 step (pa - off - localBase p.1) (m.pointer r.block step) (m1.pointer r.block step)

/-- A beat of the OWN block, read at the addresses found when the part completed, with the damaged word it carries (19 R323; 25
R398). -/
def State.ownBeat (s : State) (job ring off : Nat) : State :=
  s.withRing job ring fun r =>
    let pas := ((r.ownPa.flatMap fun p => (List.range p.2).map fun i => p.1 + i).drop off).take 64
    let hurt := (pas.findIdx? fun a => s.bad.contains (wordAddr a)).map fun k => r.own + BitVec.ofNat 64 (off + k / 8 * 8)
    s.beat job ring 0 off (pas.map (memByte s.mem)) hurt

/-- The job is being unwound: its rings' transfers, tokens and announcements are discarded (21 R347). -/
def State.ringless (s : State) (job : Nat) : Bool := (s.job job).abort == .second || (s.job job).abort == .stopped

/-- A beat finds its member gone from the core: a forwarding entry sends it on to the core that the gang moved to, where it takes a bank in its
turn or, if the gang has moved again, is sent on, and without one it is dropped and counted (21 R345; 23 R373); for a membership that has ended
it is discarded (21 R340). -/
def State.landMoved (s : State) (core i g step off : Nat) (bs : List Byte) (bad : Option Word) : State :=
  if s.cores.any fun c => c.2.members.any fun m => m.1 == i && m.2.gang == g then
    match s.fwdTo core [g] with
    | some f =>
      let c := bits f.f0 0 10
      match if (s.member c i).any fun m => m.gang == g then s.memberRing c i else none with
      | some (_, r) => s.reachMember r step off bs bad (c, i)
      | none => s.schedule s.cycleEnd (.rillLand (ownerRill 0) c i g step off bs bad)
    | none => s.stray
  else s

/-- RILL_BEAT: a beat of a transfer arrives, and lands where it has its bank (21 R341); step 0 comes from the module's own
block. -/
def execRillBeat (s : State) : Outcome State Fault Refusal :=
  match s.ev with
  | some (.rillBeat job ring step off data bad) =>
    .next (if s.ringless job then s else (if step = 0 then s.ownBeat job ring off else s.beat job ring step off data bad))
  | some (.rillLand owner core i g step off data bad) =>
    let there := (s.member core i).any fun m => m.gang == g
    match if there then s.memberRing core i else none, s.claimEnds core owner with
    | some _, some t => .next (s.schedule t (.rillLand owner core i g step off data bad))
    | some (m, r), none => .next (if r.broken then s else (s.landIn r (core, i) m step off data bad).ringSettle m.job m.ring)
    | none, _ => .next (s.landMoved core i g step off data bad)
  | _ => .next s

/-- RILL_TOKEN: the successor's token arrives; one that admits a step at or beyond K is discarded (21 R338). -/
def execRillToken (s : State) : Outcome State Fault Refusal :=
  match s.ev with
  | some (.rillToken job ring step) =>
    if s.ringless job then .next s
    else match s.ring job ring with
    | none => .next s.countClosed
    | some r => .next (if r.broken ∨ r.k ≤ step then s else s.setRing { r with tokens := r.tokens ++ [step] })
  | _ => .next s

/-- READ_OUT: the lead's RSEND of a step has read the block's last byte: its bytes go to the successor as the next step
(19 R326, 21 R339), with the word of them that cannot be corrected (25 R398). -/
def execReadOut (s : State) : Outcome State Fault Refusal :=
  match s.ev with
  | some (.readOut job ring step) =>
    match s.ring job ring with
    | none => .next s
    | some r =>
      if r.broken then .next s
      else
        let lead := r.members.find? (fun p => ((s.member p.1 p.2).map (·.lead)).getD false)
        match lead, r.linkSucc with
        | some p, some succ =>
          match s.member p.1 p.2 with
          | none => .next s
          | some m =>
            let pa := localBase p.1 + m.buf + step % r.s * r.block
            let data := memBytes s.mem pa r.block
            let hurt := ((m.uncorr.find? fun e => e.1 == step).map (·.2)).or (if s.damagedLocal pa r.block then some 0 else none)
            let i := step % r.s
            let slots := match tget r.slots i .init with
              | .held t _ => if t = step then tset r.slots i (.held t true) else r.slots
              | _ => r.slots
            .next (((s.setRing { r with slots := slots, readOut := step + 1 }).send
              (.rillBeats succ job ring (step + 1) data hurt)).ringSettle job ring)
        | _, _ => .next s
  | _ => .next s

/-- BREAK: a lead of the ring ended before its last read-out; transfers and tokens are discarded from now on (21 R346). It acts at the
end of its cycle, after the bytes that land in it (21 R340). -/
def execRingBreak (s : State) : Outcome State Fault Refusal :=
  match s.ev with
  | some (.ringBreak job ring) =>
    .next (s.withRing job ring fun r =>
      match r.breakAt with
      | none => (s.setRing { r with breakAt := some s.cycleEnd }).schedule s.cycleEnd (.ringBreak job ring)
      | some t => if s.now < t then s else (s.setRing { r with broken := true, tokens := [] }).attnWake r)
  | _ => .next s

/-! ## Forming a ring (21 R336, R337) -/

/-- Two announcements cannot belong to one ring: one position announced twice, or linked modules that disagree. -/
def Ring.clash (r : Ring) (a : Announce) (self : Nat) : Bool :=
  let linked := a.pos == (r.pos + 1) % r.k || a.pos == (r.pos + r.k - 1) % r.k || r.pos == (a.pos + 1) % a.k ||
    r.pos == (a.pos + a.k - 1) % a.k
  (a.pos == r.pos && a.modul != self) || (linked && !(a.k == r.k && a.s == r.s && a.bsz == r.bsz))

/-- The links of a complete part from the announcements received. -/
def State.ringLink (s : State) (job ring : Nat) : State :=
  s.withRing job ring fun r =>
    if r.complete = false then s
    else
      let l := firstAnns s.anns job ring
      let self := (s.job job).self
      let other := fun (p : Nat) => (l.find? (fun a => a.pos == p && a.k == r.k && a.s == r.s && a.bsz == r.bsz)).map (·.modul)
      let r1 := { r with
        conflict := r.conflict || l.any (fun a => r.clash a self) ||
          l.any (fun a => l.any (fun b => a.pos == b.pos && a.modul != b.modul && (a.pos == (r.pos + 1) % r.k || a.pos == (r.pos + r.k - 1) % r.k)))
        linkPred := other ((r.pos + r.k - 1) % r.k)
        linkSucc := other ((r.pos + 1) % r.k) }
      ((if r1.conflict then (s.setRing r1).attnWake r1 else s.setRing r1)).ringSettle job ring

/-- RING_ANNOUNCEMENT: another module's part of a ring is complete (21 R336). -/
def execRingAnnouncement (s : State) : Outcome State Fault Refusal :=
  match s.ev with
  | some (.ringAnnouncement a) => .next (if s.ringless a.job then s else { s with anns := s.anns ++ [a] }.ringLink a.job a.ring)
  | _ => .next s

/-- The OWN block is multicast into every member's slot 0 as step 0, a beat in each mc (19 R323, 21 R341; log 97). -/
def State.multicastOwn (s : State) (job ring : Nat) : State :=
  s.withRing job ring fun r =>
    (List.range (r.block / 64)).foldl (fun (u : State) i =>
      u.schedule (s.now + (i + 1) * mcTicks) (.rillBeat job ring 0 (64 * i) [] none)) s

/-- The module's part is complete: it is announced to the group, and step 0 goes to the members (19 R323, 21 R336, R339). -/
def State.ringComplete (s : State) (job ring : Nat) : State :=
  s.withRing job ring fun r =>
    let j := s.job job
    let a : Announce := { job := job, ring := ring, k := r.k, pos := r.pos, s := r.s, bsz := r.bsz, modul := j.self }
    let r1 := { r with complete := true, slots := [(0, .held 0 false)] }
    let s1 := { s.setRing r1 with anns := s.anns ++ [a] }.send (.announce a)
    (s1.multicastOwn job ring).ringLink job ring

/-! ## The end of a membership (19 R327, R333; 21 R346, R347) -/

/-- A membership ends. A lead that ends before its read-out of step K − 2 breaks the ring, unless an abort unwinds it: the BREAK reaches its
own module in this cycle, and acts there as on any other (21 R340, R346). -/
def State.endMember (s : State) (c i : Nat) (quiet : Bool) : State :=
  match s.member c i with
  | none => s
  | some m =>
    let s1 := s.setCore c { s.core c with members := (s.core c).members.filter (fun e => e.1 != i) }
    s1.withRing m.job m.ring fun r =>
      let breaks := m.lead && !quiet && !r.broken && decide (r.readOut < r.k - 1)
      let r1 := { r with members := r.members.filter (· != (c, i)),
                         joining := r.joining.filter (fun w => !(w.1 / 16 == c && w.2.2 == i)) }
      let s2 := s1.setRing r1
      let s3 := if breaks then (s2.soon (.ringBreak m.job m.ring)).send (.ringBreak m.job m.ring) else s2
      s3.ringSettle m.job m.ring

/-- Every membership of a gang ends (19 R333). -/
def State.endMemberships (s : State) (g : Nat) (quiet : Bool) : State :=
  let l := s.cores.flatMap fun c => (c.2.members.filter (fun m => m.2.gang == g)).map fun m => (c.1, m.1)
  l.foldl (fun (u : State) p => u.endMember p.1 p.2 quiet) s

/-- The first two operations of a cluster's attention engine gather, one for each buffer set, and the first goes on once its gather
has ended (21 R348). -/
def State.attnKick (s : State) (cl : Nat) : State :=
  let s1 := ((s.cluster cl).attnQ.take 2).foldl (fun (u : State) e =>
    if (u.slot e.1).stepAt ≠ 0 then u
    else
      let w := (u.attnUnclaim cl e.1).attnClaim cl e.1 0 (u.attnGathers e.1)
      w.setSlot e.1 { w.slot e.1 with stepAt := max (max 1 w.now) (w.attnDue cl e.1 4) }) s
  match (s1.cluster cl).attnQ with
  | [] => s1
  | (id, _) :: _ =>
    let t := max s1.now (s1.slot id).stepAt
    match (s1.slot id).rep with
    | some (.attnStep _ _ _ _, _) => s1.schedule t (.engineReturn id)
    | _ => s1.schedule t (.attentionEngineComplete id)

/-- A cluster's attention engine without the operations of a gang. -/
def State.attnDrop (s : State) (cl g : Nat) : State :=
  let c := s.cluster cl
  let q := c.attnQ.filter (fun e => e.2 != g)
  if q = c.attnQ then s
  else if q.head? = c.attnQ.head? then s.setCluster cl { c with attnQ := q }
  else (s.setCluster cl { c with attnQ := q, attnFree := 0 }).attnKick cl

/-- A gang's attention contexts are freed, and its operation in progress is abandoned (19 R332, R333). -/
def State.freeContexts (s : State) (g : Nat) : State :=
  let s1 := s.clusters.foldl (fun (u : State) c => u.attnDrop c.1 g) s
  { s1 with clusters := s1.clusters.map fun c =>
      (c.1, { c.2 with attn := c.2.attn.filter (fun a => a.2.gang != g) }) }

end Sys2Proof.Machine
end

