-- ==== Sys2Proof/Machine/Gangs.lean ====
section
/-! DEFINITION. Gangs as the scheduler holds them: stamp records (15 R272, R273), suspended strands and their save areas
(15 R260, R261, R267), the end of a gang and dropping one (15 R274; 13 R239; 10 R210), and re-entry into a queue. -/

namespace Sys2Proof.Machine

/-! ## Stamps (15 R272, R273) -/

/-- The outcomes of a stamp record. -/
inductive Ending where
  | commitOk | cancel | versionFull | rolledBack | dropped | uncorrectable | discarded | refused
  deriving DecidableEq, Repr

def Ending.code : Ending → Nat
  | .commitOk => 0 | .cancel => 1 | .versionFull => 2 | .rolledBack => 3 | .dropped => 4
  | .uncorrectable => 5 | .discarded => 6 | .refused => 7

/-- A task's class and priority from its launch packet (15 R257). -/
def packetClass (p : List Word) : Nat := bits (p.getD 4 0) 0 8
def packetPrio (p : List Word) : Nat := bits (p.getD 4 0) 8 4
def packetVt (p : List Word) : Nat := (p.getD 3 0).toNat

/-- A stamp record joins a job's ring; with the ring full the oldest goes and the lost count rises. -/
def State.stampWrite (s : State) (j : Nat) (ws : List Word) : State :=
  let job := s.job j
  if job.stampEntries = 0 then s.setJob j { job with stampLost := job.stampLost + 1 }
  else
    let s1 := s.writeArea j (job.stampBase + 64 * (job.stampNext % job.stampEntries)) ws
    s1.setJob j { s1.job j with stampNext := job.stampNext + 1,
                                stampLost := job.stampLost + (if job.stampEntries ≤ job.stampNext then 1 else 0) }

/-- The words of a stamp record. -/
def stampWords (steals cls copy task enq deq cmp hungry cause modul core work rqw : Nat) (out : Ending) : List Word :=
  [ BitVec.ofNat 64 (min steals 65535 * 2 ^ 48 + out.code * 2 ^ 44 + cls * 2 ^ 36 + copy * 2 ^ 32 + task % 2 ^ 32),
    BitVec.ofNat 64 enq, BitVec.ofNat 64 deq, BitVec.ofNat 64 cmp, BitVec.ofNat 64 hungry,
    BitVec.ofNat 64 (cause * 2 ^ 32 + modul * 2 ^ 20 + core * 2 ^ 10), BitVec.ofNat 64 work, BitVec.ofNat 64 rqw ]

/-- What a unit holds of work: its Cistern, its waiters and the entry on its way to it. -/
def Cluster.entries (c : Cluster) : List Entry := c.cistern ++ c.waiting ++ c.stolen.toList
/-- The ns that a gang's continuation has spent in queues, the present one included (15 R273 RQW). -/
def State.requeued (s : State) (g : Nat) : Nat :=
  ((s.clusters.flatMap fun c => c.2.entries).filter fun e => e.cont.isSome && e.gang == g).foldl
    (fun n e => n + (s.now - e.since) / nsTicks) (s.gang g).rqw

/-- The stamp record of a placed copy. -/
def State.stampGang (s : State) (g : Nat) (out : Ending) : State :=
  let q := s.gang g
  s.stampWrite q.job (stampWords q.steals (packetClass q.packet) q.copy q.task q.enq q.deq s.stamp
    (if q.hungry = 0 then q.deq else q.hungry) 0 (s.job q.job).self (q.cores.headD 0) q.work (s.requeued g) out)

/-- The stamp record of an entry that never was, or is not now, placed. -/
def State.stampEntry (s : State) (e : Entry) (out : Ending) : State :=
  s.stampWrite e.job (stampWords 0 (packetClass e.packet) e.copy e.task e.enq e.deq s.stamp e.deq 0
    (s.job e.job).self e.core e.work e.rqw out)

/-! ## Places that work waits for -/

/-- A task queue unit looks at its queue, once at this instant (15 R263). -/
def State.poke (s : State) (cl : Nat) : State :=
  if s.agenda.contains (s.now, .agingStep cl) then s else s.soon (.agingStep cl)

/-- Resources have become free: every unit places its work or looks for work (15 R263, R264). -/
def State.resourcesFreed (s : State) : State := s.clusters.foldl (fun (u : State) c => u.poke c.1) s

/-- Cores of a tenant on this module that hold a strand (16 R288). -/
def State.tenantCores (s : State) (t : Nat) : Nat :=
  ((s.slots.filterMap fun e =>
    if e.2.runs && (s.job (s.gang e.2.gang).job).tenant == t then some (e.1 / 16) else none).foldl
    (fun (l : List Nat) c => if l.contains c then l else c :: l) []).length
/-- A tenant has an open job with a group of modules. -/
def State.tenantSpans (s : State) (t : Nat) : Bool := s.jobs.any fun j => j.2.isOpen && j.2.tenant == t && !j.2.group.isEmpty
/-- The core-ticks of a tenant from one tick to the present: its cores on other modules are a free value (16 R288; log 93). -/
def State.tenantTicks (s : State) (t at_ : Nat) : Nat :=
  s.tenantCores t * (s.now - at_) + (if s.tenantSpans t ∧ at_ < s.now then Config.awayCoreTicks t at_ s.now else 0)
/-- Every hedging bucket as it stands now (16 R288): the content grows at b × A and never passes the cap. -/
def State.settleBuckets (s : State) : State :=
  { s with tenants := s.tenants.map fun t =>
      (t.1, { t.2 with
        level := min (t.2.cap * 1000 * 12288) (t.2.level + t.2.rate * s.tenantTicks t.1 t.2.atTick)
        atTick := s.now }) }

/-- RESP as firmware takes it (25 R389). -/
def State.obeyResp (s : State) (id resp : Nat) : State :=
  s.soon (match resp with
    | 0 => .retry id
    | 1 => .skip id
    | 2 => .drop id
    | _ => .abortResp id)
/-- RESP in the block of a handler task. -/
def State.respOf (s : State) (j va : Nat) : Nat :=
  match (s.job j).areaPa (va + 64) with
  | some pa => memRead s.mem pa 8 % 4
  | none => 0
/-- The key under which a strand waits for a handler task after it has left the module (25 R390). -/
def handlerKey (task : Nat) : Nat := 2 ^ 66 + task
/-- Firmware's handler for a slot is told that its handler task ended: RESP decides (25 R389). A strand that has moved to another module is told
there (25 R390). -/
def State.handlerEnded (s : State) (task : Nat) : State :=
  match s.slots.find? (fun e => (e.2.handlerBlock.map (·.2)) == some task) with
  | none =>
    match s.parks.find? (fun p => p.1 == handlerKey task) with
    | some (k, .moved _ va m j tag) =>
      (({ s with parks := s.parks.filter fun p => p.1 != k }).poolFree j va).send
        (.reply m j tag { vals := [BitVec.ofNat 64 (s.respOf j va)], tag := tag })
    | _ => s
  | some e =>
    match e.2.handlerBlock with
    | none => s
    | some (va, _) =>
      let j := (s.gang e.2.gang).job
      ((s.poolFree j va).setSlot e.1 { e.2 with handlerBlock := none }).obeyResp e.1 (s.respOf j va)

/-! ## Leaving a slot -/

/-- A slot without its strand: what belongs to the slot stays, the operations that are still to take effect on it among it (23 R375). -/
def Slot.vacate (v : Slot) : Slot := { removed := v.removed, askers := v.askers, lastPc := v.lastPc }

/-- The number that stands for a dropped strand of a slot whose access was being parked (04 R104). -/
def goneSlot (id : Nat) : Nat := 2 ^ 32 + id

/-- The accesses that a slot's strand waits in end with it: its entry leaves the retry list, one marked PARKING when its save is
confirmed, and its park-list entry goes (04 R104). -/
def State.leaveWaits (s : State) (id : Nat) : State :=
  let mine := fun (r : Retry) => r.origin == Origin.slot id
  let parking := s.retries.any (fun r => mine r && r.parking)
  let s1 := { s with
    retries := (s.retries.filter (fun r => !mine r || r.parking)).map fun r =>
      (if mine r then ({ r with origin := .slot (goneSlot id) } : Retry) else r)
    parks := s.parks.filter (fun p => p.2 != .slot id) }
  if parking then s1.soon (.parkConfirm (.slot (goneSlot id))) else s1

/-- A slot's late results no longer land: its strand is gone (06 R112; 03 R57). -/
def State.dropLate (s : State) (id : Nat) : State :=
  let k := s.core (id / 16)
  let s1 := s.setSlot id { s.slot id with writes := [] }
  let l := k.sPend.map fun (w : SharedWrite) => if (w.dst.map (·.1)) = some id then { w with dst := none } else w
  s1.setCore (id / 16) { k with sPend := l }

/-- The tick by which every late result of a slot's strand has landed (06 R112; 03 R57). -/
def State.resultsDue (s : State) (id : Nat) : Option Nat :=
  let shared := ((s.core (id / 16)).sPend.filter fun w => (w.dst.map (·.1)) == some id).map (·.at_)
  (((s.slot id).writes.map (·.at_)) ++ shared).foldl (fun m t => some (max (m.getD 0) t)) none

/-- An instruction that takes its strand from its slot first waits for the strand's late results (06 R111, R112). -/
def State.whenLanded (s : State) (k : State → State) : State :=
  match s.resultsDue s.cur with
  | none => k s
  | some t => s.block (.until (t + 1))

/-- A slot's strand is gone: its pool areas, retry entry and park-list entry with it (04 R104, 15 R261). -/
def State.clearSlot (s0 : State) (id : Nat) : State :=
  let s := (s0.settleBuckets.dropLate id).leaveWaits id
  let v := s.slot id
  let j := (s.gang v.gang).job
  let areas := (v.save :: v.saved.map (·.save)) ++ (v.handlerBlock.map (·.1)).toList
  let s1 := areas.foldl (fun (u : State) a => if a = 0 then u else u.poolFree j a) s
  s1.setSlot id v.vacate

/-- The parent of an inline child has its registers, its matrix stream and the child's task id in x[D] again (13 R236; 10 R192). -/
def State.restoreParent (s0 : State) (id child : Nat) : State :=
  let s := (s0.dropLate id).leaveWaits id
  let v := s.slot id
  match v.saved with
  | [] => s
  | p :: rest =>
    let v1 : Slot := { v with gang := p.gang, index := p.index, n := p.n, pc := p.pc, x := p.x, lr := p.lr, fcsr := p.fcsr,
                              ox := p.ox, vt := p.vt, tid := p.tid, chk := p.chk, mode := false, cause := 0,
                              mxNext := p.mxNext, mxDone := p.mxDone, ucode := p.ucode, uc := p.uc,
                              trapArea := [], nestedCsr := [], pending := p.pending, wait := .none, inFlight := none, rep := none,
                              handlerBlock := none, save := 0, issuedAt := none, saved := rest }
    let s1 := s.setSlot id (v1.wx p.dest (BitVec.ofNat 64 child))
    let s2 := if v.save = 0 then s1 else s1.poolFree (s1.gang v.gang).job v.save
    s2.poolFree (s2.gang p.gang).job p.save

/-- The slots where a gang has a strand, or is a saved parent. -/
def State.slotsOf (s : State) (g : Nat) : List Nat :=
  s.slots.filterMap fun e => if e.2.live && (e.2.gang == g || e.2.saved.any (fun p => p.gang == g)) then some e.1 else none

/-- Every cluster without the entries that satisfy a condition. -/
def State.filterEntries (s : State) (keep : Entry → Bool) : State :=
  { s with clusters := s.clusters.map fun c =>
      (c.1, { c.2 with cistern := c.2.cistern.filter keep, waiting := c.2.waiting.filter keep, stolen := c.2.stolen.filter keep }) }

/-- The record that a park list holds for a ROAM solo task. -/
def Parked.entry : Parked → Option Entry
  | .record e => some e
  | _ => none

/-- A saved strand of a gang, wherever it waits, is dropped and its save area returned (03 R71, 15 R261). -/
def State.dropRecords (s : State) (g : Nat) : State :=
  let mine := fun (e : Entry) => e.cont.isSome && e.gang == g
  let all := (s.records.map (·.2)) ++ s.clusters.flatMap (fun c => c.2.entries) ++ s.parks.filterMap (fun p => p.2.entry)
  let s1 := (all.filter mine).foldl (fun (u : State) e =>
    match e.cont with
    | some v => if v.save = 0 then u else u.poolFree e.job v.save
    | none => u) s
  let ids := (s.records.filter (fun r => mine r.2)).map (·.1)
  { s1.filterEntries (fun e => !mine e) with
    records := s1.records.filter (fun r => !mine r.2)
    retries := s1.retries.filter (fun r => match r.origin with
      | .slot id => !ids.contains id
      | .remote .. => true)
    parks := s1.parks.filter (fun p => !((p.2.entry.map mine).getD false)) }

/-! ## The end of a gang (15 R274) -/

/-- A migration of a gang that ends is abandoned, and the streaming one of a whole context whose gang is dropped: MIGR returns NOGANG
(23 R380). -/
def State.abandonMigr (s : State) (g : Nat) (dropped : Bool) : State :=
  let hit := fun (m : Migr) => m.gang == g ||
    (dropped && m.gang == 0 && (s.core m.score).migrating && (s.gang g).cores.contains m.score)
  let l := s.migrs.filter hit
  l.foldl (fun (u : State) m =>
    let u1 := u.endMigrating m.score
    match (u1.slot m.slot).inFlight with
    | some f => u1.deliver m.slot f { vals := [4] }
    | none => u1) { s with migrs := s.migrs.filter (fun m => !hit m) }

/-- What a gang holds beside slots is released: engines, channels, memberships, contexts, accumulators and barrier registers
(10 R210; 12 R219; 13 R250; 19 R333); the inbox of its LP looks again (18 R299). -/
def State.removeGang (s : State) (g : Nat) (quiet : Bool) : State :=
  let q := s.gang g
  let s1 := q.cores.foldl (fun (u : State) c => (u.dropReaders c g).dropFromCore g c) s
  let s2 := ((s1.endMemberships g quiet).freeContexts g).abandonMigr g false
  let s3 := { s2 with gangs := tdel s2.gangs g }
  let s4 := if q.handlerFor.isSome then s3.handlerEnded q.task else s3
  let s5 := match q.lp with
    | some (n, _, _, _) => s4.soon (.inboxDispatch q.job n)
    | none => s4
  s5.resourcesFreed

/-- A gang leaves its slots: an inline child gives its slot back to its parent, any other slot becomes a bubble; the gangs of
inline children go with their parent (13 R236). -/
def State.leaveSlots (s : State) (g : Nat) : State × List Nat :=
  (s.slotsOf g).foldl (fun (u : State × List Nat) id =>
    let v := u.1.slot id
    if v.gang = g ∧ v.saved ≠ [] then
      (u.1.restoreParent id (u.1.gang g).task, u.2)
    else
      let inner := (v.gang :: v.saved.map (·.gang)).filter (· != g)
      (u.1.clearSlot id, u.2 ++ inner)) (s, [])

/-- A gang and the inline children it runs are dropped with an outcome (13 R239, R250). -/
def State.dropGang (s : State) (g : Nat) (out : Ending) (quiet : Bool) : State :=
  let p := s.leaveSlots g
  let s1 := (g :: p.2).foldl (fun (u : State) h => ((u.stampGang h out).abandonMigr h true).removeGang h quiet) p.1
  s1.dropRecords g

/-- Where a task's arbitrating home lies: the home of its tile's header, or of its completion counter (13 R237). -/
inductive ArbPlace where
  | here (home : Nat)
  | away (modul : Nat)
  | nowhere
  deriving DecidableEq, Repr
def State.arbPlace (s : State) (core j : Nat) (p : List Word) : ArbPlace :=
  let w := if p.getD 5 0 = 0 then p.getD 7 0 else p.getD 5 0
  match s.translate core j w .read with
  | .hbm pa _ => .here (homeOf pa)
  | .remote m => .away m
  | _ => .nowhere

/-- The end of a copy of a HEDGE task is confirmed to its home, on this module or another (16 R280). -/
def State.confirmCopy (s : State) (flags : BitVec 5) (core j : Nat) (p : List Word) (task copy : Nat) : State :=
  if flags.getLsbD 0 = false then s
  else match s.arbPlace core j p with
    | .away m => s.send (.confirm m j task copy)
    | .here h => s.carry j core (homeEnd h) 1 (.dropConfirmation j task copy)
    | .nowhere => s.soon (.dropConfirmation j task copy)
/-- A copy of a HEDGE task confirms its end to its home (16 R280). -/
def State.confirmEnd (s : State) (q : Gang) : State := s.confirmCopy q.flags (q.cores.headD 0) q.job q.packet q.task q.copy
/-- A queued copy that is discarded does the same. -/
def State.confirmEntry (s : State) (e : Entry) : State := s.confirmCopy e.flags e.core e.job e.packet e.task e.copy

/-- What is left of a context when some of its gangs have gone. -/
def Context.without (x : Context) (gone : Gang → Bool) : Context :=
  let l := (x.gangs.filter fun g => gone g.2).map (·.1)
  { x with gangs := x.gangs.filter fun g => !gone g.2
           slots := x.slots.filter fun e => !l.contains e.2.gang
           ops := x.ops.filter fun o => !l.contains o.gang
           copies := x.copies.filter fun y => !l.contains y.gang
           tiles := x.tiles.filter fun e => !l.contains e.1
           bars := x.bars.filter fun e => !l.contains e.1 }
/-- The gangs of contexts that have no place here yet. -/
def State.contextGangs (s : State) : List Gang := s.contexts.flatMap fun e => e.2.2.gangs.map (·.2)
/-- Such gangs are dropped with an outcome, each with its stamp record and its confirmation; a context without gangs is gone (log 106). -/
def State.dropArriving (s : State) (gone : Gang → Bool) (out : Ending) : State :=
  let l := s.contextGangs.filter gone
  let left := s.contexts.map fun e => (e.1, e.2.1, e.2.2.without gone)
  let free := s.gangs.foldl (fun m e => max m (e.1 + 1)) 0
  l.foldl (fun (u : State) q =>
    let v := (u.setGang free q).stampGang free out
    ({ v with gangs := tdel v.gangs free }).confirmEnd q)
    { s with contexts := if l = [] then s.contexts else left.filter fun e => !e.2.2.gangs.isEmpty }

/-! ## Re-entering a queue -/

/-- The slots of a gang by placed core, in strand order: the binding a DET job keeps (06 R110). -/
def State.bindOf (s : State) (g : Nat) : List (List Nat) :=
  let q := s.gang g
  q.cores.map fun c => (List.range 16).filter fun i =>
    let v := s.slot (c * 16 + i)
    v.live && (v.gang == g || v.saved.any (fun p => p.gang == g))

/-- The queue entry of a placed copy that runs again from its entry (13 R238, 25 R398): its first enqueue stamp is kept. -/
def State.entryOf (s : State) (g : Nat) : Entry :=
  let q := s.gang g
  { packet := q.packet, hdr := q.hdr, job := q.job, task := q.task, copy := q.copy, flags := q.flags,
    prio := packetPrio q.packet, enq := q.enq, lp := q.lp, ox1 := q.ox1, rback := q.rback, retries := q.retries,
    only := q.only, bind := if (s.job q.job).det then s.bindOf g else [], handlerFor := q.handlerFor, since := s.now,
    core := q.cores.headD 0, parent := q.parent }

/-- A gang is dropped and its task re-enters the queue of its first core's cluster (13 R238, 25 R398, 23 R376). -/
def State.requeue (s : State) (g : Nat) (out : Ending) (again : Nat) : State :=
  let e := { s.entryOf g with retries := again }
  (s.dropGang g out false).enqueue (clusterOf e.core) e

/-! ## Suspended strands (15 R260, R261, R267) -/

/-- The words of a save area (15 R261). -/
def Slot.saveWords (v : Slot) (operand : Word) : List Word :=
  [v.lr, v.fcsr, operand, 0, 0, 0, 0, 0] ++ v.ox.toList ++ v.x.toList.take v.n

/-- A slot's strand with the registers of a save area (15 R261). -/
def Slot.restoreWords (v : Slot) (ws : List Word) : Slot :=
  { v with lr := ws.getD 0 0, fcsr := ws.getD 1 0, ox := Vector.ofFn fun i : Fin 8 => ws.getD (8 + i.val) 0,
           x := Vector.ofFn fun i : Fin 128 => if i.val < v.n then ws.getD (16 + i.val) 0 else 0 }

/-- A save area is taken and written for a slot's strand; none where the pool has no room. -/
def State.saveStrand (s : State) (id : Nat) (operand : Word) : Option State :=
  let v := s.slot id
  let j := (s.gang v.gang).job
  match s.poolAlloc j (128 + 8 * v.n) with
  | none => none
  | some (va, s1) => some ((s1.writeArea j va (v.saveWords operand)).setSlot id { v with save := va })

/-- A ROAM solo task (15 R258). -/
def Gang.isRoam (q : Gang) : Bool := q.flags.getLsbD 3
/-- The engines of a core hold nothing of a slot's strand: no copy and no operation of its matrix stream (10 R199). -/
def State.enginesQuiet (s : State) (id : Nat) : Bool :=
  let k := s.core (id / 16)
  !(k.copies.any fun x => x.slot == id % 16 && x.gang == (s.slot id).gang) &&
    !(k.eng.ops.any fun o => o.slot == id % 16 && o.gang == (s.slot id).gang)
/-- A ROAM solo task can leave its slot: its stores are acknowledged and the engines hold nothing of it, so that no answer and no fault of
its own comes to a slot that it has left (DESIGN CHOICE, log 103: 15 R267 is silent on a task with engine work). -/
def State.unrooted (s : State) (id : Nat) : Bool := (s.slot id).unacked.isEmpty && s.enginesQuiet id

/-- The continuation of a slot's saved strand, which resumes at a pc under a resume kind and operand; the slot is free
(03 R71, 15 R267). -/
def State.leaveRecord (s0 : State) (id : Nat) (pc : Word) (resume : Nat × Word) : Entry × State :=
  let s := s0.settleBuckets
  let v := s.slot id
  let q := s.gang v.gang
  let cont : Slot := { v with pc := pc, resume := resume, wait := .none, inFlight := none, rep := none,
                              removed := false, stopped := false, nextTick := 0, issuedAt := none }
  let e : Entry := { s.entryOf v.gang with cont := some cont, gang := v.gang, core := id / 16, work := q.work,
                                           rqw := q.rqw, deq := q.deq, since := s.now,
                                           bind := if (s.job q.job).det then [[v.firstSlot]] else [] }
  let s1 := { s.setSlot id v.vacate with retries := s.retries.filter (fun r => r.origin != Origin.slot id) }
  (e, (s1.setGang v.gang { q with live := false }).resourcesFreed)

/-- A suspended continuation gets a number under which its watcher names it. -/
def State.addRecord (s : State) (e : Entry) : Nat × State :=
  (s.nextRecord, { s with records := s.records ++ [(s.nextRecord, e)], nextRecord := s.nextRecord + 1 })

/-- A suspended continuation's condition holds: it joins the Cistern of the cluster where the task suspended (15 R267). -/
def State.resumeRecord (s : State) (r : Nat) : State :=
  match s.records.find? (fun e => e.1 == r) with
  | none => s
  | some (_, e) => { s with records := s.records.filter (fun x => x.1 != r) }.enqueue (clusterOf e.core) { e with since := s.now }

end Sys2Proof.Machine
end

