-- ==== Sys2Proof/Machine/Integer.lean ====
section
/-! DEFINITION. Integer, bit-field, immediate, single-source, core-shared and identity instructions (03 R50 to R61). -/

namespace Sys2Proof.Machine

open Host

/-! ## Arithmetic on words -/

/-- 1 or 0. -/
def ofBool (b : Bool) : Word := if b then 1 else 0

/-- DIV (03 R51). -/
def sdivWord (a b : Word) : Word := if b = 0 then BitVec.allOnes 64 else BitVec.ofInt 64 (a.toInt.tdiv b.toInt)
/-- DIVU (03 R51). -/
def udivWord (a b : Word) : Word := if b = 0 then BitVec.allOnes 64 else BitVec.ofNat 64 (a.toNat / b.toNat)
/-- REM (03 R51). -/
def sremWord (a b : Word) : Word := if b = 0 then a else BitVec.ofInt 64 (a.toInt.tmod b.toInt)
/-- REMU (03 R51). -/
def uremWord (a b : Word) : Word := if b = 0 then a else BitVec.ofNat 64 (a.toNat % b.toNat)

/-- The shift amount of a register form: x[B][5:0] (03 R52). -/
def shamt (b : Word) : Nat := b.toNat % 64

/-- Position and width of a field descriptor, cut so that the field never passes bit 63 (03 R53). -/
def fieldPos (b : Word) : Nat := bits b 0 6
def fieldWidth (b : Word) : Nat := min (min (bits b 8 7) 64) (64 - fieldPos b)
/-- w one bits from bit 0. -/
def onesMask (w : Nat) : Word := BitVec.ofNat 64 (2 ^ w - 1)

/-- BFX (03 R53). -/
def bfxWord (a b : Word) : Word := (a >>> fieldPos b) &&& onesMask (fieldWidth b)
/-- BFI over the background d (03 R53). -/
def bfiWord (d a b : Word) : Word := merge d (a <<< fieldPos b) (onesMask (fieldWidth b) <<< fieldPos b)

/-- Leading zero bits below bit n (03 R56). -/
def clzFrom (a : Word) : Nat → Nat
  | 0 => 0
  | n + 1 => if a.getLsbD n then 0 else clzFrom a n + 1
/-- Trailing zero bits from bit 64 − n (03 R56). -/
def ctzFrom (a : Word) : Nat → Nat
  | 0 => 0
  | n + 1 => if a.getLsbD (63 - n) then 0 else ctzFrom a n + 1
/-- One bits below bit n (03 R56). -/
def popFrom (a : Word) : Nat → Nat
  | 0 => 0
  | n + 1 => popFrom a n + (if a.getLsbD n then 1 else 0)

/-! ## Three-register forms -/

/-- ADD (03 R50). -/
def execAdd (d a b : BitVec 7) (st : BitVec 2) (s : State) : Outcome State Fault Refusal :=
  .next (s.alu3 latInt d a b st fun x y => x + y)

/-- SUB (03 R50). -/
def execSub (d a b : BitVec 7) (st : BitVec 2) (s : State) : Outcome State Fault Refusal :=
  .next (s.alu3 latInt d a b st fun x y => x - y)

/-- MUL: the low 64 bits of the product (03 R50). -/
def execMul (d a b : BitVec 7) (st : BitVec 2) (s : State) : Outcome State Fault Refusal :=
  .next (s.alu3 latMul d a b st fun x y => x * y)

/-- MULH: the high 64 bits of the signed product (03 R50). -/
def execMulh (d a b : BitVec 7) (st : BitVec 2) (s : State) : Outcome State Fault Refusal :=
  .next (s.alu3 latMul d a b st fun x y => BitVec.ofInt 64 (x.toInt * y.toInt / 2 ^ 64))

/-- MULHU: the high 64 bits of the unsigned product (03 R50). -/
def execMulhu (d a b : BitVec 7) (st : BitVec 2) (s : State) : Outcome State Fault Refusal :=
  .next (s.alu3 latMul d a b st fun x y => BitVec.ofNat 64 (x.toNat * y.toNat / 2 ^ 64))

/-- DIV (03 R51). -/
def execDiv (d a b : BitVec 7) (st : BitVec 2) (s : State) : Outcome State Fault Refusal :=
  .next (s.alu3 latIdiv d a b st fun x y => sdivWord x y)

/-- DIVU (03 R51). -/
def execDivu (d a b : BitVec 7) (st : BitVec 2) (s : State) : Outcome State Fault Refusal :=
  .next (s.alu3 latIdiv d a b st fun x y => udivWord x y)

/-- REM (03 R51). -/
def execRem (d a b : BitVec 7) (st : BitVec 2) (s : State) : Outcome State Fault Refusal :=
  .next (s.alu3 latIdiv d a b st fun x y => sremWord x y)

/-- REMU (03 R51). -/
def execRemu (d a b : BitVec 7) (st : BitVec 2) (s : State) : Outcome State Fault Refusal :=
  .next (s.alu3 latIdiv d a b st fun x y => uremWord x y)

/-- MIN (03 R50). -/
def execMin (d a b : BitVec 7) (st : BitVec 2) (s : State) : Outcome State Fault Refusal :=
  .next (s.alu3 latInt d a b st fun x y => if x.slt y then x else y)

/-- MAX (03 R50). -/
def execMax (d a b : BitVec 7) (st : BitVec 2) (s : State) : Outcome State Fault Refusal :=
  .next (s.alu3 latInt d a b st fun x y => if x.slt y then y else x)

/-- MINU (03 R50). -/
def execMinu (d a b : BitVec 7) (st : BitVec 2) (s : State) : Outcome State Fault Refusal :=
  .next (s.alu3 latInt d a b st fun x y => if x.ult y then x else y)

/-- MAXU (03 R50). -/
def execMaxu (d a b : BitVec 7) (st : BitVec 2) (s : State) : Outcome State Fault Refusal :=
  .next (s.alu3 latInt d a b st fun x y => if x.ult y then y else x)

/-- AND (03 R50). -/
def execAnd (d a b : BitVec 7) (st : BitVec 2) (s : State) : Outcome State Fault Refusal :=
  .next (s.alu3 latInt d a b st fun x y => x &&& y)

/-- OR (03 R50). -/
def execOr (d a b : BitVec 7) (st : BitVec 2) (s : State) : Outcome State Fault Refusal :=
  .next (s.alu3 latInt d a b st fun x y => x ||| y)

/-- XOR (03 R50). -/
def execXor (d a b : BitVec 7) (st : BitVec 2) (s : State) : Outcome State Fault Refusal :=
  .next (s.alu3 latInt d a b st fun x y => x ^^^ y)

/-- ANDN (03 R50). -/
def execAndn (d a b : BitVec 7) (st : BitVec 2) (s : State) : Outcome State Fault Refusal :=
  .next (s.alu3 latInt d a b st fun x y => x &&& ~~~y)

/-- SHL (03 R52). -/
def execShl (d a b : BitVec 7) (st : BitVec 2) (s : State) : Outcome State Fault Refusal :=
  .next (s.alu3 latInt d a b st fun x y => x <<< shamt y)

/-- SHR (03 R52). -/
def execShr (d a b : BitVec 7) (st : BitVec 2) (s : State) : Outcome State Fault Refusal :=
  .next (s.alu3 latInt d a b st fun x y => x >>> shamt y)

/-- SAR (03 R52). -/
def execSar (d a b : BitVec 7) (st : BitVec 2) (s : State) : Outcome State Fault Refusal :=
  .next (s.alu3 latInt d a b st fun x y => x.sshiftRight (shamt y))

/-- ROL (03 R52). -/
def execRol (d a b : BitVec 7) (st : BitVec 2) (s : State) : Outcome State Fault Refusal :=
  .next (s.alu3 latInt d a b st fun x y => x.rotateLeft (shamt y))

/-- SEQ (03 R50). -/
def execSeq (d a b : BitVec 7) (st : BitVec 2) (s : State) : Outcome State Fault Refusal :=
  .next (s.alu3 latInt d a b st fun x y => ofBool (x == y))

/-- SNE (03 R50). -/
def execSne (d a b : BitVec 7) (st : BitVec 2) (s : State) : Outcome State Fault Refusal :=
  .next (s.alu3 latInt d a b st fun x y => ofBool (x != y))

/-- SLT (03 R50). -/
def execSlt (d a b : BitVec 7) (st : BitVec 2) (s : State) : Outcome State Fault Refusal :=
  .next (s.alu3 latInt d a b st fun x y => ofBool (x.slt y))

/-- SLTU (03 R50). -/
def execSltu (d a b : BitVec 7) (st : BitVec 2) (s : State) : Outcome State Fault Refusal :=
  .next (s.alu3 latInt d a b st fun x y => ofBool (x.ult y))

/-- SEL: D is the condition and the destination (03 R50). -/
def execSel (d a b : BitVec 7) (st : BitVec 2) (s : State) : Outcome State Fault Refusal :=
  .next (s.alu 4 latInt [d, a, b] d st fun s => if s.rx d != 0 then s.rx a else s.rx b)

/-- BFX (03 R53). -/
def execBfx (d a b : BitVec 7) (st : BitVec 2) (s : State) : Outcome State Fault Refusal :=
  .next (s.alu3 latInt d a b st fun x y => bfxWord x y)

/-- BFI: D is the background (03 R53). -/
def execBfi (d a b : BitVec 7) (st : BitVec 2) (s : State) : Outcome State Fault Refusal :=
  .next (s.alu 4 latInt [d, a, b] d st fun s => bfiWord (s.rx d) (s.rx a) (s.rx b))

/-- ADDSH: k = F + 1 (03 R50). -/
def execAddsh (d a b : BitVec 7) (k : BitVec 2) (st : BitVec 2) (s : State) : Outcome State Fault Refusal :=
  .next (s.alu3 latInt d a b st fun x y => x + (y <<< (k.toNat + 1)))

/-! ## Shifts by an immediate, and immediate forms -/

/-- SHLI (03 R52). -/
def execShli (d a : BitVec 7) (n : BitVec 6) (st : BitVec 2) (s : State) : Outcome State Fault Refusal :=
  .next (s.alu2 latInt d a st fun x => x <<< n.toNat)

/-- SHRI (03 R52). -/
def execShri (d a : BitVec 7) (n : BitVec 6) (st : BitVec 2) (s : State) : Outcome State Fault Refusal :=
  .next (s.alu2 latInt d a st fun x => x >>> n.toNat)

/-- SARI (03 R52). -/
def execSari (d a : BitVec 7) (n : BitVec 6) (st : BitVec 2) (s : State) : Outcome State Fault Refusal :=
  .next (s.alu2 latInt d a st fun x => x.sshiftRight n.toNat)

/-- ADDI (03 R54). -/
def execAddi (d a : BitVec 7) (i : BitVec 9) (st : BitVec 2) (s : State) : Outcome State Fault Refusal :=
  .next (s.alu2 latInt d a st fun x => x + imm i)

/-- ANDI (03 R54). -/
def execAndi (d a : BitVec 7) (i : BitVec 9) (st : BitVec 2) (s : State) : Outcome State Fault Refusal :=
  .next (s.alu2 latInt d a st fun x => x &&& imm i)

/-- ORI (03 R54). -/
def execOri (d a : BitVec 7) (i : BitVec 9) (st : BitVec 2) (s : State) : Outcome State Fault Refusal :=
  .next (s.alu2 latInt d a st fun x => x ||| imm i)

/-- XORI (03 R54). -/
def execXori (d a : BitVec 7) (i : BitVec 9) (st : BitVec 2) (s : State) : Outcome State Fault Refusal :=
  .next (s.alu2 latInt d a st fun x => x ^^^ imm i)

/-- LI (03 R55). -/
def execLi (d : BitVec 7) (i : BitVec 16) (st : BitVec 2) (s : State) : Outcome State Fault Refusal :=
  .next (s.alu 4 latInt [d] d st fun _ => imm i)

/-- LIH (03 R55). -/
def execLih (d : BitVec 7) (i : BitVec 16) (st : BitVec 2) (s : State) : Outcome State Fault Refusal :=
  .next (s.alu 4 latInt [d] d st fun s => (s.rx d <<< 16) ||| i.setWidth 64)

/-! ## Single source -/

/-- MOV (03 R56). -/
def execMov (d a : BitVec 7) (st : BitVec 2) (s : State) : Outcome State Fault Refusal :=
  .next (s.alu2 latInt d a st fun x => x)

/-- CLZ (03 R56). -/
def execClz (d a : BitVec 7) (st : BitVec 2) (s : State) : Outcome State Fault Refusal :=
  .next (s.alu2 latInt d a st fun x => BitVec.ofNat 64 (clzFrom x 64))

/-- CTZ (03 R56). -/
def execCtz (d a : BitVec 7) (st : BitVec 2) (s : State) : Outcome State Fault Refusal :=
  .next (s.alu2 latInt d a st fun x => BitVec.ofNat 64 (ctzFrom x 64))

/-- POPC (03 R56). -/
def execPopc (d a : BitVec 7) (st : BitVec 2) (s : State) : Outcome State Fault Refusal :=
  .next (s.alu2 latInt d a st fun x => BitVec.ofNat 64 (popFrom x 64))

/-- SEXTB (03 R56). -/
def execSextB (d a : BitVec 7) (st : BitVec 2) (s : State) : Outcome State Fault Refusal :=
  .next (s.alu2 latInt d a st fun x => sextN x 8)

/-- SEXTH (03 R56). -/
def execSextH (d a : BitVec 7) (st : BitVec 2) (s : State) : Outcome State Fault Refusal :=
  .next (s.alu2 latInt d a st fun x => sextN x 16)

/-- SEXTW (03 R56). -/
def execSextW (d a : BitVec 7) (st : BitVec 2) (s : State) : Outcome State Fault Refusal :=
  .next (s.alu2 latInt d a st fun x => sextN x 32)

/-- ZEXTB (03 R56). -/
def execZextB (d a : BitVec 7) (st : BitVec 2) (s : State) : Outcome State Fault Refusal :=
  .next (s.alu2 latInt d a st fun x => zextN x 8)

/-- ZEXTH (03 R56). -/
def execZextH (d a : BitVec 7) (st : BitVec 2) (s : State) : Outcome State Fault Refusal :=
  .next (s.alu2 latInt d a st fun x => zextN x 16)

/-- ZEXTW (03 R56). -/
def execZextW (d a : BitVec 7) (st : BitVec 2) (s : State) : Outcome State Fault Refusal :=
  .next (s.alu2 latInt d a st fun x => zextN x 32)

/-! ## Core-shared registers and identity -/

/-- A core-shared register of a core (01 R22). -/
def Core.sr (c : Core) (k : BitVec 4) : Word := c.s[k.toNat]'k.isLt

/-- A core-shared write that applies 8 cycles after its issue; the gang is marked as having written (03 R58, R59). -/
def State.postShared (s : State) (w : SharedWrite) : State :=
  let c := s.myCore
  let s1 := s.setCore s.coreId { c with sPend := c.sPend ++ [w] }
  let s2 := if s.me.gang = 0 then s1 else s1.setGang s.me.gang { s.myGang with shw := true }
  s2.schedule w.at_ (.delayedRegisterWrite s.coreId)

/-- The tick 8 cycles after the issue (03 R58). -/
def State.sharedAt (s : State) : Nat := s.now + 8 * tickLen s.coreId

/-- SRD: the value after every write that has applied (03 R57, R58). -/
def execSrd (d : BitVec 7) (a : BitVec 4) (st : BitVec 2) (s : State) : Outcome State Fault Refusal :=
  .next (s.alu 4 latInt [d] d st fun s => s.myCore.sr a)

/-- SWR (03 R57, R58). -/
def execSwr (d : BitVec 4) (a : BitVec 7) (st : BitVec 2) (s : State) : Outcome State Fault Refusal :=
  .next (s.guarded [a] fun s =>
    (s.postShared { at_ := s.sharedAt, reg := d, add := false, value := s.rx a }).retire 4 st)

/-- SADD: the old value reaches x[D] as the write applies (03 R57, R58). -/
def execSadd (d : BitVec 7) (a : BitVec 4) (b : BitVec 7) (st : BitVec 2) (s : State) : Outcome State Fault Refusal :=
  .next (s.guarded [d, b] fun s =>
    (s.postShared { at_ := s.sharedAt, reg := a, add := true, value := s.rx b,
                    dst := some (s.cur, s.me.mode, d) }).retire 4 st)

/-- RDCYC (03 R60). -/
def execRdcyc (d : BitVec 7) (st : BitVec 2) (s : State) : Outcome State Fault Refusal :=
  .next (s.alu 4 latInt [d] d st fun s => BitVec.ofNat 64 (s.cycleOf s.coreId))

/-- The identity word of the issuing strand (03 R61). -/
def State.identity (s : State) : Word :=
  let v := s.me
  let c := s.coreId
  BitVec.ofNat 64 (v.gang % 2 ^ 32 * 2 ^ 32 + bits v.tid 32 4 * 2 ^ 28 + v.index % 4096 * 2 ^ 16 + s.cur % 16 * 2 ^ 10 +
    coreZ c * 2 ^ 9 + coreY c * 2 ^ 5 + coreX c)

/-- RDID (03 R61). -/
def execRdid (d : BitVec 7) (st : BitVec 2) (s : State) : Outcome State Fault Refusal :=
  .next (s.alu 4 latInt [d] d st fun s => s.identity)

end Sys2Proof.Machine
end

