-- ==== Sys2Proof/Machine/CoreSteps.lean ====
section
/-! DEFINITION. Steps of a core and its slots that are no instruction: late results (06 R112), asynchronous traps (25 R388),
block-move steps (04 R102), debug stops, removals and restorations (06 R111, R121; 23 R375), breakpoints (26 R410), the end
of a delay (03 R70), and the traps of fetching and decoding (01 R14, 02 R42). -/

namespace Sys2Proof.Machine

open Host

/-! ## Late results (06 R112) -/

/-- The results of a slot that are due, in the order in which they land. -/
def Slot.dueWrites (v : Slot) (now : Nat) : List DelayedWrite :=
  isort (fun a b => decide (a.at_ ≤ b.at_)) (v.writes.filter (fun w => decide (w.at_ ≤ now)))

/-- A register written in the bank named: the shadow bank or the window (25 R385). -/
def Slot.wxBank (v : Slot) (fw : Bool) (r : BitVec 7) (w : Word) : Slot :=
  { ({ v with mode := fw }.wx r w) with mode := v.mode }
/-- A core with s k written. -/
def Core.wsr (c : Core) (k : BitVec 4) (w : Word) : Core := { c with s := c.s.set k.toNat w k.isLt }

/-- One result lands: an enabled flag traps FPE with nothing written; otherwise the register takes the value and fcsr the
flags (09 R173). A trap of a vector step has its address in place of a value (09 R185). -/
def State.landWrite (s : State) (id : Nat) (w : DelayedWrite) : State :=
  let v := s.slot id
  let on := w.flags &&& v.enables
  match w.pc with
  | some pc =>
    if on != 0 then s.takeTrap id (fpeTrap on (if w.reg = none then w.value else 0)) pc
    else s.setSlot id ((match w.reg with
      | some r => v.wxBank w.fw r w.value
      | none => v).orFlags w.flags)
  | none =>
    s.setSlot id ((match w.reg with
      | some r => v.wxBank w.fw r w.value
      | none => v).orFlags w.flags)

/-- The FPE of an unprefixed vector step that has lost more cycles to engines than it knew when it issued is raised that much later (06 R120; 09
R185). -/
def State.delayStep (s : State) (id : Nat) : State :=
  let v := s.slot id
  let t := v.stepAt + s.vLost id
  let late := fun (w : DelayedWrite) => w.reg == none && w.pc.isSome && decide (w.at_ ≤ s.now ∧ s.now < t)
  if v.writes.any late then
    (s.setSlot id { v with writes := v.writes.map fun w => if late w then { w with at_ := t } else w }).schedule t (.delayedRegisterWrite (id / 16))
  else s

/-- The due results of a slot land. -/
def State.landSlot (s0 : State) (id : Nat) : State :=
  let s := s0.delayStep id
  let v := s.slot id
  let due := v.dueWrites s.now
  if due = [] then s
  else due.foldl (fun (u : State) w => u.landWrite id w)
    (s.setSlot id { v with writes := v.writes.filter (fun w => decide (s.now < w.at_)) })

/-- A core-shared write applies (03 R57, R58). -/
def State.applyShared (s : State) (c : Nat) (w : SharedWrite) : State :=
  let k := s.core c
  let old := k.sr w.reg
  let s1 := s.setCore c (k.wsr w.reg (if w.add then old + w.value else w.value))
  match w.dst with
  | some (id, fw, r) => s1.setSlot id ((s1.slot id).wxBank fw r old)
  | none => s1

/-- DELAYED_REGISTER_WRITE: what is due on a core lands: the results of its slots, and then its core-shared writes: whatever lands in the cycle of a
SADD's x[D] was issued before that SADD (03 R57, R58; 06 R112). -/
def execDelayedRegisterWrite (s : State) : Outcome State Fault Refusal :=
  match s.ev with
  | some (.delayedRegisterWrite c) =>
    let k := s.core c
    let due := k.sPend.filter (fun w => decide (w.at_ ≤ s.now))
    let s1 := s.setCore c { k with sPend := k.sPend.filter (fun w => decide (s.now < w.at_)) }
    let s2 := (List.range 16).foldl (fun (u : State) i => u.landSlot (c * 16 + i)) s1
    .next (due.foldl (fun (u : State) w => u.applyShared c w) s2)
  | _ => .next s

/-! ## Asynchronous traps (25 R388) -/

/-- The order in which pending causes are raised: ABORT, then engine faults and refused writes as they came, then DEADLOCK. -/
def firstCause (l : List AsyncCause) : Option AsyncCause :=
  match l.find? (fun a => a.info.cause == .abort) with
  | some a => some a
  | none =>
    match l.find? (fun a => a.info.cause != .deadlock) with
    | some a => some a
    | none => l.head?

/-- An asynchronous cause is raised at this issue boundary: one that reached the slot before this cycle (25 R388). -/
def State.causeDue (s : State) : Bool := (s.me.pending.any fun a => decide (a.since < s.now)) && !s.me.mode

/-- A refused posted write, of the asynchronous causes the only one of ORIGIN 5 (04 R414; 25 R386). -/
def AsyncCause.refused (a : AsyncCause) : Bool := a.info.origin == 5
/-- No pending cause is raised in a slot's wait: firmware has the slot, or an engine, a home or a migration has what the strand waits for and none
of the causes is a refused posted write, which is raised in any wait (04 R414; 25 R388). -/
def Slot.shut (v : Slot) : Bool :=
  match v.wait with
  | .firmware => true
  | .engine | .commit | .migr => !v.pending.any (·.refused)
  | _ => false

/-- What a strand waits for in an engine, or in a migration, is taken back, so that its instruction can be issued once more: an MXOP that waits
for its gather, a CPY.W, a MIGR (04 R414; 10 R197, R203). -/
def State.withdraw (s : State) (id : Nat) : State :=
  let v := s.slot id
  let k := s.core (id / 16)
  match v.wait with
  | .gather => s.setCore (id / 16) { k with eng := { k.eng with ops := k.eng.ops.filter fun o =>
      !(o.slot == id % 16 && o.gang == v.gang && o.num == 0 && o.kind == .mxop) } }
  | .engine =>
    let mine := fun (x : CopyCmd) => x.slot == id % 16 && x.gang == v.gang && x.kind == .cpyW
    (k.copies.filter mine).foldl (fun (u : State) x => u.soon (.copyCommandStart (id / 16) x.ch))
      (s.setCore (id / 16) { k with copies := k.copies.filter fun x => !mine x })
  | .migr =>
    (s.migrs.filter fun m => m.slot == id).foldl (fun (u : State) m => u.endMigrating m.score)
      { s with migrs := s.migrs.filter fun m => m.slot != id }
  | _ => s

/-- The first instruction of a slot's handler issues: firmware acts on the trap, now, or once its slot issues again (25 R385, R389, R390). -/
def State.handlerRetry (s : State) (id : Nat) : State :=
  let v := s.slot id
  match v.wait, v.owed with
  | .firmware, some t =>
    if v.removed || v.stopped then s.schedule (s.nextRotation (id / 16)) (.asyncTrapRaise id)
    else (s.setSlot id { v with owed := none }).firmwareAct id t (v.trapArea.headD [])
  | _, _ => s

/-- ASYNC_TRAP_RAISE: a pending cause is raised in place of the instruction the strand would issue, or waits in, once a result that may
trap has landed (25 R388; 09 R173; 10 R197; 04 R414), and once a block move has posted the rest of the step it is posting, so that no byte moves
twice, or a REP pair's step has ended (04 R102; 06 R111). Without one, a handler that has not acted yet does (25 R385, R389). -/
def execAsyncTrapRaise (s : State) : Outcome State Fault Refusal :=
  match s.ev with
  | some (.asyncTrapRaise id) =>
    let v := s.slot id
    match firstCause v.pending with
    | some a =>
      if s.now < v.fpHold then .next (s.schedule v.fpHold (.asyncTrapRaise id))
      else if v.wait = .bmov ∧ v.bput ≠ 0 ∨ v.wait = .vector ∧ s.now < v.stepAt + s.vLost id then .next s
      else if v.live && v.n != 0 && !v.mode && !v.shut then
        let u := ((s.withdraw id).setSlot id { v with pending := dropFirst v.pending a, rep := none }).takeTrap id a.info v.pc
        .next (u.setSlot id { u.slot id with asyncTrap := true })
      else .next (s.handlerRetry id)
    | none => .next (s.handlerRetry id)
  | some (.handlerLaunch c j rcd) => .next (s.launchHandler c j rcd none)
  | _ => .next s

/-! ## Block-move steps -/

/-- BMOV_STEP (04 R102). -/
def execBmovStep (s : State) : Outcome State Fault Refusal :=
  match s.ev with
  | some (.bmovStep id) =>
    let v := s.slot id
    match v.wait, v.rep with
    | .bmov, some (.bmov d a b _, _) => .next (if v.stepAt ≤ s.now then { s with cur := id }.bmovStep d a b else s)
    | _, _ => .next s
  | _ => .next s

/-! ## Taking a strand at an issue boundary (06 R111, 04 R91) -/

/-- How a strand stands to being taken: at once, in this form of its slot; by parking its access first; or later. -/
inductive Taking where
  | here (v : Slot)
  | park
  | later
  deriving DecidableEq, Repr

/-- The strand of a slot, as a debug stop, a removal or a migration finds it: not while a late result is still to land, a vector step's cycles
run or an instruction is in flight. An access that waits for its FE word is parked first; a COMMIT that waits for its siblings, and a strand that
never issues again or waits for a save area, are taken as they are; an LWAIT, and an instruction that waits for a core with MXF64, issue
again (02 R45; 06 R111, R112, R117; 04 R91, R104; 13 R239, R245). -/
def State.taking (s : State) (id : Nat) : Taking :=
  let v := s.slot id
  if (s.resultsDue id).isSome ∨ s.now < v.stepAt + s.vLost id ∧ v.wait = .none then .later
  else
  match v.wait with
  | .none | .delay _ | .low _ | .parked | .firmware | .cond .bank | .cond .lastStrand | .cond .never | .cond (.poolRoom _) =>
    .here v
  | .cond (.lwAtLeast _) | .cond .mxf64Room => .here { v with wait := .none, issuedAt := none }
  | .cond _ => .later
  | .vector => .here { v with wait := .none, rep := none }
  | .bmov => if v.bread = [] ∧ v.bput = 0 then .here { v with wait := .none, rep := none } else .later
  | .retry =>
    match s.retries.find? (fun r => r.origin == Origin.slot id) with
    | some r => if r.op.isWatch then .here v else .park
    | none =>
      if v.inFlight.any (fun f => f.away && f.park.isSome) then .park
      else if v.inFlight.any (·.away) ∧ (v.resume.1 = 2 ∨ v.resume.1 = 3) then .here v
      else .later
  | .fetch | .gather | .engine | .commit | .migr => .later

/-- A strand that no taker could take at this boundary, because a result is to land or a vector step runs, issues nothing before the next rotation
boundary, at which the taker looks again (06 R111). -/
def State.calm (s : State) (id : Nat) : State :=
  let v := s.slot id
  match v.wait with
  | .none => s.setSlot id { v with nextTick := max v.nextTick (s.nextRotation (id / 16)) }
  | _ => s

/-- A strand whose access waits in a retry list of another module is saved: the home there is told, its slot is held, a ROAM
solo task's is released, and firmware's park list holds it under the tag of its request (04 R88, R91; 07 R137). None where the pool has no room, or a ROAM solo task
cannot leave its slot yet. -/
def State.parkAway (s : State) (id : Nat) (f : InFlight) : Option State :=
  let leaves := (s.gang (s.slot id).gang).isRoam && (s.slot id).saved.isEmpty
  match if leaves && !s.unrooted id then none else s.saveStrand id f.va with
  | none => none
  | some s1 =>
    let v := s1.slot id
    let s2 := s1.send (.parkConfirm (bits f.va 48 12) f.tag)
    let kind := (f.park.getD 2, f.va)
    if leaves then
      let p := s2.leaveRecord id v.pc kind
      let e := { p.1 with cont := p.1.cont.map fun c => { c with inFlight := some f } }
      some { p.2 with parks := p.2.parks ++ [(2 ^ 64 + f.tag, .record e)] }
    else
      let s3 := s2.setSlot id { v with wait := .parked, resume := kind }
      some { s3 with parks := s3.parks ++ [(2 ^ 64 + f.tag, .slot id)] }

/-- A waiting access is marked so that its strand parks now (04 R91). -/
def State.forcePark (s : State) (id : Nat) : State :=
  if s.retries.any (fun r => r.origin == Origin.slot id && r.parking) then s
  else if s.retries.any (fun r => r.origin == Origin.slot id) then
    let l := s.retries.map fun (r : Retry) => if r.origin = Origin.slot id then { r with parking := true } else r
    { s with retries := l }.soon (.parkSave id 0)
  else match (s.slot id).inFlight with
    | some f => (s.parkAway id f).getD s
    | none => s

/-- Strands that asked for an operation on a slot learn its previous state (23 R375). -/
def State.tellAskers (s : State) (id : Nat) : State :=
  let v := s.slot id
  v.askers.foldl (fun (u : State) a =>
    match (u.slot a.1).inFlight with
    | some f => u.deliver a.1 f { vals := [BitVec.ofNat 64 a.2] }
    | none => u) (s.setSlot id { v with askers := [] })

/-- DEBUG_STOP: the slot becomes a bubble once its strand can be taken (23 R375; 06 R111; 04 R91). -/
def execDebugStop (s : State) : Outcome State Fault Refusal :=
  match s.ev with
  | some (.debugStop id) =>
    let v := s.slot id
    let again := s.nextRotation (id / 16)
    if v.live = false then .next ((s.setSlot id { v with stopped := true }).tellAskers id)
    else match s.taking id with
      | .here w => .next ((s.setSlot id { w with stopped := true }).tellAskers id)
      | .park => .next ((s.forcePark id).schedule again (.debugStop id))
      | .later => .next ((s.calm id).schedule again (.debugStop id))
  | _ => .next s

/-- The resume kind and operand of a strand that waits under SUSP in its slot, and of any other NEXT (03 R70). -/
def Slot.suspension (v : Slot) : Nat × Word :=
  match v.wait with
  | .delay _ | .low _ | .retry => v.resume
  | _ => (0, 0)

/-- A ROAM solo task leaves its slot for a removal: a strand that waits under SUSP stays under its condition, whose watcher then
names its record, and any other is requeued at once (06 R121; 15 R267). -/
def State.requeueHere (s : State) (id : Nat) (v : Slot) : State :=
  let susp := v.suspension
  match v.wait with
  | .delay t =>
    let p := s.leaveRecord id (v.pc + 4) susp
    let r := p.2.addRecord p.1
    r.2.schedule t (.suspDelayExpiry r.1)
  | .low _ =>
    let p := s.leaveRecord id (v.pc + 4) susp
    (p.2.addRecord p.1).2
  | .retry =>
    let w := s.retries.find? (fun r => r.origin == Origin.slot id)
    let p := s.leaveRecord id (v.pc + 4) susp
    let r := p.2.addRecord p.1
    match w with
    | some x => { r.2 with retries := r.2.retries ++ [{ x with origin := .slot r.1 }] }
    | none => r.2
  | _ =>
    let p := s.leaveRecord id v.pc susp
    p.2.enqueue (clusterOf (id / 16)) p.1

/-- A strand that must be saved and finds no room in its job's pool waits out of rotation until an area frees (15 R261). -/
def State.holdForPool (s : State) (id : Nat) (v : Slot) : State :=
  match v.wait with
  | .none | .vector | .bmov => s.setSlot id { v with wait := .cond (.poolRoom (128 + 8 * v.n)) }
  | _ => s

/-- SLOT_REMOVAL: at a rotation boundary the slot is removed: a ROAM solo task is suspended and requeued, a gang strand stays
in place (06 R121). A ROAM solo task whose trap firmware handles stays in place too (DESIGN CHOICE, log 103: 25 R389 leaves the strand waiting
in its slot). -/
def execSlotRemoval (s : State) : Outcome State Fault Refusal :=
  match s.ev with
  | some (.slotRemoval id) =>
    let v := s.slot id
    let again := s.nextRotation (id / 16)
    if v.live = false then .next ((s.setSlot id { v with removed := true }).tellAskers id)
    else match s.taking id with
      | .park => .next ((s.forcePark id).schedule again (.slotRemoval id))
      | .later => .next ((s.calm id).schedule again (.slotRemoval id))
      | .here w =>
        let s1 := s.setSlot id { w with removed := true }
        if (s.gang v.gang).isRoam && !w.mode && w.saved.isEmpty && w.wait != .parked then
          if !s.unrooted id then .next ((if w.unacked.isEmpty then s else s.calm id).schedule again (.slotRemoval id))
          else match s1.saveStrand id w.suspension.2 with
          | none => .next ((s.holdForPool id w).schedule again (.slotRemoval id))
          | some s2 => .next ((s2.requeueHere id w).tellAskers id)
        else .next (s1.tellAskers id)
  | _ => .next s

/-- SLOT_RESTORE: at a rotation boundary the slot is present again, and a removal still to take effect is off; its strand issues from there (06
R121, R109). -/
def execSlotRestore (s : State) : Outcome State Fault Refusal :=
  match s.ev with
  | some (.slotRestore id) =>
    let v := s.slot id
    let s := { s with removals := s.removals.filter (· != id), agenda := s.agenda.filter fun e => e.2 != Ev.slotRemoval id }
    .next (((s.setSlot id { v with removed := false, nextTick := max v.nextTick s.now }).tellAskers id).soon
      (.agingStep (clusterOf (id / 16))))
  | _ => .next s

/-- BREAKPOINT: the slot stops before the instruction at its pc, the host is told, and the trace ring records it (26 R410,
R406). -/
def execBreakpoint (s : State) : Outcome State Fault Refusal :=
  match s.ev with
  | some (.breakpoint id) =>
    let v := s.slot id
    let j := (s.gang v.gang).job
    let s1 := s.setSlot id { v with stopped := true, past := some v.pc }
    let s2 := s1.postEvent 3 j (BitVec.ofNat 64 (id / 16)) (BitVec.ofNat 64 (id % 16)) v.pc
    .next (s2.trace j [BitVec.ofNat 64 (id / 16 * 2 ^ 32 + id % 16 * 2 ^ 28), v.vt, v.pc,
      BitVec.ofNat 64 (bits v.tid 0 32), 0, 0, 0, 0])
  | _ => .next s

/-- SUSP_DELAY_EXPIRY: the rotations of a SUSP of kind DELAY have passed (03 R70, R71). -/
def execSuspDelayExpiry (s : State) : Outcome State Fault Refusal :=
  match s.ev with
  | some (.suspDelayExpiry id) =>
    if 65536 ≤ id then .next (s.resumeRecord id)
    else
      match (s.slot id).wait with
      | .delay t => .next (if t ≤ s.now then s.complete id 4 else s)
      | _ => .next s
  | _ => .next s

/-! ## Fetching and decoding -/

/-- ILLEGAL_ENCODING: bits that are no instruction trap ILLEGAL (02 R42). -/
def execIllegalEncoding (s : State) : Outcome State Fault Refusal := .next (s.trapHere { cause := .illegal })

/-- The trap of an instruction whose halfword at `addr` cannot be fetched (01 R14; 25 R386). -/
def fetchTrap (prot : Bool) (addr : Word) (level : Nat) : TrapInfo :=
  { cause := if prot then .prot else .xlat, addr := addr, detail := if prot then 0 else level }

/-- INSTRUCTION_FETCH_FAULT (01 R14). -/
def execInstructionFetchFault (s : State) : Outcome State Fault Refusal :=
  match s.ev with
  | some (.instructionFetchFault prot addr level) => .next (s.trapHere (fetchTrap prot addr level))
  | _ => .next s

end Sys2Proof.Machine
end

