-- ==== Sys2Proof/Machine/Place.lean ====
section
/-! DEFINITION. Room on a core for a gang's part (15 R255), the order of nearness (02 R45), what a core does when it takes a
gang (01 R22; 07 R131), and moving a gang's part from one core to another (23 R372, 25 R390, R395). -/

namespace Sys2Proof.Machine

/-! ## Room (15 R255; 06 R110) -/

/-- Free present slots of a core, by number. -/
def State.freeSlots (s : State) (c : Nat) : List Nat :=
  (List.range 16).filter fun i => !(s.slot (c * 16 + i)).live && !(s.slot (c * 16 + i)).removed
/-- Free accumulator tiles of a core (12 R219). -/
def State.freeTiles (s : State) (c : Nat) : List Nat :=
  (List.range 8).filter fun i => !(s.gangs.any fun g => (tget g.2.tiles c []).contains i)
/-- Free barrier registers of a core. -/
def State.freeBars (s : State) (c : Nat) : List Nat :=
  (List.range 8).filter fun i => !(s.gangs.any fun g => (tget g.2.bars c []).contains i)
/-- The L1 mode a gang asks for (07 R131). -/
def wantsFuse (hdr : Word) (j : Job) : Bool := hdr.getLsbD 36 || j.l1fuse
/-- Gangs run on a cluster. -/
def State.clusterBusy (s : State) (cl : Nat) : Bool :=
  s.gangs.any fun g => g.2.live && g.2.cores.any (fun c => clusterOf c == cl)

/-- What a gang's part needs of a core; `slots` names the slots a DET binding asks for, or any where it is empty. A part that moves keeps
the numbers of its memberships, and of its attention contexts where it leaves their cluster `cl` (DEDUCED, log 99: its registers hold
them). -/
structure Need where
  spc : Nat
  acc : Nat
  bars : Nat
  fuse : Bool
  slots : List Nat := []
  members : List Nat := []
  ctxs : List Nat := []
  cl : Nat := 0
  deriving DecidableEq, Repr

/-- A core has room (15 R255): it is ready and not halted, and has the slots, accumulators, barrier registers and L1 mode. -/
def State.hasRoom (s : State) (c : Nat) (n : Need) : Bool :=
  let free := s.freeSlots c
  !(s.core c).halted && s.ready.getLsbD (18 + 2 * frondOf c + coreZ c) &&
    decide (n.spc ≤ free.length) && n.slots.all free.contains &&
    decide (n.acc ≤ (s.freeTiles c).length) && decide (n.bars ≤ (s.freeBars c).length) &&
    n.members.all (fun i => !(s.core c).members.any fun m => m.1 == i) &&
    (clusterOf c == n.cl || n.ctxs.all fun i => !(s.cluster (clusterOf c)).attn.any fun a => a.1 == i) &&
    (!s.clusterBusy (clusterOf c) || (s.cluster (clusterOf c)).fused == n.fuse)

/-- Column class that a job maps a task class to (15 R266). -/
def Job.classOk (j : Job) (cls c : Nat) : Bool := j.classMap.getD cls 0 == 0 || j.classMap.getD cls 0 == classOf c
/-- A core inside a job's sub-mesh and its tenant's rectangle (15 R255, R271). -/
def State.inJob (s : State) (j c : Nat) : Bool := (s.job j).covers c && s.inTenant (s.job j).tenant c

/-- Cores in the order of nearness to one: fewest hops, then lower y, x and z (02 R45). -/
def nearest (c : Nat) (l : List Nat) : List Nat :=
  let key := fun d => ((hops c d * 16 + coreY d) * 32 + coreX d) * 2 + coreZ d
  isort (fun a b => decide (key a ≤ key b)) l

/-! ## A core takes a gang -/

/-- The core and its pair pass to a job's tenant: registers of an earlier tenant are zeroed (01 R22), and nothing of the local memory is in
use by this one yet (log 32). Its cluster may be hungry no longer (15 R264). -/
def State.claimCore (s : State) (c j : Nat) : State :=
  let t := (s.job j).tenant
  let k := s.core c
  let p := s.pair (pairOf c)
  let s1 := if k.tenant = t then s
    else { s.setCore c { k with tenant := t, s := Vector.replicate 16 0, sPend := [] } with
           used := s.used.filter fun a => windowCore a != some c }
  (if p.tenant = t then s1 else s1.setPair (pairOf c) { p with tenant := t, w := [], wOld := [] }).poke (clusterOf c)

/-- A cluster takes the L1 mode of the gang placed on it; a change invalidates its eight L1s (07 R131). -/
def State.setFuse (s : State) (cl : Nat) (fuse : Bool) : State :=
  if (s.cluster cl).fused = fuse then s
  else (List.range 8).foldl (fun (u : State) i => u.setCore (clusterCore cl i) { u.core (clusterCore cl i) with l1 := [] })
    (s.setCluster cl { s.cluster cl with fused := fuse })

/-- The first n free accumulator tiles of a core at +0 and barrier registers at 0, assigned to a gang (12 R219; 01 R22). -/
def State.assign (s : State) (g c acc bars : Nat) : State :=
  let q := s.gang g
  let ts := (s.freeTiles c).take acc
  let bs := (s.freeBars c).take bars
  let k := s.core c
  let s1 := s.setCore c { k with tiles := k.tiles.filter (fun e => !ts.contains e.1), bx := k.bx.filter (fun e => !bs.contains e.1) }
  s1.setGang g { q with tiles := tset q.tiles c ts, bars := tset q.bars c bs }

/-! ## Moving a part (23 R372, R373; 25 R390) -/

/-- A pending step that names a strand's slot, for the slot it now stands in. -/
def redirectEv (e : Ev) (a b : Nat) : Ev :=
  let into := fun (n : Nat) => if n = a then b else n
  let origin := fun (o : Origin) => if o = .slot a then .slot b else o
  match e with
  | .timed id e => .timed id (redirectEv e a b)
  | .homeRequest r => .homeRequest { r with origin := origin r.origin }
  | .portAccess r => .portAccess { r with origin := origin r.origin }
  | .asyncTrapRaise n => .asyncTrapRaise (into n)
  | .vectorStep n => .vectorStep (into n)
  | .bmovStep n => .bmovStep (into n)
  | .suspDelayExpiry n => .suspDelayExpiry (into n)
  | .parkSave n t => .parkSave (into n) t
  | .parkConfirm o => .parkConfirm (origin o)
  | .homeReply n r => .homeReply (into n) r
  | .storeAcknowledge n p => .storeAcknowledge (into n) p
  | .engineReturn n => .engineReturn (into n)
  | .attentionEngineComplete n => .attentionEngineComplete (into n)
  | .retry n => .retry (into n)
  | .skip n => .skip (into n)
  | .drop n => .drop (into n)
  | .abortResp n => .abortResp (into n)
  | e => e

/-- Every queue entry of the module changed by a function. -/
def State.mapEntries (s : State) (f : Entry → Entry) : State :=
  { s with
    clusters := s.clusters.map fun c =>
      (c.1, { c.2 with cistern := c.2.cistern.map f, waiting := c.2.waiting.map f, stolen := c.2.stolen.map f })
    records := s.records.map fun r => (r.1, f r.2)
    parks := s.parks.map fun p => (p.1, match p.2 with
      | .record e => .record (f e)
      | x => x) }

/-- The core at which a moved strand's wait was begun. -/
def Slot.movedWait (v : Slot) (c : Nat) : Option Nat :=
  match v.wait with
  | .retry | .parked => some (v.via.getD c)
  | _ => none
/-- A strand moves from slot a to slot b with everything that names it: its retry entry, its park-list entry, its pending
steps, and the handler task of its trap. It issues in the first rotation that begins after (06 R110). -/
def State.moveSlot (s0 : State) (a b : Nat) : State :=
  let s := s0.settleBuckets
  let v := s.slot a
  let into := fun (h : Option Nat) => if h = some a then some b else h
  let s1 := (s.setSlot a { v.vacate with askers := v.askers }).setSlot b
    { v with removed := false, via := v.movedWait (a / 16), askers := (s.slot b).askers, lastPc := (s.slot b).lastPc, nextTick := s.nextRotation (b / 16) }
  let s2 := v.writes.foldl (fun (u : State) w => u.schedule w.at_ (.delayedRegisterWrite (b / 16))) s1
  { s2.mapEntries (fun e => { e with handlerFor := into e.handlerFor }) with
    agenda := s2.agenda.map fun e => (e.1, redirectEv e.2 a b)
    retries := s1.retries.map fun (r : Retry) => if r.origin = Origin.slot a then { r with origin := Origin.slot b } else r
    parks := s1.parks.map fun p => if p.2 = .slot a then (p.1, .slot b) else p
    gangs := s1.gangs.map fun g => (g.1, { g.2 with handlerFor := into g.2.handlerFor })
    rings := s1.rings.map fun (r : Ring) => { r with joining := r.joining.map fun w => if w.1 = a then (b, w.2) else w } }

/-- Slots of a core where a gang has a strand or is a saved parent. -/
def State.partSlots (s : State) (g c : Nat) : List Nat := (s.slotsOf g).filter fun id => id / 16 == c
/-- A gang and the inline children that run in its slots on a core (13 R236). -/
def State.partGangs (s : State) (g c : Nat) : List Nat :=
  ((s.partSlots g c).flatMap fun id => (s.slot id).gang :: (s.slot id).saved.map (·.gang)).foldl
    (fun l h => if l.contains h then l else l ++ [h]) [g]

/-- The lines of a core's local memory that are in use, by offset (23 R372; log 32). -/
def State.usedLines (s : State) (c : Nat) : List Nat :=
  (s.used.filter fun a => decide (localBase c ≤ a ∧ a < localBase c + 0x180000)).map (· - localBase c)
/-- A core's local memory in use streams to another, every byte of its lines (23 R372; 21 R345; log 32). -/
def State.moveMemory (s : State) (c d : Nat) : State :=
  let l := s.usedLines c
  let s1 := l.foldl (fun (u : State) o => { u with mem := memPut u.mem (localBase d + o) (memBytes s.mem (localBase c + o) 64) }) s
  { s1 with used := l.foldl (fun l o => let a := localBase d + o; if l.contains a then l else a :: l) s1.used }

/-- A channel's key in a gang's counters. -/
def chKey (c ch : Nat) : Nat := c * 4 + ch

/-- The contents of a gang's accumulators and barrier registers on a core move to those it is assigned on another, with the follow-ons
that are not ready (10 R198, R210); arrivals follow their strands' slots. -/
def State.moveEngine (s : State) (g c d : Nat) (slots : List (Nat × Nat)) : State :=
  let q := s.gang g
  let ts := tget q.tiles c []
  let bs := tget q.bars c []
  let s1 := s.assign g d ts.length bs.length
  let q1 := s1.gang g
  let src := s1.core c
  let renum := fun (l : List (Nat × Nat)) => l.map fun e => (((slots.find? (fun p => p.1 % 16 == e.1)).map (·.2 % 16)).getD e.1, e.2)
  let dst := s1.core d
  let t1 := (ts.zip (tget q1.tiles d [])).foldl (fun (t : Table Tile) p => tset t p.2 (src.tile p.1)) dst.tiles
  let b1 := (bs.zip (tget q1.bars d [])).foldl (fun (t : Table Barrier) p =>
    let b := src.barrier p.1
    tset t p.2 { b with arrived := renum b.arrived, lastGen := renum b.lastGen }) dst.bx
  let chans := fun (t : Table Nat) => t.map fun e => if e.1 / 4 = c then (chKey d (e.1 % 4), e.2) else e
  let tile := fun (i : Nat) => (((ts.zip (tget q1.tiles d [])).find? (fun (p : Nat × Nat) => p.1 == i)).map (fun (p : Nat × Nat) => p.2)).getD i
  let ops := (src.eng.ops.filter (fun o => o.gang == g)).map fun (o : MxOp) =>
    { o with slot := ((slots.find? (fun p => p.1 % 16 == o.slot)).map (·.2 % 16)).getD o.slot, tiles := o.tiles.map tile }
  let s2 := s1.setCore c { src with eng := { src.eng with ops := src.eng.ops.filter (fun o => o.gang != g) } }
  (s2.setCore d { dst with tiles := t1, bx := b1, eng := { dst.eng with ops := dst.eng.ops ++ ops } }).setGang g
    { q1 with tiles := tdel q1.tiles c, bars := tdel q1.bars c, chIssued := chans q1.chIssued, chDone := chans q1.chDone,
              moved := if q1.moved.any (fun m => m.2 == c) then
                  q1.moved.map fun m => if m.2 = c then (m.1, d) else m
                else q1.moved ++ [(c, d)] }

/-- The lowest free key below a bound, or the preferred one where it is free. -/
def freeKey {α : Type} (t : Table α) (want bound : Nat) : Option Nat :=
  if t.any (fun e => e.1 == want) then (List.range bound).find? (fun i => !t.any (fun e => e.1 == i)) else some want

/-- The attention contexts that travel with a gang's part: those whose state area lies on its core, and every one with the gang's last part in the
cluster (DESIGN CHOICE, log 99: 19 R333 says only that contexts travel with the context). -/
def State.partCtxs (s : State) (g c : Nat) : List (Nat × AttnCtx) :=
  let last := !((s.gang g).cores.any fun d => d != c && clusterOf d == clusterOf c)
  (s.cluster (clusterOf c)).attn.filter fun a => a.2.gang == g && (last || a.2.sa / 2 ^ 21 == clusterIdx c)

/-- A gang's copy entries, version readers, Rill memberships and attention contexts move with its part (12 R224; 21 R345). -/
def State.moveUnits (s : State) (g c d : Nat) (slots : List (Nat × Nat)) : State :=
  let k := s.core c
  let mine := k.copies.filter (fun x => x.gang == g)
  let at_ := fun (i : Nat) => ((slots.find? (fun (p : Nat × Nat) => p.1 % 16 == i)).map (fun (p : Nat × Nat) => p.2 % 16)).getD i
  let renum := fun (x : CopyCmd) => { x with slot := at_ x.slot, claimed := false, rAt := none, wAt := none }
  let ms := k.members.filter (fun m => m.2.gang == g)
  let s1 := s.setCore c { k with copies := k.copies.filter (fun x => x.gang != g), members := k.members.filter (fun m => m.2.gang != g) }
  let s2 := s1.setCore d (mine.foldl (fun (k : Core) x => k.chain { renum x with entry := k.copyEntry x.ch }) (s1.core d))
  let s3 := { s2 with readers := s2.readers.map fun (r : Reader) => if r.core = c ∧ r.gang = g then { r with core := d } else r }
  let s4 := ms.foldl (fun (u : State) m =>
    match freeKey (u.core d).members m.1 4 with
    | none => u
    | some i =>
      let u1 := u.setCore d { u.core d with members := tset (u.core d).members i m.2 }
      { u1 with rings := u1.rings.map fun (r : Ring) =>
          { r with members := r.members.map fun p =>
                     if p = (c, m.1) ∧ r.job = m.2.job ∧ r.ring = m.2.ring then (d, i) else p
                   joining := r.joining.map fun w =>
                     if w.1 / 16 = d ∧ w.2.2 = m.1 ∧ r.job = m.2.job ∧ r.ring = m.2.ring then (w.1, w.2.1, i) else w } }) s3
  let into := fun (a : Nat) => if a / 2 ^ 21 = clusterIdx c then clusterIdx d * 2 ^ 21 + a % 2 ^ 21 else a
  let went := s.partCtxs g c
  let ctx := went.map fun (a : Nat × AttnCtx) =>
    (a.1, { a.2 with qa := into a.2.qa, sa := into a.2.sa })
  if clusterOf c = clusterOf d then
    s4.setCluster (clusterOf c) { s4.cluster (clusterOf c) with
      attn := ctx.foldl (fun (t : Table AttnCtx) a => tset t a.1 a.2) (s4.cluster (clusterOf c)).attn }
  else
    let s5 := s4.setCluster (clusterOf c) { s4.cluster (clusterOf c) with
      attn := (s4.cluster (clusterOf c)).attn.filter (fun a => !went.contains a) }
    ctx.foldl (fun (u : State) a =>
      let cl := u.cluster (clusterOf d)
      match freeKey cl.attn a.1 8 with
      | none => u
      | some i => u.setCluster (clusterOf d) { cl with attn := tset cl.attn i a.2 }) s5

/-- What the part of a gang on a core needs elsewhere. -/
def State.partNeed (s : State) (g c : Nat) : Need :=
  let q := s.gang g
  let ids := s.partSlots g c
  let gs := s.partGangs g c
  { spc := ids.length
    acc := (gs.map fun h => (tget (s.gang h).tiles c []).length).foldl (· + ·) 0
    bars := (gs.map fun h => (tget (s.gang h).bars c []).length).foldl (· + ·) 0
    fuse := (s.cluster (clusterOf c)).fused
    slots := if (s.job q.job).det then ids.map (· % 16) else []
    members := ((s.core c).members.filter fun m => gs.contains m.2.gang).map (·.1)
    ctxs := (gs.flatMap fun h => s.partCtxs h c).map (·.1)
    cl := clusterOf c }

/-- The engine work that a migration lets complete first has completed (10 R210; 12 R224): a stopped copy travels, with the
copies queued behind it. A licence holder finishes its current MXOP (23 R372 step 2). -/
def State.partQuiet (s : State) (g c : Nat) : Bool :=
  let k := s.core c
  let gs := s.partGangs g c
  let mine := k.copies.filter (fun x => gs.contains x.gang)
  k.eng.ops.all (fun o => !gs.contains o.gang || o.stage == .notReady) &&
    !(gs.any (s.engineUsers c).contains && s.holdsLicence c && k.eng.arrayBusy.isSome) &&
    mine.all (fun x => x.state == .stopped || x.state == .followOnPending ||
      (x.state == .queued && mine.any (fun y => y.ch == x.ch && y.state == .stopped)))

/-- Every barrier of a gang is between generations (13 R250). -/
def State.barriersQuiet (s : State) (g : Nat) : Bool :=
  (s.gang g).bars.all fun e => e.2.all fun i => ((s.core e.1).barrier i).arrived.isEmpty

/-- The place of a live copy in its task's record (16 R280). -/
def State.copyMoved (s : State) (task job : Nat) (c : HedgeCopy) : State :=
  { s with hedges := s.hedges.map fun (r : HedgeRec) =>
      (if r.task = task ∧ r.job = job then { r with copies := r.copies.map fun x => if x.copy = c.copy then c else x } else r) }
/-- The record of a gang's task learns where the gang now stands (16 R280; log 94). -/
def State.tellMoved (s : State) (g modul core : Nat) : State :=
  let q := s.gang g
  let c : HedgeCopy := { copy := q.copy, modul := modul, core := core, gang := g }
  if q.flags.getLsbD 0 = false then s
  else match s.arbPlace (q.cores.headD 0) q.job q.packet with
    | .away m => s.send (.hedge m (.moved q.task q.job c))
    | _ => s.copyMoved q.task q.job c

/-- What follows at a core that a part has left: the hold and a request go with the last gang that used the engine, and its licence passes on or
parks (10 R208, R210; 23 R372 step 2). -/
def State.afterLeaving (s : State) (c : Nat) (uses : Bool) : State :=
  let s1 := if s.engineUsers c = [] then s.setEng c { s.eng c with hold := false, request := none, licqPending := false } else s
  ((if uses then s1.leaveLicence c else s1.settleLicence (pairOf c)).soon (.arrayStart c)).resourcesFreed

/-- The gang's part on core c moves to core d of this module, with the gangs of its inline children. The hold travels
(25 R396). -/
def State.movePart (s : State) (g c d : Nat) : State :=
  let need := s.partNeed g c
  let ids := s.partSlots g c
  let gs := s.partGangs g c
  let into := if need.slots = [] then (s.freeSlots d).take ids.length else need.slots
  let pairs := ids.zip (into.map (d * 16 + ·))
  let s0 := (s.setFuse (clusterOf d) need.fuse).claimCore d (s.gang g).job
  let s1 := pairs.foldl (fun (u : State) p => u.moveSlot p.1 p.2) (s0.moveMemory c d)
  let s2 := gs.foldl (fun (u : State) h => (u.moveEngine h c d pairs).moveUnits h c d pairs) s1
  let uses := gs.any (s.engineUsers c).contains
  let s3 := if (s.eng c).hold then s2.setEng d { s2.eng d with hold := true } else s2
  (gs.foldl (fun (u : State) h =>
    if (s.gang h).cores.headD 0 = c then u.tellMoved h (s.job (s.gang h).job).self d else u) s3).afterLeaving c uses

/-- A gang's part, or an inline child in its slots, has written core-shared registers (03 R59). -/
def State.partShw (s : State) (g c : Nat) : Bool := (s.partGangs g c).any fun h => (s.gang h).shw
/-- A core's s0 to s15 once the writes under way have applied (03 R58). -/
def Core.sharedNow (k : Core) : Core :=
  k.sPend.foldl (fun (k : Core) w => k.wsr w.reg (if w.add then k.sr w.reg + w.value else w.value)) k
/-- A whole core context carries s0 to s15 (03 R59). -/
def State.moveShared (s : State) (c d : Nat) : State := s.setCore d { s.core d with s := (s.core c).sharedNow.s }
/-- The same for a gang's part that has to carry them. -/
def State.carryShared (s : State) (marked : Bool) (c d : Nat) : State := if marked then s.moveShared c d else s

/-- A forwarding entry stands at a core for a moved gang, 0 for its whole context, with the lowest VT moved and 1 ms to live
(23 R372 step 5). Firmware's and an instruction's own moves, which no BUSY answers, go on without one where all 16 are in use
(DESIGN CHOICE, log 91: 02 R45 and 23 R376 are silent). -/
def State.installFwd (s : State) (c modul d g vt : Nat) (jobs : List Nat) : State :=
  let k := s.core c
  match (List.range 16).find? (fun i => !bitAt (tget k.fwd i {}).f0 63) with
  | none => s
  | some i =>
    let ex := s.stamp + 1000000
    let f : FwdEntry := { f0 := BitVec.ofNat 64 (2 ^ 63 + modul * 2 ^ 44 + d), f1 := BitVec.ofNat 64 g,
                          f2 := BitVec.ofNat 64 vt, f3 := BitVec.ofNat 64 ex, jobs := jobs }
    (s.setCore c { k with fwd := tset k.fwd i f }).schedule (ex * nsTicks) (.forwardingEntryExpiry c i)

/-! ## Taking the strands of a context (23 R372) -/

/-- The gangs with a part on a core. -/
def State.gangsOn (s : State) (c : Nat) : List Nat :=
  (s.gangs.filter fun q => q.2.live && q.2.inline.isNone && q.2.cores.contains c).map (·.1)

/-- What the parts of several gangs on a core need together. -/
def State.needOf (s : State) (gs : List Nat) (c : Nat) : Need :=
  gs.foldl (fun (n : Need) g =>
    let m := s.partNeed g c
    { spc := n.spc + m.spc, acc := n.acc + m.acc, bars := n.bars + m.bars, fuse := m.fuse, slots := n.slots ++ m.slots,
      members := n.members ++ m.members, ctxs := n.ctxs ++ m.ctxs, cl := m.cl })
    { spc := 0, acc := 0, bars := 0, fuse := (s.cluster (clusterOf c)).fused }

/-- An attention engine has an operation of a gang in hand, or waiting its turn (19 R333; 21 R345). -/
def State.attending (s : State) (g : Nat) : Bool := s.clusters.any fun c => c.2.attnQ.any fun e => e.2 == g
/-- Every strand of gangs on a core can be taken, and their engines and barriers are quiet (06 R111; 10 R210; 13 R250; 19 R333). -/
def State.canTake (s : State) (gs : List Nat) (c : Nat) : Bool :=
  gs.all fun g => s.partQuiet g c && s.barriersQuiet g && !s.attending g && (s.partSlots g c).all fun id =>
    match s.taking id with
    | .here _ => true
    | _ => false

/-- Strands of gangs on a core as a migration takes them: between steps, and with waiting accesses told to park (04 R91). -/
def State.takeStrands (s : State) (gs : List Nat) (c : Nat) : State :=
  (gs.flatMap fun g => s.partSlots g c).foldl (fun (u : State) id =>
    match u.taking id with
    | .park => u.forcePark id
    | .later => u.calm id
    | .here _ => u) s

/-- Strands taken between the steps of a REP pair or a BMOV begin it again at the destination (03 R68; 04 R102). -/
def State.settleSteps (s : State) (gs : List Nat) (c : Nat) : State :=
  (gs.flatMap fun g => s.partSlots g c).foldl (fun (u : State) id =>
    match u.taking id with
    | .here v => u.setSlot id v
    | _ => u) s

/-- The lowest VT among gangs. -/
def State.lowestVt (s : State) (gs : List Nat) : Nat :=
  match gs.map fun g => packetVt (s.gang g).packet with
  | [] => 0
  | v :: r => r.foldl min v

/-- All 16 forwarding entries of a core are in use (23 R372, R373). -/
def State.fwdFull (s : State) (c : Nat) : Bool := (List.range 16).all fun i => bitAt (tget (s.core c).fwd i {}).f0 63

/-- The parts of gangs on a core move to another, those of DET jobs first: their strands need slots of the same numbers (06 R110; 23 R372). -/
def State.moveParts (s : State) (gs : List Nat) (c d : Nat) : State :=
  let det := fun (g : Nat) => (s.job (s.gang g).job).det
  (gs.filter det ++ gs.filter fun g => !det g).foldl (fun (u : State) g => u.movePart g c d) s

/-! ## An instruction of the MXF64 extension on a core without it (02 R45) -/

/-- The cores of a job's sub-mesh on this module with the extension, nearest first. -/
def State.mxf64Cores (s : State) (j c : Nat) : List Nat :=
  nearest c ((List.range 1024).filter fun d => s.inJob j d && classOf d != 2)

/-- The gangs that move when a strand's gang needs another core: the gang, or, where it has written core-shared registers, all those of the core,
which then carry s0 to s15 (03 R59). -/
def State.mxf64Gangs (s : State) (g c : Nat) : List Nat := if s.partShw g c then s.gangsOn c else [g]
/-- A core that can take them: one with room, and for a whole core context one without gangs, whose core-shared registers it would
replace (DESIGN CHOICE, log 91). -/
def State.mxf64Takes (s : State) (g c d : Nat) : Bool :=
  s.hasRoom d (s.needOf (s.mxf64Gangs g c) c) && (!s.partShw g c || (s.gangsOn d).isEmpty)

/-- The issuing strand's instruction needs MXF64 and its core lacks it: a gang of one strand migrates to the nearest core with
room, or waits for room; any other strand traps ILLEGAL. An inline child runs in a slot of its parent, so a parent of several strands
keeps it from migrating; a gang that has written core-shared registers goes with the whole core context, as R59 has it; and a MIGR in
progress from the core does not hold the move back (DESIGN CHOICE, log 91: 02 R45 is silent on the three). -/
def State.needMxf64 (s : State) : State :=
  let c := s.coreId
  let g := (s.me.saved.getLast?.map (·.gang)).getD s.me.gang
  let l := s.mxf64Cores s.myGang.job c
  if (s.partGangs g c).any (fun h => hdrStrands (s.gang h).hdr != 1) || l.isEmpty then s.trapHere { cause := .illegal }
  else
    let gs := s.mxf64Gangs g c
    match l.find? (s.mxf64Takes g c) with
    | some d =>
      if s.canTake gs c then
        let s1 := (s.settleSteps gs c).moveParts gs c d
        let s2 := if s.partShw g c then s1.moveShared c d else s1
        s2.installFwd c 0 d (if s.partShw g c then 0 else g) (s.lowestVt gs) (gs.map fun h => (s.gang h).job)
      else (s.takeStrands (gs.filter (· != g)) c).block (.until (s.nextRotation c))
    | none => s.block .mxf64Room

end Sys2Proof.Machine
end

