-- ==== Sys2Proof/Machine/Timeline.lean ====
section
/-! DEFINITION. Timeline contexts and their counters (07 R138; 10 R192, R200, R201; 19 R320), operand-extension and twin
window registers (10 R189, R209), and what an engine reads and writes in memory (10 R191, R193; 25 R392, R398). -/

namespace Sys2Proof.Machine

open Host

/-! ## Contexts -/

/-- The counter of the matrix stream of a gang's strand in a slot: of the strand that runs, or has halted, there, or of a parent saved under its
inline child (10 R192; 13 R236). -/
def Slot.streamCounter (v : Slot) (g : Nat) : Option Nat :=
  if v.live && v.gang == g then some v.mxDone else (v.saved.find? (fun p => p.gang == g)).map (·.mxDone)
/-- The same counter set. -/
def Slot.setStream (v : Slot) (g n : Nat) : Slot :=
  if v.gang = g then { v with mxDone := n }
  else { v with saved := v.saved.map fun p => if p.gang = g then { p with mxDone := n } else p }

/-- The next number of the same stream set back (10 R198). -/
def Slot.setNext (v : Slot) (g n : Nat) : Slot :=
  if v.gang = g then { v with mxNext := n }
  else { v with saved := v.saved.map fun p => if p.gang = g then { p with mxNext := n } else p }

/-- The traps a selector raises for a gang on a core (10 R192; 19 R320). A TLW that waits for a matrix stream goes on with the counter of a strand
that has halted meanwhile (10 R199, R200). -/
def State.selectorTrap (s : State) (core gang : Nat) (sel : Word) (waits : Bool := false) : Option TrapInfo :=
  let kind := bits sel 0 4
  let idx := bits sel 4 4
  if 4 ≤ kind then some { cause := .illegal }
  else
    let ok : Bool := match kind with
      | 0 => true
      | 1 =>
        let v := s.slot (core * 16 + idx)
        v.live && (v.streamCounter gang).isSome && (v.gang != gang || v.runs || waits)
      | 2 => ((s.member core (idx % 4)).map (·.gang)) == some gang
      | _ => ((s.cluster (clusterOf core)).attn.any fun a => a.1 == idx % 8 && a.2.gang == gang)
    if ok then none else some { cause := .prot }

/-- The counter of the context a selector names (07 R138). -/
def State.counter (s : State) (core gang : Nat) (sel : Word) : Nat :=
  let idx := bits sel 4 4
  match bits sel 0 4 with
  | 0 => tget (s.gang gang).chDone (chKey core (idx % 4)) 0
  | 1 => ((s.slot (core * 16 + idx)).streamCounter gang).getD 0
  | 2 => ((s.member core (idx % 4)).map (·.counter)).getD 0
  | _ => (((s.cluster (clusterOf core)).attn.find? (fun a => a.1 == idx % 8)).map (·.2.counter)).getD 0

/-- TLW: out of rotation until the context's counter reaches x[B], then an acquire (10 R200). -/
def execTlw (a b : BitVec 7) (st : BitVec 2) (s : State) : Outcome State Fault Refusal :=
  .next (s.guarded [a, b] fun s =>
    let sel := s.rx a
    if bitAt sel 8 then s.trapHere { cause := .illegal }
    else match s.selectorTrap s.coreId s.me.gang sel s.me.issuedAt.isSome with
      | some t => s.trapHere t
      | none =>
        if (s.rx b).toNat ≤ s.counter s.coreId s.me.gang sel then (s.acquire s.coreId).retire 4 st
        else s.block (.timeline sel (s.rx b).toNat))

/-- The write pointer of a gang's lowest-numbered incomplete command on a channel (10 R201). -/
def State.writePointer (s : State) (core gang ch : Nat) : Word :=
  match (s.core core).copies.find? (fun k => k.gang == gang && k.ch == ch && k.kind != .cpyW && k.state != .followOnPending) with
  | some k => BitVec.ofNat 64 k.wp
  | none => 0xFFFFFFFFFFFFFFFF

/-- TLR: the counter, or the write pointer of a copy channel; no acquire (10 R201). -/
def execTlr (d a : BitVec 7) (st : BitVec 2) (s : State) : Outcome State Fault Refusal :=
  .next (s.guarded [d, a] fun s =>
    let sel := s.rx a
    if bitAt sel 8 && bits sel 0 4 != 0 then s.trapHere { cause := .illegal }
    else match s.selectorTrap s.coreId s.me.gang sel with
      | some t => s.trapHere t
      | none =>
        let v := if bitAt sel 8 then s.writePointer s.coreId s.me.gang (bits sel 4 2)
          else BitVec.ofNat 64 (s.counter s.coreId s.me.gang sel)
        (s.wx d v).retire 4 st)

/-! ## Operand-extension and twin window registers -/

/-- OXL (10 R189). -/
def execOxl (d : BitVec 3) (a : BitVec 7) (st : BitVec 2) (s : State) : Outcome State Fault Refusal :=
  .next (s.guarded [a] fun s => (s.setMe (s.me.wox d (s.rx a))).retire 4 st)

/-- OXLI (10 R189). -/
def execOxli (d : BitVec 3) (i : BitVec 16) (st : BitVec 2) (s : State) : Outcome State Fault Refusal :=
  .next (s.guarded [] fun s => (s.setMe (s.me.wox d (i.setWidth 64))).retire 4 st)

/-- OXR (10 R189). -/
def execOxr (d : BitVec 7) (a : BitVec 3) (st : BitVec 2) (s : State) : Outcome State Fault Refusal :=
  .next (s.alu 4 latInt [d] d st fun s => s.oxr a)

/-- The twin window registers of a slot and its twin (06 R116). -/
def State.windows (s : State) (id : Nat) : Vector Word 4 := tget (s.pair (pairOf (id / 16))).w (id % 16) (Vector.replicate 4 0)
/-- The same as they stood at the start of the cycle (06 R116). -/
def State.windowsAtStart (s : State) (id : Nat) : Vector Word 4 :=
  match (s.pair (pairOf (id / 16))).wOld.find? (fun e => e.1 == id % 16) with
  | some e => if e.2.1 = s.now then e.2.2 else s.windows id
  | none => s.windows id
/-- Window register k of the issuing slot's pair, written. -/
def State.setWindow (s : State) (k : BitVec 2) (v : Word) : State :=
  let p := pairOf s.coreId
  s.setPair p { s.pair p with w := tset (s.pair p).w (s.cur % 16) ((s.windows s.cur).set k.toNat v k.isLt)
                              wOld := tset (s.pair p).wOld (s.cur % 16) (s.now, s.windowsAtStart s.cur) }
def State.window (s : State) (k : BitVec 2) : Word := (s.windows s.cur)[k.toNat]'k.isLt
/-- Window register k as it stood at the start of the cycle. -/
def State.windowAtStart (s : State) (k : BitVec 2) : Word := (s.windowsAtStart s.cur)[k.toNat]'k.isLt

/-- TWX: x[D] and w[A] change places (10 R209; 06 R116). -/
def execTwx (d : BitVec 7) (a st : BitVec 2) (s : State) : Outcome State Fault Refusal :=
  .next (s.guarded [d] fun s => ((s.setWindow a (s.rx d)).land d (s.window a) latInt st).retire 4 st)

/-- TWR: the register as the cycle found it (10 R209; 06 R116). -/
def execTwr (d : BitVec 7) (a st : BitVec 2) (s : State) : Outcome State Fault Refusal :=
  .next (s.alu 4 latInt [d] d st fun s => s.windowAtStart a)

/-- TWW (10 R209). -/
def execTww (d : BitVec 2) (a : BitVec 7) (st : BitVec 2) (s : State) : Outcome State Fault Refusal :=
  .next (s.guarded [a] fun s => (s.setWindow d (s.rx a)).retire 4 st)

/-! ## Engine accesses -/

/-- A core runs a strand of a job (10 R191). -/
def State.runsJob (s : State) (c j : Nat) : Bool :=
  (List.range 16).any fun i => (s.slot (c * 16 + i)).runs && (s.gang (s.slot (c * 16 + i)).gang).job == j

/-- Where the n bytes at a cluster-local address lie, for a core of the cluster and a job (10 R191). -/
def State.clusterLocal (s : State) (core j a n : Nat) : Option Nat :=
  let v := a % 2 ^ 24
  let c := clusterCore (clusterOf core) (v / 2 ^ 21)
  if 0x180000 < v % 2 ^ 21 + n ∨ s.runsJob c j = false then none else some (localBase c + v % 2 ^ 21)

/-- Where a cluster-local address lies for a core of the cluster. -/
def clusterPlace (core a : Nat) : Nat := localBase (clusterCore (clusterOf core) (a % 2 ^ 24 / 2 ^ 21)) + a % 2 ^ 21

/-- Pieces of a run of bytes that lie in one 64-byte line each. -/
def linePieces : Nat → Word → Nat → List (Word × Nat)
  | 0, _, _ => []
  | fuel + 1, va, k =>
    if k = 0 then []
    else
      let n := min k (64 - va.toNat % 64)
      (va, n) :: linePieces fuel (va + BitVec.ofNat 64 n) (k - n)

/-- What an engine meets at an address. -/
inductive EngineRead where
  | got (bs : List Byte) (s : State)
  | fault (t : TrapInfo)
  | remote (modul : Nat)
  deriving DecidableEq, Repr

/-- Bytes of this module as an engine of a gang reads them: damaged words are returned to a HEDGE or OPT task, which is marked,
and fault for any other (25 R398, R399). -/
def State.engineBytes (s : State) (gang : Nat) (va : Word) (pa n : Nat) (local_ : Bool) : EngineRead :=
  if (MemOp.span (.load n) pa).any s.bad.contains then
    if local_ then .fault { cause := .uncorrectable }
    else if (s.gang gang).confined then .got (memBytes s.mem pa n) ((s.logHbm pa).setGang gang { s.gang gang with uncorr := true })
    else .fault { cause := .uncorrectable, addr := s.refusedAt (.load n) pa .uncorrectable va }
  else .got (memBytes s.mem pa n) s

/-- An engine's read of bytes of one line at a virtual address, at the home or the port (10 R193; 25 R393). -/
def State.engineRead (s : State) (core gang : Nat) (va : Word) (n : Nat) : EngineRead :=
  let j := (s.gang gang).job
  match s.translateUnit core j va .read with
  | .xlat l => .fault { cause := .xlat, addr := va, detail := l }
  | .prot => .fault { cause := .prot, addr := va }
  | .remote m => .remote m
  | .ownMem pa => s.engineBytes gang va pa n true
  | .window pa _ => (s.fillUnit core j va).engineBytes gang va pa n true
  | .hbm pa _ => ((s.fillUnit core j va).bringIn pa).engineBytes gang va pa n false

/-- Why an engine may not write bytes at a place: the line of a tile header in use, which only its home writes (16 R276). -/
def State.engineRefusal (s : State) (p : Place) (va : Word) : Option TrapInfo :=
  match p with
  | .hbm pa _ => if s.tileMarks.any (fun t => t.1 == lineAddr pa) then some { cause := .prot, addr := va } else none
  | _ => none

/-- An engine's write of bytes at a place (10 R193; 07 R128). HBM records the core as owner, and its own copies go. -/
def State.enginePut (s : State) (core job : Nat) (p : Place) (bs : List Byte) : State :=
  match p with
  | .ownMem pa | .window pa _ =>
    { (s.markLocal pa bs.length) with mem := memPut s.mem pa bs, bad := s.bad.filter (fun w => decide (w + 8 ≤ pa ∨ pa + bs.length ≤ w)) }
  | .hbm pa t =>
    let own := s.ownerId core
    (MemOp.span (.load bs.length) pa).foldl (fun (u : State) w => (u.register w own).revoke own w)
      (((s.tableWritten t job).bringIn pa).hbmPut pa bs)
  | _ => s

end Sys2Proof.Machine
end

