-- ==== Sys2Proof/Machine/Matrix.lean ====
section
/-! DEFINITION. The matrix engine: MXOP, MXZ, MXLD, MXST, MXUC, MXMODE, WAKE, LICQ and LICR (10 R202 to R208), gathers, the
array and the accumulator port (12 R213 to R221, R227), the sums of 08 R161 to R163, and how a follow-on is discarded (10
R198). -/

namespace Sys2Proof.Machine

open Host

/-! ## Formats (10 R202; 12 R213) -/

/-- The largest K of a format pair, if the pair is one of the table's. -/
def mxLimit (fa fb : Nat) : Option Nat :=
  match fa, fb with
  | 0, 0 => some 64
  | 1, 1 => some 256
  | 2, 2 => some 512
  | 3, 3 | 3, 4 | 4, 3 | 4, 4 => some 1024
  | 5, 5 => some 2048
  | _, _ => none
/-- Products per group sum (08 R162); none: one fused step per k. -/
def mxGroup (fa : Nat) : Option Nat :=
  match fa with
  | 0 | 1 => none
  | 2 => some 4
  | 5 => some 16
  | _ => some 8
/-- Bytes of a row of K elements. -/
def mxRowBytes (fmt k : Nat) : Nat := if fmt = 5 then k / 2 else k * zOf fmt
/-- Operations of a microprogram word (10 R206). -/
def ucOps (w : Word) : List Nat := ((List.range 4).map fun i => bits w (16 * i) 16).filter (fun v => v % 16 != 0)
/-- Array cycles of an operation (12 R213). -/
def MxOp.cycles (o : MxOp) : Nat :=
  match o.uc with
  | some w => 2 * o.k * (ucOps w).length
  | none =>
    match o.fmtA with
    | 0 => 8 * o.k
    | 1 => 2 * o.k
    | 2 => o.k / 4
    | 5 => o.k / 16
    | _ => o.k / 8

/-! ## The sums (08 R162, R163; 12 R220) -/

/-- The value of element k of a gathered row: its code, and for E2M1X its block's scale and alt, which follow the K codes. A block whose alt is NaN
makes NaN only the groups that hold an element of code 0b1000, which alone decodes to alt (DEDUCED, log 90: 08 R149 lets the others decode
as usual). -/
def mxValue (fmt k : Nat) (row : List Nat) (i : Nat) : Fv :=
  if fmt = 5 then e2m1Value (row.getD i 0) (row.getD (k + i / 32 * 2) 0) (row.getD (k + i / 32 * 2 + 1) 0)
  else ((fmtOf fmt).getD fp32).decode (row.getD i 0)

/-- The exact sum of a group of products; a sum of zeros is −0 where every product is −0, and +0 otherwise (DESIGN CHOICE, log 90: 08 R162 gives
the exact value only). NV is raised by a product's own operands, and whenever the group holds infinities of both
signs, whatever else it holds (12 R220). DESIGN CHOICE for a group that holds a quiet NaN beside such a pair, of which the spec says
nothing (08 R162; log 90). -/
def dotGroup (l : List (Fv × Fv)) : Fv × BitVec 5 :=
  let ps := l.map fun p => p.1.mul p.2
  let own := ps.foldl (fun (f : BitVec 5) p => f ||| p.2) 0
  let clash := ps.any (fun p => p.1 == .inf false) && ps.any (fun p => p.1 == .inf true)
  match ps with
  | [] => (.fin false 0 0, 0)
  | p :: r => (r.foldl (fun a q => (a.add .rne q.1).1) p.1, if clash then own ||| flagNV else own)

/-- The groups of a list. -/
def chunks {α : Type} (n : Nat) : Nat → List α → List (List α)
  | 0, _ => []
  | fuel + 1, l => if l.isEmpty then [] else l.take n :: chunks n fuel (l.drop n)

/-- One accumulator element after an operation over its row and column, in increasing k. -/
def mxElement (f : Fmt) (g : Option Nat) (c : Nat) (l : List (Fv × Fv)) : Nat × BitVec 5 :=
  match g with
  | none => l.foldl (fun (a : Nat × BitVec 5) p =>
      let r := f.fma .rne p.1 p.2 (f.decode a.1)
      (r.1, a.2 ||| r.2)) (c, 0)
  | some n => (chunks n l.length l).foldl (fun (a : Nat × BitVec 5) grp =>
      let p := dotGroup grp
      let q := f.round .rne false p.1
      let r := f.add .rne (f.decode a.1) (f.decode q.1)
      (r.1, a.2 ||| p.2 ||| q.2 ||| r.2)) (c, 0)

/-- One operation of a microprogram on s, a, b and t: its result and flags. -/
def ucStep (v : Nat) (s a b t : Nat) : Nat × BitVec 5 :=
  let pick := fun (c : Nat) => match c % 4 with
    | 0 => s
    | 1 => a
    | 2 => b
    | _ => t
  let p := pick (v / 16)
  let q := pick (v / 64)
  let u := pick (v / 256)
  let d := fp32.decode
  match v % 16 with
  | 1 => fp32.add .rne (d p) (d q)
  | 2 => fp32.add .rne (d p) (d q).negate
  | 3 => fp32.mul .rne (d p) (d q)
  | 4 => fp32.minMax true p q
  | 5 => fp32.minMax false p q
  | 6 => fp32.fma .rne (d p) (d q) (d u)
  | _ =>
    let r := fpCompare 1 (d q) (d p)
    (if r.1 then u else s, r.2)

/-- One pass of a microprogram for one k: the new s and the flags (08 R163). -/
def ucPass (ops : List Nat) (s a b : Nat) : Nat × BitVec 5 :=
  let r := ops.foldl (fun (x : Nat × BitVec 5) v =>
    let y := ucStep v s a b x.1
    (y.1, x.2 ||| y.2)) (0, 0)
  (if ops.isEmpty then s else r.1, r.2)

/-- Flags as an accumulator holds them: NV, OF, UF, NX (12 R220). -/
def tileFlags (f : BitVec 5) : BitVec 4 := BitVec.ofNat 4 (f.toNat / 16 * 8 + f.toNat % 8)

/-- Element i of an accumulator, an unlisted element being +0. -/
def Tile.at (t : Tile) (i : Nat) : Nat := (t.cells.getD i 0).toNat

/-- The element of an accumulator, or of a pair, at i. -/
def pairAt (fp64? : Bool) (t0 t1 : Tile) (i : Nat) : Nat := if fp64? then t0.at i + 2 ^ 32 * t1.at i else t0.at i

/-- The 1,024 elements after an MXOP, with the flags its roundings raised. -/
def MxOp.result (o : MxOp) (t0 t1 : Tile) : List (Nat × BitVec 5) :=
  let f := if o.fmtA = 0 then fp64 else fp32
  let as := o.opsA.map fun r => (List.range o.k).map (mxValue o.fmtA o.k r)
  let bs := o.opsB.map fun r => (List.range o.k).map (mxValue o.fmtB o.k r)
  (List.range 1024).map fun i =>
    let c := pairAt (o.fmtA == 0) t0 t1 i
    match o.uc with
    | some w =>
      let ra := o.opsA.getD (i / 32) []
      let rb := o.opsB.getD (i % 32) []
      (List.range o.k).foldl (fun (x : Nat × BitVec 5) k =>
        let y := ucPass (ucOps w) x.1 (ra.getD k 0) (rb.getD k 0)
        (y.1, x.2 ||| y.2)) (c, 0)
    | none => mxElement f (mxGroup o.fmtA) c ((as.getD (i / 32) []).zip (bs.getD (i % 32) []))

/-! ## Streams (12 R216, R217) -/

/-- Operations that hold a place in a slot's stream. -/
def Engine.places (e : Engine) (slot gang : Nat) : Nat := (e.ops.filter (fun o => o.slot == slot && o.gang == gang)).length
/-- The engine's list with one operation changed. -/
def Engine.update (e : Engine) (o p : MxOp) : Engine := { e with ops := e.ops.map fun q => if q = o then p else q }

/-- The instant an operation became ready to start, with its slot: the end of its gather, or for the port the instant at which it came
to the head of its stream (12 R217). -/
def MxOp.rank (o : MxOp) : Nat :=
  (match o.stage with
    | .gathered t => t
    | _ => o.ready.getD 0) * 16 + o.slot
/-- The first of a list by rank. -/
def firstByRank (l : List MxOp) : Option MxOp :=
  l.foldl (fun b o => match b with
    | none => some o
    | some x => if o.rank < x.rank then some o else some x) none

/-- Cycles of a port operation (12 R217). -/
def MxOp.portCycles (o : MxOp) : Nat :=
  if o.kind = .mxz then 16 else if o.tiles.length = 2 then 144 else 80
/-- The lines of local memory that a port operation moves, by core (12 R217). -/
def MxOp.portLines (o : MxOp) : List (Nat × Nat) :=
  if o.kind = .mxz then []
  else (List.range (if o.tiles.length = 2 then 128 else 64)).map fun i => ((windowCore o.pa).getD 0, o.pa % 0x200000 / 64 + i)
/-- The requester of the accumulator port at the banks. -/
def ownerAcc (c : Nat) : Nat := ownerMatrix c 4095
/-- The lines of a port operation take their banks: those of an MXST to another core go out over the engine's own port, one in a cycle, and come
to that core's banks as the cluster network's arrivals do (06 R119; 12 R217, R222). -/
def State.claimPort (s : State) (c : Nat) (o : MxOp) : State :=
  if o.kind ≠ .mxst ∨ (o.portLines.all fun p => p.1 == c) then s.claimLines c rankMatrix (ownerAcc c) o.portLines
  else o.portLines.zipIdx.foldl (fun (u : State) p =>
    let y := u.cycleFrom c + p.2
    (u.claim c { bank := portBank, cycle := y, rank := rankMatrix, owner := ownerAcc c }).claim p.1.1
      { bank := bankOf (p.1.2 * 64), cycle := y, rank := rankCopy, owner := ownerAcc c }) s
/-- The cycles that the lines of a port operation lost: the most at its own core and at the one whose memory it reaches. -/
def State.portLost (s : State) (c : Nat) (o : MxOp) : Nat :=
  max ((s.core c).claimLost (ownerAcc c)) ((s.core ((windowCore o.pa).getD c)).claimLost (ownerAcc c))

/-- An engine whose port operations at the heads of their streams are marked with the instant at which they came there. -/
def Engine.markReady (e : Engine) (now : Nat) : Engine :=
  { e with ops := e.ops.map fun o => if !o.isArray && o.stage == .waiting && o.ready.isNone && e.isHead o then { o with ready := some now } else o }
/-- The strand's writes that precede an operation are all acknowledged (07 R139). -/
def State.mayTouch (s : State) (c : Nat) (o : MxOp) : Bool := !(o.after.any (s.slot (c * 16 + o.slot)).unacked.contains)

/-- The accumulator port takes the head operation that became ready first, its lines their banks. -/
def State.portStart (s0 : State) (c : Nat) : State :=
  let s := s0.setEng c ((s0.eng c).markReady s0.now)
  let e := s.eng c
  if e.portBusy.isSome || !e.isAwake then s
  else
    let l := e.ops.filter fun o => !o.isArray && o.stage == .waiting && e.isHead o && e.tilesFree o
    match firstByRank (l.filter (s.mayTouch c)) with
    | none => if l = [] then s else s.scheduleOnce (s.cycleTick c (s.cycleOf c + 16)) (.gatherBegin c)
    | some o =>
      let t := s.now + o.portCycles * tickLen c
      (((s.unclaimAll c (ownerAcc c)).setEng c { e.update o { o with stage := .running, began := s.now } with portBusy := some t }).claimPort c
        o).schedule t (.portOperationComplete c)

/-- An engine looks again at what it may begin. -/
def State.engineKick (s : State) (c : Nat) : State := ((s.portStart c).soon (.gatherBegin c)).soon (.arrayStart c)

/-! ## Gathers (12 R214, R215; 08 R156, R159, R161) -/

/-- The lines of an operand that a gather reads, by the core they come from; a cluster-local address is its low 24 bits (10 R191). -/
def gatherLines (c base stride len : Nat) (virt : Bool) : List (Nat × Nat) :=
  (List.range 32).flatMap fun r =>
    let a := base + r * stride
    if virt then (linesOf a len).map fun l => (c, l)
    else (linesOf (a % 2 ^ 24) len).map fun l => (clusterCore (clusterOf c) (a % 2 ^ 24 / 2 ^ 21), l)

/-- A list without repeats. -/
def distinct {α : Type} [DecidableEq α] (l : List α) : List α := l.foldl (fun u x => if u.contains x then u else x :: u) []

/-- The distinct lines that a gather reads from local memories, and those of its virtual operands (12 R215). -/
def MxOp.localLines (o : MxOp) (c : Nat) : List (Nat × Nat) :=
  let data := fun (a stride fmt scale : Nat) (virt : Bool) =>
    if virt then [] else gatherLines c a stride (mxRowBytes fmt o.k) false ++
      (if fmt = 5 then gatherLines c scale (o.k / 16) (o.k / 16) false else [])
  distinct (data o.a.toNat o.strideA o.fmtA o.scaleA o.virtA ++ data o.b.toNat o.strideB o.fmtB o.scaleB o.virtB)
def MxOp.virtualLines (o : MxOp) (c : Nat) : List (Nat × Nat) :=
  distinct ((if o.virtA then gatherLines c o.a.toNat o.strideA (mxRowBytes o.fmtA o.k) true else []) ++
    (if o.virtB then gatherLines c o.b.toNat o.strideB (mxRowBytes o.fmtB o.k) true else []))

/-- The requester of a gather at the banks. -/
def MxOp.owner (o : MxOp) (c : Nat) : Nat := ownerMatrix c (o.slot * 256 + o.num % 255)
/-- The round trip of the requests of a DET job's virtual operands, 64 lines at a time (12 R215; 22 R354). -/
def State.fetchTicks (s : State) (c : Nat) (o : MxOp) : Nat :=
  let j := (s.gang o.gang).job
  let l := o.virtualLines c
  let one := l.foldl (fun m p => match s.translateUnit c j (BitVec.ofNat 64 (p.2 * 64)) .read with
    | .hbm pa _ => max m (s.carryTicks j c (homeEnd (homeOf pa)) + s.carryTicks j (homeEnd (homeOf pa)) c)
    | _ => m) 0
  (l.length + 63) / 64 * one
/-- The tick at which a gather ends: 4 cycles and the largest number of distinct lines that one core supplies, with the cycles lost
there, after it began; for virtual operands, when the last beat of the exact times has come (12 R215; log 3). -/
def State.gatherDue (s : State) (c : Nat) (o : MxOp) : Nat :=
  o.began + max ((4 + max (s.lineCycles (o.owner c) (o.localLines c)) (o.virtualLines c).length) * tickLen c) (s.fetchTicks c o)

/-- Operand buffer sets in use. -/
def Engine.sets (e : Engine) : Nat :=
  (e.ops.filter fun o => o.isArray && !(o.stage == .waiting || o.stage == .notReady)).length
/-- An array operation may begin its gather: it is ready and every earlier one of its stream has begun. -/
def Engine.mayGather (e : Engine) (o : MxOp) : Bool :=
  o.isArray && o.stage == .waiting &&
    !(e.ops.any fun p => p.isArray && p.slot == o.slot && p.gang == o.gang && p.before o && (p.stage == .waiting || p.stage == .notReady))

/-- The gather of an operation with a multicast tag joins its cluster's group, begun at most 64 cycles ago, or begins one (10 R204; 12
R223). -/
def State.joinMcast (s : State) (c : Nat) (o : MxOp) : Option Nat × State :=
  let cl := clusterOf c
  let q := s.cluster cl
  let j := (s.gang o.gang).job
  let same := fun (m : Mcast) => m.job == j && m.tag == o.mtag && m.b == o.b && m.stride == o.strideB && m.fmt == o.fmtB && m.k == o.k
  if o.mtag = 0 ∨ !o.virtB then (none, s)
  else match q.mcast.find? (fun m => same m && decide (s.now ≤ m.since + 64 * tickLen c)) with
    | some m => (some m.start, s)
    | none =>
      let n := s.fresh + 1
      let m : Mcast := { job := j, tag := o.mtag, b := o.b, stride := o.strideB, fmt := o.fmtB, k := o.k, since := s.now, start := n }
      let used := fun (m : Mcast) => (List.range 8).any fun i => (s.eng (clusterCore cl i)).ops.any fun p => p.group == some m.start
      (some n, { s with fresh := n }.setCluster cl { q with mcast := m :: q.mcast.filter used })

/-- One free set is taken by the operation that became ready first, ties going to the lower slot; its lines take their banks (12 R214,
R215). -/
def State.gatherOne (s : State) (c : Nat) : State :=
  let e := s.eng c
  if !e.isAwake || decide (2 ≤ e.sets) then s
  else match firstByRank (e.ops.filter e.mayGather) with
    | none => s
    | some o =>
      let g := s.joinMcast c o
      let s1 := (g.2.unclaimAll c (o.owner c)).claimLines c rankMatrix (o.owner c) (o.localLines c)
      let o1 := { o with group := g.1, began := s.now }
      let t := s1.gatherDue c o1
      (s1.setEng c ((s1.eng c).update o { o1 with stage := .gathering t })).schedule t (.gatherEnd c)

/-- GATHER_BEGIN: gathers take free operand buffer sets in the order in which they became ready (12 R214). -/
def execGatherBegin (s : State) : Outcome State Fault Refusal :=
  match s.ev with
  | some (.gatherBegin c) => .next (((s.gatherOne c).gatherOne c).portStart c)
  | _ => .next s

/-- What a gather finds. -/
inductive Gathered where
  | rows (l : List (List Nat)) (s : State)
  | fault (t : TrapInfo) (s : State)
  | ask (l : List (Nat × Nat × Nat)) (s : State)   -- address, bytes and module of ranges elsewhere; no bytes where one is awaited
  deriving DecidableEq, Repr

/-- The multicast group that a gather's B belongs to. -/
def State.mcastOf (s : State) (c : Nat) (o : MxOp) : Option Mcast :=
  (s.cluster (clusterOf c)).mcast.find? fun m => o.group == some m.start
/-- A group with the ranges it has fetched changed. -/
def State.setMcast (s : State) (cl : Nat) (m : Mcast) (l : List RangeRead) : State :=
  s.setCluster cl { s.cluster cl with mcast := (s.cluster cl).mcast.map fun x => if x = m then { m with reads := l } else x }

/-- What fetching a piece of a virtual operand comes to. -/
inductive Piece? where
  | got (r : RangeRead) (s : State)
  | fault (t : TrapInfo)
  | remote (modul : Nat)
  | awaited
  deriving DecidableEq, Repr

/-- A range of an operand as it has come already: for the gather alone, or for its multicast group. A member that joined the group after a beat was
sent missed it: it has it once more, after the group's last beat, under the beat's own number (10 R204; 12 R223). -/
inductive HeldRange where
  | have_ (r : RangeRead)
  | awaited
  | absent (seq : Option Nat)
  deriving DecidableEq, Repr
def State.heldPiece (s : State) (c : Nat) (o : MxOp) (shared : Bool) (va n : Nat) : HeldRange :=
  let is := fun (x : RangeRead) => x.va == va && x.n == n
  let own := fun (seq : Option Nat) => match o.remote.find? is with
    | some r => if r.bytes.isSome then .have_ r else .awaited
    | none => .absent seq
  match if shared then s.mcastOf c o else none with
  | none => own none
  | some m => match m.reads.find? is with
    | none => .absent none
    | some r =>
      if r.bytes.isNone then .awaited
      else if o.began ≤ r.at_ then .have_ r
      else if m.reads.any (·.bytes.isNone) then .awaited
      else own (some r.seq)

/-- One piece of a virtual operand with the item of its line, as its home delivers them in one instant, or as they have come already (08 R159;
10 R204; 12 R223). -/
def State.fetchPiece (s : State) (c : Nat) (o : MxOp) (shared : Bool) (va : Word) (n : Nat) : Piece? :=
  match s.heldPiece c o shared va.toNat n with
  | .have_ r => .got r s
  | .awaited => .awaited
  | .absent seq =>
    match s.engineRead c o.gang va n with
    | .fault t => .fault t
    | .remote d => .remote d
    | .got bs s1 =>
      let item : Option (Word × State) := match s1.translateUnit c (s1.gang o.gang).job va .read with
        | .hbm pa _ => s1.metaWord pa
        | _ => none
      let m := if shared && seq.isNone then s.mcastOf c o else none
      let r : RangeRead := { va := va.toNat, n := n, bytes := some bs, item := (item.isSome, (item.map (·.1)).getD 0), at_ := s.now,
                             seq := seq.getD ((m.map fun m => m.start + m.reads.length).getD 0) }
      let s2 := (item.map (·.2)).getD s1
      .got r (match m with
        | some m => s2.setMcast (clusterOf c) m (m.reads ++ [r])
        | none => s2)

/-- What stands for the scale or alt of a block whose beat has no item, or one with PRES = 0. -/
def noItem : Nat := 256

/-- Bytes of one row of a virtual operand, with the scale and alt of its blocks. -/
def State.virtualRow (s : State) (c : Nat) (o : MxOp) (fmt : Nat) (shared : Bool) : List (Word × Nat) → List Byte → List Nat →
    List (Nat × Nat × Nat) → Gathered
  | [], acc, m, asks => if asks = [] then .rows [acc.map (·.toNat), m] s else .ask asks s
  | (va, n) :: r, acc, m, asks =>
    match s.fetchPiece c o shared va n with
    | .fault t => .fault t s
    | .remote d => s.virtualRow c o fmt shared r acc m (asks ++ [(va.toNat, n, d)])
    | .awaited => s.virtualRow c o fmt shared r acc m (asks ++ [(va.toNat, 0, 0)])
    | .got x s1 =>
      let ms := if fmt = 5 then (List.range ((n + 15) / 16)).flatMap fun i =>
          let b := va.toNat % 64 / 16 + i
          if x.item.1 then [bits x.item.2 (16 * b) 8, bits x.item.2 (16 * b + 8) 8] else [noItem, noItem]
        else []
      s1.virtualRow c o fmt shared r (acc ++ (x.bytes.getD [])) (m ++ ms) asks

/-- Bytes of one row at a cluster-local address (10 R191). -/
def State.localRow (s : State) (c : Nat) (o : MxOp) (a len : Nat) : Gathered :=
  match s.clusterLocal c (s.gang o.gang).job a len with
  | none => .fault { cause := .prot, addr := BitVec.ofNat 64 (a % 2 ^ 24) } s
  | some pa =>
    match s.engineBytes o.gang (BitVec.ofNat 64 a) pa len true with
    | .got bs s1 => .rows [bs.map (·.toNat)] s1
    | .fault t => .fault t s
    | .remote _ => .rows [] s

/-- The element codes of a row's bytes (10 R202). -/
def rowCodes (fmt : Nat) (bs : List Nat) : List Nat :=
  if fmt = 5 then bs.flatMap fun b => [b % 16, b / 16]
  else
    let z := ((fmtOf fmt).map Fmt.bytes).getD 1
    (chunks z bs.length bs).map fun c => c.foldr (fun b v => b + 256 * v) 0

/-- The rows of an operand from row r on: each its element codes, then for E2M1X the scale and alt of its blocks. -/
def State.operand (s : State) (c : Nat) (o : MxOp) (fmt base stride scale : Nat) (virt shared : Bool) :
    Nat → Nat → List (List Nat) → List (Nat × Nat × Nat) → Gathered
  | 0, _, acc, asks => if asks = [] then .rows acc.reverse s else .ask asks s
  | fuel + 1, r, acc, asks =>
    let a := base + r * stride
    let len := mxRowBytes fmt o.k
    if virt then
      match s.virtualRow c o fmt shared (linePieces (len / 16 + 2) (BitVec.ofNat 64 a) len) [] [] [] with
      | .fault t s1 => .fault t s1
      | .ask l s1 => s1.operand c o fmt base stride scale virt shared fuel (r + 1) acc (asks ++ l)
      | .rows l s1 =>
        s1.operand c o fmt base stride scale virt shared fuel (r + 1) ((rowCodes fmt (l.getD 0 []) ++ l.getD 1 []) :: acc) asks
    else
      match s.localRow c o a len with
      | .fault t s1 => .fault t s1
      | .ask _ s1 => .rows acc s1
      | .rows l s1 =>
        let row := rowCodes fmt (l.getD 0 [])
        if fmt = 5 then
          match s1.localRow c o (scale + r * (o.k / 16)) (o.k / 16) with
          | .fault t s2 => .fault t s2
          | .ask _ s2 => .rows acc s2
          | .rows m s2 => s2.operand c o fmt base stride scale virt shared fuel (r + 1) ((row ++ m.getD 0 []) :: acc) asks
        else s1.operand c o fmt base stride scale virt shared fuel (r + 1) (row :: acc) asks

/-- A fault of a follow-on discards it and every later operation of its stream; the next number is set back to it, and the
fault reaches the strand (10 R197, R198). -/
def State.discardFollowOn (s : State) (c : Nat) (o : MxOp) (t : TrapInfo) : State :=
  let id := c * 16 + o.slot
  let e := s.eng c
  let gone := fun (p : MxOp) => p.slot == o.slot && p.gang == o.gang && (p.num == 0 || decide (o.num ≤ p.num))
  let k := s.core c
  let copies := (k.copies.filter fun x => !(x.slot == o.slot && x.gang == o.gang && decide (o.num ≤ x.mxNum) && x.state == .followOnPending)).map
    fun (x : CopyCmd) => if x.slot = o.slot ∧ x.gang = o.gang ∧ o.num ≤ x.mxNum then { x with fo := none, mxNum := 0 } else x
  let s1 := s.setCore c { k with eng := { e with ops := e.ops.filter (fun p => !gone p) }, copies := copies }
  (((s1.setSlot id ((s1.slot id).setNext o.gang o.num)).postEngine id o.gang
    { t with origin := 2, opn := BitVec.ofNat 64 o.num, ctx := o.slot * 16 + 1 }).engineKick c).ifIdle c

/-- A gather's fault: precise at an MXOP, which takes no number; a follow-on's is asynchronous (10 R203, R198). -/
def State.gatherFault (s : State) (c : Nat) (o : MxOp) (t : TrapInfo) : State :=
  if o.kind = .followOn then s.discardFollowOn c o t
  else
    let id := c * 16 + o.slot
    let e := s.eng c
    let s1 := s.setEng c { e with ops := e.ops.filter (· != o) }
    ((s1.takeTrap id { t with origin := 2, opn := BitVec.ofNat 64 (s1.slot id).mxNext, ctx := o.slot * 16 + 1 }
      (s1.slot id).pc).engineKick c).ifIdle c

/-- A gather has ended: an MXOP takes its number and its strand goes on (10 R203). -/
def State.gatherDone (s : State) (c : Nat) (o : MxOp) (as bs : List (List Nat)) : State :=
  let id := c * 16 + o.slot
  let v := s.slot id
  let o1 := { o with stage := .gathered s.now, opsA := as, opsB := bs, remote := [] }
  if o.kind = .mxop then
    let s1 := s.setEng c ((s.eng c).update o { o1 with num := v.mxNext })
    ((s1.setSlot id { v with mxNext := v.mxNext + 1, pc := v.pc + 4, wait := .none }).engineKick c)
  else (s.setEng c ((s.eng c).update o o1)).engineKick c

/-- Ranges of other modules are asked for, for the multicast group, or for the gather alone: without a group, or where it missed the beats of
its group; the gather ends once they have all come (12 R223; 22 R355). -/
def State.askRanges (s : State) (c : Nat) (o : MxOp) (shared : Bool) (l : List (Nat × Nat × Nat)) : State :=
  let j := (s.gang o.gang).job
  let new := l.filter (fun x => x.2.1 != 0)
  let group := if shared then s.mcastOf c o else none
  let missed := fun (x : RangeRead) => (group.bind fun m => m.reads.find? fun r => r.va == x.va && r.n == x.n).map (·.seq)
  if new = [] then s
  else if new.any (fun x => (s.job j).noPath x.2.2) then s.schedule (s.now + usTicks) (.gatherEnd c)
  else
  let p := new.foldl (fun (u : State × List RangeRead) x =>
    let tag := u.1.fresh + 1
    let r : Request := { op := .load x.2.1, va := BitVec.ofNat 64 x.1, job := j, tenant := (u.1.job j).tenant,
                         inc := s.incarnation.toNat, origin := .slot (c * 16 + o.slot) }
    ({ u.1 with fresh := tag }.send (.request x.2.2 tag r), u.2 ++ [{ va := x.1, n := x.2.1, tag := tag }])) (s, [])
  let own := p.2.filter fun x => group.isNone || (missed x).isSome
  let s1 := p.1.setEng c ((p.1.eng c).update o { o with remote := o.remote ++ own.map fun x => { x with seq := (missed x).getD 0 } })
  match group with
  | some m => s1.setMcast (clusterOf c) m (m.reads ++ ((p.2.filter fun x => (missed x).isNone).zipIdx.map fun x =>
      { x.1 with seq := m.start + m.reads.length + x.2 }))
  | none => s1

/-- A row with a block whose beat and item do not pair (08 R161). -/
def unpaired (k : Nat) (rows : List (List Nat)) : Bool := rows.any fun r => (r.drop k).contains noItem

/-- A gather's operands are read, A before B; pairing is judged once every beat of both has arrived (10 R203; 08 R161). -/
def State.gatherAll (s : State) (c : Nat) (o : MxOp) : State :=
  match s.operand c o o.fmtA o.a.toNat o.strideA o.scaleA o.virtA false 32 0 [] [] with
  | .fault t s1 => s1.gatherFault c o t
  | .ask l s1 => s1.askRanges c o false l
  | .rows as s1 =>
    match s1.operand c o o.fmtB o.b.toNat o.strideB o.scaleB o.virtB o.group.isSome 32 0 [] [] with
    | .fault t s2 => s2.gatherFault c o t
    | .ask l s2 => s2.askRanges c o o.group.isSome l
    | .rows bs s2 =>
      if o.fmtA = 5 ∧ (unpaired o.k as ∨ unpaired o.k bs) then s2.gatherFault c o { cause := .scaleMismatch }
      else s2.gatherDone c o as bs

/-- A gather whose time has come. -/
def MxOp.gathers (now : Nat) (o : MxOp) : Bool :=
  match o.stage with
  | .gathering t => decide (t ≤ now)
  | _ => false

/-- The end of one operation's gather, if its time has come. -/
def State.gatherEnds (s : State) (c : Nat) (o : MxOp) : State :=
  let t := s.gatherDue c o
  if o.remote.any (fun x => x.bytes.isNone) then s
  else if s.now < t then (s.setEng c ((s.eng c).update o { o with stage := .gathering t })).schedule t (.gatherEnd c)
  else s.gatherAll c o
/-- GATHER_END: the operands and their metadata are all read before anything changes, of every operation of the engine whose gather may
end now (10 R203; 12 R215; 08 R161). -/
def execGatherEnd (s : State) : Outcome State Fault Refusal :=
  match s.ev with
  | some (.gatherEnd c) =>
    let same := fun (o p : MxOp) => p.slot == o.slot && p.gang == o.gang && p.num == o.num && p.kind == o.kind
    .next (((s.eng c).ops.filter (·.gathers s.now)).foldl (fun (u : State) o =>
      match (u.eng c).ops.find? (fun p => same o p && p.gathers u.now) with
      | some p => u.gatherEnds c p
      | none => u) s)
  | _ => .next s

/-- The answer to a range that a gather, or a multicast group of the cluster, asked another module for. -/
def State.rangeReply (s : State) (c : Nat) (r : Reply) : State :=
  let cl := clusterOf c
  let put := fun (l : List RangeRead) => l.map fun x =>
    if x.tag = r.tag then { x with bytes := some (toBytes (ofWords r.vals) x.n), item := r.items.headD (false, 0), at_ := s.now } else x
  let mine := fun (l : List RangeRead) => l.any fun x => x.tag == r.tag && x.bytes.isNone
  match (s.eng c).ops.find? (fun o => mine o.remote), (s.cluster cl).mcast.find? (fun m => mine m.reads) with
  | some o, _ =>
    match r.refusal with
    | some code => s.gatherFault c o { cause := causeOfCode code, addr := r.addr, detail := r.level }
    | none => (s.setEng c ((s.eng c).update o { o with remote := put o.remote })).soon (.gatherEnd c)
  | none, some m =>
    match r.refusal with
    | some code =>
      (List.range 8).foldl (fun (u : State) i =>
        let d := clusterCore cl i
        ((u.eng d).ops.filter fun o => u.mcastOf d o == some m).foldl (fun (w : State) o =>
          w.gatherFault d o { cause := causeOfCode code, addr := r.addr, detail := r.level }) u) s
    | none => (List.range 8).foldl (fun (u : State) i => u.soon (.gatherEnd (clusterCore cl i))) (s.setMcast cl m (put m.reads))
  | none, none => s

/-! ## The array (12 R217, R227) -/

/-- ARRAY_START: an idle array with the licence takes the gathered head MXOP whose gather ended first; without the licence
one is requested, and a holder with nothing to run stands at a boundary (12 R217, R227). -/
def execArrayStart (s : State) : Outcome State Fault Refusal :=
  match s.ev with
  | some (.arrayStart c) =>
    let e := s.eng c
    let p := pairOf c
    if e.arrayBusy.isSome || !e.isAwake then .next s
    else if (e.ops.any fun o => o.isArray && o.isGathered && e.isHead o) = false then .next (s.settleLicence p)
    else if !s.holdsLicence c then .next (s.requestLicence c)
    else if s.now < (s.pair p).freeAt then .next (s.scheduleOnce (s.pair p).freeAt (.arrayStart c))
    else if s.unsettled p ∧ s.now < s.cycleLast c then .next s
    else
      match if (s.pair p).withheld then none else firstByRank e.canRun with
      | none => .next (s.settleLicence p)
      | some o =>
        let t := s.cycleTick c (s.cycleOf c + o.cycles)
        .next ((s.setEng c { e.update o { o with stage := .running } with arrayBusy := some t }).schedule t (.mxopComplete c))
  | _ => .next s

/-- The stream's counter advances to an operation that has completed (07 R138). -/
def State.streamDone (s : State) (c : Nat) (o : MxOp) : State :=
  let id := c * 16 + o.slot
  s.setSlot id ((s.slot id).setStream o.gang o.num)

/-- An accumulator, or a pair, takes its elements and ORs in flags. -/
def State.setTiles (s : State) (c : Nat) (o : MxOp) (els : List Nat) (flags : BitVec 4) (clear : Bool) : State :=
  let k := s.core c
  let old := fun (i : Nat) => if clear then 0 else (k.tile i).flags
  let half := fun (i h : Nat) => ({ cells := els.map fun v => BitVec.ofNat 32 (v / 2 ^ h), flags := old i ||| flags } : Tile)
  let t1 := match o.tiles with
    | [t] => tset k.tiles t (half t 0)
    | t :: u :: _ => tset (tset k.tiles t (half t 0)) u (half u 32)
    | [] => k.tiles
  s.setCore c { k with tiles := t1 }

/-- MXOP_COMPLETE: the accumulator and its flags change, the counter advances, the copy's work counts its array cycles, and
the licence stands at a boundary (12 R217, R220, R227; 16 R283). -/
def execMxopComplete (s : State) : Outcome State Fault Refusal :=
  match s.ev with
  | some (.mxopComplete c) =>
    let e := s.eng c
    match e.arrayBusy, e.ops.find? (fun o => o.isArray && o.stage == .running) with
    | some t, some o =>
      if s.now < t then .next s
      else
        let k := s.core c
        let r := o.result (k.tile (o.tiles.getD 0 0)) (k.tile (o.tiles.getD 1 0))
        let fl := r.foldl (fun (f : BitVec 5) x => f ||| x.2) 0
        let s1 := s.setTiles c o (r.map (·.1)) (tileFlags fl) false
        let s2 := (s1.setEng c { s1.eng c with ops := e.ops.filter (· != o), arrayBusy := none }).streamDone c o
        let g := s2.gang o.gang
        let s3 := if g.live then s2.setGang o.gang { g with work := min (g.work + o.cycles) (2 ^ 64 - 1) } else s2
        .next (((s3.settleLicence (pairOf c)).engineKick c).ifIdle c)
    | _, _ => .next s
  | _ => .next s

/-! ## The accumulator port (10 R205; 12 R217) -/

/-- The bytes of an accumulator, or of a pair, as MXST writes them. -/
def MxOp.image (o : MxOp) (t0 t1 : Tile) : List Byte :=
  let wide := o.tiles.length == 2
  (List.range 1024).flatMap fun i => toBytes (pairAt wide t0 t1 i) (if wide then 8 else 4)

/-- A port operation's effect. -/
def State.portEffect (s : State) (c : Nat) (o : MxOp) : State :=
  let k := s.core c
  let wide := o.tiles.length == 2
  let n := if wide then 8192 else 4096
  match o.kind with
  | .mxz => s.setTiles c o (List.replicate 1024 0) 0 true
  | .mxld =>
    let els := (List.range 1024).map fun i => memRead s.mem (o.pa + i * (if wide then 8 else 4)) (if wide then 8 else 4)
    let s1 := s.setTiles c o els 0 true
    if (MemOp.span (.load n) o.pa).any s.bad.contains then
      (s1.setGang o.gang { s1.gang o.gang with uncorr := true }).postEngine (c * 16 + o.slot) o.gang
        { cause := .uncorrectable, origin := 2, opn := BitVec.ofNat 64 o.num, ctx := o.slot * 16 + 1 }
    else s1
  | .mxst => s.enginePut c (s.gang o.gang).job (.ownMem o.pa) (o.image (k.tile (o.tiles.getD 0 0)) (k.tile (o.tiles.getD 1 0)))
  | .mxop | .followOn => s

/-- PORT_OPERATION_COMPLETE: an MXZ, MXLD or MXST ends and the stream's counter advances (12 R217). -/
def execPortOperationComplete (s : State) : Outcome State Fault Refusal :=
  match s.ev with
  | some (.portOperationComplete c) =>
    let e := s.eng c
    match e.portBusy, e.ops.find? (fun o => !o.isArray && o.stage == .running) with
    | some t, some o =>
      let due := t + s.portLost c o * tickLen c
      if s.now < due then .next ((s.setEng c { e with portBusy := some t }).schedule due (.portOperationComplete c))
      else
        let s1 := s.portEffect c o
        let s2 := (s1.setEng c { s1.eng c with ops := (s1.eng c).ops.filter (· != o), portBusy := none }).streamDone c o
        .next ((s2.engineKick c).ifIdle c)
    | _, _ => .next s
  | _ => .next s

/-! ## Issue checks (10 R203) -/

/-- What the checks of an MXOP's words find. -/
inductive MxCheck where
  | trap (t : TrapInfo)
  | migrate
  | ok (o : MxOp)
  deriving DecidableEq, Repr

/-- The physical tiles of ac[d], and of ac[d+1] for a pair; the field that names none of the gang's. -/
def State.mxTiles (s : State) (d : Nat) (wide : Bool) : Except Nat (List Nat) :=
  match s.acTile d, s.acTile (d + 1) with
  | none, _ => .error d
  | some t, some u => if wide then .ok [t, u] else .ok [t]
  | some t, none => if wide then .error (d + 1) else .ok [t]

/-- The accumulator field that names none of the gang's, of an instruction whose formats ox4 gives. -/
def State.mxRegwin (s : State) (d : BitVec 3) (wide : Bool) : Option Nat :=
  match s.mxTiles d.toNat wide with
  | .error f => some f
  | .ok _ => none

/-- The checks of R203 on an accumulator, the words of ox4, ox5 and ox7 and the operand addresses. -/
def State.mxCheck (s : State) (d : BitVec 3) (a b ox4 ox5 ox7 : Word) (kind : MxKind) : MxCheck :=
  let fa := bits ox4 0 3
  let fb := bits ox4 3 3
  let k := bits ox4 8 8 * 32
  match s.mxTiles d.toNat (fa == 0 && fb == 0) with
  | .error f => .trap { cause := .regwin, detail := f }
  | .ok tiles =>
    let limit := (mxLimit fa fb).getD 0
    let va := bitAt ox4 16
    let vb := bitAt ox4 17
    let ucw := if s.me.uc then s.me.ucode else none
    if k = 0 ∨ limit < k then .trap { cause := .illegal }
    else if kind = .followOn ∧ (va ∨ vb) then .trap { cause := .illegal }
    else if fa = 0 ∧ d.toNat % 2 = 1 then .trap { cause := .illegal }
    else if fa = 0 ∧ bitAt (extsOf s.coreId) 1 = false then .migrate
    else if s.me.uc ∧ (s.me.ucode = none ∨ fa ≠ 1 ∨ 512 < 2 * k * (ucOps (s.me.ucode.getD 0)).length) then
      .trap { cause := .illegal }
    else
      let sa := bits ox5 0 32
      let sb := bits ox5 32 32
      let ca := bits ox7 0 24
      let cb := bits ox7 24 24
      let badAddr := if a.toNat % 16 ≠ 0 ∨ sa % 16 ≠ 0 then some a else if b.toNat % 16 ≠ 0 ∨ sb % 16 ≠ 0 then some b
        else if fa = 5 ∧ va = false ∧ ca % 2 ≠ 0 then some (BitVec.ofNat 64 ca)
        else if fb = 5 ∧ vb = false ∧ cb % 2 ≠ 0 then some (BitVec.ofNat 64 cb) else none
      match badAddr with
      | some x => .trap { cause := .align, addr := x }
      | none => .ok
        { slot := s.cur % 16, gang := s.me.gang, num := 0, kind := kind, d := d, tiles := tiles, fmtA := fa, fmtB := fb,
          k := k, a := a, b := b, mtag := bits ox4 24 8, virtA := va, virtB := vb, strideA := sa, strideB := sb, scaleA := ca, scaleB := cb,
          uc := ucw }

/-- An instruction of the matrix group: it waits for a gated engine to wake (06 R124). -/
def State.engineAwake (s : State) (k : State → State) : State :=
  if (s.eng s.coreId).isAwake then k (s.restartIdle s.coreId) else (s.wakeEngine s.coreId).block .engineAwake

/-- The issuing strand's stream has a place free (12 R216). -/
def State.streamPlace (s : State) (k : State → State) : State :=
  if (s.eng s.coreId).places (s.cur % 16) s.me.gang < 8 then k s else s.block .streamRoom

/-- MXOP: once the strand's earlier writes are acknowledged (07 R139), it waits until its operands are gathered (10 R203). -/
def execMxop (d : BitVec 3) (a b : BitVec 7) (st : BitVec 2) (s : State) : Outcome State Fault Refusal :=
  .next (s.guardedWith (s.mxRegwin d (bits (s.oxr 4) 0 6 == 0)) [a, b] fun s =>
    match s.mxCheck d (s.rx a) (s.rx b) (s.oxr 4) (s.oxr 5) (s.oxr 7) .mxop with
    | .trap t => s.trapHere t
    | .migrate => s.needMxf64
    | .ok o => s.streamPlace fun s => s.engineAwake fun s => s.released fun s =>
      let e := s.eng s.coreId
      let s1 := (s.setEng s.coreId { e with ops := e.ops ++ [{ o with ready := some s.now }] }).leave st
      (s1.setMe { s1.me with wait := .gather }).soon (.gatherBegin s.coreId))

/-- MXZ, MXLD or MXST takes the next number of its stream and goes to the accumulator port (10 R205). -/
def State.portOp (s : State) (kind : MxKind) (d : BitVec 3) (a : Word) (st : BitVec 2) : State :=
  let wide := bits (s.oxr 4) 0 3 == 0
  match s.mxTiles d.toNat wide with
  | .error f => s.trapHere { cause := .regwin, detail := f }
  | .ok tiles =>
    let n := if wide then 8192 else 4096
    if wide && d.toNat % 2 == 1 then s.trapHere { cause := .illegal }
    else if wide && !bitAt (extsOf s.coreId) 1 then s.needMxf64
    else
      let place := s.clusterLocal s.coreId s.myGang.job a.toNat n
      let owner := clusterCore (clusterOf s.coreId) (bits a 21 3)
      let inbox := kind == .mxst && (match place with
        | some pa => (List.range (n / 64)).any fun i => s.inInbox (pa + 64 * i)
        | none => false)
      if kind != .mxz && a.toNat % 64 != 0 then s.trapHere { cause := .align, addr := a }
      else if kind != .mxz && (place.isNone || inbox || (kind == .mxst && s.myGang.confined && !s.myGang.cores.contains owner)) then
        s.trapHere { cause := .prot, addr := a }
      else s.streamPlace fun s => s.engineAwake fun s =>
        let e := s.eng s.coreId
        let o : MxOp :=
          { slot := s.cur % 16, gang := s.me.gang, num := s.me.mxNext, kind := kind, d := d, tiles := tiles, a := a, pa := place.getD 0,
            after := if kind = .mxz then [] else s.me.unacked }
        let s1 := (s.setEng s.coreId { e with ops := e.ops ++ [o] }).setMe { s.me with mxNext := s.me.mxNext + 1 }
        (s1.portStart s.coreId).retire 4 st

/-- MXZ (10 R205). -/
def execMxz (d : BitVec 3) (st : BitVec 2) (s : State) : Outcome State Fault Refusal :=
  .next (s.portOp .mxz d 0 st)

/-- MXLD (10 R205). -/
def execMxld (d : BitVec 3) (a : BitVec 7) (st : BitVec 2) (s : State) : Outcome State Fault Refusal :=
  .next (s.guardedWith (s.mxRegwin d (bits (s.oxr 4) 0 3 == 0)) [a] fun s => s.portOp .mxld d (s.rx a) st)

/-- MXST (10 R205). -/
def execMxst (d : BitVec 3) (a : BitVec 7) (st : BitVec 2) (s : State) : Outcome State Fault Refusal :=
  .next (s.guardedWith (s.mxRegwin d (bits (s.oxr 4) 0 3 == 0)) [a] fun s => s.portOp .mxst d (s.rx a) st)

/-! ## Microprograms and the mode word (10 R206) -/

/-- A microprogram word that MXUC refuses: no first operation, a gap, or an operation code of 8 or more. -/
def ucBad (w : Word) : Bool :=
  let l := (List.range 4).map fun i => bits w (16 * i) 4
  l.headD 0 == 0 || l.any (fun o => decide (8 ≤ o)) ||
    (List.range 3).any (fun i => l.getD i 0 == 0 && l.getD (i + 1) 0 != 0)

/-- MXUC loads the stream's microprogram (10 R206). -/
def execMxuc (a : BitVec 7) (st : BitVec 2) (s : State) : Outcome State Fault Refusal :=
  .next (s.guarded [a] fun s =>
    if ucBad (s.rx a) then s.trapHere { cause := .illegal }
    else s.engineAwake fun s => (s.setMe { s.me with ucode := some (s.rx a) }).retire 4 st)

/-- The mode word of the issuing strand's stream (10 R206; 12 R220). -/
def State.modeWord (s : State) : Word :=
  let ts := tget s.myGang.tiles s.coreId []
  BitVec.ofNat 64 ((if s.me.uc then 1 else 0) +
    (ts.zipIdx.map fun p => (s.myCore.tile p.1).flags.toNat * 2 ^ (8 + 4 * p.2)).foldl (· + ·) 0)

/-- The mode word written: UC of the stream, and the flags of the gang's accumulators. -/
def State.setModeWord (s : State) (w : Word) : State :=
  let ts := tget s.myGang.tiles s.coreId []
  let k := s.myCore
  let t1 := ts.zipIdx.foldl (fun (t : Table Tile) p =>
    tset t p.1 { tget t p.1 {} with flags := BitVec.ofNat 4 (bits w (8 + 4 * p.2) 4) }) k.tiles
  (s.setCore s.coreId { k with tiles := t1 }).setMe { s.me with uc := bitAt w 0 }

/-- MXMODE waits until every earlier operation of the stream has completed, then swaps the mode word (10 R206). -/
def execMxmode (d a : BitVec 7) (st : BitVec 2) (s : State) : Outcome State Fault Refusal :=
  .next (s.guarded [d, a] fun s => s.engineAwake fun s =>
    if s.me.mxDone + 1 = s.me.mxNext then ((s.setModeWord (s.rx a)).wx d s.modeWord).retire 4 st
    else s.block .streamIdle)

/-! ## WAKE and the licence (06 R124; 10 R208) -/

/-- WAKE: the engine begins to wake, or restarts its idle count (06 R124). -/
def execWake (st : BitVec 2) (s : State) : Outcome State Fault Refusal := .next ((s.wakeEngine s.coreId).retire 4 st)

/-- LICQ registers a request, at once or when the engine has woken, and may set the hold; it waits for nothing (10 R208). -/
def execLicq (d a : BitVec 7) (st : BitVec 2) (s : State) : Outcome State Fault Refusal :=
  .next (s.guarded [d, a] fun s =>
    let c := s.coreId
    let held : Word := if s.holdsLicence c then 1 else 0
    let s1 := if bitAt (s.rx a) 0 then (s.setEng c { s.eng c with hold := true }).watchHold (pairOf c) else s
    let s2 := if held = 1 then s1
      else if (s1.eng c).isAwake then s1.requestLicence c
      else let u := s1.wakeEngine c; u.setEng c { u.eng c with licqPending := true }
    (s2.wx d held).retire 4 st)

/-- LICR clears the hold, withdraws the engine's request and gives up a licence whose array is idle (10 R208). -/
def execLicr (st : BitVec 2) (s : State) : Outcome State Fault Refusal :=
  let c := s.coreId
  let s1 := s.setEng c { s.eng c with hold := false, request := none, licqPending := false }
  .next ((s1.leaveLicence c).retire 4 st)

end Sys2Proof.Machine
end

