-- ==== Sys2Proof/Machine/Copy.lean ====
section
/-! DEFINITION. Copies: CPY, CPY.V, CPYM and CPY.W, the channels that perform them, their faults and their follow-ons (10 R193
to R199; 12 R224 to R226), and how a copy reads a versioned tile (16 R275 to R278). -/

namespace Sys2Proof.Machine

open Host

/-! ## Issue (10 R193) -/

/-- The traps that R203 sets for a follow-on, or its operation. -/
def State.followOn (s : State) (ctl : Word) : MxCheck :=
  let ox3 := s.oxr 3
  s.mxCheck (BitVec.ofNat 3 (bits ctl 3 3)) (BitVec.ofNat 64 (bits ox3 0 24)) (BitVec.ofNat 64 (bits ox3 24 24))
    (s.oxr 4) (s.oxr 5) (s.oxr 7) .followOn

/-- A copy command appended to its channel, with its follow-on's place in the stream (10 R193, R198). -/
def State.appendCopy (s : State) (kind : CopyKind) (d a b : BitVec 7) (st : BitVec 2) (fo : Option MxOp) : State :=
  let ctl := s.rx d
  let ch := bits ctl 0 2
  let c := s.coreId
  let g := s.me.gang
  let q := s.myGang
  let n := tget q.chIssued (chKey c ch) 0 + 1
  let k := s.core c
  let e := k.copyEntry ch
  let x : CopyCmd :=
    { entry := e, gang := g, slot := s.cur % 16, ch := ch, kind := kind, src := s.rx a, dst := s.rx b, ox0 := s.oxr 0, ox2 := s.oxr 2
      ox1 := if kind = .cpyV then s.oxr 1 else 0, fo := fo.map fun _ => [s.oxr 3, s.oxr 4, s.oxr 5, s.oxr 7]
      fac := bits ctl 3 3, num := n, mxNum := if fo.isSome then s.me.mxNext else 0, tmask := bits ctl 8 8, after := s.me.unacked }
  let s1 := s.setCore c (k.chain x)
  let s2 := s1.setGang g { q with chIssued := tset q.chIssued (chKey c ch) n }
  let s3 := match fo with
    | none => s2
    | some o =>
      let u := s2.setEng c { s2.eng c with ops := (s2.eng c).ops ++ [{ o with num := s2.me.mxNext, stage := .notReady }] }
      u.setMe { u.me with mxNext := u.me.mxNext + 1 }
  ((s3.wx d (BitVec.ofNat 64 n)).retire 4 st).soon (.copyCommandStart c ch)

/-- CPY, CPY.V and CPYM: the checks of the control word, a place for the follow-on and a free entry (10 R193). -/
def State.copy (s : State) (kind : CopyKind) (d a b : BitVec 7) (st : BitVec 2) : State :=
  s.guarded [d, a, b] fun s =>
    let ctl := s.rx d
    let entry := fun (fo : Option MxOp) (s : State) =>
      if (s.core s.coreId).channelUsed (bits ctl 0 2) < 16 then s.appendCopy kind d a b st fo
      else s.block (.channelRoom (bits ctl 0 2))
    if kind = .cpyM ∧ bits ctl 8 8 = 0 then s.trapHere { cause := .illegal }
    else if bitAt ctl 2 then
      match s.followOn ctl with
      | .trap t => s.trapHere t
      | .migrate => s.needMxf64
      | .ok o => s.streamPlace (entry (some o))
    else entry none s

/-- CPY (10 R193). -/
def execCpy (d a b : BitVec 7) (st : BitVec 2) (s : State) : Outcome State Fault Refusal := .next (s.copy .cpy d a b st)
/-- CPY.V (10 R194). -/
def execCpyV (d a b : BitVec 7) (st : BitVec 2) (s : State) : Outcome State Fault Refusal := .next (s.copy .cpyV d a b st)
/-- CPYM (10 R195). -/
def execCpym (d a b : BitVec 7) (st : BitVec 2) (s : State) : Outcome State Fault Refusal := .next (s.copy .cpyM d a b st)

/-- CPY.W, once the strand's earlier writes are acknowledged (07 R139), hands its registers to the engine and takes its place behind
the channel's commands, without an operation number (10 R196; 06 R117; 12 R224). -/
def execCpyW (d a b : BitVec 7) (st : BitVec 2) (s : State) : Outcome State Fault Refusal :=
  .next (
    let ctl := s.rx b
    let n := bits ctl 0 6 + 1
    let ch := bits ctl 7 2
    match s.me.badReg [d, a, b], s.me.runBad a n with
    | some r, _ => s.trapHere { cause := .regwin, detail := r.toNat }
    | none, some f => s.trapHere { cause := .regwin, detail := f }
    | none, none => s.guarded ([d, b] ++ regRun a n) fun s =>
      if (s.rx d).toNat % 8 ≠ 0 then s.trapHere { cause := .align, addr := s.rx d }
      else s.released fun s =>
        let c := s.coreId
        let k := s.core c
        if k.channelUsed ch < 16 then
          let x : CopyCmd := { entry := k.copyEntry ch, gang := s.me.gang, slot := s.cur % 16, ch := ch, kind := .cpyW,
                               src := s.rx d, dst := s.rx d, ctl := ctl, got := if bitAt ctl 6 then [] else (s.me.rxs a.toNat n).flatMap fun w => toBytes w.toNat 8 }
          let s1 := (s.setCore c (k.chain x)).leave st
          (s1.setMe { s1.me with wait := .engine, rep := some (.cpyW d a b st, a) }).soon (.copyCommandStart c ch)
        else s.block (.channelRoom ch))

/-! ## Tile headers (16 R275 to R278) -/

/-- Tile size from a header's first word. -/
def tileSize (h0 : Word) : Nat := 4096 * (bits h0 0 4 + 1)
/-- The physical line of a header that passes R277 for a job, with its words; an address without translation, or none. -/
inductive Header where
  | ok (pa : Nat) (h : List Word)
  | xlat (level : Nat)
  | bad
  deriving DecidableEq, Repr

/-- A range of a job's addresses that lies in HBM of this module, page by page. -/
def State.rangeInHbm (s : State) (core job : Nat) (va : Word) (len : Nat) : Bool :=
  (List.range ((va.toNat % 4096 + len + 4095) / 4096)).all fun i =>
    match s.translate core job (BitVec.ofNat 64 (va.toNat / 4096 * 4096 + 4096 * i)) .read with
    | .hbm _ _ => true
    | _ => false

/-- The check of a header at its home (16 R277). -/
def State.header (s : State) (core job : Nat) (va : Word) : Header :=
  if va.toNat % 64 ≠ 0 then .bad
  else match s.translate core job va .read with
    | .xlat l => .xlat l
    | .hbm pa _ =>
      let h := s.readWords pa 8
      let size := tileSize (h.getD 0 0)
      let base := (h.getD 1 0) &&& ~~~0xFFF
      if bits (h.getD 0 0) 8 8 = 0xE1 && s.rangeInHbm core job base (4 * size) then .ok pa h else .bad
    | _ => .bad

/-- A header's line is marked as in use (16 R276). -/
def State.markTile (s : State) (pa job : Nat) : State :=
  if s.tileMarks.any (fun t => t.1 == pa) then s else { s with tileMarks := s.tileMarks ++ [(pa, job)] }

/-- The visible buffer with the latest version at or below v (16 R278). -/
def selectBuffer (h : List Word) (v : Nat) : Option Nat :=
  (List.range 4).foldl (fun (b : Option Nat) i =>
    let ver := (h.getD (2 + i) 0).toNat
    if tileState (h.getD 6 0) i = 1 ∧ ver ≤ v then
      match b with
      | none => some i
      | some j => if (h.getD (2 + j) 0).toNat < ver then some i else b
    else b) none

/-! ## A channel at work (12 R225) -/

/-- The command at the head of a channel: the first that is not complete. -/
def Core.channelHead (k : Core) (ch : Nat) : Option CopyCmd := k.copies.find? fun x => x.ch == ch && x.state != .followOnPending
/-- A core's store with a command changed. -/
def Core.setCopy (k : Core) (x y : CopyCmd) : Core := { k with copies := k.copies.map fun z => if z = x then y else z }
def State.setCopy (s : State) (c : Nat) (x y : CopyCmd) : State := s.setCore c ((s.core c).setCopy x y)

/-- A CPY.W that reads memory into registers (10 R196). -/
def CopyCmd.toRegs (x : CopyCmd) : Bool := x.kind == .cpyW && bitAt x.ctl 6
/-- Rows and bytes per row of a command. -/
def CopyCmd.rows (x : CopyCmd) : Nat := if x.kind = .cpyV ∨ x.kind = .cpyW then 1 else bits x.ox0 20 20
def CopyCmd.rowLen (x : CopyCmd) : Nat :=
  match x.kind with
  | .cpyV => x.size
  | .cpyW => 8 * (bits x.ctl 0 6 + 1)
  | _ => bits x.ox0 0 20
def CopyCmd.total (x : CopyCmd) : Nat := x.rows * x.rowLen
/-- Source address and destination address of a command's byte, and the bytes of the chunk that begins there. -/
def CopyCmd.srcAt (x : CopyCmd) (off : Nat) : Word :=
  match x.kind with
  | .cpyV => BitVec.ofNat 64 (x.base + off)
  | .cpyW => x.src + BitVec.ofNat 64 off
  | _ => x.src + BitVec.ofNat 64 (off / x.rowLen) * sextN (x.ox2 &&& 0xFFFFFFFF) 32 + BitVec.ofNat 64 (off % x.rowLen)
def CopyCmd.dstAt (x : CopyCmd) (off : Nat) : Word :=
  match x.kind with
  | .cpyV | .cpyW => x.dst + BitVec.ofNat 64 off
  | _ => x.dst + BitVec.ofNat 64 (off / x.rowLen) * sextN (x.ox2 >>> 32) 32 + BitVec.ofNat 64 (off % x.rowLen)
def CopyCmd.chunkLen (x : CopyCmd) (off : Nat) : Nat := min (x.rowLen - off % x.rowLen) (64 - (x.dstAt off).toNat % 64)

/-! ### Chunks read ahead -/

/-- The bytes of a chunk's parts, once they have all come. -/
def CopyChunk.bytes (k : CopyChunk) : Option (List Byte) :=
  k.parts.foldl (fun b p => match b, p.data with
    | some l, some d => some (l ++ d)
    | _, _ => none) (some [])
/-- The pieces of the source of the chunk that begins at a byte. -/
def CopyCmd.pieces (x : CopyCmd) (off : Nat) : List (Word × Nat) := linePieces 3 (x.srcAt off) (x.chunkLen off)
/-- Every part of a chunk has been sent for, or it ends in a fault. -/
def CopyCmd.sent (x : CopyCmd) (k : CopyChunk) : Bool := k.fault.isSome || k.parts.length == (x.pieces k.off).length
/-- The chunk at the write pointer has been read in full, up to its fault if it has one. -/
def CopyCmd.ready (x : CopyCmd) : Bool :=
  match x.ahead with
  | k :: _ => x.sent k && k.bytes.isSome
  | [] => false

/-- The next part to be sent for: at most 32 chunks ahead, and none after a fault (12 R225). -/
def CopyCmd.nextPiece (x : CopyCmd) : Option (Nat × Word × Nat) :=
  let at_ := fun (off i : Nat) => ((x.pieces off)[i]?).map fun p => (off, p.1, p.2)
  match x.ahead.getLast? with
  | none => if x.wp < x.total then at_ x.wp 0 else none
  | some k =>
    if k.fault.isSome then none
    else if x.sent k then
      let off := k.off + x.chunkLen k.off
      if x.ahead.length < 32 ∧ off < x.total then at_ off 0 else none
    else at_ k.off k.parts.length

/-- A chunk with one more part, or a fault after its parts. -/
def CopyCmd.addPart (x : CopyCmd) (off : Nat) (p : CopyPart) : CopyCmd :=
  match x.ahead.getLast? with
  | some k => if k.off = off then { x with ahead := x.ahead.dropLast ++ [{ k with parts := k.parts ++ [p] }] }
    else { x with ahead := x.ahead ++ [{ off := off, parts := [p] }] }
  | none => { x with ahead := [{ off := off, parts := [p] }] }
/-- A fault at part i of the chunk that begins at a byte: the parts before it stay, and nothing after it is read (10 R197, R212); of a chunk that
holds a word that cannot be corrected nothing is written (25 R398). -/
def CopyCmd.faultAt (x : CopyCmd) (off i : Nat) (t : TrapInfo) : CopyCmd :=
  let before := x.ahead.filter fun k => decide (k.off < off)
  let parts := ((x.ahead.find? fun k => k.off == off).map (·.parts)).getD []
  { x with ahead := before ++ [{ off := off, parts := if t.cause = .uncorrectable then [] else parts.take i, fault := some t }] }
/-- The part of a chunk that waits for its bank, with the core of the bank. -/
def CopyCmd.banked (x : CopyCmd) : Option (Nat × Nat × CopyPart × Nat) :=
  x.ahead.findSome? fun k => k.parts.zipIdx.findSome? fun p => match p.1.data, p.1.bank with
    | none, some t => some (k.off, p.2, p.1, t)
    | _, _ => none
/-- The bytes of part i of a chunk have come. -/
def CopyCmd.putPart (x : CopyCmd) (off i : Nat) (bs : List Byte) : CopyCmd :=
  { x with ahead := x.ahead.map fun k => if k.off = off then
      { k with parts := k.parts.zipIdx.map fun p => if p.2 = i then { p.1 with data := some bs } else p.1 } else k }
/-- The byte at which the chunk after those read ahead begins. -/
def CopyCmd.readTo (x : CopyCmd) : Nat :=
  match x.ahead.getLast? with
  | some k => k.off + x.chunkLen k.off
  | none => x.wp
/-- The command has read its last byte. -/
def CopyCmd.allRead (x : CopyCmd) : Bool :=
  decide (x.total ≤ x.readTo) && x.ahead.all (fun k => k.fault.isNone && x.sent k && k.bytes.isSome)
/-- A command that is not at work: what it has read ahead is read afresh, but for a CPY.V that has read its last byte and is no reader of its
buffer any more (10 R197; 16 R278). -/
def CopyCmd.atRest (x : CopyCmd) : CopyCmd :=
  { x with ahead := if x.kind = .cpyV ∧ x.allRead then x.ahead else [], wtag := 0, claimed := false, rAt := none, wAt := none }

/-- The command waits for an answer to a request of its own. -/
def CopyCmd.asking (x : CopyCmd) : Bool :=
  x.wtag != 0 || x.ahead.any fun k => k.parts.any fun p => p.tag != 0 && p.data.isNone

/-- The place of an address as parts name it: two parts of one place hold the same bytes. -/
def Place.key (p : Place) (va : Word) : Nat :=
  match p with
  | .ownMem pa | .window pa _ | .hbm pa _ => pa
  | .remote m => 2 ^ 64 * (m + 1) + va.toNat
  | _ => 0
/-- After n bytes were written at a place: the chunks from the first that was read from there are read again (10 R193). -/
def CopyCmd.reread (x : CopyCmd) (keys : List Nat) (n : Nat) : CopyCmd :=
  { x with ahead := x.ahead.takeWhile fun k => k.parts.all fun p => keys.all fun w => decide (p.key + p.n ≤ w ∨ w + n ≤ p.key) }

/-- A request of a copy command, under a fresh tag (22 R354, R355). -/
def State.copyRequest (s : State) (c : Nat) (x : CopyCmd) (op : MemOp) (va : Word) (pa : Option Nat) (bs : List Byte) : Request :=
  let j := (s.gang x.gang).job
  { op := op, va := va, pa := pa, data := BitVec.ofNat 64 (ofBytes bs), acc := toWords (ofBytes bs) ((bs.length + 7) / 8),
    job := j, tenant := (s.job j).tenant, inc := s.incarnation.toNat, origin := .slot (c * 16 + x.slot), tag := s.fresh + 1 }
/-- The request on its way: to another module, or by the timed channel to a home or a port of this one. -/
def State.sendCopy (s : State) (c dst : Nat) (p : Place) (r : Request) : State :=
  let s1 := { s with fresh := s.fresh + 1 }
  match p with
  | .remote m => s1.send (.request m r.tag r)
  | .hbm _ _ => s1.carry r.job c dst 1 (.homeRequest r)
  | _ => s1.carry r.job c dst 1 (.portAccess r)

/-- The endpoint of this module at which an access of a core's copy engine is served, if it travels there on the timed channel; the
cluster network carries what stays in the cluster (12 R222; 22 R354). -/
def State.timedEnd (s : State) (c j : Nat) (p : Place) : Option Nat :=
  match p with
  | .hbm pa _ => if s.isTimed j c (homeEnd (homeOf pa)) then some (homeEnd (homeOf pa)) else none
  | .window _ t => if clusterOf t != clusterOf c && s.isTimed j c t then some t else none
  | _ => none
/-- The core whose bank an access of a core's copy engine takes. -/
def Place.bankCore (p : Place) (c : Nat) : Option Nat :=
  match p with
  | .ownMem _ => some c
  | .window _ t => some t
  | _ => none
/-- The rank of a copy's access at a core: as the copy engine in its own cluster, else at the window port (06 R119). -/
def copyRank (c t : Nat) : Nat := if clusterOf c = clusterOf t then rankCopy else rankPort

/-- What sending for a part comes to. -/
inductive PartRead where
  | part (p : CopyPart) (s : State)
  | fault (t : TrapInfo)
  | later
  deriving DecidableEq, Repr

/-- One part of a chunk is sent for: read at its home at once, asked for over the fabric or the timed channel, or read once its bank, and the port
that sends its beat to the engine, are taken (10 R193; 12 R222, R225). A group set of the job holds back what goes to another module (22 R357). -/
def State.readPart (s : State) (c : Nat) (x : CopyCmd) (va : Word) (n : Nat) : PartRead :=
  let j := (s.gang x.gang).job
  match s.translateUnit c j va .read with
  | .xlat l => .fault { cause := .xlat, addr := va, detail := l }
  | .prot => .fault { cause := .prot, addr := va }
  | p =>
    let part : CopyPart := { va := va, n := n, key := p.key va }
    let r := s.copyRequest c x (.load n) va none []
    match p with
    | .remote m => if (s.job j).noPath m then .later else .part { part with tag := r.tag } (s.sendCopy c 0 p r)
    | _ =>
      match s.timedEnd c j p, p.bankCore c with
      | some e, _ => .part { part with tag := r.tag } ((s.fillUnit c j va).sendCopy c e p { r with pa := some (p.key va) })
      | none, some t =>
        let cl : Claim := { bank := bankOf (p.key va), cycle := s.cycleFrom t, rank := copyRank c t, owner := ownerCopy c x.ch }
        .part { part with bank := some t } (((s.fillUnit c j va).claim t cl).claim t { cl with bank := portBank })
      | none, none =>
        match s.engineRead c x.gang va n with
        | .got bs s1 => .part { part with data := some bs } s1
        | .fault t => .fault t
        | .remote _ => .later

/-- Parts are sent for as far ahead as the channel may; one part at a time waits for a bank. -/
def State.readAhead (s : State) (c : Nat) (x : CopyCmd) : Nat → State × CopyCmd
  | 0 => (s, x)
  | fuel + 1 =>
    if x.banked.isSome then (s, x)
    else match x.nextPiece with
      | none => (s, x)
      | some (off, va, n) =>
        if x.kind = .cpyW ∧ !x.toRegs then
          s.readAhead c (x.addPart off { va := va, n := n, key := 2 ^ 80, data := some ((x.got.drop (va - x.src).toNat).take n) }) fuel
        else match s.readPart c x va n with
          | .part p s1 => s1.readAhead c (x.addPart off p) fuel
          | .fault t =>
            let i := ((x.ahead.find? fun k => k.off == off).map (·.parts.length)).getD 0
            (s, x.faultAt off i t)
          | .later => (s, x)

/-! ### The steps of a command -/

/-- A gang's follow-on on a core that may issue now: its copy complete, and every earlier copy of the gang complete, a CPY.W whose registers are on
their way back among them (10 R198; 12 R226). -/
def Core.readyFollowOn (k : Core) (gang : Nat) : Option CopyCmd :=
  match k.copies.find? (fun x => x.gang == gang && !(x.kind == .cpyW && x.state == .followOnPending)) with
  | some x => if x.state = .followOnPending ∧ x.fo.isSome then some x else none
  | none => none

/-- The follow-on of a copy becomes ready: it takes its reserved place and wakes its engine (12 R226). Its microprogram is the one its
copy's checks saw (log 89). -/
def State.issueFollowOn (s : State) (c : Nat) (x : CopyCmd) : State :=
  let s1 := s.setCore c { s.core c with copies := (s.core c).copies.filter (· != x) }
  let e := s1.eng c
  match e.ops.find? (fun o => o.slot == x.slot && o.gang == x.gang && o.num == x.mxNum && o.kind == .followOn) with
  | none => s1
  | some o =>
    let o1 := { o with stage := .waiting, ready := s.now }
    ((s1.setEng c { e with ops := e.ops.filter (· != o) ++ [o1] }).wakeEngine c).soon (.gatherBegin c)

/-- Follow-ons that have become ready issue, in order. -/
def State.issueFollowOns (s : State) (c gang : Nat) : Nat → State
  | 0 => s
  | fuel + 1 =>
    match (s.core c).readyFollowOn gang with
    | none => s
    | some x => (s.issueFollowOn c x).issueFollowOns c gang fuel

/-- A fault of a CPY.W in its strand's slot: the move ends with its entry free (10 R196; 06 R117). -/
def State.cpyWFault (s : State) (c : Nat) (x : CopyCmd) (t : TrapInfo) : State :=
  let id := c * 16 + x.slot
  let s1 := s.setCore c { s.core c with copies := (s.core c).copies.filter (· != x) }
  let s2 := s1.setSlot id { s1.slot id with rep := none }
  ((s2.takeTrap id { t with origin := 1, ctx := x.ch * 16 } (s2.slot id).pc).issueFollowOns c x.gang 64).soon (.copyCommandStart c x.ch)

/-- A command stops on a fault, which reaches its strand (10 R197). -/
def State.copyFault (s : State) (c : Nat) (x : CopyCmd) (t : TrapInfo) : State :=
  if x.kind = .cpyW then s.cpyWFault c x t
  else
    (s.setCopy c x { x.atRest with state := .stopped }).postEngine (c * 16 + x.slot) x.gang
      { t with origin := 1, opn := BitVec.ofNat 64 x.num, ctx := x.ch * 16 }

/-- A reader of a version buffer has ended (16 R278). -/
def State.endReader (s : State) (c : Nat) (x : CopyCmd) : State :=
  let l := s.readers.filter fun r => r.core == c && r.gang == x.gang && r.ch == x.ch && r.num == x.num
  s.endReaders l

/-- The next steps of a command that has changed from x to y: its reads go on at a tick, and its next chunk, once read, is written no
earlier than its channel may (12 R225). -/
def State.copyStep (s : State) (c : Nat) (x y : CopyCmd) (read : Option Nat) : State :=
  let rt := match read, y.rAt with
    | some t, some u => some (min t u)
    | some t, none => some t
    | none, u => u
  let wt := if y.ready && y.wtag == 0 && y.wAt.isNone then some (max s.now y.due) else none
  let z := { y with rAt := rt, wAt := wt.or y.wAt }
  let s1 := s.setCopy c x z
  let s2 := match rt with
    | some t => if y.rAt = rt then s1 else s1.schedule t (.copyChunkReadReply c y.ch)
    | none => s1
  let s3 := match wt with
    | some t => s2.schedule t (.copyChunkWrite c y.ch)
    | none => s2
  if y.kind = .cpyV ∧ y.allRead then s3.endReader c z else s3

/-- A channel reads on: the part that waits for its bank first, once its cycle has passed, then ahead. -/
def State.copyReads (s : State) (c : Nat) (x : CopyCmd) : State :=
  let x0 := { x with rAt := none }
  let own := ownerCopy c x.ch
  let go := fun (u : State) (y : CopyCmd) =>
    let p := u.readAhead c y 128
    let t := match p.2.banked, p.2.nextPiece with
      | some b, _ => some (match p.1.claimEnds b.2.2.2 own with
        | some t => t
        | none => p.1.now)
      | none, some _ => if p.2.ahead.length < 32 then some (s.now + usTicks) else none
      | none, none => none
    p.1.copyStep c x p.2 t
  match x0.banked with
  | none => go s x0
  | some (off, i, p, t) =>
    match s.claimEnds t own with
    | some at_ => s.copyStep c x x0 (some at_)
    | none =>
      match s.engineBytes x.gang p.va p.key p.n true with
      | .got bs s1 => go s1 (x0.putPart off i bs)
      | .fault f => s.copyStep c x (x0.faultAt off i f) none
      | .remote _ => s

/-- A command completes: its gang's counter for the channel advances, its entry is freed or waits for its follow-on, and the
channel takes its next command (12 R224, R226). A CPY.W's registers go back to its strand (06 R117). -/
def State.copyComplete (s : State) (c : Nat) (x : CopyCmd) : State :=
  if x.kind = .cpyW then
    (((s.setCopy c x { x with state := .followOnPending, ahead := [], rAt := none, wAt := none }).issueFollowOns c x.gang 64).soon
      (.engineReturn (c * 16 + x.slot))).soon (.copyCommandStart c x.ch)
  else
  let q := s.gang x.gang
  let s0 := if x.kind = .cpyV then s.endReader c x else s
  let s1 := if q.live then s0.setGang x.gang { s0.gang x.gang with chDone := tset q.chDone (chKey c x.ch) x.num } else s0
  let s2 := if x.fo.isSome then s1.setCopy c x { x with state := .followOnPending, ahead := [], rAt := none, wAt := none }
    else s1.setCore c { s1.core c with copies := (s1.core c).copies.filter (· != x) }
  (s2.issueFollowOns c x.gang 64).soon (.copyCommandStart c x.ch)

/-- The version a CPY.V reads is selected at the tile's home (16 R276 to R278). -/
def State.selectVersion (s : State) (c : Nat) (x : CopyCmd) : State :=
  let j := (s.gang x.gang).job
  match s.header c j x.src with
  | .xlat l => s.copyFault c x { cause := .xlat, addr := x.src, detail := l }
  | .bad => s.copyFault c x { cause := .prot, addr := x.src }
  | .ok pa h =>
    let s1 := s.markTile pa j
    match selectBuffer h x.ox1.toNat with
    | none => s1.copyFault c x { cause := .versionGone, addr := x.src }
    | some i =>
      let size := tileSize (h.getD 0 0)
      let y := { x with state := .running, buf := i, size := size, base := ((h.getD 1 0) &&& ~~~0xFFF).toNat + i * size }
      let r : Reader := { header := pa, buf := i, core := c, gang := x.gang, ch := x.ch, num := x.num }
      { s1 with readers := s1.readers ++ [r] }.copyStep c x y (some s.now)

/-- A command's strand has unacknowledged writes that precede it (07 R139). -/
def State.writesBefore (s : State) (c : Nat) (slot : Nat) (after : List (Nat × Word)) : Bool :=
  after.any (s.slot (c * 16 + slot)).unacked.contains

/-- COPY_COMMAND_START: a channel takes its next command, once the accesses that precede it are acknowledged (10 R193, R194;
07 R139), and a follow-on that nothing holds back any more issues (10 R198). A command that stopped goes on from its write pointer (10
R197). -/
def execCopyCommandStart (s : State) : Outcome State Fault Refusal :=
  match s.ev with
  | some (.copyCommandStart c ch) =>
    let s := (((s.core c).copies.filter (·.state == .followOnPending)).map (·.gang)).foldl (fun (u : State) g => u.issueFollowOns c g 64) s
    match (s.core c).channelHead ch with
    | none => .next s
    | some x =>
      if x.state ≠ .queued then .next s
      else if s.writesBefore c x.slot x.after then .next (s.schedule (s.now + 16 * tickLen c) (.copyCommandStart c ch))
      else if x.kind = .cpyV ∧ x.size = 0 then .next (s.selectVersion c x)
      else if x.total = 0 then .next (s.copyComplete c x)
      else .next (s.copyStep c x { x.atRest with state := .running } (some s.now))
  | _ => .next s

/-- COPY_CHUNK_READ_REPLY: a running command's reads go on, up to 32 chunks ahead (10 R193; 12 R225). -/
def execCopyChunkReadReply (s : State) : Outcome State Fault Refusal :=
  match s.ev with
  | some (.copyChunkReadReply c ch) =>
    match (s.core c).channelHead ch with
    | none => .next s
    | some x => .next (if x.state = .running ∧ x.rAt = some s.now then s.copyReads c x else s)
  | _ => .next s

/-! ### Writing -/

/-- The cluster cores a CPYM delivers to. -/
def CopyCmd.targets (x : CopyCmd) : List Nat := (List.range 8).filter fun i => x.tmask.testBit i
/-- The physical addresses at which a CPYM's targets receive a byte. -/
def CopyCmd.targetPas (x : CopyCmd) (c off : Nat) : List Nat :=
  x.targets.map fun i => localBase (clusterCore (clusterOf c) i) + (x.dstAt off).toNat

/-- The first target that refuses n bytes at an offset, as a fault at its cluster-local address (10 R195); `w` says that a
confined gang holds the core or the place is no inbox area (04 R78, 18 R297). -/
def State.multicastFault (s : State) (c : Nat) (x : CopyCmd) (off : Word) (n : Nat) : Option TrapInfo :=
  let j := (s.gang x.gang).job
  x.targets.findSome? fun i =>
    let t := clusterCore (clusterOf c) i
    let at_ := fun (o : Nat) => some ({ cause := .prot, addr := BitVec.ofNat 64 (i * 2 ^ 21 + o % 2 ^ 21) } : TrapInfo)
    if s.runsJob t j = false then at_ off.toNat
    else if 0x180000 < off.toNat + n then at_ (max off.toNat 0x180000)
    else if (s.gang x.gang).confined && !(s.gang x.gang).cores.contains t then at_ off.toNat
    else if s.inInbox (localBase t + off.toNat) then at_ off.toNat
    else none

/-- The channels of a cluster that have a chunk ready to be written now, by 4 × core index + channel. -/
def State.chunksReady (s : State) (cl : Nat) : List Nat :=
  (List.range 32).filter fun k =>
    match (s.core (clusterCore cl (k / 4))).channelHead (k % 4) with
    | some x => x.state == .running && !x.claimed && x.wtag == 0 && x.ready && decide (x.due ≤ s.now)
    | none => false
/-- The copy engine's turn: at most four channels write in a cycle, taken in turn after the one served last (12 R225). None where a
channel must wait for the next cycle. -/
def State.writeTurn (s : State) (cl k : Nat) : Option State :=
  let q := s.cluster cl
  let at_ := s.cycleTick (clusterCore cl 0) (s.cycleOf (clusterCore cl 0))
  let before := if q.copyAt = at_ then q.copyWon else []
  if before.contains k then some s
  else
    let l := (s.chunksReady cl).filter fun i => !before.contains i
    let turn := l.filter (fun i => decide (q.copyTurn < i)) ++ l.filter (fun i => decide (i ≤ q.copyTurn))
    let won := (before ++ turn).take 4
    let s1 := s.setCluster cl { q with copyAt := at_, copyWon := won, copyTurn := won.getLastD q.copyTurn }
    if won.contains k then some s1 else none

/-- After n bytes of the chunk at the write pointer: the pointer advances; a fault that ended the chunk stops the command there, and
reads of the bytes just written are made again (10 R193, R197; 12 R225). -/
def State.chunkDone (s : State) (c : Nat) (x : CopyCmd) (keys : List Nat) (n : Nat) : State :=
  let fault := (x.ahead.head?.bind (·.fault))
  let y := { x with wp := x.wp + n, ahead := x.ahead.tail, wtag := 0, claimed := false, wAt := none }.reread keys n
  match fault with
  | some t => (s.setCopy c x y).copyFault c y t
  | none =>
    if y.wp = y.total then (s.setCopy c x y).copyComplete c y
    else s.copyStep c x { y with due := s.now + (if x.claimed then 0 else tickLen c) } (some s.now)

/-- The banks of the targets are taken for the chunk, which is written when the last of the cycles ends (06 R119; 12 R222). -/
def State.claimWrite (s : State) (c : Nat) (x : CopyCmd) (pas : List Nat) : State :=
  let own := ownerCopy c x.ch + 1
  let s1 := pas.foldl (fun (u : State) pa =>
    let t := (windowCore pa).getD c
    u.claim t { bank := bankOf pa, cycle := u.cycleFrom t, rank := copyRank c t, owner := own }) s
  let y := { x with claimed := true, wAt := some (s.now + tickLen c) }
  (s1.setCopy c x y).schedule (s.now + tickLen c) (.copyChunkWrite c x.ch)

/-- A chunk is written to local memory, one core's or every target's: first its banks are taken, then, once no cycle of them lies
ahead, the bytes are. -/
def State.writeLocal (s : State) (c : Nat) (x : CopyCmd) (pas : List Nat) (bs : List Byte) : State :=
  if !x.claimed then s.claimWrite c x pas
  else
    let ends := (pas.filterMap fun pa => s.claimEnds ((windowCore pa).getD c) (ownerCopy c x.ch + 1)).foldl max 0
    if s.now < ends then (s.setCopy c x { x with wAt := some ends }).schedule ends (.copyChunkWrite c x.ch)
    else (pas.foldl (fun (u : State) pa => u.enginePut c (s.gang x.gang).job (.ownMem pa) bs) s).chunkDone c x pas bs.length

/-- A chunk is written where its destination lies, after the checks of its address (10 R193; 04 R78; 16 R276). -/
def State.writeChunk (s : State) (c : Nat) (x : CopyCmd) (bs : List Byte) : State :=
  let q := s.gang x.gang
  let va := x.dstAt x.wp
  let n := bs.length
  if n = 0 then s.chunkDone c x [] 0
  else if x.toRegs then (s.setCopy c x { x with got := x.got ++ bs }).chunkDone c { x with got := x.got ++ bs } [] n
  else if x.kind = .cpyM then
    match s.multicastFault c x va n with
    | some t => s.copyFault c x t
    | none => s.writeLocal c x (x.targetPas c x.wp) bs
  else
    match s.translateUnit c q.job va .write with
    | .xlat l => s.copyFault c x { cause := .xlat, addr := va, detail := l }
    | p =>
      if p = .prot ∨ s.mayWriteFor q p = false ∨ (s.engineRefusal p va).isSome then s.copyFault c x { cause := .prot, addr := va }
      else
        let r := s.copyRequest c x (.store n) va none bs
        match p with
        | .remote m =>
          if (s.job q.job).noPath m then (s.setCopy c x { x with wAt := some (s.now + usTicks) }).schedule (s.now + usTicks) (.copyChunkWrite c x.ch)
          else (s.sendCopy c 0 p r).setCopy c x { x with wtag := r.tag }
        | _ =>
          let s1 := s.fillUnit c q.job va
          match s1.timedEnd c q.job p, p.bankCore c with
          | some e, _ => (s1.sendCopy c e p { r with pa := some (p.key va), table := p == .hbm (p.key va) true }).setCopy c x { x with wtag := r.tag }
          | none, some _ => s1.writeLocal c x [p.key va] bs
          | none, none => (s1.enginePut c q.job p bs).chunkDone c x [p.key va] n

/-- COPY_CHUNK_WRITE: the chunk at the write pointer is written at its home, its port, or every target of a CPYM, when its channel has
the turn, and the write pointer advances (10 R193, R195; 12 R225). -/
def execCopyChunkWrite (s : State) : Outcome State Fault Refusal :=
  match s.ev with
  | some (.copyChunkWrite c ch) =>
    match (s.core c).channelHead ch with
    | none => .next s
    | some x =>
      if x.state ≠ .running ∨ x.wAt ≠ some s.now ∨ x.wtag ≠ 0 then .next s
      else
        let x0 := { x with wAt := none }
        match x.ahead.head?.bind (·.bytes) with
        | none => .next (s.setCopy c x x0)
        | some bs =>
          let s0 := s.setCopy c x x0
          if x.claimed then .next (s0.writeChunk c x0 bs)
          else match s0.writeTurn (clusterOf c) (clusterIdx c * 4 + ch) with
            | some s1 => .next (s1.writeChunk c x0 bs)
            | none =>
              let t := s.cycleTick c (s.cycleOf c + 1)
              .next ((s0.setCopy c x0 { x0 with wAt := some t }).schedule t (.copyChunkWrite c ch))
  | _ => .next s

/-! ### Answers -/

/-- The command that asked under a tag, on a core. -/
def Core.copyOfTag (k : Core) (tag : Nat) : Option CopyCmd :=
  k.copies.find? fun x => x.wtag == tag || x.ahead.any fun a => a.parts.any fun p => p.tag == tag && p.data.isNone

/-- The answer of another module, a home or a port to a copy command: a part of a chunk, or the acknowledgement of one (22 R354, R355). -/
def State.copyReply (s : State) (c : Nat) (x : CopyCmd) (r : Reply) : State :=
  if x.wtag = r.tag then
    match r.refusal with
    | some code => s.copyFault c x { cause := causeOfCode code, addr := r.addr, detail := r.level }
    | none =>
      let n := ((x.ahead.head?.bind (·.bytes)).getD []).length
      let key := (s.translateUnit c (s.gang x.gang).job (x.dstAt x.wp) .write).key (x.dstAt x.wp)
      s.chunkDone c x [key] n
  else
    match x.ahead.findSome? (fun k => k.parts.zipIdx.findSome? fun p => if p.1.tag = r.tag then some (k.off, p.2, p.1) else none) with
    | none => s
    | some (off, i, p) =>
      match r.refusal with
      | some code => s.copyStep c x (x.faultAt off i { cause := causeOfCode code, addr := r.addr, detail := r.level }) none
      | none => s.copyStep c x (x.putPart off i (toBytes (ofWords r.vals) p.n)) (some s.now)

/-- An answer under a tag that an engine of a core asked with. -/
def State.engineReply (s : State) (c : Nat) (r : Reply) : State :=
  if r.tag = 0 then s
  else match (s.core c).copyOfTag r.tag with
    | some x => s.copyReply c x r
    | none => s.rangeReply c r

/-- A home serves a request that a copy command sent on the timed channel, as it serves one in the step of its issue (22 R354). -/
def State.serveCopy (s : State) (c : Nat) (x : CopyCmd) (pa : Nat) (r : Request) : State :=
  let home := homeEnd (homeOf pa)
  match r.op with
  | .store n =>
    let p : Place := .hbm pa r.table
    if (s.engineRefusal p r.va).isSome then
      s.carry r.job home c 1 (.homeReply (c * 16 + x.slot) { refusal := some Cause.prot.code, addr := r.va, tag := r.tag })
    else (s.enginePut c r.job p (toBytes (ofWords r.acc) n)).carry r.job home c 1 (.homeReply (c * 16 + x.slot) { addr := r.va, tag := r.tag })
  | .load n =>
    match (s.bringIn pa).engineBytes x.gang r.va pa n false with
    | .got bs s1 =>
      s1.carry r.job home c 1 (.homeReply (c * 16 + x.slot) { vals := toWords (ofBytes bs) ((n + 7) / 8), addr := r.va, tag := r.tag })
    | _ => (s.logHbm pa).carry r.job home c 1
        (.homeReply (c * 16 + x.slot) { refusal := some Cause.uncorrectable.code, addr := s.refusedAt r.op pa .uncorrectable r.va, tag := r.tag })
  | _ => s

/-- The registers that a CPY.W handed to the engine go back to its strand, with what it has read (10 R196; 06 R117). -/
def State.cpyWReturn (s : State) (id : Nat) (a : BitVec 7) : State :=
  let c := id / 16
  match (s.core c).copies.find? (fun x => x.kind == .cpyW && x.slot == id % 16 && x.state == .followOnPending) with
  | none => s
  | some x =>
    let s1 := s.setCore c { s.core c with copies := (s.core c).copies.filter (· != x) }
    let v := s1.slot id
    let n := bits x.ctl 0 6 + 1
    let v1 := if x.toRegs then v.wxs a.toNat (toWords (ofBytes x.got) n) else v
    s1.setSlot id { v1 with pc := v.pc + 4, wait := .none, rep := none }

end Sys2Proof.Machine
end

