-- ==== Sys2Proof/Machine/Outbox.lean ====
section
/-! DEFINITION. The 64-byte operands of task instructions (13 R234), tasks entering queues (15 R257, R258), messages and their
sequences (13 R240; 18 R295, R296, R307), logical processes (18 R297, R298), held actions (13 R242) and the release of an
outbox (13 R238). -/

namespace Sys2Proof.Machine

/-! ## Operands -/

/-- Eight bytes at a time, as words. -/
def bytesToWords (bs : List Byte) (n : Nat) : List Word := toWords (ofBytes bs) n

/-- A line of another module is asked for; the instruction issues again when it has come (13 R234; 22 R356; log 36). -/
def State.askLine (s : State) (modul : Nat) (va : Word) (n : Nat) : State :=
  (s.setMe { s.me with issuedAt := some s.base }).askRemote { bytes := 4, line := true } modul (.load n) va 0 0 []
/-- A line of this module that a DET job's packet asks for, at its home or at a core's port (22 R354). -/
def State.askLineTimed (s : State) (va : Word) (pa n : Nat) : State :=
  (s.setMe { s.me with issuedAt := some s.base }).askTimed { bytes := 4, line := true, fill := isHbm pa }
    ((windowCore pa).getD (homeEnd (homeOf pa))) (.load n) va pa 0 0 []

/-- An operand of n bytes read as 8-byte loads (13 R234), with the banks of its lines in local memory (06 R118), or the trap or the wait that
comes instead. -/
def State.withLine (s : State) (va : Word) (n : Nat) (k : List Word → State → State) : State :=
  match s.me.lines.find? (fun l => l.1 == va) with
  | some l => k l.2 s
  | none =>
    let l := pieces (n / 8 + 1) va n
    match s.pieceBanks l with
    | none => s.forfeit
    | some s =>
      match s.readPieces l [] with
      | .got bs s1 => k (bytesToWords bs (n / 8)) s1
      | .fault t => if t.cause = .uncorrectable ∧ t.addr = 0 then s.localDamage s.cur else s.trapHere t
      | .remote m => s.askLine m va n
      | .timed pa => s.askLineTimed va pa n

/-- A 64-byte operand at a 64-byte aligned address (13 R234). -/
def State.operand64 (s : State) (va : Word) (k : List Word → State → State) : State :=
  if va.toNat % 64 ≠ 0 then s.trapHere { cause := .align, addr := va } else s.withLine va 64 k

/-- A result of an instruction of class VAR: x[D] and the strand goes on. -/
def State.result (s : State) (d : BitVec 7) (v : Word) (st : BitVec 2) : State := (s.wx d v).retire 4 st

/-- The answers of a task instruction that did nothing (13 R233). -/
def busyValue : Word := 0xFFFFFFFFFFFFFFFF
def fullValue : Word := 0xFFFFFFFFFFFFFFFE

/-! ## Tasks (15 R257, R258) -/

/-- A launch packet's job and tenant. -/
def packetJob (p : List Word) : Nat := bits (p.getD 6 0) 0 16
def packetTenant (p : List Word) : Nat := bits (p.getD 6 0) 16 12
def packetHedge (p : List Word) : Bool := bitAt (p.getD 4 0) 12
def packetTile (p : List Word) : Word := p.getD 5 0
def packetDone (p : List Word) : Word := p.getD 7 0

/-- The flags in effect for a task of a job (15 R258). -/
def launchFlags (j : Job) (p : List Word) (h : Word) : BitVec 5 :=
  let f := BitVec.ofNat 5 (bits (p.getD 4 0) 12 5)
  let roam : BitVec 5 := if hdrStrands h = 1 ∧ hdrAcc h = 0 ∧ hdrBars h = 0 then 31 else 23
  let opt : BitVec 5 := if j.opt then 31 else 27
  let det : BitVec 5 := if j.det then 31 else 29
  f &&& roam &&& opt &&& det

/-- A Cistern that takes no packet, spawn or requeue: it is full, or work waits for it (15 R262, R415). -/
def Cluster.full (c : Cluster) : Bool := decide (4096 ≤ c.cistern.length) || !c.waiting.isEmpty

/-- The next task id of a unit (15 R258). -/
def State.newTask (s : State) (cl : Nat) : Nat × State :=
  let c := s.cluster cl
  (cl * 2 ^ 25 + c.taskCount, s.setCluster cl { c with taskCount := (c.taskCount + 1) % 2 ^ 25 })
/-- The next gang id of a unit (15 R260). -/
def State.newGang (s : State) (cl : Nat) : Nat × State :=
  let c := s.cluster cl
  (cl * 2 ^ 25 + c.gangCount, s.setCluster cl { c with gangCount := (c.gangCount + 1) % 2 ^ 25 })

/-- The entry of a new task, copy 0, for an accepted packet (15 R258). -/
def State.taskEntry (s : State) (p : List Word) (h : Word) (task : Nat) : Entry :=
  let j := packetJob p
  { packet := p, hdr := h, job := j, task := task, copy := 0, flags := launchFlags (s.job j) p h, prio := packetPrio p,
    enq := s.stamp, since := s.now }

/-- Continuation word w2 of a copy (15 R260). -/
def tidOf (p : List Word) (flags : BitVec 5) (task copy : Nat) (inl : Bool) : Word :=
  BitVec.ofNat 64 (packetPrio p * 2 ^ 52 + (if inl then 2 ^ 49 else 0) + flags.toNat * 2 ^ 44 + packetClass p * 2 ^ 36 +
    copy * 2 ^ 32 + task % 2 ^ 32)

/-! ## Logical processes (18 R297) -/

/-- The logical process of a job. -/
def State.lp (s : State) (j n : Nat) : Lp := tget (s.job j).lps n {}
def State.setLp (s : State) (j n : Nat) (l : Lp) : State :=
  let job := s.job j
  s.setJob j { job with lps := tset job.lps n l }
/-- A job declares an LP. -/
def Job.declares (j : Job) (n : Nat) : Bool := j.lps.any (fun l => l.1 == n)
/-- Home core, inbox entries and send log entries of an LP. -/
def Lp.home (l : Lp) : Nat := bits (l.desc.getD 3 0) 0 10
def Lp.size (l : Lp) : Nat := bits (l.desc.getD 3 0) 32 13
def Lp.logSize (l : Lp) : Nat := bits (l.desc.getD 6 0) 0 32
def Lp.ibase (l : Lp) : Nat := bits (l.desc.getD 4 0) 6 15 * 64

/-! ## Keys (18 R295) -/

/-- VRT, sender and the whole sequence. -/
abbrev Key := Nat × Nat × Nat

/-- The sequence of a message: w1 SEQ and w2 SEQHI. -/
def seqOf (w1 w2 : Word) : Nat := bits w2 32 32 * 2 ^ 31 + bits w1 32 31
/-- The key in three words of a message. -/
def keyOf (w0 w1 w2 : Word) : Key := (w0.toNat, bits w1 0 32, seqOf w1 w2)
def Message.key (m : Message) : Key := keyOf m.w0 m.w1 m.w2
/-- The order of keys. -/
def keyLt (a b : Key) : Bool :=
  decide (a.1 < b.1) || (a.1 == b.1 && (decide (a.2.1 < b.2.1) || (a.2.1 == b.2.1 && decide (a.2.2 < b.2.2))))
def keyLe (a b : Key) : Bool := a == b || keyLt a b
/-- Destination LP of a message. -/
def Message.dest (m : Message) : Nat := bits m.w2 0 32

/-! ## Counting for the Low-Water unit (18 R307) -/

/-- A send by a part of a value: its colour, and the part with the send counted. -/
def State.countSend (s : State) (j part v : Nat) : Bool × State :=
  let p := (s.job j).part part
  (p.red, s.setPart j part { p with
    sentW := p.sentW + (if p.red then 0 else 1)
    sentR := p.sentR + (if p.red then 1 else 0)
    redmin := min p.redmin v
    mark := true })
/-! ## Messages (13 R240; 18 R296, R301) -/

/-- A message leaves a part for its LP's inbox. -/
def State.route (s : State) (j part : Nat) (m : Message) : State :=
  let r := s.countSend j part m.w0.toNat
  r.2.carry j part (s.lp j m.dest).home 1
    (if bitAt m.w1 63 then .antiMessageArrival j { m with colour := r.1 } else .messageArrival j { m with colour := r.1 })

/-- The next sequence number of a sender LP. -/
def State.takeSeq (s : State) (j n : Nat) : Nat × State :=
  let l := s.lp j n
  (l.nseq, s.setLp j n { l with nseq := l.nseq + 1 })
/-- The next sequence of sender 0xFFFF_FFFF at a cluster (13 R240). -/
def State.takeClusterSeq (s : State) (j cl : Nat) : Nat × State :=
  let c := s.cluster cl
  let n := tget c.seq j 0
  ((s.job j).self * 2 ^ 51 + cl * 2 ^ 43 + n % 2 ^ 43, s.setCluster cl { c with seq := tset c.seq j (n + 1) })
/-- The next sequence of an external message of a job at a home (13 R242). -/
def State.takeHomeSeq (s : State) (j h : Nat) : Nat × State :=
  let n := tget s.homeSeq (j * 32 + h) 0
  ((s.job j).self * 2 ^ 51 + 2 ^ 50 + h * 2 ^ 43 + n % 2 ^ 43, { s with homeSeq := tset s.homeSeq (j * 32 + h) (n + 1) })
/-- The next sequence of the sender of a task: its LP, or none at a cluster; with the sender's number. -/
def State.senderSeq (s : State) (j : Nat) (lp : Option Nat) (cl : Nat) : Nat × Nat × State :=
  match lp with
  | some n => let r := s.takeSeq j n; (n, r.1, r.2)
  | none => let r := s.takeClusterSeq j cl; (2 ^ 32 - 1, r.1, r.2)

/-- The message of a SEND operand with its sender, sequence and VT (13 R240). -/
def sealMessage (ws : List Word) (sender seq vt : Nat) : Message :=
  { w0 := ws.getD 0 0
    w1 := BitVec.ofNat 64 (seq % 2 ^ 31 * 2 ^ 32 + sender)
    w2 := BitVec.ofNat 64 (seq / 2 ^ 31 % 2 ^ 32 * 2 ^ 32 + bits (ws.getD 2 0) 0 32)
    w3 := ws.getD 3 0
    payload := (ws.drop 4).take 4
    vt := vt }

/-- A pool has room for an area. -/
def State.poolHas (s : State) (j n : Nat) : Bool := (s.poolAlloc j n).isSome
/-- A message for an LP finds an inbox entry, or room for its overflow entry (18 R301). -/
def State.messageRoom (s : State) (j n : Nat) : Bool :=
  let l := s.lp j n
  decide (l.inbox.length < l.size) || s.poolHas j 64

/-- A message released at a part goes out, or waits there for overflow room behind those already waiting (18 R301). -/
def State.releaseMessage (s : State) (j part : Nat) (m : Message) : State :=
  if s.relWait.any (fun r => r.1 == part && r.2.1 == j && r.2.2.dest == m.dest) || !s.messageRoom j m.dest then
    { s with relWait := s.relWait ++ [(part, j, m)] }
  else s.route j part m

/-- Waiting released messages go out in order as room allows (18 R301). -/
def State.drainReleases (s : State) : State :=
  s.relWait.foldl (fun (u : State) r => u.releaseMessage r.2.1 r.1 r.2.2) { s with relWait := [] }

/-! ## Held actions (13 R242) -/

/-- KIND and LEN of an action record (13 R241). -/
def irrevKind (ws : List Word) : Nat := bits (ws.getD 0 0) 0 4
def irrevLen (ws : List Word) : Nat := bits (ws.getD 0 0) 4 6
/-- The LEN payload bytes of an action record. -/
def irrevBytes (ws : List Word) : List Byte :=
  ((ws.drop 2).flatMap fun w => toBytes w.toNat 8).take (irrevLen ws)

/-- The message of an external-message action: its payload, filled up with zeros, gives VRT, handler address and the 32 bytes
for the handler (13 R241, R242; log 35). -/
def externalMessage (ws : List Word) (seq vt : Nat) : Message :=
  let p := bytesToWords (irrevBytes ws) 6
  let lp := bits (ws.getD 1 0) 28 32
  sealMessage ([p.getD 0 0, 0, BitVec.ofNat 64 lp, p.getD 1 0] ++ p.drop 2) (2 ^ 32 - 1) seq vt

/-- The module of a job's group on which a job is open that is not open here, with this module and the job's tenant in its access-control
table: no rule says how a module knows, so that it is a free value (13 R241; log 95). -/
def State.awayDestination (s : State) (j dest : Nat) : Option Nat :=
  let job := s.job j
  if (s.job dest).isOpen then none
  else match Config.awayJob job.self job.tenant dest with
    | some m => if job.group.any (fun g => g.1 == m && m != job.self) then some m else none
    | none => none

/-- A held action is performed (13 R242; 26 R410). -/
def State.performAction (s : State) (a : Held) : State :=
  let w1 := a.words.getD 1 0
  let bs := irrevBytes a.words
  match irrevKind a.words with
  | 0 => s.send (.hostWrite w1.toNat bs)
  | 1 =>
    let j := bits w1 0 16
    if (s.job j).isOpen && (s.job j).declares (bits w1 28 32) then
      let r := s.takeHomeSeq a.job a.home
      r.2.releaseMessage j (1024 + a.home) (externalMessage a.words r.1 a.vt)
    else match s.awayDestination a.job j with
      | some m => let r := s.takeHomeSeq a.job a.home; r.2.send (.message m j (externalMessage a.words r.1 a.vt))
      | none => s.countClosed
  | _ =>
    let t0 : Word := BitVec.ofNat 64 (bits w1 0 16 * 2 ^ 48 + irrevLen a.words * 2 ^ 42 + 2)
    let data := bytesToWords (toBytes (a.task % 2 ^ 32) 4 ++ bs.take 40) 6
    s.trace a.job ([t0, BitVec.ofNat 64 a.vt] ++ data)

/-- The order of actions at one home. -/
def Held.le (a b : Held) : Bool :=
  decide (a.vt < b.vt) || (a.vt == b.vt && (decide (a.task < b.task) || (a.task == b.task && decide (a.entry ≤ b.entry))))

/-- A home performs the actions of a job whose VT lies below its lw, in order (13 R242; 18 R313). -/
def State.performHeld (s : State) (j h : Nat) : State :=
  let due := fun (a : Held) => a.job == j && a.home == h && decide (a.vt < s.lwAt j (1024 + h))
  (isort Held.le (s.held.filter due)).foldl (fun (u : State) a => u.performAction a)
    { s with held := s.held.filter (fun a => !due a) }

/-! ## Releasing an outbox (13 R238, R235) -/

/-- A released spawn gets its id from the unit of the issuing cluster and enters there, or waits at the home (13 R235; 15
R415). -/
def State.releaseSpawn (s : State) (m : CommitMsg) (h : Nat) (o : OutEntry) (hdr : Word) : State :=
  let r := s.newTask o.cluster
  let e : Entry := { r.2.taskEntry o.words hdr r.1 with parent := m.lp, home := some h, row := 0 }
  let c := r.2.countSend m.job (1024 + h) (packetVt o.words)
  c.2.enqueue o.cluster { e with sent := some c.1 }

/-- The address of an LP's send log (18 R297). -/
def Lp.slogVa (l : Lp) : Nat := ((l.desc.getD 5 0) &&& ~~~63).toNat

/-- One entry of an outbox is released at a home. A message of an LP's task joins the LP's send log (18 R298, R299). -/
def State.releaseEntry (s : State) (m : CommitMsg) (h : Nat) (o : OutEntry) (n : Nat) : State :=
  match o.kind with
  | .spawn hdr => s.releaseSpawn m h o hdr
  | .irrev =>
    let a : Held := { home := h, job := m.job, vt := m.version, task := m.task, entry := n, words := o.words, gang := m.gang,
                      key := m.lp }
    { s with held := s.held ++ [a] }
  | .send =>
    let r := s.senderSeq m.job (m.lp.map (·.1)) o.cluster
    let msg := sealMessage o.words r.1 r.2.1 m.version
    let s1 := match m.lp with
      | none => r.2.2
      | some (n, k0, k1, k2) =>
        let l := r.2.2.lp m.job n
        let idx := ((List.range l.logSize).find? fun i => !(l.log.any fun e => e.idx == i)).getD 0
        let e : LogEntry := { w0 := msg.w0, w1 := msg.w1, w2 := msg.w2, tvrt := k0, tw1 := k1, tw2 := k2, idx := idx }
        (r.2.2.setLp m.job n { l with log := l.log ++ [e] }).unitWrite (((s.job m.job).areaPa (l.slogVa + 64 * idx)).getD 0)
          [e.w0, BitVec.ofNat 64 (bits e.w1 32 31 * 2 ^ 32 + bits e.w2 0 32), k0,
           BitVec.ofNat 64 (bits k1 32 31 * 2 ^ 32 + bits k1 0 32), BitVec.ofNat 64 (bits e.w2 32 32 * 2 ^ 32 + bits k2 32 32), 0, 0, 0]
    s1.releaseMessage m.job (1024 + h) msg

/-- The entries of an outbox that go out at its home: all, or, for a commit of another module, its actions; the spawns and messages of that
one enter queues and inboxes of its own module when the answer comes (log 94). -/
def CommitMsg.atHome (m : CommitMsg) (o : OutEntry) : Bool := m.modul.isNone || o.kind == .irrev

/-- An outbox is released in entry order, and actions that may be performed are (13 R238, R242). -/
def State.releaseOutbox (s : State) (m : CommitMsg) (h : Nat) : State :=
  (((m.outbox.zipIdx).filter (fun o => m.atHome o.1)).foldl (fun (u : State) o => u.releaseEntry m h o.1 o.2) s).performHeld m.job h

/-- What the home of another module left of an outbox is released (log 94). -/
def State.releaseRest (s : State) (m : CommitMsg) : State :=
  ((m.outbox.zipIdx).filter (fun o => !m.atHome o.1)).foldl (fun (u : State) o => u.releaseEntry m (m.cluster % 32) o.1 o.2) s

/-- Send log entries that a commit needs (18 R298). -/
def State.logRoom (s : State) (m : CommitMsg) : Bool :=
  match m.lp with
  | none => true
  | some (n, _, _, _) =>
    let l := s.lp m.job n
    decide (l.log.length + (m.outbox.filter fun o => o.kind == .send).length ≤ l.logSize)

end Sys2Proof.Machine
end

