-- ==== Sys2Proof/Machine/Scheduler.lean ====
section
/-! DEFINITION. The task queue units: ranking and placement (15 R255, R262, R263, R266), the start of strands (01 R23; 06 R110),
reservations, search and steal (15 R264, R265), pre-emption (25 R395) and launches by the host and by peers (15 R268 to
R270). -/

namespace Sys2Proof.Machine

open Host

/-! ## Rank (15 R262) -/

/-- Effective priority at a stamp in ns. -/
def Entry.effPrio (e : Entry) (ns : Nat) : Nat := min 15 (e.prio + (ns - e.enq) / 64000)
/-- Lists of numbers in dictionary order. -/
def listLe : List Nat → List Nat → Bool
  | a :: x, b :: y => decide (a < b) || (a == b && listLe x y)
  | _, _ => true
/-- What an entry is ranked by: the lower list ranks first. -/
def Entry.rank (e : Entry) (ns : Nat) : List Nat := [15 - e.effPrio ns, e.enq, e.job, e.task, e.copy]
/-- A unit's entries in rank order. -/
def State.ranked (s : State) (cl : Nat) : List Entry :=
  isort (fun a b => listLe (a.rank s.stamp) (b.rank s.stamp)) (s.cluster cl).cistern

/-! ## Where an entry may go (15 R255, R263, R266, R271; 16 R290; 18 R300) -/

/-- The cores of an entry's gang anchored at a position and layer, in strand order; none where it leaves the module. -/
def Entry.coresAt (e : Entry) (a : Nat × Nat × Nat) : List Nat :=
  if 32 < a.1 + hdrW e.hdr ∨ 16 < a.2.1 + hdrH e.hdr then []
  else ({ hdr := e.hdr, x0 := a.1, y0 := a.2.1, z0 := a.2.2 } : Gang).placed
/-- The layers a gang may take (15 R259 ZSEL). -/
def layersOf (h : Word) : List Nat :=
  if hdrLayers h = 2 then [0] else match bits h 34 2 with
    | 1 => [0]
    | 2 => [1]
    | _ => [0, 1]
/-- The positions of a packet's hint, by rows (15 R257, R263). -/
def hintPositions (p : List Word) : List (Nat × Nat) :=
  let w := p.getD 6 0
  if bitAt w 46 then (List.range (bits w 42 4 + 1)).flatMap fun j =>
    (List.range (bits w 37 5 + 1)).map fun i => (bits w 28 5 + i, bits w 33 4 + j)
  else []
/-- The four positions of a cluster. -/
def clusterPositions (cl : Nat) : List (Nat × Nat) :=
  [0, 1].flatMap fun j => [0, 1].map fun i => (cl % 16 * 2 + i, cl / 16 * 2 + j)
/-- Positions with every layer a gang may take. -/
def withLayers (h : Word) (l : List (Nat × Nat)) : List (Nat × Nat × Nat) := l.flatMap fun p => (layersOf h).map fun z => (p.1, p.2, z)
/-- The anchors a unit tries: the hint's, then its cluster's, then a reservation's. -/
def Entry.anchors (e : Entry) (cl : Nat) : List (Nat × Nat × Nat) :=
  withLayers e.hdr (hintPositions e.packet ++ clusterPositions cl) ++ e.reserved.toList

/-- A core in the places an entry may ever take. -/
def State.mayUse (s : State) (e : Entry) (c : Nat) : Bool :=
  s.inJob e.job c && (s.job e.job).classOk (packetClass e.packet) c && e.only.all (fun l => l.contains c)
/-- What core i of an entry's gang needs. -/
def State.entryNeed (s : State) (e : Entry) (i : Nat) : Need :=
  { spc := hdrSpc e.hdr, acc := hdrAcc e.hdr, bars := hdrBars e.hdr, fuse := wantsFuse e.hdr (s.job e.job), slots := e.bind.getD i [] }
/-- The same queued copy. -/
def Entry.same (a b : Entry) : Bool := a.task == b.task && a.copy == b.copy && a.job == b.job
/-- A core reserved for another entry, unless this entry's own reservation of it ranks higher (15 R263). -/
def State.closedFor (s : State) (e : Entry) (c : Nat) : Bool :=
  let mine := (e.reserved.map fun a => (e.coresAt a).contains c).getD false
  s.clusters.any fun k => k.2.cistern.any fun f =>
    !f.same e && (f.reserved.map fun a => (f.coresAt a).contains c).getD false &&
      !(mine && listLe (e.rank s.stamp) (f.rank s.stamp))

/-- A job's work may be placed: not after termination or an abort, which only handler tasks pass; a job without OPT places a
task whose VT its lw has reached; a packet accepted behind a cut waits (18 R314, R315, R318, R419). -/
def State.entryAllowed (s : State) (e : Entry) (c : Nat) : Bool :=
  let j := s.job e.job
  j.isOpen && !j.terminated && !e.late && (!(j.part c).frozen || (j.abort == .stopped && e.handlerFor.isSome)) &&
    (j.opt || decide (packetVt e.packet ≤ s.lwAt e.job c))

/-- An entry's gang can be placed at an anchor now. -/
def State.canPlace (s : State) (e : Entry) (a : Nat × Nat × Nat) : Bool :=
  let l := e.coresAt a
  !l.isEmpty && s.entryAllowed e (l.headD 0) &&
    (l.zipIdx).all fun p => s.mayUse e p.1 && s.hasRoom p.1 (s.entryNeed e p.2) && !s.closedFor e p.1

/-! ## Starting strands -/

/-- A new strand in a slot (01 R23; 06 R110, R114). -/
def Slot.launch (old : Slot) (g idx : Nat) (p : List Word) (h tid ox1 : Word) (slot tick : Nat) : Slot :=
  let w0 := p.getD 0 0
  { live := true
    gang := g
    index := idx
    n := hdrWindow h
    x := ((Vector.replicate 128 0).set 0 (p.getD 2 0)).set 1 (BitVec.ofNat 64 idx)
    pc := w0 &&& ~~~1
    ox := (Vector.replicate 8 0).set 1 ox1
    vt := p.getD 3 0
    tid := tid
    chk := bitAt h 37
    firstSlot := slot
    nextTick := tick
    stopped := old.stopped
    askers := old.askers
    lastPc := old.lastPc }

/-- The strands of one core of a gang take their slots: the lowest free ones, or those a DET binding names (06 R110). -/
def State.startCore (s : State) (g : Nat) (e : Entry) (c i : Nat) : State :=
  let n := s.entryNeed e i
  let slots := if n.slots = [] then (s.freeSlots c).take n.spc else n.slots
  let tick := s.nextRotation c
  let tid := tidOf e.packet e.flags e.task e.copy false
  let s1 := (((s.setFuse (clusterOf c) n.fuse).claimCore c e.job).assign g c n.acc n.bars).acquire c
  (slots.zipIdx).foldl (fun (u : State) p =>
    let id := c * 16 + p.1
    u.setSlot id ((u.slot id).launch g (i * n.spc + p.2) e.packet e.hdr tid e.ox1 p.1 tick)) s1

/-- A requeued strand takes a slot, whose first cycle it issues in: its registers come from its save area, which returns to the pool (06
R109; 15 R261, R267). -/
def State.resumeCore (s : State) (e : Entry) (v : Slot) (c : Nat) : State :=
  let slot := ((if e.bind = [] then s.freeSlots c else e.bind.getD 0 [])).headD 0
  let id := c * 16 + slot
  let old := s.slot id
  let ws := match (s.job e.job).areaPa v.save with
    | some pa => s.readWords pa (16 + v.n)
    | none => []
  let v1 := { v.restoreWords ws with
    live := true
    wait := .none
    save := 0
    resume := (0, 0)
    removed := false
    stopped := old.stopped
    askers := old.askers
    lastPc := old.lastPc
    nextTick := s.now }
  let s1 := ((s.setFuse (clusterOf c) (s.entryNeed e 0).fuse).claimCore c e.job).acquire c
  (s1.setSlot id v1).poolFree e.job v.save

/-! ## Hedge records (16 R280) -/

/-- A placed copy stands in its task's record; copy 0 creates it where the home has a free one. -/
def State.noteRecord (s : State) (r : HedgeRec) : State :=
  let same := fun (x : HedgeRec) => x.task == r.task && x.job == r.job
  let nums := r.copies.map (·.copy)
  if s.hedges.any same then
    { s with hedges := s.hedges.map fun (x : HedgeRec) =>
        if same x then { x with copies := x.copies.filter (fun y => !nums.contains y.copy) ++ r.copies } else x }
  else if !nums.contains 0 || decide (8192 ≤ (s.hedges.filter (fun x => x.home == r.home)).length) then s
  else { s with hedges := s.hedges ++ [r] }

/-- A placed copy of a HEDGE task is told to its arbitrating home, on this module or another (16 R280; log 94). -/
def State.recordCopy (s : State) (g : Nat) (e : Entry) (c : Nat) : State :=
  if e.flags.getLsbD 0 = false then s
  else
    let job := s.job e.job
    let r : HedgeRec :=
      { home := 0, task := e.task, job := e.job, version := packetVt e.packet, packet := e.packet, hdr := e.hdr, flags := e.flags,
        bind := if job.det then s.bindOf g else [], copies := [{ copy := e.copy, modul := job.self, core := c, gang := g }],
        parent := e.parent }
    match s.arbPlace c e.job e.packet with
    | .here h => s.noteRecord { r with home := h }
    | .away m => s.send (.hedge m (.record r))
    | .nowhere => s

/-- The first core of a job's sub-mesh, for which a home of this module translates. -/
def Job.anyCore (j : Job) : Nat := coreOf j.subX j.subY 0
/-- A copy placed on another module reaches its task's record here. -/
def State.hearRecord (s : State) (r : HedgeRec) : State :=
  match s.arbPlace (s.job r.job).anyCore r.job r.packet with
  | .here h => s.noteRecord { r with home := h }
  | _ => s

/-- The tick of checkpoint k of a copy (16 R285). -/
def State.checkTick (s : State) (q : Gang) (k : Nat) : Nat :=
  q.deq * nsTicks + k * (tget (s.job q.job).classes (packetClass q.packet) {}).tck * usTicks

/-! ## Placing (15 R263) -/

/-- An entry leaves a unit's Cistern. -/
def State.takeEntry (s : State) (cl : Nat) (e : Entry) : State :=
  let c := s.cluster cl
  s.setCluster cl { c with cistern := dropFirst c.cistern e }

/-- An entry's gang is placed at an anchor, with the search its placement ended (15 R255, R263, R267, R272). -/
def State.placeAt (s0 : State) (cl : Nat) (e : Entry) (a : Nat × Nat × Nat) (hungry steals : Nat) : State :=
  let s := s0.settleBuckets
  let cores := e.coresAt a
  match e.cont with
  | some v =>
    let q := s.gang e.gang
    let s1 := s.setGang e.gang { q with
      live := true
      x0 := a.1
      y0 := a.2.1
      z0 := a.2.2
      moved := []
      deq := s.stamp
      prio := e.effPrio s.stamp
      hungry := hungry
      steals := steals
      rqw := e.rqw + (s.now - e.since) / nsTicks }
    (s1.resumeCore e v (cores.headD 0)).recordCopy e.gang e (cores.headD 0)
  | none =>
    let r := s.newGang cl
    let g := r.1
    let q : Gang :=
      { live := true, job := e.job, packet := e.packet, hdr := e.hdr, task := e.task, copy := e.copy, flags := e.flags,
        x0 := a.1, y0 := a.2.1, z0 := a.2.2, running := hdrStrands e.hdr, retries := e.retries, enq := e.enq,
        deq := s.stamp, hungry := hungry, steals := steals, prio := e.effPrio s.stamp, lp := e.lp, rback := e.rback,
        handlerFor := e.handlerFor, ox1 := e.ox1, only := e.only, parent := e.parent }
    let s1 := (cores.zipIdx).foldl (fun (u : State) p => u.startCore g e p.1 p.2) (r.2.setGang g q)
    let s2 := s1.recordCopy g e (cores.headD 0)
    if e.flags.getLsbD 0 then s2.schedule (s2.checkTick q 1) (.checkpoint g 1) else s2

/-- Clusters by ring about one, itself first, then by index (15 R264). -/
def clusterRings (cl : Nat) : List Nat :=
  let d := fun c => max (dist (c % 16) (cl % 16)) (dist (c / 16) (cl / 16))
  isort (fun a b => decide (d a * 128 + a ≤ d b * 128 + b)) (List.range 128)

/-- The first rectangle of an entry's sub-mesh and column class in ring order (15 R263). -/
def State.firstRect (s : State) (cl : Nat) (e : Entry) : Option (Nat × Nat × Nat) :=
  (withLayers e.hdr ((clusterRings cl).flatMap clusterPositions)).find? fun a =>
    let l := e.coresAt a
    !l.isEmpty && l.all (s.mayUse e)

/-- An entry blocked for want of room takes a reservation, if its gang covers more than one core (15 R263). -/
def State.reserveFor (s : State) (cl : Nat) (e : Entry) : State :=
  if e.reserved.isNone && decide (1 < hdrW e.hdr * hdrH e.hdr * hdrLayers e.hdr) then
    let c := s.cluster cl
    s.setCluster cl { c with cistern := c.cistern.map fun (f : Entry) =>
      (if f = e then { f with reserved := s.firstRect cl e } else f) }
  else s

/-- One entry's turn in rank order: it is placed, with the failed probes of a search that it ended, or it is the first of its job for
which there is no room (15 R263, R273; log 37). -/
def State.placeOrReserve (cl : Nat) (p : State × List Nat) (e : Entry) : State × List Nat :=
  let s := p.1
  match (e.anchors cl).find? (s.canPlace e) with
  | some a =>
    let s1 := (s.takeEntry cl e).placeAt cl e a 0 (s.cluster cl).steals
    (s1.setCluster cl (s1.cluster cl).fed, p.2)
  | none => if p.2.contains e.job || !s.entryAllowed e ((s.job e.job).shareCore cl) then p else (s.reserveFor cl e, e.job :: p.2)

/-- The unit goes through its entries in rank order (15 R263). -/
def State.placeAll (s : State) (cl : Nat) : State := ((s.ranked cl).foldl (State.placeOrReserve cl) (s, [])).1

/-- The place that an inbox dispatch keeps among the waiters of a Cistern, its message still POS (15 R415; 18 R300). -/
def Entry.isTicket (e : Entry) : Bool := e.task == 0 && e.lp.isSome && e.late

/-- A waiter as it joins its Cistern: a task never enqueued before takes its enqueue stamp (15 R272, R415). -/
def Entry.join (e : Entry) (ns now : Nat) : Entry :=
  let e1 : Entry := { e with home := none, row := 4, sent := none }
  if e.row = 0 ∨ e.row = 1 ∨ e.row = 3 then { e1 with enq := ns, since := now } else e1

/-- Waiting work takes freed entries of a Cistern, the earliest first, which ends a search; an inbox dispatch among it is then made (15
R264, R415). -/
def State.admitWaiting (s : State) (cl : Nat) : State :=
  let c := s.cluster cl
  let n := 4096 - c.cistern.length
  let taken := c.waiting.take n
  let base := if taken = [] then c else c.endSearch
  let s1 := s.setCluster cl { base with cistern := c.cistern ++ taken.map (fun (e : Entry) => e.join s.stamp s.now),
                                        waiting := c.waiting.drop n }
  taken.foldl (fun (v : State) e =>
    let u := v.receive cl e
    match e.lp with
    | some (l, _, _, _) => if e.isTicket then u.soon (.inboxDispatch e.job l) else u
    | none => u) s1

/-- The unit looks again when the next effective priority changes (15 R262). -/
def State.nextAging (s : State) (cl : Nat) : State :=
  let l := ((s.cluster cl).cistern.filter (fun e => decide (e.effPrio s.stamp < 15))).map
    fun e => (e.enq + ((s.stamp - e.enq) / 64000 + 1) * 64000) * nsTicks
  match l with
  | [] => s
  | t :: r => s.scheduleOnce (r.foldl min t) (.agingStep cl)

/-- An entry whose gang takes one core. -/
def Entry.oneCore (e : Entry) : Bool := hdrW e.hdr * hdrH e.hdr * hdrLayers e.hdr == 1
/-- The entries for which firmware may pre-empt: a reserved one, or a one-core entry first in rank (25 R395). -/
def State.preemptors (s : State) (cl : Nat) : List Entry :=
  match s.ranked cl with
  | [] => []
  | e :: r => (e :: r).filter fun f => if f.oneCore then f == e else f.reserved.isSome
/-- A one-core entry that no longer ranks first keeps no core (25 R395). -/
def State.endTargets (s : State) (cl : Nat) : State :=
  match s.ranked cl with
  | [] => s
  | e :: _ =>
    let c := s.cluster cl
    s.setCluster cl { c with cistern := c.cistern.map fun (f : Entry) => if f.oneCore && f != e then { f with reserved := none } else f }

/-- Pre-emption is due once such an entry has stayed unplaced for PREEMPT_WAIT. -/
def State.planPreemption (s : State) (cl : Nat) : State :=
  (s.preemptors cl).foldl (fun (u : State) e =>
    if u.entryAllowed e ((u.job e.job).shareCore cl) then
      u.scheduleOnce (max u.now (e.since + (u.job e.job).preemptWait * usTicks)) (.preemption cl)
    else u) s

/-- A cluster has a core with a free present slot, on which none of its entries could be placed (15 R264). -/
def State.isHungry (s : State) (cl : Nat) : Bool :=
  (List.range 8).any fun k =>
    let c := clusterCore cl k
    !(s.core c).halted && s.ready.getLsbD (18 + 2 * frondOf c + coreZ c) && !(s.freeSlots c).isEmpty

/-- Clusters that share a job with one, in the order of search. -/
def State.searchOrder (s : State) (cl : Nat) : List Nat :=
  let jobs := s.jobs.filter fun j => j.2.isOpen && (List.range 8).any fun k => j.2.covers (clusterCore cl k)
  ((clusterRings cl).drop 1).filter fun v => jobs.any fun j => (List.range 8).any fun k => j.2.covers (clusterCore v k)

/-- The next cluster of a pass is probed: its probe arrives by the end of the mesh cycle, in which probes to one unit go in the order of
their clusters (15 R264, R265). -/
def State.probeNext (s : State) (cl v : Nat) : State := s.schedule s.cycleEnd (.stealProbe cl v)

/-- A hungry cluster begins to search, or goes on; one that is not hungry does not search. The instant from which it is hungry, and the probes
that have failed since, outlast a search that an entry of its own ends (15 R264, R272, R273). -/
def State.search (s : State) (cl : Nat) : State :=
  let c := s.cluster cl
  if s.isHungry cl = false then s.setCluster cl c.fed
  else if c.hungry.isSome && (c.probes != [] || c.retryAt != 0) then s
  else
    let c1 : Cluster := { c with hungry := some (c.hungry.getD s.stamp) }
    match s.searchOrder cl with
    | [] => s.setCluster cl c1
    | v :: r => (s.setCluster cl { c1 with probes := v :: r }).probeNext cl v

/-- AGING_STEP: the unit takes waiting work in, places entries in rank order, reserves, and looks for work if it is hungry (15
R262 to R264, R415). A copy placed on another module is entered in its task's record (16 R280). -/
def execAgingStep (s : State) : Outcome State Fault Refusal :=
  match s.ev with
  | some (.agingStep cl) =>
    let s1 := ((s.drainReleases.admitWaiting cl).placeAll cl).admitWaiting cl
    .next ((((s1.endTargets cl).nextAging cl).planPreemption cl).search cl)
  | some (.hedge (.record r)) => .next (s.hearRecord r)
  | _ => .next s

/-! ## Search and steal (15 R264, R265) -/

/-- The entry a probe takes: the highest-ranked one that can be placed in the prober's cluster and not in its own. -/
def State.stealable (s : State) (prober victim : Nat) : Option Entry :=
  (s.ranked victim).find? fun e =>
    let free : Entry := { e with reserved := none }
    (withLayers e.hdr (clusterPositions prober)).any (s.canPlace free) && !((e.anchors victim).any (s.canPlace e))

/-- What happens before a probe of the same moment is served: every step but a probe, for it may free a place for the unit's own placement, and the
probes that reach the unit from lower clusters (15 R265). -/
def beforeProbe (prober victim : Nat) (e : Ev) : Bool :=
  match e with
  | .stealProbe q w => w == victim && decide (q < prober)
  | _ => true

/-- STEAL_PROBE: a probe reaches a cluster, which gives an entry with its stamps, or none; the entry's reservation ends. -/
def execStealProbe (s : State) : Outcome State Fault Refusal :=
  match s.ev with
  | some (.stealProbe p v) =>
    let c := s.cluster p
    if s.yields (beforeProbe p v) then .next (s.soon (.stealProbe p v))
    else if c.hungry.isNone ∨ c.probing.isSome ∨ c.probes.head? ≠ some v then .next s
    else match s.stealable p v with
      | none => .next ((s.setCluster p { c with probing := some v }).soon (.probeAnswer p false))
      | some e =>
        let s1 := s.takeEntry v e
        .next (((s1.setCluster p { s1.cluster p with probing := some v, stolen := some { e with reserved := none } }).soon
          (.probeAnswer p true)).poke v)
  | _ => .next s

/-- A probe has failed: the next cluster is probed, and after a whole pass the cluster waits 1 µs (15 R264). -/
def State.probeFailed (s : State) (p : Nat) : State :=
  let c := s.cluster p
  let c1 : Cluster := { c with steals := c.steals + 1, probes := c.probes.drop 1, probing := none }
  match c.probes.drop 1 with
  | [] => (s.setCluster p { c1 with retryAt := s.now + usTicks }).schedule (s.now + usTicks) (.stealRetryExpiry p)
  | v :: _ => (s.setCluster p c1).probeNext p v

/-- PROBE_ANSWER: a stolen entry is placed in the prober's cluster, or joins its Cistern where its place is gone; an answer to a search
that an entry of the cluster's own has ended is of no use. -/
def execProbeAnswer (s : State) : Outcome State Fault Refusal :=
  match s.ev with
  | some (.probeAnswer p won) =>
    let c := s.cluster p
    match won, c.stolen with
    | true, some e =>
      let s1 := s.setCluster p { c.endSearch with stolen := none }
      let fed := fun (u : State) => u.setCluster p (u.cluster p).fed
      .next (match (withLayers e.hdr (clusterPositions p)).find? (s1.canPlace e) with
        | some a => (fed (s1.placeAt p e a (c.hungry.getD s.stamp) c.steals)).poke p
        | none => s1.enqueue p e)
    | _, _ => .next (if c.probing.isNone then s else s.probeFailed p)
  | _ => .next s

/-- STEAL_RETRY_EXPIRY: a cluster still hungry after its pause starts again at ring 1 (15 R264). -/
def execStealRetryExpiry (s : State) : Outcome State Fault Refusal :=
  match s.ev with
  | some (.stealRetryExpiry p) =>
    let c := s.cluster p
    if c.hungry.isNone ∨ c.retryAt = 0 ∨ s.now < c.retryAt then .next s
    else match s.isHungry p, s.searchOrder p with
      | true, v :: r => .next ((s.setCluster p { c with probes := v :: r, retryAt := 0 }).probeNext p v)
      | true, [] => .next (s.setCluster p c.endSearch)
      | false, _ => .next (s.setCluster p c.fed)
  | _ => .next s

/-! ## Pre-emption (25 R395) -/

/-- The order in which firmware takes victims: lower effective priority, then later dequeue. -/
def firmwareTakes (a b : Gang) : Bool := decide (a.prio < b.prio ∨ (a.prio = b.prio ∧ b.deq ≤ a.deq))

/-- The gangs that may be moved from a core for an entry: of its tenant, with lower effective priority, in the order firmware
takes them. -/
def State.candidates (s : State) (e : Entry) (c : Nat) : List (Nat × Gang) :=
  let p := e.effPrio s.stamp
  isort (fun a b => firmwareTakes a.2 b.2)
    (s.gangs.filter fun g => g.2.live && g.2.inline.isNone && g.2.cores.contains c && decide (g.2.prio < p) &&
      (s.job g.2.job).tenant == (s.job e.job).tenant)

/-- Moving every candidate would give a one-core entry the room it needs on a core. -/
def State.wouldFree (s : State) (e : Entry) (c : Nat) : Bool :=
  let l := s.candidates e c
  let n := s.entryNeed e 0
  let sum := fun (f : Nat → Nat) => (l.map fun g => f g.1).foldl (· + ·) 0
  let freed := (s.freeSlots c) ++ l.flatMap fun g => (s.partSlots g.1 c).map (· % 16)
  s.mayUse e c && !(s.core c).halted && !l.isEmpty && decide (n.spc ≤ freed.length) && n.slots.all freed.contains &&
    decide (n.acc ≤ (s.freeTiles c).length + sum fun g => (s.partNeed g c).acc) &&
    decide (n.bars ≤ (s.freeBars c).length + sum fun g => (s.partNeed g c).bars)

/-- The target core of a one-core entry. -/
def State.targetCore (s : State) (cl : Nat) (e : Entry) : Option Nat :=
  let l := if hintPositions e.packet = [] then (List.range 8).map (clusterCore cl)
    else (hintPositions e.packet).flatMap fun p => [coreOf p.1 p.2 0, coreOf p.1 p.2 1]
  (isort (fun a b => decide (a ≤ b)) l).find? fun c => (layersOf e.hdr).contains (coreZ c) && s.wouldFree e c

/-- Where a victim's part may go: the nearest core of its sub-mesh and class with room, off the target cores. -/
def State.victimPlace (s : State) (g : Nat) (c : Nat) (targets : List Nat) : Option Nat :=
  let q := s.gang g
  (nearest c ((List.range 1024).filter fun d => !targets.contains d && s.inJob q.job d &&
    (s.job q.job).classOk (packetClass q.packet) d)).find? fun d => s.hasRoom d (s.partNeed g c)

/-- Firmware moves one victim for an entry: a migration without a requesting strand. -/
def State.preemptFor (s : State) (e : Entry) (targets : List Nat) : State :=
  let all := isort (fun (a b : Nat × Nat × Gang) => firmwareTakes a.2.2 b.2.2)
    (targets.flatMap fun c => (s.candidates e c).map fun g => (c, g))
  let l := all.filterMap fun p =>
    let c := p.1
    let g := p.2
    if s.migrs.any (fun m => m.gang == g.1) then none else (s.victimPlace g.1 c targets).map fun d => (c, g.1, d)
  if s.migrs.any (fun m => targets.contains m.score) then s
  else match l with
    | [] => s
    | (c, g, d) :: _ =>
      let key := 2 ^ 32 + g
      let m : Migr := { slot := key, gang := g, score := c, dcore := d, dmod := (s.job (s.gang g).job).self, len := 0, dest := 0 }
      { s with migrs := s.migrs ++ [m] }.soon (.migrRequestArrival key)

/-- An entry of a Cistern keeps a core, or none (25 R395). -/
def State.keepCore (s : State) (cl : Nat) (e : Entry) (c : Option Nat) : State :=
  let k := s.cluster cl
  s.setCluster cl { k with cistern := k.cistern.map fun (f : Entry) =>
    if f = e then { f with reserved := c.map fun x => (coreX x, coreY x, coreZ x) } else f }

/-- PREEMPTION: firmware acts for the entries of a Cistern that have waited PREEMPT_WAIT; a one-core entry's target core, as it then is, is
kept for it (25 R395). -/
def execPreemption (s : State) : Outcome State Fault Refusal :=
  match s.ev with
  | some (.preemption cl) =>
    .next ((s.preemptors cl).foldl (fun (u : State) e =>
      if u.now < e.since + (u.job e.job).preemptWait * usTicks then u
      else match e.oneCore, e.reserved with
        | false, some a => u.preemptFor e (e.coresAt a)
        | false, none => u
        | true, _ =>
          let c := u.targetCore cl e
          (u.keepCore cl e c).preemptFor e c.toList) s)
  | _ => .next s

/-! ## Launches (15 R268 to R270; 18 R310, R318, R419) -/

/-- A cut of a job has passed a part of it. -/
def Job.cutPassed (j : Job) (part : Nat) : Bool := j.cut && (j.part part).red == j.token.n
/-- The clusters of a job's sub-mesh, by index. -/
def Job.clusters (j : Job) : List Nat := (List.range 128).filter fun cl => (List.range 8).any fun k => j.covers (clusterCore cl k)

/-- The unit that takes a packet: that of the hint's first position or the next in turn, else the nearest with room. -/
def State.launchCluster (s : State) (j : Nat) (p : List Word) : Option Nat :=
  let job := s.job j
  let w := p.getD 6 0
  let l := job.clusters
  let first := if bitAt w 46 then bits w 33 4 / 2 * 16 + bits w 28 5 / 2 else l.getD (job.nextLaunch % l.length) 0
  (clusterRings first).find? fun c => l.contains c && !(s.cluster c).full

/-- The causes for which a packet is refused (15 R270). -/
inductive Refused where
  | prot | priv | xlat | badHeader | illegal | busy
  deriving DecidableEq, Repr
def Refused.code : Refused → Nat
  | .prot => 0 | .priv => 1 | .xlat => 2 | .badHeader => 3 | .illegal => 4 | .busy => 5

/-- What becomes of a packet offered to a job: its gang header and its unit, or the cause of its refusal (15 R270; 18 R315,
R318). `known` says that the sender may launch for the job. -/
def State.launchCheck (s : State) (j : Nat) (p : List Word) (known : Bool) : Except Refused (Word × Nat) :=
  let job := s.job j
  if !known || packetJob p != j || packetTenant p != job.tenant || job.terminated then .error .prot
  else if bitAt (p.getD 0 0) 0 then .error .priv
  else
    match s.readHeader (job.shareCore (job.clusters.headD 0)) j ((p.getD 1 0) &&& ~~~63) with
    | .error _ => .error .xlat
    | .ok h =>
      if headerOk h = false then .error .badHeader
      else if packetHedge p && packetTile p == 0 && packetDone p == 0 then .error .illegal
      else if job.abort == .first || job.abort == .second then .error .busy
      else match s.launchCluster j p with
        | none => .error .busy
        | some cl => .ok (h, cl)

/-- An OPT job's Low-Water passes begin with its first work, in the module of lowest group index (18 R306; log 43). -/
def State.startPasses (s : State) (j : Nat) : State :=
  let job := s.job j
  if job.opt && !job.passing then
    let s1 := s.setJob j { job with passing := true }
    if job.firstModule = job.self then s1.soon (.lwgapExpiry j) else s1.send (.lwToken job.firstModule j { start := true })
  else s

/-- An accepted packet enters a Cistern: its VT is raised to lw, one accepted behind a cut waits for its end, and the first one
after an abort restarts the job (18 R310, R318, R419). -/
def State.accept (s : State) (j : Nat) (p : List Word) (h : Word) (cl : Nat) (sent : Option Bool) : State :=
  let job := s.job j
  let part := job.shareCore cl
  let vt := max (packetVt p) (s.lwAt j part)
  let p1 := p.set 3 (BitVec.ofNat 64 vt)
  let s1 := s.setJob j { job with nextLaunch := job.nextLaunch + (if bitAt (p.getD 6 0) 46 then 0 else 1) }
  let r := s1.newTask cl
  let e : Entry := { r.2.taskEntry p1 h r.1 with late := job.cutPassed part, sent := sent }
  let s2 := (r.2.enqueue cl e).startPasses j
  if job.abort = .stopped then s2.soon (.restart j (job.ringParts.headD 1024)) else s2

/-- A packet offered to a job is accepted, or reported by a stamp record (15 R268, R270, R273). A peer's, whose colour `sent` gives, is received
by the Cistern that takes it, or, where it is refused, by that of the unit that reads its header (18 R306; log 43). -/
def State.offer (s0 : State) (j : Nat) (p : List Word) (known : Bool) (sent : Option Bool) : State :=
  match s0.launchCheck j p known with
  | .ok (h, cl) => s0.accept j p h cl sent
  | .error c =>
    let job := s0.job j
    let s := match sent with
      | some red => s0.countRecv j (job.shareCore (job.clusters.headD 0)) red
      | none => s0
    s.stampWrite j (stampWords 0 (packetClass p) 0 0 s.stamp 0 s.stamp 0 c.code (s.job j).self 0 0 0 .refused)

/-- A packet is accepted for a job, and under lockstep for its partner too, with the job replaced (26 R411). -/
def State.offerBoth (s : State) (j : Nat) (p : List Word) (known : Bool) (sent : Option Bool) : State :=
  let s1 := s.offer j p known sent
  match (s.job j).lockstep with
  | some (b, _, true) =>
    match s.launchCheck j p known with
    | .ok _ =>
      let w6 := merge (p.getD 6 0) (BitVec.ofNat 64 ((s.job b).tenant * 65536 + b)) 0xFFFFFFF
      s1.offer b (p.set 6 w6) true none
    | .error _ => s1
  | _ => s1

/-- HOST_LAUNCH: a write to a job slot's launch window: 64 bytes at a 64-byte-aligned offset deliver a packet, and any other is
dropped and counted (15 R268). -/
def execHostLaunch (s : State) : Outcome State Fault Refusal :=
  match s.ev with
  | some (.hostLaunch jslot off data) =>
    match s.jobs.find? (fun j => j.2.isOpen && j.2.jslot == jslot) with
    | none => .next { s with launchDrop := s.launchDrop + 1 }
    | some (j, _) =>
      if data.length ≠ 8 ∨ off % 64 ≠ 0 then .next { s with launchDrop := s.launchDrop + 1 }
      else .next (s.offerBoth j data true none)
  | _ => .next s

/-- PEER_LAUNCH: a packet of another module, which the job's access-control table must name; it counts as an arrival (15 R269; 18
R306, R419). One for a job that is not open is dropped and counted (22 R359). -/
def execPeerLaunch (s : State) : Outcome State Fault Refusal :=
  match s.ev with
  | some (.peerLaunch j modul tenant red data) =>
    if (s.job j).isOpen = false then .next s.countClosed
    else
      let known := (s.job j).act.any fun a => a.2 == (modul, tenant)
      .next (s.offerBoth j data known (some red))
  | _ => .next s

end Sys2Proof.Machine
end

