-- ==== Sys2Proof/Machine/Tasks.lean ====
section
/-! DEFINITION. SPAWN, SPAWN.INL, SEND and IRREV, WORK, TVT and LWAIT, and the barriers (13 R231 to R249). -/

namespace Sys2Proof.Machine

open Host

/-! ## Spawning (13 R234 to R236) -/

/-- The operands of a spawn and its own checks, in the order of R234 and R235: what follows takes the packet and header. -/
def State.spawnOperands (s : State) (d a : BitVec 7) (confinedOk : Bool) (k : List Word → Word → State → State) : State :=
  s.guarded [d, a] fun s =>
    s.operand64 (s.rx a) fun p s =>
      let hva := (p.getD 1 0) &&& ~~~63
      s.withLine hva 64 fun hs s =>
        let h := hs.getD 0 0
        if s.myGang.confined && !confinedOk then s.trapHere { cause := .prot, addr := s.rx a }
        else if bitAt (p.getD 0 0) 0 then s.trapHere { cause := .priv }
        else if headerOk h = false then s.trapHere { cause := .badHeader, addr := hva }
        else if packetJob p ≠ s.myGang.job ∨ packetTenant p ≠ s.myJob.tenant then s.trapHere { cause := .prot, addr := s.rx a }
        else if packetVt p < s.me.vt.toNat then s.trapHere { cause := .illegal }
        else if packetHedge p ∧ packetTile p = 0 ∧ packetDone p = 0 then s.trapHere { cause := .illegal }
        else k p h s

/-- An entry joins the gang's outbox; its number, or FULL (13 R232, R233). -/
def State.buffer (s : State) (d : BitVec 7) (st : BitVec 2) (o : OutEntry) : State :=
  let q := s.myGang
  if 256 ≤ q.outbox.length then s.result d fullValue st
  else (s.setGang s.me.gang { q with outbox := q.outbox ++ [o] }).result d (BitVec.ofNat 64 q.outbox.length) st

/-- A task enters the issuing cluster's Cistern, which has room (13 R235). -/
def State.spawnNow (s : State) (d : BitVec 7) (st : BitVec 2) (p : List Word) (h : Word) : State :=
  let cl := clusterOf s.coreId
  let r := s.newTask cl
  (r.2.enqueue cl (r.2.taskEntry p h r.1)).result d (BitVec.ofNat 64 r.1) st

/-- SPAWN (13 R235). -/
def execSpawn (d a : BitVec 7) (st : BitVec 2) (s : State) : Outcome State Fault Refusal :=
  .next (s.spawnOperands d a true fun p h s =>
    if s.myGang.confined then s.buffer d st { kind := .spawn h, words := p, cluster := clusterOf s.coreId }
    else if (s.cluster (clusterOf s.coreId)).full then s.result d busyValue st
    else s.spawnNow d st p h)

/-- The issuing slot can run a child inline (13 R236). -/
def State.inlineOk (s : State) (p : List Word) (h : Word) : Bool :=
  bitAt (p.getD 4 0) 16 && hdrStrands h == 1 && decide (hdrAcc h ≤ (s.freeTiles s.coreId).length) &&
    decide (hdrBars h ≤ (s.freeBars s.coreId).length) && decide (s.me.saved.length < 8)

/-- The child runs in its parent's slot, with a matrix stream of its own: the parent's late results land, its registers are saved and the
child's window is initialised; without a save area the strand waits for one (13 R236; 06 R112; 10 R192; 15 R261). -/
def State.runInline (s : State) (d : BitVec 7) (st : BitVec 2) (p : List Word) (h : Word) : State :=
  let v := s.me
  let c := s.coreId
  let cl := clusterOf c
  let j := s.myGang.job
  match s.poolAlloc j (128 + 8 * v.n) with
  | none => s.block (.poolRoom (128 + 8 * v.n))
  | some (va, s1) =>
    let t := (s1.writeArea j va (v.saveWords 0)).newTask cl
    let g := t.2.newGang cl
    let flags := launchFlags (s.job j) p h &&& 30
    let q : Gang :=
      { live := true, job := j, packet := p, hdr := h, task := t.1, flags := flags, x0 := coreX c, y0 := coreY c, z0 := coreZ c,
        running := 1, enq := s.stamp, deq := s.stamp, prio := packetPrio p, inline := some s.cur }
    let s2 := ((g.2.setGang g.1 q).assign g.1 c (hdrAcc h) (hdrBars h)).acquire c
    let saved : Saved :=
      { gang := v.gang, index := v.index, n := v.n, pc := v.pc + 4, x := v.x, lr := v.lr, fcsr := v.fcsr, ox := v.ox, vt := v.vt,
        tid := v.tid, chk := v.chk, dest := d, save := va, pending := v.pending, mxNext := v.mxNext, mxDone := v.mxDone,
        ucode := v.ucode, uc := v.uc }
    let child := ({} : Slot).launch g.1 0 p h (tidOf p flags t.1 0 true) 0 v.firstSlot
      (s.now + 16 * (1 + st.toNat) * tickLen c)
    s2.setMe { v with
      gang := child.gang
      index := 0
      n := child.n
      x := child.x
      pc := child.pc
      lr := 0
      fcsr := 0
      ox := child.ox
      vt := child.vt
      tid := child.tid
      chk := child.chk
      pending := []
      mxNext := child.mxNext
      mxDone := child.mxDone
      ucode := child.ucode
      uc := child.uc
      wait := .none
      lines := []
      saved := saved :: v.saved
      nextTick := child.nextTick }

/-- SPAWN.INL (13 R236). -/
def execSpawnInl (d a : BitVec 7) (st : BitVec 2) (s : State) : Outcome State Fault Refusal :=
  .next (s.spawnOperands d a false fun p h s =>
    if (s.cluster (clusterOf s.coreId)).full = false then s.spawnNow d st p h
    else if s.inlineOk p h then s.whenLanded fun s => s.runInline d st p h
    else s.result d busyValue st)

/-! ## Messages and actions (13 R240, R241) -/

/-- SEND: a release; the message goes to its LP, or waits in the outbox (13 R240). -/
def execSend (d a : BitVec 7) (st : BitVec 2) (s : State) : Outcome State Fault Refusal :=
  .next (s.guarded [d, a] fun s =>
    s.operand64 (s.rx a) fun ws s =>
      let dest := bits (ws.getD 2 0) 0 32
      let j := s.myGang.job
      if (ws.getD 0 0).toNat ≤ s.me.vt.toNat then s.trapHere { cause := .illegal }
      else if s.myJob.declares dest = false then s.trapHere { cause := .prot, addr := s.rx a }
      else s.released fun s =>
        if s.myGang.confined then s.buffer d st { kind := .send, words := ws, cluster := clusterOf s.coreId }
        else if s.messageRoom j dest = false then s.block (.overflowRoom dest)
        else
          let r := s.senderSeq j (s.myGang.lp.map (·.1)) (clusterOf s.coreId)
          (r.2.2.route j s.coreId (sealMessage ws r.1 r.2.1 s.me.vt.toNat)).result d (BitVec.ofNat 64 r.2.1) st)

/-- The host window or the destination of an action, as its kind asks (13 R241). -/
def State.irrevAllowed (s : State) (ws : List Word) : Bool :=
  let w1 := ws.getD 1 0
  let job := s.myJob
  match irrevKind ws with
  | 0 => decide (job.hostBase ≤ w1.toNat ∧ w1.toNat + irrevLen ws ≤ job.hostBase + job.hostLen)
  | 1 =>
    let t := s.job (bits w1 0 16)
    (t.isOpen && t.act.any (fun a => a.2 == (job.self, job.tenant))) || (s.awayDestination s.myGang.job (bits w1 0 16)).isSome
  | _ => true

/-- IRREV: the action joins the outbox of any task (13 R232, R241). -/
def execIrrev (d a : BitVec 7) (st : BitVec 2) (s : State) : Outcome State Fault Refusal :=
  .next (s.guarded [d, a] fun s =>
    s.operand64 (s.rx a) fun ws s =>
      if 3 ≤ irrevKind ws ∨ irrevLen ws = 0 ∨ 48 < irrevLen ws then s.trapHere { cause := .illegal }
      else if s.irrevAllowed ws = false then s.trapHere { cause := .prot, addr := s.rx a }
      else s.buffer d st { kind := .irrev, words := ws, cluster := clusterOf s.coreId })

/-! ## Work and time (13 R243 to R245) -/

/-- WORK: x[A] is added to the copy's counter, which saturates (13 R243). -/
def execWork (a : BitVec 7) (st : BitVec 2) (s : State) : Outcome State Fault Refusal :=
  .next (s.guarded [a] fun s =>
    (s.setGang s.me.gang { s.myGang with work := min (2 ^ 64 - 1) (s.myGang.work + (s.rx a).toNat) }).retire 4 st)

/-- TVT: 1 if lw has reached the strand's vt (13 R244). -/
def execTvt (d : BitVec 7) (st : BitVec 2) (s : State) : Outcome State Fault Refusal :=
  .next (s.guarded [d] fun s =>
    s.result d (if s.me.vt.toNat ≤ s.lwAt s.myGang.job s.coreId then 1 else 0) st)

/-- LWAIT: out of rotation until lw reaches x[A]; x[D] takes the lw seen (13 R245). -/
def execLwait (d a : BitVec 7) (st : BitVec 2) (s : State) : Outcome State Fault Refusal :=
  .next (s.guarded [d, a] fun s =>
    let lw := s.lwAt s.myGang.job s.coreId
    if (s.rx a).toNat ≤ lw then s.result d (BitVec.ofNat 64 lw) st else s.block (.lwAtLeast (s.rx a).toNat))

/-! ## Barriers (13 R246 to R249) -/

/-- Fields of a barrier register (13 R246). -/
def Barrier.gen (b : Barrier) : Nat := bits b.word 48 16
def Barrier.slots (b : Barrier) : List Nat := (List.range 16).filter fun i => bitAt b.word i
def Barrier.config (b : Barrier) : Nat := bits b.word 0 36

/-- The register field of a barrier instruction at or beyond the gang's count (01 R22). -/
def State.badBarrier (s : State) (d : BitVec 3) : Option Nat :=
  if (s.bxReg s.me.gang s.coreId d.toNat).isNone then some d.toNat else none
/-- A barrier register of a gang on a core, as the gang names it. -/
def State.barrierOf (s : State) (g c k : Nat) : Barrier := (s.core c).barrier ((s.bxReg g c k).getD 0)
def State.setBarrier (s : State) (g c k : Nat) (b : Barrier) : State :=
  let n := s.core c
  s.setCore c { n with bx := tset n.bx ((s.bxReg g c k).getD 0) b }

/-- A core's column, row and layer in its gang's rectangle. -/
def Gang.place (q : Gang) (c : Nat) : Nat × Nat × Nat :=
  let i := (q.cores.findIdx? (· == c)).getD 0
  (i % hdrW q.hdr, i / hdrW q.hdr % hdrH q.hdr, i / (hdrW q.hdr * hdrH q.hdr))

/-- A position inside the sub-rectangle of a configuration, and inside its layers too. -/
def inSubRect (w : Word) (p : Nat × Nat × Nat) : Bool :=
  let x0 := bits w 16 5
  let y0 := bits w 21 4
  decide (x0 ≤ p.1 ∧ p.1 ≤ x0 + bits w 25 5 ∧ y0 ≤ p.2.1 ∧ p.2.1 ≤ y0 + bits w 30 4)
def inBarrier (w : Word) (p : Nat × Nat × Nat) : Bool := inSubRect w p && bitAt w (34 + p.2.2)

/-- A configuration BARC refuses (13 R247). -/
def State.barcIllegal (s : State) (d : BitVec 3) (w : Word) : Bool :=
  let q := s.myGang
  let slots := (List.range 16).filter fun i => bitAt w i
  (!bitAt w 34 && !bitAt w 35) || (bitAt w 35 && hdrLayers q.hdr == 1) ||
    decide (hdrW q.hdr < bits w 16 5 + bits w 25 5 + 1) || decide (hdrH q.hdr < bits w 21 4 + bits w 30 4 + 1) ||
    !inSubRect w (q.place s.coreId) || slots.isEmpty ||
    slots.any (fun i => let v := s.slot (s.coreId * 16 + i); !(v.live && v.gang == s.me.gang && v.n != 0)) ||
    !(s.barrierOf s.me.gang s.coreId d.toNat).arrived.isEmpty

/-- A gang's member cores under a configuration. -/
def State.members (s : State) (g : Nat) (w : Word) : List Nat :=
  (s.gang g).cores.filter fun c => inBarrier w ((s.gang g).place c)

/-- The core at which the sweeps of a barrier meet: the last column and row of its sub-rectangle, the root layer where both take part (13 R249). -/
def State.barrierCorner (s : State) (g c : Nat) (w : Word) : Nat :=
  ((s.members g w).find? fun m =>
    let p := (s.gang g).place m
    p.1 == bits w 16 5 + bits w 25 5 && p.2.1 == bits w 21 4 + bits w 30 4).getD c
/-- When what a barrier sends from one core reaches another: in a DET job as the timed channel carries it, each sweep one packet (log 84), else at a
time that the spec does not state (13 R249, R250; 22 R354). -/
def State.sweepTick (s : State) (g c d : Nat) : Nat :=
  let j := (s.gang g).job
  if s.isTimed j c d then s.mcNow * mcTicks + s.carryTicks j c d else s.now
/-- Another core's arrival at a gang's barrier is still under way. -/
def State.arriving (s : State) (g k : Nat) (l : List Nat) : Bool :=
  s.agenda.any fun e => match e.2 with
    | .barrierArrival m h i => h == g && i == k && l.contains m
    | _ => false

/-- BARC: the register takes its configuration, with GEN 0 and no arrival (13 R247). -/
def execBarc (d : BitVec 3) (a : BitVec 7) (st : BitVec 2) (s : State) : Outcome State Fault Refusal :=
  .next (s.guardedWith (s.badBarrier d) [a] fun s =>
    if s.barcIllegal d (s.rx a) then s.trapHere { cause := .illegal }
    else (s.setBarrier s.me.gang s.coreId d.toNat { word := s.rx a &&& 0xFFFFFFFFF }).retire 4 st)

/-- BAR: a release, then the slot's arrival; one that has arrived waits for the next generation (13 R248). -/
def execBar (d : BitVec 3) (st : BitVec 2) (s : State) : Outcome State Fault Refusal :=
  .next (s.guardedWith (s.badBarrier d) [] fun s =>
    let slot := s.cur % 16
    if !(s.barrierOf s.me.gang s.coreId d.toNat).slots.contains slot then s.trapHere { cause := .illegal }
    else s.released fun s =>
      let b := s.barrierOf s.me.gang s.coreId d.toNat
      if b.arrived.any (fun e => e.1 == slot) then s.block (.barrierGen d.toNat b.gen)
      else
        let b1 : Barrier := { b with arrived := b.arrived ++ [(slot, b.gen)], lastGen := tset b.lastGen slot b.gen }
        let s1 := (s.setBarrier s.me.gang s.coreId d.toNat b1).retire 4 st
        if b1.slots.all (fun i => b1.arrived.any fun e => e.1 == i) then
          let g := s.me.gang
          s1.schedule (s.sweepTick g s.coreId (s.barrierCorner g s.coreId b1.word)) (.barrierArrival s.coreId g d.toNat)
        else s1)

/-- BARW: out of rotation until GEN has left the slot's last arrival behind, then an acquire (13 R248). -/
def execBarw (d : BitVec 3) (st : BitVec 2) (s : State) : Outcome State Fault Refusal :=
  .next (s.guardedWith (s.badBarrier d) [] fun s =>
    let slot := s.cur % 16
    let b := s.barrierOf s.me.gang s.coreId d.toNat
    if !b.slots.contains slot then s.trapHere { cause := .illegal }
    else if b.lastGen.any (fun e => e.1 == slot && e.2 == b.gen) then s.block (.barrierGen d.toNat b.gen)
    else (s.acquire s.coreId).retire 4 st)

/-- BARRIER_ARRIVAL: a ready core's arrival reaches the corner; once the last has, and every member core holds the same configuration and
generation and is ready, the release goes back to all of them (13 R247, R249). -/
def execBarrierArrival (s : State) : Outcome State Fault Refusal :=
  match s.ev with
  | some (.barrierArrival c g k) =>
    let b := s.barrierOf g c k
    let l := s.members g b.word
    let ready := fun (m : Nat) =>
      let o := s.barrierOf g m k
      o.config == b.config && o.gen == b.gen && o.slots.all (fun i => o.arrived.any fun e => e.1 == i)
    let e := s.barrierCorner g c b.word
    .next (if !l.isEmpty && l.all ready && !s.arriving g k l then
        l.foldl (fun (u : State) m => u.schedule (s.sweepTick g e m) (.barrierRelease m g k)) s
      else s)
  | _ => .next s

/-- BARRIER_RELEASE: the release reaches a member core: GEN advances and the arrivals clear (13 R249). -/
def execBarrierRelease (s : State) : Outcome State Fault Refusal :=
  match s.ev with
  | some (.barrierRelease c g k) =>
    let b := s.barrierOf g c k
    if b.arrived = [] then .next s
    else .next (s.setBarrier g c k { b with
      word := merge b.word (BitVec.ofNat 64 ((b.gen + 1) % 65536 * 2 ^ 48)) 0xFFFF000000000000
      arrived := [] })
  | _ => .next s

end Sys2Proof.Machine
end

