-- ==== Sys2Proof/Machine/Rill.lean ====
section
/-! DEFINITION. RJOIN, RWAIT, RSEND, RREL and RLEAVE (19 R321 to R327; 21 R337, R346). -/

namespace Sys2Proof.Machine

open Host

/-! ## Joining (19 R322, R323) -/

/-- The fields of a ring descriptor. -/
structure RingDesc where
  ring : Nat
  lead : Bool
  k : Nat
  pos : Nat
  s : Nat
  bsz : Nat
  ncl : Nat
  buf : Nat
  own : Word
  deriving DecidableEq, Repr

def ringDesc (ws : List Word) : RingDesc :=
  let r1 := ws.getD 1 0
  { ring := bits (ws.getD 0 0) 0 32, lead := bitAt r1 40, k := bits r1 32 8, pos := bits r1 24 8, s := bits r1 20 4,
    bsz := bits r1 16 4, ncl := bits r1 0 8, buf := bits (ws.getD 2 0) 0 24, own := ws.getD 3 0 }

def RingDesc.block (r : RingDesc) : Nat := 4096 * (r.bsz + 1)

/-- A field outside its range, or a buffer that cannot be the member's, on a core (check 4). -/
def RingDesc.bad (r : RingDesc) (core : Nat) : Bool :=
  decide (r.k < 2 ∨ 64 < r.k ∨ r.k ≤ r.pos ∨ r.s < 2 ∨ 8 < r.s ∨ r.ncl = 0 ∨ 128 < r.ncl ∨ r.buf % 64 ≠ 0 ∨
    r.buf / 2 ^ 21 ≠ clusterIdx core ∨ 0x180000 < r.buf % 2 ^ 21 + r.s * r.block)

/-- The ring's part on the module has a member with LEAD. -/
def State.ringLead (s : State) (r : Ring) : Bool := (s.ringMembers r).any (·.lead)

/-- An earlier member disagrees (check 5). -/
def State.ringClash (s : State) (q : Ring) (r : RingDesc) : Bool :=
  !(q.k == r.k && q.pos == r.pos && q.s == r.s && q.bsz == r.bsz && q.ncl == r.ncl && q.own == r.own) || (r.lead && s.ringLead q)

/-- Where the OWN block lies, line by line, or the trap of check 6. -/
def State.ownBlock (s : State) (va : Word) (n : Nat) : Except TrapInfo (List (Nat × Nat)) :=
  let j := s.myGang.job
  let ps := linePieces (n / 64 + 2) va n
  match ps.findSome? fun p => match s.translate s.coreId j p.1 .read with
      | .xlat l => some ({ cause := .xlat, addr := p.1, detail := l } : TrapInfo)
      | _ => none with
  | some t => .error t
  | none =>
    match ps.findSome? fun p => match s.translate s.coreId j p.1 .read with
        | .hbm _ _ => none
        | _ => some ({ cause := .prot, addr := p.1 } : TrapInfo) with
    | some t => .error t
    | none => .ok (ps.filterMap fun p => match s.translate s.coreId j p.1 .read with
        | .hbm pa _ => some (pa, p.2)
        | _ => none)

/-- The strand of a slot has no join under way, or its ring's part is complete. -/
def State.joined (s : State) (id : Nat) : Bool :=
  s.rings.all fun r => r.complete || !(r.joining.any fun w => w.1 == id)

/-- The membership is taken and the strand waits; with the last member the part is complete. -/
def State.joinRing (s : State) (r : RingDesc) (own : List (Nat × Nat)) (i : Nat) : State :=
  let j := s.myGang.job
  let c := s.coreId
  let m : Member := { gang := s.me.gang, job := j, ring := r.ring, lead := r.lead, buf := r.buf % 2 ^ 21 }
  let q0 : Ring := (s.ring j r.ring).getD
    { job := j, ring := r.ring, k := r.k, pos := r.pos, s := r.s, bsz := r.bsz, ncl := r.ncl, own := r.own }
  let q : Ring := { q0 with members := q0.members ++ [(c, i)], joining := q0.joining ++ [(s.cur, r.lead, i)], ownPa := own }
  let s1 := (s.setMember c i m).block .ringJoined
  let s2 := match s1.ring j r.ring with
    | some _ => s1.setRing q
    | none => { s1 with rings := s1.rings ++ [q] }
  if q.members.length = q.ncl ∧ s2.ringLead q then s2.ringComplete j r.ring else s2

/-- RJOIN issued for the first time. -/
def State.rjoin (s : State) (d a : BitVec 7) (st : BitVec 2) : State :=
  s.operand64 (s.rx a) fun ws s =>
    let r := ringDesc ws
    let q := s.ring s.myGang.job r.ring
    if s.myGang.confined then s.trapHere { cause := .prot, addr := s.rx a }
    else if r.bad s.coreId then s.trapHere { cause := .illegal }
    else if (q.map fun q => s.ringClash q r).getD false then s.trapHere { cause := .illegal }
    else match s.ownBlock r.own r.block with
      | .error t => s.trapHere t
      | .ok own =>
        if (q.map fun q => q.complete || decide (q.ncl ≤ q.members.length)).getD false then s.trapHere { cause := .illegal }
        else match (List.range 4).find? (fun i => (s.member s.coreId i).isNone) with
          | none => s.result d busyValue st
          | some i => s.joinRing r own i

/-- RJOIN, once the strand's earlier accesses are acknowledged: the strand waits until the module's part of the ring is complete, then
has its membership's index (19 R323; 07 R139). -/
def execRjoin (d a : BitVec 7) (st : BitVec 2) (s : State) : Outcome State Fault Refusal :=
  .next (s.guarded [d, a] fun s =>
    match s.rings.find? (fun r => r.joining.any fun w => w.1 == s.cur) with
    | none => s.released fun s => s.rjoin d a st
    | some r =>
      if r.complete then
        let i := ((r.joining.find? fun w => w.1 == s.cur).map (·.2.2)).getD 0
        (s.setRing { r with joining := r.joining.filter fun w => w.1 != s.cur }).result d (BitVec.ofNat 64 i) st
      else s.block .ringJoined)

/-! ## Memberships (19 R321) -/

/-- The checks of a membership index, and the membership with its ring. -/
def State.withMember (s : State) (x : Word) (k : Nat → Member → Ring → State) : State :=
  if 3 < x.toNat then s.trapHere { cause := .illegal }
  else
    match s.member s.coreId x.toNat with
    | some m =>
      if m.gang ≠ s.me.gang then s.trapHere { cause := .prot }
      else match s.ring m.job m.ring with
        | some r => k x.toNat m r
        | none => s.trapHere { cause := .prot }
    | none => s.trapHere { cause := .prot }

/-- A trap of the Rill names the membership, the ring and the step (25 R384, R386). -/
def rillTrap (c : Cause) (i : Nat) (m : Member) (step : Nat) (addr : Word) : TrapInfo :=
  { cause := c, origin := 4, addr := addr, opn := BitVec.ofNat 64 step, ring := m.ring, ctx := i * 16 + 2 }

/-- A step that R324 refuses. -/
def Member.outside (m : Member) (r : Ring) (step : Nat) : Bool := decide (r.k ≤ step ∨ step < m.oldest ∨ m.oldest + r.s ≤ step)

/-- The trap of a wait for a step of a ring that cannot form, is broken, or brought damaged data (21 R337, R346; 25 R398). -/
def State.stepTrap (_s : State) (i : Nat) (m : Member) (r : Ring) (step : Nat) : Option TrapInfo :=
  if r.conflict && decide (1 ≤ step) then some (rillTrap .illegal i m step 0)
  else if r.broken && !m.arrived r.block step then some (rillTrap .abort i m step 0)
  else match m.uncorr.find? (fun e => e.1 == step) with
    | some e => some (rillTrap .uncorrectable i m step e.2)
    | none => none

/-- The first n bytes of a step have arrived for a member. -/
def Member.has (m : Member) (r : Ring) (step n : Nat) : Bool :=
  r.holds step && decide (min n r.block ≤ m.pointer r.block step)

/-- RWAIT goes on: its bytes have arrived, or it traps. -/
def State.rillReady (s : State) (core i step n : Nat) : Bool :=
  match s.memberRing core i with
  | some (m, r) => (s.stepTrap i m r step).isSome || m.has r step n
  | none => true

/-- RWAIT: out of rotation until the bytes asked for have landed, then an acquire (19 R324). -/
def execRwait (d a b : BitVec 7) (st : BitVec 2) (s : State) : Outcome State Fault Refusal :=
  .next (s.guarded [d, a, b] fun s =>
    s.withMember (s.rx a) fun i m r =>
      let step := (s.rx b).toNat
      if m.outside r step then s.trapHere { cause := .illegal }
      else match s.stepTrap i m r step with
        | some t => s.trapHere t
        | none =>
          if m.has r step (s.rx d).toNat then (s.acquire s.coreId).result d (BitVec.ofNat 64 (m.pointer r.block step)) st
          else s.block (.rillStep i step (s.rx d).toNat))

/-- RSEND goes on: its step has arrived and the module holds the successor's token, or it traps. -/
def State.sendReady (s : State) (core i step : Nat) : Bool :=
  match s.memberRing core i with
  | some (m, r) =>
    (r.conflict && decide (1 ≤ step)) || (r.broken && !m.arrived r.block step) ||
      (m.arrived r.block step && r.tokens.contains (step + 1))
  | none => true

/-- RSEND: the block is queued for the successor as the next step, once the strand's earlier stores are acknowledged (19 R326; 21 R338;
07 R139). In a broken ring, one of an arrived step waits for a token that no longer comes (DEDUCED, log 97). -/
def execRsend (d a b : BitVec 7) (st : BitVec 2) (s : State) : Outcome State Fault Refusal :=
  .next (s.guarded [d, a, b] fun s =>
    s.withMember (s.rx a) fun i m r =>
      let step := (s.rx b).toNat
      if m.lead = false ∨ r.k ≤ step + 1 ∨ step ≠ r.sent then s.trapHere { cause := .illegal }
      else if r.conflict && decide (1 ≤ step) then s.trapHere (rillTrap .illegal i m step 0)
      else if m.arrived r.block step = false then
        if r.broken then s.trapHere (rillTrap .abort i m step 0) else s.block (.rillSend i step)
      else if r.tokens.contains (step + 1) then
        s.released fun s =>
          ((s.setRing { r with sent := step + 1, tokens := r.tokens.filter (· != step + 1) }).result d
            (BitVec.ofNat 64 (step + 1)) st).soon (.readOut m.job m.ring step)
      else s.block (.rillSend i step))

/-- RREL goes on: the member's oldest step has fully arrived. -/
def State.releaseReady (s : State) (core i : Nat) : Bool :=
  match s.memberRing core i with
  | some (m, r) => m.arrived r.block m.oldest
  | none => true

/-- RREL: once the step has fully arrived, a release that marks its slot released by this member (19 R325). -/
def execRrel (a b : BitVec 7) (st : BitVec 2) (s : State) : Outcome State Fault Refusal :=
  .next (s.guarded [a, b] fun s =>
    s.withMember (s.rx a) fun i m r =>
      if (s.rx b).toNat ≠ m.oldest ∨ r.k ≤ m.oldest then s.trapHere { cause := .illegal }
      else if m.arrived r.block m.oldest = false then s.block (.ackRelease i)
      else s.released fun s =>
        (((s.setMember s.coreId i { m with oldest := m.oldest + 1 }).ringSettle m.job m.ring)).retire 4 st)

/-- RLEAVE: a release that ends the membership; a lead of a ring that still turns has sent its last step (19 R327; 21 R346). -/
def execRleave (a : BitVec 7) (st : BitVec 2) (s : State) : Outcome State Fault Refusal :=
  .next (s.guarded [a] fun s =>
    s.withMember (s.rx a) fun i m r =>
      if m.lead && !r.broken && decide (r.sent + 1 < r.k) then s.trapHere { cause := .illegal }
      else s.released fun s => (s.endMember s.coreId i false).retire 4 st)

end Sys2Proof.Machine
end

