-- ==== Sys2Proof/Machine/Attention.lean ====
section
/-! DEFINITION. The attention engine: ATTN.INIT, ATTN.STEP and ATTN.FIN (19 R328 to R332; 21 R348, R349), and the return of
the registers handed to an engine (06 R117). -/

namespace Sys2Proof.Machine

open Host

/-! ## Contexts and their memory (19 R328, R329) -/

def State.attnCtx (s : State) (cl i : Nat) : Option AttnCtx := ((s.cluster cl).attn.find? (fun a => a.1 == i)).map (·.2)
def State.setAttn (s : State) (cl i : Nat) (x : AttnCtx) : State :=
  let c := s.cluster cl
  s.setCluster cl { c with attn := tset c.attn i x }

/-- An address that is not 64-byte aligned. -/
def unaligned (a : Nat) : Option TrapInfo := if a % 64 = 0 then none else some { cause := .align, addr := BitVec.ofNat 64 a }

/-- The trap of a range at a cluster-local address that a core's job cannot reach, or that its gang may not write (10 R191; 04
R78; 18 R297). -/
def State.rangeTrap (s : State) (core gang a n : Nat) (write : Bool) : Option TrapInfo :=
  let q := s.gang gang
  let trap : TrapInfo := { cause := .prot, addr := BitVec.ofNat 64 (a % 2 ^ 24) }
  match s.clusterLocal core q.job a n with
  | none => some trap
  | some pa =>
    if write && ((q.confined && !q.cores.contains (clusterCore (clusterOf core) (a % 2 ^ 24 / 2 ^ 21))) || s.inInbox pa)
    then some trap else none

/-- The first trap of a list. -/
def firstTrap (l : List (Option TrapInfo)) : Option TrapInfo := l.findSome? id

/-! ## Memory of the engine -/

/-- Bytes of a range, or the fault of the gather. -/
def State.attnRead (s : State) (core gang a n : Nat) : Except TrapInfo (List Byte) :=
  match s.clusterLocal core (s.gang gang).job a n with
  | none => .error { cause := .prot, addr := BitVec.ofNat 64 (a % 2 ^ 24) }
  | some pa => if s.damagedLocal pa n then .error { cause := .uncorrectable } else .ok (memBytes s.mem pa n)

/-- Bytes written to a range. -/
def State.attnWrite (s : State) (core gang a : Nat) (bs : List Byte) : State :=
  s.enginePut core (s.gang gang).job (.ownMem (clusterPlace core a)) bs

/-! ## Issue -/

/-- The issuing strand's operation joins its cluster's engine once the strand's earlier writes are acknowledged (06 R117; 07 R139; 21
R348). -/
def State.attnIssue (s : State) (i : Instr) (idx : Nat) (st : BitVec 2) : State :=
  s.released fun s =>
    let cl := clusterOf s.coreId
    let s1 := s.leave st
    let s2 := s1.setMe { s1.me with wait := .engine, rep := some (i, BitVec.ofNat 7 idx), stepAt := 0 }
    let c := s2.cluster cl
    (s2.setCluster cl { c with attnQ := c.attnQ ++ [(s.cur, s.me.gang)] }).attnKick cl

/-- A context for the issuing gang: the lowest free one, or the gang's lowest finished one (19 R330). -/
def State.attnSlot (s : State) (cl : Nat) : Option Nat :=
  match (List.range 8).find? (fun i => (s.attnCtx cl i).isNone) with
  | some i => some i
  | none => (List.range 8).find? fun i =>
    match s.attnCtx cl i with
    | some x => x.finished && x.gang == s.me.gang
    | none => false

/-- ATTN.INIT: a context is allocated, and its state area written before the strand goes on (19 R330). -/
def execAttnInit (d a : BitVec 7) (st : BitVec 2) (s : State) : Outcome State Fault Refusal :=
  .next (s.guarded [d, a] fun s =>
    s.operand64 (s.rx a) fun ws s =>
      let g := s.me.gang
      let x : AttnCtx := { gang := g, qa := bits (ws.getD 0 0) 0 24, sa := bits (ws.getD 1 0) 0 24,
                           scale := BitVec.ofNat 32 (ws.getD 2 0).toNat, causal := bitAt (ws.getD 3 0) 32,
                           qpos := bits (ws.getD 3 0) 0 32 }
      match firstTrap [unaligned x.qa, unaligned x.sa, s.rangeTrap s.coreId g x.qa qBytes false,
          s.rangeTrap s.coreId g x.sa saBytes true] with
      | some t => s.trapHere t
      | none =>
        match s.attnSlot (clusterOf s.coreId) with
        | none => s.result d busyValue st
        | some i => s.released fun s => (s.setAttn (clusterOf s.coreId) i x).attnIssue (.attnInit d a st) i st)

/-- The checks of a context index, and the context (19 R321). -/
def State.withContext (s : State) (x : Word) (traps : List (Option TrapInfo)) (k : Nat → AttnCtx → State) : State :=
  let c := if x.toNat < 8 then s.attnCtx (clusterOf s.coreId) x.toNat else none
  if 7 < x.toNat ∨ (c.map (·.finished)).getD false then s.trapHere { cause := .illegal }
  else match firstTrap traps with
    | some t => s.trapHere t
    | none =>
      match c with
      | some y => if y.gang = s.me.gang then k x.toNat y else s.trapHere { cause := .prot }
      | none => s.trapHere { cause := .prot }

/-- The traps of a linked step's membership before anything is gathered: R324's, and a block that is not its slot. -/
def State.linkTrap (s : State) (core gang : Nat) (block i step : Nat) : Option TrapInfo :=
  match s.memberRing core i with
  | none => some { cause := .prot }
  | some (m, r) =>
    if m.gang ≠ gang then some { cause := .prot }
    else if m.outside r step ∨ block % 2 ^ 24 ≠ clusterIdx core * 2 ^ 21 + m.buf + step % r.s * r.block then
      some { cause := .illegal }
    else s.stepTrap i m r step

/-- ATTN.STEP hands its registers to the engine (19 R331; 06 R117). -/
def execAttnStep (d a b : BitVec 7) (st : BitVec 2) (s : State) : Outcome State Fault Refusal :=
  .next (s.guarded [d, a, b] fun s =>
    let blk := (s.rx b).toNat
    let g := s.me.gang
    s.withContext (s.rx a) [unaligned blk, s.rangeTrap s.coreId g blk kvBytes false] fun i x =>
      match firstTrap [s.rangeTrap s.coreId g x.qa qBytes false, s.rangeTrap s.coreId g x.sa saBytes true,
          (linkOf (s.oxr 2)).bind fun l => s.linkTrap s.coreId g blk l.1 l.2] with
      | some t => s.trapHere t
      | none => s.attnIssue (.attnStep d a b st) i st)

/-- ATTN.FIN: the outputs are divided before the strand goes on (19 R332). -/
def execAttnFin (d a : BitVec 7) (st : BitVec 2) (s : State) : Outcome State Fault Refusal :=
  .next (s.guarded [d, a] fun s =>
    s.withContext (s.rx a) [] fun i x =>
      match s.rangeTrap s.coreId s.me.gang x.sa saBytes true with
      | some t => s.trapHere t
      | none => s.attnIssue (.attnFin d a st) i st)

/-! ## The arithmetic (19 R331, R332) -/

/-- Numbers of so many bytes each from a list of bytes. -/
def codesOf (z : Nat) (bs : List Byte) : List Nat := (chunks z bs.length bs).map ofBytes
/-- FP32 patterns as bytes. -/
def fp32Bytes (l : List Nat) : List Byte := l.flatMap fun v => toBytes v 4

/-- A value with the flags collected so far. -/
abbrev Flagged (α : Type) := α × BitVec 5

/-- The scores of a row against every key: sums of groups of 4, scaled, masked. -/
def attnScores (x : AttnCtx) (i : Nat) (q : List Fv) (ks : List (List Fv)) (kpos : Nat) : Flagged (List Nat) :=
  ks.zipIdx.foldl (fun (acc : Flagged (List Nat)) k =>
    let sc := mxElement fp32 (some 4) 0 (q.zip k.1)
    let t := fp32.mul .rne (fp32.decode sc.1) (fp32.decode x.scale.toNat)
    let v := if x.causal && decide (x.qpos + i < kpos + k.2) then 0xFF800000 else t.1
    (acc.1 ++ [v], acc.2 ||| sc.2 ||| t.2)) ([], 0)

/-- The greatest of a running maximum and scores (08 R146). -/
def attnMax (m : Nat) (ts : List Nat) : Flagged Nat :=
  ts.foldl (fun (a : Flagged Nat) t =>
    let r := fp32.minMax true a.1 t
    (r.1, a.2 ||| r.2)) (m, 0)

/-- exp2 of a difference. -/
def attnExp (x mn : Nat) : Flagged Nat :=
  let dlt := fp32.add .rne (fp32.decode x) (fp32.decode mn).negate
  let e := exp2_32 dlt.1
  (e.1, dlt.2 ||| e.2)

/-- One row through a step: its maximum, sum and outputs. -/
def attnRow (ts : List Nat) (vs : List (List Fv)) (m l : Nat) (o : List Nat) : Flagged (Nat × Nat × List Nat) :=
  let mx := attnMax m ts
  if mx.1 = 0xFF800000 then ((m, l, o), mx.2)
  else
    let a := attnExp m mx.1
    let av := fp32.decode a.1
    let l1 := fp32.mul .rne (fp32.decode l) av
    let o1 := o.map fun v => fp32.mul .rne (fp32.decode v) av
    let f1 := o1.foldl (fun f v => f ||| v.2) (mx.2 ||| a.2 ||| l1.2)
    let r := (ts.zip vs).foldl (fun (acc : Flagged (Nat × List Nat)) tv =>
      let p := attnExp tv.1 mx.1
      let pv := fp32.decode p.1
      let l2 := fp32.add .rne (fp32.decode acc.1.1) pv
      let o2 := (acc.1.2.zip tv.2).map fun w => fp32.fma .rne pv w.2 (fp32.decode w.1)
      ((l2.1, o2.map (·.1)), o2.foldl (fun f v => f ||| v.2) (acc.2 ||| p.2 ||| l2.2))) ((l1.1, o1.map (·.1)), f1)
    ((mx.1, r.1.1, r.1.2), r.2)

/-- A state area after a step, from the bytes of Q, the block and the area. -/
def attnStepArea (x : AttnCtx) (kpos : Nat) (qb blk area : List Byte) : List Byte :=
  let rows := fun (bs : List Byte) => chunks 128 64 ((codesOf 2 bs).map bf16.decode)
  let qs := rows qb
  let ks := rows (blk.take qBytes)
  let vs := rows (blk.drop qBytes)
  let os := chunks 128 64 (codesOf 4 (area.take kvBytes))
  let ms := codesOf 4 ((area.drop 32768).take 256)
  let ls := codesOf 4 ((area.drop 33024).take 256)
  let out := (List.range 64).map fun i =>
    let ts := attnScores x i (qs.getD i []) ks kpos
    let r := attnRow ts.1 vs (ms.getD i 0) (ls.getD i 0) (os.getD i [])
    (r.1, ts.2 ||| r.2)
  let fl := ofBytes ((area.drop 33280).take 8)
  let f := out.foldl (fun (f : BitVec 4) r => f ||| tileFlags r.2) (BitVec.ofNat 4 fl)
  fp32Bytes (out.flatMap fun r => r.1.2.2) ++ fp32Bytes (out.map fun r => r.1.1) ++ fp32Bytes (out.map fun r => r.1.2.1) ++
    toBytes (fl / 16 * 16 + f.toNat) 8

/-- O divided row by row by l; a row whose l is +0 becomes +0. -/
def attnDivide (os : List (List Nat)) (ls : List Nat) : Flagged (List Nat) :=
  (os.zip ls).foldl (fun (acc : Flagged (List Nat)) r =>
    if r.2 = 0 then (acc.1 ++ r.1.map fun _ => 0, acc.2)
    else
      let q := r.1.map fun v => fp32.div .rne (fp32.decode v) (fp32.decode r.2)
      (acc.1 ++ q.map (·.1), q.foldl (fun f v => f ||| v.2) acc.2)) ([], 0)

/-! ## The engine's turn (19 R330 to R332; 21 R348) -/

/-- The first operation of a cluster's engine has ended: the next takes its turn. -/
def State.attnPop (s : State) (cl : Nat) : State :=
  let c := s.cluster cl
  (s.setCluster cl { c with attnQ := c.attnQ.tail, attnFree := 0 }).attnKick cl

/-- The current slot has its registers again. -/
def State.attnReturn (s : State) (d : BitVec 7) (v : Nat) : State :=
  let u := s.wx d (BitVec.ofNat 64 v)
  u.setMe { u.me with pc := u.me.pc + 4, wait := .none, rep := none }

/-- A fault of the engine, raised as its strand's registers return (06 R117; 19 R331). -/
def State.attnFault (s : State) (i : Nat) (x : AttnCtx) (t : TrapInfo) : State :=
  let u : State := s.setMe { s.me with rep := none }
  u.trapHere (if t.origin = 0 then { t with origin := 3, opn := BitVec.ofNat 64 (x.counter + 1), ctx := i * 16 + 3 } else t)

/-- The state area of a new context: O and l +0, every m −∞, no flag. -/
def attnFresh : List Byte :=
  List.replicate 32768 0 ++ fp32Bytes (List.replicate 64 0xFF800000) ++ List.replicate 264 0

/-- ATTN.INIT's writes are performed. -/
def State.attnInitDone (s : State) (d : BitVec 7) (i : Nat) (x : AttnCtx) : State :=
  (s.attnWrite s.coreId x.gang x.sa attnFresh).attnReturn d i

/-- The words a step reads, then its effect on the state area; or its fault. -/
def State.attnStepDone (s : State) (d b : BitVec 7) (i : Nat) (x : AttnCtx) : State :=
  let c := s.coreId
  match s.attnRead c x.gang x.qa qBytes, s.attnRead c x.gang (s.rx b).toNat kvBytes, s.attnRead c x.gang x.sa saBytes with
  | .ok q, .ok k, .ok a =>
    let s1 := s.attnWrite c x.gang x.sa (attnStepArea x (s.oxr 3).toNat q k a)
    let s2 := s1.setAttn (clusterOf c) i { x with counter := x.counter + 1 }
    (if (linkOf (s.oxr 2)).isSome then s2.acquire c else s2).attnReturn d (x.counter + 1)
  | .error t, _, _ | _, .error t, _ | _, _, .error t => s.attnFault i x t

/-- ATTN.FIN's division is performed and the context is finished. -/
def State.attnFinDone (s : State) (d : BitVec 7) (i : Nat) (x : AttnCtx) : State :=
  let c := s.coreId
  match s.attnRead c x.gang x.sa saBytes with
  | .error t => s.attnFault i x t
  | .ok a =>
    let r := attnDivide (chunks 128 64 (codesOf 4 (a.take kvBytes))) (codesOf 4 ((a.drop 33024).take 256))
    let fl := ofBytes ((a.drop 33280).take 8)
    let f := BitVec.ofNat 4 fl ||| tileFlags r.2
    let s1 := (s.attnWrite c x.gang x.sa (fp32Bytes r.1)).attnWrite c x.gang (x.sa + 33280) (toBytes (fl / 16 * 16 + f.toNat) 8)
    (s1.setAttn (clusterOf c) i { x with counter := x.counter + 1, finished := true }).attnReturn d (x.counter + 1)

/-- The lines that an operation writes after its gather: ATTN.INIT the state area, ATTN.FIN O after its 64 cycles of division; a step
the state area within its 256 cycles (21 R348). -/
def AttnCtx.writes (x : AttnCtx) (i : Instr) : List (Nat × Nat) :=
  match i with
  | .attnInit _ _ _ | .attnStep _ _ _ _ => attnLines x.sa saBytes
  | .attnFin _ _ _ => attnLines x.sa kvBytes
  | _ => []
/-- The engine's cycles before those writes begin: a step's begin in time to end with its 256 where no bank is lost (DESIGN CHOICE, log
85: 174 lines at most lie in one bank). -/
def attnWritesFrom (i : Instr) : Nat :=
  match i with
  | .attnStep _ _ _ _ => 82
  | .attnFin _ _ _ => 64
  | _ => 0
/-- The engine's cycles that the operation takes at the least, and those after its last write. -/
def attnBefore (i : Instr) : Nat :=
  match i with
  | .attnStep _ _ _ _ => 256
  | .attnFin _ _ _ => 64
  | _ => 0
def attnAfter (i : Instr) : Nat :=
  match i with
  | .attnInit _ _ _ => 4
  | _ => 0
/-- The tick at which the operation in the array ends, as the banks stand. -/
def State.attnEnds (s : State) (cl id : Nat) (i : Instr) (free : Nat) : Nat := max free (s.attnDue cl id (attnAfter i))

/-- What holds a linked step back: nothing, more of its block, or a trap. -/
inductive Linked where
  | ready | waiting
  | trap (t : TrapInfo)
  deriving DecidableEq, Repr

/-- The link of the current slot's operation: every line of the block that it gathers must lie below the arrival pointer, so that a
block of less than 32 KiB never suffices; a membership that has ended meanwhile is refused as at the issue (21 R349; log 97). -/
def State.linked (s : State) (i : Instr) : Linked :=
  match i, linkOf (s.oxr 2) with
  | .attnStep _ _ _ _, some (mi, step) =>
    match s.memberRing s.coreId mi with
    | none => .trap { cause := .prot }
    | some (m, r) =>
      match s.stepTrap mi m r step with
      | some t => .trap t
      | none => if r.holds step && decide (kvBytes ≤ m.pointer r.block step) then .ready else .waiting
  | _, _ => .ready

/-- The operation of the current slot, first of its cluster's engine, is performed. -/
def State.attnPerform (s : State) (i : Instr) (idx : Nat) (x : AttnCtx) : State :=
  match i with
  | .attnInit d _ _ => s.attnInitDone d idx x
  | .attnStep d _ b _ => s.attnStepDone d b idx x
  | .attnFin d _ _ => s.attnFinDone d idx x
  | _ => s

/-- The engine's turn at a slot: its gather has ended and the array begins, or the array has ended and the operation is
performed. An event of an operation that was abandoned does nothing. -/
def State.attnTurn (s : State) (id : Nat) (again : Ev) : State :=
  let cl := clusterOf (id / 16)
  let c := s.cluster cl
  let v := s.slot id
  match c.attnQ, v.rep with
  | (h, g) :: _, some (i, idx) =>
    if h ≠ id ∨ v.wait ≠ .engine ∨ v.gang ≠ g ∨ s.now < v.stepAt then s
    else
      match s.attnCtx cl idx.toNat with
      | none => s
      | some x =>
        let u := { s with cur := id }
        if c.attnFree ≠ 0 then
          let t := s.attnEnds cl id i c.attnFree
          if s.now < c.attnFree then s
          else if s.now < t then (s.setCluster cl { c with attnFree := t }).schedule t again
          else (u.attnPerform i idx.toNat x).attnPop cl
        else
          let due := s.attnDue cl id 4
          if s.now < due then (s.setSlot id { v with stepAt := due }).schedule due again
          else match u.linked i with
          | .trap t => (u.attnFault idx.toNat x t).attnPop cl
          | .waiting => s
          | .ready =>
            let s1 := (s.attnUnclaim cl id).attnClaim cl id (attnWritesFrom i) (x.writes i)
            let t := s1.attnEnds cl id i (s.now + attnBefore i * tickLen (id / 16))
            (s1.setCluster cl { s1.cluster cl with attnFree := max 1 t }).schedule t again
  | _, _ => s

/-- ENGINE_RETURN: the engine returns the registers of a CPY.W or of an ATTN.STEP (06 R117; 10 R196; 19 R331). -/
def execEngineReturn (s : State) : Outcome State Fault Refusal :=
  match s.ev with
  | some (.engineReturn id) =>
    let v := s.slot id
    match v.wait, v.rep with
    | .engine, some (.cpyW _ a _ _, _) => .next (s.cpyWReturn id a)
    | .engine, some (.attnStep _ _ _ _, _) => .next (s.attnTurn id (.engineReturn id))
    | _, _ => .next s
  | _ => .next s

/-- ATTENTION_ENGINE_COMPLETE: the writes of an ATTN.INIT or ATTN.FIN (19 R330, R332). -/
def execAttentionEngineComplete (s : State) : Outcome State Fault Refusal :=
  match s.ev with
  | some (.attentionEngineComplete id) =>
    match (s.slot id).wait with
    | .engine => .next (s.attnTurn id (.attentionEngineComplete id))
    | _ => .next s
  | _ => .next s

end Sys2Proof.Machine
end

