-- ==== Sys2Proof/Machine/Fetch.lean ====
section
/-! DEFINITION. Fetching an instruction's halfwords through the core's instruction cache (01 R13, R14; 07 R132). -/

namespace Sys2Proof.Machine

/-- A halfword of a core's instruction cache, or of memory where the cache does not hold it; the cache keeps what it read,
its newest 16,384 halfwords (07 R132; log 14). -/
def State.cachedHalf (s : State) (core key : Nat) (fromMem : Nat) : Nat × State :=
  let c := s.core core
  match c.icache.find? (fun e => e.1 == key) with
  | some e => (e.2.toNat, s)
  | none =>
    let v := memRead s.mem fromMem 2
    (v, s.setCore core { c with icache := ((key, BitVec.ofNat 16 v) :: c.icache).take 16384 })

/-- What fetching one halfword gives. -/
inductive Half where
  | got (v : Nat) (s : State)
  | fault (prot : Bool) (addr : Word) (level : Nat)
  | damaged (addr : Word)
  | remote (modul : Nat) (addr : Word)
  | timed (pa : Nat) (addr : Word)
  deriving DecidableEq, Repr

/-- The key under which an instruction cache holds a halfword of another module: its fabric address, for the job under whose mapping there it was
fetched (01 R14; 22 R355). -/
def remoteKey (job : Nat) (va : Word) : Nat := 2 ^ 64 * (job + 1) + va.toNat

/-- A halfword at a virtual address (01 R14; 25 R392); a DET job's fetch of a line of HBM travels on the timed channel (22 R354). A word of HBM that cannot be corrected is not cached (25 R398). -/
def State.fetchHalf (s : State) (core job : Nat) (va : Word) : Half :=
  match s.translate core job va .fetch with
  | .ownMem pa => let r := s.cachedHalf core pa pa; .got r.1 r.2
  | .window pa _ => let r := (s.fillTlb core job va).cachedHalf core pa pa; .got r.1 r.2
  | .hbm pa _ =>
    if s.isTimed job core (homeEnd (homeOf pa)) && !(s.core core).icache.any (fun e => e.1 == pa) then .timed pa va
    else if s.bad.contains (wordAddr pa) then .damaged va
    else let r := (s.fillTlb core job va).cachedHalf core pa pa; .got r.1 r.2
  | .remote m =>
    match (s.core core).icache.find? (fun e => e.1 == remoteKey job va) with
    | some e => .got e.2.toNat s
    | none => .remote m va
  | .xlat l => .fault false va l
  | .prot => .fault true va 0

/-- What fetching an instruction word gives: the word's number and length, or why it cannot be had. -/
inductive Fetched where
  | word (w : Nat) (bytes : Nat) (s : State)
  | fault (prot : Bool) (addr : Word) (level : Nat)
  | damaged (addr : Word)
  | remote (modul : Nat) (addr : Word)
  | timed (pa : Nat) (addr : Word)
  deriving DecidableEq, Repr

/-- The whole instruction word at an address, before any of it executes (01 R14). -/
def State.fetchWord (s : State) (core job : Nat) (pc : Word) : Fetched :=
  match s.fetchHalf core job pc with
  | .fault p a l => .fault p a l
  | .damaged a => .damaged a
  | .remote m a => .remote m a
  | .timed p a => .timed p a
  | .got lo s1 =>
    if isLong lo then
      match s1.fetchHalf core job (pc + 2) with
      | .fault p a l => .fault p a l
      | .damaged a => .damaged a
      | .remote m a => .remote m a
      | .timed p a => .timed p a
      | .got hi s2 => .word (lo + 65536 * hi) 4 s2
    else .word lo 2 s1

/-- The instruction of a fetched word (01 R13). -/
def decodeWord (w bytes : Nat) : Except DecodeError Instr := if bytes = 4 then decodeLong w else decodeShort w

/-- A UNCORRECTABLE trap for a damaged word that an instruction of this strand waits for (25 R398). -/
def damagedTrap (addr : Word) : TrapInfo := { cause := .uncorrectable, origin := 5, addr := refusedAddr .uncorrectable addr }

/-- A request sent to another module for the line that holds an instruction (22 R355, R356); the strand waits for it. -/
def State.fetchRemote (s : State) (modul : Nat) (va : Word) : State :=
  if s.myJob.noPath modul then s.block (.groupFree modul)
  else
  let tag := s.fresh + 1
  let s1 := { s with fresh := tag }.send (.request modul tag (s.request .fetch (va &&& ~~~63) 0 0 []))
  (s1.setMe { s1.me with inFlight := some { tag := tag, va := va, away := true } }).waitFor .fetch

/-- A DET job's request for the line of HBM that holds an instruction (22 R354). -/
def State.fetchTimed (s : State) (pa : Nat) (va : Word) : State :=
  let tag := s.fresh + 1
  let r := { s.request .fetch va 0 0 [] with pa := some (lineAddr pa), tag := tag }
  let s1 := { s with fresh := tag }.carry r.job s.coreId (homeEnd (homeOf pa)) 1 (.homeRequest r)
  (s1.setMe { s1.me with inFlight := some { tag := tag, va := va, pa := pa } }).waitFor .fetch

/-- The halfwords of a line from a key on, put into the instruction cache (22 R356; 07 R132). -/
def State.fillLineAt (s : State) (core key : Nat) (vals : List Word) : State :=
  let c := s.core core
  let halves := vals.zipIdx.flatMap (fun e =>
    (List.range 4).map (fun i => (key + 8 * e.2 + 2 * i, BitVec.ofNat 16 (bits e.1 (16 * i) 16))))
  s.setCore core { c with icache := (halves ++ c.icache).take 16384 }

end Sys2Proof.Machine
end

