-- ==== Sys2Proof/Machine/HomeSteps.lean ====
section
/-! DEFINITION. Steps of homes and ports: requests and replies over the fabric, acknowledgements, revocations, parking (04
R87 to R89; 05 R106, R107; 07 R128, R141; 22 R355, R356), metadata (08 R157) and completed table walks (25 R393). -/

namespace Sys2Proof.Machine

open Host

/-- The answer to a posted write of a slot: its acknowledgement, or its refusal, which counts as one and is an asynchronous cause (04
R414). `key` names the write in the store path. -/
def State.postedAnswer (s : State) (id key : Nat) (r : Reply) : State :=
  let v := s.slot id
  match v.unacked.find? (fun u => u.1 == key) with
  | none => s
  | some u =>
    let s0 := s.setSlot id { v with unacked := dropFirst v.unacked u }
    let s1 := if r.refusal.isSome && isHbm key then s0.l1Refused (id / 16) key else s0
    match r.refusal with
    | some code => s1.postAsync id { r.trap code with opn := u.2 }
    | none => s1

/-- An access of a strand that is parked on a word of another module has been served after all: the strand goes on with the
result, as if it had not been parked, and begins to count its time in the queue now (04 R88; 15 R273); a refused access is made again by the
instruction itself. A strand that has left the module gets its answer there (23 R373), and one whose trap the handler task of another module
has handled gets its RESP (25 R390). -/
def State.lateAnswer (s : State) (key : Nat) (r : Reply) : State :=
  let mine := s.parks.filter (fun p => p.1 == key)
  mine.foldl (fun (u : State) p =>
    match p.2 with
    | .slot id =>
      let v := u.slot id
      if u.strayed id then u.stray else
      let u1 := if v.save = 0 then u else (u.poolFree (u.gang v.gang).job v.save).setSlot id { v with save := 0 }
      match v.inFlight with
      | some f => u1.deliver id f r
      | none => if v.wait = .firmware then u1.obeyResp id ((r.vals.headD 0).toNat % 4) else u1
    | .record e =>
      match e.cont with
      | some v =>
        let v1 : Slot := { v.wxs ((v.inFlight.bind (·.dst)).getD 0).toNat (if (v.inFlight.bind (·.dst)).isSome then r.vals else []) with
                           pc := v.pc + 4, inFlight := none, resume := (0, 0) }
        u.enqueue (clusterOf e.core) { e with cont := some (if r.refusal.isSome then { v with inFlight := none, resume := (0, 0) } else v1), since := s.now }
      | none => u
    | .away m j tag => u.send (.reply m j tag { r with tag := tag })
    | .moved c g m j tag => if (u.fwdTo c [g]).isSome then u.send (.reply m j tag { r with tag := tag }) else u.stray) { s with parks := s.parks.filter (fun p => p.1 != key) }

/-- The home names an F64 line for a DRED.ACC: D+7 is checked, and the eight registers are sent (04 R99). -/
def State.accMore (s : State) (id : Nat) (f : InFlight) (d : BitVec 7) : State :=
  let v := s.slot id
  match v.runBad d 8 with
  | some bad => s.takeTrap id { cause := .regwin, detail := bad } v.pc
  | none =>
    let u := { s with cur := id }
    let w := v.rxs d.toNat 8
    let u1 := if f.away then u.askRemote f (bits f.va 48 12) (.dred .acc) f.va 0 0 w
              else u.askTimed f (homeEnd (homeOf f.pa)) (.dred .acc) f.va f.pa 0 0 w
    u1.setMe { u1.me with nextTick := v.nextTick }

/-- A piece of a block move's source has come: its bytes join those read, and the step goes on (04 R102). -/
def State.bmovPiece (s : State) (id : Nat) (d a b : BitVec 7) (r : Reply) : State :=
  let u := { s with cur := id }
  match u.bmovPieces d a b with
  | [] => u
  | (_, n) :: _ =>
    let u1 := u.setMe { u.me with inFlight := none, bread := u.me.bread ++ toBytes (ofWords r.vals) n }
    u1.bmovRead d a b (u1.bmovPieces d a b)

/-- The slot whose strand waits for an answer: the one it is sent to, or, where that strand has moved meanwhile, the one that waits under its tag
(23 R373). -/
def State.answeree (s : State) (id : Nat) (r : Reply) : Nat :=
  if r.tag = 0 ∨ ((s.slot id).inFlight.any fun f => f.tag == r.tag) then id
  else ((s.slots.find? fun e => e.2.live && e.2.inFlight.any fun f => f.tag == r.tag).map (·.1)).getD id

/-- The line that a strand's fetch brings goes to its core's instruction cache, under the key that fetching it looks for (22 R354, R356). -/
def State.fillFetched (s : State) (id : Nat) (f : InFlight) (r : Reply) : State :=
  s.fillLineAt (id / 16) (if f.away then remoteKey (s.gang (s.slot id).gang).job f.va / 64 * 64 else lineAddr f.pa) r.vals

/-- HOME_REPLY: the answer of a home or a port reaches a core; an answer to a request the strand no longer waits for is
dropped (05 R106, 22 R356). An access served while its strand was being saved discards the save (04 R88). A
line that firmware fetched for a SKIP goes to the instruction cache, and the SKIP on (25 R389). -/
def execHomeReply (s : State) : Outcome State Fault Refusal :=
  match s.ev with
  | some (.homeReply id r) =>
    if 2 ^ 35 ≤ id then .next (s.lateAnswer (2 ^ 64 + (id - 2 ^ 35)) r)
    else if 2 ^ 34 ≤ id then
      let j := id - 2 ^ 34
      .next (if (s.job j).isOpen then s.setJob j { s.job j with doneAway := (s.job j).doneAway - 1 } else s)
    else if r.requeue then .next (s.unpark (2 ^ 64 + r.tag))
    else if r.posted then .next (s.postedAnswer id (if r.tag = 0 then r.addr.toNat else r.tag) r)
    else if r.tag ≠ 0 ∧ s.parks.any (fun p => p.1 == 2 ^ 64 + r.tag) then .next (s.lateAnswer (2 ^ 64 + r.tag) r)
    else if 65536 ≤ id then .next (s.resumeRecord id)
    else
      let id := s.answeree id r
      let v := s.slot id
      match v.inFlight with
      | none => .next (s.engineReply (id / 16) r)
      | some f =>
        if v.live = false ∨ f.tag ≠ r.tag then .next (s.engineReply (id / 16) r)
        else if s.strayed id then .next s.stray
        else
          let s0 := if v.save = 0 then s
            else (s.poolFree (s.gang v.gang).job v.save).setSlot id { v with save := 0 }
          match v.wait with
          | .retry =>
            if r.more then
              match f.more with
              | some d => .next (s0.accMore id f d)
              | none => .next s
            else if f.line && r.refusal.isNone then
              .next (s0.setSlot id { s0.slot id with lines := (s0.slot id).lines ++ [(f.va, r.vals)], wait := .cond (.until s.now),
                                                     inFlight := none })
            else
            match f.bmov, r.refusal, v.rep with
            | true, none, some (.bmov d a b _, _) => .next (s0.bmovPiece id d a b r)
            | _, _, _ => .next (s0.deliver id f r)
          | .fetch =>
            match r.refusal with
            | some code =>
              let addr := if code = Cause.uncorrectable.code then r.addr else f.va
              .next (s0.takeTrap id { cause := causeOfCode code, addr := addr, detail := r.level } v.pc)
            | none =>
              let s1 := s0.fillFetched id f r
              .next (s1.setSlot id { s1.slot id with wait := .none, inFlight := none })
          | .firmware =>
            let u := s0.setSlot id { s0.slot id with inFlight := none }
            .next (if r.refusal.isSome then u.soon (.retry id) else (u.fillFetched id f r).soon (.skip id))
          | _ => .next s
  | _ => .next s

/-- STORE_ACKNOWLEDGE: a posted write is acknowledged; its word is owned in the L1 (05 R107; 07 R127). -/
def execStoreAcknowledge (s : State) : Outcome State Fault Refusal :=
  match s.ev with
  | some (.storeAcknowledge id addr) =>
    let v := s.slot id
    let drop := match v.unacked.find? (fun u => u.1 == addr) with
      | some u => dropFirst v.unacked u
      | none => v.unacked
    let s1 := s.setSlot id { v with unacked := drop }
    .next (if isHbm addr then s1.l1Ack (id / 16) addr else s1)
  | _ => .next s

/-- REVOCATION: an owner's copies of a word lose valid and owned (07 R128). -/
def execRevocation (s : State) : Outcome State Fault Refusal :=
  match s.ev with
  | some (.revocation o addr) => .next (s.revokeAt o addr)
  | _ => .next s

/-- A refusal of a request, to its requester. -/
def State.refuse (s : State) (r : Request) (c : Cause) (level : Nat := 0) : State :=
  s.answer (homeEnd (homeOf r.va.toNat)) r.origin
    { refusal := some c.code, addr := refusedAddr c r.va, posted := r.op.isStore, tag := r.tag, level := level }

/-- What a request needs of the page (25 R392). -/
def MemOp.access : MemOp → Access
  | .store _ | .feset _ | .drinit _ => .write
  | .fetch => .fetch
  | .load _ | .feq | .watch _ | .dread _ => .read
  | .ldfe .ff => .read
  | _ => .rmw

/-- A load, a fetch of a line or a store at the port of a core's local memory is performed and answered (01 R14; 07 R141). -/
def State.portService (s : State) (r : Request) (pa c : Nat) : State :=
  let read := fun (a n : Nat) =>
    if s.damagedLocal a n then
      (s.logLocal c).answer c r.origin { refusal := some Cause.uncorrectable.code, tag := r.tag }
    else s.answer c r.origin { vals := toWords (memRead s.mem a n) ((n + 7) / 8), addr := r.va, tag := r.tag }
  match r.op with
  | .load n => read pa n
  | .fetch => read (lineAddr pa) 64
  | .store n =>
    let u := s.localWrite pa (if n ≤ 8 then r.data.toNat else ofWords r.acc) n
    match r.origin with
    | .slot id => u.carry r.job c (id / 16) 1 (if r.tag = 0 then .storeAcknowledge id pa else .homeReply id { addr := r.va, tag := r.tag })
    | o => u.answer c o { addr := r.va, posted := true, tag := r.tag }
  | _ => s.refuse r .prot

/-- Where a request at a port lies, for a core of this module or another module's (22 R355): its physical address and its core, or the
refusal with the level of a failed walk. -/
def State.portPlace (s : State) (r : Request) : Except (Cause × Nat) (Nat × Nat) :=
  let at_ := fun (pa : Nat) => match windowCore pa with
    | some c => .ok (pa, c)
    | none => .error (.prot, 0)
  match r.pa with
  | some pa => at_ pa
  | none =>
    match walkFrom s.mem (r.va.toNat % 2 ^ 48) 4 0 (s.job r.job).root with
    | .error l => .error (.xlat, l)
    | .ok (leaf, level) =>
      match s.leafPlace r.job (r.va.toNat % 2 ^ 48) r.op.access leaf level true with
      | .window pa c => if r.op.isStore && s.inInbox pa then .error (.prot, 0) else .ok (pa, c)
      | .xlat l => .error (.xlat, l)
      | _ => .error (.prot, 0)

/-- PORT_ACCESS: a load, a fetch or a store of another core or another module reaches the port of a core's local memory, whose router refuses one
of another tenant (07 R141; 22 R353, R355). It takes its place at the bank, and is performed at the end of the cycle that it holds then (06
R119). Every other access needs a home (04 R77). -/
def execPortAccess (s : State) : Outcome State Fault Refusal :=
  match s.ev with
  | some (.portAccess r) =>
    match s.portPlace r with
    | .error (c, l) => .next (s.refuse r c l)
    | .ok (pa, c) =>
      if !s.inTenant (s.job r.job).tenant c then .next ((s.countDrop c).refuse r .prot)
      else if r.turn = 0 then
        let n := s.fresh + 1
        let u := { s with fresh := n }.portClaim c pa n
        .next (u.schedule ((u.claimEnds c (ownerPort n)).getD s.now) (.portAccess { r with turn := n }))
      else match s.claimEnds c (ownerPort r.turn) with
        | some t => .next (s.schedule t (.portAccess r))
        | none => .next (s.portService r pa c)
  | _ => .next s

/-- A request of another module of the job's group is translated here under the job's mapping and served at its home by the rules of a local
access; packets travel between members alone (22 R355, R356). A table write over the fabric is refused PROT (25 R394); one this module's firmware must answer with
TRAPWRITER also requeues the continuations parked here (04 R89). -/
def State.serveFabric (s : State) (r : Request) : State :=
  let va := r.va.toNat % 2 ^ 48
  let j := s.job r.job
  let stranger := match r.origin with
    | .remote m _ _ => !(j.group.any fun x => x.1 == m)
    | .slot _ => false
  if j.isOpen && stranger then s
  else if j.isOpen = false ∨ j.tenant ≠ r.tenant then (s.refuse r .prot).countDrop (homeRouter (homeOf va))
  else
    match walkFrom s.mem va 4 0 j.root with
    | .error l => s.refuse r .xlat l
    | .ok (leaf, level) =>
      match s.leafPlace r.job va r.op.access leaf level true with
      | .hbm pa table =>
        if table && r.op.writes then s.refuse r .prot
        else if r.op == .dred .acc && !r.late && s.drKind pa == some .f64 then
          s.answer (homeEnd (homeOf pa)) r.origin { more := true, addr := r.va }
        else
          match s.serve r.op pa r.data r.data2 r.acc none false with
          | .refused c =>
            (if c = .uncorrectable then s.logHbm pa else s).refuse { r with va := s.refusedAt r.op pa c r.va } c
          | .done vals tw s0 =>
            let s1 := match r.op with
              | .drinit _ => s0.drMarkedBy pa r.job
              | _ => s0
            let s2 := s1.answer (homeEnd (homeOf pa)) r.origin { vals := vals, trapWriter := tw, addr := r.va, posted := r.op.isStore,
                                                                 items := match r.op with
                                                                   | .load n => s1.sideItems pa n
                                                                   | _ => [] }
            if tw then s2.unpark (wordAddr pa) else s2
          | .wait =>
            { s.bringIn pa with retries := s.retries ++ [{ addr := wordAddr pa, origin := r.origin, op := r.op, data := r.data, va := r.va }] }
      | .window _ _ => s.soon (.portAccess r)
      | .xlat l => s.refuse r .xlat l
      | _ => s.refuse r .prot

/-! ## Errors of the memory and of the storage on the die (25 R397 to R400; log 20) -/

/-- The log of a stack that takes an entry of a kind: TRLOG, LANELOG, CELOG, UELOG, and for spares exhausted LANELOG (25 R400; log
47). -/
def stackLog (stack kind : Nat) : Nat :=
  match kind with
  | 0 => 144 + stack
  | 2 => 176 + stack
  | 3 => stack
  | _ => 160 + stack

/-- Words of HBM become uncorrectable: no later read gets their data until they are written (25 R398). -/
def State.damage (s : State) (l : List Nat) : State := { s with bad := l.foldl (fun b w => if b.contains w then b else natInsert b w) s.bad }

/-- The words of the beat at an address: a beat moves 32 bytes (log 47). -/
def beatWords (pa : Nat) : List Nat := (List.range 4).map fun i => pa / 32 * 32 + 8 * i

/-- A beat that fails its parity so many times in a row: each of up to 4 retries is logged; a fifth failure swaps the lane, which
stops the pseudo-channel for 2 µs, and the beat is tried once more; where it still fails, or no spare lane is left, its data cannot be corrected (25
R397). -/
def State.beatError (s : State) (pa lane fails : Nat) : State :=
  let stack := stackOf pa
  let pch := Config.pseudoChannel (lineAddr pa) % 16
  let key := stack * 16 + pch
  let ch := tget s.channels key {}
  let s1 := (List.range (min fails 4)).foldl (fun (u : State) _ => u.logError (stackLog stack 0) (logWord 0 pch 0 pa)) s
  if fails < 5 then s1
  else if ch.used < 2 then
    let s2 := { s1 with channels := tset s1.channels key { used := ch.used + 1, stop := s.now + 2 * usTicks } }.logError
      (stackLog stack 1) (logWord 1 pch lane pa)
    if fails = 5 then s2 else (s2.damage (beatWords pa)).logError (stackLog stack 3) (logWord 3 pch 0 pa)
  else ((s1.logError (stackLog stack 4) (logWord 4 pch 0 pa)).damage (beatWords pa)).logError (stackLog stack 3) (logWord 3 pch 0 pa)

/-- An error of the storage, as it is met: corrected errors are logged only; an uncorrectable word of HBM, of its FE bit, of a
last-level cache line or of local memory stays until it is written; one of an L1 or an instruction cache is discarded; one of the
register file or of the accumulators traps the strand that reads it (25 R397 to R399). -/
def State.hwError (s : State) (h : HwError) : State :=
  match h with
  | .beat pa lane fails => s.beatError pa lane fails
  | .array pa corrected =>
    let kind := if corrected then 2 else 3
    let s1 := s.logError (stackLog (stackOf pa) kind) (logWord kind (Config.pseudoChannel (lineAddr pa)) 0 pa)
    if corrected then s1 else s1.damage [pa / 8 * 8 + pa % 2]
  | .localMem pa corrected =>
    let core := (windowCore pa).getD 0
    if corrected then s.logCore core 2 0 else s.damage [wordAddr pa]
  | .llc pa corrected =>
    let cl := clusterOf (homeRouter (homeOf pa))
    let s1 := s.logError (16 + cl) (logWord (if corrected then 2 else 3) 1 0 pa)
    if corrected then s1 else s1.damage ((List.range 8).map fun i => lineAddr pa + 8 * i)
  | .l1 core pa corrected =>
    if corrected then s.logCore core 2 2
    else
      let s1 := s.logCore core 3 2
      s1.setCore core ((s1.core core).l1Map pa fun w => { w with valid := false })
  | .icache core key corrected =>
    if corrected then s.logCore core 2 3
    else
      let s1 := s.logCore core 3 3
      let k := s1.core core
      s1.setCore core { k with icache := k.icache.filter (fun e => e.1 / 8 != key / 8) }
  | .regs id corrected =>
    if corrected then s.logCore (id / 16) 2 4
    else if (s.slot id).live && !(s.slot id).mode then (s.logCore (id / 16) 3 4).strandDamage id else s.logCore (id / 16) 3 4
  | .acc core slot corrected =>
    if corrected then s.logCore core 2 5
    else if (s.slot slot).live && !(s.slot slot).mode then (s.logCore core 3 5).strandDamage slot else s.logCore core 3 5

/-- HOME_REQUEST: a request reaches its home: of another module, or of a core of this module by the timed channel (22 R354 to R356).
The errors that the storage meets come with it (25 R397 to R400). -/
def execHomeRequest (s : State) : Outcome State Fault Refusal :=
  match s.ev with
  | some (.homeRequest r) =>
    match r.pa, r.origin with
    | some pa, .slot id =>
      match if r.tag = 0 then none else (s.core (id / 16)).copyOfTag r.tag with
      | some x => .next (s.serveCopy (id / 16) x pa r)
      | none => .next (s.serveTimed id pa r)
    | _, _ => .next (s.serveFabric r)
  | some (.hwError h) => .next (s.hwError h)
  | _ => .next s

/-! ## Parking (04 R88) -/

/-- PARK_SAVE: the core writes the strand's continuation to its save area, waiting for one if the pool has none (15 R261), and confirms.
The order of a home of another module names the request by its tag (07 R137). A ROAM solo task is saved once it can leave its slot
(log 103). -/
def execParkSave (s : State) : Outcome State Fault Refusal :=
  match s.ev with
  | some (.parkSave id tag) =>
    let v := s.slot id
    let leaves := (s.gang v.gang).isRoam && v.saved.isEmpty
    match s.resultsDue id with
    | some t => .next (s.schedule (t + 1) (.parkSave id tag))
    | none =>
      if v.wait = .retry ∧ leaves ∧ !s.unrooted id then .next (s.schedule (s.nextRotation (id / 16)) (.parkSave id tag))
      else if tag ≠ 0 then
        match (s.slot id).wait, (s.slot id).inFlight with
        | .retry, some f =>
          if f.away && f.tag == tag then .next ((s.parkAway id f).getD (s.schedule (s.now + usTicks) (.parkSave id tag))) else .next s
        | _, _ => .next s
      else
        match s.retries.find? (fun r => r.origin == Origin.slot id && r.parking) with
        | none => .next s
        | some r =>
          match s.saveStrand id r.va with
          | none => .next (s.schedule (s.now + usTicks) (.parkSave id 0))
          | some s1 => .next (s1.carry (s1.gang (s1.slot id).gang).job (id / 16) (homeEnd (homeOf r.addr)) 1 (.parkConfirm (.slot id)))
  | _ => .next s

/-- PARK_CONFIRM: the save is confirmed before the access was served: the entry leaves the retry list, the word takes its
park mark, and firmware's park list holds the continuation, of a strand of this module or of another. A ROAM solo task leaves its slot (04
R88; 07 R137). The entry of a strand dropped meanwhile only leaves (04 R104). -/
def execParkConfirm (s : State) : Outcome State Fault Refusal :=
  match s.ev with
  | some (.parkConfirm o) =>
    match s.retries.find? (fun r => r.origin == o && r.parking) with
    | none => .next s
    | some r =>
      let s1 := { s with retries := dropFirst s.retries r }
      let s2 := { s1 with parkMarks := if s.parkMarks.contains r.addr then s.parkMarks else natInsert s.parkMarks r.addr }
      match o with
      | .remote m j t => .next { s2 with parks := s2.parks ++ [(r.addr, .away m j t)] }
      | .slot id =>
        if 2 ^ 32 ≤ id then .next s1
        else
          let v := s.slot id
          let kind := ((r.op.parkKind).getD 2, r.va)
          if (s.gang v.gang).isRoam && v.saved.isEmpty then
            let p := s2.leaveRecord id v.pc kind
            .next { p.2 with parks := p.2.parks ++ [(r.addr, .record p.1)] }
          else
            let s3 := s2.setSlot id { v with wait := .parked, inFlight := none, resume := kind }
            .next { s3 with parks := s3.parks ++ [(r.addr, .slot id)] }
  | _ => .next s

/-! ## Metadata and walks -/

/-- METADATA_UPDATE: the side bits of a resident data line take the metadata word written for it (08 R157). -/
def execMetadataUpdate (s : State) : Outcome State Fault Refusal :=
  match s.ev with
  | some (.metadataUpdate line w) => .next (if s.side.any (fun e => e.1 == line) then { s with side := tset s.side line w } else s)
  | _ => .next s

/-- TLB_WALK_COMPLETE: the oldest walk of a cluster ends; a leaf found goes to the TLBs of its waiters, whose prefetches go on,
a failed walk leaves nothing, and requests that waited for a place take one (25 R393, 04 R103). -/
def execTlbWalkComplete (s : State) : Outcome State Fault Refusal :=
  match s.ev with
  | some (.tlbWalkComplete cl) =>
    let c := s.cluster cl
    match c.walks with
    | [] => .next s
    | w :: rest =>
      let s1 := s.setCluster cl { c with walks := rest }
      .next ((w.waiters.foldl (fun (u : State) p =>
        match walkFrom u.mem (p.2.toNat % 2 ^ 48) 4 0 (u.job w.job).root with
        | .error _ => u
        | .ok (leaf, level) => (u.fillTlb p.1 w.job p.2).prefLine p.1 w.job p.2 leaf level) s1).walkPlaces cl)
  | _ => .next s

end Sys2Proof.Machine
end

