-- ==== Sys2Proof/Machine/Endpoint.lean ====
section
/-! DEFINITION. The host's windows on the module: mailbox and doorbell (26 R401, R402), the staging aperture (26 R401), the
event ring (26 R406), and the commands that read nothing but the module's identity (26 R403, R408). The places of the
arguments in m2 onward are the model's (log 40). -/

namespace Sys2Proof.Machine

open Host

/-! ## The mailbox (26 R402, R403) -/

def State.mail (s : State) (k : Nat) : MailSlot := tget s.mailbox k {}
/-- Word i of a mailbox slot, and argument i, which is word m(2 + i). -/
def State.mailWord (s : State) (k i : Nat) : Word := (s.mail k).words.getD i 0
def State.arg (s : State) (k i : Nat) : Word := s.mailWord k (2 + i)
/-- A list cut or filled with zeros to n words. -/
def fixedWords (n : Nat) (l : List Word) : List Word := (List.range n).map fun i => l.getD i 0

/-- The answers of a command. -/
inductive Status where
  | ok | busy | invalid | notSupported | refused | notReady
  deriving DecidableEq, Repr
def Status.code : Status → Nat
  | .ok => 0 | .busy => 1 | .invalid => 2 | .notSupported => 3 | .refused => 4 | .notReady => 5

/-- The step that performs the command of a busy slot; a job's record is read from host memory first (26 R403, R404). -/
def State.commandStep (s : State) (k : Nat) : State :=
  match bits (s.mailWord k 0) 0 8 with
  | 0x01 => s.soon (.identify k)
  | 0x02 => s.soon (.attest k)
  | 0x10 => s.send (.hostRead (s.arg k 1).toNat 4096)
  | 0x11 => s.soon (.jobClose k)
  | 0x12 => s.soon (.tenantMap k)
  | 0x13 => s.soon (.formatRange k)
  | 0x14 => s.soon (.actSet k)
  | 0x20 => s.soon (.powerCap k)
  | 0x21 => s.soon (.groupSet k)
  | 0x22 => s.soon (.parkPolicy k)
  | 0x30 => s.soon (.traceCtl k)
  | 0x31 => s.soon (.lockstep k)
  | _ => s.soon (.notSupportedCommand k)

/-- Firmware turns to the first busy slot in doorbell order. -/
def State.nextCommand (s : State) : State :=
  match s.bells with
  | [] => s
  | k :: _ => s.commandStep k

/-- A command completes: the answer is written over m2 to m31, then m1, MSI-X vector 0 is raised and the slot is free; firmware
goes on with the next. -/
def State.finish (s : State) (k : Nat) (st : Status) (cause : Nat) (ans : List Word) : State :=
  let m0 := s.mailWord k 0
  let m1 := BitVec.ofNat 64 (2 ^ 63 + bits m0 8 16 * 2 ^ 16 + cause * 256 + st.code)
  let m : MailSlot := { words := m0 :: m1 :: fixedWords 30 ans, busy := false }
  let s1 : State := { s with mailbox := tset s.mailbox k m, bells := s.bells.filter (· != k) }
  (s1.send (.msix 0)).nextCommand

/-- The command of the slot that firmware has turned to; any other slot has none under way. -/
def State.command (s : State) (k : Nat) (body : State → State) : State :=
  if s.bells.head? = some k then body s else s

/-- A command that names a job whose abort is under way waits for the second circuit's return (26 R403). -/
def State.afterAbort (s : State) (j : Nat) (again : Ev) (body : State → State) : State :=
  if (s.job j).abort = .first ∨ (s.job j).abort = .second then s.schedule (s.now + usTicks) again else body s

/-- The open job of a job slot. -/
def State.jobOfSlot (s : State) (n : Nat) : Option Nat :=
  (s.jobs.find? fun j => j.2.isOpen && j.2.jslot == n).map (·.1)

/-- The first argument outside its range, answered INVALID with its index (26 R403). -/
def badArg (l : List Bool) : Option Nat := l.findIdx? (fun ok => !ok)

/-- DBELL: a slot is submitted; a busy one drops the write (26 R401, R402). -/
def State.doorbell (s : State) (k : Nat) : State :=
  if s.ready.getLsbD 1 = false then s
  else if (s.mail k).busy then { s with mbDrop := s.mbDrop + 1 }
  else
    let s1 : State := { s with mailbox := tset s.mailbox k { s.mail k with busy := true }, bells := s.bells ++ [k] }
    if s.bells = [] then s1.commandStep k else s1

/-- Firmware clears a counter (22 R359). -/
def State.clearCounter (s : State) : Counter → State
  | .tnDrop c => { s with tnDrop := tset s.tnDrop c 0 }
  | .incDrop e => { s with incDrop := tset s.incDrop e 0 }
  | .tmiss j => s.setJob j { s.job j with tmiss := 0 }
  | .wakes g => { s with fibres := tset s.fibres g { tget s.fibres g {} with wakes := 0 } }
  | .narrow g => { s with fibres := tset s.fibres g { tget s.fibres g {} with narrow := 0 } }
  | .clDrop => { s with clDrop := 0 }
/-- A counter as firmware, and the host through the management window, reads it (22 R359). -/
def State.counterOf (s : State) : Counter → Nat
  | .tnDrop c => tget s.tnDrop c 0
  | .incDrop e => tget s.incDrop e 0
  | .tmiss j => (s.job j).tmiss
  | .wakes g => (tget s.fibres g {}).wakes
  | .narrow g => (tget s.fibres g {}).narrow
  | .clDrop => s.clDrop

/-- HOST_REGISTER_WRITE: a host write of one register of the management window, by its offset in BAR0 (26 R401, R402).
Registers that the host only reads take no write. A counter of the window is cleared within it (log 100). -/
def execHostRegisterWrite (s : State) : Outcome State Fault Refusal :=
  match s.ev with
  | some (.hostRegisterWrite off v) =>
    if s.ready.getLsbD 0 = false then .next s
    else if off < 0x800 then
      let k := off / 256
      let m := s.mail k
      if m.busy then .next { s with mbDrop := s.mbDrop + 1 }
      else .next { s with mailbox := tset s.mailbox k { m with words := (fixedWords 32 m.words).set (off % 256 / 8) v } }
    else match off with
      | 0x800 => .next (s.doorbell (bits v 0 3))
      | 0x810 => .next { s with evqBase := v &&& ~~~0xFFF }
      | 0x818 => .next (s.soon (.evqheadAdvance (bits v 0 32)))
      | 0x820 => .next { s with stageBase := v &&& ~~~0xFFFFFFFFF }
      | _ => .next s
  | some (.clearCounter c) => .next (s.clearCounter c)
  | _ => .next s

/-- The word of a register of the management window, as the host reads it (26 R401). A read changes nothing, and the offsets of counters and
logs inside their ranges are not given. -/
def State.hostRegister (s : State) (off : Nat) : Word :=
  if off < 0x800 then s.mailWord (off / 256) (off % 256 / 8)
  else if 0x8000 ≤ off ∧ off < 0x9000 then Config.cfgRecord ((off - 0x8000) / 8)
  else if 0x20000 ≤ off ∧ off < 0x20200 then
    (List.range 8).foldr (fun i (w : Word) =>
      let b := off - 0x20000 + i
      w * 256 + BitVec.ofNat 64 (s.pair (b / 16 % 16 * 32 + b / 256 * 16 + b % 16)).duty) 0
  else match off with
    | 0x808 => s.ready.zeroExtend 64
    | 0x810 => s.evqBase
    | 0x818 => BitVec.ofNat 64 (s.evqTail % 2 ^ 32 * 2 ^ 32 + s.evqHead % 2 ^ 32)
    | 0x820 => s.stageBase
    | 0x828 => BitVec.ofNat 64 s.mbDrop
    | _ => 0

/-- NOT_SUPPORTED_COMMAND: a CODE that R403 does not list. -/
def execNotSupportedCommand (s : State) : Outcome State Fault Refusal :=
  match s.ev with
  | some (.notSupportedCommand k) => .next (s.command k fun s => s.finish k .notSupported 0 [])
  | _ => .next s

/-- IDENTIFY: serial, incarnation, ROM version, identity public key and length of the configuration record (26 R403, R408). -/
def execIdentify (s : State) : Outcome State Fault Refusal :=
  match s.ev with
  | some (.identify k) =>
    .next (s.command k fun s => s.finish k .ok 0 (fixedWords 2 Config.serial ++
      [BitVec.ofNat 64 s.incarnation.toNat, Config.romVersion] ++ fixedWords 13 Config.identityKey ++ [Config.cfgLength]))
  | _ => .next s

/-- ATTEST: a report over a 48-byte nonce, signed under the identity key (26 R408). -/
def execAttest (s : State) : Outcome State Fault Refusal :=
  match s.ev with
  | some (.attest k) =>
    .next (s.command k fun s =>
      let body := (List.range 6).map (s.arg k) ++ fixedWords 6 Config.cfgDigest ++
        [Config.romVersion, BitVec.ofNat 64 s.incarnation.toNat]
      s.finish k .ok 0 (body ++ fixedWords 12 (Config.attestSignature body)))
  | _ => .next s

/-! ## Events (26 R406) -/

/-- Held events go to the ring while it has room, in order. -/
def State.drainEvents (s : State) : Nat → State
  | 0 => s
  | n + 1 =>
    match s.evHeld with
    | [] => s
    | e :: r => if s.evqTail < s.evqHead + 128 then ({ s with evHeld := r }.writeEvent e).drainEvents n else s

/-- EVQHEAD_ADVANCE: the host has read the ring's entries up to an index (log 41). -/
def execEvqheadAdvance (s : State) : Outcome State Fault Refusal :=
  match s.ev with
  | some (.evqheadAdvance v) =>
    if s.evqHead ≤ v ∧ v ≤ s.evqTail then .next ({ s with evqHead := v }.drainEvents 64) else .next s
  | _ => .next s

/-! ## Staging (26 R401) -/

/-- One byte of a posted write of the host, at its home: it registers no ownership and takes it from an owner, and a line that its
home keeps for itself refuses it (04 R101; 16 R276). -/
def State.stageByte (s : State) (pa : Nat) (b : Byte) : State :=
  if (s.drKind pa).isSome || s.tileMarks.any (fun t => t.1 == lineAddr pa) then s
  else (s.hbmWrite pa b.toNat 1).registerFor (.store 1) pa none
def State.stageBytes (s : State) (pa : Nat) : List Byte → State
  | [] => s
  | b :: r => (s.stageByte pa b).stageBytes (pa + 1) r

/-- STAGING_ACCESS: a host access through BAR4 reads or writes HBM from STAGEBASE on. -/
def execStagingAccess (s : State) : Outcome State Fault Refusal :=
  match s.ev with
  | some (.stagingAccess off n w) =>
    let pa := s.stageBase.toNat + off
    if s.ready.getLsbD 0 = false then .next s
    else if hbmEnd < pa + n ∨ 2 ^ 36 < off + n then .fault .stagingOutsideHbm
    else match w with
      | some bs => .next (s.stageBytes pa (bs.take n))
      | none => .next (s.send (.stagingRead (memBytes s.mem pa n)))
  | _ => .next s

end Sys2Proof.Machine
end

