-- ==== Sys2Proof/Machine/VirtualTime.lean ====
section
/-! DEFINITION. Virtual time (18): inboxes and their dispatch, overflow, rollback, anti-messages, revocation of versions, the
Low-Water unit with its publications, fossil collection and the DEADLOCK report, and the abort of a job. -/

namespace Sys2Proof.Machine

open Host

/-! ## Inboxes (18 R298 to R301) -/

/-- The lowest inbox entry that is FREE. -/
def Lp.freeIdx (l : Lp) : Option Nat :=
  if l.inbox.length < l.size then (List.range l.size).find? fun i => !(l.inbox.any fun e => e.idx == i) else none
/-- Physical address of an inbox entry. -/
def Lp.entryPa (l : Lp) (i : Nat) : Nat := localBase l.home + l.ibase + 64 * i
/-- The eight words of a message. -/
def Message.words (m : Message) : List Word := ([m.w0, m.w1, m.w2, m.w3] ++ m.payload ++ [0, 0, 0, 0]).take 8

/-- The highest and the lowest by key among entries. -/
def highest (l : List InboxEntry) : Option InboxEntry :=
  l.foldl (fun (b : Option InboxEntry) e =>
    match b with
    | none => some e
    | some x => if keyLt x.msg.key e.msg.key then some e else b) none
def lowest (l : List InboxEntry) : Option InboxEntry :=
  l.foldl (fun (b : Option InboxEntry) e =>
    match b with
    | none => some e
    | some x => if keyLt e.msg.key x.msg.key then some e else b) none

/-- The key in the three words an LP keeps. -/
def lvtKey (k : Option (Word × Word × Word)) : Option Key := k.map fun w => keyOf w.1 w.2.1 w.2.2
/-- LVT after entries left RUN or DONE: the highest key still DONE, or the highest freed as DONE (18 R298, R302). -/
def Lp.resetLvt (l : Lp) : Lp :=
  { l with lvt := match highest (l.inbox.filter (fun e => e.st == .done)) with
      | some e => some (e.msg.w0, e.msg.w1, e.msg.w2)
      | none => if l.lvt.isSome then some (l.fossil.getD (0, 0, 0)) else none }

/-- A message enters an inbox entry, where its words stand in the home core's local memory (18 R297). -/
def State.enterInbox (s : State) (j n i : Nat) (e : InboxEntry) : State :=
  let l := s.lp j n
  (s.setLp j n { l with inbox := l.inbox ++ [{ e with idx := i }] }).writeWords (l.entryPa i) e.msg.words

/-- A message joins the overflow list in the pool, in key order; none where the pool has no room (18 R301). -/
def State.enterOverflow (s : State) (j n : Nat) (e : InboxEntry) : Option State :=
  match s.poolAlloc j 64 with
  | none => none
  | some (va, s1) =>
    let l := s1.lp j n
    let s2 := s1.setLp j n { l with overflow := insertBy (fun a b => keyLe a.msg.key b.msg.key) { e with idx := va } l.overflow }
    some (s2.writeArea j va e.msg.words)

/-- Overflow messages move into FREE entries, the lowest key first (18 R301). -/
def State.refill (s : State) (j n : Nat) : Nat → State
  | 0 => s
  | fuel + 1 =>
    let l := s.lp j n
    match l.overflow, l.freeIdx with
    | e :: r, some i => (((s.setLp j n { l with overflow := r }).poolFree j e.idx).enterInbox j n i e).refill j n fuel
    | _, _ => s

/-- The lowest positive of the overflow and the highest POS entry change places when the overflow's key is the lower (18 R301). -/
def State.exchange (s : State) (j n : Nat) : State :=
  let l := s.lp j n
  match lowest (l.overflow.filter (fun e => e.st == .pos)), highest (l.inbox.filter (fun e => e.st == .pos)) with
  | some o, some p =>
    if l.freeIdx.isNone && keyLt o.msg.key p.msg.key then
      let l1 := { l with
        inbox := l.inbox.filter (· != p) ++ [{ o with idx := p.idx }]
        overflow := insertBy (fun a b => keyLe a.msg.key b.msg.key) { p with idx := o.idx } (l.overflow.filter (· != o)) }
      (((s.setLp j n l1).writeWords (l.entryPa p.idx) o.msg.words).writeArea j o.idx p.msg.words)
    else s
  | _, _ => s

/-- The exchange repeated until the inbox holds the lowest unprocessed positives (18 R301). -/
def State.exchangeAll (s : State) (j n : Nat) : Nat → State
  | 0 => s
  | fuel + 1 => (s.exchange j n).exchangeAll j n fuel

/-- An entry of an inbox or overflow list is gone; overflow moves in, and the unit dispatches (18 R299, R301). -/
def State.dropInbox (s : State) (j n : Nat) (e : InboxEntry) : State :=
  let l := s.lp j n
  let s1 := if l.inbox.contains e then s.setLp j n { l with inbox := dropFirst l.inbox e }
    else (s.setLp j n { l with overflow := dropFirst l.overflow e }).poolFree j e.idx
  (s1.refill j n l.overflow.length).soon (.inboxDispatch j n)

/-- A message of either sign finds a place in the inbox or its overflow; without room it waits at the home core (18 R301). -/
def State.place (s : State) (j n : Nat) (m : Message) (st : InboxState) : State :=
  let job := s.job j
  let s0 := s.setJob j { job with arrivals := job.arrivals + 1 }
  let e : InboxEntry := { st := st, msg := m, at_ := job.arrivals }
  let l := s0.lp j n
  match l.freeIdx with
  | some i => (s0.enterInbox j n i e).soon (.inboxDispatch j n)
  | none =>
    match s0.enterOverflow j n e with
    | some s1 => (s1.exchange j n).soon (.inboxDispatch j n)
    | none => { s0 with relWait := s0.relWait ++ [(l.home, j, m)] }

/-! ## Rollback (18 R302 to R304) -/

/-- A queued copy of a task of a job. -/
def taskEntryIs (j task : Nat) (e : Entry) : Bool := e.job == j && e.task == task && !e.isTicket
/-- Queued entries that satisfy a condition leave their Cisterns with a stamp record; copies of HEDGE tasks confirm their end, and a spawn that
waited for room counts as received (15 R265; 16 R280; 18 R306). -/
def State.discardEntries (s : State) (out : Ending) (gone : Entry → Bool) : State :=
  let l := s.clusters.flatMap fun c => (c.2.entries.filter fun e => gone e && e.cont.isNone).map fun e => (c.1, e)
  (l.foldl (fun (u : State) p => if p.2.isTicket then u else ((u.receive p.1 p.2).stampEntry p.2 out).confirmEntry p.2)
    (s.filterEntries fun e => !(gone e && e.cont.isNone))).resourcesFreed

/-- The copies of a task that have not sent their commit are dropped, wherever they stand. -/
def State.dropTask (s : State) (j task : Nat) (out : Ending) : State :=
  let gs := s.gangs.filter fun g => g.2.job == j && g.2.task == task && g.2.commit.isNone
  let s1 := gs.foldl (fun (u : State) g => (u.dropGang g.1 out false).confirmEnd g.2) s
  s1.discardEntries out (taskEntryIs j task)
/-- Copies of a task whose COMMIT is under way: unless it is answered COMMIT_OK, the answer drops them (18 R304). -/
def State.undoTask (s : State) (j task : Nat) : State :=
  { s with gangs := s.gangs.map fun g =>
      if g.2.job = j ∧ g.2.task = task ∧ g.2.commit.isSome then (g.1, { g.2 with undone := true }) else g }

/-- A task released by a task of an LP whose key is at or above a bound. -/
def fromKey (n : Nat) (bound : Key) (p : Option (Nat × Word × Word × Word)) : Bool :=
  match p with
  | some (l, w0, w1, w2) => l == n && keyLe bound (keyOf w0 w1 w2)
  | none => false

/-- Released children on this module of rolled-back tasks that have not committed are cancelled: copies that run or wait here, and, through
the records that homes of this module keep, copies on other modules (18 R304). -/
def State.cancelHere (s : State) (j n : Nat) (bound : Key) : State :=
  let a := (s.gangs.filter fun g => g.2.job == j && fromKey n bound g.2.parent).map (·.2.task)
  let b := (s.clusters.flatMap fun c => c.2.entries).filterMap fun e =>
    if e.job == j && fromKey n bound e.parent then some e.task else none
  let away := (s.hedges.filter fun r => r.job == j && r.winner.isNone && fromKey n bound r.parent).flatMap fun r =>
    (r.copies.filter fun c => c.modul != (s.job j).self).map fun c => Out.cancel c.modul j r.task c
  let s1 := (distinct (a ++ b)).foldl (fun (u : State) t => (u.dropTask j t .rolledBack).undoTask j t) s
  away.foldl (fun (u : State) o => u.send o) s1
/-- Released children are cancelled on every module of the group (18 R304; log 94). -/
def State.cancelChildren (s : State) (j n : Nat) (bound : Key) : State :=
  ((s.job j).group.filter fun m => m.1 != (s.job j).self).foldl
    (fun (u : State) m => u.send (.hedge m.1 (.children j n bound))) (s.cancelHere j n bound)

/-- The anti-message of a send log entry goes out from the LP's home core (18 R296, R302). -/
def State.sendAnti (s : State) (j n : Nat) (e : LogEntry) : State :=
  s.route j (s.lp j n).home { w0 := e.w0, w1 := e.w1 ||| 0x8000000000000000, w2 := e.w2, payload := [], vt := e.tvrt.toNat }

/-- Where rollback at a key begins (18 R302). -/
def Lp.bound (l : Lp) (k : Key) : Key :=
  match lowest (l.inbox.filter fun e => (e.st == .run || e.st == .done) && e.msg.key.1 == k.1) with
  | some e => if keyLt e.msg.key k then e.msg.key else k
  | none => k

/-- The RUN entry whose COMMIT is under way lies at or above a bound: its answer comes first (18 R302). -/
def State.mustWait (s : State) (j n : Nat) (k : Key) : Bool :=
  let l := s.lp j n
  match l.inbox.find? (fun e => e.st == .run) with
  | some e => keyLe (l.bound k) e.msg.key && s.gangs.any fun g => g.2.job == j && g.2.task == e.task && g.2.commit.isSome
  | none => false

/-- Rollback of an LP at a key (18 R302). -/
def State.rollback (s : State) (j n : Nat) (k : Key) : State :=
  let l := s.lp j n
  let bound := l.bound k
  let runs := l.inbox.filter fun e => e.st == .run && keyLe bound e.msg.key
  let s1 := runs.foldl (fun (u : State) e => u.dropTask j e.task .rolledBack) s
  let l1 := s1.lp j n
  let back := fun (e : InboxEntry) => (e.st == .run || e.st == .done) && keyLe bound e.msg.key
  let cut := fun (e : LogEntry) => keyLe bound (keyOf e.tvrt e.tw1 e.tw2)
  let l2 : Lp := { l1 with
    inbox := l1.inbox.map fun (e : InboxEntry) => if back e then { e with st := .pos, task := 0 } else e
    log := l1.log.filter fun e => !cut e
    rback := l1.rback + 1 }
  let s2 := s1.setLp j n l2.resetLvt
  let s3 := match s2.header l.home j (l.desc.getD 1 0 &&& ~~~63) with
    | .ok pa _ => s2.carry j l.home (homeEnd (homeOf pa)) 1 (.versionRevocation pa k.1 (l1.rback + 1))
    | _ => s2
  let s4 := (l1.log.filter cut).foldl (fun (u : State) e => u.sendAnti j n e) s3
  let s5 : State := { s4 with held := s4.held.filter fun a => !(a.job == j && fromKey n bound a.key) }
  ((s5.cancelChildren j n bound).retryCommits.exchangeAll j n l2.overflow.length).soon (.inboxDispatch j n)

/-- VERSION_REVOCATION: visible buffers at or above a version empty, or wait for their readers, and the tile takes the rollback
count (18 R303). -/
def execVersionRevocation (s : State) : Outcome State Fault Refusal :=
  match s.ev with
  | some (.versionRevocation pa v rback) =>
    let h := s.readWords pa 8
    let h6 := (List.range 4).foldl (fun (w : Word) i =>
      if tileState w i = 1 ∧ v ≤ (h.getD (2 + i) 0).toNat then
        let st := if s.readers.any (fun r => r.header == pa && r.buf == i) then 3 else 0
        merge w (BitVec.ofNat 64 (st * 2 ^ (2 * i))) (BitVec.ofNat 64 (3 * 2 ^ (2 * i)))
      else w) (h.getD 6 0)
    let s1 := s.unitWrite (pa + 48) [h6]
    .next { s1 with tileRback := tset s1.tileRback pa rback }
  | _ => .next s

/-! ## Arrivals (18 R299, R301, R305) -/

/-- A message that an irrevocable action delivered (13 R242). -/
def Message.external (m : Message) : Bool := bits m.w1 0 32 == 2 ^ 32 - 1 && (seqOf m.w1 m.w2).testBit 50
/-- An arrival that an abort's unwinding would have removed (18 R318). -/
def Job.unwound (j : Job) (m : Message) : Bool :=
  (j.abort == .second || j.abort == .stopped) && !m.external && decide (j.abortA ≤ m.vt)

/-- What every arrival meets first: no open job or LP, the count, and lw (18 R301, R307; 22 R359). -/
def State.arrive (s : State) (j : Nat) (m : Message) (k : Nat → State → State) : State :=
  let job := s.job j
  let n := m.dest
  if job.isOpen = false ∨ job.declares n = false then s.countClosed
  else
    let l := s.lp j n
    let s1 := s.countRecv j l.home m.colour
    if job.unwound m then s1
    else if m.w0.toNat < s.lwAt j l.home then s1.setLp j n { l with late := l.late + 1 }
    else k n s1

/-- The earliest-arrived positive with a key. -/
def Lp.positive (l : Lp) (k : Key) : Option InboxEntry :=
  ((l.inbox ++ l.overflow).filter fun e => e.st != .anti && e.msg.key == k).foldl (fun (b : Option InboxEntry) e =>
    match b with
    | none => some e
    | some x => if e.at_ < x.at_ then some e else b) none

/-- A straggler (18 R302, R314). -/
def State.straggles (s : State) (j : Nat) (m : Message) : Bool :=
  (s.job j).opt && ((lvtKey (s.lp j m.dest).lvt).map fun k => keyLt m.key k).getD false
/-- The anti-message that waits for a positive. -/
def Lp.anti (l : Lp) (k : Key) : Option InboxEntry := (l.inbox ++ l.overflow).find? fun e => e.st == .anti && e.msg.key == k
/-- An anti-message whose positive was dispatched: a rollback comes first (18 R305). -/
def State.undoes (s : State) (j : Nat) (m : Message) : Bool :=
  (((s.lp j m.dest).positive m.key).map fun e => e.st == .run || e.st == .done).getD false
/-- An arrival that waits for the answer to a commit under way (18 R302). -/
def State.arrivalWaits (s : State) (j : Nat) (m : Message) : Bool :=
  (if bitAt m.w1 63 then s.undoes j m else s.straggles j m && ((s.lp j m.dest).anti m.key).isNone) && s.mustWait j m.dest m.key

/-- A message that is removed with its opposite. -/
def State.annihilate (s : State) (j n : Nat) (e : InboxEntry) : State :=
  let u := s.dropInbox j n e
  u.setLp j n { u.lp j n with annih := (u.lp j n).annih + 1 }

/-- A message of either sign is taken: a positive meets its anti-message, or is a straggler, or enters; an anti-message vanishes with its
positive, after a rollback where that was RUN or DONE, or waits for it (18 R299, R302, R305). -/
def State.takeArrival (s : State) (j : Nat) (m : Message) : State :=
  if bitAt m.w1 63 then
    let undo := s.undoes j m
    s.arrive j m fun n s =>
      let s1 := if undo then s.rollback j n m.key else s
      match (s1.lp j n).positive m.key with
      | some e => s1.annihilate j n e
      | none => s1.place j n m .anti
  else
    let late := s.straggles j m
    s.arrive j m fun n s =>
      match (s.lp j n).anti m.key with
      | some e => s.annihilate j n e
      | none => (if late then s.rollback j n m.key else s).place j n m .pos

/-- The messages that have arrived at an inbox are taken one at a time, in order of arrival, until one must wait (18 R299, R302). -/
def State.takeArrivals (s : State) (j n : Nat) : Nat → State
  | 0 => s
  | fuel + 1 =>
    match (s.lp j n).inq with
    | [] => s
    | m :: r =>
      if s.arrivalWaits j m then s
      else ((s.setLp j n { s.lp j n with inq := r }).takeArrival j m).takeArrivals j n fuel
/-- Every message that has arrived and need not wait is taken. -/
def State.takeInq (s : State) (j n : Nat) : State := s.takeArrivals j n (s.lp j n).inq.length

/-- A message reaches the inbox unit. -/
def State.reachInbox (s : State) (j : Nat) (m : Message) : State :=
  if (s.job j).isOpen && (s.job j).declares m.dest then
    (s.setLp j m.dest { s.lp j m.dest with inq := (s.lp j m.dest).inq ++ [m] }).takeInq j m.dest
  else s.countClosed

/-- MESSAGE_ARRIVAL (18 R299, R302). -/
def execMessageArrival (s : State) : Outcome State Fault Refusal :=
  match s.ev with
  | some (.messageArrival j m) => .next (s.reachInbox j m)
  | _ => .next s
/-- ANTI_MESSAGE_ARRIVAL (18 R299, R305). -/
def execAntiMessageArrival (s : State) : Outcome State Fault Refusal :=
  match s.ev with
  | some (.antiMessageArrival j m) => .next (s.reachInbox j m)
  | _ => .next s

/-! ## Dispatch (18 R299, R300) -/

/-- A task of a job still runs or waits in a queue, or has moved to another module. -/
def State.taskAlive (s : State) (j task : Nat) : Bool :=
  s.awayTasks.any (fun a => a.1 == j && a.2.1 == task) || s.gangs.any (fun g => g.2.job == j && g.2.task == task) ||
    s.clusters.any fun c => c.2.entries.any (taskEntryIs j task)

/-- A RUN entry whose task has ended without COMMIT_OK is POS again (18 R299). -/
def State.inboxSettle (s : State) (j n : Nat) : State :=
  let l := s.lp j n
  if l.inbox.any (fun e => e.st == .run && !s.taskAlive j e.task) then
    let l1 : Lp := { l with inbox := l.inbox.map fun (e : InboxEntry) =>
      if e.st = .run ∧ s.taskAlive j e.task = false then { e with st := .pos, task := 0 } else e }
    (s.setLp j n l1.resetLvt).exchangeAll j n l.overflow.length
  else s

/-- The queue entry of an inbox task (18 R300). -/
def State.inboxTask (s : State) (j n : Nat) (e : InboxEntry) (h : Word) (task : Nat) : Entry :=
  let job := s.job j
  let l := s.lp j n
  let w3 := e.msg.w3 &&& ~~~1
  let entry := if w3 = 0 then l.desc.getD 2 0 &&& ~~~1 else w3
  let packet : List Word :=
    [ entry, job.inGang &&& ~~~63, BitVec.ofNat 64 (l.ibase + 64 * e.idx), e.msg.w0,
      BitVec.ofNat 64 ((if job.opt then 2 ^ 14 else 0) + job.inPrio * 256 + job.inClass), l.desc.getD 1 0 &&& ~~~63,
      BitVec.ofNat 64 (job.tenant * 65536 + j), 0 ]
  let seen := l.inbox.any fun x => x.st == .done && x.msg.w0 == e.msg.w0
  { packet := packet, hdr := h, job := j, task := task, copy := 0, flags := if job.opt then 4 else 0, prio := job.inPrio,
    enq := s.stamp, since := s.now, lp := some (n, e.msg.w0, e.msg.w1, e.msg.w2), ox1 := if seen then e.msg.w0 else e.msg.w0 - 1,
    rback := l.rback, only := some [l.home] }

/-- INBOX_DISPATCH: the lowest POS entry is dispatched while none is in RUN; with its Cistern full it stays POS and keeps a place
among the waiters (18 R300; 15 R415). A gang header that cannot be read, or that fails the checks of a header, leaves the entry POS and
reports nothing (DESIGN CHOICE, log 92: 01 R32 and 18 R300 give no outcome). LVT takes the entry's key, as the table of 18 R299 says, also
in a job without OPT, in which a DONE entry may have a higher one (log 92). -/
def execInboxDispatch (s0 : State) : Outcome State Fault Refusal :=
  match s0.ev with
  | some (.inboxDispatch j n) =>
    let s1 := (s0.drainReleases.inboxSettle j n).takeInq j n
    let job := s1.job j
    let l := s1.lp j n
    let cl := clusterOf l.home
    let ticket := fun (e : Entry) => e.isTicket && e.job == j && (e.lp.map (·.1)) == some n
    let c := s1.cluster cl
    let held := c.cistern.any ticket
    let s := s1.setCluster cl { c with cistern := c.cistern.filter fun e => !ticket e }
    if job.isOpen = false ∨ job.terminated ∨ (job.part l.home).frozen ∨ l.inbox.any (fun e => e.st == .run) then .next s
    else match lowest (l.inbox.filter fun e => e.st == .pos) with
      | none => .next s
      | some e =>
        if !job.opt && decide (s.lwAt j l.home < e.msg.w0.toNat) then .next s
        else match s.readHeader l.home j (job.inGang &&& ~~~63) with
          | .error _ => .next s
          | .ok h =>
            if headerOk h = false ∨ c.waiting.any ticket then .next s
            else if (s.cluster cl).full && !held then
              let t : Entry := { s.inboxTask j n e h 0 with late := true, row := 2, waitAt := s.now }
              .next (s.setCluster cl ((s.cluster cl).addWaiter t))
            else
              let r := s.newTask cl
              let q := r.2.inboxTask j n e h r.1
              let l1 : Lp := { l with
                inbox := l.inbox.map fun (x : InboxEntry) => if x = e then { x with st := .run, task := r.1 } else x
                lvt := some (e.msg.w0, e.msg.w1, e.msg.w2) }
              let s2 := r.2.setLp j n l1
              let k := s2.cluster cl
              .next (if held then (s2.setCluster cl { k.endSearch with cistern := k.cistern ++ [q] }).poke cl
                else s2.enqueue cl q)
  | _ => .next s0

/-- COMMIT_OK of an inbox task: its entry is DONE (18 R299). -/
def State.inboxDone (s : State) (j n task : Nat) : State :=
  let l := s.lp j n
  let l1 : Lp := { l with inbox := l.inbox.map fun (e : InboxEntry) => if e.st = .run ∧ e.task = task then { e with st := .done, task := 0 } else e }
  s.setLp j n l1

/-! ## Fossil collection and status records (18 R298, R313) -/

/-- The status record of an LP. -/
def Lp.status (l : Lp) : List Word :=
  let k := l.lvt.getD (0, 0, 0)
  [ k.1, BitVec.ofNat 64 ((if l.lvt.isSome then 2 ^ 63 else 0) + bits k.2.1 32 31 * 2 ^ 32 + bits k.2.1 0 32),
    BitVec.ofNat 64 (l.nseq % 2 ^ 63), BitVec.ofNat 64 l.rback, BitVec.ofNat 64 l.annih,
    BitVec.ofNat 64 (l.inbox.length % 2 ^ 16 * 2 ^ 48 + l.overflow.length % 2 ^ 16 * 2 ^ 32 + l.late % 2 ^ 32),
    BitVec.ofNat 64 l.log.length, BitVec.ofNat 64 (bits k.2.2 32 32) ]
def State.writeStatus (s : State) (j n : Nat) : State := s.unitWrite (s.lp j n).statusPa (s.lp j n).status

/-- Entries and log entries of an LP below lw are freed (18 R313). -/
def State.fossil (s : State) (j n lw : Nat) : State :=
  let l := s.lp j n
  let old := fun (e : InboxEntry) => e.st == .done && decide (e.msg.w0.toNat < lw)
  let top := highest (l.inbox.filter old)
  let l1 : Lp := { l with
    inbox := l.inbox.filter fun e => !old e
    log := l.log.filter fun e => decide (lw ≤ e.tvrt.toNat)
    fossil := match top with
      | some e => some (e.msg.w0, e.msg.w1, e.msg.w2)
      | none => l.fossil }
  ((s.setLp j n l1).refill j n l.overflow.length).writeStatus j n

/-! ## The Low-Water unit (18 R306 to R312) -/

/-- The smallest of a list, or the value of no constraint. -/
def minOf (l : List Nat) : Nat := l.foldl min (2 ^ 64 - 1)

/-- The LPs of a job on a core. -/
def Job.lpsAt (j : Job) (c : Nat) : List (Nat × Lp) := j.lps.filter fun l => l.2.home == c
/-- An entry that counts in a local minimum. -/
def entryCounts (j : Nat) (e : Entry) : Bool := e.job == j && !e.late

/-- A part's local minimum (18 R308). -/
def State.localMin (s : State) (j p : Nat) : Nat :=
  let rel := (s.relWait.filter fun r => r.1 == p && r.2.1 == j).map fun r => r.2.2.w0.toNat
  if p < 1024 then
    let lps := ((s.job j).lpsAt p).flatMap fun l =>
      ((l.2.inbox.filter fun e => e.st != .done) ++ l.2.overflow).map fun e => e.msg.w0.toNat
    let runs := (s.gangs.filter fun g => g.2.job == j && g.2.cores.headD 0 == p).map fun g => packetVt g.2.packet
    let coming := (s.contexts.filter fun e => e.2.1 == p).flatMap fun e =>
      (e.2.2.gangs.filter fun g => g.2.job == j).map fun g => packetVt g.2.packet
    let queued := if (s.job j).shareCore (clusterOf p) = p then
        let c := s.cluster (clusterOf p)
        ((c.cistern ++ c.waiting.filter (fun e => e.home.isNone) ++ c.stolen.toList).filter (entryCounts j)).map fun e => packetVt e.packet
      else []
    minOf (rel ++ lps ++ runs ++ coming ++ queued)
  else
    let spawns := s.clusters.flatMap fun c =>
      (c.2.waiting.filter fun e => entryCounts j e && e.home == some (p - 1024)).map fun e => packetVt e.packet
    let commits := (s.commits.filter fun m => m.job == j && s.arbPlace (s.job j).anyCore j [0, 0, 0, 0, 0, m.tile, 0, m.done] == .here (p - 1024)).map
      (·.version)
    minOf (rel ++ spawns ++ commits)

/-- A visit's effect on the part's colours and counts and on the token (18 R309). -/
def State.visit (s : State) (j p : Nat) (t : Token) : Token × State :=
  let q := (s.job j).part p
  let q1 : Part := if q.red = t.n then q
    else if t.n then { q with red := true, sentR := 0, recvR := 0, redmin := 2 ^ 64 - 1 }
    else { q with red := false, sentW := 0, recvW := 0, redmin := 2 ^ 64 - 1 }
  let d : Int := if t.n then (q1.sentW : Int) - q1.recvW else (q1.sentR : Int) - q1.recvR
  ({ n := t.n, c := t.c + d, m := min t.m (min (s.localMin j p) q1.redmin), mark := t.mark || q1.mark, quiet := t.quiet },
   s.setPart j p { q1 with mark := false })

/-- Ticks from a visit to the next (18 R312). -/
def visitTicks (p : Nat) : Nat := if p < 1024 then 4 * mcTicks else 3 * mcTicks

/-- A strand waits on an FE word, in a retry list or parked (18 R316). -/
def State.onFe (s : State) (o : Origin) (v : Slot) : Bool :=
  v.wait == .parked || v.wait == .retry && ((s.retries.any fun r => r.origin == o) || v.inFlight.any fun f => f.away && f.park.isSome)
/-- The strands of a gang at a core: in slots, where one that an inline child has saved waits on nothing of its own (log 65), and taken from
them. -/
def State.strandsAt (s : State) (g c : Nat) : List (Origin × Slot × Bool) :=
  let ids := (s.slotsOf g).filter fun id => id / 16 == c
  (ids.map fun id => (Origin.slot id, s.slot id, (s.slot id).gang != g)).filter (fun x => x.2.2 || x.2.1.n != 0) ++
    (s.records.filter fun r => r.2.gang == g && r.2.core == c).filterMap fun r => r.2.cont.map fun v => (Origin.slot r.1, v, false)
/-- Every strand of a gang at a core waits on an FE word. -/
def State.feStuck (s : State) (g c : Nat) : Bool :=
  (s.strandsAt g c).all fun x => !x.2.2 && (s.onFe x.1 x.2.1 || (match x.1 with
    | .slot id => 16384 ≤ id && s.retries.any fun r => r.origin == x.1
    | _ => false))
/-- A gang has a strand on this module that has not ended. -/
def State.hasStrand (s : State) (g : Nat) : Bool :=
  (s.slotsOf g).any (fun id => (s.slot id).gang != g || (s.slot id).n != 0) || s.records.any (fun r => r.2.gang == g && r.2.cont.isSome) ||
    s.parks.any fun p => (p.2.entry.map (·.gang)) == some g

/-- The visit to a core notes which of its job's gangs have a strand there that does not stand still; the pass's first visit on this module
begins the count (18 R316). -/
def State.noteStuck (s : State) (j p : Nat) : State :=
  let first := (s.job j).ringParts.head? == some p
  { s with gangs := s.gangs.map fun g =>
      if g.2.job = j ∧ p < 1024 then (g.1, { g.2 with dlNow := (first || g.2.dlNow) && s.feStuck g.1 p }) else g }

/-- The address of the FE word that a waiter in a retry list named (18 R316). -/
def State.waitAddr (s : State) (o : Origin) : Word := ((s.retries.find? fun r => r.origin == o).map (·.va)).getD 0
/-- A line of the DEADLOCK report: the strand's FE word, by the address the strand used, and where it stands. -/
def State.stuckLine (s : State) (g id : Nat) : List Word :=
  let v := s.slot id
  let park := v.wait == .parked
  let addr := if park then v.resume.2
    else match v.inFlight with
      | some f => if f.away then f.va else s.waitAddr (.slot id)
      | none => s.waitAddr (.slot id)
  if v.gang = g then [addr, BitVec.ofNat 64 ((if park then 2 ^ 26 else 0) + v.index * 2 ^ 14 + id % 16 * 2 ^ 10 + id / 16)]
  else []

/-- A gang is reported to the job's handler task, and to the host (18 R316; 26 R406). -/
def State.reportDeadlock (s : State) (j g : Nat) : State :=
  let q := s.gang g
  let ids := (s.slotsOf g).filter fun id => (s.slot id).n != 0
  let solo := (s.records.filter fun r => r.2.gang == g && r.2.cont.isSome).map fun r =>
    [s.waitAddr (.slot r.1), BitVec.ofNat 64 r.2.core]
  let away := (s.parks.filterMap fun p => p.2.entry).filterMap fun e =>
    if e.gang = g then some [((e.cont.map (·.resume)).getD (0, 0)).2, BitVec.ofNat 64 (2 ^ 26 + e.core)] else none
  let lines : List (List Word) := (ids.map (s.stuckLine g)).filter (fun l => !l.isEmpty) ++ solo ++ away
  let n := lines.length
  match s.poolAlloc j (64 + 16 * n) with
  | none => s
  | some (va, s1) =>
    let head : List Word := [BitVec.ofNat 64 (n * 2 ^ 32 + g), 0, 0, 0, 0, 0, 0, 0]
    let s2 := s1.writeArea j va (head ++ lines.flatten)
    let t : TrapInfo := { cause := .deadlock, origin := 6, addr := BitVec.ofNat 64 va }
    let c := q.cores.headD 0
    let id := ids.headD (c * 16)
    let rcd := (s2.trapRecord id t (s2.slot id).pc).set 7 (q.packet.getD 3 0)
    let s3 := (s2.setGang g { q with dlReported := true }).launchHandler c j rcd none
    s3.postEvent 6 j (BitVec.ofNat 64 g) 0 0

/-- At the end of a pass, gangs found still at two passes in a row that both ended with C = 0 and MARK = 0 are reported (18
R316). -/
def State.deadlocks (s : State) (j : Nat) (quiet : Bool) : State :=
  let due := s.gangs.filter fun g => g.2.job == j && quiet && g.2.dlNow && g.2.dlSeen && !g.2.dlReported && s.hasStrand g.1
  let s1 : State := { s with gangs := s.gangs.map fun g =>
    if g.2.job = j then (g.1, { g.2 with dlSeen := quiet && g.2.dlNow, dlNow := false }) else g }
  due.foldl (fun (u : State) g => u.reportDeadlock j g.1) s1

/-- The lw a job's unit last published. -/
def Job.lwMax (j : Job) : Nat := (j.parts.map (·.2.lw)).foldl max 0

/-- A new mark goes to every part of this module and to the other modules, which learn with it that the cut to a colour has ended (18 R310,
R419). -/
def State.publish (s : State) (j v : Nat) (n : Bool) : State :=
  let job := s.job j
  let s1 := job.ringParts.foldl (fun (u : State) p => u.soon (.lwMarkArrival j p v)) s
  if job.group.any (fun m => m.1 != job.self) then s1.send (.lwMark j v n true) else s1

/-- A cut has ended: packets held behind it are raised to its lw and may be placed (18 R419). -/
def State.endCut (s : State) (j lw : Nat) : State :=
  let up := fun (e : Entry) =>
    if e.job = j ∧ e.late ∧ e.isTicket = false then
      { e with late := false, packet := e.packet.set 3 (BitVec.ofNat 64 (max lw (packetVt e.packet))) }
    else e
  let s1 := s.setJob j { s.job j with cut := false }
  ((s1.mapEntries up).resourcesFreed)

/-- The end of a pass: publication or not, termination, DEADLOCK, and the next pass after LWGAP (18 R309, R310, R312, R315). -/
def State.passEnd (s : State) (j : Nat) (t : Token) : State :=
  let job := s.job j
  let top : Nat := 2 ^ 64 - 1
  let s1 := s.deadlocks j (t.c == 0 && !t.mark)
  if job.abort ≠ .none then s1
  else
    let again := fun (u : State) (n : Bool) =>
      (u.setJob j { u.job j with token := { n := n, quiet := t.c == 0 && !t.mark } }).schedule (u.now + job.lwgap * usTicks) (.lwgapExpiry j)
    if t.c ≠ 0 then again s1 t.n
    else if t.m < top then
      let lw := max job.lwMax t.m
      again ((s1.publish j lw t.n).endCut j lw) (!t.n)
    else if job.opt && !t.mark then
      let s2 := (s1.publish j top t.n).endCut j top
      (s2.setJob j { s2.job j with terminated := true }).postEvent 1 j 0 0 0
    else
      let s2 := if job.group.any (fun m => m.1 != job.self) then s1.send (.lwMark j job.lwMax t.n false) else s1
      again (s2.endCut j job.lwMax) (!t.n)

/-- The token enters a module: there the cut before has ended where it moved to the other colour, and, where the pass did not end on this
module, that pass is judged for deadlocks (18 R316, R419). -/
def State.enterPass (s : State) (j p : Nat) (t : Token) : State :=
  let job := s.job j
  let s1 := if job.cut && job.token.n != t.n then s.endCut j job.lwMax else s
  let s2 := if job.ringParts.head? = some p ∧ job.nextModule.isSome then s1.deadlocks j t.quiet else s1
  s2.setJob j { s2.job j with cut := true, passing := true, token := { n := t.n } }

/-- LW_TOKEN_VISIT: the token visits a part and goes on to the next; when the last part's time is over, which part 4,096 stands for, it goes to
the next module or ends its pass (18 R306, R309, R312). An abort stops it (18 R318), and a module's wish for passes is of use only before they
begin (log 43). -/
def execLwTokenVisit (s : State) : Outcome State Fault Refusal :=
  match s.ev with
  | some (.lwTokenVisit j p t) =>
    let job := s.job j
    if job.isOpen = false ∨ job.abort ≠ .none ∨ (t.start = true ∧ job.passing = true) then .next s
    else if p = 4096 then
      match job.nextModule with
      | some m => .next (s.send (.lwToken m j t))
      | none => .next (s.passEnd j t)
    else
      let s0 := s.enterPass j p t
      let r := (s0.noteStuck j p).visit j p t
      .next (r.2.schedule (s.now + visitTicks p) (.lwTokenVisit j ((nextIn job.ringParts p).getD 4096) r.1))
  | _ => .next s

/-- LWGAP_EXPIRY: the next pass begins in the module of lowest group index (18 R306, R312). -/
def execLwgapExpiry (s : State) : Outcome State Fault Refusal :=
  match s.ev with
  | some (.lwgapExpiry j) =>
    let job := s.job j
    if job.isOpen = false ∨ job.terminated ∨ job.abort ≠ .none ∨ s.ready.getLsbD 38 = false then .next s
    else if job.firstModule = job.self then .next (s.soon (.lwTokenVisit j (job.ringParts.headD 1024) job.token))
    else .next (s.send (.lwToken job.firstModule j job.token))
  | _ => .next s

/-- The marks at a core of the jobs that an entry moved exceed its VT, or, where it names no live gang, those of the jobs on the core; a job that
has closed holds it back no longer (18 R311; 23 R373). -/
def State.fwdPassed (s : State) (c : Nat) (f : FwdEntry) : Bool :=
  let l := if f.jobs = [] then (s.jobs.filter fun j => j.2.covers c).map (·.1) else f.jobs
  l.all fun j => !(s.job j).isOpen || decide (f.f2.toNat < s.lwAt j c)
/-- Forwarding entries of a core whose EXPIRE has come and that lw has passed are gone (23 R373). -/
def State.expireFwd (s : State) (c : Nat) : State :=
  let k := s.core c
  let gone := fun (x : FwdEntry) => bitAt x.f0 63 && decide (x.f3.toNat ≤ s.stamp) && s.fwdPassed c x
  s.setCore c { k with fwd := k.fwd.map fun e =>
    (e.1, if gone e.2 then { e.2 with f0 := e.2.f0 &&& ~~~0x8000000000000000 } else e.2) }

/-- Strands and records of a job that wait on a core for lw in SUSP resume (03 R70, R71). -/
def State.wakeLow (s : State) (j c lw : Nat) : State :=
  let s1 := (List.range 16).foldl (fun (u : State) i =>
    let id := c * 16 + i
    let v := u.slot id
    match v.wait with
    | .low x => if (u.gang v.gang).job = j ∧ x ≤ lw then u.complete id 4 else u
    | _ => u) s
  let due := s1.records.filter fun r => r.2.job == j && r.2.core == c &&
    (r.2.cont.map fun v => v.resume.1 == 4 && decide (v.resume.2.toNat ≤ lw)).getD false
  due.foldl (fun (u : State) r => u.resumeRecord r.1) s1

/-- LW_MARK_ARRIVAL: a published mark reaches a core or a home, whose lw never falls: waiting strands go on, inboxes collect and
dispatch, and held actions are performed (18 R310, R311, R313, R314; 13 R242); on another module the cut has ended with it (18 R419). -/
def execLwMarkArrival (s : State) : Outcome State Fault Refusal :=
  match s.ev with
  | some (.lwMarkArrival j p v) =>
    let job := s.job j
    let q := job.part p
    if job.isOpen = false then .next s
    else if 4096 ≤ p then .next (if job.cut && job.token.n == (p == 4097) then s.endCut j (max v job.lwMax) else s)
    else if q.frozen ∨ v < q.lw then .next s
    else
      let s1 := s.setPart j p { q with lw := v }
      let s2 := if v = 2 ^ 64 - 1 ∧ job.opt then s1.setJob j { s1.job j with terminated := true } else s1
      if p < 1024 then
        let lps := (job.lpsAt p).map (·.1)
        let s3 := lps.foldl (fun (u : State) n => (u.fossil j n v).soon (.inboxDispatch j n)) ((s2.wakeLow j p v).expireFwd p)
        .next (s3.drainReleases.retryCommits.poke (clusterOf p))
      else .next (s2.performHeld j (p - 1024))
  | _ => .next s

/-! ## Abort (18 R317, R318, R418) -/

/-- Inbox entries of an LP after the unwinding to a step: messages of tasks at or above it are gone, others are POS again; overflow
moves in; the send log keeps what tasks below it sent. -/
def State.unwindLp (s : State) (j n a : Nat) : State :=
  let l := s.lp j n
  let gone := fun (e : InboxEntry) => !e.msg.external && decide (a ≤ e.msg.vt)
  let s1 := (l.overflow.filter gone).foldl (fun (u : State) e => u.poolFree j e.idx) s
  let l1 : Lp := { l with
    inbox := (l.inbox.filter fun e => !gone e).map fun (e : InboxEntry) =>
      if (e.st = .run ∨ e.st = .done) ∧ a ≤ e.msg.w0.toNat then { e with st := .pos, task := 0 } else e
    overflow := l.overflow.filter fun e => !gone e
    log := l.log.filter fun e => decide (e.tvrt.toNat < a) }
  ((s1.setLp j n l1.resetLvt).refill j n l.overflow.length).exchangeAll j n l.overflow.length

/-- A core unwinds: copies placed with their first core there, requeued continuations of which are entries of a Cistern, copies in contexts
that wait for room there, its cluster's entries, and its inboxes. -/
def State.unwindCore (s : State) (j c a : Nat) : State :=
  let gs := s.gangs.filter fun g => g.2.job == j && g.2.cores.headD 0 == c && decide (a ≤ packetVt g.2.packet)
  let queued := fun (g : Nat) => s.clusters.any fun k => k.2.entries.any fun e => e.cont.isSome && e.gang == g
  let s1 := gs.foldl (fun (u : State) g => (u.dropGang g.1 (if queued g.1 then .discarded else .dropped) true).confirmEnd g.2)
    (s.dropArriving (fun q => q.job == j && (s.contexts.any fun e => e.2.1 == c && e.2.2.gangs.any fun g => g.2 == q) && decide (a ≤ packetVt q.packet)) .dropped)
  let mine := (s1.cluster (clusterOf c))
  let out := mine.entries.filter fun e => e.job == j && e.cont.isNone && decide (a ≤ packetVt e.packet)
  let s1 : State := { s1 with relWait := s1.relWait.filter fun r => !(r.2.1 == j && r.1 == c && !r.2.2.external && decide (a ≤ r.2.2.vt)) }
  let s1 : State := { s1 with anns := s1.anns.filter (fun x => x.job != j) }
  let s2 := if (s.job j).shareCore (clusterOf c) = c then s1.discardEntries .discarded fun e => out.contains e else s1
  ((s2.job j).lpsAt c).foldl (fun (u : State) l => u.unwindLp j l.1 a) s2

/-- A home unwinds: versions of the job's tiles, held actions, waiting commits and waiting messages at or above the step. -/
def State.unwindHome (s : State) (j h a : Nat) : State :=
  let tiles := (s.tileMarks.filter fun t => t.2 == j && homeOf t.1 == h).map (·.1)
  let s1 := tiles.foldl (fun (u : State) pa => u.soon (.versionRevocation pa a (tget u.tileRback pa 0))) s
  { s1 with
    held := s1.held.filter fun x => !(x.job == j && x.home == h && decide (a ≤ x.vt))
    commits := s1.commits.filter fun m => !(m.job == j && decide (a ≤ m.version))
    relWait := s1.relWait.filter fun r => !(r.2.1 == j && r.1 == 1024 + h && !r.2.2.external && decide (a ≤ r.2.2.vt)) }.retryCommits

/-- The second circuit has returned: the job stays stopped, its handler task gets the ABORT record at VT A, and the host is told
(18 R318, R418; 26 R406). -/
def State.abortDone (s : State) (j a : Nat) (reason : Word) : State :=
  let job := s.job j
  let c := (job.ringParts.headD 0) % 1024
  let t : TrapInfo := { cause := .abort, origin := 6, addr := BitVec.ofNat 64 a, info := BitVec.ofNat 32 a }
  let rcd : List Word := [t.word0, 0, t.addr, 0, BitVec.ofNat 64 (j % 65536 * 2 ^ 32), 0, 0, BitVec.ofNat 64 a]
  let s1 := (s.setJob j { job with abort := .stopped, abortA := a, reason := reason, circled := false, doneAway := 0 }).endCut j job.lwMax
  let s2 := if (s1.handlerHeader c j).isSome then s1.launchHandler c j rcd none else s1
  (s2.postEvent 2 j (BitVec.ofNat 64 a) reason 0).resourcesFreed

/-- A member whose leaving is an abort's reason belongs to the job's group no more (18 R317, R418; 22 R358; 26 R405). -/
def Job.without (j : Job) (reason : Word) : Job :=
  if bits reason 60 4 = 2 ∨ bits reason 60 4 = 3 then { j with group := j.group.filter fun g => g.1 != bits reason 48 12 } else j

/-- A part as the abort token passes it: on the first circuit it stops and freezes its lw, on the second it unwinds to A (18 R317,
R318). -/
def State.abortPart (s : State) (j p : Nat) (second : Bool) (a : Nat) : State :=
  if second then (if p < 1024 then s.unwindCore j p a else s.unwindHome j (p - 1024) a)
  else s.setPart j p { (s.job j).part p with frozen := true }

/-- The token has passed the last part of this module: it goes on to the next module, begins its second circuit, or has returned, which
every module learns (18 R317, R318). -/
def State.abortOn (s : State) (j : Nat) (second : Bool) (a : Nat) (reason : Word) : State :=
  let job := s.job j
  match job.nextModule with
  | some m => s.send (.abortToken m j second a reason job.abortCycle)
  | none =>
    if second then
      let s1 := s.abortDone j a reason
      if job.group.any (fun m => m.1 != job.self) then s1.send (.abortDone j a reason) else s1
    else if job.firstModule = job.self then s.soon (.abortTokenVisit j (job.ringParts.headD 1024) true a job.reason job.abortCycle)
    else s.send (.abortToken job.firstModule j true a reason job.abortCycle)

/-- Of two aborts that began in one cycle, the one whose module has the lower group index gives the reason (18 R418). -/
def Job.outranks (j : Job) (reason : Word) (since : Nat) : Bool := since == j.abortCycle && decide (bits reason 48 12 < bits j.reason 48 12)

/-- ABORT_TOKEN_VISIT: the token passes a part. A second abort's token ends where the first is under way, and gives it its reason where it
outranks it, which the second circuit carries to every module; part 4,096 stands for the token's return to the last module (18 R317, R318,
R418). -/
def execAbortTokenVisit (s : State) : Outcome State Fault Refusal :=
  match s.ev with
  | some (.abortTokenVisit j p second a reason since) =>
    let job := (s.job j).without reason
    let u := s.setJob j job
    let head := job.ringParts.head? = some p
    if job.isOpen = false then .next s
    else if p = 4096 then .next (u.abortDone j a reason)
    else if second = false ∧ job.circled ∧ head then .next (if job.outranks reason since then u.setJob j { job with reason := reason } else u)
    else
      let a1 := if second then a else min a (job.part p).lw
      let phase : AbortPhase := if second then .second else .first
      let why := if second ∧ head ∧ job.firstModule = job.self ∧ job.circled then job.reason else reason
      let s0 := u.setJob j { job with abort := phase, abortA := a1, reason := why, circled := true, abortCycle := since }
      let s1 := s0.abortPart j p second a
      match nextIn job.ringParts p with
      | some r => .next (s1.schedule (s.now + visitTicks p) (.abortTokenVisit j r second a1 why since))
      | none => .next (s1.abortOn j second a1 why)
  | _ => .next s

/-- RESTART: a part resumes placement, dispatch and counting; the job's one token starts again in the module of lowest group index (18 R306,
R318). -/
def execRestart (s : State) : Outcome State Fault Refusal :=
  match s.ev with
  | some (.restart j p) =>
    let job := s.job j
    if job.isOpen = false ∨ job.abort ≠ .stopped then .next s
    else
      let s1 := s.setPart j p { job.part p with frozen := false }
      let s2 := if p < 1024 then (job.lpsAt p).foldl (fun (u : State) l => u.soon (.inboxDispatch j l.1)) (s1.poke (clusterOf p)) else s1
      match nextIn job.ringParts p with
      | some r => .next (s2.schedule (s.now + visitTicks p) (.restart j r))
      | none =>
        let s3 := s2.setJob j { s2.job j with abort := .none }
        let s4 := if job.group.any (fun m => m.1 != job.self) then s3.send (.restart j) else s3
        .next ((if job.firstModule = job.self then s4.soon (.lwgapExpiry j) else s4).resourcesFreed)
  | _ => .next s

end Sys2Proof.Machine
end

