-- ==== Sys2Proof/Machine/Fabric.lean ====
section
/-! DEFINITION. The fabric's own steps: refused packets (22 R353), incarnations (22 R358), the parking of transmit fibres
(22 R361), readiness (26 R407) and reset. -/

namespace Sys2Proof.Machine

open Host

/-! ## Refused packets (22 R353; 04 R414) -/

/-- The drop report of a packet that was no request, which firmware forwards to the job's handler task as a PROT trap record (22 R353). -/
def State.reportDrop (s : State) (core slot addr j : Nat) : State :=
  if (s.job j).isOpen then
    let t : TrapInfo := { cause := .prot, origin := 5, addr := BitVec.ofNat 64 addr }
    let rcd : List Word := [t.word0, 0, t.addr, BitVec.ofNat 64 (slot * 2 ^ 10 + coreZ core * 2 ^ 9 + coreY core * 2 ^ 5 + coreX core),
      BitVec.ofNat 64 (j % 65536 * 2 ^ 32), 0, 0, 0]
    s.launchHandler core j rcd none
  else s

/-- PACKET_REFUSAL: a router refuses a packet of a tenant that does not own it, and counts the drop. A refused request traps PROT
at its strand; for any other class firmware forwards the report to the job's handler task. -/
def execPacketRefusal (s : State) : Outcome State Fault Refusal :=
  match s.ev with
  | some (.packetRefusal cls id addr posted j) =>
    let s1 := s.countDrop (id / 16)
    if cls = 0 then
      if posted then .next (s1.postedAnswer id addr { refusal := some Cause.prot.code, addr := BitVec.ofNat 64 addr })
      else match (s.slot id).inFlight with
        | some f => .next (s1.deliver id f { refusal := some Cause.prot.code, addr := BitVec.ofNat 64 addr })
        | none => .next s1
    else .next (s1.reportDrop (id / 16) (id % 16) addr j)
  | _ => .next s

/-! ## Packets of other modules (22 R350, R351, R358) -/

/-- The flow of a packet. -/
def Flow.has (f : Flow) (h : PacketHead) : Bool := f.link == h.link && f.src == h.src && f.dst == h.dst && f.cls == h.cls
def State.flow (s : State) (h : PacketHead) : Flow :=
  (s.flows.find? (·.has h)).getD { link := h.link, src := h.src, dst := h.dst, cls := h.cls }
def State.setFlow (s : State) (h : PacketHead) (f : Flow) : State := { s with flows := f :: s.flows.filter (fun x => !x.has h) }

/-- A packet of another module is performed: its flow goes on, and the packet that waited for it follows (22 R351). -/
def State.inFlow (s : State) (e : Ev) : State :=
  match e with
  | .fromModule h _ _ =>
    if h.cls = 3 then s
    else
      let f := s.flow h
      let n := (f.next + 1) % 256
      match f.held.find? (fun x => x.1 == n) with
      | some x => (s.setFlow h { f with next := n, held := dropFirst f.held x }).soon x.2
      | none => s.setFlow h { f with next := n }
  | _ => s

/-- A packet that the router of its destination core refuses: the core belongs to another tenant (22 R353). A request meets that check in the
access that it asks for, which answers it. -/
def State.routerRefuses (s : State) (h : PacketHead) : Bool := decide (h.cls ≠ 0 ∧ h.dst < 1024) && !s.inTenant h.tenant h.dst

/-- A packet of another module that is not performed as it arrives: one whose incarnation is not the recorded one is dropped and counted
at the engine it came by, one that is ahead of a gap in its flow waits for the gap to fill, and one that its core's router refuses is dropped,
counted and reported; Rill beats, class 3, need no order (22 R351, R353, R358). -/
def State.heldPacket (s : State) (e : Ev) : Option State :=
  match e with
  | .fromModule h engine _ =>
    if (s.peers.find? (fun p => p.1 == (h.job, h.modul))).any (fun p => p.2 != h.inc) then
      some { s with incDrop := tset s.incDrop engine (counterUp (tget s.incDrop engine 0) 1) }
    else
      let f := s.flow h
      if h.cls ≠ 3 ∧ h.fseq % 256 ≠ f.next then some (s.setFlow h { f with held := f.held ++ [(h.fseq % 256, e)] })
      else if s.routerRefuses h then some (((s.inFlow e).countDrop h.dst).reportDrop h.dst 0 0 h.job)
      else none
  | _ => none

/-- A packet that is not performed now: dropped as stale, refused, ahead of a gap, or late on the timed channel (22 R351, R353, R354, R358). -/
def State.heldBack (s : State) (e : Ev) : Option State :=
  match e with
  | .timed id x => s.timedLate id x
  | _ => s.heldPacket e

/-- A requester of a member of a job's group. -/
def Origin.isOf (o : Origin) (j modul : Nat) : Bool :=
  match o with
  | .remote m k _ => m == modul && k == j
  | .slot _ => false
/-- A continuation parked for a member of a job's group. -/
def Parked.isOf (p : Parked) (j modul : Nat) : Bool :=
  match p with
  | .away m k _ => m == modul && k == j
  | _ => false

/-- INCARNATION_ANNOUNCEMENT: a member's new number is recorded, its flows begin anew, what waits here for its old incarnation is never
answered, and its reset counts as leaving the job's group: the job aborts with SOURCE 3 (22 R358; 18 R418). -/
def execIncarnationAnnouncement (s : State) : Outcome State Fault Refusal :=
  match s.ev with
  | some (.incarnationAnnouncement j m inc link) =>
    let s1 : State := { s with
      peers := ((j, m), inc) :: s.peers.filter fun p => p.1 != (j, m)
      flows := s.flows.filter fun f => f.link != link
      retries := s.retries.filter fun r => !r.origin.isOf j m
      parks := s.parks.filter fun p => !p.2.isOf j m }
    if (s.job j).isOpen && (s.job j).group.any fun g => g.1 == m then
      .next ((s1.setJob j { s.job j with group := (s.job j).group.filter fun g => g.1 != m }).startAbort j 3 0)
    else .next s1
  | _ => .next s

/-- RESET: the module is as after reset, with its incarnation one higher, and announces it to the members of each of its groups (22
R358; 06 R123). The clock and what has left the module are not part of what a reset clears. -/
def execReset (s : State) : Outcome State Fault Refusal :=
  let n := s.incarnation + 1
  let s1 : State := { State.reset with incarnation := n, now := s.now, fresh := s.fresh, out := s.out }
  let groups := s.jobs.filter fun j => j.2.isOpen && !j.2.group.isEmpty
  .next (groups.foldl (fun (u : State) j => u.send (.incarnation j.1 n.toNat)) s1)

/-! ## Parking (22 R361) -/

/-- The fibre group g. -/
def State.fibre (s : State) (g : Nat) : Fibre := tget s.fibres g {}
def State.setFibre (s : State) (g : Nat) (f : Fibre) : State := { s with fibres := tset s.fibres g f }
/-- The park condition of a group is looked at when its queues may have been quiet for HOLD. -/
def State.planPark (s : State) (g : Nat) : State :=
  let f := s.fibre g
  s.schedule (max s.now (f.quietSince + f.hold * usTicks)) (.groupPark g)
/-- A parked group begins to wake: its heaters start, and its wake is counted (22 R359). -/
def State.wakeFibre (s : State) (g : Nat) : State :=
  let f := s.fibre g
  if f.st = .parked then
    ((s.setFibre g { f with st := .waking, settled := false, wakes := counterUp f.wakes 1 }).schedule
      (s.now + 8 * usTicks) (.heaterSettle g)).schedule (s.now + 9 * usTicks) (.lockComplete g)
  else s
/-- What a group's queues and policy lead to: a wake where a queue exceeds HIGH, a park condition to look at where all are at or below LOW. -/
def State.settleFibre (s : State) (g : Nat) : State :=
  let f := s.fibre g
  if f.st = .parked ∧ f.high < f.queue then s.wakeFibre g
  else if f.st = .wide ∧ f.queue ≤ f.low then s.planPark g
  else s

/-- GROUP_PARK: a wide group whose queues have stayed at or below LOW for HOLD parks to one wavelength. -/
def execGroupPark (s : State) : Outcome State Fault Refusal :=
  match s.ev with
  | some (.groupPark g) =>
    let f := s.fibre g
    if f.st = .wide ∧ f.queue ≤ f.low ∧ f.quietSince + f.hold * usTicks ≤ s.now then .next (s.setFibre g { f with st := .parked })
    else .next s
  | _ => .next s

/-- GROUP_WAKE: a queue exceeds HIGH, or firmware asks: a parked group's heaters start, and its wake is counted; no other state takes notice of
the request. The lengths of the links' queues come from outside the model (log 79): above LOW there is no quiet time. -/
def execGroupWake (s : State) : Outcome State Fault Refusal :=
  match s.ev with
  | some (.groupWake g) => .next (s.wakeFibre g)
  | some (.linkQueue g n) =>
    let f := s.fibre g
    .next ((s.setFibre g { f with queue := n, quietSince := if f.queue ≤ f.low then f.quietSince else s.now }).settleFibre g)
  | _ => .next s

/-- HEATER_SETTLE: the rings have settled and lock begins. -/
def execHeaterSettle (s : State) : Outcome State Fault Refusal :=
  match s.ev with
  | some (.heaterSettle g) =>
    let f := s.fibre g
    .next (if f.st = .waking then s.setFibre g { f with settled := true } else s)
  | _ => .next s

/-- LOCK_COMPLETE: the group is wide; what left it on one wavelength meanwhile is counted (22 R359). -/
def execLockComplete (s : State) : Outcome State Fault Refusal :=
  match s.ev with
  | some (.lockComplete g) =>
    let f := s.fibre g
    if f.st = .waking ∧ f.settled then
      let n := s.fresh + 1
      let f1 : Fibre := { f with st := .wide, settled := false, narrow := counterUp f.narrow (Config.narrowFlits n) }
      .next (({ s with fresh := n }.setFibre g f1).planPark g)
    else .next s
  | _ => .next s

/-! ## Readiness (26 R407) -/

/-- What follows from a function becoming ready: a frond's first die starts its clock (03 R60), cores take work, the Low-Water
unit begins the passes of open jobs (18 R311), and the controller measures power (26 R409). -/
def State.becomeReady (s : State) (b : Nat) : State :=
  if b = 1 then s.schedule (s.now + 50 * usTicks) .powerMeasurement
  else if 18 ≤ b ∧ b < 22 then
    let f := (b - 18) / 2
    let other := 18 + 2 * f + (1 - (b - 18) % 2)
    let s1 := if s.ready.getLsbD other then s
      else if f = 0 then { s with start0 := s.now } else { s with start1 := s.now }
    s1.resourcesFreed
  else if 22 ≤ b ∧ b < 38 then
    (List.range 4).foldl (fun (u : State) i =>
      let g := 4 * (b - 22) + i
      (u.setFibre g { u.fibre g with quietSince := u.now }).planPark g) s
  else if b = 38 then
    s.jobs.foldl (fun (u : State) j =>
      if j.2.isOpen && j.2.firstModule == j.2.self then u.soon (.lwgapExpiry j.1) else u) s
  else s

/-- READY_SET: a bit of READY sets; it clears only at reset (23 R367). -/
def execReadySet (s : State) : Outcome State Fault Refusal :=
  match s.ev with
  | some (.readySet b) =>
    if 39 ≤ b ∨ s.ready.getLsbD b then .next s
    else .next ({ s with ready := s.ready ||| BitVec.ofNat 64 (2 ^ b) }.becomeReady b)
  | _ => .next s

end Sys2Proof.Machine
end

