-- ==== Sys2Proof/Machine/Commands.lean ====
section
/-! DEFINITION. The host's commands on tenants, format ranges, access control, groups, fibres, debug and lockstep (26 R403,
R410, R411, R417; 08 R155, R158; 15 R269, R271; 16 R288; 22 R353, R357, R361). -/

namespace Sys2Proof.Machine

open Host

/-! ## TENANT_MAP (15 R271; 16 R288; 22 R353) -/

/-- Two rectangles of twin positions share one. -/
def rectsMeet (ax ay aw ah bx b_y bw bh : Nat) : Bool :=
  decide (ax < bx + bw ∧ bx < ax + aw ∧ ay < b_y + bh ∧ b_y < ay + ah)
/-- A rectangle lies inside another. -/
def rectInside (ax ay aw ah bx b_y bw bh : Nat) : Bool :=
  decide (bx ≤ ax ∧ b_y ≤ ay ∧ ax + aw ≤ bx + bw ∧ ay + ah ≤ b_y + bh)

/-- TENANT_MAP: a tenant's rectangle and hedging bucket, in force at every router before the command completes. -/
def execTenantMap (s : State) : Outcome State Fault Refusal :=
  match s.ev with
  | some (.tenantMap k) =>
    .next (s.command k fun s =>
      let t := (s.arg k 0).toNat
      let r := s.arg k 1
      let x := bits r 0 5
      let y := bits r 5 4
      let w := bits r 9 5 + 1
      let h := bits r 14 4 + 1
      let b := (s.arg k 2).toNat
      let cap := (s.arg k 3).toNat
      match badArg [decide (1 ≤ t ∧ t < 4096), decide (x + w ≤ 32 ∧ y + h ≤ 16), decide (1 ≤ b ∧ b ≤ 64),
          decide (1 ≤ cap ∧ cap ≤ 65535)] with
      | some i => s.finish k .invalid i []
      | none =>
        if s.tenants.any (fun o => o.1 != t && o.2.valid && rectsMeet x y w h o.2.x o.2.y o.2.w o.2.h) then
          s.finish k .refused 1 []
        else if s.jobs.any (fun j => j.2.isOpen && j.2.tenant == t &&
            !rectInside j.2.subX j.2.subY j.2.subW j.2.subH x y w h) then s.finish k .refused 2 []
        else
          let s1 := s.settleBuckets
          let old := tget s1.tenants t {}
          let full := cap * 1000 * 12288
          let ten : Tenant := { valid := true, x := x, y := y, w := w, h := h, rate := b, cap := cap,
                                level := if old.valid then min old.level full else full, atTick := s.now }
          ({ s1 with tenants := tset s1.tenants t ten }.resourcesFreed).finish k .ok 0 [])
  | _ => .next s

/-! ## FORMAT_RANGE (08 R155, R158) -/

/-- The first line, the number of lines and the scale region of a range. -/
def FmtRange.first (r : FmtRange) : Nat := bits r.base 6 42
def FmtRange.lines (r : FmtRange) : Nat := bits r.lim 6 42 + 1 - bits r.base 6 42
def FmtRange.scale (r : FmtRange) : Nat := bits r.scl 3 45 * 8
def FmtRange.on (r : FmtRange) : Bool := bitAt r.base 63
/-- Two stretches of addresses share one. -/
def stretchesMeet (a n b m : Nat) : Bool := decide (a < b + m ∧ b < a + n)
/-- A range's lines meet another's. -/
def FmtRange.meets (a b : FmtRange) : Bool := stretchesMeet a.first a.lines b.first b.lines
/-- A range's scale region meets another range's lines. -/
def FmtRange.scaleIn (a b : FmtRange) : Bool := stretchesMeet a.scale (8 * a.lines) (64 * b.first) (64 * b.lines)
/-- Two scale regions meet. -/
def FmtRange.scalesMeet (a b : FmtRange) : Bool := stretchesMeet a.scale (8 * a.lines) b.scale (8 * b.lines)

/-- The lowest-numbered reason for which a range is refused (26 R417), among the other ranges in force. One that a command disables is
held to the same conditions but is itself no range in force (08 R155). -/
def FmtRange.refusal (r : FmtRange) (others : List FmtRange) : Option Nat :=
  if bits r.lim 6 42 < r.first then some 3
  else if r.on && others.any r.meets then some 4
  else if others.any (fun o => r.scaleIn o || r.scalesMeet o) || (r.on && (r.scaleIn r || others.any (fun o => o.scaleIn r))) then some 5
  else if hbmEnd < r.scale + 8 * r.lines then some 6
  else none

/-- A line is one of a range. -/
def FmtRange.has (r : FmtRange) (line : Nat) : Bool := decide (64 * r.first ≤ line ∧ line < 64 * (r.first + r.lines))
/-- Homes drop the side bits of a range's lines, and what they were about to write into them (08 R158). -/
def State.dropSide (s : State) (r : FmtRange) : State :=
  let stale := fun (e : Ev) => match e with
    | .metadataUpdate line _ => r.has line
    | _ => false
  if r.on then
    { s with side := s.side.filter (fun e => !r.has e.1), agenda := s.agenda.filter (fun e => !stale e.2) }
  else s

/-- FORMAT_RANGE: a range is set or disabled for a job, and its lines' side bits are dropped before the command completes. -/
def execFormatRange (s : State) : Outcome State Fault Refusal :=
  match s.ev with
  | some (.formatRange k) =>
    .next (s.command k fun s =>
      let jslot := (s.arg k 0).toNat
      let n := (s.arg k 1).toNat
      let base := s.arg k 2
      match badArg [decide (jslot < 64), decide (n < 8), bits base 56 3 == 5] with
      | some i => s.finish k .invalid i []
      | none =>
        match s.jobOfSlot jslot with
        | none => s.finish k .refused 1 []
        | some j =>
          s.afterAbort j (.formatRange k) fun s =>
            let old := tget s.ranges n {}
            let r : FmtRange := { base := base &&& 0x8700FFFFFFFFFFC0, lim := s.arg k 3 &&& 0xFFFFFFFFFFC0,
                                  scl := s.arg k 4 &&& 0xFFFFFFFFFFF8, job := j }
            let others := (s.ranges.filter fun e => e.1 != n && e.2.on).map (·.2)
            if old.on && old.job != j && (s.job old.job).isOpen then s.finish k .refused 2 []
            else match r.refusal others with
              | some c => s.finish k .refused c []
              | none =>
                let s1 : State := { s with ranges := tset s.ranges n r }
                ((s1.dropSide old).dropSide r).finish k .ok 0 [])
  | _ => .next s

/-! ## ACT_SET (15 R269) -/

/-- ACT_SET: one entry of a job queue's access-control table names a module and a tenant, or none. -/
def execActSet (s : State) : Outcome State Fault Refusal :=
  match s.ev with
  | some (.actSet k) =>
    .next (s.command k fun s =>
      let j := (s.arg k 0).toNat
      let n := (s.arg k 1).toNat
      let m := (s.arg k 2).toNat
      let t := (s.arg k 3).toNat
      let v := (s.arg k 4).toNat
      match badArg [decide (j < 65536), decide (n < 32), decide (m < 4096), decide (t < 4096), decide (v < 2)] with
      | some i => s.finish k .invalid i []
      | none =>
        s.afterAbort j (.actSet k) fun s =>
          let job := s.job j
          let act := if v = 1 then tset job.act n (m, t) else tdel job.act n
          (s.setJob j { job with act := act }).finish k .ok 0 [])
  | _ => .next s

/-! ## GROUP_SET and CIRCUIT_CHANGE (22 R355 to R358; 21 R336, R337) -/

/-- The group that a command names: this module's index, the members with their incarnations, and the circuits between ordered
pairs of them, each with the optical engines of this module that carry it. -/
structure GroupArg where
  self : Nat
  members : List (Nat × Nat)
  circuits : List (Nat × Nat × Nat)
  engines : Nat
  deriving DecidableEq, Repr

def State.groupArg (s : State) (k : Nat) : GroupArg :=
  let a := s.arg k 1
  let n := bits a 16 8
  let len := bits (s.mailWord k 0) 24 8
  let ms := (List.range n).map fun i => s.arg k (2 + i)
  let cs := (List.range (len - 2 - n)).map fun i => s.arg k (2 + n + i)
  { self := bits a 0 12, members := ms.map fun w => (bits w 0 12, bits w 16 16)
    circuits := cs.map fun w => (bits w 0 12, bits w 12 12, bits w 24 8)
    engines := cs.foldl (fun e w => if bits w 0 12 = bits a 0 12 then e ||| bits w 32 16 else e) 0 }

/-- The number of circuits from a module to another. -/
def circuitCount (l : List (Nat × Nat × Nat)) (a b : Nat) : Nat :=
  ((l.filter fun c => c.1 == a && c.2.1 == b).map (·.2.2)).foldl (· + ·) 0

/-- A group set that would take a module or a circuit from a ring with memberships: of modules that have announced their parts, until the
announcements are gone, and of a part that is still forming here (21 R337; log 82). -/
def State.breaksRing (s : State) (j : Nat) (g : GroupArg) : Bool :=
  let job := s.job j
  let forming := (s.rings.filter fun r => r.job == j && !r.members.isEmpty).map fun r =>
    ({ job := j, ring := r.ring, k := r.k, pos := r.pos, s := r.s, bsz := r.bsz, modul := job.self } : Announce)
  let rings := distinct ((s.anns.filter fun a => a.job == j).map (·.ring) ++ forming.map (·.ring))
  rings.any fun n =>
    let l := firstAnns s.anns j n ++ forming.filter fun a => a.ring == n
    (l.any fun a => a.modul != job.self && !g.members.any fun m => m.1 == a.modul) ||
    (l.any fun a => l.any fun b => a.modul != b.modul && b.pos == (a.pos + 1) % a.k &&
      decide (circuitCount g.circuits a.modul b.modul < circuitCount job.circuits a.modul b.modul))

/-- Remote traffic of a job on its way: requests of strands, fetches, posted stores, commits with their completion atomics, copies and gathers (22
R357). -/
def State.groupTraffic (s : State) (j : Nat) : Bool :=
  let job := s.job j
  (s.slots.any fun e => e.2.live && (s.gang e.2.gang).job == j &&
    ((e.2.inFlight.map fun f => f.away).getD false || e.2.unacked.any fun u => job.away (BitVec.ofNat 64 u.1))) ||
  decide (0 < job.doneAway) || (s.gangs.any fun g => g.2.job == j && g.2.commit.any fun m => m.1.modul.isSome) ||
  s.cores.any fun c =>
    (c.2.copies.any fun x => x.asking && (s.gang x.gang).job == j) ||
    (c.2.eng.ops.any fun o => (s.gang o.gang).job == j && o.remote.any fun x => x.bytes.isNone) ||
    (s.cluster (clusterOf c.1)).mcast.any fun m => m.job == j && m.reads.any fun x => x.bytes.isNone

/-- GROUP_SET: new remote requests of the job stop, and the change waits for those under way (22 R357 steps 1 to 3). -/
def execGroupSet (s : State) : Outcome State Fault Refusal :=
  match s.ev with
  | some (.groupSet k) =>
    .next (s.command k fun s =>
      let j := (s.arg k 0).toNat
      let g := s.groupArg k
      let ids := g.self :: g.members.map (·.1)
      match badArg [decide (j < 65536), decide (1 ≤ g.self) && g.members.any fun m => m.1 == g.self] with
      | some i => s.finish k .invalid i []
      | none =>
        match (g.members.map (·.1)).findIdx? (fun m => m == 0), g.circuits.findIdx? (fun c => !(ids.contains c.1 && ids.contains c.2.1)) with
        | some i, _ => s.finish k .invalid (2 + i) []
        | none, some i => s.finish k .invalid (2 + g.members.length + i) []
        | none, none =>
          s.afterAbort j (.groupSet k) fun s =>
            if (List.range 16).any (fun e => g.engines.testBit e && !s.ready.getLsbD (22 + e)) then s.finish k .notReady 0 []
            else if s.breaksRing j g then s.finish k .refused 1 []
            else (s.setJob j { s.job j with groupBusy := true }).soon (.circuitChange k))
  | _ => .next s

/-- B in GB/s: 89.6 for each circuit, at the pair of the group that has fewest (21 R336; 22 R360), without its fraction. -/
def groupRate (l : List (Nat × Nat × Nat)) : Nat :=
  let r := (l.map fun c => circuitCount l c.1 c.2.1).filter (· != 0)
  448 * (r.tail.foldl min (r.headD 0)) / 5

/-- CIRCUIT_CHANGE: once the job's remote traffic has drained, circuits, membership and incarnations change, and the command
answers L and B (22 R355, R357 step 4). -/
def execCircuitChange (s : State) : Outcome State Fault Refusal :=
  match s.ev with
  | some (.circuitChange k) =>
    .next (s.command k fun s =>
      let j := (s.arg k 0).toNat
      let g := s.groupArg k
      if s.groupTraffic j then s.schedule (s.now + usTicks) (.circuitChange k)
      else
        let n := s.fresh + 1
        let s1 := s.setJob j { s.job j with group := g.members, circuits := g.circuits, self := g.self, groupBusy := false }
        let s2 : State := { s1 with fresh := n, peers := (s1.peers.filter fun p => p.1.1 != j) ++ g.members.map fun m => ((j, m.1), m.2) }
        s2.retryCommits.finish k .ok 0 [BitVec.ofNat 64 (Config.linkNs n), BitVec.ofNat 64 (groupRate g.circuits)])
  | _ => .next s

/-! ## PARK_POLICY (22 R361) -/

/-- PARK_POLICY: LOW, HIGH and HOLD of a fibre group. The quiet time begins again where LOW changes (log 79). -/
def execParkPolicy (s : State) : Outcome State Fault Refusal :=
  match s.ev with
  | some (.parkPolicy k) =>
    .next (s.command k fun s =>
      let g := (s.arg k 0).toNat
      let low := (s.arg k 1).toNat
      let high := (s.arg k 2).toNat
      let hold := (s.arg k 3).toNat
      match badArg [decide (g < 64), decide (low ≤ 1024), decide (low + 1 ≤ high ∧ high ≤ 4096), decide (1 ≤ hold ∧ hold ≤ 1000)] with
      | some i => s.finish k .invalid i []
      | none =>
        let f := s.fibre g
        let since := if f.low = low then f.quietSince else s.now
        ((s.setFibre g { f with low := low, high := high, hold := hold, quietSince := since }).settleFibre g).finish k .ok 0 [])
  | _ => .next s

/-! ## TRACE_CTL (26 R410, R416) -/

/-- The pages of an area of a job, as a command finds them: wholly mapped with RD and W in this module's HBM (26 R416). -/
def State.areaPages (s : State) (root : Nat) (page : Nat) : Nat → Option (List (Nat × Nat))
  | 0 => some []
  | n + 1 =>
    match walkFrom s.mem (page * 65536) 4 0 root with
    | .error _ => none
    | .ok (leaf, level) =>
      let size := pageSize level
      let pa := bits leaf 8 40 * 256 / size * size + page * 65536 % size
      if bitAt leaf 2 && bitAt leaf 3 && decide (pa + 65536 ≤ hbmEnd) then
        match s.areaPages root (page + 1) n with
        | some r => some ((page, pa) :: r)
        | none => none
      else none
/-- An area of n bytes from a virtual address; one that runs past the address space is not mapped. -/
def State.area (s : State) (root va n : Nat) : Option (List (Nat × Nat)) :=
  if n = 0 then some []
  else if va < 0x200000 ∨ 2 ^ 48 < va + n then none
  else s.areaPages root (va / 65536) ((va + n - 1) / 65536 - va / 65536 + 1)

/-- The stacks that hold an area. -/
def areaStacks (pages : List (Nat × Nat)) (va n : Nat) : List Nat :=
  pages.flatMap fun p => (List.range 16).filterMap fun i =>
    let a := p.1 * 65536 + 4096 * i
    if a < va + n ∧ va < a + 4096 then some (stackOf (p.2 + 4096 * i)) else none

/-- A slot named by x [4:0], y [8:5], z [9] and slot [13:10]. -/
def slotNamed (w : Word) : Nat := coreOf (bits w 0 5) (bits w 5 4) (bits w 9 1) * 16 + bits w 10 4

/-- A stopped slot goes on, as SLOT resume does (23 R375). -/
def State.resumeSlot (s : State) (id : Nat) : State :=
  let v := s.slot id
  if v.stopped then s.setSlot id { v with stopped := false, nextTick := max v.nextTick s.now } else s

/-- TRACE_CTL: a job's trace ring and trap records, its breakpoints, or a stopped slot's resumption. -/
def execTraceCtl (s : State) : Outcome State Fault Refusal :=
  match s.ev with
  | some (.traceCtl k) =>
    .next (s.command k fun s =>
      let j := (s.arg k 0).toNat
      let op := (s.arg k 1).toNat
      let job := s.job j
      let n := (s.arg k 2).toNat
      match badArg [decide (j < 65536) && job.isOpen, decide (op < 4), op != 1 || decide (n ≤ 4)] with
      | some i => s.finish k .invalid i []
      | none =>
        match op with
        | 0 =>
          let entries := (s.arg k 3).toNat
          match s.area job.root n (64 * entries) with
          | none => s.finish k .refused 1 []
          | some pages =>
            let traced := { job with traceBase := n, traceEntries := entries, traceNext := 0, tracePages := pages,
                                     traceTraps := bitAt (s.arg k 4) 0 }
            if (areaStacks pages n (64 * entries)).any (fun h => s.ready.getLsbD (2 + h) = false) then s.finish k .notReady 0 []
            else (s.setJob j traced).finish k .ok 0 []
        | 1 =>
          let l := (List.range n).map fun i => (slotNamed (s.arg k (3 + 2 * i)), s.arg k (4 + 2 * i))
          (s.setJob j { job with breakpoints := l }).finish k .ok 0 []
        | 2 => (s.setJob j { job with breakpoints := [] }).finish k .ok 0 []
        | _ => (s.resumeSlot (slotNamed (s.arg k 2))).finish k .ok 0 [])
  | _ => .next s

/-! ## LOCKSTEP (26 R411) -/

/-- LOCKSTEP: two open DET jobs of one tenant run in lockstep, at an offset that keeps homes. -/
def execLockstep (s : State) : Outcome State Fault Refusal :=
  match s.ev with
  | some (.lockstep k) =>
    .next (s.command k fun s =>
      let a := (s.arg k 0).toNat
      let b := (s.arg k 1).toNat
      let d := (s.arg k 2).toNat
      let ja := s.job a
      let jb := s.job b
      match badArg [ja.isOpen, jb.isOpen && a != b] with
      | some i => s.finish k .invalid i []
      | none =>
        s.afterAbort a (.lockstep k) fun s => s.afterAbort b (.lockstep k) fun s =>
          if !ja.det || !jb.det then s.finish k .refused 1 []
          else if ja.tenant ≠ jb.tenant ∨ ja.subW ≠ jb.subW ∨ ja.subH ≠ jb.subH then s.finish k .refused 2 []
          else if d % 0x20000 ≠ 0 then s.finish k .refused 3 []
          else
            let s1 := s.setJob a { ja with lockstep := some (b, d, true), streams := [] }
            (s1.setJob b { jb with lockstep := some (a, d, false), streams := [] }).finish k .ok 0 [])
  | _ => .next s

end Sys2Proof.Machine
end

