-- ==== Sys2Proof/Machine/Commit.lean ====
section
/-! DEFINITION. COMMIT and HALT (13 R237 to R239; 03 R72), arbitration at a home (16 R276 to R281), CANCEL and its confirmation
(16 R280, R282), and the Weir (16 R283 to R290). -/

namespace Sys2Proof.Machine

open Host

/-! ## At the core (13 R237; 03 R72) -/

/-- The completion counter's address is translated as for an 8-byte ATOM.ADD (13 R237). -/
def State.checkDone (s : State) (k : State → State) : State :=
  let w7 := packetDone s.myGang.packet
  if w7 = 0 then k s
  else match s.translate s.coreId s.myGang.job w7 .rmw with
    | .xlat l => s.trapHere { cause := .xlat, addr := w7, detail := l }
    | .prot | .ownMem _ | .window _ _ => s.trapHere { cause := .prot, addr := w7 }
    | _ => k s

/-- The tile's size as its header gives it, and the checks of the result bytes at x[A]; 0 for a task without a tile (13 R237). -/
def State.checkTile (s : State) (a : Word) (k : Nat → State → State) : State :=
  let w5 := packetTile s.myGang.packet
  if w5 = 0 then k 0 s
  else if w5.toNat % 64 ≠ 0 then s.trapHere { cause := .prot, addr := w5 }
  else s.withLine w5 8 fun h s =>
    let size := tileSize (h.getD 0 0)
    if a.toNat % 64 ≠ 0 then s.trapHere { cause := .align, addr := a }
    else if 0x180000 < a.toNat + size then s.trapHere { cause := .prot, addr := a }
    else k size s

/-- What the gang of the issuing strand sends to its home (13 R237). -/
def State.commitMsg (s : State) (a : Word) (size : Nat) : CommitMsg :=
  let q := s.myGang
  { gang := s.me.gang, job := q.job, task := bits s.me.tid 0 32, copy := bits s.me.tid 32 4, version := s.me.vt.toNat, size := size,
    bytes := memBytes s.mem (localBase s.coreId + a.toNat) size, outbox := q.outbox, cluster := clusterOf (q.cores.headD 0),
    tile := packetTile q.packet, done := packetDone q.packet, hedge := q.flags.getLsbD 0, lp := q.lp,
    rback := q.rback }

/-- COMMIT_OK of an inbox task makes its entry DONE (18 R299). -/
def State.inboxOk (s : State) (q : Gang) : State :=
  match q.lp with
  | some (n, _, _, _) => s.inboxDone q.job n q.task
  | none => s

/-- The gang ends with its outbox released by its core: nothing arbitrates it, which counts as COMMIT_OK (13 R237, R242; 15 R274; 18
R299). -/
def State.finishAlone (s : State) (m : CommitMsg) : State :=
  ((s.inboxOk (s.gang m.gang)).releaseOutbox m (m.cluster % 32)).dropGang m.gang .commitOk false

/-- Flits of a commit: its head, the result bytes and the outbox (22 R350; log 84). -/
def CommitMsg.flits (m : CommitMsg) : Nat := 1 + (m.size + 63) / 64 + m.outbox.length

/-- The commit goes to its arbitrating home, on this module or another; the strand never issues again (13 R237, R238). A commit for
another module first waits here for room in its send log, and for a group set of its job (18 R298; 22 R357; log 94). -/
def State.sendCommit (s : State) (m : CommitMsg) : State :=
  let q := s.gang m.gang
  let sent := fun (x : CommitMsg) => (s.setGang m.gang { q with commit := some (x, s.cur) }).waitFor .commit
  match s.arbPlace s.coreId q.job q.packet with
  | .away r =>
    let x := { m with modul := some (s.job q.job).self }
    if (s.job q.job).noPath r then s.block (.groupFree r)
    else if s.logRoom m then (sent x).send (.commit r x) else s.block (.lwChange (s.lwAt q.job s.coreId))
  | .here h => (sent m).carryBy q.job s.coreId (homeEnd h) m.flits (.commitArrival m)
  | .nowhere => (sent m).schedule s.cycleEnd (.commitArrival m)

/-- A task that no home arbitrates (13 R237). -/
def Gang.alone (q : Gang) : Bool := !q.confined && packetTile q.packet == 0 && packetDone q.packet == 0

/-- The strand waits as HALT does, then commits its gang, unless a strand has received damaged data (13 R237; 25 R398, R399). -/
def State.commitNow (s : State) (a : Word) (size : Nat) : State :=
  s.released fun s =>
    if s.enginesQuiet s.cur = false then s.block .enginesIdle
    else if s.myGang.uncorr then s.trapHere { cause := .uncorrectable }
    else if s.damagedLocal (localBase s.coreId + a.toNat) size then s.localDamage s.cur
    else if s.myGang.alone then s.finishAlone (s.commitMsg a size)
    else s.sendCommit (s.commitMsg a size)

/-- COMMIT (13 R237). -/
def execCommit (a : BitVec 7) (_st : BitVec 2) (s : State) : Outcome State Fault Refusal :=
  .next (s.guarded [a] fun s =>
    s.checkTile (s.rx a) fun size s =>
      s.checkDone fun s =>
        if 1 < s.myGang.running then s.block .lastStrand else s.commitNow (s.rx a) size)

/-- A strand's registers are discarded; its slot stays with the gang as a bubble, and its core may hold no other (03 R72; 16 R288). -/
def State.haltStrand (s0 : State) : State :=
  let s := s0.settleBuckets
  let v := s.me
  (s.setGang v.gang { s.myGang with running := s.myGang.running - 1 }).setMe
    { v with n := 0, x := Vector.replicate 128 0, ox := Vector.replicate 8 0, wait := .cond .never }

/-- HALT: the last strand of a gang commits it without result bytes; any other leaves when its stores and engine work are
complete (03 R72; 10 R199; 13 R237). -/
def State.haltNow (s : State) : State :=
  s.guarded [] fun s =>
    if s.myGang.running ≤ 1 then s.checkDone fun s => s.commitNow 0 0
    else s.released fun s => if s.enginesQuiet s.cur then s.haltStrand else s.block .enginesIdle

/-- HALT (03 R72). -/
def execHalt (_st : BitVec 2) (s : State) : Outcome State Fault Refusal := .next s.haltNow
/-- Short HALT (02 R43). -/
def execHaltShort (s : State) : Outcome State Fault Refusal := .next s.haltNow

/-! ## At the arbitrating home (16 R276 to R281) -/

/-- What a home finds for a commit's version (16 R279). -/
inductive Choice where
  | take (i : Nat)
  | wait
  | full
  deriving DecidableEq, Repr

/-- The buffer a commit takes (16 R279). -/
def State.chooseBuffer (s : State) (pa : Nat) (h : List Word) (lw : Nat) : Choice :=
  let h6 := h.getD 6 0
  let ver := fun (i : Nat) => (h.getD (2 + i) 0).toNat
  let mayBe := fun (i : Nat) => tileState h6 i == 0 || (tileState h6 i == 1 && decide (ver i < lw))
  let read := fun (i : Nat) => s.readers.any fun r => r.header == pa && r.buf == i
  let free := (List.range 4).filter fun i => mayBe i && !read i
  match free.find? fun i => tileState h6 i == 0 with
  | some i => .take i
  | none =>
    match isort (fun a b => decide (ver a ≤ ver b)) free with
    | i :: _ => .take i
    | [] => if (List.range 4).any mayBe then .wait else .full

/-- Bytes that a home writes to HBM: owners of the words lose them (07 R128). -/
def State.homePut (s : State) (pa : Nat) (bs : List Byte) : State :=
  let mine := fun (o : Nat × Nat) => decide (pa < o.1 + 8 ∧ o.1 < pa + bs.length)
  let gone := s.owners.filter mine
  gone.foldl (fun (u : State) o => u.revoke o.2 o.1) ({ s with owners := s.owners.filter fun o => !mine o }.hbmPut pa bs)

/-- The result bytes go into a buffer, page by page through the job's table. -/
def State.writeBuffer (s : State) (core j : Nat) (base : Nat) : Nat → List Byte → State
  | 0, _ => s
  | fuel + 1, bs =>
    if bs = [] then s
    else match s.translate core j (BitVec.ofNat 64 base) .read with
      | .hbm pa _ => (s.homePut pa (bs.take 4096)).writeBuffer core j (base + 4096) fuel (bs.drop 4096)
      | _ => s

/-- The header takes a new visible version; an older buffer of the same version empties, or waits for its readers (16 R279,
R281). -/
def State.writeHeader (s : State) (pa i : Nat) (h : List Word) (m : CommitMsg) : State :=
  let h6 := h.getD 6 0
  let read := fun (k : Nat) => s.readers.any fun r => r.header == pa && r.buf == k
  let state := fun (k : Nat) =>
    if k = i then 1
    else if tileState h6 k = 1 ∧ (h.getD (2 + k) 0).toNat = m.version then (if read k then 3 else 0)
    else tileState h6 k
  let st := (List.range 4).foldl (fun (n : Nat) k => n + state k * 2 ^ (2 * k)) 0
  let commits := (bits h6 32 32 + 1) % 2 ^ 32
  (s.unitWrite (pa + 16 + 8 * i) [BitVec.ofNat 64 m.version]).unitWrite (pa + 48)
    [merge h6 (BitVec.ofNat 64 (commits * 2 ^ 32 + st)) 0xFFFFFFFF000000FF,
     merge (h.getD 7 0) (BitVec.ofNat 64 (m.copy * 2 ^ 32 + m.task)) 0xFFFFFFFFF]

/-- The reply to an atomic that a home sends for a completion counter on another module comes under this number and the job's (13 R238; 22
R357). -/
def doneReply : Nat := 2 ^ 34
/-- 1 is added at the completion counter, as by ATOM.ADD, wherever it lies (13 R238). -/
def State.addDone (s : State) (core j : Nat) (va : Word) : State :=
  if va = 0 then s
  else match s.translate core j va .rmw with
    | .hbm pa t => ((s.tableWritten t j).homePerform (.atom .add) pa 1 0 [] none).2.2
    | .remote r =>
      let job := s.job j
      let q : Request := { op := .atom .add, va := va, data := 1, job := j, tenant := job.tenant, inc := s.incarnation.toNat,
                           origin := .slot (doneReply + j) }
      (s.setJob j { job with doneAway := job.doneAway + 1 }).send (.request r (doneReply + j) q)
    | _ => s
/-- The completion counter of a commit lies on a module to which no request of the job may go now (22 R357). -/
def State.doneCutOff (s : State) (m : CommitMsg) : Bool := m.done != 0 && (s.job m.job).cutOff m.done

/-- A home's answer to a commit, to this module or another (13 R238). -/
def State.answerCommit (s : State) (m : CommitMsg) (h : Nat) (a : Answer) : State :=
  match m.modul with
  | none =>
    let core := ((s.gang m.gang).commit.map fun c => c.2 / 16).getD (clusterCore m.cluster 0)
    s.carry m.job (homeEnd h) core 1 (.commitAnswer m.gang a)
  | some r => s.send (.commitAnswer r m.gang a)

/-- A copy's CANCEL goes to its module (16 R281, R282). -/
def State.sendCancel (s : State) (job task h : Nat) (c : HedgeCopy) : State :=
  if c.modul = (s.job job).self then s.carry job (homeEnd h) c.core 1 (.cancel job task c) else s.send (.cancel c.modul job task c)

/-- A record that has a winner and no other copy is free (16 R280). -/
def State.freeRecords (s : State) : State :=
  { s with hedges := s.hedges.filter fun r => !(r.winner.isSome && r.copies.all fun c => some c.copy == r.winner) }

/-- The winner is recorded, and every other live copy is sent CANCEL (16 R281). -/
def State.recordWinner (s : State) (m : CommitMsg) (h : Nat) : State :=
  let mine := fun (r : HedgeRec) => r.task == m.task && r.job == m.job
  let others := (s.hedges.filter mine).flatMap fun r => r.copies.filter fun c => c.copy != m.copy
  let s1 : State := { s with hedges := s.hedges.map fun (r : HedgeRec) => if mine r then { r with winner := some m.copy } else r }
  (others.foldl (fun (u : State) c => u.sendCancel m.job m.task h c) s1).freeRecords

/-- A core of this module for which a home translates what a commit names. -/
def State.commitCore (s : State) (m : CommitMsg) : Nat :=
  if m.modul.isSome then (s.job m.job).anyCore else clusterCore m.cluster 0
/-- A commit no longer waits at its home; the next to its tile is decided (16 R281). -/
def State.leaveHome (s : State) (m : CommitMsg) : State :=
  let l := dropFirst s.commits m
  let s1 := { s with commits := l }
  match l.find? (fun x => x.sameTile m) with
  | some x => s1.scheduleOnce s.now (.commitArrival x)
  | none => s1

/-- An inbox task that has moved to another module commits here: its entry is DONE (18 R299). -/
def State.inboxDoneFor (s : State) (m : CommitMsg) : State :=
  match m.modul, m.lp with
  | some _, some (n, _, _, _) => (s.inboxDone m.job n m.task).soon (.inboxDispatch m.job n)
  | _, _ => s
/-- The step in which a commit becomes visible (16 R281). -/
def State.commitStep (s : State) (m : CommitMsg) (h : Nat) : State :=
  (((((s.leaveHome m).inboxDoneFor m).releaseOutbox m h).addDone (s.commitCore m) m.job m.done).recordWinner m h).answerCommit m h .commitOk
/-- Any other answer (16 R279, R281). -/
def State.turnAway (s : State) (m : CommitMsg) (h : Nat) (a : Answer) : State := (s.leaveHome m).answerCommit m h a

/-- A commit that names a tile: its header is checked and marked; where it writes a version its size is checked too, and its buffer
chosen and written; one that must wait keeps its place (16 R276, R277, R279; 13 R237; 18 R303). -/
def State.commitTile (s : State) (m : CommitMsg) : State :=
  let core := s.commitCore m
  match s.header core m.job m.tile with
  | .ok pa h =>
    let home := homeOf pa
    let s1 := s.markTile pa m.job
    if m.size ≠ 0 ∧ tileSize (h.getD 0 0) ≠ m.size then s1.turnAway m home .prot
    else if m.lp.isSome ∧ m.rback < tget s1.tileRback pa 0 then s1.turnAway m home .cancelled
    else if m.size = 0 then s1.commitStep m home
    else
      let owner := ((s1.tileMarks.find? fun t => t.1 == pa).map (·.2)).getD m.job
      match s1.chooseBuffer pa h (s1.lwAt owner (1024 + home)) with
      | .full => s1.turnAway m home .versionFull
      | .wait => { s1 with commits := s1.commits.map fun x => if x = m then { m with reader := some pa } else x }
      | .take i =>
        let base := ((h.getD 1 0) &&& ~~~0xFFF).toNat + i * m.size
        ((s1.writeBuffer core m.job base 17 m.bytes).writeHeader pa i h m).commitStep m home
  | _ => s.turnAway m (match s.arbPlace core m.job [0, 0, 0, 0, 0, m.tile, 0, m.done] with
    | .here h => h
    | _ => 0) .prot

/-- The home of a commit that names no tile: its completion counter's; home 0 where it has none (13 R237; log 39). -/
def State.commitHome (s : State) (m : CommitMsg) : Nat :=
  match s.translate (s.commitCore m) m.job m.done .read with
  | .hbm pa _ => homeOf pa
  | _ => 0

/-- The turn of a commit at its home: a task with a winner, or of a version that an abort unwinds, is answered CANCEL; one whose send
log is full, or whose completion counter a group set cuts off, keeps waiting (16 R281; 18 R298, R318; 22 R357). -/
def State.serveCommit (s : State) (m : CommitMsg) : State :=
  let job := s.job m.job
  let won := s.hedges.any fun r => r.task == m.task && r.job == m.job && r.winner.isSome
  let undone := job.abort != .none && job.abort != .first && decide (job.abortA ≤ m.version)
  if won ∨ undone ∨ job.isOpen = false then s.turnAway m (s.commitHome m) .cancelled
  else if (m.modul.isNone ∧ s.logRoom m = false) ∨ s.doneCutOff m then s
  else if m.tile = 0 then s.commitStep m (s.commitHome m)
  else s.commitTile m

/-! ## The mean work of a class (16 R285, R287) -/

/-- A sixteenth of a whole number, rounded to the nearest, a tie going to the even value. -/
def evenSixteenth (n : Nat) : Nat :=
  let q := n / 16
  if n % 16 < 8 ∨ (n % 16 = 8 ∧ q % 2 = 0) then q else q + 1
/-- The mean work of a class of a job in ns-core. -/
def Job.meanWork (j : Job) (c : Nat) : Nat := tget j.weirM c (1000 * (tget j.classes c {}).mw)
/-- The Weir of a job lies on this module (16 R285). -/
def Job.weirHere (j : Job) : Bool := j.firstModule == j.self
/-- The mean after a winner's work x: M + (x − M) / 16. -/
def State.learn (s : State) (j c x : Nat) : State :=
  let job := s.job j
  s.setJob j { job with weirM := tset job.weirM c (evenSixteenth (15 * job.meanWork c + x)) }
/-- A copy of a HEDGE task has been answered COMMIT_OK: its run time by its cores reaches the Weir, wherever it lies. -/
def State.tellWork (s : State) (q : Gang) : State :=
  let c := packetClass q.packet
  let x := (s.stamp - q.deq) * q.cores.length
  if q.flags.getLsbD 0 = false then s
  else if (s.job q.job).weirHere then s.learn q.job c x
  else s.send (.hedge (s.job q.job).firstModule (.mean q.job c x))

/-- The home that arbitrates a commit (13 R237). -/
def State.arbiter (s : State) (m : CommitMsg) : Nat :=
  match s.arbPlace (s.commitCore m) m.job [0, 0, 0, 0, 0, m.tile, 0, m.done] with
  | .here h => h
  | _ => s.commitHome m
/-- A commit to the same home that arrives in the same cycle with a lower copy number goes first (16 R281). -/
def State.beforeCommit (s : State) (m : CommitMsg) (e : Ev) : Bool :=
  match e with
  | .commitArrival x => s.arbiter x == s.arbiter m && decide (x.copy < m.copy) && !s.commits.contains x
  | _ => false

/-- COMMIT_ARRIVAL: at the end of the cycle in which it arrives, a commit takes its place at its home, behind those that wait there, and is
served in its turn; one that waits is decided again (16 R279, R281). The work of a winner of another module reaches the Weir (16 R287). -/
def execCommitArrival (s : State) : Outcome State Fault Refusal :=
  match s.ev with
  | some (.commitArrival m) =>
    let waits := s.commits.contains m
    if !waits && s.now % mcTicks != 0 then .next (s.schedule s.cycleEnd (.commitArrival m))
    else if !waits && s.yields (s.beforeCommit m) then .next (s.soon (.commitArrival m))
    else
      let s1 := if waits then s else { s with commits := s.commits ++ [m] }
      .next (if s1.commits.find? (fun x => x.sameTile m) = some m then s1.serveCommit m else s1)
  | some (.hedge (.mean j c x)) => .next (if (s.job j).weirHere then s.learn j c x else s)
  | _ => .next s

/-! ## The answer (13 R238) -/

/-- COMMIT_ANSWER: the gang ends, with its version and outbox or with nothing; its task runs again after VERSION_FULL, which an
inline child waits out; a refused header traps PROT at the committing instruction (13 R238; 16 R277; 18 R299). A child whose parent a rollback
has undone meanwhile ends unless it has committed (18 R304). -/
def execCommitAnswer (s : State) : Outcome State Fault Refusal :=
  match s.ev with
  | some (.commitAnswer g a) =>
    let q := s.gang g
    match q.commit with
    | none => .next s
    | some (m, id) =>
      match a with
      | .commitOk => .next (((((s.inboxOk q).releaseRest m).tellWork q).dropGang g .commitOk false).confirmEnd q)
      | .cancelled => .next ((s.dropGang g .cancel false).confirmEnd q)
      | .versionFull =>
        if q.undone then .next ((s.dropGang g .rolledBack false).confirmEnd q)
        else if q.inline.isSome then
          let s1 := s.setGang g { q with commit := none }
          .next (s1.setSlot id { s1.slot id with wait := .cond (.lwChange (s1.lwAt q.job (id / 16))) })
        else .next ((s.setGang g { q with outbox := [], commit := none }).requeue g .versionFull q.retries)
      | .prot =>
        if q.undone then .next ((s.dropGang g .rolledBack false).confirmEnd q)
        else
        let s1 := match q.lp with
          | some (n, _, _, _) => s.soon (.inboxDispatch q.job n)
          | none => s
        .next ((s1.setGang g { q with commit := none }).takeTrap id { cause := .prot, origin := 5, addr := m.tile } (s.slot id).pc)
  | _ => .next s

/-! ## CANCEL (16 R282) -/

/-- The gangs on this module that a CANCEL names: the one of the copy's record, or, where none has its number, those of the same job, task and
copy, which have been placed since (16 R282; 15 R258). -/
def State.namedCopies (s : State) (j task : Nat) (c : HedgeCopy) : List (Nat × Gang) :=
  let l := s.gangs.filter fun g => g.2.job == j && g.2.task == task && g.2.copy == c.copy
  if l.any (fun g => g.1 == c.gang) then l.filter (fun g => g.1 == c.gang) else l

/-- A CANCEL finds its gang at the core it was sent to, or follows it by a forwarding entry there (23 R373). -/
def State.follows (s : State) (c : HedgeCopy) (g : Nat × Gang) : Bool :=
  c.gang != g.1 || g.2.cores.contains c.core || (s.fwdTo c.core [g.1]).isSome

/-- A CANCEL for a copy that a migration has taken to another module goes there by a forwarding entry of its source core, while one is
valid (16 R282; 23 R373). -/
def State.forwardCancel (s : State) (j task : Nat) (c : HedgeCopy) : State :=
  let mine := fun (a : Nat × Nat × Nat × Nat × Nat) =>
    a.1 == j && a.2.1 == task && a.2.2.1 == c.copy && (c.gang == 0 || a.2.2.2.1 == c.gang)
  (s.awayTasks.filter mine).foldl (fun (u : State) a =>
    match u.fwdTo a.2.2.2.2 [a.2.2.2.1] with
    | some f => if bits f.f0 44 12 = 0 then u else u.send (.cancel (bits f.f0 44 12) j task c)
    | none => u.stray) s

/-- CANCEL: a queued copy leaves its Cistern; a running or suspended one, and one in a context that waits for room here, is dropped; one whose COMMIT was sent awaits its answer; a
forwarding entry passes it on (16 R282). A rollback on another module cancels the released children that are here (18 R304). -/
def execCancel (s : State) : Outcome State Fault Refusal :=
  match s.ev with
  | some (.cancel j task c) =>
    let s := s.dropArriving (fun q => q.job == j && q.task == task && q.copy == c.copy) .cancel
    let l := s.namedCopies j task c
    let s1 := (l.filter fun g => g.2.commit.isNone).foldl (fun (u : State) g =>
      if u.follows c g then (u.dropGang g.1 .cancel false).confirmEnd g.2 else u.stray) s
    .next ((s1.discardEntries .cancel fun e => e.job == j && e.task == task && e.copy == c.copy && !e.isTicket).forwardCancel j task c)
  | some (.hedge (.children j n key)) => .next (s.cancelHere j n key)
  | _ => .next s

/-- DROP_CONFIRMATION: a copy's gang has ended; the record is freed once only its winner is left (16 R280). -/
def execDropConfirmation (s : State) : Outcome State Fault Refusal :=
  match s.ev with
  | some (.dropConfirmation j task copy) =>
    let s1 : State := { s with hedges := s.hedges.map fun (r : HedgeRec) =>
      if r.task = task ∧ r.job = j then { r with copies := r.copies.filter fun c => c.copy != copy || some c.copy == r.winner } else r }
    .next s1.freeRecords
  | _ => .next s

/-! ## The Weir (16 R285 to R290) -/

/-- The task id and copy number of a copy in what its strands report: those that tid of its first strand holds (23 R368). -/
def State.reportedAs (s : State) (g : Nat) : Nat × Nat :=
  match (s.slotsOf g).find? fun i => (s.slot i).gang == g && (s.slot i).index == 0 with
  | some i => (bits (s.slot i).tid 0 32, bits (s.slot i).tid 32 4)
  | none => ((s.gang g).task, (s.gang g).copy)

/-- CHECKPOINT: a running copy of a HEDGE task reports its work to the Weir, with the module of its task's record, and its next checkpoint
is set (16 R285). -/
def execCheckpoint (s : State) : Outcome State Fault Refusal :=
  match s.ev with
  | some (.checkpoint g k) =>
    let q := s.gang g
    let job := s.job q.job
    if !(s.gangs.any fun e => e.1 == g) || q.flags.getLsbD 0 == false then .next s
    else
      let c := packetClass q.packet
      let home := match s.arbPlace (q.cores.headD 0) q.job q.packet with
        | .away m => m
        | _ => job.self
      let s1 := s.setGang g { q with check := k }
      let n := s.reportedAs g
      let s2 := if job.weirHere then s1.schedule s1.cycleEnd (.weirReport q.job c k q.work n.1 n.2 home)
        else s1.send (.weir q.job c k q.work n.1 n.2 home)
      .next (s2.schedule (s2.checkTick q (k + 1)) (.checkpoint g (k + 1)))
  | _ => .next s

/-- The cores of a live copy on a module, as its record and header give them. -/
def State.copyCores (s : State) (r : HedgeRec) (c : HedgeCopy) : List Nat :=
  if c.gang = 0 then [c.core]
  else if c.modul = (s.job r.job).self then (s.gang c.gang).cores
  else ({ hdr := r.hdr, x0 := coreX c.core, y0 := coreY c.core, z0 := coreZ c.core } : Gang).placed

/-- A core of a module on which a backup may run (16 R289). -/
def State.backupCore (s : State) (r : HedgeRec) (modul c : Nat) : Bool :=
  let live := (r.copies.filter fun x => x.modul == modul).flatMap (s.copyCores r)
  s.inJob r.job c && (s.job r.job).classOk (packetClass r.packet) c &&
    !(live.any fun d => (frondOf d == frondOf c && coreZ d == coreZ c) || twinOf d == c)

/-- The Weir's choice of a module and a cluster, with all cores of the module that it allows: the other frond of the slow copy's module, then other modules, then the
other layer of its frond; within each, the clusters in the order of rings from the slow copy (16 R289; log 94). -/
def State.backupTarget (s : State) (r : HedgeRec) (slowModul slow : Nat) : Option (Nat × Nat × List Nat) :=
  let job := s.job r.job
  let near := clusterRings (clusterOf slow)
  let pick := fun (m : Nat) (p : Nat → Bool) =>
    let l := (List.range 1024).filter (s.backupCore r m)
    (near.find? fun cl => l.any fun c => clusterOf c == cl && p c).map fun cl => (m, cl, l)
  let others := isort (fun a b => decide (a ≤ b)) ((distinct (job.self :: job.group.map (·.1))).filter (· != slowModul))
  let first := pick slowModul fun c => frondOf c != frondOf slow
  let last := pick slowModul fun c => frondOf c == frondOf slow && coreZ c != coreZ slow
  ((first :: others.map fun m => pick m fun _ => true) ++ [last]).findSome? id

/-- The charge of a backup in ns-core (16 R288). -/
def Job.charge (j : Job) (c k g : Nat) : Nat :=
  let t := (tget j.classes c {}).tck * 1000 * g
  max t (j.meanWork c - k * t)

/-- What a home does when the Weir asks it to add a copy to a task's record: it refuses one that has a winner or no room, or of which copies 1 and 2
have been made (16 R288 step 4, R290). Until it is placed, the backup counts as holding the first root-layer core of its cluster (DESIGN CHOICE,
log 105: 16 R289 gives a queued copy no die). -/
def State.addBackup (s : State) (b : Backup) : Option (Backup × State) :=
  match s.hedges.find? (fun r => r.task == b.task && r.job == b.job) with
  | none => none
  | some r =>
    if r.winner.isSome ∨ 2 < r.next ∨ (s.job b.job).maxc ≤ r.copies.length then none
    else
      let c : HedgeCopy := { copy := r.next, modul := b.modul, core := clusterCore b.cluster 0, gang := 0 }
      some ({ b with copy := r.next }, { s with hedges := s.hedges.map fun (x : HedgeRec) =>
        if x = r then { x with next := r.next + 1, copies := x.copies ++ [c] } else x })

/-- A backup enters the Cistern of its cluster, its hint set to the cluster's positions (16 R290). -/
def State.enterBackup (s : State) (b : Backup) : State :=
  let w6 := merge (b.packet.getD 6 0)
    (BitVec.ofNat 64 (2 ^ 46 + 1 * 2 ^ 42 + 1 * 2 ^ 37 + b.cluster / 16 * 2 * 2 ^ 33 + b.cluster % 16 * 2 * 2 ^ 28)) 0x7FFFF0000000
  s.enqueue b.cluster
    { packet := b.packet.set 6 w6, hdr := b.hdr, job := b.job, task := b.task, copy := b.copy, flags := b.flags,
      prio := packetPrio b.packet, enq := s.stamp, since := s.now, only := some b.only, bind := b.bind, parent := b.parent,
      core := clusterCore b.cluster 0, row := 1 }

/-- The charge leaves the bucket, and the backup is enqueued on its module (16 R288 step 5, R290). -/
def State.startBackup (s0 : State) (b : Backup) : State :=
  let s := s0.settleBuckets
  let job := s.job b.job
  let tn := tget s.tenants job.tenant {}
  let s1 := { s with tenants := tset s.tenants job.tenant { tn with level := tn.level - b.charge * 12288 } }
  if b.modul = job.self then s1.enterBackup b else s1.send (.hedge b.modul (.backup b))

/-- A backup attempt of the Weir for a record that its home holds: charge, place, the home's consent, and the new copy's entry (16 R288 to
R290). -/
def State.tryBackup (s0 : State) (home : Nat) (r : HedgeRec) (k slowModul slow : Nat) : State :=
  let s := s0.settleBuckets
  let job := s.job r.job
  let charge := job.charge (packetClass r.packet) k (hdrW r.hdr * hdrH r.hdr * hdrLayers r.hdr)
  if (tget s.tenants job.tenant {}).level / 12288 < charge then s
  else match s.backupTarget r slowModul slow with
    | none => s
    | some (m, cl, only) =>
      let b : Backup := { job := r.job, task := r.task, copy := r.next, packet := r.packet, hdr := r.hdr, flags := r.flags, bind := r.bind,
                          parent := r.parent, charge := charge, slowModul := slowModul, slow := slow, modul := m, cluster := cl, only := only }
      if home = job.self then
        match s.addBackup b with
        | some (x, u) => u.startBackup x
        | none => s
      else s.send (.hedge home (.add job.self b))

/-- A record in which a slow copy may get a backup, with the copy's module and core (16 R286). -/
def State.slowCopy (s : State) (j task copy : Nat) : Option (HedgeRec × Nat × Nat) :=
  match s.hedges.find? (fun r => r.task == task && r.job == j) with
  | none => none
  | some r =>
    if r.winner.isSome ∨ 2 < r.next ∨ (s.job j).maxc ≤ r.copies.length then none
    else (r.copies.find? fun x => x.copy == copy).map fun x => (r, x.modul, x.core)

/-- A report that the Weir takes first: of one cycle, that of the lower task, then of the lower copy (16 R285). -/
def beforeReport (j task copy : Nat) (e : Ev) : Bool :=
  match e with
  | .weirReport i _ _ _ t x _ => i == j && (decide (t < task) || (t == task && decide (x < copy)))
  | _ => false

/-- The estimate of a class moves by a report (16 R286). -/
def State.moveEstimate (s : State) (j c k work : Nat) : State :=
  let job := s.job j
  let p := tget job.classes c {}
  let key := c * 64 + (min k 64 - 1)
  let qb := tget job.weirQ key 0
  let up := 2 ^ (p.d - p.m)
  s.setJob j { job with weirQ := tset job.weirQ key (if work < qb then qb - (2 ^ p.d - up) else min (2 ^ 64 - 1) (qb + up)) }

/-- What the Weir and the homes of other modules say of a task's copies (16 R288 to R290; log 94). -/
def State.hearHedge (s : State) (m : HedgeMsg) : State :=
  match m with
  | .ask modul j k task copy =>
    match s.slowCopy j task copy with
    | some (r, sm, sc) => s.send (.hedge modul (.offer (s.job j).self k sm sc r))
    | none => s
  | .offer home k sm sc r => s.tryBackup home r k sm sc
  | .add modul b =>
    match s.addBackup b with
    | some (x, u) => u.send (.hedge modul (.consent x))
    | none => s
  | .consent b => s.startBackup b
  | .backup b => s.enterBackup b
  | .record _ | .moved .. | .mean .. | .children .. => s

/-- WEIR_REPORT: the estimate moves, and a copy behind its class may get a backup (16 R286). -/
def execWeirReport (s : State) : Outcome State Fault Refusal :=
  match s.ev with
  | some (.weirReport j c k work task copy home) =>
    if s.yields (beforeReport j task copy) then .next (s.soon (.weirReport j c k work task copy home))
    else
      let job := s.job j
      let s1 := s.moveEstimate j c k work
      if decide (work < tget job.weirQ (c * 64 + (min k 64 - 1)) 0) && decide ((tget job.classes c {}).kmin ≤ k) then
        if home = job.self then
          match s1.slowCopy j task copy with
          | some (r, sm, sc) => .next (s1.tryBackup home r k sm sc)
          | none => .next s1
        else .next (s1.send (.hedge home (.ask job.self j k task copy)))
      else .next s1
  | some (.hedge m) => .next (s.hearHedge m)
  | _ => .next s

end Sys2Proof.Machine
end

