-- ==== Sys2Proof/Machine/Control.lean ====
section
/-! DEFINITION. Branches, jumps and calls (03 R62 to R66), NOP and the hint region (03 R74, 01 R27). -/

namespace Sys2Proof.Machine

open Host

/-- A conditional branch that uses the registers `regs` (03 R62). -/
def State.branch (s : State) (regs : List (BitVec 7)) (o : BitVec 9) (st : BitVec 2) (taken : State → Bool) : State :=
  s.guarded regs fun s => if taken s then s.retireTo (s.target o) st else s.retire 4 st

/-- BZ (03 R62). -/
def execBz (a : BitVec 7) (o : BitVec 9) (st : BitVec 2) (s : State) : Outcome State Fault Refusal :=
  .next (s.branch [a] o st fun s => s.rx a == 0)

/-- BNZ (03 R62). -/
def execBnz (a : BitVec 7) (o : BitVec 9) (st : BitVec 2) (s : State) : Outcome State Fault Refusal :=
  .next (s.branch [a] o st fun s => s.rx a != 0)

/-- BLTZ (03 R62). -/
def execBltz (a : BitVec 7) (o : BitVec 9) (st : BitVec 2) (s : State) : Outcome State Fault Refusal :=
  .next (s.branch [a] o st fun s => (s.rx a).msb)

/-- BGEZ (03 R62). -/
def execBgez (a : BitVec 7) (o : BitVec 9) (st : BitVec 2) (s : State) : Outcome State Fault Refusal :=
  .next (s.branch [a] o st fun s => !(s.rx a).msb)

/-- DBNZ: the counter falls by one and the branch is taken when it is not 0 (03 R63). -/
def execDbnz (a : BitVec 7) (o : BitVec 9) (st : BitVec 2) (s : State) : Outcome State Fault Refusal :=
  .next (s.guarded [a] fun s =>
    let v := s.rx a - 1
    let s1 := s.land a v latInt st
    if v != 0 then s1.retireTo (s.target o) st else s1.retire 4 st)

/-- BEQ (03 R62). -/
def execBeq (a b : BitVec 7) (o : BitVec 9) (st : BitVec 2) (s : State) : Outcome State Fault Refusal :=
  .next (s.branch [a, b] o st fun s => s.rx a == s.rx b)

/-- BNE (03 R62). -/
def execBne (a b : BitVec 7) (o : BitVec 9) (st : BitVec 2) (s : State) : Outcome State Fault Refusal :=
  .next (s.branch [a, b] o st fun s => s.rx a != s.rx b)

/-- BLT (03 R62). -/
def execBlt (a b : BitVec 7) (o : BitVec 9) (st : BitVec 2) (s : State) : Outcome State Fault Refusal :=
  .next (s.branch [a, b] o st fun s => (s.rx a).slt (s.rx b))

/-- BLTU (03 R62). -/
def execBltu (a b : BitVec 7) (o : BitVec 9) (st : BitVec 2) (s : State) : Outcome State Fault Refusal :=
  .next (s.branch [a, b] o st fun s => (s.rx a).ult (s.rx b))

/-- J (03 R65). -/
def execJ (o : BitVec 23) (st : BitVec 2) (s : State) : Outcome State Fault Refusal :=
  .next (s.guarded [] fun s => s.retireTo (s.target o) st)

/-- CALL: lr takes the address of the next word (03 R65). -/
def execCall (o : BitVec 23) (st : BitVec 2) (s : State) : Outcome State Fault Refusal :=
  .next (s.guarded [] fun s =>
    (s.setMe { s.me with lr := s.me.pc + 4 }).retireTo (s.target o) st)

/-- A target taken from a register: bit 0 is ignored (03 R64). -/
def evenPc (w : Word) : Word := w &&& ~~~1

/-- RET (03 R66). -/
def execRet (st : BitVec 2) (s : State) : Outcome State Fault Refusal :=
  .next (s.guarded [] fun s => s.retireTo (evenPc s.me.lr) st)

/-- JR (03 R66). -/
def execJr (a : BitVec 7) (st : BitVec 2) (s : State) : Outcome State Fault Refusal :=
  .next (s.guarded [a] fun s => s.retireTo (evenPc (s.rx a)) st)

/-- JALR: the target is read before x[D] is written (03 R66). -/
def execJalr (d a : BitVec 7) (st : BitVec 2) (s : State) : Outcome State Fault Refusal :=
  .next (s.guarded [d, a] fun s => (s.land d (s.me.pc + 4) latInt st).retireTo (evenPc (s.rx a)) st)

/-- NOP: no effect other than its ST field (03 R74). -/
def execNop (st : BitVec 2) (s : State) : Outcome State Fault Refusal := .next (s.retire 4 st)

/-- An unallocated hint: a no-op that honours ST and never traps because of its fields (01 R27, 02 R41). -/
def execHint (_f : BitVec 2) (_r : BitVec 21) (_maj : BitVec 1) (st : BitVec 2) (s : State) : Outcome State Fault Refusal :=
  .next (s.retire 4 st)

/-! ## Short words (02 R43): the long form's effect, two bytes long, stall count 0 -/

/-- Short MOV (02 R43). -/
def execMovShort (d a : BitVec 4) (s : State) : Outcome State Fault Refusal :=
  .next (s.aluShort d a fun _ y => y)

/-- Short ADD (02 R43). -/
def execAddShort (d a : BitVec 4) (s : State) : Outcome State Fault Refusal :=
  .next (s.aluShort d a fun x y => x + y)

/-- Short SUB (02 R43). -/
def execSubShort (d a : BitVec 4) (s : State) : Outcome State Fault Refusal :=
  .next (s.aluShort d a fun x y => x - y)

/-- Short AND (02 R43). -/
def execAndShort (d a : BitVec 4) (s : State) : Outcome State Fault Refusal :=
  .next (s.aluShort d a fun x y => x &&& y)

/-- Short OR (02 R43). -/
def execOrShort (d a : BitVec 4) (s : State) : Outcome State Fault Refusal :=
  .next (s.aluShort d a fun x y => x ||| y)

/-- Short XOR (02 R43). -/
def execXorShort (d a : BitVec 4) (s : State) : Outcome State Fault Refusal :=
  .next (s.aluShort d a fun x y => x ^^^ y)

/-- Short SHLI (02 R43). -/
def execShliShort (d a : BitVec 4) (n : BitVec 3) (s : State) : Outcome State Fault Refusal :=
  .next (s.aluShort d a fun _ x => x <<< n.toNat)

/-- Short SHRI (02 R43). -/
def execShriShort (d a : BitVec 4) (n : BitVec 3) (s : State) : Outcome State Fault Refusal :=
  .next (s.aluShort d a fun _ x => x >>> n.toNat)

/-- Short ADDI: sext(f3) (02 R43). -/
def execAddiShort (d a : BitVec 4) (i : BitVec 3) (s : State) : Outcome State Fault Refusal :=
  .next (s.aluShort d a fun _ x => x + imm i)

/-- Short LI: sext(f3 ‖ A, 7) (02 R43). -/
def execLiShort (d : BitVec 4) (i : BitVec 7) (s : State) : Outcome State Fault Refusal :=
  .next (s.alu 2 latInt [short d] (short d) 0 fun _ => imm i)

/-- Short NOP (02 R43). -/
def execNopShort (s : State) : Outcome State Fault Refusal := .next (s.retire 2 0)

/-- Short RET (02 R43). -/
def execRetShort (s : State) : Outcome State Fault Refusal :=
  .next (s.guarded [] fun s => s.retireTo (evenPc s.me.lr) 0)

/-- Short JR (02 R43). -/
def execJrShort (a : BitVec 4) (s : State) : Outcome State Fault Refusal :=
  .next (s.guarded [short a] fun s => s.retireTo (evenPc (s.rx (short a))) 0)

end Sys2Proof.Machine
end

