-- ==== Sys2Proof/Machine/Float.lean ====
section
/-! DEFINITION. Scalar floating-point instructions (09 R165 to R173). -/

namespace Sys2Proof.Machine

open Host

/-- An operand's bits in a format: the low bits of a general register (09 R165). -/
def Fmt.bitsOf (f : Fmt) (w : Word) : Nat := w.toNat % 2 ^ f.width
/-- An operand's value (09 R165). -/
def Fmt.ofWord (f : Fmt) (w : Word) : Fv := f.decode (f.bitsOf w)

/-- A scalar operation on x[A] and x[B] (09 R167). -/
def State.fp3 (s : State) (f : Fmt) (lat : Nat) (d a b : BitVec 7) (st : BitVec 2)
    (op : Rm → Fv → Fv → Nat × BitVec 5) : State :=
  s.guarded [d, a, b] fun s => s.landFp d (op s.me.rm (f.ofWord (s.rx a)) (f.ofWord (s.rx b))) lat 4 st

/-- A result of class INT that may raise flags (09 R168, R169). -/
def State.fpBits (s : State) (regs : List (BitVec 7)) (d : BitVec 7) (st : BitVec 2) (r : State → Nat × BitVec 5) : State :=
  s.guarded regs fun s => s.landFp d (r s) latInt 4 st

/-! ## F32 -/

/-- FADD.F32 (09 R167). -/
def execFaddF32 (d a b : BitVec 7) (st : BitVec 2) (s : State) : Outcome State Fault Refusal :=
  .next (s.fp3 fp32 latFp d a b st fun rm x y => fp32.add rm x y)

/-- FSUB.F32 (09 R167). -/
def execFsubF32 (d a b : BitVec 7) (st : BitVec 2) (s : State) : Outcome State Fault Refusal :=
  .next (s.fp3 fp32 latFp d a b st fun rm x y => fp32.add rm x y.negate)

/-- FMUL.F32 (09 R167). -/
def execFmulF32 (d a b : BitVec 7) (st : BitVec 2) (s : State) : Outcome State Fault Refusal :=
  .next (s.fp3 fp32 latFp d a b st fun rm x y => fp32.mul rm x y)

/-- FDIV.F32 (09 R167). -/
def execFdivF32 (d a b : BitVec 7) (st : BitVec 2) (s : State) : Outcome State Fault Refusal :=
  .next (s.fp3 fp32 latFdiv d a b st fun rm x y => fp32.div rm x y)

/-- FMIN.F32 (09 R168). -/
def execFminF32 (d a b : BitVec 7) (st : BitVec 2) (s : State) : Outcome State Fault Refusal :=
  .next (s.guarded [d, a, b] fun s =>
    s.landFp d (fp32.minMax false (fp32.bitsOf (s.rx a)) (fp32.bitsOf (s.rx b))) latFp 4 st)

/-- FMAX.F32 (09 R168). -/
def execFmaxF32 (d a b : BitVec 7) (st : BitVec 2) (s : State) : Outcome State Fault Refusal :=
  .next (s.guarded [d, a, b] fun s =>
    s.landFp d (fp32.minMax true (fp32.bitsOf (s.rx a)) (fp32.bitsOf (s.rx b))) latFp 4 st)

/-- FFMA.F32: the addend is x[D] as read before the write (09 R167). -/
def execFfmaF32 (d a b : BitVec 7) (st : BitVec 2) (s : State) : Outcome State Fault Refusal :=
  .next (s.guarded [d, a, b] fun s =>
    s.landFp d (fp32.fma s.me.rm (fp32.ofWord (s.rx a)) (fp32.ofWord (s.rx b)) (fp32.ofWord (s.rx d))) latFp 4 st)

/-- FSQRT.F32 (09 R168). -/
def execFsqrtF32 (d a : BitVec 7) (st : BitVec 2) (s : State) : Outcome State Fault Refusal :=
  .next (s.guarded [d, a] fun s => s.landFp d (fp32.sqrt s.me.rm (fp32.ofWord (s.rx a))) latFdiv 4 st)

/-- FABS.F32: the sign bit is cleared (09 R168). -/
def execFabsF32 (d a : BitVec 7) (st : BitVec 2) (s : State) : Outcome State Fault Refusal :=
  .next (s.alu2 latInt d a st fun x => BitVec.ofNat 64 (fp32.bitsOf x % 2 ^ 31))

/-- FNEG.F32: the sign bit is inverted (09 R168). -/
def execFnegF32 (d a : BitVec 7) (st : BitVec 2) (s : State) : Outcome State Fault Refusal :=
  .next (s.alu2 latInt d a st fun x => BitVec.ofNat 64 (fp32.bitsOf (x ^^^ BitVec.ofNat 64 (2 ^ 31))))

/-- FCLASS.F32 (09 R170). -/
def execFclassF32 (d a : BitVec 7) (st : BitVec 2) (s : State) : Outcome State Fault Refusal :=
  .next (s.alu2 latInt d a st fun x => BitVec.ofNat 64 (fp32.classify (fp32.bitsOf x)))

/-- FCMP.EQ.F32 (09 R169). -/
def execFcmpEqF32 (d a b : BitVec 7) (st : BitVec 2) (s : State) : Outcome State Fault Refusal :=
  .next (s.fpBits [d, a, b] d st fun s =>
    let r := fpCompare 0 (fp32.ofWord (s.rx a)) (fp32.ofWord (s.rx b))
    (if r.1 then 1 else 0, r.2))

/-- FCMP.LT.F32 (09 R169). -/
def execFcmpLtF32 (d a b : BitVec 7) (st : BitVec 2) (s : State) : Outcome State Fault Refusal :=
  .next (s.fpBits [d, a, b] d st fun s =>
    let r := fpCompare 1 (fp32.ofWord (s.rx a)) (fp32.ofWord (s.rx b))
    (if r.1 then 1 else 0, r.2))

/-- FCMP.LE.F32 (09 R169). -/
def execFcmpLeF32 (d a b : BitVec 7) (st : BitVec 2) (s : State) : Outcome State Fault Refusal :=
  .next (s.fpBits [d, a, b] d st fun s =>
    let r := fpCompare 2 (fp32.ofWord (s.rx a)) (fp32.ofWord (s.rx b))
    (if r.1 then 1 else 0, r.2))

/-- FCMP.UN.F32 (09 R169). -/
def execFcmpUnF32 (d a b : BitVec 7) (st : BitVec 2) (s : State) : Outcome State Fault Refusal :=
  .next (s.fpBits [d, a, b] d st fun s =>
    let r := fpCompare 3 (fp32.ofWord (s.rx a)) (fp32.ofWord (s.rx b))
    (if r.1 then 1 else 0, r.2))

/-! ## F64 -/

/-- FADD.F64 (09 R167). -/
def execFaddF64 (d a b : BitVec 7) (st : BitVec 2) (s : State) : Outcome State Fault Refusal :=
  .next (s.fp3 fp64 latFp64 d a b st fun rm x y => fp64.add rm x y)

/-- FSUB.F64 (09 R167). -/
def execFsubF64 (d a b : BitVec 7) (st : BitVec 2) (s : State) : Outcome State Fault Refusal :=
  .next (s.fp3 fp64 latFp64 d a b st fun rm x y => fp64.add rm x y.negate)

/-- FMUL.F64 (09 R167). -/
def execFmulF64 (d a b : BitVec 7) (st : BitVec 2) (s : State) : Outcome State Fault Refusal :=
  .next (s.fp3 fp64 latFp64 d a b st fun rm x y => fp64.mul rm x y)

/-- FDIV.F64 (09 R167). -/
def execFdivF64 (d a b : BitVec 7) (st : BitVec 2) (s : State) : Outcome State Fault Refusal :=
  .next (s.fp3 fp64 latFdiv64 d a b st fun rm x y => fp64.div rm x y)

/-- FMIN.F64 (09 R168). -/
def execFminF64 (d a b : BitVec 7) (st : BitVec 2) (s : State) : Outcome State Fault Refusal :=
  .next (s.guarded [d, a, b] fun s =>
    s.landFp d (fp64.minMax false (fp64.bitsOf (s.rx a)) (fp64.bitsOf (s.rx b))) latFp64 4 st)

/-- FMAX.F64 (09 R168). -/
def execFmaxF64 (d a b : BitVec 7) (st : BitVec 2) (s : State) : Outcome State Fault Refusal :=
  .next (s.guarded [d, a, b] fun s =>
    s.landFp d (fp64.minMax true (fp64.bitsOf (s.rx a)) (fp64.bitsOf (s.rx b))) latFp64 4 st)

/-- FFMA.F64: the addend is x[D] as read before the write (09 R167). -/
def execFfmaF64 (d a b : BitVec 7) (st : BitVec 2) (s : State) : Outcome State Fault Refusal :=
  .next (s.guarded [d, a, b] fun s =>
    s.landFp d (fp64.fma s.me.rm (fp64.ofWord (s.rx a)) (fp64.ofWord (s.rx b)) (fp64.ofWord (s.rx d))) latFp64 4 st)

/-- FSQRT.F64 (09 R168). -/
def execFsqrtF64 (d a : BitVec 7) (st : BitVec 2) (s : State) : Outcome State Fault Refusal :=
  .next (s.guarded [d, a] fun s => s.landFp d (fp64.sqrt s.me.rm (fp64.ofWord (s.rx a))) latFdiv64 4 st)

/-- FABS.F64: the sign bit is cleared (09 R168). -/
def execFabsF64 (d a : BitVec 7) (st : BitVec 2) (s : State) : Outcome State Fault Refusal :=
  .next (s.alu2 latInt d a st fun x => BitVec.ofNat 64 (fp64.bitsOf x % 2 ^ 63))

/-- FNEG.F64: the sign bit is inverted (09 R168). -/
def execFnegF64 (d a : BitVec 7) (st : BitVec 2) (s : State) : Outcome State Fault Refusal :=
  .next (s.alu2 latInt d a st fun x => BitVec.ofNat 64 (fp64.bitsOf (x ^^^ BitVec.ofNat 64 (2 ^ 63))))

/-- FCLASS.F64 (09 R170). -/
def execFclassF64 (d a : BitVec 7) (st : BitVec 2) (s : State) : Outcome State Fault Refusal :=
  .next (s.alu2 latInt d a st fun x => BitVec.ofNat 64 (fp64.classify (fp64.bitsOf x)))

/-- FCMP.EQ.F64 (09 R169). -/
def execFcmpEqF64 (d a b : BitVec 7) (st : BitVec 2) (s : State) : Outcome State Fault Refusal :=
  .next (s.fpBits [d, a, b] d st fun s =>
    let r := fpCompare 0 (fp64.ofWord (s.rx a)) (fp64.ofWord (s.rx b))
    (if r.1 then 1 else 0, r.2))

/-- FCMP.LT.F64 (09 R169). -/
def execFcmpLtF64 (d a b : BitVec 7) (st : BitVec 2) (s : State) : Outcome State Fault Refusal :=
  .next (s.fpBits [d, a, b] d st fun s =>
    let r := fpCompare 1 (fp64.ofWord (s.rx a)) (fp64.ofWord (s.rx b))
    (if r.1 then 1 else 0, r.2))

/-- FCMP.LE.F64 (09 R169). -/
def execFcmpLeF64 (d a b : BitVec 7) (st : BitVec 2) (s : State) : Outcome State Fault Refusal :=
  .next (s.fpBits [d, a, b] d st fun s =>
    let r := fpCompare 2 (fp64.ofWord (s.rx a)) (fp64.ofWord (s.rx b))
    (if r.1 then 1 else 0, r.2))

/-- FCMP.UN.F64 (09 R169). -/
def execFcmpUnF64 (d a b : BitVec 7) (st : BitVec 2) (s : State) : Outcome State Fault Refusal :=
  .next (s.fpBits [d, a, b] d st fun s =>
    let r := fpCompare 3 (fp64.ofWord (s.rx a)) (fp64.ofWord (s.rx b))
    (if r.1 then 1 else 0, r.2))

/-! ## Conversions -/

/-- FCVT: destination code t, source code v; a code of 5 to 7, or equal codes, is ILLEGAL by decoding (02 R38; 09 R171). -/
def execFcvt (d a : BitVec 7) (q : BitVec 1) (t v : BitVec 3) (st : BitVec 2) (s : State) : Outcome State Fault Refusal :=
  match fmtOf t.toNat, fmtOf v.toNat with
  | some dst, some src =>
    if t = v then .next (s.trapHere { cause := .illegal })
    else .next (s.guarded [d, a] fun s =>
      s.landFp d (fpConvert src dst s.me.rm (q == 1) (src.bitsOf (s.rx a)))
        (if t = 0 ∨ v = 0 then latFp64 else latFp) 4 st)
  | _, _ => .next (s.trapHere { cause := .illegal })

/-- The integer operand of ICVT: signed or unsigned, 64 or 32 bits (09 R172). -/
def icvtIn (unsigned narrow : Bool) (w : Word) : Int :=
  match unsigned, narrow with
  | false, false => w.toInt
  | true, false => w.toNat
  | false, true => (sextN w 32).toInt
  | true, true => (w.toNat % 2 ^ 32 : Nat)

/-- The least and greatest integer of ICVT's target (08 R154). -/
def icvtLo (unsigned narrow : Bool) : Int := if unsigned then 0 else if narrow then -2 ^ 31 else -2 ^ 63
def icvtHi (unsigned narrow : Bool) : Int :=
  match unsigned, narrow with
  | false, false => 2 ^ 63 - 1
  | true, false => 2 ^ 64 - 1
  | false, true => 2 ^ 31 - 1
  | true, true => 2 ^ 32 - 1

/-- ICVT: g gives the direction, h the signedness, w the width, v the format; a format code of 3 to 7 is ILLEGAL by decoding
(02 R38; 09 R172). -/
def execIcvt (d a : BitVec 7) (g h w : BitVec 1) (v : BitVec 3) (st : BitVec 2) (s : State) : Outcome State Fault Refusal :=
  if 2 < v.toNat then .next (s.trapHere { cause := .illegal })
  else
    let f := if v = 0 then fp64 else if v = 1 then fp32 else bf16
    let lat := if v = 0 then latFp64 else latFp
    .next (s.guarded [d, a] fun s =>
      if g = 0 then
        s.landFp d (f.round s.me.rm false (ofSigned (icvtIn (h == 1) (w == 1) (s.rx a)) 0)) lat 4 st
      else
        let r := toIntClamp s.me.rm (icvtLo (h == 1) (w == 1)) (icvtHi (h == 1) (w == 1)) (f.ofWord (s.rx a))
        s.landFp d ((BitVec.ofInt 64 r.1).toNat, r.2) lat 4 st)

end Sys2Proof.Machine
end

