-- ==== Sys2Proof/Machine/Jobs.lean ====
section
/-! DEFINITION. Opening a job from its record and closing it (26 R404, R405, R416, R417; 18 R297). -/

namespace Sys2Proof.Machine

open Host

/-! ## The job record (26 R404) -/

/-- The parameters of a task class, with the fields that hold a value less one (16 R284). -/
def recordClass (w : Word) : ClassParam :=
  { tck := bits w 0 6 + 1, m := bits w 6 4, d := bits w 10 5, kmin := bits w 15 6 + 1, mw := bits w 21 16 }
def ClassParam.ok (c : ClassParam) : Bool := decide (1 ≤ c.m ∧ c.m ≤ 8 ∧ c.m ≤ c.d ∧ c.d ≤ 16)
/-- The class map: two bits for each of 256 classes (15 R266). -/
def recordMap (w : Nat → Word) : List Nat := (List.range 256).map fun c => bits (w (16 + c / 32)) (2 * (c % 32)) 2

/-- The job that a record describes, before its areas are found; what ACT_SET and GROUP_SET have set stays. -/
def recordJob (w : Nat → Word) (jslot : Nat) (old : Job) : Job :=
  let w0 := w 0
  let w1 := w 1
  let w14 := w 14
  { isOpen := true
    jslot := jslot
    tenant := bits w0 16 12
    det := bitAt w0 32
    opt := bitAt w0 33
    l1fuse := bitAt w0 34
    subX := bits w1 0 5
    subY := bits w1 5 4
    subW := bits w1 9 5 + 1
    subH := bits w1 14 4 + 1
    root := (w 2).toNat
    poolBase := (w 3).toNat
    poolBytes := (w 4).toNat
    stampBase := (w 5).toNat
    stampEntries := (w 6).toNat
    hEntry := w 7
    hGang := w 8
    hClass := bits (w 9) 0 8
    inGang := w 10
    inClass := bits (w 11) 0 8
    inPrio := bits (w 11) 8 4
    maxc := max 2 (bits w14 0 2)
    lwgap := bits w14 16 10
    preemptWait := bits w14 32 14
    classMap := recordMap w
    hostBase := (w 24).toNat
    hostLen := (w 25).toNat
    classes := (List.range 256).map fun c => (c, recordClass (w (32 + c)))
    group := old.group
    circuits := old.circuits
    self := old.self
    act := old.act }

/-- Fields of a record inside their ranges (16 R284; 18 R312; 25 R395). -/
def Job.inRange (j : Job) : Bool :=
  j.classes.all (fun c => c.2.ok) && decide (j.lwgap ≤ 1000 ∧ 10 ≤ j.preemptWait ∧ j.preemptWait ≤ 10000)

/-! ## Logical processes (18 R297) -/

/-- A word of a mapped area. -/
def State.areaWord (s : State) (pages : List (Nat × Nat)) (va : Nat) : Word :=
  match pagePa pages va with
  | some pa => BitVec.ofNat 64 (memRead s.mem pa 8)
  | none => 0

/-- The descriptors that a job's LP table names by address (log 42), where all are mapped. -/
def State.descriptors (s : State) (root : Nat) : List Nat → Option (List (List Word))
  | [] => some []
  | a :: r =>
    match s.area root a 64, s.descriptors root r with
    | some pages, some l => some ((List.range 8).map (fun i => s.areaWord pages (a + 8 * i)) :: l)
    | _, _ => none

/-- The number that a descriptor declares. -/
def descId (d : List Word) : Nat := bits (d.getD 0 0) 0 32
/-- Two inbox areas on one core overlap. -/
def Lp.overlaps (a b : Lp) : Bool := a.home == b.home && stretchesMeet a.ibase (64 * a.size) b.ibase (64 * b.size)
/-- Some element of a list stands in a relation to a later one. -/
def anyPair {α : Type} (r : α → α → Bool) : List α → Bool
  | [] => false
  | x :: l => l.any (r x) || anyPair r l

/-- The LPs of other open jobs. -/
def State.otherLps (s : State) : List Lp := s.jobs.flatMap fun j => if j.2.isOpen then j.2.lps.map (·.2) else []

/-- The lowest-numbered reason for which the LPs of a job are refused (26 R417). -/
def State.lpRefusal (s : State) (j : Job) (l : List Lp) : Option Nat :=
  let ids := l.map fun x => descId x.desc
  let others := s.otherLps
  if ids.contains 0xFFFFFFFF || anyPair (· == ·) ids then some 4
  else if l.any (fun x => !j.covers x.home) then some 5
  else if l.any (fun x => decide (0x180000 < x.ibase + 64 * x.size) || others.any x.overlaps) || anyPair Lp.overlaps l then some 6
  else if l.any (fun x => decide (64 < ((l ++ others).filter fun y => y.home == x.home).length)) then some 7
  else none

/-- Inbox and send log sizes inside their ranges (18 R297). -/
def Lp.inRange (l : Lp) : Bool := decide (16 ≤ l.size ∧ l.size ≤ 4096 ∧ 64 ≤ l.logSize ∧ l.logSize ≤ 2 ^ 20)

/-! ## Areas (26 R416) -/

/-- The addresses of an LP's send log and status record. -/
def Lp.statusVa (l : Lp) : Nat := ((l.desc.getD 7 0) &&& ~~~63).toNat
/-- The areas of a job, by address and length. -/
def Job.areas (j : Job) (lps : List Lp) : List (Nat × Nat) :=
  [(j.poolBase, j.poolBytes), (j.stampBase, 64 * j.stampEntries)] ++
    lps.flatMap fun l => [(l.slogVa, 64 * l.logSize), (l.statusVa, 64)]
/-- The pages of every area, or none where one is not wholly mapped. -/
def State.allPages (s : State) (root : Nat) : List (Nat × Nat) → Option (List (Nat × Nat))
  | [] => some []
  | a :: r =>
    match s.area root a.1 a.2, s.allPages root r with
    | some p, some l => some (p ++ l)
    | _, _ => none

/-! ## JOB_OPEN -/

/-- The dies of a job's sub-mesh are ready (26 R404, R407). -/
def State.diesReady (s : State) (j : Job) : Bool :=
  (List.range 2).all fun f =>
    !decide (j.subX < 16 * (f + 1) ∧ 16 * f < j.subX + j.subW) ||
      (s.ready.getLsbD (18 + 2 * f) && s.ready.getLsbD (19 + 2 * f))
/-- The Low-Water unit is ready, or the job does without it (26 R407). -/
def State.lwuReady (s : State) (j : Job) : Bool :=
  s.ready.getLsbD 38 || !(j.opt || j.group.any fun m => m.1 != j.self)

/-- What JOB_OPEN finds: its answer, or the job as it opens. -/
inductive Opening where
  | answer (st : Status) (cause : Nat)
  | opens (j : Job)

/-- The refusals that need no reading of the job's tables (26 R417). -/
def State.slotRefusal (s : State) (id : Nat) (j : Job) : Option Nat :=
  let open_ := s.jobs.filter (fun (e : Nat × Job) => e.2.isOpen)
  let t := tget s.tenants j.tenant {}
  if open_.any (fun e => e.2.jslot == j.jslot || e.1 == id) then some 1
  else if 64 ≤ open_.length then some 2
  else if (t.valid && rectInside j.subX j.subY j.subW j.subH t.x t.y t.w t.h) = false then some 3
  else none

/-- A record is judged: ranges, refusals by their lowest number, then readiness. -/
def State.judgeOpen (s : State) (id : Nat) (j : Job) (tableVa count : Nat) : Opening :=
  match s.slotRefusal id j with
  | some c => .answer .refused c
  | none =>
    if !s.diesReady j || !s.lwuReady j then .answer .notReady 0
    else match s.area j.root tableVa (8 * count) with
      | none => .answer .refused 8
      | some tp =>
        match s.descriptors j.root ((List.range count).map fun i => ((s.areaWord tp (tableVa + 8 * i)) &&& ~~~63).toNat) with
        | none => .answer .refused 8
        | some ds =>
          let lps := ds.map fun d => ({ desc := d } : Lp)
          match s.lpRefusal j lps with
          | some c => .answer .refused c
          | none =>
            if lps.any (fun l => !l.inRange) then .answer .invalid 1
            else match s.allPages j.root (j.areas lps) with
              | none => .answer .refused 8
              | some pages =>
                let held_ := (j.areas lps ++ [(tableVa, 8 * count)]).flatMap fun a => areaStacks (pages ++ tp) a.1 a.2
                if held_.any (fun k => s.ready.getLsbD (2 + k) = false) then .answer .notReady 0
                else
                  let live := lps.map fun l => (descId l.desc,
                    { l with statusPa := (pagePa pages l.statusVa).getD 0 })
                  .opens { j with pages := pages, lps := live }

/-- A job opens: its cores' instruction caches are invalidated (07 R132), its clusters look for work, and its Low-Water passes
begin where the unit is ready, for an OPT job with its first work (18 R310, R311; log 43). -/
def State.openJob (s : State) (id : Nat) (j : Job) : State :=
  let s1 := s.setJob id j
  let s2 : State := { s1 with cores := s1.cores.map fun c => (c.1, if j.covers c.1 then { c.2 with icache := [] } else c.2) }
  let s3 := j.clusters.foldl (fun (u : State) cl => u.poke cl) s2
  if s.ready.getLsbD 38 && !j.opt && j.firstModule == j.self then s3.soon (.lwgapExpiry id) else s3

/-- JOB_OPEN: a job opens on a job slot from the record read in host memory, or the command says why not (26 R404, R416, R417). -/
def execJobOpen (s : State) : Outcome State Fault Refusal :=
  match s.ev with
  | some (.jobOpen k rcd) =>
    .next (s.command k fun s =>
      let w := fun i => rcd.getD i 0
      let id := bits (w 0) 0 16
      let jslot := (s.arg k 0).toNat
      let j := recordJob w jslot (s.job id)
      match badArg [decide (jslot < 64), j.inRange] with
      | some i => s.finish k .invalid i []
      | none =>
        s.afterAbort id (.jobOpen k rcd) fun s =>
          match s.judgeOpen id j (w 12).toNat (w 13).toNat with
          | .answer st c => s.finish k st c []
          | .opens j => (s.openJob id j).finish k .ok 0 [])
  | _ => .next s

/-! ## JOB_CLOSE (26 R405) -/

/-- Queued entries and requeued continuations are discarded; every other copy is dropped. -/
def State.closeTasks (s : State) (j : Nat) : State :=
  let s1 := (s.discardEntries .discarded fun e => e.job == j).dropArriving (fun q => q.job == j) .dropped
  let queued := (s1.clusters.flatMap fun c => c.2.entries).filterMap fun e =>
    if e.job == j && e.cont.isSome then some e.gang else none
  (s1.gangs.filter fun g => g.2.job == j).foldl (fun (u : State) g =>
    if u.gangs.any (fun x => x.1 == g.1) then
      (u.dropGang g.1 (if queued.contains g.1 then .discarded else .dropped) false).confirmEnd g.2
    else u) s1

/-- Inboxes and overflow messages are discarded, and every status record is written a last time (18 R298). -/
def State.closeLps (s : State) (j : Nat) : State :=
  (s.job j).lps.foldl (fun (u : State) l =>
    (u.setLp j l.1 { u.lp j l.1 with inbox := [], overflow := [] }).writeStatus j l.1) s

/-- What homes and units hold for a job goes: rings, held actions, hedge records, waiting commits and messages, marks, format
ranges with their side bits, and translations. -/
def State.closeMarks (s : State) (j : Nat) : State :=
  let mine := (s.ranges.filter fun r => r.2.job == j).map (·.2)
  let s1 := mine.foldl (fun (u : State) r => u.dropSide r) s
  let tiles := (s.tileMarks.filter fun t => t.2 == j).map (·.1)
  { s1.tlbFlush j with
    rings := s1.rings.filter fun r => r.job != j
    anns := s1.anns.filter fun a => a.job != j
    held := s1.held.filter fun x => x.job != j
    hedges := s1.hedges.filter fun x => x.job != j
    commits := s1.commits.filter fun m => m.job != j
    relWait := s1.relWait.filter fun r => r.2.1 != j
    ranges := s1.ranges.filter fun r => r.2.job != j
    drLines := s1.drLines.filter fun l => l.2.2 != j
    tileMarks := s1.tileMarks.filter fun t => t.2 != j
    tileRback := s1.tileRback.filter fun t => !tiles.contains t.1 }

/-- The partner of a job in lockstep runs alone. -/
def State.endLockstep (s : State) (j : Nat) : State :=
  match (s.job j).lockstep with
  | some (o, _, _) => s.setJob o { s.job o with lockstep := none, streams := [] }
  | none => s

/-- A job is closed on this module; on the other modules of its group that counts as leaving it, which starts their abort with
SOURCE 2 (18 R418). -/
def State.closeJob (s : State) (j : Nat) : State :=
  let s1 := (((s.endLockstep j).closeTasks j).closeLps j).closeMarks j
  let job := s1.job j
  let s2 : State := { s1 with jobs := tdel s1.jobs j }
  let s3 := match isort (fun a b => decide (a ≤ b)) ((job.group.map (·.1)).filter (· != job.self)) with
    | m :: _ => s2.send (.abortToken m j false (2 ^ 64 - 1) (BitVec.ofNat 64 (2 * 2 ^ 60 + job.self * 2 ^ 48)) (s.now / mcTicks))
    | [] => s2
  s3.retryCommits.resourcesFreed

/-- JOB_CLOSE: the open job of a job slot ends on this module. -/
def execJobClose (s : State) : Outcome State Fault Refusal :=
  match s.ev with
  | some (.jobClose k) =>
    .next (s.command k fun s =>
      match s.jobOfSlot (s.arg k 0).toNat with
      | none => s.finish k .invalid 0 []
      | some j => (s.closeJob j).finish k .ok 0 [])
  | _ => .next s

end Sys2Proof.Machine
end

