-- ==== Sys2Proof/Machine/System.lean ====
section
/-! DEFINITION. The system instructions: CSR access (23 R363 to R368), TRAP and ERET (R370, R371), FWD, SLOT, XINV, XPROBE and
ABORT (R374, R375, R377 to R379), and how a handler's answer is carried out (25 R389, R390, R398). -/

namespace Sys2Proof.Machine

open Host

/-! ## CSR access (23 R363, R364; 01 R26) -/

/-- The checks of a CSR instruction in the order REGWIN, R26, STALL_SHORT, and the register it names. -/
def State.withCsr (s : State) (d : BitVec 7) (c : BitVec 9) (writes : Bool) (k : Csr → State → State) : State :=
  match s.me.badReg [d] with
  | some r => s.trapHere { cause := .regwin, detail := r.toNat }
  | none =>
    match csrOf c with
    | none => s.trapHere { cause := .illegal }
    | some r =>
      if writes && r.readOnly then s.trapHere { cause := .illegal }
      else if !s.me.mode && (r.bank == 2 || (writes && r.bank == 1)) then s.trapHere { cause := .priv }
      else s.guarded [d] (k r)

/-- Flags of results that land no later than a CSR write issued now applies are in fcsr before it (23 R364). -/
def Slot.landFlags (v : Slot) (by_ : Nat) : Slot :=
  let f := (v.writes.filter (fun w => decide (w.at_ ≤ by_))).foldl (fun f w => f ||| w.flags) (0 : BitVec 5)
  { v.orFlags f with writes := v.writes.map fun w => if w.at_ ≤ by_ then { w with flags := 0 } else w }

/-- The slots of the issuing core, itself apart, whose bit of slotmask a write changes (23 R368). -/
def State.maskChanges (s : State) (w : Word) : List Nat :=
  (List.range 16).filter fun i => bitAt w i != bitAt (s.slotmask s.coreId) i && s.coreId * 16 + i != s.cur

/-- A write of slotmask acts as SLOT for each bit that it changes: the slots are removed or restored at the rotation boundary after the write
applies, and the strand waits until they are, so that its next issue sees the write (23 R364, R368, R375). -/
def State.writeSlotmask (s : State) (w : Word) (st : BitVec 2) : State :=
  let c := s.coreId
  match s.maskChanges w with
  | [] => s.retire 4 st
  | l =>
    (l.foldl (fun (u : State) i =>
      u.schedule (s.rotationAfter c latInt) (if bitAt w i then .slotRestore (c * 16 + i) else .slotRemoval (c * 16 + i))) s).block
      (.slotmask w.toNat)

/-- A CSR written with a value computed from its present one. -/
def State.csrUpdate (s : State) (d : BitVec 7) (c : BitVec 9) (st : BitVec 2) (f : Word → Word → Word) : State :=
  s.withCsr d c true fun r s =>
    match r with
    | .slotmask => s.writeSlotmask (f (s.csrRead r) (s.rx d)) st
    | .fcsr =>
      let v := s.me.landFlags (s.now + latInt * tickLen s.coreId)
      (s.setMe (v.csrWrite .fcsr (f v.fcsr (s.rx d)))).retire 4 st
    | _ => (s.setMe (s.me.csrWrite r (f (s.csrRead r) (s.rx d)))).retire 4 st

/-- CSRR (23 R363). -/
def execCsrr (d : BitVec 7) (c : BitVec 9) (st : BitVec 2) (s : State) : Outcome State Fault Refusal :=
  .next (s.withCsr d c false fun r s => (s.land d (s.csrRead r) latInt st).retire 4 st)
/-- CSRW (23 R363). -/
def execCsrw (d : BitVec 7) (c : BitVec 9) (st : BitVec 2) (s : State) : Outcome State Fault Refusal :=
  .next (s.csrUpdate d c st fun _ x => x)
/-- CSRS (23 R363). -/
def execCsrs (d : BitVec 7) (c : BitVec 9) (st : BitVec 2) (s : State) : Outcome State Fault Refusal :=
  .next (s.csrUpdate d c st fun old x => old ||| x)
/-- CSRC (23 R363). -/
def execCsrc (d : BitVec 7) (c : BitVec 9) (st : BitVec 2) (s : State) : Outcome State Fault Refusal :=
  .next (s.csrUpdate d c st fun old x => old &&& ~~~x)

/-! ## TRAP, ERET and ABORT (23 R370, R371, R379) -/

/-- TRAP: FORWARDED, with the next word's address as epc (23 R370). -/
def execTrap (a : BitVec 7) (_st : BitVec 2) (s : State) : Outcome State Fault Refusal :=
  .next (s.guarded [a] fun s =>
    s.takeTrap s.cur { cause := .forwarded, origin := 7, info := (s.rx a).setWidth 32 } (s.me.pc + 4))

/-- ERET: the return from a trap; with no trap being handled it traps ILLEGAL (23 R371). -/
def execEret (_st : BitVec 2) (s : State) : Outcome State Fault Refusal :=
  .next (s.guardedPriv [] fun s =>
    if bits s.me.cause 0 8 = 0 then s.trapHere { cause := .illegal } else s.returnFromTrap s.cur s.me.epc)

/-- ABORT: the job's abort begins, and the strand never issues again (23 R379). -/
def execAbort (a : BitVec 7) (_st : BitVec 2) (s : State) : Outcome State Fault Refusal :=
  .next (s.guarded [a] fun s =>
    if s.myJob.isOpen = false then s.trapHere { cause := .illegal }
    else (s.startAbort s.myGang.job 0 (bits (s.rx a) 0 32)).block .never)

/-! ## Forwarding entries (23 R373, R374) -/

/-- The jobs whose lw an entry that firmware writes waits for: its gang's, or those of the gangs with a strand on the core (18 R311). -/
def State.fwdJobs (s : State) (c g : Nat) : List Nat :=
  if g ≠ 0 then (if (s.gang g).live then [(s.gang g).job] else [])
  else distinct ((s.gangs.filter fun q => q.2.live && q.2.cores.contains c).map (·.2.job))

/-- FWD: a forwarding entry of the issuing core is written, or freed; x[D] takes its previous f0 (23 R374). -/
def execFwd (d a : BitVec 7) (st : BitVec 2) (s : State) : Outcome State Fault Refusal :=
  .next (s.guardedPriv [d, a] fun s =>
    if (s.rx a).toNat % 64 ≠ 0 then s.trapHere { cause := .align, addr := s.rx a }
    else s.withLine (s.rx a) 32 fun ws s =>
      let c := s.coreId
      let k := s.core c
      let i := bits (ws.getD 0 0) 56 4
      let old := tget k.fwd i {}
      let f : FwdEntry := { f0 := (ws.getD 0 0) &&& 0x80FFF000000003FF, f1 := (ws.getD 1 0) &&& 0xFFFFFFFF,
                            f2 := ws.getD 2 0, f3 := ws.getD 3 0,
                            jobs := s.fwdJobs c (bits (ws.getD 1 0) 0 32) }
      let s1 := s.setCore c { k with fwd := tset k.fwd i f }
      let s2 := if bitAt f.f0 63 then s1.schedule (max s.now (f.f3.toNat * nsTicks)) (.forwardingEntryExpiry c i) else s1
      s2.result d old.f0 st)

/-- FORWARDING_ENTRY_EXPIRY: an entry is freed once EXPIRE has come and the core's lw exceeds VT; one that lw has not passed is
freed when lw does (23 R373). -/
def execForwardingEntryExpiry (s : State) : Outcome State Fault Refusal :=
  match s.ev with
  | some (.forwardingEntryExpiry c i) =>
    let k := s.core c
    let f := tget k.fwd i {}
    if bitAt f.f0 63 && decide (f.f3.toNat ≤ s.stamp) && s.fwdPassed c f then
      .next (s.setCore c { k with fwd := tset k.fwd i { f with f0 := f.f0 &&& ~~~0x8000000000000000 } })
    else .next s
  | _ => .next s

/-! ## Slots (23 R375) -/

/-- The state of a slot as SLOT and XPROBE report it: 0 empty, 1 issuing, 2 waiting, 3 removed, 4 stopped. -/
def State.slotState (s : State) (id : Nat) : Nat :=
  let v := s.slot id
  if v.removed then 3
  else if v.stopped then 4
  else if v.live = false ∨ v.n = 0 then 0
  else if v.wait = .none then 1 else 2

/-- The issuing strand waits until an operation on a slot has taken effect, which tells it the slot's previous state. -/
def State.askSlot (s : State) (id : Nat) (d : BitVec 7) (st : BitVec 2) : State :=
  let f : InFlight := { dst := some d, st := st }
  let s1 := s.leave st
  let s2 := s1.setMe { s1.me with wait := .retry, inFlight := some f }
  s2.setSlot id { s2.slot id with askers := (s2.slot id).askers ++ [(s.cur, s.slotState id)] }

/-- SLOT (23 R375). -/
def execSlot (d a : BitVec 7) (st : BitVec 2) (s : State) : Outcome State Fault Refusal :=
  .next (s.guardedPriv [d, a] fun s =>
    let x := s.rx a
    let c := bits x 6 10
    let id := c * 16 + bits x 0 4
    let v := s.slot id
    let same := s.result d (BitVec.ofNat 64 (s.slotState id)) st
    if id = s.cur then s.trapHere { cause := .illegal }
    else match bits x 4 2 with
      | 0 => if v.removed then same else (s.askSlot id d st).schedule (s.nextRotation c) (.slotRemoval id)
      | 1 => if v.removed then (s.askSlot id d st).schedule (s.nextRotation c) (.slotRestore id) else same
      | 2 => if v.stopped then same else (s.askSlot id d st).soon (.debugStop id)
      | _ =>
        if v.stopped then
          let u := same
          u.setSlot id { u.slot id with stopped := false, nextTick := max (u.slot id).nextTick s.now }
        else same)

/-! ## Caches and engine state (23 R377, R378) -/

/-- XINV: instruction caches are invalidated (23 R377; 07 R132). -/
def execXinv (a : BitVec 7) (st : BitVec 2) (s : State) : Outcome State Fault Refusal :=
  .next (s.guarded [a] fun s =>
    let l := if bitAt (s.rx a) 0 then s.myGang.cores else [s.coreId]
    (l.foldl (fun (u : State) c => u.setCore c { u.core c with icache := [] }) s).retire 4 st)

/-- Codes of a command's kind and state (12 R224). -/
def CopyKind.code : CopyKind → Nat
  | .cpy => 0 | .cpyV => 1 | .cpyM => 2 | .cpyW => 3
def CopyState.code : CopyState → Nat
  | .queued => 1 | .running => 2 | .stopped => 3 | .followOnPending => 4

/-- A word of a copy-command entry (12 R224); `next` is the entry linked after it in its channel's chain, and an entry not in use reads
0. -/
def CopyCmd.word (x : CopyCmd) (next w : Nat) : Word :=
  match w with
  | 0 => x.src
  | 1 => x.dst
  | 2 => x.ox0
  | 3 => x.ox2
  | 4 => x.ox1
  | 5 | 6 | 7 | 8 => (x.fo.getD []).getD (w - 5) 0
  | 9 => BitVec.ofNat 64 x.num
  | 10 => BitVec.ofNat 64 x.mxNum
  | 11 => BitVec.ofNat 64 (x.gang % 2 ^ 32 + x.slot * 2 ^ 32 + x.fac * 2 ^ 36 + (if x.fo.isSome then 2 ^ 39 else 0) +
      x.kind.code * 2 ^ 40 + x.tmask * 2 ^ 43 + next * 2 ^ 51 + x.state.code * 2 ^ 55)
  | 12 => BitVec.ofNat 64 x.wp
  | 13 => x.ctl
  | 14 => BitVec.ofNat 64 x.buf
  | _ => 0

/-- A word of the copy command store. -/
def Core.copyWord (k : Core) (e w : Nat) : Word :=
  match k.copies.find? (fun x => x.entry == e) with
  | some x => x.word x.next w
  | none => 0

/-- A word of a forwarding entry. -/
def FwdEntry.word (f : FwdEntry) (w : Nat) : Word :=
  match w with
  | 0 => f.f0
  | 1 => f.f1
  | 2 => f.f2
  | _ => f.f3

/-- The word that a selector names; none where SPACE, ENTRY or WORD lies outside its range (23 R378). -/
def State.probeWord (s : State) (x : Word) : Option Word :=
  let c := bits x 22 10
  let e := bits x 16 6
  let w := bits x 12 4
  match bits x 0 4 with
  | 0 => some ((s.core c).copyWord e w)
  | 1 => if e < 16 ∧ w < 4 then some ((tget (s.core c).fwd e {}).word w) else none
  | 2 =>
    if e < 16 ∧ w = 0 then some (BitVec.ofNat 64 (s.slotState (c * 16 + e)))
    else if e < 16 ∧ w = 1 then some (s.slot (c * 16 + e)).lastPc
    else none
  | _ => none

/-- XPROBE (23 R378). -/
def execXprobe (d a : BitVec 7) (st : BitVec 2) (s : State) : Outcome State Fault Refusal :=
  .next (s.guardedPriv [d, a] fun s =>
    match s.probeWord (s.rx a) with
    | some w => s.result d w st
    | none => s.trapHere { cause := .illegal })

/-! ## The answer of a handler (25 R389, R390, R398) -/

/-- A slot whose strand firmware's handler holds acts on an answer; one that a debug stop or a removal holds does so once it is
resumed, and any other has been dropped (25 R390). -/
def State.answered (s : State) (id : Nat) (again : Ev) (k : State → State) : State :=
  let v := s.slot id
  match v.live, v.wait with
  | true, .firmware => if v.stopped || v.removed then s.schedule (s.nextRotation (id / 16)) again else k s
  | _, _ => s

/-- RETRY: the instruction at epc runs again, or what it left undone goes on (25 R389, R391). -/
def execRetry (s : State) : Outcome State Fault Refusal :=
  match s.ev with
  | some (.retry id) => .next (s.answered id (.retry id) fun s => s.returnFromTrap id (s.slot id).epc)
  | _ => .next s

/-- Firmware fetches the line of a halfword for a SKIP: the handler's strand keeps its slot while the request is under way (25 R389; 22 R354,
R356). -/
def State.fetchFor (s : State) (id : Nat) (k : State → State) : State :=
  let u := k { s with cur := id }
  { u.setSlot id { u.slot id with wait := .firmware } with cur := s.cur }

/-- ERET past the word at epc, whose size firmware takes from bit 0 of its halfword; to epc where that cannot be fetched (25 R389). -/
def State.skipWord (s : State) (id : Nat) : State :=
  let pc := (s.slot id).epc
  let j := (s.gang (s.slot id).gang).job
  match s.fetchHalf (id / 16) j pc with
  | .got h _ => s.returnFromTrap id (pc + (if h % 2 = 1 then 4 else 2))
  | .remote m a =>
    if (s.job j).noPath m then s.schedule (s.nextRotation (id / 16)) (.skip id) else s.fetchFor id (·.fetchRemote m a)
  | .timed p a => s.fetchFor id (·.fetchTimed p a)
  | .fault .. | .damaged _ => s.returnFromTrap id pc

/-- SKIP: the word at epc is passed over; for an asynchronous cause, TRAPWRITER and FORWARDED it acts as RETRY (25 R389). -/
def execSkip (s : State) : Outcome State Fault Refusal :=
  match s.ev with
  | some (.skip id) =>
    .next (s.answered id (.skip id) fun s =>
      let v := s.slot id
      let code := bits v.cause 0 8
      if v.asyncTrap || code == Cause.trapWriter.code || code == Cause.forwarded.code then s.returnFromTrap id v.epc
      else s.skipWord id)
  | _ => .next s

/-- Another copy of a gang's task is live at its home (25 R398). -/
def State.otherCopy (s : State) (q : Gang) : Bool :=
  s.hedges.any fun r => r.task == q.task && r.copies.any fun x => x.copy != q.copy

/-- A gang that received uncorrectable data is dropped, and its task requeued unless another copy of it is live (25 R398, R399). -/
def State.dropDamaged (s : State) (g : Nat) : State :=
  let q := s.gang g
  if s.otherCopy q then (s.dropGang g .uncorrectable false).confirmEnd q else s.requeue g .uncorrectable (q.retries + 1)

/-- DROP: the gang is dropped, its task not requeued (25 R389); for uncorrectable data with ADDR 0 firmware itself acts, three
times (25 R398, R399). -/
def execDrop (s : State) : Outcome State Fault Refusal :=
  match s.ev with
  | some (.drop id) =>
    .next (s.answered id (.drop id) fun s =>
      let v := s.slot id
      let q := s.gang v.gang
      let damaged := bits v.cause 0 8 == Cause.uncorrectable.code && ((v.trapArea.headD []).getD 2 1) == 0 &&
        v.nestedCsr.isEmpty && decide (q.retries < 3)
      if damaged then s.dropDamaged v.gang else (s.dropGang v.gang .dropped false).confirmEnd q)
  | _ => .next s

/-- ABORT_RESP: the job's abort begins with the record's CODE as its reason (25 R389; 18 R418). -/
def execAbortResp (s : State) : Outcome State Fault Refusal :=
  match s.ev with
  | some (.abortResp id) =>
    .next (s.answered id (.abortResp id) fun s =>
      s.startAbort (s.gang (s.slot id).gang).job 1 (bits (s.slot id).cause 0 8))
  | _ => .next s

end Sys2Proof.Machine
end

