-- ==== Sys2Proof/Machine/Migrate.lean ====
section
/-! DEFINITION. MIGR and the migrations it and firmware start (23 R372, R380; 25 R395, R396; 21 R345), and HALTC (23 R376). -/

namespace Sys2Proof.Machine

open Host

/-! ## What a migration moves -/

/-- The gang whose part a request moves: of a slot's gangs the outermost, whose children run inline (13 R236). -/
def State.rootGang (s : State) (g : Nat) : Nat :=
  match (s.gang g).inline with
  | some id => (((s.slot id).saved.getLast?).map (·.gang)).getD g
  | none => g

/-- The gangs that a migration moves: one, or the whole core context. -/
def State.movedGangs (s : State) (g c : Nat) : List Nat :=
  if g = 0 then s.gangsOn c else if (s.gangsOn c).contains (s.rootGang g) then [s.rootGang g] else []

/-- A gang's part on a core holds a Rill membership or the gang an attention context (21 R345). -/
def State.holdsRill (s : State) (g c : Nat) : Bool :=
  (s.partGangs g c).any fun h =>
    (s.core c).members.any (fun m => m.2.gang == h) || (s.cluster (clusterOf c)).attn.any (fun a => a.2.gang == h)

/-- A destination on this module. -/
def State.homeModule (s : State) (g dmod : Nat) : Bool := dmod == 0 || dmod == (s.job (s.gang g).job).self
/-- The same for the gangs that a migration moves; an empty context names a member of no group. -/
def State.staysHome (s : State) (gs : List Nat) (dmod : Nat) : Bool :=
  if gs.isEmpty then dmod == 0 else gs.all fun g => s.homeModule g dmod

/-- The status with which a request is refused (23 R372, R380); 0 lets it begin. -/
def State.migrStatus (s : State) (m : Migr) : Nat :=
  let gs := s.movedGangs m.gang m.score
  let here := s.staysHome gs m.dmod
  if here && m.dcore == m.score then 6
  else if (s.core m.score).migrating || s.fwdFull m.score then 2
  else if m.gang ≠ 0 ∧ gs = [] then 4
  else if m.gang ≠ 0 ∧ s.partShw (s.rootGang m.gang) m.score then 5
  else if !here && (gs.isEmpty || gs.any fun g => s.holdsRill g m.score || !((s.job (s.gang g).job).group.any fun x => x.1 == m.dmod)) then 3
  else if here && !gs.isEmpty && !s.hasRoom m.dcore (s.needOf gs m.score) then 1
  else 0

/-- A migration ends with a status, which the requesting strand receives. -/
def State.migrEnd (s : State) (m : Migr) (status : Nat) : State :=
  let s1 := { s with migrs := s.migrs.filter (fun x => x != m) }
  match (s1.slot m.slot).wait, (s1.slot m.slot).inFlight with
  | .migr, some f => if m.slot < 16384 then s1.deliver m.slot f { vals := [BitVec.ofNat 64 status] } else s1
  | _, _ => s1

/-- MIGR: the strand waits until the migration has ended or is refused (23 R372). -/
def execMigr (d a : BitVec 7) (st : BitVec 2) (s : State) : Outcome State Fault Refusal :=
  .next (match s.me.badReg [d, a], s.me.runBad a 2 with
    | some r, _ => s.trapHere { cause := .regwin, detail := r.toNat }
    | none, some r => s.trapHere { cause := .regwin, detail := r }
    | none, none => s.guardedPriv [d, a, a + 1] fun s =>
      let p := s.rx (a + 1)
      let m : Migr := { slot := s.cur, gang := (s.rx a).toNat, score := bits p 0 10, dcore := bits p 10 10,
                        dmod := bits p 20 12, len := 0, dest := d }
      let s1 := s.leave st
      let s2 := s1.setMe { s1.me with wait := .migr, inFlight := some { dst := some d, st := st } }
      ({ s2 with migrs := s2.migrs ++ [m] }).soon (.migrRequestArrival s.cur))

/-- MIGR_REQUEST_ARRIVAL: the request reaches its source core, which refuses it or begins (23 R372). -/
def execMigrRequestArrival (s : State) : Outcome State Fault Refusal :=
  match s.ev with
  | some (.migrRequestArrival key) =>
    match s.migrs.find? (fun m => m.slot == key) with
    | none => .next s
    | some m =>
      let st := s.migrStatus m
      if st ≠ 0 then .next (s.migrEnd m st)
      else .next ((s.setCore m.score { s.core m.score with migrating := true }).soon (.contextStreamEnd key))
  | _ => .next s

/-! ## Taking the strands and moving them -/

/-- What a strand that leaves the module waits for here is answered here, and redirected under a new tag: its park-list and retry entries, an
access of another module, and its handler task (04 R91; 23 R373; 25 R390). -/
def State.redirectWait (s : State) (c g dmod id : Nat) : State × Option Nat :=
  let v := s.slot id
  let j := (s.gang v.gang).job
  let t := s.fresh + 1
  let there := Parked.moved c g dmod j t
  let parked := s.parks.any fun e => e.2 == .slot id
  let watches := s.retries.any fun r => r.origin == .slot id
  let far := v.inFlight.any fun f => f.tag != 0 && !s.parks.any fun e => e.1 == 2 ^ 64 + f.tag
  let new := (if watches then [(2 ^ 64 + t, there)] else []) ++
    (if far then (v.inFlight.map fun f => (2 ^ 64 + f.tag, there)).toList else []) ++
    ((v.handlerBlock.map fun b => (handlerKey b.2, Parked.moved c b.1 dmod j t)).toList)
  if parked || !new.isEmpty then
    ({ s with
      fresh := t
      retries := s.retries.map fun r => if r.origin = .slot id then { r with origin := .slot (2 ^ 35 + t) } else r
      parks := (s.parks.map fun e => if e.2 = .slot id then (e.1, there) else e) ++ new }, some t)
  else (s, none)
/-- The waits of the strands of a gang's part that leaves the module, with the tags under which each will be woken there. -/
def State.redirectWaits (s : State) (c g dmod : Nat) (ids : List Nat) : State × List (Nat × Nat) :=
  ids.foldl (fun (p : State × List (Nat × Nat)) id =>
    let r := p.1.redirectWait c g dmod id
    (r.1, p.2 ++ (r.2.map fun t => (id % 16, t)).toList)) (s, [])

/-- The context of gangs on a core as it streams (23 R372 step 3). -/
def State.contextOf (s : State) (gs : List Nat) (c : Nat) (whole : Bool) (wakes : List (Nat × Nat)) : Context :=
  let k := s.core c
  let all := distinct (gs.flatMap fun g => s.partGangs g c)
  let ids := distinct (gs.flatMap fun g => s.partSlots g c)
  { gangs := all.map fun h => (h, s.gang h)
    slots := ids.map fun id => (id % 16, { (s.slot id) with save := 0, handlerBlock := none, via := none, askers := [] })
    wakes := wakes
    ops := k.eng.ops.filter fun o => all.contains o.gang
    copies := k.copies.filter fun x => all.contains x.gang
    tiles := all.map fun h => (h, (tget (s.gang h).tiles c []).map k.tile)
    bars := all.map fun h => (h, (tget (s.gang h).bars c []).map k.barrier)
    memory := (s.usedLines c).map fun o => (o, memBytes s.mem (localBase c + o) 64)
    shared := if whole then some k.sharedNow.s else none
    hold := k.eng.hold
    fused := (s.cluster (clusterOf c)).fused }

/-- A gang's part has left a core for another module: its slots, engine work and, where no other part is here, the gang are gone from this
one. -/
def State.partLeft (s : State) (g c : Nat) : State :=
  let gs := s.partGangs g c
  let ids := s.partSlots g c
  let uses := gs.any (s.engineUsers c).contains
  let areas := ids.flatMap fun id => if (s.slot id).save = 0 then [] else [((s.gang (s.slot id).gang).job, (s.slot id).save)]
  let s0 := areas.foldl (fun (u : State) a => u.poolFree a.1 a.2) s.settleBuckets
  let s1 := ids.foldl (fun (u : State) id => u.setSlot id (u.slot id).vacate) s0
  let s2 := gs.foldl (fun (u : State) h => u.dropReaders c h) s1
  let k := s2.core c
  let s3 := s2.setCore c { k with
    copies := k.copies.filter (fun x => !gs.contains x.gang)
    eng := { k.eng with ops := k.eng.ops.filter (fun o => !gs.contains o.gang) } }
  let s4 := gs.foldl (fun (u : State) h =>
    let q := u.gang h
    if u.hasStrand h then u.setGang h { q with running := q.running - ids.length, tiles := tdel q.tiles c, bars := tdel q.bars c }
    else { u with gangs := tdel u.gangs h }) s3
  s4.afterLeaving c uses

/-- Gangs leave the module with their strands; wake-ups, and the CANCELs of their tasks, follow them (23 R372 step 3, R373). A gang that has
parts on other cores goes on here with those (log 91). -/
def State.sendContext (s : State) (m : Migr) (gs : List Nat) : State :=
  let told := gs.foldl (fun (u : State) g => u.tellMoved g m.dmod m.dcore) s
  let s1 := { told with awayTasks := told.awayTasks ++ gs.map fun g => ((s.gang g).job, (s.gang g).task, (s.gang g).copy, g, m.score) }
  let r := gs.foldl (fun (p : State × List (Nat × Nat)) g =>
    let q := p.1.redirectWaits m.score g m.dmod (p.1.partSlots g m.score)
    (q.1, p.2 ++ q.2)) (s1, [])
  gs.foldl (fun (u : State) g => u.partLeft g m.score) (r.1.send (.context m.dmod m.dcore (s.contextOf gs m.score (m.gang == 0) r.2)))

/-! ## A context of another module (23 R372; 25 R390) -/

/-- The free slots that the strands of a context take: those of their own numbers for gangs of DET jobs, the lowest of the others for the rest;
none where they do not suffice (06 R110). -/
def State.contextSlots (s : State) (d : Nat) (x : Context) : Option (List (Nat × Nat)) :=
  let det := fun (v : Slot) => (s.job ((x.gangs.find? fun g => g.1 == v.gang).map (·.2.job)|>.getD 65536)).det
  let free := s.freeSlots d
  let fixed := (x.slots.filter fun p => det p.2).map (·.1)
  let loose := (x.slots.filter fun p => !det p.2).map (·.1)
  let rest := free.filter fun i => !fixed.contains i
  if fixed.all free.contains && decide (loose.length ≤ rest.length) then some (fixed.map (fun i => (i, i)) ++ loose.zip rest) else none

/-- A context has room at a core (15 R255; 23 R372). -/
def State.contextFits (s : State) (d : Nat) (x : Context) : Bool :=
  let sum := fun (l : List Nat) => l.foldl (· + ·) 0
  s.hasRoom d { spc := x.slots.length, acc := sum (x.tiles.map (·.2.length)), bars := sum (x.bars.map (·.2.length)), fuse := x.fused } &&
    (s.contextSlots d x).isSome

/-- The number of a gang of a context here: its own where no gang has it (log 91). -/
def State.gangHere (s : State) (d g : Nat) : Nat × State :=
  if s.gangs.any (fun e => e.1 == g) then s.newGang (clusterOf d) else (g, s)

/-- A gang of a context takes its accumulators, barrier registers, engine work, copies and counters at a core. -/
def State.installGang (s : State) (d g h : Nat) (x : Context) (slots : List (Nat × Nat)) (q : Gang) : State :=
  let ts := ((x.tiles.find? fun e => e.1 == g).map (·.2)).getD []
  let bs := ((x.bars.find? fun e => e.1 == g).map (·.2)).getD []
  let at_ := fun (i : Nat) => ((slots.find? fun p => p.1 == i).map (·.2)).getD i
  let keys := fun (t : Table Nat) => t.map fun e => (chKey d (e.1 % 4), e.2)
  let old := (q.tiles.map (·.2)).flatten
  let s1 := (s.setGang h { q with tiles := [], bars := [], chIssued := keys q.chIssued, chDone := keys q.chDone,
                                  running := (x.slots.filter fun p => p.2.gang == g && p.2.n != 0).length,
                                  moved := [(({ q with moved := [] } : Gang).cores.headD 0, d)] }).assign h d ts.length bs.length
  let r := s1.gang h
  let mine := tget r.tiles d []
  let tile := fun (i : Nat) => (((old.zip mine).find? fun (p : Nat × Nat) => p.1 == i).map (fun (p : Nat × Nat) => p.2)).getD i
  let k := s1.core d
  let k1 := { k with
    tiles := (mine.zip ts).foldl (fun (t : Table Tile) p => tset t p.1 p.2) k.tiles
    bx := ((tget r.bars d []).zip bs).foldl (fun (t : Table Barrier) p =>
      tset t p.1 { p.2 with arrived := p.2.arrived.map fun e => (at_ e.1, e.2), lastGen := p.2.lastGen.map fun e => (at_ e.1, e.2) }) k.bx
    eng := { k.eng with
      hold := k.eng.hold || x.hold
      ops := k.eng.ops ++ (x.ops.filter fun o => o.gang == g).map fun (o : MxOp) => { o with gang := h, slot := at_ o.slot, tiles := o.tiles.map tile } } }
  s1.setCore d ((x.copies.filter fun y => y.gang == g).foldl (fun (k : Core) y =>
    k.chain { y with gang := h, slot := at_ y.slot, claimed := false, rAt := none, wAt := none, entry := k.copyEntry y.ch }) k1)

/-- A context of another module stands at a core: its gangs, its strands, which first issue under R110, its local memory in use, and, of a whole
core, s0 to s15 (23 R372 steps 3 and 4). -/
def State.installContext (s : State) (d : Nat) (x : Context) : State :=
  let slots := (s.contextSlots d x).getD []
  let job := ((x.gangs.head?).map (·.2.job)).getD 65536
  let s0 := (s.settleBuckets.setFuse (clusterOf d) x.fused).claimCore d job
  let ids := x.gangs.foldl (fun (p : List (Nat × Nat) × State) g =>
    let r := p.2.gangHere d g.1
    (p.1 ++ [(g.1, r.1)], r.2.setGang r.1 g.2)) ([], s0)
  let name := fun (g : Nat) => ((ids.1.find? fun p => p.1 == g).map (·.2)).getD g
  let s1 := x.gangs.foldl (fun (u : State) g => u.installGang d g.1 (name g.1) x slots g.2) ids.2
  let s2 := x.memory.foldl (fun (u : State) l => { (u.markLocal (localBase d + l.1) 64) with mem := memPut u.mem (localBase d + l.1) l.2 }) s1
  let s3 := match x.shared with
    | some v => s2.setCore d { s2.core d with s := v }
    | none => s2
  let s4 := slots.foldl (fun (u : State) p =>
    match x.slots.find? fun e => e.1 == p.1 with
    | none => u
    | some (_, v) =>
      let id := d * 16 + p.2
      let old := u.slot id
      let v1 : Slot := { v with gang := name v.gang, saved := v.saved.map fun f => { f with gang := name f.gang }, askers := old.askers,
                                lastPc := old.lastPc, removed := false, nextTick := u.nextRotation d }
      v.writes.foldl (fun (w : State) e => w.schedule (max w.now e.at_) (.delayedRegisterWrite d)) (u.setSlot id v1)) s3
  let wakes := x.wakes.map fun w => (2 ^ 64 + w.2, Parked.slot (d * 16 + ((slots.find? fun p => p.1 == w.1).map (·.2)).getD 0))
  { s4 with parks := s4.parks ++ wakes }.resourcesFreed

/-- The moved parts stand at the destination, with a forwarding entry at the source (23 R372). -/
def State.migrMove (s : State) (m : Migr) (gs : List Nat) : State :=
  let vt := s.lowestVt gs
  let u := s.settleSteps gs m.score
  let here := s.staysHome gs m.dmod
  let fwdGang := if m.gang = 0 then 0 else s.rootGang m.gang
  let rest := { u with migrs := u.migrs.filter (fun x => x != m) }
  let parts := rest.moveParts gs m.score m.dcore
  let moved := if here then (if m.gang = 0 then parts.moveShared m.score m.dcore else parts) else rest.sendContext m gs
  let s1 := moved.endMigrating m.score
  ((s1.installFwd m.score (if here then 0 else m.dmod) m.dcore fwdGang vt (gs.map fun g => (s.gang g).job)).migrEnd m 0).poke (clusterOf m.dcore)

/-- CONTEXT_STREAM_END: the strands have been taken and the context stands at its destination; until every strand can be taken
the migration waits (23 R372, R380). A context of another module takes its place as soon as there is room for it. -/
def execContextStreamEnd (s : State) : Outcome State Fault Refusal :=
  match s.ev with
  | some (.contextStreamEnd key) =>
    match s.migrs.find? (fun m => m.slot == key) with
    | none => .next s
    | some m =>
      let gs := s.movedGangs m.gang m.score
      let idle := s.endMigrating m.score
      if m.gang ≠ 0 ∧ gs = [] then .next (idle.migrEnd m 4)
      else if s.staysHome gs m.dmod && !gs.isEmpty && !s.hasRoom m.dcore (s.needOf gs m.score) then
        .next (idle.migrEnd m 1)
      else if s.canTake gs m.score then .next (s.migrMove m gs)
      else .next ((s.takeStrands gs m.score).schedule (s.nextRotation m.score) (.contextStreamEnd key))
  | some (.hedge (.moved task job c)) => .next (s.copyMoved task job c)
  | some (.contextArrival k) =>
    match s.contexts.find? (fun e => e.1 == k) with
    | none => .next s
    | some (_, d, x) =>
      .next (if s.contextFits d x then { s with contexts := tdel s.contexts k }.installContext d x
        else s.schedule (s.nextRotation d) (.contextArrival k))
  | _ => .next s

/-! ## HALTC (23 R376) -/

/-- Records of ROAM tasks that wait on a core, for their delay or for its lw (03 R70, R71). -/
def State.requeueRecords (s : State) (c : Nat) : State :=
  (s.records.filter fun r => r.2.core == c && ((r.2.cont.map (·.resume.1)).getD 0) % 3 == 1).foldl
    (fun (u : State) r => u.resumeRecord r.1) s

/-- One gang's part leaves a halted core: to the nearest core that can hold it once its strands can be taken and a forwarding entry is free, with s0 to s15 where the gang
has written them, as in a move of the whole context (03 R59), or the gang is dropped and its task requeued. -/
def State.evacuate (s : State) (c g : Nat) : State :=
  match s.victimPlace g c [c] with
  | none =>
    let k := s.core c
    (s.setCore c { k with haltDrops := k.haltDrops + 1 }).requeue g .dropped (s.gang g).retries
  | some d =>
    if s.fwdFull c then s
    else if s.canTake [g] c then
      let vt := packetVt (s.gang g).packet
      (((s.settleSteps [g] c).movePart g c d).carryShared (s.partShw g c) c d).installFwd c 0 d g vt [(s.gang g).job]
    else s.takeStrands [g] c

/-- HALTC: a core is emptied and takes no further work, or returns to service with every slot present (23 R376). -/
def execHaltc (d a : BitVec 7) (st : BitVec 2) (s : State) : Outcome State Fault Refusal :=
  .next (s.guardedPriv [d, a] fun s =>
    let x := s.rx a
    let c := bits x 0 10
    if c = s.coreId then s.trapHere { cause := .illegal }
    else if bitAt x 16 then
      let s1 := s.setCore c { s.core c with halted := false }
      let s2 := (List.range 16).foldl (fun (u : State) i =>
        u.setSlot (c * 16 + i) { u.slot (c * 16 + i) with removed := false })
        { s1 with removals := s1.removals.filter fun id => id / 16 != c }
      (s2.poke (clusterOf c)).result d 0 st
    else
      let s1 := (s.setCore c { s.core c with halted := true }).requeueRecords c
      let s2 := (s1.gangsOn c).foldl (fun (u : State) g => if (u.core c).migrating then u else u.evacuate c g) s1
      if s2.me.live = false then s2
      else if s2.gangsOn c = [] then
        let n := (s2.core c).haltDrops
        (s2.setCore c { s2.core c with haltDrops := 0 }).result d (BitVec.ofNat 64 n) st
      else s2.block (.until (s2.now + 16 * tickLen s2.coreId)))

end Sys2Proof.Machine
end

