-- ==== Sys2Proof/Machine/Power.lean ====
section
/-! DEFINITION. Power: the cap and IDLE_GATE, measurement, the removal and return of slots, and the duty cycle of twin
positions (06 R121, R123; 12 R229; 26 R409). -/

namespace Sys2Proof.Machine

open Host

/-! ## Duty cycle (12 R229) -/

/-- A twin position's W is set; where it was 0 its windows begin to be kept. -/
def State.setDuty (s : State) (p w : Nat) : State :=
  let q := s.pair p
  let s1 := s.setPair p { q with duty := w }
  if q.duty ≠ 0 ∨ w = 0 then s1
  else
    let n := s1.cycleOf p / 16384 * 16384
    (s1.scheduleOnce (max s1.now (s1.cycleTick p (n + (16 - w) * 1024))) (.withheldIntervalStart p)).scheduleOnce
      (s1.cycleTick p (n + 16384)) (.dutyWindowStart p)

/-- Twin positions with W other than 0, in ascending order. -/
def State.dutied (s : State) : List Nat := isort (fun a b => decide (a ≤ b)) ((s.pairs.filter fun p => p.2.duty != 0).map (·.1))

/-- W rises by one at the matrix-heaviest position that has room. -/
def State.raiseDuty (s : State) : State :=
  let n := s.fresh + 1
  let s1 := { s with fresh := n }
  match ((Config.heaviestPair n % 512) :: List.range 512).find? fun p => decide ((s.pair p).duty < 15) with
  | some p => s1.setDuty p ((s.pair p).duty + 1)
  | none => s1

/-! ## Slots (06 R121) -/

/-- Cores in the order of removal: fast, medium, then efficient columns, each in ascending (z, y, x). -/
def coresOfClass (cls : Nat) : List Nat := (List.range 1024).filter fun c => classOf c == cls
/-- The highest-numbered slot of a core that is present and not about to go; never slot 0. -/
def State.lastSlot (s : State) (c : Nat) : Option Nat :=
  ((List.range 16).drop 1).reverse.find? fun i => !(s.slot (c * 16 + i)).removed && !s.removals.contains (c * 16 + i)
/-- One slot leaves each core of a class, at its core's next rotation. -/
def State.removeRound (s : State) (cls : Nat) : State :=
  (coresOfClass cls).foldl (fun (u : State) c =>
    match u.lastSlot c with
    | some i => { u with removals := (c * 16 + i) :: u.removals }.schedule (u.nextRotation c) (.slotRemoval (c * 16 + i))
    | none => u) s
/-- A class that still has a slot to remove. -/
def State.canRemove (s : State) (cls : Nat) : Bool := (coresOfClass cls).any fun c => (s.lastSlot c).isSome

/-- Over the cap: a slot goes from each core of the first class in order that has one; with slot 0 alone left everywhere, W
rises and the host is told. -/
def State.reducePower (s : State) (w : Nat) : State :=
  match [2, 3, 1].find? s.canRemove with
  | some cls => s.removeRound cls
  | none => s.raiseDuty.postEvent 5 0 (BitVec.ofNat 64 w) 0 0

/-- Below 95% for 1 ms: W comes down first, then the slot removed last returns. -/
def State.restorePower (s : State) : State :=
  match s.dutied with
  | p :: _ => s.setDuty p ((s.pair p).duty - 1)
  | [] =>
    match s.removals with
    | [] => s
    | id :: r => { s with removals := r }.schedule (s.nextRotation (id / 16)) (.slotRestore id)

/-- POWER_MEASUREMENT: every 50 µs the controller compares the module's power with CAP (26 R409). -/
def execPowerMeasurement (s : State) : Outcome State Fault Refusal :=
  match s.ev with
  | some .powerMeasurement =>
    let n := s.fresh + 1
    let w := Config.measuredPower n
    let s1 := { s with fresh := n }.schedule (s.now + 50 * usTicks) .powerMeasurement
    if s.cap = 0 then .next s1
    else if s.cap < w then .next ({ s1 with lowSince := none }.reducePower w)
    else if w * 100 < s.cap * 95 then
      match s.lowSince with
      | none => .next { s1 with lowSince := some s.now }
      | some t => .next (if t + 1000 * usTicks ≤ s.now then s1.restorePower else s1)
    else .next { s1 with lowSince := none }
  | _ => .next s

/-! ## POWER_CAP (26 R409; 06 R123) -/

/-- IDLE_GATE of a core's engine; one that has been idle that long gates at once. -/
def State.setIdleGate (s : State) (g c : Nat) : State :=
  let s1 := s.setEng c { s.eng c with idleGate := g }
  if (s.eng c).isAwake && (s.core c).engineIdle then
    s1.schedule (max s.now ((s.eng c).idleSince + g * tickLen c)) (.engineGate c)
  else s1

/-- POWER_CAP: sets CAP and IDLE_GATE, and answers measured power, removed slots and positions with W other than 0. -/
def execPowerCap (s : State) : Outcome State Fault Refusal :=
  match s.ev with
  | some (.powerCap k) =>
    .next (s.command k fun s =>
      let cap := bits (s.arg k 0) 0 16
      let a := s.arg k 1
      let gate := bits a 0 17
      let n := s.fresh + 1
      let answer := fun (u : State) (st : Status) (cause : Nat) =>
        { u with fresh := n }.finish k st cause [BitVec.ofNat 64 (Config.measuredPower n),
          BitVec.ofNat 64 ((u.slots.filter fun (e : Nat × Slot) => e.2.removed).length), BitVec.ofNat 64 u.dutied.length]
      if s.arg k 2 ≠ 0 then answer s .notSupported 0
      else match badArg [cap == 0 || decide (1000 ≤ cap ∧ cap ≤ 6000), gate == 0 || decide (256 ≤ gate ∧ gate ≤ 65536)] with
        | some i => answer s .invalid i
        | none =>
          let s1 := if cap = 0 then s else { s with cap := cap, lowSince := none }
          let l := if bitAt a 42 then List.range 1024 else [bits a 32 10]
          let s2 := if gate = 0 then s1 else l.foldl (fun (u : State) c => u.setIdleGate gate c) s1
          answer s2 .ok 0)
  | _ => .next s

end Sys2Proof.Machine
end

