-- ==== Sys2Proof/Machine/Suspend.lean ====
section
/-! DEFINITION. SUSP and YIELD: a strand suspended in its slot, or a ROAM solo task that leaves it (03 R70, R71, R73; 15
R267). -/

namespace Sys2Proof.Machine

open Host

/-- The strand is a ROAM solo task that can leave its slot: no inline child runs above another strand there (03 R71; log 33). -/
def State.roams (s : State) : Bool := s.myGang.isRoam && s.me.saved.isEmpty

/-- A ROAM solo task suspends: its late results land, it acts as FENCE.FULL, writes its record and leaves its slot, once the engines hold
nothing of it (log 103); without a save area it waits for one (03 R71; 06 R112; 15 R261). -/
def State.roamAway (s : State) (bytes : Nat) (resume : Nat × Word) (k : Entry → State → State) : State :=
  s.whenLanded fun s => s.released fun s => if !s.enginesQuiet s.cur then s.block .enginesIdle else
    let s1 := s.acquire s.coreId
    match s1.saveStrand s.cur resume.2 with
    | none => s.block (.poolRoom (128 + 8 * s.me.n))
    | some s2 =>
      let p := s2.leaveRecord s.cur (s.me.pc + BitVec.ofNat 64 bytes) resume
      k p.1 p.2

/-- Suspension of kind NEXT: a ROAM task is requeued, any other strand resumes at its next turn (03 R70, R71). -/
def State.suspendNext (s : State) (bytes : Nat) (st : BitVec 2) : State :=
  if s.roams then s.roamAway bytes (0, 0) fun e u => u.enqueue (clusterOf s.coreId) e
  else s.retire bytes st

/-- The strand that suspends in its slot keeps its resume kind and operand (15 R260 w5). -/
def State.resumeBy (s : State) (kind : Nat) (operand : Word) : State := s.setMe { s.me with resume := (kind, operand) }

/-- Suspension until an FE word of HBM is full or empty: a watcher joins the word's retry list unless the condition holds; a
ROAM task's watcher is named by its record (03 R70, R71; log 88). -/
def State.suspendFe (s : State) (full : Bool) (va : Word) (st : BitVec 2) : State :=
  s.reach 8 va .read true false fun p s =>
    let away := fun (k : Entry → Nat → State → State) =>
      s.roamAway 4 (if full then 2 else 3, va) fun e u =>
        let r := u.addRecord e
        k e r.1 r.2
    match p with
    | .hbm pa _ =>
      if s.roams && (s.homeRefusal (.watch full) pa false).isNone && s.feBit pa != full then
        away fun _ id u =>
          let w : Retry := { addr := wordAddr pa, origin := .slot id, op := .watch full, data := 0, va := va }
          { u.bringIn pa with retries := u.retries ++ [w] }
      else (s.resumeBy (if full then 2 else 3) va).homeAccess (flight none 0 4 st false) (.watch full) va p 0 0 []
    | .remote m =>
      if s.myJob.noPath m then s.block (.groupFree m)
      else if s.roams then
        away fun e id u =>
          let r : Request := { op := .watch full, va := va, job := e.job, tenant := (u.job e.job).tenant, inc := u.incarnation.toNat, origin := .slot id }
          u.send (.request m 0 r)
      else (s.resumeBy (if full then 2 else 3) va).askRemote (flight none 0 4 st false) m (.watch full) va 0 0 []
    | _ => s

/-- Suspension for a number of rotations of the issuing core (03 R70). -/
def State.suspendDelay (s : State) (n : Nat) (st : BitVec 2) : State :=
  let t := s.now + n * 16 * tickLen s.coreId
  if n = 0 then s.retire 4 st
  else if s.roams then
    s.roamAway 4 (1, BitVec.ofNat 64 n) fun e u =>
      let r := u.addRecord e
      r.2.schedule t (.suspDelayExpiry r.1)
  else ((s.resumeBy 1 (BitVec.ofNat 64 n)).waitFor (.delay t) st).schedule t (.suspDelayExpiry s.cur)

/-- Suspension until the core's lw reaches a value (03 R70). -/
def State.suspendLow (s : State) (v : Nat) (st : BitVec 2) : State :=
  if v ≤ s.lwAt s.myGang.job s.coreId then s.retire 4 st
  else if s.roams then s.roamAway 4 (4, BitVec.ofNat 64 v) fun e u => (u.addRecord e).2
  else (s.resumeBy 4 (BitVec.ofNat 64 v)).waitFor (.low v) st

/-- SUSP (03 R70, R71). -/
def execSusp (a : BitVec 7) (st : BitVec 2) (s : State) : Outcome State Fault Refusal :=
  .next (s.guardedRun a 2 [] fun s =>
    let v := s.rx (a + 1)
    match bits (s.rx a) 0 4 with
    | 0 => s.suspendNext 4 st
    | 1 => s.suspendDelay v.toNat st
    | 2 => s.suspendFe true v st
    | 3 => s.suspendFe false v st
    | 4 => s.suspendLow v.toNat st
    | _ => s.trapHere { cause := .illegal })

/-- The cluster's unit holds a requeued continuation of the strand's job at its priority or above: both priorities are the launch packets'
PRIO, and not the aged ones (DESIGN CHOICE, log 34: 03 R73 says only 'priority'). -/
def State.yieldWanted (s : State) : Bool :=
  (s.cluster (clusterOf s.coreId)).cistern.any fun e =>
    e.cont.isSome && e.job == s.myGang.job && decide (packetPrio s.myGang.packet ≤ packetPrio e.packet)

/-- YIELD of `bytes` bytes (03 R73). -/
def State.yieldStrand (s : State) (bytes : Nat) (st : BitVec 2) : State :=
  if s.roams && s.yieldWanted then s.suspendNext bytes st else s.retire bytes st

/-- YIELD (03 R73). -/
def execYield (st : BitVec 2) (s : State) : Outcome State Fault Refusal := .next (s.guarded [] fun s => s.yieldStrand 4 st)

/-- Short YIELD (02 R43). -/
def execYieldShort (s : State) : Outcome State Fault Refusal := .next (s.guarded [] fun s => s.yieldStrand 2 0)

end Sys2Proof.Machine
end

