-- ==== Sys2Proof/Machine/Vector.lean ====
section
/-! DEFINITION. Vector memory-to-memory instructions, unprefixed and as the body of a REP pair (09 R174 to R187; 03 R67 to
R69). -/

namespace Sys2Proof.Machine

open Host

/-- The vector forms (09 R176). -/
inductive VOp where
  | add | sub | mul | fma | max | min | scale | cmp | set | exp2 | rcp | red | cvt | qnt | deq
  deriving DecidableEq, Repr

/-- A vector instruction: its form, its used pointer fields and its stall count. -/
structure VInstr where
  op : VOp
  d : BitVec 7
  a : Option (BitVec 7) := none
  b : Option (BitVec 7) := none
  st : BitVec 2
  deriving DecidableEq, Repr

/-- An instruction as a vector instruction. -/
def vecOf (i : Instr) : Option VInstr :=
  match i with
  | .vadd d a b st => some { op := .add, d := d, a := some a, b := some b, st := st }
  | .vsub d a b st => some { op := .sub, d := d, a := some a, b := some b, st := st }
  | .vmul d a b st => some { op := .mul, d := d, a := some a, b := some b, st := st }
  | .vfma d a b st => some { op := .fma, d := d, a := some a, b := some b, st := st }
  | .vmax d a b st => some { op := .max, d := d, a := some a, b := some b, st := st }
  | .vmin d a b st => some { op := .min, d := d, a := some a, b := some b, st := st }
  | .vscale d a st => some { op := .scale, d := d, a := some a, st := st }
  | .vcmp d a b st => some { op := .cmp, d := d, a := some a, b := some b, st := st }
  | .vset d st => some { op := .set, d := d, st := st }
  | .vexp2 d a st => some { op := .exp2, d := d, a := some a, st := st }
  | .vrcp d a st => some { op := .rcp, d := d, a := some a, st := st }
  | .vred d a st => some { op := .red, d := d, a := some a, st := st }
  | .vcvt d a st => some { op := .cvt, d := d, a := some a, st := st }
  | .vqnt d a b st => some { op := .qnt, d := d, a := some a, b := some b, st := st }
  | .vdeq d a b st => some { op := .deq, d := d, a := some a, b := some b, st := st }
  | _ => none

/-! ## The control word in ox6 (09 R175) -/

def vFmt (w : Word) : Nat := bits w 0 3
def vSrc (w : Word) : Nat := bits w 3 3
def vCond (w : Word) : Nat := bits w 6 3
def vRed (w : Word) : Nat := bits w 9 2
def vSat (w : Word) : Bool := bitAt w 11

/-- A format, RED or COND value that a form does not accept (09 R176). -/
def VOp.illegal (op : VOp) (w : Word) : Bool :=
  let f := vFmt w
  let r := vSrc w
  match op with
  | .add | .sub | .mul | .fma | .max | .min | .scale | .set => decide (4 < f)
  | .cmp => decide (4 < f) || decide (3 < vCond w)
  | .exp2 | .rcp => !(f == 1 || f == 2)
  | .red => decide (2 < f) || vRed w == 3
  | .cvt => decide (4 < f) || decide (4 < r) || f == r
  | .qnt => !((r == 1 || r == 2) && f == 5)
  | .deq => !(r == 5 && (f == 1 || f == 2))

/-- The used pointer fields. -/
def VInstr.regs (v : VInstr) : List (BitVec 7) := v.d :: (v.a.toList ++ v.b.toList)
/-- Two used pointer fields name one register (09 R176). -/
def VInstr.clash (v : VInstr) : Bool := !v.regs.Nodup
/-- The instruction is none under this value of ox6, or uses one pointer register twice (09 R176). -/
def VInstr.bad (v : VInstr) (ox6 : Word) : Bool := v.op.illegal ox6 || v.clash

/-- The figures of a form (09 R176): elements in a full step, bytes per element of D, A and B, and cycles per step. -/
structure VShape where
  n : Nat
  zd : Nat
  za : Nat
  zb : Nat
  cc : Nat
  deriving DecidableEq, Repr

def VOp.shape (op : VOp) (w : Word) : VShape :=
  let z := zOf (vFmt w)
  let zs := zOf (vSrc w)
  match op with
  | .add | .sub | .mul | .fma | .max | .min | .cmp => { n := 64 / z, zd := z, za := z, zb := z, cc := 1 }
  | .scale => { n := 64 / z, zd := z, za := z, zb := 0, cc := 1 }
  | .set => { n := 64 / z, zd := z, za := 0, zb := 0, cc := 1 }
  | .exp2 | .rcp => { n := 64 / z, zd := z, za := z, zb := 0, cc := 2 }
  | .red => { n := 64 / z, zd := z, za := z, zb := 0, cc := 2 }
  | .cvt => { n := 64 / Nat.max zs z, zd := z, za := zs, zb := 0, cc := 1 }
  | .qnt => { n := 32, zd := 0, za := zs, zb := 0, cc := 4 }
  | .deq => { n := 32, zd := z, za := 0, zb := 0, cc := 2 }

/-- Bytes of D, A and B that a step of m elements touches; a block of E2M1X is always whole (09 R177). -/
def VOp.spans (op : VOp) (sh : VShape) (m : Nat) : Nat × Nat × Nat :=
  match op with
  | .red => (sh.zd, m * sh.za, 0)
  | .qnt => (16, m * sh.za, 2)
  | .deq => (m * sh.zd, 16, 2)
  | _ => (m * sh.zd, m * sh.za, m * sh.zb)

/-- The alignment each pointer needs: min(footprint, 64) of a full step, an element for VRED's D, 2 for metadata (09 R177). -/
def VOp.aligns (op : VOp) (sh : VShape) : Nat × Nat × Nat :=
  let f := op.spans sh sh.n
  (Nat.min f.1 64, Nat.min f.2.1 64, Nat.min f.2.2 64)

/-! ## Element results (09 R178 to R181) -/

/-- The elements of a list of bytes. -/
def elements (bs : List Byte) (z : Nat) : Nat → List Nat
  | 0 => []
  | m + 1 => ofBytes (bs.take z) :: elements (bs.drop z) z m

/-- An element function of FP32 applied in FP32 or BF16; the rounding to BF16 adds its flags (09 R179). -/
def via32 (g : Nat → Nat × BitVec 5) (code v : Nat) : Nat × BitVec 5 :=
  if code = 2 then
    let sn : BitVec 5 := snanFlag [bf16.decode v]
    let r := g (v * 65536)
    let o := bf16.round .rne false (fp32.decode r.1)
    (o.1, o.2 ||| r.2 ||| sn)
  else g v

/-- One element's result from a, b and the scalar, in a format (09 R178, R179). -/
def VOp.element (op : VOp) (w : Word) (rm : Rm) (s a b : Nat) : Nat × BitVec 5 :=
  let f := (fmtOf (vFmt w)).getD fp32
  let x := f.decode a
  let y := f.decode b
  let t := f.decode s
  match op with
  | .add => f.add rm x y
  | .sub => f.add rm x y.negate
  | .mul => f.mul rm x y
  | .fma => f.fma rm x t y
  | .scale => f.mul rm x t
  | .max => f.minMax true a b
  | .min => f.minMax false a b
  | .cmp =>
    let r := fpCompare (vCond w) x y
    (if r.1 then 2 ^ f.width - 1 else 0, r.2)
  | .set => (s, 0)
  | .exp2 => via32 exp2_32 (vFmt w) a
  | .rcp => via32 rcp32 (vFmt w) a
  | .cvt => fpConvert ((fmtOf (vSrc w)).getD fp32) f rm (vSat w) a
  | .red | .qnt | .deq => (0, 0)

/-- VRED's operation on two elements (09 R180). -/
def redOp (w : Word) (rm : Rm) (x y : Nat) : Nat × BitVec 5 :=
  let f := (fmtOf (vFmt w)).getD fp32
  match vRed w with
  | 0 => f.add rm (f.decode x) (f.decode y)
  | 1 => f.minMax true x y
  | _ => f.minMax false x y

/-- One level of VRED's tree on elements with the index each is credited to, and the flags raised (09 R180, R185). -/
def redLevel (w : Word) (rm : Rm) : List (Nat × Nat) → List (Nat × Nat) × List (Nat × BitVec 5)
  | (x, i) :: (y, _) :: r =>
    let o := redOp w rm x y
    let q := redLevel w rm r
    ((o.1, i) :: q.1, (i, o.2) :: q.2)
  | l => (l, [])

/-- VRED's pairwise tree. -/
def redTree (w : Word) (rm : Rm) : Nat → List (Nat × Nat) → List (Nat × BitVec 5) → Nat × List (Nat × BitVec 5)
  | 0, l, fl => ((l.headD (0, 0)).1, fl)
  | fuel + 1, l, fl =>
    if l.length ≤ 1 then ((l.headD (0, 0)).1, fl)
    else
      let q := redLevel w rm l
      redTree w rm fuel q.1 (fl ++ q.2)

/-- What a step computes: the bytes for D and for B, and the flags by the element credited; index none is x[D]. -/
structure VOut where
  dBytes : List Byte
  bBytes : List Byte := []
  flags : List (Option Nat × BitVec 5) := []
  deriving DecidableEq, Repr

/-- A step's results from the bytes read at D, A and B (09 R178 to R181). -/
def VOp.compute (op : VOp) (w : Word) (rm : Rm) (ox7 : Word) (sh : VShape) (m : Nat) (dB aB bB : List Byte) : VOut :=
  let f := (fmtOf (vFmt w)).getD fp32
  let s := ox7.toNat % 2 ^ f.width
  match op with
  | .red =>
    let t := redTree w rm 8 ((elements aB sh.za m).zipIdx) []
    let o := redOp w rm (ofBytes dB) t.1
    { dBytes := toBytes o.1 sh.zd, flags := (t.2.map fun p => (some p.1, p.2)) ++ [(none, o.2)] }
  | .qnt =>
    let g := (fmtOf (vSrc w)).getD fp32
    let xs := (elements aB sh.za m).map g.decode
    let q := quantise (xs ++ List.replicate (32 - m) (.fin false 0 0))
    { dBytes := q.1, bBytes := [BitVec.ofNat 8 q.2.1, BitVec.ofNat 8 q.2.2] }
  | .deq =>
    let scale := (bB.getD 0 0).toNat
    let alt := (bB.getD 1 0).toNat
    let rs := (List.range m).map fun i => f.round rm false (e2m1Value ((aB.getD (i / 2) 0).toNat / 16 ^ (i % 2) % 16) scale alt)
    { dBytes := rs.flatMap (fun r => toBytes r.1 sh.zd), flags := rs.zipIdx.map fun p => (some p.2, p.1.2) }
  | _ =>
    let xs := elements aB sh.za m
    let ys := elements bB sh.zb m
    let rs := (List.range m).map fun i => op.element w rm s (xs.getD i 0) (ys.getD i 0)
    { dBytes := rs.flatMap (fun r => toBytes r.1 sh.zd), flags := rs.zipIdx.map fun p => (some p.2, p.1.2) }

/-! ## One step (09 R177) -/

/-- The XLAT of a range of bytes that reaches into the unmapped part of the private alias (09 R174). -/
def vXlat (p : Word) (len : Nat) : Option TrapInfo :=
  let a := p.toNat
  if len ≠ 0 ∧ a < 0x200000 ∧ 0x180000 < a + len then
    some { cause := .xlat, addr := BitVec.ofNat 64 (max a 0x180000), detail := 4 }
  else none
/-- The PROT of a range of bytes elsewhere outside the scratchpad (09 R174). -/
def vProt (p : Word) (len : Nat) : Option TrapInfo :=
  if len ≠ 0 ∧ 0x180000 < p.toNat + len then some { cause := .prot, addr := p } else none

/-- The first operand pointer that is not aligned, in the order D, A, B (DESIGN CHOICE, log 31: 09 R177 gives none among them). -/
def vAlign (l : List (Word × Nat)) : Option TrapInfo :=
  l.findSome? fun p => if p.2 ≠ 0 ∧ p.1.toNat % p.2 ≠ 0 then some { cause := .align, addr := p.1 } else none

/-- A pointer's value; an unused field reads 0. -/
def State.ptr (s : State) (r : Option (BitVec 7)) : Word := (r.map s.rx).getD 0

/-- The lines that the current slot's next step of m elements accesses. VRED's read and its write of the line at x[D] count once
(DESIGN CHOICE, log 85: 09 R184 does not say). -/
def State.vLines (s : State) (v : VInstr) (m : Nat) : List Nat :=
  let g := v.op.spans (v.op.shape (s.me.oxr 6)) m
  linesOf (s.rx v.d).toNat g.1 ++ linesOf (s.ptr v.a).toNat g.2.1 ++ linesOf (s.ptr v.b).toNat g.2.2
/-- Cycles of the current slot's next step of m elements: the form's own, one for each 128-byte footprint, and the bank
cycles of its most-used bank (09 R183, R184). -/
def State.vCycles (s : State) (v : VInstr) (m : Nat) : Nat :=
  let sh := v.op.shape (s.me.oxr 6)
  let f := v.op.spans sh sh.n
  let ls := s.vLines v m
  let most := [0, 1, 2].foldl (fun (k : Nat) b => max k (ls.filter (fun l => l % 3 == b)).length) 0
  sh.cc + ([f.1, f.2.1, f.2.2].filter (· == 128)).length + (most - 1)
/-- The step's line accesses take their banks, one after another in each, from a number of cycles ahead; a DET strand's win over the
engines' (06 R119, R120). -/
def State.vClaim (s : State) (v : VInstr) (m ahead : Nat) : State :=
  let own := ownerVector s.cur
  let l := [0, 1, 2].flatMap fun b =>
    ((s.vLines v m).filter (fun l => l % 3 == b)).zipIdx.map fun p => (b, s.cycleOf s.coreId + ahead + p.2)
  (s.unclaim s.coreId own 0).claimAll s.coreId (if s.myJob.det then rankDetVector else rankVector) own l

/-- What a step ends in. -/
inductive VEnd where
  | done (s : State)
  | trap (t : TrapInfo)
  | damaged
  deriving DecidableEq, Repr

/-- The faulting address of a flag credited to an element (09 R185). -/
def VOp.elementAddr (op : VOp) (sh : VShape) (pd pa : Word) (i : Option Nat) : Word :=
  match i with
  | none => pd
  | some k =>
    match op with
    | .set => pd + BitVec.ofNat 64 (k * sh.zd)
    | .deq => pa + BitVec.ofNat 64 (k / 2)
    | _ => pa + BitVec.ofNat 64 (k * sh.za)

/-- The element that a step's enabled flags name: the first, and x[D] only where no other raised one. -/
def firstFlag (l : List (Option Nat × BitVec 5)) (en : BitVec 5) : Option Nat :=
  let hit := (l.filter (fun p => p.2 &&& en != 0)).filterMap (·.1)
  match hit with
  | [] => none
  | i :: r => some (r.foldl Nat.min i)

/-- One step of m elements by the current slot: checks, reads, results, the FPE trap of an enabled flag, writes, pointers, and
the count of retired work (09 R177, R185; 16 R283). XLAT of any operand comes before PROT of any (25 R387), and of several pointers
the one reported is the first of D, A, B (DESIGN CHOICE, log 31). `count` is the register that a REP pair counts in. -/
def State.vStep (s : State) (v : VInstr) (m : Nat) (count : Option (BitVec 7)) : VEnd :=
  let w := s.me.oxr 6
  let sh := v.op.shape w
  let pd := s.rx v.d
  let pa := s.ptr v.a
  let pb := s.ptr v.b
  let al := v.op.aligns sh
  let sp := v.op.spans sh m
  let base := localBase s.coreId
  match vAlign [(pd, al.1), (pa, al.2.1), (pb, al.2.2)] with
  | some t => .trap t
  | none =>
    let ops := [(pd, sp.1, true), (pa, sp.2.1, false), (pb, sp.2.2, v.op == .qnt)]
    let refused := (ops.findSome? fun p => vXlat p.1 p.2.1).orElse fun _ => ops.findSome? fun p =>
      if p.2.2 && (List.range ((p.2.1 + 63) / 64)).any (fun k => s.inInbox (base + p.1.toNat + 64 * k)) then some { cause := .prot, addr := p.1 } else vProt p.1 p.2.1
    match refused with
    | some t => .trap t
    | none =>
      if s.damagedLocal (base + pa.toNat) sp.2.1 || (v.op != .qnt && s.damagedLocal (base + pb.toNat) sp.2.2) ||
          (v.op == .red && s.damagedLocal (base + pd.toNat) sp.1) then .damaged
      else
        let o := v.op.compute w s.me.rm (s.me.oxr 7) sh m (memBytes s.mem (base + pd.toNat) sp.1)
          (memBytes s.mem (base + pa.toNat) sp.2.1) (memBytes s.mem (base + pb.toNat) sp.2.2)
        let fl := o.flags.foldl (fun (f : BitVec 5) p => f ||| p.2) 0
        let on := fl &&& s.me.enables
        if on != 0 then .trap (fpeTrap on (v.op.elementAddr sh pd pa (firstFlag o.flags s.me.enables)))
        else
          let put := fun (u : State) (p : Nat) (bs : List Byte) =>
            { (u.markLocal p bs.length) with mem := memPut u.mem p bs, bad := u.bad.filter (fun x => decide (x + 8 ≤ p ∨ p + bs.length ≤ x)) }
          let s1 := put (put s (base + pd.toNat) o.dBytes) (base + pb.toNat) o.bBytes
          let m1 := s1.me.orFlags fl
          let step := fun (x : Slot) (r : BitVec 7) (k : Nat) => x.wx r (x.rx r + BitVec.ofNat 64 k)
          let m2 := if v.op = .red then m1 else step m1 v.d sp.1
          let m3 := match v.a with
            | some r => step m2 r sp.2.1
            | none => m2
          let m4 := match v.b with
            | some r => step m3 r sp.2.2
            | none => m3
          let m5 := match count with
            | some c => m4.wx c (m4.rx c - BitVec.ofNat 64 m)
            | none => m4
          let s2 := s1.setMe m5
          let g := s2.myGang
          .done (if g.live then s2.setGang s2.me.gang { g with work := min (g.work + 1) (2 ^ 64 - 1) } else s2)

/-- A step's end that is no success traps the strand at its pc. -/
def State.vTrap (s : State) (e : VEnd) : State :=
  match e with
  | .done s1 => s1
  | .trap t => (s.setMe { s.me with rep := none }).trapHere t
  | .damaged => (s.setMe { s.me with rep := none }).localDamage s.cur

/-- The strand issues again at its slot's first cycle after a number of cycles (05 R106). -/
def State.busyFor (s : State) (cc : Nat) : State :=
  s.setMe { s.me with nextTick := max s.me.nextTick (s.now + cc * tickLen s.coreId) }

/-- An unprefixed vector instruction: ILLEGAL, REGWIN and STALL_SHORT, then one full step (09 R176, R177, R183). Its FPE is raised
at the end of the step's cycles (09 R185), its ALIGN, XLAT or PROT at the issue, as any instruction's (DESIGN CHOICE, log 31: 09 R177 names no
cycle). -/
def State.vector (s : State) (v : VInstr) : State :=
  if v.bad (s.me.oxr 6) then s.trapHere { cause := .illegal }
  else s.guarded v.regs fun s =>
    let n := (v.op.shape (s.me.oxr 6)).n
    let cc := 8 + s.vCycles v n
    let s0 := s.vClaim v n 8
    let done := s.now + cc * tickLen s.coreId
    let ends := fun (u : State) => u.setMe { u.me with stepAt := done }
    match s0.vStep v n none with
    | .done s1 => ends ((s1.retire 4 v.st).busyFor cc)
    | .trap t => if t.cause = .fpe then ends (s0.deferFpe t done v.st) else s.vTrap (.trap t)
    | .damaged => s.vTrap .damaged

/-! ## The instructions -/

/-- VADD (09 R178). -/
def execVadd (d a b : BitVec 7) (st : BitVec 2) (s : State) : Outcome State Fault Refusal :=
  .next (s.vector { op := .add, d := d, a := some a, b := some b, st := st })
/-- VSUB (09 R178). -/
def execVsub (d a b : BitVec 7) (st : BitVec 2) (s : State) : Outcome State Fault Refusal :=
  .next (s.vector { op := .sub, d := d, a := some a, b := some b, st := st })
/-- VMUL (09 R178). -/
def execVmul (d a b : BitVec 7) (st : BitVec 2) (s : State) : Outcome State Fault Refusal :=
  .next (s.vector { op := .mul, d := d, a := some a, b := some b, st := st })
/-- VFMA (09 R178). -/
def execVfma (d a b : BitVec 7) (st : BitVec 2) (s : State) : Outcome State Fault Refusal :=
  .next (s.vector { op := .fma, d := d, a := some a, b := some b, st := st })
/-- VMAX (09 R178). -/
def execVmax (d a b : BitVec 7) (st : BitVec 2) (s : State) : Outcome State Fault Refusal :=
  .next (s.vector { op := .max, d := d, a := some a, b := some b, st := st })
/-- VMIN (09 R178). -/
def execVmin (d a b : BitVec 7) (st : BitVec 2) (s : State) : Outcome State Fault Refusal :=
  .next (s.vector { op := .min, d := d, a := some a, b := some b, st := st })
/-- VSCALE (09 R178). -/
def execVscale (d a : BitVec 7) (st : BitVec 2) (s : State) : Outcome State Fault Refusal :=
  .next (s.vector { op := .scale, d := d, a := some a, st := st })
/-- VCMP (09 R178). -/
def execVcmp (d a b : BitVec 7) (st : BitVec 2) (s : State) : Outcome State Fault Refusal :=
  .next (s.vector { op := .cmp, d := d, a := some a, b := some b, st := st })
/-- VSET (09 R178). -/
def execVset (d : BitVec 7) (st : BitVec 2) (s : State) : Outcome State Fault Refusal :=
  .next (s.vector { op := .set, d := d, st := st })
/-- VEXP2 (09 R179). -/
def execVexp2 (d a : BitVec 7) (st : BitVec 2) (s : State) : Outcome State Fault Refusal :=
  .next (s.vector { op := .exp2, d := d, a := some a, st := st })
/-- VRCP (09 R179). -/
def execVrcp (d a : BitVec 7) (st : BitVec 2) (s : State) : Outcome State Fault Refusal :=
  .next (s.vector { op := .rcp, d := d, a := some a, st := st })
/-- VRED (09 R180). -/
def execVred (d a : BitVec 7) (st : BitVec 2) (s : State) : Outcome State Fault Refusal :=
  .next (s.vector { op := .red, d := d, a := some a, st := st })
/-- VCVT (09 R178). -/
def execVcvt (d a : BitVec 7) (st : BitVec 2) (s : State) : Outcome State Fault Refusal :=
  .next (s.vector { op := .cvt, d := d, a := some a, st := st })
/-- VQNT (09 R181). -/
def execVqnt (d a b : BitVec 7) (st : BitVec 2) (s : State) : Outcome State Fault Refusal :=
  .next (s.vector { op := .qnt, d := d, a := some a, b := some b, st := st })
/-- VDEQ (09 R181). -/
def execVdeq (d a b : BitVec 7) (st : BitVec 2) (s : State) : Outcome State Fault Refusal :=
  .next (s.vector { op := .deq, d := d, a := some a, b := some b, st := st })

/-! ## REP (03 R67 to R69) -/

/-- Elements of the next step of a pair with a count (09 R177). -/
def State.vNext (s : State) (v : VInstr) (c : BitVec 7) : Nat := Nat.min (s.rx c).toNat (v.op.shape (s.me.oxr 6)).n

/-- The next step of the current slot's pair ends after its cycles and `extra` more, and those it will lose (09 R183; 06 R120). -/
def State.vSchedule (s : State) (v : VInstr) (c : BitVec 7) (extra : Nat) : State :=
  let t := s.now + (extra + s.vCycles v (s.vNext v c)) * tickLen s.coreId
  ((s.vClaim v (s.vNext v c) extra).setMe { s.me with wait := .vector, stepAt := t }).schedule t (.vectorStep s.cur)

/-- The pair of a REP in x[c], already checked, and a body: the checks that R67 and R176 set for the body, then its steps; a count
of 0 performs none. -/
def State.repPair (s : State) (c : BitVec 7) (body : Instr) : State :=
  match vecOf body with
  | none => s.trapHere { cause := .illegal }
  | some v =>
    if v.regs.contains c || v.bad (s.me.oxr 6) then s.trapHere { cause := .illegal }
    else s.guarded v.regs fun s =>
      if s.rx c = 0 then s.retire 8 v.st
      else
        let s1 := s.leave v.st
        (s1.setMe { s1.me with rep := some (body, c) }).vSchedule v c 8

/-- REP: the count register is checked, then the body is the word that follows; one that cannot be fetched traps with the REP's
address as PC and the body's as the faulting address (03 R47, R67, R69; log 31). -/
def execRep (a : BitVec 7) (_st : BitVec 2) (s : State) : Outcome State Fault Refusal :=
  .next (s.guarded [a] fun s => match s.fetchWord s.coreId s.myGang.job (s.me.pc + 4) with
    | .fault p _ level => s.trapHere (fetchTrap p (s.me.pc + 4) level)
    | .damaged addr => s.trapHere (damagedTrap addr)
    | .remote m addr => s.fetchRemote m addr
    | .timed p addr => s.fetchTimed p addr
    | .word w bytes s1 =>
      match decodeWord w bytes with
      | .ok i => s1.repPair a i
      | .error _ => s1.trapHere { cause := .illegal })

/-- VECTOR_STEP: one step of a REP pair ends, later by the cycles it lost to engines; the last one completes the pair (03 R67; 06
R120; 09 R177). A trap of the step, ALIGN, XLAT and PROT too, is raised here, at the end of its cycles (09 R185 says so of FPE; of the
others it is a DESIGN CHOICE, log 31). A cause that is pending is raised at the step's boundary, after which the pair begins again where it
stands (03 R68; 06 R111; 25 R388). -/
def execVectorStep (s : State) : Outcome State Fault Refusal :=
  match s.ev with
  | some (.vectorStep id) =>
    let v0 := s.slot id
    match v0.wait, v0.rep with
    | .vector, some (body, c) =>
      match vecOf body with
      | none => .next s
      | some v =>
        if s.now < v0.stepAt then .next s
        else if s.now < v0.stepAt + s.vLost id then .next (s.schedule (v0.stepAt + s.vLost id) (.vectorStep id))
        else
          let u := { s with cur := id }
          match u.vStep v (u.vNext v c) (some c) with
          | .done s1 =>
            .next (if s1.rx c = 0 then s1.setMe { s1.me with pc := s1.me.pc + 8, wait := .none, rep := none }
              else if s1.causeDue then (s1.setMe { s1.me with wait := .none, rep := none }).soon (.asyncTrapRaise id)
              else s1.vSchedule v c 0)
          | e => .next (u.vTrap e)
    | _, _ => .next s
  | _ => .next s

end Sys2Proof.Machine
end

