-- ==== Sys2Proof/Machine/Dispatch.lean ====
section
/-! DEFINITION. One arm per row of the opcode table. -/

namespace Sys2Proof.Machine

open Host

def exec (i : Instr) (s : State) : Host.Outcome State Fault Refusal :=
  match i with
  | .add d a b st => Sys2Proof.Machine.execAdd d a b st s
  | .sub d a b st => Sys2Proof.Machine.execSub d a b st s
  | .mul d a b st => Sys2Proof.Machine.execMul d a b st s
  | .mulh d a b st => Sys2Proof.Machine.execMulh d a b st s
  | .mulhu d a b st => Sys2Proof.Machine.execMulhu d a b st s
  | .div d a b st => Sys2Proof.Machine.execDiv d a b st s
  | .divu d a b st => Sys2Proof.Machine.execDivu d a b st s
  | .rem d a b st => Sys2Proof.Machine.execRem d a b st s
  | .remu d a b st => Sys2Proof.Machine.execRemu d a b st s
  | .min d a b st => Sys2Proof.Machine.execMin d a b st s
  | .max d a b st => Sys2Proof.Machine.execMax d a b st s
  | .minu d a b st => Sys2Proof.Machine.execMinu d a b st s
  | .maxu d a b st => Sys2Proof.Machine.execMaxu d a b st s
  | .and d a b st => Sys2Proof.Machine.execAnd d a b st s
  | .or d a b st => Sys2Proof.Machine.execOr d a b st s
  | .xor d a b st => Sys2Proof.Machine.execXor d a b st s
  | .andn d a b st => Sys2Proof.Machine.execAndn d a b st s
  | .shl d a b st => Sys2Proof.Machine.execShl d a b st s
  | .shr d a b st => Sys2Proof.Machine.execShr d a b st s
  | .sar d a b st => Sys2Proof.Machine.execSar d a b st s
  | .rol d a b st => Sys2Proof.Machine.execRol d a b st s
  | .seq d a b st => Sys2Proof.Machine.execSeq d a b st s
  | .sne d a b st => Sys2Proof.Machine.execSne d a b st s
  | .slt d a b st => Sys2Proof.Machine.execSlt d a b st s
  | .sltu d a b st => Sys2Proof.Machine.execSltu d a b st s
  | .sel d a b st => Sys2Proof.Machine.execSel d a b st s
  | .bfx d a b st => Sys2Proof.Machine.execBfx d a b st s
  | .bfi d a b st => Sys2Proof.Machine.execBfi d a b st s
  | .addsh d a b k st => Sys2Proof.Machine.execAddsh d a b k st s
  | .sadd d a b st => Sys2Proof.Machine.execSadd d a b st s
  | .shli d a n st => Sys2Proof.Machine.execShli d a n st s
  | .shri d a n st => Sys2Proof.Machine.execShri d a n st s
  | .sari d a n st => Sys2Proof.Machine.execSari d a n st s
  | .mov d a st => Sys2Proof.Machine.execMov d a st s
  | .clz d a st => Sys2Proof.Machine.execClz d a st s
  | .ctz d a st => Sys2Proof.Machine.execCtz d a st s
  | .popc d a st => Sys2Proof.Machine.execPopc d a st s
  | .sextB d a st => Sys2Proof.Machine.execSextB d a st s
  | .sextH d a st => Sys2Proof.Machine.execSextH d a st s
  | .sextW d a st => Sys2Proof.Machine.execSextW d a st s
  | .zextB d a st => Sys2Proof.Machine.execZextB d a st s
  | .zextH d a st => Sys2Proof.Machine.execZextH d a st s
  | .zextW d a st => Sys2Proof.Machine.execZextW d a st s
  | .rdcyc d st => Sys2Proof.Machine.execRdcyc d st s
  | .rdid d st => Sys2Proof.Machine.execRdid d st s
  | .srd d a st => Sys2Proof.Machine.execSrd d a st s
  | .swr d a st => Sys2Proof.Machine.execSwr d a st s
  | .addi d a m st => Sys2Proof.Machine.execAddi d a m st s
  | .andi d a m st => Sys2Proof.Machine.execAndi d a m st s
  | .ori d a m st => Sys2Proof.Machine.execOri d a m st s
  | .xori d a m st => Sys2Proof.Machine.execXori d a m st s
  | .li d m st => Sys2Proof.Machine.execLi d m st s
  | .lih d m st => Sys2Proof.Machine.execLih d m st s
  | .bz a o st => Sys2Proof.Machine.execBz a o st s
  | .bnz a o st => Sys2Proof.Machine.execBnz a o st s
  | .bltz a o st => Sys2Proof.Machine.execBltz a o st s
  | .bgez a o st => Sys2Proof.Machine.execBgez a o st s
  | .dbnz a o st => Sys2Proof.Machine.execDbnz a o st s
  | .beq a b o st => Sys2Proof.Machine.execBeq a b o st s
  | .bne a b o st => Sys2Proof.Machine.execBne a b o st s
  | .blt a b o st => Sys2Proof.Machine.execBlt a b o st s
  | .bltu a b o st => Sys2Proof.Machine.execBltu a b o st s
  | .j o st => Sys2Proof.Machine.execJ o st s
  | .call o st => Sys2Proof.Machine.execCall o st s
  | .ret st => Sys2Proof.Machine.execRet st s
  | .jr a st => Sys2Proof.Machine.execJr a st s
  | .jalr d a st => Sys2Proof.Machine.execJalr d a st s
  | .rep a st => Sys2Proof.Machine.execRep a st s
  | .susp a st => Sys2Proof.Machine.execSusp a st s
  | .halt st => Sys2Proof.Machine.execHalt st s
  | .yield st => Sys2Proof.Machine.execYield st s
  | .nop st => Sys2Proof.Machine.execNop st s
  | .ldB d a o st => Sys2Proof.Machine.execLdB d a o st s
  | .ldBU d a o st => Sys2Proof.Machine.execLdBU d a o st s
  | .ldH d a o st => Sys2Proof.Machine.execLdH d a o st s
  | .ldHU d a o st => Sys2Proof.Machine.execLdHU d a o st s
  | .ldW d a o st => Sys2Proof.Machine.execLdW d a o st s
  | .ldWU d a o st => Sys2Proof.Machine.execLdWU d a o st s
  | .ldD d a o st => Sys2Proof.Machine.execLdD d a o st s
  | .stB d a o st => Sys2Proof.Machine.execStB d a o st s
  | .stH d a o st => Sys2Proof.Machine.execStH d a o st s
  | .stW d a o st => Sys2Proof.Machine.execStW d a o st s
  | .stD d a o st => Sys2Proof.Machine.execStD d a o st s
  | .ldx d a b st => Sys2Proof.Machine.execLdx d a b st s
  | .stx d a b st => Sys2Proof.Machine.execStx d a b st s
  | .ldAcq d a st => Sys2Proof.Machine.execLdAcq d a st s
  | .stRel d a st => Sys2Proof.Machine.execStRel d a st s
  | .fenceAcq st => Sys2Proof.Machine.execFenceAcq st s
  | .fenceRel st => Sys2Proof.Machine.execFenceRel st s
  | .fenceFull st => Sys2Proof.Machine.execFenceFull st s
  | .lbsync st => Sys2Proof.Machine.execLbsync st s
  | .feq d a st => Sys2Proof.Machine.execFeq d a st s
  | .fesetE a st => Sys2Proof.Machine.execFesetE a st s
  | .fesetF a st => Sys2Proof.Machine.execFesetF a st s
  | .pref a st => Sys2Proof.Machine.execPref a st s
  | .drinitF32 a st => Sys2Proof.Machine.execDrinitF32 a st s
  | .drinitF64 a st => Sys2Proof.Machine.execDrinitF64 a st s
  | .dredF32 d a st => Sys2Proof.Machine.execDredF32 d a st s
  | .dredBf16 d a st => Sys2Proof.Machine.execDredBf16 d a st s
  | .dredF64 d a st => Sys2Proof.Machine.execDredF64 d a st s
  | .dredAcc d a st => Sys2Proof.Machine.execDredAcc d a st s
  | .dreadF32 d a st => Sys2Proof.Machine.execDreadF32 d a st s
  | .dreadBf16 d a st => Sys2Proof.Machine.execDreadBf16 d a st s
  | .dreadF64 d a st => Sys2Proof.Machine.execDreadF64 d a st s
  | .dreadAcc d a st => Sys2Proof.Machine.execDreadAcc d a st s
  | .ldfeFf d a st => Sys2Proof.Machine.execLdfeFf d a st s
  | .ldfeFe d a st => Sys2Proof.Machine.execLdfeFe d a st s
  | .ldfeEf d a st => Sys2Proof.Machine.execLdfeEf d a st s
  | .bmov d a b st => Sys2Proof.Machine.execBmov d a b st s
  | .stfeFf d a st => Sys2Proof.Machine.execStfeFf d a st s
  | .stfeFe d a st => Sys2Proof.Machine.execStfeFe d a st s
  | .stfeEf d a st => Sys2Proof.Machine.execStfeEf d a st s
  | .stfeXf d a st => Sys2Proof.Machine.execStfeXf d a st s
  | .atomAdd d a b st => Sys2Proof.Machine.execAtomAdd d a b st s
  | .atomAnd d a b st => Sys2Proof.Machine.execAtomAnd d a b st s
  | .atomOr d a b st => Sys2Proof.Machine.execAtomOr d a b st s
  | .atomXor d a b st => Sys2Proof.Machine.execAtomXor d a b st s
  | .atomMin d a b st => Sys2Proof.Machine.execAtomMin d a b st s
  | .atomMax d a b st => Sys2Proof.Machine.execAtomMax d a b st s
  | .atomMinu d a b st => Sys2Proof.Machine.execAtomMinu d a b st s
  | .atomMaxu d a b st => Sys2Proof.Machine.execAtomMaxu d a b st s
  | .atomSwap d a b st => Sys2Proof.Machine.execAtomSwap d a b st s
  | .cas d a b st => Sys2Proof.Machine.execCas d a b st s
  | .fatomAddF32 d a b st => Sys2Proof.Machine.execFatomAddF32 d a b st s
  | .fatomAddF64 d a b st => Sys2Proof.Machine.execFatomAddF64 d a b st s
  | .faddF32 d a b st => Sys2Proof.Machine.execFaddF32 d a b st s
  | .fsubF32 d a b st => Sys2Proof.Machine.execFsubF32 d a b st s
  | .fmulF32 d a b st => Sys2Proof.Machine.execFmulF32 d a b st s
  | .fdivF32 d a b st => Sys2Proof.Machine.execFdivF32 d a b st s
  | .faddF64 d a b st => Sys2Proof.Machine.execFaddF64 d a b st s
  | .fsubF64 d a b st => Sys2Proof.Machine.execFsubF64 d a b st s
  | .fmulF64 d a b st => Sys2Proof.Machine.execFmulF64 d a b st s
  | .fdivF64 d a b st => Sys2Proof.Machine.execFdivF64 d a b st s
  | .fminF32 d a b st => Sys2Proof.Machine.execFminF32 d a b st s
  | .fmaxF32 d a b st => Sys2Proof.Machine.execFmaxF32 d a b st s
  | .ffmaF32 d a b st => Sys2Proof.Machine.execFfmaF32 d a b st s
  | .fsqrtF32 d a st => Sys2Proof.Machine.execFsqrtF32 d a st s
  | .fabsF32 d a st => Sys2Proof.Machine.execFabsF32 d a st s
  | .fnegF32 d a st => Sys2Proof.Machine.execFnegF32 d a st s
  | .fclassF32 d a st => Sys2Proof.Machine.execFclassF32 d a st s
  | .fminF64 d a b st => Sys2Proof.Machine.execFminF64 d a b st s
  | .fmaxF64 d a b st => Sys2Proof.Machine.execFmaxF64 d a b st s
  | .ffmaF64 d a b st => Sys2Proof.Machine.execFfmaF64 d a b st s
  | .fsqrtF64 d a st => Sys2Proof.Machine.execFsqrtF64 d a st s
  | .fabsF64 d a st => Sys2Proof.Machine.execFabsF64 d a st s
  | .fnegF64 d a st => Sys2Proof.Machine.execFnegF64 d a st s
  | .fclassF64 d a st => Sys2Proof.Machine.execFclassF64 d a st s
  | .fcmpEqF32 d a b st => Sys2Proof.Machine.execFcmpEqF32 d a b st s
  | .fcmpLtF32 d a b st => Sys2Proof.Machine.execFcmpLtF32 d a b st s
  | .fcmpLeF32 d a b st => Sys2Proof.Machine.execFcmpLeF32 d a b st s
  | .fcmpUnF32 d a b st => Sys2Proof.Machine.execFcmpUnF32 d a b st s
  | .fcmpEqF64 d a b st => Sys2Proof.Machine.execFcmpEqF64 d a b st s
  | .fcmpLtF64 d a b st => Sys2Proof.Machine.execFcmpLtF64 d a b st s
  | .fcmpLeF64 d a b st => Sys2Proof.Machine.execFcmpLeF64 d a b st s
  | .fcmpUnF64 d a b st => Sys2Proof.Machine.execFcmpUnF64 d a b st s
  | .fcvt d a q t v st => Sys2Proof.Machine.execFcvt d a q t v st s
  | .icvt d a g h w v st => Sys2Proof.Machine.execIcvt d a g h w v st s
  | .vadd d a b st => Sys2Proof.Machine.execVadd d a b st s
  | .vsub d a b st => Sys2Proof.Machine.execVsub d a b st s
  | .vmul d a b st => Sys2Proof.Machine.execVmul d a b st s
  | .vfma d a b st => Sys2Proof.Machine.execVfma d a b st s
  | .vmax d a b st => Sys2Proof.Machine.execVmax d a b st s
  | .vmin d a b st => Sys2Proof.Machine.execVmin d a b st s
  | .vscale d a st => Sys2Proof.Machine.execVscale d a st s
  | .vcmp d a b st => Sys2Proof.Machine.execVcmp d a b st s
  | .vset d st => Sys2Proof.Machine.execVset d st s
  | .vexp2 d a st => Sys2Proof.Machine.execVexp2 d a st s
  | .vrcp d a st => Sys2Proof.Machine.execVrcp d a st s
  | .vred d a st => Sys2Proof.Machine.execVred d a st s
  | .vcvt d a st => Sys2Proof.Machine.execVcvt d a st s
  | .vqnt d a b st => Sys2Proof.Machine.execVqnt d a b st s
  | .vdeq d a b st => Sys2Proof.Machine.execVdeq d a b st s
  | .oxl d a st => Sys2Proof.Machine.execOxl d a st s
  | .oxr d a st => Sys2Proof.Machine.execOxr d a st s
  | .oxli d m st => Sys2Proof.Machine.execOxli d m st s
  | .cpy d a b st => Sys2Proof.Machine.execCpy d a b st s
  | .cpyV d a b st => Sys2Proof.Machine.execCpyV d a b st s
  | .cpyW d a b st => Sys2Proof.Machine.execCpyW d a b st s
  | .cpym d a b st => Sys2Proof.Machine.execCpym d a b st s
  | .tlw a b st => Sys2Proof.Machine.execTlw a b st s
  | .tlr d a st => Sys2Proof.Machine.execTlr d a st s
  | .mxop d a b st => Sys2Proof.Machine.execMxop d a b st s
  | .mxz d st => Sys2Proof.Machine.execMxz d st s
  | .mxld d a st => Sys2Proof.Machine.execMxld d a st s
  | .mxst d a st => Sys2Proof.Machine.execMxst d a st s
  | .mxuc a st => Sys2Proof.Machine.execMxuc a st s
  | .mxmode d a st => Sys2Proof.Machine.execMxmode d a st s
  | .twx d a st => Sys2Proof.Machine.execTwx d a st s
  | .twr d a st => Sys2Proof.Machine.execTwr d a st s
  | .tww d a st => Sys2Proof.Machine.execTww d a st s
  | .licq d a st => Sys2Proof.Machine.execLicq d a st s
  | .licr st => Sys2Proof.Machine.execLicr st s
  | .spawn d a st => Sys2Proof.Machine.execSpawn d a st s
  | .spawnInl d a st => Sys2Proof.Machine.execSpawnInl d a st s
  | .commit a st => Sys2Proof.Machine.execCommit a st s
  | .send d a st => Sys2Proof.Machine.execSend d a st s
  | .irrev d a st => Sys2Proof.Machine.execIrrev d a st s
  | .work a st => Sys2Proof.Machine.execWork a st s
  | .tvt d st => Sys2Proof.Machine.execTvt d st s
  | .lwait d a st => Sys2Proof.Machine.execLwait d a st s
  | .barc d a st => Sys2Proof.Machine.execBarc d a st s
  | .bar d st => Sys2Proof.Machine.execBar d st s
  | .barw d st => Sys2Proof.Machine.execBarw d st s
  | .rjoin d a st => Sys2Proof.Machine.execRjoin d a st s
  | .rsend d a b st => Sys2Proof.Machine.execRsend d a b st s
  | .rwait d a b st => Sys2Proof.Machine.execRwait d a b st s
  | .rrel a b st => Sys2Proof.Machine.execRrel a b st s
  | .rleave a st => Sys2Proof.Machine.execRleave a st s
  | .attnInit d a st => Sys2Proof.Machine.execAttnInit d a st s
  | .attnStep d a b st => Sys2Proof.Machine.execAttnStep d a b st s
  | .attnFin d a st => Sys2Proof.Machine.execAttnFin d a st s
  | .csrr d c st => Sys2Proof.Machine.execCsrr d c st s
  | .csrw d c st => Sys2Proof.Machine.execCsrw d c st s
  | .csrs d c st => Sys2Proof.Machine.execCsrs d c st s
  | .csrc d c st => Sys2Proof.Machine.execCsrc d c st s
  | .trap a st => Sys2Proof.Machine.execTrap a st s
  | .eret st => Sys2Proof.Machine.execEret st s
  | .migr d a st => Sys2Proof.Machine.execMigr d a st s
  | .slot d a st => Sys2Proof.Machine.execSlot d a st s
  | .xinv a st => Sys2Proof.Machine.execXinv a st s
  | .xprobe d a st => Sys2Proof.Machine.execXprobe d a st s
  | .fwd d a st => Sys2Proof.Machine.execFwd d a st s
  | .abort a st => Sys2Proof.Machine.execAbort a st s
  | .haltc d a st => Sys2Proof.Machine.execHaltc d a st s
  | .wake st => Sys2Proof.Machine.execWake st s
  | .hint f r maj st => Sys2Proof.Machine.execHint f r maj st s
  | .movShort d a => Sys2Proof.Machine.execMovShort d a s
  | .addiShort d a m => Sys2Proof.Machine.execAddiShort d a m s
  | .addShort d a => Sys2Proof.Machine.execAddShort d a s
  | .subShort d a => Sys2Proof.Machine.execSubShort d a s
  | .andShort d a => Sys2Proof.Machine.execAndShort d a s
  | .orShort d a => Sys2Proof.Machine.execOrShort d a s
  | .xorShort d a => Sys2Proof.Machine.execXorShort d a s
  | .shliShort d a n => Sys2Proof.Machine.execShliShort d a n s
  | .shriShort d a n => Sys2Proof.Machine.execShriShort d a n s
  | .ldDShort d a o => Sys2Proof.Machine.execLdDShort d a o s
  | .stDShort d a o => Sys2Proof.Machine.execStDShort d a o s
  | .liShort d m => Sys2Proof.Machine.execLiShort d m s
  | .nopShort => Sys2Proof.Machine.execNopShort s
  | .yieldShort => Sys2Proof.Machine.execYieldShort s
  | .retShort => Sys2Proof.Machine.execRetShort s
  | .jrShort a => Sys2Proof.Machine.execJrShort a s
  | .haltShort => Sys2Proof.Machine.execHaltShort s
  | .delayedRegisterWrite => Sys2Proof.Machine.execDelayedRegisterWrite s
  | .asyncTrapRaise => Sys2Proof.Machine.execAsyncTrapRaise s
  | .vectorStep => Sys2Proof.Machine.execVectorStep s
  | .bmovStep => Sys2Proof.Machine.execBmovStep s
  | .slotRemoval => Sys2Proof.Machine.execSlotRemoval s
  | .slotRestore => Sys2Proof.Machine.execSlotRestore s
  | .debugStop => Sys2Proof.Machine.execDebugStop s
  | .breakpoint => Sys2Proof.Machine.execBreakpoint s
  | .suspDelayExpiry => Sys2Proof.Machine.execSuspDelayExpiry s
  | .homeRequest => Sys2Proof.Machine.execHomeRequest s
  | .parkSave => Sys2Proof.Machine.execParkSave s
  | .parkConfirm => Sys2Proof.Machine.execParkConfirm s
  | .homeReply => Sys2Proof.Machine.execHomeReply s
  | .storeAcknowledge => Sys2Proof.Machine.execStoreAcknowledge s
  | .revocation => Sys2Proof.Machine.execRevocation s
  | .portAccess => Sys2Proof.Machine.execPortAccess s
  | .metadataUpdate => Sys2Proof.Machine.execMetadataUpdate s
  | .tlbWalkComplete => Sys2Proof.Machine.execTlbWalkComplete s
  | .copyCommandStart => Sys2Proof.Machine.execCopyCommandStart s
  | .copyChunkReadReply => Sys2Proof.Machine.execCopyChunkReadReply s
  | .copyChunkWrite => Sys2Proof.Machine.execCopyChunkWrite s
  | .gatherBegin => Sys2Proof.Machine.execGatherBegin s
  | .gatherEnd => Sys2Proof.Machine.execGatherEnd s
  | .arrayStart => Sys2Proof.Machine.execArrayStart s
  | .mxopComplete => Sys2Proof.Machine.execMxopComplete s
  | .portOperationComplete => Sys2Proof.Machine.execPortOperationComplete s
  | .holdQuantumExpiry => Sys2Proof.Machine.execHoldQuantumExpiry s
  | .dutyWindowStart => Sys2Proof.Machine.execDutyWindowStart s
  | .withheldIntervalStart => Sys2Proof.Machine.execWithheldIntervalStart s
  | .engineGate => Sys2Proof.Machine.execEngineGate s
  | .breakEvenHoldExpiry => Sys2Proof.Machine.execBreakEvenHoldExpiry s
  | .inrushAdmission => Sys2Proof.Machine.execInrushAdmission s
  | .engineWakeComplete => Sys2Proof.Machine.execEngineWakeComplete s
  | .engineReturn => Sys2Proof.Machine.execEngineReturn s
  | .attentionEngineComplete => Sys2Proof.Machine.execAttentionEngineComplete s
  | .barrierArrival => Sys2Proof.Machine.execBarrierArrival s
  | .barrierRelease => Sys2Proof.Machine.execBarrierRelease s
  | .agingStep => Sys2Proof.Machine.execAgingStep s
  | .stealProbe => Sys2Proof.Machine.execStealProbe s
  | .probeAnswer => Sys2Proof.Machine.execProbeAnswer s
  | .stealRetryExpiry => Sys2Proof.Machine.execStealRetryExpiry s
  | .preemption => Sys2Proof.Machine.execPreemption s
  | .commitArrival => Sys2Proof.Machine.execCommitArrival s
  | .commitAnswer => Sys2Proof.Machine.execCommitAnswer s
  | .cancel => Sys2Proof.Machine.execCancel s
  | .dropConfirmation => Sys2Proof.Machine.execDropConfirmation s
  | .checkpoint => Sys2Proof.Machine.execCheckpoint s
  | .weirReport => Sys2Proof.Machine.execWeirReport s
  | .messageArrival => Sys2Proof.Machine.execMessageArrival s
  | .antiMessageArrival => Sys2Proof.Machine.execAntiMessageArrival s
  | .inboxDispatch => Sys2Proof.Machine.execInboxDispatch s
  | .versionRevocation => Sys2Proof.Machine.execVersionRevocation s
  | .lwTokenVisit => Sys2Proof.Machine.execLwTokenVisit s
  | .lwgapExpiry => Sys2Proof.Machine.execLwgapExpiry s
  | .lwMarkArrival => Sys2Proof.Machine.execLwMarkArrival s
  | .abortTokenVisit => Sys2Proof.Machine.execAbortTokenVisit s
  | .restart => Sys2Proof.Machine.execRestart s
  | .ringAnnouncement => Sys2Proof.Machine.execRingAnnouncement s
  | .rillToken => Sys2Proof.Machine.execRillToken s
  | .rillBeat => Sys2Proof.Machine.execRillBeat s
  | .readOut => Sys2Proof.Machine.execReadOut s
  | .ringBreak => Sys2Proof.Machine.execRingBreak s
  | .packetRefusal => Sys2Proof.Machine.execPacketRefusal s
  | .groupPark => Sys2Proof.Machine.execGroupPark s
  | .groupWake => Sys2Proof.Machine.execGroupWake s
  | .heaterSettle => Sys2Proof.Machine.execHeaterSettle s
  | .lockComplete => Sys2Proof.Machine.execLockComplete s
  | .reset => Sys2Proof.Machine.execReset s
  | .incarnationAnnouncement => Sys2Proof.Machine.execIncarnationAnnouncement s
  | .readySet => Sys2Proof.Machine.execReadySet s
  | .migrRequestArrival => Sys2Proof.Machine.execMigrRequestArrival s
  | .contextStreamEnd => Sys2Proof.Machine.execContextStreamEnd s
  | .forwardingEntryExpiry => Sys2Proof.Machine.execForwardingEntryExpiry s
  | .powerMeasurement => Sys2Proof.Machine.execPowerMeasurement s
  | .retry => Sys2Proof.Machine.execRetry s
  | .skip => Sys2Proof.Machine.execSkip s
  | .drop => Sys2Proof.Machine.execDrop s
  | .abortResp => Sys2Proof.Machine.execAbortResp s
  | .hostLaunch => Sys2Proof.Machine.execHostLaunch s
  | .peerLaunch => Sys2Proof.Machine.execPeerLaunch s
  | .stagingAccess => Sys2Proof.Machine.execStagingAccess s
  | .hostRegisterWrite => Sys2Proof.Machine.execHostRegisterWrite s
  | .identify => Sys2Proof.Machine.execIdentify s
  | .attest => Sys2Proof.Machine.execAttest s
  | .jobOpen => Sys2Proof.Machine.execJobOpen s
  | .jobClose => Sys2Proof.Machine.execJobClose s
  | .tenantMap => Sys2Proof.Machine.execTenantMap s
  | .formatRange => Sys2Proof.Machine.execFormatRange s
  | .actSet => Sys2Proof.Machine.execActSet s
  | .powerCap => Sys2Proof.Machine.execPowerCap s
  | .groupSet => Sys2Proof.Machine.execGroupSet s
  | .circuitChange => Sys2Proof.Machine.execCircuitChange s
  | .parkPolicy => Sys2Proof.Machine.execParkPolicy s
  | .traceCtl => Sys2Proof.Machine.execTraceCtl s
  | .lockstep => Sys2Proof.Machine.execLockstep s
  | .illegalEncoding => Sys2Proof.Machine.execIllegalEncoding s
  | .instructionFetchFault => Sys2Proof.Machine.execInstructionFetchFault s
  | .notSupportedCommand => Sys2Proof.Machine.execNotSupportedCommand s
  | .evqheadAdvance => Sys2Proof.Machine.execEvqheadAdvance s

end Sys2Proof.Machine
end

