-- ==== Sys2Proof/Machine/Waits.lean ====
section
/-! DEFINITION. When a waiting strand goes on: the conditions of 06 R109, each from its own rule. -/

namespace Sys2Proof.Machine

/-- A condition holds for the strand of a slot: the instruction that waits for it then issues again, and completes or traps. -/
def State.condHolds (s : State) (id : Nat) (c : Cond) : Bool :=
  let v := s.slot id
  let core := id / 16
  let q := s.gang v.gang
  let lw := s.lwAt q.job core
  match c with
  | .acked => v.unacked.isEmpty
  | .storeRoom => decide (v.unacked.length < 8)
  | .timeline sel n => (s.selectorTrap core v.gang sel true).isSome || decide (n ≤ s.counter core v.gang sel)
  | .lwAtLeast n => decide (n ≤ lw)
  | .channelRoom ch => decide ((s.core core).channelUsed ch < 16)
  | .streamRoom => decide ((s.eng core).places (id % 16) v.gang < 8)
  | .streamIdle => v.mxDone + 1 == v.mxNext
  | .enginesIdle => s.enginesQuiet id
  | .lastStrand => decide (q.running ≤ 1)
  | .barrierGen bx gen => (s.barrierOf v.gang core bx).gen != gen
  | .rillStep m step bytes => s.rillReady core m step bytes
  | .rillSend m step => s.sendReady core m step
  | .overflowRoom lp => s.messageRoom q.job lp
  | .ackRelease m => s.releaseReady core m
  | .poolRoom n => s.poolHas q.job n
  | .lwChange n => lw != n
  | .fpSettled t | .until t => decide (t ≤ s.now)
  | .engineAwake => (s.eng core).isAwake
  | .mxf64Room => (s.mxf64Cores q.job core).any (s.mxf64Takes ((v.saved.getLast?.map (·.gang)).getD v.gang) core)
  | .ringJoined => s.joined id
  | .groupFree m => !(s.job q.job).noPath m
  | .bank => true
  | .slotmask w => (List.range 16).all fun i =>
      core * 16 + i == id || bitAt (BitVec.ofNat 64 w) i == bitAt (s.slotmask core) i
  | .never => false

/-- A slot whose strand may issue (06 R108, R109). -/
def State.ready? (s : State) (id : Nat) (v : Slot) : Bool :=
  v.live && !v.removed && !v.stopped &&
    match v.wait with
    | .none => true
    | .cond c => s.condHolds id c
    | _ => false

/-- An instruction that waits for this has not begun: it issues at its slot's turn (06 R109, R119; 09 R173; 22 R357). -/
def Cond.atTurn : Cond → Bool
  | .bank | .until _ | .poolRoom _ | .mxf64Room | .fpSettled _ | .groupFree _ => true
  | _ => false

/-- The wait is of an instruction in flight, which goes on as soon as its condition holds (05 R106; 06 R109, R124; 21 R340). -/
def Wait.inFlight : Wait → Bool
  | .cond c => !c.atTurn
  | _ => false

/-- The tick at which a ready slot issues: its first cycle not before now, nor before its next turn, nor before a result
that may trap has landed, nor before a vector step that lost cycles to engines has ended (06 R108, R120; 09 R173). An instruction in flight goes
on at once. -/
def State.issueTick (s : State) (id : Nat) (v : Slot) : Nat :=
  let t := max (max (max s.now v.nextTick) v.fpHold) (v.stepAt + s.vLost id)
  if v.wait.inFlight then t else s.slotTick id t

/-- The slot that issues first among those listed, the lowest number first at one tick. -/
def State.firstReady (s : State) (t : Table Slot) : Option (Nat × Nat) :=
  t.foldl (fun best e =>
    if s.ready? e.1 e.2 then
      let tick := s.issueTick e.1 e.2
      match best with
      | none => some (tick, e.1)
      | some (bt, bid) => if tick < bt ∨ (tick = bt ∧ e.1 < bid) then some (tick, e.1) else best
    else best) none

/-- The wait is of an instruction in flight, which goes on with its first issue (05 R106). -/
def Wait.goesOn : Wait → Bool
  | .cond .bank => false
  | .cond _ => true
  | _ => false

/-- The slot that issues is current, at its tick; its gang has issued since it was last reported as deadlocked (18 R316). An
instruction counts its time and its lost banks from its own first issue (05 R106; 06 R119). -/
def State.toIssue (s : State) (tick id : Nat) : State :=
  let s0 := { s with cur := id, now := tick, ev := none }
  let s1 := if s0.myGang.dlReported then s0.setGang s0.me.gang { s0.myGang with dlReported := false } else s0
  let v := s1.me
  s1.setMe { v with lastPc := v.pc, wait := .none, via := none, past := if v.past = some v.pc then v.past else none,
                    issuedAt := if v.wait.goesOn then v.issuedAt else none,
                    losses := if v.wait = .cond .bank then v.losses else 0 }

/-- The slot stops before the instruction at this pc (26 R410). -/
def State.atBreakpoint (s : State) : Bool :=
  s.myJob.breakpoints.any (fun b => b.1 == s.cur && b.2 == s.me.pc) && s.me.past != some s.me.pc

end Sys2Proof.Machine
end

