-- ==== Sys2Proof/Machine/Step.lean ====
section
/-! DEFINITION. One step of the module: the earliest of the pending steps and the instruction of the slot that issues
next (06 R108; log 4), and how an instruction is placed where the first strand fetches it (log 17). -/

namespace Sys2Proof.Machine

open Host

/-- A pending step is performed, unless it is a packet of an incarnation that is no longer the recorded one (22 R358), one ahead of a gap in
its flow (22 R351), or a late packet of the timed channel (22 R354). -/
def State.perform (s : State) (t : Nat) (e : Ev) (rest : List (Nat × Ev)) : Outcome State Fault Refusal :=
  let s1 : State := { s with agenda := rest, now := max s.now t, ev := some (plainEv e) }
  match s1.heldBack e with
  | some s2 => .next s2
  | none => exec e.instr (s1.inFlow e)

/-- A step that takes the place of the issuing strand's instruction. -/
def State.instead (s : State) (e : Ev) : Outcome State Fault Refusal := exec e.instr { s with ev := some e }

/-- What a fetched word does: its instruction's meaning, the trap of bits that are no instruction, or the fetch's fault. -/
def State.runFetched (s : State) : Fetched → Outcome State Fault Refusal
  | .word w bytes s1 =>
    match decodeWord w bytes with
    | .ok i => exec i s1
    | .error _ => s1.instead (.illegalEncoding (BitVec.ofNat 32 w))
  | .fault p a l => s.instead (.instructionFetchFault p a l)
  | .damaged a => .next (s.trapHere (damagedTrap a))
  | .remote m a => .next (s.fetchRemote m a)
  | .timed p a => .next (s.fetchTimed p a)

/-- The issue boundary of the current strand: a pending cause, a breakpoint, or the instruction at its pc. An instruction in flight goes on: it is
past its issue boundary (06 R111). -/
def State.issue (s : State) : Outcome State Fault Refusal :=
  if s.causeDue && s.me.issuedAt.isNone then s.instead (.asyncTrapRaise s.cur)
  else if s.atBreakpoint && s.me.issuedAt.isNone then s.instead (.breakpoint s.cur)
  else s.runFetched (s.fetchWord s.coreId s.myGang.job s.me.pc)

/-- The pending steps due at a tick are all probes: they come after the instructions that issue at it, which may free a slot for a placement of
the probed unit (15 R265). -/
def State.onlyProbes (s : State) (t : Nat) : Bool :=
  s.agenda.all fun e => decide (t < e.1) || match e.2 with | .stealProbe _ _ => true | _ => false

/-- The first pending step, due at tick t, goes before the instruction that issues at a tick. -/
def State.goesFirst (s : State) (t tick : Nat) : Bool := decide (t < tick) || t == tick && !s.onlyProbes t

/-- One step. With nothing pending and no strand to issue, a mesh cycle passes. -/
def step (s : State) : Outcome State Fault Refusal :=
  match s.agenda, s.firstReady s.slots with
  | (t, e) :: rest, some (tick, id) => if s.goesFirst t tick then s.perform t e rest else (s.toIssue tick id).issue
  | (t, e) :: rest, none => s.perform t e rest
  | [], some (tick, id) => (s.toIssue tick id).issue
  | [], none => .next { s with now := s.now + mcTicks }

/-- The state with an instruction placed where its first strand fetches next: a strand of 128 registers in slot 0 of core 0 at
the first byte of that core's local memory, nothing pending, and nothing of it in the instruction cache (log 17). -/
def State.withFetchWord (s : State) (nbits w : Nat) : State :=
  let c := s.core 0
  let s1 := s.setCore 0 { c with icache := c.icache.filter (fun e => e.1 < windowBase || windowBase + 4 ≤ e.1) }
  { s1 with
    mem := memWrite s1.mem windowBase (w % 2 ^ nbits) 4
    agenda := []
    slots := [(0, { s.slot 0 with live := true, n := 128, pc := 0, mode := false, wait := .none, removed := false,
                                  stopped := false, pending := [], nextTick := 0 })] }

end Sys2Proof.Machine
end

