-- ==== Sys2Proof/Safety.lean ====
section
/-! DEFINITION. What the module keeps whatever runs on it, and the words that statements about one instruction are written in. -/

namespace Sys2Proof.Machine

/-- The machine's own invariant: memory holds its canonical form. -/
def Inv (s : State) : Prop := Memory.wf s.mem = true

/-- A step does not stop the machine. -/
def Runs (s : State) : Prop := ∃ t, step s = .next t

end Sys2Proof.Machine

namespace Sys2Proof.Claims

open Sys2Proof.Machine

/-! ## When an instruction's checks pass -/

/-- The general registers an instruction names lie inside the strand's window, and none is read or written before a pending
result to it lands where CHK is set: the conditions under which the checks REGWIN and STALL_SHORT of 25 R387 pass. -/
def Settled (s : State) (regs : List (BitVec 7)) : Prop := s.me.badReg regs = none ∧ s.me.earlyReg regs = none

/-! ## What an instruction leaves unchanged -/

/-- Nothing but the slots differs, and of these only the issuing strand's: memory, FE bits, accumulators, core-shared
registers, engines, jobs and all the rest are as before. -/
def OnlyMe (s t : State) : Prop := t = { s with slots := t.slots } ∧ ∀ id, id ≠ s.cur → t.slot id = s.slot id

/-- Of the strand, only general registers, pc, waits and what is on its way may differ: lr, fcsr, ox, vt, tid, chk, mode,
cause, epc, the trap area and all the rest are as before. -/
def KeepsStrand (s t : State) : Prop :=
  t.me = { s.me with x := t.me.x, shadow := t.me.shadow, pc := t.me.pc, wait := t.me.wait, lines := t.me.lines,
                     nextTick := t.me.nextTick, writes := t.me.writes, inFlight := t.me.inFlight }

/-- No slot but the issuing one differs. -/
def KeepsSlots (s t : State) : Prop := ∀ id, id ≠ s.cur → t.slot id = s.slot id

/-- No byte of memory and no FE bit differs. -/
def KeepsMemory (s t : State) : Prop := t.mem = s.mem ∧ t.fe = s.fe

/-- Of a core, only its L1, its TLB and the cycles of its banks that are taken may differ: accumulators, core-shared registers, barrier
registers, engine, copies and memberships are as before. -/
def KeepsCores (s t : State) : Prop :=
  ∀ c, t.core c = { s.core c with l1 := (t.core c).l1, tlb := (t.core c).tlb, claims := (t.core c).claims }

/-- x[d] holds v, and every other register of the strand's window is unchanged. -/
def Writes (s t : State) (d : BitVec 7) (v : Word) : Prop :=
  t.rx d = v ∧ ∀ r : BitVec 7, s.me.regOk r.toNat = true → r ≠ d → t.rx r = s.rx r

/-- No general register is changed. -/
def KeepsRegs (s t : State) : Prop := t.me.x = s.me.x ∧ t.me.shadow = s.me.shadow

/-- The strand goes on at `pc`, 1 + ST rotations after this issue, or after the first issue of an instruction that waited (06 R109; 05
R106). -/
def GoesOn (s t : State) (pc : Word) (st : BitVec 2) : Prop :=
  t.me.pc = pc ∧ t.me.wait = .none ∧ t.me.nextTick = s.base + 16 * (1 + st.toNat) * tickLen s.coreId

/-! ## An instruction that writes one register -/

/-- An instruction with the registers it uses, its destination, the value the spec gives it, and its length. -/
structure Form where
  instr : Instr
  regs  : List (BitVec 7)
  dest  : BitVec 7
  value : Word
  bytes : Nat := 4
  st    : BitVec 2 := 0

/-- The instruction completes: the value in its destination, the pc past its word, and nothing else changed. -/
def Form.Completes (f : Form) (s : State) : Prop :=
  ∃ t, exec f.instr s = .next t ∧ Writes s t f.dest f.value ∧ GoesOn s t (s.me.pc + BitVec.ofNat 64 f.bytes) f.st ∧
    KeepsStrand s t ∧ OnlyMe s t

/-! ## An instruction that reaches memory -/

/-- The physical address of a place on this module. -/
def placeAddr : Place → Option Nat
  | .ownMem pa | .window pa _ => some pa
  | .hbm pa _ => some pa
  | _ => none

/-- An access of n bytes at va is aligned and translates, for this kind of access, to a place (04 R77; 25 R392). -/
def Reaches (s : State) (n : Nat) (va : Word) (acc : Access) (p : Place) : Prop :=
  va.toNat % n = 0 ∧ s.translate s.coreId s.myGang.job va acc = p

/-- Nothing delays or refuses the issuing strand's access at a place: it has its bank in this cycle, or the bank behind another core's window
port is free for it (06 R119), no router refuses its packet to a core of another tenant (22 R353), and the packet does not travel on the
timed channel of a DET job (22 R354). -/
def Unhindered (s : State) : Place → Prop
  | .ownMem pa => (s.winBank pa).isSome = true
  | .window pa c => s.foreign c = false ∧ s.timedPort c = false ∧ s.portFree c pa = true
  | .hbm pa _ => s.timedHome pa = false
  | _ => True

/-- A load: the register it fills, its address, its size in bytes, the bits it is sign-extended from (0: zero-extended), whether
the L1 may serve it and whether it acquires. -/
structure Load where
  instr : Instr
  regs  : List (BitVec 7)
  dest  : BitVec 7
  addr  : Word
  size  : Nat
  ext   : Nat := 0
  bytes : Nat := 4
  st    : BitVec 2 := 0
  l1    : Bool := true
  acq   : Bool := false

/-- A value of a load's size as the register takes it. -/
def Load.value (f : Load) (v : Nat) : Word := if f.ext = 0 then BitVec.ofNat 64 v else (BitVec.ofNat f.ext v).signExtend 64

/-- The load completes with a value: its register, the pc past its word, memory, FE bits, other slots and the rest of the
strand unchanged. -/
def Load.Gives (f : Load) (s : State) (v : Nat) : Prop :=
  ∃ t, exec f.instr s = .next t ∧ Writes s t f.dest (f.value v) ∧ GoesOn s t (s.me.pc + BitVec.ofNat 64 f.bytes) f.st ∧
    KeepsStrand s t ∧ KeepsSlots s t ∧ KeepsMemory s t ∧ KeepsCores s t

/-- A plain store of the low `size` bytes of a value. -/
structure Store where
  instr : Instr
  regs  : List (BitVec 7)
  addr  : Word
  value : Word
  size  : Nat
  bytes : Nat := 4
  st    : BitVec 2 := 0
  rel   : Bool := false

/-- 1 where a condition holds, else 0. -/
def flag (p : Prop) [Decidable p] : Word := if p then 1 else 0

end Sys2Proof.Claims
end

