-- ==== Sys2Proof/Certificates/Slice0/Obligations.lean ====
section
/-! DEFINITION. The statements about the model, for the provers: per family the results, what is left unchanged and where an
instruction traps or waits; then the steps of homes, units, engines and the host's windows; then the whole machine. A statement of
several named parts is their conjunction. -/

namespace Sys2Proof.Claims

open Sys2Proof.Machine

/-! ## Integer instructions: their results as the spec writes them -/

/-- The three-register instructions of 03 R50, each with its effect. -/
def threeRegister (s : State) (d a b : BitVec 7) (k : BitVec 2) (st : BitVec 2) : List Form :=
  let x := s.rx a
  let y := s.rx b
  let f := fun (i : Instr) (v : Word) => ({ instr := i, regs := [d, a, b], dest := d, value := v, st := st } : Form)
  [ f (.add d a b st) (x + y), f (.sub d a b st) (x - y), f (.mul d a b st) (BitVec.ofNat 64 (x.toNat * y.toNat)),
    f (.mulh d a b st) (BitVec.ofInt 64 (x.toInt * y.toInt / 2 ^ 64)),
    f (.mulhu d a b st) (BitVec.ofNat 64 (x.toNat * y.toNat / 2 ^ 64)),
    f (.min d a b st) (if x.toInt ≤ y.toInt then x else y), f (.max d a b st) (if x.toInt ≤ y.toInt then y else x),
    f (.minu d a b st) (if x.toNat ≤ y.toNat then x else y), f (.maxu d a b st) (if x.toNat ≤ y.toNat then y else x),
    f (.and d a b st) (x &&& y), f (.or d a b st) (x ||| y), f (.xor d a b st) (x ^^^ y), f (.andn d a b st) (x &&& ~~~y),
    f (.seq d a b st) (flag (x = y)), f (.sne d a b st) (flag (x ≠ y)), f (.slt d a b st) (flag (x.toInt < y.toInt)),
    f (.sltu d a b st) (flag (x.toNat < y.toNat)), f (.sel d a b st) (if s.rx d ≠ 0 then x else y),
    f (.addsh d a b k st) (x + BitVec.ofNat 64 (y.toNat * 2 ^ (k.toNat + 1))) ]

/-- Shifts, rotations and bit fields (03 R52, R53): the amount from x[B] or from the word, and the field of x[B]. -/
def shiftsAndFields (s : State) (d a b : BitVec 7) (n : BitVec 6) (st : BitVec 2) : List Form :=
  let x := s.rx a
  let y := s.rx b
  let m := bits y 0 6
  let w := min (bits y 8 7) (64 - m)
  let ones : Word := BitVec.ofNat 64 (2 ^ w - 1)
  let f := fun (i : Instr) (v : Word) => ({ instr := i, regs := [d, a, b], dest := d, value := v, st := st } : Form)
  let g := fun (i : Instr) (v : Word) => ({ instr := i, regs := [d, a], dest := d, value := v, st := st } : Form)
  [ f (.shl d a b st) (BitVec.ofNat 64 (x.toNat * 2 ^ m)), f (.shr d a b st) (BitVec.ofNat 64 (x.toNat / 2 ^ m)),
    f (.sar d a b st) (BitVec.ofInt 64 (x.toInt / 2 ^ m)), f (.rol d a b st) ((x <<< m) ||| (x >>> (64 - m))),
    g (.shli d a n st) (BitVec.ofNat 64 (x.toNat * 2 ^ n.toNat)), g (.shri d a n st) (BitVec.ofNat 64 (x.toNat / 2 ^ n.toNat)),
    g (.sari d a n st) (BitVec.ofInt 64 (x.toInt / 2 ^ n.toNat)),
    f (.bfx d a b st) ((x >>> m) &&& ones),
    f (.bfi d a b st) ((s.rx d &&& ~~~(ones <<< m)) ||| ((x <<< m) &&& (ones <<< m))) ]

/-- The quotient of DIV: rounded toward zero, all ones for a zero divisor, the dividend where it does not fit (03 R51). -/
def quotient (x y : Word) : Word :=
  if y = 0 then BitVec.ofNat 64 (2 ^ 64 - 1)
  else if x.toInt = -2 ^ 63 ∧ y.toInt = -1 then x
  else BitVec.ofInt 64 (x.toInt.tdiv y.toInt)
/-- The remainder of REM, with the sign of the dividend (03 R51). -/
def remainder (x y : Word) : Word :=
  if y = 0 then x
  else if x.toInt = -2 ^ 63 ∧ y.toInt = -1 then 0
  else BitVec.ofInt 64 (x.toInt - y.toInt * x.toInt.tdiv y.toInt)
/-- The divisions of 03 R51. -/
def divisions (s : State) (d a b : BitVec 7) (st : BitVec 2) : List Form :=
  let x := s.rx a
  let y := s.rx b
  let f := fun (i : Instr) (v : Word) => ({ instr := i, regs := [d, a, b], dest := d, value := v, st := st } : Form)
  [ f (.div d a b st) (quotient x y),
    f (.divu d a b st) (if y = 0 then BitVec.ofNat 64 (2 ^ 64 - 1) else BitVec.ofNat 64 (x.toNat / y.toNat)),
    f (.rem d a b st) (remainder x y),
    f (.remu d a b st) (if y = 0 then x else BitVec.ofNat 64 (x.toNat % y.toNat)) ]

/-- The immediate forms, constants and single-source instructions (03 R54, R55, R56). -/
def immediateAndSingle (s : State) (d a : BitVec 7) (i : BitVec 9) (w : BitVec 16) (st : BitVec 2) : List Form :=
  let x := s.rx a
  let k : Word := i.signExtend 64
  let g := fun (i : Instr) (v : Word) => ({ instr := i, regs := [d, a], dest := d, value := v, st := st } : Form)
  let h := fun (i : Instr) (v : Word) => ({ instr := i, regs := [d], dest := d, value := v, st := st } : Form)
  [ g (.addi d a i st) (x + k), g (.andi d a i st) (x &&& k), g (.ori d a i st) (x ||| k), g (.xori d a i st) (x ^^^ k),
    h (.li d w st) (w.signExtend 64), h (.lih d w st) (BitVec.ofNat 64 (s.rx d).toNat <<< 16 ||| w.zeroExtend 64),
    g (.mov d a st) x,
    g (.clz d a st) (BitVec.ofNat 64 ((List.range 64).takeWhile fun n => !x.getLsbD (63 - n)).length),
    g (.ctz d a st) (BitVec.ofNat 64 ((List.range 64).takeWhile fun n => !x.getLsbD n).length),
    g (.popc d a st) (BitVec.ofNat 64 ((List.range 64).filter x.getLsbD).length),
    g (.sextB d a st) ((x.setWidth 8).signExtend 64), g (.sextH d a st) ((x.setWidth 16).signExtend 64),
    g (.sextW d a st) ((x.setWidth 32).signExtend 64), g (.zextB d a st) ((x.setWidth 8).setWidth 64),
    g (.zextH d a st) ((x.setWidth 16).setWidth 64), g (.zextW d a st) ((x.setWidth 32).setWidth 64) ]

/-- The short words of class INT (02 R43): the long form's effect on x0 to x15, two bytes long, stall count 0. -/
def shortWords (s : State) (d a : BitVec 4) (n : BitVec 3) (i : BitVec 7) : List Form :=
  let d' : BitVec 7 := d.setWidth 7
  let a' : BitVec 7 := a.setWidth 7
  let x := s.rx d'
  let y := s.rx a'
  let f := fun (i : Instr) (v : Word) => ({ instr := i, regs := [d', a'], dest := d', value := v, bytes := 2 } : Form)
  [ f (.movShort d a) y, f (.addShort d a) (x + y), f (.subShort d a) (x - y), f (.andShort d a) (x &&& y),
    f (.orShort d a) (x ||| y), f (.xorShort d a) (x ^^^ y), f (.shliShort d a n) (y <<< n.toNat),
    f (.shriShort d a n) (y >>> n.toNat), f (.addiShort d a n) (y + n.signExtend 64),
    { instr := .liShort d i, regs := [d'], dest := d', value := i.signExtend 64, bytes := 2 } ]

/-- What a strand reads of its core and of itself: a core-shared register after every write that has applied, the core's
cycle count, and the identity word of 03 R61. -/
def identityReads (s : State) (d : BitVec 7) (k : BitVec 4) (st : BitVec 2) : List Form :=
  let c := s.cur / 16
  let f := fun (i : Instr) (v : Word) => ({ instr := i, regs := [d], dest := d, value := v, st := st } : Form)
  [ f (.srd d k st) ((s.core c).s[k.toNat]'k.isLt),
    f (.rdcyc d st) (BitVec.ofNat 64 ((s.now - (if c % 32 / 16 = 0 then s.start0 else s.start1)) / tickLen c)),
    f (.rdid d st) (BitVec.ofNat 64 (s.me.gang % 2 ^ 32 * 2 ^ 32 + s.me.tid.toNat / 2 ^ 32 % 16 * 2 ^ 28 +
      s.me.index % 4096 * 2 ^ 16 + s.cur % 16 * 2 ^ 10 + c / 512 % 2 * 2 ^ 9 + c / 32 % 16 * 2 ^ 5 + c % 32)) ]

/-! ## Branches and jumps -/

/-- A branch with the registers it uses, whether it is taken, and its target. -/
structure BranchForm where
  instr  : Instr
  regs   : List (BitVec 7)
  taken  : Bool
  target : Word
  bytes  : Nat := 4
  st     : BitVec 2 := 0

/-- The branch completes: pc at its target or past its word, and nothing else changed. -/
def BranchForm.Completes (f : BranchForm) (s : State) : Prop :=
  ∃ t, exec f.instr s = .next t ∧ GoesOn s t (if f.taken then f.target else s.me.pc + BitVec.ofNat 64 f.bytes) f.st ∧
    KeepsRegs s t ∧ KeepsStrand s t ∧ OnlyMe s t

/-- The conditional branches of 03 R62. -/
def branches (s : State) (a b : BitVec 7) (o : BitVec 9) (st : BitVec 2) : List BranchForm :=
  let x := s.rx a
  let y := s.rx b
  let dest : Word := s.me.pc + 2 * o.signExtend 64
  let g := fun (i : Instr) (c : Bool) => ({ instr := i, regs := [a], taken := c, target := dest, st := st } : BranchForm)
  let f := fun (i : Instr) (c : Bool) => ({ instr := i, regs := [a, b], taken := c, target := dest, st := st } : BranchForm)
  [ g (.bz a o st) (x = 0), g (.bnz a o st) (x ≠ 0), g (.bltz a o st) (x.toInt < 0), g (.bgez a o st) (0 ≤ x.toInt),
    f (.beq a b o st) (x = y), f (.bne a b o st) (x ≠ y), f (.blt a b o st) (x.toInt < y.toInt),
    f (.bltu a b o st) (x.toNat < y.toNat) ]

/-- The jumps of 03 R65, R66 and 02 R43 that write no register: a target taken from a register has bit 0 cleared. -/
def jumps (s : State) (a : BitVec 7) (a' : BitVec 4) (o : BitVec 23) (st : BitVec 2) : List BranchForm :=
  let even := fun (w : Word) => w &&& ~~~1
  [ { instr := .j o st, regs := [], taken := true, target := s.me.pc + 2 * o.signExtend 64, st := st },
    { instr := .ret st, regs := [], taken := true, target := even s.me.lr, st := st },
    { instr := .jr a st, regs := [a], taken := true, target := even (s.rx a), st := st },
    { instr := .retShort, regs := [], taken := true, target := even s.me.lr },
    { instr := .jrShort a', regs := [a'.setWidth 7], taken := true, target := even (s.rx (a'.setWidth 7)) } ]

/-- The no-ops: NOP, every unallocated hint, the short NOP (03 R74, 01 R27), FENCE.ACQ and LBSYNC apart. -/
def noops (f : BitVec 2) (r : BitVec 21) (m : BitVec 1) (st : BitVec 2) : List BranchForm :=
  [ { instr := .nop st, regs := [], taken := false, target := 0, st := st },
    { instr := .hint f r m st, regs := [], taken := false, target := 0, st := st },
    { instr := .nopShort, regs := [], taken := false, target := 0, bytes := 2 } ]

end Sys2Proof.Claims

open Sys2Proof Sys2Proof.Machine Sys2Proof.Claims

/-- 03 R50: each three-register instruction leaves its effect in x[D] and changes nothing else of the machine but the pc. -/
def Sys2Proof.Claims.ThreeRegisterResults : Prop :=
  ∀ (s : State) (d a b : BitVec 7) (k st : BitVec 2), ∀ f ∈ threeRegister s d a b k st, Settled s f.regs → f.Completes s

/-- 03 R52, R53: shifts by a register or by the word, rotation, and the two bit-field instructions. -/
def Sys2Proof.Claims.ShiftAndFieldResults : Prop :=
  ∀ (s : State) (d a b : BitVec 7) (n : BitVec 6) (st : BitVec 2), ∀ f ∈ shiftsAndFields s d a b n st,
    Settled s f.regs → f.Completes s

/-- 03 R51, 02 R46, 06 R112: a division completes at once; its quotient or remainder is in x[D] where the stall count lets it
land before the strand's next issue, and otherwise is pending for 40 cycles, with every register as before and its landing due. -/
def Sys2Proof.Claims.DivisionResults : Prop :=
  ∀ (s : State) (d a b : BitVec 7) (st : BitVec 2), ∀ f ∈ divisions s d a b st, Settled s f.regs →
    (40 ≤ 16 * (1 + st.toNat) → f.Completes s) ∧
    (16 * (1 + st.toNat) < 40 →
      ∃ t, exec f.instr s = .next t ∧ KeepsRegs s t ∧ GoesOn s t (s.me.pc + 4) st ∧ KeepsStrand s t ∧
        t.me.writes = s.me.writes ++
          [{ at_ := s.now + 40 * tickLen s.coreId, reg := some d, fw := s.me.mode, value := f.value }] ∧
        (s.now + 40 * tickLen s.coreId, Ev.delayedRegisterWrite s.coreId) ∈ t.agenda ∧
        t = { s with slots := t.slots, agenda := t.agenda } ∧ ∀ id, id ≠ s.cur → t.slot id = s.slot id)

/-- 03 R54, R55, R56: immediates, constants, and the single-source instructions. -/
def Sys2Proof.Claims.ImmediateAndSingleResults : Prop :=
  ∀ (s : State) (d a : BitVec 7) (i : BitVec 9) (w : BitVec 16) (st : BitVec 2), ∀ f ∈ immediateAndSingle s d a i w st,
    Settled s f.regs → f.Completes s

/-- 02 R43: the short integer words. -/
def Sys2Proof.Claims.ShortWordResults : Prop :=
  ∀ (s : State) (d a : BitVec 4) (n : BitVec 3) (i : BitVec 7), ∀ f ∈ shortWords s d a n i, Settled s f.regs → f.Completes s

/-- 03 R57, R60, R61: SRD, RDCYC and RDID. -/
def Sys2Proof.Claims.IdentityReadResults : Prop :=
  ∀ (s : State) (d : BitVec 7) (k : BitVec 4) (st : BitVec 2), ∀ f ∈ identityReads s d k st, Settled s f.regs → f.Completes s

/-- 03 R50, R52 to R57, R60, R61, 02 R43: three-register, shift, rotation, bit-field, immediate, constant, single-source and short integer instructions, SRD, RDCYC and RDID: the effect in the destination, and nothing else of the machine changed but the pc. -/
def Obligations.IntegerResults : Prop :=
  Claims.ThreeRegisterResults ∧ Claims.ShiftAndFieldResults ∧ Claims.ImmediateAndSingleResults ∧ Claims.ShortWordResults ∧ Claims.IdentityReadResults


/-- 03 R57, R58: SWR and SADD go on at once and change no register yet: the write, to set s[D] or to add to it and return the old
value, is pending on the core for 8 cycles, with the event that performs it due then. -/
def Sys2Proof.Claims.SharedWritesApplyLater : Prop :=
  ∀ (s : State) (d a : BitVec 7) (k : BitVec 4) (st : BitVec 2),
    let at_ := s.now + 8 * tickLen s.coreId
    (Settled s [a] → ∃ t, exec (.swr k a st) s = .next t ∧
      (t.core s.coreId).sPend = (s.core s.coreId).sPend ++ [{ at_ := at_, reg := k, add := false, value := s.rx a }] ∧
      (t.core s.coreId).s = (s.core s.coreId).s ∧ (at_, Ev.delayedRegisterWrite s.coreId) ∈ t.agenda ∧
      KeepsRegs s t ∧ GoesOn s t (s.me.pc + 4) st ∧ KeepsStrand s t ∧ t.mem = s.mem ∧ t.fe = s.fe) ∧
    (Settled s [d, a] → ∃ t, exec (.sadd d k a st) s = .next t ∧
      (t.core s.coreId).sPend = (s.core s.coreId).sPend ++
        [{ at_ := at_, reg := k, add := true, value := s.rx a, dst := some (s.cur, s.me.mode, d) }] ∧
      (t.core s.coreId).s = (s.core s.coreId).s ∧ (at_, Ev.delayedRegisterWrite s.coreId) ∈ t.agenda ∧
      KeepsRegs s t ∧ GoesOn s t (s.me.pc + 4) st ∧ KeepsStrand s t ∧ t.mem = s.mem ∧ t.fe = s.fe)

/-- 03 R62: the conditional branches. -/
def Sys2Proof.Claims.BranchesTakenOrNot : Prop :=
  ∀ (s : State) (a b : BitVec 7) (o : BitVec 9) (st : BitVec 2), ∀ f ∈ branches s a b o st, Settled s f.regs → f.Completes s

/-- 03 R63, R65, R66: DBNZ, CALL and JALR, which also write a register. -/
def Sys2Proof.Claims.CountingAndLinkingJumps : Prop :=
  ∀ (s : State) (d a : BitVec 7) (o : BitVec 9) (p : BitVec 23) (st : BitVec 2),
    (Settled s [a] → ∃ t, exec (.dbnz a o st) s = .next t ∧ Writes s t a (s.rx a - 1) ∧
      GoesOn s t (if s.rx a - 1 = 0 then s.me.pc + 4 else s.me.pc + 2 * o.signExtend 64) st ∧ KeepsStrand s t ∧ OnlyMe s t) ∧
    (∃ t, exec (.call p st) s = .next t ∧ t.me.lr = s.me.pc + 4 ∧ GoesOn s t (s.me.pc + 2 * p.signExtend 64) st ∧
      KeepsRegs s t ∧ OnlyMe s t ∧
      t.me = { s.me with lr := t.me.lr, pc := t.me.pc, wait := t.me.wait, nextTick := t.me.nextTick }) ∧
    (Settled s [d, a] → ∃ t, exec (.jalr d a st) s = .next t ∧ Writes s t d (s.me.pc + 4) ∧
      GoesOn s t (s.rx a &&& ~~~1) st ∧ KeepsStrand s t ∧ OnlyMe s t)

/-- 03 R65, R66, 02 R43: the jumps that write no register. -/
def Sys2Proof.Claims.JumpTargets : Prop :=
  ∀ (s : State) (a : BitVec 7) (a' : BitVec 4) (o : BitVec 23) (st : BitVec 2), ∀ f ∈ jumps s a a' o st,
    Settled s f.regs → f.Completes s

/-- 03 R74, 01 R27: NOP and every unallocated hint do nothing but go on as their stall count says. -/
def Sys2Proof.Claims.NoOpsOnlyGoOn : Prop :=
  ∀ (s : State) (f : BitVec 2) (r : BitVec 21) (m : BitVec 1) (st : BitVec 2), ∀ g ∈ noops f r m st, g.Completes s

/-- 03 R51, R57, R58, R62, R63, R65, R66, R74, 01 R27, 02 R43, 06 R112: branches and jumps reach their targets, DBNZ, CALL and JALR also write a register, no-ops only go on; a division gives its result at once or 40 cycles later; SWR and SADD go on with their write pending. -/
def Obligations.ControlFlowAndLateResults : Prop :=
  Claims.BranchesTakenOrNot ∧ Claims.CountingAndLinkingJumps ∧ Claims.JumpTargets ∧ Claims.NoOpsOnlyGoOn ∧ Claims.DivisionResults ∧ Claims.SharedWritesApplyLater


namespace Sys2Proof.Claims

open Sys2Proof.Machine

/-! ## Loads and stores -/

/-- Every load of 04 R80, R81, R82 and the short load of 02 R43, with its effective address. -/
def loads (s : State) (d a b : BitVec 7) (d' a' : BitVec 4) (o : BitVec 6) (o' : BitVec 3) (st : BitVec 2) : List Load :=
  let off : Word := o.signExtend 64
  let f := fun (i : Instr) (n e : Nat) =>
    ({ instr := i, regs := [d, a], dest := d, addr := s.rx a + BitVec.ofNat 64 n * off, size := n, ext := e, st := st } : Load)
  let e : BitVec 7 := d'.setWidth 7
  let c : BitVec 7 := a'.setWidth 7
  [ f (.ldB d a o st) 1 8, f (.ldBU d a o st) 1 0, f (.ldH d a o st) 2 16, f (.ldHU d a o st) 2 0, f (.ldW d a o st) 4 32,
    f (.ldWU d a o st) 4 0, f (.ldD d a o st) 8 0,
    { instr := .ldx d a b st, regs := [d, a, b], dest := d, addr := s.rx a + s.rx b, size := 8, st := st },
    { instr := .ldAcq d a st, regs := [d, a], dest := d, addr := s.rx a, size := 8, st := st, l1 := false, acq := true },
    { instr := .ldDShort d' a' o', regs := [e, c], dest := e, addr := s.rx c + 8 * o'.setWidth 64, size := 8, bytes := 2 } ]

/-- Every plain store of 04 R80, R81, R82 and the short store of 02 R43. -/
def stores (s : State) (d a b : BitVec 7) (d' a' : BitVec 4) (o : BitVec 6) (o' : BitVec 3) (st : BitVec 2) : List Store :=
  let off : Word := o.signExtend 64
  let f := fun (i : Instr) (n : Nat) =>
    ({ instr := i, regs := [d, a], addr := s.rx a + BitVec.ofNat 64 n * off, value := s.rx d, size := n, st := st } : Store)
  let e : BitVec 7 := d'.setWidth 7
  let c : BitVec 7 := a'.setWidth 7
  [ f (.stB d a o st) 1, f (.stH d a o st) 2, f (.stW d a o st) 4, f (.stD d a o st) 8,
    { instr := .stx d a b st, regs := [d, a, b], addr := s.rx a + s.rx b, value := s.rx d, size := 8, st := st },
    { instr := .stRel d a st, regs := [d, a], addr := s.rx a, value := s.rx d, size := 8, st := st, rel := true },
    { instr := .stDShort d' a' o', regs := [e, c], addr := s.rx c + 8 * o'.setWidth 64, value := s.rx e, size := 8, bytes := 2 } ]

/-- The word that the L1 serving the issuing core holds valid at an address of HBM. -/
def cached (s : State) (pa : Nat) : Option Word :=
  match (s.core (s.l1Core s.coreId pa)).l1Word pa with
  | some w => if w.valid then some w.data else none
  | none => none

/-! ## Accesses served at a home -/

/-- An access that the home of its word serves and the strand waits for: its kind, its size, what it needs of translation, its
destination (a run of registers), whether it is a release and what it sends. -/
structure HomeForm where
  instr : Instr
  regs  : List (BitVec 7)
  addr  : Word
  size  : Nat
  acc   : Access
  op    : MemOp
  dest  : Option (BitVec 7) := none
  rel   : Bool := false
  st    : BitVec 2 := 0

/-- The conditions under which an access is served in the step that issues it: its place is HBM of this module, its task may
write there, a release has nothing to wait for, no packet of the timed channel carries it, and the home refuses nothing. -/
def HomeForm.Served (f : HomeForm) (s : State) (pa : Nat) : Prop :=
  Settled s f.regs ∧ (∃ t, Reaches s f.size f.addr f.acc (.hbm pa t)) ∧ s.timedHome pa = false ∧
    (f.acc ≠ .read → s.myGang.confined = false) ∧ (f.rel = true → s.me.unacked = []) ∧
    s.homeRefusal f.op pa s.myGang.confined = none ∧ f.op.servable (s.feBit pa) = true

/-- No other access waits for a word, and none of its continuations is parked. -/
def Unwatched (s : State) (pa : Nat) : Prop :=
  (∀ r ∈ s.retries, r.addr ≠ wordAddr pa) ∧ s.parkMarks.contains (wordAddr pa) = false

/-- A home access without a register result: nothing of the registers changes. -/
def HomeForm.Done (f : HomeForm) (s t : State) : Prop :=
  exec f.instr s = .next t ∧ GoesOn s t (s.me.pc + 4) f.st ∧ KeepsStrand s t ∧ KeepsSlots s t ∧ KeepsCores s t

/-- An atomic of 04 R92 to R94 with the value it returns and the value it leaves, none where it leaves the word as it was. -/
structure AtomicForm where
  form : HomeForm
  old  : Nat
  new_ : Option Nat

def atomics (s : State) (pa : Nat) (d a b : BitVec 7) (st : BitVec 2) : List AtomicForm :=
  let old : Word := BitVec.ofNat 64 (memRead s.mem (pa / 8 * 8) 8)
  let four := memRead s.mem pa 4
  let v := s.rx b
  let f := fun (i : Instr) (op : MemOp) (n : Nat) =>
    ({ instr := i, regs := [d, a, b], addr := s.rx a, size := n, acc := .rmw, op := op, dest := some d, rel := true,
       st := st } : HomeForm)
  let g := fun (i : Instr) (o : AtomOp) (w : Word) => ({ form := f i (.atom o) 8, old := old.toNat, new_ := some w.toNat } : AtomicForm)
  [ g (.atomAdd d a b st) .add (old + v), g (.atomAnd d a b st) .and (old &&& v), g (.atomOr d a b st) .or (old ||| v),
    g (.atomXor d a b st) .xor (old ^^^ v), g (.atomMin d a b st) .min (if v.toInt < old.toInt then v else old),
    g (.atomMax d a b st) .max (if old.toInt < v.toInt then v else old),
    g (.atomMinu d a b st) .minu (if v.toNat < old.toNat then v else old),
    g (.atomMaxu d a b st) .maxu (if old.toNat < v.toNat then v else old), g (.atomSwap d a b st) .swap v,
    { form := f (.cas d a b st) .cas 8, old := old.toNat, new_ := if old = s.rx d then some v.toNat else none },
    { form := f (.fatomAddF32 d a b st) .fadd32 4, old := four,
      new_ := some (fp32.add .rne (fp32.decode four) (fp32.decode (v.toNat % 2 ^ 32))).1 },
    { form := f (.fatomAddF64 d a b st) .fadd64 8, old := old.toNat,
      new_ := some (fp64.add .rne (fp64.decode old.toNat) (fp64.decode v.toNat)).1 } ]

/-- The full-empty accesses of 04 R86 and R90, each with the FE value it needs (none: either), the FE value it leaves (none:
unchanged), and whether it stores x[D] (04 R86, R90). -/
structure FeForm where
  form   : HomeForm
  needs  : Option Bool
  leaves : Option Bool
  result : Option Word
  stores : Bool := false

def fullEmpty (s : State) (pa : Nat) (d a : BitVec 7) (st : BitVec 2) : List FeForm :=
  let w : Word := BitVec.ofNat 64 (memRead s.mem (pa / 8 * 8) 8)
  let ld := fun (i : Instr) (m : FeMode) (c : Access) =>
    ({ instr := i, regs := [d, a], addr := s.rx a, size := 8, acc := c, op := .ldfe m, dest := some d, st := st } : HomeForm)
  let sv := fun (i : Instr) (m : FeMode) =>
    ({ instr := i, regs := [d, a], addr := s.rx a, size := 8, acc := .rmw, op := .stfe m, rel := true, st := st } : HomeForm)
  let fs := fun (i : Instr) (b : Bool) =>
    ({ instr := i, regs := [a], addr := s.rx a, size := 8, acc := .write, op := .feset b, st := st } : HomeForm)
  [ { form := ld (.ldfeFf d a st) .ff .read, needs := some true, leaves := some true, result := some w },
    { form := ld (.ldfeFe d a st) .fe .rmw, needs := some true, leaves := some false, result := some w },
    { form := ld (.ldfeEf d a st) .ef .rmw, needs := some false, leaves := some true, result := some w },
    { form := sv (.stfeFf d a st) .ff, needs := some true, leaves := some true, result := none, stores := true },
    { form := sv (.stfeFe d a st) .fe, needs := some true, leaves := some false, result := none, stores := true },
    { form := sv (.stfeEf d a st) .ef, needs := some false, leaves := some true, result := none, stores := true },
    { form := sv (.stfeXf d a st) .xf, needs := none, leaves := some true, result := none, stores := true },
    { form := { instr := .feq d a st, regs := [d, a], addr := s.rx a, size := 8, acc := .read, op := .feq, dest := some d, st := st },
      needs := none, leaves := none, result := some (flag (s.feBit pa = true)) },
    { form := fs (.fesetE a st) false, needs := none, leaves := some false, result := none },
    { form := fs (.fesetF a st) true, needs := none, leaves := some true, result := none } ]

end Sys2Proof.Claims

open Sys2Proof Sys2Proof.Machine Sys2Proof.Claims

/-- 04 R80, R81, R82: a load from local memory, through the private alias or a window, gives the bytes there, extended as its
form says, and changes nothing else. -/
def Sys2Proof.Claims.LoadsFromLocalMemory : Prop :=
  ∀ (s : State) (d a b : BitVec 7) (d' a' : BitVec 4) (o : BitVec 6) (o' : BitVec 3) (st : BitVec 2),
    ∀ f ∈ loads s d a b d' a' o o' st, ∀ (p : Place) (pa : Nat), Settled s f.regs → Reaches s f.size f.addr .read p →
      p.isLocal = true → placeAddr p = some pa → Unhindered s p → s.damagedLocal pa f.size = false → f.Gives s (memRead s.mem pa f.size)

/-- 04 R80, R82, 07 R127: a load from HBM of this module gives the bytes of a word valid in the L1 that serves the core, and
otherwise (LD.ACQ always) the bytes at the home. -/
def Sys2Proof.Claims.LoadsFromHbm : Prop :=
  ∀ (s : State) (d a b : BitVec 7) (d' a' : BitVec 4) (o : BitVec 6) (o' : BitVec 3) (st : BitVec 2),
    ∀ f ∈ loads s d a b d' a' o o' st, ∀ (t : Bool) (pa : Nat), Settled s f.regs → Reaches s f.size f.addr .read (.hbm pa t) →
      (∀ w, f.l1 = true → cached s pa = some w → f.Gives s (w.toNat / 2 ^ (8 * (pa % 8)) % 2 ^ (8 * f.size))) ∧
      ((f.l1 = false ∨ cached s pa = none) → s.timedHome pa = false → s.homeRefusal (.load f.size) pa false = none →
        f.Gives s (memRead s.mem pa f.size))

/-- 04 R80 to R82, 07 R127: a load gives the bytes of its address, extended as its form says: from local memory, from the L1 where the word is valid there, or from the home; nothing else changes. -/
def Obligations.Loads : Prop :=
  Claims.LoadsFromLocalMemory ∧ Claims.LoadsFromHbm


/-- 04 R80 to R82, R414, 05 R107: a plain store to local memory or to HBM of this module writes exactly its bytes at the
address its operands give, and goes on; outside the private alias it is on its way until it is acknowledged. -/
def Obligations.StoresWriteTheirBytes : Prop :=
  ∀ (s : State) (d a b : BitVec 7) (d' a' : BitVec 4) (o : BitVec 6) (o' : BitVec 3) (st : BitVec 2),
    ∀ f ∈ stores s d a b d' a' o o' st, ∀ (p : Place) (pa : Nat), Settled s f.regs → Reaches s f.size f.addr .write p →
      placeAddr p = some pa → Unhindered s p → s.mayWrite p = true → (f.addr.toNat < 0x180000 ∨ s.me.unacked.length < 8) → (f.rel = true → s.me.unacked = []) →
      (p.isLocal = false → s.homeRefusal (.store f.size) pa false = none) →
      ∃ t, exec f.instr s = .next t ∧ t.mem = memWrite s.mem pa (f.value.toNat % 2 ^ (8 * f.size)) f.size ∧
        (∀ x, (x < pa ∨ pa + f.size ≤ x) → memByte t.mem x = memByte s.mem x) ∧ t.fe = s.fe ∧ KeepsRegs s t ∧
        t.me.pc = s.me.pc + BitVec.ofNat 64 f.bytes ∧ t.me.fcsr = s.me.fcsr ∧ t.me.lr = s.me.lr ∧ t.me.ox = s.me.ox ∧
        KeepsSlots s t ∧ KeepsCores s t ∧
        t.me.unacked.length = s.me.unacked.length + (if f.addr.toNat < 0x180000 then 0 else 1)

/-- 06 R109, R119: a load or store of the strand's own local memory whose bank another access of a higher rank holds in the cycle of its
issue forfeits the cycle: it issues again at the slot's next cycle, its loss is counted, and nothing else has happened. -/
def Sys2Proof.Claims.LostBanksForfeitTheIssue : Prop :=
  ∀ (s : State) (d a b : BitVec 7) (d' a' : BitVec 4) (o : BitVec 6) (o' : BitVec 3) (st : BitVec 2) (pa : Nat), s.winBank pa = none →
    let lost := fun (t : State) => OnlyMe s t ∧
      t.me = { s.me with wait := .cond .bank, nextTick := s.now + 16 * tickLen s.coreId, losses := s.me.losses + 1 }
    (∀ f ∈ loads s d a b d' a' o o' st, Settled s f.regs → Reaches s f.size f.addr .read (.ownMem pa) →
      ∃ t, exec f.instr s = .next t ∧ lost t) ∧
    (∀ f ∈ stores s d a b d' a' o o' st, Settled s f.regs → Reaches s f.size f.addr .write (.ownMem pa) → s.mayWrite (.ownMem pa) = true →
      (f.rel = true → s.me.unacked = []) → ∃ t, exec f.instr s = .next t ∧ lost t)

/-- 22 R354, 05 R106: a load that a DET job's home must serve leaves rotation; its request reaches the home 2 mc for each hop and 6 mc
after the mc of its injection. -/
def Sys2Proof.Claims.TimedLoadsTravelExactly : Prop :=
  ∀ (s : State) (d a b : BitVec 7) (d' a' : BitVec 4) (o : BitVec 6) (o' : BitVec 3) (st : BitVec 2),
    ∀ f ∈ loads s d a b d' a' o o' st, ∀ (tb : Bool) (pa : Nat), Settled s f.regs → Reaches s f.size f.addr .read (.hbm pa tb) →
      (f.l1 = false ∨ cached s pa = none) → s.timedHome pa = true →
      ∃ t r, exec f.instr s = .next t ∧ t.me.wait = .retry ∧ t.me.pc = s.me.pc ∧ KeepsRegs s t ∧ KeepsMemory s t ∧ KeepsSlots s t ∧
        r.op = .load f.size ∧ r.pa = some pa ∧ r.origin = .slot s.cur ∧
        ((s.injectFrom s.coreId 1 4096 (s.now / 16) + 2 * hops s.coreId (homeRouter (pa / 4096 % 32)) + 6) * 16,
          Ev.timed s.nextTimed (.homeRequest r)) ∈ t.agenda

/-- 04 R92 to R94: an atomic returns the value its word held, or its four bytes, and leaves the new value there in the same step;
no other byte and no FE bit changes. -/
def Obligations.AtomicsReturnTheOldValue : Prop :=
  ∀ (s : State) (pa : Nat) (d a b : BitVec 7) (st : BitVec 2), ∀ f ∈ atomics s pa d a b st, f.form.Served s pa →
    ∃ t, f.form.Done s t ∧ Writes s t d (BitVec.ofNat 64 f.old) ∧ t.fe = s.fe ∧
      (match f.new_ with
        | some v => t.mem = memWrite s.mem pa v f.form.size ∧
          ∀ x, (x < pa ∨ pa + f.form.size ≤ x) → memByte t.mem x = memByte s.mem x
        | none => t.mem = s.mem)

/-- 04 R86, R90: a full-empty access whose word has the FE value it needs is served: it returns the word or stores x[D], and
leaves the FE value its mode names; no other byte and no other FE bit changes. -/
def Sys2Proof.Claims.FullEmptyAccessesServed : Prop :=
  ∀ (s : State) (pa : Nat) (d a : BitVec 7) (st : BitVec 2), ∀ f ∈ fullEmpty s pa d a st, f.form.Served s pa →
    Unwatched s pa → f.needs.all (· == s.feBit pa) = true →
    ∃ t, f.form.Done s t ∧ t.mem = (if f.stores then memWrite s.mem pa (s.rx d).toNat 8 else s.mem) ∧
      (∀ q, t.feBit q = if wordAddr q = wordAddr pa then f.leaves.getD (s.feBit pa) else s.feBit q) ∧
      (match f.result with
        | some v => Writes s t d v
        | none => KeepsRegs s t)

/-- 04 R87: an access whose word has not the FE value it needs joins the word's retry list at its end and leaves rotation;
memory and every FE bit stay as they are. -/
def Sys2Proof.Claims.FullEmptyAccessesWait : Prop :=
  ∀ (s : State) (pa : Nat) (d a : BitVec 7) (st : BitVec 2), ∀ f ∈ fullEmpty s pa d a st,
    Settled s f.form.regs → (∃ t, Reaches s 8 f.form.addr f.form.acc (.hbm pa t)) → s.timedHome pa = false → s.myGang.confined = false →
    (f.form.rel = true → s.me.unacked = []) → s.homeRefusal f.form.op pa false = none →
    f.needs = some (!s.feBit pa) →
    ∃ t, exec f.form.instr s = .next t ∧ KeepsMemory s t ∧ KeepsRegs s t ∧ t.me.pc = s.me.pc ∧ t.me.wait = .retry ∧
      ∃ r : Retry, t.retries = s.retries ++ [r] ∧ r.addr = wordAddr pa ∧ r.origin = .slot s.cur ∧ r.op = f.form.op

/-- 04 R86, R87, R90: a full-empty access whose word has the FE value it needs is served, and one whose word has not joins the retry list and waits. -/
def Obligations.FullEmptyAccesses : Prop :=
  Claims.FullEmptyAccessesServed ∧ Claims.FullEmptyAccessesWait


/-- 04 R82 to R84, R103: the fences, LBSYNC and PREF complete and change no register, byte or FE bit; after an acquire no word of
the core's own L1 stays valid that is neither owned nor pending. -/
def Obligations.FencesAndPrefetchComplete : Prop :=
  ∀ (s : State) (a : BitVec 7) (st : BitVec 2),
    (∃ t, exec (.fenceAcq st) s = .next t ∧ GoesOn s t (s.me.pc + 4) st ∧ KeepsRegs s t ∧ KeepsStrand s t ∧ KeepsMemory s t ∧
      ((s.cluster (clusterOf s.coreId)).fused = false →
        ∀ l ∈ (t.core s.coreId).l1, ∀ i : Fin 8, (l.words[i]).valid = true → (l.words[i]).owned = true ∨ (l.words[i]).pending = true)) ∧
    (s.me.unacked = [] → ∃ t, exec (.fenceRel st) s = .next t ∧ GoesOn s t (s.me.pc + 4) st ∧ KeepsRegs s t ∧ KeepsStrand s t ∧
      OnlyMe s t) ∧
    (s.me.unacked = [] → ∃ t, exec (.fenceFull st) s = .next t ∧ GoesOn s t (s.me.pc + 4) st ∧ KeepsRegs s t ∧
      KeepsStrand s t ∧ KeepsMemory s t) ∧
    (∃ t, exec (.lbsync st) s = .next t ∧ GoesOn s t (s.me.pc + 4) st ∧ KeepsRegs s t ∧ KeepsStrand s t ∧ OnlyMe s t) ∧
    (s.me.badReg [a] = none → ∃ t, exec (.pref a st) s = .next t ∧ GoesOn s t (s.me.pc + 4) st ∧ KeepsRegs s t ∧ KeepsStrand s t ∧
      KeepsMemory s t) ∧
    (s.me.unacked ≠ [] → ∃ t, exec (.fenceRel st) s = .next t ∧ t.me.wait = .cond .acked ∧ t.me.pc = s.me.pc)

namespace Sys2Proof.Claims

open Sys2Proof.Machine

/-! ## Reduction lines -/

/-- A line that no access of FE kind or of another owner can be waiting on is not needed here: a reduction access changes no FE
bit. The accesses of 04 R97 to R100 as forms. -/
def drForm (i : Instr) (regs : List (BitVec 7)) (va : Word) (acc : Access) (op : MemOp) (dest : Option (BitVec 7)) (rel : Bool)
    (st : BitVec 2) : HomeForm :=
  { instr := i, regs := regs, addr := va, size := 64, acc := acc, op := op, dest := dest, rel := rel, st := st }

/-- The addends of 04 R98: the value of x[D] in its format on the line's grid. -/
def addends (s : State) (d a : BitVec 7) (st : BitVec 2) : List (HomeForm × DrKind × Fv) :=
  let v := (s.rx d).toNat
  [ (drForm (.dredF32 d a st) [d, a] (s.rx a) .rmw (.dred .f32) none false st, .f32, fp32.decode (v % 2 ^ 32)),
    (drForm (.dredBf16 d a st) [d, a] (s.rx a) .rmw (.dred .bf16) none false st, .f32, bf16.decode (v % 2 ^ 16)),
    (drForm (.dredF64 d a st) [d, a] (s.rx a) .rmw (.dred .f64) none false st, .f64, fp64.decode v) ]

/-- The reads of 04 R100 of one register: the accumulator rounded to the format, the canonical NaN where it is saturated. -/
def drReads (s : State) (d a : BitVec 7) (st : BitVec 2) : List (HomeForm × DrFmt) :=
  [ (drForm (.dreadF32 d a st) [d, a] (s.rx a) .read (.dread .f32) (some d) true st, .f32),
    (drForm (.dreadBf16 d a st) [d, a] (s.rx a) .read (.dread .bf16) (some d) true st, .bf16),
    (drForm (.dreadF64 d a st) [d, a] (s.rx a) .read (.dread .f64) (some d) true st, .f64) ]

end Sys2Proof.Claims

open Sys2Proof Sys2Proof.Machine Sys2Proof.Claims

/-- 04 R96, R97: DRINIT zeroes the line and marks it with its kind. -/
def Sys2Proof.Claims.ReductionLinesStart : Prop :=
  ∀ (s : State) (a : BitVec 7) (st : BitVec 2) (pa : Nat),
    ∀ p ∈ [(Instr.drinitF32 a st, DrKind.f32), (Instr.drinitF64 a st, DrKind.f64)],
      let f := drForm p.1 [a] (s.rx a) .write (.drinit p.2) none false st
      f.Served s pa → ∃ t, f.Done s t ∧ KeepsRegs s t ∧ t.fe = s.fe ∧ t.drKind pa = some p.2 ∧
        t.mem = memWrite s.mem (pa / 64 * 64) 0 64 ∧ t.drAcc p.2 pa = 0

/-- 04 R98: DRED adds its addend to the line exactly: the value of x[D] on the line's grid, with the saturation mark sticky. -/
def Sys2Proof.Claims.ReductionsAddExactly : Prop :=
  ∀ (s : State) (d a : BitVec 7) (st : BitVec 2) (pa : Nat), ∀ p ∈ addends s d a st,
    p.1.Served s pa → ∃ t, p.1.Done s t ∧ KeepsRegs s t ∧ t.fe = s.fe ∧ t.drLines = s.drLines ∧
      t.mem = memWrite s.mem (pa / 64 * 64) (p.2.1.toBits (p.2.1.add (s.drAcc p.2.1 pa) (p.2.1.addend p.2.2))) 64

/-- 04 R99, R100: DRED.ACC adds a whole accumulator from registers, of five words on an F32 line and eight on an F64 line, and
DREAD.ACC returns one; DREAD of a format returns the rounded accumulator. None changes an FE bit, and reads change no memory. -/
def Sys2Proof.Claims.ReductionReadsAndWholeAccumulators : Prop :=
  ∀ (s : State) (d a : BitVec 7) (st : BitVec 2) (pa : Nat),
    (∀ p ∈ drReads s d a st, ∀ k, s.drKind pa = some k → p.1.Served s pa → ∃ t, p.1.Done s t ∧ KeepsMemory s t ∧
      Writes s t d ((drRead k p.2 (s.drAcc k pa)).headD 0)) ∧
    (∀ k, s.drKind pa = some k → s.me.runBad d k.regs = none → Settled s (a :: regRun d k.regs) →
      let f := drForm (.dredAcc d a st) (regRun d 5 ++ [a]) (s.rx a) .rmw (.dred .acc) none false st
      let g := drForm (.dreadAcc d a st) (regRun d 5 ++ [a]) (s.rx a) .read (.dread .acc) (some d) true st
      (f.Served s pa → ∃ t, f.Done s t ∧ KeepsRegs s t ∧ t.fe = s.fe ∧ t.mem = memWrite s.mem (pa / 64 * 64)
        (k.toBits (k.add (s.drAcc k pa) (k.ofBits (ofWords (s.me.rxs d.toNat k.regs))))) 64) ∧
      (g.Served s pa → ∃ t, g.Done s t ∧ KeepsMemory s t ∧
        t.me.rxs d.toNat k.regs = toWords (k.toBits (s.drAcc k pa)) k.regs))

/-- 04 R96 to R100: DRINIT marks and zeroes a line, DRED adds exactly, DRED.ACC adds a whole accumulator, and DREAD returns the rounded accumulator or the whole. -/
def Obligations.ReductionLines : Prop :=
  Claims.ReductionLinesStart ∧ Claims.ReductionsAddExactly ∧ Claims.ReductionReadsAndWholeAccumulators


/-- 04 R102: BMOV with a count of 0 completes with no access; with another count and three different registers its strand
leaves rotation and the first step is due. A step between bytes of the strand's own local memory whose banks are free moves the bytes up to the next
64-byte boundary of the destination, and counts D, A and B; the last step completes the instruction. -/
def Obligations.BlockMoves : Prop :=
  ∀ (s : State) (d a b : BitVec 7) (st : BitVec 2), d ≠ a → d ≠ b → a ≠ b →
    (Settled s [d, a, b] → s.rx b = 0 →
      ∃ t, exec (.bmov d a b st) s = .next t ∧ GoesOn s t (s.me.pc + 4) st ∧ KeepsRegs s t ∧ KeepsStrand s t ∧ OnlyMe s t) ∧
    (Settled s [d, a, b] → s.rx b ≠ 0 →
      ∃ t, exec (.bmov d a b st) s = .next t ∧ t.me.wait = .bmov ∧ t.me.rep = some (.bmov d a b st, b) ∧ KeepsRegs s t ∧
        t.me.pc = s.me.pc ∧ KeepsMemory s t ∧ (s.now + tickLen s.coreId, Ev.bmovStep s.cur) ∈ t.agenda) ∧
    (∀ (id : Nat) (v : Slot), s.slot id = v → v.wait = .bmov → v.rep = some (.bmov d a b st, b) → v.stepAt ≤ s.now →
      v.bread = [] → v.bput = 0 → (∀ k, claimAt (s.core (id / 16)).claims k (s.cycleOf (id / 16)) = none) →
      s.ev = some (.bmovStep id) → v.mode = false → v.unacked.length < 8 →
      d.toNat < v.n → a.toNat < v.n → b.toNat < v.n → v.rx b ≠ 0 →
      (v.rx d).toNat % 64 = 0 → (v.rx a).toNat % 8 = 0 → 64 ≤ (v.rx b).toNat →
      (v.rx d).toNat + 64 ≤ 0x180000 → (v.rx a).toNat + 64 ≤ 0x180000 → s.bad = [] →
      (∀ i, i < 8 → s.inInbox (localBase (id / 16) + (v.rx d).toNat + 8 * i) = false) →
      ∃ t, exec .bmovStep s = .next t ∧ t.fe = s.fe ∧
        t.mem = memPut s.mem (localBase (id / 16) + (v.rx d).toNat) (memBytes s.mem (localBase (id / 16) + (v.rx a).toNat) 64) ∧
        (t.slot id).rx d = v.rx d + 64 ∧ (t.slot id).rx a = v.rx a + 64 ∧ (t.slot id).rx b = v.rx b - 64 ∧
        (v.rx b = 64 → (t.slot id).wait = .none ∧ (t.slot id).pc = v.pc + 4) ∧
        (v.rx b ≠ 64 → (t.slot id).wait = .bmov ∧ (t.slot id).pc = v.pc))

open Sys2Proof Sys2Proof.Machine Sys2Proof.Claims

/-- 25 R384, R385, 23 R366: TAKING A TRAP at job privilege writes the record of R384 before the earlier ones, cause from its word
w0 and epc from its w1, sets the mode bit, sends the pc to firmware's handler (an opaque address with bit 0 cleared, log 6), and leaves the strand's registers, lr, fcsr, ox and
shadow bank as the trap found them. -/
def Sys2Proof.Claims.TrapEntry : Prop :=
  ∀ (s : State) (id : Nat) (t : TrapInfo) (epc : Word), (s.slot id).mode = false →
    let v := s.slot id
    let u := (s.takeTrap id t epc).slot id
    u.mode = true ∧ u.cause = BitVec.ofNat 64 (t.info.toNat * 2 ^ 32 + t.origin * 256 + t.cause.code) ∧ u.epc = epc ∧
      u.pc = Config.handlerEntry &&& ~~~1 ∧ u.trapArea = s.trapRecord id t epc :: v.trapArea ∧
      (u.trapArea.headD []).take 3 = [u.cause, epc, t.addr] ∧
      u.x = v.x ∧ u.shadow = v.shadow ∧ u.lr = v.lr ∧ u.fcsr = v.fcsr ∧ u.ox = v.ox ∧ u.vt = v.vt ∧ u.tid = v.tid ∧
      u.nestedCsr = v.nestedCsr

/-- 25 R388: a trap inside a handler saves cause and epc first; the second nesting level drops the gang. -/
def Sys2Proof.Claims.NestedTrapEntry : Prop :=
  ∀ (s : State) (id : Nat) (t : TrapInfo) (epc : Word), (s.slot id).mode = true →
    let v := s.slot id
    let u := s.takeTrap id t epc
    (u.slot id).nestedCsr = (v.cause, v.epc) :: v.nestedCsr ∧ (u.slot id).cause = t.word0 ∧ (u.slot id).epc = epc ∧
      (u.slot id).mode = true ∧ (u.slot id).pc = Config.handlerEntry &&& ~~~1 ∧
      (v.nestedCsr ≠ [] → (u.now, Ev.drop id) ∈ u.agenda)

/-- 23 R366, R371: RETURNING FROM A TRAP clears bit 0 of epc into the pc, clears the mode bit and cause, drops the innermost record and what
a nested trap saved (log 102), and lets the strand issue again, 16 cycles later at the earliest. -/
def Sys2Proof.Claims.TrapReturn : Prop :=
  ∀ (s : State) (id : Nat) (pc : Word),
    let v := s.slot id
    let u := (s.returnFromTrap id pc).slot id
    u.pc = pc &&& ~~~1 ∧ u.wait = .none ∧ u.trapArea = v.trapArea.tail ∧ u.handlerBlock = none ∧ u.x = v.x ∧
      u.shadow = v.shadow ∧ u.lr = v.lr ∧ u.fcsr = v.fcsr ∧ u.ox = v.ox ∧ u.mode = false ∧ u.cause = 0 ∧
      u.nestedCsr = v.nestedCsr.tail ∧ u.nextTick = s.now + 16 * tickLen (id / 16)

/-- 25 R384, R385, R388, 23 R366, R371: taking a trap, taking one inside a handler, and returning. -/
def Obligations.TrapEntryAndReturn : Prop :=
  Claims.TrapEntry ∧ Claims.NestedTrapEntry ∧ Claims.TrapReturn


/-- 25 R387 stages 3 and 5, 01 R22, 06 R113: an instruction that names a register outside the window traps REGWIN with the field as
DETAIL, and with CHK set one that uses a register before its pending result lands traps STALL_SHORT; neither has any effect. That D is
looked at before A and A before B is the model's reading (log 24). -/
def Sys2Proof.Claims.RegisterChecksTrapFirst : Prop :=
  ∀ (s : State) (d a b : BitVec 7) (k st : BitVec 2), ∀ f ∈ threeRegister s d a b k st, ∀ r : BitVec 7,
    (s.me.badReg f.regs = some r → exec f.instr s = .next (s.takeTrap s.cur { cause := .regwin, detail := r.toNat } s.me.pc)) ∧
    (s.me.badReg f.regs = none → s.me.earlyReg f.regs = some r →
      exec f.instr s = .next (s.takeTrap s.cur { cause := .stallShort, detail := r.toNat } s.me.pc))

/-- 04 R77, 25 R386, R387 stages 7 and 8: a load or store whose address is not a multiple of its size traps ALIGN before anything
else of the access is checked; one that does not translate traps XLAT, and one that is refused traps PROT; ADDR is the address. -/
def Sys2Proof.Claims.AccessChecksTrap : Prop :=
  ∀ (s : State) (d a b : BitVec 7) (d' a' : BitVec 4) (o : BitVec 6) (o' : BitVec 3) (st : BitVec 2),
    (∀ f ∈ loads s d a b d' a' o o' st, Settled s f.regs →
      (f.addr.toNat % f.size ≠ 0 →
        exec f.instr s = .next (s.takeTrap s.cur { cause := .align, addr := f.addr } s.me.pc)) ∧
      (∀ l, Reaches s f.size f.addr .read (.xlat l) →
        exec f.instr s = .next (s.takeTrap s.cur { cause := .xlat, addr := f.addr, detail := l } s.me.pc)) ∧
      (Reaches s f.size f.addr .read .prot →
        exec f.instr s = .next (s.takeTrap s.cur { cause := .prot, addr := f.addr } s.me.pc))) ∧
    (∀ f ∈ stores s d a b d' a' o o' st, Settled s f.regs →
      (f.addr.toNat % f.size ≠ 0 →
        exec f.instr s = .next (s.takeTrap s.cur { cause := .align, addr := f.addr } s.me.pc)) ∧
      (∀ l, Reaches s f.size f.addr .write (.xlat l) →
        exec f.instr s = .next (s.takeTrap s.cur { cause := .xlat, addr := f.addr, detail := l } s.me.pc)) ∧
      (∀ p, Reaches s f.size f.addr .write p → (p = .prot ∨ ((placeAddr p).isSome = true ∧ s.mayWrite p = false)) →
        exec f.instr s = .next (s.takeTrap s.cur { cause := .prot, addr := f.addr } s.me.pc)))

/-- 02 R42, 01 R14, 25 R386: bits that are no instruction trap ILLEGAL at their own address, and an instruction whose halfword cannot
be fetched traps XLAT, with the level, or PROT. -/
def Sys2Proof.Claims.FetchAndDecodeTraps : Prop :=
  ∀ (s : State) (w : BitVec 32) (addr : Word) (level : Nat),
    (s.ev = some (.illegalEncoding w) → exec .illegalEncoding s = .next (s.takeTrap s.cur { cause := .illegal } s.me.pc)) ∧
    (s.ev = some (.instructionFetchFault true addr level) →
      exec .instructionFetchFault s = .next (s.takeTrap s.cur { cause := .prot, addr := addr } s.me.pc)) ∧
    (s.ev = some (.instructionFetchFault false addr level) →
      exec .instructionFetchFault s = .next (s.takeTrap s.cur { cause := .xlat, addr := addr, detail := level } s.me.pc))

/-- 25 R386, R387, 01 R14, R22, 02 R42, 04 R77, 06 R113: the checks of an instruction in their order: decoding, registers, alignment, translation and permission, each with its trap and no other effect. -/
def Obligations.ChecksTrap : Prop :=
  Claims.RegisterChecksTrapFirst ∧ Claims.AccessChecksTrap ∧ Claims.FetchAndDecodeTraps


/-- 06 R112, 03 R57, R58, 09 R173: what is due on a core lands. A slot's one due result, with no enabled flag, is in its register and
its flags are in fcsr; a floating-point result with an enabled flag traps FPE there, its own address the PC of the record and nothing
written; a core-shared write that is due sets the register, and SADD's adds and returns the old value. -/
def Sys2Proof.Claims.DueResultsLand : Prop :=
  ∀ (s : State) (c i : Nat), i < 16 → s.ev = some (.delayedRegisterWrite c) →
    let id := c * 16 + i
    (∀ (w : DelayedWrite) (r : BitVec 7), (∀ x ∈ (s.core c).sPend, s.now < x.at_) →
      (∀ k, k < 16 → k ≠ i → ∀ x ∈ (s.slot (c * 16 + k)).writes, s.now < x.at_) →
      (s.slot id).writes = [w] → w.at_ ≤ s.now → w.reg = some r → w.fw = (s.slot id).mode →
      w.flags &&& (s.slot id).enables = 0 →
      ∃ t, exec .delayedRegisterWrite s = .next t ∧ (t.slot id).rx r = w.value ∧ (t.slot id).writes = [] ∧
        (t.slot id).fcsr = (s.slot id).fcsr ||| w.flags.setWidth 64 ∧ (t.slot id).pc = (s.slot id).pc ∧ KeepsMemory s t) ∧
    (∀ (w : DelayedWrite) (pc : Word), (∀ x ∈ (s.core c).sPend, s.now < x.at_) →
      (∀ k, k < 16 → k ≠ i → ∀ x ∈ (s.slot (c * 16 + k)).writes, s.now < x.at_) →
      (s.slot id).writes = [w] → w.at_ ≤ s.now → w.pc = some pc → w.reg ≠ none → w.flags &&& (s.slot id).enables ≠ 0 →
      ∃ t, exec .delayedRegisterWrite s = .next t ∧ (t.slot id).mode = true ∧ (t.slot id).epc = pc ∧
        (t.slot id).cause = BitVec.ofNat 64 8 ∧ (t.slot id).x = (s.slot id).x ∧ (t.slot id).fcsr = (s.slot id).fcsr ∧
        (t.slot id).writes = []) ∧
    (∀ w : SharedWrite, (s.core c).sPend = [w] → w.at_ ≤ s.now →
      (∀ k, k < 16 → ∀ x ∈ (s.slot (c * 16 + k)).writes, s.now < x.at_) →
      ∃ t, exec .delayedRegisterWrite s = .next t ∧ (t.core c).sPend = [] ∧ KeepsMemory s t ∧
        (t.core c).s = (s.core c).s.set w.reg.toNat
          (if w.add then (s.core c).s[w.reg.toNat]'w.reg.isLt + w.value else w.value) w.reg.isLt ∧
        (∀ r, w.dst = some (id, (s.slot id).mode, r) → (t.slot id).rx r = (s.core c).s[w.reg.toNat]'w.reg.isLt))

/-- 25 R388, 06 R111, R121, 23 R375, 26 R410, 03 R70: a pending asynchronous cause traps at the strand's issue boundary; a slot without a
strand, or whose strand can be taken at once, is removed, restored or stopped; a breakpoint stops the slot before its instruction;
an expired delay completes its SUSP. -/
def Sys2Proof.Claims.SlotStepsTakeEffect : Prop :=
  ∀ (s : State) (id : Nat),
    let v := s.slot id
    (∀ a, s.ev = some (.asyncTrapRaise id) → v.pending = [a] → v.live = true → v.n ≠ 0 → v.mode = false → v.wait = .none → v.fpHold ≤ s.now →
      ∃ t, exec .asyncTrapRaise s = .next t ∧ (t.slot id).cause = a.info.word0 ∧ (t.slot id).epc = v.pc ∧
        (t.slot id).mode = true ∧ (t.slot id).pending = [] ∧ (t.slot id).asyncTrap = true ∧ (t.slot id).x = v.x) ∧
    (v.askers = [] → (v.live = false ∨ ((s.gang v.gang).isRoam = false ∧ v.wait = .none ∧ s.resultsDue id = none ∧
        v.stepAt + s.vLost id ≤ s.now)) →
      (s.ev = some (.slotRemoval id) → exec .slotRemoval s = .next (s.setSlot id { v with removed := true })) ∧
      (s.ev = some (.debugStop id) → exec .debugStop s = .next (s.setSlot id { v with stopped := true }))) ∧
    (v.askers = [] → s.ev = some (.slotRestore id) →
      ∃ t, exec .slotRestore s = .next t ∧ (t.slot id).removed = false ∧ (t.slot id).pc = v.pc ∧ (t.slot id).x = v.x ∧
        (∀ k, k ≠ id → t.slot k = s.slot k) ∧ KeepsMemory s t) ∧
    (s.ev = some (.breakpoint id) →
      ∃ t, exec .breakpoint s = .next t ∧ (t.slot id).stopped = true ∧ (t.slot id).past = some v.pc ∧ (t.slot id).pc = v.pc ∧
        (t.slot id).x = v.x ∧ ∀ k, k ≠ id → t.slot k = s.slot k) ∧
    (∀ u, id < 65536 → s.ev = some (.suspDelayExpiry id) → v.wait = .delay u → u ≤ s.now →
      ∃ t, exec .suspDelayExpiry s = .next t ∧ (t.slot id).wait = .none ∧ (t.slot id).pc = v.pc + 4 ∧ (t.slot id).x = v.x ∧
        OnlyMe { s with cur := id } { t with cur := id })

/-- 06 R111, R112, R121, 03 R57, R58, R70, 09 R173, 23 R375, 25 R388, 26 R410: results that are due land, and a slot is removed, restored, stopped, trapped or resumed as its step says. -/
def Obligations.DueStepsTakeEffect : Prop :=
  Claims.DueResultsLand ∧ Claims.SlotStepsTakeEffect


namespace Sys2Proof.Claims

open Sys2Proof.Machine

/-! ## Scalar floating point -/

/-- A scalar floating-point instruction with the bits and the flags of its result, and its latency (02 R46). -/
structure FloatForm where
  instr  : Instr
  regs   : List (BitVec 7)
  dest   : BitVec 7
  result : Nat × BitVec 5
  lat    : Nat
  st     : BitVec 2 := 0

/-- 1 where a comparison holds, else 0, with its flags. -/
def relation (r : Bool × BitVec 5) : Nat × BitVec 5 := (flag (r.1 = true) |>.toNat, r.2)

/-- The arithmetic of 09 R167 and R168 and the comparisons of R169, in FP32 and FP64: one rounding of the exact result. -/
def floats (s : State) (d a b : BitVec 7) (st : BitVec 2) : List FloatForm :=
  let rm := s.me.rm
  let low := fun (r : BitVec 7) => (s.rx r).toNat % 2 ^ 32
  let all := fun (r : BitVec 7) => (s.rx r).toNat
  let x := fp32.decode (low a)
  let y := fp32.decode (low b)
  let u := fp64.decode (all a)
  let v := fp64.decode (all b)
  let f := fun (i : Instr) (lat : Nat) (r : Nat × BitVec 5) =>
    ({ instr := i, regs := [d, a, b], dest := d, result := r, lat := lat, st := st } : FloatForm)
  let g := fun (i : Instr) (lat : Nat) (r : Nat × BitVec 5) =>
    ({ instr := i, regs := [d, a], dest := d, result := r, lat := lat, st := st } : FloatForm)
  [ f (.faddF32 d a b st) 12 (fp32.add rm x y), f (.fsubF32 d a b st) 12 (fp32.add rm x y.negate),
    f (.fmulF32 d a b st) 12 (fp32.mul rm x y), f (.fdivF32 d a b st) 32 (fp32.div rm x y),
    f (.ffmaF32 d a b st) 12 (fp32.fma rm x y (fp32.decode (low d))), g (.fsqrtF32 d a st) 32 (fp32.sqrt rm x),
    f (.fminF32 d a b st) 12 (fp32.minMax false (low a) (low b)), f (.fmaxF32 d a b st) 12 (fp32.minMax true (low a) (low b)),
    f (.fcmpEqF32 d a b st) 8 (relation (fpCompare 0 x y)), f (.fcmpLtF32 d a b st) 8 (relation (fpCompare 1 x y)),
    f (.fcmpLeF32 d a b st) 8 (relation (fpCompare 2 x y)), f (.fcmpUnF32 d a b st) 8 (relation (fpCompare 3 x y)),
    f (.faddF64 d a b st) 14 (fp64.add rm u v), f (.fsubF64 d a b st) 14 (fp64.add rm u v.negate),
    f (.fmulF64 d a b st) 14 (fp64.mul rm u v), f (.fdivF64 d a b st) 56 (fp64.div rm u v),
    f (.ffmaF64 d a b st) 14 (fp64.fma rm u v (fp64.decode (all d))), g (.fsqrtF64 d a st) 56 (fp64.sqrt rm u),
    f (.fminF64 d a b st) 14 (fp64.minMax false (all a) (all b)), f (.fmaxF64 d a b st) 14 (fp64.minMax true (all a) (all b)),
    f (.fcmpEqF64 d a b st) 8 (relation (fpCompare 0 u v)), f (.fcmpLtF64 d a b st) 8 (relation (fpCompare 1 u v)),
    f (.fcmpLeF64 d a b st) 8 (relation (fpCompare 2 u v)), f (.fcmpUnF64 d a b st) 8 (relation (fpCompare 3 u v)) ]

/-- The sign operations and class masks of 09 R168 and R170, which raise no flag. -/
def signsAndClasses (s : State) (d a : BitVec 7) (st : BitVec 2) : List Form :=
  let x := s.rx a
  let low := x.toNat % 2 ^ 32
  let g := fun (i : Instr) (v : Word) => ({ instr := i, regs := [d, a], dest := d, value := v, st := st } : Form)
  [ g (.fabsF32 d a st) (x &&& 0x7FFFFFFF), g (.fnegF32 d a st) ((x ^^^ 0x80000000) &&& 0xFFFFFFFF),
    g (.fabsF64 d a st) (x &&& 0x7FFFFFFFFFFFFFFF), g (.fnegF64 d a st) (x ^^^ 0x8000000000000000),
    g (.fclassF32 d a st) (BitVec.ofNat 64 (fp32.classify low)), g (.fclassF64 d a st) (BitVec.ofNat 64 (fp64.classify x.toNat)) ]

/-- ICVT's integer operand: 64 or 32 bits, signed or unsigned (09 R172). -/
def integerOf (h w : BitVec 1) (x : Word) : Int :=
  if w = 0 then (if h = 0 then x.toInt else x.toNat)
  else (if h = 0 then (x.setWidth 32).toInt else (x.setWidth 32).toNat)
/-- The least and the greatest integer ICVT gives (08 R154). -/
def leastOf (h w : BitVec 1) : Int := if h = 1 then 0 else if w = 0 then -2 ^ 63 else -2 ^ 31
def greatestOf (h w : BitVec 1) : Int :=
  if h = 1 then (if w = 0 then 2 ^ 64 - 1 else 2 ^ 32 - 1) else (if w = 0 then 2 ^ 63 - 1 else 2 ^ 31 - 1)

/-- The conversions of 09 R171 and R172 from a format `src` to a format `dst`, and between a format and an integer: the format
codes 0 to 4 for FCVT, 0 to 2 for ICVT. -/
def conversions (s : State) (d a : BitVec 7) (q h w : BitVec 1) (t v : BitVec 3) (st : BitVec 2) (src dst : Fmt) :
    List FloatForm :=
  let rm := s.me.rm
  let lat := if t = 0 ∨ v = 0 then 14 else 12
  let latV := if v = 0 then 14 else 12
  let of := fun (f : Fmt) => (s.rx a).toNat % 2 ^ f.width
  let g := fun (i : Instr) (lat : Nat) (r : Nat × BitVec 5) =>
    ({ instr := i, regs := [d, a], dest := d, result := r, lat := lat, st := st } : FloatForm)
  let n := integerOf h w (s.rx a)
  let k := toIntClamp rm (leastOf h w) (greatestOf h w) (src.decode (of src))
  (if t ≠ v then [g (.fcvt d a q t v st) lat (fpConvert src dst rm (q == 1) (of src))] else []) ++
  (if v.toNat ≤ 2 then
    [ g (.icvt d a 0 h w v st) latV (src.round rm false (.fin (decide (n < 0)) n.natAbs 0)),
      g (.icvt d a 1 h w v st) latV ((BitVec.ofInt 64 k.1).toNat, k.2) ] else [])

/-- What a scalar floating-point instruction does: without an enabled flag, the flags and the value are there before the strand's next
issue where the latency ends before it; a result with an enabled flag, or of a longer latency, is pending with its flags and the address
of its instruction until its own tick. -/
def FloatForm.Completes (f : FloatForm) (s : State) : Prop :=
  let on := f.result.2 &&& s.me.enables
  (on = 0 → f.lat ≤ 16 * (1 + f.st.toNat) →
    ∃ t, exec f.instr s = .next t ∧ Writes s t f.dest (BitVec.ofNat 64 f.result.1) ∧ GoesOn s t (s.me.pc + 4) f.st ∧
      t.me.fcsr = s.me.fcsr ||| f.result.2.setWidth 64 ∧
      KeepsStrand (s.setMe { s.me with fcsr := t.me.fcsr }) t ∧ OnlyMe s t) ∧
  ((on ≠ 0 ∨ 16 * (1 + f.st.toNat) < f.lat) →
    ∃ t, exec f.instr s = .next t ∧ KeepsRegs s t ∧ GoesOn s t (s.me.pc + 4) f.st ∧ KeepsStrand s t ∧
      t.me.writes = s.me.writes ++
        [{ at_ := s.now + f.lat * tickLen s.coreId
           reg := some f.dest
           fw := s.me.mode
           value := BitVec.ofNat 64 f.result.1
           flags := f.result.2
           pc := some s.me.pc }] ∧
      (s.now + f.lat * tickLen s.coreId, Ev.delayedRegisterWrite s.coreId) ∈ t.agenda ∧
      t = { s with slots := t.slots, agenda := t.agenda } ∧ KeepsSlots s t)

end Sys2Proof.Claims

open Sys2Proof Sys2Proof.Machine Sys2Proof.Claims

/-- 09 R167 to R169, R173, 23 R365: scalar FP32 and FP64 arithmetic and comparisons give the exact result rounded once in the mode of
fcsr, and OR their flags into fcsr; one that raises an enabled flag writes nothing yet, and traps as it lands (DueResultsLand). -/
def Obligations.FloatResults : Prop :=
  ∀ (s : State) (d a b : BitVec 7) (st : BitVec 2), ∀ f ∈ floats s d a b st, Settled s f.regs → f.Completes s

/-- 09 R168, R170: FABS and FNEG touch only the sign bit, clearing the bits above an F32, and FCLASS gives one of ten bits; none
raises a flag. -/
def Sys2Proof.Claims.FloatSignsAndClasses : Prop :=
  ∀ (s : State) (d a : BitVec 7) (st : BitVec 2), ∀ f ∈ signsAndClasses s d a st, Settled s f.regs →
    f.Completes s ∧ ((∃ g, f.instr = .fclassF32 d a g ∨ f.instr = .fclassF64 d a g) → ∃ k, k < 10 ∧ f.value = BitVec.ofNat 64 (2 ^ k))

/-- 09 R171, R172, 08 R154: FCVT between any two of the five formats and ICVT between an integer and FP64, FP32 or BF16; a float
beyond the integer's range gives the nearest end of it, a NaN gives 0, each with NV. -/
def Sys2Proof.Claims.ConversionResults : Prop :=
  ∀ (s : State) (d a : BitVec 7) (q h w : BitVec 1) (t v : BitVec 3) (st : BitVec 2) (src dst : Fmt),
    fmtOf v.toNat = some src → fmtOf t.toNat = some dst → ∀ f ∈ conversions s d a q h w t v st src dst,
    Settled s f.regs → f.Completes s

/-- 09 R168, R170 to R172, 08 R154: sign operations, classes, and conversions between formats and integers. -/
def Obligations.FloatSignsClassesAndConversions : Prop :=
  Claims.FloatSignsAndClasses ∧ Claims.ConversionResults


namespace Sys2Proof.Claims

open Sys2Proof.Machine

/-- The number that a finite value is. -/
def ratOf (neg : Bool) (m : Nat) (e : Int) : ℚ := (if neg then -1 else 1) * (m : ℚ) * (2 : ℚ) ^ e

end Sys2Proof.Claims

/-- 08 R151 to R153: what the rounding of every format gives for a number that is not 0 and does not overflow: a finite value of the format with no other between it and the number, on the side the mode names, and under RNE none nearer;
NX tells exactly whether the two differ. -/
def Obligations.RoundingIsCorrect : Prop :=
  ∀ f ∈ [fp64, fp32, bf16, fE4m3, fE5m2], ∀ (rm : Rm) (neg : Bool) (num den : Nat) (e : Int), 0 < num → 0 < den →
    let x : ℚ := ratOf neg num e / den
    let r := f.roundRat rm false neg num den e
    r.2 &&& flagOF = 0 → ∃ m k, f.decode r.1 = .fin neg m k ∧ (r.2 &&& flagNX = 0 ↔ ratOf neg m k = x) ∧
      (rm = .rdn → ratOf neg m k ≤ x) ∧ (rm = .rup → x ≤ ratOf neg m k) ∧ (rm = .rtz → |ratOf neg m k| ≤ |x|) ∧
      ∀ w b n j, f.decode w = .fin b n j →
        ¬ (ratOf neg m k < ratOf b n j ∧ ratOf b n j < x) ∧ ¬ (x < ratOf b n j ∧ ratOf b n j < ratOf neg m k) ∧
        (rm = .rne → |ratOf neg m k - x| ≤ |ratOf b n j - x|)

namespace Sys2Proof.Claims

open Sys2Proof.Machine

/-! ## Vector instructions -/

/-- The vector instructions whose step computes each element of D from one element of A and B (09 R178, R179). -/
def elementwise (d a b : BitVec 7) (st : BitVec 2) : List (Instr × VOp × List (BitVec 7)) :=
  [ (.vadd d a b st, .add, [d, a, b]), (.vsub d a b st, .sub, [d, a, b]), (.vmul d a b st, .mul, [d, a, b]),
    (.vfma d a b st, .fma, [d, a, b]), (.vmax d a b st, .max, [d, a, b]), (.vmin d a b st, .min, [d, a, b]),
    (.vscale d a st, .scale, [d, a]), (.vcmp d a b st, .cmp, [d, a, b]), (.vset d st, .set, [d]),
    (.vexp2 d a st, .exp2, [d, a]), (.vrcp d a st, .rcp, [d, a]), (.vcvt d a st, .cvt, [d, a]) ]

/-- The reduction and the two block-format instructions (09 R180, R181). -/
def blockwise (d a b : BitVec 7) (st : BitVec 2) : List (Instr × VOp × List (BitVec 7)) :=
  [ (.vred d a st, .red, [d, a]), (.vqnt d a b st, .qnt, [d, a, b]), (.vdeq d a b st, .deq, [d, a, b]) ]

/-- The value of the k-th used pointer; an unused one reads 0. -/
def pointer (s : State) (regs : List (BitVec 7)) (k : Nat) : Nat := ((regs[k]?).elim 0 fun r => (s.rx r).toNat)

/-- What one step of m elements computes from the bytes at its pointers in the core's own local memory. -/
def stepResult (s : State) (op : VOp) (regs : List (BitVec 7)) (m : Nat) : VOut :=
  let w := s.me.oxr 6
  let sp := op.spans (op.shape w) m
  let base := localBase s.coreId
  op.compute w s.me.rm (s.me.oxr 7) (op.shape w) m (memBytes s.mem (base + pointer s regs 0) sp.1)
    (memBytes s.mem (base + pointer s regs 1) sp.2.1) (memBytes s.mem (base + pointer s regs 2) sp.2.2)

/-- A step's flags together. -/
def stepFlags (o : VOut) : BitVec 5 := o.flags.foldl (fun (f : BitVec 5) p => f ||| p.2) 0

/-- The conditions of 09 R174 to R177 under which a step of m elements computes its results: the control word is one its form accepts, each
used pointer aligned with its bytes in the private alias, no inbox there, and no damaged byte read. -/
def StepChecks (s : State) (op : VOp) (regs : List (BitVec 7)) (m : Nat) : Prop :=
  let w := s.me.oxr 6
  let sh := op.shape w
  let al := op.aligns sh
  let sp := op.spans sh m
  let base := localBase s.coreId
  op.illegal w = false ∧ regs.Nodup ∧
    (∀ p ∈ [(pointer s regs 0, al.1, sp.1), (pointer s regs 1, al.2.1, sp.2.1), (pointer s regs 2, al.2.2, sp.2.2)],
      p.1 % p.2.1 = 0 ∧ p.1 + p.2.2 ≤ 0x180000) ∧
    (∀ k < sp.1, 64 * k < sp.1 → s.inInbox (base + pointer s regs 0 + 64 * k) = false) ∧
    (op = .qnt → s.inInbox (base + pointer s regs 2) = false) ∧
    s.damagedLocal (base + pointer s regs 1) sp.2.1 = false ∧
    (op ≠ .qnt → s.damagedLocal (base + pointer s regs 2) sp.2.2 = false) ∧
    (op = .red → s.damagedLocal (base + pointer s regs 0) sp.1 = false)

/-- The step runs: its checks pass and it raises no enabled flag (09 R185). -/
def StepRuns (s : State) (op : VOp) (regs : List (BitVec 7)) (m : Nat) : Prop :=
  StepChecks s op regs m ∧ stepFlags (stepResult s op regs m) &&& s.me.enables = 0

/-- What a completed step leaves: its bytes at D and B, its flags, and each pointer past what it used; a reduction keeps D. -/
def StepDone (s t : State) (op : VOp) (regs : List (BitVec 7)) (m : Nat) : Prop :=
  let sp := op.spans (op.shape (s.me.oxr 6)) m
  let o := stepResult s op regs m
  let base := localBase s.coreId
  t.mem = memPut (memPut s.mem (base + pointer s regs 0) o.dBytes) (base + pointer s regs 2) o.bBytes ∧ t.fe = s.fe ∧
    t.me.fcsr = s.me.fcsr ||| (stepFlags o).setWidth 64 ∧
    (∀ d, regs[0]? = some d → t.rx d = if op = .red then s.rx d else s.rx d + BitVec.ofNat 64 sp.1) ∧
    (∀ a, regs[1]? = some a → t.rx a = s.rx a + BitVec.ofNat 64 sp.2.1) ∧
    (∀ b, regs[2]? = some b → t.rx b = s.rx b + BitVec.ofNat 64 sp.2.2)

/-- What a vector instruction leaves of the machine: only the strand's registers, fcsr, pc and timing, memory and which lines of it are in use, the
cycles of its core's banks that are taken, and its gang's count of retired work differ. -/
def StepKeeps (s t : State) : Prop :=
  t = { s with mem := t.mem, bad := t.bad, used := t.used, slots := t.slots, gangs := t.gangs, cores := t.cores } ∧ KeepsSlots s t ∧ KeepsCores s t ∧
    KeepsStrand (s.setMe { s.me with fcsr := t.me.fcsr, stepAt := t.me.stepAt }) t ∧
    ∀ g, t.gang g = { s.gang g with work := (t.gang g).work }

end Sys2Proof.Claims

open Sys2Proof Sys2Proof.Machine Sys2Proof.Claims

/-- 09 R177 to R179: an unprefixed elementwise vector instruction writes at D, for each element of a full step, the operation's
result on the elements of A and B, advances the used pointers by their footprints, ORs the flags, and goes on. -/
def Sys2Proof.Claims.ElementwiseVectorSteps : Prop :=
  ∀ (s : State) (d a b : BitVec 7) (st : BitVec 2), ∀ f ∈ elementwise d a b st,
    let w := s.me.oxr 6
    let sh := f.2.1.shape w
    Settled s f.2.2 → StepRuns s f.2.1 f.2.2 sh.n →
    ∃ t, exec f.1 s = .next t ∧ StepDone s t f.2.1 f.2.2 sh.n ∧ StepKeeps s t ∧ t.me.pc = s.me.pc + 4 ∧ t.me.wait = .none ∧
      (∀ r, s.me.regOk r.toNat = true → r ∉ f.2.2 → t.rx r = s.rx r) ∧
      (∀ i, i < sh.n → memRead t.mem (localBase s.coreId + pointer s f.2.2 0 + i * sh.zd) sh.zd =
        (f.2.1.element w s.me.rm ((s.me.oxr 7).toNat % 2 ^ ((fmtOf (vFmt w)).getD fp32).width)
          (memRead s.mem (localBase s.coreId + pointer s f.2.2 1 + i * sh.za) sh.za)
          (memRead s.mem (localBase s.coreId + pointer s f.2.2 2 + i * sh.zb) sh.zb)).1 % 2 ^ (8 * sh.zd)) ∧
      (∀ x, (x < localBase s.coreId + pointer s f.2.2 0 ∨ localBase s.coreId + pointer s f.2.2 0 + sh.n * sh.zd ≤ x) →
        memByte t.mem x = memByte s.mem x)

/-- 09 R177, R180, R181: VRED combines a full step's elements with the element at x[D]; VQNT quantises 32 elements to 16 bytes at D and a
scale and alt byte at B; VDEQ expands such a block. The pointers advance, VRED's D excepted. -/
def Sys2Proof.Claims.BlockwiseVectorSteps : Prop :=
  ∀ (s : State) (d a b : BitVec 7) (st : BitVec 2), ∀ f ∈ blockwise d a b st,
    Settled s f.2.2 → StepRuns s f.2.1 f.2.2 (f.2.1.shape (s.me.oxr 6)).n →
    ∃ t, exec f.1 s = .next t ∧ StepDone s t f.2.1 f.2.2 (f.2.1.shape (s.me.oxr 6)).n ∧ StepKeeps s t ∧
      t.me.pc = s.me.pc + 4 ∧ t.me.wait = .none ∧ (∀ r, s.me.regOk r.toNat = true → r ∉ f.2.2 → t.rx r = s.rx r)

/-- 09 R177 to R182: an unprefixed vector instruction takes one step, whose elements are written at D with the flags of the work. -/
def Obligations.VectorSteps : Prop :=
  Claims.ElementwiseVectorSteps ∧ Claims.BlockwiseVectorSteps


/-- 09 R185: an unprefixed vector instruction whose step raises an enabled flag changes no register, no flag and no byte; its FPE, with
the instruction's address, is pending until the step's cycles have passed. -/
def Sys2Proof.Claims.VectorTrapsAtTheStepsEnd : Prop :=
  ∀ (s : State) (d a b : BitVec 7) (st : BitVec 2), ∀ f ∈ elementwise d a b st ++ blockwise d a b st,
    let m := (f.2.1.shape (s.me.oxr 6)).n
    let on := stepFlags (stepResult s f.2.1 f.2.2 m) &&& s.me.enables
    Settled s f.2.2 → StepChecks s f.2.1 f.2.2 m → on ≠ 0 →
    ∃ t w, exec f.1 s = .next t ∧ KeepsRegs s t ∧ KeepsMemory s t ∧ t.me.fcsr = s.me.fcsr ∧ t.me.writes = s.me.writes ++ [w] ∧
      w.reg = none ∧ w.flags = on ∧ w.pc = some s.me.pc ∧
      s.now + (8 + (f.2.1.shape (s.me.oxr 6)).cc) * tickLen s.coreId ≤ w.at_ ∧ (w.at_, Ev.delayedRegisterWrite s.coreId) ∈ t.agenda

/-- 03 R67, 09 R176, R177: REP with a count of 0 completes the pair with no step; with another count it leaves rotation, and its
first step is due. A step of the pair takes the smaller of the count and a full step, subtracts it from the count register, and the last
one completes the pair of 8 bytes. -/
def Obligations.RepPairs : Prop :=
  ∀ (s : State) (c : BitVec 7) (st : BitVec 2) (body : Instr) (v : VInstr), vecOf body = some v →
    c ∉ v.regs →
    (∀ (w bytes : Nat) (u : State), s.fetchWord s.coreId s.myGang.job (s.me.pc + 4) = .word w bytes u →
      decodeWord w bytes = .ok body → v.bad (s.me.oxr 6) = false → Settled s (v.regs ++ [c]) →
      (s.rx c = 0 → ∃ t, exec (.rep c st) s = .next t ∧ GoesOn s t (s.me.pc + 8) v.st ∧ KeepsRegs s t ∧ KeepsMemory s t) ∧
      (s.rx c ≠ 0 → ∃ t, exec (.rep c st) s = .next t ∧ t.me.wait = .vector ∧ t.me.rep = some (body, c) ∧
        t.me.pc = s.me.pc ∧ KeepsRegs s t ∧ KeepsMemory s t ∧ (t.me.stepAt, Ev.vectorStep s.cur) ∈ t.agenda)) ∧
    (∀ id, let u := { s with cur := id }
      let m := min (u.rx c).toNat (v.op.shape (u.me.oxr 6)).n
      s.ev = some (.vectorStep id) → u.me.wait = .vector → u.me.rep = some (body, c) → u.me.stepAt + s.vLost id ≤ s.now →
      v.bad (u.me.oxr 6) = false → u.rx c ≠ 0 → (∀ r ∈ c :: v.regs, u.me.regOk r.toNat = true) → StepRuns u v.op v.regs m →
      ∃ t, exec .vectorStep s = .next t ∧ StepDone u t v.op v.regs m ∧ t.rx c = u.rx c - BitVec.ofNat 64 m ∧
        (t.rx c = 0 → t.me.pc = u.me.pc + 8 ∧ t.me.wait = .none ∧ t.me.rep = none) ∧
        (t.rx c ≠ 0 → u.me.pending = [] → t.me.pc = u.me.pc ∧ t.me.wait = .vector ∧ t.me.rep = some (body, c) ∧
          (t.me.stepAt, Ev.vectorStep id) ∈ t.agenda))

namespace Sys2Proof.Claims

open Sys2Proof.Machine

/-! ## Operand-extension registers, twin windows and timelines -/

/-- The twin window registers of a slot of a core and of its twin, by pair and slot number (06 R116). -/
def windowOf (s : State) (id : Nat) (k : BitVec 2) : Word :=
  (tget (s.pair (id / 16 % 512)).w (id % 16) (Vector.replicate 4 0))[k.toNat]'k.isLt

/-- Window register k of the issuing slot as it stood at the start of the cycle: what the slot held before the first write of a tick to it,
where one was written in this tick (06 R116). -/
def WindowAtStart (s : State) (k : BitVec 2) (v : Word) : Prop :=
  match (s.pair (s.coreId % 512)).wOld.find? (fun e => e.1 == s.cur % 16) with
  | some e => v = if e.2.1 = s.now then e.2.2[k.toNat]'k.isLt else windowOf s s.cur k
  | none => v = windowOf s s.cur k

/-- Nothing differs but the issuing strand and the window register `k` of its slot and its twin's. -/
def OnlyWindow (s t : State) (k : BitVec 2) (v : Word) : Prop :=
  t = { s with slots := t.slots, pairs := t.pairs } ∧ KeepsSlots s t ∧ windowOf t s.cur k = v ∧
    (∀ j, j ≠ k → windowOf t s.cur j = windowOf s s.cur j) ∧
    (∀ id j, id / 16 % 512 ≠ s.coreId % 512 ∨ id % 16 ≠ s.cur % 16 → windowOf t id j = windowOf s id j) ∧
    (∀ p, t.pair p = { s.pair p with w := (t.pair p).w, wOld := (t.pair p).wOld }) ∧
    (∀ j v, WindowAtStart s j v → WindowAtStart t j v)

/-! ## Copies -/

/-- The copy instructions of 10 R193 to R195 that append a command to a channel. -/
def copyForms (d a b : BitVec 7) (st : BitVec 2) : List (Instr × CopyKind) :=
  [(.cpy d a b st, .cpy), (.cpyV d a b st, .cpyV), (.cpym d a b st, .cpyM)]

/-- A command joins the end of a core's command store; of the commands that stand there only the link to the next entry may differ (12
R224). -/
def Joins (s t : State) (c : Nat) (x : CopyCmd) : Prop :=
  ∃ l : List CopyCmd, (t.core c).copies = l ++ [x] ∧
    l.map (fun y => { y with next := 0 }) = (s.core c).copies.map (fun y => { y with next := 0 })

/-- The command that a copy instruction appends: what its issue captured, with its number in the gang's channel. -/
def Appended (s t : State) (kind : CopyKind) (d a b : BitVec 7) (fo : Bool) : Prop :=
  let ctl := s.rx d
  let ch := bits ctl 0 2
  ∃ x : CopyCmd, Joins s t s.coreId x ∧ x.gang = s.me.gang ∧ x.slot = s.cur % 16 ∧
    x.ch = ch ∧ x.kind = kind ∧ x.src = s.rx a ∧ x.dst = s.rx b ∧ x.ox0 = s.oxr 0 ∧ x.ox2 = s.oxr 2 ∧
    (kind = .cpyV → x.ox1 = s.oxr 1) ∧ x.tmask = bits ctl 8 8 ∧ x.state = .queued ∧ x.wp = 0 ∧ x.after = s.me.unacked ∧
    x.num = tget s.myGang.chIssued (s.coreId * 4 + ch) 0 + 1 ∧ x.fo.isSome = fo ∧
    Writes s t d (BitVec.ofNat 64 x.num) ∧ tget t.myGang.chIssued (s.coreId * 4 + ch) 0 = x.num ∧
    t.myGang.chDone = s.myGang.chDone ∧ (s.now, Ev.copyCommandStart s.coreId ch) ∈ t.agenda

/-- A channel has one of the copy engine's four turns of the present cycle of its cluster's cores (12 R225). -/
def HasTurn (s : State) (c ch : Nat) : Prop :=
  let k := clusterCore (clusterOf c) 0
  (s.cluster (clusterOf c)).copyAt = s.cycleTick k (s.cycleOf k) ∧ (s.cluster (clusterOf c)).copyWon.contains (clusterIdx c * 4 + ch) = true

end Sys2Proof.Claims

open Sys2Proof Sys2Proof.Machine Sys2Proof.Claims

/-- 10 R189: OXL and OXLI write an operand-extension register, OXR reads one, and nothing else changes. -/
def Obligations.OperandExtensionRegisters : Prop :=
  ∀ (s : State) (d a : BitVec 7) (k : BitVec 3) (i : BitVec 16) (st : BitVec 2),
    (Settled s [a] → ∃ t, exec (.oxl k a st) s = .next t ∧ t.me.ox = s.me.ox.set k.toNat (s.rx a) k.isLt ∧
      GoesOn s t (s.me.pc + 4) st ∧ KeepsRegs s t ∧ KeepsStrand (s.setMe { s.me with ox := t.me.ox }) t ∧ OnlyMe s t) ∧
    (∃ t, exec (.oxli k i st) s = .next t ∧ t.me.ox = s.me.ox.set k.toNat (i.setWidth 64) k.isLt ∧
      GoesOn s t (s.me.pc + 4) st ∧ KeepsRegs s t ∧ KeepsStrand (s.setMe { s.me with ox := t.me.ox }) t ∧ OnlyMe s t) ∧
    (Settled s [d] → ∃ t, exec (.oxr d k st) s = .next t ∧ Writes s t d (s.me.ox[k.toNat]'k.isLt) ∧
      GoesOn s t (s.me.pc + 4) st ∧ KeepsStrand s t ∧ OnlyMe s t)

/-- 10 R209, 06 R116: TWR reads a window register that the slot shares with its twin as it stood at the start of the cycle, TWW writes
one, and TWX exchanges one with x[D], reading what a write of the same cycle left. -/
def Obligations.TwinWindowRegisters : Prop :=
  ∀ (s : State) (d a : BitVec 7) (w : BitVec 2) (st : BitVec 2),
    (Settled s [d] → ∃ t v, WindowAtStart s w v ∧ exec (.twr d w st) s = .next t ∧ Writes s t d v ∧
      GoesOn s t (s.me.pc + 4) st ∧ KeepsStrand s t ∧ OnlyMe s t) ∧
    (Settled s [a] → ∃ t, exec (.tww w a st) s = .next t ∧ OnlyWindow s t w (s.rx a) ∧ KeepsRegs s t ∧
      GoesOn s t (s.me.pc + 4) st ∧ KeepsStrand s t) ∧
    (Settled s [d] → ∃ t, exec (.twx d w st) s = .next t ∧ OnlyWindow s t w (s.rx d) ∧ Writes s t d (windowOf s s.cur w) ∧
      GoesOn s t (s.me.pc + 4) st ∧ KeepsStrand s t)

/-- 10 R192, R200, R201, 07 R138: TLW goes on once the counter its selector names has reached x[B], and waits before; TLR reads the counter,
or the write pointer of a channel's first incomplete command, all ones where it has none. -/
def Obligations.TimelineWaitsAndReads : Prop :=
  ∀ (s : State) (d a b : BitVec 7) (st : BitVec 2),
    let sel := s.rx a
    s.selectorTrap s.coreId s.me.gang sel = none →
    (Settled s [a, b] → sel.getLsbD 8 = false →
      ((s.rx b).toNat ≤ s.counter s.coreId s.me.gang sel → ∃ t, exec (.tlw a b st) s = .next t ∧
        GoesOn s t (s.me.pc + 4) st ∧ KeepsRegs s t ∧ KeepsStrand s t ∧ KeepsMemory s t ∧ KeepsSlots s t ∧ KeepsCores s t) ∧
      (s.counter s.coreId s.me.gang sel < (s.rx b).toNat → ∃ t, exec (.tlw a b st) s = .next t ∧
        t.me.wait = .cond (.timeline sel (s.rx b).toNat) ∧ t.me.pc = s.me.pc ∧ KeepsRegs s t ∧ OnlyMe s t)) ∧
    (Settled s [d, a] → (sel.getLsbD 8 = true → bits sel 0 4 = 0) →
      ∃ t, exec (.tlr d a st) s = .next t ∧ GoesOn s t (s.me.pc + 4) st ∧ KeepsStrand s t ∧ OnlyMe s t ∧
        Writes s t d (if sel.getLsbD 8 then
          ((((s.core s.coreId).copies.filter fun k => k.gang == s.me.gang && k.ch == bits sel 4 2 && k.kind != .cpyW &&
            k.state != .followOnPending).head?.map fun k => BitVec.ofNat 64 k.wp).getD 0xFFFFFFFFFFFFFFFF)
        else BitVec.ofNat 64 (s.counter s.coreId s.me.gang sel)))

/-- 10 R193 to R195, R198: CPY, CPY.V and CPYM append their command to a channel that has a free entry, give its number in x[D] and go on;
one with a follow-on also reserves the next place and number of the stream. -/
def Sys2Proof.Claims.CopiesAreIssued : Prop :=
  ∀ (s : State) (d a b : BitVec 7) (st : BitVec 2), ∀ f ∈ copyForms d a b st,
    Settled s [d, a, b] → (f.2 = .cpyM → bits (s.rx d) 8 8 ≠ 0) →
    ((s.core s.coreId).copies.filter fun x => x.ch == bits (s.rx d) 0 2).length < 16 →
    ((s.rx d).getLsbD 2 = false →
      ∃ t, exec f.1 s = .next t ∧ Appended s t f.2 d a b false ∧ GoesOn s t (s.me.pc + 4) st ∧ KeepsStrand s t ∧ KeepsMemory s t ∧
        KeepsSlots s t ∧ (t.core s.coreId).eng = (s.core s.coreId).eng) ∧
    ((s.rx d).getLsbD 2 = true → ∀ o, s.followOn (s.rx d) = .ok o →
      ((s.core s.coreId).eng.ops.filter fun p => p.slot == s.cur % 16 && p.gang == s.me.gang).length < 8 →
      ∃ t, exec f.1 s = .next t ∧ Appended s t f.2 d a b true ∧ GoesOn s t (s.me.pc + 4) st ∧ KeepsMemory s t ∧ KeepsSlots s t ∧
        (t.core s.coreId).eng.ops = (s.core s.coreId).eng.ops ++ [{ o with num := s.me.mxNext, stage := .notReady }] ∧
        t.me.mxNext = s.me.mxNext + 1)

/-- 10 R196, 06 R117, 07 R139: CPY.W, once the strand's writes are acknowledged, hands its registers to the engine and takes an entry of
its channel, but no number of it; when its move has ended they return, with what the move read, and the strand goes on. -/
def Sys2Proof.Claims.RegisterCopies : Prop :=
  ∀ (s : State) (d a b : BitVec 7) (st : BitVec 2),
    let n := bits (s.rx b) 0 6 + 1
    let ch := bits (s.rx b) 7 2
    (Settled s [d, a, b] → s.me.runBad a n = none → Settled s (regRun a n) → (s.rx d).toNat % 8 = 0 → s.me.unacked = [] →
      ((s.core s.coreId).copies.filter fun x => x.ch == ch).length < 16 →
      ∃ t, exec (.cpyW d a b st) s = .next t ∧ t.me.wait = .engine ∧ t.me.rep = some (.cpyW d a b st, a) ∧ t.me.pc = s.me.pc ∧
        KeepsRegs s t ∧ KeepsMemory s t ∧ KeepsSlots s t ∧ t.gangs = s.gangs ∧ (s.now, Ev.copyCommandStart s.coreId ch) ∈ t.agenda ∧
        ∃ x : CopyCmd, Joins s t s.coreId x ∧ x.kind = .cpyW ∧ x.gang = s.me.gang ∧ x.slot = s.cur % 16 ∧ x.ch = ch ∧
          x.src = s.rx d ∧ x.dst = s.rx d ∧ x.ctl = s.rx b ∧ x.state = .queued ∧ x.wp = 0 ∧
          ((s.rx b).getLsbD 6 = false → x.got = (List.range n).flatMap fun i => toBytes (s.rx (BitVec.ofNat 7 (a.toNat + i))).toNat 8) ∧
          ((s.rx b).getLsbD 6 = true → x.got = [])) ∧
    (∀ id x, let u := { s with cur := id }
      let m := bits x.ctl 0 6 + 1
      s.ev = some (.engineReturn id) → u.me.wait = .engine → u.me.rep = some (.cpyW d a b st, a) → u.me.mode = false → a.toNat + m ≤ 128 →
      ((s.core u.coreId).copies.find? fun y => y.kind == .cpyW && y.slot == id % 16 && y.state == .followOnPending) = some x →
      ∃ t, exec .engineReturn s = .next t ∧ (t.slot id).wait = .none ∧ (t.slot id).pc = u.me.pc + 4 ∧ KeepsMemory s t ∧ KeepsSlots u t ∧
        (t.core u.coreId).copies = (s.core u.coreId).copies.filter (· != x) ∧
        ∀ r : BitVec 7, (t.slot id).rx r = if x.ctl.getLsbD 6 = true ∧ a.toNat ≤ r.toNat ∧ r.toNat < a.toNat + m then
          BitVec.ofNat 64 (ofBytes x.got / 2 ^ (64 * (r.toNat - a.toNat))) else u.rx r)

/-- 10 R193 to R196, R198, 06 R117: CPY, CPY.V and CPYM join a channel and go on; CPY.W moves words between registers and memory on the engine. -/
def Obligations.CopyInstructions : Prop :=
  Claims.CopiesAreIssued ∧ Claims.RegisterCopies


/-- 10 R193, R196, 12 R225, 06 R119, 07 R139: a channel starts its first queued command once the writes before it are acknowledged; it sends
for a part of at most a line, whose bank it takes, and reads it when the cycle has ended. -/
def Sys2Proof.Claims.CopyCommandsRead : Prop :=
  ∀ (s : State) (c ch : Nat) (x : CopyCmd), (s.core c).channelHead ch = some x → x.ch = ch →
    (s.ev = some (.copyCommandStart c ch) → x.state = .queued → x.kind ≠ .cpyV → s.writesBefore c x.slot x.after = false → x.total ≠ 0 →
      ∃ t, exec .copyCommandStart s = .next t ∧ KeepsMemory s t ∧ t.slots = s.slots ∧
        { x with state := .running, ahead := [], wtag := 0, claimed := false, rAt := some s.now, wAt := none } ∈ (t.core c).copies ∧
        (s.now, Ev.copyChunkReadReply c ch) ∈ t.agenda) ∧
    (s.ev = some (.copyChunkReadReply c ch) → x.state = .running → x.rAt = some s.now → x.ahead = [] → x.wp < x.total →
      (x.kind = .cpyW → x.ctl.getLsbD 6 = true) → x.kind ≠ .cpyV → 0 < x.chunkLen x.wp → (x.srcAt x.wp).toNat < 0x180000 →
      let n := min (x.chunkLen x.wp) (64 - (x.srcAt x.wp).toNat % 64)
      let pa := localBase c + (x.srcAt x.wp).toNat
      ∃ t at_, exec .copyChunkReadReply s = .next t ∧ KeepsMemory s t ∧ t.slots = s.slots ∧
        t.claimEnds c (ownerCopy c ch) = some at_ ∧ (at_, Ev.copyChunkReadReply c ch) ∈ t.agenda ∧
        { x with rAt := some at_, ahead := [{ off := x.wp, parts := [{ va := x.srcAt x.wp, n := n, key := pa, bank := some c }] }] }
          ∈ (t.core c).copies) ∧
    (∀ p, s.ev = some (.copyChunkReadReply c ch) → x.state = .running → x.rAt = some s.now → x.ahead = [{ off := x.wp, parts := [p] }] →
      p.bank = some c → p.data = none → p.n = x.chunkLen x.wp → x.wp + p.n = x.total → 0 < p.n → x.wtag = 0 → x.wAt = none →
      x.pieces x.wp = [(p.va, p.n)] → x.kind ≠ .cpyV → s.claimEnds c (ownerCopy c ch) = none → s.bad = [] →
      let at_ := max s.now x.due
      ∃ t, exec .copyChunkReadReply s = .next t ∧ KeepsMemory s t ∧ t.slots = s.slots ∧ (at_, Ev.copyChunkWrite c ch) ∈ t.agenda ∧
        { x with rAt := none, wAt := some at_, ahead := [{ off := x.wp, parts := [{ p with data := some (memBytes s.mem p.key p.n) }] }] }
          ∈ (t.core c).copies)

/-- 10 R193, R196, 12 R222, R225, 06 R119: a channel with the turn takes the banks of its destination for the chunk at the write pointer, writes
it when their cycles have ended, moves the pointer past it and reads on; a CPY.W to registers gathers the words, and returns them after the last. -/
def Sys2Proof.Claims.CopyCommandsWrite : Prop :=
  ∀ (s : State) (c ch : Nat) (x : CopyCmd) (k : CopyChunk) (bs : List Byte), (s.core c).channelHead ch = some x → x.ch = ch → c < 1024 →
    s.ev = some (.copyChunkWrite c ch) → x.state = .running → x.wAt = some s.now → x.wtag = 0 → x.ahead = [k] → k.fault = none →
    k.bytes = some bs → bs ≠ [] →
    (x.kind ≠ .cpyM → x.kind ≠ .cpyV → x.toRegs = false → (x.dstAt x.wp).toNat < 0x180000 →
      let pa := localBase c + (x.dstAt x.wp).toNat
      s.inInbox pa = false →
      (x.claimed = false → HasTurn s c ch → ∃ t, exec .copyChunkWrite s = .next t ∧ KeepsMemory s t ∧ t.slots = s.slots ∧
        { x with claimed := true, wAt := some (s.now + tickLen c) } ∈ (t.core c).copies ∧
        (s.now + tickLen c, Ev.copyChunkWrite c ch) ∈ t.agenda) ∧
      (x.claimed = true → s.claimEnds c (ownerCopy c ch + 1) = none → x.wp + bs.length ≠ x.total → x.rAt = none →
        ∃ t, exec .copyChunkWrite s = .next t ∧ t.mem = memPut s.mem pa bs ∧ t.fe = s.fe ∧ t.slots = s.slots ∧
          { x with wp := x.wp + bs.length, ahead := [], claimed := false, due := s.now, rAt := some s.now, wAt := none } ∈ (t.core c).copies ∧
          (s.now, Ev.copyChunkReadReply c ch) ∈ t.agenda)) ∧
    (x.toRegs = true → x.claimed = false → HasTurn s c ch → x.wp + bs.length = x.total →
      ∃ t, exec .copyChunkWrite s = .next t ∧ KeepsMemory s t ∧ t.slots = s.slots ∧
        { x with got := x.got ++ bs, wp := x.total, state := .followOnPending, ahead := [], rAt := none, wAt := none } ∈ (t.core c).copies ∧
        (s.now, Ev.engineReturn (c * 16 + x.slot)) ∈ t.agenda)

/-- 10 R193, R196, 12 R222, R224, R225, 06 R119, 07 R139: a channel starts its first command once the writes before it are acknowledged, reads part by part in turn of the banks, writes in its turn of the engine, and moves its write pointer on. -/
def Obligations.CopyCommandsRun : Prop :=
  Claims.CopyCommandsRead ∧ Claims.CopyCommandsWrite


namespace Sys2Proof.Claims

open Sys2Proof.Machine

/-! ## The matrix engine -/

/-- The engine of a core. -/
def engineOf (s : State) (c : Nat) : Engine := (s.core c).eng

/-- The issuing strand's stream takes an operation now: its engine is awake and the stream has one of its eight places free
(06 R124, 12 R216). -/
def StreamOpen (s : State) : Prop :=
  (engineOf s s.coreId).gate = .awake ∧ ((engineOf s s.coreId).ops.filter fun o => o.slot == s.cur % 16 && o.gang == s.me.gang).length < 8

/-- The accumulators that ac[d] names for the formats in ox4: ac[d] and, where FMT_A is FP64, ac[d + 1] on an even d of a core with the
MXF64 extension (10 R204, R205). -/
def AccumulatorsOf (s : State) (d : BitVec 3) (tiles : List Nat) : Prop :=
  let wide := bits (s.oxr 4) 0 3 = 0
  let mine := tget s.myGang.tiles s.coreId []
  (wide → d.toNat % 2 = 0 ∧ (extsOf s.coreId).getLsbD 1 = true ∧ ∃ t u, mine[d.toNat]? = some t ∧ mine[d.toNat + 1]? = some u ∧ tiles = [t, u]) ∧
  (¬ wide → ∃ t, mine[d.toNat]? = some t ∧ tiles = [t])

/-- Bytes that MXLD reads or MXST writes. -/
def accBytes (s : State) : Nat := if bits (s.oxr 4) 0 3 = 0 then 8192 else 4096

/-- The accumulator-port instructions of 10 R205 with their kind and address. -/
def portForms (s : State) (d : BitVec 3) (a : BitVec 7) (st : BitVec 2) : List (Instr × MxKind × List (BitVec 7) × Word) :=
  [(.mxz d st, .mxz, [], 0), (.mxld d a st, .mxld, [a], s.rx a), (.mxst d a st, .mxst, [a], s.rx a)]

/-- The elements of an accumulator after an operation on one tile, or on a pair whose second tile holds the upper halves. -/
def HoldsTiles (s t : State) (c : Nat) (tiles : List Nat) (els : List Nat) (flags : Nat → BitVec 4) : Prop :=
  (∀ k, tiles = [k] → (t.core c).tile k = { cells := els.map fun v => BitVec.ofNat 32 v, flags := flags k }) ∧
  (∀ k l, k ≠ l → tiles = [k, l] → (t.core c).tile k = { cells := els.map fun v => BitVec.ofNat 32 v, flags := flags k } ∧
    (t.core c).tile l = { cells := els.map fun v => BitVec.ofNat 32 (v / 2 ^ 32), flags := flags l }) ∧
  (∀ k, k ∉ tiles → (t.core c).tile k = (s.core c).tile k)

end Sys2Proof.Claims

open Sys2Proof Sys2Proof.Machine Sys2Proof.Claims

/-- 10 R203, R205, 12 R216, R217, 07 R139: an MXOP whose words pass their checks, its strand's writes acknowledged, joins its engine with no
number and waits for its gather; MXZ, MXLD and MXST take the stream's next number, go to the accumulator port and go on. -/
def Sys2Proof.Claims.MatrixOperationsAreIssued : Prop :=
  ∀ (s : State) (d : BitVec 3) (a b : BitVec 7) (st : BitVec 2),
    (s.mxRegwin d (bits (s.oxr 4) 0 6 == 0) = none → Settled s [a, b] → StreamOpen s → s.me.unacked = [] →
      ∀ o, s.mxCheck d (s.rx a) (s.rx b) (s.oxr 4) (s.oxr 5) (s.oxr 7) .mxop = .ok o →
      ∃ t, exec (.mxop d a b st) s = .next t ∧
        (engineOf t s.coreId).ops = (engineOf s s.coreId).ops ++ [{ o with ready := some s.now }] ∧ o.num = 0 ∧ o.kind = .mxop ∧
        o.mtag = bits (s.oxr 4) 24 8 ∧ o.a = s.rx a ∧ o.b = s.rx b ∧ t.me.wait = .gather ∧ t.me.pc = s.me.pc ∧ KeepsRegs s t ∧ KeepsMemory s t ∧
        KeepsSlots s t ∧ (s.now, Ev.gatherBegin s.coreId) ∈ t.agenda) ∧
    (∀ f ∈ portForms s d a st, ∀ tiles, AccumulatorsOf s d tiles → Settled s f.2.2.1 → StreamOpen s →
      (f.2.1 ≠ .mxz → f.2.2.2.toNat % 64 = 0 ∧ ∃ pa, s.clusterLocal s.coreId s.myGang.job f.2.2.2.toNat (accBytes s) = some pa ∧
        (f.2.1 = .mxst → (∀ i, i < accBytes s / 64 → s.inInbox (pa + 64 * i) = false) ∧
          (s.myGang.confined = true → s.myGang.cores.contains (clusterCore (clusterOf s.coreId) (bits f.2.2.2 21 3)) = true))) →
      ∃ t, exec f.1 s = .next t ∧ GoesOn s t (s.me.pc + 4) st ∧ t.me.mxNext = s.me.mxNext + 1 ∧ KeepsRegs s t ∧ KeepsMemory s t ∧
        KeepsSlots s t ∧ ∃ o ∈ (engineOf t s.coreId).ops, o.kind = f.2.1 ∧ o.num = s.me.mxNext ∧ o.slot = s.cur % 16 ∧
          o.gang = s.me.gang ∧ o.tiles = tiles ∧ o.a = f.2.2.2 ∧
          (f.2.1 ≠ .mxz → s.clusterLocal s.coreId s.myGang.job f.2.2.2.toNat (accBytes s) = some o.pa ∧ o.after = s.me.unacked))

/-- 10 R206: MXUC loads a well-formed microprogram; MXMODE, once the stream's earlier operations have completed, returns the mode word and
writes UC and the flags of the gang's accumulators. -/
def Sys2Proof.Claims.MicroprogramAndModeWord : Prop :=
  ∀ (s : State) (d a : BitVec 7) (st : BitVec 2), (engineOf s s.coreId).gate = .awake →
    (Settled s [a] → ucBad (s.rx a) = false → ∃ t, exec (.mxuc a st) s = .next t ∧ t.me.ucode = some (s.rx a) ∧
      GoesOn s t (s.me.pc + 4) st ∧ KeepsRegs s t ∧ KeepsMemory s t ∧ KeepsSlots s t ∧ t.me.mxNext = s.me.mxNext ∧ t.me.uc = s.me.uc) ∧
    (Settled s [d, a] → s.me.mxDone + 1 = s.me.mxNext →
      ∃ t, exec (.mxmode d a st) s = .next t ∧ Writes s t d s.modeWord ∧ GoesOn s t (s.me.pc + 4) st ∧
        t.me.uc = (s.rx a).getLsbD 0 ∧ KeepsMemory s t ∧ KeepsSlots s t ∧
        ∀ k p, (tget s.myGang.tiles s.coreId []).Nodup → (tget s.myGang.tiles s.coreId [])[k]? = some p →
          (t.myCore.tile p).flags = BitVec.ofNat 4 (bits (s.rx a) (8 + 4 * k) 4) ∧
          (t.myCore.tile p).cells = (s.myCore.tile p).cells)

/-- 10 R203, R205, R206, 12 R216, R217: MXOP, MXZ, MXLD and MXST join their engine; MXUC loads a microprogram and MXMODE the mode word. -/
def Obligations.MatrixInstructions : Prop :=
  Claims.MatrixOperationsAreIssued ∧ Claims.MicroprogramAndModeWord


/-- 12 R214 to R217, 10 R203, 08 R161: an awake engine gives a free operand buffer set to the operation that became ready first, whose gather
takes 4 cycles and one for each line that a core supplies at the least; a gather that ends has read every row of both operands, and its MXOP takes
the stream's next number while its strand goes on; an idle array with the licence takes a gathered head for the array cycles of its formats. -/
def Obligations.GathersAndTheArrayStart : Prop :=
  ∀ (s : State) (c : Nat) (o : MxOp),
    (s.ev = some (.gatherBegin c) → (engineOf s c).gate = .awake → (engineOf s c).sets < 2 → o.mtag = 0 →
      firstByRank ((engineOf s c).ops.filter (engineOf s c).mayGather) = some o →
      ∃ t at_, exec .gatherBegin s = .next t ∧ { o with stage := .gathering at_, group := none, began := s.now } ∈ (engineOf t c).ops ∧
        (at_, Ev.gatherEnd c) ∈ t.agenda ∧ KeepsMemory s t ∧ t.slots = s.slots ∧
        ∀ src, s.now + (4 + ((o.localLines c).filter fun p => p.1 == src).length) * tickLen c ≤ at_) ∧
    (∀ at_ as bs u v, s.ev = some (.gatherEnd c) → (engineOf s c).ops = [o] → o.stage = .gathering at_ → at_ ≤ s.now → o.remote = [] →
      o.kind = .mxop → s.gatherDue c o ≤ s.now →
      s.operand c o o.fmtA o.a.toNat o.strideA o.scaleA o.virtA false 32 0 [] [] = .rows as u →
      u.operand c o o.fmtB o.b.toNat o.strideB o.scaleB o.virtB o.group.isSome 32 0 [] [] = .rows bs v → (engineOf v c).ops = [o] →
      (o.fmtA = 5 → unpaired o.k as = false ∧ unpaired o.k bs = false) →
      let id := c * 16 + o.slot
      ∃ t, exec .gatherEnd s = .next t ∧ (t.slot id).pc = (v.slot id).pc + 4 ∧ (t.slot id).wait = .none ∧
        (t.slot id).mxNext = (v.slot id).mxNext + 1 ∧ t.mem = v.mem ∧
        (engineOf t c).ops = [{ o with stage := .gathered v.now, opsA := as, opsB := bs, remote := [], num := (v.slot id).mxNext }]) ∧
    (s.ev = some (.arrayStart c) → (engineOf s c).gate = .awake → (engineOf s c).arrayBusy = none → s.holdsLicence c = true →
      (s.pair (pairOf c)).withheld = false → (s.pair (pairOf c)).granted = none → (s.pair (pairOf c)).freeAt ≤ s.now → c < 1024 →
      (engineOf s c).ops = [o] → o.isArray = true → o.isGathered = true →
      let at_ := s.cycleTick c (s.cycleOf c + o.cycles)
      ∃ t, exec .arrayStart s = .next t ∧ (engineOf t c).arrayBusy = some at_ ∧ (engineOf t c).ops = [{ o with stage := .running }] ∧
        (at_, Ev.mxopComplete c) ∈ t.agenda ∧ KeepsMemory s t ∧ t.slots = s.slots)

/-- 12 R217, R220, 07 R138, 16 R283, 10 R205: an MXOP completes with its sums in the accumulator and its flags ORed in; MXZ leaves +0, MXLD the
elements in memory, each with clear flags, and MXST writes the accumulator to memory; each moves the stream's counter to its number. A port
operation whose lines lost cycles to other requesters completes that many cycles later. -/
def Obligations.MatrixOperationsComplete : Prop :=
  ∀ (s : State) (c : Nat) (o : MxOp) (at_ : Nat), at_ ≤ s.now → (engineOf s c).ops = [o] → o.stage = .running →
    (s.slot (c * 16 + o.slot)).gang = o.gang →
    let k := s.core c
    let id := c * 16 + o.slot
    (s.ev = some (.mxopComplete c) → (engineOf s c).arrayBusy = some at_ → o.isArray = true →
      let r := o.result (k.tile (o.tiles.getD 0 0)) (k.tile (o.tiles.getD 1 0))
      ∃ t, exec .mxopComplete s = .next t ∧ (t.slot id).mxDone = o.num ∧ KeepsMemory s t ∧ (engineOf t c).ops = [] ∧
        (engineOf t c).arrayBusy = none ∧
        HoldsTiles s t c o.tiles (r.map (·.1)) (fun i => (k.tile i).flags ||| tileFlags (r.foldl (fun f x => f ||| x.2) 0)) ∧
        ((s.gang o.gang).live = true → (t.gang o.gang).work = min ((s.gang o.gang).work + o.cycles) (2 ^ 64 - 1))) ∧
    (s.ev = some (.portOperationComplete c) → (engineOf s c).portBusy = some at_ → o.isArray = false →
      let due := at_ + s.portLost c o * tickLen c
      (s.now < due → ∃ t, exec .portOperationComplete s = .next t ∧ (due, Ev.portOperationComplete c) ∈ t.agenda ∧ (engineOf t c).ops = [o] ∧
        (engineOf t c).portBusy = some at_ ∧ KeepsMemory s t ∧ KeepsSlots s t) ∧
      (due ≤ s.now → ∃ t, exec .portOperationComplete s = .next t ∧ (t.slot id).mxDone = o.num ∧ t.fe = s.fe ∧ (engineOf t c).ops = [] ∧
        (engineOf t c).portBusy = none ∧
        (o.kind = .mxz → t.mem = s.mem ∧ HoldsTiles s t c o.tiles (List.replicate 1024 0) (fun _ => 0)) ∧
        (o.kind = .mxld → t.mem = s.mem ∧ (s.bad = [] → HoldsTiles s t c o.tiles ((List.range 1024).map fun i =>
          memRead s.mem (o.pa + i * (if o.tiles.length = 2 then 8 else 4)) (if o.tiles.length = 2 then 8 else 4)) (fun _ => 0))) ∧
        (o.kind = .mxst → t.mem = memPut s.mem o.pa (o.image (k.tile (o.tiles.getD 0 0)) (k.tile (o.tiles.getD 1 0))) ∧
          HoldsTiles s t c [] [] (fun _ => 0))))

/-- 06 R123, R124, 10 R207, R208: WAKE sends a gated engine whose hold has passed to its cluster's in-rush queue; LICQ tells whether the engine holds the
licence, sets the hold where bit 0 asks for it, and asks; LICR clears the hold and gives up the licence of an array that is idle. -/
def Sys2Proof.Claims.WakeAndLicence : Prop :=
  ∀ (s : State) (d a : BitVec 7) (st : BitVec 2),
    let c := s.coreId
    (∀ h, (engineOf s c).gate = .gated h → h ≤ s.now → ∃ t, exec (.wake st) s = .next t ∧ (engineOf t c).gate = .queued ∧
      (t.cluster (clusterOf c)).inrush = (s.cluster (clusterOf c)).inrush ++ [c] ∧ GoesOn s t (s.me.pc + 4) st ∧ KeepsRegs s t ∧
      KeepsStrand s t ∧ KeepsMemory s t ∧ KeepsSlots s t) ∧
    (Settled s [d, a] → ∃ t, exec (.licq d a st) s = .next t ∧ Writes s t d (if s.holdsLicence c then 1 else 0) ∧
      GoesOn s t (s.me.pc + 4) st ∧ KeepsStrand s t ∧ KeepsMemory s t ∧ KeepsSlots s t ∧
      (engineOf t c).hold = ((s.rx a).getLsbD 0 || (engineOf s c).hold)) ∧
    (∃ t, exec (.licr st) s = .next t ∧ (engineOf t c).hold = false ∧ GoesOn s t (s.me.pc + 4) st ∧ KeepsRegs s t ∧
      KeepsStrand s t ∧ KeepsMemory s t ∧ KeepsSlots s t ∧
      ((engineOf s c).arrayBusy = none → t.holdsLicence c = false))

/-- 06 R123, R124, 12 R230: an engine idle for IDLE_GATE cycles gates for 1,024 cycles; a wake asked for meanwhile joins the queue as they end; the
arbiter admits the first of the queue, which accepts work 200 cycles later. -/
def Sys2Proof.Claims.EnginesGateAndWake : Prop :=
  ∀ (s : State) (c cl : Nat), c < 1024 →
    (s.ev = some (.engineGate c) → (engineOf s c).gate = .awake → (s.core c).engineIdle = true →
      (engineOf s c).idleSince + (engineOf s c).idleGate * tickLen c ≤ s.now → ∃ t, exec .engineGate s = .next t ∧
      (engineOf t c).gate = .gated (s.now + 1024 * tickLen c) ∧ t.holdsLicence c = false ∧ KeepsMemory s t ∧ t.slots = s.slots ∧
      (s.now + 1024 * tickLen c, Ev.breakEvenHoldExpiry c) ∈ t.agenda) ∧
    (∀ h, s.ev = some (.breakEvenHoldExpiry c) → (engineOf s c).gate = .gated h → h ≤ s.now → (engineOf s c).wakeWanted = true →
      ∃ t, exec .breakEvenHoldExpiry s = .next t ∧ (engineOf t c).gate = .queued ∧ (engineOf t c).wakeWanted = false ∧
        (t.cluster (clusterOf c)).inrush = (s.cluster (clusterOf c)).inrush ++ [c] ∧ KeepsMemory s t ∧ t.slots = s.slots) ∧
    (∀ r, s.ev = some (.inrushAdmission cl) → (s.cluster cl).inrush = c :: r → (s.cluster cl).inrushFree ≤ s.now →
      ∃ t, exec .inrushAdmission s = .next t ∧ (engineOf t c).gate = .waking ∧ (t.cluster cl).inrush = r ∧
        (t.cluster cl).inrushFree = s.now + 64 * tickLen c ∧ (s.now + 200 * tickLen c, Ev.engineWakeComplete c) ∈ t.agenda ∧
        KeepsMemory s t ∧ t.slots = s.slots) ∧
    (s.ev = some (.engineWakeComplete c) → (engineOf s c).gate = .waking → ∃ t, exec .engineWakeComplete s = .next t ∧
      (engineOf t c).gate = .awake ∧ (engineOf t c).licqPending = false ∧ (s.now, Ev.gatherBegin c) ∈ t.agenda ∧
      KeepsMemory s t ∧ t.slots = s.slots)

/-- 10 R207, 12 R227, R229, 25 R396: a hold gives way to a request 4,096 cycles old, of an engine whose core is not being emptied, and the twin's array may begin 16 cycles after the pass; the withheld
part of a window parks the licence of an idle array, and the next window grants it to a requester, the root first. -/
def Sys2Proof.Claims.LicencesPassAndPark : Prop :=
  ∀ (s : State) (c p : Nat), c < 1024 →
    (∀ q, s.ev = some (.holdQuantumExpiry c) → s.holdsLicence c = true → (engineOf s c).arrayBusy = none →
      (s.pair (pairOf c)).withheld = false → (s.pair (pairOf c)).freeAt < s.now → s.asks (twinOf c) = some q →
      s.quantum c q ≤ s.now →
      ∃ t, exec .holdQuantumExpiry s = .next t ∧ t.holdsLicence (twinOf c) = true ∧ t.holdsLicence c = false ∧
        (t.pair (pairOf c)).freeAt = s.cycleTick c (s.cycleOf c + 16) ∧ (engineOf t (twinOf c)).request = none ∧
        KeepsMemory s t ∧ t.slots = s.slots) ∧
    (p < 512 → s.ev = some (.withheldIntervalStart p) → (s.pair p).duty ≠ 0 →
      (∀ crown, (s.pair p).holder = some crown → (engineOf s (if crown then p + 512 else p)).arrayBusy = none) →
      ∃ t, exec .withheldIntervalStart s = .next t ∧ (t.pair p).withheld = true ∧ (t.pair p).holder = none ∧ (t.pair p).w = (s.pair p).w ∧
        KeepsMemory s t ∧ t.slots = s.slots) ∧
    (p < 512 → s.ev = some (.dutyWindowStart p) → (s.pair p).holder = none →
      ∃ t, exec .dutyWindowStart s = .next t ∧ (t.pair p).withheld = false ∧ KeepsMemory s t ∧ t.slots = s.slots ∧
        ((s.asks p).isSome = true → (t.pair p).holder = some false) ∧
        (s.asks p = none → (s.asks (p + 512)).isSome = true → (t.pair p).holder = some true))

/-- 06 R123, R124, 10 R207, R208, 12 R227, R229, R230: engines gate when idle and wake through the in-rush queue; the twin licence is held, passed and parked; the duty cycle withholds it. -/
def Obligations.EnginePowerAndLicences : Prop :=
  Claims.WakeAndLicence ∧ Claims.EnginesGateAndWake ∧ Claims.LicencesPassAndPark


namespace Sys2Proof.Claims

open Sys2Proof.Machine

/-! ## Tasks -/

/-- The n bytes of an instruction's operand at a 64-byte line are there, as words: brought from another module before, or read as
8-byte loads, with the banks of local lines free for them, into a state that has filled translations and L1 lines by them, its strands as they
were (13 R234; 06 R118). -/
def LineAt (s : State) (va : Word) (n : Nat) (ws : List Word) (u : State) : Prop :=
  (s.me.lines.find? (fun l => l.1 == va) = some (va, ws) ∧ u = s) ∨
  (s.me.lines.find? (fun l => l.1 == va) = none ∧
    u.slots = s.slots ∧ u.cur = s.cur ∧
    ∃ w bs, s.pieceBanks (pieces (n / 8 + 1) va n) = some w ∧ w.readPieces (pieces (n / 8 + 1) va n) [] = .got bs u ∧
      ws = bytesToWords bs (n / 8))

/-- A task instruction's operand of 64 bytes at an aligned address. -/
def Operand (s : State) (va : Word) (ws : List Word) (u : State) : Prop := va.toNat % 64 = 0 ∧ LineAt s va 64 ws u

/-- The checks of 13 R234 and R235 on a launch packet p with header h, which pass. -/
def PacketAccepted (s : State) (p : List Word) (h : Word) : Prop :=
  (p.getD 0 0).getLsbD 0 = false ∧ headerOk h = true ∧ packetJob p = s.myGang.job ∧ packetTenant p = s.myJob.tenant ∧
    s.me.vt.toNat ≤ packetVt p ∧ (packetHedge p = true → packetTile p ≠ 0 ∨ packetDone p ≠ 0)

/-- The instruction's result is in x[D], and the strand goes on past it; memory is as it was. -/
def Answers (s t : State) (d : BitVec 7) (v : Word) (st : BitVec 2) : Prop :=
  Writes s t d v ∧ GoesOn s t (s.me.pc + 4) st ∧ t.mem = s.mem ∧ t.fe = s.fe

/-- An entry joined the gang's outbox, whose number is the result (13 R232, R233). -/
def Buffered (s t : State) (d : BitVec 7) (o : OutEntry) (st : BitVec 2) : Prop :=
  t.myGang.outbox = s.myGang.outbox ++ [o] ∧ Answers s t d (BitVec.ofNat 64 s.myGang.outbox.length) st

/-- A task joined the issuing cluster's queue under the next task id, which is the result (13 R235, 15 R258). -/
def Spawned (s t : State) (d : BitVec 7) (p : List Word) (h : Word) (st : BitVec 2) : Prop :=
  let cl := clusterOf s.coreId
  let task := cl * 2 ^ 25 + (s.cluster cl).taskCount
  Answers s t d (BitVec.ofNat 64 task) st ∧ (t.cluster cl).cistern = (s.cluster cl).cistern ++ [s.taskEntry p h task] ∧
    (t.cluster cl).taskCount = ((s.cluster cl).taskCount + 1) % 2 ^ 25

/-- The strand that runs an inline child: the parent's registers are saved and the child starts at its entry (13 R236). -/
def RunsInline (s t : State) (d : BitVec 7) (p : List Word) (h : Word) : Prop :=
  (∃ sv, t.me.saved = sv :: s.me.saved ∧ sv.gang = s.me.gang ∧ sv.pc = s.me.pc + 4 ∧ sv.x = s.me.x ∧ sv.lr = s.me.lr ∧
    sv.fcsr = s.me.fcsr ∧ sv.ox = s.me.ox ∧ sv.vt = s.me.vt ∧ sv.dest = d) ∧
  t.me.pc = (p.getD 0 0) &&& ~~~1 ∧ t.me.wait = .none ∧ t.me.lr = 0 ∧ t.me.fcsr = 0 ∧ t.me.vt = p.getD 3 0 ∧
  t.rx 0 = p.getD 2 0 ∧ t.me.n = hdrWindow h ∧ t.myGang.inline = some s.cur ∧ t.myGang.packet = p

/-- HALT's forms with the words they pass. -/
def haltForms (st : BitVec 2) : List Instr := [.halt st, .haltShort]

/-- The conditions under which a gang ends now (13 R237, 03 R72): its stores are acknowledged, its engine work is complete, and no strand has
received damaged data. -/
def MayEnd (s : State) : Prop :=
  s.me.unacked = [] ∧ s.enginesQuiet s.cur = true ∧ s.myGang.uncorr = false

/-- The commit of the issuing strand's gang goes to a home of this module, off the timed channel of a DET job, which it reaches by the end of
the mc (22 R354; log 84); or, its packet naming neither a tile nor a DONE word, to no home but the module's own step (log 84). -/
def NearHome (s : State) : Prop :=
  s.arbPlace s.coreId s.myGang.job s.myGang.packet = .nowhere ∨
  ∃ h, s.arbPlace s.coreId s.myGang.job s.myGang.packet = .here h ∧ s.isTimed s.myGang.job s.coreId (homeEnd h) = false

/-- The check of the packet's DONE word passes: it has none, or its address translates for an atomic to HBM (13 R237). -/
def DonePasses (s : State) : Prop :=
  let w := packetDone s.myGang.packet
  w = 0 ∨ ∃ pa tb, s.translate s.coreId s.myGang.job w .rmw = .hbm pa tb

end Sys2Proof.Claims

open Sys2Proof Sys2Proof.Machine Sys2Proof.Claims

/-- 13 R232 to R236, R240, R241: SPAWN enters its task in the cluster's queue, or a HEDGE or OPT task's in the outbox; SPAWN.INL runs it in the
strand's own slot where the queue is full; SEND sends its message under the next sequence number, or buffers it; IRREV buffers its action. -/
def Obligations.TaskInstructions : Prop :=
  ∀ (s u v : State) (d a : BitVec 7) (st : BitVec 2) (ws hs : List Word), Settled s [d, a] → Operand s (s.rx a) ws u →
    (LineAt u (ws.getD 1 0 &&& ~~~63) 64 hs v → PacketAccepted v ws (hs.getD 0 0) →
      (v.myGang.confined = true → v.myGang.outbox.length < 256 →
        ∃ t, exec (.spawn d a st) s = .next t ∧ Buffered v t d { kind := .spawn (hs.getD 0 0), words := ws, cluster := clusterOf v.coreId } st) ∧
      (v.myGang.confined = false → (v.cluster (clusterOf v.coreId)).full = false →
        (∃ t, exec (.spawn d a st) s = .next t ∧ Spawned v t d ws (hs.getD 0 0) st) ∧
        (∃ t, exec (.spawnInl d a st) s = .next t ∧ Spawned v t d ws (hs.getD 0 0) st)) ∧
      (v.myGang.confined = false → (v.cluster (clusterOf v.coreId)).full = true → v.inlineOk ws (hs.getD 0 0) = true → v.me.mode = false →
        v.resultsDue v.cur = none → (v.poolAlloc v.myGang.job (128 + 8 * v.me.n)).isSome = true →
        ∃ t, exec (.spawnInl d a st) s = .next t ∧ RunsInline v t d ws (hs.getD 0 0))) ∧
    (u.me.vt.toNat < (ws.getD 0 0).toNat → u.myJob.declares (bits (ws.getD 2 0) 0 32) = true → u.me.unacked = [] →
      (u.myGang.confined = true → u.myGang.outbox.length < 256 →
        ∃ t, exec (.send d a st) s = .next t ∧ Buffered u t d { kind := .send, words := ws, cluster := clusterOf u.coreId } st) ∧
      (u.myGang.confined = false → u.messageRoom u.myGang.job (bits (ws.getD 2 0) 0 32) = true →
        let r := u.senderSeq u.myGang.job (u.myGang.lp.map (·.1)) (clusterOf u.coreId)
        (∀ k, u.myGang.lp = some k → k.1 < 2 ^ 32) →
        u.isTimed u.myGang.job u.coreId (u.lp u.myGang.job (bits (ws.getD 2 0) 0 32)).home = false →
        ∃ t c, exec (.send d a st) s = .next t ∧ Answers u t d (BitVec.ofNat 64 r.2.1) st ∧
          (u.now, Ev.messageArrival u.myGang.job { sealMessage ws r.1 r.2.1 u.me.vt.toNat with colour := c }) ∈ t.agenda)) ∧
    (irrevKind ws < 3 → 0 < irrevLen ws → irrevLen ws ≤ 48 → u.irrevAllowed ws = true → u.myGang.outbox.length < 256 →
      ∃ t, exec (.irrev d a st) s = .next t ∧ Buffered u t d { kind := .irrev, words := ws, cluster := clusterOf u.coreId } st)

/-- 13 R243 to R245, R237, R238, 03 R72, 02 R43: WORK counts, TVT tests and LWAIT waits for lw; HALT discards a strand's registers, and the last strand's HALT, like
COMMIT, ends the gang: at once where nothing arbitrates it, else by a commit sent to its home. -/
def Obligations.WorkTimeAndEnds : Prop :=
  ∀ (s : State) (d a : BitVec 7) (st : BitVec 2),
    let lw := s.lwAt s.myGang.job s.coreId
    (Settled s [a] → ∃ t, exec (.work a st) s = .next t ∧ t.myGang = { s.myGang with work := min (2 ^ 64 - 1) (s.myGang.work + (s.rx a).toNat) } ∧
      GoesOn s t (s.me.pc + 4) st ∧ KeepsRegs s t ∧ KeepsStrand s t ∧ KeepsMemory s t ∧ KeepsSlots s t) ∧
    (Settled s [d] → ∃ t, exec (.tvt d st) s = .next t ∧ Answers s t d (flag (s.me.vt.toNat ≤ lw)) st ∧ OnlyMe s t) ∧
    (Settled s [d, a] → ((s.rx a).toNat ≤ lw → ∃ t, exec (.lwait d a st) s = .next t ∧ Answers s t d (BitVec.ofNat 64 lw) st ∧ OnlyMe s t) ∧
      (lw < (s.rx a).toNat → ∃ t, exec (.lwait d a st) s = .next t ∧ t.me.wait = .cond (.lwAtLeast (s.rx a).toNat) ∧ t.me.pc = s.me.pc ∧
        KeepsRegs s t ∧ OnlyMe s t)) ∧
    (∀ i ∈ haltForms st, MayEnd s →
      (1 < s.myGang.running → ∃ t, exec i s = .next t ∧ t.me.n = 0 ∧ t.me.wait = .cond .never ∧ t.myGang.running = s.myGang.running - 1 ∧
        KeepsMemory s t ∧ KeepsSlots s t) ∧
      (s.myGang.running ≤ 1 → s.myGang.alone = true →
        let m := s.commitMsg 0 0
        exec i s = .next (((s.inboxOk s.myGang).releaseOutbox m (m.cluster % 32)).dropGang s.me.gang .commitOk false)) ∧
      (s.myGang.running ≤ 1 → s.myGang.alone = false → DonePasses s → NearHome s →
        ∃ t, exec i s = .next t ∧ t.me.wait = .commit ∧ t.myGang.commit = some (s.commitMsg 0 0, s.cur) ∧
          (s.cycleEnd, Ev.commitArrival (s.commitMsg 0 0)) ∈ t.agenda ∧ KeepsMemory s t ∧ KeepsSlots s t)) ∧
    (MayEnd s → Settled s [a] → s.myGang.running ≤ 1 → packetTile s.myGang.packet = 0 → DonePasses s →
      let m := s.commitMsg (s.rx a) 0
      (s.myGang.alone = true → exec (.commit a st) s =
        .next (((s.inboxOk s.myGang).releaseOutbox m (m.cluster % 32)).dropGang s.me.gang .commitOk false)) ∧
      (s.myGang.alone = false → NearHome s → ∃ t, exec (.commit a st) s = .next t ∧ t.me.wait = .commit ∧
        t.myGang.commit = some (m, s.cur) ∧ (s.cycleEnd, Ev.commitArrival m) ∈ t.agenda ∧ KeepsMemory s t ∧ KeepsSlots s t))

/-- 03 R70, R71, R73: a strand that keeps its slot resumes at once from SUSP of kind NEXT, after x[A+1] rotations from DELAY, when the FE bit or lw is as asked from
the others; a ROAM task leaves its slot and rejoins the queue. YIELD goes on unless a ROAM task has another of its job to make way for. -/
def Obligations.SuspensionsAndYields : Prop :=
  ∀ (s : State) (a : BitVec 7) (st : BitVec 2),
    let v := s.rx (a + 1)
    let kind := bits (s.rx a) 0 4
    (s.me.badReg [a] = none → s.me.runBad a 2 = none → Settled s (regRun a 2) →
      (s.roams = false →
        (kind = 0 → ∃ t, exec (.susp a st) s = .next t ∧ GoesOn s t (s.me.pc + 4) st ∧ KeepsRegs s t ∧ KeepsStrand s t ∧ OnlyMe s t) ∧
        (kind = 1 → v ≠ 0 → let at_ := s.now + v.toNat * 16 * tickLen s.coreId
          ∃ t, exec (.susp a st) s = .next t ∧ t.me.wait = .delay at_ ∧ t.me.pc = s.me.pc ∧ KeepsRegs s t ∧
          (at_, Ev.suspDelayExpiry s.cur) ∈ t.agenda ∧ KeepsMemory s t) ∧
        (∀ pa p, (kind = 2 ∨ kind = 3) → Reaches s 8 v .read (.hbm pa p) → s.homeRefusal (.watch (kind == 2)) pa s.myGang.confined = none →
          s.timedHome pa = false →
          (s.feBit pa = (kind == 2) → ∃ t, exec (.susp a st) s = .next t ∧ GoesOn s t (s.me.pc + 4) st ∧ KeepsRegs s t ∧ KeepsMemory s t) ∧
          (s.feBit pa ≠ (kind == 2) → ∃ t, exec (.susp a st) s = .next t ∧ t.me.wait = .retry ∧ t.me.pc = s.me.pc ∧ KeepsRegs s t ∧
            KeepsMemory s t ∧ ∃ r ∈ t.retries, r.addr = wordAddr pa ∧ r.origin = .slot s.cur ∧ r.op = .watch (kind == 2))) ∧
        (kind = 4 → s.lwAt s.myGang.job s.coreId < v.toNat → ∃ t, exec (.susp a st) s = .next t ∧ t.me.wait = .low v.toNat ∧ t.me.pc = s.me.pc ∧
          KeepsRegs s t ∧ OnlyMe s t)) ∧
      (∀ u, s.roams = true → kind = 0 → s.resultsDue s.cur = none → s.me.unacked = [] → s.enginesQuiet s.cur = true →
        (s.acquire s.coreId).saveStrand s.cur 0 = some u →
        let p := u.leaveRecord s.cur (s.me.pc + 4) (0, 0)
        exec (.susp a st) s = .next (p.2.enqueue (clusterOf s.coreId) p.1))) ∧
    ((s.roams = false ∨ s.yieldWanted = false) →
      (∃ t, exec (.yield st) s = .next t ∧ GoesOn s t (s.me.pc + 4) st ∧ KeepsRegs s t ∧ KeepsStrand s t ∧ OnlyMe s t) ∧
      (∃ t, exec .yieldShort s = .next t ∧ GoesOn s t (s.me.pc + 2) 0 ∧ KeepsRegs s t ∧ KeepsStrand s t ∧ OnlyMe s t)) ∧
    (∀ u, s.roams = true → s.yieldWanted = true → s.resultsDue s.cur = none → s.me.unacked = [] → s.enginesQuiet s.cur = true →
        (s.acquire s.coreId).saveStrand s.cur 0 = some u →
      let p := u.leaveRecord s.cur (s.me.pc + 4) (0, 0)
      let q := u.leaveRecord s.cur (s.me.pc + 2) (0, 0)
      exec (.yield st) s = .next (p.2.enqueue (clusterOf s.coreId) p.1) ∧
      exec .yieldShort s = .next (q.2.enqueue (clusterOf s.coreId) q.1))

/-- 13 R246 to R249: BARC sets a register with GEN 0; BAR records its slot's arrival, and the last arrival of a core tells the corner; BARW goes on once GEN
has moved past the slot's last arrival; a barrier whose members' arrivals have all come advances GEN on each and clears the arrivals. In a DET job each way
takes the time of a packet (log 84). -/
def Obligations.BarriersSynchronise : Prop :=
  ∀ (s : State) (d : BitVec 3) (a : BitVec 7) (st : BitVec 2) (r : Nat), s.bxReg s.me.gang s.coreId d.toNat = some r →
    let b := (s.core s.coreId).barrier r
    let slot := s.cur % 16
    (Settled s [a] → s.barcIllegal d (s.rx a) = false → ∃ t, exec (.barc d a st) s = .next t ∧
      (t.core s.coreId).barrier r = { word := s.rx a &&& 0xFFFFFFFFF } ∧ GoesOn s t (s.me.pc + 4) st ∧ KeepsRegs s t ∧ KeepsStrand s t ∧
      KeepsMemory s t ∧ KeepsSlots s t) ∧
    (slot ∈ b.slots → s.me.unacked = [] → (∀ e ∈ b.arrived, e.1 ≠ slot) → ∃ t, exec (.bar d st) s = .next t ∧
      ((t.core s.coreId).barrier r).arrived = b.arrived ++ [(slot, b.gen)] ∧ ((t.core s.coreId).barrier r).word = b.word ∧
      GoesOn s t (s.me.pc + 4) st ∧ KeepsRegs s t ∧ KeepsStrand s t ∧ KeepsMemory s t ∧ KeepsSlots s t ∧
      ((∀ i ∈ b.slots, i = slot ∨ ∃ e ∈ b.arrived, e.1 = i) → 
        (s.sweepTick s.me.gang s.coreId (s.barrierCorner s.me.gang s.coreId b.word), Ev.barrierArrival s.coreId s.me.gang d.toNat) ∈ t.agenda)) ∧
    (slot ∈ b.slots → (slot, b.gen) ∉ b.lastGen → ∃ t, exec (.barw d st) s = .next t ∧ GoesOn s t (s.me.pc + 4) st ∧ KeepsRegs s t ∧
      KeepsStrand s t ∧ KeepsMemory s t ∧ KeepsSlots s t) ∧
    (∀ c g k, s.ev = some (.barrierArrival c g k) → s.members g (s.barrierOf g c k).word ≠ [] →
      s.arriving g k (s.members g (s.barrierOf g c k).word) = false →
      (∀ m ∈ s.members g (s.barrierOf g c k).word, (s.barrierOf g m k).config = (s.barrierOf g c k).config ∧
        (s.barrierOf g m k).gen = (s.barrierOf g c k).gen ∧
        ∀ i ∈ (s.barrierOf g m k).slots, ∃ e ∈ (s.barrierOf g m k).arrived, e.1 = i) →
      ∃ t, exec .barrierArrival s = .next t ∧ t = { s with agenda := t.agenda } ∧
        ∀ m ∈ s.members g (s.barrierOf g c k).word, 
          (s.sweepTick g (s.barrierCorner g c (s.barrierOf g c k).word) m, Ev.barrierRelease m g k) ∈ t.agenda) ∧
    (∀ c g k, s.ev = some (.barrierRelease c g k) → s.bxReg g c k = some r → (s.barrierOf g c k).arrived ≠ [] →
      ∃ t, exec .barrierRelease s = .next t ∧ (t.barrierOf g c k).gen = ((s.barrierOf g c k).gen + 1) % 2 ^ 16 ∧
        (t.barrierOf g c k).arrived = [] ∧ (t.barrierOf g c k).config = (s.barrierOf g c k).config ∧ KeepsMemory s t ∧ t.slots = s.slots)

namespace Sys2Proof.Claims

open Sys2Proof.Machine

/-! ## Rill memberships and attention contexts -/

/-- x[A] names a membership of the issuing strand's gang on its core, of a ring the module holds (19 R321). -/
def MemberAt (s : State) (x : Word) (m : Member) (r : Ring) : Prop :=
  x.toNat ≤ 3 ∧ s.member s.coreId x.toNat = some m ∧ m.gang = s.me.gang ∧ s.ring m.job m.ring = some r

/-- x[A] names an unfinished attention context of the issuing strand's gang in its cluster (19 R321). -/
def ContextAt (s : State) (x : Word) (y : AttnCtx) : Prop :=
  x.toNat < 8 ∧ s.attnCtx (clusterOf s.coreId) x.toNat = some y ∧ y.finished = false ∧ y.gang = s.me.gang

/-- An operation joined its cluster's attention engine, and the strand waits for its registers (06 R117, 21 R348). -/
def AttentionIssued (s t : State) (i : Instr) (idx : Nat) : Prop :=
  t.me.wait = .engine ∧ t.me.rep = some (i, BitVec.ofNat 7 idx) ∧ t.me.pc = s.me.pc ∧ KeepsRegs s t ∧ KeepsMemory s t ∧
    (t.cluster (clusterOf s.coreId)).attnQ = (s.cluster (clusterOf s.coreId)).attnQ ++ [(s.cur, s.me.gang)]

/-- The operation of slot `id` stands first in its engine, whose array has ended it (21 R348). -/
def AttentionDue (s : State) (id : Nat) (i : Instr) (idx : Nat) (x : AttnCtx) : Prop :=
  let c := s.cluster (clusterOf (id / 16))
  let v := s.slot id
  v.wait = .engine ∧ v.rep = some (i, BitVec.ofNat 7 idx) ∧ idx < 8 ∧ v.stepAt ≤ s.now ∧ (∃ r, c.attnQ = (id, v.gang) :: r) ∧
    c.attnFree ≠ 0 ∧ s.attnEnds (clusterOf (id / 16)) id i c.attnFree ≤ s.now ∧ s.attnCtx (clusterOf (id / 16)) idx = some x ∧ v.mode = false

/-! ## Control and status registers -/

/-- The registers of 01 R25 by their 9-bit fields, with the values that CSRR gives. -/
def csrTable (s : State) : List (BitVec 9 × Word) :=
  [ (0, s.me.lr), (1, s.me.fcsr), (128, s.me.pc), (129, s.me.vt), (130, s.tidWord),
    (131, BitVec.ofNat 64 (s.lwAt s.myGang.job s.coreId)), (132, if s.coreId % 16 < 4 ∨ 10 ≤ s.coreId % 16 then 3 else 1),
    (133, s.slotmask s.coreId), (134, flag (s.me.chk = true)), (135, s.ready), (256, s.me.cause), (257, s.me.epc) ]

/-- The CSR instructions that write, with what each makes of the present value and x[D] (23 R363). -/
def csrWriters (d : BitVec 7) (c : BitVec 9) (st : BitVec 2) : List (Instr × (Word → Word → Word)) :=
  [(.csrw d c st, fun _ x => x), (.csrs d c st, fun old x => old ||| x), (.csrc d c st, fun old x => old &&& ~~~x)]

/-- The registers a slot holds itself that CSR instructions write, with the slot after a write of a value; fields of reserved bits stay
(23 R363, R365, R366). -/
def csrTargets (s : State) (f : Word → Word → Word) (x : Word) : List (BitVec 9 × Slot) :=
  let v := s.me
  let under := fun (old new mask : Word) => (old &&& ~~~mask) ||| (new &&& mask)
  [ (0, { v with lr := f v.lr x }), (1, { v with fcsr := under v.fcsr (f v.fcsr x) 0x31F1F }), (129, { v with vt := f v.vt x }),
    (130, { v with tid := under v.tid (f s.tidWord x) 0x07F7FFFFFFFFFFFF }),
    (134, { v with chk := (f (flag (v.chk = true)) x).getLsbD 0 }),
    (256, { v with cause := under v.cause (f v.cause x) 0xFFFFFFFF00000FFF }), (257, { v with epc := f v.epc x }) ]

/-- The privileged instructions with the registers they use (23 R369 to R378). -/
def privileged (d a : BitVec 7) (st : BitVec 2) : List (Instr × List (BitVec 7)) :=
  [(.eret st, []), (.fwd d a st, [d, a]), (.slot d a st, [d, a]), (.xprobe d a st, [d, a]), (.haltc d a st, [d, a]), (.migr d a st, [d, a, a + 1])]

/-- The slot's strand is in the handler and may act on its answer (25 R390). -/
def Handled (s : State) (id : Nat) : Prop :=
  (s.slot id).live = true ∧ (s.slot id).wait = .firmware ∧ (s.slot id).stopped = false ∧ (s.slot id).removed = false

end Sys2Proof.Claims

open Sys2Proof Sys2Proof.Machine Sys2Proof.Claims

/-- 19 R323 to R327: RJOIN takes a free membership and waits, and answers its index once the ring's part on the module is complete; RWAIT answers the arrival pointer once the bytes asked
for have landed; RSEND queues an arrived block for the successor; RREL releases the oldest step; RLEAVE ends the membership. -/
def Obligations.RillInstructions : Prop :=
  ∀ (s : State) (d a b : BitVec 7) (st : BitVec 2),
    (∀ ws u i own, Settled s [d, a] → (∀ r ∈ s.rings, ∀ w ∈ r.joining, w.1 ≠ s.cur) → s.me.unacked = [] → Operand s (s.rx a) ws u → u.rings = s.rings →
      let r := ringDesc ws
      u.myGang.confined = false → r.bad u.coreId = false → u.ring u.myGang.job r.ring = none → u.ownBlock r.own r.block = .ok own → r.ncl ≠ 1 →
      (List.range 4).find? (fun i => (u.member u.coreId i).isNone) = some i →
      ∃ t, exec (.rjoin d a st) s = .next t ∧ t.me.wait = .cond .ringJoined ∧ t.me.pc = u.me.pc ∧ t.mem = u.mem ∧
        t.member u.coreId i = some { gang := u.me.gang, job := u.myGang.job, ring := r.ring, lead := r.lead, buf := r.buf % 2 ^ 21 } ∧
        ∃ q ∈ t.rings, q.ring = r.ring ∧ q.members = [(u.coreId, i)] ∧ q.joining = [(u.cur, r.lead, i)]) ∧
    (∀ r w, Settled s [d, a] → s.rings.find? (fun q => q.joining.any fun w => w.1 == s.cur) = some r → r.complete = true →
      r.joining.find? (fun w => w.1 == s.cur) = some w →
      ∃ t, exec (.rjoin d a st) s = .next t ∧ Answers s t d (BitVec.ofNat 64 w.2.2) st) ∧
    (∀ m r, Settled s [d, a, b] → MemberAt s (s.rx a) m r → m.outside r (s.rx b).toNat = false →
      s.stepTrap (s.rx a).toNat m r (s.rx b).toNat = none → m.has r (s.rx b).toNat (s.rx d).toNat = true →
      ∃ t, exec (.rwait d a b st) s = .next t ∧ Answers s t d (BitVec.ofNat 64 (m.pointer r.block (s.rx b).toNat)) st ∧ KeepsSlots s t ∧ KeepsCores s t) ∧
    (∀ m r, Settled s [d, a, b] → MemberAt s (s.rx a) m r → m.lead = true → (s.rx b).toNat + 1 < r.k → (s.rx b).toNat = r.sent →
      r.conflict = false → s.me.unacked = [] → m.arrived r.block (s.rx b).toNat = true → (s.rx b).toNat + 1 ∈ r.tokens →
      ∃ t, exec (.rsend d a b st) s = .next t ∧ Answers s t d (BitVec.ofNat 64 ((s.rx b).toNat + 1)) st ∧
        (s.now, Ev.readOut m.job m.ring (s.rx b).toNat) ∈ t.agenda ∧ ∃ q, t.ring m.job m.ring = some q ∧ q.sent = r.sent + 1) ∧
    (∀ m r, Settled s [a, b] → MemberAt s (s.rx a) m r → (s.rx b).toNat = m.oldest → m.oldest < r.k → m.arrived r.block m.oldest = true → s.me.unacked = [] →
      ∃ t, exec (.rrel a b st) s = .next t ∧ GoesOn s t (s.me.pc + 4) st ∧ KeepsRegs s t ∧ KeepsMemory s t ∧
        t.member s.coreId (s.rx a).toNat = some { m with oldest := m.oldest + 1 }) ∧
    (∀ m r, Settled s [a] → MemberAt s (s.rx a) m r → (m.lead = true → r.broken = true ∨ r.k ≤ r.sent + 1) → s.me.unacked = [] →
      ∃ t, exec (.rleave a st) s = .next t ∧ GoesOn s t (s.me.pc + 4) st ∧ KeepsRegs s t ∧ KeepsMemory s t ∧ t.member s.coreId (s.rx a).toNat = none)

/-- 19 R330 to R332, 06 R117, 21 R348: ATTN.INIT takes a context, and each operation joins its cluster's engine while its strand waits; as the array ends it, INIT has written a fresh
state area, STEP the area after its block, and FIN the divided outputs with the context finished, and the strand goes on with its result. -/
def Obligations.AttentionInstructions : Prop :=
  ∀ (s : State) (d a b : BitVec 7) (st : BitVec 2),
    (∀ ws u i, Settled s [d, a] → Operand s (s.rx a) ws u →
      let g := u.me.gang
      let qa := bits (ws.getD 0 0) 0 24
      let sa := bits (ws.getD 1 0) 0 24
      s.me.unacked = [] → qa % 64 = 0 → sa % 64 = 0 → u.rangeTrap u.coreId g qa qBytes false = none → u.rangeTrap u.coreId g sa saBytes true = none →
      u.attnSlot (clusterOf u.coreId) = some i →
      ∃ t, exec (.attnInit d a st) s = .next t ∧ AttentionIssued u t (.attnInit d a st) i ∧
        t.attnCtx (clusterOf u.coreId) i = some { gang := g, qa := qa, sa := sa, scale := BitVec.ofNat 32 (ws.getD 2 0).toNat,
                                                  causal := (ws.getD 3 0).getLsbD 32, qpos := bits (ws.getD 3 0) 0 32 }) ∧
    (∀ y, Settled s [d, a, b] → s.me.unacked = [] → ContextAt s (s.rx a) y → (s.rx b).toNat % 64 = 0 → s.rangeTrap s.coreId s.me.gang (s.rx b).toNat kvBytes false = none →
      s.rangeTrap s.coreId s.me.gang y.qa qBytes false = none → s.rangeTrap s.coreId s.me.gang y.sa saBytes true = none →
      (∀ l, linkOf (s.oxr 2) = some l → s.linkTrap s.coreId s.me.gang (s.rx b).toNat l.1 l.2 = none) →
      ∃ t, exec (.attnStep d a b st) s = .next t ∧ AttentionIssued s t (.attnStep d a b st) (s.rx a).toNat) ∧
    (∀ y, Settled s [d, a] → s.me.unacked = [] → ContextAt s (s.rx a) y → s.rangeTrap s.coreId s.me.gang y.sa saBytes true = none →
      ∃ t, exec (.attnFin d a st) s = .next t ∧ AttentionIssued s t (.attnFin d a st) (s.rx a).toNat) ∧
    (∀ id idx x pa, s.ev = some (.attentionEngineComplete id) → AttentionDue s id (.attnInit d a st) idx x →
      s.clusterLocal (id / 16) (s.gang x.gang).job x.sa saBytes = some pa →
      ∃ t, exec .attentionEngineComplete s = .next t ∧ t.mem = memPut s.mem pa attnFresh ∧ (t.slot id).rx d = BitVec.ofNat 64 idx ∧
        (t.slot id).pc = (s.slot id).pc + 4 ∧ (t.slot id).wait = .none) ∧
    (∀ id idx x q k m pa, s.ev = some (.engineReturn id) → AttentionDue s id (.attnStep d a b st) idx x → linkOf ((s.slot id).oxr 2) = none →
      s.attnRead (id / 16) x.gang x.qa qBytes = .ok q →
      s.attnRead (id / 16) x.gang ((s.slot id).rx b).toNat kvBytes = .ok k → s.attnRead (id / 16) x.gang x.sa saBytes = .ok m →
      s.clusterLocal (id / 16) (s.gang x.gang).job x.sa (attnStepArea x ((s.slot id).oxr 3).toNat q k m).length = some pa →
      ∃ t, exec .engineReturn s = .next t ∧ t.mem = memPut s.mem pa (attnStepArea x ((s.slot id).oxr 3).toNat q k m) ∧
        (t.slot id).rx d = BitVec.ofNat 64 (x.counter + 1) ∧ (t.slot id).pc = (s.slot id).pc + 4 ∧ (t.slot id).wait = .none ∧
        t.attnCtx (clusterOf (id / 16)) idx = some { x with counter := x.counter + 1 }) ∧
    (∀ id idx x m pa pb, s.ev = some (.attentionEngineComplete id) → AttentionDue s id (.attnFin d a st) idx x →
      s.attnRead (id / 16) x.gang x.sa saBytes = .ok m →
      let r := attnDivide (chunks 128 64 (codesOf 4 (m.take kvBytes))) (codesOf 4 ((m.drop 33024).take 256))
      let fl := ofBytes ((m.drop 33280).take 8)
      s.clusterLocal (id / 16) (s.gang x.gang).job x.sa (fp32Bytes r.1).length = some pa →
      s.clusterLocal (id / 16) (s.gang x.gang).job (x.sa + 33280) 8 = some pb →
      ∃ t, exec .attentionEngineComplete s = .next t ∧ (t.slot id).rx d = BitVec.ofNat 64 (x.counter + 1) ∧
        t.mem = memPut (memPut s.mem pa (fp32Bytes r.1)) pb (toBytes (fl / 16 * 16 + (BitVec.ofNat 4 fl ||| tileFlags r.2).toNat) 8) ∧
        (t.slot id).pc = (s.slot id).pc + 4 ∧ (t.slot id).wait = .none ∧
        t.attnCtx (clusterOf (id / 16)) idx = some { x with counter := x.counter + 1, finished := true })

/-- 01 R25, R26, 23 R363 to R368: CSRR gives the register's value; CSRW, CSRS and CSRC write it, set bits of it or clear bits of it, with its reserved bits as they were, and
slotmask removes or restores slots at the rotation boundary after the write applies, and the strand waits until they are; a number of no register, a write of a read-only one or an access the mode forbids traps. -/
def Obligations.CsrAccess : Prop :=
  ∀ (s : State) (d : BitVec 7) (c : BitVec 9) (st : BitVec 2),
    (Settled s [d] → ∀ p ∈ csrTable s, p.1 = c → (256 ≤ c.toNat → s.me.mode = true) →
      Form.Completes { instr := .csrr d c st, regs := [d], dest := d, value := p.2, st := st } s) ∧
    (Settled s [d] → ∀ w ∈ csrWriters d c st, ∀ p ∈ csrTargets s w.2 (s.rx d), p.1 = c → (128 ≤ c.toNat → s.me.mode = true) →
      (c = 1 → s.me.writes = []) →
      ∃ t, exec w.1 s = .next t ∧ GoesOn s t (s.me.pc + 4) st ∧ OnlyMe s t ∧
        t.me = { p.2 with pc := t.me.pc, wait := t.me.wait, lines := t.me.lines, nextTick := t.me.nextTick }) ∧
    (Settled s [d] → ∀ w ∈ csrWriters d 133 st, s.me.mode = true →
      let x := w.2 (s.slotmask s.coreId) (s.rx d)
      let changed := fun i => i < 16 ∧ s.coreId * 16 + i ≠ s.cur ∧ x.getLsbD i ≠ (s.slotmask s.coreId).getLsbD i
      ((∀ i, ¬ changed i) → ∃ t, exec w.1 s = .next t ∧ GoesOn s t (s.me.pc + 4) st ∧ OnlyMe s t) ∧
      ((∃ i, changed i) → ∃ t, exec w.1 s = .next t ∧ t.me.wait = .cond (.slotmask x.toNat) ∧ t.me.pc = s.me.pc ∧ KeepsRegs s t ∧ KeepsSlots s t ∧
        t = { s with slots := t.slots, agenda := t.agenda } ∧
        ∀ i, changed i → (s.rotationAfter s.coreId latInt,
          if x.getLsbD i then Ev.slotRestore (s.coreId * 16 + i) else Ev.slotRemoval (s.coreId * 16 + i)) ∈ t.agenda)) ∧
    (s.me.badReg [d] = none →
      (c ∉ (csrTable s).map (·.1) → ∀ i ∈ Instr.csrr d c st :: (csrWriters d c st).map (·.1),
        exec i s = .next (s.takeTrap s.cur { cause := .illegal } s.me.pc)) ∧
      (c ∈ [128, 131, 132, 135] → ∀ w ∈ csrWriters d c st, exec w.1 s = .next (s.takeTrap s.cur { cause := .illegal } s.me.pc)) ∧
      (s.me.mode = false → c ∈ [129, 130, 133, 134, 256, 257] → ∀ w ∈ csrWriters d c st,
        exec w.1 s = .next (s.takeTrap s.cur { cause := .priv } s.me.pc)) ∧
      (s.me.mode = false → c ∈ [256, 257] → exec (.csrr d c st) s = .next (s.takeTrap s.cur { cause := .priv } s.me.pc)))

/-- 23 R369 to R371, R374, R375, R377 to R379, R376, R372: TRAP enters the handler with FORWARDED and the next word's address; at firmware privilege ERET returns, FWD writes an entry, SLOT
asks for an operation, XPROBE reads a word, HALTC empties a core or returns it to service and MIGR sends its request; at job privilege each traps PRIV; XINV empties
instruction caches and ABORT begins the job's abort. -/
def Obligations.SystemInstructions : Prop :=
  ∀ (s : State) (d a : BitVec 7) (st : BitVec 2),
    (Settled s [a] → exec (.trap a st) s =
      .next (s.takeTrap s.cur { cause := .forwarded, origin := 7, info := (s.rx a).setWidth 32 } (s.me.pc + 4))) ∧
    (s.me.mode = true → s.me.cause.toNat % 256 ≠ 0 → exec (.eret st) s = .next (s.returnFromTrap s.cur s.me.epc)) ∧
    (s.me.mode = true → s.me.cause.toNat % 256 = 0 → exec (.eret st) s = .next (s.takeTrap s.cur { cause := .illegal } s.me.pc)) ∧
    (∀ p ∈ privileged d a st, s.me.mode = false → s.me.badReg p.2 = none → (p.1 = .migr d a st → s.me.runBad a 2 = none) →
      exec p.1 s = .next (s.takeTrap s.cur { cause := .priv } s.me.pc)) ∧
    (∀ ws u, s.me.mode = true → Settled s [d, a] → (s.rx a).toNat % 64 = 0 → LineAt s (s.rx a) 32 ws u →
      let i := bits (ws.getD 0 0) 56 4
      ∃ t, exec (.fwd d a st) s = .next t ∧ Answers u t d (tget (u.core u.coreId).fwd i {}).f0 st ∧
        tget (t.core u.coreId).fwd i {} = { f0 := (ws.getD 0 0) &&& 0x80FFF000000003FF, f1 := (ws.getD 1 0) &&& 0xFFFFFFFF,
                                            f2 := ws.getD 2 0, f3 := ws.getD 3 0,
                                            jobs := u.fwdJobs u.coreId (bits (ws.getD 1 0) 0 32) }) ∧
    (s.me.mode = true → Settled s [d, a] →
      let x := s.rx a
      let id := bits x 6 10 * 16 + bits x 0 4
      let v := s.slot id
      id ≠ s.cur →
      ((bits x 4 2 = 0 ∧ v.removed = true ∨ bits x 4 2 = 1 ∧ v.removed = false ∨ bits x 4 2 = 2 ∧ v.stopped = true ∨ bits x 4 2 = 3) →
        ∃ t, exec (.slot d a st) s = .next t ∧ Answers s t d (BitVec.ofNat 64 (s.slotState id)) st ∧ (bits x 4 2 = 3 → (t.slot id).stopped = false)) ∧
      ((bits x 4 2 = 0 ∧ v.removed = false ∨ bits x 4 2 = 1 ∧ v.removed = true ∨ bits x 4 2 = 2 ∧ v.stopped = false) →
        ∃ t, exec (.slot d a st) s = .next t ∧ t.me.wait = .retry ∧ t.me.pc = s.me.pc ∧ KeepsRegs s t ∧ KeepsMemory s t ∧
          (t.slot id).askers = v.askers ++ [(s.cur, s.slotState id)] ∧
          ∃ at_, (at_, match bits x 4 2 with
            | 0 => Ev.slotRemoval id
            | 1 => Ev.slotRestore id
            | _ => Ev.debugStop id) ∈ t.agenda)) ∧
    (Settled s [a] → ∃ t, exec (.xinv a st) s = .next t ∧ GoesOn s t (s.me.pc + 4) st ∧ KeepsRegs s t ∧ KeepsStrand s t ∧ KeepsMemory s t ∧ KeepsSlots s t ∧
      ∀ c, (if (s.rx a).getLsbD 0 then c ∈ s.myGang.cores else c = s.coreId) → (t.core c).icache = []) ∧
    (s.me.mode = true → Settled s [d, a] →
      (∀ w, s.probeWord (s.rx a) = some w → ∃ t, exec (.xprobe d a st) s = .next t ∧ Answers s t d w st ∧ OnlyMe s t) ∧
      (s.probeWord (s.rx a) = none → exec (.xprobe d a st) s = .next (s.takeTrap s.cur { cause := .illegal } s.me.pc))) ∧
    (Settled s [a] → s.myJob.isOpen = true → s.myJob.abort = .none → ∃ t, exec (.abort a st) s = .next t ∧ t.me.wait = .cond .never ∧
      (t.job s.myGang.job).abort = .first ∧ (t.job s.myGang.job).reason = BitVec.ofNat 64 (s.myJob.self * 2 ^ 48 + (s.rx a).toNat % 2 ^ 32) ∧ KeepsMemory s t) ∧
    (s.me.mode = true → Settled s [d, a] → bits (s.rx a) 0 10 ≠ s.coreId → (s.rx a).getLsbD 16 = true →
      ∃ t, exec (.haltc d a st) s = .next t ∧ Answers s t d 0 st ∧ (t.core (bits (s.rx a) 0 10)).halted = false ∧
        ∀ i, i < 16 → (t.slot (bits (s.rx a) 0 10 * 16 + i)).removed = false) ∧
    (s.me.mode = true → Settled s [d, a] → bits (s.rx a) 0 10 ≠ s.coreId → (s.rx a).getLsbD 16 = false → s.me.live = true → s.records = [] →
      s.gangsOn (bits (s.rx a) 0 10) = [] →
      ∃ t, exec (.haltc d a st) s = .next t ∧ Answers s t d (BitVec.ofNat 64 (s.core (bits (s.rx a) 0 10)).haltDrops) st ∧
        (t.core (bits (s.rx a) 0 10)).halted = true) ∧
    (s.me.mode = true → s.me.runBad a 2 = none → Settled s [d, a, a + 1] →
      let p := s.rx (a + 1)
      ∃ t, exec (.migr d a st) s = .next t ∧ t.me.wait = .migr ∧ t.me.pc = s.me.pc ∧ KeepsRegs s t ∧ KeepsMemory s t ∧
        t.migrs = s.migrs ++ [{ slot := s.cur, gang := (s.rx a).toNat, score := bits p 0 10, dcore := bits p 10 10, dmod := bits p 20 12, len := 0, dest := d }] ∧
        (s.now, Ev.migrRequestArrival s.cur) ∈ t.agenda)

/-- 25 R389 to R391, R398, 23 R372, R373: RETRY and SKIP return a handled strand to its instruction or past it, DROP drops its gang and ABORT_RESP aborts its job; a migration's request is refused
with a status or begins, and its stream's end moves the parts; an expired forwarding entry that lw has passed is freed. -/
def Obligations.HandlerAnswersAndMigrations : Prop :=
  ∀ (s : State) (id : Nat),
    let v := s.slot id
    let code := v.cause.toNat % 256
    (Handled s id → s.ev = some (.retry id) → exec .retry s = .next (s.returnFromTrap id v.epc)) ∧
    (∀ h u, Handled s id → s.ev = some (.skip id) → v.asyncTrap = false → code ≠ 17 → code ≠ 18 →
      s.fetchHalf (id / 16) (s.gang v.gang).job v.epc = .got h u →
      exec .skip s = .next (s.returnFromTrap id (v.epc + (if h % 2 = 1 then 4 else 2)))) ∧
    (Handled s id → s.ev = some (.skip id) → (v.asyncTrap = true ∨ code = 17 ∨ code = 18) → exec .skip s = .next (s.returnFromTrap id v.epc)) ∧
    (Handled s id → s.ev = some (.drop id) → code ≠ 14 →
      exec .drop s = .next ((s.dropGang v.gang .dropped false).confirmEnd (s.gang v.gang))) ∧
    (Handled s id → s.ev = some (.abortResp id) → exec .abortResp s = .next (s.startAbort (s.gang v.gang).job 1 code)) ∧
    (∀ key m, s.migrs.find? (fun x => x.slot == key) = some m →
      (s.ev = some (.migrRequestArrival key) → s.migrStatus m ≠ 0 → exec .migrRequestArrival s = .next (s.migrEnd m (s.migrStatus m))) ∧
      (s.ev = some (.migrRequestArrival key) → s.migrStatus m = 0 → ∃ t, exec .migrRequestArrival s = .next t ∧
        (t.core m.score).migrating = true ∧ (s.now, Ev.contextStreamEnd key) ∈ t.agenda ∧ KeepsMemory s t ∧ t.slots = s.slots) ∧
      (∀ gs, s.movedGangs m.gang m.score = gs → s.ev = some (.contextStreamEnd key) → (m.gang = 0 ∨ gs ≠ []) →
        (s.staysHome gs m.dmod = true → gs = [] ∨ s.hasRoom m.dcore (s.needOf gs m.score) = true) → s.canTake gs m.score = true →
        exec .contextStreamEnd s = .next (s.migrMove m gs))) ∧
    (∀ c i, s.ev = some (.forwardingEntryExpiry c i) →
      let f := tget (s.core c).fwd i {}
      f.f0.getLsbD 63 = true → f.f3.toNat ≤ s.stamp → s.fwdPassed c f = true → ∃ t, exec .forwardingEntryExpiry s = .next t ∧
        tget (t.core c).fwd i {} = { f with f0 := f.f0 &&& 0x7FFFFFFFFFFFFFFF } ∧ KeepsMemory s t ∧ t.slots = s.slots)

namespace Sys2Proof.Claims

open Sys2Proof.Machine

/-! ## Homes, ports and the fabric -/

/-- A request's address as this module's job maps it (22 R355). -/
def MapsTo (s : State) (r : Request) (acc : Access) (p : Place) : Prop :=
  ∃ leaf level, walkFrom s.mem (r.va.toNat % 2 ^ 48) 4 0 (s.job r.job).root = .ok (leaf, level) ∧
    s.leafPlace r.job (r.va.toNat % 2 ^ 48) acc leaf level true = p

/-- No slot but one differs. -/
def KeepsOthers (s t : State) (id : Nat) : Prop := ∀ k, k ≠ id → t.slot k = s.slot k

end Sys2Proof.Claims

open Sys2Proof Sys2Proof.Machine Sys2Proof.Claims

/-- 05 R106, R107, 04 R414, 07 R127, R128: an answer completes the access its strand waits for, or traps where it is a refusal; an acknowledgement
takes a posted store off its strand's count; a revocation ends valid and owned of a word in every L1 of its owner. -/
def Sys2Proof.Claims.AnswersReachTheirStrand : Prop :=
  ∀ (s : State),
    (∀ id r f d v, s.ev = some (.homeReply id r) → id < 65536 → (s.slot id).live = true → (s.slot id).wait = .retry → (s.slot id).save = 0 →
      (s.slot id).inFlight = some f → f.tag = r.tag → f.line = false → f.bmov = false → s.strayed id = false →
      r.requeue = false → r.posted = false → r.more = false → (∀ p ∈ s.parks, p.1 ≠ 2 ^ 64 + r.tag) →
      (r.refusal = none → r.trapWriter = false → f.dst = some d → r.vals = [v] → (s.slot id).regOk d.toNat = true →
        ∃ t, exec .homeReply s = .next t ∧ (t.slot id).rx d = extend f.ext v ∧
          (∀ e, (s.slot id).regOk e.toNat = true → e ≠ d → (t.slot id).rx e = (s.slot id).rx e) ∧
          (t.slot id).pc = (s.slot id).pc + BitVec.ofNat 64 f.bytes ∧ (t.slot id).wait = .none ∧ (t.slot id).inFlight = none ∧
          (t.slot id).fcsr = (s.slot id).fcsr ∧ (t.slot id).lr = (s.slot id).lr ∧ KeepsOthers s t id ∧ KeepsMemory s t ∧ KeepsCores s t) ∧
      (∀ c, r.refusal = some c → c ≠ 14 ∨ r.addr ≠ 0 → exec .homeReply s =
        .next (s.takeTrap id { cause := causeOfCode c, origin := if causeOfCode c = .xlat then 0 else 5, addr := r.addr, detail := r.level }
          (s.slot id).pc))) ∧
    (∀ id addr u l k, s.ev = some (.storeAcknowledge id addr) → (s.slot id).unacked = l ++ u :: k → u.1 = addr → (∀ x ∈ l, x.1 ≠ addr) →
      ∃ t, exec .storeAcknowledge s = .next t ∧ t.slot id = { s.slot id with unacked := l ++ k } ∧ KeepsOthers s t id ∧ KeepsMemory s t ∧
        KeepsCores s t) ∧
    (∀ o addr, s.ev = some (.revocation o addr) → ∃ t, exec .revocation s = .next t ∧ KeepsMemory s t ∧ t.slots = s.slots ∧ KeepsCores s t ∧
      ∀ c, c ∈ ownerCores o ∨ (o < 1024 ∧ c = s.l1Core o addr) → ∀ w, (t.core c).l1Word addr = some w → w.valid = false ∧ w.owned = false)

/-- 22 R353, R355, R356, 07 R141, 06 R119: a request of another module is translated under the job's mapping here and served at its home, or refused
with PROT and counted where its tenant is not the job's; an access at a port takes its place at the bank, and at the end of the cycle that it holds a load
is answered with local memory's bytes and a store is performed;
an access that cannot be served yet joins its word's retry list. -/
def Obligations.HomesServeOtherModules : Prop :=
  ∀ (s : State) (r : Request) (m j k : Nat), r.origin = .remote m j k → r.pa = none →
    (s.ev = some (.portAccess r) →
      (∀ n pa c, (r.op = .load n ∨ (r.op = .store n ∧ s.inInbox pa = false)) → MapsTo s r r.op.access (.window pa c) →
        (s.inTenant (s.job r.job).tenant c = false → ∃ t, exec .portAccess s = .next t ∧ KeepsMemory s t ∧ t.slots = s.slots ∧
          tget t.tnDrop c 0 = counterUp (tget s.tnDrop c 0) 1 ∧
          Out.reply m j k { refusal := some Cause.prot.code, addr := r.va, posted := r.op.isStore, tag := r.tag } ∈ t.out) ∧
        (s.inTenant (s.job r.job).tenant c = true →
          (r.turn = 0 → ∃ t at_, exec .portAccess s = .next t ∧ KeepsMemory s t ∧ t.slots = s.slots ∧ KeepsCores s t ∧ t.fresh = s.fresh + 1 ∧
            (at_, Ev.portAccess { r with turn := s.fresh + 1 }) ∈ t.agenda) ∧
          (∀ at_, r.turn ≠ 0 → s.claimEnds c (ownerPort r.turn) = some at_ → exec .portAccess s = .next (s.schedule at_ (.portAccess r))) ∧
          (r.turn ≠ 0 → s.claimEnds c (ownerPort r.turn) = none →
            (r.op = .load n → s.damagedLocal pa n = false → ∃ t, exec .portAccess s = .next t ∧ KeepsMemory s t ∧ t.slots = s.slots ∧
              KeepsCores s t ∧ Out.reply m j k { vals := toWords (memRead s.mem pa n) ((n + 7) / 8), addr := r.va, tag := r.tag } ∈ t.out) ∧
            (r.op = .store n → n ≤ 8 → ∃ t, exec .portAccess s = .next t ∧ t.mem = memWrite s.mem pa r.data.toNat n ∧
              (∀ x, (x < pa ∨ pa + n ≤ x) → memByte t.mem x = memByte s.mem x) ∧ t.fe = s.fe ∧ t.slots = s.slots ∧ KeepsCores s t ∧
              Out.reply m j k { addr := r.va, posted := true, tag := r.tag } ∈ t.out)))) ∧
      (∀ n pa c, r.op = .store n → MapsTo s r .write (.window pa c) → s.inInbox pa = true → ∃ t, exec .portAccess s = .next t ∧
        KeepsMemory s t ∧ t.slots = s.slots ∧ Out.reply m j k { refusal := some Cause.prot.code, addr := r.va, posted := true, tag := r.tag } ∈ t.out)) ∧
    (s.ev = some (.homeRequest r) →
      let member := ∃ x ∈ (s.job r.job).group, x.1 = m
      ((s.job r.job).isOpen = true → ¬ member → exec .homeRequest s = .next s) ∧
      ((s.job r.job).isOpen = false ∨ (member ∧ (s.job r.job).tenant ≠ r.tenant) → ∃ t, exec .homeRequest s = .next t ∧ KeepsMemory s t ∧ t.slots = s.slots ∧
        Out.reply m j k { refusal := some Cause.prot.code, addr := r.va, posted := r.op.isStore, tag := r.tag } ∈ t.out ∧
        tget t.tnDrop (homeRouter (homeOf (r.va.toNat % 2 ^ 48))) 0 =
          counterUp (tget s.tnDrop (homeRouter (homeOf (r.va.toNat % 2 ^ 48))) 0) 1) ∧
      ((s.job r.job).isOpen = true → member → (s.job r.job).tenant = r.tenant →
        (∀ n pa tb, r.op = .load n → n ≤ 8 → MapsTo s r .read (.hbm pa tb) → s.homeRefusal r.op pa false = none →
          ∃ t l, exec .homeRequest s = .next t ∧ KeepsMemory s t ∧ t.slots = s.slots ∧
            Out.reply m j k { vals := [BitVec.ofNat 64 (memRead s.mem pa n)], addr := r.va, items := l } ∈ t.out) ∧
        (∀ n pa, r.op = .store n → n ≤ 8 → MapsTo s r .write (.hbm pa false) → s.homeRefusal r.op pa false = none →
          ∃ t, exec .homeRequest s = .next t ∧ t.mem = memWrite s.mem pa r.data.toNat n ∧ t.fe = s.fe ∧ t.slots = s.slots ∧
            Out.reply m j k { addr := r.va, posted := true } ∈ t.out) ∧
        (∀ pa tb, MapsTo s r r.op.access (.hbm pa tb) → (tb = true → r.op.writes = false) → s.homeRefusal r.op pa false = none →
          r.op.servable (s.feBit pa) = false → ∃ t, exec .homeRequest s = .next t ∧ KeepsMemory s t ∧ t.slots = s.slots ∧
            t.retries = s.retries ++ [{ addr := wordAddr pa, origin := r.origin, op := r.op, data := r.data, va := r.va }]) ∧
        (∀ pa, MapsTo s r r.op.access (.hbm pa true) → r.op.writes = true → ∃ t, exec .homeRequest s = .next t ∧ KeepsMemory s t ∧
          t.slots = s.slots ∧ Out.reply m j k { refusal := some Cause.prot.code, addr := r.va, posted := r.op.isStore, tag := r.tag } ∈ t.out)))

/-- 04 R88, 08 R157, 25 R393: a parking strand's continuation is saved in the pool, and once the save is confirmed its entry leaves the retry list
and its word takes the park mark; a metadata word becomes its line's side bits where the line is held; a completed walk fills the TLBs. -/
def Sys2Proof.Claims.ParkingMetadataAndWalks : Prop :=
  ∀ (s : State),
    (∀ id, s.ev = some (.parkSave id 0) → s.resultsDue id = none →
      ((s.slot id).wait ≠ .retry ∨ (s.gang (s.slot id).gang).isRoam = false ∨ (s.slot id).saved ≠ [] ∨ s.unrooted id = true) →
      (∀ r, s.retries.find? (fun r => r.origin == Origin.slot id && r.parking) = some r →
        (∀ u, s.saveStrand id r.va = some u → exec .parkSave s =
          .next (u.carry (u.gang (u.slot id).gang).job (id / 16) (homeEnd (homeOf r.addr)) 1 (.parkConfirm (.slot id)))) ∧
        (s.saveStrand id r.va = none → exec .parkSave s = .next (s.schedule (s.now + usTicks) (.parkSave id 0)))) ∧
      ((∀ r ∈ s.retries, r.origin = .slot id → r.parking = false) → exec .parkSave s = .next s)) ∧
    (∀ id r l k, s.ev = some (.parkConfirm (.slot id)) → id < 2 ^ 32 → s.retries = l ++ r :: k → r.origin = .slot id → r.parking = true →
      (∀ q ∈ l, q.origin = .slot id → q.parking = false) →
      (s.gang (s.slot id).gang).isRoam = false ∨ (s.slot id).saved ≠ [] →
      ∃ t, exec .parkConfirm s = .next t ∧ t.retries = l ++ k ∧ r.addr ∈ t.parkMarks ∧ t.parks = s.parks ++ [(r.addr, .slot id)] ∧
        t.slot id = { s.slot id with wait := .parked, inFlight := none, resume := ((r.op.parkKind).getD 2, r.va) } ∧
        KeepsOthers s t id ∧ KeepsMemory s t ∧ t.cores = s.cores) ∧
    (∀ line w, s.ev = some (.metadataUpdate line w) → ∃ t, exec .metadataUpdate s = .next t ∧ t = { s with side := t.side } ∧
      ∀ l x, tget t.side l x = if l = line ∧ s.side.any (fun e => e.1 == line) = true then w else tget s.side l x) ∧
    (∀ cl w rest, s.ev = some (.tlbWalkComplete cl) → (s.cluster cl).walks = w :: rest →
      ∃ t, exec .tlbWalkComplete s = .next t ∧ ((s.cluster cl).walkWait = [] → (t.cluster cl).walks = rest) ∧ t.slots = s.slots ∧ KeepsMemory s t ∧ KeepsCores s t ∧
        ∀ l c va e, w.waiters = l ++ [(c, va)] → 0x200000 ≤ va.toNat % 2 ^ 48 →
          walkFrom s.mem (va.toNat % 2 ^ 48) 4 0 (s.job w.job).root = .ok e → (tlbFind (t.core c).tlb w.job (va.toNat % 2 ^ 48)).isSome = true)

/-- 05 R106, R107, 04 R88, R414, 07 R127, R128, 08 R157, 25 R393: what comes back to a core: answers, acknowledgements and revocations; a parked continuation; metadata; completed walks. -/
def Obligations.AnswersParkingAndWalks : Prop :=
  Claims.AnswersReachTheirStrand ∧ Claims.ParkingMetadataAndWalks


/-- 25 R397, R398: a beat that fails its parity is tried again up to four times; a fifth failure takes a spare lane and stops the pseudo-channel for
2 µs; one that fails on after that, or where both spares are used, leaves its words uncorrectable; an uncorrectable word of the array does so too. -/
def Sys2Proof.Claims.FailingBeatsAndWords : Prop :=
  ∀ (s : State) (pa lane fails : Nat),
    let key := stackOf pa * 16 + Config.pseudoChannel (lineAddr pa) % 16
    let used := (tget s.channels key {}).used
    (s.ev = some (.hwError (.beat pa lane fails)) → ∃ t, exec .homeRequest s = .next t ∧
      t = { s with logs := t.logs, logLost := t.logLost, channels := t.channels, bad := t.bad } ∧
      (fails < 5 → t.bad = s.bad ∧ t.channels = s.channels) ∧
      (fails = 5 → used < 2 → t.bad = s.bad ∧ tget t.channels key {} = { used := used + 1, stop := s.now + 2 * usTicks }) ∧
      (5 < fails ∨ (fails = 5 ∧ 2 ≤ used) → (∀ w ∈ beatWords pa, w ∈ t.bad) ∧ ∀ w ∈ s.bad, w ∈ t.bad)) ∧
    (s.ev = some (.hwError (.array pa false)) → pa % 2 = 0 → ∃ t, exec .homeRequest s = .next t ∧ wordAddr pa ∈ t.bad ∧ (∀ w ∈ s.bad, w ∈ t.bad) ∧
      t = { s with logs := t.logs, logLost := t.logLost, bad := t.bad }) ∧
    (s.ev = some (.hwError (.array pa true)) → ∃ t, exec .homeRequest s = .next t ∧ t = { s with logs := t.logs, logLost := t.logLost })

namespace Sys2Proof.Claims

open Sys2Proof.Machine

/-! ## Task queue units -/

/-- A strand at its start: its registers, pc and fields as the packet and the gang header give them (01 R23, 06 R110, R114). -/
def Launched (v : Slot) (g : Nat) (e : Entry) (idx : Nat) : Prop :=
  v.live = true ∧ v.gang = g ∧ v.index = idx ∧ v.n = hdrWindow e.hdr ∧ v.pc = (e.packet.getD 0 0) &&& ~~~1 ∧ v.wait = .none ∧ v.mode = false ∧
    v.x = ((Vector.replicate 128 0).set 0 (e.packet.getD 2 0)).set 1 (BitVec.ofNat 64 idx) ∧ v.lr = 0 ∧ v.fcsr = 0 ∧ v.vt = e.packet.getD 3 0 ∧
    v.ox = (Vector.replicate 8 0).set 1 e.ox1 ∧ v.chk = bitAt e.hdr 37

/-- The gang that an entry becomes where its cores are found at an anchor (15 R255, R260). -/
def Placed (q : Gang) (e : Entry) (a : Nat × Nat × Nat) : Prop :=
  q.live = true ∧ q.job = e.job ∧ q.packet = e.packet ∧ q.hdr = e.hdr ∧ q.task = e.task ∧ q.copy = e.copy ∧ q.flags = e.flags ∧
    (q.x0, q.y0, q.z0) = a ∧ q.running = hdrStrands e.hdr

/-- A packet joined the queue of a cluster: a new entry with its task id, its VT raised to lw (15 R258, 18 R310). -/
def Accepted (s t : State) (j : Nat) (p : List Word) (h : Word) (cl : Nat) : Prop :=
  ∃ e : Entry, (t.cluster cl).cistern = (s.cluster cl).cistern ++ [e] ∧ e.hdr = h ∧ e.job = j ∧ e.copy = 0 ∧
    e.packet = p.set 3 (BitVec.ofNat 64 (max (packetVt p) (s.lwAt j ((s.job j).shareCore cl)))) ∧
    e.task = cl * 2 ^ 25 + (s.cluster cl).taskCount ∧ (t.cluster cl).taskCount = ((s.cluster cl).taskCount + 1) % 2 ^ 25 ∧
    t.slots = s.slots ∧ t.mem = s.mem

/-- The one packet that a launch brings is judged alone: its job runs without a partner (26 R411). -/
def Alone (s : State) (j : Nat) : Prop := (s.job j).lockstep = none

end Sys2Proof.Claims

open Sys2Proof Sys2Proof.Machine Sys2Proof.Claims

/-- 15 R255, R260, R262, R263, 01 R23, 06 R110: a unit places its entry at the first anchor that has room for the whole gang: the gang lives, and each of its strands stands in a free
slot of its core with the registers of a start; an entry that fits nowhere stays. -/
def Obligations.UnitsPlaceWholeGangs : Prop :=
  ∀ (s : State) (cl : Nat) (e : Entry), s.ev = some (.agingStep cl) → s.relWait = [] → (s.cluster cl).cistern = [e] → (s.cluster cl).waiting = [] →
    (∀ a, (e.anchors cl).find? (s.canPlace e) = some a → e.cont = none → e.bind = [] → ∃ t g, exec .agingStep s = .next t ∧
      (t.cluster cl).cistern = [] ∧ Placed (t.gang g) e a ∧
      ∀ p ∈ (e.coresAt a).zipIdx, ∀ k ∈ ((s.freeSlots p.1).take (hdrSpc e.hdr)).zipIdx,
        Launched (t.slot (p.1 * 16 + k.1)) g e (p.2 * hdrSpc e.hdr + k.2)) ∧
    (∀ a v, (e.anchors cl).find? (s.canPlace e) = some a → e.cont = some v → e.bind = [] → ∃ t, exec .agingStep s = .next t ∧
      (t.cluster cl).cistern = [] ∧ ∀ c r, e.coresAt a = c :: r → ∀ i l, s.freeSlots c = i :: l →
        (t.slot (c * 16 + i)).live = true ∧ (t.slot (c * 16 + i)).gang = v.gang ∧ (t.slot (c * 16 + i)).pc = v.pc ∧
        (t.slot (c * 16 + i)).n = v.n ∧ (t.slot (c * 16 + i)).wait = .none) ∧
    ((∀ a ∈ e.anchors cl, s.canPlace e a = false) → ∃ t, exec .agingStep s = .next t ∧ t.slots = s.slots ∧ t.mem = s.mem ∧ t.gangs = s.gangs ∧
      (t.cluster cl).cistern.map (fun f => (f.task, f.copy)) = [(e.task, e.copy)])

/-- 15 R264, R265, R273: a probe takes the first entry that the hungry cluster can place and its own cannot, or is answered with none; a stolen entry is placed or joins the hungry
cluster's queue; after a failure the next cluster is probed, and after a whole pass the search waits 1 us and starts again. A probe arrives by the end of its mesh cycle (log 84). -/
def Sys2Proof.Claims.HungryClustersSearch : Prop :=
  ∀ (s : State) (p v : Nat),
    (s.ev = some (.stealProbe p v) → (s.cluster p).hungry.isSome = true → (s.cluster p).probing = none → (s.cluster p).probes.head? = some v →
      s.yields (beforeProbe p v) = false →
      (s.stealable p v = none → exec .stealProbe s =
        .next ((s.setCluster p { s.cluster p with probing := some v }).soon (.probeAnswer p false))) ∧
      (∀ e, s.stealable p v = some e → e ∈ (s.cluster v).cistern → ∃ t, exec .stealProbe s = .next t ∧
        (t.cluster v).cistern.length + 1 = (s.cluster v).cistern.length ∧ (t.cluster p).stolen = some { e with reserved := none } ∧
        (t.cluster p).probing = some v ∧ (s.now, Ev.probeAnswer p true) ∈ t.agenda ∧ t.slots = s.slots)) ∧
    (s.ev = some (.stealProbe p v) → s.yields (beforeProbe p v) = true → exec .stealProbe s = .next (s.soon (.stealProbe p v))) ∧
    (s.ev = some (.probeAnswer p true) → ∀ e, (s.cluster p).stolen = some e →
      (∀ a ∈ withLayers e.hdr (clusterPositions p),
        (s.setCluster p { (s.cluster p).endSearch with stolen := none }).canPlace e a = false) →
      (s.cluster p).cistern.length < 4096 → (s.cluster p).waiting = [] →
      ∃ t, exec .probeAnswer s = .next t ∧ (t.cluster p).cistern = (s.cluster p).cistern ++ [{ e with sent := none }] ∧ (t.cluster p).stolen = none ∧ t.slots = s.slots) ∧
    (s.ev = some (.probeAnswer p false) → (s.cluster p).probing.isSome = true →
      (∀ c r, (s.cluster p).probes = v :: c :: r → ∃ t, exec .probeAnswer s = .next t ∧ (t.cluster p).probes = c :: r ∧
        (t.cluster p).steals = (s.cluster p).steals + 1 ∧ (s.cycleEnd, Ev.stealProbe p c) ∈ t.agenda ∧ t.slots = s.slots) ∧
      ((s.cluster p).probes = [v] → ∃ t, exec .probeAnswer s = .next t ∧ (t.cluster p).probes = [] ∧ (t.cluster p).retryAt = s.now + usTicks ∧
        (s.now + usTicks, Ev.stealRetryExpiry p) ∈ t.agenda ∧ t.slots = s.slots)) ∧
    (s.ev = some (.probeAnswer p false) → (s.cluster p).probing = none → exec .probeAnswer s = .next s) ∧
    (s.ev = some (.stealRetryExpiry p) → (s.cluster p).hungry.isSome = true → (s.cluster p).retryAt ≠ 0 → (s.cluster p).retryAt ≤ s.now →
      (∀ r, s.isHungry p = true → s.searchOrder p = v :: r → ∃ t, exec .stealRetryExpiry s = .next t ∧ (t.cluster p).probes = v :: r ∧
        (t.cluster p).retryAt = 0 ∧ (s.cycleEnd, Ev.stealProbe p v) ∈ t.agenda ∧ t.slots = s.slots) ∧
      (s.isHungry p = false → ∃ t, exec .stealRetryExpiry s = .next t ∧ (t.cluster p).hungry = none ∧ t.slots = s.slots)) ∧
    (s.ev = some (.stealRetryExpiry p) → s.now < (s.cluster p).retryAt → exec .stealRetryExpiry s = .next s)

/-- 15 R268 to R270, 18 R310, 22 R359, 25 R395: a packet of the host or of a peer that its job accepts joins a queue with its VT raised to lw, a write that is no packet is dropped and counted, and
a refused packet changes no queue; for an entry that has waited PREEMPT_WAIT pre-emption moves the first candidate of its reserved cores, or of a one-core entry's target core, which it keeps. -/
def Sys2Proof.Claims.LaunchesAndPreemption : Prop :=
  ∀ (s : State) (data : List Word),
    (∀ jslot off, s.ev = some (.hostLaunch jslot off data) →
      ((∀ j ∈ s.jobs, (j.2.isOpen && j.2.jslot == jslot) = false) ∨ data.length ≠ 8 ∨ off % 64 ≠ 0 →
        exec .hostLaunch s = .next { s with launchDrop := s.launchDrop + 1 }) ∧
      (∀ j r, s.jobs.find? (fun j => j.2.isOpen && j.2.jslot == jslot) = some (j, r) → Alone s j → data.length = 8 → off % 64 = 0 →
        (∀ h cl, s.launchCheck j data true = .ok (h, cl) → ∃ t, exec .hostLaunch s = .next t ∧ Accepted s t j data h cl) ∧
        (∀ c, s.launchCheck j data true = .error c → ∃ t, exec .hostLaunch s = .next t ∧ t.clusters = s.clusters ∧ t.slots = s.slots))) ∧
    (∀ j modul tenant red, s.ev = some (.peerLaunch j modul tenant red data) → data.length = 8 →
      ((s.job j).isOpen = false → exec .peerLaunch s = .next s.countClosed) ∧
      ((s.job j).isOpen = true → Alone s j →
        let known := (s.job j).act.any fun a => a.2 == (modul, tenant)
        (∀ h cl, s.launchCheck j data known = .ok (h, cl) → known = true ∧ ∃ t, exec .peerLaunch s = .next t ∧ Accepted s t j data h cl) ∧
        (known = false → ∃ t, exec .peerLaunch s = .next t ∧ t.clusters = s.clusters ∧ t.slots = s.slots))) ∧
    (∀ cl e a c g q d r, s.ev = some (.preemption cl) → s.preemptors cl = [e] → e.since + (s.job e.job).preemptWait * usTicks ≤ s.now →
      let l := if e.oneCore then (s.targetCore cl e).toList else e.coresAt a
      (e.oneCore = false → e.reserved = some a) → l.filter (fun x => !(s.candidates e x).isEmpty) = [c] → (∀ m ∈ s.migrs, m.score ∉ l) →
      s.candidates e c = (g, q) :: r → (∀ m ∈ s.migrs, m.gang ≠ g) → s.victimPlace g c l = some d →
      ∃ t, exec .preemption s = .next t ∧ (s.now, Ev.migrRequestArrival (2 ^ 32 + g)) ∈ t.agenda ∧
        (∃ m, t.migrs = s.migrs ++ [m] ∧ m.gang = g ∧ m.score = c ∧ m.dcore = d) ∧ t.slots = s.slots ∧
        (e.oneCore = true → ∀ f ∈ (t.cluster cl).cistern, f.same e = true → e ∈ (s.cluster cl).cistern →
          (s.cluster cl).cistern.filter (fun x => x.same e) = [e] → f.reserved = some (coreX c, coreY c, coreZ c))) ∧
    (∀ cl, s.ev = some (.preemption cl) → s.preemptors cl = [] → exec .preemption s = .next s)

/-- 15 R264, R265, R268 to R270, 18 R310, 22 R359, 25 R395: search and steal, packets of the host and of peers, and pre-emption. -/
def Obligations.SearchLaunchAndPreemption : Prop :=
  Claims.HungryClustersSearch ∧ Claims.LaunchesAndPreemption


namespace Sys2Proof.Claims

open Sys2Proof.Machine

/-! ## Arbitration -/

/-- It is this commit's turn at the end of the cycle in which it arrived: no other waits at a home, and no lower copy's arrived in that
cycle (16 R281). -/
def CommitAlone (s : State) (m : CommitMsg) : Prop := s.commits = [] ∧ s.now % mcTicks = 0 ∧ s.yields (s.beforeCommit m) = false

/-- A home serves this commit: it is its turn, its job is open, no abort unwinds its version, its task has no winner,
its send log has room, and its completion counter can be reached (16 R281, 18 R318, 22 R357). -/
def HomeServes (s : State) (m : CommitMsg) : Prop :=
  CommitAlone s m ∧ (s.job m.job).isOpen = true ∧
    ((s.job m.job).abort = .none ∨ (s.job m.job).abort = .first ∨ m.version < (s.job m.job).abortA) ∧
    (∀ r ∈ s.hedges, r.task = m.task → r.job = m.job → r.winner = none) ∧ (m.modul = none → s.logRoom m = true) ∧
    s.doneCutOff m = false

/-- An event is on its way: due now, or, for a DET job, on the timed channel (22 R354). -/
def OnItsWay (s t : State) (j : Nat) (e : Ev) : Prop :=
  (s.now, e) ∈ t.agenda ∨ ((s.job j).det = true ∧ ∃ d n, s.now < d ∧ (d, Ev.timed n e) ∈ t.agenda)

/-- A commit is answered: to its gang here, or over the fabric (13 R238). -/
def Told (s t : State) (m : CommitMsg) (a : Answer) : Prop :=
  match m.modul with
  | none => OnItsWay s t m.job (.commitAnswer m.gang a)
  | some r => Out.commitAnswer r m.gang a ∈ t.out

/-- A commit is of no inbox task that has moved to another module, whose entry its home makes DONE (18 R299). -/
def Plain (m : CommitMsg) : Prop := m.modul = none ∨ m.lp = none

/-- A commit that releases nothing, at a home that holds no action. -/
def Silent (s : State) (m : CommitMsg) : Prop := m.outbox = [] ∧ s.held = [] ∧ Plain m

/-- A copy has left the module with a migration, and the CANCEL is for it (23 R373). -/
def GoneAway (a : Nat × Nat × Nat × Nat × Nat) (j task : Nat) (c : HedgeCopy) : Prop :=
  a.1 = j ∧ a.2.1 = task ∧ a.2.2.1 = c.copy ∧ (c.gang = 0 ∨ a.2.2.2.1 = c.gang)

/-- No queued entry of the module is the copy, but continuations, and no context that waits for room holds it. -/
def NotQueued (s : State) (j task copy : Nat) : Prop :=
  (∀ c ∈ s.clusters, ∀ e ∈ c.2.entries, e.job = j → e.task = task → e.copy = copy → e.cont.isSome = true) ∧
  ∀ q ∈ s.contextGangs, ¬ (q.job = j ∧ q.task = task ∧ q.copy = copy)

/-- The end of a copy is confirmed to its home, on this module or another (16 R280). -/
def Confirmed (s t : State) (j task copy : Nat) : Prop :=
  OnItsWay s t j (.dropConfirmation j task copy) ∨ ∃ m, Out.confirm m j task copy ∈ t.out

end Sys2Proof.Claims

open Sys2Proof Sys2Proof.Machine Sys2Proof.Claims

/-- 16 R276 to R281, 13 R237, R238: a home serves commits in turn, those that arrive in one cycle at its end in ascending copy number; it answers CANCEL to one whose task has a winner; one that names no tile releases its outbox and adds 1 at its
completion counter; one with a tile has its header checked, and writes its bytes and version into the buffer chosen, which becomes visible, or waits, or is answered VERSION_FULL, or
PROT where the header fails or its size is not the tile's. -/
def Obligations.HomesArbitrateCommits : Prop :=
  ∀ (s : State) (m : CommitMsg), s.ev = some (.commitArrival m) →
    (m ∉ s.commits → s.now % mcTicks ≠ 0 → exec .commitArrival s = .next (s.schedule s.cycleEnd (.commitArrival m))) ∧
    (m ∉ s.commits → s.now % mcTicks = 0 → s.yields (s.beforeCommit m) = true → exec .commitArrival s = .next (s.soon (.commitArrival m))) ∧
    (m ∉ s.commits → s.now % mcTicks = 0 → s.yields (s.beforeCommit m) = false → (∃ x ∈ s.commits, x.sameTile m = true) →
      exec .commitArrival s = .next { s with commits := s.commits ++ [m] }) ∧
    (CommitAlone s m → (∃ r ∈ s.hedges, r.task = m.task ∧ r.job = m.job ∧ r.winner.isSome = true) →
      ∃ t, exec .commitArrival s = .next t ∧ Told s t m .cancelled ∧ t.mem = s.mem ∧ t.slots = s.slots ∧ t.hedges = s.hedges ∧ t.commits = []) ∧
    (HomeServes s m → m.size = 0 → m.tile = 0 → Silent s m →
      (m.done = 0 → ∃ t, exec .commitArrival s = .next t ∧ Told s t m .commitOk ∧ t.mem = s.mem ∧ t.slots = s.slots) ∧
      (∀ pa tb, m.done ≠ 0 → s.translate (s.commitCore m) m.job m.done .rmw = .hbm pa tb → ∃ t, exec .commitArrival s = .next t ∧ Told s t m .commitOk ∧
        t.mem = memWrite s.mem pa (s.homeWord pa + 1).toNat 8 ∧ t.slots = s.slots)) ∧
    (∀ o, HomeServes s m → m.size = 0 → m.tile = 0 → m.done = 0 → m.outbox = [o] → o.kind = .irrev → s.held = [] → Plain m →
      s.lwAt m.job (1024 + s.commitHome m) ≤ m.version →
      ∃ t, exec .commitArrival s = .next t ∧ Told s t m .commitOk ∧ t.mem = s.mem ∧ ∃ a, t.held = [a] ∧ a.words = o.words ∧ a.vt = m.version ∧ a.job = m.job) ∧
    (HomeServes s m → m.tile ≠ 0 → (∀ pa h, s.header (s.commitCore m) m.job m.tile ≠ .ok pa h) →
      ∃ t, exec .commitArrival s = .next t ∧ Told s t m .prot ∧ t.mem = s.mem) ∧
    (∀ pa h, HomeServes s m → m.tile ≠ 0 → m.size = 0 → m.done = 0 → m.lp = none → Silent s m → s.header (s.commitCore m) m.job m.tile = .ok pa h →
      ∃ t, exec .commitArrival s = .next t ∧ Told s t m .commitOk ∧ t.mem = s.mem ∧ ∃ o, (pa, o) ∈ t.tileMarks) ∧
    (∀ pa h, HomeServes s m → m.tile ≠ 0 → m.size ≠ 0 → m.lp = none → s.header (s.commitCore m) m.job m.tile = .ok pa h →
      (tileSize (h.getD 0 0) ≠ m.size → ∃ t, exec .commitArrival s = .next t ∧ Told s t m .prot ∧ t.mem = s.mem) ∧
      (∀ owner, (pa, owner) ∈ s.tileMarks → (∀ x ∈ s.tileMarks, x.1 = pa → x.2 = owner) → tileSize (h.getD 0 0) = m.size →
        (s.chooseBuffer pa h (s.lwAt owner (1024 + homeOf pa)) = .wait → exec .commitArrival s = .next { s.markTile pa m.job with commits := [{ m with reader := some pa }] }) ∧
        (s.chooseBuffer pa h (s.lwAt owner (1024 + homeOf pa)) = .full → ∃ t, exec .commitArrival s = .next t ∧ Told s t m .versionFull ∧ t.mem = s.mem) ∧
        (∀ i, s.chooseBuffer pa h (s.lwAt owner (1024 + homeOf pa)) = .take i → Silent s m → m.done = 0 → ∃ t, exec .commitArrival s = .next t ∧ Told s t m .commitOk ∧
          BitVec.ofNat 64 (memRead t.mem (pa + 16 + 8 * i) 8) = BitVec.ofNat 64 m.version ∧
          tileState (BitVec.ofNat 64 (memRead t.mem (pa + 48) 8)) i = 1 ∧
          bits (BitVec.ofNat 64 (memRead t.mem (pa + 48) 8)) 32 32 = (bits (h.getD 6 0) 32 32 + 1) % 2 ^ 32 ∧
          ∀ b tb, m.size = 4096 → m.bytes.length = 4096 → b + 4096 ≤ pa ∨ pa + 64 ≤ b →
            s.translate (s.commitCore m) m.job (BitVec.ofNat 64 (((h.getD 1 0) &&& ~~~0xFFF).toNat + i * m.size)) .read = .hbm b tb →
            memBytes t.mem b 4096 = m.bytes)))

/-- 13 R238, 16 R277, R280, R282, 18 R299, 23 R373: COMMIT_OK and CANCEL end a gang, VERSION_FULL runs its task again, PROT traps its committing strand, and a gang that a rollback has undone meanwhile ends; CANCEL drops a running copy,
takes a queued one from its queue and one from a context that waits for room, and follows a moved one by its forwarding entry; a confirmed end leaves the copy's record. -/
def Obligations.CommitAnswersAndCancels : Prop :=
  ∀ (s : State) (g id j task copy : Nat) (c : HedgeCopy) (m : CommitMsg),
    ((s.gang g).commit = some (m, id) → (s.gang g).flags.getLsbD 0 = false →
      (s.ev = some (.commitAnswer g .commitOk) → (s.gang g).lp = none → exec .commitAnswer s = .next ((s.releaseRest m).dropGang g .commitOk false)) ∧
      (s.ev = some (.commitAnswer g .cancelled) → exec .commitAnswer s = .next (s.dropGang g .cancel false)) ∧
      (s.ev = some (.commitAnswer g .prot) → (s.gang g).undone = false → (s.gang g).lp = none → exec .commitAnswer s =
        .next ((s.setGang g { s.gang g with commit := none }).takeTrap id { cause := .prot, origin := 5, addr := m.tile } (s.slot id).pc)) ∧
      (s.ev = some (.commitAnswer g .prot) ∨ s.ev = some (.commitAnswer g .versionFull) → (s.gang g).undone = true →
        exec .commitAnswer s = .next (s.dropGang g .rolledBack false)) ∧
      (s.ev = some (.commitAnswer g .versionFull) → (s.gang g).undone = false → (s.gang g).inline = none → exec .commitAnswer s =
        .next ((s.setGang g { s.gang g with outbox := [], commit := none }).requeue g .versionFull (s.gang g).retries)) ∧
      (s.ev = some (.commitAnswer g .versionFull) → (s.gang g).undone = false → (s.gang g).inline.isSome = true → ∃ t, exec .commitAnswer s = .next t ∧ (t.gang g).commit = none ∧
        (t.slot id).wait = .cond (.lwChange (s.lwAt (s.gang g).job (id / 16))) ∧ (∀ k, k ≠ id → t.slot k = s.slot k) ∧ t.mem = s.mem)) ∧
    (s.ev = some (.cancel j task c) →
      (∀ q, (s.namedCopies j task c).filter (fun x => x.2.commit.isNone) = [(g, q)] → NotQueued s j task c.copy →
        (∀ a ∈ s.awayTasks, ¬ GoneAway a j task c) →
          (s.follows c (g, q) = true → exec .cancel s = .next ((s.dropGang g .cancel false).confirmEnd q).resourcesFreed) ∧
          (s.follows c (g, q) = false → exec .cancel s = .next s.stray.resourcesFreed)) ∧
      ((∀ x ∈ s.gangs, x.2.job = j → x.2.task = task → x.2.copy = c.copy → x.2.commit.isSome = true) →
        (∀ k ∈ s.clusters, ∀ e ∈ k.2.entries, e.job = j → e.task = task → e.copy = c.copy → e.cont = none → e.flags.getLsbD 0 = true →
          e.isTicket = false → ∃ t, exec .cancel s = .next t ∧ Confirmed s t j task c.copy ∧ t.slots = s.slots ∧
            ∀ d ∈ t.clusters, ∀ f ∈ d.2.entries, f.job = j → f.task = task → f.copy = c.copy → f.cont.isSome = true ∨ f.isTicket = true) ∧
        (∀ e ∈ s.contexts, ∀ q ∈ e.2.2.gangs, q.2.job = j → q.2.task = task → q.2.copy = c.copy → q.2.flags.getLsbD 0 = true →
          ∃ t, exec .cancel s = .next t ∧ Confirmed s t j task c.copy ∧ t.slots = s.slots ∧
            ∀ x ∈ t.contextGangs, ¬ (x.job = j ∧ x.task = task ∧ x.copy = c.copy)) ∧
        (∀ a ∈ s.awayTasks, GoneAway a j task c → ∀ f, s.fwdTo a.2.2.2.2 [a.2.2.2.1] = some f → bits f.f0 44 12 ≠ 0 →
          ∃ t, exec .cancel s = .next t ∧ Out.cancel (bits f.f0 44 12) j task c ∈ t.out))) ∧
    (s.ev = some (.dropConfirmation j task copy) → ∃ t, exec .dropConfirmation s = .next t ∧ t = { s with hedges := t.hedges } ∧
      ∀ r ∈ t.hedges, (r.task = task → r.job = j → ∀ c ∈ r.copies, c.copy = copy → r.winner = some copy) ∧
        ¬ (r.winner.isSome = true ∧ ∀ c ∈ r.copies, some c.copy = r.winner))

/-- 16 R285 to R290: at a checkpoint a running copy of a HEDGE task reports its work to the Weir and sets the next; reports of one cycle are taken by task and copy; a report moves its
estimate up or down, and a copy behind it gets a backup if the tenant's bucket holds the charge: the charge leaves the bucket and the record names the new copy; where the record lies on
another module its home is asked. -/
def Obligations.CheckpointsAndReports : Prop :=
  ∀ (s : State),
    (∀ g k, s.ev = some (.checkpoint g k) → (∃ x ∈ s.gangs, x.1 = g) → (s.gang g).flags.getLsbD 0 = true →
      let q := s.gang g
      let home := match s.arbPlace (q.cores.headD 0) q.job q.packet with
        | .away r => r
        | _ => (s.job q.job).self
      ∃ t, exec .checkpoint s = .next t ∧ (t.gang g).check = k ∧ (s.checkTick q (k + 1), Ev.checkpoint g (k + 1)) ∈ t.agenda ∧
        ((s.job q.job).weirHere = true → (s.cycleEnd, Ev.weirReport q.job (packetClass q.packet) k q.work (s.reportedAs g).1 (s.reportedAs g).2 home) ∈ t.agenda) ∧
        ((s.job q.job).weirHere = false → Out.weir q.job (packetClass q.packet) k q.work (s.reportedAs g).1 (s.reportedAs g).2 home ∈ t.out) ∧ t.slots = s.slots ∧ t.mem = s.mem) ∧
    (∀ j c k work task copy home, s.ev = some (.weirReport j c k work task copy home) → s.yields (beforeReport j task copy) = true →
      exec .weirReport s = .next (s.soon (.weirReport j c k work task copy home))) ∧
    (∀ j c k work task copy home, s.ev = some (.weirReport j c k work task copy home) → s.yields (beforeReport j task copy) = false →
      let p := tget (s.job j).classes c {}
      let key := c * 64 + (min k 64 - 1)
      let qb := tget (s.job j).weirQ key 0
      let q1 := if work < qb then qb - (2 ^ p.d - 2 ^ (p.d - p.m)) else min (2 ^ 64 - 1) (qb + 2 ^ (p.d - p.m))
      ((∀ r ∈ s.hedges, r.task = task → r.job = j → qb ≤ work ∨ k < p.kmin ∨ (s.job j).maxc ≤ r.copies.length ∨ 2 < r.next ∨ r.winner.isSome = true) →
        ∃ t, exec .weirReport s = .next t ∧ tget (t.job j).weirQ key 0 = q1 ∧ t.hedges = s.hedges ∧ t.clusters = s.clusters ∧ t.slots = s.slots) ∧
      (work < qb → p.kmin ≤ k → home ≠ (s.job j).self → ∃ t, exec .weirReport s = .next t ∧ tget (t.job j).weirQ key 0 = q1 ∧
        Out.hedge home (.ask (s.job j).self j k task copy) ∈ t.out ∧ t.hedges = s.hedges ∧ t.clusters = s.clusters) ∧
      (∀ r x u modul cl only, home = (s.job j).self → s.hedges.find? (fun r => r.task == task && r.job == j) = some r → work < qb → p.kmin ≤ k →
        r.copies.length < (s.job j).maxc → r.next ≤ 2 → r.winner = none → u = (s.setJob j { s.job j with weirQ := tset (s.job j).weirQ key q1 }).settleBuckets →
        r.copies.find? (fun x => x.copy == copy) = some x → u.backupTarget r x.modul x.core = some (modul, cl, only) →
        let charge := (s.job j).charge (packetClass r.packet) k (hdrW r.hdr * hdrH r.hdr * hdrLayers r.hdr)
        let level := (tget u.tenants (s.job j).tenant {}).level
        charge * 12288 ≤ level → ∃ t, exec .weirReport s = .next t ∧ tget (t.job j).weirQ key 0 = q1 ∧
          (tget t.tenants (s.job j).tenant {}).level = level - charge * 12288 ∧ ∃ r' ∈ t.hedges, r'.task = task ∧ r'.next = r.next + 1 ∧
            ∃ y ∈ r'.copies, y.copy = r.next ∧ y.modul = modul))

namespace Sys2Proof.Claims

open Sys2Proof.Machine

/-! ## Virtual time -/

/-- A message or anti-message for an LP that its job declares reaches the module while the job runs, at or above lw, and none is before it at its inbox (18 R301, R307). -/
def Reached (s : State) (j : Nat) (m : Message) : Prop :=
  (s.job j).isOpen = true ∧ (s.lp j m.dest).inq = [] ∧ (s.job j).declares m.dest = true ∧ (s.job j).unwound m = false ∧ s.lwAt j (s.lp j m.dest).home ≤ m.w0.toNat

/-- The message comes after nothing that its LP has run: its job is not OPT, or LVT is not above its key (18 R302). -/
def InOrder (s : State) (j : Nat) (m : Message) : Prop :=
  (s.job j).opt = false ∨ ∀ k, lvtKey (s.lp j m.dest).lvt = some k → keyLt m.key k = false

/-- No released child of a task of the LPs is on the module. -/
def NoChildren (s : State) : Prop :=
  (∀ g ∈ s.gangs, g.2.parent = none) ∧ ∀ c ∈ s.clusters, ∀ e ∈ c.2.entries, e.parent = none

/-- The anti-message of a send log entry (18 R296). -/
def antiOf (e : LogEntry) (c : Bool) : Message :=
  { w0 := e.w0, w1 := e.w1 ||| 0x8000000000000000, w2 := e.w2, w3 := 0, payload := [], vt := e.tvrt.toNat, colour := c }

end Sys2Proof.Claims

open Sys2Proof Sys2Proof.Machine Sys2Proof.Claims

/-- 18 R299, R301, R302, R305, R307, 22 R359: a message of an open job's LP takes the lowest free inbox entry as POS, with its words in the home core's local memory; with a waiting anti-message it vanishes; one below lw is dropped and
counted, as is one without job or LP; a straggler rolls its LP back first. An anti-message vanishes with its positive, or waits for it. That the
entry is the lowest free one is the model's choice (log 45). -/
def Obligations.MessagesArrive : Prop :=
  ∀ (s : State) (j : Nat) (m : Message),
    let l := s.lp j m.dest
    (s.ev = some (.messageArrival j m) → bitAt m.w1 63 = false →
      ((s.job j).isOpen = false ∨ (s.job j).declares m.dest = false → exec .messageArrival s = .next s.countClosed) ∧
      (Reached s j m → InOrder s j m →
        (∀ i, (∀ e ∈ l.inbox ++ l.overflow, e.st ≠ .anti) → l.freeIdx = some i → ∃ t e, exec .messageArrival s = .next t ∧ (t.lp j m.dest).inbox = l.inbox ++ [e] ∧ e.st = .pos ∧
          e.msg = m ∧ e.idx = i ∧ t.mem = memWords s.mem (l.entryPa i) m.words ∧ (s.now, Ev.inboxDispatch j m.dest) ∈ t.agenda ∧ t.slots = s.slots) ∧
        (∀ e, l.inbox = [e] → l.overflow = [] → e.st = .anti → e.msg.key = m.key → ∃ t, exec .messageArrival s = .next t ∧ (t.lp j m.dest).inbox = [] ∧
          (t.lp j m.dest).annih = l.annih + 1 ∧ t.mem = s.mem ∧ t.slots = s.slots)) ∧
      ((s.job j).isOpen = true → (s.job j).declares m.dest = true → (s.job j).unwound m = false → l.inq = [] → m.w0.toNat < s.lwAt j l.home → InOrder s j m →
        ∃ t, exec .messageArrival s = .next t ∧ (t.lp j m.dest).late = l.late + 1 ∧ (t.lp j m.dest).inbox = l.inbox ∧ t.mem = s.mem ∧ t.slots = s.slots) ∧
      (∀ k, Reached s j m → (s.job j).opt = true → lvtKey l.lvt = some k → keyLt m.key k = true → (∀ e ∈ l.inbox ++ l.overflow, e.st ≠ .anti ∧ e.st ≠ .run) → NoChildren s →
        ∃ t, exec .messageArrival s = .next t ∧ (t.lp j m.dest).rback = l.rback + 1 ∧
          (∀ e ∈ (t.lp j m.dest).inbox, keyLe (l.bound m.key) e.msg.key = true → e.st = .pos) ∧
          (∀ e ∈ l.log, keyLe (l.bound m.key) (keyOf e.tvrt e.tw1 e.tw2) = true → ∃ c, OnItsWay s t j (.antiMessageArrival j (antiOf e c))) ∧
          ∀ e ∈ (t.lp j m.dest).log, keyLe (l.bound m.key) (keyOf e.tvrt e.tw1 e.tw2) = false)) ∧
    (s.ev = some (.antiMessageArrival j m) → bitAt m.w1 63 = true → Reached s j m →
      (∀ e, l.inbox = [e] → l.overflow = [] → e.st = .pos → e.msg.key = m.key → ∃ t, exec .antiMessageArrival s = .next t ∧ (t.lp j m.dest).inbox = [] ∧
        (t.lp j m.dest).annih = l.annih + 1 ∧ t.mem = s.mem ∧ t.slots = s.slots) ∧
      (∀ i, (∀ e ∈ l.inbox ++ l.overflow, e.st = .anti ∨ e.msg.key ≠ m.key) → l.freeIdx = some i → ∃ t e, exec .antiMessageArrival s = .next t ∧
        (t.lp j m.dest).inbox = l.inbox ++ [e] ∧ e.st = .anti ∧ e.msg = m ∧ e.idx = i ∧ t.slots = s.slots))

/-- 18 R299, R300, R303: an LP's lowest POS entry becomes RUN under a task that enters its cluster's queue while no other entry is RUN; a revocation empties every visible buffer at or
above its version, keeps those that are read as state 3 and records the rollback count. -/
def Obligations.InboxesDispatchAndVersionsRevoke : Prop :=
  ∀ (s : State),
    (∀ j n e h, s.ev = some (.inboxDispatch j n) → s.relWait = [] → (s.job j).isOpen = true → (s.job j).terminated = false →
      ((s.job j).part (s.lp j n).home).frozen = false → (s.lp j n).inq = [] → (∀ x ∈ (s.lp j n).inbox, x.st ≠ .run) → lowest ((s.lp j n).inbox.filter fun x => x.st == .pos) = some e →
      ((s.job j).opt = true ∨ e.msg.w0.toNat ≤ s.lwAt j (s.lp j n).home) → s.readHeader (s.lp j n).home j ((s.job j).inGang &&& ~~~63) = .ok h → headerOk h = true →
      let cl := clusterOf (s.lp j n).home
      (∀ x ∈ (s.cluster cl).cistern, x.isTicket = false) → (s.cluster cl).waiting = [] → (s.cluster cl).cistern.length < 4096 →
      ∃ t q, exec .inboxDispatch s = .next t ∧ (t.cluster cl).cistern = (s.cluster cl).cistern ++ [q] ∧ q.job = j ∧ q.hdr = h ∧
        q.task = cl * 2 ^ 25 + (s.cluster cl).taskCount ∧ packetVt q.packet = e.msg.w0.toNat ∧ q.packet.getD 2 0 = BitVec.ofNat 64 ((s.lp j n).ibase + 64 * e.idx) ∧
        q.only = some [(s.lp j n).home] ∧
        (t.lp j n).inbox = (s.lp j n).inbox.map (fun x => if x = e then { x with st := .run, task := q.task } else x) ∧
        (t.lp j n).lvt = some (e.msg.w0, e.msg.w1, e.msg.w2) ∧ t.slots = s.slots ∧ t.mem = s.mem) ∧
    (∀ pa v rback, s.ev = some (.versionRevocation pa v rback) → ∃ t, exec .versionRevocation s = .next t ∧
      (∀ i, i < 4 → tileState (BitVec.ofNat 64 (memRead t.mem (pa + 48) 8)) i =
        if tileState (BitVec.ofNat 64 (memRead s.mem (pa + 48) 8)) i = 1 ∧ v ≤ memRead s.mem (pa + 16 + 8 * i) 8 then
          (if (∃ r ∈ s.readers, r.header = pa ∧ r.buf = i) then 3 else 0)
        else tileState (BitVec.ofNat 64 (memRead s.mem (pa + 48) 8)) i) ∧
      (∀ x, (x < pa + 48 ∨ pa + 56 ≤ x) → memByte t.mem x = memByte s.mem x) ∧ tget t.tileRback pa 0 = rback ∧ t.commits = s.commits ∧ t.slots = s.slots)

/-- 18 R306 to R315: a visit carries the token on with its part's counts and minimum taken in; a pass that has ended with C = 0 publishes a lw at every part and module, or ends the
job where nothing is left of it; a pass begins LWGAP after; a mark that reaches a part raises its lw and lets waiting strands go on, and ends the cut on a module where the pass did not end. -/
def Obligations.LowWaterPasses : Prop :=
  ∀ (s : State) (j p : Nat) (tok : Token),
    let job := s.job j
    let q := job.part p
    let n : Token := { n := tok.n, c := tok.c + (if tok.n then (q.sentW : Int) - q.recvW else (q.sentR : Int) - q.recvR),
                       m := min tok.m (min (s.localMin j p) (if q.red = tok.n then q.redmin else 2 ^ 64 - 1)), mark := tok.mark || q.mark, quiet := tok.quiet }
    let began := job.isOpen = true ∧ job.abort = .none ∧ (tok.start = false ∨ job.passing = false)
    (s.ev = some (.lwTokenVisit j p tok) →
      (job.isOpen = false ∨ job.abort ≠ .none ∨ (tok.start = true ∧ job.passing = true) → exec .lwTokenVisit s = .next s) ∧
      (began → p ≠ 4096 → (job.cut = false ∨ job.token.n = tok.n) → (job.ringParts.head? ≠ some p ∨ job.nextModule = none) →
        ∃ t, exec .lwTokenVisit s = .next t ∧ (s.now + visitTicks p, Ev.lwTokenVisit j ((nextIn job.ringParts p).getD 4096) n) ∈ t.agenda ∧
          ((t.job j).part p).red = tok.n ∧ ((t.job j).part p).lw = q.lw ∧ t.slots = s.slots ∧ t.mem = s.mem) ∧
      (∀ r, began → p = 4096 → job.nextModule = some r → exec .lwTokenVisit s = .next (s.send (.lwToken r j tok))) ∧
      (began → p = 4096 → job.nextModule = none → tok.c = 0 →
        let others := ∃ m ∈ job.group, m.1 ≠ job.self
        (tok.m < 2 ^ 64 - 1 → ∃ t, exec .lwTokenVisit s = .next t ∧ (∀ r ∈ job.ringParts, (s.now, Ev.lwMarkArrival j r (max job.lwMax tok.m)) ∈ t.agenda) ∧
          (others → Out.lwMark j (max job.lwMax tok.m) tok.n true ∈ t.out) ∧ (s.now + job.lwgap * usTicks, Ev.lwgapExpiry j) ∈ t.agenda) ∧
        (2 ^ 64 - 1 ≤ tok.m → job.opt = true → tok.mark = false → ∃ t, exec .lwTokenVisit s = .next t ∧ (t.job j).terminated = true ∧
          (∀ r ∈ job.ringParts, (s.now, Ev.lwMarkArrival j r (2 ^ 64 - 1)) ∈ t.agenda) ∧
          (others → Out.lwMark j (2 ^ 64 - 1) tok.n true ∈ t.out)))) ∧
    (s.ev = some (.lwgapExpiry j) → job.isOpen = true → job.terminated = false → job.abort = .none → s.ready.getLsbD 38 = true →
      (job.firstModule = job.self → exec .lwgapExpiry s = .next (s.soon (.lwTokenVisit j (job.ringParts.headD 1024) job.token))) ∧
      (job.firstModule ≠ job.self → exec .lwgapExpiry s = .next (s.send (.lwToken job.firstModule j job.token)))) ∧
    (∀ v, s.ev = some (.lwMarkArrival j p v) → job.isOpen = true →
      (4096 ≤ p → job.cut = true → job.token.n = (p == 4097) → exec .lwMarkArrival s = .next (s.endCut j (max v job.lwMax))) ∧
      (p < 4096 → q.frozen = true ∨ v < q.lw → exec .lwMarkArrival s = .next s) ∧
      (p < 4096 → q.frozen = false → q.lw ≤ v → ∃ t, exec .lwMarkArrival s = .next t ∧ ((t.job j).part p).lw = v ∧
        (∀ i x, p < 1024 → i < 16 → (s.slot (p * 16 + i)).wait = .low x → (s.gang (s.slot (p * 16 + i)).gang).job = j → x ≤ v →
          (t.slot (p * 16 + i)).wait = .none ∧ (t.slot (p * 16 + i)).pc = (s.slot (p * 16 + i)).pc + 4)))

/-- 18 R317, R318, R418, 22 R359: an abort's first circuit stops and freezes each part and takes the lowest lw as A; a second abort's token ends where the first has begun, and gives it its reason where both began in one cycle and its module has the lower index; the second
circuit withdraws what a home holds at or above A, and leaves the job stopped; a restart frees each part, whose inboxes dispatch, and ends the stop. -/
def Obligations.AbortCircuits : Prop :=
  ∀ (s : State) (j p a since : Nat) (second : Bool) (reason : Word),
    let job := s.job j
    let left := job.without reason
    let why := if job.ringParts.head? = some p ∧ left.firstModule = job.self ∧ job.circled = true then job.reason else reason
    (s.ev = some (.abortTokenVisit j p second a reason since) → p ≠ 4096 →
      (job.isOpen = false → exec .abortTokenVisit s = .next s) ∧
      (job.isOpen = true → second = false → job.circled = true → job.ringParts.head? = some p → exec .abortTokenVisit s =
        .next (s.setJob j (if since = job.abortCycle ∧ bits reason 48 12 < bits job.reason 48 12 then { left with reason := reason } else left))) ∧
      (∀ r, job.isOpen = true → second = false → (job.circled = false ∨ job.ringParts.head? ≠ some p) → nextIn job.ringParts p = some r →
        ∃ t, exec .abortTokenVisit s = .next t ∧ ((t.job j).part p).frozen = true ∧ (t.job j).abort = .first ∧
        (s.now + visitTicks p, Ev.abortTokenVisit j r false (min a (job.part p).lw) reason since) ∈ t.agenda ∧ t.slots = s.slots ∧ t.mem = s.mem) ∧
      (∀ r, job.isOpen = true → second = true → 1024 ≤ p → nextIn job.ringParts p = some r → ∃ t, exec .abortTokenVisit s = .next t ∧ (t.job j).abort = .second ∧
        (∀ x ∈ t.held, x.job = j → x.home = p - 1024 → x.vt < a) ∧ (∀ m ∈ t.commits, m.job = j → m.version < a) ∧
        (s.now + visitTicks p, Ev.abortTokenVisit j r true a why since) ∈ t.agenda ∧ t.slots = s.slots) ∧
      (∀ l, job.isOpen = true → second = true → 1024 ≤ p → nextIn job.ringParts p = none → left.nextModule = none →
        s.readHeader (job.ringParts.headD 0 % 1024) j (job.hGang &&& ~~~63) = .error l →
        ∃ t, exec .abortTokenVisit s = .next t ∧ (t.job j).abort = .stopped ∧ (t.job j).abortA = a ∧ t.slots = s.slots) ∧
      (∀ r, job.isOpen = true → second = false → (job.circled = false ∨ job.ringParts.head? ≠ some p) → nextIn job.ringParts p = none →
        left.nextModule = some r → ∃ t, exec .abortTokenVisit s = .next t ∧ Out.abortToken r j false (min a (job.part p).lw) reason since ∈ t.out) ∧
      (job.isOpen = true → second = false → (job.circled = false ∨ job.ringParts.head? ≠ some p) → nextIn job.ringParts p = none →
        left.nextModule = none → left.firstModule = job.self → ∃ t, exec .abortTokenVisit s = .next t ∧
        (s.now, Ev.abortTokenVisit j (job.ringParts.headD 1024) true (min a (job.part p).lw) reason since) ∈ t.agenda)) ∧
    (s.ev = some (.restart j p) → job.isOpen = true → job.abort = .stopped →
      (∀ r, nextIn job.ringParts p = some r → ∃ t, exec .restart s = .next t ∧ ((t.job j).part p).frozen = false ∧ (s.now + visitTicks p, Ev.restart j r) ∈ t.agenda ∧
        (p < 1024 → ∀ l ∈ job.lpsAt p, (s.now, Ev.inboxDispatch j l.1) ∈ t.agenda) ∧ t.slots = s.slots ∧ t.mem = s.mem) ∧
      (nextIn job.ringParts p = none → ∃ t, exec .restart s = .next t ∧ (t.job j).abort = .none ∧ ((t.job j).part p).frozen = false ∧
        (job.firstModule = job.self → (s.now, Ev.lwgapExpiry j) ∈ t.agenda) ∧ ((∃ m ∈ job.group, m.1 ≠ job.self) → Out.restart j ∈ t.out) ∧
        t.slots = s.slots ∧ t.mem = s.mem))

namespace Sys2Proof.Claims

open Sys2Proof.Machine

/-! ## Rings -/

/-- An announcement of the ring's next position that agrees with the part here (21 R336). -/
def FitsAsSuccessor (r : Ring) (a : Announce) : Prop :=
  a.pos = (r.pos + 1) % r.k ∧ a.pos ≠ r.pos ∧ a.k = r.k ∧ a.s = r.s ∧ a.bsz = r.bsz

/-- No attention operation waits in the clusters of a ring's members (21 R348). -/
def NoAttention (s : State) (r : Ring) : Prop := ∀ p ∈ r.members, (s.cluster (clusterOf p.1)).attnQ = []

/-- The bytes of a beat: what it carries, or, of step 0, the OWN block's at its offset (19 R323). -/
def beatBytes (s : State) (r : Ring) (step off : Nat) (data : List Byte) : List Byte :=
  if step = 0 then (((r.ownPa.flatMap fun p => (List.range p.2).map fun i => p.1 + i).drop off).take 64).map (memByte s.mem) else data

/-- The address of a step's block in a member's buffer (19 R322). -/
def blockAt (p : Nat × Nat) (m : Member) (r : Ring) (step : Nat) : Nat := localBase p.1 + m.buf + step % r.s * r.block

end Sys2Proof.Claims

open Sys2Proof Sys2Proof.Machine Sys2Proof.Claims

/-- 21 R336 to R341, R346, 22 R359: an announcement gives a complete part its successor; a token admits its step; a beat of a step awaited takes its bank and
lands in its member's buffer at the end of that cycle, one of no ring is dropped and counted, and one whose member has moved follows it; a read-out sends the
block as the next step; a BREAK ends transfers at the end of its cycle. -/
def Obligations.RingTraffic : Prop :=
  ∀ (s : State) (job ring : Nat),
    (∀ a, s.ev = some (.ringAnnouncement a) → a.job = job → a.ring = ring →
      (s.ringless job = true → exec .ringAnnouncement s = .next s) ∧
      (s.ringless job = false → s.ring job ring = none → exec .ringAnnouncement s = .next { s with anns := s.anns ++ [a] }) ∧
      (∀ r, s.ringless job = false → s.ring job ring = some r → r.complete = true → r.members ≠ [] → r.broken = false → r.conflict = false → FitsAsSuccessor r a →
        (∀ b ∈ s.anns, b.job = job → b.ring ≠ ring) → ∃ t q, exec .ringAnnouncement s = .next t ∧ t.anns = s.anns ++ [a] ∧ t.ring job ring = some q ∧
          q.linkSucc = some a.modul ∧ q.conflict = false ∧ q.members = r.members ∧ t.mem = s.mem ∧ t.slots = s.slots)) ∧
    (∀ step, s.ev = some (.rillToken job ring step) →
      (s.ringless job = true → exec .rillToken s = .next s) ∧
      (s.ringless job = false → s.ring job ring = none → exec .rillToken s = .next s.countClosed) ∧
      (∀ r, s.ringless job = false → s.ring job ring = some r → (r.broken = true ∨ r.k ≤ step → exec .rillToken s = .next s) ∧
        (r.broken = false → step < r.k → ∃ t, exec .rillToken s = .next t ∧ t = { s with rings := t.rings } ∧
          t.ring job ring = some { r with tokens := r.tokens ++ [step] }))) ∧
    (∀ step off data bad, s.ev = some (.rillBeat job ring step off data bad) →
      (s.ringless job = true → exec .rillBeat s = .next s) ∧
      (s.ringless job = false → step ≠ 0 → s.ring job ring = none → exec .rillBeat s = .next s.countClosed) ∧
      (∀ r p m, s.ringless job = false → s.ring job ring = some r → r.broken = false → r.members = [p] → s.member p.1 p.2 = some m →
        (tget r.slots (step % r.s) .init = .await step ∨ ∃ ro, tget r.slots (step % r.s) .init = .held step ro) →
        ∃ t at_ b, exec .rillBeat s = .next t ∧ KeepsMemory s t ∧ t.slots = s.slots ∧ (step ≠ 0 → b = bad) ∧
          (at_, Ev.rillLand (ownerRill (s.fresh + 1)) p.1 p.2 m.gang step off (beatBytes s r step off data) b) ∈ t.agenda)) ∧
    (∀ owner core i g step off data bad, s.ev = some (.rillLand owner core i g step off data bad) →
      ((∀ m, s.member core i = some m → m.gang ≠ g) → exec .rillBeat s = .next (s.landMoved core i g step off data bad)) ∧
      (∀ m r, s.member core i = some m → m.gang = g → s.ring m.job m.ring = some r → (core, i) ∈ r.members →
        (∀ at_, s.claimEnds core owner = some at_ → exec .rillBeat s = .next (s.schedule at_ (.rillLand owner core i g step off data bad))) ∧
        (s.claimEnds core owner = none → r.broken = true → exec .rillBeat s = .next s) ∧
        (s.claimEnds core owner = none → r.broken = false → (s.cluster (clusterOf core)).attnQ = [] →
          ∃ t n, exec .rillBeat s = .next t ∧ t.mem = memPut s.mem (blockAt (core, i) m r step + off) data ∧ t.member core i = some n ∧
            off / 64 ∈ tget n.landed step [] ∧ n.oldest = m.oldest ∧ n.buf = m.buf ∧ n.gang = m.gang ∧ t.slots = s.slots ∧ t.fe = s.fe))) ∧
    (∀ step r p m succ, s.ev = some (.readOut job ring step) → s.ring job ring = some r → r.broken = false →
      r.members.find? (fun p => ((s.member p.1 p.2).map (·.lead)).getD false) = some p → s.member p.1 p.2 = some m → r.linkSucc = some succ →
      ∃ t q, exec .readOut s = .next t ∧ t.ring job ring = some q ∧ q.readOut = step + 1 ∧ t.mem = s.mem ∧ t.slots = s.slots ∧
        Out.rillBeats succ job ring (step + 1) (memBytes s.mem (blockAt p m r step) r.block) (((m.uncorr.find? fun e => e.1 == step).map (·.2)).or
          (if s.damagedLocal (blockAt p m r step) r.block then some 0 else none)) ∈ t.out) ∧
    (s.ev = some (.ringBreak job ring) → (s.ring job ring = none → exec .ringBreak s = .next s) ∧
      (∀ r, s.ring job ring = some r →
        (r.breakAt = none → exec .ringBreak s = .next ((s.setRing { r with breakAt := some s.cycleEnd }).schedule s.cycleEnd (.ringBreak job ring))) ∧
        (∀ d, r.breakAt = some d → s.now < d → exec .ringBreak s = .next s) ∧
        (∀ d, r.breakAt = some d → d ≤ s.now → NoAttention s r → ∃ t, exec .ringBreak s = .next t ∧ t = { s with rings := t.rings } ∧
          t.ring job ring = some { r with broken := true, tokens := [] })))

/-- 22 R353, R358, R361, 26 R407, 06 R123: a refused packet is counted at its router and a refused request traps PROT; a new incarnation is recorded and aborts the job shared with that module; a reset leaves the state of reset with the
next incarnation; a quiet fibre group parks, one whose queue exceeds HIGH or that is asked to wakes and is wide 9 us later; a READY bit sets. -/
def Sys2Proof.Claims.FabricAndReadiness : Prop :=
  ∀ (s : State),
    (∀ cls id addr posted j, s.ev = some (.packetRefusal cls id addr posted j) →
      tget (s.countDrop (id / 16)).tnDrop (id / 16) 0 = counterUp (tget s.tnDrop (id / 16) 0) 1 ∧
      (∀ f, cls = 0 → posted = false → (s.slot id).inFlight = some f → exec .packetRefusal s =
        .next ((s.countDrop (id / 16)).takeTrap id { cause := .prot, origin := 5, addr := BitVec.ofNat 64 addr } (s.slot id).pc)) ∧
      (cls ≠ 0 → (s.job j).isOpen = false → exec .packetRefusal s = .next (s.countDrop (id / 16)))) ∧
    (∀ j m inc link, s.ev = some (.incarnationAnnouncement j m inc link) → ∃ t, exec .incarnationAnnouncement s = .next t ∧
      t.peers.find? (fun p => p.1 == (j, m)) = some ((j, m), inc) ∧ (∀ k, k ≠ (j, m) → t.peers.find? (fun p => p.1 == k) = s.peers.find? (fun p => p.1 == k)) ∧
      (∀ f ∈ t.flows, f.link ≠ link) ∧ (∀ r ∈ t.retries, ∀ n, r.origin ≠ .remote m j n) ∧ t.slots = s.slots ∧ t.mem = s.mem ∧
      ((s.job j).isOpen = true → (∃ g ∈ (s.job j).group, g.1 = m) → (s.job j).abort = .none ∨ (s.job j).abort = .stopped →
        (t.job j).abort = .first ∧ (t.job j).reason = BitVec.ofNat 64 (3 * 2 ^ 60 + (s.job j).self * 2 ^ 48) ∧ ∀ g ∈ (t.job j).group, g.1 ≠ m)) ∧
    (∃ t, exec .reset s = .next t ∧ t = { State.reset with incarnation := s.incarnation + 1, now := s.now, fresh := s.fresh, out := t.out } ∧
      ∀ j ∈ s.jobs, j.2.isOpen = true → j.2.group ≠ [] → Out.incarnation j.1 (s.incarnation + 1).toNat ∈ t.out) ∧
    (∀ g, s.ev = some (.groupPark g) →
      ((s.fibre g).st = .wide → (s.fibre g).queue ≤ (s.fibre g).low → (s.fibre g).quietSince + (s.fibre g).hold * usTicks ≤ s.now → ∃ t, exec .groupPark s = .next t ∧ t = { s with fibres := t.fibres } ∧
        t.fibre g = { s.fibre g with st := .parked }) ∧
      ((s.fibre g).st ≠ .wide ∨ (s.fibre g).low < (s.fibre g).queue ∨ s.now < (s.fibre g).quietSince + (s.fibre g).hold * usTicks → exec .groupPark s = .next s)) ∧
    (∀ g, s.ev = some (.groupWake g) →
      ((s.fibre g).st = .parked → ∃ t, exec .groupWake s = .next t ∧ (t.fibre g).st = .waking ∧ (t.fibre g).settled = false ∧ (t.fibre g).wakes = counterUp (s.fibre g).wakes 1 ∧
        (s.now + 8 * usTicks, Ev.heaterSettle g) ∈ t.agenda ∧ (s.now + 9 * usTicks, Ev.lockComplete g) ∈ t.agenda ∧ t.slots = s.slots) ∧
      ((s.fibre g).st ≠ .parked → exec .groupWake s = .next s)) ∧
    (∀ g n, s.ev = some (.linkQueue g n) →
      let since := if (s.fibre g).queue ≤ (s.fibre g).low then (s.fibre g).quietSince else s.now
      ((s.fibre g).st = .parked → (s.fibre g).high < n → ∃ t, exec .groupWake s = .next t ∧ (t.fibre g).st = .waking ∧ (t.fibre g).queue = n ∧
        (t.fibre g).wakes = counterUp (s.fibre g).wakes 1 ∧ (s.now + 8 * usTicks, Ev.heaterSettle g) ∈ t.agenda ∧
        (s.now + 9 * usTicks, Ev.lockComplete g) ∈ t.agenda ∧ t.slots = s.slots) ∧
      ((s.fibre g).st = .wide → n ≤ (s.fibre g).low → ∃ t, exec .groupWake s = .next t ∧ t.fibre g = { s.fibre g with queue := n, quietSince := since } ∧
        (max s.now (since + (s.fibre g).hold * usTicks), Ev.groupPark g) ∈ t.agenda ∧ t.slots = s.slots)) ∧
    (∀ g, s.ev = some (.heaterSettle g) → (s.fibre g).st = .waking → ∃ t, exec .heaterSettle s = .next t ∧ t = { s with fibres := t.fibres } ∧
      t.fibre g = { s.fibre g with settled := true }) ∧
    (∀ g, s.ev = some (.lockComplete g) → (s.fibre g).st = .waking → (s.fibre g).settled = true → ∃ t, exec .lockComplete s = .next t ∧ (t.fibre g).st = .wide ∧
      (t.fibre g).low = (s.fibre g).low ∧ (t.fibre g).high = (s.fibre g).high ∧ (t.fibre g).hold = (s.fibre g).hold ∧ t.slots = s.slots ∧ t.mem = s.mem) ∧
    (∀ b, s.ev = some (.readySet b) → (39 ≤ b ∨ s.ready.getLsbD b = true → exec .readySet s = .next s) ∧
      (b < 39 → s.ready.getLsbD b = false → ∃ t, exec .readySet s = .next t ∧ t.ready = s.ready ||| BitVec.ofNat 64 (2 ^ b) ∧ t.slots = s.slots ∧ t.mem = s.mem ∧
        (b = 1 → (s.now + 50 * usTicks, Ev.powerMeasurement) ∈ t.agenda) ∧
        (b = 38 → ∀ j ∈ s.jobs, j.2.isOpen = true → j.2.firstModule = j.2.self → (s.now, Ev.lwgapExpiry j.1) ∈ t.agenda)))

/-- 22 R351, R353, R358: a packet of another module whose incarnation is not the recorded one is dropped and counted at the engine it came by; one ahead of a gap in its flow waits; one for a core of
another tenant is dropped, counted and reported; any other is performed, Rill beats of class 3 in any order, and the packet that waited for it follows. -/
def Sys2Proof.Claims.PacketsKeepTheirFlow : Prop :=
  ∀ (s : State) (t engine : Nat) (h : PacketHead) (e : Ev) (rest : List (Nat × Ev)),
    s.agenda = (t, .fromModule h engine e) :: rest → (∀ tick id, s.firstReady s.slots = some (tick, id) → s.goesFirst t tick = true) →
    let u : State := { s with agenda := rest, now := max s.now t, ev := some e }
    let f := s.flow h
    (∀ p, s.peers.find? (fun p => p.1 == (h.job, h.modul)) = some p → p.2 ≠ h.inc →
      step s = .next { u with incDrop := tset s.incDrop engine (counterUp (tget s.incDrop engine 0) 1) }) ∧
    ((∀ p, s.peers.find? (fun p => p.1 == (h.job, h.modul)) = some p → p.2 = h.inc) →
      (h.cls ≠ 3 → h.fseq % 256 ≠ f.next → step s = .next (u.setFlow h { f with held := f.held ++ [(h.fseq % 256, .fromModule h engine e)] })) ∧
      (s.routerRefuses h = true → (h.cls ≠ 3 → h.fseq % 256 = f.next) →
        step s = .next (((u.inFlow (.fromModule h engine e)).countDrop h.dst).reportDrop h.dst 0 0 h.job)) ∧
      (s.routerRefuses h = false → h.cls = 3 → step s = exec e.instr u) ∧
      (s.routerRefuses h = false → h.cls ≠ 3 → h.fseq % 256 = f.next →
        (f.held = [] → step s = exec e.instr (u.setFlow h { f with next := (f.next + 1) % 256 })) ∧
        (∀ w, f.held = [((f.next + 1) % 256, w)] → step s = exec e.instr ((u.setFlow h { f with next := (f.next + 1) % 256, held := [] }).soon w))))

/-- 06 R109, R119, 22 R351, R354, R358, 09 R185, 25 R397, R398: an access that loses its bank forfeits its issue; a DET job's packet takes an exact time; a vector step's trap comes when its cycles have passed; beats that fail their parity swap lanes or leave uncorrectable words; packets of a flow keep their order. -/
def Obligations.BanksTimedPacketsAndErrors : Prop :=
  Claims.LostBanksForfeitTheIssue ∧ Claims.TimedLoadsTravelExactly ∧ Claims.VectorTrapsAtTheStepsEnd ∧ Claims.FailingBeatsAndWords ∧ Claims.PacketsKeepTheirFlow


/-- 26 R409, 06 R121: every 50 us power is measured again; over the cap a slot of every core of the first class in order that has one goes at its core's next rotation, and after 1 ms below 95% of the cap
the slot removed last returns. The measured power is a free value (log 8). -/
def Sys2Proof.Claims.PowerIsCapped : Prop :=
  ∀ (s : State), s.ev = some .powerMeasurement →
    let w := Config.measuredPower (s.fresh + 1)
    ∃ t, exec .powerMeasurement s = .next t ∧ (s.now + 50 * usTicks, Ev.powerMeasurement) ∈ t.agenda ∧ t.slots = s.slots ∧ t.mem = s.mem ∧ t.cap = s.cap ∧
      (s.cap ≠ 0 → s.cap < w → ∀ cls, [2, 3, 1].find? s.canRemove = some cls → ∀ c ∈ coresOfClass cls, ∀ i, s.lastSlot c = some i →
        (s.nextRotation c, Ev.slotRemoval (c * 16 + i)) ∈ t.agenda ∧ c * 16 + i ∈ t.removals) ∧
      (∀ id r t0, s.cap ≠ 0 → w * 100 < s.cap * 95 → s.lowSince = some t0 → t0 + 1000 * usTicks ≤ s.now → s.dutied = [] → s.removals = id :: r →
        (s.nextRotation (id / 16), Ev.slotRestore id) ∈ t.agenda ∧ t.removals = r) ∧
      (s.cap ≠ 0 → s.cap * 95 ≤ w * 100 → t.lowSince = none)

/-- 22 R353, R358, R361, 26 R407, R409, 06 R121, R123: refused packets, incarnations, reset, fibre groups, READY, and power under its cap. The measured power is a free value (log 8). -/
def Obligations.FabricReadinessAndPower : Prop :=
  Claims.FabricAndReadiness ∧ Claims.PowerIsCapped


namespace Sys2Proof.Claims

open Sys2Proof.Machine

/-! ## The host's windows -/

/-- Word m1 of an answer: DONE, the command's TAG, CAUSE and STATUS (26 R402). -/
def answerWord (m0 : Word) (cause : Nat) (st : Status) : Word :=
  BitVec.ofNat 64 (2 ^ 63 + bits m0 8 16 * 2 ^ 16 + cause * 256 + st.code)

/-- A command completes: its slot is free with the answer over m1 to m31, and MSI-X vector 0 is raised (26 R402). -/
def Completed (s t : State) (k : Nat) (st : Status) (cause : Nat) (ans : List Word) : Prop :=
  t.mail k = { words := s.mailWord k 0 :: answerWord (s.mailWord k 0) cause st :: fixedWords 30 ans, busy := false } ∧ Out.msix 0 ∈ t.out ∧
    k ∉ t.bells ∧ t.slots = s.slots

/-- The command of a slot with this answer, and no strand or byte of memory touched. -/
def Replies (s : State) (i : Instr) (k : Nat) (st : Status) (cause : Nat) (ans : List Word) : Prop :=
  ∃ t, exec i s = .next t ∧ Completed s t k st cause ans ∧ t.mem = s.mem

/-- The command pending in slot k is the one that firmware has turned to. -/
def Turn (s : State) (k : Nat) (e : Ev) : Prop := s.ev = some e ∧ s.bells.head? = some k

/-- A job whose abort is not under way (26 R403). -/
def Settled2 (s : State) (j : Nat) : Prop := (s.job j).abort ≠ .first ∧ (s.job j).abort ≠ .second

end Sys2Proof.Claims

open Sys2Proof Sys2Proof.Machine Sys2Proof.Claims

/-- 26 R401, R402, R406, 22 R359: firmware clears one counter; a host write fills a mailbox word, rings a doorbell or sets a register of the window, and is dropped and counted at a busy slot; the ring's head moves to an index the host has read and lets a held event in; staging reads and
writes HBM's bytes, and beyond HBM the machine stops (the model's choice, log 44: the spec says nothing of those addresses; an event's index is by log 41). -/
def Obligations.HostWindows : Prop :=
  ∀ (s : State),
    (∀ off v, s.ev = some (.hostRegisterWrite off v) → s.ready.getLsbD 0 = true →
      (off < 0x800 → ((s.mail (off / 256)).busy = true → exec .hostRegisterWrite s = .next { s with mbDrop := s.mbDrop + 1 }) ∧
        ((s.mail (off / 256)).busy = false → ∃ t, exec .hostRegisterWrite s = .next t ∧ t = { s with mailbox := t.mailbox } ∧ t.hostRegister off = v ∧
          (∀ i, i < 32 → i ≠ off % 256 / 8 → t.mailWord (off / 256) i = s.mailWord (off / 256) i) ∧ ∀ k, k ≠ off / 256 → t.mail k = s.mail k)) ∧
      (off = 0x800 → s.ready.getLsbD 1 = true → let k := bits v 0 3
        ((s.mail k).busy = true → exec .hostRegisterWrite s = .next { s with mbDrop := s.mbDrop + 1 }) ∧
        ((s.mail k).busy = false → ∃ t, exec .hostRegisterWrite s = .next t ∧ t.mail k = { s.mail k with busy := true } ∧ t.bells = s.bells ++ [k] ∧ t.slots = s.slots ∧ t.mem = s.mem)) ∧
      (off = 0x810 → exec .hostRegisterWrite s = .next { s with evqBase := v &&& ~~~0xFFF }) ∧
      (off = 0x818 → exec .hostRegisterWrite s = .next (s.soon (.evqheadAdvance (bits v 0 32)))) ∧
      (off = 0x820 → exec .hostRegisterWrite s = .next { s with stageBase := v &&& ~~~0xFFFFFFFFF })) ∧
    (∀ c, s.ev = some (.clearCounter c) → ∃ t, exec .hostRegisterWrite s = .next t ∧ t.counterOf c = 0 ∧
      (∀ d, d ≠ c → t.counterOf d = s.counterOf d) ∧ t.slots = s.slots ∧ t.mem = s.mem) ∧
    (∀ v, s.ev = some (.evqheadAdvance v) →
      (s.evqHead ≤ v → v ≤ s.evqTail → s.evHeld = [] → exec .evqheadAdvance s = .next { s with evqHead := v }) ∧
      (∀ e, s.evqHead ≤ v → v ≤ s.evqTail → s.evHeld = [e] → s.evqTail < v + 128 → ∃ t, exec .evqheadAdvance s = .next t ∧ t.evqHead = v ∧ t.evHeld = [] ∧
        t.evqTail = s.evqTail + 1 ∧ Out.msix 1 ∈ t.out ∧ ∃ bs, Out.hostWrite (s.evqBase.toNat + 32 * (s.evqTail % 128)) bs ∈ t.out) ∧
      (v < s.evqHead ∨ s.evqTail < v → exec .evqheadAdvance s = .next s)) ∧
    (∀ off n w, s.ev = some (.stagingAccess off n w) → s.ready.getLsbD 0 = true → let pa := s.stageBase.toNat + off
      (hbmEnd < pa + n ∨ 2 ^ 36 < off + n → exec .stagingAccess s = .fault .stagingOutsideHbm) ∧
      (pa + n ≤ hbmEnd → off + n ≤ 2 ^ 36 → w = none → exec .stagingAccess s = .next (s.send (.stagingRead (memBytes s.mem pa n)))) ∧
      (∀ bs, pa + n ≤ hbmEnd → off + n ≤ 2 ^ 36 → w = some bs → bs.length = n → s.drLines = [] → s.tileMarks = [] → ∃ t, exec .stagingAccess s = .next t ∧
        memBytes t.mem pa n = bs ∧ (∀ x, (x < pa ∨ pa + n ≤ x) → memByte t.mem x = memByte s.mem x) ∧ t.fe = s.fe ∧ t.slots = s.slots))

/-- 26 R403, R408, R409, R405, 22 R361: IDENTIFY, ATTEST, POWER_CAP, PARK_POLICY and an unknown CODE answer as the command set says, and an argument out of its range is answered INVALID with its index and changes nothing; JOB_CLOSE of a slot without an
open job is INVALID, and any other ends its job. Which message word holds which argument, and the order of answered words, are the model's (log 40). -/
def Obligations.ModuleCommands : Prop :=
  ∀ (s : State) (k : Nat),
    (Turn s k (.notSupportedCommand k) → Replies s .notSupportedCommand k .notSupported 0 []) ∧
    (Turn s k (.identify k) → Replies s .identify k .ok 0 (fixedWords 2 Config.serial ++ [BitVec.ofNat 64 s.incarnation.toNat, Config.romVersion] ++
      fixedWords 13 Config.identityKey ++ [Config.cfgLength])) ∧
    (Turn s k (.attest k) → ∃ body, body = (List.range 6).map (s.arg k) ++ fixedWords 6 Config.cfgDigest ++ [Config.romVersion, BitVec.ofNat 64 s.incarnation.toNat] ∧
      Replies s .attest k .ok 0 (body ++ fixedWords 12 (Config.attestSignature body))) ∧
    (Turn s k (.powerCap k) → let cap := bits (s.arg k 0) 0 16
      let gate := bits (s.arg k 1) 0 17
      let ans := [BitVec.ofNat 64 (Config.measuredPower (s.fresh + 1)), BitVec.ofNat 64 (s.slots.filter fun e => e.2.removed).length, BitVec.ofNat 64 s.dutied.length]
      (s.arg k 2 ≠ 0 → Replies s .powerCap k .notSupported 0 ans) ∧
      (s.arg k 2 = 0 → cap ≠ 0 → (cap < 1000 ∨ 6000 < cap) → Replies s .powerCap k .invalid 0 ans) ∧
      (s.arg k 2 = 0 → (cap = 0 ∨ 1000 ≤ cap ∧ cap ≤ 6000) → gate ≠ 0 → (gate < 256 ∨ 65536 < gate) → Replies s .powerCap k .invalid 1 ans) ∧
      (s.arg k 2 = 0 → (cap = 0 ∨ 1000 ≤ cap ∧ cap ≤ 6000) → (gate = 0 ∨ 256 ≤ gate ∧ gate ≤ 65536) → ∃ t, exec .powerCap s = .next t ∧
        Completed s t k .ok 0 ans ∧ t.mem = s.mem ∧ t.cap = (if cap = 0 then s.cap else cap) ∧
        ∀ c, c < 1024 → gate ≠ 0 → (bitAt (s.arg k 1) 42 = true ∨ c = bits (s.arg k 1) 32 10) → (t.eng c).idleGate = gate)) ∧
    (Turn s k (.parkPolicy k) → let g := (s.arg k 0).toNat
      let low := (s.arg k 1).toNat
      let high := (s.arg k 2).toNat
      let hold := (s.arg k 3).toNat
      (g < 64 → low ≤ 1024 → low < high → high ≤ 4096 → 1 ≤ hold → hold ≤ 1000 → ∃ t, exec .parkPolicy s = .next t ∧ Completed s t k .ok 0 [] ∧ t.mem = s.mem ∧
        (t.fibre g).low = low ∧ (t.fibre g).high = high ∧ (t.fibre g).hold = hold ∧
        ((s.fibre g).st = .parked → high < (s.fibre g).queue → (t.fibre g).st = .waking) ∧
        ((s.fibre g).st ≠ .parked ∨ (s.fibre g).queue ≤ high → t.fibre g = { s.fibre g with
          low := low, high := high, hold := hold, quietSince := if (s.fibre g).low = low then (s.fibre g).quietSince else s.now })) ∧
      (64 ≤ g → Replies s .parkPolicy k .invalid 0 []) ∧ (g < 64 → 1024 < low → Replies s .parkPolicy k .invalid 1 []) ∧
      (g < 64 → low ≤ 1024 → (high ≤ low ∨ 4096 < high) → Replies s .parkPolicy k .invalid 2 []) ∧
      (g < 64 → low ≤ 1024 → low < high → high ≤ 4096 → (hold = 0 ∨ 1000 < hold) → Replies s .parkPolicy k .invalid 3 [])) ∧
    (Turn s k (.jobClose k) →
      (s.jobOfSlot (s.arg k 0).toNat = none → Replies s .jobClose k .invalid 0 []) ∧
      (∀ j, s.jobOfSlot (s.arg k 0).toNat = some j → ∃ t, exec .jobClose s = .next t ∧ (t.job j).isOpen = false ∧ Out.msix 0 ∈ t.out ∧ k ∉ t.bells ∧
        (t.mail k).busy = false ∧ (t.mail k).words.getD 1 0 = answerWord (s.mailWord k 0) 0 .ok ∧ (∀ r ∈ t.rings, r.job ≠ j) ∧ (∀ x ∈ t.held, x.job ≠ j) ∧
        (∀ r ∈ t.ranges, r.2.job ≠ j) ∧ ∀ l ∈ t.drLines, l.2.2 ≠ j))

/-- 26 R403, R404, R417, 15 R269, R271, 16 R288, 22 R353, 08 R155, R158: TENANT_MAP sets a tenant's rectangle and full bucket, FORMAT_RANGE a job's range, ACT_SET an entry of a job's table, JOB_OPEN a job, each refused with the lowest-numbered reason and
then without effect. Which message word holds which argument is the model's (log 40); the order of the checks of JOB_OPEN too (log 46). -/
def Obligations.TenantJobAndRangeCommands : Prop :=
  ∀ (s : State) (k : Nat),
    (Turn s k (.tenantMap k) → let n := (s.arg k 0).toNat
      let x := bits (s.arg k 1) 0 5
      let y := bits (s.arg k 1) 5 4
      let w := bits (s.arg k 1) 9 5 + 1
      let h := bits (s.arg k 1) 14 4 + 1
      let rate := (s.arg k 2).toNat
      let cap := (s.arg k 3).toNat
      (n = 0 ∨ 4096 ≤ n → Replies s .tenantMap k .invalid 0 []) ∧
      (1 ≤ n → n < 4096 → x + w ≤ 32 → y + h ≤ 16 → 1 ≤ rate → rate ≤ 64 → 1 ≤ cap → cap ≤ 65535 →
        ((∃ o ∈ s.tenants, o.1 ≠ n ∧ o.2.valid = true ∧ rectsMeet x y w h o.2.x o.2.y o.2.w o.2.h = true) → Replies s .tenantMap k .refused 1 []) ∧
        ((∀ o ∈ s.tenants, o.1 ≠ n → o.2.valid = true → rectsMeet x y w h o.2.x o.2.y o.2.w o.2.h = false) →
          ((∃ j ∈ s.jobs, j.2.isOpen = true ∧ j.2.tenant = n ∧ rectInside j.2.subX j.2.subY j.2.subW j.2.subH x y w h = false) → Replies s .tenantMap k .refused 2 []) ∧
          ((∀ j ∈ s.jobs, j.2.isOpen = true → j.2.tenant = n → rectInside j.2.subX j.2.subY j.2.subW j.2.subH x y w h = true) → ∃ t, exec .tenantMap s = .next t ∧
            Completed s t k .ok 0 [] ∧ t.mem = s.mem ∧ ((tget s.tenants n {}).valid = false →
              tget t.tenants n {} = { valid := true, x := x, y := y, w := w, h := h, rate := rate, cap := cap, level := cap * 1000 * 12288, atTick := s.now }))))) ∧
    (Turn s k (.formatRange k) → let n := (s.arg k 1).toNat
      (64 ≤ (s.arg k 0).toNat → Replies s .formatRange k .invalid 0 []) ∧ ((s.arg k 0).toNat < 64 → 8 ≤ n → Replies s .formatRange k .invalid 1 []) ∧
      ((s.arg k 0).toNat < 64 → n < 8 → bits (s.arg k 2) 56 3 ≠ 5 → Replies s .formatRange k .invalid 2 []) ∧
      ((s.arg k 0).toNat < 64 → n < 8 → bits (s.arg k 2) 56 3 = 5 →
        (s.jobOfSlot (s.arg k 0).toNat = none → Replies s .formatRange k .refused 1 []) ∧
        (∀ j, s.jobOfSlot (s.arg k 0).toNat = some j → Settled2 s j →
          let r : FmtRange := { base := s.arg k 2 &&& 0x8700FFFFFFFFFFC0, lim := s.arg k 3 &&& 0xFFFFFFFFFFC0, scl := s.arg k 4 &&& 0xFFFFFFFFFFF8, job := j }
          let old := tget s.ranges n {}
          (old.on = true → old.job ≠ j → (s.job old.job).isOpen = true → Replies s .formatRange k .refused 2 []) ∧
          (old.on = false ∨ old.job = j ∨ (s.job old.job).isOpen = false →
            (∀ c, r.refusal ((s.ranges.filter fun e => e.1 != n && e.2.on).map (·.2)) = some c → Replies s .formatRange k .refused c []) ∧
            (r.refusal ((s.ranges.filter fun e => e.1 != n && e.2.on).map (·.2)) = none → ∃ t, exec .formatRange s = .next t ∧ Completed s t k .ok 0 [] ∧ t.mem = s.mem ∧
              tget t.ranges n {} = r ∧ (r.on = true → ∀ e ∈ t.side, e.1 < 64 * r.first ∨ 64 * (r.first + r.lines) ≤ e.1)))))) ∧
    (Turn s k (.actSet k) → let j := (s.arg k 0).toNat
      let n := (s.arg k 1).toNat
      let m := (s.arg k 2).toNat
      let tn := (s.arg k 3).toNat
      (65536 ≤ j → Replies s .actSet k .invalid 0 []) ∧
      (j < 65536 → n < 32 → m < 4096 → tn < 4096 → Settled2 s j →
        (s.arg k 4 = 1 → ∃ t, exec .actSet s = .next t ∧ Completed s t k .ok 0 [] ∧ t.mem = s.mem ∧ tget (t.job j).act n (0, 0) = (m, tn)) ∧
        (s.arg k 4 = 0 → ∃ t, exec .actSet s = .next t ∧ Completed s t k .ok 0 [] ∧ t.mem = s.mem ∧ ∀ e ∈ (t.job j).act, e.1 ≠ n) ∧
        (1 < (s.arg k 4).toNat → Replies s .actSet k .invalid 4 []))) ∧
    (∀ rcd, Turn s k (.jobOpen k rcd) → let w := fun i => rcd.getD i 0
      let id := bits (w 0) 0 16
      let j := recordJob w (s.arg k 0).toNat (s.job id)
      (64 ≤ (s.arg k 0).toNat → Replies s .jobOpen k .invalid 0 []) ∧
      ((s.arg k 0).toNat < 64 → j.inRange = false → Replies s .jobOpen k .invalid 1 []) ∧
      ((s.arg k 0).toNat < 64 → j.inRange = true → Settled2 s id →
        (∀ st c, s.judgeOpen id j (w 12).toNat (w 13).toNat = .answer st c → Replies s .jobOpen k st c []) ∧
        (∀ o, s.judgeOpen id j (w 12).toNat (w 13).toNat = .opens o → ∃ t, exec .jobOpen s = .next t ∧ Completed s t k .ok 0 [] ∧ t.mem = s.mem ∧ t.job id = o ∧
          (∀ cl ∈ o.clusters, (s.now, Ev.agingStep cl) ∈ t.agenda) ∧ o.isOpen = true ∧ o.jslot = (s.arg k 0).toNat)))

/-- 26 R403, R410, R411, R416, R417, 22 R355, R357, R360: GROUP_SET stops new remote requests of its job, and the change follows once its remote traffic has drained, with the answer L and B; TRACE_CTL sets a trace ring or breakpoints or resumes a slot; LOCKSTEP
pairs two DET jobs of one tenant and shape. Which message word holds which argument is the model's (log 40). -/
def Obligations.GroupTraceAndLockstepCommands : Prop :=
  ∀ (s : State) (k : Nat),
    (Turn s k (.groupSet k) → let j := (s.arg k 0).toNat
      let g := s.groupArg k
      (65536 ≤ j → Replies s .groupSet k .invalid 0 []) ∧
      (j < 65536 → 1 ≤ g.self → (∃ m ∈ g.members, m.1 = g.self) → (∀ m ∈ g.members, m.1 ≠ 0) → (∀ c ∈ g.circuits, (∃ m ∈ g.members, m.1 = c.1) ∧ ∃ m ∈ g.members, m.1 = c.2.1) → Settled2 s j →
        ((∃ e, e < 16 ∧ g.engines.testBit e = true ∧ s.ready.getLsbD (22 + e) = false) → Replies s .groupSet k .notReady 0 []) ∧
        ((∀ e, e < 16 → g.engines.testBit e = true → s.ready.getLsbD (22 + e) = true) →
          (s.breaksRing j g = true → Replies s .groupSet k .refused 1 []) ∧
          (s.breaksRing j g = false → ∃ t, exec .groupSet s = .next t ∧ (t.job j).groupBusy = true ∧ (s.now, Ev.circuitChange k) ∈ t.agenda ∧ t.slots = s.slots ∧ t.mem = s.mem)))) ∧
    (Turn s k (.circuitChange k) → let j := (s.arg k 0).toNat
      let g := s.groupArg k
      (s.groupTraffic j = true → exec .circuitChange s = .next (s.schedule (s.now + usTicks) (.circuitChange k))) ∧
      (s.groupTraffic j = false → ∃ t, exec .circuitChange s = .next t ∧ (t.job j).group = g.members ∧ (t.job j).circuits = g.circuits ∧ (t.job j).self = g.self ∧
        (t.job j).groupBusy = false ∧ Completed s t k .ok 0 [BitVec.ofNat 64 (Config.linkNs (s.fresh + 1)), BitVec.ofNat 64 (groupRate g.circuits)] ∧ t.mem = s.mem)) ∧
    (Turn s k (.traceCtl k) → let j := (s.arg k 0).toNat
      let n := (s.arg k 2).toNat
      let len := (s.arg k 3).toNat
      (65536 ≤ j ∨ (s.job j).isOpen = false → Replies s .traceCtl k .invalid 0 []) ∧
      (j < 65536 → (s.job j).isOpen = true →
        (4 ≤ (s.arg k 1).toNat → Replies s .traceCtl k .invalid 1 []) ∧
        (s.arg k 1 = 0 → (s.area (s.job j).root n (64 * len) = none → Replies s .traceCtl k .refused 1 []) ∧
          (∀ l, s.area (s.job j).root n (64 * len) = some l → (∃ h ∈ areaStacks l n (64 * len), s.ready.getLsbD (2 + h) = false) →
            Replies s .traceCtl k .notReady 0 []) ∧
          (∀ l, s.area (s.job j).root n (64 * len) = some l → (∀ h ∈ areaStacks l n (64 * len), s.ready.getLsbD (2 + h) = true) → ∃ t, exec .traceCtl s = .next t ∧ Completed s t k .ok 0 [] ∧ t.mem = s.mem ∧ (t.job j).traceBase = n ∧
            (t.job j).traceEntries = len ∧ (t.job j).traceNext = 0 ∧ (t.job j).traceTraps = bitAt (s.arg k 4) 0)) ∧
        (s.arg k 1 = 1 → (4 < n → Replies s .traceCtl k .invalid 2 []) ∧ (n ≤ 4 → ∃ t, exec .traceCtl s = .next t ∧ Completed s t k .ok 0 [] ∧ t.mem = s.mem ∧
          (t.job j).breakpoints = (List.range n).map fun i => (slotNamed (s.arg k (3 + 2 * i)), s.arg k (4 + 2 * i)))) ∧
        (s.arg k 1 = 2 → ∃ t, exec .traceCtl s = .next t ∧ Completed s t k .ok 0 [] ∧ t.mem = s.mem ∧ (t.job j).breakpoints = []) ∧
        (s.arg k 1 = 3 → ∃ t, exec .traceCtl s = .next t ∧ (t.slot (slotNamed (s.arg k 2))).stopped = false ∧ (∀ id, id ≠ slotNamed (s.arg k 2) → t.slot id = s.slot id) ∧
          (t.mail k).busy = false ∧ t.mem = s.mem))) ∧
    (Turn s k (.lockstep k) → let a := (s.arg k 0).toNat
      let b := (s.arg k 1).toNat
      let d := (s.arg k 2).toNat
      ((s.job a).isOpen = false → Replies s .lockstep k .invalid 0 []) ∧
      ((s.job a).isOpen = true → (s.job b).isOpen = false ∨ a = b → Replies s .lockstep k .invalid 1 []) ∧
      ((s.job a).isOpen = true → (s.job b).isOpen = true → a ≠ b → Settled2 s a → Settled2 s b →
        ((s.job a).det = false ∨ (s.job b).det = false → Replies s .lockstep k .refused 1 []) ∧
        ((s.job a).det = true → (s.job b).det = true →
          ((s.job a).tenant ≠ (s.job b).tenant ∨ (s.job a).subW ≠ (s.job b).subW ∨ (s.job a).subH ≠ (s.job b).subH → Replies s .lockstep k .refused 2 []) ∧
          ((s.job a).tenant = (s.job b).tenant → (s.job a).subW = (s.job b).subW → (s.job a).subH = (s.job b).subH →
            (d % 0x20000 ≠ 0 → Replies s .lockstep k .refused 3 []) ∧
            (d % 0x20000 = 0 → ∃ t, exec .lockstep s = .next t ∧ Completed s t k .ok 0 [] ∧ t.mem = s.mem ∧ (t.job a).lockstep = some (b, d, true) ∧
              (t.job b).lockstep = some (a, d, false)))))) ∧
    (∀ i, i ∈ [Instr.identify, .attest, .jobClose, .tenantMap, .formatRange, .actSet, .powerCap, .groupSet, .circuitChange, .parkPolicy, .traceCtl, .lockstep, .notSupportedCommand] →
      s.bells.head? ≠ some k → s.ev ∈ [some (.identify k), some (.attest k), some (.jobClose k), some (.tenantMap k), some (.formatRange k), some (.actSet k), some (.powerCap k),
        some (.groupSet k), some (.circuitChange k), some (.parkPolicy k), some (.traceCtl k), some (.lockstep k), some (.notSupportedCommand k)] → exec i s = .next s)

namespace Sys2Proof.Claims

open Sys2Proof.Machine

/-! ## The whole machine -/

/-- A step of this module's own, which no packet of another module or of the timed channel brings. -/
def ownStep : Ev → Bool
  | .fromModule _ _ _ | .timed _ _ => false
  | _ => true

/-- Words written out from the encoding tables of 02, with the length in bytes and the instruction each stands for. -/
def knownWords : List (Nat × Nat × Instr) :=
  [ (0xC6021249, 4, .srd 9 2 0), (0x7E000A71, 4, .li 5 0x7E00 0), (0x00000A79, 4, .lih 5 0 0), (0x000200B1, 4, .call 256 0),
    (0xFF840881, 4, .dbnz 4 (-1) 0), (0x000001F1, 4, .wake 0), (0x1496, 2, .liShort 4 10), (0x08A4, 2, .addShort 5 4) ]

end Sys2Proof.Claims

open Sys2Proof Sys2Proof.Machine Sys2Proof.Claims

/-- 02 R37 to R43, 01 R13 to R19: decoding the bytes of any well-formed instruction gives it back with every operand, and leaves what follows. -/
def Obligations.DecodeEncodeAgree : Prop :=
  ∀ (i : Instr) (rest : List Byte), i.wf = true → decode (encode i ++ rest) = .ok (i, rest)

/-- 02 R37 to R43, 01 R15, R16: words written out from the encoding tables decode to the instructions they stand for. -/
def Obligations.KnownWordsDecode : Prop :=
  ∀ p ∈ knownWords, decode (toBytes p.1 p.2.1) = .ok (p.2.2, [])

/-- 01 R13, R14, 06 R108, 07 R132: the strand that issues next runs the instruction that its fetched word decodes to, read from its core's local memory where the instruction cache does not hold it; a pending step that is due no later is performed first, but for probes,
which come after the issues of their tick; with nothing to do a mesh cycle passes. That a pending step comes before an issue of the same tick, and the passing cycle, are the model's order (log 4). -/
def Obligations.StepRunsTheDecodedInstruction : Prop :=
  ∀ (s : State),
    (∀ tick id i rest, s.firstReady s.slots = some (tick, id) → (∀ e, s.agenda.head? = some e → tick < e.1 ∨ (tick = e.1 ∧ s.onlyProbes tick = true)) →
      ∀ u, u = s.toIssue tick id → (u.me.issuedAt.isSome = true ∨ (u.causeDue = false ∧ u.atBreakpoint = false)) →
      (∀ w n v, u.fetchWord u.coreId u.myGang.job u.me.pc = .word w n v → decode (toBytes w n) = .ok (i, rest) → step s = exec i v) ∧
      (∀ pa, u.me.pc.toNat + 4 ≤ 0x180000 → pa = localBase u.coreId + u.me.pc.toNat → (∀ e ∈ (u.core u.coreId).icache, e.1 ≠ pa ∧ e.1 ≠ pa + 2) →
        decode (memBytes u.mem pa 4) = .ok (i, rest) → ∃ v, step s = exec i v ∧ v = { u with cores := v.cores } ∧
          ∀ c, v.core c = { u.core c with icache := (v.core c).icache })) ∧
    (∀ t e rest, s.agenda = (t, e) :: rest → (∀ tick id, s.firstReady s.slots = some (tick, id) → t < tick ∨ (t = tick ∧ s.onlyProbes t = false)) →
      ownStep e = true →
      step s = exec e.instr { s with agenda := rest, now := max s.now t, ev := some e }) ∧
    (s.agenda = [] → s.firstReady s.slots = none → step s = .next { s with now := s.now + mcTicks })

/-- 23 R367, 06 R123, 22 R359, R361, 03 R60: what reset leaves: nothing ready, no strand in any slot, every engine gated with no hold running, every licence parked, every fibre group wide with the default policy, and counters at 0; that memory reads 0 there is the model's choice (log 1). -/
def Obligations.ResetState : Prop :=
  State.reset.ready = 0 ∧ State.reset.now = 0 ∧ (∀ id, (State.reset.slot id).live = false) ∧ (∀ j, (State.reset.job j).isOpen = false) ∧
    (∀ c, (State.reset.eng c).gate = .gated 0 ∧ (State.reset.eng c).idleGate = 4096) ∧ (∀ p, (State.reset.pair p).holder = none ∧ (State.reset.pair p).duty = 0) ∧
    (∀ g, State.reset.fibre g = { low := 0, high := 64, hold := 50, st := .wide }) ∧ State.reset.clDrop = 0 ∧ (∀ r, tget State.reset.tnDrop r 0 = 0) ∧
    (∀ e, tget State.reset.incDrop e 0 = 0) ∧ ∀ a, memByte State.reset.mem a = 0

/-- The invariant holds at reset: memory is in its canonical form. -/
def Obligations.ResetMeetsTheInvariant : Prop := Machine.Inv State.reset

/-- Whatever a step performs, memory stays in its canonical form: addresses strictly rising, and no byte listed that an unlisted address reads as. -/
def Obligations.EveryStepKeepsTheInvariant : Prop := ∀ s t, Machine.Inv s → step s = .next t → Machine.Inv t

/-- 23 R367: a READY bit changes in no step but the READY_SET of that bit, which sets it, and a reset. -/
def Obligations.ReadyBitsClearOnlyAtReset : Prop :=
  ∀ s t, step s = .next t → t.ready = s.ready ∨ ∃ k r, s.agenda = k :: r ∧
    (plainEv k.2 = .reset ∨ ∃ b, plainEv k.2 = .readySet b ∧ t.ready = s.ready ||| BitVec.ofNat 64 (2 ^ b))
end

