-- ==== Sys2Proof/Laws/State.lean ====
section
/-! SUPPORT. What an update of the state leaves as it was, field by field, and what tables and slots hold after one is
set. -/

namespace Sys2Proof.Machine

/-! ## Tables -/

@[simp] theorem tget_tset_same {α : Type} (t : Table α) (k : Nat) (v x : α) : tget (tset t k v) k x = v := by
  induction t with
  | nil => simp [tset, tget]
  | cons e r ih =>
    obtain ⟨i, w⟩ := e
    by_cases h : i = k <;> simp [tset, tget, h, ih]

theorem tget_tset_other {α : Type} (t : Table α) {k i : Nat} (v x : α) (h : i ≠ k) :
    tget (tset t k v) i x = tget t i x := by
  induction t with
  | nil => simp [tset, tget, h.symm]
  | cons e r ih =>
    obtain ⟨j, w⟩ := e
    by_cases hj : j = k
    · subst hj; simp [tset, tget, h.symm]
    · by_cases hi : j = i
      · subst hi; simp [tset, tget, hj]
      · simp [tset, tget, hj, hi, ih]

theorem tset_tset {α : Type} (t : Table α) (k : Nat) (v w : α) : tset (tset t k v) k w = tset t k w := by
  induction t with
  | nil => simp [tset]
  | cons e r ih =>
    obtain ⟨j, x⟩ := e
    by_cases hj : j = k <;> simp [tset, hj, ih]

/-! ## Entries after one is set -/

@[simp] theorem State.slot_setSlot (s : State) (id : Nat) (v : Slot) : (s.setSlot id v).slot id = v := by
  simp [State.slot, State.setSlot]
theorem State.slot_setSlot_other (s : State) {id k : Nat} (v : Slot) (h : k ≠ id) :
    (s.setSlot id v).slot k = s.slot k := by
  simp [State.slot, State.setSlot, tget_tset_other _ _ _ h]
@[simp] theorem State.setSlot_setSlot (s : State) (id : Nat) (v w : Slot) : (s.setSlot id v).setSlot id w = s.setSlot id w := by
  simp [State.setSlot, tset_tset]
@[simp] theorem State.me_setMe (s : State) (v : Slot) : (s.setMe v).me = v := by
  simp [State.me, State.setMe, State.slot, State.setSlot]
theorem State.slot_setMe_other (s : State) {k : Nat} (v : Slot) (h : k ≠ s.cur) : (s.setMe v).slot k = s.slot k :=
  s.slot_setSlot_other v h
@[simp] theorem State.core_setCore (s : State) (c : Nat) (v : Core) : (s.setCore c v).core c = v := by
  simp [State.core, State.setCore]
@[simp] theorem State.pair_setPair (s : State) (p : Nat) (v : Pair) : (s.setPair p v).pair p = v := by
  simp [State.pair, State.setPair]
@[simp] theorem State.cluster_setCluster (s : State) (c : Nat) (v : Cluster) : (s.setCluster c v).cluster c = v := by
  simp [State.cluster, State.setCluster]
@[simp] theorem State.gang_setGang (s : State) (g : Nat) (v : Gang) : (s.setGang g v).gang g = v := by
  simp [State.gang, State.setGang]
@[simp] theorem State.job_setJob (s : State) (j : Nat) (v : Job) : (s.setJob j v).job j = v := by
  simp [State.job, State.setJob]

/-! ## Fields left as they were -/

@[simp] theorem State.now_setSlot (s : State) (id : Nat) (v : Slot) : (s.setSlot id v).now = s.now := rfl
@[simp] theorem State.agenda_setSlot (s : State) (id : Nat) (v : Slot) : (s.setSlot id v).agenda = s.agenda := rfl
@[simp] theorem State.ev_setSlot (s : State) (id : Nat) (v : Slot) : (s.setSlot id v).ev = s.ev := rfl
@[simp] theorem State.cur_setSlot (s : State) (id : Nat) (v : Slot) : (s.setSlot id v).cur = s.cur := rfl
@[simp] theorem State.fresh_setSlot (s : State) (id : Nat) (v : Slot) : (s.setSlot id v).fresh = s.fresh := rfl
@[simp] theorem State.mem_setSlot (s : State) (id : Nat) (v : Slot) : (s.setSlot id v).mem = s.mem := rfl
@[simp] theorem State.used_setSlot (s : State) (id : Nat) (v : Slot) : (s.setSlot id v).used = s.used := rfl
@[simp] theorem State.fe_setSlot (s : State) (id : Nat) (v : Slot) : (s.setSlot id v).fe = s.fe := rfl
@[simp] theorem State.bad_setSlot (s : State) (id : Nat) (v : Slot) : (s.setSlot id v).bad = s.bad := rfl
@[simp] theorem State.cores_setSlot (s : State) (id : Nat) (v : Slot) : (s.setSlot id v).cores = s.cores := rfl
@[simp] theorem State.pairs_setSlot (s : State) (id : Nat) (v : Slot) : (s.setSlot id v).pairs = s.pairs := rfl
@[simp] theorem State.clusters_setSlot (s : State) (id : Nat) (v : Slot) : (s.setSlot id v).clusters = s.clusters := rfl
@[simp] theorem State.gangs_setSlot (s : State) (id : Nat) (v : Slot) : (s.setSlot id v).gangs = s.gangs := rfl
@[simp] theorem State.jobs_setSlot (s : State) (id : Nat) (v : Slot) : (s.setSlot id v).jobs = s.jobs := rfl
@[simp] theorem State.tenants_setSlot (s : State) (id : Nat) (v : Slot) : (s.setSlot id v).tenants = s.tenants := rfl
@[simp] theorem State.retries_setSlot (s : State) (id : Nat) (v : Slot) : (s.setSlot id v).retries = s.retries := rfl
@[simp] theorem State.records_setSlot (s : State) (id : Nat) (v : Slot) : (s.setSlot id v).records = s.records := rfl
@[simp] theorem State.nextRecord_setSlot (s : State) (id : Nat) (v : Slot) : (s.setSlot id v).nextRecord = s.nextRecord := rfl
@[simp] theorem State.parkMarks_setSlot (s : State) (id : Nat) (v : Slot) : (s.setSlot id v).parkMarks = s.parkMarks := rfl
@[simp] theorem State.parks_setSlot (s : State) (id : Nat) (v : Slot) : (s.setSlot id v).parks = s.parks := rfl
@[simp] theorem State.drLines_setSlot (s : State) (id : Nat) (v : Slot) : (s.setSlot id v).drLines = s.drLines := rfl
@[simp] theorem State.tileMarks_setSlot (s : State) (id : Nat) (v : Slot) : (s.setSlot id v).tileMarks = s.tileMarks := rfl
@[simp] theorem State.owners_setSlot (s : State) (id : Nat) (v : Slot) : (s.setSlot id v).owners = s.owners := rfl
@[simp] theorem State.resident_setSlot (s : State) (id : Nat) (v : Slot) : (s.setSlot id v).resident = s.resident := rfl
@[simp] theorem State.channels_setSlot (s : State) (id : Nat) (v : Slot) : (s.setSlot id v).channels = s.channels := rfl
@[simp] theorem State.timed_setSlot (s : State) (id : Nat) (v : Slot) : (s.setSlot id v).timed = s.timed := rfl
@[simp] theorem State.nextTimed_setSlot (s : State) (id : Nat) (v : Slot) : (s.setSlot id v).nextTimed = s.nextTimed := rfl
@[simp] theorem State.readers_setSlot (s : State) (id : Nat) (v : Slot) : (s.setSlot id v).readers = s.readers := rfl
@[simp] theorem State.tileRback_setSlot (s : State) (id : Nat) (v : Slot) : (s.setSlot id v).tileRback = s.tileRback := rfl
@[simp] theorem State.hedges_setSlot (s : State) (id : Nat) (v : Slot) : (s.setSlot id v).hedges = s.hedges := rfl
@[simp] theorem State.awayTasks_setSlot (s : State) (id : Nat) (v : Slot) : (s.setSlot id v).awayTasks = s.awayTasks := rfl
@[simp] theorem State.held_setSlot (s : State) (id : Nat) (v : Slot) : (s.setSlot id v).held = s.held := rfl
@[simp] theorem State.homeSeq_setSlot (s : State) (id : Nat) (v : Slot) : (s.setSlot id v).homeSeq = s.homeSeq := rfl
@[simp] theorem State.commits_setSlot (s : State) (id : Nat) (v : Slot) : (s.setSlot id v).commits = s.commits := rfl
@[simp] theorem State.relWait_setSlot (s : State) (id : Nat) (v : Slot) : (s.setSlot id v).relWait = s.relWait := rfl
@[simp] theorem State.side_setSlot (s : State) (id : Nat) (v : Slot) : (s.setSlot id v).side = s.side := rfl
@[simp] theorem State.ranges_setSlot (s : State) (id : Nat) (v : Slot) : (s.setSlot id v).ranges = s.ranges := rfl
@[simp] theorem State.rings_setSlot (s : State) (id : Nat) (v : Slot) : (s.setSlot id v).rings = s.rings := rfl
@[simp] theorem State.anns_setSlot (s : State) (id : Nat) (v : Slot) : (s.setSlot id v).anns = s.anns := rfl
@[simp] theorem State.contexts_setSlot (s : State) (id : Nat) (v : Slot) : (s.setSlot id v).contexts = s.contexts := rfl
@[simp] theorem State.migrs_setSlot (s : State) (id : Nat) (v : Slot) : (s.setSlot id v).migrs = s.migrs := rfl
@[simp] theorem State.ready_setSlot (s : State) (id : Nat) (v : Slot) : (s.setSlot id v).ready = s.ready := rfl
@[simp] theorem State.start0_setSlot (s : State) (id : Nat) (v : Slot) : (s.setSlot id v).start0 = s.start0 := rfl
@[simp] theorem State.start1_setSlot (s : State) (id : Nat) (v : Slot) : (s.setSlot id v).start1 = s.start1 := rfl
@[simp] theorem State.incarnation_setSlot (s : State) (id : Nat) (v : Slot) : (s.setSlot id v).incarnation = s.incarnation := rfl
@[simp] theorem State.peers_setSlot (s : State) (id : Nat) (v : Slot) : (s.setSlot id v).peers = s.peers := rfl
@[simp] theorem State.mailbox_setSlot (s : State) (id : Nat) (v : Slot) : (s.setSlot id v).mailbox = s.mailbox := rfl
@[simp] theorem State.bells_setSlot (s : State) (id : Nat) (v : Slot) : (s.setSlot id v).bells = s.bells := rfl
@[simp] theorem State.evqBase_setSlot (s : State) (id : Nat) (v : Slot) : (s.setSlot id v).evqBase = s.evqBase := rfl
@[simp] theorem State.evqHead_setSlot (s : State) (id : Nat) (v : Slot) : (s.setSlot id v).evqHead = s.evqHead := rfl
@[simp] theorem State.evqTail_setSlot (s : State) (id : Nat) (v : Slot) : (s.setSlot id v).evqTail = s.evqTail := rfl
@[simp] theorem State.stageBase_setSlot (s : State) (id : Nat) (v : Slot) : (s.setSlot id v).stageBase = s.stageBase := rfl
@[simp] theorem State.mbDrop_setSlot (s : State) (id : Nat) (v : Slot) : (s.setSlot id v).mbDrop = s.mbDrop := rfl
@[simp] theorem State.evHeld_setSlot (s : State) (id : Nat) (v : Slot) : (s.setSlot id v).evHeld = s.evHeld := rfl
@[simp] theorem State.evLost_setSlot (s : State) (id : Nat) (v : Slot) : (s.setSlot id v).evLost = s.evLost := rfl
@[simp] theorem State.flows_setSlot (s : State) (id : Nat) (v : Slot) : (s.setSlot id v).flows = s.flows := rfl
@[simp] theorem State.cap_setSlot (s : State) (id : Nat) (v : Slot) : (s.setSlot id v).cap = s.cap := rfl
@[simp] theorem State.removals_setSlot (s : State) (id : Nat) (v : Slot) : (s.setSlot id v).removals = s.removals := rfl
@[simp] theorem State.lowSince_setSlot (s : State) (id : Nat) (v : Slot) : (s.setSlot id v).lowSince = s.lowSince := rfl
@[simp] theorem State.fibres_setSlot (s : State) (id : Nat) (v : Slot) : (s.setSlot id v).fibres = s.fibres := rfl
@[simp] theorem State.tnDrop_setSlot (s : State) (id : Nat) (v : Slot) : (s.setSlot id v).tnDrop = s.tnDrop := rfl
@[simp] theorem State.incDrop_setSlot (s : State) (id : Nat) (v : Slot) : (s.setSlot id v).incDrop = s.incDrop := rfl
@[simp] theorem State.clDrop_setSlot (s : State) (id : Nat) (v : Slot) : (s.setSlot id v).clDrop = s.clDrop := rfl
@[simp] theorem State.misDrop_setSlot (s : State) (id : Nat) (v : Slot) : (s.setSlot id v).misDrop = s.misDrop := rfl
@[simp] theorem State.launchDrop_setSlot (s : State) (id : Nat) (v : Slot) : (s.setSlot id v).launchDrop = s.launchDrop := rfl
@[simp] theorem State.logs_setSlot (s : State) (id : Nat) (v : Slot) : (s.setSlot id v).logs = s.logs := rfl
@[simp] theorem State.logLost_setSlot (s : State) (id : Nat) (v : Slot) : (s.setSlot id v).logLost = s.logLost := rfl
@[simp] theorem State.out_setSlot (s : State) (id : Nat) (v : Slot) : (s.setSlot id v).out = s.out := rfl
@[simp] theorem State.now_setMe (s : State) (v : Slot) : (s.setMe v).now = s.now := rfl
@[simp] theorem State.agenda_setMe (s : State) (v : Slot) : (s.setMe v).agenda = s.agenda := rfl
@[simp] theorem State.ev_setMe (s : State) (v : Slot) : (s.setMe v).ev = s.ev := rfl
@[simp] theorem State.cur_setMe (s : State) (v : Slot) : (s.setMe v).cur = s.cur := rfl
@[simp] theorem State.fresh_setMe (s : State) (v : Slot) : (s.setMe v).fresh = s.fresh := rfl
@[simp] theorem State.mem_setMe (s : State) (v : Slot) : (s.setMe v).mem = s.mem := rfl
@[simp] theorem State.used_setMe (s : State) (v : Slot) : (s.setMe v).used = s.used := rfl
@[simp] theorem State.fe_setMe (s : State) (v : Slot) : (s.setMe v).fe = s.fe := rfl
@[simp] theorem State.bad_setMe (s : State) (v : Slot) : (s.setMe v).bad = s.bad := rfl
@[simp] theorem State.cores_setMe (s : State) (v : Slot) : (s.setMe v).cores = s.cores := rfl
@[simp] theorem State.pairs_setMe (s : State) (v : Slot) : (s.setMe v).pairs = s.pairs := rfl
@[simp] theorem State.clusters_setMe (s : State) (v : Slot) : (s.setMe v).clusters = s.clusters := rfl
@[simp] theorem State.gangs_setMe (s : State) (v : Slot) : (s.setMe v).gangs = s.gangs := rfl
@[simp] theorem State.jobs_setMe (s : State) (v : Slot) : (s.setMe v).jobs = s.jobs := rfl
@[simp] theorem State.tenants_setMe (s : State) (v : Slot) : (s.setMe v).tenants = s.tenants := rfl
@[simp] theorem State.retries_setMe (s : State) (v : Slot) : (s.setMe v).retries = s.retries := rfl
@[simp] theorem State.records_setMe (s : State) (v : Slot) : (s.setMe v).records = s.records := rfl
@[simp] theorem State.nextRecord_setMe (s : State) (v : Slot) : (s.setMe v).nextRecord = s.nextRecord := rfl
@[simp] theorem State.parkMarks_setMe (s : State) (v : Slot) : (s.setMe v).parkMarks = s.parkMarks := rfl
@[simp] theorem State.parks_setMe (s : State) (v : Slot) : (s.setMe v).parks = s.parks := rfl
@[simp] theorem State.drLines_setMe (s : State) (v : Slot) : (s.setMe v).drLines = s.drLines := rfl
@[simp] theorem State.tileMarks_setMe (s : State) (v : Slot) : (s.setMe v).tileMarks = s.tileMarks := rfl
@[simp] theorem State.owners_setMe (s : State) (v : Slot) : (s.setMe v).owners = s.owners := rfl
@[simp] theorem State.resident_setMe (s : State) (v : Slot) : (s.setMe v).resident = s.resident := rfl
@[simp] theorem State.channels_setMe (s : State) (v : Slot) : (s.setMe v).channels = s.channels := rfl
@[simp] theorem State.timed_setMe (s : State) (v : Slot) : (s.setMe v).timed = s.timed := rfl
@[simp] theorem State.nextTimed_setMe (s : State) (v : Slot) : (s.setMe v).nextTimed = s.nextTimed := rfl
@[simp] theorem State.readers_setMe (s : State) (v : Slot) : (s.setMe v).readers = s.readers := rfl
@[simp] theorem State.tileRback_setMe (s : State) (v : Slot) : (s.setMe v).tileRback = s.tileRback := rfl
@[simp] theorem State.hedges_setMe (s : State) (v : Slot) : (s.setMe v).hedges = s.hedges := rfl
@[simp] theorem State.awayTasks_setMe (s : State) (v : Slot) : (s.setMe v).awayTasks = s.awayTasks := rfl
@[simp] theorem State.held_setMe (s : State) (v : Slot) : (s.setMe v).held = s.held := rfl
@[simp] theorem State.homeSeq_setMe (s : State) (v : Slot) : (s.setMe v).homeSeq = s.homeSeq := rfl
@[simp] theorem State.commits_setMe (s : State) (v : Slot) : (s.setMe v).commits = s.commits := rfl
@[simp] theorem State.relWait_setMe (s : State) (v : Slot) : (s.setMe v).relWait = s.relWait := rfl
@[simp] theorem State.side_setMe (s : State) (v : Slot) : (s.setMe v).side = s.side := rfl
@[simp] theorem State.ranges_setMe (s : State) (v : Slot) : (s.setMe v).ranges = s.ranges := rfl
@[simp] theorem State.rings_setMe (s : State) (v : Slot) : (s.setMe v).rings = s.rings := rfl
@[simp] theorem State.anns_setMe (s : State) (v : Slot) : (s.setMe v).anns = s.anns := rfl
@[simp] theorem State.contexts_setMe (s : State) (v : Slot) : (s.setMe v).contexts = s.contexts := rfl
@[simp] theorem State.migrs_setMe (s : State) (v : Slot) : (s.setMe v).migrs = s.migrs := rfl
@[simp] theorem State.ready_setMe (s : State) (v : Slot) : (s.setMe v).ready = s.ready := rfl
@[simp] theorem State.start0_setMe (s : State) (v : Slot) : (s.setMe v).start0 = s.start0 := rfl
@[simp] theorem State.start1_setMe (s : State) (v : Slot) : (s.setMe v).start1 = s.start1 := rfl
@[simp] theorem State.incarnation_setMe (s : State) (v : Slot) : (s.setMe v).incarnation = s.incarnation := rfl
@[simp] theorem State.peers_setMe (s : State) (v : Slot) : (s.setMe v).peers = s.peers := rfl
@[simp] theorem State.mailbox_setMe (s : State) (v : Slot) : (s.setMe v).mailbox = s.mailbox := rfl
@[simp] theorem State.bells_setMe (s : State) (v : Slot) : (s.setMe v).bells = s.bells := rfl
@[simp] theorem State.evqBase_setMe (s : State) (v : Slot) : (s.setMe v).evqBase = s.evqBase := rfl
@[simp] theorem State.evqHead_setMe (s : State) (v : Slot) : (s.setMe v).evqHead = s.evqHead := rfl
@[simp] theorem State.evqTail_setMe (s : State) (v : Slot) : (s.setMe v).evqTail = s.evqTail := rfl
@[simp] theorem State.stageBase_setMe (s : State) (v : Slot) : (s.setMe v).stageBase = s.stageBase := rfl
@[simp] theorem State.mbDrop_setMe (s : State) (v : Slot) : (s.setMe v).mbDrop = s.mbDrop := rfl
@[simp] theorem State.evHeld_setMe (s : State) (v : Slot) : (s.setMe v).evHeld = s.evHeld := rfl
@[simp] theorem State.evLost_setMe (s : State) (v : Slot) : (s.setMe v).evLost = s.evLost := rfl
@[simp] theorem State.flows_setMe (s : State) (v : Slot) : (s.setMe v).flows = s.flows := rfl
@[simp] theorem State.cap_setMe (s : State) (v : Slot) : (s.setMe v).cap = s.cap := rfl
@[simp] theorem State.removals_setMe (s : State) (v : Slot) : (s.setMe v).removals = s.removals := rfl
@[simp] theorem State.lowSince_setMe (s : State) (v : Slot) : (s.setMe v).lowSince = s.lowSince := rfl
@[simp] theorem State.fibres_setMe (s : State) (v : Slot) : (s.setMe v).fibres = s.fibres := rfl
@[simp] theorem State.tnDrop_setMe (s : State) (v : Slot) : (s.setMe v).tnDrop = s.tnDrop := rfl
@[simp] theorem State.incDrop_setMe (s : State) (v : Slot) : (s.setMe v).incDrop = s.incDrop := rfl
@[simp] theorem State.clDrop_setMe (s : State) (v : Slot) : (s.setMe v).clDrop = s.clDrop := rfl
@[simp] theorem State.misDrop_setMe (s : State) (v : Slot) : (s.setMe v).misDrop = s.misDrop := rfl
@[simp] theorem State.launchDrop_setMe (s : State) (v : Slot) : (s.setMe v).launchDrop = s.launchDrop := rfl
@[simp] theorem State.logs_setMe (s : State) (v : Slot) : (s.setMe v).logs = s.logs := rfl
@[simp] theorem State.logLost_setMe (s : State) (v : Slot) : (s.setMe v).logLost = s.logLost := rfl
@[simp] theorem State.out_setMe (s : State) (v : Slot) : (s.setMe v).out = s.out := rfl
@[simp] theorem State.now_setCore (s : State) (c : Nat) (v : Core) : (s.setCore c v).now = s.now := rfl
@[simp] theorem State.agenda_setCore (s : State) (c : Nat) (v : Core) : (s.setCore c v).agenda = s.agenda := rfl
@[simp] theorem State.ev_setCore (s : State) (c : Nat) (v : Core) : (s.setCore c v).ev = s.ev := rfl
@[simp] theorem State.cur_setCore (s : State) (c : Nat) (v : Core) : (s.setCore c v).cur = s.cur := rfl
@[simp] theorem State.fresh_setCore (s : State) (c : Nat) (v : Core) : (s.setCore c v).fresh = s.fresh := rfl
@[simp] theorem State.mem_setCore (s : State) (c : Nat) (v : Core) : (s.setCore c v).mem = s.mem := rfl
@[simp] theorem State.used_setCore (s : State) (c : Nat) (v : Core) : (s.setCore c v).used = s.used := rfl
@[simp] theorem State.fe_setCore (s : State) (c : Nat) (v : Core) : (s.setCore c v).fe = s.fe := rfl
@[simp] theorem State.bad_setCore (s : State) (c : Nat) (v : Core) : (s.setCore c v).bad = s.bad := rfl
@[simp] theorem State.slots_setCore (s : State) (c : Nat) (v : Core) : (s.setCore c v).slots = s.slots := rfl
@[simp] theorem State.pairs_setCore (s : State) (c : Nat) (v : Core) : (s.setCore c v).pairs = s.pairs := rfl
@[simp] theorem State.clusters_setCore (s : State) (c : Nat) (v : Core) : (s.setCore c v).clusters = s.clusters := rfl
@[simp] theorem State.gangs_setCore (s : State) (c : Nat) (v : Core) : (s.setCore c v).gangs = s.gangs := rfl
@[simp] theorem State.jobs_setCore (s : State) (c : Nat) (v : Core) : (s.setCore c v).jobs = s.jobs := rfl
@[simp] theorem State.tenants_setCore (s : State) (c : Nat) (v : Core) : (s.setCore c v).tenants = s.tenants := rfl
@[simp] theorem State.retries_setCore (s : State) (c : Nat) (v : Core) : (s.setCore c v).retries = s.retries := rfl
@[simp] theorem State.records_setCore (s : State) (c : Nat) (v : Core) : (s.setCore c v).records = s.records := rfl
@[simp] theorem State.nextRecord_setCore (s : State) (c : Nat) (v : Core) : (s.setCore c v).nextRecord = s.nextRecord := rfl
@[simp] theorem State.parkMarks_setCore (s : State) (c : Nat) (v : Core) : (s.setCore c v).parkMarks = s.parkMarks := rfl
@[simp] theorem State.parks_setCore (s : State) (c : Nat) (v : Core) : (s.setCore c v).parks = s.parks := rfl
@[simp] theorem State.drLines_setCore (s : State) (c : Nat) (v : Core) : (s.setCore c v).drLines = s.drLines := rfl
@[simp] theorem State.tileMarks_setCore (s : State) (c : Nat) (v : Core) : (s.setCore c v).tileMarks = s.tileMarks := rfl
@[simp] theorem State.owners_setCore (s : State) (c : Nat) (v : Core) : (s.setCore c v).owners = s.owners := rfl
@[simp] theorem State.resident_setCore (s : State) (c : Nat) (v : Core) : (s.setCore c v).resident = s.resident := rfl
@[simp] theorem State.channels_setCore (s : State) (c : Nat) (v : Core) : (s.setCore c v).channels = s.channels := rfl
@[simp] theorem State.timed_setCore (s : State) (c : Nat) (v : Core) : (s.setCore c v).timed = s.timed := rfl
@[simp] theorem State.nextTimed_setCore (s : State) (c : Nat) (v : Core) : (s.setCore c v).nextTimed = s.nextTimed := rfl
@[simp] theorem State.readers_setCore (s : State) (c : Nat) (v : Core) : (s.setCore c v).readers = s.readers := rfl
@[simp] theorem State.tileRback_setCore (s : State) (c : Nat) (v : Core) : (s.setCore c v).tileRback = s.tileRback := rfl
@[simp] theorem State.hedges_setCore (s : State) (c : Nat) (v : Core) : (s.setCore c v).hedges = s.hedges := rfl
@[simp] theorem State.awayTasks_setCore (s : State) (c : Nat) (v : Core) : (s.setCore c v).awayTasks = s.awayTasks := rfl
@[simp] theorem State.held_setCore (s : State) (c : Nat) (v : Core) : (s.setCore c v).held = s.held := rfl
@[simp] theorem State.homeSeq_setCore (s : State) (c : Nat) (v : Core) : (s.setCore c v).homeSeq = s.homeSeq := rfl
@[simp] theorem State.commits_setCore (s : State) (c : Nat) (v : Core) : (s.setCore c v).commits = s.commits := rfl
@[simp] theorem State.relWait_setCore (s : State) (c : Nat) (v : Core) : (s.setCore c v).relWait = s.relWait := rfl
@[simp] theorem State.side_setCore (s : State) (c : Nat) (v : Core) : (s.setCore c v).side = s.side := rfl
@[simp] theorem State.ranges_setCore (s : State) (c : Nat) (v : Core) : (s.setCore c v).ranges = s.ranges := rfl
@[simp] theorem State.rings_setCore (s : State) (c : Nat) (v : Core) : (s.setCore c v).rings = s.rings := rfl
@[simp] theorem State.anns_setCore (s : State) (c : Nat) (v : Core) : (s.setCore c v).anns = s.anns := rfl
@[simp] theorem State.contexts_setCore (s : State) (c : Nat) (v : Core) : (s.setCore c v).contexts = s.contexts := rfl
@[simp] theorem State.migrs_setCore (s : State) (c : Nat) (v : Core) : (s.setCore c v).migrs = s.migrs := rfl
@[simp] theorem State.ready_setCore (s : State) (c : Nat) (v : Core) : (s.setCore c v).ready = s.ready := rfl
@[simp] theorem State.start0_setCore (s : State) (c : Nat) (v : Core) : (s.setCore c v).start0 = s.start0 := rfl
@[simp] theorem State.start1_setCore (s : State) (c : Nat) (v : Core) : (s.setCore c v).start1 = s.start1 := rfl
@[simp] theorem State.incarnation_setCore (s : State) (c : Nat) (v : Core) : (s.setCore c v).incarnation = s.incarnation := rfl
@[simp] theorem State.peers_setCore (s : State) (c : Nat) (v : Core) : (s.setCore c v).peers = s.peers := rfl
@[simp] theorem State.mailbox_setCore (s : State) (c : Nat) (v : Core) : (s.setCore c v).mailbox = s.mailbox := rfl
@[simp] theorem State.bells_setCore (s : State) (c : Nat) (v : Core) : (s.setCore c v).bells = s.bells := rfl
@[simp] theorem State.evqBase_setCore (s : State) (c : Nat) (v : Core) : (s.setCore c v).evqBase = s.evqBase := rfl
@[simp] theorem State.evqHead_setCore (s : State) (c : Nat) (v : Core) : (s.setCore c v).evqHead = s.evqHead := rfl
@[simp] theorem State.evqTail_setCore (s : State) (c : Nat) (v : Core) : (s.setCore c v).evqTail = s.evqTail := rfl
@[simp] theorem State.stageBase_setCore (s : State) (c : Nat) (v : Core) : (s.setCore c v).stageBase = s.stageBase := rfl
@[simp] theorem State.mbDrop_setCore (s : State) (c : Nat) (v : Core) : (s.setCore c v).mbDrop = s.mbDrop := rfl
@[simp] theorem State.evHeld_setCore (s : State) (c : Nat) (v : Core) : (s.setCore c v).evHeld = s.evHeld := rfl
@[simp] theorem State.evLost_setCore (s : State) (c : Nat) (v : Core) : (s.setCore c v).evLost = s.evLost := rfl
@[simp] theorem State.flows_setCore (s : State) (c : Nat) (v : Core) : (s.setCore c v).flows = s.flows := rfl
@[simp] theorem State.cap_setCore (s : State) (c : Nat) (v : Core) : (s.setCore c v).cap = s.cap := rfl
@[simp] theorem State.removals_setCore (s : State) (c : Nat) (v : Core) : (s.setCore c v).removals = s.removals := rfl
@[simp] theorem State.lowSince_setCore (s : State) (c : Nat) (v : Core) : (s.setCore c v).lowSince = s.lowSince := rfl
@[simp] theorem State.fibres_setCore (s : State) (c : Nat) (v : Core) : (s.setCore c v).fibres = s.fibres := rfl
@[simp] theorem State.tnDrop_setCore (s : State) (c : Nat) (v : Core) : (s.setCore c v).tnDrop = s.tnDrop := rfl
@[simp] theorem State.incDrop_setCore (s : State) (c : Nat) (v : Core) : (s.setCore c v).incDrop = s.incDrop := rfl
@[simp] theorem State.clDrop_setCore (s : State) (c : Nat) (v : Core) : (s.setCore c v).clDrop = s.clDrop := rfl
@[simp] theorem State.misDrop_setCore (s : State) (c : Nat) (v : Core) : (s.setCore c v).misDrop = s.misDrop := rfl
@[simp] theorem State.launchDrop_setCore (s : State) (c : Nat) (v : Core) : (s.setCore c v).launchDrop = s.launchDrop := rfl
@[simp] theorem State.logs_setCore (s : State) (c : Nat) (v : Core) : (s.setCore c v).logs = s.logs := rfl
@[simp] theorem State.logLost_setCore (s : State) (c : Nat) (v : Core) : (s.setCore c v).logLost = s.logLost := rfl
@[simp] theorem State.out_setCore (s : State) (c : Nat) (v : Core) : (s.setCore c v).out = s.out := rfl
@[simp] theorem State.now_setPair (s : State) (p : Nat) (v : Pair) : (s.setPair p v).now = s.now := rfl
@[simp] theorem State.agenda_setPair (s : State) (p : Nat) (v : Pair) : (s.setPair p v).agenda = s.agenda := rfl
@[simp] theorem State.ev_setPair (s : State) (p : Nat) (v : Pair) : (s.setPair p v).ev = s.ev := rfl
@[simp] theorem State.cur_setPair (s : State) (p : Nat) (v : Pair) : (s.setPair p v).cur = s.cur := rfl
@[simp] theorem State.fresh_setPair (s : State) (p : Nat) (v : Pair) : (s.setPair p v).fresh = s.fresh := rfl
@[simp] theorem State.mem_setPair (s : State) (p : Nat) (v : Pair) : (s.setPair p v).mem = s.mem := rfl
@[simp] theorem State.used_setPair (s : State) (p : Nat) (v : Pair) : (s.setPair p v).used = s.used := rfl
@[simp] theorem State.fe_setPair (s : State) (p : Nat) (v : Pair) : (s.setPair p v).fe = s.fe := rfl
@[simp] theorem State.bad_setPair (s : State) (p : Nat) (v : Pair) : (s.setPair p v).bad = s.bad := rfl
@[simp] theorem State.slots_setPair (s : State) (p : Nat) (v : Pair) : (s.setPair p v).slots = s.slots := rfl
@[simp] theorem State.cores_setPair (s : State) (p : Nat) (v : Pair) : (s.setPair p v).cores = s.cores := rfl
@[simp] theorem State.clusters_setPair (s : State) (p : Nat) (v : Pair) : (s.setPair p v).clusters = s.clusters := rfl
@[simp] theorem State.gangs_setPair (s : State) (p : Nat) (v : Pair) : (s.setPair p v).gangs = s.gangs := rfl
@[simp] theorem State.jobs_setPair (s : State) (p : Nat) (v : Pair) : (s.setPair p v).jobs = s.jobs := rfl
@[simp] theorem State.tenants_setPair (s : State) (p : Nat) (v : Pair) : (s.setPair p v).tenants = s.tenants := rfl
@[simp] theorem State.retries_setPair (s : State) (p : Nat) (v : Pair) : (s.setPair p v).retries = s.retries := rfl
@[simp] theorem State.records_setPair (s : State) (p : Nat) (v : Pair) : (s.setPair p v).records = s.records := rfl
@[simp] theorem State.nextRecord_setPair (s : State) (p : Nat) (v : Pair) : (s.setPair p v).nextRecord = s.nextRecord := rfl
@[simp] theorem State.parkMarks_setPair (s : State) (p : Nat) (v : Pair) : (s.setPair p v).parkMarks = s.parkMarks := rfl
@[simp] theorem State.parks_setPair (s : State) (p : Nat) (v : Pair) : (s.setPair p v).parks = s.parks := rfl
@[simp] theorem State.drLines_setPair (s : State) (p : Nat) (v : Pair) : (s.setPair p v).drLines = s.drLines := rfl
@[simp] theorem State.tileMarks_setPair (s : State) (p : Nat) (v : Pair) : (s.setPair p v).tileMarks = s.tileMarks := rfl
@[simp] theorem State.owners_setPair (s : State) (p : Nat) (v : Pair) : (s.setPair p v).owners = s.owners := rfl
@[simp] theorem State.resident_setPair (s : State) (p : Nat) (v : Pair) : (s.setPair p v).resident = s.resident := rfl
@[simp] theorem State.channels_setPair (s : State) (p : Nat) (v : Pair) : (s.setPair p v).channels = s.channels := rfl
@[simp] theorem State.timed_setPair (s : State) (p : Nat) (v : Pair) : (s.setPair p v).timed = s.timed := rfl
@[simp] theorem State.nextTimed_setPair (s : State) (p : Nat) (v : Pair) : (s.setPair p v).nextTimed = s.nextTimed := rfl
@[simp] theorem State.readers_setPair (s : State) (p : Nat) (v : Pair) : (s.setPair p v).readers = s.readers := rfl
@[simp] theorem State.tileRback_setPair (s : State) (p : Nat) (v : Pair) : (s.setPair p v).tileRback = s.tileRback := rfl
@[simp] theorem State.hedges_setPair (s : State) (p : Nat) (v : Pair) : (s.setPair p v).hedges = s.hedges := rfl
@[simp] theorem State.awayTasks_setPair (s : State) (p : Nat) (v : Pair) : (s.setPair p v).awayTasks = s.awayTasks := rfl
@[simp] theorem State.held_setPair (s : State) (p : Nat) (v : Pair) : (s.setPair p v).held = s.held := rfl
@[simp] theorem State.homeSeq_setPair (s : State) (p : Nat) (v : Pair) : (s.setPair p v).homeSeq = s.homeSeq := rfl
@[simp] theorem State.commits_setPair (s : State) (p : Nat) (v : Pair) : (s.setPair p v).commits = s.commits := rfl
@[simp] theorem State.relWait_setPair (s : State) (p : Nat) (v : Pair) : (s.setPair p v).relWait = s.relWait := rfl
@[simp] theorem State.side_setPair (s : State) (p : Nat) (v : Pair) : (s.setPair p v).side = s.side := rfl
@[simp] theorem State.ranges_setPair (s : State) (p : Nat) (v : Pair) : (s.setPair p v).ranges = s.ranges := rfl
@[simp] theorem State.rings_setPair (s : State) (p : Nat) (v : Pair) : (s.setPair p v).rings = s.rings := rfl
@[simp] theorem State.anns_setPair (s : State) (p : Nat) (v : Pair) : (s.setPair p v).anns = s.anns := rfl
@[simp] theorem State.contexts_setPair (s : State) (p : Nat) (v : Pair) : (s.setPair p v).contexts = s.contexts := rfl
@[simp] theorem State.migrs_setPair (s : State) (p : Nat) (v : Pair) : (s.setPair p v).migrs = s.migrs := rfl
@[simp] theorem State.ready_setPair (s : State) (p : Nat) (v : Pair) : (s.setPair p v).ready = s.ready := rfl
@[simp] theorem State.start0_setPair (s : State) (p : Nat) (v : Pair) : (s.setPair p v).start0 = s.start0 := rfl
@[simp] theorem State.start1_setPair (s : State) (p : Nat) (v : Pair) : (s.setPair p v).start1 = s.start1 := rfl
@[simp] theorem State.incarnation_setPair (s : State) (p : Nat) (v : Pair) : (s.setPair p v).incarnation = s.incarnation := rfl
@[simp] theorem State.peers_setPair (s : State) (p : Nat) (v : Pair) : (s.setPair p v).peers = s.peers := rfl
@[simp] theorem State.mailbox_setPair (s : State) (p : Nat) (v : Pair) : (s.setPair p v).mailbox = s.mailbox := rfl
@[simp] theorem State.bells_setPair (s : State) (p : Nat) (v : Pair) : (s.setPair p v).bells = s.bells := rfl
@[simp] theorem State.evqBase_setPair (s : State) (p : Nat) (v : Pair) : (s.setPair p v).evqBase = s.evqBase := rfl
@[simp] theorem State.evqHead_setPair (s : State) (p : Nat) (v : Pair) : (s.setPair p v).evqHead = s.evqHead := rfl
@[simp] theorem State.evqTail_setPair (s : State) (p : Nat) (v : Pair) : (s.setPair p v).evqTail = s.evqTail := rfl
@[simp] theorem State.stageBase_setPair (s : State) (p : Nat) (v : Pair) : (s.setPair p v).stageBase = s.stageBase := rfl
@[simp] theorem State.mbDrop_setPair (s : State) (p : Nat) (v : Pair) : (s.setPair p v).mbDrop = s.mbDrop := rfl
@[simp] theorem State.evHeld_setPair (s : State) (p : Nat) (v : Pair) : (s.setPair p v).evHeld = s.evHeld := rfl
@[simp] theorem State.evLost_setPair (s : State) (p : Nat) (v : Pair) : (s.setPair p v).evLost = s.evLost := rfl
@[simp] theorem State.flows_setPair (s : State) (p : Nat) (v : Pair) : (s.setPair p v).flows = s.flows := rfl
@[simp] theorem State.cap_setPair (s : State) (p : Nat) (v : Pair) : (s.setPair p v).cap = s.cap := rfl
@[simp] theorem State.removals_setPair (s : State) (p : Nat) (v : Pair) : (s.setPair p v).removals = s.removals := rfl
@[simp] theorem State.lowSince_setPair (s : State) (p : Nat) (v : Pair) : (s.setPair p v).lowSince = s.lowSince := rfl
@[simp] theorem State.fibres_setPair (s : State) (p : Nat) (v : Pair) : (s.setPair p v).fibres = s.fibres := rfl
@[simp] theorem State.tnDrop_setPair (s : State) (p : Nat) (v : Pair) : (s.setPair p v).tnDrop = s.tnDrop := rfl
@[simp] theorem State.incDrop_setPair (s : State) (p : Nat) (v : Pair) : (s.setPair p v).incDrop = s.incDrop := rfl
@[simp] theorem State.clDrop_setPair (s : State) (p : Nat) (v : Pair) : (s.setPair p v).clDrop = s.clDrop := rfl
@[simp] theorem State.misDrop_setPair (s : State) (p : Nat) (v : Pair) : (s.setPair p v).misDrop = s.misDrop := rfl
@[simp] theorem State.launchDrop_setPair (s : State) (p : Nat) (v : Pair) : (s.setPair p v).launchDrop = s.launchDrop := rfl
@[simp] theorem State.logs_setPair (s : State) (p : Nat) (v : Pair) : (s.setPair p v).logs = s.logs := rfl
@[simp] theorem State.logLost_setPair (s : State) (p : Nat) (v : Pair) : (s.setPair p v).logLost = s.logLost := rfl
@[simp] theorem State.out_setPair (s : State) (p : Nat) (v : Pair) : (s.setPair p v).out = s.out := rfl
@[simp] theorem State.now_setCluster (s : State) (c : Nat) (v : Cluster) : (s.setCluster c v).now = s.now := rfl
@[simp] theorem State.agenda_setCluster (s : State) (c : Nat) (v : Cluster) : (s.setCluster c v).agenda = s.agenda := rfl
@[simp] theorem State.ev_setCluster (s : State) (c : Nat) (v : Cluster) : (s.setCluster c v).ev = s.ev := rfl
@[simp] theorem State.cur_setCluster (s : State) (c : Nat) (v : Cluster) : (s.setCluster c v).cur = s.cur := rfl
@[simp] theorem State.fresh_setCluster (s : State) (c : Nat) (v : Cluster) : (s.setCluster c v).fresh = s.fresh := rfl
@[simp] theorem State.mem_setCluster (s : State) (c : Nat) (v : Cluster) : (s.setCluster c v).mem = s.mem := rfl
@[simp] theorem State.used_setCluster (s : State) (c : Nat) (v : Cluster) : (s.setCluster c v).used = s.used := rfl
@[simp] theorem State.fe_setCluster (s : State) (c : Nat) (v : Cluster) : (s.setCluster c v).fe = s.fe := rfl
@[simp] theorem State.bad_setCluster (s : State) (c : Nat) (v : Cluster) : (s.setCluster c v).bad = s.bad := rfl
@[simp] theorem State.slots_setCluster (s : State) (c : Nat) (v : Cluster) : (s.setCluster c v).slots = s.slots := rfl
@[simp] theorem State.cores_setCluster (s : State) (c : Nat) (v : Cluster) : (s.setCluster c v).cores = s.cores := rfl
@[simp] theorem State.pairs_setCluster (s : State) (c : Nat) (v : Cluster) : (s.setCluster c v).pairs = s.pairs := rfl
@[simp] theorem State.gangs_setCluster (s : State) (c : Nat) (v : Cluster) : (s.setCluster c v).gangs = s.gangs := rfl
@[simp] theorem State.jobs_setCluster (s : State) (c : Nat) (v : Cluster) : (s.setCluster c v).jobs = s.jobs := rfl
@[simp] theorem State.tenants_setCluster (s : State) (c : Nat) (v : Cluster) : (s.setCluster c v).tenants = s.tenants := rfl
@[simp] theorem State.retries_setCluster (s : State) (c : Nat) (v : Cluster) : (s.setCluster c v).retries = s.retries := rfl
@[simp] theorem State.records_setCluster (s : State) (c : Nat) (v : Cluster) : (s.setCluster c v).records = s.records := rfl
@[simp] theorem State.nextRecord_setCluster (s : State) (c : Nat) (v : Cluster) : (s.setCluster c v).nextRecord = s.nextRecord := rfl
@[simp] theorem State.parkMarks_setCluster (s : State) (c : Nat) (v : Cluster) : (s.setCluster c v).parkMarks = s.parkMarks := rfl
@[simp] theorem State.parks_setCluster (s : State) (c : Nat) (v : Cluster) : (s.setCluster c v).parks = s.parks := rfl
@[simp] theorem State.drLines_setCluster (s : State) (c : Nat) (v : Cluster) : (s.setCluster c v).drLines = s.drLines := rfl
@[simp] theorem State.tileMarks_setCluster (s : State) (c : Nat) (v : Cluster) : (s.setCluster c v).tileMarks = s.tileMarks := rfl
@[simp] theorem State.owners_setCluster (s : State) (c : Nat) (v : Cluster) : (s.setCluster c v).owners = s.owners := rfl
@[simp] theorem State.resident_setCluster (s : State) (c : Nat) (v : Cluster) : (s.setCluster c v).resident = s.resident := rfl
@[simp] theorem State.channels_setCluster (s : State) (c : Nat) (v : Cluster) : (s.setCluster c v).channels = s.channels := rfl
@[simp] theorem State.timed_setCluster (s : State) (c : Nat) (v : Cluster) : (s.setCluster c v).timed = s.timed := rfl
@[simp] theorem State.nextTimed_setCluster (s : State) (c : Nat) (v : Cluster) : (s.setCluster c v).nextTimed = s.nextTimed := rfl
@[simp] theorem State.readers_setCluster (s : State) (c : Nat) (v : Cluster) : (s.setCluster c v).readers = s.readers := rfl
@[simp] theorem State.tileRback_setCluster (s : State) (c : Nat) (v : Cluster) : (s.setCluster c v).tileRback = s.tileRback := rfl
@[simp] theorem State.hedges_setCluster (s : State) (c : Nat) (v : Cluster) : (s.setCluster c v).hedges = s.hedges := rfl
@[simp] theorem State.awayTasks_setCluster (s : State) (c : Nat) (v : Cluster) : (s.setCluster c v).awayTasks = s.awayTasks := rfl
@[simp] theorem State.held_setCluster (s : State) (c : Nat) (v : Cluster) : (s.setCluster c v).held = s.held := rfl
@[simp] theorem State.homeSeq_setCluster (s : State) (c : Nat) (v : Cluster) : (s.setCluster c v).homeSeq = s.homeSeq := rfl
@[simp] theorem State.commits_setCluster (s : State) (c : Nat) (v : Cluster) : (s.setCluster c v).commits = s.commits := rfl
@[simp] theorem State.relWait_setCluster (s : State) (c : Nat) (v : Cluster) : (s.setCluster c v).relWait = s.relWait := rfl
@[simp] theorem State.side_setCluster (s : State) (c : Nat) (v : Cluster) : (s.setCluster c v).side = s.side := rfl
@[simp] theorem State.ranges_setCluster (s : State) (c : Nat) (v : Cluster) : (s.setCluster c v).ranges = s.ranges := rfl
@[simp] theorem State.rings_setCluster (s : State) (c : Nat) (v : Cluster) : (s.setCluster c v).rings = s.rings := rfl
@[simp] theorem State.anns_setCluster (s : State) (c : Nat) (v : Cluster) : (s.setCluster c v).anns = s.anns := rfl
@[simp] theorem State.contexts_setCluster (s : State) (c : Nat) (v : Cluster) : (s.setCluster c v).contexts = s.contexts := rfl
@[simp] theorem State.migrs_setCluster (s : State) (c : Nat) (v : Cluster) : (s.setCluster c v).migrs = s.migrs := rfl
@[simp] theorem State.ready_setCluster (s : State) (c : Nat) (v : Cluster) : (s.setCluster c v).ready = s.ready := rfl
@[simp] theorem State.start0_setCluster (s : State) (c : Nat) (v : Cluster) : (s.setCluster c v).start0 = s.start0 := rfl
@[simp] theorem State.start1_setCluster (s : State) (c : Nat) (v : Cluster) : (s.setCluster c v).start1 = s.start1 := rfl
@[simp] theorem State.incarnation_setCluster (s : State) (c : Nat) (v : Cluster) : (s.setCluster c v).incarnation = s.incarnation := rfl
@[simp] theorem State.peers_setCluster (s : State) (c : Nat) (v : Cluster) : (s.setCluster c v).peers = s.peers := rfl
@[simp] theorem State.mailbox_setCluster (s : State) (c : Nat) (v : Cluster) : (s.setCluster c v).mailbox = s.mailbox := rfl
@[simp] theorem State.bells_setCluster (s : State) (c : Nat) (v : Cluster) : (s.setCluster c v).bells = s.bells := rfl
@[simp] theorem State.evqBase_setCluster (s : State) (c : Nat) (v : Cluster) : (s.setCluster c v).evqBase = s.evqBase := rfl
@[simp] theorem State.evqHead_setCluster (s : State) (c : Nat) (v : Cluster) : (s.setCluster c v).evqHead = s.evqHead := rfl
@[simp] theorem State.evqTail_setCluster (s : State) (c : Nat) (v : Cluster) : (s.setCluster c v).evqTail = s.evqTail := rfl
@[simp] theorem State.stageBase_setCluster (s : State) (c : Nat) (v : Cluster) : (s.setCluster c v).stageBase = s.stageBase := rfl
@[simp] theorem State.mbDrop_setCluster (s : State) (c : Nat) (v : Cluster) : (s.setCluster c v).mbDrop = s.mbDrop := rfl
@[simp] theorem State.evHeld_setCluster (s : State) (c : Nat) (v : Cluster) : (s.setCluster c v).evHeld = s.evHeld := rfl
@[simp] theorem State.evLost_setCluster (s : State) (c : Nat) (v : Cluster) : (s.setCluster c v).evLost = s.evLost := rfl
@[simp] theorem State.flows_setCluster (s : State) (c : Nat) (v : Cluster) : (s.setCluster c v).flows = s.flows := rfl
@[simp] theorem State.cap_setCluster (s : State) (c : Nat) (v : Cluster) : (s.setCluster c v).cap = s.cap := rfl
@[simp] theorem State.removals_setCluster (s : State) (c : Nat) (v : Cluster) : (s.setCluster c v).removals = s.removals := rfl
@[simp] theorem State.lowSince_setCluster (s : State) (c : Nat) (v : Cluster) : (s.setCluster c v).lowSince = s.lowSince := rfl
@[simp] theorem State.fibres_setCluster (s : State) (c : Nat) (v : Cluster) : (s.setCluster c v).fibres = s.fibres := rfl
@[simp] theorem State.tnDrop_setCluster (s : State) (c : Nat) (v : Cluster) : (s.setCluster c v).tnDrop = s.tnDrop := rfl
@[simp] theorem State.incDrop_setCluster (s : State) (c : Nat) (v : Cluster) : (s.setCluster c v).incDrop = s.incDrop := rfl
@[simp] theorem State.clDrop_setCluster (s : State) (c : Nat) (v : Cluster) : (s.setCluster c v).clDrop = s.clDrop := rfl
@[simp] theorem State.misDrop_setCluster (s : State) (c : Nat) (v : Cluster) : (s.setCluster c v).misDrop = s.misDrop := rfl
@[simp] theorem State.launchDrop_setCluster (s : State) (c : Nat) (v : Cluster) : (s.setCluster c v).launchDrop = s.launchDrop := rfl
@[simp] theorem State.logs_setCluster (s : State) (c : Nat) (v : Cluster) : (s.setCluster c v).logs = s.logs := rfl
@[simp] theorem State.logLost_setCluster (s : State) (c : Nat) (v : Cluster) : (s.setCluster c v).logLost = s.logLost := rfl
@[simp] theorem State.out_setCluster (s : State) (c : Nat) (v : Cluster) : (s.setCluster c v).out = s.out := rfl
@[simp] theorem State.now_setGang (s : State) (g : Nat) (v : Gang) : (s.setGang g v).now = s.now := rfl
@[simp] theorem State.agenda_setGang (s : State) (g : Nat) (v : Gang) : (s.setGang g v).agenda = s.agenda := rfl
@[simp] theorem State.ev_setGang (s : State) (g : Nat) (v : Gang) : (s.setGang g v).ev = s.ev := rfl
@[simp] theorem State.cur_setGang (s : State) (g : Nat) (v : Gang) : (s.setGang g v).cur = s.cur := rfl
@[simp] theorem State.fresh_setGang (s : State) (g : Nat) (v : Gang) : (s.setGang g v).fresh = s.fresh := rfl
@[simp] theorem State.mem_setGang (s : State) (g : Nat) (v : Gang) : (s.setGang g v).mem = s.mem := rfl
@[simp] theorem State.used_setGang (s : State) (g : Nat) (v : Gang) : (s.setGang g v).used = s.used := rfl
@[simp] theorem State.fe_setGang (s : State) (g : Nat) (v : Gang) : (s.setGang g v).fe = s.fe := rfl
@[simp] theorem State.bad_setGang (s : State) (g : Nat) (v : Gang) : (s.setGang g v).bad = s.bad := rfl
@[simp] theorem State.slots_setGang (s : State) (g : Nat) (v : Gang) : (s.setGang g v).slots = s.slots := rfl
@[simp] theorem State.cores_setGang (s : State) (g : Nat) (v : Gang) : (s.setGang g v).cores = s.cores := rfl
@[simp] theorem State.pairs_setGang (s : State) (g : Nat) (v : Gang) : (s.setGang g v).pairs = s.pairs := rfl
@[simp] theorem State.clusters_setGang (s : State) (g : Nat) (v : Gang) : (s.setGang g v).clusters = s.clusters := rfl
@[simp] theorem State.jobs_setGang (s : State) (g : Nat) (v : Gang) : (s.setGang g v).jobs = s.jobs := rfl
@[simp] theorem State.tenants_setGang (s : State) (g : Nat) (v : Gang) : (s.setGang g v).tenants = s.tenants := rfl
@[simp] theorem State.retries_setGang (s : State) (g : Nat) (v : Gang) : (s.setGang g v).retries = s.retries := rfl
@[simp] theorem State.records_setGang (s : State) (g : Nat) (v : Gang) : (s.setGang g v).records = s.records := rfl
@[simp] theorem State.nextRecord_setGang (s : State) (g : Nat) (v : Gang) : (s.setGang g v).nextRecord = s.nextRecord := rfl
@[simp] theorem State.parkMarks_setGang (s : State) (g : Nat) (v : Gang) : (s.setGang g v).parkMarks = s.parkMarks := rfl
@[simp] theorem State.parks_setGang (s : State) (g : Nat) (v : Gang) : (s.setGang g v).parks = s.parks := rfl
@[simp] theorem State.drLines_setGang (s : State) (g : Nat) (v : Gang) : (s.setGang g v).drLines = s.drLines := rfl
@[simp] theorem State.tileMarks_setGang (s : State) (g : Nat) (v : Gang) : (s.setGang g v).tileMarks = s.tileMarks := rfl
@[simp] theorem State.owners_setGang (s : State) (g : Nat) (v : Gang) : (s.setGang g v).owners = s.owners := rfl
@[simp] theorem State.resident_setGang (s : State) (g : Nat) (v : Gang) : (s.setGang g v).resident = s.resident := rfl
@[simp] theorem State.channels_setGang (s : State) (g : Nat) (v : Gang) : (s.setGang g v).channels = s.channels := rfl
@[simp] theorem State.timed_setGang (s : State) (g : Nat) (v : Gang) : (s.setGang g v).timed = s.timed := rfl
@[simp] theorem State.nextTimed_setGang (s : State) (g : Nat) (v : Gang) : (s.setGang g v).nextTimed = s.nextTimed := rfl
@[simp] theorem State.readers_setGang (s : State) (g : Nat) (v : Gang) : (s.setGang g v).readers = s.readers := rfl
@[simp] theorem State.tileRback_setGang (s : State) (g : Nat) (v : Gang) : (s.setGang g v).tileRback = s.tileRback := rfl
@[simp] theorem State.hedges_setGang (s : State) (g : Nat) (v : Gang) : (s.setGang g v).hedges = s.hedges := rfl
@[simp] theorem State.awayTasks_setGang (s : State) (g : Nat) (v : Gang) : (s.setGang g v).awayTasks = s.awayTasks := rfl
@[simp] theorem State.held_setGang (s : State) (g : Nat) (v : Gang) : (s.setGang g v).held = s.held := rfl
@[simp] theorem State.homeSeq_setGang (s : State) (g : Nat) (v : Gang) : (s.setGang g v).homeSeq = s.homeSeq := rfl
@[simp] theorem State.commits_setGang (s : State) (g : Nat) (v : Gang) : (s.setGang g v).commits = s.commits := rfl
@[simp] theorem State.relWait_setGang (s : State) (g : Nat) (v : Gang) : (s.setGang g v).relWait = s.relWait := rfl
@[simp] theorem State.side_setGang (s : State) (g : Nat) (v : Gang) : (s.setGang g v).side = s.side := rfl
@[simp] theorem State.ranges_setGang (s : State) (g : Nat) (v : Gang) : (s.setGang g v).ranges = s.ranges := rfl
@[simp] theorem State.rings_setGang (s : State) (g : Nat) (v : Gang) : (s.setGang g v).rings = s.rings := rfl
@[simp] theorem State.anns_setGang (s : State) (g : Nat) (v : Gang) : (s.setGang g v).anns = s.anns := rfl
@[simp] theorem State.contexts_setGang (s : State) (g : Nat) (v : Gang) : (s.setGang g v).contexts = s.contexts := rfl
@[simp] theorem State.migrs_setGang (s : State) (g : Nat) (v : Gang) : (s.setGang g v).migrs = s.migrs := rfl
@[simp] theorem State.ready_setGang (s : State) (g : Nat) (v : Gang) : (s.setGang g v).ready = s.ready := rfl
@[simp] theorem State.start0_setGang (s : State) (g : Nat) (v : Gang) : (s.setGang g v).start0 = s.start0 := rfl
@[simp] theorem State.start1_setGang (s : State) (g : Nat) (v : Gang) : (s.setGang g v).start1 = s.start1 := rfl
@[simp] theorem State.incarnation_setGang (s : State) (g : Nat) (v : Gang) : (s.setGang g v).incarnation = s.incarnation := rfl
@[simp] theorem State.peers_setGang (s : State) (g : Nat) (v : Gang) : (s.setGang g v).peers = s.peers := rfl
@[simp] theorem State.mailbox_setGang (s : State) (g : Nat) (v : Gang) : (s.setGang g v).mailbox = s.mailbox := rfl
@[simp] theorem State.bells_setGang (s : State) (g : Nat) (v : Gang) : (s.setGang g v).bells = s.bells := rfl
@[simp] theorem State.evqBase_setGang (s : State) (g : Nat) (v : Gang) : (s.setGang g v).evqBase = s.evqBase := rfl
@[simp] theorem State.evqHead_setGang (s : State) (g : Nat) (v : Gang) : (s.setGang g v).evqHead = s.evqHead := rfl
@[simp] theorem State.evqTail_setGang (s : State) (g : Nat) (v : Gang) : (s.setGang g v).evqTail = s.evqTail := rfl
@[simp] theorem State.stageBase_setGang (s : State) (g : Nat) (v : Gang) : (s.setGang g v).stageBase = s.stageBase := rfl
@[simp] theorem State.mbDrop_setGang (s : State) (g : Nat) (v : Gang) : (s.setGang g v).mbDrop = s.mbDrop := rfl
@[simp] theorem State.evHeld_setGang (s : State) (g : Nat) (v : Gang) : (s.setGang g v).evHeld = s.evHeld := rfl
@[simp] theorem State.evLost_setGang (s : State) (g : Nat) (v : Gang) : (s.setGang g v).evLost = s.evLost := rfl
@[simp] theorem State.flows_setGang (s : State) (g : Nat) (v : Gang) : (s.setGang g v).flows = s.flows := rfl
@[simp] theorem State.cap_setGang (s : State) (g : Nat) (v : Gang) : (s.setGang g v).cap = s.cap := rfl
@[simp] theorem State.removals_setGang (s : State) (g : Nat) (v : Gang) : (s.setGang g v).removals = s.removals := rfl
@[simp] theorem State.lowSince_setGang (s : State) (g : Nat) (v : Gang) : (s.setGang g v).lowSince = s.lowSince := rfl
@[simp] theorem State.fibres_setGang (s : State) (g : Nat) (v : Gang) : (s.setGang g v).fibres = s.fibres := rfl
@[simp] theorem State.tnDrop_setGang (s : State) (g : Nat) (v : Gang) : (s.setGang g v).tnDrop = s.tnDrop := rfl
@[simp] theorem State.incDrop_setGang (s : State) (g : Nat) (v : Gang) : (s.setGang g v).incDrop = s.incDrop := rfl
@[simp] theorem State.clDrop_setGang (s : State) (g : Nat) (v : Gang) : (s.setGang g v).clDrop = s.clDrop := rfl
@[simp] theorem State.misDrop_setGang (s : State) (g : Nat) (v : Gang) : (s.setGang g v).misDrop = s.misDrop := rfl
@[simp] theorem State.launchDrop_setGang (s : State) (g : Nat) (v : Gang) : (s.setGang g v).launchDrop = s.launchDrop := rfl
@[simp] theorem State.logs_setGang (s : State) (g : Nat) (v : Gang) : (s.setGang g v).logs = s.logs := rfl
@[simp] theorem State.logLost_setGang (s : State) (g : Nat) (v : Gang) : (s.setGang g v).logLost = s.logLost := rfl
@[simp] theorem State.out_setGang (s : State) (g : Nat) (v : Gang) : (s.setGang g v).out = s.out := rfl
@[simp] theorem State.now_setJob (s : State) (j : Nat) (v : Job) : (s.setJob j v).now = s.now := rfl
@[simp] theorem State.agenda_setJob (s : State) (j : Nat) (v : Job) : (s.setJob j v).agenda = s.agenda := rfl
@[simp] theorem State.ev_setJob (s : State) (j : Nat) (v : Job) : (s.setJob j v).ev = s.ev := rfl
@[simp] theorem State.cur_setJob (s : State) (j : Nat) (v : Job) : (s.setJob j v).cur = s.cur := rfl
@[simp] theorem State.fresh_setJob (s : State) (j : Nat) (v : Job) : (s.setJob j v).fresh = s.fresh := rfl
@[simp] theorem State.mem_setJob (s : State) (j : Nat) (v : Job) : (s.setJob j v).mem = s.mem := rfl
@[simp] theorem State.used_setJob (s : State) (j : Nat) (v : Job) : (s.setJob j v).used = s.used := rfl
@[simp] theorem State.fe_setJob (s : State) (j : Nat) (v : Job) : (s.setJob j v).fe = s.fe := rfl
@[simp] theorem State.bad_setJob (s : State) (j : Nat) (v : Job) : (s.setJob j v).bad = s.bad := rfl
@[simp] theorem State.slots_setJob (s : State) (j : Nat) (v : Job) : (s.setJob j v).slots = s.slots := rfl
@[simp] theorem State.cores_setJob (s : State) (j : Nat) (v : Job) : (s.setJob j v).cores = s.cores := rfl
@[simp] theorem State.pairs_setJob (s : State) (j : Nat) (v : Job) : (s.setJob j v).pairs = s.pairs := rfl
@[simp] theorem State.clusters_setJob (s : State) (j : Nat) (v : Job) : (s.setJob j v).clusters = s.clusters := rfl
@[simp] theorem State.gangs_setJob (s : State) (j : Nat) (v : Job) : (s.setJob j v).gangs = s.gangs := rfl
@[simp] theorem State.tenants_setJob (s : State) (j : Nat) (v : Job) : (s.setJob j v).tenants = s.tenants := rfl
@[simp] theorem State.retries_setJob (s : State) (j : Nat) (v : Job) : (s.setJob j v).retries = s.retries := rfl
@[simp] theorem State.records_setJob (s : State) (j : Nat) (v : Job) : (s.setJob j v).records = s.records := rfl
@[simp] theorem State.nextRecord_setJob (s : State) (j : Nat) (v : Job) : (s.setJob j v).nextRecord = s.nextRecord := rfl
@[simp] theorem State.parkMarks_setJob (s : State) (j : Nat) (v : Job) : (s.setJob j v).parkMarks = s.parkMarks := rfl
@[simp] theorem State.parks_setJob (s : State) (j : Nat) (v : Job) : (s.setJob j v).parks = s.parks := rfl
@[simp] theorem State.drLines_setJob (s : State) (j : Nat) (v : Job) : (s.setJob j v).drLines = s.drLines := rfl
@[simp] theorem State.tileMarks_setJob (s : State) (j : Nat) (v : Job) : (s.setJob j v).tileMarks = s.tileMarks := rfl
@[simp] theorem State.owners_setJob (s : State) (j : Nat) (v : Job) : (s.setJob j v).owners = s.owners := rfl
@[simp] theorem State.resident_setJob (s : State) (j : Nat) (v : Job) : (s.setJob j v).resident = s.resident := rfl
@[simp] theorem State.channels_setJob (s : State) (j : Nat) (v : Job) : (s.setJob j v).channels = s.channels := rfl
@[simp] theorem State.timed_setJob (s : State) (j : Nat) (v : Job) : (s.setJob j v).timed = s.timed := rfl
@[simp] theorem State.nextTimed_setJob (s : State) (j : Nat) (v : Job) : (s.setJob j v).nextTimed = s.nextTimed := rfl
@[simp] theorem State.readers_setJob (s : State) (j : Nat) (v : Job) : (s.setJob j v).readers = s.readers := rfl
@[simp] theorem State.tileRback_setJob (s : State) (j : Nat) (v : Job) : (s.setJob j v).tileRback = s.tileRback := rfl
@[simp] theorem State.hedges_setJob (s : State) (j : Nat) (v : Job) : (s.setJob j v).hedges = s.hedges := rfl
@[simp] theorem State.awayTasks_setJob (s : State) (j : Nat) (v : Job) : (s.setJob j v).awayTasks = s.awayTasks := rfl
@[simp] theorem State.held_setJob (s : State) (j : Nat) (v : Job) : (s.setJob j v).held = s.held := rfl
@[simp] theorem State.homeSeq_setJob (s : State) (j : Nat) (v : Job) : (s.setJob j v).homeSeq = s.homeSeq := rfl
@[simp] theorem State.commits_setJob (s : State) (j : Nat) (v : Job) : (s.setJob j v).commits = s.commits := rfl
@[simp] theorem State.relWait_setJob (s : State) (j : Nat) (v : Job) : (s.setJob j v).relWait = s.relWait := rfl
@[simp] theorem State.side_setJob (s : State) (j : Nat) (v : Job) : (s.setJob j v).side = s.side := rfl
@[simp] theorem State.ranges_setJob (s : State) (j : Nat) (v : Job) : (s.setJob j v).ranges = s.ranges := rfl
@[simp] theorem State.rings_setJob (s : State) (j : Nat) (v : Job) : (s.setJob j v).rings = s.rings := rfl
@[simp] theorem State.anns_setJob (s : State) (j : Nat) (v : Job) : (s.setJob j v).anns = s.anns := rfl
@[simp] theorem State.contexts_setJob (s : State) (j : Nat) (v : Job) : (s.setJob j v).contexts = s.contexts := rfl
@[simp] theorem State.migrs_setJob (s : State) (j : Nat) (v : Job) : (s.setJob j v).migrs = s.migrs := rfl
@[simp] theorem State.ready_setJob (s : State) (j : Nat) (v : Job) : (s.setJob j v).ready = s.ready := rfl
@[simp] theorem State.start0_setJob (s : State) (j : Nat) (v : Job) : (s.setJob j v).start0 = s.start0 := rfl
@[simp] theorem State.start1_setJob (s : State) (j : Nat) (v : Job) : (s.setJob j v).start1 = s.start1 := rfl
@[simp] theorem State.incarnation_setJob (s : State) (j : Nat) (v : Job) : (s.setJob j v).incarnation = s.incarnation := rfl
@[simp] theorem State.peers_setJob (s : State) (j : Nat) (v : Job) : (s.setJob j v).peers = s.peers := rfl
@[simp] theorem State.mailbox_setJob (s : State) (j : Nat) (v : Job) : (s.setJob j v).mailbox = s.mailbox := rfl
@[simp] theorem State.bells_setJob (s : State) (j : Nat) (v : Job) : (s.setJob j v).bells = s.bells := rfl
@[simp] theorem State.evqBase_setJob (s : State) (j : Nat) (v : Job) : (s.setJob j v).evqBase = s.evqBase := rfl
@[simp] theorem State.evqHead_setJob (s : State) (j : Nat) (v : Job) : (s.setJob j v).evqHead = s.evqHead := rfl
@[simp] theorem State.evqTail_setJob (s : State) (j : Nat) (v : Job) : (s.setJob j v).evqTail = s.evqTail := rfl
@[simp] theorem State.stageBase_setJob (s : State) (j : Nat) (v : Job) : (s.setJob j v).stageBase = s.stageBase := rfl
@[simp] theorem State.mbDrop_setJob (s : State) (j : Nat) (v : Job) : (s.setJob j v).mbDrop = s.mbDrop := rfl
@[simp] theorem State.evHeld_setJob (s : State) (j : Nat) (v : Job) : (s.setJob j v).evHeld = s.evHeld := rfl
@[simp] theorem State.evLost_setJob (s : State) (j : Nat) (v : Job) : (s.setJob j v).evLost = s.evLost := rfl
@[simp] theorem State.flows_setJob (s : State) (j : Nat) (v : Job) : (s.setJob j v).flows = s.flows := rfl
@[simp] theorem State.cap_setJob (s : State) (j : Nat) (v : Job) : (s.setJob j v).cap = s.cap := rfl
@[simp] theorem State.removals_setJob (s : State) (j : Nat) (v : Job) : (s.setJob j v).removals = s.removals := rfl
@[simp] theorem State.lowSince_setJob (s : State) (j : Nat) (v : Job) : (s.setJob j v).lowSince = s.lowSince := rfl
@[simp] theorem State.fibres_setJob (s : State) (j : Nat) (v : Job) : (s.setJob j v).fibres = s.fibres := rfl
@[simp] theorem State.tnDrop_setJob (s : State) (j : Nat) (v : Job) : (s.setJob j v).tnDrop = s.tnDrop := rfl
@[simp] theorem State.incDrop_setJob (s : State) (j : Nat) (v : Job) : (s.setJob j v).incDrop = s.incDrop := rfl
@[simp] theorem State.clDrop_setJob (s : State) (j : Nat) (v : Job) : (s.setJob j v).clDrop = s.clDrop := rfl
@[simp] theorem State.misDrop_setJob (s : State) (j : Nat) (v : Job) : (s.setJob j v).misDrop = s.misDrop := rfl
@[simp] theorem State.launchDrop_setJob (s : State) (j : Nat) (v : Job) : (s.setJob j v).launchDrop = s.launchDrop := rfl
@[simp] theorem State.logs_setJob (s : State) (j : Nat) (v : Job) : (s.setJob j v).logs = s.logs := rfl
@[simp] theorem State.logLost_setJob (s : State) (j : Nat) (v : Job) : (s.setJob j v).logLost = s.logLost := rfl
@[simp] theorem State.out_setJob (s : State) (j : Nat) (v : Job) : (s.setJob j v).out = s.out := rfl
@[simp] theorem State.now_schedule (s : State) (t : Nat) (e : Ev) : (s.schedule t e).now = s.now := rfl
@[simp] theorem State.ev_schedule (s : State) (t : Nat) (e : Ev) : (s.schedule t e).ev = s.ev := rfl
@[simp] theorem State.cur_schedule (s : State) (t : Nat) (e : Ev) : (s.schedule t e).cur = s.cur := rfl
@[simp] theorem State.fresh_schedule (s : State) (t : Nat) (e : Ev) : (s.schedule t e).fresh = s.fresh := rfl
@[simp] theorem State.mem_schedule (s : State) (t : Nat) (e : Ev) : (s.schedule t e).mem = s.mem := rfl
@[simp] theorem State.used_schedule (s : State) (t : Nat) (e : Ev) : (s.schedule t e).used = s.used := rfl
@[simp] theorem State.fe_schedule (s : State) (t : Nat) (e : Ev) : (s.schedule t e).fe = s.fe := rfl
@[simp] theorem State.bad_schedule (s : State) (t : Nat) (e : Ev) : (s.schedule t e).bad = s.bad := rfl
@[simp] theorem State.slots_schedule (s : State) (t : Nat) (e : Ev) : (s.schedule t e).slots = s.slots := rfl
@[simp] theorem State.cores_schedule (s : State) (t : Nat) (e : Ev) : (s.schedule t e).cores = s.cores := rfl
@[simp] theorem State.pairs_schedule (s : State) (t : Nat) (e : Ev) : (s.schedule t e).pairs = s.pairs := rfl
@[simp] theorem State.clusters_schedule (s : State) (t : Nat) (e : Ev) : (s.schedule t e).clusters = s.clusters := rfl
@[simp] theorem State.gangs_schedule (s : State) (t : Nat) (e : Ev) : (s.schedule t e).gangs = s.gangs := rfl
@[simp] theorem State.jobs_schedule (s : State) (t : Nat) (e : Ev) : (s.schedule t e).jobs = s.jobs := rfl
@[simp] theorem State.tenants_schedule (s : State) (t : Nat) (e : Ev) : (s.schedule t e).tenants = s.tenants := rfl
@[simp] theorem State.retries_schedule (s : State) (t : Nat) (e : Ev) : (s.schedule t e).retries = s.retries := rfl
@[simp] theorem State.records_schedule (s : State) (t : Nat) (e : Ev) : (s.schedule t e).records = s.records := rfl
@[simp] theorem State.nextRecord_schedule (s : State) (t : Nat) (e : Ev) : (s.schedule t e).nextRecord = s.nextRecord := rfl
@[simp] theorem State.parkMarks_schedule (s : State) (t : Nat) (e : Ev) : (s.schedule t e).parkMarks = s.parkMarks := rfl
@[simp] theorem State.parks_schedule (s : State) (t : Nat) (e : Ev) : (s.schedule t e).parks = s.parks := rfl
@[simp] theorem State.drLines_schedule (s : State) (t : Nat) (e : Ev) : (s.schedule t e).drLines = s.drLines := rfl
@[simp] theorem State.tileMarks_schedule (s : State) (t : Nat) (e : Ev) : (s.schedule t e).tileMarks = s.tileMarks := rfl
@[simp] theorem State.owners_schedule (s : State) (t : Nat) (e : Ev) : (s.schedule t e).owners = s.owners := rfl
@[simp] theorem State.resident_schedule (s : State) (t : Nat) (e : Ev) : (s.schedule t e).resident = s.resident := rfl
@[simp] theorem State.channels_schedule (s : State) (t : Nat) (e : Ev) : (s.schedule t e).channels = s.channels := rfl
@[simp] theorem State.timed_schedule (s : State) (t : Nat) (e : Ev) : (s.schedule t e).timed = s.timed := rfl
@[simp] theorem State.nextTimed_schedule (s : State) (t : Nat) (e : Ev) : (s.schedule t e).nextTimed = s.nextTimed := rfl
@[simp] theorem State.readers_schedule (s : State) (t : Nat) (e : Ev) : (s.schedule t e).readers = s.readers := rfl
@[simp] theorem State.tileRback_schedule (s : State) (t : Nat) (e : Ev) : (s.schedule t e).tileRback = s.tileRback := rfl
@[simp] theorem State.hedges_schedule (s : State) (t : Nat) (e : Ev) : (s.schedule t e).hedges = s.hedges := rfl
@[simp] theorem State.awayTasks_schedule (s : State) (t : Nat) (e : Ev) : (s.schedule t e).awayTasks = s.awayTasks := rfl
@[simp] theorem State.held_schedule (s : State) (t : Nat) (e : Ev) : (s.schedule t e).held = s.held := rfl
@[simp] theorem State.homeSeq_schedule (s : State) (t : Nat) (e : Ev) : (s.schedule t e).homeSeq = s.homeSeq := rfl
@[simp] theorem State.commits_schedule (s : State) (t : Nat) (e : Ev) : (s.schedule t e).commits = s.commits := rfl
@[simp] theorem State.relWait_schedule (s : State) (t : Nat) (e : Ev) : (s.schedule t e).relWait = s.relWait := rfl
@[simp] theorem State.side_schedule (s : State) (t : Nat) (e : Ev) : (s.schedule t e).side = s.side := rfl
@[simp] theorem State.ranges_schedule (s : State) (t : Nat) (e : Ev) : (s.schedule t e).ranges = s.ranges := rfl
@[simp] theorem State.rings_schedule (s : State) (t : Nat) (e : Ev) : (s.schedule t e).rings = s.rings := rfl
@[simp] theorem State.anns_schedule (s : State) (t : Nat) (e : Ev) : (s.schedule t e).anns = s.anns := rfl
@[simp] theorem State.contexts_schedule (s : State) (t : Nat) (e : Ev) : (s.schedule t e).contexts = s.contexts := rfl
@[simp] theorem State.migrs_schedule (s : State) (t : Nat) (e : Ev) : (s.schedule t e).migrs = s.migrs := rfl
@[simp] theorem State.ready_schedule (s : State) (t : Nat) (e : Ev) : (s.schedule t e).ready = s.ready := rfl
@[simp] theorem State.start0_schedule (s : State) (t : Nat) (e : Ev) : (s.schedule t e).start0 = s.start0 := rfl
@[simp] theorem State.start1_schedule (s : State) (t : Nat) (e : Ev) : (s.schedule t e).start1 = s.start1 := rfl
@[simp] theorem State.incarnation_schedule (s : State) (t : Nat) (e : Ev) : (s.schedule t e).incarnation = s.incarnation := rfl
@[simp] theorem State.peers_schedule (s : State) (t : Nat) (e : Ev) : (s.schedule t e).peers = s.peers := rfl
@[simp] theorem State.mailbox_schedule (s : State) (t : Nat) (e : Ev) : (s.schedule t e).mailbox = s.mailbox := rfl
@[simp] theorem State.bells_schedule (s : State) (t : Nat) (e : Ev) : (s.schedule t e).bells = s.bells := rfl
@[simp] theorem State.evqBase_schedule (s : State) (t : Nat) (e : Ev) : (s.schedule t e).evqBase = s.evqBase := rfl
@[simp] theorem State.evqHead_schedule (s : State) (t : Nat) (e : Ev) : (s.schedule t e).evqHead = s.evqHead := rfl
@[simp] theorem State.evqTail_schedule (s : State) (t : Nat) (e : Ev) : (s.schedule t e).evqTail = s.evqTail := rfl
@[simp] theorem State.stageBase_schedule (s : State) (t : Nat) (e : Ev) : (s.schedule t e).stageBase = s.stageBase := rfl
@[simp] theorem State.mbDrop_schedule (s : State) (t : Nat) (e : Ev) : (s.schedule t e).mbDrop = s.mbDrop := rfl
@[simp] theorem State.evHeld_schedule (s : State) (t : Nat) (e : Ev) : (s.schedule t e).evHeld = s.evHeld := rfl
@[simp] theorem State.evLost_schedule (s : State) (t : Nat) (e : Ev) : (s.schedule t e).evLost = s.evLost := rfl
@[simp] theorem State.flows_schedule (s : State) (t : Nat) (e : Ev) : (s.schedule t e).flows = s.flows := rfl
@[simp] theorem State.cap_schedule (s : State) (t : Nat) (e : Ev) : (s.schedule t e).cap = s.cap := rfl
@[simp] theorem State.removals_schedule (s : State) (t : Nat) (e : Ev) : (s.schedule t e).removals = s.removals := rfl
@[simp] theorem State.lowSince_schedule (s : State) (t : Nat) (e : Ev) : (s.schedule t e).lowSince = s.lowSince := rfl
@[simp] theorem State.fibres_schedule (s : State) (t : Nat) (e : Ev) : (s.schedule t e).fibres = s.fibres := rfl
@[simp] theorem State.tnDrop_schedule (s : State) (t : Nat) (e : Ev) : (s.schedule t e).tnDrop = s.tnDrop := rfl
@[simp] theorem State.incDrop_schedule (s : State) (t : Nat) (e : Ev) : (s.schedule t e).incDrop = s.incDrop := rfl
@[simp] theorem State.clDrop_schedule (s : State) (t : Nat) (e : Ev) : (s.schedule t e).clDrop = s.clDrop := rfl
@[simp] theorem State.misDrop_schedule (s : State) (t : Nat) (e : Ev) : (s.schedule t e).misDrop = s.misDrop := rfl
@[simp] theorem State.launchDrop_schedule (s : State) (t : Nat) (e : Ev) : (s.schedule t e).launchDrop = s.launchDrop := rfl
@[simp] theorem State.logs_schedule (s : State) (t : Nat) (e : Ev) : (s.schedule t e).logs = s.logs := rfl
@[simp] theorem State.logLost_schedule (s : State) (t : Nat) (e : Ev) : (s.schedule t e).logLost = s.logLost := rfl
@[simp] theorem State.out_schedule (s : State) (t : Nat) (e : Ev) : (s.schedule t e).out = s.out := rfl
@[simp] theorem State.now_soon (s : State) (e : Ev) : (s.soon e).now = s.now := rfl
@[simp] theorem State.ev_soon (s : State) (e : Ev) : (s.soon e).ev = s.ev := rfl
@[simp] theorem State.cur_soon (s : State) (e : Ev) : (s.soon e).cur = s.cur := rfl
@[simp] theorem State.fresh_soon (s : State) (e : Ev) : (s.soon e).fresh = s.fresh := rfl
@[simp] theorem State.mem_soon (s : State) (e : Ev) : (s.soon e).mem = s.mem := rfl
@[simp] theorem State.used_soon (s : State) (e : Ev) : (s.soon e).used = s.used := rfl
@[simp] theorem State.fe_soon (s : State) (e : Ev) : (s.soon e).fe = s.fe := rfl
@[simp] theorem State.bad_soon (s : State) (e : Ev) : (s.soon e).bad = s.bad := rfl
@[simp] theorem State.slots_soon (s : State) (e : Ev) : (s.soon e).slots = s.slots := rfl
@[simp] theorem State.cores_soon (s : State) (e : Ev) : (s.soon e).cores = s.cores := rfl
@[simp] theorem State.pairs_soon (s : State) (e : Ev) : (s.soon e).pairs = s.pairs := rfl
@[simp] theorem State.clusters_soon (s : State) (e : Ev) : (s.soon e).clusters = s.clusters := rfl
@[simp] theorem State.gangs_soon (s : State) (e : Ev) : (s.soon e).gangs = s.gangs := rfl
@[simp] theorem State.jobs_soon (s : State) (e : Ev) : (s.soon e).jobs = s.jobs := rfl
@[simp] theorem State.tenants_soon (s : State) (e : Ev) : (s.soon e).tenants = s.tenants := rfl
@[simp] theorem State.retries_soon (s : State) (e : Ev) : (s.soon e).retries = s.retries := rfl
@[simp] theorem State.records_soon (s : State) (e : Ev) : (s.soon e).records = s.records := rfl
@[simp] theorem State.nextRecord_soon (s : State) (e : Ev) : (s.soon e).nextRecord = s.nextRecord := rfl
@[simp] theorem State.parkMarks_soon (s : State) (e : Ev) : (s.soon e).parkMarks = s.parkMarks := rfl
@[simp] theorem State.parks_soon (s : State) (e : Ev) : (s.soon e).parks = s.parks := rfl
@[simp] theorem State.drLines_soon (s : State) (e : Ev) : (s.soon e).drLines = s.drLines := rfl
@[simp] theorem State.tileMarks_soon (s : State) (e : Ev) : (s.soon e).tileMarks = s.tileMarks := rfl
@[simp] theorem State.owners_soon (s : State) (e : Ev) : (s.soon e).owners = s.owners := rfl
@[simp] theorem State.resident_soon (s : State) (e : Ev) : (s.soon e).resident = s.resident := rfl
@[simp] theorem State.channels_soon (s : State) (e : Ev) : (s.soon e).channels = s.channels := rfl
@[simp] theorem State.timed_soon (s : State) (e : Ev) : (s.soon e).timed = s.timed := rfl
@[simp] theorem State.nextTimed_soon (s : State) (e : Ev) : (s.soon e).nextTimed = s.nextTimed := rfl
@[simp] theorem State.readers_soon (s : State) (e : Ev) : (s.soon e).readers = s.readers := rfl
@[simp] theorem State.tileRback_soon (s : State) (e : Ev) : (s.soon e).tileRback = s.tileRback := rfl
@[simp] theorem State.hedges_soon (s : State) (e : Ev) : (s.soon e).hedges = s.hedges := rfl
@[simp] theorem State.awayTasks_soon (s : State) (e : Ev) : (s.soon e).awayTasks = s.awayTasks := rfl
@[simp] theorem State.held_soon (s : State) (e : Ev) : (s.soon e).held = s.held := rfl
@[simp] theorem State.homeSeq_soon (s : State) (e : Ev) : (s.soon e).homeSeq = s.homeSeq := rfl
@[simp] theorem State.commits_soon (s : State) (e : Ev) : (s.soon e).commits = s.commits := rfl
@[simp] theorem State.relWait_soon (s : State) (e : Ev) : (s.soon e).relWait = s.relWait := rfl
@[simp] theorem State.side_soon (s : State) (e : Ev) : (s.soon e).side = s.side := rfl
@[simp] theorem State.ranges_soon (s : State) (e : Ev) : (s.soon e).ranges = s.ranges := rfl
@[simp] theorem State.rings_soon (s : State) (e : Ev) : (s.soon e).rings = s.rings := rfl
@[simp] theorem State.anns_soon (s : State) (e : Ev) : (s.soon e).anns = s.anns := rfl
@[simp] theorem State.contexts_soon (s : State) (e : Ev) : (s.soon e).contexts = s.contexts := rfl
@[simp] theorem State.migrs_soon (s : State) (e : Ev) : (s.soon e).migrs = s.migrs := rfl
@[simp] theorem State.ready_soon (s : State) (e : Ev) : (s.soon e).ready = s.ready := rfl
@[simp] theorem State.start0_soon (s : State) (e : Ev) : (s.soon e).start0 = s.start0 := rfl
@[simp] theorem State.start1_soon (s : State) (e : Ev) : (s.soon e).start1 = s.start1 := rfl
@[simp] theorem State.incarnation_soon (s : State) (e : Ev) : (s.soon e).incarnation = s.incarnation := rfl
@[simp] theorem State.peers_soon (s : State) (e : Ev) : (s.soon e).peers = s.peers := rfl
@[simp] theorem State.mailbox_soon (s : State) (e : Ev) : (s.soon e).mailbox = s.mailbox := rfl
@[simp] theorem State.bells_soon (s : State) (e : Ev) : (s.soon e).bells = s.bells := rfl
@[simp] theorem State.evqBase_soon (s : State) (e : Ev) : (s.soon e).evqBase = s.evqBase := rfl
@[simp] theorem State.evqHead_soon (s : State) (e : Ev) : (s.soon e).evqHead = s.evqHead := rfl
@[simp] theorem State.evqTail_soon (s : State) (e : Ev) : (s.soon e).evqTail = s.evqTail := rfl
@[simp] theorem State.stageBase_soon (s : State) (e : Ev) : (s.soon e).stageBase = s.stageBase := rfl
@[simp] theorem State.mbDrop_soon (s : State) (e : Ev) : (s.soon e).mbDrop = s.mbDrop := rfl
@[simp] theorem State.evHeld_soon (s : State) (e : Ev) : (s.soon e).evHeld = s.evHeld := rfl
@[simp] theorem State.evLost_soon (s : State) (e : Ev) : (s.soon e).evLost = s.evLost := rfl
@[simp] theorem State.flows_soon (s : State) (e : Ev) : (s.soon e).flows = s.flows := rfl
@[simp] theorem State.cap_soon (s : State) (e : Ev) : (s.soon e).cap = s.cap := rfl
@[simp] theorem State.removals_soon (s : State) (e : Ev) : (s.soon e).removals = s.removals := rfl
@[simp] theorem State.lowSince_soon (s : State) (e : Ev) : (s.soon e).lowSince = s.lowSince := rfl
@[simp] theorem State.fibres_soon (s : State) (e : Ev) : (s.soon e).fibres = s.fibres := rfl
@[simp] theorem State.tnDrop_soon (s : State) (e : Ev) : (s.soon e).tnDrop = s.tnDrop := rfl
@[simp] theorem State.incDrop_soon (s : State) (e : Ev) : (s.soon e).incDrop = s.incDrop := rfl
@[simp] theorem State.clDrop_soon (s : State) (e : Ev) : (s.soon e).clDrop = s.clDrop := rfl
@[simp] theorem State.misDrop_soon (s : State) (e : Ev) : (s.soon e).misDrop = s.misDrop := rfl
@[simp] theorem State.launchDrop_soon (s : State) (e : Ev) : (s.soon e).launchDrop = s.launchDrop := rfl
@[simp] theorem State.logs_soon (s : State) (e : Ev) : (s.soon e).logs = s.logs := rfl
@[simp] theorem State.logLost_soon (s : State) (e : Ev) : (s.soon e).logLost = s.logLost := rfl
@[simp] theorem State.out_soon (s : State) (e : Ev) : (s.soon e).out = s.out := rfl
@[simp] theorem State.now_send (s : State) (o : Out) : (s.send o).now = s.now := rfl
@[simp] theorem State.agenda_send (s : State) (o : Out) : (s.send o).agenda = s.agenda := rfl
@[simp] theorem State.ev_send (s : State) (o : Out) : (s.send o).ev = s.ev := rfl
@[simp] theorem State.cur_send (s : State) (o : Out) : (s.send o).cur = s.cur := rfl
@[simp] theorem State.fresh_send (s : State) (o : Out) : (s.send o).fresh = s.fresh := rfl
@[simp] theorem State.mem_send (s : State) (o : Out) : (s.send o).mem = s.mem := rfl
@[simp] theorem State.used_send (s : State) (o : Out) : (s.send o).used = s.used := rfl
@[simp] theorem State.fe_send (s : State) (o : Out) : (s.send o).fe = s.fe := rfl
@[simp] theorem State.bad_send (s : State) (o : Out) : (s.send o).bad = s.bad := rfl
@[simp] theorem State.slots_send (s : State) (o : Out) : (s.send o).slots = s.slots := rfl
@[simp] theorem State.cores_send (s : State) (o : Out) : (s.send o).cores = s.cores := rfl
@[simp] theorem State.pairs_send (s : State) (o : Out) : (s.send o).pairs = s.pairs := rfl
@[simp] theorem State.clusters_send (s : State) (o : Out) : (s.send o).clusters = s.clusters := rfl
@[simp] theorem State.gangs_send (s : State) (o : Out) : (s.send o).gangs = s.gangs := rfl
@[simp] theorem State.jobs_send (s : State) (o : Out) : (s.send o).jobs = s.jobs := rfl
@[simp] theorem State.tenants_send (s : State) (o : Out) : (s.send o).tenants = s.tenants := rfl
@[simp] theorem State.retries_send (s : State) (o : Out) : (s.send o).retries = s.retries := rfl
@[simp] theorem State.records_send (s : State) (o : Out) : (s.send o).records = s.records := rfl
@[simp] theorem State.nextRecord_send (s : State) (o : Out) : (s.send o).nextRecord = s.nextRecord := rfl
@[simp] theorem State.parkMarks_send (s : State) (o : Out) : (s.send o).parkMarks = s.parkMarks := rfl
@[simp] theorem State.parks_send (s : State) (o : Out) : (s.send o).parks = s.parks := rfl
@[simp] theorem State.drLines_send (s : State) (o : Out) : (s.send o).drLines = s.drLines := rfl
@[simp] theorem State.tileMarks_send (s : State) (o : Out) : (s.send o).tileMarks = s.tileMarks := rfl
@[simp] theorem State.owners_send (s : State) (o : Out) : (s.send o).owners = s.owners := rfl
@[simp] theorem State.resident_send (s : State) (o : Out) : (s.send o).resident = s.resident := rfl
@[simp] theorem State.channels_send (s : State) (o : Out) : (s.send o).channels = s.channels := rfl
@[simp] theorem State.timed_send (s : State) (o : Out) : (s.send o).timed = s.timed := rfl
@[simp] theorem State.nextTimed_send (s : State) (o : Out) : (s.send o).nextTimed = s.nextTimed := rfl
@[simp] theorem State.readers_send (s : State) (o : Out) : (s.send o).readers = s.readers := rfl
@[simp] theorem State.tileRback_send (s : State) (o : Out) : (s.send o).tileRback = s.tileRback := rfl
@[simp] theorem State.hedges_send (s : State) (o : Out) : (s.send o).hedges = s.hedges := rfl
@[simp] theorem State.awayTasks_send (s : State) (o : Out) : (s.send o).awayTasks = s.awayTasks := rfl
@[simp] theorem State.held_send (s : State) (o : Out) : (s.send o).held = s.held := rfl
@[simp] theorem State.homeSeq_send (s : State) (o : Out) : (s.send o).homeSeq = s.homeSeq := rfl
@[simp] theorem State.commits_send (s : State) (o : Out) : (s.send o).commits = s.commits := rfl
@[simp] theorem State.relWait_send (s : State) (o : Out) : (s.send o).relWait = s.relWait := rfl
@[simp] theorem State.side_send (s : State) (o : Out) : (s.send o).side = s.side := rfl
@[simp] theorem State.ranges_send (s : State) (o : Out) : (s.send o).ranges = s.ranges := rfl
@[simp] theorem State.rings_send (s : State) (o : Out) : (s.send o).rings = s.rings := rfl
@[simp] theorem State.anns_send (s : State) (o : Out) : (s.send o).anns = s.anns := rfl
@[simp] theorem State.contexts_send (s : State) (o : Out) : (s.send o).contexts = s.contexts := rfl
@[simp] theorem State.migrs_send (s : State) (o : Out) : (s.send o).migrs = s.migrs := rfl
@[simp] theorem State.ready_send (s : State) (o : Out) : (s.send o).ready = s.ready := rfl
@[simp] theorem State.start0_send (s : State) (o : Out) : (s.send o).start0 = s.start0 := rfl
@[simp] theorem State.start1_send (s : State) (o : Out) : (s.send o).start1 = s.start1 := rfl
@[simp] theorem State.incarnation_send (s : State) (o : Out) : (s.send o).incarnation = s.incarnation := rfl
@[simp] theorem State.peers_send (s : State) (o : Out) : (s.send o).peers = s.peers := rfl
@[simp] theorem State.mailbox_send (s : State) (o : Out) : (s.send o).mailbox = s.mailbox := rfl
@[simp] theorem State.bells_send (s : State) (o : Out) : (s.send o).bells = s.bells := rfl
@[simp] theorem State.evqBase_send (s : State) (o : Out) : (s.send o).evqBase = s.evqBase := rfl
@[simp] theorem State.evqHead_send (s : State) (o : Out) : (s.send o).evqHead = s.evqHead := rfl
@[simp] theorem State.evqTail_send (s : State) (o : Out) : (s.send o).evqTail = s.evqTail := rfl
@[simp] theorem State.stageBase_send (s : State) (o : Out) : (s.send o).stageBase = s.stageBase := rfl
@[simp] theorem State.mbDrop_send (s : State) (o : Out) : (s.send o).mbDrop = s.mbDrop := rfl
@[simp] theorem State.evHeld_send (s : State) (o : Out) : (s.send o).evHeld = s.evHeld := rfl
@[simp] theorem State.evLost_send (s : State) (o : Out) : (s.send o).evLost = s.evLost := rfl
@[simp] theorem State.flows_send (s : State) (o : Out) : (s.send o).flows = s.flows := rfl
@[simp] theorem State.cap_send (s : State) (o : Out) : (s.send o).cap = s.cap := rfl
@[simp] theorem State.removals_send (s : State) (o : Out) : (s.send o).removals = s.removals := rfl
@[simp] theorem State.lowSince_send (s : State) (o : Out) : (s.send o).lowSince = s.lowSince := rfl
@[simp] theorem State.fibres_send (s : State) (o : Out) : (s.send o).fibres = s.fibres := rfl
@[simp] theorem State.tnDrop_send (s : State) (o : Out) : (s.send o).tnDrop = s.tnDrop := rfl
@[simp] theorem State.incDrop_send (s : State) (o : Out) : (s.send o).incDrop = s.incDrop := rfl
@[simp] theorem State.clDrop_send (s : State) (o : Out) : (s.send o).clDrop = s.clDrop := rfl
@[simp] theorem State.misDrop_send (s : State) (o : Out) : (s.send o).misDrop = s.misDrop := rfl
@[simp] theorem State.launchDrop_send (s : State) (o : Out) : (s.send o).launchDrop = s.launchDrop := rfl
@[simp] theorem State.logs_send (s : State) (o : Out) : (s.send o).logs = s.logs := rfl
@[simp] theorem State.logLost_send (s : State) (o : Out) : (s.send o).logLost = s.logLost := rfl
@[simp] theorem State.now_setFe (s : State) (p : Nat) (b : Bool) : (s.setFe p b).now = s.now := rfl
@[simp] theorem State.agenda_setFe (s : State) (p : Nat) (b : Bool) : (s.setFe p b).agenda = s.agenda := rfl
@[simp] theorem State.ev_setFe (s : State) (p : Nat) (b : Bool) : (s.setFe p b).ev = s.ev := rfl
@[simp] theorem State.cur_setFe (s : State) (p : Nat) (b : Bool) : (s.setFe p b).cur = s.cur := rfl
@[simp] theorem State.fresh_setFe (s : State) (p : Nat) (b : Bool) : (s.setFe p b).fresh = s.fresh := rfl
@[simp] theorem State.mem_setFe (s : State) (p : Nat) (b : Bool) : (s.setFe p b).mem = s.mem := rfl
@[simp] theorem State.used_setFe (s : State) (p : Nat) (b : Bool) : (s.setFe p b).used = s.used := rfl
@[simp] theorem State.bad_setFe (s : State) (p : Nat) (b : Bool) : (s.setFe p b).bad = s.bad := rfl
@[simp] theorem State.slots_setFe (s : State) (p : Nat) (b : Bool) : (s.setFe p b).slots = s.slots := rfl
@[simp] theorem State.cores_setFe (s : State) (p : Nat) (b : Bool) : (s.setFe p b).cores = s.cores := rfl
@[simp] theorem State.pairs_setFe (s : State) (p : Nat) (b : Bool) : (s.setFe p b).pairs = s.pairs := rfl
@[simp] theorem State.clusters_setFe (s : State) (p : Nat) (b : Bool) : (s.setFe p b).clusters = s.clusters := rfl
@[simp] theorem State.gangs_setFe (s : State) (p : Nat) (b : Bool) : (s.setFe p b).gangs = s.gangs := rfl
@[simp] theorem State.jobs_setFe (s : State) (p : Nat) (b : Bool) : (s.setFe p b).jobs = s.jobs := rfl
@[simp] theorem State.tenants_setFe (s : State) (p : Nat) (b : Bool) : (s.setFe p b).tenants = s.tenants := rfl
@[simp] theorem State.retries_setFe (s : State) (p : Nat) (b : Bool) : (s.setFe p b).retries = s.retries := rfl
@[simp] theorem State.records_setFe (s : State) (p : Nat) (b : Bool) : (s.setFe p b).records = s.records := rfl
@[simp] theorem State.nextRecord_setFe (s : State) (p : Nat) (b : Bool) : (s.setFe p b).nextRecord = s.nextRecord := rfl
@[simp] theorem State.parkMarks_setFe (s : State) (p : Nat) (b : Bool) : (s.setFe p b).parkMarks = s.parkMarks := rfl
@[simp] theorem State.parks_setFe (s : State) (p : Nat) (b : Bool) : (s.setFe p b).parks = s.parks := rfl
@[simp] theorem State.drLines_setFe (s : State) (p : Nat) (b : Bool) : (s.setFe p b).drLines = s.drLines := rfl
@[simp] theorem State.tileMarks_setFe (s : State) (p : Nat) (b : Bool) : (s.setFe p b).tileMarks = s.tileMarks := rfl
@[simp] theorem State.owners_setFe (s : State) (p : Nat) (b : Bool) : (s.setFe p b).owners = s.owners := rfl
@[simp] theorem State.resident_setFe (s : State) (p : Nat) (b : Bool) : (s.setFe p b).resident = s.resident := rfl
@[simp] theorem State.channels_setFe (s : State) (p : Nat) (b : Bool) : (s.setFe p b).channels = s.channels := rfl
@[simp] theorem State.timed_setFe (s : State) (p : Nat) (b : Bool) : (s.setFe p b).timed = s.timed := rfl
@[simp] theorem State.nextTimed_setFe (s : State) (p : Nat) (b : Bool) : (s.setFe p b).nextTimed = s.nextTimed := rfl
@[simp] theorem State.readers_setFe (s : State) (p : Nat) (b : Bool) : (s.setFe p b).readers = s.readers := rfl
@[simp] theorem State.tileRback_setFe (s : State) (p : Nat) (b : Bool) : (s.setFe p b).tileRback = s.tileRback := rfl
@[simp] theorem State.hedges_setFe (s : State) (p : Nat) (b : Bool) : (s.setFe p b).hedges = s.hedges := rfl
@[simp] theorem State.awayTasks_setFe (s : State) (p : Nat) (b : Bool) : (s.setFe p b).awayTasks = s.awayTasks := rfl
@[simp] theorem State.held_setFe (s : State) (p : Nat) (b : Bool) : (s.setFe p b).held = s.held := rfl
@[simp] theorem State.homeSeq_setFe (s : State) (p : Nat) (b : Bool) : (s.setFe p b).homeSeq = s.homeSeq := rfl
@[simp] theorem State.commits_setFe (s : State) (p : Nat) (b : Bool) : (s.setFe p b).commits = s.commits := rfl
@[simp] theorem State.relWait_setFe (s : State) (p : Nat) (b : Bool) : (s.setFe p b).relWait = s.relWait := rfl
@[simp] theorem State.side_setFe (s : State) (p : Nat) (b : Bool) : (s.setFe p b).side = s.side := rfl
@[simp] theorem State.ranges_setFe (s : State) (p : Nat) (b : Bool) : (s.setFe p b).ranges = s.ranges := rfl
@[simp] theorem State.rings_setFe (s : State) (p : Nat) (b : Bool) : (s.setFe p b).rings = s.rings := rfl
@[simp] theorem State.anns_setFe (s : State) (p : Nat) (b : Bool) : (s.setFe p b).anns = s.anns := rfl
@[simp] theorem State.contexts_setFe (s : State) (p : Nat) (b : Bool) : (s.setFe p b).contexts = s.contexts := rfl
@[simp] theorem State.migrs_setFe (s : State) (p : Nat) (b : Bool) : (s.setFe p b).migrs = s.migrs := rfl
@[simp] theorem State.ready_setFe (s : State) (p : Nat) (b : Bool) : (s.setFe p b).ready = s.ready := rfl
@[simp] theorem State.start0_setFe (s : State) (p : Nat) (b : Bool) : (s.setFe p b).start0 = s.start0 := rfl
@[simp] theorem State.start1_setFe (s : State) (p : Nat) (b : Bool) : (s.setFe p b).start1 = s.start1 := rfl
@[simp] theorem State.incarnation_setFe (s : State) (p : Nat) (b : Bool) : (s.setFe p b).incarnation = s.incarnation := rfl
@[simp] theorem State.peers_setFe (s : State) (p : Nat) (b : Bool) : (s.setFe p b).peers = s.peers := rfl
@[simp] theorem State.mailbox_setFe (s : State) (p : Nat) (b : Bool) : (s.setFe p b).mailbox = s.mailbox := rfl
@[simp] theorem State.bells_setFe (s : State) (p : Nat) (b : Bool) : (s.setFe p b).bells = s.bells := rfl
@[simp] theorem State.evqBase_setFe (s : State) (p : Nat) (b : Bool) : (s.setFe p b).evqBase = s.evqBase := rfl
@[simp] theorem State.evqHead_setFe (s : State) (p : Nat) (b : Bool) : (s.setFe p b).evqHead = s.evqHead := rfl
@[simp] theorem State.evqTail_setFe (s : State) (p : Nat) (b : Bool) : (s.setFe p b).evqTail = s.evqTail := rfl
@[simp] theorem State.stageBase_setFe (s : State) (p : Nat) (b : Bool) : (s.setFe p b).stageBase = s.stageBase := rfl
@[simp] theorem State.mbDrop_setFe (s : State) (p : Nat) (b : Bool) : (s.setFe p b).mbDrop = s.mbDrop := rfl
@[simp] theorem State.evHeld_setFe (s : State) (p : Nat) (b : Bool) : (s.setFe p b).evHeld = s.evHeld := rfl
@[simp] theorem State.evLost_setFe (s : State) (p : Nat) (b : Bool) : (s.setFe p b).evLost = s.evLost := rfl
@[simp] theorem State.flows_setFe (s : State) (p : Nat) (b : Bool) : (s.setFe p b).flows = s.flows := rfl
@[simp] theorem State.cap_setFe (s : State) (p : Nat) (b : Bool) : (s.setFe p b).cap = s.cap := rfl
@[simp] theorem State.removals_setFe (s : State) (p : Nat) (b : Bool) : (s.setFe p b).removals = s.removals := rfl
@[simp] theorem State.lowSince_setFe (s : State) (p : Nat) (b : Bool) : (s.setFe p b).lowSince = s.lowSince := rfl
@[simp] theorem State.fibres_setFe (s : State) (p : Nat) (b : Bool) : (s.setFe p b).fibres = s.fibres := rfl
@[simp] theorem State.tnDrop_setFe (s : State) (p : Nat) (b : Bool) : (s.setFe p b).tnDrop = s.tnDrop := rfl
@[simp] theorem State.incDrop_setFe (s : State) (p : Nat) (b : Bool) : (s.setFe p b).incDrop = s.incDrop := rfl
@[simp] theorem State.clDrop_setFe (s : State) (p : Nat) (b : Bool) : (s.setFe p b).clDrop = s.clDrop := rfl
@[simp] theorem State.misDrop_setFe (s : State) (p : Nat) (b : Bool) : (s.setFe p b).misDrop = s.misDrop := rfl
@[simp] theorem State.launchDrop_setFe (s : State) (p : Nat) (b : Bool) : (s.setFe p b).launchDrop = s.launchDrop := rfl
@[simp] theorem State.logs_setFe (s : State) (p : Nat) (b : Bool) : (s.setFe p b).logs = s.logs := rfl
@[simp] theorem State.logLost_setFe (s : State) (p : Nat) (b : Bool) : (s.setFe p b).logLost = s.logLost := rfl
@[simp] theorem State.out_setFe (s : State) (p : Nat) (b : Bool) : (s.setFe p b).out = s.out := rfl
@[simp] theorem State.now_markLocal (s : State) (pa n : Nat) : (s.markLocal pa n).now = s.now := by unfold State.markLocal; split <;> rfl
@[simp] theorem State.agenda_markLocal (s : State) (pa n : Nat) : (s.markLocal pa n).agenda = s.agenda := by unfold State.markLocal; split <;> rfl
@[simp] theorem State.ev_markLocal (s : State) (pa n : Nat) : (s.markLocal pa n).ev = s.ev := by unfold State.markLocal; split <;> rfl
@[simp] theorem State.cur_markLocal (s : State) (pa n : Nat) : (s.markLocal pa n).cur = s.cur := by unfold State.markLocal; split <;> rfl
@[simp] theorem State.fresh_markLocal (s : State) (pa n : Nat) : (s.markLocal pa n).fresh = s.fresh := by unfold State.markLocal; split <;> rfl
@[simp] theorem State.mem_markLocal (s : State) (pa n : Nat) : (s.markLocal pa n).mem = s.mem := by unfold State.markLocal; split <;> rfl
@[simp] theorem State.fe_markLocal (s : State) (pa n : Nat) : (s.markLocal pa n).fe = s.fe := by unfold State.markLocal; split <;> rfl
@[simp] theorem State.bad_markLocal (s : State) (pa n : Nat) : (s.markLocal pa n).bad = s.bad := by unfold State.markLocal; split <;> rfl
@[simp] theorem State.slots_markLocal (s : State) (pa n : Nat) : (s.markLocal pa n).slots = s.slots := by unfold State.markLocal; split <;> rfl
@[simp] theorem State.cores_markLocal (s : State) (pa n : Nat) : (s.markLocal pa n).cores = s.cores := by unfold State.markLocal; split <;> rfl
@[simp] theorem State.pairs_markLocal (s : State) (pa n : Nat) : (s.markLocal pa n).pairs = s.pairs := by unfold State.markLocal; split <;> rfl
@[simp] theorem State.clusters_markLocal (s : State) (pa n : Nat) : (s.markLocal pa n).clusters = s.clusters := by unfold State.markLocal; split <;> rfl
@[simp] theorem State.gangs_markLocal (s : State) (pa n : Nat) : (s.markLocal pa n).gangs = s.gangs := by unfold State.markLocal; split <;> rfl
@[simp] theorem State.jobs_markLocal (s : State) (pa n : Nat) : (s.markLocal pa n).jobs = s.jobs := by unfold State.markLocal; split <;> rfl
@[simp] theorem State.tenants_markLocal (s : State) (pa n : Nat) : (s.markLocal pa n).tenants = s.tenants := by unfold State.markLocal; split <;> rfl
@[simp] theorem State.retries_markLocal (s : State) (pa n : Nat) : (s.markLocal pa n).retries = s.retries := by unfold State.markLocal; split <;> rfl
@[simp] theorem State.records_markLocal (s : State) (pa n : Nat) : (s.markLocal pa n).records = s.records := by unfold State.markLocal; split <;> rfl
@[simp] theorem State.nextRecord_markLocal (s : State) (pa n : Nat) : (s.markLocal pa n).nextRecord = s.nextRecord := by unfold State.markLocal; split <;> rfl
@[simp] theorem State.parkMarks_markLocal (s : State) (pa n : Nat) : (s.markLocal pa n).parkMarks = s.parkMarks := by unfold State.markLocal; split <;> rfl
@[simp] theorem State.parks_markLocal (s : State) (pa n : Nat) : (s.markLocal pa n).parks = s.parks := by unfold State.markLocal; split <;> rfl
@[simp] theorem State.drLines_markLocal (s : State) (pa n : Nat) : (s.markLocal pa n).drLines = s.drLines := by unfold State.markLocal; split <;> rfl
@[simp] theorem State.tileMarks_markLocal (s : State) (pa n : Nat) : (s.markLocal pa n).tileMarks = s.tileMarks := by unfold State.markLocal; split <;> rfl
@[simp] theorem State.owners_markLocal (s : State) (pa n : Nat) : (s.markLocal pa n).owners = s.owners := by unfold State.markLocal; split <;> rfl
@[simp] theorem State.resident_markLocal (s : State) (pa n : Nat) : (s.markLocal pa n).resident = s.resident := by unfold State.markLocal; split <;> rfl
@[simp] theorem State.channels_markLocal (s : State) (pa n : Nat) : (s.markLocal pa n).channels = s.channels := by unfold State.markLocal; split <;> rfl
@[simp] theorem State.timed_markLocal (s : State) (pa n : Nat) : (s.markLocal pa n).timed = s.timed := by unfold State.markLocal; split <;> rfl
@[simp] theorem State.nextTimed_markLocal (s : State) (pa n : Nat) : (s.markLocal pa n).nextTimed = s.nextTimed := by unfold State.markLocal; split <;> rfl
@[simp] theorem State.readers_markLocal (s : State) (pa n : Nat) : (s.markLocal pa n).readers = s.readers := by unfold State.markLocal; split <;> rfl
@[simp] theorem State.tileRback_markLocal (s : State) (pa n : Nat) : (s.markLocal pa n).tileRback = s.tileRback := by unfold State.markLocal; split <;> rfl
@[simp] theorem State.hedges_markLocal (s : State) (pa n : Nat) : (s.markLocal pa n).hedges = s.hedges := by unfold State.markLocal; split <;> rfl
@[simp] theorem State.awayTasks_markLocal (s : State) (pa n : Nat) : (s.markLocal pa n).awayTasks = s.awayTasks := by unfold State.markLocal; split <;> rfl
@[simp] theorem State.held_markLocal (s : State) (pa n : Nat) : (s.markLocal pa n).held = s.held := by unfold State.markLocal; split <;> rfl
@[simp] theorem State.homeSeq_markLocal (s : State) (pa n : Nat) : (s.markLocal pa n).homeSeq = s.homeSeq := by unfold State.markLocal; split <;> rfl
@[simp] theorem State.commits_markLocal (s : State) (pa n : Nat) : (s.markLocal pa n).commits = s.commits := by unfold State.markLocal; split <;> rfl
@[simp] theorem State.relWait_markLocal (s : State) (pa n : Nat) : (s.markLocal pa n).relWait = s.relWait := by unfold State.markLocal; split <;> rfl
@[simp] theorem State.side_markLocal (s : State) (pa n : Nat) : (s.markLocal pa n).side = s.side := by unfold State.markLocal; split <;> rfl
@[simp] theorem State.ranges_markLocal (s : State) (pa n : Nat) : (s.markLocal pa n).ranges = s.ranges := by unfold State.markLocal; split <;> rfl
@[simp] theorem State.rings_markLocal (s : State) (pa n : Nat) : (s.markLocal pa n).rings = s.rings := by unfold State.markLocal; split <;> rfl
@[simp] theorem State.anns_markLocal (s : State) (pa n : Nat) : (s.markLocal pa n).anns = s.anns := by unfold State.markLocal; split <;> rfl
@[simp] theorem State.contexts_markLocal (s : State) (pa n : Nat) : (s.markLocal pa n).contexts = s.contexts := by unfold State.markLocal; split <;> rfl
@[simp] theorem State.migrs_markLocal (s : State) (pa n : Nat) : (s.markLocal pa n).migrs = s.migrs := by unfold State.markLocal; split <;> rfl
@[simp] theorem State.ready_markLocal (s : State) (pa n : Nat) : (s.markLocal pa n).ready = s.ready := by unfold State.markLocal; split <;> rfl
@[simp] theorem State.start0_markLocal (s : State) (pa n : Nat) : (s.markLocal pa n).start0 = s.start0 := by unfold State.markLocal; split <;> rfl
@[simp] theorem State.start1_markLocal (s : State) (pa n : Nat) : (s.markLocal pa n).start1 = s.start1 := by unfold State.markLocal; split <;> rfl
@[simp] theorem State.incarnation_markLocal (s : State) (pa n : Nat) : (s.markLocal pa n).incarnation = s.incarnation := by unfold State.markLocal; split <;> rfl
@[simp] theorem State.peers_markLocal (s : State) (pa n : Nat) : (s.markLocal pa n).peers = s.peers := by unfold State.markLocal; split <;> rfl
@[simp] theorem State.mailbox_markLocal (s : State) (pa n : Nat) : (s.markLocal pa n).mailbox = s.mailbox := by unfold State.markLocal; split <;> rfl
@[simp] theorem State.bells_markLocal (s : State) (pa n : Nat) : (s.markLocal pa n).bells = s.bells := by unfold State.markLocal; split <;> rfl
@[simp] theorem State.evqBase_markLocal (s : State) (pa n : Nat) : (s.markLocal pa n).evqBase = s.evqBase := by unfold State.markLocal; split <;> rfl
@[simp] theorem State.evqHead_markLocal (s : State) (pa n : Nat) : (s.markLocal pa n).evqHead = s.evqHead := by unfold State.markLocal; split <;> rfl
@[simp] theorem State.evqTail_markLocal (s : State) (pa n : Nat) : (s.markLocal pa n).evqTail = s.evqTail := by unfold State.markLocal; split <;> rfl
@[simp] theorem State.stageBase_markLocal (s : State) (pa n : Nat) : (s.markLocal pa n).stageBase = s.stageBase := by unfold State.markLocal; split <;> rfl
@[simp] theorem State.mbDrop_markLocal (s : State) (pa n : Nat) : (s.markLocal pa n).mbDrop = s.mbDrop := by unfold State.markLocal; split <;> rfl
@[simp] theorem State.evHeld_markLocal (s : State) (pa n : Nat) : (s.markLocal pa n).evHeld = s.evHeld := by unfold State.markLocal; split <;> rfl
@[simp] theorem State.evLost_markLocal (s : State) (pa n : Nat) : (s.markLocal pa n).evLost = s.evLost := by unfold State.markLocal; split <;> rfl
@[simp] theorem State.flows_markLocal (s : State) (pa n : Nat) : (s.markLocal pa n).flows = s.flows := by unfold State.markLocal; split <;> rfl
@[simp] theorem State.cap_markLocal (s : State) (pa n : Nat) : (s.markLocal pa n).cap = s.cap := by unfold State.markLocal; split <;> rfl
@[simp] theorem State.removals_markLocal (s : State) (pa n : Nat) : (s.markLocal pa n).removals = s.removals := by unfold State.markLocal; split <;> rfl
@[simp] theorem State.lowSince_markLocal (s : State) (pa n : Nat) : (s.markLocal pa n).lowSince = s.lowSince := by unfold State.markLocal; split <;> rfl
@[simp] theorem State.fibres_markLocal (s : State) (pa n : Nat) : (s.markLocal pa n).fibres = s.fibres := by unfold State.markLocal; split <;> rfl
@[simp] theorem State.tnDrop_markLocal (s : State) (pa n : Nat) : (s.markLocal pa n).tnDrop = s.tnDrop := by unfold State.markLocal; split <;> rfl
@[simp] theorem State.incDrop_markLocal (s : State) (pa n : Nat) : (s.markLocal pa n).incDrop = s.incDrop := by unfold State.markLocal; split <;> rfl
@[simp] theorem State.clDrop_markLocal (s : State) (pa n : Nat) : (s.markLocal pa n).clDrop = s.clDrop := by unfold State.markLocal; split <;> rfl
@[simp] theorem State.misDrop_markLocal (s : State) (pa n : Nat) : (s.markLocal pa n).misDrop = s.misDrop := by unfold State.markLocal; split <;> rfl
@[simp] theorem State.launchDrop_markLocal (s : State) (pa n : Nat) : (s.markLocal pa n).launchDrop = s.launchDrop := by unfold State.markLocal; split <;> rfl
@[simp] theorem State.logs_markLocal (s : State) (pa n : Nat) : (s.markLocal pa n).logs = s.logs := by unfold State.markLocal; split <;> rfl
@[simp] theorem State.logLost_markLocal (s : State) (pa n : Nat) : (s.markLocal pa n).logLost = s.logLost := by unfold State.markLocal; split <;> rfl
@[simp] theorem State.out_markLocal (s : State) (pa n : Nat) : (s.markLocal pa n).out = s.out := by unfold State.markLocal; split <;> rfl
@[simp] theorem State.now_writeWords (s : State) (a : Nat) (ws : List Word) : (s.writeWords a ws).now = s.now := by unfold State.writeWords State.markLocal; split <;> rfl
@[simp] theorem State.agenda_writeWords (s : State) (a : Nat) (ws : List Word) : (s.writeWords a ws).agenda = s.agenda := by unfold State.writeWords State.markLocal; split <;> rfl
@[simp] theorem State.ev_writeWords (s : State) (a : Nat) (ws : List Word) : (s.writeWords a ws).ev = s.ev := by unfold State.writeWords State.markLocal; split <;> rfl
@[simp] theorem State.cur_writeWords (s : State) (a : Nat) (ws : List Word) : (s.writeWords a ws).cur = s.cur := by unfold State.writeWords State.markLocal; split <;> rfl
@[simp] theorem State.fresh_writeWords (s : State) (a : Nat) (ws : List Word) : (s.writeWords a ws).fresh = s.fresh := by unfold State.writeWords State.markLocal; split <;> rfl
@[simp] theorem State.fe_writeWords (s : State) (a : Nat) (ws : List Word) : (s.writeWords a ws).fe = s.fe := by unfold State.writeWords State.markLocal; split <;> rfl
@[simp] theorem State.bad_writeWords (s : State) (a : Nat) (ws : List Word) : (s.writeWords a ws).bad = s.bad := by unfold State.writeWords State.markLocal; split <;> rfl
@[simp] theorem State.slots_writeWords (s : State) (a : Nat) (ws : List Word) : (s.writeWords a ws).slots = s.slots := by unfold State.writeWords State.markLocal; split <;> rfl
@[simp] theorem State.cores_writeWords (s : State) (a : Nat) (ws : List Word) : (s.writeWords a ws).cores = s.cores := by unfold State.writeWords State.markLocal; split <;> rfl
@[simp] theorem State.pairs_writeWords (s : State) (a : Nat) (ws : List Word) : (s.writeWords a ws).pairs = s.pairs := by unfold State.writeWords State.markLocal; split <;> rfl
@[simp] theorem State.clusters_writeWords (s : State) (a : Nat) (ws : List Word) : (s.writeWords a ws).clusters = s.clusters := by unfold State.writeWords State.markLocal; split <;> rfl
@[simp] theorem State.gangs_writeWords (s : State) (a : Nat) (ws : List Word) : (s.writeWords a ws).gangs = s.gangs := by unfold State.writeWords State.markLocal; split <;> rfl
@[simp] theorem State.jobs_writeWords (s : State) (a : Nat) (ws : List Word) : (s.writeWords a ws).jobs = s.jobs := by unfold State.writeWords State.markLocal; split <;> rfl
@[simp] theorem State.tenants_writeWords (s : State) (a : Nat) (ws : List Word) : (s.writeWords a ws).tenants = s.tenants := by unfold State.writeWords State.markLocal; split <;> rfl
@[simp] theorem State.retries_writeWords (s : State) (a : Nat) (ws : List Word) : (s.writeWords a ws).retries = s.retries := by unfold State.writeWords State.markLocal; split <;> rfl
@[simp] theorem State.records_writeWords (s : State) (a : Nat) (ws : List Word) : (s.writeWords a ws).records = s.records := by unfold State.writeWords State.markLocal; split <;> rfl
@[simp] theorem State.nextRecord_writeWords (s : State) (a : Nat) (ws : List Word) : (s.writeWords a ws).nextRecord = s.nextRecord := by unfold State.writeWords State.markLocal; split <;> rfl
@[simp] theorem State.parkMarks_writeWords (s : State) (a : Nat) (ws : List Word) : (s.writeWords a ws).parkMarks = s.parkMarks := by unfold State.writeWords State.markLocal; split <;> rfl
@[simp] theorem State.parks_writeWords (s : State) (a : Nat) (ws : List Word) : (s.writeWords a ws).parks = s.parks := by unfold State.writeWords State.markLocal; split <;> rfl
@[simp] theorem State.drLines_writeWords (s : State) (a : Nat) (ws : List Word) : (s.writeWords a ws).drLines = s.drLines := by unfold State.writeWords State.markLocal; split <;> rfl
@[simp] theorem State.tileMarks_writeWords (s : State) (a : Nat) (ws : List Word) : (s.writeWords a ws).tileMarks = s.tileMarks := by unfold State.writeWords State.markLocal; split <;> rfl
@[simp] theorem State.owners_writeWords (s : State) (a : Nat) (ws : List Word) : (s.writeWords a ws).owners = s.owners := by unfold State.writeWords State.markLocal; split <;> rfl
@[simp] theorem State.resident_writeWords (s : State) (a : Nat) (ws : List Word) : (s.writeWords a ws).resident = s.resident := by unfold State.writeWords State.markLocal; split <;> rfl
@[simp] theorem State.channels_writeWords (s : State) (a : Nat) (ws : List Word) : (s.writeWords a ws).channels = s.channels := by unfold State.writeWords State.markLocal; split <;> rfl
@[simp] theorem State.timed_writeWords (s : State) (a : Nat) (ws : List Word) : (s.writeWords a ws).timed = s.timed := by unfold State.writeWords State.markLocal; split <;> rfl
@[simp] theorem State.nextTimed_writeWords (s : State) (a : Nat) (ws : List Word) : (s.writeWords a ws).nextTimed = s.nextTimed := by unfold State.writeWords State.markLocal; split <;> rfl
@[simp] theorem State.readers_writeWords (s : State) (a : Nat) (ws : List Word) : (s.writeWords a ws).readers = s.readers := by unfold State.writeWords State.markLocal; split <;> rfl
@[simp] theorem State.tileRback_writeWords (s : State) (a : Nat) (ws : List Word) : (s.writeWords a ws).tileRback = s.tileRback := by unfold State.writeWords State.markLocal; split <;> rfl
@[simp] theorem State.hedges_writeWords (s : State) (a : Nat) (ws : List Word) : (s.writeWords a ws).hedges = s.hedges := by unfold State.writeWords State.markLocal; split <;> rfl
@[simp] theorem State.awayTasks_writeWords (s : State) (a : Nat) (ws : List Word) : (s.writeWords a ws).awayTasks = s.awayTasks := by unfold State.writeWords State.markLocal; split <;> rfl
@[simp] theorem State.held_writeWords (s : State) (a : Nat) (ws : List Word) : (s.writeWords a ws).held = s.held := by unfold State.writeWords State.markLocal; split <;> rfl
@[simp] theorem State.homeSeq_writeWords (s : State) (a : Nat) (ws : List Word) : (s.writeWords a ws).homeSeq = s.homeSeq := by unfold State.writeWords State.markLocal; split <;> rfl
@[simp] theorem State.commits_writeWords (s : State) (a : Nat) (ws : List Word) : (s.writeWords a ws).commits = s.commits := by unfold State.writeWords State.markLocal; split <;> rfl
@[simp] theorem State.relWait_writeWords (s : State) (a : Nat) (ws : List Word) : (s.writeWords a ws).relWait = s.relWait := by unfold State.writeWords State.markLocal; split <;> rfl
@[simp] theorem State.side_writeWords (s : State) (a : Nat) (ws : List Word) : (s.writeWords a ws).side = s.side := by unfold State.writeWords State.markLocal; split <;> rfl
@[simp] theorem State.ranges_writeWords (s : State) (a : Nat) (ws : List Word) : (s.writeWords a ws).ranges = s.ranges := by unfold State.writeWords State.markLocal; split <;> rfl
@[simp] theorem State.rings_writeWords (s : State) (a : Nat) (ws : List Word) : (s.writeWords a ws).rings = s.rings := by unfold State.writeWords State.markLocal; split <;> rfl
@[simp] theorem State.anns_writeWords (s : State) (a : Nat) (ws : List Word) : (s.writeWords a ws).anns = s.anns := by unfold State.writeWords State.markLocal; split <;> rfl
@[simp] theorem State.contexts_writeWords (s : State) (a : Nat) (ws : List Word) : (s.writeWords a ws).contexts = s.contexts := by unfold State.writeWords State.markLocal; split <;> rfl
@[simp] theorem State.migrs_writeWords (s : State) (a : Nat) (ws : List Word) : (s.writeWords a ws).migrs = s.migrs := by unfold State.writeWords State.markLocal; split <;> rfl
@[simp] theorem State.ready_writeWords (s : State) (a : Nat) (ws : List Word) : (s.writeWords a ws).ready = s.ready := by unfold State.writeWords State.markLocal; split <;> rfl
@[simp] theorem State.start0_writeWords (s : State) (a : Nat) (ws : List Word) : (s.writeWords a ws).start0 = s.start0 := by unfold State.writeWords State.markLocal; split <;> rfl
@[simp] theorem State.start1_writeWords (s : State) (a : Nat) (ws : List Word) : (s.writeWords a ws).start1 = s.start1 := by unfold State.writeWords State.markLocal; split <;> rfl
@[simp] theorem State.incarnation_writeWords (s : State) (a : Nat) (ws : List Word) : (s.writeWords a ws).incarnation = s.incarnation := by unfold State.writeWords State.markLocal; split <;> rfl
@[simp] theorem State.peers_writeWords (s : State) (a : Nat) (ws : List Word) : (s.writeWords a ws).peers = s.peers := by unfold State.writeWords State.markLocal; split <;> rfl
@[simp] theorem State.mailbox_writeWords (s : State) (a : Nat) (ws : List Word) : (s.writeWords a ws).mailbox = s.mailbox := by unfold State.writeWords State.markLocal; split <;> rfl
@[simp] theorem State.bells_writeWords (s : State) (a : Nat) (ws : List Word) : (s.writeWords a ws).bells = s.bells := by unfold State.writeWords State.markLocal; split <;> rfl
@[simp] theorem State.evqBase_writeWords (s : State) (a : Nat) (ws : List Word) : (s.writeWords a ws).evqBase = s.evqBase := by unfold State.writeWords State.markLocal; split <;> rfl
@[simp] theorem State.evqHead_writeWords (s : State) (a : Nat) (ws : List Word) : (s.writeWords a ws).evqHead = s.evqHead := by unfold State.writeWords State.markLocal; split <;> rfl
@[simp] theorem State.evqTail_writeWords (s : State) (a : Nat) (ws : List Word) : (s.writeWords a ws).evqTail = s.evqTail := by unfold State.writeWords State.markLocal; split <;> rfl
@[simp] theorem State.stageBase_writeWords (s : State) (a : Nat) (ws : List Word) : (s.writeWords a ws).stageBase = s.stageBase := by unfold State.writeWords State.markLocal; split <;> rfl
@[simp] theorem State.mbDrop_writeWords (s : State) (a : Nat) (ws : List Word) : (s.writeWords a ws).mbDrop = s.mbDrop := by unfold State.writeWords State.markLocal; split <;> rfl
@[simp] theorem State.evHeld_writeWords (s : State) (a : Nat) (ws : List Word) : (s.writeWords a ws).evHeld = s.evHeld := by unfold State.writeWords State.markLocal; split <;> rfl
@[simp] theorem State.evLost_writeWords (s : State) (a : Nat) (ws : List Word) : (s.writeWords a ws).evLost = s.evLost := by unfold State.writeWords State.markLocal; split <;> rfl
@[simp] theorem State.flows_writeWords (s : State) (a : Nat) (ws : List Word) : (s.writeWords a ws).flows = s.flows := by unfold State.writeWords State.markLocal; split <;> rfl
@[simp] theorem State.cap_writeWords (s : State) (a : Nat) (ws : List Word) : (s.writeWords a ws).cap = s.cap := by unfold State.writeWords State.markLocal; split <;> rfl
@[simp] theorem State.removals_writeWords (s : State) (a : Nat) (ws : List Word) : (s.writeWords a ws).removals = s.removals := by unfold State.writeWords State.markLocal; split <;> rfl
@[simp] theorem State.lowSince_writeWords (s : State) (a : Nat) (ws : List Word) : (s.writeWords a ws).lowSince = s.lowSince := by unfold State.writeWords State.markLocal; split <;> rfl
@[simp] theorem State.fibres_writeWords (s : State) (a : Nat) (ws : List Word) : (s.writeWords a ws).fibres = s.fibres := by unfold State.writeWords State.markLocal; split <;> rfl
@[simp] theorem State.tnDrop_writeWords (s : State) (a : Nat) (ws : List Word) : (s.writeWords a ws).tnDrop = s.tnDrop := by unfold State.writeWords State.markLocal; split <;> rfl
@[simp] theorem State.incDrop_writeWords (s : State) (a : Nat) (ws : List Word) : (s.writeWords a ws).incDrop = s.incDrop := by unfold State.writeWords State.markLocal; split <;> rfl
@[simp] theorem State.clDrop_writeWords (s : State) (a : Nat) (ws : List Word) : (s.writeWords a ws).clDrop = s.clDrop := by unfold State.writeWords State.markLocal; split <;> rfl
@[simp] theorem State.misDrop_writeWords (s : State) (a : Nat) (ws : List Word) : (s.writeWords a ws).misDrop = s.misDrop := by unfold State.writeWords State.markLocal; split <;> rfl
@[simp] theorem State.launchDrop_writeWords (s : State) (a : Nat) (ws : List Word) : (s.writeWords a ws).launchDrop = s.launchDrop := by unfold State.writeWords State.markLocal; split <;> rfl
@[simp] theorem State.logs_writeWords (s : State) (a : Nat) (ws : List Word) : (s.writeWords a ws).logs = s.logs := by unfold State.writeWords State.markLocal; split <;> rfl
@[simp] theorem State.logLost_writeWords (s : State) (a : Nat) (ws : List Word) : (s.writeWords a ws).logLost = s.logLost := by unfold State.writeWords State.markLocal; split <;> rfl
@[simp] theorem State.out_writeWords (s : State) (a : Nat) (ws : List Word) : (s.writeWords a ws).out = s.out := by unfold State.writeWords State.markLocal; split <;> rfl

/-! ## Entries of one table, and the issuing strand, after another is set -/

@[simp] theorem State.core_setSlot (s : State) (id : Nat) (v : Slot) (k : Nat) : (s.setSlot id v).core k = s.core k := rfl
@[simp] theorem State.pair_setSlot (s : State) (id : Nat) (v : Slot) (k : Nat) : (s.setSlot id v).pair k = s.pair k := rfl
@[simp] theorem State.cluster_setSlot (s : State) (id : Nat) (v : Slot) (k : Nat) : (s.setSlot id v).cluster k = s.cluster k := rfl
@[simp] theorem State.gang_setSlot (s : State) (id : Nat) (v : Slot) (k : Nat) : (s.setSlot id v).gang k = s.gang k := rfl
@[simp] theorem State.job_setSlot (s : State) (id : Nat) (v : Slot) (k : Nat) : (s.setSlot id v).job k = s.job k := rfl
@[simp] theorem State.coreId_setSlot (s : State) (id : Nat) (v : Slot) : (s.setSlot id v).coreId = s.coreId := rfl
@[simp] theorem State.core_setMe (s : State) (v : Slot) (k : Nat) : (s.setMe v).core k = s.core k := rfl
@[simp] theorem State.pair_setMe (s : State) (v : Slot) (k : Nat) : (s.setMe v).pair k = s.pair k := rfl
@[simp] theorem State.cluster_setMe (s : State) (v : Slot) (k : Nat) : (s.setMe v).cluster k = s.cluster k := rfl
@[simp] theorem State.gang_setMe (s : State) (v : Slot) (k : Nat) : (s.setMe v).gang k = s.gang k := rfl
@[simp] theorem State.job_setMe (s : State) (v : Slot) (k : Nat) : (s.setMe v).job k = s.job k := rfl
@[simp] theorem State.coreId_setMe (s : State) (v : Slot) : (s.setMe v).coreId = s.coreId := rfl
@[simp] theorem State.slot_setCore (s : State) (c : Nat) (v : Core) (k : Nat) : (s.setCore c v).slot k = s.slot k := rfl
@[simp] theorem State.pair_setCore (s : State) (c : Nat) (v : Core) (k : Nat) : (s.setCore c v).pair k = s.pair k := rfl
@[simp] theorem State.cluster_setCore (s : State) (c : Nat) (v : Core) (k : Nat) : (s.setCore c v).cluster k = s.cluster k := rfl
@[simp] theorem State.gang_setCore (s : State) (c : Nat) (v : Core) (k : Nat) : (s.setCore c v).gang k = s.gang k := rfl
@[simp] theorem State.job_setCore (s : State) (c : Nat) (v : Core) (k : Nat) : (s.setCore c v).job k = s.job k := rfl
@[simp] theorem State.me_setCore (s : State) (c : Nat) (v : Core) : (s.setCore c v).me = s.me := rfl
@[simp] theorem State.rx_setCore (s : State) (c : Nat) (v : Core) (r : BitVec 7) : (s.setCore c v).rx r = s.rx r := rfl
@[simp] theorem State.coreId_setCore (s : State) (c : Nat) (v : Core) : (s.setCore c v).coreId = s.coreId := rfl
@[simp] theorem State.slot_setPair (s : State) (p : Nat) (v : Pair) (k : Nat) : (s.setPair p v).slot k = s.slot k := rfl
@[simp] theorem State.core_setPair (s : State) (p : Nat) (v : Pair) (k : Nat) : (s.setPair p v).core k = s.core k := rfl
@[simp] theorem State.cluster_setPair (s : State) (p : Nat) (v : Pair) (k : Nat) : (s.setPair p v).cluster k = s.cluster k := rfl
@[simp] theorem State.gang_setPair (s : State) (p : Nat) (v : Pair) (k : Nat) : (s.setPair p v).gang k = s.gang k := rfl
@[simp] theorem State.job_setPair (s : State) (p : Nat) (v : Pair) (k : Nat) : (s.setPair p v).job k = s.job k := rfl
@[simp] theorem State.me_setPair (s : State) (p : Nat) (v : Pair) : (s.setPair p v).me = s.me := rfl
@[simp] theorem State.rx_setPair (s : State) (p : Nat) (v : Pair) (r : BitVec 7) : (s.setPair p v).rx r = s.rx r := rfl
@[simp] theorem State.coreId_setPair (s : State) (p : Nat) (v : Pair) : (s.setPair p v).coreId = s.coreId := rfl
@[simp] theorem State.slot_setCluster (s : State) (c : Nat) (v : Cluster) (k : Nat) : (s.setCluster c v).slot k = s.slot k := rfl
@[simp] theorem State.core_setCluster (s : State) (c : Nat) (v : Cluster) (k : Nat) : (s.setCluster c v).core k = s.core k := rfl
@[simp] theorem State.pair_setCluster (s : State) (c : Nat) (v : Cluster) (k : Nat) : (s.setCluster c v).pair k = s.pair k := rfl
@[simp] theorem State.gang_setCluster (s : State) (c : Nat) (v : Cluster) (k : Nat) : (s.setCluster c v).gang k = s.gang k := rfl
@[simp] theorem State.job_setCluster (s : State) (c : Nat) (v : Cluster) (k : Nat) : (s.setCluster c v).job k = s.job k := rfl
@[simp] theorem State.me_setCluster (s : State) (c : Nat) (v : Cluster) : (s.setCluster c v).me = s.me := rfl
@[simp] theorem State.rx_setCluster (s : State) (c : Nat) (v : Cluster) (r : BitVec 7) : (s.setCluster c v).rx r = s.rx r := rfl
@[simp] theorem State.coreId_setCluster (s : State) (c : Nat) (v : Cluster) : (s.setCluster c v).coreId = s.coreId := rfl
@[simp] theorem State.slot_setGang (s : State) (g : Nat) (v : Gang) (k : Nat) : (s.setGang g v).slot k = s.slot k := rfl
@[simp] theorem State.core_setGang (s : State) (g : Nat) (v : Gang) (k : Nat) : (s.setGang g v).core k = s.core k := rfl
@[simp] theorem State.pair_setGang (s : State) (g : Nat) (v : Gang) (k : Nat) : (s.setGang g v).pair k = s.pair k := rfl
@[simp] theorem State.cluster_setGang (s : State) (g : Nat) (v : Gang) (k : Nat) : (s.setGang g v).cluster k = s.cluster k := rfl
@[simp] theorem State.job_setGang (s : State) (g : Nat) (v : Gang) (k : Nat) : (s.setGang g v).job k = s.job k := rfl
@[simp] theorem State.me_setGang (s : State) (g : Nat) (v : Gang) : (s.setGang g v).me = s.me := rfl
@[simp] theorem State.rx_setGang (s : State) (g : Nat) (v : Gang) (r : BitVec 7) : (s.setGang g v).rx r = s.rx r := rfl
@[simp] theorem State.coreId_setGang (s : State) (g : Nat) (v : Gang) : (s.setGang g v).coreId = s.coreId := rfl
@[simp] theorem State.slot_setJob (s : State) (j : Nat) (v : Job) (k : Nat) : (s.setJob j v).slot k = s.slot k := rfl
@[simp] theorem State.core_setJob (s : State) (j : Nat) (v : Job) (k : Nat) : (s.setJob j v).core k = s.core k := rfl
@[simp] theorem State.pair_setJob (s : State) (j : Nat) (v : Job) (k : Nat) : (s.setJob j v).pair k = s.pair k := rfl
@[simp] theorem State.cluster_setJob (s : State) (j : Nat) (v : Job) (k : Nat) : (s.setJob j v).cluster k = s.cluster k := rfl
@[simp] theorem State.gang_setJob (s : State) (j : Nat) (v : Job) (k : Nat) : (s.setJob j v).gang k = s.gang k := rfl
@[simp] theorem State.me_setJob (s : State) (j : Nat) (v : Job) : (s.setJob j v).me = s.me := rfl
@[simp] theorem State.rx_setJob (s : State) (j : Nat) (v : Job) (r : BitVec 7) : (s.setJob j v).rx r = s.rx r := rfl
@[simp] theorem State.coreId_setJob (s : State) (j : Nat) (v : Job) : (s.setJob j v).coreId = s.coreId := rfl
@[simp] theorem State.slot_schedule (s : State) (t : Nat) (e : Ev) (k : Nat) : (s.schedule t e).slot k = s.slot k := rfl
@[simp] theorem State.core_schedule (s : State) (t : Nat) (e : Ev) (k : Nat) : (s.schedule t e).core k = s.core k := rfl
@[simp] theorem State.pair_schedule (s : State) (t : Nat) (e : Ev) (k : Nat) : (s.schedule t e).pair k = s.pair k := rfl
@[simp] theorem State.cluster_schedule (s : State) (t : Nat) (e : Ev) (k : Nat) : (s.schedule t e).cluster k = s.cluster k := rfl
@[simp] theorem State.gang_schedule (s : State) (t : Nat) (e : Ev) (k : Nat) : (s.schedule t e).gang k = s.gang k := rfl
@[simp] theorem State.job_schedule (s : State) (t : Nat) (e : Ev) (k : Nat) : (s.schedule t e).job k = s.job k := rfl
@[simp] theorem State.me_schedule (s : State) (t : Nat) (e : Ev) : (s.schedule t e).me = s.me := rfl
@[simp] theorem State.rx_schedule (s : State) (t : Nat) (e : Ev) (r : BitVec 7) : (s.schedule t e).rx r = s.rx r := rfl
@[simp] theorem State.coreId_schedule (s : State) (t : Nat) (e : Ev) : (s.schedule t e).coreId = s.coreId := rfl
@[simp] theorem State.slot_soon (s : State) (e : Ev) (k : Nat) : (s.soon e).slot k = s.slot k := rfl
@[simp] theorem State.core_soon (s : State) (e : Ev) (k : Nat) : (s.soon e).core k = s.core k := rfl
@[simp] theorem State.pair_soon (s : State) (e : Ev) (k : Nat) : (s.soon e).pair k = s.pair k := rfl
@[simp] theorem State.cluster_soon (s : State) (e : Ev) (k : Nat) : (s.soon e).cluster k = s.cluster k := rfl
@[simp] theorem State.gang_soon (s : State) (e : Ev) (k : Nat) : (s.soon e).gang k = s.gang k := rfl
@[simp] theorem State.job_soon (s : State) (e : Ev) (k : Nat) : (s.soon e).job k = s.job k := rfl
@[simp] theorem State.me_soon (s : State) (e : Ev) : (s.soon e).me = s.me := rfl
@[simp] theorem State.rx_soon (s : State) (e : Ev) (r : BitVec 7) : (s.soon e).rx r = s.rx r := rfl
@[simp] theorem State.coreId_soon (s : State) (e : Ev) : (s.soon e).coreId = s.coreId := rfl
@[simp] theorem State.slot_send (s : State) (o : Out) (k : Nat) : (s.send o).slot k = s.slot k := rfl
@[simp] theorem State.core_send (s : State) (o : Out) (k : Nat) : (s.send o).core k = s.core k := rfl
@[simp] theorem State.pair_send (s : State) (o : Out) (k : Nat) : (s.send o).pair k = s.pair k := rfl
@[simp] theorem State.cluster_send (s : State) (o : Out) (k : Nat) : (s.send o).cluster k = s.cluster k := rfl
@[simp] theorem State.gang_send (s : State) (o : Out) (k : Nat) : (s.send o).gang k = s.gang k := rfl
@[simp] theorem State.job_send (s : State) (o : Out) (k : Nat) : (s.send o).job k = s.job k := rfl
@[simp] theorem State.me_send (s : State) (o : Out) : (s.send o).me = s.me := rfl
@[simp] theorem State.rx_send (s : State) (o : Out) (r : BitVec 7) : (s.send o).rx r = s.rx r := rfl
@[simp] theorem State.coreId_send (s : State) (o : Out) : (s.send o).coreId = s.coreId := rfl
@[simp] theorem State.slot_setFe (s : State) (p : Nat) (b : Bool) (k : Nat) : (s.setFe p b).slot k = s.slot k := rfl
@[simp] theorem State.core_setFe (s : State) (p : Nat) (b : Bool) (k : Nat) : (s.setFe p b).core k = s.core k := rfl
@[simp] theorem State.pair_setFe (s : State) (p : Nat) (b : Bool) (k : Nat) : (s.setFe p b).pair k = s.pair k := rfl
@[simp] theorem State.cluster_setFe (s : State) (p : Nat) (b : Bool) (k : Nat) : (s.setFe p b).cluster k = s.cluster k := rfl
@[simp] theorem State.gang_setFe (s : State) (p : Nat) (b : Bool) (k : Nat) : (s.setFe p b).gang k = s.gang k := rfl
@[simp] theorem State.job_setFe (s : State) (p : Nat) (b : Bool) (k : Nat) : (s.setFe p b).job k = s.job k := rfl
@[simp] theorem State.me_setFe (s : State) (p : Nat) (b : Bool) : (s.setFe p b).me = s.me := rfl
@[simp] theorem State.rx_setFe (s : State) (p : Nat) (b : Bool) (r : BitVec 7) : (s.setFe p b).rx r = s.rx r := rfl
@[simp] theorem State.coreId_setFe (s : State) (p : Nat) (b : Bool) : (s.setFe p b).coreId = s.coreId := rfl
@[simp] theorem State.slot_markLocal (s : State) (pa n : Nat) (k : Nat) : (s.markLocal pa n).slot k = s.slot k := by unfold State.markLocal; split <;> rfl
@[simp] theorem State.core_markLocal (s : State) (pa n : Nat) (k : Nat) : (s.markLocal pa n).core k = s.core k := by unfold State.markLocal; split <;> rfl
@[simp] theorem State.pair_markLocal (s : State) (pa n : Nat) (k : Nat) : (s.markLocal pa n).pair k = s.pair k := by unfold State.markLocal; split <;> rfl
@[simp] theorem State.cluster_markLocal (s : State) (pa n : Nat) (k : Nat) : (s.markLocal pa n).cluster k = s.cluster k := by unfold State.markLocal; split <;> rfl
@[simp] theorem State.gang_markLocal (s : State) (pa n : Nat) (k : Nat) : (s.markLocal pa n).gang k = s.gang k := by unfold State.markLocal; split <;> rfl
@[simp] theorem State.job_markLocal (s : State) (pa n : Nat) (k : Nat) : (s.markLocal pa n).job k = s.job k := by unfold State.markLocal; split <;> rfl
@[simp] theorem State.me_markLocal (s : State) (pa n : Nat) : (s.markLocal pa n).me = s.me := by unfold State.markLocal; split <;> rfl
@[simp] theorem State.rx_markLocal (s : State) (pa n : Nat) (r : BitVec 7) : (s.markLocal pa n).rx r = s.rx r := by unfold State.markLocal; split <;> rfl
@[simp] theorem State.coreId_markLocal (s : State) (pa n : Nat) : (s.markLocal pa n).coreId = s.coreId := by unfold State.markLocal; split <;> rfl
@[simp] theorem State.slot_writeWords (s : State) (a : Nat) (ws : List Word) (k : Nat) : (s.writeWords a ws).slot k = s.slot k := by unfold State.writeWords State.markLocal; split <;> rfl
@[simp] theorem State.core_writeWords (s : State) (a : Nat) (ws : List Word) (k : Nat) : (s.writeWords a ws).core k = s.core k := by unfold State.writeWords State.markLocal; split <;> rfl
@[simp] theorem State.pair_writeWords (s : State) (a : Nat) (ws : List Word) (k : Nat) : (s.writeWords a ws).pair k = s.pair k := by unfold State.writeWords State.markLocal; split <;> rfl
@[simp] theorem State.cluster_writeWords (s : State) (a : Nat) (ws : List Word) (k : Nat) : (s.writeWords a ws).cluster k = s.cluster k := by unfold State.writeWords State.markLocal; split <;> rfl
@[simp] theorem State.gang_writeWords (s : State) (a : Nat) (ws : List Word) (k : Nat) : (s.writeWords a ws).gang k = s.gang k := by unfold State.writeWords State.markLocal; split <;> rfl
@[simp] theorem State.job_writeWords (s : State) (a : Nat) (ws : List Word) (k : Nat) : (s.writeWords a ws).job k = s.job k := by unfold State.writeWords State.markLocal; split <;> rfl
@[simp] theorem State.me_writeWords (s : State) (a : Nat) (ws : List Word) : (s.writeWords a ws).me = s.me := by unfold State.writeWords State.markLocal; split <;> rfl
@[simp] theorem State.rx_writeWords (s : State) (a : Nat) (ws : List Word) (r : BitVec 7) : (s.writeWords a ws).rx r = s.rx r := by unfold State.writeWords State.markLocal; split <;> rfl
@[simp] theorem State.coreId_writeWords (s : State) (a : Nat) (ws : List Word) : (s.writeWords a ws).coreId = s.coreId := by unfold State.writeWords State.markLocal; split <;> rfl

end Sys2Proof.Machine
end

