-- ==== Sys2Proof/Laws/Registers.lean ====
section
/-! SUPPORT. The strand's registers: what writing one, going on and taking a flag do to a slot, and what an instruction that
passes its checks does. -/

namespace Sys2Proof.Machine

/-! ## Fields of a slot -/

@[simp] theorem Slot.live_wx (v : Slot) (r : BitVec 7) (w : Word) : (v.wx r w).live = v.live := by
  unfold Slot.wx; split <;> rfl
@[simp] theorem Slot.gang_wx (v : Slot) (r : BitVec 7) (w : Word) : (v.wx r w).gang = v.gang := by
  unfold Slot.wx; split <;> rfl
@[simp] theorem Slot.index_wx (v : Slot) (r : BitVec 7) (w : Word) : (v.wx r w).index = v.index := by
  unfold Slot.wx; split <;> rfl
@[simp] theorem Slot.n_wx (v : Slot) (r : BitVec 7) (w : Word) : (v.wx r w).n = v.n := by
  unfold Slot.wx; split <;> rfl
@[simp] theorem Slot.pc_wx (v : Slot) (r : BitVec 7) (w : Word) : (v.wx r w).pc = v.pc := by
  unfold Slot.wx; split <;> rfl
@[simp] theorem Slot.mode_wx (v : Slot) (r : BitVec 7) (w : Word) : (v.wx r w).mode = v.mode := by
  unfold Slot.wx; split <;> rfl
@[simp] theorem Slot.lr_wx (v : Slot) (r : BitVec 7) (w : Word) : (v.wx r w).lr = v.lr := by
  unfold Slot.wx; split <;> rfl
@[simp] theorem Slot.fcsr_wx (v : Slot) (r : BitVec 7) (w : Word) : (v.wx r w).fcsr = v.fcsr := by
  unfold Slot.wx; split <;> rfl
@[simp] theorem Slot.ox_wx (v : Slot) (r : BitVec 7) (w : Word) : (v.wx r w).ox = v.ox := by
  unfold Slot.wx; split <;> rfl
@[simp] theorem Slot.vt_wx (v : Slot) (r : BitVec 7) (w : Word) : (v.wx r w).vt = v.vt := by
  unfold Slot.wx; split <;> rfl
@[simp] theorem Slot.tid_wx (v : Slot) (r : BitVec 7) (w : Word) : (v.wx r w).tid = v.tid := by
  unfold Slot.wx; split <;> rfl
@[simp] theorem Slot.chk_wx (v : Slot) (r : BitVec 7) (w : Word) : (v.wx r w).chk = v.chk := by
  unfold Slot.wx; split <;> rfl
@[simp] theorem Slot.cause_wx (v : Slot) (r : BitVec 7) (w : Word) : (v.wx r w).cause = v.cause := by
  unfold Slot.wx; split <;> rfl
@[simp] theorem Slot.epc_wx (v : Slot) (r : BitVec 7) (w : Word) : (v.wx r w).epc = v.epc := by
  unfold Slot.wx; split <;> rfl
@[simp] theorem Slot.trapArea_wx (v : Slot) (r : BitVec 7) (w : Word) : (v.wx r w).trapArea = v.trapArea := by
  unfold Slot.wx; split <;> rfl
@[simp] theorem Slot.nestedCsr_wx (v : Slot) (r : BitVec 7) (w : Word) : (v.wx r w).nestedCsr = v.nestedCsr := by
  unfold Slot.wx; split <;> rfl
@[simp] theorem Slot.pending_wx (v : Slot) (r : BitVec 7) (w : Word) : (v.wx r w).pending = v.pending := by
  unfold Slot.wx; split <;> rfl
@[simp] theorem Slot.writes_wx (v : Slot) (r : BitVec 7) (w : Word) : (v.wx r w).writes = v.writes := by
  unfold Slot.wx; split <;> rfl
@[simp] theorem Slot.unacked_wx (v : Slot) (r : BitVec 7) (w : Word) : (v.wx r w).unacked = v.unacked := by
  unfold Slot.wx; split <;> rfl
@[simp] theorem Slot.wait_wx (v : Slot) (r : BitVec 7) (w : Word) : (v.wx r w).wait = v.wait := by
  unfold Slot.wx; split <;> rfl
@[simp] theorem Slot.nextTick_wx (v : Slot) (r : BitVec 7) (w : Word) : (v.wx r w).nextTick = v.nextTick := by
  unfold Slot.wx; split <;> rfl
@[simp] theorem Slot.issuedAt_wx (v : Slot) (r : BitVec 7) (w : Word) : (v.wx r w).issuedAt = v.issuedAt := by
  unfold Slot.wx; split <;> rfl
@[simp] theorem Slot.losses_wx (v : Slot) (r : BitVec 7) (w : Word) : (v.wx r w).losses = v.losses := by
  unfold Slot.wx; split <;> rfl
@[simp] theorem Slot.removed_wx (v : Slot) (r : BitVec 7) (w : Word) : (v.wx r w).removed = v.removed := by
  unfold Slot.wx; split <;> rfl
@[simp] theorem Slot.stopped_wx (v : Slot) (r : BitVec 7) (w : Word) : (v.wx r w).stopped = v.stopped := by
  unfold Slot.wx; split <;> rfl
@[simp] theorem Slot.past_wx (v : Slot) (r : BitVec 7) (w : Word) : (v.wx r w).past = v.past := by
  unfold Slot.wx; split <;> rfl
@[simp] theorem Slot.askers_wx (v : Slot) (r : BitVec 7) (w : Word) : (v.wx r w).askers = v.askers := by
  unfold Slot.wx; split <;> rfl
@[simp] theorem Slot.lastPc_wx (v : Slot) (r : BitVec 7) (w : Word) : (v.wx r w).lastPc = v.lastPc := by
  unfold Slot.wx; split <;> rfl
@[simp] theorem Slot.mxNext_wx (v : Slot) (r : BitVec 7) (w : Word) : (v.wx r w).mxNext = v.mxNext := by
  unfold Slot.wx; split <;> rfl
@[simp] theorem Slot.mxDone_wx (v : Slot) (r : BitVec 7) (w : Word) : (v.wx r w).mxDone = v.mxDone := by
  unfold Slot.wx; split <;> rfl
@[simp] theorem Slot.ucode_wx (v : Slot) (r : BitVec 7) (w : Word) : (v.wx r w).ucode = v.ucode := by
  unfold Slot.wx; split <;> rfl
@[simp] theorem Slot.uc_wx (v : Slot) (r : BitVec 7) (w : Word) : (v.wx r w).uc = v.uc := by
  unfold Slot.wx; split <;> rfl
@[simp] theorem Slot.inFlight_wx (v : Slot) (r : BitVec 7) (w : Word) : (v.wx r w).inFlight = v.inFlight := by
  unfold Slot.wx; split <;> rfl
@[simp] theorem Slot.via_wx (v : Slot) (r : BitVec 7) (w : Word) : (v.wx r w).via = v.via := by
  unfold Slot.wx; split <;> rfl
@[simp] theorem Slot.lines_wx (v : Slot) (r : BitVec 7) (w : Word) : (v.wx r w).lines = v.lines := by
  unfold Slot.wx; split <;> rfl
@[simp] theorem Slot.rep_wx (v : Slot) (r : BitVec 7) (w : Word) : (v.wx r w).rep = v.rep := by
  unfold Slot.wx; split <;> rfl
@[simp] theorem Slot.bread_wx (v : Slot) (r : BitVec 7) (w : Word) : (v.wx r w).bread = v.bread := by
  unfold Slot.wx; split <;> rfl
@[simp] theorem Slot.bput_wx (v : Slot) (r : BitVec 7) (w : Word) : (v.wx r w).bput = v.bput := by
  unfold Slot.wx; split <;> rfl
@[simp] theorem Slot.stepAt_wx (v : Slot) (r : BitVec 7) (w : Word) : (v.wx r w).stepAt = v.stepAt := by
  unfold Slot.wx; split <;> rfl
@[simp] theorem Slot.saved_wx (v : Slot) (r : BitVec 7) (w : Word) : (v.wx r w).saved = v.saved := by
  unfold Slot.wx; split <;> rfl
@[simp] theorem Slot.handlerBlock_wx (v : Slot) (r : BitVec 7) (w : Word) : (v.wx r w).handlerBlock = v.handlerBlock := by
  unfold Slot.wx; split <;> rfl
@[simp] theorem Slot.asyncTrap_wx (v : Slot) (r : BitVec 7) (w : Word) : (v.wx r w).asyncTrap = v.asyncTrap := by
  unfold Slot.wx; split <;> rfl
@[simp] theorem Slot.owed_wx (v : Slot) (r : BitVec 7) (w : Word) : (v.wx r w).owed = v.owed := by
  unfold Slot.wx; split <;> rfl
@[simp] theorem Slot.firstSlot_wx (v : Slot) (r : BitVec 7) (w : Word) : (v.wx r w).firstSlot = v.firstSlot := by
  unfold Slot.wx; split <;> rfl
@[simp] theorem Slot.save_wx (v : Slot) (r : BitVec 7) (w : Word) : (v.wx r w).save = v.save := by
  unfold Slot.wx; split <;> rfl
@[simp] theorem Slot.resume_wx (v : Slot) (r : BitVec 7) (w : Word) : (v.wx r w).resume = v.resume := by
  unfold Slot.wx; split <;> rfl
@[simp] theorem Slot.live_advance (v : Slot) (now len core : Nat) (st : BitVec 2) (n : Nat) :
    (v.advance now len core st n).live = v.live := rfl
@[simp] theorem Slot.gang_advance (v : Slot) (now len core : Nat) (st : BitVec 2) (n : Nat) :
    (v.advance now len core st n).gang = v.gang := rfl
@[simp] theorem Slot.index_advance (v : Slot) (now len core : Nat) (st : BitVec 2) (n : Nat) :
    (v.advance now len core st n).index = v.index := rfl
@[simp] theorem Slot.n_advance (v : Slot) (now len core : Nat) (st : BitVec 2) (n : Nat) :
    (v.advance now len core st n).n = v.n := rfl
@[simp] theorem Slot.x_advance (v : Slot) (now len core : Nat) (st : BitVec 2) (n : Nat) :
    (v.advance now len core st n).x = v.x := rfl
@[simp] theorem Slot.mode_advance (v : Slot) (now len core : Nat) (st : BitVec 2) (n : Nat) :
    (v.advance now len core st n).mode = v.mode := rfl
@[simp] theorem Slot.lr_advance (v : Slot) (now len core : Nat) (st : BitVec 2) (n : Nat) :
    (v.advance now len core st n).lr = v.lr := rfl
@[simp] theorem Slot.fcsr_advance (v : Slot) (now len core : Nat) (st : BitVec 2) (n : Nat) :
    (v.advance now len core st n).fcsr = v.fcsr := rfl
@[simp] theorem Slot.ox_advance (v : Slot) (now len core : Nat) (st : BitVec 2) (n : Nat) :
    (v.advance now len core st n).ox = v.ox := rfl
@[simp] theorem Slot.vt_advance (v : Slot) (now len core : Nat) (st : BitVec 2) (n : Nat) :
    (v.advance now len core st n).vt = v.vt := rfl
@[simp] theorem Slot.tid_advance (v : Slot) (now len core : Nat) (st : BitVec 2) (n : Nat) :
    (v.advance now len core st n).tid = v.tid := rfl
@[simp] theorem Slot.chk_advance (v : Slot) (now len core : Nat) (st : BitVec 2) (n : Nat) :
    (v.advance now len core st n).chk = v.chk := rfl
@[simp] theorem Slot.cause_advance (v : Slot) (now len core : Nat) (st : BitVec 2) (n : Nat) :
    (v.advance now len core st n).cause = v.cause := rfl
@[simp] theorem Slot.epc_advance (v : Slot) (now len core : Nat) (st : BitVec 2) (n : Nat) :
    (v.advance now len core st n).epc = v.epc := rfl
@[simp] theorem Slot.shadow_advance (v : Slot) (now len core : Nat) (st : BitVec 2) (n : Nat) :
    (v.advance now len core st n).shadow = v.shadow := rfl
@[simp] theorem Slot.trapArea_advance (v : Slot) (now len core : Nat) (st : BitVec 2) (n : Nat) :
    (v.advance now len core st n).trapArea = v.trapArea := rfl
@[simp] theorem Slot.nestedCsr_advance (v : Slot) (now len core : Nat) (st : BitVec 2) (n : Nat) :
    (v.advance now len core st n).nestedCsr = v.nestedCsr := rfl
@[simp] theorem Slot.pending_advance (v : Slot) (now len core : Nat) (st : BitVec 2) (n : Nat) :
    (v.advance now len core st n).pending = v.pending := rfl
@[simp] theorem Slot.writes_advance (v : Slot) (now len core : Nat) (st : BitVec 2) (n : Nat) :
    (v.advance now len core st n).writes = v.writes := rfl
@[simp] theorem Slot.unacked_advance (v : Slot) (now len core : Nat) (st : BitVec 2) (n : Nat) :
    (v.advance now len core st n).unacked = v.unacked := rfl
@[simp] theorem Slot.issuedAt_advance (v : Slot) (now len core : Nat) (st : BitVec 2) (n : Nat) :
    (v.advance now len core st n).issuedAt = v.issuedAt := rfl
@[simp] theorem Slot.losses_advance (v : Slot) (now len core : Nat) (st : BitVec 2) (n : Nat) :
    (v.advance now len core st n).losses = v.losses := rfl
@[simp] theorem Slot.removed_advance (v : Slot) (now len core : Nat) (st : BitVec 2) (n : Nat) :
    (v.advance now len core st n).removed = v.removed := rfl
@[simp] theorem Slot.stopped_advance (v : Slot) (now len core : Nat) (st : BitVec 2) (n : Nat) :
    (v.advance now len core st n).stopped = v.stopped := rfl
@[simp] theorem Slot.past_advance (v : Slot) (now len core : Nat) (st : BitVec 2) (n : Nat) :
    (v.advance now len core st n).past = v.past := rfl
@[simp] theorem Slot.askers_advance (v : Slot) (now len core : Nat) (st : BitVec 2) (n : Nat) :
    (v.advance now len core st n).askers = v.askers := rfl
@[simp] theorem Slot.lastPc_advance (v : Slot) (now len core : Nat) (st : BitVec 2) (n : Nat) :
    (v.advance now len core st n).lastPc = v.lastPc := rfl
@[simp] theorem Slot.mxNext_advance (v : Slot) (now len core : Nat) (st : BitVec 2) (n : Nat) :
    (v.advance now len core st n).mxNext = v.mxNext := rfl
@[simp] theorem Slot.mxDone_advance (v : Slot) (now len core : Nat) (st : BitVec 2) (n : Nat) :
    (v.advance now len core st n).mxDone = v.mxDone := rfl
@[simp] theorem Slot.ucode_advance (v : Slot) (now len core : Nat) (st : BitVec 2) (n : Nat) :
    (v.advance now len core st n).ucode = v.ucode := rfl
@[simp] theorem Slot.uc_advance (v : Slot) (now len core : Nat) (st : BitVec 2) (n : Nat) :
    (v.advance now len core st n).uc = v.uc := rfl
@[simp] theorem Slot.inFlight_advance (v : Slot) (now len core : Nat) (st : BitVec 2) (n : Nat) :
    (v.advance now len core st n).inFlight = v.inFlight := rfl
@[simp] theorem Slot.via_advance (v : Slot) (now len core : Nat) (st : BitVec 2) (n : Nat) :
    (v.advance now len core st n).via = v.via := rfl
@[simp] theorem Slot.rep_advance (v : Slot) (now len core : Nat) (st : BitVec 2) (n : Nat) :
    (v.advance now len core st n).rep = v.rep := rfl
@[simp] theorem Slot.bread_advance (v : Slot) (now len core : Nat) (st : BitVec 2) (n : Nat) :
    (v.advance now len core st n).bread = v.bread := rfl
@[simp] theorem Slot.bput_advance (v : Slot) (now len core : Nat) (st : BitVec 2) (n : Nat) :
    (v.advance now len core st n).bput = v.bput := rfl
@[simp] theorem Slot.stepAt_advance (v : Slot) (now len core : Nat) (st : BitVec 2) (n : Nat) :
    (v.advance now len core st n).stepAt = v.stepAt := rfl
@[simp] theorem Slot.saved_advance (v : Slot) (now len core : Nat) (st : BitVec 2) (n : Nat) :
    (v.advance now len core st n).saved = v.saved := rfl
@[simp] theorem Slot.handlerBlock_advance (v : Slot) (now len core : Nat) (st : BitVec 2) (n : Nat) :
    (v.advance now len core st n).handlerBlock = v.handlerBlock := rfl
@[simp] theorem Slot.asyncTrap_advance (v : Slot) (now len core : Nat) (st : BitVec 2) (n : Nat) :
    (v.advance now len core st n).asyncTrap = v.asyncTrap := rfl
@[simp] theorem Slot.owed_advance (v : Slot) (now len core : Nat) (st : BitVec 2) (n : Nat) :
    (v.advance now len core st n).owed = v.owed := rfl
@[simp] theorem Slot.firstSlot_advance (v : Slot) (now len core : Nat) (st : BitVec 2) (n : Nat) :
    (v.advance now len core st n).firstSlot = v.firstSlot := rfl
@[simp] theorem Slot.save_advance (v : Slot) (now len core : Nat) (st : BitVec 2) (n : Nat) :
    (v.advance now len core st n).save = v.save := rfl
@[simp] theorem Slot.resume_advance (v : Slot) (now len core : Nat) (st : BitVec 2) (n : Nat) :
    (v.advance now len core st n).resume = v.resume := rfl
@[simp] theorem Slot.live_orFlags (v : Slot) (f : BitVec 5) : (v.orFlags f).live = v.live := rfl
@[simp] theorem Slot.gang_orFlags (v : Slot) (f : BitVec 5) : (v.orFlags f).gang = v.gang := rfl
@[simp] theorem Slot.index_orFlags (v : Slot) (f : BitVec 5) : (v.orFlags f).index = v.index := rfl
@[simp] theorem Slot.n_orFlags (v : Slot) (f : BitVec 5) : (v.orFlags f).n = v.n := rfl
@[simp] theorem Slot.x_orFlags (v : Slot) (f : BitVec 5) : (v.orFlags f).x = v.x := rfl
@[simp] theorem Slot.pc_orFlags (v : Slot) (f : BitVec 5) : (v.orFlags f).pc = v.pc := rfl
@[simp] theorem Slot.mode_orFlags (v : Slot) (f : BitVec 5) : (v.orFlags f).mode = v.mode := rfl
@[simp] theorem Slot.lr_orFlags (v : Slot) (f : BitVec 5) : (v.orFlags f).lr = v.lr := rfl
@[simp] theorem Slot.ox_orFlags (v : Slot) (f : BitVec 5) : (v.orFlags f).ox = v.ox := rfl
@[simp] theorem Slot.vt_orFlags (v : Slot) (f : BitVec 5) : (v.orFlags f).vt = v.vt := rfl
@[simp] theorem Slot.tid_orFlags (v : Slot) (f : BitVec 5) : (v.orFlags f).tid = v.tid := rfl
@[simp] theorem Slot.chk_orFlags (v : Slot) (f : BitVec 5) : (v.orFlags f).chk = v.chk := rfl
@[simp] theorem Slot.cause_orFlags (v : Slot) (f : BitVec 5) : (v.orFlags f).cause = v.cause := rfl
@[simp] theorem Slot.epc_orFlags (v : Slot) (f : BitVec 5) : (v.orFlags f).epc = v.epc := rfl
@[simp] theorem Slot.shadow_orFlags (v : Slot) (f : BitVec 5) : (v.orFlags f).shadow = v.shadow := rfl
@[simp] theorem Slot.trapArea_orFlags (v : Slot) (f : BitVec 5) : (v.orFlags f).trapArea = v.trapArea := rfl
@[simp] theorem Slot.nestedCsr_orFlags (v : Slot) (f : BitVec 5) : (v.orFlags f).nestedCsr = v.nestedCsr := rfl
@[simp] theorem Slot.pending_orFlags (v : Slot) (f : BitVec 5) : (v.orFlags f).pending = v.pending := rfl
@[simp] theorem Slot.writes_orFlags (v : Slot) (f : BitVec 5) : (v.orFlags f).writes = v.writes := rfl
@[simp] theorem Slot.unacked_orFlags (v : Slot) (f : BitVec 5) : (v.orFlags f).unacked = v.unacked := rfl
@[simp] theorem Slot.wait_orFlags (v : Slot) (f : BitVec 5) : (v.orFlags f).wait = v.wait := rfl
@[simp] theorem Slot.nextTick_orFlags (v : Slot) (f : BitVec 5) : (v.orFlags f).nextTick = v.nextTick := rfl
@[simp] theorem Slot.issuedAt_orFlags (v : Slot) (f : BitVec 5) : (v.orFlags f).issuedAt = v.issuedAt := rfl
@[simp] theorem Slot.losses_orFlags (v : Slot) (f : BitVec 5) : (v.orFlags f).losses = v.losses := rfl
@[simp] theorem Slot.removed_orFlags (v : Slot) (f : BitVec 5) : (v.orFlags f).removed = v.removed := rfl
@[simp] theorem Slot.stopped_orFlags (v : Slot) (f : BitVec 5) : (v.orFlags f).stopped = v.stopped := rfl
@[simp] theorem Slot.past_orFlags (v : Slot) (f : BitVec 5) : (v.orFlags f).past = v.past := rfl
@[simp] theorem Slot.askers_orFlags (v : Slot) (f : BitVec 5) : (v.orFlags f).askers = v.askers := rfl
@[simp] theorem Slot.lastPc_orFlags (v : Slot) (f : BitVec 5) : (v.orFlags f).lastPc = v.lastPc := rfl
@[simp] theorem Slot.mxNext_orFlags (v : Slot) (f : BitVec 5) : (v.orFlags f).mxNext = v.mxNext := rfl
@[simp] theorem Slot.mxDone_orFlags (v : Slot) (f : BitVec 5) : (v.orFlags f).mxDone = v.mxDone := rfl
@[simp] theorem Slot.ucode_orFlags (v : Slot) (f : BitVec 5) : (v.orFlags f).ucode = v.ucode := rfl
@[simp] theorem Slot.uc_orFlags (v : Slot) (f : BitVec 5) : (v.orFlags f).uc = v.uc := rfl
@[simp] theorem Slot.inFlight_orFlags (v : Slot) (f : BitVec 5) : (v.orFlags f).inFlight = v.inFlight := rfl
@[simp] theorem Slot.via_orFlags (v : Slot) (f : BitVec 5) : (v.orFlags f).via = v.via := rfl
@[simp] theorem Slot.lines_orFlags (v : Slot) (f : BitVec 5) : (v.orFlags f).lines = v.lines := rfl
@[simp] theorem Slot.rep_orFlags (v : Slot) (f : BitVec 5) : (v.orFlags f).rep = v.rep := rfl
@[simp] theorem Slot.bread_orFlags (v : Slot) (f : BitVec 5) : (v.orFlags f).bread = v.bread := rfl
@[simp] theorem Slot.bput_orFlags (v : Slot) (f : BitVec 5) : (v.orFlags f).bput = v.bput := rfl
@[simp] theorem Slot.stepAt_orFlags (v : Slot) (f : BitVec 5) : (v.orFlags f).stepAt = v.stepAt := rfl
@[simp] theorem Slot.saved_orFlags (v : Slot) (f : BitVec 5) : (v.orFlags f).saved = v.saved := rfl
@[simp] theorem Slot.handlerBlock_orFlags (v : Slot) (f : BitVec 5) : (v.orFlags f).handlerBlock = v.handlerBlock := rfl
@[simp] theorem Slot.asyncTrap_orFlags (v : Slot) (f : BitVec 5) : (v.orFlags f).asyncTrap = v.asyncTrap := rfl
@[simp] theorem Slot.owed_orFlags (v : Slot) (f : BitVec 5) : (v.orFlags f).owed = v.owed := rfl
@[simp] theorem Slot.firstSlot_orFlags (v : Slot) (f : BitVec 5) : (v.orFlags f).firstSlot = v.firstSlot := rfl
@[simp] theorem Slot.save_orFlags (v : Slot) (f : BitVec 5) : (v.orFlags f).save = v.save := rfl
@[simp] theorem Slot.resume_orFlags (v : Slot) (f : BitVec 5) : (v.orFlags f).resume = v.resume := rfl
@[simp] theorem Slot.pc_advance (v : Slot) (now len core : Nat) (st : BitVec 2) (n : Nat) :
    (v.advance now len core st n).pc = v.pc + BitVec.ofNat 64 n := rfl
@[simp] theorem Slot.wait_advance (v : Slot) (now len core : Nat) (st : BitVec 2) (n : Nat) :
    (v.advance now len core st n).wait = .none := rfl
@[simp] theorem Slot.nextTick_advance (v : Slot) (now len core : Nat) (st : BitVec 2) (n : Nat) :
    (v.advance now len core st n).nextTick = now + 16 * (1 + st.toNat) * tickLen core + len := rfl
@[simp] theorem Slot.orFlags_zero (v : Slot) : v.orFlags 0 = v := by
  unfold Slot.orFlags; simp

/-! ## General registers -/

theorem Slot.rx_congr {v w : Slot} (h : v.mode = w.mode) (hx : v.x = w.x) (hs : v.shadow = w.shadow) (r : BitVec 7) :
    v.rx r = w.rx r := by
  unfold Slot.rx; rw [h, hx, hs]

@[simp] theorem Slot.rx_advance (v : Slot) (now len core : Nat) (st : BitVec 2) (n : Nat) (r : BitVec 7) :
    (v.advance now len core st n).rx r = v.rx r := rfl
@[simp] theorem Slot.rx_orFlags (v : Slot) (f : BitVec 5) (r : BitVec 7) : (v.orFlags f).rx r = v.rx r := rfl

@[simp] theorem Slot.rx_wx_same (v : Slot) (d : BitVec 7) (w : Word) : (v.wx d w).rx d = w := by
  unfold Slot.rx
  rw [Slot.mode_wx]
  split <;> simp_all [Slot.wx]

/-- A write of one register of the window leaves the others. -/
theorem Slot.rx_wx_other (v : Slot) {d r : BitVec 7} (w : Word) (hd : v.regOk d.toNat = true) (hr : v.regOk r.toNat = true)
    (h : r ≠ d) : (v.wx d w).rx r = v.rx r := by
  have hne : d.toNat ≠ r.toNat := fun e => h (BitVec.eq_of_toNat_eq e.symm)
  unfold Slot.regOk at hd hr
  unfold Slot.rx
  rw [Slot.mode_wx]
  split
  · next hm =>
    simp only [hm, if_true, decide_eq_true_eq] at hd hr
    simp only [Slot.wx, hm, if_true]
    rw [Vector.getElem_set_ne]
    omega
  · next hm =>
    simp only [Slot.wx, hm]
    simp only [Bool.false_eq_true, if_false]
    rw [Vector.getElem_set_ne]
    exact hne

@[simp] theorem State.me_wx (s : State) (r : BitVec 7) (w : Word) : (s.wx r w).me = s.me.wx r w := by simp [State.wx]

/-! ## Retirement and landing -/

@[simp] theorem State.base_setMe (s : State) (v : Slot) : (s.setMe v).base = v.issuedAt.getD s.now := by
  simp [State.base]
@[simp] theorem State.base_schedule (s : State) (t : Nat) (e : Ev) : (s.schedule t e).base = s.base := rfl
@[simp] theorem State.base_setCore (s : State) (c : Nat) (v : Core) : (s.setCore c v).base = s.base := rfl
@[simp] theorem State.base_setGang (s : State) (g : Nat) (v : Gang) : (s.setGang g v).base = s.base := rfl
@[simp] theorem State.base_setPair (s : State) (p : Nat) (v : Pair) : (s.setPair p v).base = s.base := rfl
@[simp] theorem State.base_setCluster (s : State) (c : Nat) (v : Cluster) : (s.setCluster c v).base = s.base := rfl
@[simp] theorem State.base_setJob (s : State) (j : Nat) (v : Job) : (s.setJob j v).base = s.base := rfl
@[simp] theorem State.base_wx (s : State) (r : BitVec 7) (w : Word) : (s.wx r w).base = s.base := by
  simp [State.base, State.wx]

@[simp] theorem State.me_retire (s : State) (n : Nat) (st : BitVec 2) :
    (s.retire n st).me = s.me.advance s.base 0 s.coreId st n := by simp [State.retire]
@[simp] theorem State.me_retireTo (s : State) (pc : Word) (st : BitVec 2) :
    (s.retireTo pc st).me = { s.me with pc := pc, wait := .none, nextTick := s.base + 16 * (1 + st.toNat) * tickLen s.coreId } := by
  simp [State.retireTo]

/-- A result that lands before the strand can issue again is in its register at once. -/
theorem State.land_now (s : State) (d : BitVec 7) (v : Word) {lat : Nat} {st : BitVec 2} (f : BitVec 5)
    (h : lat ≤ 16 * (1 + st.toNat)) :
    s.land d v lat st f = s.setMe { (s.me.wx d v).orFlags f with
      writes := s.me.writes.map fun w => w.supersede s.me.mode d (s.now + lat * tickLen s.coreId) } := by
  simp [State.land, h]

/-- A later result is pending, and its landing is due. -/
theorem State.land_later (s : State) (d : BitVec 7) (v : Word) {lat : Nat} {st : BitVec 2} (f : BitVec 5)
    (h : 16 * (1 + st.toNat) < lat) :
    s.land d v lat st f = (s.setMe { s.me with writes := s.me.writes ++ [{ at_ := s.now + lat * tickLen s.coreId, reg := some d, fw := s.me.mode, value := v, flags := f }] }).schedule
      (s.now + lat * tickLen s.coreId) (.delayedRegisterWrite s.coreId) := by
  simp [State.land, Nat.not_le.mpr h]

/-! ## Checks passed -/

/-- The effect of an instruction whose registers lie in the window and are settled. -/
theorem State.guarded_ok (s : State) (regs : List (BitVec 7)) (k : State → State) (h : s.me.badReg regs = none)
    (h' : s.me.earlyReg regs = none) : s.guarded regs k = k s := by
  simp [State.guarded, h, h']

/-- A field outside the window traps REGWIN with nothing done. -/
theorem State.guarded_regwin (s : State) (regs : List (BitVec 7)) (k : State → State) {r : BitVec 7}
    (h : s.me.badReg regs = some r) : s.guarded regs k = s.trapHere { cause := .regwin, detail := r.toNat } := by
  simp [State.guarded, h]

/-- A register used before its pending result lands traps STALL_SHORT with nothing done. -/
theorem State.guarded_early (s : State) (regs : List (BitVec 7)) (k : State → State) {r : BitVec 7}
    (h : s.me.badReg regs = none) (h' : s.me.earlyReg regs = some r) :
    s.guarded regs k = s.trapHere { cause := .stallShort, detail := r.toNat } := by
  simp [State.guarded, h, h']

theorem Slot.regOk_of_badReg {v : Slot} {regs : List (BitVec 7)} (h : v.badReg regs = none) {r : BitVec 7} (hr : r ∈ regs) :
    v.regOk r.toNat = true := by
  simp only [Slot.badReg, List.find?_eq_none] at h
  simpa using h r hr

end Sys2Proof.Machine
end

