-- ==== Sys2Proof/Laws/Effects.lean ====
section
/-! SUPPORT. What the shared effects of register instructions do, once for every instruction built on them. -/

namespace Sys2Proof.Machine

/-! ## The agenda -/

@[simp] theorem mem_agendaInsert (l : List (Nat × Ev)) (t : Nat) (e : Ev) : (t, e) ∈ agendaInsert l t e := by
  induction l with
  | nil => simp [agendaInsert]
  | cons c r ih => obtain ⟨k, v⟩ := c; simp only [agendaInsert]; split <;> simp [ih]

theorem mem_agendaInsert_of_mem (l : List (Nat × Ev)) (t : Nat) (e : Ev) {x : Nat × Ev} (h : x ∈ l) :
    x ∈ agendaInsert l t e := by
  induction l with
  | nil => cases h
  | cons c r ih =>
    obtain ⟨k, v⟩ := c
    simp only [agendaInsert]
    split
    · simp [h]
    · rcases List.mem_cons.mp h with rfl | h
      · simp
      · simp [ih h]

@[simp] theorem State.due_schedule (s : State) (t : Nat) (e : Ev) : (t, e) ∈ (s.schedule t e).agenda := mem_agendaInsert _ _ _
@[simp] theorem State.due_soon (s : State) (e : Ev) : (s.now, e) ∈ (s.soon e).agenda := mem_agendaInsert _ _ _

end Sys2Proof.Machine

namespace Sys2Proof.Claims

open Sys2Proof.Machine

theorem Settled.guarded {s : State} {regs : List (BitVec 7)} (h : Settled s regs) (k : State → State) :
    s.guarded regs k = k s := s.guarded_ok regs k h.1 h.2

theorem Settled.regOk {s : State} {regs : List (BitVec 7)} (h : Settled s regs) {r : BitVec 7} (hr : r ∈ regs) :
    s.me.regOk r.toNat = true := Slot.regOk_of_badReg h.1 hr

theorem OnlyMe.setMe (s : State) (v : Slot) : OnlyMe s (s.setMe v) :=
  ⟨rfl, fun _ h => s.slot_setMe_other v h⟩

theorem OnlyMe.trans {s t u : State} (h : OnlyMe s t) (h' : OnlyMe t u) : OnlyMe s u := by
  obtain ⟨h1, h2⟩ := h
  obtain ⟨h3, h4⟩ := h'
  have hc : t.cur = s.cur := by rw [h1]
  refine ⟨?_, fun id hid => (h4 id (hc ▸ hid)).trans (h2 id hid)⟩
  rw [h3]; conv_lhs => rw [h1]

theorem OnlyMe.retire (s : State) (n : Nat) (st : BitVec 2) : OnlyMe s (s.retire n st) := OnlyMe.setMe s _
theorem OnlyMe.retireTo (s : State) (pc : Word) (st : BitVec 2) : OnlyMe s (s.retireTo pc st) := OnlyMe.setMe s _

/-- A fixed-latency instruction whose result lands before the strand's next issue, with its checks passed. -/
theorem Form.completes_alu {s : State} {bytes lat : Nat} {regs : List (BitVec 7)} {d : BitVec 7} {st : BitVec 2}
    {v : State → Word} {i : Instr} (hi : exec i s = .next (s.alu bytes lat regs d st v))
    (hl : lat ≤ 16 * (1 + st.toNat)) (hd : d ∈ regs) (h : Settled s regs) :
    Form.Completes { instr := i, regs := regs, dest := d, value := v s, bytes := bytes, st := st } s := by
  refine ⟨_, hi, ?_, ?_, ?_, ?_⟩
  all_goals simp only [State.alu, h.guarded, State.land_now _ _ _ _ hl, Slot.orFlags_zero]
  · refine ⟨?_, fun r hr hne => ?_⟩
    · simp only [State.rx, State.me_retire, State.me_setMe, Slot.rx_advance]
      exact s.me.rx_wx_same d (v s)
    · simp only [State.rx, State.me_retire, State.me_setMe, Slot.rx_advance]
      exact s.me.rx_wx_other (v s) (h.regOk hd) hr hne
  · simp [GoesOn, State.base]
  · unfold KeepsStrand Slot.wx
    split <;> simp [Slot.advance]
  · exact OnlyMe.trans (OnlyMe.setMe _ _) (OnlyMe.retire _ _ _)

end Sys2Proof.Claims
end

