-- ==== Sys2Proof/Laws/Memory.lean ====
section
/-! SUPPORT. Memory: what a write leaves at every address, and that every operation keeps the canonical form. -/

namespace Sys2Proof.Machine

/-! ## The canonical form -/

theorem memWfFrom_weaken {lo lo' : Nat} (m : List Host.Cell) (h : lo' ≤ lo) (w : memWfFrom lo m = true) :
    memWfFrom lo' m = true := by
  cases m with
  | nil => rfl
  | cons c r =>
    obtain ⟨k, v⟩ := c
    simp only [memWfFrom, Bool.and_eq_true, decide_eq_true_eq] at w ⊢
    exact ⟨⟨by omega, w.1.2⟩, w.2⟩

theorem memWfFrom_filter (p : Host.Cell → Bool) (m : List Host.Cell) :
    ∀ lo, memWfFrom lo m = true → memWfFrom lo (m.filter p) = true := by
  induction m with
  | nil => intro lo _; rfl
  | cons c r ih =>
    intro lo w
    obtain ⟨k, v⟩ := c
    simp only [memWfFrom, Bool.and_eq_true, decide_eq_true_eq] at w
    rw [List.filter_cons]
    split
    · simp only [memWfFrom, Bool.and_eq_true, decide_eq_true_eq]
      exact ⟨w.1, ih _ w.2⟩
    · exact memWfFrom_weaken _ (by omega) (ih _ w.2)

theorem memWfFrom_insert (a : Nat) (b : Byte) (hb : b ≠ 0) (m : List Host.Cell) :
    ∀ lo, lo ≤ a → memWfFrom lo m = true → (∀ c ∈ m, c.1 ≠ a) → memWfFrom lo (cellInsert m a b) = true := by
  induction m with
  | nil => intro lo h _ _; simpa [cellInsert, memWfFrom, h] using hb
  | cons c r ih =>
    intro lo h w hm
    obtain ⟨k, v⟩ := c
    simp only [memWfFrom, Bool.and_eq_true, decide_eq_true_eq] at w
    have hk : k ≠ a := hm (k, v) (by simp)
    simp only [cellInsert]
    split
    · simp only [memWfFrom, Bool.and_eq_true, decide_eq_true_eq]
      exact ⟨⟨h, by simpa using hb⟩, ⟨by omega, w.1.2⟩, w.2⟩
    · simp only [memWfFrom, Bool.and_eq_true, decide_eq_true_eq]
      exact ⟨w.1, ih _ (by omega) w.2 (fun c hc => hm c (by simp [hc]))⟩

/-- Writing a byte keeps the canonical form. -/
theorem memSet_wf (m : List Host.Cell) (a : Nat) (b : Byte) (w : Memory.wf m = true) : Memory.wf (memSet m a b) = true := by
  unfold Memory.wf at *
  simp only [memSet]
  split
  · exact memWfFrom_filter _ _ _ w
  · next h =>
    refine memWfFrom_insert a b (by simpa using h) _ _ (by omega) (memWfFrom_filter _ _ _ w) ?_
    intro c hc
    simpa using (List.mem_filter.mp hc).2

/-- Writing a number keeps the canonical form. -/
theorem memWrite_wf (n : Nat) : ∀ (m : List Host.Cell) (a v : Nat), Memory.wf m = true →
    Memory.wf (memWrite m a v n) = true := by
  induction n with
  | zero => intro m a v w; exact w
  | succ n ih => intro m a v w; exact ih _ _ _ (memSet_wf _ _ _ w)

/-- Writing bytes keeps the canonical form. -/
theorem memPut_wf (bs : List Byte) : ∀ (m : List Host.Cell) (a : Nat), Memory.wf m = true →
    Memory.wf (memPut m a bs) = true := by
  induction bs with
  | nil => intro m a w; exact w
  | cons b r ih => intro m a w; exact ih _ _ (memSet_wf _ _ _ w)

/-- Writing words keeps the canonical form. -/
theorem memWords_wf (ws : List Word) : ∀ (m : List Host.Cell) (a : Nat), Memory.wf m = true →
    Memory.wf (memWords m a ws) = true := by
  induction ws with
  | nil => intro m a w; exact w
  | cons b r ih => intro m a w; exact ih _ _ (memWrite_wf _ _ _ _ w)

theorem writeWords_wf (s : State) (a : Nat) (ws : List Word) (w : Memory.wf s.mem = true) :
    Memory.wf (s.writeWords a ws).mem = true := memWords_wf ws _ _ w

/-! ## What a byte reads after a write -/

theorem memByte_filter_other (m : List Host.Cell) {a x : Nat} (h : x ≠ a) :
    memByte (m.filter (fun c => c.1 != a)) x = memByte m x := by
  induction m with
  | nil => rfl
  | cons c r ih =>
    obtain ⟨k, v⟩ := c
    rw [List.filter_cons]
    by_cases hk : k = a
    · subst hk; simp [memByte, h.symm, ih]
    · simp [hk, memByte, ih]

theorem memByte_filter_same (m : List Host.Cell) (a : Nat) : memByte (m.filter (fun c => c.1 != a)) a = 0 := by
  induction m with
  | nil => rfl
  | cons c r ih =>
    obtain ⟨k, v⟩ := c
    rw [List.filter_cons]
    by_cases hk : k = a
    · subst hk; simp [ih]
    · simp [hk, memByte, ih]

theorem memByte_insert_other (m : List Host.Cell) {a x : Nat} (b : Byte) (h : x ≠ a) :
    memByte (cellInsert m a b) x = memByte m x := by
  induction m with
  | nil => simp [cellInsert, memByte, h.symm]
  | cons c r ih =>
    obtain ⟨k, v⟩ := c
    simp only [cellInsert]
    split
    · simp [memByte, h.symm]
    · simp [memByte, ih]

theorem memByte_insert_same (m : List Host.Cell) (a : Nat) (b : Byte) (h : ∀ c ∈ m, c.1 ≠ a) :
    memByte (cellInsert m a b) a = b := by
  induction m with
  | nil => simp [cellInsert, memByte]
  | cons c r ih =>
    obtain ⟨k, v⟩ := c
    have hk : k ≠ a := h (k, v) (by simp)
    simp only [cellInsert]
    split
    · simp [memByte]
    · simp [memByte, hk, ih (fun c hc => h c (by simp [hc]))]

@[simp] theorem memByte_memSet_same (m : List Host.Cell) (a : Nat) (b : Byte) : memByte (memSet m a b) a = b := by
  simp only [memSet]
  split
  · next h => rw [memByte_filter_same, h]
  · exact memByte_insert_same _ _ _ (fun c hc => by simpa using (List.mem_filter.mp hc).2)

theorem memByte_memSet_other (m : List Host.Cell) {a x : Nat} (b : Byte) (h : x ≠ a) :
    memByte (memSet m a b) x = memByte m x := by
  simp only [memSet]
  split
  · exact memByte_filter_other _ h
  · rw [memByte_insert_other _ _ h, memByte_filter_other _ h]

/-- A write of n bytes leaves every other byte. -/
theorem memByte_memWrite_other (n : Nat) : ∀ (m : List Host.Cell) (a v x : Nat), (x < a ∨ a + n ≤ x) →
    memByte (memWrite m a v n) x = memByte m x := by
  induction n with
  | zero => intro m a v x _; rfl
  | succ n ih =>
    intro m a v x h
    simp only [memWrite]
    rw [ih _ _ _ _ (by omega), memByte_memSet_other _ _ (by omega)]

/-- A write of bytes leaves every other byte. -/
theorem memByte_memPut_other (bs : List Byte) : ∀ (m : List Host.Cell) (a x : Nat), (x < a ∨ a + bs.length ≤ x) →
    memByte (memPut m a bs) x = memByte m x := by
  induction bs with
  | nil => intro m a x _; rfl
  | cons b r ih =>
    intro m a x h
    simp only [List.length_cons] at h
    simp only [memPut]
    rw [ih _ _ _ (by omega), memByte_memSet_other _ _ (by omega)]

/-- A write of words leaves every other byte. -/
theorem memByte_memWords_other (ws : List Word) : ∀ (m : List Host.Cell) (a x : Nat), (x < a ∨ a + 8 * ws.length ≤ x) →
    memByte (memWords m a ws) x = memByte m x := by
  induction ws with
  | nil => intro m a x _; rfl
  | cons b r ih =>
    intro m a x h
    simp only [List.length_cons] at h
    simp only [memWords]
    rw [ih _ _ _ (by omega), memByte_memWrite_other _ _ _ _ _ (by omega)]

theorem memRead_congr (n : Nat) : ∀ (m m' : List Host.Cell) (a : Nat), (∀ x, a ≤ x → x < a + n → memByte m x = memByte m' x) →
    memRead m a n = memRead m' a n := by
  induction n with
  | zero => intro m m' a _; rfl
  | succ n ih =>
    intro m m' a h
    simp only [memRead]
    rw [h a (by omega) (by omega), ih m m' (a + 1) (fun x h1 h2 => h x (by omega) (by omega))]

/-- A number written is read back. -/
theorem memRead_memWrite (n : Nat) : ∀ (m : List Host.Cell) (a v : Nat), memRead (memWrite m a v n) a n = v % 256 ^ n := by
  induction n with
  | zero => intro m a v; simp [memRead, Nat.mod_one]
  | succ n ih =>
    intro m a v
    simp only [memRead, memWrite]
    rw [ih, memByte_memWrite_other _ _ _ _ _ (by omega), memByte_memSet_same]
    simp only [BitVec.toNat_ofNat]
    rw [show (2 : Nat) ^ 8 = 256 from rfl, Nat.pow_succ', Nat.mod_mul]

/-- A read of other bytes is not changed by a write. -/
theorem memRead_memWrite_other (n k : Nat) (m : List Host.Cell) (a v x : Nat) (h : x + k ≤ a ∨ a + n ≤ x) :
    memRead (memWrite m a v n) x k = memRead m x k :=
  memRead_congr _ _ _ _ (fun y h1 h2 => memByte_memWrite_other _ _ _ _ _ (by omega))

end Sys2Proof.Machine
end

