-- ==== Sys2Proof/Laws/PerInstr.lean ====
section
/-! SUPPORT. Per instruction: the encoder gives a word exactly to the rows that are words, and the word fits the bytes that its
first bit announces (01 R13, R15, R16). -/

namespace Sys2Proof.Laws

open Sys2Proof

/-- The encoder gives the instruction a word exactly if its row is one, and the word fits 4 bytes where its bit 0 is 1 and 2 where it is 0. -/
def Words.Statement (i : Instr) : Prop :=
  (encodeNat i).isSome = i.isWord ∧ ∀ w, encodeNat i = some w → w < 2 ^ (8 * wordBytes w)

theorem no_word {i : Instr} (h : encodeNat i = none) (k : i.isWord = false) : Words.Statement i := by
  simp [Words.Statement, h, k]

theorem long_word {i : Instr} {w : Nat} (h : encodeNat i = some w) (k : i.isWord = true) (odd : w % 2 = 1) (lt : w < 2 ^ 32) :
    Words.Statement i := by
  refine ⟨by simp [h, k], fun v hv => ?_⟩
  cases h.symm.trans hv
  simpa [wordBytes, isLong, odd] using lt

theorem short_word {i : Instr} {w : Nat} (h : encodeNat i = some w) (k : i.isWord = true) (even : w % 2 = 0) (lt : w < 2 ^ 16) :
    Words.Statement i := by
  refine ⟨by simp [h, k], fun v hv => ?_⟩
  cases h.symm.trans hv
  simpa [wordBytes, isLong, even] using lt

theorem Words.add (d : BitVec 7) (a : BitVec 7) (b : BitVec 7) (st : BitVec 2) : Words.Statement (.add d a b st) := by
  have := d.isLt; have := a.isLt; have := b.isLt; have := st.isLt
  exact long_word rfl rfl (by simp only [packL3]; omega) (by simp only [packL3]; omega)
theorem Words.sub (d : BitVec 7) (a : BitVec 7) (b : BitVec 7) (st : BitVec 2) : Words.Statement (.sub d a b st) := by
  have := d.isLt; have := a.isLt; have := b.isLt; have := st.isLt
  exact long_word rfl rfl (by simp only [packL3]; omega) (by simp only [packL3]; omega)
theorem Words.mul (d : BitVec 7) (a : BitVec 7) (b : BitVec 7) (st : BitVec 2) : Words.Statement (.mul d a b st) := by
  have := d.isLt; have := a.isLt; have := b.isLt; have := st.isLt
  exact long_word rfl rfl (by simp only [packL3]; omega) (by simp only [packL3]; omega)
theorem Words.mulh (d : BitVec 7) (a : BitVec 7) (b : BitVec 7) (st : BitVec 2) : Words.Statement (.mulh d a b st) := by
  have := d.isLt; have := a.isLt; have := b.isLt; have := st.isLt
  exact long_word rfl rfl (by simp only [packL3]; omega) (by simp only [packL3]; omega)
theorem Words.mulhu (d : BitVec 7) (a : BitVec 7) (b : BitVec 7) (st : BitVec 2) : Words.Statement (.mulhu d a b st) := by
  have := d.isLt; have := a.isLt; have := b.isLt; have := st.isLt
  exact long_word rfl rfl (by simp only [packL3]; omega) (by simp only [packL3]; omega)
theorem Words.div (d : BitVec 7) (a : BitVec 7) (b : BitVec 7) (st : BitVec 2) : Words.Statement (.div d a b st) := by
  have := d.isLt; have := a.isLt; have := b.isLt; have := st.isLt
  exact long_word rfl rfl (by simp only [packL3]; omega) (by simp only [packL3]; omega)
theorem Words.divu (d : BitVec 7) (a : BitVec 7) (b : BitVec 7) (st : BitVec 2) : Words.Statement (.divu d a b st) := by
  have := d.isLt; have := a.isLt; have := b.isLt; have := st.isLt
  exact long_word rfl rfl (by simp only [packL3]; omega) (by simp only [packL3]; omega)
theorem Words.rem (d : BitVec 7) (a : BitVec 7) (b : BitVec 7) (st : BitVec 2) : Words.Statement (.rem d a b st) := by
  have := d.isLt; have := a.isLt; have := b.isLt; have := st.isLt
  exact long_word rfl rfl (by simp only [packL3]; omega) (by simp only [packL3]; omega)
theorem Words.remu (d : BitVec 7) (a : BitVec 7) (b : BitVec 7) (st : BitVec 2) : Words.Statement (.remu d a b st) := by
  have := d.isLt; have := a.isLt; have := b.isLt; have := st.isLt
  exact long_word rfl rfl (by simp only [packL3]; omega) (by simp only [packL3]; omega)
theorem Words.min (d : BitVec 7) (a : BitVec 7) (b : BitVec 7) (st : BitVec 2) : Words.Statement (.min d a b st) := by
  have := d.isLt; have := a.isLt; have := b.isLt; have := st.isLt
  exact long_word rfl rfl (by simp only [packL3]; omega) (by simp only [packL3]; omega)
theorem Words.max (d : BitVec 7) (a : BitVec 7) (b : BitVec 7) (st : BitVec 2) : Words.Statement (.max d a b st) := by
  have := d.isLt; have := a.isLt; have := b.isLt; have := st.isLt
  exact long_word rfl rfl (by simp only [packL3]; omega) (by simp only [packL3]; omega)
theorem Words.minu (d : BitVec 7) (a : BitVec 7) (b : BitVec 7) (st : BitVec 2) : Words.Statement (.minu d a b st) := by
  have := d.isLt; have := a.isLt; have := b.isLt; have := st.isLt
  exact long_word rfl rfl (by simp only [packL3]; omega) (by simp only [packL3]; omega)
theorem Words.maxu (d : BitVec 7) (a : BitVec 7) (b : BitVec 7) (st : BitVec 2) : Words.Statement (.maxu d a b st) := by
  have := d.isLt; have := a.isLt; have := b.isLt; have := st.isLt
  exact long_word rfl rfl (by simp only [packL3]; omega) (by simp only [packL3]; omega)
theorem Words.and (d : BitVec 7) (a : BitVec 7) (b : BitVec 7) (st : BitVec 2) : Words.Statement (.and d a b st) := by
  have := d.isLt; have := a.isLt; have := b.isLt; have := st.isLt
  exact long_word rfl rfl (by simp only [packL3]; omega) (by simp only [packL3]; omega)
theorem Words.or (d : BitVec 7) (a : BitVec 7) (b : BitVec 7) (st : BitVec 2) : Words.Statement (.or d a b st) := by
  have := d.isLt; have := a.isLt; have := b.isLt; have := st.isLt
  exact long_word rfl rfl (by simp only [packL3]; omega) (by simp only [packL3]; omega)
theorem Words.xor (d : BitVec 7) (a : BitVec 7) (b : BitVec 7) (st : BitVec 2) : Words.Statement (.xor d a b st) := by
  have := d.isLt; have := a.isLt; have := b.isLt; have := st.isLt
  exact long_word rfl rfl (by simp only [packL3]; omega) (by simp only [packL3]; omega)
theorem Words.andn (d : BitVec 7) (a : BitVec 7) (b : BitVec 7) (st : BitVec 2) : Words.Statement (.andn d a b st) := by
  have := d.isLt; have := a.isLt; have := b.isLt; have := st.isLt
  exact long_word rfl rfl (by simp only [packL3]; omega) (by simp only [packL3]; omega)
theorem Words.shl (d : BitVec 7) (a : BitVec 7) (b : BitVec 7) (st : BitVec 2) : Words.Statement (.shl d a b st) := by
  have := d.isLt; have := a.isLt; have := b.isLt; have := st.isLt
  exact long_word rfl rfl (by simp only [packL3]; omega) (by simp only [packL3]; omega)
theorem Words.shr (d : BitVec 7) (a : BitVec 7) (b : BitVec 7) (st : BitVec 2) : Words.Statement (.shr d a b st) := by
  have := d.isLt; have := a.isLt; have := b.isLt; have := st.isLt
  exact long_word rfl rfl (by simp only [packL3]; omega) (by simp only [packL3]; omega)
theorem Words.sar (d : BitVec 7) (a : BitVec 7) (b : BitVec 7) (st : BitVec 2) : Words.Statement (.sar d a b st) := by
  have := d.isLt; have := a.isLt; have := b.isLt; have := st.isLt
  exact long_word rfl rfl (by simp only [packL3]; omega) (by simp only [packL3]; omega)
theorem Words.rol (d : BitVec 7) (a : BitVec 7) (b : BitVec 7) (st : BitVec 2) : Words.Statement (.rol d a b st) := by
  have := d.isLt; have := a.isLt; have := b.isLt; have := st.isLt
  exact long_word rfl rfl (by simp only [packL3]; omega) (by simp only [packL3]; omega)
theorem Words.seq (d : BitVec 7) (a : BitVec 7) (b : BitVec 7) (st : BitVec 2) : Words.Statement (.seq d a b st) := by
  have := d.isLt; have := a.isLt; have := b.isLt; have := st.isLt
  exact long_word rfl rfl (by simp only [packL3]; omega) (by simp only [packL3]; omega)
theorem Words.sne (d : BitVec 7) (a : BitVec 7) (b : BitVec 7) (st : BitVec 2) : Words.Statement (.sne d a b st) := by
  have := d.isLt; have := a.isLt; have := b.isLt; have := st.isLt
  exact long_word rfl rfl (by simp only [packL3]; omega) (by simp only [packL3]; omega)
theorem Words.slt (d : BitVec 7) (a : BitVec 7) (b : BitVec 7) (st : BitVec 2) : Words.Statement (.slt d a b st) := by
  have := d.isLt; have := a.isLt; have := b.isLt; have := st.isLt
  exact long_word rfl rfl (by simp only [packL3]; omega) (by simp only [packL3]; omega)
theorem Words.sltu (d : BitVec 7) (a : BitVec 7) (b : BitVec 7) (st : BitVec 2) : Words.Statement (.sltu d a b st) := by
  have := d.isLt; have := a.isLt; have := b.isLt; have := st.isLt
  exact long_word rfl rfl (by simp only [packL3]; omega) (by simp only [packL3]; omega)
theorem Words.sel (d : BitVec 7) (a : BitVec 7) (b : BitVec 7) (st : BitVec 2) : Words.Statement (.sel d a b st) := by
  have := d.isLt; have := a.isLt; have := b.isLt; have := st.isLt
  exact long_word rfl rfl (by simp only [packL3]; omega) (by simp only [packL3]; omega)
theorem Words.bfx (d : BitVec 7) (a : BitVec 7) (b : BitVec 7) (st : BitVec 2) : Words.Statement (.bfx d a b st) := by
  have := d.isLt; have := a.isLt; have := b.isLt; have := st.isLt
  exact long_word rfl rfl (by simp only [packL3]; omega) (by simp only [packL3]; omega)
theorem Words.bfi (d : BitVec 7) (a : BitVec 7) (b : BitVec 7) (st : BitVec 2) : Words.Statement (.bfi d a b st) := by
  have := d.isLt; have := a.isLt; have := b.isLt; have := st.isLt
  exact long_word rfl rfl (by simp only [packL3]; omega) (by simp only [packL3]; omega)
theorem Words.addsh (d : BitVec 7) (a : BitVec 7) (b : BitVec 7) (k : BitVec 2) (st : BitVec 2) : Words.Statement (.addsh d a b k st) := by
  have := d.isLt; have := a.isLt; have := b.isLt; have := k.isLt; have := st.isLt
  exact long_word rfl rfl (by simp only [packL3]; omega) (by simp only [packL3]; omega)
theorem Words.sadd (d : BitVec 7) (a : BitVec 4) (b : BitVec 7) (st : BitVec 2) : Words.Statement (.sadd d a b st) := by
  have := d.isLt; have := a.isLt; have := b.isLt; have := st.isLt
  exact long_word rfl rfl (by simp only [packL3]; omega) (by simp only [packL3]; omega)
theorem Words.shli (d : BitVec 7) (a : BitVec 7) (n : BitVec 6) (st : BitVec 2) : Words.Statement (.shli d a n st) := by
  have := d.isLt; have := a.isLt; have := n.isLt; have := st.isLt
  exact long_word rfl rfl (by simp only [packL3]; omega) (by simp only [packL3]; omega)
theorem Words.shri (d : BitVec 7) (a : BitVec 7) (n : BitVec 6) (st : BitVec 2) : Words.Statement (.shri d a n st) := by
  have := d.isLt; have := a.isLt; have := n.isLt; have := st.isLt
  exact long_word rfl rfl (by simp only [packL3]; omega) (by simp only [packL3]; omega)
theorem Words.sari (d : BitVec 7) (a : BitVec 7) (n : BitVec 6) (st : BitVec 2) : Words.Statement (.sari d a n st) := by
  have := d.isLt; have := a.isLt; have := n.isLt; have := st.isLt
  exact long_word rfl rfl (by simp only [packL3]; omega) (by simp only [packL3]; omega)
theorem Words.mov (d : BitVec 7) (a : BitVec 7) (st : BitVec 2) : Words.Statement (.mov d a st) := by
  have := d.isLt; have := a.isLt; have := st.isLt
  exact long_word rfl rfl (by simp only [packL3]; omega) (by simp only [packL3]; omega)
theorem Words.clz (d : BitVec 7) (a : BitVec 7) (st : BitVec 2) : Words.Statement (.clz d a st) := by
  have := d.isLt; have := a.isLt; have := st.isLt
  exact long_word rfl rfl (by simp only [packL3]; omega) (by simp only [packL3]; omega)
theorem Words.ctz (d : BitVec 7) (a : BitVec 7) (st : BitVec 2) : Words.Statement (.ctz d a st) := by
  have := d.isLt; have := a.isLt; have := st.isLt
  exact long_word rfl rfl (by simp only [packL3]; omega) (by simp only [packL3]; omega)
theorem Words.popc (d : BitVec 7) (a : BitVec 7) (st : BitVec 2) : Words.Statement (.popc d a st) := by
  have := d.isLt; have := a.isLt; have := st.isLt
  exact long_word rfl rfl (by simp only [packL3]; omega) (by simp only [packL3]; omega)
theorem Words.sextB (d : BitVec 7) (a : BitVec 7) (st : BitVec 2) : Words.Statement (.sextB d a st) := by
  have := d.isLt; have := a.isLt; have := st.isLt
  exact long_word rfl rfl (by simp only [packL3]; omega) (by simp only [packL3]; omega)
theorem Words.sextH (d : BitVec 7) (a : BitVec 7) (st : BitVec 2) : Words.Statement (.sextH d a st) := by
  have := d.isLt; have := a.isLt; have := st.isLt
  exact long_word rfl rfl (by simp only [packL3]; omega) (by simp only [packL3]; omega)
theorem Words.sextW (d : BitVec 7) (a : BitVec 7) (st : BitVec 2) : Words.Statement (.sextW d a st) := by
  have := d.isLt; have := a.isLt; have := st.isLt
  exact long_word rfl rfl (by simp only [packL3]; omega) (by simp only [packL3]; omega)
theorem Words.zextB (d : BitVec 7) (a : BitVec 7) (st : BitVec 2) : Words.Statement (.zextB d a st) := by
  have := d.isLt; have := a.isLt; have := st.isLt
  exact long_word rfl rfl (by simp only [packL3]; omega) (by simp only [packL3]; omega)
theorem Words.zextH (d : BitVec 7) (a : BitVec 7) (st : BitVec 2) : Words.Statement (.zextH d a st) := by
  have := d.isLt; have := a.isLt; have := st.isLt
  exact long_word rfl rfl (by simp only [packL3]; omega) (by simp only [packL3]; omega)
theorem Words.zextW (d : BitVec 7) (a : BitVec 7) (st : BitVec 2) : Words.Statement (.zextW d a st) := by
  have := d.isLt; have := a.isLt; have := st.isLt
  exact long_word rfl rfl (by simp only [packL3]; omega) (by simp only [packL3]; omega)
theorem Words.rdcyc (d : BitVec 7) (st : BitVec 2) : Words.Statement (.rdcyc d st) := by
  have := d.isLt; have := st.isLt
  exact long_word rfl rfl (by simp only [packL3]; omega) (by simp only [packL3]; omega)
theorem Words.rdid (d : BitVec 7) (st : BitVec 2) : Words.Statement (.rdid d st) := by
  have := d.isLt; have := st.isLt
  exact long_word rfl rfl (by simp only [packL3]; omega) (by simp only [packL3]; omega)
theorem Words.srd (d : BitVec 7) (a : BitVec 4) (st : BitVec 2) : Words.Statement (.srd d a st) := by
  have := d.isLt; have := a.isLt; have := st.isLt
  exact long_word rfl rfl (by simp only [packL3]; omega) (by simp only [packL3]; omega)
theorem Words.swr (d : BitVec 4) (a : BitVec 7) (st : BitVec 2) : Words.Statement (.swr d a st) := by
  have := d.isLt; have := a.isLt; have := st.isLt
  exact long_word rfl rfl (by simp only [packL3]; omega) (by simp only [packL3]; omega)
theorem Words.addi (d : BitVec 7) (a : BitVec 7) (i : BitVec 9) (st : BitVec 2) : Words.Statement (.addi d a i st) := by
  have := d.isLt; have := a.isLt; have := i.isLt; have := st.isLt
  exact long_word rfl rfl (by simp only [packLIA]; omega) (by simp only [packLIA]; omega)
theorem Words.andi (d : BitVec 7) (a : BitVec 7) (i : BitVec 9) (st : BitVec 2) : Words.Statement (.andi d a i st) := by
  have := d.isLt; have := a.isLt; have := i.isLt; have := st.isLt
  exact long_word rfl rfl (by simp only [packLIA]; omega) (by simp only [packLIA]; omega)
theorem Words.ori (d : BitVec 7) (a : BitVec 7) (i : BitVec 9) (st : BitVec 2) : Words.Statement (.ori d a i st) := by
  have := d.isLt; have := a.isLt; have := i.isLt; have := st.isLt
  exact long_word rfl rfl (by simp only [packLIA]; omega) (by simp only [packLIA]; omega)
theorem Words.xori (d : BitVec 7) (a : BitVec 7) (i : BitVec 9) (st : BitVec 2) : Words.Statement (.xori d a i st) := by
  have := d.isLt; have := a.isLt; have := i.isLt; have := st.isLt
  exact long_word rfl rfl (by simp only [packLIA]; omega) (by simp only [packLIA]; omega)
theorem Words.li (d : BitVec 7) (i : BitVec 16) (st : BitVec 2) : Words.Statement (.li d i st) := by
  have := d.isLt; have := i.isLt; have := st.isLt
  exact long_word rfl rfl (by simp only [packLIW]; omega) (by simp only [packLIW]; omega)
theorem Words.lih (d : BitVec 7) (i : BitVec 16) (st : BitVec 2) : Words.Statement (.lih d i st) := by
  have := d.isLt; have := i.isLt; have := st.isLt
  exact long_word rfl rfl (by simp only [packLIW]; omega) (by simp only [packLIW]; omega)
theorem Words.bz (a : BitVec 7) (o : BitVec 9) (st : BitVec 2) : Words.Statement (.bz a o st) := by
  have := a.isLt; have := o.isLt; have := st.isLt
  exact long_word rfl rfl (by simp only [packLBB]; omega) (by simp only [packLBB]; omega)
theorem Words.bnz (a : BitVec 7) (o : BitVec 9) (st : BitVec 2) : Words.Statement (.bnz a o st) := by
  have := a.isLt; have := o.isLt; have := st.isLt
  exact long_word rfl rfl (by simp only [packLBB]; omega) (by simp only [packLBB]; omega)
theorem Words.bltz (a : BitVec 7) (o : BitVec 9) (st : BitVec 2) : Words.Statement (.bltz a o st) := by
  have := a.isLt; have := o.isLt; have := st.isLt
  exact long_word rfl rfl (by simp only [packLBB]; omega) (by simp only [packLBB]; omega)
theorem Words.bgez (a : BitVec 7) (o : BitVec 9) (st : BitVec 2) : Words.Statement (.bgez a o st) := by
  have := a.isLt; have := o.isLt; have := st.isLt
  exact long_word rfl rfl (by simp only [packLBB]; omega) (by simp only [packLBB]; omega)
theorem Words.dbnz (a : BitVec 7) (o : BitVec 9) (st : BitVec 2) : Words.Statement (.dbnz a o st) := by
  have := a.isLt; have := o.isLt; have := st.isLt
  exact long_word rfl rfl (by simp only [packLBB]; omega) (by simp only [packLBB]; omega)
theorem Words.beq (a : BitVec 7) (b : BitVec 7) (o : BitVec 9) (st : BitVec 2) : Words.Statement (.beq a b o st) := by
  have := a.isLt; have := b.isLt; have := o.isLt; have := st.isLt
  exact long_word rfl rfl (by simp only [packLBB]; omega) (by simp only [packLBB]; omega)
theorem Words.bne (a : BitVec 7) (b : BitVec 7) (o : BitVec 9) (st : BitVec 2) : Words.Statement (.bne a b o st) := by
  have := a.isLt; have := b.isLt; have := o.isLt; have := st.isLt
  exact long_word rfl rfl (by simp only [packLBB]; omega) (by simp only [packLBB]; omega)
theorem Words.blt (a : BitVec 7) (b : BitVec 7) (o : BitVec 9) (st : BitVec 2) : Words.Statement (.blt a b o st) := by
  have := a.isLt; have := b.isLt; have := o.isLt; have := st.isLt
  exact long_word rfl rfl (by simp only [packLBB]; omega) (by simp only [packLBB]; omega)
theorem Words.bltu (a : BitVec 7) (b : BitVec 7) (o : BitVec 9) (st : BitVec 2) : Words.Statement (.bltu a b o st) := by
  have := a.isLt; have := b.isLt; have := o.isLt; have := st.isLt
  exact long_word rfl rfl (by simp only [packLBB]; omega) (by simp only [packLBB]; omega)
theorem Words.j (o : BitVec 23) (st : BitVec 2) : Words.Statement (.j o st) := by
  have := o.isLt; have := st.isLt
  exact long_word rfl rfl (by simp only [packLJ]; omega) (by simp only [packLJ]; omega)
theorem Words.call (o : BitVec 23) (st : BitVec 2) : Words.Statement (.call o st) := by
  have := o.isLt; have := st.isLt
  exact long_word rfl rfl (by simp only [packLJ]; omega) (by simp only [packLJ]; omega)
theorem Words.ret (st : BitVec 2) : Words.Statement (.ret st) := by
  have := st.isLt
  exact long_word rfl rfl (by simp only [packL3]; omega) (by simp only [packL3]; omega)
theorem Words.jr (a : BitVec 7) (st : BitVec 2) : Words.Statement (.jr a st) := by
  have := a.isLt; have := st.isLt
  exact long_word rfl rfl (by simp only [packL3]; omega) (by simp only [packL3]; omega)
theorem Words.jalr (d : BitVec 7) (a : BitVec 7) (st : BitVec 2) : Words.Statement (.jalr d a st) := by
  have := d.isLt; have := a.isLt; have := st.isLt
  exact long_word rfl rfl (by simp only [packL3]; omega) (by simp only [packL3]; omega)
theorem Words.rep (a : BitVec 7) (st : BitVec 2) : Words.Statement (.rep a st) := by
  have := a.isLt; have := st.isLt
  exact long_word rfl rfl (by simp only [packL3]; omega) (by simp only [packL3]; omega)
theorem Words.susp (a : BitVec 7) (st : BitVec 2) : Words.Statement (.susp a st) := by
  have := a.isLt; have := st.isLt
  exact long_word rfl rfl (by simp only [packL3]; omega) (by simp only [packL3]; omega)
theorem Words.halt (st : BitVec 2) : Words.Statement (.halt st) := by
  have := st.isLt
  exact long_word rfl rfl (by simp only [packL3]; omega) (by simp only [packL3]; omega)
theorem Words.yield (st : BitVec 2) : Words.Statement (.yield st) := by
  have := st.isLt
  exact long_word rfl rfl (by simp only [packL3]; omega) (by simp only [packL3]; omega)
theorem Words.nop (st : BitVec 2) : Words.Statement (.nop st) := by
  have := st.isLt
  exact long_word rfl rfl (by simp only [packL3]; omega) (by simp only [packL3]; omega)
theorem Words.ldB (d : BitVec 7) (a : BitVec 7) (o : BitVec 6) (st : BitVec 2) : Words.Statement (.ldB d a o st) := by
  have := d.isLt; have := a.isLt; have := o.isLt; have := st.isLt
  exact long_word rfl rfl (by simp only [packL3]; omega) (by simp only [packL3]; omega)
theorem Words.ldBU (d : BitVec 7) (a : BitVec 7) (o : BitVec 6) (st : BitVec 2) : Words.Statement (.ldBU d a o st) := by
  have := d.isLt; have := a.isLt; have := o.isLt; have := st.isLt
  exact long_word rfl rfl (by simp only [packL3]; omega) (by simp only [packL3]; omega)
theorem Words.ldH (d : BitVec 7) (a : BitVec 7) (o : BitVec 6) (st : BitVec 2) : Words.Statement (.ldH d a o st) := by
  have := d.isLt; have := a.isLt; have := o.isLt; have := st.isLt
  exact long_word rfl rfl (by simp only [packL3]; omega) (by simp only [packL3]; omega)
theorem Words.ldHU (d : BitVec 7) (a : BitVec 7) (o : BitVec 6) (st : BitVec 2) : Words.Statement (.ldHU d a o st) := by
  have := d.isLt; have := a.isLt; have := o.isLt; have := st.isLt
  exact long_word rfl rfl (by simp only [packL3]; omega) (by simp only [packL3]; omega)
theorem Words.ldW (d : BitVec 7) (a : BitVec 7) (o : BitVec 6) (st : BitVec 2) : Words.Statement (.ldW d a o st) := by
  have := d.isLt; have := a.isLt; have := o.isLt; have := st.isLt
  exact long_word rfl rfl (by simp only [packL3]; omega) (by simp only [packL3]; omega)
theorem Words.ldWU (d : BitVec 7) (a : BitVec 7) (o : BitVec 6) (st : BitVec 2) : Words.Statement (.ldWU d a o st) := by
  have := d.isLt; have := a.isLt; have := o.isLt; have := st.isLt
  exact long_word rfl rfl (by simp only [packL3]; omega) (by simp only [packL3]; omega)
theorem Words.ldD (d : BitVec 7) (a : BitVec 7) (o : BitVec 6) (st : BitVec 2) : Words.Statement (.ldD d a o st) := by
  have := d.isLt; have := a.isLt; have := o.isLt; have := st.isLt
  exact long_word rfl rfl (by simp only [packL3]; omega) (by simp only [packL3]; omega)
theorem Words.stB (d : BitVec 7) (a : BitVec 7) (o : BitVec 6) (st : BitVec 2) : Words.Statement (.stB d a o st) := by
  have := d.isLt; have := a.isLt; have := o.isLt; have := st.isLt
  exact long_word rfl rfl (by simp only [packL3]; omega) (by simp only [packL3]; omega)
theorem Words.stH (d : BitVec 7) (a : BitVec 7) (o : BitVec 6) (st : BitVec 2) : Words.Statement (.stH d a o st) := by
  have := d.isLt; have := a.isLt; have := o.isLt; have := st.isLt
  exact long_word rfl rfl (by simp only [packL3]; omega) (by simp only [packL3]; omega)
theorem Words.stW (d : BitVec 7) (a : BitVec 7) (o : BitVec 6) (st : BitVec 2) : Words.Statement (.stW d a o st) := by
  have := d.isLt; have := a.isLt; have := o.isLt; have := st.isLt
  exact long_word rfl rfl (by simp only [packL3]; omega) (by simp only [packL3]; omega)
theorem Words.stD (d : BitVec 7) (a : BitVec 7) (o : BitVec 6) (st : BitVec 2) : Words.Statement (.stD d a o st) := by
  have := d.isLt; have := a.isLt; have := o.isLt; have := st.isLt
  exact long_word rfl rfl (by simp only [packL3]; omega) (by simp only [packL3]; omega)
theorem Words.ldx (d : BitVec 7) (a : BitVec 7) (b : BitVec 7) (st : BitVec 2) : Words.Statement (.ldx d a b st) := by
  have := d.isLt; have := a.isLt; have := b.isLt; have := st.isLt
  exact long_word rfl rfl (by simp only [packL3]; omega) (by simp only [packL3]; omega)
theorem Words.stx (d : BitVec 7) (a : BitVec 7) (b : BitVec 7) (st : BitVec 2) : Words.Statement (.stx d a b st) := by
  have := d.isLt; have := a.isLt; have := b.isLt; have := st.isLt
  exact long_word rfl rfl (by simp only [packL3]; omega) (by simp only [packL3]; omega)
theorem Words.ldAcq (d : BitVec 7) (a : BitVec 7) (st : BitVec 2) : Words.Statement (.ldAcq d a st) := by
  have := d.isLt; have := a.isLt; have := st.isLt
  exact long_word rfl rfl (by simp only [packL3]; omega) (by simp only [packL3]; omega)
theorem Words.stRel (d : BitVec 7) (a : BitVec 7) (st : BitVec 2) : Words.Statement (.stRel d a st) := by
  have := d.isLt; have := a.isLt; have := st.isLt
  exact long_word rfl rfl (by simp only [packL3]; omega) (by simp only [packL3]; omega)
theorem Words.fenceAcq (st : BitVec 2) : Words.Statement (.fenceAcq st) := by
  have := st.isLt
  exact long_word rfl rfl (by simp only [packL3]; omega) (by simp only [packL3]; omega)
theorem Words.fenceRel (st : BitVec 2) : Words.Statement (.fenceRel st) := by
  have := st.isLt
  exact long_word rfl rfl (by simp only [packL3]; omega) (by simp only [packL3]; omega)
theorem Words.fenceFull (st : BitVec 2) : Words.Statement (.fenceFull st) := by
  have := st.isLt
  exact long_word rfl rfl (by simp only [packL3]; omega) (by simp only [packL3]; omega)
theorem Words.lbsync (st : BitVec 2) : Words.Statement (.lbsync st) := by
  have := st.isLt
  exact long_word rfl rfl (by simp only [packL3]; omega) (by simp only [packL3]; omega)
theorem Words.feq (d : BitVec 7) (a : BitVec 7) (st : BitVec 2) : Words.Statement (.feq d a st) := by
  have := d.isLt; have := a.isLt; have := st.isLt
  exact long_word rfl rfl (by simp only [packL3]; omega) (by simp only [packL3]; omega)
theorem Words.fesetE (a : BitVec 7) (st : BitVec 2) : Words.Statement (.fesetE a st) := by
  have := a.isLt; have := st.isLt
  exact long_word rfl rfl (by simp only [packL3]; omega) (by simp only [packL3]; omega)
theorem Words.fesetF (a : BitVec 7) (st : BitVec 2) : Words.Statement (.fesetF a st) := by
  have := a.isLt; have := st.isLt
  exact long_word rfl rfl (by simp only [packL3]; omega) (by simp only [packL3]; omega)
theorem Words.pref (a : BitVec 7) (st : BitVec 2) : Words.Statement (.pref a st) := by
  have := a.isLt; have := st.isLt
  exact long_word rfl rfl (by simp only [packL3]; omega) (by simp only [packL3]; omega)
theorem Words.drinitF32 (a : BitVec 7) (st : BitVec 2) : Words.Statement (.drinitF32 a st) := by
  have := a.isLt; have := st.isLt
  exact long_word rfl rfl (by simp only [packL3]; omega) (by simp only [packL3]; omega)
theorem Words.drinitF64 (a : BitVec 7) (st : BitVec 2) : Words.Statement (.drinitF64 a st) := by
  have := a.isLt; have := st.isLt
  exact long_word rfl rfl (by simp only [packL3]; omega) (by simp only [packL3]; omega)
theorem Words.dredF32 (d : BitVec 7) (a : BitVec 7) (st : BitVec 2) : Words.Statement (.dredF32 d a st) := by
  have := d.isLt; have := a.isLt; have := st.isLt
  exact long_word rfl rfl (by simp only [packL3]; omega) (by simp only [packL3]; omega)
theorem Words.dredBf16 (d : BitVec 7) (a : BitVec 7) (st : BitVec 2) : Words.Statement (.dredBf16 d a st) := by
  have := d.isLt; have := a.isLt; have := st.isLt
  exact long_word rfl rfl (by simp only [packL3]; omega) (by simp only [packL3]; omega)
theorem Words.dredF64 (d : BitVec 7) (a : BitVec 7) (st : BitVec 2) : Words.Statement (.dredF64 d a st) := by
  have := d.isLt; have := a.isLt; have := st.isLt
  exact long_word rfl rfl (by simp only [packL3]; omega) (by simp only [packL3]; omega)
theorem Words.dredAcc (d : BitVec 7) (a : BitVec 7) (st : BitVec 2) : Words.Statement (.dredAcc d a st) := by
  have := d.isLt; have := a.isLt; have := st.isLt
  exact long_word rfl rfl (by simp only [packL3]; omega) (by simp only [packL3]; omega)
theorem Words.dreadF32 (d : BitVec 7) (a : BitVec 7) (st : BitVec 2) : Words.Statement (.dreadF32 d a st) := by
  have := d.isLt; have := a.isLt; have := st.isLt
  exact long_word rfl rfl (by simp only [packL3]; omega) (by simp only [packL3]; omega)
theorem Words.dreadBf16 (d : BitVec 7) (a : BitVec 7) (st : BitVec 2) : Words.Statement (.dreadBf16 d a st) := by
  have := d.isLt; have := a.isLt; have := st.isLt
  exact long_word rfl rfl (by simp only [packL3]; omega) (by simp only [packL3]; omega)
theorem Words.dreadF64 (d : BitVec 7) (a : BitVec 7) (st : BitVec 2) : Words.Statement (.dreadF64 d a st) := by
  have := d.isLt; have := a.isLt; have := st.isLt
  exact long_word rfl rfl (by simp only [packL3]; omega) (by simp only [packL3]; omega)
theorem Words.dreadAcc (d : BitVec 7) (a : BitVec 7) (st : BitVec 2) : Words.Statement (.dreadAcc d a st) := by
  have := d.isLt; have := a.isLt; have := st.isLt
  exact long_word rfl rfl (by simp only [packL3]; omega) (by simp only [packL3]; omega)
theorem Words.ldfeFf (d : BitVec 7) (a : BitVec 7) (st : BitVec 2) : Words.Statement (.ldfeFf d a st) := by
  have := d.isLt; have := a.isLt; have := st.isLt
  exact long_word rfl rfl (by simp only [packL3]; omega) (by simp only [packL3]; omega)
theorem Words.ldfeFe (d : BitVec 7) (a : BitVec 7) (st : BitVec 2) : Words.Statement (.ldfeFe d a st) := by
  have := d.isLt; have := a.isLt; have := st.isLt
  exact long_word rfl rfl (by simp only [packL3]; omega) (by simp only [packL3]; omega)
theorem Words.ldfeEf (d : BitVec 7) (a : BitVec 7) (st : BitVec 2) : Words.Statement (.ldfeEf d a st) := by
  have := d.isLt; have := a.isLt; have := st.isLt
  exact long_word rfl rfl (by simp only [packL3]; omega) (by simp only [packL3]; omega)
theorem Words.bmov (d : BitVec 7) (a : BitVec 7) (b : BitVec 7) (st : BitVec 2) : Words.Statement (.bmov d a b st) := by
  have := d.isLt; have := a.isLt; have := b.isLt; have := st.isLt
  exact long_word rfl rfl (by simp only [packL3]; omega) (by simp only [packL3]; omega)
theorem Words.stfeFf (d : BitVec 7) (a : BitVec 7) (st : BitVec 2) : Words.Statement (.stfeFf d a st) := by
  have := d.isLt; have := a.isLt; have := st.isLt
  exact long_word rfl rfl (by simp only [packL3]; omega) (by simp only [packL3]; omega)
theorem Words.stfeFe (d : BitVec 7) (a : BitVec 7) (st : BitVec 2) : Words.Statement (.stfeFe d a st) := by
  have := d.isLt; have := a.isLt; have := st.isLt
  exact long_word rfl rfl (by simp only [packL3]; omega) (by simp only [packL3]; omega)
theorem Words.stfeEf (d : BitVec 7) (a : BitVec 7) (st : BitVec 2) : Words.Statement (.stfeEf d a st) := by
  have := d.isLt; have := a.isLt; have := st.isLt
  exact long_word rfl rfl (by simp only [packL3]; omega) (by simp only [packL3]; omega)
theorem Words.stfeXf (d : BitVec 7) (a : BitVec 7) (st : BitVec 2) : Words.Statement (.stfeXf d a st) := by
  have := d.isLt; have := a.isLt; have := st.isLt
  exact long_word rfl rfl (by simp only [packL3]; omega) (by simp only [packL3]; omega)
theorem Words.atomAdd (d : BitVec 7) (a : BitVec 7) (b : BitVec 7) (st : BitVec 2) : Words.Statement (.atomAdd d a b st) := by
  have := d.isLt; have := a.isLt; have := b.isLt; have := st.isLt
  exact long_word rfl rfl (by simp only [packL3]; omega) (by simp only [packL3]; omega)
theorem Words.atomAnd (d : BitVec 7) (a : BitVec 7) (b : BitVec 7) (st : BitVec 2) : Words.Statement (.atomAnd d a b st) := by
  have := d.isLt; have := a.isLt; have := b.isLt; have := st.isLt
  exact long_word rfl rfl (by simp only [packL3]; omega) (by simp only [packL3]; omega)
theorem Words.atomOr (d : BitVec 7) (a : BitVec 7) (b : BitVec 7) (st : BitVec 2) : Words.Statement (.atomOr d a b st) := by
  have := d.isLt; have := a.isLt; have := b.isLt; have := st.isLt
  exact long_word rfl rfl (by simp only [packL3]; omega) (by simp only [packL3]; omega)
theorem Words.atomXor (d : BitVec 7) (a : BitVec 7) (b : BitVec 7) (st : BitVec 2) : Words.Statement (.atomXor d a b st) := by
  have := d.isLt; have := a.isLt; have := b.isLt; have := st.isLt
  exact long_word rfl rfl (by simp only [packL3]; omega) (by simp only [packL3]; omega)
theorem Words.atomMin (d : BitVec 7) (a : BitVec 7) (b : BitVec 7) (st : BitVec 2) : Words.Statement (.atomMin d a b st) := by
  have := d.isLt; have := a.isLt; have := b.isLt; have := st.isLt
  exact long_word rfl rfl (by simp only [packL3]; omega) (by simp only [packL3]; omega)
theorem Words.atomMax (d : BitVec 7) (a : BitVec 7) (b : BitVec 7) (st : BitVec 2) : Words.Statement (.atomMax d a b st) := by
  have := d.isLt; have := a.isLt; have := b.isLt; have := st.isLt
  exact long_word rfl rfl (by simp only [packL3]; omega) (by simp only [packL3]; omega)
theorem Words.atomMinu (d : BitVec 7) (a : BitVec 7) (b : BitVec 7) (st : BitVec 2) : Words.Statement (.atomMinu d a b st) := by
  have := d.isLt; have := a.isLt; have := b.isLt; have := st.isLt
  exact long_word rfl rfl (by simp only [packL3]; omega) (by simp only [packL3]; omega)
theorem Words.atomMaxu (d : BitVec 7) (a : BitVec 7) (b : BitVec 7) (st : BitVec 2) : Words.Statement (.atomMaxu d a b st) := by
  have := d.isLt; have := a.isLt; have := b.isLt; have := st.isLt
  exact long_word rfl rfl (by simp only [packL3]; omega) (by simp only [packL3]; omega)
theorem Words.atomSwap (d : BitVec 7) (a : BitVec 7) (b : BitVec 7) (st : BitVec 2) : Words.Statement (.atomSwap d a b st) := by
  have := d.isLt; have := a.isLt; have := b.isLt; have := st.isLt
  exact long_word rfl rfl (by simp only [packL3]; omega) (by simp only [packL3]; omega)
theorem Words.cas (d : BitVec 7) (a : BitVec 7) (b : BitVec 7) (st : BitVec 2) : Words.Statement (.cas d a b st) := by
  have := d.isLt; have := a.isLt; have := b.isLt; have := st.isLt
  exact long_word rfl rfl (by simp only [packL3]; omega) (by simp only [packL3]; omega)
theorem Words.fatomAddF32 (d : BitVec 7) (a : BitVec 7) (b : BitVec 7) (st : BitVec 2) : Words.Statement (.fatomAddF32 d a b st) := by
  have := d.isLt; have := a.isLt; have := b.isLt; have := st.isLt
  exact long_word rfl rfl (by simp only [packL3]; omega) (by simp only [packL3]; omega)
theorem Words.fatomAddF64 (d : BitVec 7) (a : BitVec 7) (b : BitVec 7) (st : BitVec 2) : Words.Statement (.fatomAddF64 d a b st) := by
  have := d.isLt; have := a.isLt; have := b.isLt; have := st.isLt
  exact long_word rfl rfl (by simp only [packL3]; omega) (by simp only [packL3]; omega)
theorem Words.faddF32 (d : BitVec 7) (a : BitVec 7) (b : BitVec 7) (st : BitVec 2) : Words.Statement (.faddF32 d a b st) := by
  have := d.isLt; have := a.isLt; have := b.isLt; have := st.isLt
  exact long_word rfl rfl (by simp only [packL3]; omega) (by simp only [packL3]; omega)
theorem Words.fsubF32 (d : BitVec 7) (a : BitVec 7) (b : BitVec 7) (st : BitVec 2) : Words.Statement (.fsubF32 d a b st) := by
  have := d.isLt; have := a.isLt; have := b.isLt; have := st.isLt
  exact long_word rfl rfl (by simp only [packL3]; omega) (by simp only [packL3]; omega)
theorem Words.fmulF32 (d : BitVec 7) (a : BitVec 7) (b : BitVec 7) (st : BitVec 2) : Words.Statement (.fmulF32 d a b st) := by
  have := d.isLt; have := a.isLt; have := b.isLt; have := st.isLt
  exact long_word rfl rfl (by simp only [packL3]; omega) (by simp only [packL3]; omega)
theorem Words.fdivF32 (d : BitVec 7) (a : BitVec 7) (b : BitVec 7) (st : BitVec 2) : Words.Statement (.fdivF32 d a b st) := by
  have := d.isLt; have := a.isLt; have := b.isLt; have := st.isLt
  exact long_word rfl rfl (by simp only [packL3]; omega) (by simp only [packL3]; omega)
theorem Words.faddF64 (d : BitVec 7) (a : BitVec 7) (b : BitVec 7) (st : BitVec 2) : Words.Statement (.faddF64 d a b st) := by
  have := d.isLt; have := a.isLt; have := b.isLt; have := st.isLt
  exact long_word rfl rfl (by simp only [packL3]; omega) (by simp only [packL3]; omega)
theorem Words.fsubF64 (d : BitVec 7) (a : BitVec 7) (b : BitVec 7) (st : BitVec 2) : Words.Statement (.fsubF64 d a b st) := by
  have := d.isLt; have := a.isLt; have := b.isLt; have := st.isLt
  exact long_word rfl rfl (by simp only [packL3]; omega) (by simp only [packL3]; omega)
theorem Words.fmulF64 (d : BitVec 7) (a : BitVec 7) (b : BitVec 7) (st : BitVec 2) : Words.Statement (.fmulF64 d a b st) := by
  have := d.isLt; have := a.isLt; have := b.isLt; have := st.isLt
  exact long_word rfl rfl (by simp only [packL3]; omega) (by simp only [packL3]; omega)
theorem Words.fdivF64 (d : BitVec 7) (a : BitVec 7) (b : BitVec 7) (st : BitVec 2) : Words.Statement (.fdivF64 d a b st) := by
  have := d.isLt; have := a.isLt; have := b.isLt; have := st.isLt
  exact long_word rfl rfl (by simp only [packL3]; omega) (by simp only [packL3]; omega)
theorem Words.fminF32 (d : BitVec 7) (a : BitVec 7) (b : BitVec 7) (st : BitVec 2) : Words.Statement (.fminF32 d a b st) := by
  have := d.isLt; have := a.isLt; have := b.isLt; have := st.isLt
  exact long_word rfl rfl (by simp only [packL3]; omega) (by simp only [packL3]; omega)
theorem Words.fmaxF32 (d : BitVec 7) (a : BitVec 7) (b : BitVec 7) (st : BitVec 2) : Words.Statement (.fmaxF32 d a b st) := by
  have := d.isLt; have := a.isLt; have := b.isLt; have := st.isLt
  exact long_word rfl rfl (by simp only [packL3]; omega) (by simp only [packL3]; omega)
theorem Words.ffmaF32 (d : BitVec 7) (a : BitVec 7) (b : BitVec 7) (st : BitVec 2) : Words.Statement (.ffmaF32 d a b st) := by
  have := d.isLt; have := a.isLt; have := b.isLt; have := st.isLt
  exact long_word rfl rfl (by simp only [packL3]; omega) (by simp only [packL3]; omega)
theorem Words.fsqrtF32 (d : BitVec 7) (a : BitVec 7) (st : BitVec 2) : Words.Statement (.fsqrtF32 d a st) := by
  have := d.isLt; have := a.isLt; have := st.isLt
  exact long_word rfl rfl (by simp only [packL3]; omega) (by simp only [packL3]; omega)
theorem Words.fabsF32 (d : BitVec 7) (a : BitVec 7) (st : BitVec 2) : Words.Statement (.fabsF32 d a st) := by
  have := d.isLt; have := a.isLt; have := st.isLt
  exact long_word rfl rfl (by simp only [packL3]; omega) (by simp only [packL3]; omega)
theorem Words.fnegF32 (d : BitVec 7) (a : BitVec 7) (st : BitVec 2) : Words.Statement (.fnegF32 d a st) := by
  have := d.isLt; have := a.isLt; have := st.isLt
  exact long_word rfl rfl (by simp only [packL3]; omega) (by simp only [packL3]; omega)
theorem Words.fclassF32 (d : BitVec 7) (a : BitVec 7) (st : BitVec 2) : Words.Statement (.fclassF32 d a st) := by
  have := d.isLt; have := a.isLt; have := st.isLt
  exact long_word rfl rfl (by simp only [packL3]; omega) (by simp only [packL3]; omega)
theorem Words.fminF64 (d : BitVec 7) (a : BitVec 7) (b : BitVec 7) (st : BitVec 2) : Words.Statement (.fminF64 d a b st) := by
  have := d.isLt; have := a.isLt; have := b.isLt; have := st.isLt
  exact long_word rfl rfl (by simp only [packL3]; omega) (by simp only [packL3]; omega)
theorem Words.fmaxF64 (d : BitVec 7) (a : BitVec 7) (b : BitVec 7) (st : BitVec 2) : Words.Statement (.fmaxF64 d a b st) := by
  have := d.isLt; have := a.isLt; have := b.isLt; have := st.isLt
  exact long_word rfl rfl (by simp only [packL3]; omega) (by simp only [packL3]; omega)
theorem Words.ffmaF64 (d : BitVec 7) (a : BitVec 7) (b : BitVec 7) (st : BitVec 2) : Words.Statement (.ffmaF64 d a b st) := by
  have := d.isLt; have := a.isLt; have := b.isLt; have := st.isLt
  exact long_word rfl rfl (by simp only [packL3]; omega) (by simp only [packL3]; omega)
theorem Words.fsqrtF64 (d : BitVec 7) (a : BitVec 7) (st : BitVec 2) : Words.Statement (.fsqrtF64 d a st) := by
  have := d.isLt; have := a.isLt; have := st.isLt
  exact long_word rfl rfl (by simp only [packL3]; omega) (by simp only [packL3]; omega)
theorem Words.fabsF64 (d : BitVec 7) (a : BitVec 7) (st : BitVec 2) : Words.Statement (.fabsF64 d a st) := by
  have := d.isLt; have := a.isLt; have := st.isLt
  exact long_word rfl rfl (by simp only [packL3]; omega) (by simp only [packL3]; omega)
theorem Words.fnegF64 (d : BitVec 7) (a : BitVec 7) (st : BitVec 2) : Words.Statement (.fnegF64 d a st) := by
  have := d.isLt; have := a.isLt; have := st.isLt
  exact long_word rfl rfl (by simp only [packL3]; omega) (by simp only [packL3]; omega)
theorem Words.fclassF64 (d : BitVec 7) (a : BitVec 7) (st : BitVec 2) : Words.Statement (.fclassF64 d a st) := by
  have := d.isLt; have := a.isLt; have := st.isLt
  exact long_word rfl rfl (by simp only [packL3]; omega) (by simp only [packL3]; omega)
theorem Words.fcmpEqF32 (d : BitVec 7) (a : BitVec 7) (b : BitVec 7) (st : BitVec 2) : Words.Statement (.fcmpEqF32 d a b st) := by
  have := d.isLt; have := a.isLt; have := b.isLt; have := st.isLt
  exact long_word rfl rfl (by simp only [packL3]; omega) (by simp only [packL3]; omega)
theorem Words.fcmpLtF32 (d : BitVec 7) (a : BitVec 7) (b : BitVec 7) (st : BitVec 2) : Words.Statement (.fcmpLtF32 d a b st) := by
  have := d.isLt; have := a.isLt; have := b.isLt; have := st.isLt
  exact long_word rfl rfl (by simp only [packL3]; omega) (by simp only [packL3]; omega)
theorem Words.fcmpLeF32 (d : BitVec 7) (a : BitVec 7) (b : BitVec 7) (st : BitVec 2) : Words.Statement (.fcmpLeF32 d a b st) := by
  have := d.isLt; have := a.isLt; have := b.isLt; have := st.isLt
  exact long_word rfl rfl (by simp only [packL3]; omega) (by simp only [packL3]; omega)
theorem Words.fcmpUnF32 (d : BitVec 7) (a : BitVec 7) (b : BitVec 7) (st : BitVec 2) : Words.Statement (.fcmpUnF32 d a b st) := by
  have := d.isLt; have := a.isLt; have := b.isLt; have := st.isLt
  exact long_word rfl rfl (by simp only [packL3]; omega) (by simp only [packL3]; omega)
theorem Words.fcmpEqF64 (d : BitVec 7) (a : BitVec 7) (b : BitVec 7) (st : BitVec 2) : Words.Statement (.fcmpEqF64 d a b st) := by
  have := d.isLt; have := a.isLt; have := b.isLt; have := st.isLt
  exact long_word rfl rfl (by simp only [packL3]; omega) (by simp only [packL3]; omega)
theorem Words.fcmpLtF64 (d : BitVec 7) (a : BitVec 7) (b : BitVec 7) (st : BitVec 2) : Words.Statement (.fcmpLtF64 d a b st) := by
  have := d.isLt; have := a.isLt; have := b.isLt; have := st.isLt
  exact long_word rfl rfl (by simp only [packL3]; omega) (by simp only [packL3]; omega)
theorem Words.fcmpLeF64 (d : BitVec 7) (a : BitVec 7) (b : BitVec 7) (st : BitVec 2) : Words.Statement (.fcmpLeF64 d a b st) := by
  have := d.isLt; have := a.isLt; have := b.isLt; have := st.isLt
  exact long_word rfl rfl (by simp only [packL3]; omega) (by simp only [packL3]; omega)
theorem Words.fcmpUnF64 (d : BitVec 7) (a : BitVec 7) (b : BitVec 7) (st : BitVec 2) : Words.Statement (.fcmpUnF64 d a b st) := by
  have := d.isLt; have := a.isLt; have := b.isLt; have := st.isLt
  exact long_word rfl rfl (by simp only [packL3]; omega) (by simp only [packL3]; omega)
theorem Words.fcvt (d : BitVec 7) (a : BitVec 7) (q : BitVec 1) (t : BitVec 3) (v : BitVec 3) (st : BitVec 2) : Words.Statement (.fcvt d a q t v st) := by
  have := d.isLt; have := a.isLt; have := q.isLt; have := t.isLt; have := v.isLt; have := st.isLt
  exact long_word rfl rfl (by simp only [packL3]; omega) (by simp only [packL3]; omega)
theorem Words.icvt (d : BitVec 7) (a : BitVec 7) (g : BitVec 1) (h : BitVec 1) (w : BitVec 1) (v : BitVec 3) (st : BitVec 2) : Words.Statement (.icvt d a g h w v st) := by
  have := d.isLt; have := a.isLt; have := g.isLt; have := h.isLt; have := w.isLt; have := v.isLt; have := st.isLt
  exact long_word rfl rfl (by simp only [packL3]; omega) (by simp only [packL3]; omega)
theorem Words.vadd (d : BitVec 7) (a : BitVec 7) (b : BitVec 7) (st : BitVec 2) : Words.Statement (.vadd d a b st) := by
  have := d.isLt; have := a.isLt; have := b.isLt; have := st.isLt
  exact long_word rfl rfl (by simp only [packL3]; omega) (by simp only [packL3]; omega)
theorem Words.vsub (d : BitVec 7) (a : BitVec 7) (b : BitVec 7) (st : BitVec 2) : Words.Statement (.vsub d a b st) := by
  have := d.isLt; have := a.isLt; have := b.isLt; have := st.isLt
  exact long_word rfl rfl (by simp only [packL3]; omega) (by simp only [packL3]; omega)
theorem Words.vmul (d : BitVec 7) (a : BitVec 7) (b : BitVec 7) (st : BitVec 2) : Words.Statement (.vmul d a b st) := by
  have := d.isLt; have := a.isLt; have := b.isLt; have := st.isLt
  exact long_word rfl rfl (by simp only [packL3]; omega) (by simp only [packL3]; omega)
theorem Words.vfma (d : BitVec 7) (a : BitVec 7) (b : BitVec 7) (st : BitVec 2) : Words.Statement (.vfma d a b st) := by
  have := d.isLt; have := a.isLt; have := b.isLt; have := st.isLt
  exact long_word rfl rfl (by simp only [packL3]; omega) (by simp only [packL3]; omega)
theorem Words.vmax (d : BitVec 7) (a : BitVec 7) (b : BitVec 7) (st : BitVec 2) : Words.Statement (.vmax d a b st) := by
  have := d.isLt; have := a.isLt; have := b.isLt; have := st.isLt
  exact long_word rfl rfl (by simp only [packL3]; omega) (by simp only [packL3]; omega)
theorem Words.vmin (d : BitVec 7) (a : BitVec 7) (b : BitVec 7) (st : BitVec 2) : Words.Statement (.vmin d a b st) := by
  have := d.isLt; have := a.isLt; have := b.isLt; have := st.isLt
  exact long_word rfl rfl (by simp only [packL3]; omega) (by simp only [packL3]; omega)
theorem Words.vscale (d : BitVec 7) (a : BitVec 7) (st : BitVec 2) : Words.Statement (.vscale d a st) := by
  have := d.isLt; have := a.isLt; have := st.isLt
  exact long_word rfl rfl (by simp only [packL3]; omega) (by simp only [packL3]; omega)
theorem Words.vcmp (d : BitVec 7) (a : BitVec 7) (b : BitVec 7) (st : BitVec 2) : Words.Statement (.vcmp d a b st) := by
  have := d.isLt; have := a.isLt; have := b.isLt; have := st.isLt
  exact long_word rfl rfl (by simp only [packL3]; omega) (by simp only [packL3]; omega)
theorem Words.vset (d : BitVec 7) (st : BitVec 2) : Words.Statement (.vset d st) := by
  have := d.isLt; have := st.isLt
  exact long_word rfl rfl (by simp only [packL3]; omega) (by simp only [packL3]; omega)
theorem Words.vexp2 (d : BitVec 7) (a : BitVec 7) (st : BitVec 2) : Words.Statement (.vexp2 d a st) := by
  have := d.isLt; have := a.isLt; have := st.isLt
  exact long_word rfl rfl (by simp only [packL3]; omega) (by simp only [packL3]; omega)
theorem Words.vrcp (d : BitVec 7) (a : BitVec 7) (st : BitVec 2) : Words.Statement (.vrcp d a st) := by
  have := d.isLt; have := a.isLt; have := st.isLt
  exact long_word rfl rfl (by simp only [packL3]; omega) (by simp only [packL3]; omega)
theorem Words.vred (d : BitVec 7) (a : BitVec 7) (st : BitVec 2) : Words.Statement (.vred d a st) := by
  have := d.isLt; have := a.isLt; have := st.isLt
  exact long_word rfl rfl (by simp only [packL3]; omega) (by simp only [packL3]; omega)
theorem Words.vcvt (d : BitVec 7) (a : BitVec 7) (st : BitVec 2) : Words.Statement (.vcvt d a st) := by
  have := d.isLt; have := a.isLt; have := st.isLt
  exact long_word rfl rfl (by simp only [packL3]; omega) (by simp only [packL3]; omega)
theorem Words.vqnt (d : BitVec 7) (a : BitVec 7) (b : BitVec 7) (st : BitVec 2) : Words.Statement (.vqnt d a b st) := by
  have := d.isLt; have := a.isLt; have := b.isLt; have := st.isLt
  exact long_word rfl rfl (by simp only [packL3]; omega) (by simp only [packL3]; omega)
theorem Words.vdeq (d : BitVec 7) (a : BitVec 7) (b : BitVec 7) (st : BitVec 2) : Words.Statement (.vdeq d a b st) := by
  have := d.isLt; have := a.isLt; have := b.isLt; have := st.isLt
  exact long_word rfl rfl (by simp only [packL3]; omega) (by simp only [packL3]; omega)
theorem Words.oxl (d : BitVec 3) (a : BitVec 7) (st : BitVec 2) : Words.Statement (.oxl d a st) := by
  have := d.isLt; have := a.isLt; have := st.isLt
  exact long_word rfl rfl (by simp only [packL3]; omega) (by simp only [packL3]; omega)
theorem Words.oxr (d : BitVec 7) (a : BitVec 3) (st : BitVec 2) : Words.Statement (.oxr d a st) := by
  have := d.isLt; have := a.isLt; have := st.isLt
  exact long_word rfl rfl (by simp only [packL3]; omega) (by simp only [packL3]; omega)
theorem Words.oxli (d : BitVec 3) (i : BitVec 16) (st : BitVec 2) : Words.Statement (.oxli d i st) := by
  have := d.isLt; have := i.isLt; have := st.isLt
  exact long_word rfl rfl (by simp only [packLIW]; omega) (by simp only [packLIW]; omega)
theorem Words.cpy (d : BitVec 7) (a : BitVec 7) (b : BitVec 7) (st : BitVec 2) : Words.Statement (.cpy d a b st) := by
  have := d.isLt; have := a.isLt; have := b.isLt; have := st.isLt
  exact long_word rfl rfl (by simp only [packL3]; omega) (by simp only [packL3]; omega)
theorem Words.cpyV (d : BitVec 7) (a : BitVec 7) (b : BitVec 7) (st : BitVec 2) : Words.Statement (.cpyV d a b st) := by
  have := d.isLt; have := a.isLt; have := b.isLt; have := st.isLt
  exact long_word rfl rfl (by simp only [packL3]; omega) (by simp only [packL3]; omega)
theorem Words.cpyW (d : BitVec 7) (a : BitVec 7) (b : BitVec 7) (st : BitVec 2) : Words.Statement (.cpyW d a b st) := by
  have := d.isLt; have := a.isLt; have := b.isLt; have := st.isLt
  exact long_word rfl rfl (by simp only [packL3]; omega) (by simp only [packL3]; omega)
theorem Words.cpym (d : BitVec 7) (a : BitVec 7) (b : BitVec 7) (st : BitVec 2) : Words.Statement (.cpym d a b st) := by
  have := d.isLt; have := a.isLt; have := b.isLt; have := st.isLt
  exact long_word rfl rfl (by simp only [packL3]; omega) (by simp only [packL3]; omega)
theorem Words.tlw (a : BitVec 7) (b : BitVec 7) (st : BitVec 2) : Words.Statement (.tlw a b st) := by
  have := a.isLt; have := b.isLt; have := st.isLt
  exact long_word rfl rfl (by simp only [packL3]; omega) (by simp only [packL3]; omega)
theorem Words.tlr (d : BitVec 7) (a : BitVec 7) (st : BitVec 2) : Words.Statement (.tlr d a st) := by
  have := d.isLt; have := a.isLt; have := st.isLt
  exact long_word rfl rfl (by simp only [packL3]; omega) (by simp only [packL3]; omega)
theorem Words.mxop (d : BitVec 3) (a : BitVec 7) (b : BitVec 7) (st : BitVec 2) : Words.Statement (.mxop d a b st) := by
  have := d.isLt; have := a.isLt; have := b.isLt; have := st.isLt
  exact long_word rfl rfl (by simp only [packL3]; omega) (by simp only [packL3]; omega)
theorem Words.mxz (d : BitVec 3) (st : BitVec 2) : Words.Statement (.mxz d st) := by
  have := d.isLt; have := st.isLt
  exact long_word rfl rfl (by simp only [packL3]; omega) (by simp only [packL3]; omega)
theorem Words.mxld (d : BitVec 3) (a : BitVec 7) (st : BitVec 2) : Words.Statement (.mxld d a st) := by
  have := d.isLt; have := a.isLt; have := st.isLt
  exact long_word rfl rfl (by simp only [packL3]; omega) (by simp only [packL3]; omega)
theorem Words.mxst (d : BitVec 3) (a : BitVec 7) (st : BitVec 2) : Words.Statement (.mxst d a st) := by
  have := d.isLt; have := a.isLt; have := st.isLt
  exact long_word rfl rfl (by simp only [packL3]; omega) (by simp only [packL3]; omega)
theorem Words.mxuc (a : BitVec 7) (st : BitVec 2) : Words.Statement (.mxuc a st) := by
  have := a.isLt; have := st.isLt
  exact long_word rfl rfl (by simp only [packL3]; omega) (by simp only [packL3]; omega)
theorem Words.mxmode (d : BitVec 7) (a : BitVec 7) (st : BitVec 2) : Words.Statement (.mxmode d a st) := by
  have := d.isLt; have := a.isLt; have := st.isLt
  exact long_word rfl rfl (by simp only [packL3]; omega) (by simp only [packL3]; omega)
theorem Words.twx (d : BitVec 7) (a : BitVec 2) (st : BitVec 2) : Words.Statement (.twx d a st) := by
  have := d.isLt; have := a.isLt; have := st.isLt
  exact long_word rfl rfl (by simp only [packL3]; omega) (by simp only [packL3]; omega)
theorem Words.twr (d : BitVec 7) (a : BitVec 2) (st : BitVec 2) : Words.Statement (.twr d a st) := by
  have := d.isLt; have := a.isLt; have := st.isLt
  exact long_word rfl rfl (by simp only [packL3]; omega) (by simp only [packL3]; omega)
theorem Words.tww (d : BitVec 2) (a : BitVec 7) (st : BitVec 2) : Words.Statement (.tww d a st) := by
  have := d.isLt; have := a.isLt; have := st.isLt
  exact long_word rfl rfl (by simp only [packL3]; omega) (by simp only [packL3]; omega)
theorem Words.licq (d : BitVec 7) (a : BitVec 7) (st : BitVec 2) : Words.Statement (.licq d a st) := by
  have := d.isLt; have := a.isLt; have := st.isLt
  exact long_word rfl rfl (by simp only [packL3]; omega) (by simp only [packL3]; omega)
theorem Words.licr (st : BitVec 2) : Words.Statement (.licr st) := by
  have := st.isLt
  exact long_word rfl rfl (by simp only [packL3]; omega) (by simp only [packL3]; omega)
theorem Words.spawn (d : BitVec 7) (a : BitVec 7) (st : BitVec 2) : Words.Statement (.spawn d a st) := by
  have := d.isLt; have := a.isLt; have := st.isLt
  exact long_word rfl rfl (by simp only [packL3]; omega) (by simp only [packL3]; omega)
theorem Words.spawnInl (d : BitVec 7) (a : BitVec 7) (st : BitVec 2) : Words.Statement (.spawnInl d a st) := by
  have := d.isLt; have := a.isLt; have := st.isLt
  exact long_word rfl rfl (by simp only [packL3]; omega) (by simp only [packL3]; omega)
theorem Words.commit (a : BitVec 7) (st : BitVec 2) : Words.Statement (.commit a st) := by
  have := a.isLt; have := st.isLt
  exact long_word rfl rfl (by simp only [packL3]; omega) (by simp only [packL3]; omega)
theorem Words.send (d : BitVec 7) (a : BitVec 7) (st : BitVec 2) : Words.Statement (.send d a st) := by
  have := d.isLt; have := a.isLt; have := st.isLt
  exact long_word rfl rfl (by simp only [packL3]; omega) (by simp only [packL3]; omega)
theorem Words.irrev (d : BitVec 7) (a : BitVec 7) (st : BitVec 2) : Words.Statement (.irrev d a st) := by
  have := d.isLt; have := a.isLt; have := st.isLt
  exact long_word rfl rfl (by simp only [packL3]; omega) (by simp only [packL3]; omega)
theorem Words.work (a : BitVec 7) (st : BitVec 2) : Words.Statement (.work a st) := by
  have := a.isLt; have := st.isLt
  exact long_word rfl rfl (by simp only [packL3]; omega) (by simp only [packL3]; omega)
theorem Words.tvt (d : BitVec 7) (st : BitVec 2) : Words.Statement (.tvt d st) := by
  have := d.isLt; have := st.isLt
  exact long_word rfl rfl (by simp only [packL3]; omega) (by simp only [packL3]; omega)
theorem Words.lwait (d : BitVec 7) (a : BitVec 7) (st : BitVec 2) : Words.Statement (.lwait d a st) := by
  have := d.isLt; have := a.isLt; have := st.isLt
  exact long_word rfl rfl (by simp only [packL3]; omega) (by simp only [packL3]; omega)
theorem Words.barc (d : BitVec 3) (a : BitVec 7) (st : BitVec 2) : Words.Statement (.barc d a st) := by
  have := d.isLt; have := a.isLt; have := st.isLt
  exact long_word rfl rfl (by simp only [packL3]; omega) (by simp only [packL3]; omega)
theorem Words.bar (d : BitVec 3) (st : BitVec 2) : Words.Statement (.bar d st) := by
  have := d.isLt; have := st.isLt
  exact long_word rfl rfl (by simp only [packL3]; omega) (by simp only [packL3]; omega)
theorem Words.barw (d : BitVec 3) (st : BitVec 2) : Words.Statement (.barw d st) := by
  have := d.isLt; have := st.isLt
  exact long_word rfl rfl (by simp only [packL3]; omega) (by simp only [packL3]; omega)
theorem Words.rjoin (d : BitVec 7) (a : BitVec 7) (st : BitVec 2) : Words.Statement (.rjoin d a st) := by
  have := d.isLt; have := a.isLt; have := st.isLt
  exact long_word rfl rfl (by simp only [packL3]; omega) (by simp only [packL3]; omega)
theorem Words.rsend (d : BitVec 7) (a : BitVec 7) (b : BitVec 7) (st : BitVec 2) : Words.Statement (.rsend d a b st) := by
  have := d.isLt; have := a.isLt; have := b.isLt; have := st.isLt
  exact long_word rfl rfl (by simp only [packL3]; omega) (by simp only [packL3]; omega)
theorem Words.rwait (d : BitVec 7) (a : BitVec 7) (b : BitVec 7) (st : BitVec 2) : Words.Statement (.rwait d a b st) := by
  have := d.isLt; have := a.isLt; have := b.isLt; have := st.isLt
  exact long_word rfl rfl (by simp only [packL3]; omega) (by simp only [packL3]; omega)
theorem Words.rrel (a : BitVec 7) (b : BitVec 7) (st : BitVec 2) : Words.Statement (.rrel a b st) := by
  have := a.isLt; have := b.isLt; have := st.isLt
  exact long_word rfl rfl (by simp only [packL3]; omega) (by simp only [packL3]; omega)
theorem Words.rleave (a : BitVec 7) (st : BitVec 2) : Words.Statement (.rleave a st) := by
  have := a.isLt; have := st.isLt
  exact long_word rfl rfl (by simp only [packL3]; omega) (by simp only [packL3]; omega)
theorem Words.attnInit (d : BitVec 7) (a : BitVec 7) (st : BitVec 2) : Words.Statement (.attnInit d a st) := by
  have := d.isLt; have := a.isLt; have := st.isLt
  exact long_word rfl rfl (by simp only [packL3]; omega) (by simp only [packL3]; omega)
theorem Words.attnStep (d : BitVec 7) (a : BitVec 7) (b : BitVec 7) (st : BitVec 2) : Words.Statement (.attnStep d a b st) := by
  have := d.isLt; have := a.isLt; have := b.isLt; have := st.isLt
  exact long_word rfl rfl (by simp only [packL3]; omega) (by simp only [packL3]; omega)
theorem Words.attnFin (d : BitVec 7) (a : BitVec 7) (st : BitVec 2) : Words.Statement (.attnFin d a st) := by
  have := d.isLt; have := a.isLt; have := st.isLt
  exact long_word rfl rfl (by simp only [packL3]; omega) (by simp only [packL3]; omega)
theorem Words.csrr (d : BitVec 7) (c : BitVec 9) (st : BitVec 2) : Words.Statement (.csrr d c st) := by
  have := d.isLt; have := c.isLt; have := st.isLt
  exact long_word rfl rfl (by omega) (by omega)
theorem Words.csrw (d : BitVec 7) (c : BitVec 9) (st : BitVec 2) : Words.Statement (.csrw d c st) := by
  have := d.isLt; have := c.isLt; have := st.isLt
  exact long_word rfl rfl (by omega) (by omega)
theorem Words.csrs (d : BitVec 7) (c : BitVec 9) (st : BitVec 2) : Words.Statement (.csrs d c st) := by
  have := d.isLt; have := c.isLt; have := st.isLt
  exact long_word rfl rfl (by omega) (by omega)
theorem Words.csrc (d : BitVec 7) (c : BitVec 9) (st : BitVec 2) : Words.Statement (.csrc d c st) := by
  have := d.isLt; have := c.isLt; have := st.isLt
  exact long_word rfl rfl (by omega) (by omega)
theorem Words.trap (a : BitVec 7) (st : BitVec 2) : Words.Statement (.trap a st) := by
  have := a.isLt; have := st.isLt
  exact long_word rfl rfl (by simp only [packL3]; omega) (by simp only [packL3]; omega)
theorem Words.eret (st : BitVec 2) : Words.Statement (.eret st) := by
  have := st.isLt
  exact long_word rfl rfl (by simp only [packL3]; omega) (by simp only [packL3]; omega)
theorem Words.migr (d : BitVec 7) (a : BitVec 7) (st : BitVec 2) : Words.Statement (.migr d a st) := by
  have := d.isLt; have := a.isLt; have := st.isLt
  exact long_word rfl rfl (by simp only [packL3]; omega) (by simp only [packL3]; omega)
theorem Words.slot (d : BitVec 7) (a : BitVec 7) (st : BitVec 2) : Words.Statement (.slot d a st) := by
  have := d.isLt; have := a.isLt; have := st.isLt
  exact long_word rfl rfl (by simp only [packL3]; omega) (by simp only [packL3]; omega)
theorem Words.xinv (a : BitVec 7) (st : BitVec 2) : Words.Statement (.xinv a st) := by
  have := a.isLt; have := st.isLt
  exact long_word rfl rfl (by simp only [packL3]; omega) (by simp only [packL3]; omega)
theorem Words.xprobe (d : BitVec 7) (a : BitVec 7) (st : BitVec 2) : Words.Statement (.xprobe d a st) := by
  have := d.isLt; have := a.isLt; have := st.isLt
  exact long_word rfl rfl (by simp only [packL3]; omega) (by simp only [packL3]; omega)
theorem Words.fwd (d : BitVec 7) (a : BitVec 7) (st : BitVec 2) : Words.Statement (.fwd d a st) := by
  have := d.isLt; have := a.isLt; have := st.isLt
  exact long_word rfl rfl (by simp only [packL3]; omega) (by simp only [packL3]; omega)
theorem Words.abort (a : BitVec 7) (st : BitVec 2) : Words.Statement (.abort a st) := by
  have := a.isLt; have := st.isLt
  exact long_word rfl rfl (by simp only [packL3]; omega) (by simp only [packL3]; omega)
theorem Words.haltc (d : BitVec 7) (a : BitVec 7) (st : BitVec 2) : Words.Statement (.haltc d a st) := by
  have := d.isLt; have := a.isLt; have := st.isLt
  exact long_word rfl rfl (by simp only [packL3]; omega) (by simp only [packL3]; omega)
theorem Words.wake (st : BitVec 2) : Words.Statement (.wake st) := by
  have := st.isLt
  exact long_word rfl rfl (by simp only [packL3]; omega) (by simp only [packL3]; omega)
theorem Words.hint (f : BitVec 2) (r : BitVec 21) (maj : BitVec 1) (st : BitVec 2) : Words.Statement (.hint f r maj st) := by
  have := f.isLt; have := r.isLt; have := maj.isLt; have := st.isLt
  exact long_word rfl rfl (by omega) (by omega)
theorem Words.movShort (d : BitVec 4) (a : BitVec 4) : Words.Statement (.movShort d a) := by
  have := d.isLt; have := a.isLt
  exact short_word rfl rfl (by simp only [packShort]; omega) (by simp only [packShort]; omega)
theorem Words.addiShort (d : BitVec 4) (a : BitVec 4) (i : BitVec 3) : Words.Statement (.addiShort d a i) := by
  have := d.isLt; have := a.isLt; have := i.isLt
  exact short_word rfl rfl (by simp only [packShort]; omega) (by simp only [packShort]; omega)
theorem Words.addShort (d : BitVec 4) (a : BitVec 4) : Words.Statement (.addShort d a) := by
  have := d.isLt; have := a.isLt
  exact short_word rfl rfl (by simp only [packShort]; omega) (by simp only [packShort]; omega)
theorem Words.subShort (d : BitVec 4) (a : BitVec 4) : Words.Statement (.subShort d a) := by
  have := d.isLt; have := a.isLt
  exact short_word rfl rfl (by simp only [packShort]; omega) (by simp only [packShort]; omega)
theorem Words.andShort (d : BitVec 4) (a : BitVec 4) : Words.Statement (.andShort d a) := by
  have := d.isLt; have := a.isLt
  exact short_word rfl rfl (by simp only [packShort]; omega) (by simp only [packShort]; omega)
theorem Words.orShort (d : BitVec 4) (a : BitVec 4) : Words.Statement (.orShort d a) := by
  have := d.isLt; have := a.isLt
  exact short_word rfl rfl (by simp only [packShort]; omega) (by simp only [packShort]; omega)
theorem Words.xorShort (d : BitVec 4) (a : BitVec 4) : Words.Statement (.xorShort d a) := by
  have := d.isLt; have := a.isLt
  exact short_word rfl rfl (by simp only [packShort]; omega) (by simp only [packShort]; omega)
theorem Words.shliShort (d : BitVec 4) (a : BitVec 4) (n : BitVec 3) : Words.Statement (.shliShort d a n) := by
  have := d.isLt; have := a.isLt; have := n.isLt
  exact short_word rfl rfl (by simp only [packShort]; omega) (by simp only [packShort]; omega)
theorem Words.shriShort (d : BitVec 4) (a : BitVec 4) (n : BitVec 3) : Words.Statement (.shriShort d a n) := by
  have := d.isLt; have := a.isLt; have := n.isLt
  exact short_word rfl rfl (by simp only [packShort]; omega) (by simp only [packShort]; omega)
theorem Words.ldDShort (d : BitVec 4) (a : BitVec 4) (o : BitVec 3) : Words.Statement (.ldDShort d a o) := by
  have := d.isLt; have := a.isLt; have := o.isLt
  exact short_word rfl rfl (by simp only [packShort]; omega) (by simp only [packShort]; omega)
theorem Words.stDShort (d : BitVec 4) (a : BitVec 4) (o : BitVec 3) : Words.Statement (.stDShort d a o) := by
  have := d.isLt; have := a.isLt; have := o.isLt
  exact short_word rfl rfl (by simp only [packShort]; omega) (by simp only [packShort]; omega)
theorem Words.liShort (d : BitVec 4) (i : BitVec 7) : Words.Statement (.liShort d i) := by
  have := d.isLt; have := i.isLt
  exact short_word rfl rfl (by omega) (by omega)
theorem Words.nopShort : Words.Statement .nopShort := short_word rfl rfl (by decide) (by decide)
theorem Words.yieldShort : Words.Statement .yieldShort := short_word rfl rfl (by decide) (by decide)
theorem Words.retShort : Words.Statement .retShort := short_word rfl rfl (by decide) (by decide)
theorem Words.jrShort (a : BitVec 4) : Words.Statement (.jrShort a) := by
  have := a.isLt
  exact short_word rfl rfl (by simp only [packShort]; omega) (by simp only [packShort]; omega)
theorem Words.haltShort : Words.Statement .haltShort := short_word rfl rfl (by decide) (by decide)
theorem Words.delayedRegisterWrite : Words.Statement .delayedRegisterWrite := no_word rfl rfl
theorem Words.asyncTrapRaise : Words.Statement .asyncTrapRaise := no_word rfl rfl
theorem Words.vectorStep : Words.Statement .vectorStep := no_word rfl rfl
theorem Words.bmovStep : Words.Statement .bmovStep := no_word rfl rfl
theorem Words.slotRemoval : Words.Statement .slotRemoval := no_word rfl rfl
theorem Words.slotRestore : Words.Statement .slotRestore := no_word rfl rfl
theorem Words.debugStop : Words.Statement .debugStop := no_word rfl rfl
theorem Words.breakpoint : Words.Statement .breakpoint := no_word rfl rfl
theorem Words.suspDelayExpiry : Words.Statement .suspDelayExpiry := no_word rfl rfl
theorem Words.homeRequest : Words.Statement .homeRequest := no_word rfl rfl
theorem Words.parkSave : Words.Statement .parkSave := no_word rfl rfl
theorem Words.parkConfirm : Words.Statement .parkConfirm := no_word rfl rfl
theorem Words.homeReply : Words.Statement .homeReply := no_word rfl rfl
theorem Words.storeAcknowledge : Words.Statement .storeAcknowledge := no_word rfl rfl
theorem Words.revocation : Words.Statement .revocation := no_word rfl rfl
theorem Words.portAccess : Words.Statement .portAccess := no_word rfl rfl
theorem Words.metadataUpdate : Words.Statement .metadataUpdate := no_word rfl rfl
theorem Words.tlbWalkComplete : Words.Statement .tlbWalkComplete := no_word rfl rfl
theorem Words.copyCommandStart : Words.Statement .copyCommandStart := no_word rfl rfl
theorem Words.copyChunkReadReply : Words.Statement .copyChunkReadReply := no_word rfl rfl
theorem Words.copyChunkWrite : Words.Statement .copyChunkWrite := no_word rfl rfl
theorem Words.gatherBegin : Words.Statement .gatherBegin := no_word rfl rfl
theorem Words.gatherEnd : Words.Statement .gatherEnd := no_word rfl rfl
theorem Words.arrayStart : Words.Statement .arrayStart := no_word rfl rfl
theorem Words.mxopComplete : Words.Statement .mxopComplete := no_word rfl rfl
theorem Words.portOperationComplete : Words.Statement .portOperationComplete := no_word rfl rfl
theorem Words.holdQuantumExpiry : Words.Statement .holdQuantumExpiry := no_word rfl rfl
theorem Words.dutyWindowStart : Words.Statement .dutyWindowStart := no_word rfl rfl
theorem Words.withheldIntervalStart : Words.Statement .withheldIntervalStart := no_word rfl rfl
theorem Words.engineGate : Words.Statement .engineGate := no_word rfl rfl
theorem Words.breakEvenHoldExpiry : Words.Statement .breakEvenHoldExpiry := no_word rfl rfl
theorem Words.inrushAdmission : Words.Statement .inrushAdmission := no_word rfl rfl
theorem Words.engineWakeComplete : Words.Statement .engineWakeComplete := no_word rfl rfl
theorem Words.engineReturn : Words.Statement .engineReturn := no_word rfl rfl
theorem Words.attentionEngineComplete : Words.Statement .attentionEngineComplete := no_word rfl rfl
theorem Words.barrierArrival : Words.Statement .barrierArrival := no_word rfl rfl
theorem Words.barrierRelease : Words.Statement .barrierRelease := no_word rfl rfl
theorem Words.agingStep : Words.Statement .agingStep := no_word rfl rfl
theorem Words.stealProbe : Words.Statement .stealProbe := no_word rfl rfl
theorem Words.probeAnswer : Words.Statement .probeAnswer := no_word rfl rfl
theorem Words.stealRetryExpiry : Words.Statement .stealRetryExpiry := no_word rfl rfl
theorem Words.preemption : Words.Statement .preemption := no_word rfl rfl
theorem Words.commitArrival : Words.Statement .commitArrival := no_word rfl rfl
theorem Words.commitAnswer : Words.Statement .commitAnswer := no_word rfl rfl
theorem Words.cancel : Words.Statement .cancel := no_word rfl rfl
theorem Words.dropConfirmation : Words.Statement .dropConfirmation := no_word rfl rfl
theorem Words.checkpoint : Words.Statement .checkpoint := no_word rfl rfl
theorem Words.weirReport : Words.Statement .weirReport := no_word rfl rfl
theorem Words.messageArrival : Words.Statement .messageArrival := no_word rfl rfl
theorem Words.antiMessageArrival : Words.Statement .antiMessageArrival := no_word rfl rfl
theorem Words.inboxDispatch : Words.Statement .inboxDispatch := no_word rfl rfl
theorem Words.versionRevocation : Words.Statement .versionRevocation := no_word rfl rfl
theorem Words.lwTokenVisit : Words.Statement .lwTokenVisit := no_word rfl rfl
theorem Words.lwgapExpiry : Words.Statement .lwgapExpiry := no_word rfl rfl
theorem Words.lwMarkArrival : Words.Statement .lwMarkArrival := no_word rfl rfl
theorem Words.abortTokenVisit : Words.Statement .abortTokenVisit := no_word rfl rfl
theorem Words.restart : Words.Statement .restart := no_word rfl rfl
theorem Words.ringAnnouncement : Words.Statement .ringAnnouncement := no_word rfl rfl
theorem Words.rillToken : Words.Statement .rillToken := no_word rfl rfl
theorem Words.rillBeat : Words.Statement .rillBeat := no_word rfl rfl
theorem Words.readOut : Words.Statement .readOut := no_word rfl rfl
theorem Words.ringBreak : Words.Statement .ringBreak := no_word rfl rfl
theorem Words.packetRefusal : Words.Statement .packetRefusal := no_word rfl rfl
theorem Words.groupPark : Words.Statement .groupPark := no_word rfl rfl
theorem Words.groupWake : Words.Statement .groupWake := no_word rfl rfl
theorem Words.heaterSettle : Words.Statement .heaterSettle := no_word rfl rfl
theorem Words.lockComplete : Words.Statement .lockComplete := no_word rfl rfl
theorem Words.reset : Words.Statement .reset := no_word rfl rfl
theorem Words.incarnationAnnouncement : Words.Statement .incarnationAnnouncement := no_word rfl rfl
theorem Words.readySet : Words.Statement .readySet := no_word rfl rfl
theorem Words.migrRequestArrival : Words.Statement .migrRequestArrival := no_word rfl rfl
theorem Words.contextStreamEnd : Words.Statement .contextStreamEnd := no_word rfl rfl
theorem Words.forwardingEntryExpiry : Words.Statement .forwardingEntryExpiry := no_word rfl rfl
theorem Words.powerMeasurement : Words.Statement .powerMeasurement := no_word rfl rfl
theorem Words.retry : Words.Statement .retry := no_word rfl rfl
theorem Words.skip : Words.Statement .skip := no_word rfl rfl
theorem Words.drop : Words.Statement .drop := no_word rfl rfl
theorem Words.abortResp : Words.Statement .abortResp := no_word rfl rfl
theorem Words.hostLaunch : Words.Statement .hostLaunch := no_word rfl rfl
theorem Words.peerLaunch : Words.Statement .peerLaunch := no_word rfl rfl
theorem Words.stagingAccess : Words.Statement .stagingAccess := no_word rfl rfl
theorem Words.hostRegisterWrite : Words.Statement .hostRegisterWrite := no_word rfl rfl
theorem Words.identify : Words.Statement .identify := no_word rfl rfl
theorem Words.attest : Words.Statement .attest := no_word rfl rfl
theorem Words.jobOpen : Words.Statement .jobOpen := no_word rfl rfl
theorem Words.jobClose : Words.Statement .jobClose := no_word rfl rfl
theorem Words.tenantMap : Words.Statement .tenantMap := no_word rfl rfl
theorem Words.formatRange : Words.Statement .formatRange := no_word rfl rfl
theorem Words.actSet : Words.Statement .actSet := no_word rfl rfl
theorem Words.powerCap : Words.Statement .powerCap := no_word rfl rfl
theorem Words.groupSet : Words.Statement .groupSet := no_word rfl rfl
theorem Words.circuitChange : Words.Statement .circuitChange := no_word rfl rfl
theorem Words.parkPolicy : Words.Statement .parkPolicy := no_word rfl rfl
theorem Words.traceCtl : Words.Statement .traceCtl := no_word rfl rfl
theorem Words.lockstep : Words.Statement .lockstep := no_word rfl rfl
theorem Words.illegalEncoding : Words.Statement .illegalEncoding := no_word rfl rfl
theorem Words.instructionFetchFault : Words.Statement .instructionFetchFault := no_word rfl rfl
theorem Words.notSupportedCommand : Words.Statement .notSupportedCommand := no_word rfl rfl
theorem Words.evqheadAdvance : Words.Statement .evqheadAdvance := no_word rfl rfl

end Sys2Proof.Laws
end

