-- ==== Sys2Proof/Tests/Slice0.lean ====
section
/-! SUPPORT. Tests of the model and witnesses of the statements' hypotheses: ill-formed terms that the check refuses, words written out
from the encoding tables, single steps on a small state, and for each clause of a statement a state that meets what it asks. -/

namespace Sys2Proof.Tests

open Sys2Proof Sys2Proof.Machine Sys2Proof.Claims

set_option Elab.async false

/-! ## Well-formedness: each check refuses -/

theorem test_wf_add : (Instr.add 1 2 3 0).wf = true := by decide +kernel
theorem test_wf_refuses_a_step : Instr.reset.wf = false ∧ Instr.reset.isWord = false := by decide +kernel
theorem test_wf_refuses_addsh_4 : (Instr.addsh 1 2 3 3 0).wf = false ∧ (Instr.addsh 1 2 3 3 0).fieldsOk = false := by decide +kernel
theorem test_wf_refuses_hint_of_wake : (Instr.hint 0 5 0 0).wf = false ∧ (Instr.hint 1 5 0 0).wf = true := by decide +kernel
theorem test_wf_refuses_sat_of_fp32 : (Instr.fcvt 1 2 1 1 0 0).wf = false ∧ (Instr.fcvt 1 2 1 4 0 0).wf = true := by decide +kernel
theorem test_wf_refuses_format_5 : (Instr.fcvt 1 2 0 5 0 0).wf = false ∧ (Instr.fcvt 1 2 0 5 0 0).codesOk = false := by decide +kernel
theorem test_wf_refuses_fcvt_to_itself : (Instr.fcvt 1 2 0 1 1 0).wf = false := by decide +kernel
theorem test_wf_refuses_icvt_of_e4m3 : (Instr.icvt 1 2 0 0 0 3 0).wf = false := by decide +kernel

/-! ## Decoding: a word of every constructor, from its match value and field positions in the opcode table (02 R37 to R43) -/

/-- Long words, ADD to BFI of the table. -/
def words0 : List (Nat × Instr) :=
  [(0x12B2920D, .add 73 50 37 2), (0x52B2920D, .sub 73 50 37 2), (0x92B2920D, .mul 73 50 37 2), (0xD2B2920D, .mulh 73 50 37 2),
   (0x12B29215, .mulhu 73 50 37 2), (0x52B29215, .div 73 50 37 2), (0x92B29215, .divu 73 50 37 2), (0xD2B29215, .rem 73 50 37 2),
   (0x12B2921D, .remu 73 50 37 2), (0x52B2921D, .min 73 50 37 2), (0x92B2921D, .max 73 50 37 2), (0xD2B2921D, .minu 73 50 37 2),
   (0x12B29225, .maxu 73 50 37 2), (0x52B29225, .and 73 50 37 2), (0x92B29225, .or 73 50 37 2), (0xD2B29225, .xor 73 50 37 2),
   (0x12B2922D, .andn 73 50 37 2), (0x52B2922D, .shl 73 50 37 2), (0x92B2922D, .shr 73 50 37 2), (0xD2B2922D, .sar 73 50 37 2),
   (0x12B29235, .rol 73 50 37 2), (0x52B29235, .seq 73 50 37 2), (0x92B29235, .sne 73 50 37 2), (0xD2B29235, .slt 73 50 37 2),
   (0x12B2923D, .sltu 73 50 37 2), (0x52B2923D, .sel 73 50 37 2), (0x92B2923D, .bfx 73 50 37 2), (0xD2B2923D, .bfi 73 50 37 2)]

/-- Long words, ADDSH to BLTZ of the table. -/
def words1 : List (Nat × Instr) :=
  [(0x92B29245, .addsh 73 50 37 2 2), (0xD2899245, .sadd 73 9 37 2), (0x10B2924D, .shli 73 50 33 2), (0x50B2924D, .shri 73 50 33 2),
   (0x90B2924D, .sari 73 50 33 2), (0xC032924D, .mov 73 50 2), (0xC0B2924D, .clz 73 50 2), (0xC132924D, .ctz 73 50 2),
   (0xC1B2924D, .popc 73 50 2), (0xC232924D, .sextB 73 50 2), (0xC2B2924D, .sextH 73 50 2), (0xC332924D, .sextW 73 50 2),
   (0xC3B2924D, .zextB 73 50 2), (0xC432924D, .zextH 73 50 2), (0xC4B2924D, .zextW 73 50 2), (0xC500924D, .rdcyc 73 2),
   (0xC580924D, .rdid 73 2), (0xC609924D, .srd 73 9 2), (0xC6B2124D, .swr 9 50 2), (0x80B29255, .addi 73 50 0x101 2),
   (0x80B2925D, .andi 73 50 0x101 2), (0x80B29265, .ori 73 50 0x101 2), (0x80B2926D, .xori 73 50 0x101 2),
   (0x80019275, .li 73 0x8001 2), (0x8001927D, .lih 73 0x8001 2), (0x80806485, .bz 50 0x101 2), (0x80816485, .bnz 50 0x101 2),
   (0x80826485, .bltz 50 0x101 2)]

/-- Long words, BGEZ to LDX of the table. -/
def words2 : List (Nat × Instr) :=
  [(0x80836485, .bgez 50 0x101 2), (0x80846485, .dbnz 50 0x101 2), (0x80A5648D, .beq 50 37 0x101 2), (0x80A56495, .bne 50 37 0x101 2),
   (0x80A5649D, .blt 50 37 0x101 2), (0x80A564A5, .bltu 50 37 0x101 2), (0x800002AD, .j 0x400001 2), (0x800002B5, .call 0x400001 2),
   (0x000000BD, .ret 2), (0x403200BD, .jr 50 2), (0x803292BD, .jalr 73 50 2), (0xC03200BD, .rep 50 2), (0xC0B200BD, .susp 50 2),
   (0xC10000BD, .halt 2), (0xC18000BD, .yield 2), (0xC20000BD, .nop 2), (0x10B292C5, .ldB 73 50 33 2), (0x30B292C5, .ldBU 73 50 33 2),
   (0x50B292C5, .ldH 73 50 33 2), (0x70B292C5, .ldHU 73 50 33 2), (0x90B292C5, .ldW 73 50 33 2), (0xB0B292C5, .ldWU 73 50 33 2),
   (0xD0B292C5, .ldD 73 50 33 2), (0x10B292CD, .stB 73 50 33 2), (0x50B292CD, .stH 73 50 33 2), (0x90B292CD, .stW 73 50 33 2),
   (0xD0B292CD, .stD 73 50 33 2), (0x12B292D5, .ldx 73 50 37 2)]

/-- Long words, STX to STFE_EF of the table. -/
def words3 : List (Nat × Instr) :=
  [(0x52B292D5, .stx 73 50 37 2), (0x803292D5, .ldAcq 73 50 2), (0x80B292D5, .stRel 73 50 2), (0x810000D5, .fenceAcq 2),
   (0x818000D5, .fenceRel 2), (0x820000D5, .fenceFull 2), (0x828000D5, .lbsync 2), (0x833292D5, .feq 73 50 2),
   (0x83B200D5, .fesetE 50 2), (0x843200D5, .fesetF 50 2), (0x84B200D5, .pref 50 2), (0x853200D5, .drinitF32 50 2),
   (0x85B200D5, .drinitF64 50 2), (0x863292D5, .dredF32 73 50 2), (0x86B292D5, .dredBf16 73 50 2), (0x873292D5, .dredF64 73 50 2),
   (0x87B292D5, .dredAcc 73 50 2), (0x883292D5, .dreadF32 73 50 2), (0x88B292D5, .dreadBf16 73 50 2), (0x893292D5, .dreadF64 73 50 2),
   (0x89B292D5, .dreadAcc 73 50 2), (0x003292DD, .ldfeFf 73 50 2), (0x403292DD, .ldfeFe 73 50 2), (0x803292DD, .ldfeEf 73 50 2),
   (0xD2B292DD, .bmov 73 50 37 2), (0x003292E5, .stfeFf 73 50 2), (0x403292E5, .stfeFe 73 50 2), (0x803292E5, .stfeEf 73 50 2)]

/-- Long words, STFE_XF to FCLASS_F32 of the table. -/
def words4 : List (Nat × Instr) :=
  [(0xC03292E5, .stfeXf 73 50 2), (0x12B292ED, .atomAdd 73 50 37 2), (0x52B292ED, .atomAnd 73 50 37 2),
   (0x92B292ED, .atomOr 73 50 37 2), (0xD2B292ED, .atomXor 73 50 37 2), (0x12B292F5, .atomMin 73 50 37 2),
   (0x52B292F5, .atomMax 73 50 37 2), (0x92B292F5, .atomMinu 73 50 37 2), (0xD2B292F5, .atomMaxu 73 50 37 2),
   (0x12B292FD, .atomSwap 73 50 37 2), (0x52B292FD, .cas 73 50 37 2), (0x92B292FD, .fatomAddF32 73 50 37 2),
   (0xD2B292FD, .fatomAddF64 73 50 37 2), (0x12B29305, .faddF32 73 50 37 2), (0x52B29305, .fsubF32 73 50 37 2),
   (0x92B29305, .fmulF32 73 50 37 2), (0xD2B29305, .fdivF32 73 50 37 2), (0x12B2930D, .faddF64 73 50 37 2),
   (0x52B2930D, .fsubF64 73 50 37 2), (0x92B2930D, .fmulF64 73 50 37 2), (0xD2B2930D, .fdivF64 73 50 37 2),
   (0x12B29315, .fminF32 73 50 37 2), (0x52B29315, .fmaxF32 73 50 37 2), (0x92B29315, .ffmaF32 73 50 37 2),
   (0xC0329315, .fsqrtF32 73 50 2), (0xC0B29315, .fabsF32 73 50 2), (0xC1329315, .fnegF32 73 50 2), (0xC1B29315, .fclassF32 73 50 2)]

/-- Long words, FMIN_F64 to VRCP of the table. -/
def words5 : List (Nat × Instr) :=
  [(0x12B2931D, .fminF64 73 50 37 2), (0x52B2931D, .fmaxF64 73 50 37 2), (0x92B2931D, .ffmaF64 73 50 37 2),
   (0xC032931D, .fsqrtF64 73 50 2), (0xC0B2931D, .fabsF64 73 50 2), (0xC132931D, .fnegF64 73 50 2), (0xC1B2931D, .fclassF64 73 50 2),
   (0x12B29325, .fcmpEqF32 73 50 37 2), (0x52B29325, .fcmpLtF32 73 50 37 2), (0x92B29325, .fcmpLeF32 73 50 37 2),
   (0xD2B29325, .fcmpUnF32 73 50 37 2), (0x12B2932D, .fcmpEqF64 73 50 37 2), (0x52B2932D, .fcmpLtF64 73 50 37 2),
   (0x92B2932D, .fcmpLeF64 73 50 37 2), (0xD2B2932D, .fcmpUnF64 73 50 37 2), (0x31329335, .fcvt 73 50 1 4 2 2),
   (0x79329335, .icvt 73 50 1 1 1 2 2), (0x12B29345, .vadd 73 50 37 2), (0x52B29345, .vsub 73 50 37 2), (0x92B29345, .vmul 73 50 37 2),
   (0xD2B29345, .vfma 73 50 37 2), (0x12B2934D, .vmax 73 50 37 2), (0x52B2934D, .vmin 73 50 37 2), (0x8032934D, .vscale 73 50 2),
   (0xD2B2934D, .vcmp 73 50 37 2), (0x00009355, .vset 73 2), (0x40329355, .vexp2 73 50 2), (0x80329355, .vrcp 73 50 2)]

/-- Long words, VRED to SEND of the table. -/
def words6 : List (Nat × Instr) :=
  [(0xC0329355, .vred 73 50 2), (0x0032935D, .vcvt 73 50 2), (0x52B2935D, .vqnt 73 50 37 2), (0x92B2935D, .vdeq 73 50 37 2),
   (0x00320B65, .oxl 5 50 2), (0x40059365, .oxr 73 5 2), (0x80010B6D, .oxli 5 0x8001 2), (0x12B29375, .cpy 73 50 37 2),
   (0x52B29375, .cpyV 73 50 37 2), (0x92B29375, .cpyW 73 50 37 2), (0xD2B29375, .cpym 73 50 37 2), (0x12B2017D, .tlw 50 37 2),
   (0x4032937D, .tlr 73 50 2), (0x12B20B85, .mxop 5 50 37 2), (0x40000B85, .mxz 5 2), (0x80320B85, .mxld 5 50 2),
   (0xC0320B85, .mxst 5 50 2), (0x0032018D, .mxuc 50 2), (0x4032938D, .mxmode 73 50 2), (0x00039395, .twx 73 3 2),
   (0x40039395, .twr 73 3 2), (0x80320795, .tww 3 50 2), (0x0032939D, .licq 73 50 2), (0x4000019D, .licr 2),
   (0x003293B5, .spawn 73 50 2), (0x403293B5, .spawnInl 73 50 2), (0x803201B5, .commit 50 2), (0xC03293B5, .send 73 50 2)]

/-- Long words, IRREV to HALTC of the table. -/
def words7 : List (Nat × Instr) :=
  [(0x003293BD, .irrev 73 50 2), (0x403201BD, .work 50 2), (0x800093BD, .tvt 73 2), (0xC03293BD, .lwait 73 50 2),
   (0x00320BC5, .barc 5 50 2), (0x40000BC5, .bar 5 2), (0x80000BC5, .barw 5 2), (0x003293D5, .rjoin 73 50 2),
   (0x52B293D5, .rsend 73 50 37 2), (0x92B293D5, .rwait 73 50 37 2), (0xD2B201D5, .rrel 50 37 2), (0x003201DD, .rleave 50 2),
   (0x403293DD, .attnInit 73 50 2), (0x92B293DD, .attnStep 73 50 37 2), (0xC03293DD, .attnFin 73 50 2), (0x808093E5, .csrr 73 0x101 2),
   (0x808193E5, .csrw 73 0x101 2), (0x808293E5, .csrs 73 0x101 2), (0x808393E5, .csrc 73 0x101 2), (0x003201ED, .trap 50 2),
   (0x008001ED, .eret 2), (0x013293ED, .migr 73 50 2), (0x01B293ED, .slot 73 50 2), (0x023201ED, .xinv 50 2),
   (0x02B293ED, .xprobe 73 50 2), (0x033293ED, .fwd 73 50 2), (0x03B201ED, .abort 50 2), (0x043293ED, .haltc 73 50 2)]

/-- Long words, WAKE to HINT of the table. -/
def words8 : List (Nat × Instr) :=
  [(0x000001F5, .wake 2), (0xE00003FD, .hint 3 0x100001 1 2)]

/-- The short words. -/
def tableShort : List (Nat × Instr) :=
  [(0x1320, .movShort 9 9), (0xB322, .addiShort 9 9 5), (0x1324, .addShort 9 9), (0x1326, .subShort 9 9), (0x1328, .andShort 9 9),
   (0x132A, .orShort 9 9), (0x132C, .xorShort 9 9), (0xB32E, .shliShort 9 9 5), (0xB330, .shriShort 9 9 5), (0xB332, .ldDShort 9 9 5),
   (0xB334, .stDShort 9 9 5), (0x8336, .liShort 9 65), (0x0018, .nopShort), (0x2018, .yieldShort), (0x4018, .retShort),
   (0x7218, .jrShort 9), (0x8018, .haltShort)]

theorem test_decode_words0 : ∀ p ∈ words0, decode (toBytes p.1 4) = .ok (p.2, []) ∧ p.2.wf = true := by decide +kernel
theorem test_decode_words1 : ∀ p ∈ words1, decode (toBytes p.1 4) = .ok (p.2, []) ∧ p.2.wf = true := by decide +kernel
theorem test_decode_words2 : ∀ p ∈ words2, decode (toBytes p.1 4) = .ok (p.2, []) ∧ p.2.wf = true := by decide +kernel
theorem test_decode_words3 : ∀ p ∈ words3, decode (toBytes p.1 4) = .ok (p.2, []) ∧ p.2.wf = true := by decide +kernel
theorem test_decode_words4 : ∀ p ∈ words4, decode (toBytes p.1 4) = .ok (p.2, []) ∧ p.2.wf = true := by decide +kernel
theorem test_decode_words5 : ∀ p ∈ words5, decode (toBytes p.1 4) = .ok (p.2, []) ∧ p.2.wf = true := by decide +kernel
theorem test_decode_words6 : ∀ p ∈ words6, decode (toBytes p.1 4) = .ok (p.2, []) ∧ p.2.wf = true := by decide +kernel
theorem test_decode_words7 : ∀ p ∈ words7, decode (toBytes p.1 4) = .ok (p.2, []) ∧ p.2.wf = true := by decide +kernel
theorem test_decode_words8 : ∀ p ∈ words8, decode (toBytes p.1 4) = .ok (p.2, []) ∧ p.2.wf = true := by decide +kernel
theorem test_decode_tableShort : ∀ p ∈ tableShort, decode (toBytes p.1 2) = .ok (p.2, []) ∧ p.2.wf = true := by decide +kernel

/-! ## A small state -/

/-- The table entry for a 1 GB page at a physical address, readable, writable and executable. -/
def leaf (pa : Nat) : Word := BitVec.ofNat 64 (pa + 0x3D)

/-- A strand with all 128 registers. -/
def strand : Slot := { live := true, gang := 1, n := 128 }

/-- The job of the tests: the whole module, its addresses from 0x40000000 mapped to HBM from 0. -/
def job : Job :=
  { isOpen := true, tenant := 1, subW := 32, subH := 16, root := 0x1000, poolBase := 0x40100000, poolBytes := 0x10000,
    pages := [(0x4010, 0x100000)] }

/-- The strand's gang: one strand on core 0. -/
def gang : Gang :=
  { live := true, job := 1, running := 1, packet := [0, 0, 0, 0, 0, 0, 0x10001, 0], hdr := 0x8001, tiles := [(0, [0, 1])], bars := [(0, [0, 1])] }

/-- One strand in slot 0 of core 0, its job's tables in HBM. -/
def base : State :=
  { State.reset with
    now := 0x10000, ready := 0x7FFFFFFFFF, slots := [(0, strand)], gangs := [(1, gang)], jobs := [(1, job)]
    tenants := [(1, { valid := true, w := 32, h := 16, rate := 1, cap := 1000 })]
    mem := memWords (memWords [] 0x1000 [0x2001]) 0x2008 [leaf 0] }

/-- A register of the strand set. -/
def reg (s : State) (r : BitVec 7) (v : Word) : State := s.setMe (s.me.wx r v)

/-- Several registers of the strand set. -/
def regs (s : State) (l : List (BitVec 7 × Word)) : State := s.setMe (l.foldl (fun m p => m.wx p.1 p.2) s.me)

/-- A slot replaced by a change of it. -/
def slotIs (s : State) (id : Nat) (f : Slot → Slot) : State := s.setSlot id (f (s.slot id))

/-- The step being performed. -/
def at_ (s : State) (e : Ev) : State := { s with ev := some e }

/-! ## Scalar instructions: witnesses -/

/-- x1 the most negative word, x2 all ones, x3 5, x4 a base in local memory, x5 one in HBM. -/
def int : State := 
  regs base [(1, 0x8000000000000000), (2, 0xFFFFFFFFFFFFFFFF), (3, 5), (4, 0x100), (5, 0x40200040)]

/-- Registers at both ends of the window, and one that is source and destination. -/
theorem meets_IntegerResults :
    (∀ f ∈ threeRegister int 127 0 1 2 3, Settled int f.regs) ∧ (∀ f ∈ threeRegister int 1 1 1 0 0, Settled int f.regs) ∧
    (∀ f ∈ shiftsAndFields int 127 0 1 63 3, Settled int f.regs) := by
  unfold Settled; decide +kernel

theorem meets_ControlFlowAndLateResults_of_divisions :
    (∀ f ∈ divisions int 3 1 2 1, Settled int f.regs) ∧ ¬ 40 ≤ 16 * (1 + (1 : BitVec 2).toNat) ∧ 40 ≤ 16 * (1 + (2 : BitVec 2).toNat) := by
  unfold Settled; decide +kernel

theorem meets_IntegerResults_of_constants :
    (∀ f ∈ immediateAndSingle int 127 1 0x100 0x8000 3, Settled int f.regs) ∧ (∀ f ∈ shortWords int 15 0 7 64, Settled int f.regs) ∧
    (∀ f ∈ identityReads int 0 15 0, Settled int f.regs) := by
  unfold Settled; decide +kernel

theorem meets_ControlFlowAndLateResults_of_shared_writes : Settled int [1] ∧ Settled int [127, 1] := by unfold Settled; decide +kernel

theorem meets_ControlFlowAndLateResults :
    (∀ f ∈ branches int 1 2 0x1FF 0, Settled int f.regs) ∧ (∀ f ∈ jumps int 127 15 0x7FFFFF 3, Settled int f.regs) ∧
    Settled int [3] ∧ Settled int [3, 3] := by
  unfold Settled; decide +kernel

/-- Results on fixed values: 03 R50 to R53. -/
theorem test_results :
    (divisions int 3 1 2 0).map (·.value) = [0x8000000000000000, 0, 0, 0x8000000000000000] ∧
    (match exec (.div 6 1 2 2) int with | .next t => t.rx 6 | _ => 1) = 0x8000000000000000 ∧
    (match exec (.mulh 6 1 2 0) int with | .next t => t.rx 6 | _ => 1) = 0 ∧
    (match exec (.mulhu 6 1 2 0) int with | .next t => t.rx 6 | _ => 0) = 0x7FFFFFFFFFFFFFFF ∧
    (match exec (.addi 3 3 0x1FF 0) int with | .next t => t.rx 3 | _ => 0) = 4 ∧
    (match exec (.lih 3 0x8000 0) int with | .next t => t.rx 3 | _ => 0) = 0x58000 := by decide +kernel

/-! ## Memory: witnesses -/

/-- `int` with x4 at the last doubleword of the private alias and x5 at the last of a page of HBM that is a reduction line. -/
def edge : State := reg (reg int 4 0x17FFF8) 5 0x4020FFC0
/-- The words of `edge` at x5: marked F32 and F64. -/
def edge32 : State := { edge with drLines := [(0x20FFC0, .f32, 1)] }
def edge64 : State := { edge with drLines := [(0x20FFC0, .f64, 1)] }
/-- The word at x5 full. -/
def full : State := { edge with fe := [0x20FFC0] }

theorem meets_Loads :
    (∀ f ∈ loads (reg edge 2 0) 6 4 2 6 4 0 0 0, Settled (reg edge 2 0) f.regs ∧
      Reaches (reg edge 2 0) f.size f.addr .read (.ownMem (localBase 0 + 0x17FFF8))) ∧
    (∀ f ∈ loads (reg edge 2 0) 6 5 2 6 5 0 0 0, Reaches (reg edge 2 0) f.size f.addr .read (.hbm 0x20FFC0 false)) ∧
    edge.damagedLocal (localBase 0 + 0x17FFF8) 8 = false ∧ cached edge 0x20FFC0 = none ∧
    edge.homeRefusal (.load 8) 0x20FFC0 false = none ∧
    Unhindered edge (.ownMem (localBase 0 + 0x17FFF8)) ∧ Unhindered edge (.hbm 0x20FFC0 false) ∧
    Unhindered edge (.window (localBase 3) 3) ∧
    cached (edge.setCore 0 { (edge.core 0) with l1 := [{ addr := 0x20FFC0, words := Vector.replicate 8 { valid := true, data := 7 } }] })
      0x20FFC0 = some 7 := by
  simp only [Settled, Reaches, Unhindered]; decide +kernel

/-- `edge` with the bank of x4's word taken in this cycle by the copy engine. -/
def taken : State :=
  edge.setCore 0 { edge.core 0 with claims :=
    [{ bank := bankOf (localBase 0 + 0x17FFF8), cycle := edge.cycleOf 0, rank := rankCopy, owner := ownerCopy 0 1 }] }

theorem meets_BanksTimedPacketsAndErrors_of_banks :
    taken.winBank (localBase 0 + 0x17FFF8) = none ∧ taken.mayWrite (.ownMem (localBase 0 + 0x17FFF8)) = true ∧ taken.me.unacked = [] ∧
    (∀ f ∈ loads (reg taken 2 0) 6 4 2 6 4 0 0 0, Settled (reg taken 2 0) f.regs ∧
      Reaches (reg taken 2 0) f.size f.addr .read (.ownMem (localBase 0 + 0x17FFF8))) ∧
    (∀ f ∈ stores (reg taken 2 0) 6 4 2 6 4 0 0 0, Settled (reg taken 2 0) f.regs ∧
      Reaches (reg taken 2 0) f.size f.addr .write (.ownMem (localBase 0 + 0x17FFF8))) := by
  unfold Settled Reaches; decide +kernel

/-- `edge` under a DET job. -/
def det : State := { reg edge 2 0 with jobs := [(1, { job with det := true })] }

theorem meets_BanksTimedPacketsAndErrors_of_packets :
    det.timedHome 0x20FFC0 = true ∧ cached det 0x20FFC0 = none ∧
    ∀ f ∈ loads det 6 5 2 6 5 0 0 0, Settled det f.regs ∧ Reaches det f.size f.addr .read (.hbm 0x20FFC0 false) := by
  unfold Settled Reaches; decide +kernel

theorem served {f : HomeForm} {s : State} {pa : Nat} (h : Settled s f.regs ∧ Reaches s f.size f.addr f.acc (.hbm pa false) ∧
    s.timedHome pa = false ∧ (f.acc ≠ .read → s.myGang.confined = false) ∧ (f.rel = true → s.me.unacked = []) ∧
    s.homeRefusal f.op pa s.myGang.confined = none ∧ f.op.servable (s.feBit pa) = true) : f.Served s pa :=
  ⟨h.1, ⟨false, h.2.1⟩, h.2.2⟩

theorem meets_StoresWriteTheirBytes :
    (∀ f ∈ stores (reg edge 2 0) 6 4 2 6 4 0 0 0, Settled (reg edge 2 0) f.regs ∧
      Reaches (reg edge 2 0) f.size f.addr .write (.ownMem (localBase 0 + 0x17FFF8)) ∧ f.addr.toNat < 0x180000) ∧
    (∀ f ∈ stores (reg edge 2 0) 6 5 2 6 5 0 0 0, Reaches (reg edge 2 0) f.size f.addr .write (.hbm 0x20FFC0 false) ∧
      edge.homeRefusal (.store f.size) 0x20FFC0 false = none) ∧
    edge.mayWrite (.hbm 0x20FFC0 false) = true ∧ edge.mayWrite (.ownMem (localBase 0 + 0x17FFF8)) = true ∧
    placeAddr (.ownMem (localBase 0 + 0x17FFF8)) = some (localBase 0 + 0x17FFF8) ∧ edge.me.unacked = [] ∧
    Unhindered edge (.ownMem (localBase 0 + 0x17FFF8)) ∧ Unhindered edge (.hbm 0x20FFC0 false) := by
  simp only [Settled, Reaches, Unhindered]; decide +kernel

theorem meets_AtomicsReturnTheOldValue : ∀ f ∈ atomics edge 0x20FFC0 6 5 3 0, f.form.Served edge 0x20FFC0 :=
  fun f hf => served (by revert f hf; unfold Settled Reaches; decide +kernel)

/-- Each mode meets a word at the FE value it needs, and another at the value it has not. -/
theorem meets_FullEmptyAccesses :
    (∀ f ∈ fullEmpty edge 0x20FFC0 6 5 0, ∀ s ∈ [edge, full], f.needs.all (· == s.feBit 0x20FFC0) = true → f.form.Served s 0x20FFC0) ∧
    (∀ f ∈ fullEmpty edge 0x20FFC0 6 5 0, ∃ s ∈ [edge, full], f.needs.all (· == s.feBit 0x20FFC0) = true) ∧
    (∀ f ∈ fullEmpty edge 0x20FFC0 6 5 0, f.needs = none ∨ ∃ s ∈ [edge, full], f.needs = some (!s.feBit 0x20FFC0)) ∧
    Unwatched edge 0x20FFC0 ∧ Unwatched full 0x20FFC0 :=
  ⟨fun f hf s hs h => served (by revert f hf s hs; unfold Settled Reaches; decide +kernel),
    by decide +kernel, by decide +kernel, by unfold Unwatched; decide +kernel, by unfold Unwatched; decide +kernel⟩

theorem meets_FencesAndPrefetchComplete :
    edge.me.unacked = [] ∧ edge.me.badReg [5] = none ∧ (edge.setMe { edge.me with unacked := [0x40000000] }).me.unacked ≠ [] ∧ Settled edge [5] ∧
    (edge.cluster (clusterOf edge.coreId)).fused = false := by
  unfold Settled; decide +kernel

theorem meets_ReductionLines :
    (∀ p ∈ [(Instr.drinitF32 5 0, DrKind.f32), (Instr.drinitF64 5 0, DrKind.f64)],
      (drForm p.1 [5] (edge.rx 5) .write (.drinit p.2) none false 0).Served edge 0x20FFC0) ∧
    (∀ p ∈ addends edge 3 5 0, p.1.Served (if p.2.1 = .f32 then edge32 else edge64) 0x20FFC0) ∧
    (∀ p ∈ drReads edge 3 5 0, p.1.Served (if p.2 = .f64 then edge64 else edge32) 0x20FFC0) ∧
    (∀ s ∈ [edge32, edge64], (drForm (.dredAcc 120 5 0) (regRun 120 5 ++ [5]) (s.rx 5) .rmw (.dred .acc) none false 0).Served s 0x20FFC0 ∧
      (drForm (.dreadAcc 120 5 0) (regRun 120 5 ++ [5]) (s.rx 5) .read (.dread .acc) (some 120) true 0).Served s 0x20FFC0) ∧
    edge32.drKind 0x20FFC0 = some .f32 ∧ edge64.drKind 0x20FFC0 = some .f64 ∧
    edge32.me.runBad 123 DrKind.f32.regs = none ∧ Settled edge32 (5 :: regRun 123 DrKind.f32.regs) ∧
    edge64.me.runBad 120 DrKind.f64.regs = none ∧ Settled edge64 (5 :: regRun 120 DrKind.f64.regs) := by
  refine ⟨fun p hp => served ?_, fun p hp => served ?_, fun p hp => served ?_, fun s hs => ⟨served ?_, served ?_⟩, ?_⟩
  · revert p hp; unfold Settled Reaches; decide +kernel
  · revert p hp; unfold Settled Reaches; decide +kernel
  · revert p hp; unfold Settled Reaches; decide +kernel
  · revert s hs; unfold Settled Reaches; decide +kernel
  · revert s hs; unfold Settled Reaches; decide +kernel
  · unfold Settled; decide +kernel

/-- A strand in the middle of a move of 64 or 128 bytes. -/
def moving (n : Word) : State :=
  at_ (slotIs (regs int [(6, 0x17FFC0), (7, 0x17FF80), (8, n)]) 0 fun v => { v with wait := .bmov, rep := some (.bmov 6 7 8 0, 8) })
    (.bmovStep 0)

theorem meets_BlockMoves :
    Settled int [6, 7, 8] ∧ int.rx 8 = 0 ∧ (reg int 8 1).rx 8 ≠ 0 ∧
    ∀ s ∈ [moving 64, moving 128], (s.slot 0).wait = .bmov ∧ (s.slot 0).rep = some (.bmov 6 7 8 0, 8) ∧ (s.slot 0).stepAt ≤ s.now ∧
      (s.slot 0).bread = [] ∧ (s.slot 0).bput = 0 ∧ (s.core 0).claims = [] ∧
      s.ev = some (.bmovStep 0) ∧ (s.slot 0).mode = false ∧ (s.slot 0).unacked.length < 8 ∧
      (s.job (s.gang (s.slot 0).gang).job).groupBusy = false ∧ 8 < (s.slot 0).n ∧ (s.slot 0).rx 8 ≠ 0 ∧
      ((s.slot 0).rx 6).toNat % 64 = 0 ∧ ((s.slot 0).rx 7).toNat % 8 = 0 ∧ 64 ≤ ((s.slot 0).rx 8).toNat ∧
      ((s.slot 0).rx 6).toNat + 64 ≤ 0x180000 ∧ ((s.slot 0).rx 7).toNat + 64 ≤ 0x180000 ∧ s.bad = [] := by
  unfold Settled; decide +kernel

theorem meets_BlockMoves_no_inbox : ∀ i, i < 8 → (moving 64).inInbox (localBase (0 / 16) + ((moving 64).slot 0 |>.rx 6).toNat + 8 * i) = false := by
  decide +kernel

/-! ## Traps, due steps and floating point: witnesses -/

/-- The strand inside a handler, and inside one that a second trap nested. -/
def handler (n : List (Word × Word)) : State := slotIs int 0 fun v => { v with mode := true, cause := 3, epc := 0x40200011, nestedCsr := n }

theorem meets_TrapEntryAndReturn :
    (int.slot 0).mode = false ∧ (int.slot 0).nestedCsr = [] ∧ ((handler []).slot 0).mode = true ∧
    ((handler [(1, 0x40200001)]).slot 0).mode = true ∧ ((handler [(1, 0x40200001)]).slot 0).nestedCsr = (1, 0x40200001) :: [] := by
  decide +kernel

/-- A strand with a window of 16 registers; one with CHK set and a result to x6 under way. -/
def narrow : State := slotIs int 0 fun v => { v with n := 16 }
def early : State :=
  slotIs int 0 fun v => { v with chk := true, writes := [{ at_ := 0x10001, reg := some 6, fw := false, value := 1 }] }

/-- `int` with another leaf for its page, and with a confined gang. -/
def mapped (w : Word) : State := { int with mem := memWords int.mem 0x2008 [w] }
def confined : State := { int with gangs := [(1, { gang with flags := 1 })] }

theorem meets_ChecksTrap :
    narrow.me.badReg [15, 16, 1] = some 16 ∧ early.me.badReg [6, 1, 2] = none ∧ early.me.earlyReg [6, 1, 2] = some 6 ∧
    (0x17FFF9 : Word).toNat % 8 ≠ 0 ∧ (0x40000001 : Word).toNat % 2 ≠ 0 ∧
    (∀ f ∈ (loads (regs int [(2, 0), (4, 0x180000)]) 6 4 2 6 4 0 0 0), Settled (regs int [(2, 0), (4, 0x180000)]) f.regs ∧
      Reaches (regs int [(2, 0), (4, 0x180000)]) f.size f.addr .read (.xlat 4)) ∧
    (∀ f ∈ (stores (regs int [(2, 0), (4, 0x80000000)]) 6 4 2 6 4 0 0 0),
      Reaches (regs int [(2, 0), (4, 0x80000000)]) f.size f.addr .write (.xlat 1)) ∧
    Reaches (mapped 0x31) 8 0x40000008 .read .prot ∧
    Reaches (mapped 0x35) 8 0x40000008 .write .prot ∧
    Reaches confined 8 0x40000008 .write (.hbm 8 false) ∧
    State.mayWrite confined (.hbm 8 false) = false ∧
    (at_ int (.illegalEncoding 1)).ev = some (.illegalEncoding 1) ∧
    (at_ int (.instructionFetchFault true 0x40000000 0)).ev = some (.instructionFetchFault true 0x40000000 0) ∧
    (at_ int (.instructionFetchFault false 0x40000000 3)).ev = some (.instructionFetchFault false 0x40000000 3) := by
  unfold Settled Reaches; decide +kernel

/-- A result with the flag NX due, and core-shared writes due. -/
def dueWrite : DelayedWrite := { at_ := 0x10000, reg := some 6, fw := false, value := 9, flags := 1 }
def due : State := at_ (slotIs int 0 fun v => { v with writes := [dueWrite] }) (.delayedRegisterWrite 0)
def sharedDue (w : SharedWrite) : State := at_ (int.setCore 0 { (int.core 0) with sPend := [w] }) (.delayedRegisterWrite 0)
def sadd15 : SharedWrite := { at_ := 0x10000, reg := 15, add := true, value := 2, dst := some (0, false, 6) }

theorem meets_DueStepsTakeEffect_results :
    (due.slot 0).writes = [dueWrite] ∧ dueWrite.at_ ≤ due.now ∧ dueWrite.reg = some 6 ∧ dueWrite.fw = (due.slot 0).mode ∧
    dueWrite.flags &&& (due.slot 0).enables = 0 ∧ due.ev = some (.delayedRegisterWrite 0) ∧
    (∀ x ∈ (due.core 0).sPend, due.now < x.at_) ∧ (∀ k, k < 16 → k ≠ 0 → ∀ x ∈ (due.slot (0 * 16 + k)).writes, due.now < x.at_) ∧
    (sharedDue sadd15).ev = some (.delayedRegisterWrite 0) ∧ ((sharedDue sadd15).core 0).sPend = [sadd15] ∧
    sadd15.at_ ≤ (sharedDue sadd15).now ∧
    (∀ k, k < 16 → ∀ x ∈ ((sharedDue sadd15).slot (0 * 16 + k)).writes, (sharedDue sadd15).now < x.at_) ∧
    sadd15.dst = some (0 * 16 + 0, ((sharedDue sadd15).slot (0 * 16 + 0)).mode, 6) := by
  decide +kernel

theorem meets_DueStepsTakeEffect_slots :
    (∀ e ∈ [Ev.slotRemoval 0, .debugStop 0, .slotRestore 0, .breakpoint 0], (at_ int e).ev = some e ∧ ((at_ int e).slot 0).askers = [] ∧
      ((at_ int e).gang ((at_ int e).slot 0).gang).isRoam = false ∧ ((at_ int e).slot 0).wait = .none) ∧
    (int.slot 16383).live = false ∧ (int.slot 16383).askers = [] ∧
    ((slotIs int 0 fun v => { v with wait := .delay 0x10000 }).slot 0).wait = .delay 0x10000 ∧ 0x10000 ≤ int.now := by
  decide +kernel

/-- A strand with a pending asynchronous cause. -/
def raised : State := at_ (slotIs int 0 fun v => { v with pending := [{ info := { cause := .uncorrectable, addr := 0x40000000 } }] }) (.asyncTrapRaise 0)

theorem meets_DueStepsTakeEffect_raise :
    (raised.slot 0).pending.length = 1 ∧ (raised.slot 0).live = true ∧ (raised.slot 0).n ≠ 0 ∧ (raised.slot 0).mode = false ∧
    (raised.slot 0).wait = .none ∧ raised.ev = some (.asyncTrapRaise 0) := by decide +kernel

/-- The strand with a value in an ox register. -/
def ox (s : State) (k : Fin 8) (w : Word) : State := slotIs s 0 fun v => { v with ox := v.ox.set k w }

/-- `int` with the enable of NX set, with 1.0 and 3.0 in x6 and x7 as FP32, and with a signalling NaN in x8. -/
def fps (en : Word) : State := slotIs (regs int [(6, 0x3F800000), (7, 0x40400000), (8, 0x7FA00000)]) 0 fun v => { v with fcsr := en }

theorem meets_FloatResults :
    (∀ f ∈ floats (fps 0) 3 6 7 0, Settled (fps 0) f.regs) ∧
    ((floats (fps 0) 3 6 7 0).any fun f => f.result.2 &&& (fps 0).me.enables == 0 && decide (f.lat ≤ 16)) = true ∧
    ((floats (fps 0) 3 6 7 0).any fun f => f.result.2 &&& (fps 0).me.enables == 0 && decide (16 < f.lat)) = true ∧
    ((floats (fps 0x1F00) 3 6 8 0).any fun f => f.result.2 &&& (fps 0x1F00).me.enables != 0) = true := by
  unfold Settled; decide +kernel

theorem meets_FloatSignsClassesAndConversions :
    (∀ f ∈ signsAndClasses (fps 0) 3 8 0, Settled (fps 0) f.regs) ∧
    (∀ t, t < 5 → ∀ v, v < 5 → ((fmtOf v).all fun src => (fmtOf t).all fun dst =>
      (conversions (fps 0) 3 8 1 0 0 (BitVec.ofNat 3 t) (BitVec.ofNat 3 v) 3 src dst).all fun f =>
        (fps 0).me.badReg f.regs == none && (fps 0).me.earlyReg f.regs == none) = true ∧ (fmtOf v).isSome = true) ∧
    (conversions (fps 0) 3 8 1 0 0 4 2 3 bf16 fE5m2).length = 3 := by
  unfold Settled; decide +kernel

/-- The most negative exact, an inexact and a tiny quotient do not overflow; 2^200 in FP32 does. -/
theorem meets_RoundingIsCorrect :
    (fp32.roundRat .rne false false 1 3 0).2 &&& flagOF = 0 ∧ (fp32.roundRat .rup false true 1 1 (-200)).2 &&& flagOF = 0 ∧
    (fE4m3.roundRat .rdn false true 7 4 0).2 &&& flagOF = 0 ∧ (fp32.roundRat .rne false false 1 1 200).2 &&& flagOF ≠ 0 := by
  decide +kernel

/-- Pointers x10 to x12 in local memory with a control word in ox6: the last full step before the end of the private alias. -/
def vec (w : Word) : State := ox (regs int [(10, 0x17FFC0), (11, 0x100), (12, 0x200), (13, 17)]) 6 w
/-- A control word that each form accepts: FP32, from BF16; for E2M1X the block as destination or as source. -/
def control (op : VOp) : Word :=
  match op with
  | .qnt => 0x0D
  | .deq => 0x29
  | _ => 0x11

theorem meets_VectorSteps_registers :
    (∀ f ∈ elementwise 10 11 12 0, Settled (vec 0x11) f.2.2) ∧ (∀ f ∈ blockwise 10 11 12 0, Settled (vec 0x11) f.2.2) := by
  unfold Settled; decide +kernel
theorem meets_VectorSteps : ∀ f ∈ elementwise 10 11 12 0, StepRuns (vec 0x11) f.2.1 f.2.2 (f.2.1.shape ((vec 0x11).me.oxr 6)).n := by
  unfold StepRuns StepChecks; decide +kernel
theorem meets_VectorSteps_blocks :
    ∀ f ∈ blockwise 11 10 12 0,
      StepRuns (reg (vec (control f.2.1)) 10 0x17FF80) f.2.1 f.2.2 (f.2.1.shape ((vec (control f.2.1)).me.oxr 6)).n := by
  unfold StepRuns StepChecks; decide +kernel

/-- `vec` with a signalling NaN at x11 and every enable set. -/
def trapping : State := slotIs { vec 0x11 with mem := memWrite (vec 0x11).mem (localBase 0 + 0x100) 0x7FA00000 4 } 0 fun v => { v with fcsr := 0x1F00 }
theorem meets_BanksTimedPacketsAndErrors_of_vector_traps :
    (.vadd 10 11 12 0, .add, [10, 11, 12]) ∈ elementwise 10 11 12 0 ++ blockwise 10 11 12 0 ∧ Settled trapping [10, 11, 12] ∧
    StepChecks trapping .add [10, 11, 12] (VOp.add.shape (trapping.me.oxr 6)).n ∧
    stepFlags (stepResult trapping .add [10, 11, 12] (VOp.add.shape (trapping.me.oxr 6)).n) &&& trapping.me.enables ≠ 0 := by
  unfold Settled StepChecks; decide +kernel

/-- A pair at 0x40300000, its VADD in memory, and its step with 17 elements left, then with one. -/
def pair (n : Word) : State :=
  slotIs (regs { vec 0x11 with mem := memWrite (vec 0x11).mem 0x300004 0x060B1541 4 } [(13, n)]) 0 fun v =>
    { v with pc := 0x40300000, wait := .vector, rep := some (.vadd 10 11 12 0, 13) }
/-- The word after REP in memory is the instruction. -/
def fetches (s : State) (pc : Word) (i : Instr) : Bool :=
  match s.fetchWord s.coreId s.myGang.job pc with
  | .word w n _ => decide (decodeWord w n = .ok i)
  | _ => false
theorem meets_RepPairs :
    vecOf (.vadd 10 11 12 0) = some { op := .add, d := 10, a := some 11, b := some 12, st := 0 } ∧ (13 : BitVec 7) ∉ [(10 : BitVec 7), 11, 12] ∧
    (pair 0).rx 13 = 0 ∧ (pair 17).rx 13 ≠ 0 ∧ (pair 1).rx 13 ≠ 0 ∧ Settled (pair 17) [10, 11, 12, 13] ∧
    VInstr.bad { op := .add, d := 10, a := some 11, b := some 12, st := 0 } ((pair 17).me.oxr 6) = false ∧
    (∀ r ∈ [(13 : BitVec 7), 10, 11, 12], (pair 17).me.regOk r.toNat = true) ∧ (pair 17).me.stepAt + (pair 17).vLost 0 ≤ (pair 17).now ∧
    (at_ (pair 17) (.vectorStep 0)).ev = some (.vectorStep 0) ∧ (pair 17).me.wait = .vector := by
  unfold Settled; decide +kernel
theorem meets_RepPairs_fetch : fetches (pair 0) 0x40300004 (.vadd 10 11 12 0) = true := by decide +kernel
theorem meets_RepPairs_step :
    StepRuns (pair 17) .add [10, 11, 12] 16 ∧ StepRuns (pair 1) .add [10, 11, 12] 1 ∧
    min ((pair 17).rx 13).toNat (VOp.add.shape ((pair 17).me.oxr 6)).n = 16 := by unfold StepRuns StepChecks; decide +kernel

theorem meets_OperandExtensionRegisters : Settled int [127] ∧ Settled int [0] := by unfold Settled; decide +kernel
/-- `int` with its slot's windows written before this tick, and in it. -/
def windowed (t : Nat) : State :=
  int.setPair 0 { int.pair 0 with w := [(0, #v[1, 2, 3, 4])], wOld := [(0, t, #v[5, 6, 7, 8])] }
/-- The word at the cycle's start, found by its record or by its absence. -/
theorem windowAtStart_of {s : State} {k : BitVec 2} {v : Word} (o : Option (Nat × Nat × Vector Word 4))
    (h : (s.pair (s.coreId % 512)).wOld.find? (fun e => e.1 == s.cur % 16) = o)
    (hv : v = o.elim (windowOf s s.cur k) fun e => if e.2.1 = s.now then e.2.2[k.toNat]'k.isLt else windowOf s s.cur k) :
    WindowAtStart s k v := by
  unfold WindowAtStart; rw [h]; cases o <;> exact hv
theorem meets_TwinWindowRegisters :
    Settled int [127] ∧ Settled int [0] ∧ WindowAtStart (windowed 0x10000) 3 8 ∧ WindowAtStart (windowed 0xFFF0) 3 4 ∧ WindowAtStart int 3 0 := by
  refine ⟨by unfold Settled; decide +kernel, by unfold Settled; decide +kernel,
    windowAtStart_of (some (0, 0x10000, #v[5, 6, 7, 8])) (by decide +kernel) (by decide +kernel),
    windowAtStart_of (some (0, 0xFFF0, #v[5, 6, 7, 8])) (by decide +kernel) (by decide +kernel),
    windowAtStart_of none (by decide +kernel) (by decide +kernel)⟩
theorem meets_TimelineWaitsAndReads :
    Settled int [127, 1] ∧ Settled (regs int [(6, 0), (7, 0)]) [6, 7] ∧
    (regs int [(6, 0), (7, 0)]).selectorTrap 0 1 0 = none ∧ (0 : Word).toNat ≤ int.counter 0 1 0 ∧ int.counter 0 1 0 < (1 : Word).toNat ∧
    (0 : Word).getLsbD 8 = false ∧ int.selectorTrap 0 1 0x130 = none ∧ (0x130 : Word).getLsbD 8 = true ∧ bits 0x130 0 4 = 0 := by
  unfold Settled; decide +kernel

/-- The window as the cycle found it and as a TWX leaves it: 06 R116. -/
theorem test_windows :
    (match exec (.twr 6 3 0) (windowed 0x10000) with | .next t => t.rx 6 | _ => 0) = 8 ∧
    (match exec (.twx 3 3 0) (windowed 0x10000) with | .next t => (t.rx 3, windowOf t 0x2000 3) | _ => (0, 0)) = (4, 5) ∧
    (match exec (.oxli 7 0x8000 0) int with | .next t => t.oxr 7 | _ => 0) = 0x8000 := by decide +kernel

/-- Operands of a copy on channel 3: plain, and with a follow-on on ac[0] in FP32 accumulation. -/
def copying (ctl : Word) : State := ox (ox (regs int [(6, ctl), (7, 0x100), (8, 0x200)]) 4 0x109) 3 0x2000001000
theorem meets_CopyInstructions :
    (∀ f ∈ copyForms 6 7 8 0, Settled (copying 0xFF03) [6, 7, 8]) ∧ bits ((copying 0xFF03).rx 6) 8 8 ≠ 0 ∧
    ((copying 0xFF03).core 0).copies.length < 16 ∧ ((copying 0xFF03).rx 6).getLsbD 2 = false ∧
    ((copying 0xFF07).rx 6).getLsbD 2 = true ∧ ((copying 0xFF07).core 0).eng.ops = [] := by
  unfold Settled; decide +kernel

theorem meets_CopyInstructions_follow_on :
    (match (copying 0xFF07).followOn ((copying 0xFF07).rx 6) with | .ok _ => true | _ => false) = true := by decide +kernel

/-- CPY.W of 64 words from x64, and its return from the engine, in both directions. -/
def wordCopy (ctl : Word) (bs : List Byte) : CopyCmd :=
  { entry := 0, gang := 1, slot := 0, ch := 0, kind := .cpyW, src := 0x17FE00, dst := 0x17FE00, ctl := ctl, got := bs,
    wp := 512, state := .followOnPending }
def words (ctl : Word) (bs : List Byte) : State :=
  at_ (slotIs (int.setCore 0 { int.core 0 with copies := [wordCopy ctl bs] }) 0 fun v =>
    { v with wait := .engine, rep := some (.cpyW 6 64 7 0, 64) }) (.engineReturn 0)
theorem meets_CopyInstructions_words :
    (let s := regs int [(6, 0x17FE00), (7, 0x3F)]
     Settled s [6, 64, 7] ∧ s.me.runBad 64 64 = none ∧ Settled s (regRun 64 64) ∧ (s.rx 6).toNat % 8 = 0 ∧ s.me.unacked = [] ∧
      (s.core 0).copies = [] ∧ bits (s.rx 7) 0 6 + 1 = 64) ∧
    (∀ p ∈ [((0x3F : Word), ([] : List Byte)), (0x7F, List.replicate 512 7)], let s := words p.1 p.2
      s.me.wait = .engine ∧ s.me.rep = some (.cpyW 6 64 7 0, 64) ∧ s.me.mode = false ∧ 64 + (bits p.1 0 6 + 1) ≤ 128 ∧
      s.ev = some (.engineReturn 0) ∧ (s.core 0).copies = [wordCopy p.1 p.2] ∧ (wordCopy p.1 p.2).ctl.getLsbD 6 = (p.1 == 0x7F)) := by
  unfold Settled; decide +kernel

/-- A queued command of two rows of 96 bytes, ending the private alias; running; and one whose only chunk is read. -/
def command : CopyCmd :=
  { entry := 0, gang := 1, slot := 0, ch := 0, kind := .cpy, src := 0x1000, dst := 0x17FF40, ox0 := 0x200060, ox2 := 0x0000006000000060 }
def channel (x : CopyCmd) (e : Ev) : State := at_ (int.setCore 0 { (int.core 0) with copies := [x] }) e
def begun : CopyCmd := { command with state := .running, rAt := some 0x10000 }
def part : CopyPart := { va := 0x1000, n := 64, key := localBase 0 + 0x1000, bank := some 0 }
def last : CopyCmd := { begun with dst := 0x17FFC0, ox0 := 0x100040, ahead := [{ off := 0, parts := [part] }] }
theorem meets_CopyCommandsRun_reads :
    (let s := channel command (.copyCommandStart 0 0)
     (s.core 0).channelHead 0 = some command ∧ command.total ≠ 0 ∧ s.writesBefore 0 command.slot command.after = false ∧
      s.ev = some (.copyCommandStart 0 0)) ∧
    (let s := channel begun (.copyChunkReadReply 0 0)
     (s.core 0).channelHead 0 = some begun ∧ begun.rAt = some s.now ∧ begun.wp < begun.total ∧ 0 < begun.chunkLen begun.wp ∧
      (begun.srcAt begun.wp).toNat < 0x180000 ∧ begun.kind ≠ .cpyW) ∧
    (let s := channel last (.copyChunkReadReply 0 0)
     (s.core 0).channelHead 0 = some last ∧ last.rAt = some s.now ∧ part.data = none ∧ part.n = last.chunkLen last.wp ∧
      last.wp + part.n = last.total ∧ last.pieces last.wp = [(part.va, part.n)] ∧ s.claimEnds 0 (ownerCopy 0 0) = none ∧ s.bad = []) := by
  decide +kernel

/-- A command with its first chunk in hand, whose channel has the turn; and the last chunk of a CPY.W to registers. -/
def fetched (b : Bool) : CopyCmd :=
  { command with state := .running, wAt := some 0x10000, claimed := b, ahead := [{ off := 0, parts := [{ part with data := some (List.replicate 64 7) }] }] }
def lastWord : CopyCmd :=
  { wordCopy 0x40 [] with state := .running, wp := 0, wAt := some 0x10000, ahead := [{ off := 0, parts := [{ part with n := 8, data := some (List.replicate 8 7) }] }] }
def turn (x : CopyCmd) : State :=
  let s := channel x (.copyChunkWrite 0 0)
  let k := clusterCore (clusterOf 0) 0
  s.setCluster 0 { s.cluster 0 with copyAt := s.cycleTick k (s.cycleOf k), copyWon := [0] }
theorem meets_CopyCommandsRun_writes :
    (∀ b, let x := fetched b
      ((turn x).core 0).channelHead 0 = some x ∧ x.wAt = some (turn x).now ∧ (x.ahead.map (·.bytes)) = [some (List.replicate 64 7)] ∧
      x.toRegs = false ∧ (x.dstAt x.wp).toNat < 0x180000 ∧ (turn x).inInbox (localBase 0 + (x.dstAt x.wp).toNat) = false ∧
      (turn x).claimEnds 0 (ownerCopy 0 0 + 1) = none ∧ x.wp + 64 ≠ x.total ∧ x.rAt = none) ∧
    HasTurn (turn (fetched false)) 0 0 ∧
    ((turn lastWord).core 0).channelHead 0 = some lastWord ∧ lastWord.toRegs = true ∧ HasTurn (turn lastWord) 0 0 ∧
    lastWord.wp + 8 = lastWord.total ∧ (lastWord.ahead.map (·.bytes)) = [some (List.replicate 8 7)] := by
  unfold HasTurn; decide +kernel

/-! ## The matrix engine: witnesses -/

/-- The engine of core 0 changed, and the step being performed. -/
def engIs (s : State) (e : Engine) : State := s.setCore 0 { (s.core 0) with eng := e }
/-- The pair of core 0 changed. -/
def pairIs (s : State) (p : Pair) : State := { s with pairs := [(0, p)] }
/-- Operands in local memory, FP32 by FP32 over 32 elements, the engine awake. -/
def mx : State := engIs (ox (regs int [(6, 0x1000), (7, 0x2000), (8, 0x17F000)]) 4 0x109) { gate := .awake }
/-- The operation that MXOP on ac[0] gives. -/
def op0 : MxOp := { slot := 0, gang := 1, num := 0, kind := .mxop, d := 0, tiles := [0], fmtA := 1, fmtB := 1, k := 32, a := 0x1000, b := 0x2000 }

theorem meets_MatrixInstructions :
    mx.mxRegwin 0 (bits (mx.oxr 4) 0 6 == 0) = none ∧ mx.me.unacked = [] ∧ Settled mx [6, 7] ∧ StreamOpen mx ∧
    (match mx.mxCheck 0 (mx.rx 6) (mx.rx 7) (mx.oxr 4) (mx.oxr 5) (mx.oxr 7) .mxop with | .ok o => decide (o = op0) | _ => false) = true ∧
    (∀ f ∈ portForms mx 1 8 0, Settled mx f.2.2.1 ∧ f.2.2.2.toNat % 64 = 0 ∧
      mx.clusterLocal 0 1 f.2.2.2.toNat (accBytes mx) = some (localBase 0 + f.2.2.2.toNat)) ∧
    (∀ i, i < accBytes mx / 64 → mx.inInbox (localBase 0 + 0x17F000 + 64 * i) = false) ∧ mx.myGang.confined = false ∧
    mx.me.mxDone + 1 = mx.me.mxNext ∧ (tget mx.myGang.tiles 0 []).Nodup ∧ (tget mx.myGang.tiles 0 [])[1]? = some 1 := by
  unfold Settled StreamOpen; decide +kernel
theorem meets_MatrixInstructions_accumulators :
    (bits (mx.oxr 4) 0 3 ≠ 0 ∧ (tget mx.myGang.tiles mx.coreId [])[1]? = some 1) ∧ AccumulatorsOf mx 1 [1] ∧
    AccumulatorsOf (ox mx 4 0x100) 0 [0, 1] := by
  refine ⟨by decide +kernel, ⟨fun h => absurd h (by decide +kernel), fun _ => ⟨1, by decide +kernel⟩⟩,
    ⟨fun _ => ⟨by decide +kernel, by decide +kernel, 0, 1, by decide +kernel⟩, fun h => absurd (by decide +kernel) h⟩⟩
/-- A microprogram of one operation, and one that is ill-formed. -/
theorem meets_MatrixInstructions_microprogram : ∃ w : Word, ucBad w = false ∧ ucBad 0 = true := ⟨1, by decide +kernel⟩

/-- One operation at each stage of its life on core 0. -/
def op (g : MxStage) : MxOp := { op0 with stage := g }
def gathering : State := at_ (engIs mx { gate := .awake, ops := [op (.gathering 0x10000)] }) (.gatherEnd 0)
theorem meets_GathersAndTheArrayStart_begin :
    (let s := at_ (engIs mx { gate := .awake, ops := [op .waiting] }) (.gatherBegin 0)
     (engineOf s 0).sets < 2 ∧ (op .waiting).mtag = 0 ∧
      firstByRank ((engineOf s 0).ops.filter (engineOf s 0).mayGather) = some (op .waiting)) := by decide +kernel
theorem meets_GathersAndTheArrayStart_end :
    (let o := op (.gathering 0x10000)
     decide (o.remote = [] ∧ gathering.gatherDue 0 o ≤ gathering.now ∧ o.fmtA ≠ 5) &&
     match gathering.operand 0 o o.fmtA o.a.toNat o.strideA o.scaleA o.virtA false 32 0 [] [] with
     | .rows as u => (match u.operand 0 o o.fmtB o.b.toNat o.strideB o.scaleB o.virtB o.group.isSome 32 0 [] [] with
       | .rows bs v => as.length == 32 && bs.length == 32 && decide ((engineOf v 0).ops = [o])
       | _ => false)
     | _ => false) = true := by decide +kernel
theorem meets_GathersAndTheArrayStart_start :
    (let o : MxOp := { op0 with num := 1, stage := .gathered 0 }
     let s := at_ (pairIs (engIs mx { gate := .awake, ops := [o] }) { holder := some false }) (.arrayStart 0)
     (engineOf s 0).arrayBusy = none ∧ s.holdsLicence 0 = true ∧ (s.pair (pairOf 0)).withheld = false ∧
      (s.pair (pairOf 0)).granted = none ∧ (s.pair (pairOf 0)).freeAt ≤ s.now ∧ o.isArray = true ∧ o.isGathered = true) := by decide +kernel

/-- A running operation, array or port, that is due. -/
def port (k : MxKind) (tiles : List Nat) : MxOp := { op0 with kind := k, num := 1, tiles := tiles, a := 0x17E000, pa := localBase 0 + 0x17E000, stage := .running }
theorem meets_MatrixOperationsComplete :
    (let s := at_ (engIs mx { gate := .awake, ops := [port .mxop [0]], arrayBusy := some 0x10000 }) (.mxopComplete 0)
     (engineOf s 0).arrayBusy = some 0x10000 ∧ 0x10000 ≤ s.now ∧ (port .mxop [0]).isArray = true ∧ (s.gang 1).live = true ∧ (s.slot 0).gang = 1) ∧
    (∀ k ∈ [MxKind.mxz, .mxld, .mxst], (port k [0, 1]).isArray = false ∧
      (at_ (engIs mx { gate := .awake, ops := [port k [0, 1]], portBusy := some 0x10000 }) (.portOperationComplete 0)).clusterLocal 0 1 0x17E000 8192 =
        some (port k [0, 1]).pa) ∧ mx.bad = [] ∧ 0x10000 + mx.portLost 0 (port .mxld [0]) * tickLen 0 ≤ mx.now := by
  decide +kernel

/-- The same state at a later tick. -/
def later (s : State) : State := { s with now := 0x1000000 }
/-- A gated engine whose hold has passed or has not; the licence held, asked for by the twin, and withheld. -/
def gated (h : Nat) : State := engIs mx { gate := .gated h, wakeWanted := true }
def asked : State := at_ (pairIs (later ((engIs mx { gate := .awake, hold := true }).setCore 512 { eng := { request := some 0 } })) { holder := some false })
  (.holdQuantumExpiry 0)
theorem meets_EnginePowerAndLicences :
    (engineOf (gated 0x10000) 0).gate = .gated 0x10000 ∧ 0x10000 ≤ (gated 0x10000).now ∧ Settled mx [6, 7] ∧
    (engineOf (gated 0x10000) 0).wakeWanted = true ∧ (engineOf mx 0).arrayBusy = none ∧ (engineOf mx (twinOf 0)).request = none ∧
    (let s := later (at_ mx (.engineGate 0))
     (s.core 0).engineIdle = true ∧ (engineOf s 0).idleSince + (engineOf s 0).idleGate * tickLen 0 ≤ s.now ∧ (engineOf s 0).gate = .awake) ∧
    (let s : State := { (at_ mx (.inrushAdmission 0)) with clusters := [(0, { inrush := [0] })] }
     (s.cluster 0).inrush = 0 :: [] ∧ (s.cluster 0).inrushFree ≤ s.now) ∧
    (engineOf (engIs mx { gate := .waking }) 0).gate = .waking ∧
    asked.holdsLicence 0 = true ∧ (engineOf asked 0).arrayBusy = none ∧ (asked.pair (pairOf 0)).withheld = false ∧ (asked.pair (pairOf 0)).freeAt < asked.now ∧
    (engineOf asked (twinOf 0)).request = some 0 ∧ asked.quantum 0 0 ≤ asked.now ∧
    (pairIs mx { duty := 1, holder := some true }).pair 0 = { duty := 1, holder := some true } ∧
    (engineOf mx (if true then 0 + 512 else 0)).arrayBusy = none ∧ (mx.pair 0).holder = none ∧ (engineOf asked 512).request.isSome = true ∧
    (engineOf asked 0).request = none := by
  unfold Settled; decide +kernel

/-! ## Tasks: witnesses -/

/-- Lines that the strand has brought: a launch packet with its header, a message to LP 5, and an action record. -/
def packetWords : List Word := [0x40200000, 0x40001000, 7, 9, 0x10000, 0, 0x10001, 0]
def messageWords : List Word := [9, 0, 5, 0, 0, 0, 0, 0]
def actionWords : List Word := [0x302, 0, 0, 0, 0, 0, 0, 0]
def headerWords : List Word := [0x8001, 0, 0, 0, 0, 0, 0, 0]
def task : State :=
  slotIs (regs { int with jobs := [(1, { job with lps := [(5, { desc := [0, 0, 0, 0] })] })] } [(6, 0x40000), (7, 0x40040), (8, 0x40080)]) 0
    fun v => { v with lines := [(0x40000, packetWords), (0x40001000, headerWords), (0x40040, messageWords), (0x40080, actionWords)] }
/-- The same task confined, and its cluster's queue full. -/
def optTask : State := { task with gangs := [(1, { gang with flags := 1 })] }
def queued : Entry := { packet := packetWords, hdr := 0x8001, job := 1, task := 1, copy := 0, flags := 0, prio := 0, enq := 0 }
def fullTask : State := { task with clusters := [(0, { cistern := List.replicate 4096 queued })] }

theorem operandAt {s : State} {va : Word} {ws : List Word} (h : va.toNat % 64 = 0 ∧ s.me.lines.find? (fun l => l.1 == va) = some (va, ws)) :
    Operand s va ws s := ⟨h.1, .inl ⟨h.2, rfl⟩⟩
theorem lineAt {s : State} {va : Word} {ws : List Word} (h : s.me.lines.find? (fun l => l.1 == va) = some (va, ws)) :
    LineAt s va 64 ws s := .inl ⟨h, rfl⟩

theorem meets_TaskInstructions :
    Settled task [9, 6] ∧ Operand task (task.rx 6) packetWords task ∧ LineAt task (packetWords.getD 1 0 &&& ~~~63) 64 headerWords task ∧
    Operand optTask (optTask.rx 6) packetWords optTask ∧ Operand task (task.rx 7) messageWords task ∧
    Operand task (task.rx 8) actionWords task ∧ Operand fullTask (fullTask.rx 6) packetWords fullTask :=
  ⟨by unfold Settled; decide +kernel, operandAt (by decide +kernel), lineAt (by decide +kernel), operandAt (by decide +kernel),
    operandAt (by decide +kernel), operandAt (by decide +kernel), operandAt (by decide +kernel)⟩
theorem meets_TaskInstructions_packets :
    (∀ s ∈ [task, optTask], PacketAccepted s packetWords (headerWords.getD 0 0)) ∧ PacketAccepted fullTask packetWords (headerWords.getD 0 0) ∧
    optTask.myGang.confined = true ∧ optTask.myGang.outbox.length < 256 ∧ task.myGang.confined = false ∧
    (task.cluster (clusterOf task.coreId)).full = false ∧ (fullTask.cluster (clusterOf fullTask.coreId)).full = true ∧
    fullTask.inlineOk packetWords (headerWords.getD 0 0) = true ∧ fullTask.me.mode = false ∧
    fullTask.resultsDue fullTask.cur = none ∧ (fullTask.poolAlloc fullTask.myGang.job (128 + 8 * fullTask.me.n)).isSome = true := by
  unfold PacketAccepted; decide +kernel
theorem meets_TaskInstructions_messages :
    task.me.vt.toNat < (messageWords.getD 0 0).toNat ∧ task.myJob.declares (bits (messageWords.getD 2 0) 0 32) = true ∧ task.me.unacked = [] ∧
    task.messageRoom task.myGang.job (bits (messageWords.getD 2 0) 0 32) = true ∧ task.myGang.lp = none ∧
    task.isTimed task.myGang.job task.coreId (task.lp task.myGang.job (bits (messageWords.getD 2 0) 0 32)).home = false ∧
    irrevKind actionWords < 3 ∧ 0 < irrevLen actionWords ∧ irrevLen actionWords ≤ 48 ∧ task.irrevAllowed actionWords = true := by
  decide +kernel

theorem meets_WorkTimeAndEnds :
    Settled int [3] ∧ Settled int [6, 3] ∧ (int.rx 6).toNat ≤ int.lwAt 1 0 ∧ int.lwAt 1 0 < (int.rx 3).toNat ∧ MayEnd int ∧ MayEnd optTask ∧
    int.myGang.running ≤ 1 ∧ int.myGang.alone = true ∧ packetDone int.myGang.packet = 0 ∧
    packetTile optTask.myGang.packet = 0 ∧ packetTile int.myGang.packet = 0 ∧
    1 < (State.myGang { int with gangs := [(1, { gang with running := 2 })] }).running := by
  unfold Settled MayEnd; decide +kernel

/-- The task with a DONE word in HBM. -/
def doneTask : State := { task with gangs := [(1, { gang with packet := gang.packet.set 7 0x40200100 })] }
theorem meets_WorkTimeAndEnds_sent :
    NearHome optTask ∧ DonePasses optTask ∧ optTask.myGang.alone = false ∧
    MayEnd doneTask ∧ NearHome doneTask ∧ DonePasses doneTask ∧ doneTask.myGang.alone = false :=
  ⟨.inl (by decide +kernel), .inl (by decide +kernel), by decide +kernel, by unfold MayEnd; decide +kernel,
    .inr ⟨homeOf 0x200100, by decide +kernel⟩, .inr ⟨0x200100, false, by decide +kernel⟩, by decide +kernel⟩

/-- A strand with a SUSP kind and operand, and the same as a ROAM task. -/
def susp (k v : Word) : State := regs int [(6, k), (7, v)]
def roaming (k : Word) : State :=
  { susp k 0 with gangs := [(1, { gang with flags := 8 })], clusters := [(0, { cistern := [{ queued with cont := some strand }] })] }
theorem meets_SuspensionsAndYields :
    (susp 0 0).me.badReg [6] = none ∧ (susp 0 0).me.runBad 6 2 = none ∧ Settled (susp 0 0) (regRun 6 2) ∧ (susp 0 0).roams = false ∧
    (susp 1 1).rx (6 + 1) ≠ 0 ∧ (∀ k ∈ [2, 3], Reaches (susp (BitVec.ofNat 64 k) 0x40200040) 8 0x40200040 .read (.hbm 0x200040 false) ∧
      (susp (BitVec.ofNat 64 k) 0x40200040).homeRefusal (.watch (k == 2)) 0x200040 false = none) ∧
    (susp 2 0x40200040).timedHome 0x200040 = false ∧ int.feBit 0x200040 = false ∧ int.lwAt 1 0 < ((susp 4 1).rx (6 + 1)).toNat := by
  unfold Settled Reaches; decide +kernel
theorem meets_SuspensionsAndYields_roaming :
    (roaming 0).roams = true ∧ (roaming 0).resultsDue (roaming 0).cur = none ∧ (roaming 0).me.unacked = [] ∧ (((roaming 0).acquire 0).saveStrand 0 0).isSome = true ∧
    (roaming 0).yieldWanted = true ∧ int.yieldWanted = false := by decide +kernel

/-- A barrier of slot 0 of core 0, set, and with its one slot arrived. -/
def barrier (b : Barrier) (e : Ev) : State := at_ ((reg int 6 0x400000001).setCore 0 { (int.core 0) with bx := [(0, b)] }) e
def arrived : Barrier := { word := 0x400000001, arrived := [(0, 0)], lastGen := [(0, 0)] }
theorem meets_BarriersSynchronise :
    (let s := barrier { word := 0x400000001 } .reset
     s.bxReg s.me.gang s.coreId 0 = some 0 ∧ Settled s [6] ∧ s.barcIllegal 0 (s.rx 6) = false ∧ s.cur % 16 ∈ ((s.core 0).barrier 0).slots ∧ s.me.unacked = [] ∧
      (∀ e ∈ ((s.core 0).barrier 0).arrived, e.1 ≠ s.cur % 16) ∧ (s.cur % 16, ((s.core 0).barrier 0).gen) ∉ ((s.core 0).barrier 0).lastGen ∧
      ∀ i ∈ ((s.core 0).barrier 0).slots, i = s.cur % 16) ∧
    (let s := barrier arrived (.barrierArrival 0 1 0)
     s.members 1 (s.barrierOf 1 0 0).word = [0] ∧ ∀ i ∈ (s.barrierOf 1 0 0).slots, ∃ e ∈ (s.barrierOf 1 0 0).arrived, e.1 = i) ∧
    (let s := barrier arrived (.barrierRelease 0 1 0)
     s.bxReg 1 0 0 = some 0 ∧ (s.barrierOf 1 0 0).arrived ≠ [] ∧ s.ev = some (.barrierRelease 0 1 0)) := by
  unfold Settled; decide +kernel

/-! ## Rill, attention, CSR and system instructions: witnesses -/

/-- The descriptor of ring 5 with four members, two slots of 4 KB ending the private alias, two members on the module, not leading. -/
def ringWords : List Word := [5, 0x401200002, 0x17E000, 0x40300000, 0, 0, 0, 0]
def joining : State := slotIs (regs int [(6, 0x40000)]) 0 fun v => { v with lines := [(0x40000, ringWords)] }
def joined (lead : Bool) : Member := { gang := 1, job := 1, ring := 5, lead := lead, buf := 0x17E000, landed := [(0, List.range 64), (1, List.range 64)] }
def ring5 : Ring :=
  { job := 1, ring := 5, k := 3, pos := 1, s := 2, bsz := 0, ncl := 1, own := 0x40300000, members := [(0, 0)], complete := true,
    slots := [(0, .held 0 false), (1, .held 1 false)], tokens := [1, 2] }
/-- Operands of the instructions on membership 0, at a step with the ring at its first or last release. -/
def rill (lead : Bool) (n b : Word) (sent : Nat) : State :=
  { ((regs int [(6, 0), (7, b), (8, n)]).setCore 0 { (int.core 0) with members := [(0, joined lead)] }) with rings := [{ ring5 with sent := sent }] }

theorem meets_RillInstructions_join :
    Settled joining [9, 6] ∧ (∀ r ∈ joining.rings, ∀ w ∈ r.joining, w.1 ≠ joining.cur) ∧ joining.me.unacked = [] ∧ Operand joining (joining.rx 6) ringWords joining ∧ joining.myGang.confined = false ∧
    (ringDesc ringWords).bad 0 = false ∧ joining.ring 1 5 = none ∧ (ringDesc ringWords).ncl ≠ 1 ∧
    (match joining.ownBlock (ringDesc ringWords).own (ringDesc ringWords).block with | .ok _ => true | _ => false) = true ∧
    (List.range 4).find? (fun i => (joining.member 0 i).isNone) = some 0 :=
  ⟨by unfold Settled; decide +kernel, by decide +kernel, by decide +kernel, operandAt (by decide +kernel), by decide +kernel⟩
theorem meets_RillInstructions_joined :
    (let s : State := { joining with rings := [{ ring5 with joining := [(0, false, 3)] }] }
     (s.rings.find? (fun q => q.joining.any fun w => w.1 == s.cur)).isSome = true ∧
      ({ ring5 with joining := [(0, false, 3)] } : Ring).complete = true ∧
      ({ ring5 with joining := [(0, false, 3)] } : Ring).joining.find? (fun w => w.1 == s.cur) = some (0, false, 3)) := by decide +kernel
theorem meets_RillInstructions_steps :
    Settled (rill true 4096 1 1) [8, 6, 7] ∧ (rill true 4096 1 1).me.unacked = [] ∧ MemberAt (rill true 4096 1 1) 0 (joined true) { ring5 with sent := 1 } ∧
    (joined true).outside ring5 1 = false ∧ int.stepTrap 0 (joined true) ring5 1 = none ∧ (joined true).has ring5 1 4096 = true ∧
    ((1 : Word).toNat + 1 < ring5.k ∧ (1 : Word).toNat = ({ ring5 with sent := 1 } : Ring).sent ∧ ring5.conflict = false ∧
      (joined true).arrived ring5.block 1 = true ∧ 1 + 1 ∈ ring5.tokens) ∧
    MemberAt (rill false 0 0 2) 0 (joined false) { ring5 with sent := 2 } ∧ (0 : Word).toNat = (joined false).oldest ∧
    (joined false).arrived ring5.block 0 = true ∧ (rill false 0 0 2).me.unacked = [] ∧ ring5.k ≤ ({ ring5 with sent := 2 } : Ring).sent + 1 := by
  unfold Settled MemberAt; decide +kernel

/-- A context whose areas end the private alias, its descriptor, and its operation first in the engine. -/
def ctxWords : List Word := [0x100000, 0x177DC0, 0x3E000000, 0x100000005, 0, 0, 0, 0]
def ctx : AttnCtx := { gang := 1, qa := 0x100000, sa := 0x177DC0, scale := 0x3E000000, causal := true, qpos := 5 }
def attnAt (c : Cluster) (i : Option Instr) : State :=
  { (slotIs (regs int [(6, 0x40000), (7, 7), (8, 0x110000)]) 0 fun v =>
      { v with lines := [(0x40000, ctxWords)], wait := if i.isSome then .engine else .none, rep := i.map fun x => (x, 7) }) with clusters := [(0, c)] }
theorem meets_AttentionInstructions_issue :
    (let s := attnAt {} none
     Operand s (s.rx 6) ctxWords s ∧ Settled s [9, 6] ∧ bits (ctxWords.getD 0 0) 0 24 % 64 = 0 ∧ bits (ctxWords.getD 1 0) 0 24 % 64 = 0 ∧
      s.rangeTrap 0 1 (bits (ctxWords.getD 0 0) 0 24) qBytes false = none ∧ s.rangeTrap 0 1 (bits (ctxWords.getD 1 0) 0 24) saBytes true = none ∧
      s.attnSlot 0 = some 0 ∧ s.me.unacked = []) ∧
    (let s := attnAt { attn := [(7, ctx)] } none
     Settled s [9, 7, 8] ∧ ContextAt s (s.rx 7) ctx ∧ (s.rx 8).toNat % 64 = 0 ∧ s.rangeTrap 0 1 (s.rx 8).toNat kvBytes false = none ∧
      s.rangeTrap 0 1 ctx.qa qBytes false = none ∧ s.rangeTrap 0 1 ctx.sa saBytes true = none ∧ linkOf (s.oxr 2) = none) := by
  refine ⟨⟨operandAt (by decide +kernel), ?_⟩, ?_⟩ <;> unfold Settled <;> try unfold ContextAt
  all_goals decide +kernel
/-- The array has ended the operation of slot 0. -/
def ended (i : Instr) (e : Ev) : State := at_ (attnAt { attn := [(7, ctx)], attnQ := [(0, 1)], attnFree := 0x10000 } (some i)) e
theorem due_attention {s : State} {i : Instr} (h : (s.slot 0).wait = .engine ∧ (s.slot 0).rep = some (i, BitVec.ofNat 7 7) ∧ 7 < 8 ∧
    (s.slot 0).stepAt ≤ s.now ∧ (s.cluster (clusterOf (0 / 16))).attnQ = (0, (s.slot 0).gang) :: [] ∧ (s.cluster (clusterOf (0 / 16))).attnFree ≠ 0 ∧
    s.attnEnds (clusterOf (0 / 16)) 0 i (s.cluster (clusterOf (0 / 16))).attnFree ≤ s.now ∧ s.attnCtx (clusterOf (0 / 16)) 7 = some ctx ∧ (s.slot 0).mode = false) :
    AttentionDue s 0 i 7 ctx := ⟨h.1, h.2.1, h.2.2.1, h.2.2.2.1, ⟨_, h.2.2.2.2.1⟩, h.2.2.2.2.2⟩
theorem meets_AttentionInstructions_end :
    AttentionDue (ended (.attnInit 9 6 0) (.attentionEngineComplete 0)) 0 (.attnInit 9 6 0) 7 ctx ∧
    AttentionDue (ended (.attnStep 9 7 8 0) (.engineReturn 0)) 0 (.attnStep 9 7 8 0) 7 ctx ∧
    AttentionDue (ended (.attnFin 9 7 0) (.attentionEngineComplete 0)) 0 (.attnFin 9 7 0) 7 ctx :=
  ⟨due_attention (by decide +kernel), due_attention (by decide +kernel), due_attention (by decide +kernel)⟩
theorem meets_AttentionInstructions_read :
    (let s := ended (.attnStep 9 7 8 0) (.engineReturn 0)
     ((s.attnRead 0 1 ctx.qa qBytes).toOption.isSome && (s.attnRead 0 1 ((s.slot 0).rx 8).toNat kvBytes).toOption.isSome &&
       (s.attnRead 0 1 ctx.sa saBytes).toOption.isSome) = true ∧ s.clusterLocal 0 1 ctx.sa saBytes = some (localBase 0 + 0x177DC0) ∧
      s.clusterLocal 0 1 (ctx.sa + 33280) 8 = some (localBase 0 + 0x17FFC0)) := by decide +kernel

/-- The strand in a handler, and its neighbour in every state. -/
def fw (s : State) : State := slotIs s 0 fun v => { v with mode := true, cause := 3 }
theorem meets_CsrAccess :
    Settled int [3] ∧ (csrTable int).map (·.1) = [0, 1, 128, 129, 130, 131, 132, 133, 134, 135, 256, 257] ∧ (fw int).me.mode = true ∧
    int.me.mode = false ∧ int.me.writes = [] ∧ (2 : BitVec 9) ∉ (csrTable int).map (·.1) ∧ (511 : BitVec 9) ∉ (csrTable int).map (·.1) ∧
    int.me.badReg [127] = none ∧ (((5 : Word) ||| int.slotmask 0).getLsbD 1 = (int.slotmask 0).getLsbD 1) ∧
    (((5 : Word)).getLsbD 1 ≠ (int.slotmask 0).getLsbD 1) := by unfold Settled; decide +kernel

def lineWords : List Word := [0x80000001_00000000, 0x100000001, 2, 3]
def system : State :=
  regs (fw (slotIs int 0 fun v => { v with lines := [(0x40000, lineWords)] })) [(6, 0x40000), (10, 0x10001), (11, 1), (12, 0x3)]
theorem meets_SystemInstructions :
    Settled system [9, 6] ∧ Settled system [13, 14, 14 + 1] ∧ system.me.mode = true ∧ system.me.cause.toNat % 256 ≠ 0 ∧
    (slotIs system 0 fun v => { v with cause := 0x100 }).me.cause.toNat % 256 = 0 ∧ (system.rx 6).toNat % 64 = 0 ∧
    int.me.badReg [127, 126] = none ∧ int.me.runBad 126 2 = none ∧
    (1 ≠ system.cur ∧ bits 0x11 4 2 = 1 ∧ (system.slot 1).removed = false ∧ bits 0x01 4 2 = 0 ∧ bits 0x21 4 2 = 2 ∧ (system.slot 1).stopped = false) ∧
    (system.rx 12).getLsbD 0 = true ∧ (0 ∈ system.myGang.cores) ∧ (system.probeWord 2).isSome = true ∧ system.probeWord 3 = none ∧
    int.myJob.isOpen = true ∧ int.myJob.abort = .none ∧ bits (system.rx 10) 0 10 ≠ system.coreId ∧ (system.rx 10).getLsbD 16 = true ∧
    bits (system.rx 11) 0 10 ≠ system.coreId ∧ (system.rx 11).getLsbD 16 = false ∧ system.me.live = true ∧ system.records = [] ∧
    system.gangsOn (bits (system.rx 11) 0 10) = [] := by unfold Settled; decide +kernel
theorem meets_SystemInstructions_line : LineAt system (system.rx 6) 32 lineWords system := .inl ⟨by decide +kernel, rfl⟩

/-- A strand whose handler has answered, with its cause; a migration that can begin; an entry whose time has come. -/
def answered (code : Word) (e : Ev) : State := at_ (slotIs int 0 fun v => { v with mode := true, cause := code, epc := 0x40000000, wait := .firmware }) e
def moving1 : Migr := { slot := 5, gang := 0, score := 1, dcore := 2, dmod := 0, len := 0, dest := 3 }
theorem meets_HandlerAnswersAndMigrations :
    (∀ e ∈ [Ev.retry 0, .skip 0, .drop 0, .abortResp 0], Handled (answered 2 e) 0 ∧ (answered 2 e).ev = some e) ∧
    (match (answered 2 (.skip 0)).fetchHalf 0 1 0x40000000 with | .got _ _ => true | _ => false) = true ∧ ((answered 2 (.skip 0)).gang ((answered 2 (.skip 0)).slot 0).gang).job = 1 ∧ ((answered 2 (.skip 0)).slot 0).asyncTrap = false := by
  unfold Handled; decide +kernel
theorem meets_HandlerAnswersAndMigrations_migrations :
    (let s : State := { int with migrs := [moving1] }
     s.migrStatus moving1 = 0 ∧ s.movedGangs 0 1 = [] ∧ s.canTake [] 1 = true) ∧
    (let m : Migr := { moving1 with dcore := 1 }
     let s : State := { int with migrs := [m] }
     s.migrStatus m = 6) ∧
    (let s : State := { at_ (int.setCore 3 { fwd := [(15, { f0 := 0x8000000000000003, f1 := 1, f2 := 0, f3 := 1 })] }) (.forwardingEntryExpiry 3 15) with
        jobs := [(1, { job with parts := (List.range 1024).map fun c => (c, { lw := 1 }) })] }
     (tget (s.core 3).fwd 15 {}).f0.getLsbD 63 = true ∧ (tget (s.core 3).fwd 15 {}).f3.toNat ≤ s.stamp ∧
      s.fwdPassed 3 (tget (s.core 3).fwd 15 {}) = true) := by decide +kernel

/-! ## Homes, units and arbitration: witnesses -/

/-- A load to x127 awaits its answer; a refusal; one store of two is acknowledged. -/
def waiting : State := slotIs int 0 fun v => { v with wait := .retry, inFlight := some { dst := some 127, ext := 8 } }
theorem meets_AnswersParkingAndWalks_answers :
    (waiting.slot 0).live = true ∧ (waiting.slot 0).wait = .retry ∧ (waiting.slot 0).save = 0 ∧
    (waiting.slot 0).inFlight = some { dst := some 127, ext := 8 } ∧ (waiting.slot 0).regOk (127 : BitVec 7).toNat = true ∧ waiting.strayed 0 = false ∧
    (∀ p ∈ waiting.parks, p.1 ≠ 2 ^ 64 + 0) ∧
    (let s := at_ (slotIs int 0 fun v => { v with unacked := [(0x100, 0), (0x108, 0), (0x108, 4)] }) (.storeAcknowledge 0 0x108)
     (s.slot 0).unacked = [(0x100, 0)] ++ (0x108, 0) :: [(0x108, 4)] ∧ ∀ x ∈ [(0x100, (0 : Word))], x.1 ≠ 0x108) ∧
    (at_ int (.revocation 1024 0x200040)).ev = some (.revocation 1024 0x200040) ∧ 0 ∈ ownerCores 1024 := by decide +kernel

/-- A strand told to park, saved or not; a metadata word; a walk of core 0 that is done. -/
def parking : State := { slotIs int 0 (fun v => { v with wait := .retry }) with
  retries := [{ addr := 0x200040, origin := .slot 0, op := .ldfe .ff, data := 0, parking := true }] }
theorem meets_AnswersParkingAndWalks_parking :
    (∃ r ∈ parking.retries, r.origin = .slot 0 ∧ r.parking = true) ∧ parking.resultsDue 0 = none ∧ (parking.saveStrand 0 0).isSome = true ∧
    (State.saveStrand { parking with jobs := [(1, { job with poolBytes := 0 })] } 0 0) = none ∧
    (∀ r ∈ int.retries, r.origin = .slot 0 → r.parking = false) ∧
    parking.retries = [] ++ { addr := 0x200040, origin := .slot 0, op := .ldfe .ff, data := 0, parking := true } :: [] ∧
    (parking.gang (parking.slot 0).gang).isRoam = false ∧ parking.unrooted 0 = true ∧
    parking.retries.find? (fun r => r.origin == Origin.slot 0 && r.parking) = some { addr := 0x200040, origin := .slot 0, op := .ldfe .ff, data := 0, parking := true } ∧
    (let s : State := { int with clusters := [(0, { walks := [{ job := 1, page := 0x4000, waiters := [(0, 0x40000008)] }] })] }
     (s.cluster 0).walks = { job := 1, page := 0x4000, waiters := [(0, 0x40000008)] } :: [] ∧ (s.cluster 0).walkWait = [] ∧ 0x200000 ≤ (0x40000008 : Word).toNat ∧
      (walkFrom s.mem ((0x40000008 : Word).toNat % 2 ^ 48) 4 0 (s.job 1).root).toOption.isSome = true) := by decide +kernel

/-- The job's tables with a page for windows at 0x80000000 and one marked as tables at 0xC0000000. -/
def homes : State :=
  { int with mem := memWords int.mem 0x2010 [leaf 0x7E0000000000, leaf 0x40000000 ||| 0x80],
             jobs := [(1, { job with group := [(0, 0), (3, 3)] }), (3, { job with tenant := 2 })] }
theorem mapsTo {s : State} {r : Request} {acc : Access} {p : Place} (leaf : Word) (level : Nat)
    (h : walkFrom s.mem (r.va.toNat % 2 ^ 48) 4 0 (s.job r.job).root = .ok (leaf, level) ∧ s.leafPlace r.job (r.va.toNat % 2 ^ 48) acc leaf level true = p) :
    MapsTo s r acc p := ⟨leaf, level, h⟩
def request (op : MemOp) (va : Word) : Request := { op := op, va := va, data := 0x55, job := 1, tenant := 1, origin := .remote 3 1 9 }
theorem meets_HomesServeOtherModules :
    MapsTo homes (request (.load 8) 0x80000100) .read (.window 0x7E0000000100 0) ∧
    MapsTo homes (request (.store 8) 0x8017FFF8) .write (.window 0x7E000017FFF8 0) ∧
    MapsTo homes (request (.load 8) 0x40200040) .read (.hbm 0x200040 false) ∧ MapsTo homes (request (.store 1) 0x40200047) .write (.hbm 0x200047 false) ∧
    MapsTo homes (request (.ldfe .ff) 0x40200040) (MemOp.ldfe .ff).access (.hbm 0x200040 false) ∧
    MapsTo homes (request (.store 8) 0xC0000000) (MemOp.store 8).access (.hbm 0x40000000 true) := by
  refine ⟨mapsTo (leaf 0x7E0000000000) 1 ?_, mapsTo (leaf 0x7E0000000000) 1 ?_, mapsTo (leaf 0) 1 ?_, mapsTo (leaf 0) 1 ?_, mapsTo (leaf 0) 1 ?_,
    mapsTo (leaf 0x40000000 ||| 0x80) 1 ?_⟩ <;> decide +kernel
/-- An access of another module has its bank of core 0 in this cycle. -/
def portTaken : State :=
  homes.setCore 0 { (homes.core 0) with claims := [{ bank := bankOf 0x7E0000000100, cycle := homes.cycleOf 0, rank := rankPort, owner := ownerPort 1 }] }
theorem meets_HomesServeOtherModules_homes :
    (homes.job 1).isOpen = true ∧ (homes.job 1).tenant = 1 ∧ (homes.job 2).isOpen = false ∧ homes.inInbox 0x7E000017FFF8 = false ∧
    windowCore 0x7E000017FFF8 = some 0 ∧ homes.inTenant 1 0 = true ∧ homes.inTenant (homes.job 3).tenant 0 = false ∧
    homes.claimEnds 0 (ownerPort 1) = none ∧ (portTaken.claimEnds 0 (ownerPort 1)).isSome = true ∧ homes.damagedLocal 0x7E0000000100 8 = false ∧
    (∃ x ∈ (homes.job 1).group, x.1 = 3) ∧ (∀ x ∈ (homes.job 1).group, x.1 ≠ 4) ∧ (homes.job 3).isOpen = true ∧
    homes.homeRefusal (.load 8) 0x200040 false = none ∧ homes.homeRefusal (.store 1) 0x200047 false = none ∧
    homes.homeRefusal (.ldfe .ff) 0x200040 false = none ∧ (MemOp.ldfe .ff).servable (homes.feBit 0x200040) = false ∧
    (MemOp.store 8).writes = true ∧ (MemOp.store 8).isStore = true := by decide +kernel
/-- The second entry of a declared inbox at the start of core 0's local memory. -/
theorem meets_HomesServeOtherModules_inbox :
    (let s : State := { homes with jobs := [(1, { job with lps := [(5, { desc := [5, 0, 0, 0x200000000] })] })] }
     s.inInbox 0x7E0000000040 = true ∧ s.lp 1 5 = { desc := [5, 0, 0, 0x200000000] } ∧
      s.leafPlace 1 0x80000040 .write (leaf 0x7E0000000000) 1 true = .window 0x7E0000000040 0) := by decide +kernel

/-- An entry whose VT lw has reached. -/
def first : Entry := { queued with packet := packetWords.set 3 0 }
/-- A unit with one entry that fits, one whose strand goes on, and one of 16 strands a core where a core has 15 free. -/
def unit (e : Entry) : State := at_ { int with clusters := [(0, { cistern := [e] })] } (.agingStep 0)
def resumed : Entry := { first with cont := some { strand with pc := 0x40200010 }, gang := 1 }
theorem meets_UnitsPlaceWholeGangs :
    ((first.anchors 0).find? ((unit first).canPlace first)).isSome = true ∧ first.cont = none ∧ first.bind = [] ∧
    ((resumed.anchors 0).find? ((unit resumed).canPlace resumed)).isSome = true ∧ (unit first).relWait = [] ∧
    ((unit first).cluster 0).cistern = [first] ∧ ((unit first).cluster 0).waiting = [] := by decide +kernel
theorem meets_UnitsPlaceWholeGangs_full :
    ∀ a ∈ ({ first with hdr := 0x908001 } : Entry).anchors 0, (unit first).canPlace { first with hdr := 0x908001 } a = false := by decide +kernel

/-- Cluster 1 hungry, probing cluster 0, which has nothing for it, or an entry whose frond has no room at home. -/
def hungry (l : List Nat) (st : Option Entry) (c : List Entry) : State :=
  { int with clusters := [(0, { cistern := c }), (1, { hungry := some 0, probes := l, stolen := st })] }
/-- The same with a probe on its way, or with its retry set for a tick; a probe of a lower cluster due now. -/
def probing (l : List Nat) (pr : Option Nat) (at_ : Nat) : State :=
  { int with clusters := [(0, {}), (1, { hungry := some 0, probes := l, probing := pr, retryAt := at_ })] }
def probed : State := { hungry [2] none [] with agenda := [(0x10000, .stealProbe 0 2)] }
theorem meets_SearchLaunchAndPreemption_search :
    ((hungry [0] none []).cluster 1).hungry.isSome = true ∧ ((hungry [0] none []).cluster 1).probes.head? = some 0 ∧
    (hungry [0] none []).stealable 1 0 = none ∧ ((hungry [0] none []).cluster 1).probing = none ∧
    (hungry [0] none []).yields (beforeProbe 1 0) = false ∧ probed.yields (beforeProbe 1 2) = true ∧
    ((probing [0, 2] (some 0) 0).cluster 1).probes = 0 :: 2 :: [] ∧ ((probing [0, 2] (some 0) 0).cluster 1).probing.isSome = true ∧
    ((probing [0] (some 0) 0).cluster 1).probes = [0] ∧ ((probing [0] none 0).cluster 1).probing = none ∧
    ((probing [] none 0x10000).cluster 1).retryAt ≤ int.now ∧ (probing [] none 0x10000).isHungry 1 = true ∧
    ((probing [] none 0x10000).searchOrder 1).isEmpty = false ∧ int.now < ((probing [] none 0x10001).cluster 1).retryAt := by decide +kernel
/-- Every slot of cluster 0 is removed; its entry goes to cluster 1. -/
def lost : State :=
  { hungry [0] none [first] with slots := (List.range 8).flatMap fun k => (List.range 16).map fun i => (clusterCore 0 k * 16 + i, { removed := true }) }
theorem meets_SearchLaunchAndPreemption_steal :
    lost.stealable 1 0 = some first ∧ first ∈ (lost.cluster 0).cistern ∧ (lost.cluster 1).hungry.isSome = true ∧ lost.isHungry 0 = false := by decide +kernel
theorem meets_SearchLaunchAndPreemption_stolen :
    (let s := hungry [0] (some queued) []
     (s.cluster 1).stolen = some queued ∧ (s.cluster 1).cistern.length < 4096 ∧ (s.cluster 1).waiting = [] ∧
      ∀ a ∈ withLayers queued.hdr (clusterPositions 1),
        (s.setCluster 1 { (s.cluster 1).endSearch with stolen := none }).canPlace queued a = false) := by decide +kernel

/-- The packet at its host window, its header at 0x40300000; the job knows job 4 of module 3. -/
def launchWords : List Word := packetWords.set 1 0x40300000
def launch : State := { int with mem := memWords int.mem 0x300000 [0x8001], jobs := [(1, { job with jslot := 63, act := [(0, (3, 4))] })] }
theorem meets_SearchLaunchAndPreemption_launch :
    (launch.launchCheck 1 launchWords true).toOption.isSome = true ∧ (launch.launchCheck 1 (launchWords.set 6 0x20001) true).toOption = none ∧
    (launch.jobs.find? (fun j => j.2.isOpen && j.2.jslot == 63)).isSome = true ∧ (∀ j ∈ launch.jobs, (j.2.isOpen && j.2.jslot == 0) = false) ∧
    Alone launch 1 ∧ launchWords.length = 8 ∧ (launch.job 2).isOpen = false ∧ ((launch.job 1).act.any fun a => a.2 == (3, 4)) = true ∧
    ((launch.job 1).act.any fun a => a.2 == (3, 5)) = false ∧
    ((launch.countRecv 1 ((launch.job 1).ringParts.headD 1024) true).launchCheck 1 launchWords true).toOption.isSome = true := by
  unfold Alone; decide +kernel

/-- An entry of priority 5 that has waited for a reserved core, on which the strand's gang runs. -/
def urgent : Entry := { first with prio := 5, packet := (packetWords.set 3 0).set 4 0x10005, reserved := some (0, 0, 0) }
def crowded : State := later { int with clusters := [(0, { cistern := [urgent] })] }
theorem meets_SearchLaunchAndPreemption_preemption :
    crowded.preemptors 0 = [urgent] ∧ urgent.since + (crowded.job urgent.job).preemptWait * usTicks ≤ crowded.now ∧
    urgent.oneCore = true ∧ crowded.targetCore 0 urgent = some 0 ∧ crowded.migrs = [] ∧ crowded.candidates urgent 0 = [(1, gang)] ∧
    (crowded.victimPlace 1 0 [0]).isSome = true ∧ int.preemptors 0 = [] := by decide +kernel
/-- One of two cores, which are reserved for it. -/
def urgent2 : Entry := { urgent with hdr := 0x1000000 ||| urgent.hdr }
def crowded2 : State := { crowded with clusters := [(0, { cistern := [urgent2] })] }
theorem meets_SearchLaunchAndPreemption_reserved :
    crowded2.preemptors 0 = [urgent2] ∧ urgent2.since + (crowded2.job urgent2.job).preemptWait * usTicks ≤ crowded2.now ∧
    urgent2.oneCore = false ∧ urgent2.reserved = some (0, 0, 0) ∧ crowded2.migrs = [] ∧ crowded2.candidates urgent2 0 = [(1, gang)] ∧
    (urgent2.coresAt (0, 0, 0)).filter (fun x => !(crowded2.candidates urgent2 x).isEmpty) = [0] ∧
    (crowded2.victimPlace 1 0 (urgent2.coresAt (0, 0, 0))).isSome = true := by decide +kernel

/-- A commit of the strand's gang: without result bytes, with a completion counter, with an action, and with a tile. -/
def commitOf (size : Nat) (tile done : Word) (o : List OutEntry) : CommitMsg :=
  { gang := 1, job := 1, task := 7, copy := 0, version := 10, size := size, bytes := List.replicate size 1, outbox := o, cluster := 0, tile := tile, done := done, hedge := true }
def hedge (w : Option Nat) : HedgeRec :=
  { home := 0, task := 7, job := 1, version := 10, packet := packetWords, hdr := 0x8001, flags := 1, copies := [{ copy := 0, modul := 0, core := 0, gang := 1 }], winner := w }
/-- A header with four free buffers of 4 KB at 0x40310000, its line marked; and with its buffers' states as given. -/
def tiles (h6 : Word) : State := { int with mem := memWords int.mem 0x310000 [0xE100, 0x40320000, 1, 2, 3, 4, h6, 0], tileMarks := [(0x310000, 1)] }
/-- A lower copy's commit of the same task due now; a commit that waits at its home. -/
def lower : State := { int with agenda := [(0x10000, .commitArrival (commitOf 0 0 0 []))] }
theorem meets_HomesArbitrateCommits :
    (let m := { commitOf 0 0 0 [] with copy := 1 }
     m ∉ lower.commits ∧ lower.now % mcTicks = 0 ∧ ({ lower with now := 0x10001 } : State).now % mcTicks ≠ 0 ∧ lower.yields (lower.beforeCommit m) = true ∧
      int.yields (int.beforeCommit m) = false ∧ ∃ x ∈ (({ int with commits := [commitOf 0 0 0 []] } : State)).commits, x.sameTile m = true) ∧
    (let s : State := { int with hedges := [hedge (some 1)] }
     CommitAlone s (commitOf 0 0 0 []) ∧
     ∃ r ∈ s.hedges, r.task = (commitOf 0 0 0 []).task ∧ r.job = (commitOf 0 0 0 []).job ∧ r.winner.isSome = true) ∧
    HomeServes int (commitOf 0 0 0 []) ∧ Silent int (commitOf 0 0 0 []) ∧ HomeServes { int with hedges := [hedge none] } (commitOf 0 0 0 []) ∧
    int.translate (int.commitCore (commitOf 0 0 0x40200040 [])) 1 0x40200040 .rmw = .hbm 0x200040 false ∧
    int.lwAt 1 (1024 + int.commitHome (commitOf 0 0 0 [{ kind := .irrev, words := actionWords }])) ≤ 10 ∧ int.held = [] := by
  unfold HomeServes Silent Plain CommitAlone; decide +kernel
theorem meets_HomesArbitrateCommits_tiles :
    (∀ h6 ∈ [(0 : Nat), 0x55, 0x56], (match (tiles (BitVec.ofNat 64 h6)).header 0 1 0x40310000 with
      | .ok pa h => pa == 0x310000 && tileSize (h.getD 0 0) == 4096
      | _ => false) = true) ∧
    (tiles 0).chooseBuffer 0x310000 ((tiles 0).readWords 0x310000 8) 0 = .take 0 ∧
    (tiles 0x55).chooseBuffer 0x310000 ((tiles 0x55).readWords 0x310000 8) 0 = .full ∧
    ({ tiles 0x54 with readers := [{ header := 0x310000, buf := 0, core := 0, gang := 1, ch := 0, num := 0 }] } : State).chooseBuffer 0x310000 ((tiles 0x54).readWords 0x310000 8) 0 = .wait ∧
    (0x310000, 1) ∈ (tiles 0).tileMarks ∧ (commitOf 4096 0x40310000 0 []).lp = none ∧ (∀ x ∈ (tiles 0).tileMarks, x.1 = 0x310000 → x.2 = 1) ∧
    (tiles 0).header ((tiles 0).commitCore (commitOf 4096 0x40300000 0 [])) 1 0x40310020 = .bad ∧
    (tiles 0).translate ((tiles 0).commitCore (commitOf 4096 0x40310000 0 [])) 1 0x40320000 .read = .hbm 0x320000 false ∧
    0x310000 + 64 ≤ 0x320000 := by decide +kernel

/-- A gang whose commit waits for its answer; a running copy, and a queued one. -/
def committing (f : BitVec 5) (i : Option Nat) : State :=
  { int with gangs := [(1, { gang with flags := f, inline := i, commit := some (commitOf 0 0 0 [], 0) })] }
/-- Copy 0 as a CANCEL names it: with a gang and the core it had. -/
def named (g c : Nat) : HedgeCopy := { copy := 0, modul := 0, core := c, gang := g }
theorem meets_CommitAnswersAndCancels :
    ((committing 0 none).gang 1).commit = some (commitOf 0 0 0 [], 0) ∧ ((committing 4 (some 0)).gang 1).flags.getLsbD 0 = false ∧
    ((committing 0 none).gang 1).lp = none ∧ ((committing 0 none).gang 1).inline = none ∧ ((committing 0 (some 0)).gang 1).inline.isSome = true ∧
    ((committing 0 none).gang 1).undone = false ∧
    (∀ c ∈ [named 1 0, named 0 9], ((int.namedCopies 1 0 c).filter fun x => x.2.commit.isNone) = [(1, gang)] ∧ int.follows c (1, gang) = true) ∧
    int.follows (named 1 9) (1, gang) = false ∧ int.clusters = [] ∧ int.contextGangs = [] ∧ int.awayTasks = [] := by
  decide +kernel
/-- A commit whose gang a rollback has undone before its answer. -/
theorem meets_CommitAnswersAndCancels_undone :
    (let s : State := { int with gangs := [(1, { gang with undone := true, commit := some (commitOf 0 0 0 [], 0) })] }
     (s.gang 1).undone = true ∧ (s.gang 1).commit = some (commitOf 0 0 0 [], 0)) := by decide +kernel
/-- A queued copy of task 9, and one whose gang has gone to module 3 over core 5, where a forwarding entry names it. -/
def queuedCopy : Entry := { queued with task := 9, flags := 1 }
def gone : State := { unit queuedCopy with awayTasks := [(1, 9, 0, 4, 5)], cores := [(5, { fwd := [(2, { f0 := 0x8000300000000000, f1 := 4, f2 := 0, f3 := 0 })] })] }
theorem meets_CommitAnswersAndCancels_moved :
    (∀ x ∈ gone.gangs, x.2.task = 9 → x.2.copy = 0 → x.2.commit.isSome = true) ∧
    (∀ a ∈ gone.awayTasks, GoneAway a 1 9 { copy := 0, modul := 0, core := 5, gang := 4 }) ∧
    (∃ f, gone.fwdTo 5 [4] = some f ∧ bits f.f0 44 12 ≠ 0) ∧
    (∃ c ∈ gone.clusters, ∃ e ∈ c.2.entries, e.job = 1 ∧ e.task = 9 ∧ e.copy = 0 ∧ e.cont = none ∧ e.flags.getLsbD 0 = true ∧ e.isTicket = false) :=
  ⟨by decide +kernel, by unfold GoneAway; decide +kernel, ⟨{ f0 := 0x8000300000000000, f1 := 4, f2 := 0, f3 := 0 }, by decide +kernel⟩, by decide +kernel⟩

/-- A copy of task 9 in a context that waits for room at core 5. -/
def coming : State := { int with contexts := [(0, 5, { gangs := [(4, { gang with flags := 1, task := 9 })], slots := [] })] }
theorem meets_CommitAnswersAndCancels_context :
    (∀ x ∈ coming.gangs, x.2.task = 9 → x.2.copy = 0 → x.2.commit.isSome = true) ∧
    (∃ e ∈ coming.contexts, ∃ q ∈ e.2.2.gangs, q.2.job = 1 ∧ q.2.task = 9 ∧ q.2.copy = 0 ∧ q.2.flags.getLsbD 0 = true) ∧
    ((coming.dropArriving (fun q => q.job == 1 && q.task == 9 && q.copy == 0) .cancel).contextGangs = []) := by decide +kernel

/-- A HEDGE copy at a checkpoint, and its report to the Weir of its class, ahead or behind, with a full bucket. -/
def weir : State :=
  { int with gangs := [(1, { gang with flags := 1, task := 7 })], hedges := [hedge none],
             jobs := [(1, { job with weirQ := [(4, 1000)], classes := [(0, {})] })],
             tenants := [(1, { valid := true, w := 32, h := 16, rate := 1, cap := 1000, level := 12288000000 })] }
/-- A report of a lower copy due now. -/
def reported : State := { weir with agenda := [(0x10000, .weirReport 1 0 5 10 7 0 0)] }
theorem meets_CheckpointsAndReports :
    (∃ x ∈ weir.gangs, x.1 = 1) ∧ (weir.gang 1).flags.getLsbD 0 = true ∧ (weir.job 1).weirHere = true ∧
    weir.yields (beforeReport 1 7 0) = false ∧ reported.yields (beforeReport 1 7 1) = true ∧ (weir.job 1).self ≠ 3 ∧
    tget (weir.job 1).weirQ (0 * 64 + (min 5 64 - 1)) 0 = 1000 ∧
    (∀ r ∈ weir.hedges, r.task = 7 → r.job = 1 → 1000 ≤ 1000 ∨ 2 < r.next ∨ r.winner.isSome = true) ∧
    (weir.hedges.find? (fun r => r.task == 7 && r.job == 1)) = some (hedge none) ∧ (tget (weir.job 1).classes 0 {}).kmin ≤ 5 ∧
    (hedge none).copies.length < (weir.job 1).maxc ∧ (hedge none).next ≤ 2 := by decide +kernel
theorem meets_CheckpointsAndReports_backup :
    (let u := (weir.setJob 1 { weir.job 1 with weirQ := tset (weir.job 1).weirQ 4 999 }).settleBuckets
     (u.backupTarget (hedge none) 0 0).isSome = true ∧ (hedge none).copies.find? (fun x => x.copy == 0) = some { copy := 0, modul := 0, core := 0, gang := 1 } ∧
      (weir.job 1).charge 0 5 1 * 12288 ≤ (tget u.tenants 1 {}).level) := by decide +kernel

/-! ## Virtual time, rings, the fabric and the host: witnesses -/

/-- A message at 9 for LP 5 of core 0; its LP with two inbox entries, of a job with OPT or without. -/
def msg : Message := { w0 := 9, w1 := 2, w2 := 5, vt := 8 }
def lpOf (inbox : List InboxEntry) (lvt : Option (Word × Word × Word)) (log : List LogEntry) : Lp :=
  { desc := [5, 0, 0, 0x200000000], inbox := inbox, lvt := lvt, log := log }
def timed (opt : Bool) (lw : Nat) (l : Lp) : State :=
  { int with jobs := [(1, { job with opt := opt, lps := [(5, l)], parts := [(0, { lw := lw })] })] }
def sent : LogEntry := { w0 := 30, w1 := 2, w2 := 6, tvrt := 20, tw1 := 2, tw2 := 5 }
theorem meets_MessagesArrive :
    msg.dest = 5 ∧ Reached (timed false 9 (lpOf [] none [])) 1 msg ∧ InOrder (timed false 9 (lpOf [] none [])) 1 msg ∧
    (lpOf [] none []).freeIdx = some 0 ∧ (timed false 9 (lpOf [] none [])).lp 1 5 = lpOf [] none [] ∧
    (int.job 2).isOpen = false ∧ (int.job 1).declares 5 = false ∧ msg.w0.toNat < (timed false 10 (lpOf [] none [])).lwAt 1 0 ∧
    Reached (timed true 0 (lpOf [{ st := .done, msg := { msg with w0 := 20 } }] (some (20, 2, 5)) [sent])) 1 msg ∧
    (∃ k, lvtKey (some ((20 : Word), (2 : Word), (5 : Word))) = some k ∧ keyLt msg.key k = true) ∧
    NoChildren (timed true 0 (lpOf [] none [])) ∧ keyLe ((lpOf [] none []).bound msg.key) (keyOf sent.tvrt sent.tw1 sent.tw2) = true ∧
    ((lpOf [{ st := .anti, msg := msg }] none []).inbox = [{ st := .anti, msg := msg }] ∧ (lpOf [] none []).overflow = []) := by
  refine ⟨by decide +kernel, by unfold Reached; decide +kernel, .inl (by decide +kernel), by decide +kernel, by decide +kernel, by decide +kernel,
    by decide +kernel, by decide +kernel, by unfold Reached; decide +kernel, ⟨_, rfl, by decide +kernel⟩, by unfold NoChildren; decide +kernel,
    by decide +kernel, by decide +kernel⟩

/-- An LP whose lowest message waits, with the header of its tasks at 0x40300000; a tile with two visible buffers. -/
def inbox : State :=
  at_ { (timed true 0 (lpOf [{ st := .pos, msg := msg, idx := 1 }] none [])) with
    mem := memWords int.mem 0x300000 [0x8001]
    jobs := [(1, { job with opt := true, inGang := 0x40300000, lps := [(5, lpOf [{ st := .pos, msg := msg, idx := 1 }] none [])] })] } (.inboxDispatch 1 5)
theorem meets_InboxesDispatchAndVersionsRevoke :
    (inbox.job 1).isOpen = true ∧ (inbox.job 1).terminated = false ∧ ((inbox.job 1).part (inbox.lp 1 5).home).frozen = false ∧ (inbox.lp 1 5).inq = [] ∧ (∀ x ∈ (inbox.lp 1 5).inbox, x.st ≠ .run) ∧
    lowest ((inbox.lp 1 5).inbox.filter fun x => x.st == .pos) = some { st := .pos, msg := msg, idx := 1 } ∧ (inbox.job 1).opt = true ∧
    (inbox.readHeader (inbox.lp 1 5).home 1 ((inbox.job 1).inGang &&& ~~~63)).toOption = some 0x8001 ∧ headerOk 0x8001 = true ∧
    (inbox.cluster 0).cistern = [] ∧ (inbox.cluster 0).waiting = [] ∧
    (let s := tiles 0x05
     tileState (BitVec.ofNat 64 (memRead s.mem (0x310000 + 48) 8)) 0 = 1 ∧ memRead s.mem (0x310000 + 16) 8 = 1) := by decide +kernel

/-- A job of one module at its last part, at its first; with the group's other module; and terminating. -/
def passing (g : List (Nat × Nat)) (t : Bool) : State := { int with jobs := [(1, { job with group := g, self := 1, opt := true, terminated := t })], gangs := [] }
theorem meets_LowWaterPasses :
    ((passing [] false).job 1).isOpen = true ∧ ((passing [] false).job 2).isOpen = false ∧
    nextIn ((passing [] false).job 1).ringParts 0 = some 1 ∧ nextIn ((passing [] false).job 1).ringParts 1055 = none ∧
    ((passing [] false).job 1).cut = false ∧ ((passing [(1, 0), (2, 0)] false).job 1).ringParts.head? ≠ some 1055 ∧
    ((passing [] false).job 1).nextModule = none ∧ ((passing [(1, 0), (2, 0)] false).job 1).nextModule = some 2 ∧
    ((passing [] false).job 1).abort = .none ∧ (passing [] false).localMin 1 1055 = 2 ^ 64 - 1 ∧ ((passing [] false).job 1).opt = true ∧
    (passing [] false).ready.getLsbD 38 = true ∧ ((passing [] false).job 1).terminated = false ∧
    ((passing [] false).job 1).firstModule = ((passing [] false).job 1).self ∧ ((passing [(0, 0), (1, 0)] false).job 1).firstModule = 0 ∧
    (((passing [] false).job 1).part 0).frozen = false ∧ (((passing [] false).job 1).part 0).lw ≤ 0 ∧
    (let s := slotIs int 0 fun v => { v with wait := .low 5 }
     (s.slot (0 * 16 + 0)).wait = .low 5 ∧ (s.gang (s.slot (0 * 16 + 0)).gang).job = 1) := by decide +kernel
/-- The same with an abort in a phase, whose first circuit has begun here or not. -/
def aborting (g : List (Nat × Nat)) (a : AbortPhase) (c : Bool) : State :=
  { passing g false with jobs := [(1, { job with group := g, self := 1, opt := true, abort := a, circled := c, reason := 5 })] }
theorem meets_AbortCircuits :
    ((passing [] false).job 1).isOpen = true ∧ nextIn ((passing [] false).job 1).ringParts 1024 = some 1025 ∧
    nextIn ((passing [] false).job 1).ringParts 1055 = none ∧ (((passing [] false).job 1).without 0).nextModule = none ∧
    ((passing [] false).readHeader (((passing [] false).job 1).ringParts.headD 0 % 1024) 1 0x500000000).toOption = none ∧
    ((passing [] false).job 2).isOpen = false ∧ ((aborting [] .first true).job 1).circled = true ∧
    ((aborting [] .first true).job 1).ringParts.head? = some 0 ∧ ((aborting [] .first false).job 1).circled = false ∧
    ((aborting [] .first true).job 1).ringParts.head? ≠ some 1055 ∧
    (((aborting [(1, 0), (2, 0)] .first true).job 1).without 0x3002000000000000).nextModule = none ∧
    (((aborting [(1, 0), (2, 0)] .first true).job 1).without 5).nextModule = some 2 ∧
    (((aborting [] .first true).job 1).without 5).firstModule = ((aborting [] .first true).job 1).self ∧
    ((aborting [] .stopped false).job 1).abort = .stopped ∧ nextIn ((aborting [] .stopped false).job 1).ringParts 0 = some 1 ∧
    nextIn ((aborting [] .stopped false).job 1).ringParts 1055 = none := by decide +kernel

/-- A part of ring 5 awaiting step 1; read out; with its neighbour announced. -/
def linked : Ring := { ring5 with slots := [(0, .held 0 false), (1, .await 1)], linkSucc := some 2, tokens := [] }
def ringed : State := { (int.setCore 0 { (int.core 0) with members := [(0, joined true)] }) with rings := [linked] }
theorem meets_RingTraffic :
    ringed.ring 1 5 = some linked ∧ ringed.ring 1 6 = none ∧ linked.complete = true ∧ linked.members ≠ [] ∧ linked.broken = false ∧
    NoAttention ringed linked ∧ linked.breakAt = none ∧ ({ linked with breakAt := some 0x10001 } : Ring).breakAt = some 0x10001 ∧ ringed.now < 0x10001 ∧
    linked.conflict = false ∧ FitsAsSuccessor linked { job := 1, ring := 5, k := 3, pos := 2, s := 2, bsz := 0, modul := 2 } ∧ ringed.anns = [] ∧
    2 < linked.k ∧ linked.k ≤ 3 ∧ linked.members = [(0, 0)] ∧ ringed.member 0 0 = some (joined true) ∧
    tget linked.slots (1 % linked.s) .init = .await 1 ∧ (∃ ro, tget linked.slots (0 % linked.s) .init = .held 0 ro) ∧
    linked.members.find? (fun p => ((ringed.member p.1 p.2).map (·.lead)).getD false) = some (0, 0) ∧ linked.linkSucc = some 2 := by
  refine ⟨by decide +kernel, by decide +kernel, by decide +kernel, by decide +kernel, by decide +kernel, by unfold NoAttention; decide +kernel,
    by decide +kernel, by decide +kernel, by decide +kernel, by decide +kernel, by unfold FitsAsSuccessor; decide +kernel, by decide +kernel, by decide +kernel, by decide +kernel, by decide +kernel, by decide +kernel,
    by decide +kernel, ⟨false, by decide +kernel⟩, by decide +kernel, by decide +kernel⟩

/-- A beat whose bank cycle has come or has not; an abort past its first circuit. -/
def landing : State := ringed.setCore 0 { ringed.core 0 with claims := [{ bank := 0, cycle := ringed.cycleOf 0, rank := rankCopy, owner := ownerRill 1 }] }
theorem meets_RingTraffic_landing :
    ringed.ringless 1 = false ∧ ({ ringed with jobs := [(1, { job with abort := .second })] } : State).ringless 1 = true ∧
    ringed.member 0 0 = some (joined true) ∧ (joined true).gang = 1 ∧ ringed.ring (joined true).job (joined true).ring = some linked ∧
    (0, 0) ∈ linked.members ∧ ringed.claimEnds 0 (ownerRill 1) = none ∧ (landing.claimEnds 0 (ownerRill 1)).isSome = true ∧
    (ringed.cluster (clusterOf 0)).attnQ = [] := by decide +kernel

/-- A packet of module 3 for core 0, first in its flow; one for a core of another tenant; a recorded incarnation that is not its own. -/
def header (tenant : Nat) : PacketHead := { modul := 3, src := 0, inc := 7, cls := 2, fseq := 0, dst := 0, job := 1, tenant := tenant }
def arriving (tenant : Nat) (p : Nat) : State := { int with slots := [], agenda := [(0x10000, .fromModule (header tenant) 0 (.readySet 1))], peers := [((1, 3), p)] }
theorem meets_PacketsKeepTheirFlow :
    (∀ p ∈ [(1, 7), (1, 8), (2, 7)], let s := arriving p.1 p.2
      s.firstReady s.slots = none ∧ (s.peers.find? fun q => q.1 == (1, 3)) = some ((1, 3), p.2)) ∧ (arriving 1 7).routerRefuses (header 1) = false ∧
    (arriving 2 7).routerRefuses (header 2) = true ∧ ((arriving 1 7).flow (header 1)).next = 0 ∧ ((arriving 1 7).flow (header 1)).held = [] := by decide +kernel

/-- Fibre groups in each state; a shared job; READY bits set and clear; a cap with a slot to remove or to return. -/
def fibre (f : FibreState) (set : Bool) : State := later { int with fibres := [(0, { st := f, settled := set })] }
theorem meets_FabricReadinessAndPower :
    (waiting.slot 0).inFlight.isSome = true ∧ (int.job 2).isOpen = false ∧
    (let s := passing [(1, 0), (2, 0)] false
     (1, s.job 1) ∈ s.jobs ∧ (s.job 1).isOpen = true ∧ (∃ g ∈ (s.job 1).group, g.1 = 2) ∧ (s.job 1).abort = .none) ∧
    (∃ j ∈ (passing [(1, 0)] false).jobs, j.2.group ≠ []) ∧ ((fibre .wide false).fibre 0).st = .wide ∧
    ((fibre .wide false).fibre 0).quietSince + ((fibre .wide false).fibre 0).hold * usTicks ≤ (fibre .wide false).now ∧
    ((fibre .parked false).fibre 0).st = .parked ∧ ((fibre .waking true).fibre 0).st = .waking ∧ ((fibre .waking true).fibre 0).settled = true ∧
    int.ready.getLsbD 38 = true ∧ State.reset.ready.getLsbD 38 = false ∧ 39 ≤ 39 ∧ State.reset.ready.getLsbD 0 = false := by decide +kernel
theorem meets_FabricReadinessAndPower_power :
    ([2, 3, 1].find? State.reset.canRemove).isSome = true ∧ State.reset.lastSlot 0 = some 15 ∧ State.reset.dutied = [] ∧
    ({ State.reset with cap := 1000, removals := [15], lowSince := some 0 } : State).removals = 15 :: [] := by decide +kernel

/-- A mailbox slot with a command's words, its bell rung. -/
def mailed (ws : List Word) (e : Ev) : State := at_ { int with mailbox := [(7, { words := ws, busy := true })], bells := [7] } e
theorem meets_HostWindows :
    int.ready.getLsbD 0 = true ∧ int.ready.getLsbD 1 = true ∧ (mailed [] .reset).mail (0x700 / 256) = { words := [], busy := true } ∧
    (int.mail (0x7F8 / 256)).busy = false ∧ int.evqHead ≤ 0 ∧ 0 ≤ int.evqTail ∧ int.evHeld = [] ∧
    (let s : State := { int with evqHead := 1, evqTail := 129, evHeld := [[1]] }
     s.evqHead ≤ 2 ∧ 2 ≤ s.evqTail ∧ s.evHeld = [[1]] ∧ s.evqTail < 2 + 128 ∧ 0 < s.evqHead ∧ s.evqTail < 130) ∧
    (let s : State := { int with stageBase := 0xB000000000 }
     s.stageBase.toNat + 0xFFFFFFFC0 + 64 ≤ hbmEnd ∧ 0xFFFFFFFC0 + 64 ≤ 2 ^ 36 ∧ 2 ^ 36 < 0xFFFFFFFC1 + 64 ∧ hbmEnd < s.stageBase.toNat + 0x1000000000 + 1) ∧
    int.drLines = [] ∧ int.tileMarks = [] ∧ (List.replicate 64 (0 : Byte)).length = 64 := by decide +kernel

theorem meets_ModuleCommands :
    (∀ e ∈ [Ev.identify 7, .attest 7, .powerCap 7, .parkPolicy 7, .jobClose 7, .notSupportedCommand 7], Turn (mailed [] e) 7 e) ∧
    (let s := mailed [0, 0, 1000, 0x40000000100, 0] (.powerCap 7)
     bits (s.arg 7 0) 0 16 = 1000 ∧ bits (s.arg 7 1) 0 17 = 256 ∧ bitAt (s.arg 7 1) 42 = true ∧ s.arg 7 2 = 0) ∧
    (let s := mailed [0, 0, 6001, 255, 0] (.powerCap 7)
     6000 < bits (s.arg 7 0) 0 16 ∧ bits (s.arg 7 1) 0 17 < 256) ∧ (mailed [0, 0, 0, 0, 1] (.powerCap 7)).arg 7 2 ≠ 0 ∧
    (let s := mailed [0, 0, 63, 1024, 4096, 1000] (.parkPolicy 7)
     (s.arg 7 0).toNat < 64 ∧ (s.arg 7 1).toNat ≤ 1024 ∧ (s.arg 7 1).toNat < (s.arg 7 2).toNat ∧ (s.arg 7 2).toNat ≤ 4096 ∧
      1 ≤ (s.arg 7 3).toNat ∧ (s.arg 7 3).toNat ≤ 1000) ∧
    64 ≤ ((mailed [0, 0, 64] (.parkPolicy 7)).arg 7 0).toNat ∧ 1024 < ((mailed [0, 0, 0, 1025] (.parkPolicy 7)).arg 7 1).toNat ∧
    ((mailed [0, 0, 0, 1024, 1024] (.parkPolicy 7)).arg 7 2).toNat ≤ 1024 ∧ ((mailed [0, 0, 0, 0, 64, 0] (.parkPolicy 7)).arg 7 3).toNat = 0 ∧
    (mailed [0, 0, 0] (.jobClose 7)).jobOfSlot 0 = some 1 ∧ (mailed [0, 0, 1] (.jobClose 7)).jobOfSlot 1 = none := by
  unfold Turn; decide +kernel

/-- Arguments of TENANT_MAP, FORMAT_RANGE and ACT_SET at the ends of their ranges. -/
def tenantArgs (n xy : Word) : State := mailed [0, 0, n, xy, 64, 65535] (.tenantMap 7)
def noJobs (s : State) : State := { s with jobs := [], tenants := [] }
theorem meets_TenantJobAndRangeCommands :
    (∀ e ∈ [Ev.tenantMap 7, .formatRange 7, .actSet 7, .jobOpen 7 []], Turn (mailed [] e) 7 e) ∧
    ((tenantArgs 4095 0x3FE00).arg 7 0).toNat < 4096 ∧ 1 ≤ ((tenantArgs 4095 0x3FE00).arg 7 0).toNat ∧
    bits ((tenantArgs 4095 0x3FE00).arg 7 1) 0 5 + (bits ((tenantArgs 4095 0x3FE00).arg 7 1) 9 5 + 1) = 32 ∧
    bits ((tenantArgs 4095 0x3FE00).arg 7 1) 5 4 + (bits ((tenantArgs 4095 0x3FE00).arg 7 1) 14 4 + 1) = 16 ∧
    (∃ o ∈ (tenantArgs 4095 0x3FE00).tenants, o.1 ≠ 4095 ∧ o.2.valid = true ∧ rectsMeet 0 0 32 16 o.2.x o.2.y o.2.w o.2.h = true) ∧
    (∃ j ∈ (tenantArgs 1 0).jobs, j.2.isOpen = true ∧ j.2.tenant = 1 ∧ rectInside j.2.subX j.2.subY j.2.subW j.2.subH 0 0 1 1 = false) ∧
    (noJobs (tenantArgs 4095 0)).tenants = [] ∧ (tget (noJobs (tenantArgs 4095 0)).tenants 4095 {}).valid = false ∧
    (let s := mailed [0, 0, 0, 7, 0x8500000040200000, 0x40200040, 0x40300000] (.formatRange 7)
     (s.arg 7 0).toNat < 64 ∧ (s.arg 7 1).toNat < 8 ∧ bits (s.arg 7 2) 56 3 = 5 ∧ s.jobOfSlot 0 = some 1 ∧ Settled2 s 1 ∧
      (tget s.ranges 7 {}).on = false ∧ bits ((mailed [0, 0, 0, 7, 0x8400000040200000] (.formatRange 7)).arg 7 2) 56 3 ≠ 5 ∧
      FmtRange.refusal { base := s.arg 7 2 &&& 0x8700FFFFFFFFFFC0, lim := s.arg 7 3 &&& 0xFFFFFFFFFFC0, scl := s.arg 7 4 &&& 0xFFFFFFFFFFF8, job := 1 } [] = none ∧
      FmtRange.refusal { base := 0x8500000040200040, lim := 0x40200000, scl := 0, job := 1 } [] = some 3) ∧
    (let s : State := { mailed [] (.formatRange 7) with ranges := [(7, { base := 0x8500000040200000, job := 2 })], jobs := [(1, job), (2, { job with jslot := 1 })] }
     (tget s.ranges 7 {}).on = true ∧ (tget s.ranges 7 {}).job ≠ 1 ∧ (s.job 2).isOpen = true) ∧
    (let s := mailed [0, 0, 65535, 31, 4095, 4095, 1] (.actSet 7)
     (s.arg 7 0).toNat < 65536 ∧ (s.arg 7 1).toNat < 32 ∧ (s.arg 7 2).toNat < 4096 ∧ (s.arg 7 3).toNat < 4096 ∧ s.arg 7 4 = 1 ∧ Settled2 s 65535) := by
  unfold Turn Settled2; decide +kernel

/-- A JOB_OPEN record: job 9 of tenant 1 on one position, its tables at 0x1000 and pool at 0x40100000; its rectangle may leave the tenant's. -/
def openWords (xy : Word) : List Word :=
  [0x10009, xy, 0x1000, 0x40100000, 0x10000, 0, 0, 0, 0, 0, 0, 0, 0, 0, 0x6400000000] ++ List.replicate 17 0 ++ List.replicate 256 0x1444
def opening (xy : Word) : State := mailed [0, 0, 63] (.jobOpen 7 (openWords xy))
def opened (xy : Word) : Job := recordJob (fun i => (openWords xy).getD i 0) 63 ((opening xy).job 9)
theorem meets_TenantJobAndRangeCommands_open :
    (opened 0).inRange = true ∧ ((opening 0).arg 7 0).toNat < 64 ∧
    (match (opening 0).judgeOpen 9 (opened 0) 0 0 with | .opens _ => true | _ => false) = true ∧
    (match (opening 0x23FFF).judgeOpen 9 (opened 0x23FFF) 0 0 with | .answer _ c => c == 3 | _ => false) = true ∧
    (recordJob (fun _ => 0) 63 {}).inRange = false := by decide +kernel

/-- GROUP_SET with one other member over two circuits, on an engine that is ready or not; TRACE_CTL and LOCKSTEP of two like jobs. -/
def groupArgs (e : Word) : State := mailed [0x05000000, 0, 65535, 0x20001, 1, 2, 0x2002001 ||| e] (.groupSet 7)
def pairOfJobs (f : Job → Job) (d : Word) : State :=
  { mailed [0, 0, 1, 2, d] (.lockstep 7) with jobs := [(1, { job with det := true }), (2, f { job with det := true, jslot := 1 })] }
theorem meets_GroupTraceAndLockstepCommands :
    (∀ e ∈ [Ev.groupSet 7, .circuitChange 7, .traceCtl 7, .lockstep 7], Turn (mailed [] e) 7 e) ∧
    (let s := groupArgs 0x100000000
     let g := s.groupArg 7
     (s.arg 7 0).toNat < 65536 ∧ 1 ≤ g.self ∧ (∃ m ∈ g.members, m.1 = g.self) ∧ (∀ m ∈ g.members, m.1 ≠ 0) ∧ g.circuits.length = 1 ∧
      (∀ c ∈ g.circuits, (∃ m ∈ g.members, m.1 = c.1) ∧ ∃ m ∈ g.members, m.1 = c.2.1) ∧ Settled2 s 65535 ∧
      (∀ e, e < 16 → g.engines.testBit e = true → s.ready.getLsbD (22 + e) = true) ∧ s.breaksRing 65535 g = false ∧ s.groupTraffic 65535 = false) ∧
    (let s : State := { groupArgs 0x800000000000 with ready := 0 }
     ∃ e, e < 16 ∧ (s.groupArg 7).engines.testBit e = true ∧ s.ready.getLsbD (22 + e) = false) := by
  unfold Turn Settled2; decide +kernel
theorem meets_GroupTraceAndLockstepCommands_refusals :
    (let s : State := { groupArgs 0 with rings := [{ ring5 with job := 65535, linkSucc := some 2 }], jobs := [(65535, { job with self := 1, circuits := [(1, 2, 9)] })],
                                          anns := [⟨65535, 5, 3, 1, 2, 0, 1⟩, ⟨65535, 5, 3, 2, 2, 0, 2⟩] }
     s.breaksRing 65535 (s.groupArg 7) = true) ∧
    (let s : State := { groupArgs 0 with slots := [(0, { strand with inFlight := some { tag := 4, away := true } })] }
     s.groupTraffic 1 = true) ∧
    (let s := mailed [0, 0, 1, 0, 0x40200000, 1024] (.traceCtl 7)
     (s.job (s.arg 7 0).toNat).isOpen = true ∧ s.arg 7 1 = 0 ∧ (s.area (s.job 1).root (s.arg 7 2).toNat (64 * (s.arg 7 3).toNat)).isSome = true ∧
      (∀ h ∈ areaStacks ((s.area (s.job 1).root (s.arg 7 2).toNat 65536).getD []) (s.arg 7 2).toNat 65536, s.ready.getLsbD (2 + h) = true) ∧
      (∃ h ∈ areaStacks ((s.area (s.job 1).root (s.arg 7 2).toNat 65536).getD []) (s.arg 7 2).toNat 65536, (3 : Word).getLsbD (2 + h) = false) ∧
      s.area (s.job 1).root 0x80000000 64 = none) ∧
    (let s := pairOfJobs id 0x20000
     (s.job 1).isOpen = true ∧ (s.job 2).isOpen = true ∧ Settled2 s 1 ∧ Settled2 s 2 ∧ (s.job 1).det = true ∧ (s.job 2).det = true ∧
      (s.job 1).tenant = (s.job 2).tenant ∧ (s.job 1).subW = (s.job 2).subW ∧ (s.job 1).subH = (s.job 2).subH ∧ (s.arg 7 2).toNat % 0x20000 = 0) ∧
    ((pairOfJobs (fun j => { j with det := false }) 0).job 2).det = false ∧ ((pairOfJobs (fun j => { j with subW := 1 }) 0).job 2).subW ≠ 32 ∧
    ((pairOfJobs id 0x1FFFF).arg 7 2).toNat % 0x20000 ≠ 0 ∧ ((pairOfJobs (fun j => { j with isOpen := false }) 0).job 2).isOpen = false ∧
    (mailed [] (.identify 6)).bells.head? ≠ some 6 := by unfold Settled2; decide +kernel

/-! ## The whole machine: witnesses -/

/-- The strand about to issue an add in its local memory, a hint in HBM, and with a step due. -/
def issuing : State :=
  { slotIs int 0 (fun v => { v with pc := 0x200 }) with mem := memWrite int.mem (localBase 0 + 0x200) 0x01820809 4, agenda := [(0x20000, .readySet 1)] }
def inHbm : State := { slotIs int 0 (fun v => { v with pc := 0x40300000 }) with mem := memWrite int.mem 0x300000 0x0018 2 }
theorem meets_StepRunsTheDecodedInstruction :
    issuing.firstReady issuing.slots = some (65600, 0) ∧ issuing.agenda.head? = some (0x20000, .readySet 1) ∧
    (issuing.toIssue 65600 0).causeDue = false ∧ (issuing.toIssue 65600 0).atBreakpoint = false ∧
    ((issuing.toIssue 65600 0).core 0).icache = [] ∧ (issuing.toIssue 65600 0).me.pc.toNat + 4 ≤ 0x180000 ∧
    decode (memBytes (issuing.toIssue 65600 0).mem (localBase 0 + 0x200) 4) = .ok (.add 4 2 3 0, []) ∧
    inHbm.firstReady inHbm.slots = some (65600, 0) ∧ inHbm.agenda = [] ∧
    (match (inHbm.toIssue 65600 0).fetchWord 0 1 0x40300000 with
      | .word w n _ => decide (decode (toBytes w n) = .ok (.nopShort, []))
      | _ => false) = true ∧
    ({ int with slots := [], agenda := [(0x20000, .readySet 1)] } : State).firstReady [] = none ∧ ownStep (.readySet 1) = true ∧
    State.reset.agenda = [] ∧ State.reset.firstReady State.reset.slots = none := by decide +kernel
theorem meets_DecodeEncodeAgree : (Instr.icvt 127 127 1 1 1 2 3).wf = true ∧ (Instr.stDShort 15 15 7).wf = true := by decide +kernel
theorem meets_EveryStepKeepsTheInvariant :
    Machine.Inv issuing ∧ (match step issuing with | .next _ => true | _ => false) = true ∧
    (match step { int with slots := [], agenda := [(0x20000, .readySet 1)], ready := 0 } with | .next t => t.ready == 2 | _ => false) = true := by
  unfold Machine.Inv; decide +kernel
theorem meets_ReadyBitsClearOnlyAtReset :
    (match step { int with slots := [], agenda := [(0x20000, .readySet 1)], ready := 0 } with
      | .next t => t.ready == 0 ||| BitVec.ofNat 64 (2 ^ 1) | _ => false) = true ∧
    (match step { int with slots := [], agenda := [(0x20000, .reset)], ready := 2 } with | .next t => t.ready == 0 | _ => false) = true := by
  decide +kernel

/-! ## Single steps with results worked out from the rules -/

/-- The state an instruction leaves. -/
def after (o : Host.Outcome State Fault Refusal) : State :=
  match o with
  | .next t => t
  | _ => State.reset

/-- 04 R80, R81: the sign-extended byte of a word stored before, and the top doubleword of the private alias. -/
theorem test_store_load :
    (after (exec (.ldB 9 4 2 0) (later <| after (exec (.stD 1 4 0 0) (reg (reg int 1 0x12345678_9A80BCDE) 4 0x17FFF8))))).rx 9 = 0xFFFFFFFFFFFFFF80 := by
  decide +kernel
/-- 04 R92: ATOM.MINU of all ones over an HBM word of 0 leaves 0 and gives 0; ATOM.MIN of it leaves all ones. -/
theorem test_atomics :
    memRead (after (exec (.atomMin 6 5 2 0) edge)).mem 0x20FFC0 8 = 0xFFFFFFFFFFFFFFFF ∧
    memRead (after (exec (.atomMinu 6 5 2 0) edge)).mem 0x20FFC0 8 = 0 := by decide +kernel
/-- 04 R86: STFE.EF fills an empty word; LDFE.FE of a full one empties it. -/
theorem test_full_empty :
    (after (exec (.stfeEf 3 5 0) edge)).feBit 0x20FFC0 = true ∧ (after (exec (.ldfeFe 6 5 0) full)).feBit 0x20FFC0 = false := by decide +kernel
/-- 09 R167: 1.0 / 3.0 in FP32, to nearest, is 0x3EAAAAAB. -/
theorem test_fdiv : ((after (exec (.fdivF32 9 6 7 1) (fps 0))).slot 0).rx 9 = 0x3EAAAAAB := by decide +kernel
/-- 23 R370, R371: TRAP enters the handler with the next word's address in epc, and ERET leaves it. -/
theorem test_trap :
    (after (exec (.trap 3 0) int)).me.mode = true ∧ (after (exec (.trap 3 0) int)).me.epc = int.me.pc + 4 ∧
    (after (exec (.eret 0) (fw int))).me.mode = false := by decide +kernel
/-- 04 R102: a step of BMOV moves 64 bytes and completes a move of 64. -/
theorem test_bmov :
    ((after (exec .bmovStep (moving 64))).slot 0).wait = .none ∧ ((after (exec .bmovStep (moving 128))).slot 0).rx 8 = 64 := by decide +kernel
/-- 09 R177: a step of VADD advances its pointers by 64 bytes, and subtracts 16 elements of FP32 from the count. -/
theorem test_rep :
    (after (exec .vectorStep (at_ (pair 17) (.vectorStep 0)))).rx 13 = 1 ∧ (after (exec .vectorStep (at_ (pair 17) (.vectorStep 0)))).rx 11 = 0x140 := by
  decide +kernel

end Sys2Proof.Tests
end

section
/-! Fetch and issue: what a fetched word is and where it comes from (01 R13, R14; 07 R132), and which of a pending step and an instruction a step
performs (06 R108; log 4). -/

namespace Sys2Proof.Machine

/-! ## Bytes and numbers -/

theorem ofBytes_toBytes (n : Nat) : ∀ w, ofBytes (toBytes w n) = w % 256 ^ n := by
  induction n with
  | zero => intro w; simp [toBytes, ofBytes, Nat.mod_one]
  | succ n ih =>
    intro w
    rw [toBytes, ofBytes, ih, BitVec.toNat_ofNat, show (2 : Nat) ^ 8 = 256 from rfl, Nat.pow_succ', Nat.mod_mul]

theorem ofBytes_memBytes (m : List Host.Cell) (n : Nat) : ∀ a, ofBytes (memBytes m a n) = memRead m a n := by
  induction n with
  | zero => intro a; rfl
  | succ n ih => intro a; rw [memBytes, ofBytes, ih, memRead]

theorem memRead_two_lt (m : List Host.Cell) (a : Nat) : memRead m a 2 < 2 ^ 16 := by
  have h0 := (memByte m a).isLt
  have h1 := (memByte m (a + 1)).isLt
  simp only [memRead]
  omega

theorem memRead_four (m : List Host.Cell) (a : Nat) : memRead m a 4 = memRead m a 2 + 65536 * memRead m (a + 2) 2 := by
  simp only [memRead, Nat.add_assoc, Nat.reduceAdd]
  omega

/-- A number and its lowest byte have the same bit 0. -/
theorem isLong_mod_256 (w : Nat) : isLong (w % 256) = isLong w := by
  simp [isLong, Nat.mod_mod_of_dvd]

/-! ## The decoder on a long and on a short word -/

theorem decode_of_long {b0 b1 b2 b3 : Byte} {r : List Byte} (h : isLong b0.toNat = true) :
    decode (b0 :: b1 :: b2 :: b3 :: r) = (decodeLong (ofBytes [b0, b1, b2, b3])).map (·, r) := by
  simp [decode, h]

theorem decode_of_short {b0 b1 : Byte} {r : List Byte} (h : isLong b0.toNat = false) :
    decode (b0 :: b1 :: r) = (decodeShort (ofBytes [b0, b1])).map (·, r) := by
  simp [decode, h]

theorem eq_ok_of_map_pair {x : Except DecodeError Instr} {r rest : List Byte} {i : Instr} (h : x.map (·, r) = .ok (i, rest)) :
    x = .ok i := by
  cases x with
  | error e => simp [Except.map] at h
  | ok j =>
    obtain ⟨rfl, -⟩ : j = i ∧ r = rest := by simpa [Except.map] using h
    rfl

/-- A word as a fetch gives it: 4 bytes where its bit 0 is 1, 2 where it is 0 (01 R13). -/
def WordOfLength (w n : Nat) : Prop := isLong w = true ∧ n = 4 ∧ w < 2 ^ 32 ∨ isLong w = false ∧ n = 2 ∧ w < 2 ^ 16

/-- Decoding a fetched word's bytes is decoding the word. -/
theorem WordOfLength.decodeWord {w n : Nat} (hw : WordOfLength w n) {i : Instr} {rest : List Byte}
    (h : decode (toBytes w n) = .ok (i, rest)) : decodeWord w n = .ok i := by
  have b0 : (BitVec.ofNat 8 w).toNat = w % 256 := BitVec.toNat_ofNat w 8
  rcases hw with ⟨hl, rfl, hlt⟩ | ⟨hl, rfl, hlt⟩
  · have hb : ofBytes (toBytes w 4) = w := by rw [ofBytes_toBytes]; exact Nat.mod_eq_of_lt hlt
    rw [← isLong_mod_256, ← b0] at hl
    rw [← hb]
    exact eq_ok_of_map_pair ((decode_of_long hl).symm.trans h)
  · have hb : ofBytes (toBytes w 2) = w := by rw [ofBytes_toBytes]; exact Nat.mod_eq_of_lt hlt
    rw [← isLong_mod_256, ← b0] at hl
    rw [← hb]
    exact eq_ok_of_map_pair ((decode_of_short hl).symm.trans h)

/-- Decoding the four bytes at an address is decoding the long word there, or the short one. -/
theorem decodeWord_of_memBytes {m : List Host.Cell} {a : Nat} {i : Instr} {rest : List Byte}
    (h : decode (memBytes m a 4) = .ok (i, rest)) :
    if isLong (memRead m a 2) then decodeWord (memRead m a 2 + 65536 * memRead m (a + 2) 2) 4 = .ok i
    else decodeWord (memRead m a 2) 2 = .ok i := by
  have b0 : isLong (memByte m a).toNat = isLong (memRead m a 2) := by
    rw [← isLong_mod_256 (memRead m a 2)]
    simp [memRead, Nat.mod_eq_of_lt (memByte m a).isLt]
  split
  · next hl =>
    rw [← memRead_four, ← ofBytes_memBytes]
    exact eq_ok_of_map_pair ((decode_of_long (b0.trans hl)).symm.trans h)
  · next hl =>
    rw [← ofBytes_memBytes]
    exact eq_ok_of_map_pair ((decode_of_short (b0.trans (Bool.eq_false_iff.mpr hl))).symm.trans h)

/-! ## Halfwords of the instruction cache -/

theorem State.cachedHalf_lt (s : State) (core key pa : Nat) : (s.cachedHalf core key pa).1 < 2 ^ 16 := by
  simp only [State.cachedHalf]
  split
  · exact BitVec.isLt _
  · exact memRead_two_lt _ _

theorem State.fetchHalf_lt {s : State} {core job : Nat} {va : Word} {h : Nat} {t : State} (hf : s.fetchHalf core job va = .got h t) :
    h < 2 ^ 16 := by
  unfold State.fetchHalf at hf
  split at hf
  · cases hf; exact State.cachedHalf_lt _ _ _ _
  · cases hf; exact State.cachedHalf_lt _ _ _ _
  · split at hf
    · cases hf
    · split at hf <;> cases hf
      exact State.cachedHalf_lt _ _ _ _
  · split at hf <;> cases hf
    exact BitVec.isLt _
  · cases hf
  · cases hf

theorem State.fetchWord_length {s t : State} {core job : Nat} {pc : Word} {w n : Nat} (h : s.fetchWord core job pc = .word w n t) :
    WordOfLength w n := by
  unfold State.fetchWord at h
  split at h
  · cases h
  · cases h
  · cases h
  · cases h
  · next lo s1 hlo =>
    have := State.fetchHalf_lt hlo
    split at h
    · next hl =>
      split at h <;> cases h
      next hhi =>
      have := State.fetchHalf_lt hhi
      refine .inl ⟨?_, rfl, by omega⟩
      rw [isLong] at hl ⊢
      simp only [decide_eq_true_eq] at hl ⊢
      omega
    · next hl => cases h; exact .inr ⟨Bool.eq_false_iff.mpr hl, rfl, this⟩

/-! ## Fetching from the core's own local memory (07 R132) -/

/-- Nothing but the instruction caches differs. -/
def CachesOnly (s t : State) : Prop := t = { s with cores := t.cores } ∧ ∀ c, t.core c = { s.core c with icache := (t.core c).icache }

theorem CachesOnly.trans {s t u : State} (h : CachesOnly s t) (h' : CachesOnly t u) : CachesOnly s u := by
  obtain ⟨hs, hc⟩ := h
  obtain ⟨ht, hd⟩ := h'
  refine ⟨?_, fun c => ?_⟩
  · rw [ht]; conv_lhs => rw [hs]
  · rw [hd c]; conv_lhs => rw [hc c]

theorem CachesOnly.setIcache (s : State) (core : Nat) (l : List (Nat × BitVec 16)) :
    CachesOnly s (s.setCore core { s.core core with icache := l }) := by
  refine ⟨rfl, fun c => ?_⟩
  by_cases h : c = core
  · subst h; simp
  · simp [State.core, State.setCore, tget_tset_other _ _ _ h]

/-- A halfword the cache does not hold comes from memory, and is the only one added to the cache. -/
theorem State.cachedHalf_miss {s : State} {core key : Nat} (pa : Nat) (h : ∀ e ∈ (s.core core).icache, e.1 ≠ key) :
    ∃ t, s.cachedHalf core key pa = (memRead s.mem pa 2, t) ∧ CachesOnly s t ∧
      ∀ e ∈ (t.core core).icache, e.1 = key ∨ e ∈ (s.core core).icache := by
  have hf : (s.core core).icache.find? (fun e => e.1 == key) = none := by simpa using h
  refine ⟨_, by simp only [State.cachedHalf, hf]; rfl, CachesOnly.setIcache _ _ _, fun e he => ?_⟩
  rw [State.core_setCore] at he
  rcases List.mem_cons.mp (List.mem_of_mem_take he) with rfl | he
  · exact .inl rfl
  · exact .inr he

/-- An address below 0x180000 is in the core's own local memory (25 R392). -/
theorem State.translate_ownMemory (s : State) (core job : Nat) {va : Word} (acc : Access) (h : va.toNat < 0x180000) :
    s.translate core job va acc = .ownMem (localBase core + va.toNat) := by
  have ho : (s.job job).ordinary va.toNat = va.toNat := by
    unfold Job.ordinary
    rw [if_neg]
    omega
  simp [State.translate, State.translateBy, ho, h]

theorem State.fetchHalf_ownMemory (s : State) (core job : Nat) {va : Word} {pa h : Nat} {t : State} (hva : va.toNat < 0x180000)
    (hpa : pa = localBase core + va.toNat) (hc : s.cachedHalf core pa pa = (h, t)) : s.fetchHalf core job va = .got h t := by
  simp [State.fetchHalf, s.translate_ownMemory core job .fetch hva, ← hpa, hc]

/-- A word of local memory that the cache does not hold: its instruction is the one its bytes decode to. -/
theorem State.fetchWord_ownMemory {s : State} {core : Nat} (job : Nat) {pc : Word} {pa : Nat} {i : Instr} {rest : List Byte} (hpc : pc.toNat + 4 ≤ 0x180000)
    (hpa : pa = localBase core + pc.toNat) (hc : ∀ e ∈ (s.core core).icache, e.1 ≠ pa ∧ e.1 ≠ pa + 2)
    (hd : decode (memBytes s.mem pa 4) = .ok (i, rest)) :
    ∃ w n t, s.fetchWord core job pc = .word w n t ∧ decodeWord w n = .ok i ∧ CachesOnly s t := by
  obtain ⟨s1, hlo, hs1, hin⟩ := s.cachedHalf_miss pa fun e he => (hc e he).1
  have hmiss : ∀ e ∈ (s1.core core).icache, e.1 ≠ pa + 2 := fun e he => by
    rcases hin e he with h | h
    · omega
    · exact (hc e h).2
  obtain ⟨s2, hhi, hs2, -⟩ := s1.cachedHalf_miss (pa + 2) hmiss
  have hmem : s1.mem = s.mem := by rw [hs1.1]
  have hpc2 : (pc + 2).toNat = pc.toNat + 2 := by bv_omega
  have hf1 := s.fetchHalf_ownMemory core job (by omega) hpa hlo
  have hf2 := s1.fetchHalf_ownMemory core job (va := pc + 2) (by omega) (by omega) hhi
  have hw := decodeWord_of_memBytes hd
  by_cases hl : isLong (memRead s.mem pa 2) = true
  · refine ⟨_, 4, s2, ?_, by simpa [hl] using hw, hs1.trans hs2⟩
    simp only [State.fetchWord, hf1, hl, if_true, hf2, hmem]
  · refine ⟨_, 2, s1, ?_, by simpa [hl] using hw, hs1⟩
    simp [State.fetchWord, hf1, hl]

/-! ## The issue of an instruction -/

theorem State.runFetched_word (s : State) {w n : Nat} {t : State} {i : Instr} (h : decodeWord w n = .ok i) :
    s.runFetched (.word w n t) = exec i t := by
  simp [State.runFetched, h]

/-- With no cause due and no breakpoint, or in an instruction in flight, the strand runs what it fetches (06 R111). -/
theorem State.issue_fetches {s : State} (h : s.me.issuedAt.isSome = true ∨ s.causeDue = false ∧ s.atBreakpoint = false) :
    s.issue = s.runFetched (s.fetchWord s.coreId s.myGang.job s.me.pc) := by
  rcases h with h | ⟨hc, hb⟩
  · simp [State.issue, Option.isNone_iff_eq_none, Option.isSome_iff_ne_none.mp h]
  · simp [State.issue, hc, hb]

/-! ## What a step performs (06 R108; log 4) -/

theorem step_issues {s : State} {tick id : Nat} (hr : s.firstReady s.slots = some (tick, id))
    (ha : ∀ e, s.agenda.head? = some e → tick < e.1 ∨ tick = e.1 ∧ s.onlyProbes tick = true) : step s = (s.toIssue tick id).issue := by
  unfold step
  cases hs : s.agenda with
  | nil => simp [hr]
  | cons k rest =>
    have hk : s.goesFirst k.1 tick = false := by
      rcases ha k (by simp [hs]) with h | ⟨rfl, h⟩
      · have : ¬ k.1 < tick ∧ k.1 ≠ tick := by omega
        simp [State.goesFirst, this]
      · simp [State.goesFirst, h]
    simp [hr, hk]

theorem step_performs {s : State} {t : Nat} {e : Ev} {rest : List (Nat × Ev)} (hs : s.agenda = (t, e) :: rest)
    (hr : ∀ tick id, s.firstReady s.slots = some (tick, id) → t < tick ∨ t = tick ∧ s.onlyProbes t = false) : step s = s.perform t e rest := by
  unfold step
  cases h : s.firstReady s.slots with
  | none => simp [hs]
  | some k =>
    have hk : s.goesFirst t k.1 = true := by
      rcases hr k.1 k.2 h with h | ⟨rfl, h⟩
      · simp [State.goesFirst, h]
      · simp [State.goesFirst, h]
    simp [hs, hk]

end Sys2Proof.Machine

namespace Sys2Proof.Claims

open Sys2Proof.Machine

/-- A step of this module's own is no packet that a flow, a router or the timed channel could hold back. -/
theorem perform_ownStep (s : State) (t : Nat) {e : Ev} (rest : List (Nat × Ev)) (h : ownStep e = true) :
    s.perform t e rest = exec e.instr { s with agenda := rest, now := max s.now t, ev := some e } := by
  have hp : plainEv e = e := by
    unfold plainEv
    split
    · cases h
    · cases h
    · rfl
  have hh : ∀ u : State, u.heldBack e = none := fun u => by
    unfold State.heldBack State.heldPacket
    split
    · cases h
    · split
      · cases h
      · rfl
  have hf : ∀ u : State, u.inFlow e = u := fun u => by
    unfold State.inFlow
    split
    · cases h
    · rfl
  simp [State.perform, hp, hh, hf]

/-- Settles O56: which of the first pending step and the first ready strand a step takes, and for the strand the word that its fetch gives. -/
theorem stepRunsTheDecodedInstruction : Obligations.StepRunsTheDecodedInstruction := by
  intro s
  refine ⟨fun tick id i rest hr ha u hu hi => ?_, fun t e rest hs hr he => ?_, fun hs hr => ?_⟩
  · have hstep : step s = u.runFetched (u.fetchWord u.coreId u.myGang.job u.me.pc) := by
      rw [step_issues hr ha, ← hu, State.issue_fetches hi]
    refine ⟨fun w n v hw hd => ?_, fun pa hpc hpa hc hd => ?_⟩
    · rw [hstep, hw, State.runFetched_word _ ((State.fetchWord_length hw).decodeWord hd)]
    · obtain ⟨w, n, v, hw, hd, hv⟩ := State.fetchWord_ownMemory u.myGang.job hpc hpa hc hd
      exact ⟨v, by rw [hstep, hw, State.runFetched_word _ hd], hv⟩
  · rw [step_performs hs hr, perform_ownStep s t rest he]
  · simp [step, hs, hr]

end Sys2Proof.Claims
end

section
/-! The control and status registers: their numbers and values, the checks of a CSR instruction, and what its write leaves (01 R25, R26; 23 R363 to R368). -/

namespace Sys2Proof.Machine

/-! ## The registers and their numbers (01 R25) -/

/-- The 9-bit field that names a register. -/
def Csr.number : Csr → BitVec 9
  | .lr => 0
  | .fcsr => 1
  | .pc => 128
  | .vt => 129
  | .tid => 130
  | .lw => 131
  | .exts => 132
  | .slotmask => 133
  | .chk => 134
  | .ready => 135
  | .cause => 256
  | .epc => 257

/-- The registers in the order of R25's table. -/
def Csr.all : List Csr := [.lr, .fcsr, .pc, .vt, .tid, .lw, .exts, .slotmask, .chk, .ready, .cause, .epc]

theorem Csr.mem_all (r : Csr) : r ∈ Csr.all := by cases r <;> decide

@[simp] theorem csrOf_number (r : Csr) : csrOf r.number = some r := by cases r <;> rfl

theorem eq_number_of_csrOf {c : BitVec 9} {r : Csr} (h : csrOf c = some r) : c = r.number := by
  unfold csrOf at h
  split at h <;> cases h <;> (apply BitVec.eq_of_toNat_eq; simp only [Csr.number, BitVec.reduceToNat]; omega)

theorem csrOf_eq_none {c : BitVec 9} (h : c ∉ Csr.all.map Csr.number) : csrOf c = none := by
  cases hr : csrOf c with
  | none => rfl
  | some r => exact absurd (List.mem_map.mpr ⟨r, r.mem_all, (eq_number_of_csrOf hr).symm⟩) h

theorem Csr.exists_of_mem_numbers {p : Csr → Bool} {c : BitVec 9} (h : c ∈ (Csr.all.filter p).map Csr.number) :
    ∃ r : Csr, r.number = c ∧ p r = true := by
  obtain ⟨r, hr, rfl⟩ := List.mem_map.mp h
  exact ⟨r, rfl, (List.mem_filter.mp hr).2⟩

/-- The numbers of the registers that no privilege writes. -/
theorem Csr.numbers_readOnly : (Csr.all.filter Csr.readOnly).map Csr.number = [128, 131, 132, 135] := rfl

/-- The numbers of the registers that firmware privilege alone writes. -/
theorem Csr.numbers_firmware_writes : (Csr.all.filter fun r => !r.readOnly && r.bank != 0).map Csr.number = [129, 130, 133, 134, 256, 257] := rfl

/-- The numbers of the registers that firmware privilege alone reads. -/
theorem Csr.numbers_firmware_reads : (Csr.all.filter (·.bank == 2)).map Csr.number = [256, 257] := rfl

/-- The bank of a register is the F field of its number. -/
theorem Csr.bank_eq (r : Csr) : r.bank = r.number.toNat / 128 := by cases r <;> rfl

theorem Csr.bank_one_or_two (r : Csr) (h : r.bank ≠ 0) : r.bank = 1 ∨ r.bank = 2 := by
  cases r <;> simp_all [Csr.bank]

/-! ## The checks of a CSR instruction, in their order (25 R387) -/

section
variable {s : State} {d : BitVec 7} {c : BitVec 9} {writes : Bool} {k : Csr → State → State} {r : Csr}

theorem State.withCsr_of_no_register (hd : s.me.badReg [d] = none) (hc : csrOf c = none) :
    s.withCsr d c writes k = s.takeTrap s.cur { cause := .illegal } s.me.pc := by
  simp [State.withCsr, hd, hc, State.trapHere]

theorem State.withCsr_of_readOnly (hd : s.me.badReg [d] = none) (hc : csrOf c = some r) (hr : r.readOnly = true) :
    s.withCsr d c true k = s.takeTrap s.cur { cause := .illegal } s.me.pc := by
  simp [State.withCsr, hd, hc, hr, State.trapHere]

theorem State.withCsr_of_forbidden (hd : s.me.badReg [d] = none) (hc : csrOf c = some r) (hr : (writes && r.readOnly) = false)
    (hm : s.me.mode = false) (hb : r.bank = 2 ∨ writes = true ∧ r.bank = 1) :
    s.withCsr d c writes k = s.takeTrap s.cur { cause := .priv } s.me.pc := by
  have hb' : (r.bank == 2 || writes && r.bank == 1) = true := by simpa using hb
  simp [State.withCsr, hd, hc, hr, hm, hb', State.trapHere]

theorem State.withCsr_of_allowed (hd : s.me.badReg [d] = none) (hc : csrOf c = some r) (hr : (writes && r.readOnly) = false)
    (hm : r.bank = 2 ∨ writes = true ∧ r.bank = 1 → s.me.mode = true) : s.withCsr d c writes k = s.guarded [d] (k r) := by
  have hm' : (!s.me.mode && (r.bank == 2 || writes && r.bank == 1)) = false := by
    by_cases hb : r.bank = 2 ∨ writes = true ∧ r.bank = 1
    · simp [hm hb]
    · simpa using fun _ => hb
  simp only [State.withCsr, hd, hc, hr, hm', Bool.false_eq_true, if_false]

end

/-! ## What a write of a register leaves (23 R363, R364) -/

@[simp] theorem Slot.pc_csrWrite (v : Slot) (r : Csr) (w : Word) : (v.csrWrite r w).pc = v.pc := by cases r <;> rfl
@[simp] theorem Slot.issuedAt_csrWrite (v : Slot) (r : Csr) (w : Word) : (v.csrWrite r w).issuedAt = v.issuedAt := by cases r <;> rfl

/-- With no result pending, no flag is due before a write of fcsr. -/
theorem Slot.landFlags_of_no_writes {v : Slot} (t : Nat) (h : v.writes = []) : v.landFlags t = v := by
  unfold Slot.landFlags
  simp only [h, List.filter_nil, List.foldl_nil, Slot.orFlags_zero, List.map_nil]
  rw [← h]

/-! ## slotmask (23 R368, R375) -/

theorem State.mem_maskChanges {s : State} {w : Word} {i : Nat} :
    i ∈ s.maskChanges w ↔ i < 16 ∧ s.coreId * 16 + i ≠ s.cur ∧ w.getLsbD i ≠ (s.slotmask s.coreId).getLsbD i := by
  simp [State.maskChanges, bitAt, and_comm]

/-- Steps scheduled one after another change the agenda alone, keep what is due, and are all due. -/
theorem State.foldl_schedule (t : Nat) (e : Nat → Ev) (l : List Nat) : ∀ s : State,
    let u := l.foldl (fun (u : State) i => u.schedule t (e i)) s
    u = { s with agenda := u.agenda } ∧ (∀ x ∈ s.agenda, x ∈ u.agenda) ∧ ∀ i ∈ l, (t, e i) ∈ u.agenda := by
  induction l with
  | nil => intro s; simp
  | cons i l ih =>
    intro s
    obtain ⟨hu, hkeep, hdue⟩ := ih (s.schedule t (e i))
    refine ⟨hu, fun x hx => hkeep x (mem_agendaInsert_of_mem _ _ _ hx), fun j hj => ?_⟩
    rcases List.mem_cons.mp hj with rfl | hj
    · exact hkeep _ (State.due_schedule _ _ _)
    · exact hdue j hj

end Sys2Proof.Machine

namespace Sys2Proof.Claims

open Sys2Proof.Machine

/-! ## The tables of the statement, by the model's registers -/

theorem extsOf_eq (c : Nat) : extsOf c = if c % 16 < 4 ∨ 10 ≤ c % 16 then 3 else 1 := by
  have hx : coreX c % 16 = c % 16 := Nat.mod_mod_of_dvd c (by decide)
  by_cases h4 : c % 16 < 4
  · simp [extsOf, classOf, hx, h4]
  · by_cases h10 : c % 16 < 10
    · simp [extsOf, classOf, hx, h4, h10, Nat.not_le.mpr h10]
    · simp [extsOf, classOf, hx, h4, h10, Nat.not_lt.mp h10]

theorem csrTable_eq (s : State) : csrTable s = Csr.all.map fun r => (r.number, s.csrRead r) := by
  simp only [csrTable, ← extsOf_eq]
  rfl

theorem csrTable_numbers (s : State) : (csrTable s).map (·.1) = Csr.all.map Csr.number := by
  simp [csrTable_eq]

/-- The registers a slot holds itself that CSR instructions write. -/
def ownCsrs : List Csr := [.lr, .fcsr, .vt, .tid, .chk, .cause, .epc]

theorem csrTargets_eq (s : State) (f : Word → Word → Word) (x : Word) :
    csrTargets s f x = ownCsrs.map fun r => (r.number, s.me.csrWrite r (f (s.csrRead r) x)) := rfl

theorem readOnly_of_own {r : Csr} (hr : r ∈ ownCsrs) : r.readOnly = false := by
  revert r; decide

/-! ## The instructions -/

/-- CSRR with its checks passed (23 R363). -/
theorem exec_csrr_of_allowed {s : State} {d : BitVec 7} {r : Csr} (st : BitVec 2) (h : Settled s [d]) (hm : r.bank = 2 → s.me.mode = true) :
    exec (.csrr d r.number st) s = .next (s.alu 4 latInt [d] d st fun s => s.csrRead r) := by
  change Host.Outcome.next (s.withCsr d r.number false _) = _
  rw [State.withCsr_of_allowed h.1 (csrOf_number r) rfl fun hb => hm (hb.resolve_right (by simp))]
  rfl

/-- CSRW, CSRS and CSRC are one operation, with three ways to make the new value (23 R363). -/
theorem exec_csrWriter {d : BitVec 7} {c : BitVec 9} {st : BitVec 2} {w : Instr × (Word → Word → Word)} (hw : w ∈ csrWriters d c st)
    (s : State) : exec w.1 s = .next (s.csrUpdate d c st w.2) := by
  simp only [csrWriters, List.mem_cons, List.not_mem_nil, or_false] at hw
  rcases hw with rfl | rfl | rfl <;> rfl

/-- A write of a register that the slot holds itself, with its checks passed. -/
theorem csrUpdate_own {s : State} {d : BitVec 7} {r : Csr} {st : BitVec 2} (f : Word → Word → Word) (hr : r ∈ ownCsrs) (h : Settled s [d])
    (hm : r.bank ≠ 0 → s.me.mode = true) (hw : r = .fcsr → s.me.writes = []) :
    s.csrUpdate d r.number st f = (s.setMe (s.me.csrWrite r (f (s.csrRead r) (s.rx d)))).retire 4 st := by
  unfold State.csrUpdate
  rw [State.withCsr_of_allowed h.1 (csrOf_number r) (by simp [readOnly_of_own hr]) fun hb => hm (by omega), h.guarded]
  simp only [ownCsrs, List.mem_cons, List.not_mem_nil, or_false] at hr
  rcases hr with rfl | rfl | rfl | rfl | rfl | rfl | rfl
  case inr.inl =>
    simp only [Slot.landFlags_of_no_writes _ (hw rfl)]
    rfl
  all_goals rfl

/-- A write of slotmask, with its checks passed. -/
theorem csrUpdate_slotmask {s : State} {d : BitVec 7} {st : BitVec 2} (f : Word → Word → Word) (h : Settled s [d])
    (hm : s.me.mode = true) : s.csrUpdate d 133 st f = s.writeSlotmask (f (s.slotmask s.coreId) (s.rx d)) st := by
  unfold State.csrUpdate
  rw [State.withCsr_of_allowed (r := .slotmask) h.1 rfl rfl fun _ => hm, h.guarded]
  rfl

/-! ## The clauses of the statement -/

theorem csrr_completes {s : State} {d : BitVec 7} {c : BitVec 9} {st : BitVec 2} (h : Settled s [d]) {p : BitVec 9 × Word}
    (hp : p ∈ csrTable s) (hc : p.1 = c) (hm : 256 ≤ c.toNat → s.me.mode = true) :
    Form.Completes { instr := .csrr d c st, regs := [d], dest := d, value := p.2, st := st } s := by
  rw [csrTable_eq] at hp
  obtain ⟨r, -, rfl⟩ := List.mem_map.mp hp
  subst hc
  have hb : r.bank = 2 → s.me.mode = true := fun h2 => hm (by have := r.bank_eq; dsimp only; omega)
  exact Form.completes_alu (exec_csrr_of_allowed st h hb) (by unfold latInt; omega) (by simp) h

theorem csrWriter_writes {s : State} {d : BitVec 7} {c : BitVec 9} {st : BitVec 2} (h : Settled s [d]) {w : Instr × (Word → Word → Word)}
    (hw : w ∈ csrWriters d c st) {p : BitVec 9 × Slot} (hp : p ∈ csrTargets s w.2 (s.rx d)) (hc : p.1 = c)
    (hm : 128 ≤ c.toNat → s.me.mode = true) (hf : c = 1 → s.me.writes = []) :
    ∃ t, exec w.1 s = .next t ∧ GoesOn s t (s.me.pc + 4) st ∧ OnlyMe s t ∧
      t.me = { p.2 with pc := t.me.pc, wait := t.me.wait, lines := t.me.lines, nextTick := t.me.nextTick } := by
  rw [csrTargets_eq] at hp
  obtain ⟨r, hr, rfl⟩ := List.mem_map.mp hp
  subst hc
  have hb : r.bank ≠ 0 → s.me.mode = true := fun h0 => hm (by have := r.bank_eq; dsimp only; omega)
  refine ⟨_, by rw [exec_csrWriter hw, csrUpdate_own w.2 hr h hb fun e => hf (by subst e; rfl)], ?_,
    (OnlyMe.setMe _ _).trans (OnlyMe.retire _ _ _), ?_⟩
  · simp [GoesOn, State.base]
  · simp [Slot.advance]

/-- A slotmask write that changes no slot's bit only goes on. -/
theorem writeSlotmask_unchanged {s : State} {x : Word} (st : BitVec 2) (h : ∀ i, i ∉ s.maskChanges x) :
    s.writeSlotmask x st = s.retire 4 st := by
  simp [State.writeSlotmask, List.eq_nil_iff_forall_not_mem.mpr h]

/-- The step that a slotmask write of x asks for a slot of a core (23 R368). -/
def slotStep (s : State) (x : Word) (i : Nat) : Ev :=
  if x.getLsbD i then .slotRestore (s.coreId * 16 + i) else .slotRemoval (s.coreId * 16 + i)

theorem writeSlotmask_of_change {s : State} {x : Word} (st : BitVec 2) {i : Nat} (h : i ∈ s.maskChanges x) :
    s.writeSlotmask x st =
      ((s.maskChanges x).foldl (fun (u : State) i => u.schedule (s.rotationAfter s.coreId latInt) (slotStep s x i)) s).block
        (.slotmask x.toNat) := by
  unfold State.writeSlotmask
  split
  · next h0 => simp [h0] at h
  · rfl

/-- Where a write changes a slot's bit, the steps of all these slots are due and the strand waits for them (23 R368, R375). -/
theorem writeSlotmask_changed {s : State} {x : Word} (st : BitVec 2) {i : Nat} (h : i ∈ s.maskChanges x) :
    let t := s.writeSlotmask x st
    t.me.wait = .cond (.slotmask x.toNat) ∧ t.me.pc = s.me.pc ∧ KeepsRegs s t ∧ KeepsSlots s t ∧
      t = { s with slots := t.slots, agenda := t.agenda } ∧
      ∀ j ∈ s.maskChanges x, (s.rotationAfter s.coreId latInt, slotStep s x j) ∈ t.agenda := by
  rw [writeSlotmask_of_change st h]
  obtain ⟨hu, -, hdue⟩ := State.foldl_schedule (s.rotationAfter s.coreId latInt) (slotStep s x) (s.maskChanges x) s
  generalize (s.maskChanges x).foldl _ s = u at hu hdue ⊢
  have hme : u.me = s.me := by rw [hu]; rfl
  have hcur : u.cur = s.cur := by rw [hu]
  refine ⟨by simp [State.block], by simp [State.block, hme], by simp [KeepsRegs, State.block, hme], fun id hid => ?_, ?_, hdue⟩
  · exact (u.slot_setMe_other _ (hcur ▸ hid)).trans (by rw [hu]; rfl)
  · rw [hu]; rfl

/-- CSRW, CSRS and CSRC of slotmask. -/
theorem csrWriter_slotmask {s : State} {d : BitVec 7} {st : BitVec 2} (h : Settled s [d]) {w : Instr × (Word → Word → Word)}
    (hw : w ∈ csrWriters d 133 st) (hm : s.me.mode = true) :
    exec w.1 s = .next (s.writeSlotmask (w.2 (s.slotmask s.coreId) (s.rx d)) st) := by
  rw [exec_csrWriter hw, csrUpdate_slotmask w.2 h hm]

/-- A number of no register traps ILLEGAL whatever the CSR instruction. -/
theorem csr_no_register {s : State} {d : BitVec 7} {c : BitVec 9} {st : BitVec 2} (hd : s.me.badReg [d] = none)
    (hc : c ∉ (csrTable s).map (·.1)) {i : Instr} (hi : i ∈ Instr.csrr d c st :: (csrWriters d c st).map (·.1)) :
    exec i s = .next (s.takeTrap s.cur { cause := .illegal } s.me.pc) := by
  rw [csrTable_numbers] at hc
  rcases List.mem_cons.mp hi with rfl | hi
  · exact congrArg Host.Outcome.next (State.withCsr_of_no_register hd (csrOf_eq_none hc))
  · obtain ⟨w, hw, rfl⟩ := List.mem_map.mp hi
    rw [exec_csrWriter hw]
    exact congrArg Host.Outcome.next (State.withCsr_of_no_register hd (csrOf_eq_none hc))

theorem csrWriter_readOnly {s : State} {d : BitVec 7} {r : Csr} {st : BitVec 2} (hd : s.me.badReg [d] = none) (hr : r.readOnly = true)
    {w : Instr × (Word → Word → Word)} (hw : w ∈ csrWriters d r.number st) :
    exec w.1 s = .next (s.takeTrap s.cur { cause := .illegal } s.me.pc) := by
  rw [exec_csrWriter hw]
  exact congrArg Host.Outcome.next (State.withCsr_of_readOnly hd (csrOf_number r) hr)

theorem csrWriter_forbidden {s : State} {d : BitVec 7} {r : Csr} {st : BitVec 2} (hd : s.me.badReg [d] = none) (hm : s.me.mode = false)
    (hr : r.readOnly = false) (hb : r.bank = 1 ∨ r.bank = 2) {w : Instr × (Word → Word → Word)} (hw : w ∈ csrWriters d r.number st) :
    exec w.1 s = .next (s.takeTrap s.cur { cause := .priv } s.me.pc) := by
  rw [exec_csrWriter hw]
  exact congrArg Host.Outcome.next
    (State.withCsr_of_forbidden hd (csrOf_number r) (by simp [hr]) hm (hb.symm.imp_right fun h => ⟨rfl, h⟩))

theorem csrr_forbidden {s : State} {d : BitVec 7} {r : Csr} {st : BitVec 2} (hd : s.me.badReg [d] = none) (hm : s.me.mode = false)
    (hb : r.bank = 2) : exec (.csrr d r.number st) s = .next (s.takeTrap s.cur { cause := .priv } s.me.pc) :=
  congrArg Host.Outcome.next (State.withCsr_of_forbidden hd (csrOf_number r) rfl hm (.inl hb))

/-- Settles O33: each clause is one of the outcomes of the checks, or the one operation behind them. -/
theorem csrAccess : Obligations.CsrAccess := by
  intro s d c st
  refine ⟨fun h p hp hc hm => csrr_completes h hp hc hm, fun h w hw p hp hc hm hf => csrWriter_writes h hw hp hc hm hf,
    fun h w hw hm => ?_, fun hd => ⟨fun hc i hi => csr_no_register hd hc hi, fun hc w hw => ?_, fun hm hc w hw => ?_, fun hm hc => ?_⟩⟩
  · have hx := csrWriter_slotmask h hw hm
    simp only [← State.mem_maskChanges]
    refine ⟨fun hn => ⟨_, hx, ?_⟩, fun ⟨i, hi⟩ => ⟨_, hx, ?_⟩⟩
    · rw [writeSlotmask_unchanged st hn]
      exact ⟨by simp [GoesOn], OnlyMe.retire _ _ _⟩
    · exact writeSlotmask_changed st hi
  · obtain ⟨r, rfl, hr⟩ := Csr.exists_of_mem_numbers (Csr.numbers_readOnly ▸ hc)
    exact csrWriter_readOnly hd hr hw
  · obtain ⟨r, rfl, hr⟩ := Csr.exists_of_mem_numbers (Csr.numbers_firmware_writes ▸ hc)
    obtain ⟨hro, hb⟩ : r.readOnly = false ∧ r.bank ≠ 0 := by simpa using hr
    exact csrWriter_forbidden hd hm hro (r.bank_one_or_two hb) hw
  · obtain ⟨r, rfl, hr⟩ := Csr.exists_of_mem_numbers (Csr.numbers_firmware_reads ▸ hc)
    exact csrr_forbidden hd hm (by simpa using hr)

end Sys2Proof.Claims
end

section
/-! The decoder reads back the word that the encoder writes (01 R13 to R19; 02 R37 to R43): one lemma per shape of word says what each field of it
reads as, so that a row only has to name its arm of the decoder. -/

namespace Sys2Proof

open Machine

/-- Decoding the instruction's bytes gives it back and leaves what follows. -/
def Instr.RoundTrips (i : Instr) : Prop := ∀ rest, decode (encode i ++ rest) = .ok (i, rest)

/-! ## Bytes of a word -/

/-- Decoding a word's bytes is decoding the word, whatever follows them. -/
theorem decode_toBytes_append {w n : Nat} (hw : WordOfLength w n) {i : Instr} (h : decodeWord w n = .ok i) (rest : List Byte) :
    decode (toBytes w n ++ rest) = .ok (i, rest) := by
  have b0 : isLong (BitVec.ofNat 8 w).toNat = isLong w := by rw [BitVec.toNat_ofNat]; exact isLong_mod_256 w
  have hb : w < 256 ^ n → ofBytes (toBytes w n) = w := fun hlt => by rw [ofBytes_toBytes, Nat.mod_eq_of_lt hlt]
  rcases hw with ⟨hl, rfl, hlt⟩ | ⟨hl, rfl, hlt⟩
  · refine (decode_of_long (b0.trans hl)).trans ?_
    exact congrArg (Except.map (·, rest)) ((congrArg decodeLong (hb hlt)).trans h)
  · refine (decode_of_short (b0.trans hl)).trans ?_
    exact congrArg (Except.map (·, rest)) ((congrArg decodeShort (hb hlt)).trans h)

theorem roundTrips_of_word {i : Instr} {w n : Nat} (henc : encodeNat i = some w) (hw : WordOfLength w n) (h : decodeWord w n = .ok i) :
    i.RoundTrips := fun rest => by
  have hn : wordBytes w = n := by
    rcases hw with ⟨hl, rfl, -⟩ | ⟨hl, rfl, -⟩ <;> simp [wordBytes, hl]
  have hbytes : encode i = toBytes w n := by rw [encode, henc, ← hn]
  rw [hbytes, decode_toBytes_append hw h]

/-! ## Fields -/

/-- A field that holds an operand x, with y above it, reads as x. -/
theorem fld_eq {w lo n : Nat} (x : BitVec n) (k y : Nat) (hk : n ≤ k) (h : w / 2 ^ lo = x.toNat + 2 ^ k * y) : fld w lo n = x := by
  refine BitVec.eq_of_toNat_eq ?_
  rw [fld, BitVec.toNat_ofNat, h, ← Nat.sub_add_cancel hk, Nat.pow_add', Nat.mul_assoc, Nat.add_mul_mod_self_left, Nat.mod_eq_of_lt x.isLt]

theorem toNat_lt_of_width_le_seven {n : Nat} (hn : n ≤ 7) (x : BitVec n) : x.toNat < 128 :=
  x.isLt.trans_le (Nat.pow_le_pow_right (by decide) hn)

/-! ## Long words by their format (01 R15)

In the lemmas named after operand fields, mk is the instruction as a function of its operands, henc the word the encoder writes for it, and
hdec the decoder's arm: what a word with that major opcode, function and selector decodes to. -/

/-- Every long word: what the decoder reads of it is its major opcode, bits 31 to 9 as one number h, and .ST. -/
theorem roundTrips_LJ {i : Instr} {op h : Nat} {st : BitVec 2} (henc : encodeNat i = some (packLJ op h st.toNat)) (hop : op < 64)
    (hh : h < 2 ^ 23) (hdec : ∀ w, w / 2 ^ 3 % 2 ^ 6 = op → w / 2 ^ 9 = h → fld w 1 2 = st → decodeLong w = .ok i) : i.RoundTrips := by
  have hst := st.isLt
  have hodd : packLJ op h st.toNat % 2 = 1 := by simp only [packLJ]; omega
  have hlt : packLJ op h st.toNat < 2 ^ 32 := by simp only [packLJ]; omega
  refine roundTrips_of_word henc (.inl ⟨by rw [isLong, hodd]; rfl, rfl, hlt⟩) (hdec _ ?_ ?_ (fld_eq st 2 (op + 2 ^ 6 * h) le_rfl ?_))
  all_goals simp only [packLJ]; omega

/-- Format L3 with numbers for its fields b, a and d. -/
theorem roundTrips_L3 {i : Instr} {op f b a d : Nat} {st : BitVec 2} (henc : encodeNat i = some (packL3 op f b a d st.toNat))
    (hop : op < 64) (hf : f < 4) (hb : b < 128) (ha : a < 128) (hd : d < 128)
    (hdec : ∀ w, w / 2 ^ 3 % 2 ^ 6 = op → w / 2 ^ 9 = d + 2 ^ 7 * (a + 2 ^ 7 * (b + 2 ^ 7 * f)) → fld w 1 2 = st → decodeLong w = .ok i) :
    i.RoundTrips :=
  have hword : packL3 op f b a d st.toNat = packLJ op (d + 2 ^ 7 * (a + 2 ^ 7 * (b + 2 ^ 7 * f))) st.toNat := by
    simp only [packL3, packLJ]; omega
  roundTrips_LJ (henc.trans (congrArg some hword)) hop (by omega) hdec

section
variable {op f s n₁ n₂ n₃ : Nat} {d : BitVec n₁} {a : BitVec n₂} {st : BitVec 2}

/-- Format L3 with three operands. -/
theorem roundTrips_dab {b : BitVec n₃} {mk : BitVec n₁ → BitVec n₂ → BitVec n₃ → BitVec 2 → Instr}
    (henc : encodeNat (mk d a b st) = some (packL3 op f b.toNat a.toNat d.toNat st.toNat))
    (hdec : ∀ w, w / 2 ^ 3 % 2 ^ 6 = op → w / 2 ^ 30 % 4 = f → w / 2 ^ 23 % 2 ^ 7 = b.toNat →
      decodeLong w = .ok (mk (fld w 9 n₁) (fld w 16 n₂) (fld w 23 n₃) (fld w 1 2)))
    (hop : op < 64 := by decide) (hf : f < 4 := by decide)
    (h₁ : n₁ ≤ 7 := by decide) (h₂ : n₂ ≤ 7 := by decide) (h₃ : n₃ ≤ 7 := by decide) : (mk d a b st).RoundTrips := by
  have hd := toNat_lt_of_width_le_seven h₁ d
  have ha := toNat_lt_of_width_le_seven h₂ a
  have hb := toNat_lt_of_width_le_seven h₃ b
  refine roundTrips_L3 henc hop hf hb ha hd fun w hw hh hst => ?_
  rw [hdec w hw (by omega) (by omega), hst, fld_eq d 7 _ h₁ hh, fld_eq a 7 (b.toNat + 2 ^ 7 * f) h₂ (by omega), fld_eq b 7 f h₃ (by omega)]

/-- Format L3 with two operands, whose field b is a selector (02 R39) or 0. -/
theorem roundTrips_da {mk : BitVec n₁ → BitVec n₂ → BitVec 2 → Instr}
    (henc : encodeNat (mk d a st) = some (packL3 op f s a.toNat d.toNat st.toNat))
    (hdec : ∀ w, w / 2 ^ 3 % 2 ^ 6 = op → w / 2 ^ 30 % 4 = f → w / 2 ^ 23 % 2 ^ 7 = s →
      decodeLong w = .ok (mk (fld w 9 n₁) (fld w 16 n₂) (fld w 1 2)))
    (hop : op < 64 := by decide) (hf : f < 4 := by decide) (hs : s < 128 := by decide)
    (h₁ : n₁ ≤ 7 := by decide) (h₂ : n₂ ≤ 7 := by decide) : (mk d a st).RoundTrips := by
  have hb : (BitVec.ofNat 7 s).toNat = s := by rw [BitVec.toNat_ofNat, Nat.mod_eq_of_lt hs]
  exact roundTrips_dab (b := BitVec.ofNat 7 s) (mk := fun d a _ st => mk d a st) (hb.symm ▸ henc) (hb.symm ▸ hdec) hop hf h₁ h₂

theorem roundTrips_ab {b : BitVec n₃} {mk : BitVec n₂ → BitVec n₃ → BitVec 2 → Instr}
    (henc : encodeNat (mk a b st) = some (packL3 op f b.toNat a.toNat 0 st.toNat))
    (hdec : ∀ w, w / 2 ^ 3 % 2 ^ 6 = op → w / 2 ^ 30 % 4 = f → decodeLong w = .ok (mk (fld w 16 n₂) (fld w 23 n₃) (fld w 1 2)))
    (hop : op < 64 := by decide) (hf : f < 4 := by decide) (h₂ : n₂ ≤ 7 := by decide) (h₃ : n₃ ≤ 7 := by decide) :
    (mk a b st).RoundTrips :=
  roundTrips_dab (d := 0#0) (mk := fun _ a b st => mk a b st) henc (fun w hw hf _ => hdec w hw hf) hop hf (by decide) h₂ h₃

theorem roundTrips_a {mk : BitVec n₂ → BitVec 2 → Instr} (henc : encodeNat (mk a st) = some (packL3 op f s a.toNat 0 st.toNat))
    (hdec : ∀ w, w / 2 ^ 3 % 2 ^ 6 = op → w / 2 ^ 30 % 4 = f → w / 2 ^ 23 % 2 ^ 7 = s → decodeLong w = .ok (mk (fld w 16 n₂) (fld w 1 2)))
    (hop : op < 64 := by decide) (hf : f < 4 := by decide) (hs : s < 128 := by decide) (h₂ : n₂ ≤ 7 := by decide) : (mk a st).RoundTrips :=
  roundTrips_da (d := 0#0) (mk := fun _ a st => mk a st) henc hdec hop hf hs (by decide) h₂

theorem roundTrips_d {mk : BitVec n₁ → BitVec 2 → Instr} (henc : encodeNat (mk d st) = some (packL3 op f s 0 d.toNat st.toNat))
    (hdec : ∀ w, w / 2 ^ 3 % 2 ^ 6 = op → w / 2 ^ 30 % 4 = f → w / 2 ^ 23 % 2 ^ 7 = s → decodeLong w = .ok (mk (fld w 9 n₁) (fld w 1 2)))
    (hop : op < 64 := by decide) (hf : f < 4 := by decide) (hs : s < 128 := by decide) (h₁ : n₁ ≤ 7 := by decide) : (mk d st).RoundTrips :=
  roundTrips_da (a := 0#0) (mk := fun d _ st => mk d st) henc hdec hop hf hs h₁

theorem roundTrips_st {mk : BitVec 2 → Instr} (henc : encodeNat (mk st) = some (packL3 op f s 0 0 st.toNat))
    (hdec : ∀ w, w / 2 ^ 3 % 2 ^ 6 = op → w / 2 ^ 30 % 4 = f → w / 2 ^ 23 % 2 ^ 7 = s → decodeLong w = .ok (mk (fld w 1 2)))
    (hop : op < 64 := by decide) (hf : f < 4 := by decide) (hs : s < 128 := by decide) : (mk st).RoundTrips :=
  roundTrips_d (d := 0#0) (mk := fun _ st => mk st) henc hdec hop hf hs

/-- An unsigned load: its word differs from the signed one's in bit 29 (02 R37). -/
theorem roundTrips_unsigned_load {o : BitVec 6} {mk : BitVec n₁ → BitVec n₂ → BitVec 6 → BitVec 2 → Instr}
    (henc : encodeNat (mk d a o st) = some (packL3 op f (64 + o.toNat) a.toNat d.toNat st.toNat))
    (hdec : ∀ w, w / 2 ^ 3 % 2 ^ 6 = op → w / 2 ^ 30 % 4 = f → w / 2 ^ 29 % 2 = 1 →
      decodeLong w = .ok (mk (fld w 9 n₁) (fld w 16 n₂) (fld w 23 6) (fld w 1 2)))
    (hop : op < 64 := by decide) (hf : f < 4 := by decide) (h₁ : n₁ ≤ 7 := by decide) (h₂ : n₂ ≤ 7 := by decide) :
    (mk d a o st).RoundTrips := by
  refine roundTrips_da (mk := fun d a st => mk d a o st) henc (fun w hw hf hs => ?_) hop hf (by omega) h₁ h₂
  rw [hdec w hw hf (by omega), fld_eq o 6 (w / 2 ^ 29) le_rfl (by omega)]

/-- Formats LIA and LBB with three operands, the last of 9 bits. -/
theorem roundTrips_LIA {i : BitVec 9} {mk : BitVec n₁ → BitVec n₂ → BitVec 9 → BitVec 2 → Instr}
    (henc : encodeNat (mk d a i st) = some (packLIA op i.toNat a.toNat d.toNat st.toNat))
    (hdec : ∀ w, w / 2 ^ 3 % 2 ^ 6 = op → w / 2 ^ 16 % 2 ^ 7 = a.toNat →
      decodeLong w = .ok (mk (fld w 9 n₁) (fld w 16 n₂) (fld w 23 9) (fld w 1 2)))
    (hop : op < 64 := by decide) (h₁ : n₁ ≤ 7 := by decide) (h₂ : n₂ ≤ 7 := by decide) : (mk d a i st).RoundTrips := by
  have hd := toNat_lt_of_width_le_seven h₁ d
  have ha := toNat_lt_of_width_le_seven h₂ a
  refine roundTrips_LJ (st := st) (h := d.toNat + 2 ^ 7 * (a.toNat + 2 ^ 7 * i.toNat))
    (henc.trans (congrArg some (by simp only [packLIA, packLJ]; omega))) hop (by omega) fun w hw hh hst => ?_
  rw [hdec w hw (by omega), hst, fld_eq d 7 _ h₁ hh, fld_eq a 7 i.toNat h₂ (by omega), fld_eq i 9 0 le_rfl (by omega)]

/-- Format LBB, and the CSR rows, whose field b is a selector (02 R39, R40). -/
theorem roundTrips_LBB {o : BitVec 9} {mk : BitVec n₁ → BitVec 9 → BitVec 2 → Instr}
    (henc : encodeNat (mk d o st) = some (packLBB op o.toNat s d.toNat st.toNat))
    (hdec : ∀ w, w / 2 ^ 3 % 2 ^ 6 = op → w / 2 ^ 16 % 2 ^ 7 = s → decodeLong w = .ok (mk (fld w 9 n₁) (fld w 23 9) (fld w 1 2)))
    (hop : op < 64 := by decide) (hs : s < 128 := by decide) (h₁ : n₁ ≤ 7 := by decide) : (mk d o st).RoundTrips := by
  have hb : (BitVec.ofNat 7 s).toNat = s := by rw [BitVec.toNat_ofNat, Nat.mod_eq_of_lt hs]
  exact roundTrips_LIA (a := BitVec.ofNat 7 s) (mk := fun d _ o st => mk d o st) (hb.symm ▸ henc) (hb.symm ▸ hdec) hop h₁

theorem roundTrips_LIW {i : BitVec 16} {mk : BitVec n₁ → BitVec 16 → BitVec 2 → Instr}
    (henc : encodeNat (mk d i st) = some (packLIW op i.toNat d.toNat st.toNat))
    (hdec : ∀ w, w / 2 ^ 3 % 2 ^ 6 = op → decodeLong w = .ok (mk (fld w 9 n₁) (fld w 16 16) (fld w 1 2)))
    (hop : op < 64 := by decide) (h₁ : n₁ ≤ 7 := by decide) : (mk d i st).RoundTrips := by
  have hd := toNat_lt_of_width_le_seven h₁ d
  refine roundTrips_LJ (st := st) (h := d.toNat + 2 ^ 7 * i.toNat)
    (henc.trans (congrArg some (by simp only [packLIW, packLJ]; omega))) hop (by omega) fun w hw hh hst => ?_
  rw [hdec w hw, hst, fld_eq d 7 _ h₁ hh, fld_eq i 16 0 le_rfl (by omega)]

theorem roundTrips_jump {o : BitVec 23} {mk : BitVec 23 → BitVec 2 → Instr}
    (henc : encodeNat (mk o st) = some (packLJ op o.toNat st.toNat))
    (hdec : ∀ w, w / 2 ^ 3 % 2 ^ 6 = op → decodeLong w = .ok (mk (fld w 9 23) (fld w 1 2)))
    (hop : op < 64 := by decide) : (mk o st).RoundTrips :=
  roundTrips_LJ henc hop o.isLt fun w hw hh hst => by rw [hdec w hw, hst, fld_eq o 23 0 le_rfl (by omega)]

end

/-! ## Short words (01 R16) -/

section
variable {op4 : Nat} {d a : BitVec 4}

/-- Every short word: what the decoder reads of it is its opcode and bits 15 to 5 as one number h. -/
theorem roundTrips_short {i : Instr} {h : Nat} (henc : encodeNat i = some (2 * op4 + 2 ^ 5 * h)) (hop : op4 < 16) (hh : h < 2 ^ 11)
    (hdec : ∀ w, w / 2 % 2 ^ 4 = op4 → w / 2 ^ 5 = h → decodeShort w = .ok i) : i.RoundTrips := by
  have heven : (2 * op4 + 2 ^ 5 * h) % 2 = 0 := by omega
  exact roundTrips_of_word henc (.inr ⟨by rw [isLong, heven]; rfl, rfl, by omega⟩) (hdec _ (by omega) (by omega))

theorem roundTrips_short_daf {f : BitVec 3} {mk : BitVec 4 → BitVec 4 → BitVec 3 → Instr}
    (henc : encodeNat (mk d a f) = some (packShort op4 d.toNat a.toNat f.toNat))
    (hdec : ∀ w, w / 2 % 2 ^ 4 = op4 → w / 2 ^ 13 % 2 ^ 3 = f.toNat → decodeShort w = .ok (mk (fld w 5 4) (fld w 9 4) (fld w 13 3)))
    (hop : op4 < 16 := by decide) : (mk d a f).RoundTrips := by
  refine roundTrips_short (h := d.toNat + 2 ^ 4 * (a.toNat + 2 ^ 4 * f.toNat))
    (henc.trans (congrArg some (by simp only [packShort]; omega))) hop (by omega) fun w hw hh => ?_
  rw [hdec w hw (by omega), fld_eq d 4 _ le_rfl hh, fld_eq a 4 f.toNat le_rfl (by omega), fld_eq f 3 0 le_rfl (by omega)]

theorem roundTrips_short_da {mk : BitVec 4 → BitVec 4 → Instr} (henc : encodeNat (mk d a) = some (packShort op4 d.toNat a.toNat 0))
    (hdec : ∀ w, w / 2 % 2 ^ 4 = op4 → decodeShort w = .ok (mk (fld w 5 4) (fld w 9 4)))
    (hop : op4 < 16 := by decide) : (mk d a).RoundTrips :=
  roundTrips_short_daf (f := 0) (mk := fun d a _ => mk d a) henc (fun w hw _ => hdec w hw) hop

/-- The control rows of opcode 12, chosen by f3 (02 R43). -/
theorem roundTrips_short_a {f : Nat} {mk : BitVec 4 → Instr} (henc : encodeNat (mk a) = some (packShort op4 0 a.toNat f))
    (hdec : ∀ w, w / 2 % 2 ^ 4 = op4 → w / 2 ^ 13 % 2 ^ 3 = f → decodeShort w = .ok (mk (fld w 9 4)))
    (hop : op4 < 16 := by decide) (hf : f < 8 := by decide) : (mk a).RoundTrips := by
  have hb : (BitVec.ofNat 3 f).toNat = f := by rw [BitVec.toNat_ofNat, Nat.mod_eq_of_lt hf]
  exact roundTrips_short_daf (d := 0) (f := BitVec.ofNat 3 f) (mk := fun _ a _ => mk a) (hb.symm ▸ henc) (hb.symm ▸ hdec) hop

theorem roundTrips_short_none {i : Instr} {f : Nat} (henc : encodeNat i = some (packShort op4 0 0 f))
    (hdec : ∀ w, w / 2 % 2 ^ 4 = op4 → w / 2 ^ 13 % 2 ^ 3 = f → decodeShort w = .ok i)
    (hop : op4 < 16 := by decide) (hf : f < 8 := by decide) : i.RoundTrips :=
  roundTrips_short_a (a := 0) (mk := fun _ => i) henc hdec hop hf

theorem roundTrips_liShort {i : BitVec 7} : (Instr.liShort d i).RoundTrips := by
  refine roundTrips_short (op4 := 11) (h := d.toNat + 2 ^ 4 * i.toNat) (congrArg some (by omega)) (by decide) (by omega) fun w hw hh => ?_
  have hd : fld w 5 4 = d := fld_eq d 4 _ le_rfl hh
  have hi : fld w 9 7 = i := fld_eq i 7 0 le_rfl (by omega)
  rw [decodeShort, hw, ← hd, ← hi]
  rfl

end

/-! ## The groups of the decoder (02 R39, R40) -/

section
variable {w : Nat}

theorem decodeLong_int (hop : w / 2 ^ 3 % 2 ^ 6 = 0x09) (hf : w / 2 ^ 30 % 4 = 3) : decodeLong w = decodeInt w := by
  unfold decodeLong; rw [hf, hop]; rfl
theorem decodeLong_br (hop : w / 2 ^ 3 % 2 ^ 6 = 0x10) : decodeLong w = decodeBr w := by
  unfold decodeLong; rw [hop]; rfl
theorem decodeLong_ctl (hop : w / 2 ^ 3 % 2 ^ 6 = 0x17) (hf : w / 2 ^ 30 % 4 = 3) : decodeLong w = decodeCtl w := by
  unfold decodeLong; rw [hf, hop]; rfl
theorem decodeLong_mem (hop : w / 2 ^ 3 % 2 ^ 6 = 0x1A) (hf : w / 2 ^ 30 % 4 = 2) : decodeLong w = decodeMem w := by
  unfold decodeLong; rw [hf, hop]; rfl
theorem decodeLong_f32 (hop : w / 2 ^ 3 % 2 ^ 6 = 0x22) (hf : w / 2 ^ 30 % 4 = 3) : decodeLong w = decodeF32 w := by
  unfold decodeLong; rw [hf, hop]; rfl
theorem decodeLong_f64 (hop : w / 2 ^ 3 % 2 ^ 6 = 0x23) (hf : w / 2 ^ 30 % 4 = 3) : decodeLong w = decodeF64 w := by
  unfold decodeLong; rw [hf, hop]; rfl
theorem decodeLong_csr (hop : w / 2 ^ 3 % 2 ^ 6 = 0x3C) : decodeLong w = decodeCsr w := by
  unfold decodeLong; rw [hop]; rfl
theorem decodeLong_sys (hop : w / 2 ^ 3 % 2 ^ 6 = 0x3D) (hf : w / 2 ^ 30 % 4 = 0) : decodeLong w = decodeSys w := by
  unfold decodeLong; rw [hf, hop]; rfl

end

/-! ## Rows whose word's fields are not its operands alone -/

theorem roundTrips_addsh {d a b : BitVec 7} {k st : BitVec 2} (hk : k ≠ 3) : (Instr.addsh d a b k st).RoundTrips := by
  refine roundTrips_dab (mk := fun d a b st => .addsh d a b k st) rfl (fun w hop hf _ => ?_) (hf := k.isLt)
  have hfld : fld w 30 2 = k := fld_eq k 2 (w / 2 ^ 32) le_rfl (by omega)
  have hne : k.toNat ≠ 3 := fun h => hk (BitVec.eq_of_toNat_eq h)
  have hlt : k.toNat < 3 := by omega
  rw [← hfld]
  unfold decodeLong
  rw [hf, hop]
  generalize k.toNat = n at hlt
  match n, hlt with
  | 0, _ | 1, _ | 2, _ => rfl

theorem roundTrips_fcvt {d a : BitVec 7} {q : BitVec 1} {t v : BitVec 3} {st : BitVec 2} : (Instr.fcvt d a q t v st).RoundTrips := by
  refine roundTrips_da (mk := fun d a st => .fcvt d a q t v st) rfl (fun w hop hf hs => ?_) (hs := by omega)
  have hq : fld w 29 1 = q := fld_eq q 1 (w / 2 ^ 30) le_rfl (by omega)
  have ht : fld w 26 3 = t := fld_eq t 3 (w / 2 ^ 29) le_rfl (by omega)
  have hv : fld w 23 3 = v := fld_eq v 3 (w / 2 ^ 26) le_rfl (by omega)
  rw [← hq, ← ht, ← hv]
  unfold decodeLong
  rw [hf, hop]
  rfl

theorem roundTrips_icvt {d a : BitVec 7} {g h v : BitVec 1} {c : BitVec 3} {st : BitVec 2} : (Instr.icvt d a g h v c st).RoundTrips := by
  refine roundTrips_da (mk := fun d a st => .icvt d a g h v c st) rfl (fun w hop hf hs => ?_) (hs := by omega)
  have hg : fld w 29 1 = g := fld_eq g 1 (w / 2 ^ 30) le_rfl (by omega)
  have hh : fld w 28 1 = h := fld_eq h 1 (w / 2 ^ 29) le_rfl (by omega)
  have hv : fld w 27 1 = v := fld_eq v 1 (w / 2 ^ 28) le_rfl (by omega)
  have hc : fld w 23 3 = c := fld_eq c 3 (w / 2 ^ 26) le_rfl (by omega)
  rw [← hg, ← hh, ← hv, ← hc]
  unfold decodeLong
  rw [hf, hop]
  rfl

/-- An unallocated hint: major opcode 0x3F, or 0x3E with F other than 0 (02 R41). -/
theorem roundTrips_hint {f st : BitVec 2} {r : BitVec 21} {maj : BitVec 1} (h : maj = 1 ∨ f ≠ 0) : (Instr.hint f r maj st).RoundTrips := by
  refine roundTrips_LJ (op := 0x3E + maj.toNat) (h := r.toNat + 2 ^ 21 * f.toNat) (st := st) (congrArg some ?_) (by omega) (by omega)
    fun w hw hh hst => ?_
  · simp only [packLJ]; omega
  have hf : fld w 30 2 = f := fld_eq f 2 0 le_rfl (by omega)
  have hr : fld w 9 21 = r := fld_eq r 21 _ le_rfl hh
  have hm : fld w 3 1 = maj := fld_eq maj 1 (w / 2 ^ 4) le_rfl (by omega)
  rw [← hst, ← hf, ← hr, ← hm]
  rcases BitVec.eq_zero_or_eq_one maj with rfl | rfl
  · have hf4 : w / 2 ^ 30 % 4 = f.toNat := by omega
    have hf0 : f ≠ 0 := h.resolve_left (by decide)
    have hne : ¬ w / 2 ^ 30 % 4 = 0 := fun h0 => hf0 (BitVec.eq_of_toNat_eq (hf4.symm.trans h0))
    unfold decodeLong
    rw [hw]
    exact if_neg hne
  · unfold decodeLong
    rw [hw]
    rfl

/-! ## Every row -/

/-- Row by row, grouped by format and by group of the decoder; only ADDSH and the hints need their fields to be well-formed. -/
theorem roundTrips_of_wf {i : Instr} (hwf : i.wf = true) : i.RoundTrips := by
  obtain ⟨⟨hword, hfields⟩, -⟩ : (i.isWord = true ∧ i.fieldsOk = true) ∧ i.codesOk = true := by simpa [Instr.wf] using hwf
  cases i with
  | add d a b st | sub d a b st | mul d a b st | mulh d a b st | mulhu d a b st | div d a b st | divu d a b st | rem d a b st | remu d a b st
  | min d a b st | max d a b st | minu d a b st | maxu d a b st | and d a b st | or d a b st | xor d a b st | andn d a b st | shl d a b st
  | shr d a b st | sar d a b st | rol d a b st | seq d a b st | sne d a b st | slt d a b st | sltu d a b st | sel d a b st | bfx d a b st
  | bfi d a b st | sadd d a b st | shli d a n st | shri d a n st | sari d a n st | stB d a o st | stH d a o st | stW d a o st | stD d a o st
  | ldx d a b st | stx d a b st | bmov d a b st | atomAdd d a b st | atomAnd d a b st | atomOr d a b st | atomXor d a b st | atomMin d a b st
  | atomMax d a b st | atomMinu d a b st | atomMaxu d a b st | atomSwap d a b st | cas d a b st | fatomAddF32 d a b st | fatomAddF64 d a b st
  | faddF32 d a b st | fsubF32 d a b st | fmulF32 d a b st | fdivF32 d a b st | faddF64 d a b st | fsubF64 d a b st | fmulF64 d a b st
  | fdivF64 d a b st | fminF32 d a b st | fmaxF32 d a b st | ffmaF32 d a b st | fminF64 d a b st | fmaxF64 d a b st | ffmaF64 d a b st
  | fcmpEqF32 d a b st | fcmpLtF32 d a b st | fcmpLeF32 d a b st | fcmpUnF32 d a b st | fcmpEqF64 d a b st | fcmpLtF64 d a b st
  | fcmpLeF64 d a b st | fcmpUnF64 d a b st | vadd d a b st | vsub d a b st | vmul d a b st | vfma d a b st | vmax d a b st | vmin d a b st
  | vcmp d a b st | vqnt d a b st | vdeq d a b st | cpy d a b st | cpyV d a b st | cpyW d a b st | cpym d a b st | mxop d a b st | rsend d a b st
  | rwait d a b st | attnStep d a b st =>
    exact roundTrips_dab rfl fun w hop hf _ => by unfold decodeLong; rw [hf, hop]; rfl
  | mov d a st | clz d a st | ctz d a st | popc d a st | sextB d a st | sextH d a st | sextW d a st | zextB d a st | zextH d a st | zextW d a st
  | srd d a st | swr d a st =>
    exact roundTrips_da rfl fun w hop hf hs => by rw [decodeLong_int hop hf, decodeInt, hs]; rfl
  | rdcyc d st | rdid d st =>
    exact roundTrips_d rfl fun w hop hf hs => by rw [decodeLong_int hop hf, decodeInt, hs]; rfl
  | addi d a i st | andi d a i st | ori d a i st | xori d a i st | beq a b o st | bne a b o st | blt a b o st | bltu a b o st =>
    exact roundTrips_LIA rfl fun w hop _ => by unfold decodeLong; rw [hop]; rfl
  | li d i st | lih d i st | oxli d i st =>
    exact roundTrips_LIW rfl fun w hop => by unfold decodeLong; rw [hop]; rfl
  | bz a o st | bnz a o st | bltz a o st | bgez a o st | dbnz a o st =>
    exact roundTrips_LBB rfl fun w hop hs => by rw [decodeLong_br hop, decodeBr, hs]; rfl
  | j o st | call o st =>
    exact roundTrips_jump rfl fun w hop => by unfold decodeLong; rw [hop]; rfl
  | ret st | licr st | wake st =>
    exact roundTrips_st rfl fun w hop hf _ => by unfold decodeLong; rw [hf, hop]; rfl
  | jr a st | mxuc a st | commit a st | work a st | rleave a st =>
    exact roundTrips_a rfl fun w hop hf _ => by unfold decodeLong; rw [hf, hop]; rfl
  | jalr d a st | ldfeFf d a st | ldfeFe d a st | ldfeEf d a st | stfeFf d a st | stfeFe d a st | stfeEf d a st | stfeXf d a st | vscale d a st
  | vexp2 d a st | vrcp d a st | vred d a st | vcvt d a st | oxl d a st | oxr d a st | tlr d a st | mxld d a st | mxst d a st | mxmode d a st
  | twx d a st | twr d a st | tww d a st | licq d a st | spawn d a st | spawnInl d a st | send d a st | irrev d a st | lwait d a st | barc d a st
  | rjoin d a st | attnInit d a st | attnFin d a st =>
    exact roundTrips_da rfl fun w hop hf _ => by unfold decodeLong; rw [hf, hop]; rfl
  | rep a st | susp a st =>
    exact roundTrips_a rfl fun w hop hf hs => by rw [decodeLong_ctl hop hf, decodeCtl, hs]; rfl
  | halt st | yield st | nop st =>
    exact roundTrips_st rfl fun w hop hf hs => by rw [decodeLong_ctl hop hf, decodeCtl, hs]; rfl
  | ldB d a o st | ldH d a o st | ldW d a o st | ldD d a o st =>
    refine roundTrips_dab rfl fun w hop hf hs => ?_
    have hsigned : w / 2 ^ 29 % 2 = 0 := by omega
    unfold decodeLong
    rw [hf, hop, hsigned]
    rfl
  | ldBU d a o st | ldHU d a o st | ldWU d a o st =>
    exact roundTrips_unsigned_load rfl fun w hop hf hu => by unfold decodeLong; rw [hf, hop, hu]; rfl
  | ldAcq d a st | stRel d a st | feq d a st | dredF32 d a st | dredBf16 d a st | dredF64 d a st | dredAcc d a st | dreadF32 d a st
  | dreadBf16 d a st | dreadF64 d a st | dreadAcc d a st =>
    exact roundTrips_da rfl fun w hop hf hs => by rw [decodeLong_mem hop hf, decodeMem, hs]; rfl
  | fenceAcq st | fenceRel st | fenceFull st | lbsync st =>
    exact roundTrips_st rfl fun w hop hf hs => by rw [decodeLong_mem hop hf, decodeMem, hs]; rfl
  | fesetE a st | fesetF a st | pref a st | drinitF32 a st | drinitF64 a st =>
    exact roundTrips_a rfl fun w hop hf hs => by rw [decodeLong_mem hop hf, decodeMem, hs]; rfl
  | fsqrtF32 d a st | fabsF32 d a st | fnegF32 d a st | fclassF32 d a st =>
    exact roundTrips_da rfl fun w hop hf hs => by rw [decodeLong_f32 hop hf, decodeF32, hs]; rfl
  | fsqrtF64 d a st | fabsF64 d a st | fnegF64 d a st | fclassF64 d a st =>
    exact roundTrips_da rfl fun w hop hf hs => by rw [decodeLong_f64 hop hf, decodeF64, hs]; rfl
  | vset d st | mxz d st | tvt d st | bar d st | barw d st =>
    exact roundTrips_d rfl fun w hop hf _ => by unfold decodeLong; rw [hf, hop]; rfl
  | tlw a b st | rrel a b st =>
    exact roundTrips_ab rfl fun w hop hf => by unfold decodeLong; rw [hf, hop]; rfl
  | csrr d c st | csrw d c st | csrs d c st | csrc d c st =>
    exact roundTrips_LBB rfl fun w hop hs => by rw [decodeLong_csr hop, decodeCsr, hs]; rfl
  | trap a st | xinv a st | abort a st =>
    exact roundTrips_a rfl fun w hop hf hs => by rw [decodeLong_sys hop hf, decodeSys, hs]; rfl
  | eret st =>
    exact roundTrips_st rfl fun w hop hf hs => by rw [decodeLong_sys hop hf, decodeSys, hs]; rfl
  | migr d a st | slot d a st | xprobe d a st | fwd d a st | haltc d a st =>
    exact roundTrips_da rfl fun w hop hf hs => by rw [decodeLong_sys hop hf, decodeSys, hs]; rfl
  | movShort d a | addShort d a | subShort d a | andShort d a | orShort d a | xorShort d a =>
    exact roundTrips_short_da rfl fun w hop => by rw [decodeShort, hop]; rfl
  | addiShort d a i | shliShort d a n | shriShort d a n | ldDShort d a o | stDShort d a o =>
    exact roundTrips_short_daf rfl fun w hop _ => by rw [decodeShort, hop]; rfl
  | liShort d i =>
    exact roundTrips_liShort
  | nopShort | yieldShort | retShort | haltShort =>
    exact roundTrips_short_none rfl fun w hop hf => by rw [decodeShort, hop, hf]; rfl
  | jrShort a =>
    exact roundTrips_short_a rfl fun w hop hf => by rw [decodeShort, hop, hf]; rfl
  | addsh d a b k st => exact roundTrips_addsh (by simpa [Instr.fieldsOk] using hfields)
  | fcvt d a q t v st => exact roundTrips_fcvt
  | icvt d a g h w v st => exact roundTrips_icvt
  | hint f r maj st => exact roundTrips_hint (by simpa [Instr.fieldsOk] using hfields)
  | _ => cases hword

end Sys2Proof

namespace Sys2Proof.Claims

/-- Settles O54: every row that is a word round-trips through its format. -/
theorem decodeEncodeAgree : Obligations.DecodeEncodeAgree :=
  fun _ rest hwf => roundTrips_of_wf hwf rest

/-- Settles O55: the eight words are decoded one by one. -/
theorem knownWordsDecode : Obligations.KnownWordsDecode := by
  unfold Obligations.KnownWordsDecode
  decide

end Sys2Proof.Claims
end

section
/-! Integer instructions (03 R50 to R57, R60, R61; 02 R43): the model's functions on words are those the spec writes, and each instruction is one
fixed-latency result. -/

namespace Sys2Proof.Machine

/-! ## Words as numbers -/

theorem mul_eq_ofNat (x y : Word) : x * y = BitVec.ofNat 64 (x.toNat * y.toNat) := by
  apply BitVec.eq_of_toNat_eq
  simp

theorem shiftLeft_eq_ofNat (x : Word) (n : Nat) : x <<< n = BitVec.ofNat 64 (x.toNat * 2 ^ n) := by
  apply BitVec.eq_of_toNat_eq
  simp [Nat.shiftLeft_eq]

theorem shiftRight_eq_ofNat (x : Word) (n : Nat) : x >>> n = BitVec.ofNat 64 (x.toNat / 2 ^ n) := by
  have hlt : x.toNat / 2 ^ n < 2 ^ 64 := Nat.lt_of_le_of_lt (Nat.div_le_self _ _) x.isLt
  apply BitVec.eq_of_toNat_eq
  rw [BitVec.toNat_ushiftRight, Nat.shiftRight_eq_div_pow, BitVec.toNat_ofNat, Nat.mod_eq_of_lt hlt]

theorem sshiftRight_eq_ofInt (x : Word) (n : Nat) : x.sshiftRight n = BitVec.ofInt 64 (x.toInt / 2 ^ n) := by
  rw [← BitVec.ofInt_toInt (x := x.sshiftRight n), BitVec.toInt_sshiftRight, Int.shiftRight_eq_div_pow, Nat.cast_pow, Nat.cast_ofNat]

/-- A shift amount is the low six bits of its register (03 R52). -/
theorem shamt_eq_bits (y : Word) : shamt y = bits y 0 6 := by
  simp [shamt, bits]

theorem bits_lt (v : Word) (lo n : Nat) : bits v lo n < 2 ^ n := Nat.mod_lt _ (Nat.two_pow_pos n)

theorem rotateLeft_eq_or (x : Word) {n : Nat} (h : n < 64) : x.rotateLeft n = (x <<< n) ||| (x >>> (64 - n)) := by
  rw [BitVec.rotateLeft_def, Nat.mod_eq_of_lt h]

theorem fieldWidth_eq (y : Word) : fieldWidth y = min (bits y 8 7) (64 - bits y 0 6) := by
  simp only [fieldWidth, fieldPos]
  omega

/-! ## Conditions, extension, and counts of bits -/

/-- Where two words that compare equal give the same, a strict comparison may be read as the other. -/
theorem ite_slt_eq_ite_le {x y v w : Word} (h : x = y → v = w) : (if x.slt y then v else w) = if x.toInt ≤ y.toInt then v else w := by
  simp only [BitVec.slt, decide_eq_true_eq]
  rcases lt_trichotomy x.toInt y.toInt with hlt | heq | hgt
  · rw [if_pos hlt, if_pos (Int.le_of_lt hlt)]
  · rw [if_neg (by omega), if_pos (by omega), h (BitVec.eq_of_toInt_eq heq)]
  · rw [if_neg (by omega), if_neg (by omega)]

theorem ite_ult_eq_ite_le {x y v w : Word} (h : x = y → v = w) : (if x.ult y then v else w) = if x.toNat ≤ y.toNat then v else w := by
  simp only [BitVec.ult, decide_eq_true_eq]
  rcases lt_trichotomy x.toNat y.toNat with hlt | heq | hgt
  · rw [if_pos hlt, if_pos (Nat.le_of_lt hlt)]
  · rw [if_neg (by omega), if_pos (by omega), h (BitVec.eq_of_toNat_eq heq)]
  · rw [if_neg (by omega), if_neg (by omega)]

theorem sextN_eq (x : Word) (n : Nat) : sextN x n = (x.setWidth n).signExtend 64 := by
  rw [sextN, BitVec.ofNat_toNat]

theorem zextN_eq (x : Word) (n : Nat) : zextN x n = (x.setWidth n).setWidth 64 := by
  apply BitVec.eq_of_toNat_eq
  simp [zextN]

/-- A count that starts over at each bit `stop` names is the length of the run up to the first such bit. -/
theorem count_eq_takeWhile {F : Nat → Nat} {stop : Nat → Bool} (h0 : F 0 = 0)
    (hs : ∀ n < 64, F (n + 1) = if stop (63 - n) then 0 else F n + 1) :
    ∀ n ≤ 64, F n = ((List.range' (64 - n) n).takeWhile fun i => !stop i).length := by
  intro n
  induction n with
  | zero => intro _; simp [h0]
  | succ n ih =>
    intro hn
    rw [hs n hn, show 64 - (n + 1) = 63 - n by omega, List.range'_succ, List.takeWhile_cons, show 63 - n + 1 = 64 - n by omega]
    cases stop (63 - n) <;> simp [ih (by omega)]

theorem clzFrom_eq (x : Word) : clzFrom x 64 = ((List.range 64).takeWhile fun n => !x.getLsbD (63 - n)).length := by
  refine List.range_eq_range' ▸ count_eq_takeWhile (stop := fun n => x.getLsbD (63 - n)) rfl (fun n hn => ?_) 64 (Nat.le_refl _)
  rw [clzFrom, show 63 - (63 - n) = n by omega]

theorem ctzFrom_eq (x : Word) : ctzFrom x 64 = ((List.range 64).takeWhile fun n => !x.getLsbD n).length :=
  List.range_eq_range' ▸ count_eq_takeWhile (stop := x.getLsbD) rfl (fun _ _ => rfl) 64 (Nat.le_refl _)

theorem popFrom_eq (x : Word) (n : Nat) : popFrom x n = ((List.range n).filter x.getLsbD).length := by
  induction n with
  | zero => rfl
  | succ n ih => rw [popFrom, ih, List.range_succ]; cases h : x.getLsbD n <;> simp [h]

end Sys2Proof.Machine

namespace Sys2Proof.Claims

open Sys2Proof.Machine

theorem ofBool_eq_flag {b : Bool} {p : Prop} [Decidable p] (h : b = true ↔ p) : ofBool b = flag p := by
  simp [ofBool, flag, h]

/-! ## Instructions whose result is there at the next issue -/

section
variable {s : State} {d a b : BitVec 7} {st : BitVec 2} {i : Instr} {w : Word} {lat : Nat}

theorem completes_alu {n : Nat} {regs : List (BitVec 7)} {v : State → Word} (hi : exec i s = .next (s.alu n lat regs d st v)) (hl : lat ≤ 16)
    (hv : v s = w) (hd : d ∈ regs) (h : Settled s regs) :
    Form.Completes { instr := i, regs := regs, dest := d, value := w, bytes := n, st := st } s :=
  hv ▸ Form.completes_alu hi (by omega) hd h

theorem completes_alu3 {f : Word → Word → Word} (hi : exec i s = .next (s.alu3 lat d a b st f)) (hl : lat ≤ 16) (hv : f (s.rx a) (s.rx b) = w)
    (h : Settled s [d, a, b]) : Form.Completes { instr := i, regs := [d, a, b], dest := d, value := w, st := st } s :=
  completes_alu hi hl hv List.mem_cons_self h

theorem completes_alu2 {f : Word → Word} (hi : exec i s = .next (s.alu2 lat d a st f)) (hl : lat ≤ 16) (hv : f (s.rx a) = w)
    (h : Settled s [d, a]) : Form.Completes { instr := i, regs := [d, a], dest := d, value := w, st := st } s :=
  completes_alu hi hl hv List.mem_cons_self h

theorem completes_alu1 {v : State → Word} (hi : exec i s = .next (s.alu 4 lat [d] d st v)) (hl : lat ≤ 16) (hv : v s = w)
    (h : Settled s [d]) : Form.Completes { instr := i, regs := [d], dest := d, value := w, st := st } s :=
  completes_alu hi hl hv List.mem_cons_self h

theorem completes_aluShort {d a : BitVec 4} {f : Word → Word → Word} (hi : exec i s = .next (s.aluShort d a f))
    (hv : f (s.rx (short d)) (s.rx (short a)) = w) (h : Settled s [short d, short a]) :
    Form.Completes { instr := i, regs := [short d, short a], dest := short d, value := w, bytes := 2 } s :=
  completes_alu hi (by decide) hv List.mem_cons_self h

end

theorem latInt_le : latInt ≤ 16 := by decide
theorem latMul_le : latMul ≤ 16 := by decide

/-! ## The clauses of the statement

Each list in its own order, one instruction after another: its operation, its latency, and why the model's value is the spec's. -/

theorem threeRegisterResults : ThreeRegisterResults := by
  intro s d a b k st
  simp only [threeRegister, List.forall_mem_cons]
  exact ⟨completes_alu3 rfl latInt_le rfl, completes_alu3 rfl latInt_le rfl, completes_alu3 rfl latMul_le (mul_eq_ofNat _ _),
    completes_alu3 rfl latMul_le rfl, completes_alu3 rfl latMul_le rfl,
    completes_alu3 rfl latInt_le (ite_slt_eq_ite_le id), completes_alu3 rfl latInt_le (ite_slt_eq_ite_le Eq.symm),
    completes_alu3 rfl latInt_le (ite_ult_eq_ite_le id), completes_alu3 rfl latInt_le (ite_ult_eq_ite_le Eq.symm),
    completes_alu3 rfl latInt_le rfl, completes_alu3 rfl latInt_le rfl, completes_alu3 rfl latInt_le rfl, completes_alu3 rfl latInt_le rfl,
    completes_alu3 rfl latInt_le (ofBool_eq_flag beq_iff_eq), completes_alu3 rfl latInt_le (ofBool_eq_flag bne_iff_ne),
    completes_alu3 rfl latInt_le (ofBool_eq_flag BitVec.slt_iff_toInt_lt), completes_alu3 rfl latInt_le (ofBool_eq_flag BitVec.ult_iff_toNat_lt),
    completes_alu rfl latInt_le (by simp) List.mem_cons_self,
    completes_alu3 rfl latInt_le (by rw [shiftLeft_eq_ofNat]), List.forall_mem_nil _⟩

theorem shiftAndFieldResults : ShiftAndFieldResults := by
  intro s d a b n st
  simp only [shiftsAndFields, List.forall_mem_cons]
  exact ⟨completes_alu3 rfl latInt_le (by rw [shamt_eq_bits, shiftLeft_eq_ofNat]), completes_alu3 rfl latInt_le (by rw [shamt_eq_bits, shiftRight_eq_ofNat]),
    completes_alu3 rfl latInt_le (by rw [shamt_eq_bits, sshiftRight_eq_ofInt]),
    completes_alu3 rfl latInt_le (by rw [shamt_eq_bits, rotateLeft_eq_or _ (bits_lt _ _ _)]),
    completes_alu2 rfl latInt_le (shiftLeft_eq_ofNat _ _), completes_alu2 rfl latInt_le (shiftRight_eq_ofNat _ _),
    completes_alu2 rfl latInt_le (sshiftRight_eq_ofInt _ _),
    completes_alu3 rfl latInt_le (by rw [bfxWord, fieldWidth_eq]; rfl),
    completes_alu rfl latInt_le (by rw [bfiWord, fieldWidth_eq]; rfl) List.mem_cons_self, List.forall_mem_nil _⟩

theorem immediateAndSingleResults : ImmediateAndSingleResults := by
  intro s d a i w st
  simp only [immediateAndSingle, List.forall_mem_cons]
  exact ⟨completes_alu2 rfl latInt_le rfl, completes_alu2 rfl latInt_le rfl, completes_alu2 rfl latInt_le rfl, completes_alu2 rfl latInt_le rfl,
    completes_alu1 rfl latInt_le rfl, completes_alu1 rfl latInt_le (by rw [BitVec.ofNat_toNat, BitVec.setWidth_eq]),
    completes_alu2 rfl latInt_le rfl,
    completes_alu2 rfl latInt_le (by rw [clzFrom_eq]), completes_alu2 rfl latInt_le (by rw [ctzFrom_eq]), completes_alu2 rfl latInt_le (by rw [popFrom_eq]),
    completes_alu2 rfl latInt_le (sextN_eq _ _), completes_alu2 rfl latInt_le (sextN_eq _ _), completes_alu2 rfl latInt_le (sextN_eq _ _),
    completes_alu2 rfl latInt_le (zextN_eq _ _), completes_alu2 rfl latInt_le (zextN_eq _ _), completes_alu2 rfl latInt_le (zextN_eq _ _),
    List.forall_mem_nil _⟩

theorem shortWordResults : ShortWordResults := by
  intro s d a n i
  simp only [shortWords, List.forall_mem_cons]
  exact ⟨completes_aluShort rfl rfl, completes_aluShort rfl rfl, completes_aluShort rfl rfl, completes_aluShort rfl rfl,
    completes_aluShort rfl rfl, completes_aluShort rfl rfl, completes_aluShort rfl rfl, completes_aluShort rfl rfl, completes_aluShort rfl rfl,
    completes_alu rfl latInt_le rfl List.mem_cons_self, List.forall_mem_nil _⟩

theorem identityReadResults : IdentityReadResults := by
  intro s d k st
  simp only [identityReads, List.forall_mem_cons]
  exact ⟨completes_alu1 rfl latInt_le rfl, completes_alu1 rfl latInt_le rfl, completes_alu1 rfl latInt_le rfl, List.forall_mem_nil _⟩

/-- Settles O1: each instruction is one fixed-latency result, of the value the spec gives it. -/
theorem integerResults : Obligations.IntegerResults :=
  ⟨threeRegisterResults, shiftAndFieldResults, immediateAndSingleResults, shortWordResults, identityReadResults⟩

end Sys2Proof.Claims
end

section
/-! Branches, jumps and no-ops (03 R62 to R66, R74), and the results that come later: divisions (03 R51; 06 R112) and core-shared writes (03 R57, R58). -/

namespace Sys2Proof.Machine

theorem msb_eq_decide (x : Word) : x.msb = decide (x.toInt < 0) := by
  rw [BitVec.msb_eq_toInt]

theorem not_msb_eq_decide (x : Word) : (!x.msb) = decide (0 ≤ x.toInt) := by
  rw [msb_eq_decide, ← decide_not, decide_eq_decide]
  omega

end Sys2Proof.Machine

namespace Sys2Proof.Claims

open Sys2Proof.Machine

/-! ## Going on -/

theorem KeepsStrand.retire (s : State) (n : Nat) (st : BitVec 2) : KeepsStrand s (s.retire n st) := by
  simp [KeepsStrand, Slot.advance]

theorem KeepsStrand.retireTo (s : State) (pc : Word) (st : BitVec 2) : KeepsStrand s (s.retireTo pc st) := by
  simp [KeepsStrand]

theorem KeepsRegs.retire (s : State) (n : Nat) (st : BitVec 2) : KeepsRegs s (s.retire n st) := by
  simp [KeepsRegs]

theorem KeepsRegs.retireTo (s : State) (pc : Word) (st : BitVec 2) : KeepsRegs s (s.retireTo pc st) := by
  simp [KeepsRegs]

theorem GoesOn.retire (s : State) (n : Nat) (st : BitVec 2) : GoesOn s (s.retire n st) (s.me.pc + BitVec.ofNat 64 n) st := by
  simp [GoesOn]

theorem GoesOn.retireTo (s : State) (pc : Word) (st : BitVec 2) : GoesOn s (s.retireTo pc st) pc st := by
  simp [GoesOn]

/-! ## Branches and jumps -/

section
variable {s : State} {i : Instr} {regs : List (BitVec 7)} {target : Word} {n : Nat} {st : BitVec 2}

theorem completes_retire (taken : Bool) (ht : taken = false) (hi : exec i s = .next (s.retire n st)) :
    BranchForm.Completes { instr := i, regs := regs, taken := taken, target := target, bytes := n, st := st } s := by
  subst ht
  exact ⟨_, hi, GoesOn.retire s n st, KeepsRegs.retire s n st, KeepsStrand.retire s n st, OnlyMe.retire s n st⟩

theorem completes_retireTo (taken : Bool) (ht : taken = true) (hi : exec i s = .next (s.retireTo target st)) :
    BranchForm.Completes { instr := i, regs := regs, taken := taken, target := target, bytes := n, st := st } s := by
  subst ht
  exact ⟨_, hi, GoesOn.retireTo s target st, KeepsRegs.retireTo s target st, KeepsStrand.retireTo s target st, OnlyMe.retireTo s target st⟩

theorem completes_branch {o : BitVec 9} {c : State → Bool} {taken : Bool} (hi : exec i s = .next (s.branch regs o st c)) (hc : c s = taken)
    (h : Settled s regs) :
    BranchForm.Completes { instr := i, regs := regs, taken := taken, target := s.me.pc + 2 * o.signExtend 64, st := st } s := by
  rw [State.branch, h.guarded] at hi
  cases taken with
  | true => exact completes_retireTo true rfl (by rw [hi, if_pos hc]; rfl)
  | false => exact completes_retire false rfl (by rw [hi, if_neg (by simp [hc])])

theorem completes_jump (hi : exec i s = .next (s.guarded regs fun s => s.retireTo target st)) (h : Settled s regs) :
    BranchForm.Completes { instr := i, regs := regs, taken := true, target := target, bytes := n, st := st } s :=
  completes_retireTo true rfl (by rw [hi, h.guarded])

end

/-- In the order of `branches`: only the conditions differ. -/
theorem branchesTakenOrNot : BranchesTakenOrNot := by
  intro s a b o st
  simp only [branches, List.forall_mem_cons]
  exact ⟨completes_branch rfl rfl, completes_branch rfl decide_not.symm, completes_branch rfl (msb_eq_decide _), completes_branch rfl (not_msb_eq_decide _),
    completes_branch rfl rfl, completes_branch rfl decide_not.symm, completes_branch rfl rfl, completes_branch rfl rfl, List.forall_mem_nil _⟩

theorem jumpTargets : JumpTargets := by
  intro s a a' o st
  simp only [jumps, List.forall_mem_cons]
  exact ⟨completes_jump rfl, completes_jump rfl, completes_jump rfl, completes_jump rfl, completes_jump rfl, List.forall_mem_nil _⟩

theorem noOpsOnlyGoOn : NoOpsOnlyGoOn := by
  intro s f r m st
  simp only [noops, List.forall_mem_cons]
  exact ⟨completes_retire _ rfl rfl, completes_retire _ rfl rfl, completes_retire _ rfl rfl, List.forall_mem_nil _⟩

/-! ## Jumps that write a register -/

section
variable {s t u : State} {d : BitVec 7} {v : Word} {pc : Word} {lat n : Nat} {st : BitVec 2}

theorem KeepsStrand.trans (h : KeepsStrand s t) (h' : KeepsStrand t u) : KeepsStrand s u := by
  unfold KeepsStrand at *
  rw [h']; conv_lhs => rw [h]

theorem me_land_now (hl : lat ≤ 16 * (1 + st.toNat)) : (s.land d v lat st).me =
    { s.me.wx d v with writes := s.me.writes.map fun w => w.supersede s.me.mode d (s.now + lat * tickLen s.coreId) } := by
  rw [s.land_now d v 0 hl, State.me_setMe, Slot.orFlags_zero]

theorem Writes.land_now (hl : lat ≤ 16 * (1 + st.toNat)) (hd : s.me.regOk d.toNat = true) : Writes s (s.land d v lat st) d v := by
  unfold Writes State.rx
  rw [me_land_now hl]
  exact ⟨s.me.rx_wx_same d v, fun r hr hne => s.me.rx_wx_other v hd hr hne⟩

theorem KeepsStrand.land_now (hl : lat ≤ 16 * (1 + st.toNat)) : KeepsStrand s (s.land d v lat st) := by
  unfold KeepsStrand
  rw [me_land_now hl]
  unfold Slot.wx
  split <;> rfl

theorem OnlyMe.land_now (hl : lat ≤ 16 * (1 + st.toNat)) : OnlyMe s (s.land d v lat st) := by
  rw [s.land_now d v 0 hl]
  exact OnlyMe.setMe s _

theorem GoesOn.land_now (hl : lat ≤ 16 * (1 + st.toNat)) (h : GoesOn (s.land d v lat st) u pc st) : GoesOn s u pc st := by
  rw [s.land_now d v 0 hl] at h
  simpa [GoesOn, State.base] using h

theorem Writes.retire (h : Writes s t d v) : Writes s (t.retire n st) d v := by
  simpa [Writes, State.rx] using h

theorem Writes.retireTo (h : Writes s t d v) : Writes s (t.retireTo pc st) d v := by
  unfold Writes State.rx at *
  rw [State.me_retireTo]
  exact h

/-- A result that lands at once, and a jump. -/
theorem jump_landing (hl : lat ≤ 16 * (1 + st.toNat)) (hd : s.me.regOk d.toNat = true) :
    let t := (s.land d v lat st).retireTo pc st
    Writes s t d v ∧ GoesOn s t pc st ∧ KeepsStrand s t ∧ OnlyMe s t :=
  ⟨(Writes.land_now hl hd).retireTo, (GoesOn.retireTo _ _ _).land_now hl, (KeepsStrand.land_now hl).trans (KeepsStrand.retireTo _ _ _),
    (OnlyMe.land_now hl).trans (OnlyMe.retireTo _ _ _)⟩

/-- The same without the jump. -/
theorem retire_landing (hl : lat ≤ 16 * (1 + st.toNat)) (hd : s.me.regOk d.toNat = true) :
    let t := (s.land d v lat st).retire n st
    Writes s t d v ∧ GoesOn s t (s.me.pc + BitVec.ofNat 64 n) st ∧ KeepsStrand s t ∧ OnlyMe s t := by
  have hpc : (s.land d v lat st).me.pc = s.me.pc := by rw [me_land_now hl]; simp
  exact ⟨(Writes.land_now hl hd).retire, hpc ▸ (GoesOn.retire _ _ _).land_now hl, (KeepsStrand.land_now hl).trans (KeepsStrand.retire _ _ _),
    (OnlyMe.land_now hl).trans (OnlyMe.retire _ _ _)⟩

end

theorem settled_nil (s : State) : Settled s [] := by
  simp [Settled, Slot.badReg, Slot.earlyReg]

theorem countingAndLinkingJumps : CountingAndLinkingJumps := by
  intro s d a o p st
  have hl : latInt ≤ 16 * (1 + st.toNat) := by have := latInt_le; omega
  refine ⟨fun h => ?_, ?_, fun h => ?_⟩
  · have ha : s.me.regOk a.toNat = true := h.regOk List.mem_cons_self
    have hx : exec (.dbnz a o st) s = .next (if s.rx a - 1 != 0 then (s.land a (s.rx a - 1) latInt st).retireTo (s.target o) st
        else (s.land a (s.rx a - 1) latInt st).retire 4 st) := congrArg Host.Outcome.next (h.guarded _)
    by_cases h0 : s.rx a - 1 = 0
    · rw [if_neg (by simpa using h0)] at hx
      rw [if_pos h0]
      exact ⟨_, hx, retire_landing hl ha⟩
    · rw [if_pos (by simpa using h0)] at hx
      rw [if_neg h0]
      exact ⟨_, hx, jump_landing hl ha⟩
  · refine ⟨_, congrArg Host.Outcome.next ((settled_nil s).guarded _), ?_, ?_, ?_, (OnlyMe.setMe _ _).trans (OnlyMe.retireTo _ _ _), ?_⟩
    · simp
    · simp [GoesOn, State.base, State.target, imm]
    · simp [KeepsRegs]
    · simp
  · exact ⟨_, congrArg Host.Outcome.next (h.guarded _), jump_landing hl (h.regOk List.mem_cons_self)⟩

/-! ## Divisions (03 R51) -/

/-- The one quotient that does not fit a word is the dividend again. -/
theorem sdivWord_eq_quotient (x y : Word) : sdivWord x y = quotient x y := by
  unfold sdivWord quotient
  by_cases hy : y = 0
  · rw [if_pos hy, if_pos hy]; rfl
  rw [if_neg hy, if_neg hy]
  split
  · next h =>
    obtain ⟨hx, hy⟩ := h
    rw [hx, hy]
    exact BitVec.eq_of_toInt_eq (by rw [hx]; rfl)
  · rfl

theorem sremWord_eq_remainder (x y : Word) : sremWord x y = remainder x y := by
  unfold sremWord remainder
  by_cases hy : y = 0
  · rw [if_pos hy, if_pos hy]
  rw [if_neg hy, if_neg hy, Int.tmod_def]
  split
  · next h =>
    obtain ⟨hx, hy⟩ := h
    rw [hx, hy]
    rfl
  · rfl

/-- A division of x[d] completes at once, or leaves its result pending, as its stall count says. -/
def Divides (s : State) (d : BitVec 7) (st : BitVec 2) (f : Form) : Prop :=
  (40 ≤ 16 * (1 + st.toNat) → f.Completes s) ∧
  (16 * (1 + st.toNat) < 40 →
    ∃ t, exec f.instr s = .next t ∧ KeepsRegs s t ∧ GoesOn s t (s.me.pc + 4) st ∧ KeepsStrand s t ∧
      t.me.writes = s.me.writes ++ [{ at_ := s.now + 40 * tickLen s.coreId, reg := some d, fw := s.me.mode, value := f.value }] ∧
      (s.now + 40 * tickLen s.coreId, Ev.delayedRegisterWrite s.coreId) ∈ t.agenda ∧
      t = { s with slots := t.slots, agenda := t.agenda } ∧ ∀ id, id ≠ s.cur → t.slot id = s.slot id)

theorem divides {s : State} {d a b : BitVec 7} {st : BitVec 2} {i : Instr} {w : Word} {f : Word → Word → Word}
    (hi : exec i s = .next (s.alu3 latIdiv d a b st f)) (hv : f (s.rx a) (s.rx b) = w) (h : Settled s [d, a, b]) :
    Divides s d st { instr := i, regs := [d, a, b], dest := d, value := w, st := st } := by
  subst hv
  refine ⟨fun hl => Form.completes_alu hi hl List.mem_cons_self h, fun hl => ?_⟩
  have hx : s.alu3 latIdiv d a b st f = (s.land d (f (s.rx a) (s.rx b)) latIdiv st).retire 4 st :=
    h.guarded fun s => (s.land d (f (s.rx a) (s.rx b)) latIdiv st).retire 4 st
  rw [hx, s.land_later _ _ 0 (lat := latIdiv) hl] at hi
  refine ⟨_, hi, ?_, ?_, ?_, ?_, ?_, rfl, fun id hid => ?_⟩
  · simp [KeepsRegs]
  · simp [GoesOn, State.base]
  · simp [KeepsStrand, Slot.advance]
  · simp [latIdiv]
  · simp [latIdiv, State.retire]
  · refine ((OnlyMe.retire _ 4 st).2 id ?_).trans (s.slot_setMe_other _ hid)
    exact hid

theorem divisionResults : DivisionResults := by
  change ∀ s d a b st, ∀ f ∈ divisions s d a b st, Settled s f.regs → Divides s d st f
  intro s d a b st
  simp only [divisions, List.forall_mem_cons]
  exact ⟨divides rfl (sdivWord_eq_quotient _ _), divides rfl rfl, divides rfl (sremWord_eq_remainder _ _), divides rfl rfl, List.forall_mem_nil _⟩

/-! ## Core-shared writes (03 R57, R58) -/

theorem me_postShared (s : State) (w : SharedWrite) : (s.postShared w).me = s.me := by
  unfold State.postShared; dsimp only; split <;> rfl

/-- What else than the agenda a posted write changes: the pending writes of its core, and the mark of its gang. -/
theorem postShared_frame (s : State) (w : SharedWrite) :
    let t := s.postShared w
    t = { s with cores := t.cores, gangs := t.gangs, agenda := t.agenda } ∧
      t.core s.coreId = { s.core s.coreId with sPend := (s.core s.coreId).sPend ++ [w] } ∧ (w.at_, Ev.delayedRegisterWrite s.coreId) ∈ t.agenda := by
  unfold State.postShared
  dsimp only
  split <;> exact ⟨rfl, s.core_setCore _ _, State.due_schedule _ _ _⟩

theorem postShared_goesOn (s : State) (w : SharedWrite) (st : BitVec 2) :
    let t := (s.postShared w).retire 4 st
    (t.core s.coreId).sPend = (s.core s.coreId).sPend ++ [w] ∧ (t.core s.coreId).s = (s.core s.coreId).s ∧
      (w.at_, Ev.delayedRegisterWrite s.coreId) ∈ t.agenda ∧ KeepsRegs s t ∧ GoesOn s t (s.me.pc + 4) st ∧ KeepsStrand s t ∧
      t.mem = s.mem ∧ t.fe = s.fe := by
  obtain ⟨hframe, hcore, hdue⟩ := postShared_frame s w
  have hme := me_postShared s w
  generalize s.postShared w = u at hframe hcore hdue hme ⊢
  have hbase : u.base = s.base := by rw [State.base, hme, hframe]; rfl
  have hid : u.coreId = s.coreId := by rw [hframe]; rfl
  have hc : (u.retire 4 st).core s.coreId = u.core s.coreId := rfl
  refine ⟨by rw [hc, hcore], by rw [hc, hcore], hdue, ?_, ?_, ?_, by rw [hframe]; rfl, by rw [hframe]; rfl⟩
  · simp [KeepsRegs, hme]
  · simp [GoesOn, hme, hbase, hid]
  · simp [KeepsStrand, Slot.advance, hme]

theorem sharedWritesApplyLater : SharedWritesApplyLater := by
  intro s d a k st
  exact ⟨fun h => ⟨_, congrArg Host.Outcome.next (h.guarded _), postShared_goesOn s _ st⟩,
    fun h => ⟨_, congrArg Host.Outcome.next (h.guarded _), postShared_goesOn s _ st⟩⟩

/-- Settles O2: a branch is one of two ways to go on, and a late result is a pending write with its landing due. -/
theorem controlFlowAndLateResults : Obligations.ControlFlowAndLateResults :=
  ⟨branchesTakenOrNot, countingAndLinkingJumps, jumpTargets, noOpsOnlyGoOn, divisionResults, sharedWritesApplyLater⟩

end Sys2Proof.Claims
end

section
/-! REP pairs (03 R67; 09 R176, R177): what fetching the body leaves, and one step of a vector instruction whose checks pass. -/

namespace Sys2Proof.Machine

/-! ## What fetching and translating leave (01 R14; 07 R132; 25 R393) -/

/-- Nothing but cores and clusters differs. -/
def CoresAndClusters (s t : State) : Prop := t = { s with cores := t.cores, clusters := t.clusters }

theorem CoresAndClusters.refl (s : State) : CoresAndClusters s s := rfl

theorem CoresAndClusters.trans {s t u : State} (h : CoresAndClusters s t) (h' : CoresAndClusters t u) : CoresAndClusters s u := by
  unfold CoresAndClusters at *
  rw [h']; conv_lhs => rw [h]

theorem CoresAndClusters.setCore (s : State) (c : Nat) (v : Core) : CoresAndClusters s (s.setCore c v) := rfl

theorem CoresAndClusters.setCluster (s : State) (c : Nat) (v : Cluster) : CoresAndClusters s (s.setCluster c v) := rfl

section
variable {s t : State}

theorem CoresAndClusters.cur (h : CoresAndClusters s t) : t.cur = s.cur := by rw [h]
theorem CoresAndClusters.coreId (h : CoresAndClusters s t) : t.coreId = s.coreId := by rw [h]; rfl
theorem CoresAndClusters.now (h : CoresAndClusters s t) : t.now = s.now := by rw [h]
theorem CoresAndClusters.mem (h : CoresAndClusters s t) : t.mem = s.mem := by rw [h]
theorem CoresAndClusters.fe (h : CoresAndClusters s t) : t.fe = s.fe := by rw [h]
theorem CoresAndClusters.me (h : CoresAndClusters s t) : t.me = s.me := by rw [h]; rfl
theorem CoresAndClusters.rx (h : CoresAndClusters s t) (r : BitVec 7) : t.rx r = s.rx r := by rw [h]; rfl
theorem CoresAndClusters.base (h : CoresAndClusters s t) : t.base = s.base := by rw [h]; rfl

end

theorem State.fillTlb_leaves (s : State) (core job : Nat) (va : Word) : CoresAndClusters s (s.fillTlb core job va) := by
  unfold State.fillTlb
  dsimp only
  split
  · rfl
  split
  · rfl
  split
  · rfl
  split
  · rfl
  · exact (CoresAndClusters.setCore _ _ _).trans (CoresAndClusters.setCluster _ _ _)

theorem State.cachedHalf_leaves (s : State) (core key pa : Nat) : CoresAndClusters s (s.cachedHalf core key pa).2 := by
  simp only [State.cachedHalf]
  split <;> rfl

theorem State.fetchHalf_leaves {s t : State} {core job : Nat} {va : Word} {v : Nat} (h : s.fetchHalf core job va = .got v t) :
    CoresAndClusters s t := by
  unfold State.fetchHalf at h
  split at h
  · cases h; exact s.cachedHalf_leaves _ _ _
  · cases h; exact (s.fillTlb_leaves _ _ _).trans (State.cachedHalf_leaves _ _ _ _)
  · split at h
    · cases h
    · split at h <;> cases h
      exact (s.fillTlb_leaves _ _ _).trans (State.cachedHalf_leaves _ _ _ _)
  · split at h <;> cases h
    rfl
  · cases h
  · cases h

theorem State.fetchWord_leaves {s t : State} {core job : Nat} {pc : Word} {w n : Nat} (h : s.fetchWord core job pc = .word w n t) :
    CoresAndClusters s t := by
  unfold State.fetchWord at h
  split at h
  any_goals cases h
  next s1 hlo =>
  split at h
  · split at h <;> cases h
    next hhi => exact (State.fetchHalf_leaves hlo).trans (State.fetchHalf_leaves hhi)
  · cases h; exact State.fetchHalf_leaves hlo

/-! ## The lines that a step claims, and its end (06 R119; 09 R183) -/

theorem State.claimAll_leaves (core rank owner : Nat) (l : List (Nat × Nat)) : ∀ s : State, CoresAndClusters s (s.claimAll core rank owner l) := by
  induction l with
  | nil => exact CoresAndClusters.refl
  | cons p l ih => exact fun s => (CoresAndClusters.setCore s _ _).trans (ih _)

theorem State.vClaim_leaves (s : State) (v : VInstr) (m ahead : Nat) : CoresAndClusters s (s.vClaim v m ahead) :=
  (CoresAndClusters.setCore s _ _).trans (State.claimAll_leaves _ _ _ _ _)

theorem State.me_vSchedule (s : State) (v : VInstr) (c : BitVec 7) (extra : Nat) :
    (s.vSchedule v c extra).me = { s.me with wait := .vector, stepAt := (s.vSchedule v c extra).me.stepAt } := by
  simp [State.vSchedule]

theorem State.vSchedule_due (s : State) (v : VInstr) (c : BitVec 7) (extra : Nat) :
    ((s.vSchedule v c extra).me.stepAt, Ev.vectorStep s.cur) ∈ (s.vSchedule v c extra).agenda := by
  simp [State.vSchedule]

theorem State.mem_vSchedule (s : State) (v : VInstr) (c : BitVec 7) (extra : Nat) : (s.vSchedule v c extra).mem = s.mem :=
  (s.vClaim_leaves v _ extra).mem

theorem State.fe_vSchedule (s : State) (v : VInstr) (c : BitVec 7) (extra : Nat) : (s.vSchedule v c extra).fe = s.fe :=
  (s.vClaim_leaves v _ extra).fe

end Sys2Proof.Machine

namespace Sys2Proof.Claims

open Sys2Proof.Machine

theorem Settled.mono {s : State} {regs regs' : List (BitVec 7)} (h : Settled s regs) (hs : ∀ r ∈ regs', r ∈ regs) : Settled s regs' := by
  obtain ⟨hbad, hearly⟩ := h
  refine ⟨List.find?_eq_none.mpr fun r hr => List.find?_eq_none.mp hbad r (hs r hr), ?_⟩
  unfold Slot.earlyReg at *
  split
  · next hchk =>
    rw [if_pos hchk] at hearly
    exact List.find?_eq_none.mpr fun r hr => List.find?_eq_none.mp hearly r (hs r hr)
  · rfl

/-! ## REP and its body (03 R67, R69) -/

section
variable {s u : State} {c : BitVec 7} {st : BitVec 2} {body : Instr} {v : VInstr} {w n : Nat}

theorem exec_rep_fetched (hc : Settled s [c]) (hf : s.fetchWord s.coreId s.myGang.job (s.me.pc + 4) = .word w n u)
    (hd : decodeWord w n = .ok body) : exec (.rep c st) s = .next (u.repPair c body) := by
  change Host.Outcome.next (s.guarded [c] _) = _
  rw [hc.guarded]
  simp only [hf, hd]

/-- The strand in its pair, before its first step. -/
def pairBegun (u : State) (c : BitVec 7) (body : Instr) (st : BitVec 2) : State :=
  (u.leave st).setMe { (u.leave st).me with rep := some (body, c) }

/-- A pair whose body passes its checks: no step, or its first. -/
theorem repPair_of_checked (hv : vecOf body = some v) (hc : c ∉ v.regs) (hb : v.bad (u.me.oxr 6) = false) (h : Settled u v.regs) :
    u.repPair c body = if u.rx c = 0 then u.retire 8 v.st else (pairBegun u c body v.st).vSchedule v c 8 := by
  have hok : (v.regs.contains c || v.bad (u.me.oxr 6)) = false := by rw [hb]; simpa using hc
  simp only [State.repPair, hv, hok, Bool.false_eq_true, if_false, h.guarded]
  rfl

theorem rep_completes (hu : CoresAndClusters s u) :
    GoesOn s (u.retire 8 st) (s.me.pc + 8) st ∧ KeepsRegs s (u.retire 8 st) ∧ KeepsMemory s (u.retire 8 st) := by
  refine ⟨?_, ?_, hu.mem, hu.fe⟩
  · simp [GoesOn, hu.me, hu.base, hu.coreId]
  · simp [KeepsRegs, hu.me]

theorem rep_begins (hu : CoresAndClusters s u) :
    let t := (pairBegun u c body st).vSchedule v c 8
    t.me.wait = .vector ∧ t.me.rep = some (body, c) ∧ t.me.pc = s.me.pc ∧ KeepsRegs s t ∧ KeepsMemory s t ∧
      (t.me.stepAt, Ev.vectorStep s.cur) ∈ t.agenda := by
  have hbegun : (pairBegun u c body st).me.rep = some (body, c) ∧ (pairBegun u c body st).me.pc = s.me.pc ∧ KeepsRegs s (pairBegun u c body st) := by
    simp [pairBegun, State.leave, KeepsRegs, hu.me]
  obtain ⟨hrep, hpc, hregs⟩ := hbegun
  have hcur : (pairBegun u c body st).cur = s.cur := hu.cur
  have hmem : KeepsMemory s (pairBegun u c body st) := ⟨hu.mem, hu.fe⟩
  generalize pairBegun u c body st = p at *
  dsimp only
  unfold KeepsRegs KeepsMemory
  rw [p.me_vSchedule, p.mem_vSchedule, p.fe_vSchedule]
  exact ⟨rfl, hrep, hpc, hregs, hmem, hcur ▸ p.vSchedule_due v c 8⟩

end
end Sys2Proof.Claims
end

section
/-! One step of a vector instruction (09 R174 to R177, R185): its checks, its results, and the pointers that advance. -/

namespace Sys2Proof.Machine

/-! ## Pointers that advance -/

/-- A register advanced by k bytes. -/
def Slot.bump (x : Slot) (p : BitVec 7 × Nat) : Slot := x.wx p.1 (x.rx p.1 + BitVec.ofNat 64 p.2)

@[simp] theorem Slot.regOk_wx (v : Slot) (r : BitVec 7) (w : Word) (k : Nat) : (v.wx r w).regOk k = v.regOk k := by
  simp [Slot.regOk]

@[simp] theorem Slot.regOk_bump (v : Slot) (p : BitVec 7 × Nat) (k : Nat) : (v.bump p).regOk k = v.regOk k := Slot.regOk_wx _ _ _ _

theorem Slot.regOk_foldl_bump (l : List (BitVec 7 × Nat)) (k : Nat) : ∀ v : Slot, (l.foldl Slot.bump v).regOk k = v.regOk k := by
  induction l with
  | nil => intro v; rfl
  | cons p l ih => intro v; rw [List.foldl_cons, ih, Slot.regOk_bump]

/-- Advancing other registers leaves a register. -/
theorem Slot.rx_foldl_bump_other {r : BitVec 7} {l : List (BitVec 7 × Nat)} : ∀ {v : Slot}, v.regOk r.toNat = true →
    (∀ p ∈ l, v.regOk p.1.toNat = true ∧ p.1 ≠ r) → (l.foldl Slot.bump v).rx r = v.rx r := by
  induction l with
  | nil => intro v _ _; rfl
  | cons p l ih =>
    intro v hr hl
    obtain ⟨⟨hp, hne⟩, hl⟩ := List.forall_mem_cons.mp hl
    rw [List.foldl_cons, ih (by simpa using hr) (by simpa using hl)]
    exact v.rx_wx_other _ hp hr (Ne.symm hne)

/-- Distinct registers advance each by its own bytes. -/
theorem Slot.rx_foldl_bump_mem {p : BitVec 7 × Nat} {l : List (BitVec 7 × Nat)} : ∀ {v : Slot}, (l.map (·.1)).Nodup →
    (∀ q ∈ l, v.regOk q.1.toNat = true) → p ∈ l → (l.foldl Slot.bump v).rx p.1 = v.rx p.1 + BitVec.ofNat 64 p.2 := by
  induction l with
  | nil => intro v _ _ hp; cases hp
  | cons q l ih =>
    intro v hnd hl hp
    obtain ⟨hq, hl'⟩ := List.forall_mem_cons.mp hl
    obtain ⟨hnot, hnd⟩ := List.nodup_cons.mp hnd
    have hok : ∀ r ∈ l, (v.bump q).regOk r.1.toNat = true := by simpa using hl'
    rw [List.foldl_cons]
    rcases List.mem_cons.mp hp with rfl | hp
    · rw [Slot.rx_foldl_bump_other (by simpa using hq) fun r hr => ⟨hok r hr, fun e => hnot (List.mem_map.mpr ⟨r, hr, e⟩)⟩]
      exact v.rx_wx_same _ _
    · rw [ih hnd hok hp, Slot.bump, v.rx_wx_other _ hq (hl p (List.mem_cons_of_mem _ hp)) fun e => hnot (List.mem_map.mpr ⟨p, hp, e⟩)]

/-- Only general registers differ. -/
def Slot.RegsOnly (v w : Slot) : Prop := w = { v with x := w.x, shadow := w.shadow }

theorem Slot.RegsOnly.trans {u v w : Slot} (h : u.RegsOnly v) (h' : v.RegsOnly w) : u.RegsOnly w := by
  unfold Slot.RegsOnly at *
  rw [h']; conv_lhs => rw [h]

theorem Slot.RegsOnly.wx (v : Slot) (r : BitVec 7) (w : Word) : v.RegsOnly (v.wx r w) := by
  unfold Slot.RegsOnly Slot.wx
  split <;> rfl

theorem Slot.RegsOnly.foldl_bump (l : List (BitVec 7 × Nat)) : ∀ v : Slot, v.RegsOnly (l.foldl Slot.bump v) := by
  induction l with
  | nil => intro v; rfl
  | cons p l ih => exact fun v => (Slot.RegsOnly.wx v _ _).trans (ih _)

/-- The registers that a step advances, with the bytes each used: a reduction keeps D (09 R177, R180). -/
def VInstr.moves (v : VInstr) (sp : Nat × Nat × Nat) : List (BitVec 7 × Nat) :=
  (if v.op = .red then [] else [(v.d, sp.1)]) ++ (v.a.toList.map fun r => (r, sp.2.1)) ++ v.b.toList.map fun r => (r, sp.2.2)

theorem VInstr.moves_sublist (v : VInstr) (sp : Nat × Nat × Nat) : ((v.moves sp).map (·.1)).Sublist v.regs := by
  unfold VInstr.moves VInstr.regs
  split <;> simp [Function.comp_def]

/-- The slot whose used pointers have advanced. -/
def VInstr.advance (v : VInstr) (sp : Nat × Nat × Nat) (x : Slot) : Slot :=
  let m2 := if v.op = .red then x else x.bump (v.d, sp.1)
  let m3 := match v.a with
    | some r => m2.bump (r, sp.2.1)
    | none => m2
  match v.b with
    | some r => m3.bump (r, sp.2.2)
    | none => m3

theorem VInstr.advance_eq_foldl (v : VInstr) (sp : Nat × Nat × Nat) (x : Slot) : v.advance sp x = (v.moves sp).foldl Slot.bump x := by
  obtain ⟨op, d, a, b, st⟩ := v
  unfold VInstr.moves VInstr.advance
  split <;> cases a <;> cases b <;> rfl

/-- An instruction that uses no A uses no B (09 R176). -/
def VInstr.Ordered (v : VInstr) : Prop := v.a = none → v.b = none

theorem vecOf_ordered {i : Instr} {v : VInstr} (h : vecOf i = some v) : v.Ordered := by
  unfold vecOf at h
  split at h <;> cases h <;> simp [VInstr.Ordered]

/-! ## The state that a step leaves -/

/-- The count of a pair's register, where there is one, after m elements. -/
def Slot.counted (x : Slot) (count : Option (BitVec 7)) (m : Nat) : Slot :=
  match count with
  | some c => x.wx c (x.rx c - BitVec.ofNat 64 m)
  | none => x

theorem Slot.RegsOnly.counted (x : Slot) (count : Option (BitVec 7)) (m : Nat) : x.RegsOnly (x.counted count m) := by
  cases count with
  | none => rfl
  | some c => exact Slot.RegsOnly.wx _ _ _

/-- Bytes of local memory written by a step. -/
def State.putLocal (u : State) (p : Nat) (bs : List Byte) : State :=
  { (u.markLocal p bs.length) with mem := memPut u.mem p bs, bad := u.bad.filter (fun x => decide (x + 8 ≤ p ∨ p + bs.length ≤ x)) }

/-- The issuing gang's count of retired work after one more step (16 R283). -/
def State.worked (s : State) : State :=
  if s.myGang.live then s.setGang s.me.gang { s.myGang with work := min (s.myGang.work + 1) (2 ^ 64 - 1) } else s

/-- The state that a step of m elements with the results o leaves. -/
def State.stepped (s : State) (v : VInstr) (m : Nat) (count : Option (BitVec 7)) (o : VOut) : State :=
  let base := localBase s.coreId
  let s1 := (s.putLocal (base + (s.rx v.d).toNat) o.dBytes).putLocal (base + (s.ptr v.b).toNat) o.bBytes
  let fl := o.flags.foldl (fun (f : BitVec 5) p => f ||| p.2) 0
  (s1.setMe ((v.advance (v.op.spans (v.op.shape (s.me.oxr 6)) m) (s1.me.orFlags fl)).counted count m)).worked

end Sys2Proof.Machine

namespace Sys2Proof.Claims

open Sys2Proof.Machine

/-! ## The checks of a step pass -/

theorem vXlat_eq_none {p : Word} {len : Nat} (h : p.toNat + len ≤ 0x180000) : vXlat p len = none := by
  unfold vXlat
  rw [if_neg]
  omega

theorem vProt_eq_none {p : Word} {len : Nat} (h : p.toNat + len ≤ 0x180000) : vProt p len = none := by
  unfold vProt
  rw [if_neg]
  omega

theorem vAlign_eq_none {p q r : Word × Nat} (hp : p.1.toNat % p.2 = 0) (hq : q.1.toNat % q.2 = 0) (hr : r.1.toNat % r.2 = 0) :
    vAlign [p, q, r] = none := by
  simp [vAlign, hp, hq, hr]

theorem pointer_one {s : State} {v : VInstr} (h : v.Ordered) : pointer s v.regs 1 = (s.ptr v.a).toNat := by
  obtain ⟨op, d, a, b, st⟩ := v
  cases a with
  | some a => rfl
  | none => obtain rfl : b = none := h rfl; rfl

theorem pointer_two {s : State} {v : VInstr} (h : v.Ordered) : pointer s v.regs 2 = (s.ptr v.b).toNat := by
  obtain ⟨op, d, a, b, st⟩ := v
  cases a with
  | some a => cases b <;> rfl
  | none => obtain rfl : b = none := h rfl; rfl

/-- No inbox lies under what a step writes: D, and B of a VQNT (18 R297). -/
theorem no_inbox_of_lines {s : State} {a n : Nat} (h : ∀ k < n, 64 * k < n → s.inInbox (a + 64 * k) = false) :
    ((List.range ((n + 63) / 64)).any fun k => s.inInbox (a + 64 * k)) = false := by
  simp only [List.any_eq_false, List.mem_range, Bool.not_eq_true]
  intro k hk
  exact h k (by omega) (by omega)

/-- A step that runs is done. -/
theorem vStep_of_runs {s : State} {v : VInstr} {m : Nat} (count : Option (BitVec 7)) (hv : v.Ordered) (h : StepRuns s v.op v.regs m) :
    s.vStep v m count = .done (s.stepped v m count (stepResult s v.op v.regs m)) := by
  obtain ⟨⟨-, -, hops, hin, hinb, hda, hdb, hdd⟩, hon⟩ := h
  have h0 : pointer s v.regs 0 = (s.rx v.d).toNat := rfl
  have h1 := pointer_one (s := s) hv
  have h2 := pointer_two (s := s) hv
  unfold stepResult at hon ⊢
  unfold State.stepped State.vStep
  generalize s.me.oxr 6 = w at *
  simp only [h0, h1, h2, List.forall_mem_cons] at hops hin hinb hda hdb hdd hon ⊢
  obtain ⟨⟨hald, hd⟩, ⟨hala, ha⟩, ⟨halb, hb⟩, -⟩ := hops
  have hinb' : (v.op == .qnt && (List.range (((v.op.spans (v.op.shape w) m).2.2 + 63) / 64)).any
      fun k => s.inInbox (localBase s.coreId + (s.ptr v.b).toNat + 64 * k)) = false := by
    by_cases hq : v.op = .qnt
    · rw [no_inbox_of_lines, Bool.and_false]
      intro k hk hlt
      have hk0 : k = 0 := by rw [hq] at hk hlt; simp only [VOp.spans] at hk hlt; omega
      rw [hk0]
      exact hinb hq
    · simp [hq]
  split
  · next t ht =>
    rw [vAlign_eq_none hald hala halb] at ht
    cases ht
  split
  · next t ht =>
    simp only [List.findSome?_cons, List.findSome?_nil, vXlat_eq_none hd, vXlat_eq_none ha, vXlat_eq_none hb, vProt_eq_none hd, vProt_eq_none ha,
      vProt_eq_none hb, no_inbox_of_lines hin, hinb', Bool.and_false, Bool.false_and, Bool.false_eq_true, if_false, Option.orElse_none] at ht
    cases ht
  rw [if_neg, if_neg]
  · rfl
  · simpa [stepFlags] using hon
  · simp only [hda, Bool.false_or, Bool.or_eq_true, Bool.and_eq_true, bne_iff_ne, beq_iff_eq, not_or, not_and, Bool.not_eq_true]
    exact ⟨hdb, hdd⟩

/-! ## What a step leaves -/

section
variable {s t : State} {v : VInstr} {m : Nat} {c : BitVec 7} {o : VOut}

@[simp] theorem me_putLocal (s : State) (p : Nat) (bs : List Byte) : (s.putLocal p bs).me = s.me := by
  unfold State.putLocal State.markLocal; split <;> rfl
@[simp] theorem mem_putLocal (s : State) (p : Nat) (bs : List Byte) : (s.putLocal p bs).mem = memPut s.mem p bs := rfl
@[simp] theorem fe_putLocal (s : State) (p : Nat) (bs : List Byte) : (s.putLocal p bs).fe = s.fe := by
  unfold State.putLocal State.markLocal; split <;> rfl
@[simp] theorem cur_putLocal (s : State) (p : Nat) (bs : List Byte) : (s.putLocal p bs).cur = s.cur := by
  unfold State.putLocal State.markLocal; split <;> rfl

@[simp] theorem me_worked (s : State) : s.worked.me = s.me := by unfold State.worked; split <;> rfl
@[simp] theorem mem_worked (s : State) : s.worked.mem = s.mem := by unfold State.worked; split <;> rfl
@[simp] theorem fe_worked (s : State) : s.worked.fe = s.fe := by unfold State.worked; split <;> rfl
@[simp] theorem cur_worked (s : State) : s.worked.cur = s.cur := by unfold State.worked; split <;> rfl

theorem me_stepped (s : State) (v : VInstr) (m : Nat) (count : Option (BitVec 7)) (o : VOut) : (s.stepped v m count o).me =
    (((v.moves (v.op.spans (v.op.shape (s.me.oxr 6)) m)).foldl Slot.bump (s.me.orFlags (stepFlags o))).counted count m) := by
  simp only [State.stepped, me_worked, State.me_setMe, me_putLocal, VInstr.advance_eq_foldl]
  rfl

theorem cur_stepped (s : State) (v : VInstr) (m : Nat) (count : Option (BitVec 7)) (o : VOut) : (s.stepped v m count o).cur = s.cur := by
  simp [State.stepped]

/-- Of the strand, a step changes general registers and flags. -/
theorem regsOnly_stepped (s : State) (v : VInstr) (m : Nat) (count : Option (BitVec 7)) (o : VOut) :
    (s.me.orFlags (stepFlags o)).RegsOnly (s.stepped v m count o).me := by
  rw [me_stepped]
  exact (Slot.RegsOnly.foldl_bump _ _).trans (Slot.RegsOnly.counted _ _ _)

theorem fst_mem_regs {sp : Nat × Nat × Nat} {p : BitVec 7 × Nat} (h : p ∈ v.moves sp) : p.1 ∈ v.regs :=
  (v.moves_sublist sp).subset (List.mem_map_of_mem h)

theorem a_of_regs {a : BitVec 7} (hv : v.Ordered) (h : v.regs[1]? = some a) : v.a = some a := by
  obtain ⟨op, d, a, b, st⟩ := v
  cases a with
  | some a => exact h
  | none => obtain rfl : b = none := hv rfl; cases h

theorem b_of_regs {b : BitVec 7} (hv : v.Ordered) (h : v.regs[2]? = some b) : v.b = some b := by
  obtain ⟨op, d, a, b, st⟩ := v
  cases a with
  | some a => cases b with
    | some b => exact h
    | none => cases h
  | none => obtain rfl : b = none := hv rfl; cases h

theorem regOk_of_mem_moves (hok : ∀ r ∈ c :: v.regs, s.me.regOk r.toNat = true) {sp : Nat × Nat × Nat} {p : BitVec 7 × Nat} (h : p ∈ v.moves sp) :
    (s.me.orFlags (stepFlags o)).regOk p.1.toNat = true :=
  hok p.1 (List.mem_cons_of_mem _ (fst_mem_regs h))

section
variable (hc : c ∉ v.regs) (hok : ∀ r ∈ c :: v.regs, s.me.regOk r.toNat = true)
include hc hok

/-- A step of a pair subtracts its elements from the count register, which is none of its pointers. -/
theorem rx_stepped_count : (s.stepped v m (some c) o).rx c = s.rx c - BitVec.ofNat 64 m := by
  rw [State.rx, me_stepped, Slot.counted, Slot.rx_wx_same, Slot.rx_foldl_bump_other]
  · rfl
  · exact hok c List.mem_cons_self
  · exact fun p hp => ⟨regOk_of_mem_moves hok hp, fun e => hc (e ▸ fst_mem_regs hp)⟩

theorem rx_stepped_of_mem_regs {r : BitVec 7} (hr : r ∈ v.regs) : (s.stepped v m (some c) o).rx r =
    ((v.moves (v.op.spans (v.op.shape (s.me.oxr 6)) m)).foldl Slot.bump (s.me.orFlags (stepFlags o))).rx r := by
  rw [State.rx, me_stepped, Slot.counted, Slot.rx_wx_other]
  · rw [Slot.regOk_foldl_bump]; exact hok c List.mem_cons_self
  · rw [Slot.regOk_foldl_bump]; exact hok r (List.mem_cons_of_mem _ hr)
  · exact fun e => hc (e ▸ hr)

theorem rx_stepped_of_move (hnd : v.regs.Nodup) {p : BitVec 7 × Nat} (hp : p ∈ v.moves (v.op.spans (v.op.shape (s.me.oxr 6)) m)) :
    (s.stepped v m (some c) o).rx p.1 = s.rx p.1 + BitVec.ofNat 64 p.2 := by
  rw [rx_stepped_of_mem_regs hc hok (fst_mem_regs hp),
    Slot.rx_foldl_bump_mem (hnd.sublist (v.moves_sublist _)) (fun q hq => regOk_of_mem_moves hok hq) hp]
  rfl

/-- A reduction keeps D. -/
theorem rx_stepped_of_red (hnd : v.regs.Nodup) (hop : v.op = .red) : (s.stepped v m (some c) o).rx v.d = s.rx v.d := by
  have hmoves : ∀ p ∈ v.moves (v.op.spans (v.op.shape (s.me.oxr 6)) m), p.1 ≠ v.d := fun p hp e => by
    rw [VInstr.regs, List.nodup_cons] at hnd
    simp only [VInstr.moves, hop, if_true, List.nil_append, List.mem_append, List.mem_map] at hp
    apply hnd.1
    rw [← e]
    rcases hp with ⟨r, hr, rfl⟩ | ⟨r, hr, rfl⟩ <;> simp [hr]
  rw [rx_stepped_of_mem_regs hc hok List.mem_cons_self, Slot.rx_foldl_bump_other]
  · rfl
  · exact hok v.d (List.mem_cons_of_mem _ List.mem_cons_self)
  · exact fun p hp => ⟨regOk_of_mem_moves hok hp, hmoves p hp⟩

/-- The state that a step of a pair leaves is what its statement says. -/
theorem stepDone_stepped (hv : v.Ordered) (hnd : v.regs.Nodup) :
    StepDone s (s.stepped v m (some c) (stepResult s v.op v.regs m)) v.op v.regs m := by
  have h2 := pointer_two (s := s) hv
  refine ⟨?_, by simp [State.stepped], ?_, fun d hd => ?_, fun a ha => ?_, fun b hb => ?_⟩
  · simp only [State.stepped, mem_worked, State.mem_setMe, mem_putLocal, h2]
    rfl
  · rw [regsOnly_stepped]; rfl
  · obtain rfl : v.d = d := by simpa [VInstr.regs] using hd
    split
    · next hop => exact rx_stepped_of_red hc hok hnd hop
    · next hop => exact rx_stepped_of_move hc hok hnd (p := (v.d, _)) (by simp [VInstr.moves, hop])
  · have ha : v.a = some a := a_of_regs hv ha
    exact rx_stepped_of_move hc hok hnd (p := (a, _)) (by simp [VInstr.moves, ha])
  · have hb : v.b = some b := b_of_regs hv hb
    exact rx_stepped_of_move hc hok hnd (p := (b, _)) (by simp [VInstr.moves, hb])

end

/-- What a step has done stays done while memory, flags and registers do. -/
theorem StepDone.congr {u : State} {op : VOp} {regs : List (BitVec 7)} (h : StepDone s t op regs m) (hm : KeepsMemory t u)
    (hf : u.me.fcsr = t.me.fcsr) (hr : ∀ r, u.rx r = t.rx r) : StepDone s u op regs m := by
  obtain ⟨hmem, hfe⟩ := hm
  unfold StepDone at *
  simpa only [hmem, hfe, hf, hr] using h

end

/-! ## REP and its steps (03 R67) -/

theorem nodup_of_not_bad {v : VInstr} {w : Word} (h : v.bad w = false) : v.regs.Nodup := by
  simpa [VInstr.bad, VInstr.clash] using (Bool.or_eq_false_iff.mp h).2

/-- A pair after one of its steps: it is complete, a cause goes first, or its next step is due. -/
def pairNext (s : State) (v : VInstr) (c : BitVec 7) (id : Nat) : State :=
  if s.rx c = 0 then s.setMe { s.me with pc := s.me.pc + 8, wait := .none, rep := none }
  else if s.causeDue then (s.setMe { s.me with wait := .none, rep := none }).soon (.asyncTrapRaise id)
  else s.vSchedule v c 0

theorem pairNext_keeps (s : State) (v : VInstr) (c : BitVec 7) (id : Nat) :
    let t := pairNext s v c id
    KeepsMemory s t ∧ t.me.fcsr = s.me.fcsr ∧ ∀ r, t.rx r = s.rx r := by
  unfold pairNext
  dsimp only
  split
  · exact ⟨⟨rfl, rfl⟩, by simp, fun r => by rw [State.rx, State.me_setMe]; rfl⟩
  split
  · exact ⟨⟨rfl, rfl⟩, by simp, fun r => by rw [State.rx_soon, State.rx, State.me_setMe]; rfl⟩
  · exact ⟨⟨s.mem_vSchedule v c 0, s.fe_vSchedule v c 0⟩, by rw [s.me_vSchedule], fun r => by rw [State.rx, s.me_vSchedule]; rfl⟩

theorem pairNext_of_zero {s : State} {v : VInstr} {c : BitVec 7} (id : Nat) (h : s.rx c = 0) :
    let t := pairNext s v c id
    t.me.pc = s.me.pc + 8 ∧ t.me.wait = .none ∧ t.me.rep = none := by
  simp [pairNext, h]

theorem pairNext_of_nonzero {s : State} {v : VInstr} {c : BitVec 7} (h : s.rx c ≠ 0) (hp : s.me.pending = []) :
    let t := pairNext s v c s.cur
    t.me.pc = s.me.pc ∧ t.me.wait = .vector ∧ t.me.rep = s.me.rep ∧ (t.me.stepAt, Ev.vectorStep s.cur) ∈ t.agenda := by
  have hc : ¬ s.causeDue = true := by simp [State.causeDue, hp]
  have hdue := s.vSchedule_due v c 0
  unfold pairNext
  rw [if_neg h, if_neg hc]
  exact ⟨by rw [s.me_vSchedule], by rw [s.me_vSchedule], by rw [s.me_vSchedule], hdue⟩

/-- The end of a pair's step whose checks pass (03 R67; 09 R177). -/
theorem exec_vectorStep_of_runs {s u : State} {id : Nat} {body : Instr} {c : BitVec 7} {v : VInstr} (hu : u = { s with cur := id })
    (hv : vecOf body = some v) (he : s.ev = some (.vectorStep id)) (hw : u.me.wait = .vector) (hr : u.me.rep = some (body, c))
    (ht : u.me.stepAt + s.vLost id ≤ s.now) (hrun : StepRuns u v.op v.regs (u.vNext v c)) :
    exec .vectorStep s = .next (pairNext (u.stepped v (u.vNext v c) (some c) (stepResult u v.op v.regs (u.vNext v c))) v c id) := by
  have hme : u.me = s.slot id := by rw [hu]; rfl
  rw [hme] at hw hr ht
  change execVectorStep s = _
  have h1 : ¬ s.now < (s.slot id).stepAt := by omega
  have h2 : ¬ s.now < (s.slot id).stepAt + s.vLost id := by omega
  unfold execVectorStep
  split
  · next id' he' =>
    obtain rfl : id = id' := by simpa [he] using he'
    dsimp only
    split
    · next body' c' _ hr' =>
      obtain ⟨rfl, rfl⟩ : body = body' ∧ c = c' := by simpa [hr] using hr'
      rw [hv]
      dsimp only
      rw [if_neg h1, if_neg h2, ← hu, vStep_of_runs (some c) (vecOf_ordered hv) hrun]
      rfl
    · next hno => exact absurd hr (hno body c hw)
  · next hno => exact absurd he (hno id)

/-- Settles O17: the checks of REP and of its body lead to the pair's first step, and a step that runs to the next or to the end. -/
theorem repPairs : Obligations.RepPairs := by
  intro s c st body v hv hc
  refine ⟨fun w n u hf hd hb h => ?_, fun id => ?_⟩
  · have hu := State.fetchWord_leaves hf
    have hs : Settled u v.regs := by
      unfold Settled
      rw [hu.me]
      exact h.mono fun r hr => List.mem_append_left _ hr
    have hx := exec_rep_fetched (st := st) (h.mono fun r hr => List.mem_append_right _ hr) hf hd
    rw [repPair_of_checked hv hc (by rwa [hu.me]) hs, hu.rx] at hx
    refine ⟨fun h0 => ?_, fun h0 => ?_⟩
    · rw [if_pos h0] at hx
      exact ⟨_, hx, rep_completes hu⟩
    · rw [if_neg h0] at hx
      exact ⟨_, hx, rep_begins hu⟩
  · intro u m he hw hr ht hb h0 hok hrun
    have hx := exec_vectorStep_of_runs (u := u) rfl hv he hw hr ht hrun
    have hdone : StepDone u _ v.op v.regs m := stepDone_stepped hc hok (vecOf_ordered hv) (nodup_of_not_bad hb)
    have hcount : (u.stepped v m (some c) (stepResult u v.op v.regs m)).rx c = _ := rx_stepped_count hc hok
    have hregs := regsOnly_stepped u v m (some c) (stepResult u v.op v.regs m)
    have hcur : (u.stepped v m (some c) (stepResult u v.op v.regs m)).cur = id := cur_stepped ..
    change exec .vectorStep s = .next (pairNext (u.stepped v m (some c) (stepResult u v.op v.regs m)) v c id) at hx
    generalize u.stepped v m (some c) (stepResult u v.op v.regs m) = s1 at *
    obtain ⟨hpc, hrep, hpend⟩ : s1.me.pc = u.me.pc ∧ s1.me.rep = u.me.rep ∧ s1.me.pending = u.me.pending := by
      rw [hregs]; exact ⟨rfl, rfl, rfl⟩
    obtain ⟨hmem, hfcsr, hrx⟩ := pairNext_keeps s1 v c id
    refine ⟨_, hx, hdone.congr hmem hfcsr hrx, (hrx c).trans hcount, fun hz => ?_, fun hnz hp => ?_⟩
    · rw [← hpc]
      exact pairNext_of_zero id ((hrx c).symm.trans hz)
    · rw [← hpc, ← hr, ← hrep, ← hcur]
      exact pairNext_of_nonzero (fun hz => hnz ((hrx c).trans hz)) (hpend.trans hp)

end Sys2Proof.Claims
end

section
/-! SUSP and YIELD (03 R70, R71, R73): a watcher at its home, a strand that keeps its slot, and a ROAM task that leaves it. -/

namespace Sys2Proof.Machine

/-! ## What bringing a line into its home's slice leaves (07 R125, R128; 08 R156) -/

/-- Nothing differs but which lines a home's slice holds, their side bits and owners, and the revocations sent. -/
def SliceOnly (s t : State) : Prop :=
  t = { s with agenda := t.agenda, fresh := t.fresh, owners := t.owners, resident := t.resident, side := t.side, timed := t.timed, nextTimed := t.nextTimed }

theorem SliceOnly.refl (s : State) : SliceOnly s s := rfl

theorem SliceOnly.trans {s t u : State} (h : SliceOnly s t) (h' : SliceOnly t u) : SliceOnly s u := by
  unfold SliceOnly at *
  rw [h']; conv_lhs => rw [h]

theorem SliceOnly.setResident (s : State) (l : List Nat) : SliceOnly s { s with resident := l } := rfl
theorem SliceOnly.setOwners (s : State) (l : Table Nat) : SliceOnly s { s with owners := l } := rfl
theorem SliceOnly.setFresh (s : State) (n : Nat) : SliceOnly s { s with fresh := n } := rfl
theorem SliceOnly.setResidentSide (s : State) (l : List Nat) (t : Table Word) : SliceOnly s { s with resident := l, side := t } := rfl

section
variable {s t : State}

theorem SliceOnly.coreId (h : SliceOnly s t) : t.coreId = s.coreId := by rw [h]; rfl
theorem SliceOnly.mem (h : SliceOnly s t) : t.mem = s.mem := by rw [h]
theorem SliceOnly.fe (h : SliceOnly s t) : t.fe = s.fe := by rw [h]
theorem SliceOnly.bad (h : SliceOnly s t) : t.bad = s.bad := by rw [h]
theorem SliceOnly.me (h : SliceOnly s t) : t.me = s.me := by rw [h]; rfl
theorem SliceOnly.base (h : SliceOnly s t) : t.base = s.base := by rw [h]; rfl

end

theorem State.carry_sliceOnly (s : State) (j src dst flits : Nat) (e : Ev) : SliceOnly s (s.carry j src dst flits e) := by
  unfold State.carry
  split <;> rfl

theorem State.revoke_sliceOnly (s : State) (o w : Nat) : SliceOnly s (s.revoke o w) := by
  unfold State.revoke
  dsimp only
  split
  · exact State.carry_sliceOnly _ _ _ _ _ _
  · rfl

theorem State.revokeWords_sliceOnly (l : List Nat) : ∀ s : State, SliceOnly s (s.revokeWords l) := by
  induction l with
  | nil => exact SliceOnly.refl
  | cons w l ih =>
    intro s
    refine SliceOnly.trans ?_ (ih _)
    dsimp only
    split
    · exact (SliceOnly.setOwners s _).trans (State.revoke_sliceOnly _ _ _)
    · rfl

theorem State.evictLine_sliceOnly (s : State) (line : Nat) : SliceOnly s (s.evictLine line) := by
  unfold State.evictLine
  exact (State.revokeWords_sliceOnly _ s).trans (SliceOnly.setResidentSide _ _ _)

theorem State.metaWord_sliceOnly (s : State) (pa : Nat) : SliceOnly s (((s.metaWord pa).map (·.2)).getD s) := by
  unfold State.metaWord
  dsimp only
  split
  · rfl
  · split <;> rfl

theorem State.bringIn_sliceOnly (s : State) (pa : Nat) : SliceOnly s (s.bringIn pa) := by
  unfold State.bringIn
  dsimp only
  split
  · rfl
  split
  · exact (SliceOnly.setResident s _).trans (State.metaWord_sliceOnly _ _)
  split
  · exact (((SliceOnly.setFresh s _).trans (State.evictLine_sliceOnly _ _)).trans (SliceOnly.setResident _ _)).trans (State.metaWord_sliceOnly _ _)
  · rfl

/-! ## A watcher at its home (03 R70) -/

section
variable {s : State} {pa : Nat} {full : Bool} {va : Word} {st : BitVec 2} {table : Bool}

/-- A watcher is refused only where the FE bit cannot be read. -/
theorem State.homeRefusal_watch (s : State) (pa : Nat) (full isPrivate : Bool) :
    s.homeRefusal (.watch full) pa isPrivate = if s.bad.contains (wordAddr pa + 1) then some .uncorrectable else none := by
  simp [State.homeRefusal, MemOp.clashes, MemOp.writes, MemOp.usesFe, MemOp.reads]

theorem State.homePerform_watch (s : State) (pa : Nat) (own : Option Nat) :
    s.homePerform (.watch full) pa 0 0 [] own = ([], false, s) := by
  simp [State.homePerform, State.homeData, MemOp.feAfter, State.registerFor, MemOp.registers]

theorem State.serve_watch (own : Option Nat) {isPrivate : Bool} (h : s.homeRefusal (.watch full) pa isPrivate = none) :
    s.serve (.watch full) pa 0 0 [] own isPrivate = if s.feBit pa = full then .done [] false (s.bringIn pa) else .wait := by
  have hs := s.bringIn_sliceOnly pa
  have hr : (s.bringIn pa).homeRefusal (.watch full) pa isPrivate = none := by
    rw [State.homeRefusal_watch] at h ⊢
    rwa [hs.bad]
  have hfe : (s.bringIn pa).feBit pa = s.feBit pa := by rw [State.feBit, hs.fe]; rfl
  simp only [State.serve, hr, hfe, MemOp.servable, State.homePerform_watch, bne_self_eq_false, Bool.false_eq_true, if_false]
  by_cases hb : s.feBit pa = full
  · simp [hb]
  · have hne : ¬ (full == s.feBit pa) = true := by simpa using Ne.symm hb
    simp [hb, hne]

theorem State.tableOp_watch (s : State) (o : Origin) : s.tableOp table (.watch full) o = s := by
  unfold State.tableOp State.tableWritten
  cases o <;> simp [MemOp.changes, MemOp.writes]

/-- The condition holds: the strand goes on at once. -/
theorem State.atHome_watch_served (h : s.homeRefusal (.watch full) pa s.myGang.confined = none) (hb : s.feBit pa = full) :
    let u := (s.bringIn pa).leave st
    s.atHome (flight none 0 4 st false) (.watch full) va pa 0 0 [] table =
      u.setMe { u.me with pc := u.me.pc + 4, wait := .none, inFlight := none, lines := [] } := by
  simp only [State.atHome, State.tableOp_watch, State.serve_watch _ h, if_pos hb, State.markDamage, State.markDamageOf, MemOp.reads, MemOp.registers,
    Bool.and_false, Bool.false_and, Bool.false_eq_true, if_false]
  rfl

/-- The watcher that waits for a word of HBM (03 R70). -/
def State.watcher (s : State) (full : Bool) (pa : Nat) (va : Word) (table : Bool) : Retry :=
  { addr := wordAddr pa, origin := .slot s.cur, op := .watch full, data := 0, va := va, table := table }

/-- The condition does not hold: a watcher joins the retry list. -/
theorem State.atHome_watch_waits (h : s.homeRefusal (.watch full) pa s.myGang.confined = none) (hb : s.feBit pa ≠ full) :
    let u := ({ s.bringIn pa with retries := s.retries ++ [s.watcher full pa va table] } : State).leave st
    s.atHome (flight none 0 4 st false) (.watch full) va pa 0 0 [] table =
      u.setMe { u.me with wait := .retry, inFlight := some { flight none 0 4 st false with pa := pa, va := va } } := by
  simp only [State.atHome, State.tableOp_watch, State.serve_watch _ h, if_neg hb]
  rfl

end

/-! ## An access that reaches HBM (04 R77) -/

theorem State.reach_hbm {s : State} {n : Nat} {va : Word} {acc : Access} {pa : Nat} {t : Bool} (k : Place → State → State)
    (ha : va.toNat % n = 0) (h : s.translate s.coreId s.myGang.job va acc = .hbm pa t) :
    s.reach n va acc true false k = k (.hbm pa t) (s.fillTlb s.coreId s.myGang.job va) := by
  simp [State.reach, ha, h, Place.isLocal]

/-! ## SUSP in a slot -/

theorem State.guardedRun_ok {s : State} {r : BitVec 7} {n : Nat} {regs : List (BitVec 7)} (k : State → State) (hb : s.me.badReg (r :: regs) = none)
    (hr : s.me.runBad r n = none) (h : s.me.badReg (regRun r n ++ regs) = none) (h' : s.me.earlyReg (regRun r n ++ regs) = none) :
    s.guardedRun r n regs k = k s := by
  simp only [State.guardedRun, hb, hr, s.guarded_ok _ k h h']

/-- The state in which a strand in its slot sends its watcher. -/
def State.watching (s : State) (full : Bool) (va : Word) : State :=
  (s.fillTlb s.coreId s.myGang.job va).resumeBy (if full then 2 else 3) va

theorem State.timedHome_resumeBy (s : State) (kind : Nat) (operand : Word) (pa : Nat) : (s.resumeBy kind operand).timedHome pa = s.timedHome pa := by
  unfold State.timedHome State.myGang State.resumeBy
  rw [State.me_setMe]
  rfl

theorem State.suspendFe_hbm {s : State} {va : Word} {pa : Nat} {t : Bool} (full : Bool) (st : BitVec 2) (ha : va.toNat % 8 = 0)
    (h : s.translate s.coreId s.myGang.job va .read = .hbm pa t) (hr : s.roams = false) (ht : s.timedHome pa = false) :
    s.suspendFe full va st = (s.watching full va).atHome (flight none 0 4 st false) (.watch full) va pa 0 0 [] t := by
  have hf := s.fillTlb_leaves s.coreId s.myGang.job va
  have hr' : (s.fillTlb s.coreId s.myGang.job va).roams = false := by rw [hf]; exact hr
  have ht' : (s.watching full va).timedHome pa = false := by
    rw [State.watching, State.timedHome_resumeBy, hf]
    exact ht
  unfold State.suspendFe
  rw [State.reach_hbm _ ha h]
  simp only [hr', Bool.false_and, Bool.false_eq_true, if_false]
  change (s.watching full va).homeAccess _ _ _ _ _ _ _ = _
  simp only [State.homeAccess, ht', Bool.false_eq_true, if_false]

/-- All that a strand's watch changes before its home answers. -/
theorem State.watching_leaves (s : State) (full : Bool) (va : Word) :
    let u := s.watching full va
    u.me = { s.me with resume := u.me.resume } ∧ u.base = s.base ∧ u.coreId = s.coreId ∧ u.cur = s.cur ∧
      u.mem = s.mem ∧ u.fe = s.fe ∧ u.bad = s.bad := by
  have hf := s.fillTlb_leaves s.coreId s.myGang.job va
  unfold State.watching State.resumeBy
  generalize s.fillTlb s.coreId s.myGang.job va = u at hf
  have hbad : u.bad = s.bad := by rw [hf]
  simp [hf.me, State.base, hf.now, hf.coreId, hf.cur, hf.mem, hf.fe, hbad]

/-! ## A ROAM task that leaves its slot (03 R71; 15 R261) -/

theorem State.roamAway_of_ready {s u : State} {n : Nat} {resume : Nat × Word} (k : Entry → State → State) (hd : s.resultsDue s.cur = none)
    (ha : s.me.unacked = []) (hq : s.enginesQuiet s.cur = true) (hs : (s.acquire s.coreId).saveStrand s.cur resume.2 = some u) :
    let p := u.leaveRecord s.cur (s.me.pc + BitVec.ofNat 64 n) resume
    s.roamAway n resume k = k p.1 p.2 := by
  simp [State.roamAway, State.whenLanded, State.released, hd, ha, hq, hs]

end Sys2Proof.Machine

namespace Sys2Proof.Claims

open Sys2Proof.Machine

/-- The checks that SUSP's register and the one after it pass (25 R387). -/
def SuspChecks (s : State) (a : BitVec 7) : Prop := s.me.badReg [a] = none ∧ s.me.runBad a 2 = none ∧ Settled s (regRun a 2)

section
variable {s : State} {a : BitVec 7} {st : BitVec 2}

/-- What SUSP of a kind does with its operand (03 R70). -/
def suspendKind (s : State) (kind : Nat) (v : Word) (st : BitVec 2) : State :=
  match kind with
  | 0 => s.suspendNext 4 st
  | 1 => s.suspendDelay v.toNat st
  | 2 => s.suspendFe true v st
  | 3 => s.suspendFe false v st
  | 4 => s.suspendLow v.toNat st
  | _ => s.trapHere { cause := .illegal }

theorem exec_susp {kind : Nat} (h : SuspChecks s a) (hk : bits (s.rx a) 0 4 = kind) :
    exec (.susp a st) s = .next (suspendKind s kind (s.rx (a + 1)) st) := by
  obtain ⟨hb, hr, h, h'⟩ := h
  subst hk
  exact congrArg Host.Outcome.next (State.guardedRun_ok _ hb hr (by simpa using h) (by simpa using h'))

/-- What completes a strand's instruction at once. -/
theorem goesOn_retire (s : State) (n : Nat) (st : BitVec 2) :
    let t := s.retire n st
    GoesOn s t (s.me.pc + BitVec.ofNat 64 n) st ∧ KeepsRegs s t ∧ KeepsStrand s t ∧ OnlyMe s t :=
  ⟨GoesOn.retire s n st, KeepsRegs.retire s n st, KeepsStrand.retire s n st, OnlyMe.retire s n st⟩

theorem suspendNext_in_slot (n : Nat) (hr : s.roams = false) : s.suspendNext n st = s.retire n st := by
  simp [State.suspendNext, hr]

theorem suspendDelay_in_slot {n : Nat} (hr : s.roams = false) (hn : n ≠ 0) :
    let at_ := s.now + n * 16 * tickLen s.coreId
    let t := s.suspendDelay n st
    t.me.wait = .delay at_ ∧ t.me.pc = s.me.pc ∧ KeepsRegs s t ∧ (at_, Ev.suspDelayExpiry s.cur) ∈ t.agenda ∧ KeepsMemory s t := by
  simp only [State.suspendDelay, if_neg hn, hr, Bool.false_eq_true, if_false]
  exact ⟨by simp [State.waitFor], by simp [State.waitFor, State.resumeBy], by simp [KeepsRegs, State.waitFor, State.resumeBy],
    State.due_schedule _ _ _, rfl, rfl⟩

theorem suspendLow_in_slot {n : Nat} (hr : s.roams = false) (hn : s.lwAt s.myGang.job s.coreId < n) :
    let t := s.suspendLow n st
    t.me.wait = .low n ∧ t.me.pc = s.me.pc ∧ KeepsRegs s t ∧ OnlyMe s t := by
  simp only [State.suspendLow, if_neg (Nat.not_le.mpr hn), hr, Bool.false_eq_true, if_false]
  exact ⟨by simp [State.waitFor], by simp [State.waitFor, State.resumeBy], by simp [KeepsRegs, State.waitFor, State.resumeBy],
    (OnlyMe.setMe _ _).trans (OnlyMe.setMe _ _)⟩

section
variable {pa : Nat} {p full : Bool} {va : Word}

theorem feBit_watching (s : State) (full : Bool) (va : Word) (pa : Nat) : (s.watching full va).feBit pa = s.feBit pa := by
  obtain ⟨-, -, -, -, -, hfe, -⟩ := s.watching_leaves full va
  rw [State.feBit, hfe]
  rfl

theorem watch_not_refused (hh : s.homeRefusal (.watch full) pa s.myGang.confined = none) :
    (s.watching full va).homeRefusal (.watch full) pa (s.watching full va).myGang.confined = none := by
  obtain ⟨-, -, -, -, -, -, hbad⟩ := s.watching_leaves full va
  rw [State.homeRefusal_watch] at hh ⊢
  rwa [hbad]

variable (hp : Reaches s 8 va .read (.hbm pa p)) (hr : s.roams = false) (ht : s.timedHome pa = false)
  (hh : s.homeRefusal (.watch full) pa s.myGang.confined = none)
include hp hr ht hh

theorem suspendFe_served (hb : s.feBit pa = full) :
    let t := s.suspendFe full va st
    GoesOn s t (s.me.pc + 4) st ∧ KeepsRegs s t ∧ KeepsMemory s t := by
  have hn := watch_not_refused (va := va) hh
  obtain ⟨hme, hbase, hid, -, hmem, hfe, -⟩ := s.watching_leaves full va
  rw [State.suspendFe_hbm full st hp.1 hp.2 hr ht, State.atHome_watch_served hn ((feBit_watching s full va pa).trans hb)]
  generalize s.watching full va = u at *
  have hu := u.bringIn_sliceOnly pa
  refine ⟨?_, ?_, hu.mem.trans hmem, hu.fe.trans hfe⟩
  · simp only [GoesOn, State.leave, State.me_setMe, hu.me, hu.base, hu.coreId, hbase, hid]
    rw [hme]
    exact ⟨rfl, trivial, trivial⟩
  · simp only [KeepsRegs, State.leave, State.me_setMe, hu.me]
    rw [hme]
    exact ⟨rfl, rfl⟩

theorem suspendFe_waits (hb : s.feBit pa ≠ full) :
    let t := s.suspendFe full va st
    t.me.wait = .retry ∧ t.me.pc = s.me.pc ∧ KeepsRegs s t ∧ KeepsMemory s t ∧
      ∃ r ∈ t.retries, r.addr = wordAddr pa ∧ r.origin = .slot s.cur ∧ r.op = .watch full := by
  have hn := watch_not_refused (va := va) hh
  obtain ⟨hme, -, -, hcur, hmem, hfe, -⟩ := s.watching_leaves full va
  rw [State.suspendFe_hbm full st hp.1 hp.2 hr ht, State.atHome_watch_waits hn (by rwa [feBit_watching])]
  generalize s.watching full va = u at *
  have hu := u.bringIn_sliceOnly pa
  have hme' : ({ u.bringIn pa with retries := u.retries ++ [u.watcher full pa va p] } : State).me = u.me := hu.me
  refine ⟨by simp, ?_, ?_, ⟨hu.mem.trans hmem, hu.fe.trans hfe⟩, u.watcher full pa va p, List.mem_append_right _ List.mem_cons_self, rfl, ?_, rfl⟩
  · simp only [State.leave, State.me_setMe, hme']
    rw [hme]
  · simp only [KeepsRegs, State.leave, State.me_setMe, hme']
    rw [hme]
    exact ⟨rfl, rfl⟩
  · rw [State.watcher, hcur]

end

/-! ## SUSP NEXT and YIELD of a ROAM task (03 R71, R73) -/

/-- A ROAM task that is ready to leave its slot is requeued. -/
theorem suspendNext_requeues {u : State} (n : Nat) (hr : s.roams = true) (hd : s.resultsDue s.cur = none) (ha : s.me.unacked = [])
    (hq : s.enginesQuiet s.cur = true) (hs : (s.acquire s.coreId).saveStrand s.cur 0 = some u) :
    let p := u.leaveRecord s.cur (s.me.pc + BitVec.ofNat 64 n) (0, 0)
    s.suspendNext n st = p.2.enqueue (clusterOf s.coreId) p.1 := by
  rw [State.suspendNext, if_pos hr]
  exact State.roamAway_of_ready (resume := (0, 0)) _ hd ha hq hs

theorem exec_yield (s : State) (st : BitVec 2) : exec (.yield st) s = .next (s.yieldStrand 4 st) :=
  congrArg Host.Outcome.next ((settled_nil s).guarded _)

theorem exec_yieldShort (s : State) : exec .yieldShort s = .next (s.yieldStrand 2 0) :=
  congrArg Host.Outcome.next ((settled_nil s).guarded _)

theorem yieldStrand_stays (n : Nat) (h : s.roams = false ∨ s.yieldWanted = false) : s.yieldStrand n st = s.retire n st := by
  have hno : (s.roams && s.yieldWanted) = false := Bool.and_eq_false_iff.mpr h
  rw [State.yieldStrand, hno]
  rfl

theorem yieldStrand_leaves (n : Nat) (hr : s.roams = true) (hw : s.yieldWanted = true) : s.yieldStrand n st = s.suspendNext n st := by
  rw [State.yieldStrand, hr, hw]
  rfl

end

/-- Settles O29: each kind of SUSP in a slot, and the one way in which SUSP NEXT and YIELD take a ROAM task from its slot. -/
theorem suspensionsAndYields : Obligations.SuspensionsAndYields := by
  intro s a st v kind
  refine ⟨fun hb hrun h => ?_, fun hstay => ?_, fun u hr hw hd ha hq hs => ?_⟩
  · have hc : SuspChecks s a := ⟨hb, hrun, h⟩
    refine ⟨fun hr => ⟨fun hk => ?_, fun hk hv => ?_, fun pa p hk hp hh ht => ?_, fun hk hlw => ?_⟩, fun u hr hk hd ha hq hs => ?_⟩
    · exact ⟨_, (exec_susp hc hk).trans (congrArg Host.Outcome.next (suspendNext_in_slot 4 hr)), goesOn_retire s 4 st⟩
    · have hn : v.toNat ≠ 0 := fun e => hv (BitVec.eq_of_toNat_eq e)
      exact ⟨_, exec_susp hc hk, suspendDelay_in_slot hr hn⟩
    · have hx : exec (.susp a st) s = .next (s.suspendFe (kind == 2) v st) := by
        rcases hk with hk | hk
        all_goals rw [hk]; exact exec_susp hc hk
      exact ⟨fun hfe => ⟨_, hx, suspendFe_served hp hr ht hh hfe⟩, fun hfe => ⟨_, hx, suspendFe_waits hp hr ht hh hfe⟩⟩
    · exact ⟨_, exec_susp hc hk, suspendLow_in_slot hr hlw⟩
    · exact (exec_susp hc hk).trans (congrArg Host.Outcome.next (suspendNext_requeues 4 hr hd ha hq hs))
  · rw [exec_yield, exec_yieldShort, yieldStrand_stays 4 hstay, yieldStrand_stays 2 hstay]
    exact ⟨⟨_, rfl, goesOn_retire s 4 st⟩, _, rfl, goesOn_retire s 2 0⟩
  · rw [exec_yield, exec_yieldShort, yieldStrand_leaves 4 hr hw, yieldStrand_leaves 2 hr hw]
    exact ⟨congrArg Host.Outcome.next (suspendNext_requeues 4 hr hd ha hq hs), congrArg Host.Outcome.next (suspendNext_requeues 2 hr hd ha hq hs)⟩

end Sys2Proof.Claims
end

section
/-! What an access leaves beside its word (04 R77 to R103): the slots and, of each core, all but L1, TLB and bank cycles. -/

namespace Sys2Proof.Machine

theorem State.core_setCore_other (s : State) {c k : Nat} (v : Core) (h : k ≠ c) : (s.setCore c v).core k = s.core k :=
  tget_tset_other _ _ _ h

theorem State.cluster_setCluster_other (s : State) {c k : Nat} (v : Cluster) (h : k ≠ c) : (s.setCluster c v).cluster k = s.cluster k :=
  tget_tset_other _ _ _ h

theorem tget_map {α : Type} (f : α → α) (k : Nat) (d : α) (t : Table α) : tget (t.map fun e => (e.1, f e.2)) k (f d) = f (tget t k d) := by
  induction t with
  | nil => rfl
  | cons e r ih => rw [List.map_cons, tget, tget, ih]; split <;> rfl

/-! ## TLBs (25 R393, R394) -/

/-- Nothing but the TLBs of cores and clusters differs. -/
structure TlbsOnly (s t : State) : Prop where
  leaves : CoresAndClusters s t
  core : ∀ c, t.core c = { s.core c with tlb := (t.core c).tlb }
  cluster : ∀ c, t.cluster c = { s.cluster c with tlb := (t.cluster c).tlb }

theorem TlbsOnly.refl (s : State) : TlbsOnly s s := ⟨rfl, fun _ => rfl, fun _ => rfl⟩

theorem TlbsOnly.trans {s t u : State} (h : TlbsOnly s t) (h' : TlbsOnly t u) : TlbsOnly s u := by
  refine ⟨h.leaves.trans h'.leaves, fun c => ?_, fun c => ?_⟩
  · rw [h'.core]; conv_lhs => rw [h.core]
  · rw [h'.cluster]; conv_lhs => rw [h.cluster]

theorem TlbsOnly.setCore (s : State) (c : Nat) (l : List TlbEntry) : TlbsOnly s (s.setCore c { s.core c with tlb := l }) := by
  refine ⟨rfl, fun k => ?_, fun _ => rfl⟩
  by_cases h : k = c
  · subst h; simp
  · simp [s.core_setCore_other _ h]

theorem TlbsOnly.setCluster (s : State) (c : Nat) (l : List TlbEntry) : TlbsOnly s (s.setCluster c { s.cluster c with tlb := l }) := by
  refine ⟨rfl, fun _ => rfl, fun k => ?_⟩
  by_cases h : k = c
  · subst h; simp
  · simp [s.cluster_setCluster_other _ h]

theorem State.fillTlb_tlbs (s : State) (core job : Nat) (va : Word) : TlbsOnly s (s.fillTlb core job va) := by
  unfold State.fillTlb
  dsimp only
  split
  · exact TlbsOnly.refl s
  split
  · exact TlbsOnly.refl s
  split
  · exact TlbsOnly.refl s
  split
  · exact TlbsOnly.setCore s _ _
  · exact (TlbsOnly.setCore s _ _).trans (TlbsOnly.setCluster _ _ _)

theorem State.tlbFlush_tlbs (s : State) (job : Nat) : TlbsOnly s (s.tlbFlush job) := by
  refine ⟨rfl, fun c => ?_, fun c => ?_⟩
  · have h := tget_map (fun k : Core => { k with tlb := k.tlb.filter (fun e => e.job != job) }) c {} s.cores
    rw [show (s.tlbFlush job).core c = _ from h]
    rfl
  · have h := tget_map (fun k : Cluster => { k with tlb := k.tlb.filter (fun e => e.job != job) }) c {} s.clusters
    rw [show (s.tlbFlush job).cluster c = _ from h]
    rfl

theorem State.tableOp_tlbs (s : State) (table : Bool) (op : MemOp) (o : Origin) : TlbsOnly s (s.tableOp table op o) := by
  unfold State.tableOp State.tableWritten
  split
  · split
    · exact s.tlbFlush_tlbs _
    · exact TlbsOnly.refl s
  · exact TlbsOnly.refl s

theorem TlbsOnly.l1Core {s t : State} (h : TlbsOnly s t) (core pa : Nat) : t.l1Core core pa = s.l1Core core pa := by
  unfold State.l1Core
  rw [h.cluster]

theorem TlbsOnly.l1Word {s t : State} (h : TlbsOnly s t) (c pa : Nat) : (t.core c).l1Word pa = (s.core c).l1Word pa := by
  unfold Core.l1Word
  rw [h.core]

theorem TlbsOnly.portFree {s t : State} (h : TlbsOnly s t) (c pa : Nat) : t.portFree c pa = s.portFree c pa := by
  unfold State.portFree
  rw [h.core, h.leaves]
  rfl

end Sys2Proof.Machine

namespace Sys2Proof.Claims

open Sys2Proof.Machine

section
variable {s t u : State}

/-! ## Cores -/

theorem KeepsCores.refl (s : State) : KeepsCores s s := fun _ => rfl

theorem KeepsCores.trans (h : KeepsCores s t) (h' : KeepsCores t u) : KeepsCores s u := fun c => by
  rw [h' c]; conv_lhs => rw [h c]

theorem KeepsCores.of_cores (h : t.cores = s.cores) : KeepsCores s t := fun c => by
  rw [show t.core c = s.core c by rw [State.core, h]; rfl]

theorem KeepsCores.of_tlbs (h : TlbsOnly s t) : KeepsCores s t := fun c => by
  conv_lhs => rw [h.core c]
  rw [h.core c]

theorem KeepsCores.setCore {c : Nat} {k : Core} (h : k = { s.core c with l1 := k.l1, tlb := k.tlb, claims := k.claims }) :
    KeepsCores s (s.setCore c k) := fun i => by
  by_cases hi : i = c
  · subst hi; rw [State.core_setCore]; exact h
  · rw [s.core_setCore_other _ hi]

/-! ## All that an access may touch beside memory and the issuing strand -/

/-- The instant, the issuing slot and every slot are the same, and the cores are kept. -/
structure Aside (s t : State) : Prop where
  now : t.now = s.now
  cur : t.cur = s.cur
  slots : t.slots = s.slots
  cores : KeepsCores s t

/-- No byte, no FE bit and no reduction line differs. -/
structure KeepsStore (s t : State) : Prop where
  mem : t.mem = s.mem
  fe : t.fe = s.fe
  drLines : t.drLines = s.drLines

theorem Aside.refl (s : State) : Aside s s := ⟨rfl, rfl, rfl, KeepsCores.refl s⟩

theorem Aside.trans (h : Aside s t) (h' : Aside t u) : Aside s u :=
  ⟨h'.now.trans h.now, h'.cur.trans h.cur, h'.slots.trans h.slots, h.cores.trans h'.cores⟩

theorem KeepsStore.refl (s : State) : KeepsStore s s := ⟨rfl, rfl, rfl⟩

theorem KeepsStore.trans (h : KeepsStore s t) (h' : KeepsStore t u) : KeepsStore s u :=
  ⟨h'.mem.trans h.mem, h'.fe.trans h.fe, h'.drLines.trans h.drLines⟩

theorem KeepsStore.memory (h : KeepsStore s t) : KeepsMemory s t := ⟨h.mem, h.fe⟩

theorem Aside.slot (h : Aside s t) (id : Nat) : t.slot id = s.slot id := by rw [State.slot, h.slots]; rfl
theorem Aside.me (h : Aside s t) : t.me = s.me := by rw [State.me, h.cur]; exact h.slot s.cur
theorem Aside.rx (h : Aside s t) (r : BitVec 7) : t.rx r = s.rx r := by rw [State.rx, h.me]; rfl
theorem Aside.coreId (h : Aside s t) : t.coreId = s.coreId := by rw [State.coreId, h.cur]; rfl
theorem Aside.base (h : Aside s t) : t.base = s.base := by rw [State.base, h.me, h.now]; rfl

theorem Aside.keepsSlots (h : Aside s t) : KeepsSlots s t := fun id _ => h.slot id

theorem Aside.of_tlbs (h : TlbsOnly s t) : Aside s t :=
  ⟨h.leaves.now, h.leaves.cur, by rw [h.leaves], KeepsCores.of_tlbs h⟩

theorem KeepsStore.of_tlbs (h : TlbsOnly s t) : KeepsStore s t := ⟨h.leaves.mem, h.leaves.fe, by rw [h.leaves]⟩

theorem Aside.of_slice (h : SliceOnly s t) : Aside s t :=
  ⟨by rw [h], by rw [h], by rw [h], KeepsCores.of_cores (by rw [h])⟩

theorem KeepsStore.of_slice (h : SliceOnly s t) : KeepsStore s t := ⟨h.mem, h.fe, by rw [h]⟩

theorem Aside.setCore {c : Nat} {k : Core} (h : k = { s.core c with l1 := k.l1, tlb := k.tlb, claims := k.claims }) : Aside s (s.setCore c k) :=
  ⟨rfl, rfl, rfl, KeepsCores.setCore h⟩

theorem KeepsStore.setCore (s : State) (c : Nat) (k : Core) : KeepsStore s (s.setCore c k) := ⟨rfl, rfl, rfl⟩

/-- An access changes the L1s, and bank cycles, of one core after another. -/
theorem asideStore_foldl_setCore (f : Core → Core) (hf : ∀ k, f k = { k with l1 := (f k).l1 }) (l : List Nat) :
    ∀ s : State, Aside s (l.foldl (fun (u : State) c => u.setCore c (f (u.core c))) s) ∧
      KeepsStore s (l.foldl (fun (u : State) c => u.setCore c (f (u.core c))) s) := by
  induction l with
  | nil => exact fun s => ⟨Aside.refl s, KeepsStore.refl s⟩
  | cons c l ih =>
    intro s
    obtain ⟨ha, hk⟩ := ih (s.setCore c (f (s.core c)))
    have h0 : f (s.core c) = { s.core c with l1 := (f (s.core c)).l1, tlb := (f (s.core c)).tlb, claims := (f (s.core c)).claims } := by
      rw [hf]
    exact ⟨(Aside.setCore h0).trans ha, (KeepsStore.setCore s _ _).trans hk⟩

end

/-! ## Fences and prefetches (04 R83, R84, R103) -/

theorem acquire_aside (s : State) (core : Nat) : Aside s (s.acquire core) := (asideStore_foldl_setCore _ (fun _ => rfl) _ s).1
theorem acquire_keepsStore (s : State) (core : Nat) : KeepsStore s (s.acquire core) := (asideStore_foldl_setCore _ (fun _ => rfl) _ s).2

theorem fillLine_aside (s : State) (core pa : Nat) : Aside s (s.fillLine core pa) := Aside.setCore rfl
theorem fillLine_keepsStore (s : State) (core pa : Nat) : KeepsStore s (s.fillLine core pa) := ⟨rfl, rfl, rfl⟩

theorem selfInvalidate_valid {k : Core} {l : L1Line} (hl : l ∈ k.selfInvalidate.l1) (i : Fin 8) (hv : (l.words[i]).valid = true) :
    (l.words[i]).owned = true ∨ (l.words[i]).pending = true := by
  obtain ⟨m, -, rfl⟩ := List.mem_map.mp hl
  simp only [Fin.getElem_fin, Vector.getElem_map] at hv ⊢
  by_cases h : (m.words[i.val].owned || m.words[i.val].pending) = true
  · rw [if_pos h]; simpa using h
  · simp [h] at hv

theorem core_acquire_unfused {s : State} {core : Nat} (h : (s.cluster (clusterOf core)).fused = false) :
    (s.acquire core).core core = (s.core core).selfInvalidate := by
  simp [State.acquire, h]

/-- Completing after something beside the strand is completing. -/
theorem retire_after {s u : State} (h : Aside s u) (n : Nat) (st : BitVec 2) :
    let t := u.retire n st
    GoesOn s t (s.me.pc + BitVec.ofNat 64 n) st ∧ KeepsRegs s t ∧ KeepsStrand s t := by
  obtain ⟨hg, hr, hk, -⟩ := goesOn_retire (st := st) u n
  refine ⟨?_, ?_, ?_⟩
  · unfold GoesOn at *; rwa [h.me, h.base, h.coreId] at hg
  · unfold KeepsRegs at *; rwa [h.me] at hr
  · unfold KeepsStrand at *; rwa [h.me] at hk

theorem joinWalk_aside (s : State) (core job : Nat) (va : Word) : Aside s (s.joinWalk core job va) ∧ KeepsStore s (s.joinWalk core job va) := by
  unfold State.joinWalk
  dsimp only
  split <;> split <;> exact ⟨⟨rfl, rfl, rfl, KeepsCores.of_cores rfl⟩, ⟨rfl, rfl, rfl⟩⟩

theorem prefetch_aside (s : State) (va : Word) : Aside s (s.prefetch va) ∧ KeepsStore s (s.prefetch va) := by
  unfold State.prefetch State.prefLine
  dsimp only
  split
  · exact ⟨Aside.refl s, KeepsStore.refl s⟩
  split
  · split
    · split
      · exact ⟨fillLine_aside s _ _, fillLine_keepsStore s _ _⟩
      · exact ⟨Aside.refl s, KeepsStore.refl s⟩
    · exact ⟨Aside.refl s, KeepsStore.refl s⟩
  · exact joinWalk_aside s _ _ _

theorem released_of_acked {s : State} (k : State → State) (h : s.me.unacked = []) : s.released k = k s := by
  simp [State.released, h]

theorem exec_pref {s : State} {a : BitVec 7} (st : BitVec 2) (h : s.me.badReg [a] = none) :
    exec (.pref a st) s = .next ((s.prefetch (s.rx a)).retire 4 st) := by
  change execPref a st s = _
  unfold execPref
  rw [h]

/-- Settles O7: what each instruction changes before it completes lies beside the strand and its memory. -/
theorem fencesAndPrefetchComplete : Obligations.FencesAndPrefetchComplete := by
  intro s a st
  have hacq := retire_after (acquire_aside s s.coreId) 4 st
  obtain ⟨hg, hr, hk⟩ := hacq
  refine ⟨⟨_, rfl, hg, hr, hk, (acquire_keepsStore s _).memory, fun hf l hl i => ?_⟩, fun h => ?_, fun h => ?_, ⟨_, rfl, goesOn_retire s 4 st⟩,
    fun h => ?_, fun h => ?_⟩
  · change l ∈ ((s.acquire s.coreId).core s.coreId).l1 at hl
    rw [core_acquire_unfused hf] at hl
    exact selfInvalidate_valid hl i
  · exact ⟨_, congrArg Host.Outcome.next (released_of_acked _ h), goesOn_retire s 4 st⟩
  · exact ⟨_, congrArg Host.Outcome.next (released_of_acked _ h), hg, hr, hk, (acquire_keepsStore s _).memory⟩
  · obtain ⟨ha, hs⟩ := prefetch_aside s (s.rx a)
    obtain ⟨hg, hr, hk⟩ := retire_after ha 4 st
    exact ⟨_, exec_pref st h, hg, hr, hk, hs.memory⟩
  · have hx : s.released (fun s => s.retire 4 st) = s.block .acked := if_neg (by simpa using h)
    exact ⟨_, congrArg Host.Outcome.next hx, by simp [State.block], by simp [State.block]⟩

end Sys2Proof.Claims
end

section
/-! Loads (04 R80 to R82; 07 R127): the checks of an access, and the answer that completes it. -/

namespace Sys2Proof.Machine

/-! ## The checks (04 R77, R78) -/

/-- An access whose checks pass goes on at its place. -/
theorem State.reach_ok {s : State} {n : Nat} {va : Word} {acc : Access} {home writes : Bool} (k : Place → State → State) {p : Place} {pa : Nat}
    (ha : va.toNat % n = 0) (h : s.translate s.coreId s.myGang.job va acc = p) (hp : Claims.placeAddr p = some pa)
    (hl : (home && p.isLocal) = false) (hw : writes = true → s.mayWrite p = true) :
    s.reach n va acc home writes k = k p (s.fillTlb s.coreId s.myGang.job va) := by
  have hw' : (writes && !s.mayWrite p) = false := by cases writes <;> simp_all
  subst h
  unfold State.reach
  rw [if_neg (by simpa using ha)]
  split
  · next h => rw [h] at hp; cases hp
  · next h => rw [h] at hp; cases hp
  · rw [hl, hw']; rfl

/-- An address that leads into the strand's own memory is below HBM's, and fills no TLB. -/
theorem State.fillTlb_of_ownMem {s : State} {core job : Nat} {va : Word} {acc : Access} {pa : Nat} (h : s.translate core job va acc = .ownMem pa) :
    s.fillTlb core job va = s := by
  have ha : (s.job job).ordinary va.toNat < 0x180000 := by
    by_contra hn
    unfold State.translate State.translateBy at h
    simp only [if_neg hn] at h
    split at h
    · cases h
    split at h
    · cases h
    split at h
    · split at h <;> cases h
    split at h
    · cases h
    unfold State.leafPlace at h
    dsimp only at h
    split at h
    · split at h
      · cases h
      · split at h <;> cases h
    split at h
    · split at h <;> cases h
    · cases h
  unfold State.fillTlb
  exact if_pos (by omega)

/-- A bank that an access has won is claimed, and nothing else changes. -/
theorem State.winBank_eq {s u : State} {pa : Nat} (h : s.winBank pa = some u) :
    u = s.claim s.coreId { bank := bankOf pa, cycle := s.cycleOf s.coreId, rank := rankStarved, owner := ownerScalar } := by
  unfold State.winBank at h
  dsimp only at h
  split at h
  · exact (Option.some.inj h).symm
  · split at h
    · exact (Option.some.inj h).symm
    · cases h

/-! ## The register that an answer fills -/

/-- The slot whose registers have taken the values of an answer. -/
def Slot.landed (v : Slot) (f : InFlight) (vals : List Word) : Slot := f.dst.elim v fun d => v.wxs d.toNat (vals.map (extend f.ext))

theorem Slot.RegsOnly.wxs (ws : List Word) : ∀ (v : Slot) (r : Nat), v.RegsOnly (v.wxs r ws) := by
  induction ws with
  | nil => exact fun _ _ => rfl
  | cons w ws ih => exact fun v r => (Slot.RegsOnly.wx v _ w).trans (ih _ _)

theorem Slot.RegsOnly.landed (v : Slot) (f : InFlight) (vals : List Word) : v.RegsOnly (v.landed f vals) := by
  unfold Slot.landed
  cases f.dst with
  | none => rfl
  | some d => exact Slot.RegsOnly.wxs _ _ _

theorem Slot.wxs_nextTick (ws : List Word) (n : Nat) : ∀ (v : Slot) (r : Nat), ({ v with nextTick := n } : Slot).wxs r ws = { v.wxs r ws with nextTick := n } := by
  induction ws with
  | nil => exact fun _ _ => rfl
  | cons w ws ih =>
    intro v r
    have hw : ({ v with nextTick := n } : Slot).wx (BitVec.ofNat 7 r) w = { v.wx (BitVec.ofNat 7 r) w with nextTick := n } := by
      unfold Slot.wx
      dsimp only
      split <;> rfl
    rw [Slot.wxs, hw, ih]
    rfl

theorem Slot.landed_nextTick (v : Slot) (n : Nat) (f : InFlight) (vals : List Word) :
    ({ v with nextTick := n } : Slot).landed f vals = { v.landed f vals with nextTick := n } := by
  unfold Slot.landed
  cases f.dst with
  | none => rfl
  | some d => exact Slot.wxs_nextTick _ _ _ _

theorem Slot.runBad_one {v : Slot} {d : BitVec 7} (h : v.regOk d.toNat = true) : v.runBad d 1 = none := by
  simp [Slot.runBad, h]

end Sys2Proof.Machine

namespace Sys2Proof.Claims

open Sys2Proof.Machine

theorem claim_aside (s : State) (core : Nat) (c : Claim) : Aside s (s.claim core c) := Aside.setCore rfl
theorem claim_keepsStore (s : State) (core : Nat) (c : Claim) : KeepsStore s (s.claim core c) := ⟨rfl, rfl, rfl⟩

theorem l1Atomic_aside (s : State) (core pa : Nat) : Aside s (s.l1Atomic core pa) ∧ KeepsStore s (s.l1Atomic core pa) := by
  unfold State.l1Atomic
  dsimp only
  split
  · exact ⟨Aside.refl s, KeepsStore.refl s⟩
  · exact ⟨Aside.setCore rfl, KeepsStore.setCore s _ _⟩

/-! ## An answer that completes its instruction (05 R106) -/

/-- The strand's instruction is complete, with the values of its answer in its registers; other slots and the cores are kept. -/
structure Landed (s t : State) (f : InFlight) (vals : List Word) : Prop where
  goes : GoesOn s t (s.me.pc + BitVec.ofNat 64 f.bytes) f.st
  x : t.me.x = (s.me.landed f vals).x
  shadow : t.me.shadow = (s.me.landed f vals).shadow
  strand : KeepsStrand s t
  slots : KeepsSlots s t
  cores : KeepsCores s t

section
variable {s t u : State} {f : InFlight} {vals : List Word}

theorem Landed.before (h : Aside s u) (h' : Landed u t f vals) : Landed s t f vals := by
  obtain ⟨hg, hx, hsh, hk, hs, hc⟩ := h'
  refine ⟨?_, by rwa [h.me] at hx, by rwa [h.me] at hsh, ?_, fun id hid => ?_, h.cores.trans hc⟩
  · unfold GoesOn at *; rwa [h.me, h.base, h.coreId] at hg
  · unfold KeepsStrand at *; rwa [h.me] at hk
  · rw [hs id (h.cur ▸ hid), h.slot]

theorem Landed.after (h : Landed s t f vals) (h' : Aside t u) : Landed s u f vals := by
  obtain ⟨hg, hx, hsh, hk, hs, hc⟩ := h
  refine ⟨?_, by rwa [h'.me], by rwa [h'.me], ?_, fun id hid => ?_, hc.trans h'.cores⟩
  · unfold GoesOn at *; rwa [h'.me]
  · unfold KeepsStrand at *; rwa [h'.me]
  · rw [h'.slot, hs id hid]

theorem Landed.rx (h : Landed s t f vals) (r : BitVec 7) : t.rx r = (s.me.landed f vals).rx r := by
  have hm : t.me.mode = (s.me.landed f vals).mode := by
    rw [Slot.RegsOnly.landed s.me f vals, h.strand]
  exact Slot.rx_congr hm h.x h.shadow r

/-- An answer without a register leaves them all. -/
theorem Landed.keepsRegs (h : Landed s t f vals) (hd : f.dst = none) : KeepsRegs s t := by
  obtain ⟨-, hx, hsh, -, -, -⟩ := h
  unfold Slot.landed at hx hsh
  rw [hd] at hx hsh
  exact ⟨hx, hsh⟩

/-- An answer of one value fills its register alone. -/
theorem Landed.writes {v : Word} {d : BitVec 7} (h : Landed s t f [v]) (hd : f.dst = some d) (hok : s.me.regOk d.toNat = true) :
    Writes s t d (extend f.ext v) := by
  have hl : s.me.landed f [v] = s.me.wx d (extend f.ext v) := by
    simp [Slot.landed, hd, Slot.wxs]
  refine ⟨?_, fun r hr hne => ?_⟩
  · rw [h.rx, hl, Slot.rx_wx_same]
  · rw [h.rx, hl, Slot.rx_wx_other _ _ hok hr hne]
    rfl

/-- The slot of the strand as its answer leaves it. -/
def answered (s : State) (f : InFlight) (vals : List Word) : State :=
  s.setMe { s.me.landed f vals with nextTick := s.base + 16 * (1 + f.st.toNat) * tickLen s.coreId, pc := s.me.pc + BitVec.ofNat 64 f.bytes,
                                    wait := .none, inFlight := none, lines := [] }

theorem answered_landed (s : State) (f : InFlight) (vals : List Word) : Landed s (answered s f vals) f vals := by
  have hr := Slot.RegsOnly.landed s.me f vals
  refine ⟨?_, ?_, ?_, ?_, fun id hid => s.slot_setMe_other _ hid, KeepsCores.of_cores rfl⟩
  · simp [GoesOn, answered]
  · simp [answered]
  · simp [answered]
  · unfold KeepsStrand answered
    rw [State.me_setMe, hr]

theorem answered_keepsStore (s : State) (f : InFlight) (vals : List Word) : KeepsStore s (answered s f vals) := ⟨rfl, rfl, rfl⟩

/-- After the registers, an answer sees to the L1: an acquire, and the word that it wrote. -/
def answerL1 (s : State) (f : InFlight) : State :=
  let u := if f.acquire then s.acquire s.coreId else s
  f.wrote.elim u (u.l1Atomic s.coreId)

theorem answerL1_aside (s : State) (f : InFlight) : Aside s (answerL1 s f) ∧ KeepsStore s (answerL1 s f) := by
  have hu : Aside s (if f.acquire then s.acquire s.coreId else s) ∧ KeepsStore s (if f.acquire then s.acquire s.coreId else s) := by
    split
    · exact ⟨acquire_aside s _, acquire_keepsStore s _⟩
    · exact ⟨Aside.refl s, KeepsStore.refl s⟩
  unfold answerL1
  dsimp only
  generalize (if f.acquire then s.acquire s.coreId else s) = u at hu
  obtain ⟨ha, hk⟩ := hu
  cases f.wrote with
  | none => exact ⟨ha, hk⟩
  | some pa =>
    obtain ⟨ha', hk'⟩ := l1Atomic_aside u s.coreId pa
    exact ⟨ha.trans ha', hk.trans hk'⟩

theorem deliver_eq {r : Reply} (hr : r.refusal = none) (ht : r.trapWriter = false) (hf : f.fill = false)
    (hd : ∀ d, f.dst = some d → s.me.runBad d r.vals.length = none) :
    s.deliver s.cur f r = answerL1 (s.setMe { s.me.landed f r.vals with pc := s.me.pc + BitVec.ofNat 64 f.bytes, wait := .none, inFlight := none, lines := [] }) f := by
  have hn : (f.dst.bind fun d => (s.slot s.cur).runBad d r.vals.length) = none := by
    cases h : f.dst with
    | none => rfl
    | some d => exact hd d h
  unfold State.deliver answerL1 Slot.landed
  simp only [hr, hn, ht, hf, Bool.false_and, Bool.false_eq_true, if_false]
  cases f.dst <;> cases f.wrote <;> rfl

theorem reply_eq {r : Reply} (hr : r.refusal = none) (ht : r.trapWriter = false) (hf : f.fill = false)
    (hd : ∀ d, f.dst = some d → s.me.runBad d r.vals.length = none) : s.reply f r = answerL1 (answered s f r.vals) f := by
  have hme : (s.leave f.st).me = { s.me with nextTick := s.base + 16 * (1 + f.st.toNat) * tickLen s.coreId } := State.me_setMe s _
  have hset : ∀ v : Slot, (s.leave f.st).setMe v = s.setMe v := fun v => State.setSlot_setSlot s s.cur _ v
  have hx := deliver_eq (s := s.leave f.st) hr ht hf (by rw [hme]; exact hd)
  rw [hset, hme, Slot.landed_nextTick] at hx
  exact hx

/-- The answer to the strand's access completes its instruction and leaves memory. -/
theorem reply_landed {r : Reply} (hr : r.refusal = none) (ht : r.trapWriter = false) (hf : f.fill = false)
    (hd : ∀ d, f.dst = some d → s.me.runBad d r.vals.length = none) :
    Landed s (s.reply f r) f r.vals ∧ KeepsStore s (s.reply f r) := by
  rw [reply_eq hr ht hf hd]
  obtain ⟨ha, hk⟩ := answerL1_aside (answered s f r.vals) f
  exact ⟨(answered_landed s f r.vals).after ha, (answered_keepsStore s f r.vals).trans hk⟩

end

end Sys2Proof.Claims
end

section
/-! Accesses served at their homes (04 R86 to R101): what a home consults, what it changes, and the access of a strand that it serves at once. -/

namespace Sys2Proof.Machine

/-! ## What a home consults -/

/-- Nothing that a home consults differs: bytes, FE bits, marks, waiters, gangs and jobs are the same. -/
def HomeSame (s t : State) : Prop :=
  t = { s with cores := t.cores, clusters := t.clusters, agenda := t.agenda, fresh := t.fresh, owners := t.owners, resident := t.resident, side := t.side,
               timed := t.timed, nextTimed := t.nextTimed }

theorem HomeSame.trans {s t u : State} (h : HomeSame s t) (h' : HomeSame t u) : HomeSame s u := by
  unfold HomeSame at *
  rw [h']; conv_lhs => rw [h]

section
variable {s t : State} {op : MemOp} {pa : Nat}

theorem HomeSame.of_leaves (h : CoresAndClusters s t) : HomeSame s t := by
  unfold CoresAndClusters at h
  unfold HomeSame
  rw [h]

theorem HomeSame.of_slice (h : SliceOnly s t) : HomeSame s t := by
  unfold SliceOnly at h
  unfold HomeSame
  rw [h]

theorem HomeSame.setCore (s : State) (c : Nat) (k : Core) : HomeSame s (s.setCore c k) := rfl

theorem HomeSame.mem (h : HomeSame s t) : t.mem = s.mem := by rw [h]
theorem HomeSame.fe (h : HomeSame s t) : t.fe = s.fe := by rw [h]
theorem HomeSame.drLines (h : HomeSame s t) : t.drLines = s.drLines := by rw [h]
theorem HomeSame.retries (h : HomeSame s t) : t.retries = s.retries := by rw [h]
theorem HomeSame.parkMarks (h : HomeSame s t) : t.parkMarks = s.parkMarks := by rw [h]
theorem HomeSame.myGang (h : HomeSame s t) : t.myGang = s.myGang := by rw [h]; rfl
theorem HomeSame.feBit (h : HomeSame s t) (q : Nat) : t.feBit q = s.feBit q := by rw [State.feBit, h.fe]; rfl
theorem HomeSame.homeWord (h : HomeSame s t) (q : Nat) : t.homeWord q = s.homeWord q := by rw [State.homeWord, h.mem]; rfl
theorem HomeSame.drKind (h : HomeSame s t) (q : Nat) : t.drKind q = s.drKind q := by rw [State.drKind, h.drLines]; rfl
theorem HomeSame.drAcc (h : HomeSame s t) (k : DrKind) (q : Nat) : t.drAcc k q = s.drAcc k q := by rw [State.drAcc, h.mem]; rfl
theorem HomeSame.timedHome (h : HomeSame s t) (q : Nat) : t.timedHome q = s.timedHome q := by rw [h]; rfl
theorem HomeSame.homeRefusal (h : HomeSame s t) (isPrivate : Bool) : t.homeRefusal op pa isPrivate = s.homeRefusal op pa isPrivate := by
  rw [h]; rfl

end

/-! ## What a write to HBM changes (08 R157; 25 R398) -/

/-- Nothing but the agenda differs. -/
def AgendaOnly (s t : State) : Prop := t = { s with agenda := t.agenda }

theorem AgendaOnly.trans {s t u : State} (h : AgendaOnly s t) (h' : AgendaOnly t u) : AgendaOnly s u := by
  unfold AgendaOnly at *
  rw [h']; conv_lhs => rw [h]

theorem State.foldl_noteScale (l : List Nat) : ∀ s : State, AgendaOnly s (l.foldl (fun (u : State) w => u.noteScale w) s) := by
  induction l with
  | nil => exact fun _ => rfl
  | cons w l ih =>
    intro s
    have hw : AgendaOnly s (s.noteScale w) := by
      unfold State.noteScale
      split <;> rfl
    exact hw.trans (ih _)

/-- Bytes, damage marks, reduction lines and the agenda are all that differs. -/
def StoreOnly (s t : State) : Prop := t = { s with mem := t.mem, bad := t.bad, drLines := t.drLines, agenda := t.agenda }

theorem State.hbmWrite_storeOnly (s : State) (pa v n : Nat) : StoreOnly s (s.hbmWrite pa v n) := by
  unfold StoreOnly State.hbmWrite
  rw [State.foldl_noteScale _ _]

@[simp] theorem State.mem_hbmWrite (s : State) (pa v n : Nat) : (s.hbmWrite pa v n).mem = memWrite s.mem pa v n := by
  unfold State.hbmWrite
  rw [State.foldl_noteScale _ _]

@[simp] theorem State.drLines_hbmWrite (s : State) (pa v n : Nat) : (s.hbmWrite pa v n).drLines = s.drLines := by
  unfold State.hbmWrite
  rw [State.foldl_noteScale _ _]

/-- The data transfer at a home touches no more than the word's bytes and, for DRINIT, the line's mark. -/
theorem State.homeData_storeOnly (s : State) (op : MemOp) (pa : Nat) (data data2 : Word) (acc : List Word) :
    StoreOnly s (s.homeData op pa data data2 acc).2 := by
  cases op with
  | load n => unfold State.homeData; dsimp only; split <;> rfl
  | cas => unfold State.homeData; dsimp only; split; exacts [s.hbmWrite_storeOnly _ _ _, rfl]
  | dred f => unfold State.homeData; dsimp only; split; exacts [s.hbmWrite_storeOnly _ _ _, rfl]
  | dread f => unfold State.homeData; dsimp only; split <;> rfl
  | drinit k =>
    have h := s.hbmWrite_storeOnly (lineAddr pa) 0 64
    unfold State.homeData StoreOnly at *
    dsimp only
    conv_lhs => rw [h]
  | store | stfe | atom | fadd32 | fadd64 => exact s.hbmWrite_storeOnly _ _ _
  | fetch | watch | ldfe | feq | feset => rfl

/-- What a home returns and leaves depends on nothing that it does not consult. -/
theorem HomeSame.homeData {s t : State} (h : HomeSame s t) (op : MemOp) (pa : Nat) (data data2 : Word) (acc : List Word) :
    (t.homeData op pa data data2 acc).1 = (s.homeData op pa data data2 acc).1 ∧
      (t.homeData op pa data data2 acc).2.mem = (s.homeData op pa data data2 acc).2.mem ∧
      (t.homeData op pa data data2 acc).2.drLines = (s.homeData op pa data data2 acc).2.drLines := by
  have hw : ∀ a v n, (t.hbmWrite a v n).mem = (s.hbmWrite a v n).mem := fun a v n => by simp [h.mem]
  have hd : ∀ a v n, (t.hbmWrite a v n).drLines = (s.hbmWrite a v n).drLines := fun a v n => by simp [h.drLines]
  unfold State.homeData
  rw [h.homeWord, h.feBit, h.mem, h.drKind]
  cases op with
  | load n => dsimp only; split <;> exact ⟨rfl, h.mem, h.drLines⟩
  | cas => dsimp only; split; exacts [⟨rfl, hw _ _ _, hd _ _ _⟩, ⟨rfl, h.mem, h.drLines⟩]
  | dred f =>
    dsimp only
    cases s.drKind pa with
    | none => exact ⟨rfl, h.mem, h.drLines⟩
    | some k => simp only [State.setDrAcc, h.drAcc]; exact ⟨trivial, hw _ _ _, hd _ _ _⟩
  | dread f => 
    dsimp only
    cases s.drKind pa with
    | none => exact ⟨rfl, h.mem, h.drLines⟩
    | some k => simp only [h.drAcc]; exact ⟨trivial, h.mem, h.drLines⟩
  | drinit k => exact ⟨rfl, hw _ _ _, by simp only [h.drLines]⟩
  | fetch => exact ⟨by rw [h]; rfl, h.mem, h.drLines⟩
  | store | stfe | atom | fadd32 | fadd64 => exact ⟨rfl, hw _ _ _, hd _ _ _⟩
  | watch | ldfe | feq | feset => exact ⟨rfl, h.mem, h.drLines⟩

end Sys2Proof.Machine
end

section
/-! The service of an access at its home, and the access of a strand that is served in the step that issues it (04 R86 to R101). -/

namespace Sys2Proof.Machine

/-! ## FE bits (04 R86) -/

theorem mem_natInsert {l : List Nat} {a x : Nat} : x ∈ natInsert l a ↔ x = a ∨ x ∈ l := by
  induction l with
  | nil => simp [natInsert]
  | cons k r ih =>
    rw [natInsert]
    split
    · simp
    · simp only [List.mem_cons, ih]; exact or_left_comm

theorem State.feBit_setFe (s : State) (pa q : Nat) (b : Bool) :
    (s.setFe pa b).feBit q = if wordAddr q = wordAddr pa then b else s.feBit q := by
  have hl : wordAddr q ∈ s.fe.filter (fun w => w != wordAddr pa) ↔ wordAddr q ∈ s.fe ∧ wordAddr q ≠ wordAddr pa := by simp
  rw [Bool.eq_iff_iff]
  cases b with
  | true =>
    simp only [State.feBit, State.setFe, if_true, List.contains_iff_mem, mem_natInsert, hl]
    by_cases h : wordAddr q = wordAddr pa <;> simp [h]
  | false =>
    simp only [State.feBit, State.setFe, Bool.false_eq_true, if_false, List.contains_iff_mem, hl]
    by_cases h : wordAddr q = wordAddr pa <;> simp [h]

/-! ## Ownership, lockstep and damage marks (07 R128; 26 R411; 25 R398) -/

theorem State.register_sliceOnly (s : State) (pa own : Nat) : SliceOnly s (s.register pa own) := by
  unfold State.register
  dsimp only
  split
  · split
    · rfl
    · exact (SliceOnly.setOwners s _).trans (State.revoke_sliceOnly _ _ _)
  · rfl

theorem State.foldl_register (o : Nat) (l : List Nat) : ∀ s : State, SliceOnly s (l.foldl (fun (u : State) w => u.register w o) s) := by
  induction l with
  | nil => exact SliceOnly.refl
  | cons w l ih => exact fun s => (s.register_sliceOnly w o).trans (ih _)

theorem State.registerFor_sliceOnly (s : State) (op : MemOp) (pa : Nat) (own : Option Nat) : SliceOnly s (s.registerFor op pa own) := by
  unfold State.registerFor
  split
  · split
    · exact State.foldl_register _ _ s
    · exact State.revokeWords_sliceOnly _ s
  · exact SliceOnly.refl s

/-- Jobs, events for the host and packets are all that differs. -/
def EventsOnly (s t : State) : Prop :=
  t = { s with jobs := t.jobs, agenda := t.agenda, out := t.out, evqTail := t.evqTail, evHeld := t.evHeld, evLost := t.evLost }

theorem EventsOnly.refl (s : State) : EventsOnly s s := rfl

theorem EventsOnly.trans {s t u : State} (h : EventsOnly s t) (h' : EventsOnly t u) : EventsOnly s u := by
  unfold EventsOnly at *
  rw [h']; conv_lhs => rw [h]

theorem EventsOnly.setJob (s : State) (j : Nat) (v : Job) : EventsOnly s (s.setJob j v) := rfl

theorem State.startAbort_eventsOnly (s : State) (j source detail : Nat) : EventsOnly s (s.startAbort j source detail) := by
  unfold State.startAbort
  dsimp only
  split
  · rfl
  · split <;> rfl

theorem State.postEvent_eventsOnly (s : State) (kind job : Nat) (d1 d2 d3 : Word) : EventsOnly s (s.postEvent kind job d1 d2 d3) := by
  unfold State.postEvent
  dsimp only
  split
  · rfl
  · split <;> rfl

theorem State.lockMismatch_eventsOnly (s : State) (a b home idx pa pb : Nat) : EventsOnly s (s.lockMismatch a b home idx pa pb) := by
  unfold State.lockMismatch
  exact ((((EventsOnly.setJob s _ _).trans (EventsOnly.setJob _ _ _)).trans (State.startAbort_eventsOnly _ _ _ _)).trans
    (State.startAbort_eventsOnly _ _ _ _)).trans (State.postEvent_eventsOnly _ _ _ _ _ _)

theorem State.lockStore_eventsOnly (s : State) (j idx pa n v : Nat) : EventsOnly s (s.lockStore j idx pa n v) := by
  unfold State.lockStore
  split
  · exact EventsOnly.refl s
  · next first _ =>
    cases first
    all_goals
      simp only [if_true, Bool.false_eq_true, if_false]
      split
      · exact EventsOnly.setJob s _ _
      · split
        · exact EventsOnly.setJob s _ _
        · exact s.lockMismatch_eventsOnly _ _ _ _ _ _

/-- Gangs and logs are all that differs. -/
def MarksOnly (s t : State) : Prop := t = { s with gangs := t.gangs, logs := t.logs, logLost := t.logLost }

theorem State.logError_marksOnly (s : State) (ring : Nat) (e : Word) : MarksOnly s (s.logError ring e) := by
  unfold State.logError
  dsimp only
  split
  · rfl
  · split <;> rfl

theorem State.markDamage_marksOnly (s : State) (op : MemOp) (pa : Nat) : MarksOnly s (s.markDamage op pa) := by
  have h : MarksOnly s (s.logHbm pa) := s.logError_marksOnly _ _
  unfold State.markDamage State.markDamageOf
  split
  · unfold MarksOnly at *
    rw [State.setGang, h]
  · rfl

/-! ## Waiters (04 R87, R88) -/

/-- A change of an FE bit that nothing waits for sets nothing off. -/
theorem State.feChanged_unwatched {s : State} {w : Nat} (h : ∀ r ∈ s.retries, r.addr ≠ w) : s.feChanged w = s := by
  have hf : s.feFirst w = none := by
    unfold State.feFirst
    exact List.find?_eq_none.mpr fun r hr => by simp [h r hr]
  have hscan : ∀ n, s.feScan w n = s := fun n => by
    cases n with
    | zero => rfl
    | succ n => rw [State.feScan, hf]
  have hnone : s.retries.filter (fun r => r.addr == w && !r.op.isWatch && !r.parking && decide (15 ≤ r.count)) = [] :=
    List.filter_eq_nil_iff.mpr fun r hr => by simp [h r hr]
  have hsame : (s.retries.map fun r =>
      if r.addr = w then { r with count := r.count + 1, parking := r.parking || (!r.op.isWatch && decide (15 ≤ r.count)) } else r) = s.retries := by
    conv_rhs => rw [← List.map_id s.retries]
    exact List.map_congr_left fun r hr => if_neg (h r hr)
  rw [State.feChanged, hscan, State.feCount, hnone, hsame]
  rfl

end Sys2Proof.Machine

namespace Sys2Proof.Claims

open Sys2Proof.Machine

section
variable {s t u : State} {op : MemOp} {pa : Nat} {data data2 : Word} {acc : List Word}

theorem Aside.of_storeOnly (h : StoreOnly s t) : Aside s t := by
  unfold StoreOnly at h
  exact ⟨by rw [h], by rw [h], by rw [h], KeepsCores.of_cores (by rw [h])⟩

theorem Aside.of_events (h : EventsOnly s t) : Aside s t := by
  unfold EventsOnly at h
  exact ⟨by rw [h], by rw [h], by rw [h], KeepsCores.of_cores (by rw [h])⟩

theorem KeepsStore.of_events (h : EventsOnly s t) : KeepsStore s t := by
  unfold EventsOnly at h
  exact ⟨by rw [h], by rw [h], by rw [h]⟩

theorem Aside.of_marks (h : MarksOnly s t) : Aside s t := by
  unfold MarksOnly at h
  exact ⟨by rw [h], by rw [h], by rw [h], KeepsCores.of_cores (by rw [h])⟩

theorem KeepsStore.of_marks (h : MarksOnly s t) : KeepsStore s t := by
  unfold MarksOnly at h
  exact ⟨by rw [h], by rw [h], by rw [h]⟩

/-! ## The service at the home -/

/-- What a home that serves an access leaves: the bytes of its data transfer, and the FE value of its mode at its word. -/
structure HomeDone (s : State) (op : MemOp) (pa : Nat) (data data2 : Word) (acc : List Word) (t : State) : Prop where
  mem : t.mem = (s.homeData op pa data data2 acc).2.mem
  drLines : t.drLines = (s.homeData op pa data data2 acc).2.drLines
  feBit : ∀ q, t.feBit q = if wordAddr q = wordAddr pa then op.feAfter (s.feBit pa) else s.feBit q
  fe : op.feAfter (s.feBit pa) = s.feBit pa → t.fe = s.fe

theorem HomeDone.after (h : HomeDone s op pa data data2 acc t) (hk : KeepsStore t u) : HomeDone s op pa data data2 acc u :=
  ⟨hk.mem.trans h.mem, hk.drLines.trans h.drLines, fun q => by rw [State.feBit, hk.fe]; exact h.feBit q, fun hq => hk.fe.trans (h.fe hq)⟩

theorem HomeDone.before (hs : HomeSame s u) (h : HomeDone u op pa data data2 acc t) : HomeDone s op pa data data2 acc t := by
  obtain ⟨-, hmem, hdr⟩ := hs.homeData op pa data data2 acc
  refine ⟨h.mem.trans hmem, h.drLines.trans hdr, fun q => ?_, fun hq => ?_⟩
  · rw [h.feBit, hs.feBit, hs.feBit]
  · exact (h.fe (by rwa [hs.feBit])).trans hs.fe

/-- An access leaves the FE bit, or nothing waits for its word. -/
def Undisturbed (s : State) (op : MemOp) (pa : Nat) : Prop := op.feAfter (s.feBit pa) = s.feBit pa ∨ Unwatched s pa

theorem Undisturbed.of_same (hs : HomeSame s u) (h : Undisturbed s op pa) : Undisturbed u op pa := by
  unfold Undisturbed Unwatched at *
  rwa [hs.feBit, hs.retries, hs.parkMarks]

/-- The state of a home after an access, before its waiters are looked at. -/
def performed (s : State) (op : MemOp) (pa : Nat) (data data2 : Word) (acc : List Word) (own : Option Nat) : State :=
  let r := (s.homeData op pa data data2 acc).2
  (if s.feBit pa = op.feAfter (s.feBit pa) then r else r.setFe pa (op.feAfter (s.feBit pa))).registerFor op pa own

theorem homePerform_eq (own : Option Nat) (h : Undisturbed s op pa) :
    s.homePerform op pa data data2 acc own = ((s.homeData op pa data data2 acc).1, false, performed s op pa data data2 acc own) := by
  have hd := s.homeData_storeOnly op pa data data2 acc
  have hp : (s.homeData op pa data data2 acc).2.parkMarks = s.parkMarks := by rw [hd]
  unfold State.homePerform performed
  dsimp only
  by_cases hf : s.feBit pa = op.feAfter (s.feBit pa)
  · simp [← hf]
  · have hm : s.parkMarks.contains (wordAddr pa) = false := (h.resolve_left (Ne.symm hf)).2
    have hb : (s.feBit pa != op.feAfter (s.feBit pa)) = true := by simpa using hf
    have hc : ((s.homeData op pa data data2 acc).2.setFe pa (op.feAfter (s.feBit pa))).parkMarks.contains (wordAddr pa) = false := by
      change (s.homeData op pa data data2 acc).2.parkMarks.contains (wordAddr pa) = false
      rwa [hp]
    simp only [hb, hf, if_true, if_false, hc, Bool.and_false, Bool.false_eq_true]

theorem performed_done (s : State) (op : MemOp) (pa : Nat) (data data2 : Word) (acc : List Word) (own : Option Nat) :
    Aside s (performed s op pa data data2 acc own) ∧ HomeDone s op pa data data2 acc (performed s op pa data data2 acc own) := by
  have hd := s.homeData_storeOnly op pa data data2 acc
  have hfe : (s.homeData op pa data data2 acc).2.fe = s.fe := by rw [hd]
  have hbit : ∀ q, (s.homeData op pa data data2 acc).2.feBit q = s.feBit q := fun q => by rw [State.feBit, hfe]; rfl
  have hslice := State.registerFor_sliceOnly
    (if s.feBit pa = op.feAfter (s.feBit pa) then (s.homeData op pa data data2 acc).2
      else (s.homeData op pa data data2 acc).2.setFe pa (op.feAfter (s.feBit pa))) op pa own
  refine ⟨Aside.trans ?_ (Aside.of_slice hslice), HomeDone.after ?_ (KeepsStore.of_slice hslice)⟩
  · split
    · exact Aside.of_storeOnly hd
    · exact (Aside.of_storeOnly hd).trans ⟨rfl, rfl, rfl, KeepsCores.refl _⟩
  split
  · next h =>
    refine ⟨rfl, rfl, fun q => ?_, fun _ => hfe⟩
    rw [hbit, ← h]
    split
    · next hq => rw [State.feBit, hq]; rfl
    · rfl
  · next h =>
    refine ⟨rfl, rfl, fun q => ?_, fun hq => absurd hq.symm h⟩
    rw [State.feBit_setFe, hbit]

theorem retries_performed (own : Option Nat) : (performed s op pa data data2 acc own).retries = s.retries := by
  have hd := s.homeData_storeOnly op pa data data2 acc
  have hr : (s.homeData op pa data data2 acc).2.retries = s.retries := by rw [hd]
  unfold performed
  dsimp only
  rw [State.registerFor_sliceOnly _ op pa own]
  split <;> exact hr

theorem serve_eq (own : Option Nat) {isPrivate : Bool} (hr : s.homeRefusal op pa isPrivate = none) (hs : op.servable (s.feBit pa) = true)
    (hq : Undisturbed s op pa) : s.serve op pa data data2 acc own isPrivate =
      .done (s.homeData op pa data data2 acc).1 false (performed (s.bringIn pa) op pa data data2 acc own) := by
  have hb := HomeSame.of_slice (s.bringIn_sliceOnly pa)
  have hq' := hq.of_same hb
  have hv := (hb.homeData op pa data data2 acc).1
  have hs' : op.servable ((s.bringIn pa).feBit pa) = true := by rwa [hb.feBit]
  have hr' : (s.bringIn pa).homeRefusal op pa isPrivate = none := by rwa [hb.homeRefusal]
  have hbit := (performed_done (s.bringIn pa) op pa data data2 acc own).2.feBit pa
  have hret := retries_performed (s := s.bringIn pa) (op := op) (pa := pa) (data := data) (data2 := data2) (acc := acc) own
  unfold State.serve
  simp only [hr', hs', if_true, homePerform_eq own hq', hv]
  generalize performed (s.bringIn pa) op pa data data2 acc own = t at *
  split
  · next hc =>
    obtain hsame | hun := hq'
    · rw [hbit, if_pos rfl, hsame] at hc
      simp at hc
    · rw [State.feChanged_unwatched fun r hr => hun.1 r (hret ▸ hr)]
  · rfl

theorem serve_done (own : Option Nat) {isPrivate : Bool} (hr : s.homeRefusal op pa isPrivate = none) (hs : op.servable (s.feBit pa) = true)
    (hq : Undisturbed s op pa) : ∃ t, s.serve op pa data data2 acc own isPrivate = .done (s.homeData op pa data data2 acc).1 false t ∧
      Aside s t ∧ HomeDone s op pa data data2 acc t := by
  have hb := s.bringIn_sliceOnly pa
  obtain ⟨ha, hd⟩ := performed_done (s.bringIn pa) op pa data data2 acc own
  exact ⟨_, serve_eq own hr hs hq, (Aside.of_slice hb).trans ha, hd.before (HomeSame.of_slice hb)⟩

/-! ## The access of a strand that its home serves at once -/

/-- The strand's access as its answer finds it: the word it wrote, for the L1, and the address it reached. -/
def reached (f : InFlight) (op : MemOp) (pa : Nat) : InFlight := { f with wrote := if op.registers then some pa else none, pa := pa }

theorem atHome_reply (f : InFlight) (va : Word) (table : Bool) (hr : s.homeRefusal op pa s.myGang.confined = none)
    (hs : op.servable (s.feBit pa) = true) (hq : Undisturbed s op pa) :
    ∃ t, s.atHome f op va pa data data2 acc table =
        t.reply (reached f op pa) { vals := (s.homeData op pa data data2 acc).1, trapWriter := false, addr := va } ∧
      Aside s t ∧ HomeDone s op pa data data2 acc t := by
  have htl := s.tableOp_tlbs table op (.slot s.cur)
  have hsame := HomeSame.of_leaves htl.leaves
  obtain ⟨t, hx, ha, ht⟩ := serve_done (s := s.tableOp table op (.slot s.cur)) (op := op) (pa := pa) (data := data) (data2 := data2) (acc := acc)
    (some (s.ownerId s.coreId)) (by rw [hsame.homeRefusal]; exact hr) (by rw [hsame.feBit]; exact hs) (hq.of_same hsame)
  rw [(hsame.homeData op pa data data2 acc).1] at hx
  replace ht := ht.before hsame
  replace ha := (Aside.of_tlbs htl).trans ha
  have hlock : ∃ u, Aside s u ∧ HomeDone s op pa data data2 acc u ∧ s.atHome f op va pa data data2 acc table =
      (u.markDamage op pa).reply (reached f op pa) { vals := (s.homeData op pa data data2 acc).1, trapWriter := false, addr := va } := by
    unfold State.atHome
    rw [hx]
    cases op with
    | stfe m =>
      have hl := t.lockStore_eventsOnly s.myGang.job s.me.index pa 8 data.toNat
      exact ⟨_, ha.trans (Aside.of_events hl), ht.after (KeepsStore.of_events hl), rfl⟩
    | _ => exact ⟨t, ha, ht, rfl⟩
  obtain ⟨u, hau, hu, hx⟩ := hlock
  have hm := u.markDamage_marksOnly op pa
  exact ⟨_, hx, hau.trans (Aside.of_marks hm), hu.after (KeepsStore.of_marks hm)⟩

/-- Such an access completes its instruction. -/
theorem atHome_done {f : InFlight} (va : Word) (table : Bool) (hr : s.homeRefusal op pa s.myGang.confined = none)
    (hs : op.servable (s.feBit pa) = true) (hq : Undisturbed s op pa) (hf : f.fill = false)
    (hd : ∀ d, f.dst = some d → s.me.runBad d (s.homeData op pa data data2 acc).1.length = none) :
    Landed s (s.atHome f op va pa data data2 acc table) f (s.homeData op pa data data2 acc).1 ∧
      HomeDone s op pa data data2 acc (s.atHome f op va pa data data2 acc table) := by
  obtain ⟨u, hx, ha, hu⟩ := atHome_reply (data := data) (data2 := data2) (acc := acc) f va table hr hs hq
  obtain ⟨hl, hk⟩ := reply_landed (s := u) (f := reached f op pa)
    (r := { vals := (s.homeData op pa data data2 acc).1, trapWriter := false, addr := va }) rfl rfl hf (by rw [ha.me]; exact hd)
  rw [hx]
  exact ⟨Landed.before ha ⟨hl.goes, hl.x, hl.shadow, hl.strand, hl.slots, hl.cores⟩, hu.after hk⟩

end

end Sys2Proof.Claims
end

section
/-! Loads (04 R80 to R82; 07 R127): from local memory, from the L1, and from the home. -/

namespace Sys2Proof.Machine

theorem State.withBank_won {s u : State} {pa : Nat} (k : State → State) (h : s.winBank pa = some u) : s.withBank pa k = k u := by
  rw [State.withBank, h]

/-- The router of a core and the timed channel judge a window access by its job alone. -/
theorem TlbsOnly.window {s t : State} (h : TlbsOnly s t) (c : Nat) : t.foreign c = s.foreign c ∧ t.timedPort c = s.timedPort c := by
  rw [h.leaves]
  exact ⟨rfl, rfl⟩

theorem TlbsOnly.damagedLocal {s t : State} (h : TlbsOnly s t) (pa n : Nat) : t.damagedLocal pa n = s.damagedLocal pa n := by
  rw [h.leaves]
  rfl

/-- A load of local memory takes its bank, as KeepsCores allows, and is answered with the bytes there. -/
theorem State.doLoad_local {s : State} {f : InFlight} {n : Nat} {va : Word} {p : Place} {pa : Nat} (l1 : Bool)
    (hr : Claims.Reaches s n va .read p) (hl : p.isLocal = true) (hp : Claims.placeAddr p = some pa) (hu : Claims.Unhindered s p)
    (hd : s.damagedLocal pa n = false) :
    ∃ u, Claims.Aside s u ∧ Claims.KeepsStore s u ∧ s.doLoad f n va l1 = u.reply f { vals := [BitVec.ofNat 64 (memRead s.mem pa n)] } := by
  obtain ⟨ha, ht⟩ := hr
  unfold State.doLoad
  rw [State.reach_ok _ ha ht hp rfl (by simp)]
  cases p with
  | ownMem q =>
    obtain rfl : q = pa := Option.some.inj hp
    obtain ⟨u, hw⟩ := Option.isSome_iff_exists.mp hu
    have hclaim := State.winBank_eq hw
    have hd' : u.damagedLocal q n = false := by rw [hclaim]; exact hd
    dsimp only
    rw [State.fillTlb_of_ownMem ht, State.withBank_won _ hw, hd']
    rw [hclaim]
    exact ⟨_, Claims.claim_aside _ _ _, Claims.claim_keepsStore _ _ _, rfl⟩
  | window q c =>
    obtain rfl : q = pa := Option.some.inj hp
    obtain ⟨hfor, htim, hfree⟩ := hu
    have hf := s.fillTlb_tlbs s.coreId s.myGang.job va
    have hfree' := (hf.portFree c q).trans hfree
    obtain ⟨hfor', htim'⟩ := hf.window c
    have hd' := (hf.damagedLocal q n).trans hd
    have hmem := hf.leaves.mem
    have ha := Claims.Aside.of_tlbs hf
    have hk := Claims.KeepsStore.of_tlbs hf
    generalize s.fillTlb s.coreId s.myGang.job va = u at *
    have hd2 : (u.portClaim c q 0).damagedLocal q n = false := hd'
    dsimp only
    rw [hfor', hfor, htim', htim, hfree', hd2]
    exact ⟨_, ha.trans (Claims.claim_aside _ _ _), hk.trans (Claims.claim_keepsStore _ _ _), by rw [← hmem]; rfl⟩
  | hbm => cases hl
  | remote => cases hl
  | xlat => cases hl
  | prot => cases hl

end Sys2Proof.Machine

namespace Sys2Proof.Claims

open Sys2Proof.Machine

/-- The access in flight of a load. -/
def Load.flight (f : Load) : InFlight := Machine.flight (some f.dest) f.ext f.bytes f.st f.acq

/-- What all loads share: their destination is among their registers, they fill at most a register, and their checks lead to one operation. -/
structure Load.Runs (f : Load) (s : State) : Prop where
  dest : f.dest ∈ f.regs
  size : f.size ≤ 8
  ext : f.ext ≤ 64
  exec : Settled s f.regs → exec f.instr s = .next (s.doLoad f.flight f.size f.addr f.l1)

theorem loads_run (s : State) (d a b : BitVec 7) (d' a' : BitVec 4) (o : BitVec 6) (o' : BitVec 3) (st : BitVec 2) :
    ∀ f ∈ loads s d a b d' a' o o' st, f.Runs s := by
  simp only [loads, List.forall_mem_cons]
  refine ⟨?_, ?_, ?_, ?_, ?_, ?_, ?_, ?_, ?_, ?_, List.forall_mem_nil _⟩
  all_goals exact ⟨List.mem_cons_self, by simp, by simp, fun h => congrArg Host.Outcome.next (h.guarded _)⟩

theorem extend_ofNat {ext : Nat} (h : ext ≤ 64) (v : Nat) :
    extend ext (BitVec.ofNat 64 v) = if ext = 0 then BitVec.ofNat 64 v else (BitVec.ofNat ext v).signExtend 64 := by
  have hv : BitVec.ofNat ext (BitVec.ofNat 64 v).toNat = BitVec.ofNat ext v := by
    apply BitVec.eq_of_toNat_eq
    simp only [BitVec.toNat_ofNat]
    exact Nat.mod_mod_of_dvd v (Nat.pow_dvd_pow 2 h)
  rw [extend, sextN, hv]

section
variable {s u t : State} {f : Load} {v : Nat}

/-- A load that is answered with a value gives it. -/
theorem Load.gives_of_landed (hf : f.Runs s) (hs : Settled s f.regs) (hx : exec f.instr s = .next t) (hl : Landed s t f.flight [BitVec.ofNat 64 v])
    (hm : KeepsMemory s t) : f.Gives s v := by
  refine ⟨t, hx, ?_, hl.goes, hl.strand, hl.slots, hm, hl.cores⟩
  have hw := hl.writes (d := f.dest) rfl (hs.regOk hf.dest)
  rwa [show f.flight.ext = f.ext from rfl, extend_ofNat hf.ext] at hw

theorem Load.gives_of_reply (hf : f.Runs s) (hs : Settled s f.regs) (ha : Aside s u) (hk : KeepsStore s u)
    (hx : exec f.instr s = .next (u.reply f.flight { vals := [BitVec.ofNat 64 v] })) : f.Gives s v := by
  obtain ⟨hl, hk'⟩ := reply_landed (s := u) (f := f.flight) (r := { vals := [BitVec.ofNat 64 v] }) rfl rfl rfl fun d hd => by
    obtain rfl : f.dest = d := Option.some.inj hd
    rw [ha.me]
    exact Slot.runBad_one (hs.regOk hf.dest)
  exact Load.gives_of_landed hf hs hx (Landed.before ha hl) (hk.trans hk').memory

end

theorem loadsFromLocalMemory : LoadsFromLocalMemory := by
  intro s d a b d' a' o o' st f hf p pa hs hr hl hp hu hd
  have hrun := loads_run s d a b d' a' o o' st f hf
  obtain ⟨u, ha, hk, hx⟩ := State.doLoad_local f.l1 (f := f.flight) hr hl hp hu hd
  exact Load.gives_of_reply hrun hs ha hk (by rw [hrun.exec hs, hx])

/-! ## Loads from HBM -/

section
variable {s : State} {pa n : Nat} {va : Word} {t : Bool}

/-- The word that a load finds in the L1 serving its core, where it may use it. -/
def heldWord (s : State) (l1 : Bool) (pa : Nat) : Option L1Word := if l1 then (s.core (s.l1Core s.coreId pa)).l1Word pa else none

theorem doLoad_hbm (f : InFlight) (l1 : Bool) (hr : Reaches s n va .read (.hbm pa t)) :
    s.doLoad f n va l1 =
      if (heldWord s l1 pa).any (·.valid) then (s.fillTlb s.coreId s.myGang.job va).reply f
        { vals := [BitVec.ofNat 64 (bits (((heldWord s l1 pa).map (·.data)).getD 0) (8 * (pa % 8)) (8 * n))] }
      else if s.timedHome pa then
        (s.fillTlb s.coreId s.myGang.job va).askTimed { f with fill := l1 } (homeEnd (homeOf pa)) (.load n) va pa 0 0 []
      else (if l1 && (s.drKind pa).isNone then (s.fillTlb s.coreId s.myGang.job va).fillLine s.coreId pa
        else s.fillTlb s.coreId s.myGang.job va).atHome f (.load n) va pa 0 0 [] := by
  obtain ⟨ha, ht⟩ := hr
  have hf := s.fillTlb_tlbs s.coreId s.myGang.job va
  have hsame := HomeSame.of_leaves hf.leaves
  unfold State.doLoad heldWord
  rw [State.reach_ok _ ha ht rfl rfl (by simp)]
  dsimp only
  rw [hf.leaves.coreId, hf.l1Core, hf.l1Word, hsame.timedHome, hsame.drKind]

theorem heldWord_of_cached {w : Word} (h : cached s pa = some w) :
    ∃ x : L1Word, heldWord s true pa = some x ∧ x.valid = true ∧ x.data = w := by
  unfold cached at h
  split at h
  · next x hx =>
    split at h
    · next hv => exact ⟨x, hx, hv, Option.some.inj h⟩
    · cases h
  · cases h

theorem not_held_of_uncached {l1 : Bool} (h : l1 = false ∨ cached s pa = none) : (heldWord s l1 pa).any (·.valid) = false := by
  rcases h with rfl | h
  · rfl
  cases l1 with
  | false => rfl
  | true =>
    unfold cached at h
    unfold heldWord
    rw [if_pos rfl]
    split at h
    · next x hx =>
      rw [hx]
      split at h
      · cases h
      · next hv => simpa using hv
    · next hx => rw [hx]; rfl

/-- A word valid in the L1 answers the load. -/
theorem doLoad_of_cached {w : Word} (f : InFlight) (hr : Reaches s n va .read (.hbm pa t)) (h : cached s pa = some w) :
    s.doLoad f n va true = (s.fillTlb s.coreId s.myGang.job va).reply f { vals := [BitVec.ofNat 64 (bits w (8 * (pa % 8)) (8 * n))] } := by
  obtain ⟨x, hx, hv, rfl⟩ := heldWord_of_cached h
  rw [doLoad_hbm f true hr, hx]
  exact if_pos hv

/-- Without one the load goes to its home. -/
theorem doLoad_of_uncached {l1 : Bool} (f : InFlight) (hr : Reaches s n va .read (.hbm pa t)) (h : l1 = false ∨ cached s pa = none)
    (ht : s.timedHome pa = false) : ∃ u, Aside s u ∧ HomeSame s u ∧ s.doLoad f n va l1 = u.atHome f (.load n) va pa 0 0 [] := by
  have htl := s.fillTlb_tlbs s.coreId s.myGang.job va
  rw [doLoad_hbm f l1 hr, not_held_of_uncached h, ht]
  refine ⟨_, ?_, ?_, rfl⟩
  · split
    · exact (Aside.of_tlbs htl).trans (fillLine_aside _ _ _)
    · exact Aside.of_tlbs htl
  · split
    · exact (HomeSame.of_leaves htl.leaves).trans (HomeSame.setCore _ _ _)
    · exact HomeSame.of_leaves htl.leaves

/-- A request of a HEDGE or OPT task is refused less than another's (25 R398). -/
theorem homeRefusal_of_public {op : MemOp} (isPrivate : Bool) (h : s.homeRefusal op pa false = none) : s.homeRefusal op pa isPrivate = none := by
  cases isPrivate with
  | false => exact h
  | true =>
    unfold State.homeRefusal at *
    dsimp only at *
    split_ifs at h with hconflict htile hfe hbad
    rw [if_neg hconflict, if_neg htile, if_neg hfe, if_neg (by simp)]

theorem homeData_load (s : State) (pa : Nat) (h : n ≤ 8) : s.homeData (.load n) pa 0 0 [] = ([BitVec.ofNat 64 (memRead s.mem pa n)], s) := if_pos h

end

theorem loadsFromHbm : LoadsFromHbm := by
  intro s d a b d' a' o o' st f hf t pa hs hr
  have hrun := loads_run s d a b d' a' o o' st f hf
  have htl := s.fillTlb_tlbs s.coreId s.myGang.job f.addr
  refine ⟨fun w hl1 hw => ?_, fun hc ht hh => ?_⟩
  · exact Load.gives_of_reply hrun hs (Aside.of_tlbs htl) (KeepsStore.of_tlbs htl) (by rw [hrun.exec hs, hl1, doLoad_of_cached _ hr hw]; rfl)
  · obtain ⟨u, ha, hsame, hx⟩ := doLoad_of_uncached f.flight hr hc ht
    have hdata := homeData_load u pa hrun.size
    obtain ⟨hl, hdone⟩ := atHome_done (s := u) (op := .load f.size) (pa := pa) (data := 0) (data2 := 0) (acc := []) (f := f.flight) f.addr false
      (by rw [hsame.homeRefusal]; exact homeRefusal_of_public _ hh) rfl (.inl rfl) rfl fun d hd => by
        obtain rfl : f.dest = d := Option.some.inj hd
        rw [hdata, ha.me]
        exact Slot.runBad_one (hs.regOk hrun.dest)
    have hmem := hdone.mem
    rw [hdata] at hl hmem
    rw [hsame.mem] at hl hmem
    exact Load.gives_of_landed hrun hs (by rw [hrun.exec hs, hx]) (hl.before ha) ⟨hmem, (hdone.fe rfl).trans hsame.fe⟩

/-- Settles O3: a load finds its bytes in local memory, in the L1 or at the home, and its answer completes it. -/
theorem loadsGiveTheirBytes : Obligations.Loads := ⟨loadsFromLocalMemory, loadsFromHbm⟩

end Sys2Proof.Claims
end

section
/-! Accesses that the home serves and the strand waits for: how the checks lead to the home, and atomics (04 R92 to R95). -/

namespace Sys2Proof.Machine

theorem State.homeAccess_hbm {s : State} {pa : Nat} {t : Bool} (f : InFlight) (op : MemOp) (va data data2 : Word) (acc : List Word)
    (h : s.timedHome pa = false) : s.homeAccess f op va (.hbm pa t) data data2 acc = s.atHome f op va pa data data2 acc t := by
  rw [State.homeAccess, if_neg (by simp [h])]

end Sys2Proof.Machine

namespace Sys2Proof.Claims

open Sys2Proof.Machine

section
variable {s : State} {f : HomeForm} {pa : Nat}

/-- The state in which a home access of the strand leaves its core: its translation has filled the TLBs. -/
def sent (s : State) (va : Word) : State := s.fillTlb s.coreId s.myGang.job va

theorem sent_tlbs (s : State) (va : Word) : TlbsOnly s (sent s va) := s.fillTlb_tlbs _ _ _
theorem sent_aside (s : State) (va : Word) : Aside s (sent s va) := Aside.of_tlbs (sent_tlbs s va)
theorem sent_same (s : State) (va : Word) : HomeSame s (sent s va) := HomeSame.of_leaves (sent_tlbs s va).leaves

/-- Reaching a home: its place passes the checks, and its packet is not timed. -/
theorem reach_home {n : Nat} {va : Word} {acc : Access} {t : Bool} {writes : Bool} (k : Place → State → State)
    (hr : Reaches s n va acc (.hbm pa t)) (hw : writes = true → s.myGang.confined = false) :
    s.reach n va acc true writes k = k (.hbm pa t) (sent s va) :=
  State.reach_ok k hr.1 hr.2 rfl rfl fun h => by
    change (!s.myGang.confined) = true
    rw [hw h]
    rfl

theorem homeAccess_sent {t : Bool} (fl : InFlight) (op : MemOp) (va data data2 : Word) (acc : List Word) (ht : s.timedHome pa = false) :
    (sent s va).homeAccess fl op va (.hbm pa t) data data2 acc = (sent s va).atHome fl op va pa data data2 acc t :=
  State.homeAccess_hbm fl op va data data2 acc (((sent_same s va).timedHome pa).trans ht)

theorem released_sent {va : Word} (k : State → State) (h : s.me.unacked = []) : (sent s va).released k = k (sent s va) :=
  released_of_acked k (by rw [(sent_aside s va).me]; exact h)

/-- With its checks passed an access goes to its home, and its instruction is that access. -/
def HomeForm.Sends (f : HomeForm) (s : State) (pa : Nat) (fl : InFlight) (data data2 : Word) (acc : List Word) : Prop :=
  Settled s f.regs → s.timedHome pa = false → (f.acc ≠ .read → s.myGang.confined = false) → (f.rel = true → s.me.unacked = []) →
    ∀ t, Reaches s f.size f.addr f.acc (.hbm pa t) → exec f.instr s = .next ((sent s f.addr).atHome fl f.op f.addr pa data data2 acc t)

theorem HomeForm.sends_of_reach {a : BitVec 7} {w : Bool} {fl : InFlight} (data data2 : State → Word) (ha : f.addr = s.rx a)
    (hw : w = true → f.acc ≠ .read) (hd : data (sent s f.addr) = data s) (hd2 : data2 (sent s f.addr) = data2 s)
    (hi : exec f.instr s = .next (s.guarded f.regs fun s => s.reach f.size (s.rx a) f.acc true w fun p s =>
      s.homeAccess fl f.op (s.rx a) p (data s) (data2 s) [])) : f.Sends s pa fl (data s) (data2 s) [] := by
  intro hs ht hc _ t hr
  have hrx := (sent_aside s f.addr).rx a
  rw [hi, hs.guarded, ← ha, reach_home _ hr fun h => hc (hw h), hrx, ← ha, homeAccess_sent _ _ _ _ _ _ ht, hd, hd2]

/-- The same for a release. -/
theorem HomeForm.sends_of_release {a : BitVec 7} {w : Bool} {fl : InFlight} (data data2 : State → Word) (ha : f.addr = s.rx a)
    (hw : w = true → f.acc ≠ .read) (hrel : f.rel = true) (hd : data (sent s f.addr) = data s) (hd2 : data2 (sent s f.addr) = data2 s)
    (hi : exec f.instr s = .next (s.guarded f.regs fun s => s.reach f.size (s.rx a) f.acc true w fun p s =>
      s.released fun s => s.homeAccess fl f.op (s.rx a) p (data s) (data2 s) [])) : f.Sends s pa fl (data s) (data2 s) [] := by
  intro hs ht hc hu t hr
  have hrx := (sent_aside s f.addr).rx a
  rw [hi, hs.guarded, ← ha, reach_home _ hr fun h => hc (hw h), released_sent _ (hu hrel), hrx, ← ha, homeAccess_sent _ _ _ _ _ _ ht, hd, hd2]

section
variable {fl : InFlight} {data data2 : Word} {acc : List Word}

/-- An answer to an access completes the access's instruction. -/
theorem Landed.done {t : State} {vals : List Word} (h : Landed s t fl vals) (hb : fl.bytes = 4) (hst : fl.st = f.st) (hx : exec f.instr s = .next t) : f.Done s t := by
  refine ⟨hx, ?_, h.strand, h.slots, h.cores⟩
  have hgo := h.goes
  rwa [hb, hst] at hgo

/-- An access that its home serves is answered with the values of its data transfer, whose effect the home keeps. -/
theorem HomeForm.Served.atHome (h : f.Served s pa) (table : Bool) (hf : fl.fill = false) (hq : Undisturbed s f.op pa)
    (hd : ∀ d, fl.dst = some d → s.me.runBad d (s.homeData f.op pa data data2 acc).1.length = none) :
    let t := (sent s f.addr).atHome fl f.op f.addr pa data data2 acc table
    Landed s t fl (s.homeData f.op pa data data2 acc).1 ∧ HomeDone s f.op pa data data2 acc t := by
  obtain ⟨-, -, -, -, -, hr, hs⟩ := h
  have ha := sent_aside s f.addr
  have hsame := sent_same s f.addr
  have hvals := (hsame.homeData f.op pa data data2 acc).1
  obtain ⟨hl, hdone⟩ := atHome_done (s := sent s f.addr) (op := f.op) (pa := pa) (data := data) (data2 := data2) (acc := acc) (f := fl) f.addr table
    (by rw [hsame.homeRefusal, hsame.myGang]; exact hr) (by rw [hsame.feBit]; exact hs) (hq.of_same hsame) hf (by rw [ha.me, hvals]; exact hd)
  rw [hvals] at hl
  exact ⟨Landed.before ha hl, hdone.before hsame⟩

/-- An access whose home serves it is done: its answer lands, and the home keeps what its data transfer left. -/
theorem HomeForm.Served.done (h : f.Served s pa) (hb : fl.bytes = 4) (hst : fl.st = f.st) (hf : fl.fill = false) (hx : f.Sends s pa fl data data2 acc)
    (hq : Undisturbed s f.op pa) (hd : ∀ d, fl.dst = some d → s.me.runBad d (s.homeData f.op pa data data2 acc).1.length = none) :
    ∃ t, f.Done s t ∧ Landed s t fl (s.homeData f.op pa data data2 acc).1 ∧ HomeDone s f.op pa data data2 acc t := by
  obtain ⟨hset, ⟨t, ht⟩, htimed, hc, hrel, -⟩ := id h
  obtain ⟨hl, hdone⟩ := h.atHome t hf hq hd
  exact ⟨_, hl.done hb hst (hx hset htimed hc hrel t ht), hl, hdone⟩

end

end

/-! ## Atomics -/

section
variable {s : State} {pa : Nat} {d a b : BitVec 7} {st : BitVec 2} {i : Instr} {op : MemOp} {n old : Nat} {new_ : Option Nat}

/-- What an atomic at its home promises: the old value in its register, the new one, if any, at its address, and nothing else. -/
def AtomicForm.Returns (f : AtomicForm) (s : State) (pa : Nat) (d : BitVec 7) : Prop :=
  f.form.Served s pa → ∃ t, f.form.Done s t ∧ Writes s t d (BitVec.ofNat 64 f.old) ∧ t.fe = s.fe ∧
    t.mem = f.new_.elim s.mem fun v => memWrite s.mem pa v f.form.size

theorem atomic_returns (hi : exec i s = .next (s.atomic op n d a b st)) (hfe : ∀ full, op.feAfter full = full)
    (hv : (s.homeData op pa (s.rx b) (s.rx d) []).1 = [BitVec.ofNat 64 old])
    (hm : (s.homeData op pa (s.rx b) (s.rx d) []).2.mem = new_.elim s.mem fun v => memWrite s.mem pa v n) :
    AtomicForm.Returns { form := { instr := i, regs := [d, a, b], addr := s.rx a, size := n, acc := .rmw, op := op, dest := some d, rel := true, st := st },
                         old := old, new_ := new_ } s pa d := by
  intro h
  have hok : s.me.regOk d.toNat = true := h.1.regOk List.mem_cons_self
  have ha := sent_aside s (s.rx a)
  obtain ⟨t, hdone, hl, hh⟩ := h.done (fl := flight (some d) 0 4 st false) rfl rfl rfl
    (HomeForm.sends_of_release (·.rx b) (·.rx d) rfl (by simp) rfl (ha.rx b) (ha.rx d) hi)
    (.inl (hfe _)) fun d' hd => by
      obtain rfl : d = d' := Option.some.inj hd
      rw [hv]
      exact Slot.runBad_one hok
  rw [hv] at hl
  exact ⟨t, hdone, hl.writes rfl hok, hh.fe (hfe _), hh.mem.trans hm⟩

/-- The word of an atomic is that of its address. -/
theorem homeWord_eq (s : State) (pa : Nat) : s.homeWord pa = BitVec.ofNat 64 (memRead s.mem (pa / 8 * 8) 8) := rfl

theorem atom_returns {o : AtomOp} {w : Word} (hi : exec i s = .next (s.atomic (.atom o) 8 d a b st))
    (hw : o.apply (BitVec.ofNat 64 (memRead s.mem (pa / 8 * 8) 8)) (s.rx b) = w) :
    AtomicForm.Returns { form := { instr := i, regs := [d, a, b], addr := s.rx a, size := 8, acc := .rmw, op := .atom o, dest := some d, rel := true, st := st },
                         old := (BitVec.ofNat 64 (memRead s.mem (pa / 8 * 8) 8)).toNat, new_ := some w.toNat } s pa d := by
  subst hw
  exact atomic_returns hi (fun _ => rfl) (by rw [BitVec.ofNat_toNat, BitVec.setWidth_eq]; rfl) (State.mem_hbmWrite _ _ _ _)

theorem ite_slt {x y : Word} {v w : Word} : (if x.slt y then v else w) = if x.toInt < y.toInt then v else w := by
  simp [BitVec.slt]

theorem ite_ult {x y : Word} {v w : Word} : (if x.ult y then v else w) = if x.toNat < y.toNat then v else w := by
  simp [BitVec.ult]

theorem cas_returns :
    AtomicForm.Returns { form := { instr := .cas d a b st, regs := [d, a, b], addr := s.rx a, size := 8, acc := .rmw, op := .cas, dest := some d, rel := true, st := st },
                         old := (BitVec.ofNat 64 (memRead s.mem (pa / 8 * 8) 8)).toNat,
                         new_ := if BitVec.ofNat 64 (memRead s.mem (pa / 8 * 8) 8) = s.rx d then some (s.rx b).toNat else none } s pa d := by
  refine atomic_returns rfl (fun _ => rfl) (by rw [BitVec.ofNat_toNat, BitVec.setWidth_eq]; rfl) ?_
  change (if s.homeWord pa = s.rx d then s.hbmWrite pa (s.rx b).toNat 8 else s).mem = _
  rw [homeWord_eq]
  split
  · exact State.mem_hbmWrite _ _ _ _
  · rfl

theorem atomics_return (s : State) (pa : Nat) (d a b : BitVec 7) (st : BitVec 2) : ∀ f ∈ atomics s pa d a b st, f.Returns s pa d := by
  simp only [atomics, List.forall_mem_cons]
  exact ⟨atom_returns rfl rfl, atom_returns rfl rfl, atom_returns rfl rfl, atom_returns rfl rfl, atom_returns rfl (by simp only [AtomOp.apply, ite_slt]), atom_returns rfl (by simp only [AtomOp.apply, ite_slt]),
    atom_returns rfl (by simp only [AtomOp.apply, ite_ult]), atom_returns rfl (by simp only [AtomOp.apply, ite_ult]), atom_returns rfl rfl, cas_returns,
    atomic_returns rfl (fun _ => rfl) rfl (State.mem_hbmWrite _ _ _ _),
    atomic_returns rfl (fun _ => rfl) (by rw [BitVec.ofNat_toNat, BitVec.setWidth_eq]; rfl) (State.mem_hbmWrite _ _ _ _), List.forall_mem_nil _⟩

end

/-- Settles O5: the home's data transfer is the atomic, and its answer the old value. -/
theorem atomicsReturnTheOldValue : Obligations.AtomicsReturnTheOldValue := by
  intro s pa d a b st f hf h
  obtain ⟨t, hdone, hw, hfe, hm⟩ := atomics_return s pa d a b st f hf h
  refine ⟨t, hdone, hw, hfe, ?_⟩
  split
  · next v hv =>
    rw [hv] at hm
    exact ⟨hm, fun x hx => by rw [hm]; exact memByte_memWrite_other _ _ _ _ _ hx⟩
  · next hv => rwa [hv] at hm

end Sys2Proof.Claims
end

section
/-! Full-empty accesses (04 R86 to R90): one that is served, and one that joins its word's retry list. -/

namespace Sys2Proof.Claims

open Sys2Proof.Machine

section
variable {s : State} {op : MemOp} {pa : Nat} {data data2 : Word} {acc : List Word}

/-! ## An access that waits (04 R87) -/

theorem serve_waits (own : Option Nat) {isPrivate : Bool} (hr : s.homeRefusal op pa isPrivate = none) (hs : op.servable (s.feBit pa) = false) :
    s.serve op pa data data2 acc own isPrivate = .wait := by
  have hb := HomeSame.of_slice (s.bringIn_sliceOnly pa)
  have hr' : (s.bringIn pa).homeRefusal op pa isPrivate = none := by rwa [hb.homeRefusal]
  have hs' : op.servable ((s.bringIn pa).feBit pa) = false := by rwa [hb.feBit]
  simp only [State.serve, hr', hs', Bool.false_eq_true, if_false]

/-- The place of a strand's access in its word's retry list. -/
def waiter (s : State) (op : MemOp) (pa : Nat) (data va : Word) (table : Bool) : Retry :=
  { addr := wordAddr pa, origin := .slot s.cur, op := op, data := data, va := va, table := table }

/-- The strand leaves rotation with its access in a home's list. -/
def listed (s : State) (f : InFlight) (op : MemOp) (pa : Nat) (data va : Word) (table : Bool) : State :=
  let u := ({ s.bringIn pa with retries := s.retries ++ [waiter s op pa data va table] } : State).leave f.st
  u.setMe { u.me with wait := .retry, inFlight := some { reached f op pa with va := va, park := op.parkKind } }

theorem atHome_waits (f : InFlight) (va : Word) (table : Bool) (hr : s.homeRefusal op pa s.myGang.confined = none)
    (hs : op.servable (s.feBit pa) = false) : s.atHome f op va pa data data2 acc table = listed s f op pa data va table := by
  have hsame := HomeSame.of_leaves (s.tableOp_tlbs table op (.slot s.cur)).leaves
  have hx := serve_waits (s := s.tableOp table op (.slot s.cur)) (op := op) (pa := pa) (data := data) (data2 := data2) (acc := acc)
    (some (s.ownerId s.coreId)) (by rw [hsame.homeRefusal]; exact hr) (by rw [hsame.feBit]; exact hs)
  unfold State.atHome
  rw [hx]
  rfl

theorem listed_waits (s : State) (f : InFlight) (op : MemOp) (pa : Nat) (data va : Word) (table : Bool) :
    let t := listed s f op pa data va table
    KeepsStore s t ∧ KeepsRegs s t ∧ t.me.pc = s.me.pc ∧ t.me.wait = .retry ∧ t.retries = s.retries ++ [waiter s op pa data va table] := by
  have hb := s.bringIn_sliceOnly pa
  have hme : ({ s.bringIn pa with retries := s.retries ++ [waiter s op pa data va table] } : State).me = s.me := hb.me
  refine ⟨⟨hb.mem, hb.fe, (KeepsStore.of_slice hb).drLines⟩, ?_, ?_, ?_, rfl⟩
  · simp only [KeepsRegs, listed, State.leave, State.me_setMe, hme]
    exact ⟨trivial, trivial⟩
  · simp only [listed, State.leave, State.me_setMe, hme]
  · simp only [listed, State.me_setMe]

end

/-! ## The table of R86 and R90 -/

/-- How a full-empty form stands to the model: the access it sends, what its home returns and leaves, and the FE values it needs and leaves. -/
structure FeForm.Means (f : FeForm) (s : State) (pa : Nat) (d : BitVec 7) (fl : InFlight) (data : Word) : Prop where
  sends : f.form.Sends s pa fl data 0 []
  size : f.form.size = 8
  bytes : fl.bytes = 4
  st : fl.st = f.form.st
  fill : fl.fill = false
  ext : fl.ext = 0
  dst : fl.dst = f.result.map fun _ => d
  dest : f.result ≠ none → d ∈ f.form.regs
  vals : (s.homeData f.form.op pa data 0 []).1 = f.result.toList
  mem : (s.homeData f.form.op pa data 0 []).2.mem = if f.stores then memWrite s.mem pa (s.rx d).toNat 8 else s.mem
  needs : ∀ b, f.needs = some (!b) → f.form.op.servable b = false
  leaves : ∀ b, f.form.op.feAfter b = f.leaves.getD b

theorem FeMode.unservable : ∀ (m : FeMode) (b : Bool), m.needs = some (!b) → (MemOp.ldfe m).servable b = false ∧ (MemOp.stfe m).servable b = false := by
  intro m
  cases m <;> decide

section
variable {s : State} {pa : Nat} {d a : BitVec 7} {st : BitVec 2} {i : Instr} {acc : Access} {w : Bool} {m : FeMode} {needs : Option Bool}

/-- LDFE in each mode: an access that returns its word. -/
theorem ldfe_means (hw : w = true → acc ≠ .read) (hi : exec i s = .next (s.guarded [d, a] fun s => s.reach 8 (s.rx a) acc true w fun p s =>
      s.homeAccess (flight (some d) 0 4 st true) (.ldfe m) (s.rx a) p 0 0 [])) (hn : m.needs = needs) :
    FeForm.Means { form := { instr := i, regs := [d, a], addr := s.rx a, size := 8, acc := acc, op := .ldfe m, dest := some d, st := st },
                   needs := needs, leaves := some m.leaves, result := some (BitVec.ofNat 64 (memRead s.mem (pa / 8 * 8) 8)) }
      s pa d (flight (some d) 0 4 st true) 0 := by
  subst hn
  exact ⟨HomeForm.sends_of_reach (fun _ => 0) (fun _ => 0) rfl hw rfl rfl hi, rfl, rfl, rfl, rfl, rfl, rfl, fun _ => List.mem_cons_self, rfl, rfl,
    fun b h => (FeMode.unservable m b h).1, fun _ => rfl⟩

/-- STFE in each mode: a release that stores x[D]. -/
theorem stfe_means (hi : exec i s = .next (s.guarded [d, a] fun s => s.reach 8 (s.rx a) .rmw true true fun p s => s.released fun s =>
      s.homeAccess (flight none 0 4 st false) (.stfe m) (s.rx a) p (s.rx d) 0 [])) (hn : m.needs = needs) :
    FeForm.Means { form := { instr := i, regs := [d, a], addr := s.rx a, size := 8, acc := .rmw, op := .stfe m, rel := true, st := st },
                   needs := needs, leaves := some m.leaves, result := none, stores := true }
      s pa d (flight none 0 4 st false) (s.rx d) := by
  subst hn
  exact ⟨HomeForm.sends_of_release (·.rx d) (fun _ => 0) rfl (by simp) rfl ((sent_aside s (s.rx a)).rx d) rfl hi, rfl, rfl, rfl, rfl, rfl, rfl,
    fun h => absurd rfl h, rfl, State.mem_hbmWrite _ _ _ _, fun b h => (FeMode.unservable m b h).2, fun _ => rfl⟩

/-- FESET sets the FE bit, whatever it was. -/
theorem feset_means {b : Bool} (hi : exec i s = .next (s.guarded [a] fun s => s.reach 8 (s.rx a) .write true true fun p s =>
      s.homeAccess (flight none 0 4 st false) (.feset b) (s.rx a) p 0 0 [])) :
    FeForm.Means { form := { instr := i, regs := [a], addr := s.rx a, size := 8, acc := .write, op := .feset b, st := st },
                   needs := none, leaves := some b, result := none }
      s pa d (flight none 0 4 st false) 0 :=
  ⟨HomeForm.sends_of_reach (fun _ => 0) (fun _ => 0) rfl (by simp) rfl rfl hi, rfl, rfl, rfl, rfl, rfl, rfl, fun h => absurd rfl h, rfl, rfl,
    fun _ h => absurd h (Option.some_ne_none _).symm, fun _ => rfl⟩

theorem feq_means :
    FeForm.Means { form := { instr := .feq d a st, regs := [d, a], addr := s.rx a, size := 8, acc := .read, op := .feq, dest := some d, st := st },
                   needs := none, leaves := none, result := some (flag (s.feBit pa = true)) }
      s pa d (flight (some d) 0 4 st false) 0 :=
  ⟨HomeForm.sends_of_reach (fun _ => 0) (fun _ => 0) rfl (by simp) rfl rfl rfl, rfl, rfl, rfl, rfl, rfl, rfl, fun _ => List.mem_cons_self, rfl, rfl,
    fun _ h => absurd h (Option.some_ne_none _).symm, fun _ => rfl⟩

theorem fullEmpty_means (s : State) (pa : Nat) (d a : BitVec 7) (st : BitVec 2) : ∀ f ∈ fullEmpty s pa d a st, ∃ fl data, f.Means s pa d fl data := by
  simp only [fullEmpty, List.forall_mem_cons]
  exact ⟨⟨_, _, ldfe_means (m := .ff) (by simp) rfl rfl⟩, ⟨_, _, ldfe_means (m := .fe) (by simp) rfl rfl⟩, ⟨_, _, ldfe_means (m := .ef) (by simp) rfl rfl⟩,
    ⟨_, _, stfe_means (m := .ff) rfl rfl⟩, ⟨_, _, stfe_means (m := .fe) rfl rfl⟩, ⟨_, _, stfe_means (m := .ef) rfl rfl⟩, ⟨_, _, stfe_means (m := .xf) rfl rfl⟩,
    ⟨_, _, feq_means⟩, ⟨_, _, feset_means rfl⟩, ⟨_, _, feset_means rfl⟩, List.forall_mem_nil _⟩

end

theorem fullEmptyAccessesServed : FullEmptyAccessesServed := by
  intro s pa d a st f hf h hun _
  obtain ⟨fl, data, hm⟩ := fullEmpty_means s pa d a st f hf
  have hok : ∀ d', fl.dst = some d' → d = d' ∧ s.me.regOk d.toNat = true := fun d' hd => by
    rw [hm.dst] at hd
    obtain ⟨v, hv, rfl⟩ := Option.map_eq_some_iff.mp hd
    exact ⟨rfl, h.1.regOk (hm.dest (by simp [hv]))⟩
  have hone : ∀ d', fl.dst = some d' → f.result.toList.length = 1 := fun d' hd => by
    rw [hm.dst] at hd
    obtain ⟨v, hv, -⟩ := Option.map_eq_some_iff.mp hd
    rw [hv]
    rfl
  obtain ⟨t, hdone, hl, hh⟩ := h.done hm.bytes hm.st hm.fill hm.sends (.inr hun) fun d' hd => by
    obtain ⟨rfl, hreg⟩ := hok d' hd
    rw [hm.vals, hone _ hd]
    exact Slot.runBad_one hreg
  refine ⟨t, hdone, hh.mem.trans hm.mem, fun q => ?_, ?_⟩
  · rw [hh.feBit, hm.leaves]
  · split
    · next v hv =>
      have hdst : fl.dst = some d := by rw [hm.dst, hv]; rfl
      rw [hm.vals, hv] at hl
      have hw := hl.writes hdst (hok d hdst).2
      rwa [hm.ext] at hw
    · next hv => exact hl.keepsRegs (by rw [hm.dst, hv]; rfl)

theorem fullEmptyAccessesWait : FullEmptyAccessesWait := by
  intro s pa d a st f hf hset ⟨t, hr⟩ ht hc hrel hh hn
  obtain ⟨fl, data, hm⟩ := fullEmpty_means s pa d a st f hf
  have ha := sent_aside s f.form.addr
  have hsame := sent_same s f.form.addr
  have hx := hm.sends hset ht (fun _ => hc) hrel t (by rwa [hm.size])
  rw [atHome_waits fl _ t (by rw [hsame.homeRefusal, hsame.myGang, hc]; exact hh) (by rw [hsame.feBit]; exact hm.needs _ hn)] at hx
  obtain ⟨hk, hregs, hpc, hwait, hret⟩ := listed_waits (sent s f.form.addr) fl f.form.op pa data f.form.addr t
  have hmem := ((KeepsStore.of_tlbs (sent_tlbs s f.form.addr)).trans hk).memory
  unfold KeepsRegs at hregs
  rw [ha.me] at hregs hpc
  rw [hsame.retries] at hret
  exact ⟨_, hx, hmem, hregs, hpc, hwait, _, hret, rfl, congrArg Origin.slot ha.cur, rfl⟩

/-- Settles O6: the table of R86 row by row, then what its home does with a row that it can serve and with one that it cannot. -/
theorem fullEmptyAccesses : Obligations.FullEmptyAccesses := ⟨fullEmptyAccessesServed, fullEmptyAccessesWait⟩

end Sys2Proof.Claims
end

section
/-! A store to the module's own fabric address (22 R355, log 98): it reaches the strand's own local memory, so it takes no place in the store
path, although its address lies outside the strand's own memory. -/

namespace Sys2Proof.Claims

open Sys2Proof.Machine

/-- One strand on core 0 of module 1, with x1 the fabric address of byte 0 of its own memory. -/
def ownFabric : State :=
  { slots := [(0, { live := true, gang := 1, n := 128, x := (Vector.replicate 128 0).set 1 0x1000000000000 })],
    gangs := [(1, { live := true, job := 1 })], jobs := [(1, { isOpen := true, self := 1 })] }

/-- ST.D of x6 at the address in x1. -/
def fabricStore : Store :=
  { instr := .stD 6 1 0 0, regs := [6, 1], addr := ownFabric.rx 1 + BitVec.ofNat 64 8 * (0 : BitVec 6).signExtend 64, value := ownFabric.rx 6, size := 8, st := 0 }

theorem fabricStore_mem : fabricStore ∈ stores ownFabric 6 1 0 0 0 0 0 0 := by simp [stores, fabricStore]

theorem settled_fabricStore : Settled ownFabric fabricStore.regs := by
  unfold Settled
  decide +kernel

theorem reaches_fabricStore : Reaches ownFabric fabricStore.size fabricStore.addr .write (.ownMem (localBase 0)) := by
  unfold Reaches
  decide +kernel

theorem unhindered_fabricStore : Unhindered ownFabric (.ownMem (localBase 0)) := by
  unfold Unhindered
  decide +kernel

theorem unacked_fabricStore {t : State} (h : exec fabricStore.instr ownFabric = .next t) : t.me.unacked.length = 0 := by
  have hx : (match exec fabricStore.instr ownFabric with | .next t => t.me.unacked.length | _ => 1) = 0 := by decide +kernel
  rwa [h] at hx

/-- Refutes O4 by `fabricStore`: it reaches the strand's own memory through an address outside it, so nothing joins `unacked`, where the statement asks for one more. -/
theorem not_storesWriteTheirBytes : ¬ Obligations.StoresWriteTheirBytes := by
  intro h
  obtain ⟨t, hx, -, -, -, -, -, -, -, -, -, -, hu⟩ := h ownFabric 6 1 0 0 0 0 0 0 fabricStore fabricStore_mem (.ownMem (localBase 0)) (localBase 0)
    settled_fabricStore reaches_fabricStore rfl unhindered_fabricStore (by decide +kernel) (.inr (by decide +kernel)) (by decide +kernel)
    (fun hl => absurd hl (by decide +kernel))
  rw [unacked_fabricStore hx] at hu
  exact absurd hu (by decide +kernel)

end Sys2Proof.Claims
end

section
/-! Reduction lines (04 R96 to R101): DRINIT, DRED, DREAD and the whole accumulators of DRED.ACC and DREAD.ACC. -/

namespace Sys2Proof.Machine

/-! ## A line of zeroes -/

theorem memWrite_add (n k : Nat) : ∀ (m : List Host.Cell) (a v : Nat), memWrite m a v (n + k) = memWrite (memWrite m a v n) (a + n) (v / 256 ^ n) k := by
  induction n with
  | zero => intro m a v; simp [memWrite]
  | succ n ih =>
    intro m a v
    rw [show n + 1 + k = n + k + 1 by omega]
    simp only [memWrite]
    rw [ih, Nat.div_div_eq_div_mul, ← Nat.pow_succ', show a + 1 + n = a + (n + 1) by omega]

theorem memRead_memWrite_le {k n : Nat} (h : k ≤ n) (m : List Host.Cell) (a v : Nat) : memRead (memWrite m a v n) a k = v % 256 ^ k := by
  obtain ⟨j, rfl⟩ := Nat.exists_eq_add_of_le h
  rw [memWrite_add, memRead_memWrite_other _ _ _ _ _ _ (.inl (Nat.le_refl _)), memRead_memWrite]

/-! ## Registers in a row -/

theorem Slot.rxs_congr {v w : Slot} (h : v.mode = w.mode) (hx : v.x = w.x) (hs : v.shadow = w.shadow) : ∀ n r, v.rxs r n = w.rxs r n
  | 0, _ => rfl
  | n + 1, r => by rw [Slot.rxs, Slot.rxs, Slot.rx_congr h hx hs, Slot.rxs_congr h hx hs]

/-- Two registers that differ in their place in the shadow bank are different registers in either privilege. -/
theorem Slot.rx_wx_of_mod_ne (v : Slot) {d r : BitVec 7} (w : Word) (h : d.toNat % 16 ≠ r.toNat % 16) : (v.wx d w).rx r = v.rx r := by
  have h' : d.toNat ≠ r.toNat := fun he => h (by rw [he])
  unfold Slot.wx
  split
  · next hm => simp [Slot.rx, hm, Vector.getElem_set_ne _ _ h]
  · next hm => simp [Slot.rx, hm, Vector.getElem_set_ne _ _ h']

theorem Slot.rx_wxs_of_before (ws : List Word) : ∀ (v : Slot) (q r : Nat), q < r → r + ws.length ≤ q + 16 →
    (v.wxs r ws).rx (BitVec.ofNat 7 q) = v.rx (BitVec.ofNat 7 q) := by
  induction ws with
  | nil => intro v q r _ _; rfl
  | cons w ws ih =>
    intro v q r hq hl
    rw [List.length_cons] at hl
    rw [Slot.wxs, ih _ q (r + 1) (by omega) (by omega), Slot.rx_wx_of_mod_ne]
    simp only [BitVec.toNat_ofNat]
    omega

theorem Slot.rxs_wxs (ws : List Word) : ∀ (v : Slot) (r : Nat), ws.length ≤ 16 → (v.wxs r ws).rxs r ws.length = ws := by
  induction ws with
  | nil => intro v r _; rfl
  | cons w ws ih =>
    intro v r hl
    rw [List.length_cons] at hl
    rw [Slot.wxs, List.length_cons, Slot.rxs, ih _ _ (by omega), Slot.rx_wxs_of_before _ _ _ _ (by omega) (by omega), Slot.rx_wx_same]

theorem Slot.runBad_eq_none {v : Slot} {d : BitVec 7} {n : Nat} : v.runBad d n = none ↔ v.regOk (d.toNat + n - 1) = true := by
  unfold Slot.runBad
  split <;> simp [*]

theorem Slot.regOk_mono {v : Slot} {m n : Nat} (h : v.regOk n = true) (hm : m ≤ n) : v.regOk m = true := by
  unfold Slot.regOk at *
  split <;> simp_all <;> omega

theorem Slot.runBad_mono {v : Slot} {d : BitVec 7} {m n : Nat} (h : v.runBad d n = none) (hm : m ≤ n) : v.runBad d m = none :=
  Slot.runBad_eq_none.mpr (Slot.regOk_mono (Slot.runBad_eq_none.mp h) (by omega))

theorem DrKind.five_le_regs (k : DrKind) : 5 ≤ k.regs := by cases k <;> decide

/-- A format of one value fits lines of one kind. -/
theorem DrFmt.fits_unique {f : DrFmt} {k k' : DrKind} (hne : f ≠ .acc) (h : f.fits k = true) (h' : f.fits k' = true) : k' = k := by
  match f, hne with
  | .f32, _ | .bf16, _ | .f64, _ => cases k <;> cases k' <;> simp_all [DrFmt.fits]

@[simp] theorem DrKind.ofBits_zero (k : DrKind) : k.ofBits 0 = 0 := by simp [DrKind.ofBits]

@[simp] theorem State.mem_drMarkedBy (s : State) (pa j : Nat) : (s.drMarkedBy pa j).mem = s.mem := rfl

theorem length_toWords : ∀ n v, (toWords v n).length = n
  | 0, _ => rfl
  | n + 1, v => by rw [toWords, List.length_cons, length_toWords]

theorem length_rxs (v : Slot) : ∀ n r, (v.rxs r n).length = n
  | 0, _ => rfl
  | n + 1, r => by rw [Slot.rxs, List.length_cons, length_rxs]

end Sys2Proof.Machine

namespace Sys2Proof.Claims

open Sys2Proof.Machine

section
variable {s : State} {pa : Nat} {d a : BitVec 7} {st : BitVec 2} {k : DrKind} {i : Instr}

/-! ## DRINIT (04 R97) -/

/-- The marks of reduction lines after DRINIT, as its job is noted. -/
theorem drMarkedBy_drinit (s u : State) (k : DrKind) (pa j : Nat) (h : u.drLines = (s.homeData (.drinit k) pa 0 0 []).2.drLines) :
    (u.drMarkedBy pa j).drKind pa = some k := by
  simp [State.drKind, State.drMarkedBy, h, State.homeData]

theorem drInit_served {t : Bool} (h : Settled s [a]) (hr : Reaches s 64 (s.rx a) .write (.hbm pa t)) (ht : s.timedHome pa = false)
    (hc : s.myGang.confined = false) :
    s.drInit k a st = ((sent s (s.rx a)).atHome (flight none 0 4 st false) (.drinit k) (s.rx a) pa 0 0 [] t).drMarkedBy pa s.myGang.job := by
  rw [State.drInit, h.guarded, reach_home _ hr fun _ => hc]
  simp only [(sent_aside s (s.rx a)).rx, homeAccess_sent _ _ _ _ _ _ ht, (sent_same s (s.rx a)).timedHome, (sent_same s (s.rx a)).myGang, ht, Bool.false_eq_true,
    if_false]

theorem drinit_starts (hi : exec i s = .next (s.drInit k a st)) :
    let f := drForm i [a] (s.rx a) .write (.drinit k) none false st
    f.Served s pa → ∃ t, f.Done s t ∧ KeepsRegs s t ∧ t.fe = s.fe ∧ t.drKind pa = some k ∧ t.mem = memWrite s.mem (pa / 64 * 64) 0 64 ∧ t.drAcc k pa = 0 := by
  intro f h
  obtain ⟨hset, ⟨t, ht⟩, htimed, hc, -⟩ := id h
  rw [drInit_served hset ht htimed (hc nofun)] at hi
  obtain ⟨hl, hh⟩ := h.atHome (fl := flight none 0 4 st false) (data := 0) (data2 := 0) (acc := []) t rfl (.inl rfl) nofun
  have hmem := hh.mem.trans (State.mem_hbmWrite _ (lineAddr pa) 0 64)
  replace hl := hl.after (u := State.drMarkedBy _ pa s.myGang.job) ⟨rfl, rfl, rfl, KeepsCores.of_cores rfl⟩
  refine ⟨_, hl.done rfl rfl hi, hl.keepsRegs rfl, hh.fe rfl, drMarkedBy_drinit _ _ _ _ _ hh.drLines, hmem, ?_⟩
  rw [State.drAcc, State.mem_drMarkedBy, hmem, memRead_memWrite_le (by cases k <;> decide), Nat.zero_mod, DrKind.ofBits_zero]

/-! ## DRED (04 R98) -/

/-- A home that refuses no DRED has the line marked with a kind that its format fits (04 R101). -/
theorem drKind_of_dred {f : DrFmt} {isPrivate : Bool} (h : s.homeRefusal (.dred f) pa isPrivate = none) : ∃ k, s.drKind pa = some k ∧ f.fits k = true := by
  unfold State.homeRefusal at h
  cases hk : s.drKind pa with
  | none => simp [hk] at h
  | some k =>
    refine ⟨k, rfl, ?_⟩
    by_contra hf
    rw [Bool.not_eq_true] at hf
    simp [hk, hf] at h

theorem drLine_done {f : HomeForm} {fmt : DrFmt} {fl : InFlight} {data : Word} {acc : List Word} {v : Int} (hop : f.op = .dred fmt) (h : f.Served s pa)
    (hb : fl.bytes = 4) (hst : fl.st = f.st) (hf : fl.fill = false) (hd : fl.dst = none) (hx : f.Sends s pa fl data 0 acc)
    (hv : s.homeData (.dred fmt) pa data 0 acc = ([], s.setDrAcc k pa v)) :
    ∃ t, f.Done s t ∧ KeepsRegs s t ∧ t.fe = s.fe ∧ t.drLines = s.drLines ∧ t.mem = memWrite s.mem (pa / 64 * 64) (k.toBits v) 64 := by
  have hfe : ∀ b, f.op.feAfter b = b := fun b => by rw [hop]; rfl
  obtain ⟨t, hdone, hl, hh⟩ := h.done hb hst hf hx (.inl (hfe _)) fun d' hd' => by rw [hd] at hd'; cases hd'
  refine ⟨t, hdone, hl.keepsRegs hd, hh.fe (hfe _), ?_, ?_⟩
  · rw [hh.drLines, hop, hv, State.setDrAcc, State.drLines_hbmWrite]
  · rw [hh.mem, hop, hv, State.setDrAcc, State.mem_hbmWrite]
    rfl

theorem homeData_dred {fmt : DrFmt} (hne : fmt ≠ .acc) (data : Word) (hk : s.drKind pa = some k) :
    s.homeData (.dred fmt) pa data 0 [] =
      ([], s.setDrAcc k pa (k.add (s.drAcc k pa) (k.addend (fmt.fmt.decode (data.toNat % 2 ^ fmt.fmt.width))))) := by
  match fmt, hne with
  | .f32, _ | .bf16, _ | .f64, _ => simp only [State.homeData, hk]

/-- DRED of a format that a line of one kind alone fits. -/
theorem dred_adds {fmt : DrFmt} {fv : Fv} (hi : exec i s = .next (s.dRed fmt d a st)) (hfit : fmt.fits k = true) (hne : fmt ≠ .acc)
    (hv : fmt.fmt.decode ((s.rx d).toNat % 2 ^ fmt.fmt.width) = fv) :
    let f := drForm i [d, a] (s.rx a) .rmw (.dred fmt) none false st
    f.Served s pa → ∃ t, f.Done s t ∧ KeepsRegs s t ∧ t.fe = s.fe ∧ t.drLines = s.drLines ∧
      t.mem = memWrite s.mem (pa / 64 * 64) (k.toBits (k.add (s.drAcc k pa) (k.addend fv))) 64 := by
  intro f h
  obtain ⟨-, -, -, -, -, hr, -⟩ := id h
  obtain ⟨k', hk', hf⟩ := drKind_of_dred hr
  obtain rfl := DrFmt.fits_unique hne hfit hf
  refine drLine_done rfl h rfl rfl rfl rfl
    (HomeForm.sends_of_reach (w := true) (·.rx d) (fun _ => 0) rfl (by simp [f, drForm]) ((sent_aside s (s.rx a)).rx d) rfl hi) ?_
  rw [homeData_dred hne _ hk', hv]

theorem reductionsAddExactly : ReductionsAddExactly := by
  intro s d a st pa
  simp only [addends, List.forall_mem_cons]
  exact ⟨dred_adds rfl rfl nofun rfl, dred_adds rfl rfl nofun rfl,
    dred_adds rfl rfl nofun (by rw [show DrFmt.f64.fmt.width = 64 from rfl, Nat.mod_eq_of_lt (s.rx d).isLt]; rfl), List.forall_mem_nil _⟩

/-! ## DREAD (04 R100) -/

theorem homeData_dread (fmt : DrFmt) (hk : s.drKind pa = some k) : s.homeData (.dread fmt) pa 0 0 [] = (drRead k fmt (s.drAcc k pa), s) := by
  simp only [State.homeData, hk]

/-- Every read but that of the whole accumulator gives one value. -/
theorem drRead_one {fmt : DrFmt} (hne : fmt ≠ .acc) (acc : Int) : drRead k fmt acc = [(drRead k fmt acc).headD 0] := by
  match fmt, hne with
  | .f32, _ | .bf16, _ | .f64, _ => simp only [drRead]; split <;> rfl

/-- A read of a line whose answer fits the registers from D completes with its values there. -/
theorem dread_done {fmt : DrFmt} {regs : List (BitVec 7)} (hk : s.drKind pa = some k) (hd : s.me.runBad d (drRead k fmt (s.drAcc k pa)).length = none)
    (hx : (drForm i regs (s.rx a) .read (.dread fmt) (some d) true st).Sends s pa (flight (some d) 0 4 st false) 0 0 []) :
    let f := drForm i regs (s.rx a) .read (.dread fmt) (some d) true st
    f.Served s pa → ∃ t, f.Done s t ∧ KeepsMemory s t ∧ Landed s t (flight (some d) 0 4 st false) (drRead k fmt (s.drAcc k pa)) := by
  intro f h
  have hdata : s.homeData f.op pa 0 0 [] = (drRead k fmt (s.drAcc k pa), s) := homeData_dread fmt hk
  obtain ⟨t, hdone, hl, hh⟩ := h.done rfl rfl rfl hx (.inl rfl) fun d' hd' => by
    obtain rfl : d = d' := Option.some.inj hd'
    rwa [hdata]
  have hmem := hh.mem
  rw [hdata] at hl hmem
  exact ⟨t, hdone, ⟨hmem, hh.fe rfl⟩, hl⟩

theorem dread_reads {fmt : DrFmt} (hi : exec i s = .next (s.guarded [d, a] fun s => s.dRead fmt d a st)) (hne : fmt ≠ .acc) :
    let f := drForm i [d, a] (s.rx a) .read (.dread fmt) (some d) true st
    ∀ k, s.drKind pa = some k → f.Served s pa → ∃ t, f.Done s t ∧ KeepsMemory s t ∧ Writes s t d ((drRead k fmt (s.drAcc k pa)).headD 0) := by
  intro f k hk h
  have hok : s.me.regOk d.toNat = true := h.1.regOk List.mem_cons_self
  have hone := drRead_one (k := k) hne (s.drAcc k pa)
  obtain ⟨t, hdone, hm, hl⟩ := dread_done hk (by rw [hone]; exact Slot.runBad_one hok)
    (HomeForm.sends_of_release (w := false) (fun _ => 0) (fun _ => 0) rfl nofun rfl rfl rfl hi) h
  rw [hone] at hl
  exact ⟨t, hdone, hm, hl.writes rfl hok⟩

/-! ## Whole accumulators (04 R99, R100) -/

theorem Settled.guardedRun {n : Nat} {regs : List (BitVec 7)} (h : Settled s (regRun d n ++ regs)) (hn : 0 < n) (hr : s.me.runBad d n = none)
    (run : State → State) : s.guardedRun d n regs run = run s := by
  have hd : d ∈ regRun d n := List.mem_map.mpr ⟨0, List.mem_range.mpr hn, by simp⟩
  obtain ⟨hbad, -⟩ := h.mono (regs' := d :: regs) fun r hr => by
    rcases List.mem_cons.mp hr with rfl | hr
    · exact List.mem_append_left _ hd
    · exact List.mem_append_right _ hr
  exact State.guardedRun_ok run hbad hr h.1 h.2

theorem dredAcc_sends (hk : s.drKind pa = some k) (hr : s.me.runBad d k.regs = none) :
    (drForm (.dredAcc d a st) (regRun d 5 ++ [a]) (s.rx a) .rmw (.dred .acc) none false st).Sends s pa
      { flight none 0 4 st false with more := some d } 0 0 (s.me.rxs d.toNat k.regs) := by
  intro hs ht hc _ t (hreach : Reaches s 64 (s.rx a) .rmw (.hbm pa t))
  have ha := sent_aside s (s.rx a)
  have hsame := sent_same s (s.rx a)
  have hregs : (sent s (s.rx a)).accRegs (.hbm pa t) = k.regs := by
    simp only [State.accRegs, hsame.timedHome, ht, hsame.drKind, hk, Bool.false_eq_true, if_false, Option.map_some, Option.getD_some]
  change Host.Outcome.next (s.guardedRun d 5 [a] _) = _
  rw [Settled.guardedRun hs (by decide) (Slot.runBad_mono hr k.five_le_regs), reach_home _ hreach fun _ => hc nofun]
  simp only [hregs, ha.me, ha.rx, hr, homeAccess_sent _ _ _ _ _ _ ht]
  rfl

theorem dreadAcc_sends (hr : s.me.runBad d 5 = none) :
    (drForm (.dreadAcc d a st) (regRun d 5 ++ [a]) (s.rx a) .read (.dread .acc) (some d) true st).Sends s pa (flight (some d) 0 4 st false) 0 0 [] := by
  intro hs ht _ hu t (hreach : Reaches s 64 (s.rx a) .read (.hbm pa t))
  change Host.Outcome.next (s.guardedRun d 5 [a] _) = _
  rw [Settled.guardedRun hs (by decide) hr, State.dRead, reach_home (writes := false) _ hreach nofun, released_sent _ (hu rfl), (sent_aside s (s.rx a)).rx, homeAccess_sent _ _ _ _ _ _ ht]
  rfl

theorem homeData_dredAcc (hk : s.drKind pa = some k) (ws : List Word) (hl : ws.length = k.regs) :
    s.homeData (.dred .acc) pa 0 0 ws = ([], s.setDrAcc k pa (k.add (s.drAcc k pa) (k.ofBits (ofWords ws)))) := by
  simp only [State.homeData, hk, ← hl, List.take_length]

theorem Landed.rxs {t : State} {ws : List Word} (h : Landed s t (flight (some d) 0 4 st false) ws) (hl : ws.length ≤ 16) : t.me.rxs d.toNat ws.length = ws := by
  have hm : t.me.mode = (s.me.landed (flight (some d) 0 4 st false) ws).mode := by rw [Slot.RegsOnly.landed s.me _ ws, h.strand]
  have hw : s.me.landed (flight (some d) 0 4 st false) ws = s.me.wxs d.toNat ws := congrArg (s.me.wxs d.toNat) (List.map_id' ws)
  rw [Slot.rxs_congr hm h.x h.shadow, hw, Slot.rxs_wxs _ _ _ hl]

theorem reductionReadsAndWholeAccumulators : ReductionReadsAndWholeAccumulators := by
  intro s d a st pa
  refine ⟨?_, fun k hk hr _ => ⟨fun h => ?_, fun h => ?_⟩⟩
  · simp only [drReads, List.forall_mem_cons]
    exact ⟨dread_reads rfl nofun, dread_reads rfl nofun, dread_reads rfl nofun, List.forall_mem_nil _⟩
  · obtain ⟨t, hdone, hregs, hfe, -, hm⟩ := drLine_done rfl h rfl rfl rfl rfl (dredAcc_sends hk hr) (homeData_dredAcc hk _ (length_rxs _ _ _))
    exact ⟨t, hdone, hregs, hfe, hm⟩
  · have hlen : (drRead k .acc (s.drAcc k pa)).length = k.regs := length_toWords _ _
    obtain ⟨t, hdone, hm, hl⟩ := dread_done hk (by rwa [hlen]) (dreadAcc_sends (Slot.runBad_mono hr k.five_le_regs)) h
    have hx := hl.rxs (by rw [hlen]; cases k <;> decide)
    rw [hlen] at hx
    exact ⟨t, hdone, hm, hx⟩

end

theorem reductionLinesStart : ReductionLinesStart := by
  intro s a st pa
  simp only [List.forall_mem_cons]
  exact ⟨drinit_starts rfl, drinit_starts rfl, List.forall_mem_nil _⟩

/-- Settles O8: each access reaches its home, whose data transfer on the marked line is the accumulator's arithmetic. -/
theorem reductionLines : Obligations.ReductionLines := ⟨reductionLinesStart, reductionsAddExactly, reductionReadsAndWholeAccumulators⟩

end Sys2Proof.Claims
end

section
/-! Block moves (04 R102): the banks that a step takes (06 R119), and the pieces that it reads and writes. -/

namespace Sys2Proof.Machine

/-! ## Bytes in a row -/

theorem memBytes_add (m : List Host.Cell) (n k : Nat) : ∀ a, memBytes m a (n + k) = memBytes m a n ++ memBytes m (a + n) k := by
  induction n with
  | zero => intro a; simp [memBytes]
  | succ n ih =>
    intro a
    rw [show n + 1 + k = n + k + 1 by omega, memBytes, memBytes, ih, List.cons_append, show a + 1 + n = a + (n + 1) by omega]

theorem length_memBytes (m : List Host.Cell) (n : Nat) : ∀ a, (memBytes m a n).length = n := by
  induction n with
  | zero => intro a; rfl
  | succ n ih => intro a; rw [memBytes, List.length_cons, ih]

theorem memPut_append (bs cs : List Byte) : ∀ (m : List Host.Cell) (a : Nat), memPut m a (bs ++ cs) = memPut (memPut m a bs) (a + bs.length) cs := by
  induction bs with
  | nil => intro m a; rfl
  | cons b bs ih => intro m a; rw [List.cons_append, memPut, memPut, ih, List.length_cons, show a + 1 + bs.length = a + (bs.length + 1) by omega]

/-- A list of bytes written as a number. -/
theorem memWrite_ofBytes (bs : List Byte) : ∀ (m : List Host.Cell) (a : Nat), memWrite m a (ofBytes bs) bs.length = memPut m a bs := by
  induction bs with
  | nil => intro m a; rfl
  | cons b bs ih =>
    intro m a
    have hlow : BitVec.ofNat 8 (ofBytes (b :: bs)) = b := by
      apply BitVec.eq_of_toNat_eq
      rw [BitVec.toNat_ofNat, ofBytes, Nat.add_mul_mod_self_left, Nat.mod_eq_of_lt b.isLt]
    have hhigh : ofBytes (b :: bs) / 256 = ofBytes bs := by
      rw [ofBytes, Nat.add_mul_div_left _ _ (by decide), Nat.div_eq_of_lt b.isLt, Nat.zero_add]
    rw [List.length_cons, memWrite, hlow, hhigh, memPut, ih]

theorem ofBytes_lt (bs : List Byte) : ofBytes bs < 256 ^ bs.length := by
  induction bs with
  | nil => decide
  | cons b bs ih =>
    have hb := b.isLt
    rw [ofBytes, List.length_cons, Nat.pow_succ]
    omega

/-! ## The pieces of a step -/

/-- The doublewords from an address. -/
def words (va : Word) : Nat → List (Word × Nat)
  | 0 => []
  | m + 1 => (va, 8) :: words (va + 8) m

/-- An aligned run of doublewords is cut into them. -/
theorem pieces_aligned : ∀ (fuel m : Nat) (va : Word), m ≤ fuel → va.toNat % 8 = 0 → pieces fuel va (8 * m) = words va m
  | 0, m, va, hm, _ => by rw [Nat.le_zero.mp hm]; rfl
  | fuel + 1, 0, va, _, _ => by rw [pieces, Nat.mul_zero, if_pos rfl, words]
  | fuel + 1, m + 1, va, hm, ha => by
    have hn : min (8 * (m + 1)) (8 - va.toNat % 8) = 8 := by omega
    have ha' : (va + 8 : Word).toNat % 8 = 0 := by
      rw [BitVec.toNat_add, show (8 : Word).toNat = 8 from rfl]
      omega
    rw [pieces, if_neg (by omega), words]
    dsimp only
    rw [hn, show 8 * (m + 1) - 8 = 8 * m by omega, ← pieces_aligned fuel m _ (by omega) ha']
    rfl

/-- An address in the strand's own memory and the doublewords after it. -/
theorem mem_words : ∀ {m : Nat} {va : Word} {p : Word × Nat}, va.toNat + 8 * m ≤ 0x180000 → p ∈ words va m →
    ∃ i < m, p.1.toNat = va.toNat + 8 * i ∧ p.2 = 8
  | 0, _, _, _, hp => nomatch hp
  | m + 1, va, p, h, hp => by
    have hv : (va + 8 : Word).toNat = va.toNat + 8 := by
      rw [BitVec.toNat_add, show (8 : Word).toNat = 8 from rfl]
      omega
    rcases List.mem_cons.mp hp with rfl | hp
    · exact ⟨0, by omega, rfl, rfl⟩
    · obtain ⟨i, hi, hpi, hp2⟩ := mem_words (by omega) hp
      exact ⟨i + 1, by omega, by omega, hp2⟩

/-! ## Claims on free banks -/

theorem claimAt_filter_none {l : List Claim} {bank cycle : Nat} (q : Claim → Bool) (h : claimAt l bank cycle = none) :
    claimAt (l.filter q) bank cycle = none := by
  unfold claimAt at *
  rw [List.find?_eq_none] at *
  exact fun x hx => h x (List.mem_of_mem_filter hx)

/-- A claim on a free bank leaves the other banks free. -/
theorem State.claim_free {s : State} {core : Nat} {c : Claim} (h : claimAt (s.core core).claims c.bank c.cycle = none) {bank cycle : Nat} (hb : bank ≠ c.bank)
    (h' : claimAt (s.core core).claims bank cycle = none) : claimAt ((s.claim core c).core core).claims bank cycle = none := by
  have hclaims : ((s.claim core c).core core).claims = c :: (s.core core).claims.filter (fun x => decide (s.cycleOf core ≤ x.cycle + 2048)) := by
    unfold State.claim placeClaim
    simp only [State.core_setCore, claimAt_filter_none _ h]
  rw [hclaims, claimAt, List.find?_cons_of_neg (by simp [Ne.symm hb])]
  exact claimAt_filter_none _ h'

/-- The cores alone differ. -/
def CoresOnly (s t : State) : Prop := t = { s with cores := t.cores }

theorem CoresOnly.trans {s t u : State} (h : CoresOnly s t) (h' : CoresOnly t u) : CoresOnly s u := by
  unfold CoresOnly at *
  rw [h', h]

theorem State.winBank_free {s : State} {pa : Nat} (h : claimAt s.myCore.claims (bankOf pa) (s.cycleOf s.coreId) = none) :
    s.winBank pa = some (s.claim s.coreId { bank := bankOf pa, cycle := s.cycleOf s.coreId, rank := rankStarved, owner := ownerScalar }) := by
  simp only [State.winBank, h]

/-- A place's bank taken, at the strand's own core or through a port. -/
def takeBank (u : Option State) (p : Nat × Option Nat) : Option State :=
  u.bind fun u =>
    match p.2 with
    | none => u.winBank p.1
    | some c => if u.portFree c p.1 then some (u.portClaim c p.1 0) else none

/-- The claim by which the issuing strand holds a bank of its core in this cycle. -/
def bankClaim (s : State) (pa : Nat) : Claim := { bank := bankOf pa, cycle := s.cycleOf s.coreId, rank := rankStarved, owner := ownerScalar }

/-- Lines of the strand's own core in different banks, all free, take them all. -/
theorem takeBanks_free : ∀ (l : List (Nat × Option Nat)) (s : State), (∀ p ∈ l, p.2 = none) → l.Pairwise (fun p q => bankOf p.1 ≠ bankOf q.1) →
    (∀ p ∈ l, claimAt s.myCore.claims (bankOf p.1) (s.cycleOf s.coreId) = none) → ∃ t, l.foldl takeBank (some s) = some t ∧ CoresOnly s t
  | [], s, _, _, _ => ⟨s, rfl, rfl⟩
  | p :: l, s, hown, hpair, hfree => by
    obtain ⟨hp, hl⟩ := List.forall_mem_cons.mp hown
    obtain ⟨hne, hpl⟩ := List.pairwise_cons.mp hpair
    obtain ⟨hpf, hlf⟩ := List.forall_mem_cons.mp hfree
    have hclaim : CoresOnly s (s.claim s.coreId (bankClaim s p.1)) := rfl
    obtain ⟨t, ht, hc⟩ := takeBanks_free l (s.claim s.coreId (bankClaim s p.1)) hl hpl
      fun q hq => State.claim_free (c := bankClaim s p.1) hpf (Ne.symm (hne q hq)) (hlf q hq)
    refine ⟨t, ?_, hclaim.trans hc⟩
    have htake : takeBank (some s) p = s.winBank p.1 := by simp only [takeBank, hp, Option.bind_some]
    rw [List.foldl_cons, htake, State.winBank_free hpf]
    exact ht

theorem nodup_eraseDups {α : Type} [BEq α] [LawfulBEq α] : ∀ l : List α, l.eraseDups.Nodup
  | [] => by simp
  | a :: l => by
    rw [List.eraseDups_cons, List.nodup_cons, List.mem_eraseDups]
    exact ⟨by simp, nodup_eraseDups _⟩
termination_by l => l.length
decreasing_by exact Nat.lt_succ_of_le (List.length_filter_le _ _)

/-- The line of the strand's own core in which a piece of the strand's own memory stands. -/
def ownLine (s : State) (p : Word × Nat) : Nat × Option Nat := (lineAddr (localBase s.coreId + p.1.toNat), none)

/-- The line of local memory in which a piece stands, if it stands in one. -/
def pieceLine (s : State) (p : Word × Nat) : Option (Nat × Option Nat) :=
  match s.translate s.coreId s.myGang.job p.1 .read with
  | .ownMem pa => some (lineAddr pa, none)
  | .window pa c => if s.timedPort c then none else some (lineAddr pa, some c)
  | _ => none

theorem State.pieceBanks_eq (s : State) (l : List (Word × Nat)) : s.pieceBanks l = (l.filterMap (pieceLine s)).eraseDups.foldl takeBank (some s) := rfl

theorem pieceLine_ownMemory {s : State} {p : Word × Nat} (h : p.1.toNat < 0x180000) : pieceLine s p = some (ownLine s p) := by
  rw [pieceLine, s.translate_ownMemory _ _ _ h]
  rfl

theorem lineAddr_localBase (c n : Nat) : lineAddr (localBase c + n) = localBase c + n / 64 * 64 := by
  rw [lineAddr, show localBase c + n = n + 64 * (0x1F800000000 + c * 0x8000) by unfold localBase windowBase; omega, Nat.add_mul_div_left _ _ (by decide), Nat.add_mul]
  unfold localBase windowBase
  omega

theorem bankOf_localBase (c : Nat) {n : Nat} (h : n < 0x200000) : bankOf (localBase c + n) = n / 64 % 3 := by
  rw [bankOf, show localBase c + n = n + 0x200000 * (0x3F00000 + c) by unfold localBase windowBase; omega, Nat.add_mul_mod_self_left, Nat.mod_eq_of_lt h]

/-- The doublewords of 64 bytes of the strand's own memory lie in one line or in two lines that follow one another, in different banks. -/
theorem bankOf_ownLine_ne {s : State} {va : Word} (h : va.toNat + 8 * 8 ≤ 0x180000) {p q : Nat × Option Nat} (hp : p ∈ (words va 8).map (ownLine s))
    (hq : q ∈ (words va 8).map (ownLine s)) (hne : p ≠ q) : bankOf p.1 ≠ bankOf q.1 := by
  obtain ⟨x, hx, rfl⟩ := List.mem_map.mp hp
  obtain ⟨y, hy, rfl⟩ := List.mem_map.mp hq
  obtain ⟨i, hi, hxi, -⟩ := mem_words h hx
  obtain ⟨j, hj, hyj, -⟩ := mem_words h hy
  have hlines : x.1.toNat / 64 ≠ y.1.toNat / 64 := fun he => hne (by rw [ownLine, ownLine, lineAddr_localBase, lineAddr_localBase, he])
  simp only [ownLine, lineAddr_localBase]
  rw [bankOf_localBase _ (by omega), bankOf_localBase _ (by omega)]
  omega

/-- A step's read takes the banks of its 64 bytes where every bank is free. -/
theorem State.pieceBanks_free {s : State} {va : Word} (h : va.toNat + 8 * 8 ≤ 0x180000) (hfree : ∀ k, claimAt s.myCore.claims k (s.cycleOf s.coreId) = none) :
    ∃ t, s.pieceBanks (words va 8) = some t ∧ CoresOnly s t := by
  have hlow : ∀ p ∈ words va 8, p.1.toNat < 0x180000 := fun p hp => by
    obtain ⟨i, hi, hpi, -⟩ := mem_words h hp
    omega
  have hlines : (words va 8).filterMap (pieceLine s) = (words va 8).map (ownLine s) := by
    rw [List.filterMap_congr fun p hp => pieceLine_ownMemory (hlow p hp), List.filterMap_eq_map']
  rw [State.pieceBanks_eq, hlines]
  refine takeBanks_free _ s (fun p hp => ?_) ?_ fun _ _ => hfree _
  · obtain ⟨x, -, rfl⟩ := List.mem_map.mp (List.mem_eraseDups.mp hp)
    rfl
  · exact (nodup_eraseDups _).imp_of_mem fun hp hq hne => bankOf_ownLine_ne h (List.mem_eraseDups.mp hp) (List.mem_eraseDups.mp hq) hne

end Sys2Proof.Machine
end

section
/-! Block moves (04 R102): the instruction and a step between bytes of the strand's own local memory. -/

namespace Sys2Proof.Machine

theorem State.setMe_setMe (s : State) (v w : Slot) : (s.setMe v).setMe w = s.setMe w := s.setSlot_setSlot s.cur v w

/-- An ordinary address names no other module. -/
theorem Job.not_cutOff (j : Job) {va : Word} (h : va.toNat < 0x180000) : j.cutOff va = false := by
  have hb : bits va 48 12 = 0 := by
    unfold bits
    omega
  simp [Job.cutOff, Job.away, hb]

theorem toNat_add_eight {va : Word} {m : Nat} (h : va.toNat + 8 * (m + 1) ≤ 0x180000) : (va + 8).toNat = va.toNat + 8 := by
  rw [BitVec.toNat_add, show (8 : Word).toNat = 8 from rfl]
  omega

/-! ## The reads of a step -/

theorem State.readPiece_ownMemory {s : State} {va : Word} (n : Nat) (h : va.toNat < 0x180000) (hb : s.bad = []) :
    s.readPiece va n = .got (memBytes s.mem (localBase s.coreId + va.toNat) n) s := by
  have hd : s.damagedLocal (localBase s.coreId + va.toNat) n = false := by
    rw [State.damagedLocal, hb]
    simp
  simp only [State.readPiece, s.translate_ownMemory _ _ _ h, hd, Bool.false_eq_true, if_false]

/-- The reads of a step in the strand's own memory leave its bytes with the strand, for the writes. -/
theorem State.bmovRead_ownMemory {s : State} {d a b : BitVec 7} (hb : s.bad = []) : ∀ (m : Nat) (va : Word) (v : Slot), va.toNat + 8 * m ≤ 0x180000 →
    (s.setMe v).bmovRead d a b (words va m) =
      (s.setMe { v with bread := v.bread ++ memBytes s.mem (localBase s.coreId + va.toNat) (8 * m) }).bmovWrite d a b
  | 0, va, v, _ => by
    rw [words, State.bmovRead, Nat.mul_zero, memBytes, List.append_nil]
  | m + 1, va, v, h => by
    have hv := toNat_add_eight h
    have hread : (s.setMe v).readPiece va 8 = .got (memBytes s.mem (localBase s.coreId + va.toNat) 8) (s.setMe v) :=
      State.readPiece_ownMemory 8 (by omega) hb
    rw [words, State.bmovRead, hread]
    dsimp only
    rw [State.me_setMe, State.setMe_setMe, State.bmovRead_ownMemory hb m (va + 8) _ (by omega), hv, show 8 * (m + 1) = 8 + 8 * m by omega, memBytes_add,
      List.append_assoc, Nat.add_assoc]

/-! ## The writes of a step -/

/-- Bytes of local memory, with the marks of use and damage, alone differ. -/
def LocalOnly (s t : State) : Prop := t = { s with mem := t.mem, used := t.used, bad := t.bad }

theorem LocalOnly.trans {s t u : State} (h : LocalOnly s t) (h' : LocalOnly t u) : LocalOnly s u := by
  unfold LocalOnly at *
  rw [h', h]

theorem LocalOnly.me {s t : State} (h : LocalOnly s t) : t.me = s.me := by
  unfold LocalOnly at h
  rw [h]
  rfl

theorem LocalOnly.coreId {s t : State} (h : LocalOnly s t) : t.coreId = s.coreId := by
  unfold LocalOnly at h
  rw [h]
  rfl

theorem State.localWrite_localOnly (s : State) (pa v n : Nat) : LocalOnly s (s.localWrite pa v n) := by
  unfold LocalOnly State.localWrite State.markLocal
  split <;> rfl

/-- A doubleword posted to the strand's own memory is its eight bytes in local memory. -/
theorem State.post_ownMemory (s : State) {pa : Nat} (va : Word) {bs : List Byte} (ws : List Word) (hl : bs.length = 8) :
    (s.post (.ownMem pa) va 8 (ofBytes bs) ws).mem = memPut s.mem pa bs ∧ LocalOnly s (s.post (.ownMem pa) va 8 (ofBytes bs) ws) := by
  refine ⟨?_, s.localWrite_localOnly pa (ofBytes bs) 8⟩
  rw [← memWrite_ofBytes, hl]
  rfl

theorem State.writePieces_ownMemory : ∀ (m : Nat) (s : State) (va : Word) (bs : List Byte) (done : Nat), bs.length = 8 * m → va.toNat + 8 * m ≤ 0x180000 →
    s.me.unacked.length < 8 → ∃ t, s.writePieces (words va m) bs done = (done + 8 * m, t) ∧ t.mem = memPut s.mem (localBase s.coreId + va.toNat) bs ∧ LocalOnly s t
  | 0, s, va, bs, done, hl, _, _ => ⟨s, rfl, by rw [List.eq_nil_of_length_eq_zero hl]; rfl, rfl⟩
  | m + 1, s, va, bs, done, hl, h, hu => by
    have hv := toNat_add_eight h
    have hlow : va.toNat < 0x180000 := by omega
    have htr := s.translate_ownMemory s.coreId s.myGang.job .write hlow
    have htake : (bs.take 8).length = 8 := by rw [List.length_take]; omega
    obtain ⟨hpm, hpo⟩ := s.post_ownMemory (pa := localBase s.coreId + va.toNat) va [BitVec.ofNat 64 (ofBytes (bs.take 8))] htake
    obtain ⟨t, ht, hm, ho⟩ := State.writePieces_ownMemory m
      (s.post (.ownMem (localBase s.coreId + va.toNat)) va 8 (ofBytes (bs.take 8)) [BitVec.ofNat 64 (ofBytes (bs.take 8))]) (va + 8) (bs.drop 8) (done + 8)
      (by rw [List.length_drop]; omega) (by omega) (by rw [hpo.me]; exact hu)
    refine ⟨t, ?_, ?_, hpo.trans ho⟩
    · rw [words, State.writePieces, if_neg (by simp [s.myJob.not_cutOff hlow, hu]), htr, State.fillTlb_of_ownMem htr, ht]
      congr 1
      omega
    · rw [hm, hpm, hpo.coreId, hv, ← Nat.add_assoc]
      conv_rhs => rw [← List.take_append_drop 8 bs, memPut_append, htake]

/-- No write of a step in the strand's own memory faults outside the inbox areas (18 R297). -/
theorem State.writeFault_ownMemory {s : State} {va : Word} {m : Nat} (h : va.toNat + 8 * m ≤ 0x180000)
    (hin : ∀ i < m, s.inInbox (localBase s.coreId + va.toNat + 8 * i) = false) : s.writeFault (words va m) = none := by
  rw [State.writeFault, List.findSome?_eq_none_iff]
  intro p hp
  obtain ⟨i, hi, hpi, -⟩ := mem_words h hp
  have hfree := hin i hi
  have hok : s.mayWrite (.ownMem (localBase s.coreId + p.1.toNat)) = true := by
    rw [hpi, ← Nat.add_assoc]
    simp [State.mayWrite, State.mayWriteFor, hfree]
  rw [s.translate_ownMemory _ _ _ (by omega)]
  exact if_pos hok

/-! ## The progress of D, A and B -/

/-- The strand's registers after a step of n bytes. -/
def moved (v : Slot) (d a b : BitVec 7) (n : Nat) : Slot :=
  { ((v.wx d (v.rx d + BitVec.ofNat 64 n)).wx a (v.rx a + BitVec.ofNat 64 n)).wx b (v.rx b - BitVec.ofNat 64 n) with bread := [], bput := 0 }

/-- The state after a step whose writes are made: the move is complete, or its next step is due. -/
def counted (s : State) (v : Slot) (b : BitVec 7) : State :=
  if v.rx b = 0 then s.setMe { v with pc := v.pc + 4, wait := .none, rep := none }
  else
    let t := s.bmovAt v (s.now + tickLen s.coreId)
    if v.pending ≠ [] ∧ v.mode = false then t.soon (.asyncTrapRaise t.cur) else t

section
variable {v : Slot} {d a b : BitVec 7} {n : Nat}

theorem rx_moved (hda : d ≠ a) (hdb : d ≠ b) (hab : a ≠ b) (hd : v.regOk d.toNat = true) (ha : v.regOk a.toNat = true) (hb : v.regOk b.toNat = true) :
    (moved v d a b n).rx d = v.rx d + BitVec.ofNat 64 n ∧ (moved v d a b n).rx a = v.rx a + BitVec.ofNat 64 n ∧
      (moved v d a b n).rx b = v.rx b - BitVec.ofNat 64 n := by
  have hcopy : ∀ r, (moved v d a b n).rx r = (((v.wx d (v.rx d + BitVec.ofNat 64 n)).wx a (v.rx a + BitVec.ofNat 64 n)).wx b (v.rx b - BitVec.ofNat 64 n)).rx r :=
    fun _ => rfl
  refine ⟨?_, ?_, ?_⟩
  · rw [hcopy, Slot.rx_wx_other _ _ (by simpa using hb) (by simpa using hd) hdb, Slot.rx_wx_other _ _ (by simpa using ha) (by simpa using hd) hda, Slot.rx_wx_same]
  · rw [hcopy, Slot.rx_wx_other _ _ (by simpa using hb) (by simpa using ha) hab, Slot.rx_wx_same]
  · rw [hcopy, Slot.rx_wx_same]

theorem pc_moved : (moved v d a b n).pc = v.pc := by
  unfold moved Slot.wx
  split <;> simp [*]

theorem counted_keeps (s : State) (v : Slot) (b : BitVec 7) : (counted s v b).mem = s.mem ∧ (counted s v b).fe = s.fe ∧ (counted s v b).cur = s.cur := by
  unfold counted
  split
  · exact ⟨rfl, rfl, rfl⟩
  · dsimp only
    split <;> exact ⟨rfl, rfl, rfl⟩

theorem me_counted_last (s : State) (h : v.rx b = 0) : (counted s v b).me = { v with pc := v.pc + 4, wait := .none, rep := none } := by
  rw [counted, if_pos h, State.me_setMe]

theorem me_counted_next (s : State) (h : v.rx b ≠ 0) : (counted s v b).me = { v with wait := .bmov, stepAt := s.now + tickLen s.coreId } := by
  have hme : (s.bmovAt v (s.now + tickLen s.coreId)).me = { v with wait := .bmov, stepAt := s.now + tickLen s.coreId } := State.me_setMe _ _
  rw [counted, if_neg h]
  dsimp only
  split
  · exact hme
  · exact hme

theorem rx_counted (s : State) (v : Slot) (b r : BitVec 7) : (counted s v b).me.rx r = v.rx r := by
  by_cases h : v.rx b = 0
  · rw [me_counted_last s h]; rfl
  · rw [me_counted_next s h]; rfl

end

/-! ## A step -/

theorem State.bmovLine_coresOnly (s : State) (va : Word) : CoresOnly s (s.bmovLine va) := by
  unfold CoresOnly State.bmovLine
  split <;> rfl

/-- The end of a step of n bytes, of which so many are posted: its progress, or a later turn for the rest. -/
def posted (r : Nat × State) (d a b : BitVec 7) (n : Nat) : State :=
  if r.1 < n then r.2.bmovAt { r.2.me with bput := r.1 } (r.2.now + tickLen r.2.coreId) else counted r.2 (moved r.2.me d a b n) b

theorem State.bmovWrite_eq (s : State) (d a b : BitVec 7) :
    s.bmovWrite d a b =
      let w := pieces 10 (s.rx d + BitVec.ofNat 64 s.me.bput) (s.me.bread.length - s.me.bput)
      let u := if s.me.bput = 0 then s.bmovLine (s.rx d) else s
      match if s.me.bput = 0 then u.writeFault w else none with
      | some t => u.trapHere t
      | none => posted (u.writePieces w (s.me.bread.drop s.me.bput) s.me.bput) d a b s.me.bread.length := rfl

/-- The writes of a step that has posted none of its bytes. -/
theorem State.bmovWrite_unposted {s : State} (d a b : BitVec 7) (hput : s.me.bput = 0)
    (hf : (s.bmovLine (s.rx d)).writeFault (pieces 10 (s.rx d) s.me.bread.length) = none) :
    s.bmovWrite d a b = posted ((s.bmovLine (s.rx d)).writePieces (pieces 10 (s.rx d) s.me.bread.length) s.me.bread 0) d a b s.me.bread.length := by
  have hat : s.rx d + BitVec.ofNat 64 0 = s.rx d := BitVec.add_zero _
  rw [State.bmovWrite_eq, hput, hat]
  simp only [if_true, Nat.sub_zero, hf, List.drop_zero]

/-- The second half of a step in the strand's own memory, with all its bytes read: they are in local memory, and the registers count them. -/
theorem State.bmovWrite_ownMemory {s : State} {d a b : BitVec 7} {m : Nat} (hm : m ≤ 10) (hl : s.me.bread.length = 8 * m) (hput : s.me.bput = 0)
    (hu : s.me.unacked.length < 8) (halign : (s.rx d).toNat % 8 = 0) (h : (s.rx d).toNat + 8 * m ≤ 0x180000)
    (hin : ∀ i < m, s.inInbox (localBase s.coreId + (s.rx d).toNat + 8 * i) = false) :
    ∃ t, s.bmovWrite d a b = counted t (moved s.me d a b (8 * m)) b ∧ t.mem = memPut s.mem (localBase s.coreId + (s.rx d).toNat) s.me.bread ∧
      t.fe = s.fe ∧ t.cur = s.cur := by
  have hline := s.bmovLine_coresOnly (s.rx d)
  unfold CoresOnly at hline
  have hme : (s.bmovLine (s.rx d)).me = s.me := by rw [hline]; rfl
  have hfault : (s.bmovLine (s.rx d)).writeFault (words (s.rx d) m) = none := State.writeFault_ownMemory h (by rw [hline]; exact hin)
  obtain ⟨t, ht, hmem, ho⟩ := State.writePieces_ownMemory m (s.bmovLine (s.rx d)) (s.rx d) s.me.bread 0 hl h (by rwa [hme])
  have htme : t.me = s.me := ho.me.trans hme
  have hpieces : pieces 10 (s.rx d) s.me.bread.length = words (s.rx d) m := by rw [hl, pieces_aligned 10 m _ hm halign]
  refine ⟨t, ?_, ?_, ?_, ?_⟩
  · rw [State.bmovWrite_unposted d a b hput (by rw [hpieces, hfault]), hpieces, ht, hl, Nat.zero_add, posted, if_neg (Nat.lt_irrefl _), htme]
  · rw [hmem, hline]
    rfl
  · unfold LocalOnly at ho
    rw [ho, hline]
  · unfold LocalOnly at ho
    rw [ho, hline]

end Sys2Proof.Machine
end

section
/-! Block moves (04 R102): the instruction, and its steps between bytes of the strand's own local memory. -/

namespace Sys2Proof.Machine

/-- The strand's slot with the bytes of a step read and none written, its losses of the bank settled. -/
def readOut (v : Slot) (bs : List Byte) : Slot := { v with losses := 0, bread := bs }

/-- The slots and the cores alone differ. -/
def SlotsAndCores (s t : State) : Prop := t = { s with slots := t.slots, cores := t.cores }

theorem CoresOnly.setMe {s t : State} (h : CoresOnly s t) (v : Slot) : SlotsAndCores s (t.setMe v) := by
  unfold CoresOnly at h
  unfold SlotsAndCores
  rw [h]
  rfl

/-- A step of a move that is about to begin: 64 bytes or more are to go from the strand's own memory to a line there, nothing is damaged, no bank taken and no
inbox area in the way. -/
structure BeginsLine (s : State) (d a b : BitVec 7) : Prop where
  unread : s.me.bread = []
  unposted : s.me.bput = 0
  room : s.me.unacked.length < 8
  free : ∀ k, claimAt s.myCore.claims k (s.cycleOf s.coreId) = none
  undamaged : s.bad = []
  line : (s.rx d).toNat % 64 = 0
  aligned : (s.rx a).toNat % 8 = 0
  count : 64 ≤ (s.rx b).toNat
  dest : (s.rx d).toNat + 64 ≤ 0x180000
  source : (s.rx a).toNat + 64 ≤ 0x180000
  noInbox : ∀ i < 8, s.inInbox (localBase s.coreId + (s.rx d).toNat + 8 * i) = false

section
variable {s : State} {d a b : BitVec 7}

/-- The pieces of such a step are the source's next 64 bytes. -/
theorem BeginsLine.pieces (h : BeginsLine s d a b) : s.bmovPieces d a b = words (s.rx a) 8 := by
  have hk : bmovBytes (s.rx d) (s.rx b) - 0 = 8 * 8 := by
    have := h.line
    have := h.count
    unfold bmovBytes
    omega
  have hat : s.rx a + BitVec.ofNat 64 0 = s.rx a := BitVec.add_zero _
  rw [State.bmovPieces, h.unread]
  dsimp only [List.length_nil]
  rw [hk, hat, pieces_aligned 10 8 _ (by decide) h.aligned]

/-- Its first half has its banks, and reads them all. -/
theorem BeginsLine.reads (h : BeginsLine s d a b) :
    ∃ t, s.bmovStep d a b = t.bmovWrite d a b ∧ t.me = readOut s.me (memBytes s.mem (localBase s.coreId + (s.rx a).toNat) 64) ∧ SlotsAndCores s t := by
  have hdest := h.dest
  have hsource := h.source
  obtain ⟨t, ht, hc⟩ := State.pieceBanks_free (s := s) hsource h.free
  refine ⟨t.setMe _, ?_, State.me_setMe _ _, hc.setMe _⟩
  unfold CoresOnly at hc
  have hme : t.me = s.me := by rw [hc]; rfl
  have hcut : (s.myJob.cutOff (s.rx d) || s.myJob.cutOff (s.rx a)) = false := by
    rw [s.myJob.not_cutOff (by omega), s.myJob.not_cutOff (by omega)]
    rfl
  unfold State.bmovStep
  dsimp only
  rw [h.pieces, if_neg (not_not.mpr h.unposted), if_neg (Bool.eq_false_iff.mp hcut), ht]
  dsimp only
  rw [hme, State.bmovRead_ownMemory (by rw [hc]; exact h.undamaged) 8 (s.rx a) _ hsource, show t.mem = s.mem by rw [hc], show t.coreId = s.coreId by rw [hc]; rfl]
  dsimp only
  rw [h.unread, List.nil_append]
  rfl

/-- The whole step: 64 bytes moved, and counted. -/
theorem BeginsLine.moves (h : BeginsLine s d a b) :
    ∃ t bs, s.bmovStep d a b = counted t (moved (readOut s.me bs) d a b 64) b ∧
      t.mem = memPut s.mem (localBase s.coreId + (s.rx d).toNat) (memBytes s.mem (localBase s.coreId + (s.rx a).toNat) 64) ∧ t.fe = s.fe ∧ t.cur = s.cur := by
  have hline := h.line
  obtain ⟨u, hstep, hme, hc⟩ := h.reads
  unfold SlotsAndCores at hc
  have hrx : u.rx d = s.rx d := by rw [State.rx, hme]; rfl
  have hcore : u.coreId = s.coreId := by rw [hc]; rfl
  have hlen : u.me.bread.length = 8 * 8 := by rw [hme]; exact length_memBytes _ _ _
  obtain ⟨t, ht, hmem, hfe, hcur⟩ := State.bmovWrite_ownMemory (d := d) (a := a) (b := b) (by decide) hlen (by rw [hme]; exact h.unposted)
    (by rw [hme]; exact h.room) (by rw [hrx]; omega) (by rw [hrx]; exact h.dest) (by rw [hrx, hc]; exact h.noInbox)
  rw [hme] at ht hmem
  rw [hrx, hcore, show u.mem = s.mem by rw [hc]] at hmem
  exact ⟨t, _, hstep.trans ht, hmem, by rw [hfe, hc], by rw [hcur, hc]⟩

end

end Sys2Proof.Machine

namespace Sys2Proof.Claims

open Sys2Proof.Machine

section
variable {s : State} {d a b : BitVec 7} {st : BitVec 2}

/-- BMOV with a count of 0 completes. -/
theorem bmov_empty (hda : d ≠ a) (hdb : d ≠ b) (hab : a ≠ b) (h : Settled s [d, a, b]) (hb : s.rx b = 0) : exec (.bmov d a b st) s = .next (s.retire 4 st) := by
  change Host.Outcome.next (s.guarded [d, a, b] _) = _
  rw [h.guarded, if_neg (by simp [hda, hdb, hab]), if_pos hb]

/-- BMOV with another count leaves rotation. -/
theorem bmov_begins (hda : d ≠ a) (hdb : d ≠ b) (hab : a ≠ b) (h : Settled s [d, a, b]) (hb : s.rx b ≠ 0) :
    ∃ t, exec (.bmov d a b st) s = .next t ∧ t.me.wait = .bmov ∧ t.me.rep = some (.bmov d a b st, b) ∧ KeepsRegs s t ∧ t.me.pc = s.me.pc ∧ KeepsMemory s t ∧
      (s.now + tickLen s.coreId, Ev.bmovStep s.cur) ∈ t.agenda := by
  have hx : exec (.bmov d a b st) s = .next ((s.leave st).bmovAt
      { (s.leave st).me with rep := some (.bmov d a b st, b), bread := [], bput := 0, issuedAt := some s.base } (s.now + tickLen s.coreId)) := by
    change Host.Outcome.next (s.guarded [d, a, b] _) = _
    rw [h.guarded, if_neg (by simp [hda, hdb, hab]), if_neg hb]
  have hme : ∀ (u : State) (v : Slot) (n : Nat), (u.bmovAt v n).me = { v with wait := .bmov, stepAt := n } := fun _ _ _ => State.me_setMe _ _
  refine ⟨_, hx, ?_, ?_, ?_, ?_, ⟨rfl, rfl⟩, State.due_schedule _ _ _⟩
  · rw [hme]
  · rw [hme]
  · rw [KeepsRegs, hme, State.leave, State.me_setMe]
    exact ⟨rfl, rfl⟩
  · rw [hme, State.leave, State.me_setMe]

/-- Settles O9: a step's pieces are eight doublewords of the source, whose banks are free, and its writes are the same bytes at the destination. -/
theorem blockMoves : Obligations.BlockMoves := by
  intro s d a b st hda hdb hab
  refine ⟨fun h hb => ⟨_, bmov_empty hda hdb hab h hb, goesOn_retire s 4 st⟩, bmov_begins hda hdb hab, ?_⟩
  rintro id v rfl hwait hrep hdue hread hput hfree hev hmode hu hd ha hb hne hdal haal hcount hdest hsource hbad hin
  have hx : exec .bmovStep s = .next (({ s with cur := id } : State).bmovStep d a b) := by
    change execBmovStep s = _
    simp only [execBmovStep, hev, hwait, hrep, if_pos hdue]
  have hbegins : BeginsLine { s with cur := id } d a b := ⟨hread, hput, hu, hfree, hbad, hdal, haal, hcount, hdest, hsource, hin⟩
  obtain ⟨t, bs, hstep, hmem, hfe, hcur⟩ := hbegins.moves
  change _ = counted t (moved (readOut (s.slot id) bs) d a b 64) b at hstep
  rw [hstep] at hx
  have hok : ∀ r : BitVec 7, r.toNat < (s.slot id).n → (readOut (s.slot id) bs).regOk r.toNat = true := fun r hr => by
    simp [Slot.regOk, readOut, hmode, hr]
  obtain ⟨hrd, hra, hrb⟩ := rx_moved (n := 64) hda hdb hab (hok d hd) (hok a ha) (hok b hb)
  obtain ⟨hm, hf, hc⟩ := counted_keeps t (moved (readOut (s.slot id) bs) d a b 64) b
  have hslot : (counted t (moved (readOut (s.slot id) bs) d a b 64) b).slot id = (counted t (moved (readOut (s.slot id) bs) d a b 64) b).me := by
    rw [State.me, hc, hcur]
  refine ⟨_, hx, hf.trans hfe, hm.trans hmem, ?_, ?_, ?_, fun hlast => ?_, fun hmore => ?_⟩
  · rw [hslot, rx_counted]; exact hrd
  · rw [hslot, rx_counted]; exact hra
  · rw [hslot, rx_counted]; exact hrb
  · have hz : (moved (readOut (s.slot id) bs) d a b 64).rx b = 0 := hrb.trans (sub_eq_zero.mpr hlast)
    rw [hslot, me_counted_last t hz, pc_moved]
    exact ⟨rfl, rfl⟩
  · have hz : (moved (readOut (s.slot id) bs) d a b 64).rx b ≠ 0 := fun h0 => hmore (sub_eq_zero.mp (hrb.symm.trans h0))
    rw [hslot, me_counted_next t hz]
    exact ⟨rfl, pc_moved⟩

end

end Sys2Proof.Claims
end

section
/-! What comes back to a core (04 R414; 05 R106, R107; 07 R127, R128): answers, acknowledgements and revocations. -/

namespace Sys2Proof.Machine

/-- Dropping an entry takes its first place from a list. -/
theorem dropFirst_append {α : Type} [DecidableEq α] {l k : List α} {x : α} (h : x ∉ l) : dropFirst (l ++ x :: k) x = l ++ k := by
  induction l with
  | nil => simp [dropFirst]
  | cons a l ih =>
    rw [List.mem_cons, not_or] at h
    rw [List.cons_append, dropFirst, if_neg (Ne.symm h.1), ih h.2, List.cons_append]

/-! ## Cached words -/

/-- A change of a present line's word, as a lookup of that word sees it. -/
theorem Core.l1Word_l1Map (k : Core) (pa : Nat) (f : L1Word → L1Word) : (k.l1Map pa f).l1Word pa = (k.l1Word pa).map f := by
  unfold Core.l1Word Core.l1Map
  rw [List.find?_map, Option.map_map, Option.map_map]
  have hsame : ((fun l : L1Line => l.addr == lineAddr pa) ∘ fun l : L1Line =>
      if l.addr = lineAddr pa then { l with words := l.words.set (pa / 8 % 8) (f (l.word pa)) (Nat.mod_lt _ (by decide)) } else l) =
      fun l => l.addr == lineAddr pa := by
    funext l
    dsimp only [Function.comp]
    split <;> rfl
  rw [hsame]
  refine Option.map_congr fun l hl => ?_
  have ha : l.addr = lineAddr pa := by simpa using List.find?_some hl
  simp [L1Line.word, ha]

/-- A core whose copy of a word has lost valid and owned. -/
def Core.revoked (k : Core) (pa : Nat) : Core := k.l1Map pa fun w => { w with valid := false, owned := false }

/-- A core holds no valid or owned copy of a word. -/
def Core.Lacks (k : Core) (pa : Nat) : Prop := ∀ w, k.l1Word pa = some w → w.valid = false ∧ w.owned = false

theorem Core.lacks_revoked (k : Core) (pa : Nat) : (k.revoked pa).Lacks pa := by
  intro w h
  unfold Core.revoked at h
  rw [k.l1Word_l1Map, Option.map_eq_some_iff] at h
  obtain ⟨v, -, rfl⟩ := h
  exact ⟨rfl, rfl⟩

/-- What a change made to one core after another establishes, each core of the list has at the end. -/
theorem State.foldl_setCore_of_mem {P : Core → Prop} (f : Core → Core) (hf : ∀ k, P (f k)) {c : Nat} (l : List Nat) :
    ∀ s : State, c ∈ l ∨ P (s.core c) → P ((l.foldl (fun (u : State) c => u.setCore c (f (u.core c))) s).core c) := by
  induction l with
  | nil => simp
  | cons d l ih =>
    intro s h
    refine ih _ ?_
    by_cases hc : c = d
    · subst hc
      exact .inr (by rw [State.core_setCore]; exact hf _)
    · rw [s.core_setCore_other _ hc]
      exact h.imp_left fun hm => (List.mem_cons.mp hm).resolve_left hc

/-- The cores at which a revocation arrives. -/
def State.revokedCores (s : State) (o pa : Nat) : List Nat := if o < 1024 then [o, s.l1Core o pa] else ownerCores o

theorem State.revokeAt_eq (s : State) (o pa : Nat) :
    s.revokeAt o pa = (s.revokedCores o pa).foldl (fun (u : State) c => u.setCore c ((u.core c).revoked pa)) s := rfl

theorem State.mem_revokedCores {s : State} {o pa c : Nat} (h : c ∈ ownerCores o ∨ (o < 1024 ∧ c = s.l1Core o pa)) : c ∈ s.revokedCores o pa := by
  unfold State.revokedCores
  split
  · next ho => simpa [ownerCores, ho] using h
  · next ho => exact h.resolve_right fun hc => ho hc.1

theorem State.lacks_revokeAt {s : State} {o pa c : Nat} (h : c ∈ ownerCores o ∨ (o < 1024 ∧ c = s.l1Core o pa)) : ((s.revokeAt o pa).core c).Lacks pa := by
  rw [s.revokeAt_eq]
  exact State.foldl_setCore_of_mem (P := fun k => k.Lacks pa) _ (fun k => k.lacks_revoked pa) _ s (.inl (State.mem_revokedCores h))

end Sys2Proof.Machine

namespace Sys2Proof.Claims

open Sys2Proof.Machine

theorem revokeAt_aside (s : State) (o pa : Nat) : Aside s (s.revokeAt o pa) ∧ KeepsStore s (s.revokeAt o pa) := by
  rw [s.revokeAt_eq]
  exact asideStore_foldl_setCore (fun k => k.revoked pa) (fun _ => rfl) _ s

theorem l1Ack_aside (s : State) (core pa : Nat) : Aside s (s.l1Ack core pa) := Aside.setCore rfl

theorem KeepsOthers.setSlot (s : State) (id : Nat) (v : Slot) : KeepsOthers s (s.setSlot id v) id := fun _ h => s.slot_setSlot_other v h

theorem KeepsOthers.after {s t u : State} {id : Nat} (h : KeepsOthers s t id) (h' : Aside t u) : KeepsOthers s u id := fun k hk => by
  rw [h'.slot, h k hk]

/-! ## An answer that its strand waits for (05 R106) -/

/-- The L1 of a core as the answer to an access leaves it: an acquire, and the word that the access wrote or the line that it fills. -/
def cachesAnswer (s : State) (core : Nat) (f : InFlight) : State :=
  let u := if f.acquire then s.acquire core else s
  match f.wrote with
  | some pa => u.l1Atomic core pa
  | none => if f.fill && (u.drKind f.pa).isNone then u.fillLine core f.pa else u

theorem cachesAnswer_aside (s : State) (core : Nat) (f : InFlight) : Aside s (cachesAnswer s core f) ∧ KeepsStore s (cachesAnswer s core f) := by
  have hu : Aside s (if f.acquire then s.acquire core else s) ∧ KeepsStore s (if f.acquire then s.acquire core else s) := by
    split
    · exact ⟨acquire_aside s _, acquire_keepsStore s _⟩
    · exact ⟨Aside.refl s, KeepsStore.refl s⟩
  unfold cachesAnswer
  dsimp only
  generalize (if f.acquire then s.acquire core else s) = u at hu
  obtain ⟨ha, hk⟩ := hu
  split
  · next pa _ =>
    obtain ⟨ha', hk'⟩ := l1Atomic_aside u core pa
    exact ⟨ha.trans ha', hk.trans hk'⟩
  · split
    · exact ⟨ha.trans (fillLine_aside u _ _), hk.trans (fillLine_keepsStore u _ _)⟩
    · exact ⟨ha, hk⟩

/-- A strand's slot once an answer has completed its instruction. -/
def completed (v : Slot) (f : InFlight) (vals : List Word) : Slot :=
  { v.landed f vals with pc := v.pc + BitVec.ofNat 64 f.bytes, wait := .none, inFlight := none, lines := [] }

section
variable {s : State} {id : Nat} {r : Reply} {f : InFlight}

theorem deliver_completes (hr : r.refusal = none) (ht : r.trapWriter = false)
    (hd : ∀ d, f.dst = some d → (s.slot id).runBad d r.vals.length = none) :
    s.deliver id f r = cachesAnswer (s.setSlot id (completed (s.slot id) f r.vals)) (id / 16) f := by
  have hn : (f.dst.bind fun d => (s.slot id).runBad d r.vals.length) = none := by
    cases h : f.dst with
    | none => rfl
    | some d => exact hd d h
  unfold State.deliver cachesAnswer completed Slot.landed
  simp only [hr, hn, ht, Bool.false_eq_true, if_false]
  cases f.dst <;> cases f.wrote <;> rfl

theorem deliver_refused {c : Nat} (hr : r.refusal = some c) (h : c ≠ 14 ∨ r.addr ≠ 0) :
    s.deliver id f r = s.takeTrap id (r.trap c) (s.slot id).pc := by
  have hn : ¬(c = Cause.uncorrectable.code ∧ r.addr = 0) := fun hc => h.elim (· hc.1) (· hc.2)
  unfold State.deliver
  simp only [hr, if_neg hn]

/-- The strand of a slot waits in it for an answer, which is neither the acknowledgement of a posted store, nor a requeue, nor the question for the rest
of an accumulator, and brings no line for the strand to hold and no piece of a block move. -/
structure AwaitsAnswer (s : State) (id : Nat) (r : Reply) (f : InFlight) : Prop where
  range : id < 65536
  live : (s.slot id).live = true
  wait : (s.slot id).wait = .retry
  unsaved : (s.slot id).save = 0
  inFlight : (s.slot id).inFlight = some f
  tag : f.tag = r.tag
  noLine : f.line = false
  noMove : f.bmov = false
  here : s.strayed id = false
  noRequeue : r.requeue = false
  unposted : r.posted = false
  whole : r.more = false
  unparked : ∀ p ∈ s.parks, p.1 ≠ 2 ^ 64 + r.tag

theorem AwaitsAnswer.answeree (h : AwaitsAnswer s id r f) : s.answeree id r = id := by
  have ht : ((s.slot id).inFlight.any fun f => f.tag == r.tag) = true := by simp [h.inFlight, h.tag]
  unfold State.answeree
  exact if_pos (.inr ht)

theorem exec_homeReply_awaited (hev : s.ev = some (.homeReply id r)) (h : AwaitsAnswer s id r f) :
    exec .homeReply s = .next (s.deliver id f r) := by
  have hid := h.range
  have hparks : (s.parks.any fun p => p.1 == 2 ^ 64 + r.tag) = false := List.any_eq_false.mpr fun p hp => by simpa using h.unparked p hp
  have hown : ¬((s.slot id).live = false ∨ f.tag ≠ r.tag) := by simp [h.live, h.tag]
  change execHomeReply s = _
  unfold execHomeReply
  rw [hev]
  dsimp only
  rw [if_neg (by omega), if_neg (by omega), h.noRequeue, h.unposted, hparks, if_neg Bool.false_ne_true, if_neg Bool.false_ne_true,
    if_neg (fun hc => Bool.false_ne_true hc.2), if_neg (by omega), h.answeree, h.inFlight]
  dsimp only
  rw [if_neg hown, h.here, if_neg Bool.false_ne_true, if_pos h.unsaved, h.wait]
  simp only [h.whole, h.noLine, h.noMove, Bool.false_and, Bool.false_eq_true, if_false]

/-- What the answer leaves of a strand that waited for it. -/
theorem deliver_one {d : BitVec 7} {v : Word} (hr : r.refusal = none) (ht : r.trapWriter = false) (hd : f.dst = some d) (hv : r.vals = [v])
    (hok : (s.slot id).regOk d.toNat = true) :
    let t := s.deliver id f r
    t.slot id = completed (s.slot id) f [v] ∧ KeepsOthers s t id ∧ KeepsMemory s t ∧ KeepsCores s t := by
  have hb : ∀ e, f.dst = some e → (s.slot id).runBad e r.vals.length = none := fun e he => by
    rw [hd, Option.some.injEq] at he
    rw [← he, hv]
    exact Slot.runBad_one hok
  rw [deliver_completes hr ht hb, hv]
  obtain ⟨ha, hk⟩ := cachesAnswer_aside (s.setSlot id (completed (s.slot id) f [v])) (id / 16) f
  refine ⟨?_, (KeepsOthers.setSlot s id _).after ha, hk.memory, (KeepsCores.of_cores rfl).trans ha.cores⟩
  rw [ha.slot, State.slot_setSlot]

theorem completed_one (v : Slot) {d : BitVec 7} (x : Word) (hd : f.dst = some d) :
    completed v f [x] = { v.wx d (extend f.ext x) with pc := v.pc + BitVec.ofNat 64 f.bytes, wait := .none, inFlight := none, lines := [] } := by
  simp [completed, Slot.landed, hd, Slot.wxs]

end

/-! ## Acknowledgements (05 R107) -/

/-- The oldest entry of the store path for an address leaves it. -/
theorem exec_storeAcknowledge {s : State} {id addr : Nat} {u : Nat × Word} {l k : List (Nat × Word)} (hev : s.ev = some (.storeAcknowledge id addr))
    (hu : (s.slot id).unacked = l ++ u :: k) (ha : u.1 = addr) (hl : ∀ x ∈ l, x.1 ≠ addr) :
    ∃ t, exec .storeAcknowledge s = .next t ∧ Aside (s.setSlot id { s.slot id with unacked := l ++ k }) t ∧ KeepsMemory s t := by
  have hfind : (l ++ u :: k).find? (fun x => x.1 == addr) = some u :=
    List.find?_eq_some_iff_append.mpr ⟨by simpa using ha, l, k, rfl, fun x hx => by simpa using hl x hx⟩
  have hdrop : dropFirst (l ++ u :: k) u = l ++ k := dropFirst_append fun hm => hl u hm ha
  have hx : exec .storeAcknowledge s = .next (
      let s1 := s.setSlot id { s.slot id with unacked := l ++ k }
      if isHbm addr then s1.l1Ack (id / 16) addr else s1) := by
    change execStoreAcknowledge s = _
    unfold execStoreAcknowledge
    simp only [hev, hu, hfind, hdrop]
  refine ⟨_, hx, ?_⟩
  dsimp only
  split
  · exact ⟨l1Ack_aside _ _ _, rfl, rfl⟩
  · exact ⟨Aside.refl _, rfl, rfl⟩

/-! ## The clauses -/

theorem answersReachTheirStrand : AnswersReachTheirStrand := by
  refine fun s => ⟨?_, ?_, ?_⟩
  · intro id r f d v hev hid hlive hwait hsave hf htag hline hmove hhere hreq hpost hmore hparks
    have hx := exec_homeReply_awaited hev ⟨hid, hlive, hwait, hsave, hf, htag, hline, hmove, hhere, hreq, hpost, hmore, hparks⟩
    refine ⟨fun hr ht hd hv hok => ?_, fun c hr hc => ?_⟩
    · obtain ⟨hslot, hothers, hmem, hcores⟩ := deliver_one hr ht hd hv hok
      rw [completed_one _ _ hd] at hslot
      refine ⟨_, hx, ?_⟩
      rw [hslot]
      refine ⟨Slot.rx_wx_same _ _ _, fun e he hne => Slot.rx_wx_other _ _ hok he hne, rfl, rfl, rfl, ?_, ?_, hothers, hmem, hcores⟩
      · exact Slot.fcsr_wx _ _ _
      · exact Slot.lr_wx _ _ _
    · rw [hx, deliver_refused hr hc]
      rfl
  · intro id addr u l k hev hu ha hl
    obtain ⟨t, hx, haside, hmem⟩ := exec_storeAcknowledge hev hu ha hl
    exact ⟨t, hx, by rw [haside.slot, State.slot_setSlot], (KeepsOthers.setSlot s id _).after haside, hmem, (KeepsCores.of_cores rfl).trans haside.cores⟩
  · intro o addr hev
    have hx : exec .revocation s = .next (s.revokeAt o addr) := by
      change execRevocation s = _
      unfold execRevocation
      rw [hev]
    obtain ⟨ha, hk⟩ := revokeAt_aside s o addr
    exact ⟨_, hx, hk.memory, ha.slots, ha.cores, fun c hc => State.lacks_revokeAt hc⟩

end Sys2Proof.Claims
end

section
/-! Parking (04 R88; 15 R261), metadata (08 R157) and completed walks (25 R393). -/

namespace Sys2Proof.Machine

/-! ## Walks (25 R393; 04 R103) -/

/-- What a walk that has ended does for one of its waiters: a leaf found goes to the TLBs, and the prefetch goes on. -/
def State.walked (s : State) (job : Nat) (p : Nat × Word) : State :=
  match walkFrom s.mem (p.2.toNat % 2 ^ 48) 4 0 (s.job job).root with
  | .error _ => s
  | .ok (leaf, level) => (s.fillTlb p.1 job p.2).prefLine p.1 job p.2 leaf level

/-- Nothing but the walks of clusters and the steps due differs. -/
def WalksOnly (s t : State) : Prop := t = { s with clusters := t.clusters, agenda := t.agenda }

theorem State.joinWalk_walksOnly (s : State) (core job : Nat) (va : Word) : WalksOnly s (s.joinWalk core job va) := by
  unfold State.joinWalk
  dsimp only
  split <;> split <;> rfl

theorem WalksOnly.trans {s t u : State} (h : WalksOnly s t) (h' : WalksOnly t u) : WalksOnly s u := by
  unfold WalksOnly at *
  rw [h']; conv_lhs => rw [h]

theorem State.walkPlaces_walksOnly (s : State) (cl : Nat) : WalksOnly s (s.walkPlaces cl) :=
  List.foldlRecOn (motive := WalksOnly s) _ _ rfl fun u h _ _ => h.trans (u.joinWalk_walksOnly _ _ _)

/-- Where no request waits for a place, none joins a walk. -/
theorem State.walks_walkPlaces {s : State} {cl : Nat} (h : (s.cluster cl).walkWait = []) : ((s.walkPlaces cl).cluster cl).walks = (s.cluster cl).walks := by
  unfold State.walkPlaces
  rw [h, List.foldl_nil, State.cluster_setCluster]

theorem State.fillLine_tlb (s : State) (core pa c : Nat) : ((s.fillLine core pa).core c).tlb = (s.core c).tlb := by
  unfold State.fillLine
  by_cases h : c = s.l1Core core pa
  · subst h; rw [State.core_setCore]
  · rw [s.core_setCore_other _ h]

theorem State.prefLine_tlb (s : State) (core job : Nat) (va leaf : Word) (level c : Nat) :
    ((s.prefLine core job va leaf level).core c).tlb = (s.core c).tlb := by
  unfold State.prefLine
  split
  · split
    · exact s.fillLine_tlb core _ c
    · rfl
  · rfl

theorem Job.ordinary_mod (j : Job) (a : Nat) : j.ordinary a % 2 ^ 48 = a % 2 ^ 48 := by
  unfold Job.ordinary
  split
  · exact Nat.mod_mod _ _
  · rfl

/-- A leaf that a TLB holds, or that the walk finds, answers the address it was found for. -/
theorem State.leafOf_ok {s : State} {core job a : Nat} {e : Word × Nat} (h : walkFrom s.mem a 4 0 (s.job job).root = .ok e) :
    ∃ leaf level, s.leafOf core job a = .ok (leaf, level) := by
  unfold State.leafOf
  split
  · exact ⟨_, _, rfl⟩
  split
  · exact ⟨_, _, rfl⟩
  · exact ⟨_, _, h⟩

/-- Filling the TLBs for an address whose walk finds a leaf, and which is no address of local memory, leaves the core's TLB an entry for it. -/
theorem State.fillTlb_finds {s : State} {core job : Nat} {va : Word} {e : Word × Nat} (hva : 0x200000 ≤ va.toNat % 2 ^ 48)
    (h : walkFrom s.mem (va.toNat % 2 ^ 48) 4 0 (s.job job).root = .ok e) :
    (tlbFind ((s.fillTlb core job va).core core).tlb job (va.toNat % 2 ^ 48)).isSome = true := by
  have hmod := (s.job job).ordinary_mod va.toNat
  have hlow : ¬(s.job job).ordinary va.toNat < 0x200000 := by omega
  obtain ⟨leaf, level, hleaf⟩ := State.leafOf_ok (core := core) h
  have hnew : ∀ l : List TlbEntry, (tlbFind (({ job := job, page := va.toNat % 2 ^ 48 / pageSize level, level := level, leaf := leaf } :: l).take 64)
      job (va.toNat % 2 ^ 48)).isSome = true := fun l => by simp [tlbFind]
  unfold State.fillTlb
  simp only [if_neg hlow, hmod, hleaf]
  split
  · next hf => rw [hf]; rfl
  · split
    · rw [State.core_setCore]; exact hnew _
    · rw [State.core_setCluster, State.core_setCore]; exact hnew _

end Sys2Proof.Machine

namespace Sys2Proof.Claims

open Sys2Proof.Machine

section
variable {s t u : State}

/-- Nothing differs but the TLBs of cores and clusters and the L1s. -/
structure CachesOnly (s t : State) : Prop where
  leaves : CoresAndClusters s t
  cores : KeepsCores s t
  cluster : ∀ c, t.cluster c = { s.cluster c with tlb := (t.cluster c).tlb }

theorem CachesOnly.refl (s : State) : CachesOnly s s := ⟨rfl, KeepsCores.refl s, fun _ => rfl⟩

theorem CachesOnly.trans (h : CachesOnly s t) (h' : CachesOnly t u) : CachesOnly s u := by
  refine ⟨h.leaves.trans h'.leaves, h.cores.trans h'.cores, fun c => ?_⟩
  rw [h'.cluster]; conv_lhs => rw [h.cluster]

theorem CachesOnly.of_tlbs (h : TlbsOnly s t) : CachesOnly s t := ⟨h.leaves, KeepsCores.of_tlbs h, h.cluster⟩

theorem CachesOnly.job (h : CachesOnly s t) (j : Nat) : t.job j = s.job j := by rw [h.leaves]; rfl

theorem prefLine_caches (s : State) (core job : Nat) (va leaf : Word) (level : Nat) : CachesOnly s (s.prefLine core job va leaf level) := by
  unfold State.prefLine
  split
  · split
    · exact ⟨rfl, (fillLine_aside s _ _).cores, fun _ => rfl⟩
    · exact CachesOnly.refl s
  · exact CachesOnly.refl s

theorem walked_caches (s : State) (job : Nat) (p : Nat × Word) : CachesOnly s (s.walked job p) := by
  unfold State.walked
  split
  · exact CachesOnly.refl s
  · exact (CachesOnly.of_tlbs (s.fillTlb_tlbs _ _ _)).trans (prefLine_caches _ _ _ _ _ _)

theorem foldl_walked_caches (s : State) (job : Nat) (l : List (Nat × Word)) : CachesOnly s (l.foldl (fun u p => u.walked job p) s) :=
  List.foldlRecOn (motive := CachesOnly s) _ _ (CachesOnly.refl s) fun u h p _ => h.trans (walked_caches u job p)

theorem walked_finds {job c : Nat} {va : Word} {e : Word × Nat} (hva : 0x200000 ≤ va.toNat % 2 ^ 48)
    (h : walkFrom s.mem (va.toNat % 2 ^ 48) 4 0 (s.job job).root = .ok e) :
    (tlbFind ((s.walked job (c, va)).core c).tlb job (va.toNat % 2 ^ 48)).isSome = true := by
  have hx : s.walked job (c, va) = (s.fillTlb c job va).prefLine c job va e.1 e.2 := by
    unfold State.walked
    rw [h]
  rw [hx, State.prefLine_tlb]
  exact State.fillTlb_finds hva h

/-- The last waiter of a walk has its leaf; an earlier one's may have been pushed out (log 15). -/
theorem foldl_walked_finds {job c : Nat} {va : Word} {e : Word × Nat} (l : List (Nat × Word)) (hva : 0x200000 ≤ va.toNat % 2 ^ 48)
    (h : walkFrom s.mem (va.toNat % 2 ^ 48) 4 0 (s.job job).root = .ok e) :
    (tlbFind (((l ++ [(c, va)]).foldl (fun u p => u.walked job p) s).core c).tlb job (va.toNat % 2 ^ 48)).isSome = true := by
  have hl := foldl_walked_caches s job l
  rw [List.foldl_append, List.foldl_cons, List.foldl_nil]
  exact walked_finds hva (by rw [hl.leaves.mem, hl.job]; exact h)

theorem exec_tlbWalkComplete {cl : Nat} {w : Walk} {rest : List Walk} (hev : s.ev = some (.tlbWalkComplete cl))
    (hw : (s.cluster cl).walks = w :: rest) : exec .tlbWalkComplete s =
      .next ((w.waiters.foldl (fun u p => u.walked w.job p) (s.setCluster cl { s.cluster cl with walks := rest })).walkPlaces cl) := by
  change execTlbWalkComplete s = _
  unfold execTlbWalkComplete
  simp only [hev, hw]
  rfl

theorem completedWalksFillTlbs {cl : Nat} {w : Walk} {rest : List Walk} (hev : s.ev = some (.tlbWalkComplete cl)) (hw : (s.cluster cl).walks = w :: rest) :
    ∃ t, exec .tlbWalkComplete s = .next t ∧ ((s.cluster cl).walkWait = [] → (t.cluster cl).walks = rest) ∧ t.slots = s.slots ∧ KeepsMemory s t ∧
      KeepsCores s t ∧ ∀ l c va e, w.waiters = l ++ [(c, va)] → 0x200000 ≤ va.toNat % 2 ^ 48 →
        walkFrom s.mem (va.toNat % 2 ^ 48) 4 0 (s.job w.job).root = .ok e → (tlbFind (t.core c).tlb w.job (va.toNat % 2 ^ 48)).isSome = true := by
  refine ⟨_, exec_tlbWalkComplete hev hw, ?_⟩
  have hfill := foldl_walked_caches (s.setCluster cl { s.cluster cl with walks := rest }) w.job w.waiters
  have hcluster := hfill.cluster cl
  rw [State.cluster_setCluster] at hcluster
  have hfinds : ∀ l c va e, w.waiters = l ++ [(c, va)] → 0x200000 ≤ va.toNat % 2 ^ 48 →
      walkFrom s.mem (va.toNat % 2 ^ 48) 4 0 (s.job w.job).root = .ok e →
      (tlbFind ((w.waiters.foldl (fun u p => u.walked w.job p) (s.setCluster cl { s.cluster cl with walks := rest })).core c).tlb w.job
        (va.toNat % 2 ^ 48)).isSome = true := fun l c va e hwait hva h => by
    rw [hwait]
    exact foldl_walked_finds l hva h
  generalize w.waiters.foldl (fun u p => u.walked w.job p) (s.setCluster cl { s.cluster cl with walks := rest }) = u at *
  have hp := u.walkPlaces_walksOnly cl
  have hcores : (u.walkPlaces cl).cores = u.cores := by rw [hp]
  refine ⟨fun hnone => ?_, ?_, ⟨?_, ?_⟩, ?_, fun l c va e hwait hva h => ?_⟩
  · rw [State.walks_walkPlaces (by rw [hcluster]; exact hnone), hcluster]
  · rw [hp, hfill.leaves]; rfl
  · rw [hp]; exact hfill.leaves.mem
  · rw [hp]; exact hfill.leaves.fe
  · exact ((KeepsCores.of_cores rfl).trans hfill.cores).trans (KeepsCores.of_cores hcores)
  · rw [State.core, hcores]
    exact hfinds l c va e hwait hva h

/-! ## Parking (04 R88; 15 R261) -/

/-- The state once the save that a home ordered has been looked at: it is confirmed to the home of its entry, or tried again where the pool has no room; without an
entry nothing is done. -/
def parkSaved (s : State) (id : Nat) (entry : Option Retry) : State :=
  entry.elim s fun r => (s.saveStrand id r.va).elim (s.schedule (s.now + usTicks) (.parkSave id 0)) fun u =>
    u.carry (u.gang (u.slot id).gang).job (id / 16) (homeEnd (homeOf r.addr)) 1 (.parkConfirm (.slot id))

/-- A strand told to park is saved at once where nothing of it is still to land, and it is no ROAM solo task that waits to leave its slot. -/
theorem exec_parkSave {id : Nat} {entry : Option Retry} (hev : s.ev = some (.parkSave id 0)) (hdue : s.resultsDue id = none)
    (hstay : (s.slot id).wait ≠ .retry ∨ (s.gang (s.slot id).gang).isRoam = false ∨ (s.slot id).saved ≠ [] ∨ s.unrooted id = true)
    (hentry : s.retries.find? (fun r => r.origin == Origin.slot id && r.parking) = entry) : exec .parkSave s = .next (parkSaved s id entry) := by
  have hgo : ¬((s.slot id).wait = .retry ∧ ((s.gang (s.slot id).gang).isRoam && (s.slot id).saved.isEmpty) = true ∧ (!s.unrooted id) = true) := by
    rintro ⟨hwait, hroam, hroot⟩
    simp only [Bool.and_eq_true, List.isEmpty_iff, Bool.not_eq_true'] at hroam hroot
    obtain h | h | h | h := hstay
    · exact h hwait
    · simp [h] at hroam
    · exact h hroam.2
    · simp [h] at hroot
  change execParkSave s = _
  unfold execParkSave
  simp only [hev, hdue, if_neg hgo, ne_eq, not_true_eq_false, if_false, hentry]
  cases entry with
  | none => rfl
  | some r =>
    dsimp only [parkSaved, Option.elim]
    split <;> next h => rw [h]

/-- The entry of a word's retry list whose strand's save is confirmed. -/
theorem find_parking {id : Nat} {r : Retry} {l k : List Retry} (ho : r.origin = .slot id) (hp : r.parking = true)
    (hl : ∀ q ∈ l, q.origin = .slot id → q.parking = false) :
    (l ++ r :: k).find? (fun r => r.origin == Origin.slot id && r.parking) = some r ∧ dropFirst (l ++ r :: k) r = l ++ k := by
  refine ⟨List.find?_eq_some_iff_append.mpr ⟨by simp [ho, hp], l, k, rfl, fun q hq => ?_⟩, dropFirst_append fun hm => ?_⟩
  · by_cases hq' : q.origin = .slot id <;> simp [hq', hl q hq]
  · simp [hl r hm ho] at hp

/-- The park marks with that of a word among them. -/
def marked (marks : List Nat) (w : Nat) : List Nat := if marks.contains w then marks else natInsert marks w

theorem mem_marked (marks : List Nat) (w : Nat) : w ∈ marked marks w := by
  unfold marked
  split
  · next h => simpa using h
  · exact mem_natInsert.mpr (.inl rfl)

/-- The state once the save of a strand that keeps its slot is confirmed. -/
def parked (s : State) (id : Nat) (r : Retry) (rest : List Retry) : State :=
  { s.setSlot id { s.slot id with wait := .parked, inFlight := none, resume := ((r.op.parkKind).getD 2, r.va) } with
    retries := rest, parkMarks := marked s.parkMarks r.addr, parks := s.parks ++ [(r.addr, .slot id)] }

theorem exec_parkConfirm {id : Nat} {r : Retry} {l k : List Retry} (hev : s.ev = some (.parkConfirm (.slot id))) (hid : id < 2 ^ 32)
    (hs : s.retries = l ++ r :: k) (ho : r.origin = .slot id) (hp : r.parking = true) (hl : ∀ q ∈ l, q.origin = .slot id → q.parking = false)
    (hstay : (s.gang (s.slot id).gang).isRoam = false ∨ (s.slot id).saved ≠ []) : exec .parkConfirm s = .next (parked s id r (l ++ k)) := by
  obtain ⟨hfind, hdrop⟩ := find_parking (k := k) ho hp hl
  have hkeeps : ((s.gang (s.slot id).gang).isRoam && (s.slot id).saved.isEmpty) = false := by
    obtain h | h := hstay
    · rw [h, Bool.false_and]
    · rw [List.isEmpty_eq_false_iff.mpr h, Bool.and_false]
  change execParkConfirm s = _
  unfold execParkConfirm
  rw [hev]
  dsimp only
  rw [hs, hfind]
  dsimp only
  rw [if_neg (by omega), hdrop, ← hev]
  exact if_neg (Bool.eq_false_iff.mp hkeeps)

/-! ## Metadata (08 R157) -/

theorem exec_metadataUpdate {line : Nat} {w : Word} (hev : s.ev = some (.metadataUpdate line w)) :
    exec .metadataUpdate s = .next (if s.side.any (fun e => e.1 == line) then { s with side := tset s.side line w } else s) := by
  change execMetadataUpdate s = _
  unfold execMetadataUpdate
  rw [hev]

theorem metadataWordsBecomeSideBits {line : Nat} {w : Word} (hev : s.ev = some (.metadataUpdate line w)) :
    ∃ t, exec .metadataUpdate s = .next t ∧ t = { s with side := t.side } ∧
      ∀ l x, tget t.side l x = if l = line ∧ s.side.any (fun e => e.1 == line) = true then w else tget s.side l x := by
  refine ⟨_, exec_metadataUpdate hev, ?_⟩
  split
  · next hheld =>
    refine ⟨rfl, fun l x => ?_⟩
    by_cases hl : l = line
    · subst hl
      rw [if_pos ⟨rfl, hheld⟩]
      exact tget_tset_same _ _ _ _
    · rw [if_neg fun hc => hl hc.1]
      exact tget_tset_other _ _ _ hl
  · next hheld => exact ⟨rfl, fun l x => (if_neg fun hc => hheld hc.2).symm⟩

end

/-! ## The clauses -/

theorem parkingMetadataAndWalks : ParkingMetadataAndWalks := by
  refine fun s => ⟨?_, ?_, fun line w hev => metadataWordsBecomeSideBits hev, fun cl w rest hev hw => completedWalksFillTlbs hev hw⟩
  · intro id hev hdue hstay
    refine ⟨fun r hr => ?_, fun hnone => ?_⟩
    · have hx := exec_parkSave hev hdue hstay hr
      exact ⟨fun u hu => by rw [hx, parkSaved, Option.elim, hu]; rfl, fun hu => by rw [hx, parkSaved, Option.elim, hu]; rfl⟩
    · refine exec_parkSave (entry := none) hev hdue hstay (List.find?_eq_none.mpr fun r hr => ?_)
      by_cases ho : r.origin = .slot id <;> simp [ho, hnone r hr]
  · intro id r l k hev hid hs ho hp hl hstay
    exact ⟨_, exec_parkConfirm hev hid hs ho hp hl hstay, rfl, mem_marked _ _, rfl, State.slot_setSlot _ _ _, KeepsOthers.setSlot s id _, ⟨rfl, rfl⟩, rfl⟩

/-- Settles O37: an answer is delivered to the strand that waits for it and the L1s change beside it; a park, a metadata word and a walk each change one part. -/
theorem answersParkingAndWalks : Obligations.AnswersParkingAndWalks := ⟨answersReachTheirStrand, parkingMetadataAndWalks⟩

end Sys2Proof.Claims
end

section
/-! The twin licence, gating and waking (06 R123, R124; 10 R207, R208; 12 R227, R229, R230): what the engine's operations leave, and where the licence stands
after each. -/

namespace Sys2Proof.Machine

/-! ## Twins (00 R4) -/

section
variable {c : Nat}

theorem layerOf_eq_decide (h : c < 1024) : layerOf c = decide (512 ≤ c) := by
  unfold layerOf coreZ
  rw [Bool.eq_iff_iff, beq_iff_eq, decide_eq_true_iff]
  omega

theorem pairCore_layerOf (h : c < 1024) : pairCore (pairOf c) (layerOf c) = c := by
  rw [layerOf_eq_decide h]
  unfold pairCore pairOf
  split <;> rename_i hc <;> simp only [decide_eq_true_eq] at hc <;> omega

theorem pairCore_not_layerOf (h : c < 1024) : pairCore (pairOf c) (!layerOf c) = twinOf c := by
  rw [layerOf_eq_decide h]
  unfold pairCore pairOf twinOf
  split <;> rename_i hc <;> simp only [Bool.not_eq_true', decide_eq_false_iff_not] at hc <;> omega

theorem twinOf_lt (c : Nat) : twinOf c < 1024 := Nat.mod_lt _ (by omega)

theorem twinOf_twinOf (h : c < 1024) : twinOf (twinOf c) = c := by
  unfold twinOf
  omega

theorem pairOf_twinOf (c : Nat) : pairOf (twinOf c) = pairOf c := by
  unfold twinOf pairOf
  omega

theorem layerOf_twinOf (h : c < 1024) : layerOf (twinOf c) = !layerOf c := by
  rw [layerOf_eq_decide h, layerOf_eq_decide (twinOf_lt c), Bool.eq_iff_iff, Bool.not_eq_true', decide_eq_true_iff, decide_eq_false_iff_not]
  unfold twinOf
  omega

end

/-! ## An engine's record -/

@[simp] theorem State.eng_setEng (s : State) (c : Nat) (e : Engine) : (s.setEng c e).eng c = e := by
  simp [State.eng, State.setEng]

theorem State.eng_setEng_other (s : State) {c k : Nat} (e : Engine) (h : k ≠ c) : (s.setEng c e).eng k = s.eng k := by
  simp [State.eng, State.setEng, s.core_setCore_other _ h]

@[simp] theorem State.eng_setPair (s : State) (p : Nat) (v : Pair) (k : Nat) : (s.setPair p v).eng k = s.eng k := rfl
@[simp] theorem State.eng_setCluster (s : State) (c : Nat) (v : Cluster) (k : Nat) : (s.setCluster c v).eng k = s.eng k := rfl
@[simp] theorem State.eng_schedule (s : State) (t : Nat) (e : Ev) (k : Nat) : (s.schedule t e).eng k = s.eng k := rfl
@[simp] theorem State.pair_setEng (s : State) (c : Nat) (e : Engine) (k : Nat) : (s.setEng c e).pair k = s.pair k := rfl
@[simp] theorem State.cluster_setEng (s : State) (c : Nat) (e : Engine) (k : Nat) : (s.setEng c e).cluster k = s.cluster k := rfl

@[simp] theorem State.asks_setPair (s : State) (p : Nat) (v : Pair) (k : Nat) : (s.setPair p v).asks k = s.asks k := rfl

theorem State.asks_setEng_none (s : State) (c : Nat) (e : Engine) (h : e.request = none) : (s.setEng c e).asks c = none := by
  simp [State.asks, h]

theorem State.holdsLicence_iff (s : State) (c : Nat) : s.holdsLicence c = true ↔ (s.pair (pairOf c)).holder = some (layerOf c) := by
  simp [State.holdsLicence]

/-! ## What the engine's operations leave -/

/-- Nothing but engines, licences, in-rush queues and the agenda differs. -/
def EnginesOnly (s t : State) : Prop := t = { s with cores := t.cores, pairs := t.pairs, clusters := t.clusters, agenda := t.agenda }

theorem EnginesOnly.trans {s t u : State} (h : EnginesOnly s t) (h' : EnginesOnly t u) : EnginesOnly s u := by
  unfold EnginesOnly at *
  rw [h']; conv_lhs => rw [h]

theorem EnginesOnly.setEng (s : State) (c : Nat) (e : Engine) : EnginesOnly s (s.setEng c e) := rfl

/-- Of an engine nothing but its request differs, and beside the engines only licences and the agenda. -/
structure LicenceOnly (s t : State) : Prop where
  frame : t = { s with cores := t.cores, pairs := t.pairs, agenda := t.agenda }
  eng : ∀ k, t.eng k = { s.eng k with request := (t.eng k).request }

section
variable {s t u : State}

theorem EnginesOnly.keepsMemory (h : EnginesOnly s t) : Claims.KeepsMemory s t := by
  rw [h]; exact ⟨rfl, rfl⟩

theorem EnginesOnly.slots (h : EnginesOnly s t) : t.slots = s.slots := by rw [h]
theorem EnginesOnly.now (h : EnginesOnly s t) : t.now = s.now := by rw [h]
theorem EnginesOnly.cur (h : EnginesOnly s t) : t.cur = s.cur := by rw [h]
theorem EnginesOnly.me (h : EnginesOnly s t) : t.me = s.me := by rw [h]; rfl
theorem EnginesOnly.rx (h : EnginesOnly s t) (r : BitVec 7) : t.rx r = s.rx r := by rw [h]; rfl
theorem EnginesOnly.coreId (h : EnginesOnly s t) : t.coreId = s.coreId := by rw [h]; rfl
theorem EnginesOnly.base (h : EnginesOnly s t) : t.base = s.base := by rw [h]; rfl

theorem LicenceOnly.refl (s : State) : LicenceOnly s s := ⟨rfl, fun _ => rfl⟩

theorem LicenceOnly.trans (h : LicenceOnly s t) (h' : LicenceOnly t u) : LicenceOnly s u where
  frame := by
    obtain ⟨f, -⟩ := h
    obtain ⟨f', -⟩ := h'
    rw [f']; conv_lhs => rw [f]
  eng k := by rw [h'.eng k, h.eng k]

theorem LicenceOnly.setPair (s : State) (p : Nat) (v : Pair) : LicenceOnly s (s.setPair p v) := ⟨rfl, fun _ => rfl⟩
theorem LicenceOnly.schedule (s : State) (t : Nat) (e : Ev) : LicenceOnly s (s.schedule t e) := ⟨rfl, fun _ => rfl⟩

theorem LicenceOnly.scheduleOnce (s : State) (t : Nat) (e : Ev) : LicenceOnly s (s.scheduleOnce t e) := by
  unfold State.scheduleOnce
  split
  · exact .refl s
  · exact .schedule s t e

theorem LicenceOnly.setRequest (s : State) (c : Nat) (r : Option Nat) : LicenceOnly s (s.setEng c { s.eng c with request := r }) := by
  refine ⟨rfl, fun k => ?_⟩
  by_cases h : k = c
  · subst h; simp
  · rw [s.eng_setEng_other _ h]

theorem LicenceOnly.enginesOnly (h : LicenceOnly s t) : EnginesOnly s t := by
  unfold EnginesOnly
  conv_lhs => rw [h.frame]
  rw [h.frame]

theorem LicenceOnly.cluster (h : LicenceOnly s t) (k : Nat) : t.cluster k = s.cluster k := by rw [h.frame]; rfl
theorem LicenceOnly.gate (h : LicenceOnly s t) (k : Nat) : (t.eng k).gate = (s.eng k).gate := by rw [h.eng k]
theorem LicenceOnly.hold (h : LicenceOnly s t) (k : Nat) : (t.eng k).hold = (s.eng k).hold := by rw [h.eng k]
theorem LicenceOnly.licqPending (h : LicenceOnly s t) (k : Nat) : (t.eng k).licqPending = (s.eng k).licqPending := by rw [h.eng k]

end

/-! ## The licence's operations (10 R207, R208; 12 R227) -/

section
variable (s : State) (p : Nat) (crown : Bool)

theorem State.grant_leaves (t : Nat) : LicenceOnly s (s.grant p crown t) :=
  ((LicenceOnly.setPair s p _).trans (.setRequest _ _ _)).trans (.schedule _ _ _)

theorem State.watchHold_leaves : LicenceOnly s (s.watchHold p) := by
  unfold State.watchHold
  split
  · dsimp only
    split
    · split
      · exact .scheduleOnce _ _ _
      · exact .refl s
    · exact .refl s
  · exact .refl s

theorem State.passLicence_leaves : LicenceOnly s (s.passLicence p crown) := by
  unfold State.passLicence
  dsimp only
  split
  · exact ((s.grant_leaves _ _ _).trans (.setRequest _ _ _)).trans (State.watchHold_leaves _ _)
  · exact s.grant_leaves _ _ _

theorem State.grantParked_leaves : LicenceOnly s (s.grantParked p crown) := by
  unfold State.grantParked
  dsimp only
  split
  · exact ((s.grant_leaves _ _ _).trans (.setPair _ _ _)).trans (.schedule _ _ _)
  · exact s.grant_leaves _ _ _

theorem State.settleLicence_leaves : LicenceOnly s (s.settleLicence p) := by
  unfold State.settleLicence
  dsimp only
  split
  · split
    · exact .refl s
    split
    · exact .setPair _ _ _
    split
    · split
      · exact .refl s
      split
      · exact s.watchHold_leaves p
      · exact s.passLicence_leaves p _
    · split
      · exact .refl s
      · exact .setPair _ _ _
  · split
    · exact .refl s
    split
    · exact s.grantParked_leaves p false
    split
    · exact s.grantParked_leaves p true
    · exact .refl s

theorem State.requestLicence_leaves (c : Nat) : LicenceOnly s (s.requestLicence c) := by
  have hask := LicenceOnly.setRequest s c (some s.now)
  unfold State.requestLicence
  dsimp only
  split
  · exact .schedule _ _ _
  split
  · exact .refl s
  split
  · exact (hask.trans (.setRequest _ _ _)).trans (State.grant_leaves _ _ _ _)
  · exact (hask.trans (State.settleLicence_leaves _ _)).trans (State.watchHold_leaves _ _)

theorem State.leaveLicence_leaves (c : Nat) : LicenceOnly s (s.leaveLicence c) := by
  unfold State.leaveLicence
  dsimp only
  split
  · split
    · exact s.passLicence_leaves _ _
    · exact .setPair _ _ _
  · exact .refl s

/-! ## Where the licence stands -/

theorem State.pair_grant (t : Nat) : (s.grant p crown t).pair p = { s.pair p with holder := some crown, freeAt := t, granted := none } := by
  simp [State.grant]

theorem State.pair_watchHold (k : Nat) : (s.watchHold p).pair k = s.pair k := by
  unfold State.watchHold State.scheduleOnce
  split
  · dsimp only
    split
    · split
      · split <;> rfl
      · rfl
    · rfl
  · rfl

theorem State.pair_passLicence : (s.passLicence p crown).pair p =
    { s.pair p with holder := some (!crown), freeAt := s.cycleTick (pairCore p crown) (s.cycleOf (pairCore p crown) + 16), granted := none } := by
  unfold State.passLicence
  dsimp only
  split
  · rw [State.pair_watchHold, State.pair_setEng, s.pair_grant]
  · rw [s.pair_grant]

theorem State.holder_grantParked : ((s.grantParked p crown).pair p).holder = some crown := by
  unfold State.grantParked
  dsimp only
  split <;> simp [State.pair_grant]

theorem State.withheld_grantParked : ((s.grantParked p crown).pair p).withheld = (s.pair p).withheld := by
  unfold State.grantParked
  dsimp only
  split <;> simp [State.pair_grant]

end
theorem State.eng_watchHold (s : State) (p k : Nat) : (s.watchHold p).eng k = s.eng k := by
  unfold State.watchHold State.scheduleOnce
  split
  · dsimp only
    split
    · split
      · split <;> rfl
      · rfl
    · rfl
  · rfl

theorem State.request_grant (s : State) (p : Nat) (crown : Bool) (t : Nat) :
    ((s.grant p crown t).eng (pairCore p crown)).request = none := by
  simp [State.grant]

theorem pairCore_not_ne (p : Nat) (crown : Bool) : pairCore p (!crown) ≠ pairCore p crown := by
  cases crown <;> simp [pairCore]

/-- The twin that the licence goes to asks no more. -/
theorem State.request_passLicence (s : State) (p : Nat) (crown : Bool) : ((s.passLicence p crown).eng (pairCore p (!crown))).request = none := by
  unfold State.passLicence
  dsimp only
  split
  · rw [State.eng_watchHold, State.eng_setEng_other _ _ (pairCore_not_ne p crown), State.request_grant]
  · rw [State.request_grant]

section
variable {s : State}

/-- A holder at a boundary whose hold does not keep the licence from its twin's request passes it. -/
theorem State.settleLicence_passes {p c : Nat} {crown : Bool} {q : Nat} (hc : pairCore p crown = c) (hh : (s.pair p).holder = some crown)
    (hb : (s.eng c).arrayBusy = none) (hw : (s.pair p).withheld = false) (hq : s.asks (twinOf c) = some q) (hm : s.mayBegin p c = false)
    (hk : s.quantum c q ≤ s.now) : s.settleLicence p = s.passLicence p crown := by
  have hk' : ¬((s.eng c).isAwake = true ∧ (s.eng c).hold = true ∧ s.now < s.quantum c q) := fun h => absurd h.2.2 (by omega)
  unfold State.settleLicence
  simp only [hh, hc, hb, hw, hq, hm, if_neg hk', Option.isSome_none, Bool.false_eq_true, if_false]

/-- An engine with an idle array that neither is awake nor asks does not hold the licence after a change. -/
theorem State.holdsLicence_settleLicence {c : Nat} (hc : c < 1024) (ha : (s.eng c).isAwake = false) (hr : s.asks c = none)
    (hb : (s.eng c).arrayBusy = none) : (s.settleLicence (pairOf c)).holdsLicence c = false := by
  rw [← Bool.not_eq_true, State.holdsLicence_iff]
  rcases hh : (s.pair (pairOf c)).holder with _ | crown
  case none =>
    have hl : ∀ crown, (s.asks (pairCore (pairOf c) crown)).isSome = true → crown ≠ layerOf c := by
      rintro crown h rfl
      rw [pairCore_layerOf hc, hr] at h
      exact absurd h (by simp)
    unfold State.settleLicence
    simp only [hh]
    split
    · simp [hh]
    split
    · rename_i hf
      rw [State.holder_grantParked]
      exact fun h => hl false hf (Option.some.inj h)
    split
    · rename_i hf
      rw [State.holder_grantParked]
      exact fun h => hl true hf (Option.some.inj h)
    · simp [hh]
  case some =>
    by_cases hl : crown = layerOf c
    · subst hl
      have hm : s.mayBegin (pairOf c) c = false := by simp [State.mayBegin, ha]
      unfold State.settleLicence
      simp only [hh, pairCore_layerOf hc, hb, ha, hm, Option.isSome_none, Bool.false_eq_true, if_false, false_and]
      split
      · simp
      split
      · simp [State.pair_passLicence]
      · simp
    · have ht : twinOf (pairCore (pairOf c) crown) = c := by
        rw [Bool.eq_not_of_ne hl, pairCore_not_layerOf hc, twinOf_twinOf hc]
      have hne : (s.pair (pairOf c)).holder ≠ some (layerOf c) := by simp [hh, hl]
      unfold State.settleLicence
      simp only [hh, ht, hr]
      split
      · exact hne
      split
      · simp
      split
      · exact hne
      · simp

/-- A licence whose array is idle is given up (10 R208). -/
theorem State.holdsLicence_leaveLicence {c : Nat} (hb : (s.eng c).arrayBusy = none) : (s.leaveLicence c).holdsLicence c = false := by
  unfold State.leaveLicence
  dsimp only
  split
  · split
    · simp [State.holdsLicence, State.pair_passLicence]
    · simp [State.holdsLicence]
  · rename_i h
    simpa [hb] using h

/-- In a withheld interval the holder of an idle array parks the licence, and nothing is granted (12 R229). -/
theorem State.settleLicence_withheld {p : Nat} (hw : (s.pair p).withheld = true)
    (hb : ∀ crown, (s.pair p).holder = some crown → (s.eng (pairCore p crown)).arrayBusy = none) :
    (s.settleLicence p).pair p = { s.pair p with holder := none } := by
  unfold State.settleLicence
  cases hh : (s.pair p).holder with
  | none =>
    have hp : s.pair p = { s.pair p with holder := none, withheld := true } := by rw [← hh, ← hw]
    simp only [hh, hw, if_true]
    exact hp
  | some crown => simp only [hh, hb crown hh, hw, Option.isSome_none, Bool.false_eq_true, if_false, if_true, State.pair_setPair]

/-- A licence as the withheld interval's start leaves it where the holder's array is idle. -/
theorem State.pair_withheld {p : Nat} (hb : ∀ crown, (s.pair p).holder = some crown → (s.eng (pairCore p crown)).arrayBusy = none) :
    ((s.setPair p { s.pair p with withheld := true }).settleLicence p).pair p = { s.pair p with withheld := true, holder := none } := by
  rw [State.settleLicence_withheld (by simp) (by simpa using hb), State.pair_setPair]

/-- Grants are made again, and a parked licence goes to a requester (12 R229). -/
def State.openWindow (s : State) (p : Nat) : State := (s.setPair p { s.pair p with withheld := false }).settleLicence p

theorem State.openWindow_leaves (s : State) (p : Nat) : LicenceOnly s (s.openWindow p) :=
  (LicenceOnly.setPair s p _).trans (State.settleLicence_leaves _ _)

theorem State.pair_openWindow_parked {p : Nat} (hh : (s.pair p).holder = none) :
    ((s.openWindow p).pair p).withheld = false ∧ ((s.openWindow p).pair p).holder =
      if (s.asks (pairCore p false)).isSome then some false else if (s.asks (pairCore p true)).isSome then some true else none := by
  unfold State.openWindow State.settleLicence
  simp only [State.pair_setPair, State.asks_setPair, hh, Bool.false_eq_true, if_false]
  split
  · simp [State.withheld_grantParked, State.holder_grantParked]
  split
  · simp [State.withheld_grantParked, State.holder_grantParked]
  · simp

end

/-! ## Gating and waking (06 R123, R124; 12 R230) -/

section
variable (s : State) (c : Nat)

theorem State.restartIdle_enginesOnly : EnginesOnly s (s.restartIdle c) := by
  unfold State.restartIdle
  split <;> rfl

theorem State.joinInrush_enginesOnly : EnginesOnly s (s.joinInrush c) := rfl

theorem State.wakeEngine_enginesOnly : EnginesOnly s (s.wakeEngine c) := by
  unfold State.wakeEngine
  split
  · split <;> rfl
  · rfl
  · rfl
  · exact s.restartIdle_enginesOnly c

theorem State.eng_joinInrush : (s.joinInrush c).eng c = { s.eng c with gate := .queued, wakeWanted := false } := by
  simp [State.joinInrush]

theorem State.inrush_joinInrush : ((s.joinInrush c).cluster (clusterOf c)).inrush = (s.cluster (clusterOf c)).inrush ++ [c] := by
  simp [State.joinInrush]

theorem State.eng_restartIdle : (s.restartIdle c).eng c = { s.eng c with idleSince := ((s.restartIdle c).eng c).idleSince } := by
  unfold State.restartIdle
  split
  · simp
  · rfl

theorem State.hold_wakeEngine : ((s.wakeEngine c).eng c).hold = (s.eng c).hold := by
  unfold State.wakeEngine
  split
  · split
    · rw [s.eng_joinInrush]
    · simp
  · rfl
  · rfl
  · rw [s.eng_restartIdle]

end

/-- LICQ's bit 0: the hold is set, and watched (10 R208). -/
theorem State.licqHold_leaves (s : State) (c p : Nat) (b : Bool) :
    let u := if b = true then (s.setEng c { s.eng c with hold := true }).watchHold p else s
    EnginesOnly s u ∧ (u.eng c).hold = (b || (s.eng c).hold) := by
  cases b with
  | false => exact ⟨rfl, rfl⟩
  | true =>
    have h := State.watchHold_leaves (s.setEng c { s.eng c with hold := true }) p
    exact ⟨(EnginesOnly.setEng s c _).trans h.enginesOnly, (h.hold c).trans (by simp)⟩

/-- LICQ's request, registered now or when the engine has woken, keeps the hold (10 R208). -/
theorem State.licqAsks_leaves (s : State) (c : Nat) (held : Prop) [Decidable held] :
    let u := if held then s
      else if (s.eng c).isAwake = true then s.requestLicence c
      else (s.wakeEngine c).setEng c { (s.wakeEngine c).eng c with licqPending := true }
    EnginesOnly s u ∧ (u.eng c).hold = (s.eng c).hold := by
  dsimp only
  split
  · exact ⟨rfl, rfl⟩
  split
  · have h := s.requestLicence_leaves c
    exact ⟨h.enginesOnly, h.hold c⟩
  · exact ⟨(s.wakeEngine_enginesOnly c).trans (EnginesOnly.setEng _ _ _), by rw [State.eng_setEng, s.hold_wakeEngine]⟩

/-- The arbiter lets the wake of core c begin, the first of its cluster's queue (06 R124). -/
def State.beginWake (s : State) (cl c : Nat) (r : List Nat) : State :=
  ((s.setCluster cl { s.cluster cl with inrush := r, inrushFree := s.now + 64 * tickLen c }).setEng c { s.eng c with gate := .waking }).schedule
    (s.now + 200 * tickLen c) (.engineWakeComplete c)

/-- The engine of core c accepts work, and registers the request of a LICQ that waited for it (06 R124; 10 R208). -/
def State.awaken (s : State) (c : Nat) : State :=
  let u := (s.setEng c { s.eng c with gate := .awake, licqPending := false }).restartIdle c
  if (s.eng c).licqPending then u.requestLicence c else u

theorem State.awaken_leaves (s : State) (c : Nat) :
    EnginesOnly s (s.awaken c) ∧ ((s.awaken c).eng c).gate = .awake ∧ ((s.awaken c).eng c).licqPending = false := by
  have hu := (EnginesOnly.setEng s c _).trans (State.restartIdle_enginesOnly (s.setEng c { s.eng c with gate := .awake, licqPending := false }) c)
  have he := State.eng_restartIdle (s.setEng c { s.eng c with gate := .awake, licqPending := false }) c
  have hl := State.requestLicence_leaves ((s.setEng c { s.eng c with gate := .awake, licqPending := false }).restartIdle c) c
  unfold State.awaken
  dsimp only
  split
  · refine ⟨hu.trans hl.enginesOnly, ?_, ?_⟩
    · rw [hl.gate, he, State.eng_setEng]
    · rw [hl.licqPending, he, State.eng_setEng]
  · refine ⟨hu, ?_, ?_⟩ <;> rw [he, State.eng_setEng]

theorem State.wakeEngine_gated {s : State} {c h : Nat} (hg : (s.eng c).gate = .gated h) (hn : h ≤ s.now) : s.wakeEngine c = s.joinInrush c := by
  unfold State.wakeEngine
  rw [hg]
  exact if_pos hn

end Sys2Proof.Machine

namespace Sys2Proof.Claims
open Sys2Proof.Machine

/-! ## WAKE, LICQ, LICR (06 R124; 10 R208) -/

section
variable {s u : State}

/-- Completing after the engine's part of an instruction is completing. -/
theorem retire_after_engines (h : EnginesOnly s u) (n : Nat) (st : BitVec 2) :
    let t := u.retire n st
    GoesOn s t (s.me.pc + BitVec.ofNat 64 n) st ∧ KeepsRegs s t ∧ KeepsStrand s t ∧ KeepsMemory s t ∧ KeepsSlots s t := by
  obtain ⟨hg, hr, hk, hm⟩ := goesOn_retire (st := st) u n
  refine ⟨?_, ?_, ?_, ?_, ?_⟩
  · unfold GoesOn at *; rwa [h.me, h.base, h.coreId] at hg
  · unfold KeepsRegs at *; rwa [h.me] at hr
  · unfold KeepsStrand at *; rwa [h.me] at hk
  · exact h.keepsMemory
  · intro id hid
    rw [hm.2 id (by rwa [h.cur])]
    exact congrArg (tget · id {}) h.slots

/-- Writing a register and completing after the engine's part of an instruction. -/
theorem retire_writes_after_engines (h : EnginesOnly s u) {d : BitVec 7} (v : Word) (hd : s.me.regOk d.toNat = true) (n : Nat) (st : BitVec 2) :
    let t := (u.wx d v).retire n st
    Writes s t d v ∧ GoesOn s t (s.me.pc + BitVec.ofNat 64 n) st ∧ KeepsStrand s t ∧ KeepsMemory s t ∧ KeepsSlots s t := by
  have hu : (u.wx d v).me = s.me.wx d v := by rw [State.me_wx, h.me]
  have hw : Writes s (u.wx d v) d v := by
    unfold Writes State.rx
    rw [hu]
    exact ⟨s.me.rx_wx_same d v, fun r hr hne => s.me.rx_wx_other v hd hr hne⟩
  have hk : KeepsStrand s (u.wx d v) := by
    unfold KeepsStrand
    rw [hu]
    unfold Slot.wx
    split <;> rfl
  obtain ⟨hg, -, hk', hm⟩ := goesOn_retire (st := st) (u.wx d v) n
  refine ⟨Writes.retire hw, ?_, hk.trans hk', h.keepsMemory, fun id hid => ?_⟩
  · unfold GoesOn at *
    rwa [hu, Slot.pc_wx, State.base_wx, h.base, show (u.wx d v).coreId = s.coreId from h.coreId] at hg
  · have hid' : id ≠ u.cur := by rwa [h.cur]
    rw [hm.2 id hid', State.wx, State.setMe, State.slot_setSlot_other _ _ hid']
    exact congrArg (tget · id {}) h.slots

theorem wakeAndLicence : WakeAndLicence := by
  intro s d a st c
  refine ⟨fun h hg hn => ?_, fun hs => ?_, ?_⟩
  · have hw : s.wakeEngine c = s.joinInrush c := State.wakeEngine_gated hg hn
    obtain ⟨hgo, hr, hk, hm, hsl⟩ := retire_after_engines (s.joinInrush_enginesOnly c) 4 st
    refine ⟨(s.joinInrush c).retire 4 st, ?_, ?_, s.inrush_joinInrush c, hgo, hr, hk, hm, hsl⟩
    · change Host.Outcome.next ((s.wakeEngine c).retire 4 st) = _
      rw [hw]
    · exact congrArg Engine.gate (s.eng_joinInrush c)
  · obtain ⟨h1, hh1⟩ := s.licqHold_leaves c (pairOf c) (bitAt (s.rx a) 0)
    obtain ⟨h2, hh2⟩ := State.licqAsks_leaves _ c ((if s.holdsLicence c then 1 else 0 : Word) = 1)
    obtain ⟨hw, hgo, hk, hm, hsl⟩ := retire_writes_after_engines (h1.trans h2) (if s.holdsLicence c then 1 else 0) (hs.regOk (r := d) (by simp)) 4 st
    exact ⟨_, congrArg Host.Outcome.next (hs.guarded _), hw, hgo, hk, hm, hsl, hh2.trans hh1⟩
  · have hl := State.leaveLicence_leaves (s.setEng c { s.eng c with hold := false, request := none, licqPending := false }) c
    obtain ⟨hgo, hr, hk, hm, hsl⟩ := retire_after_engines ((EnginesOnly.setEng s c _).trans hl.enginesOnly) 4 st
    refine ⟨_, rfl, ?_, hgo, hr, hk, hm, hsl, fun hb => ?_⟩
    · exact (hl.hold c).trans (by simp)
    · exact State.holdsLicence_leaveLicence ((congrArg Engine.arrayBusy (s.eng_setEng c _)).trans hb)

end

/-! ## Gating, the in-rush queue and the licence's passes (06 R123, R124; 10 R207; 12 R229, R230) -/

theorem enginesGateAndWake : EnginesGateAndWake := by
  intro s c cl hc
  refine ⟨fun hev hg hi hd => ?_, fun h hev hg hn hw => ?_, fun r hev hq hf => ?_, fun hev hg => ?_⟩
  · have haw : (s.eng c).isAwake = true := beq_iff_eq.mpr hg
    have hb : (s.eng c).arrayBusy = none := by
      simp only [Core.engineIdle, Bool.and_eq_true, Option.isNone_iff_eq_none] at hi
      exact hi.1.1.2
    have hx : exec .engineGate s = .next (((s.setEng c { s.eng c with gate := .gated (s.now + 1024 * tickLen c), request := none }).settleLicence
        (pairOf c)).schedule (s.now + 1024 * tickLen c) (.breakEvenHoldExpiry c)) := by
      change execEngineGate s = _
      unfold execEngineGate
      rw [hev]
      exact if_pos (by simp [haw, hi]; exact hd)
    have hl := State.settleLicence_leaves (s.setEng c { s.eng c with gate := .gated (s.now + 1024 * tickLen c), request := none }) (pairOf c)
    have hframe := (EnginesOnly.setEng s c _).trans hl.enginesOnly
    refine ⟨_, hx, (hl.gate c).trans (congrArg Engine.gate (s.eng_setEng c _)), ?_, hframe.keepsMemory, hframe.slots, State.due_schedule _ _ _⟩
    exact State.holdsLicence_settleLicence hc (by rw [State.eng_setEng]; rfl) (s.asks_setEng_none c _ rfl) (by rw [State.eng_setEng]; exact hb)
  · refine ⟨s.joinInrush c, ?_, congrArg Engine.gate (s.eng_joinInrush c), congrArg Engine.wakeWanted (s.eng_joinInrush c), s.inrush_joinInrush c,
      (s.joinInrush_enginesOnly c).keepsMemory, rfl⟩
    change execBreakEvenHoldExpiry s = _
    unfold execBreakEvenHoldExpiry
    rw [hev]
    dsimp only
    rw [show (s.eng c).gate = .gated h from hg]
    exact congrArg Host.Outcome.next (if_pos ⟨hn, hw⟩)
  · have hx : exec .inrushAdmission s = .next
        (if r = [] then s.beginWake cl c r else (s.beginWake cl c r).schedule (s.now + 64 * tickLen c) (.inrushAdmission cl)) := by
      change execInrushAdmission s = _
      unfold execInrushAdmission
      rw [hev]
      dsimp only
      rw [hq]
      exact if_neg (by omega)
    have hg : ((s.beginWake cl c r).eng c).gate = .waking := by simp [State.beginWake]
    have hk : ((s.beginWake cl c r).cluster cl).inrush = r ∧ ((s.beginWake cl c r).cluster cl).inrushFree = s.now + 64 * tickLen c := by
      simp [State.beginWake]
    have hd : (s.now + 200 * tickLen c, Ev.engineWakeComplete c) ∈ (s.beginWake cl c r).agenda := State.due_schedule _ _ _
    refine ⟨_, hx, ?_⟩
    split
    · exact ⟨hg, hk.1, hk.2, hd, ⟨rfl, rfl⟩, rfl⟩
    · exact ⟨hg, hk.1, hk.2, mem_agendaInsert_of_mem _ _ _ hd, ⟨rfl, rfl⟩, rfl⟩
  · have hx : exec .engineWakeComplete s = .next ((s.awaken c).soon (.gatherBegin c)) := by
      change execEngineWakeComplete s = _
      unfold execEngineWakeComplete
      rw [hev]
      exact if_pos hg
    obtain ⟨hframe, hgate, hlicq⟩ := s.awaken_leaves c
    refine ⟨_, hx, hgate, hlicq, ?_, hframe.keepsMemory, hframe.slots⟩
    rw [← hframe.now]
    exact State.due_soon _ _

theorem licencesPassAndPark : LicencesPassAndPark := by
  intro s c p hc
  refine ⟨fun q hev hh hb hw hf hq hk => ?_, fun hp hev hd hb => ?_, fun hp hev hh => ?_⟩
  · rw [State.holdsLicence_iff] at hh
    have hm : s.mayBegin (pairOf c) c = false := by simp [State.mayBegin, hf]
    have hpass : s.settleLicence (pairOf c) = s.passLicence (pairOf c) (layerOf c) :=
      State.settleLicence_passes (pairCore_layerOf hc) hh hb hw hq hm hk
    have hl := s.passLicence_leaves (pairOf c) (layerOf c)
    have hpair := s.pair_passLicence (pairOf c) (layerOf c)
    refine ⟨s.passLicence (pairOf c) (layerOf c), ?_, ?_, ?_, ?_, ?_, hl.enginesOnly.keepsMemory, hl.enginesOnly.slots⟩
    · change execHoldQuantumExpiry s = _
      unfold execHoldQuantumExpiry
      rw [hev]
      exact congrArg Host.Outcome.next hpass
    · rw [State.holdsLicence_iff, pairOf_twinOf, layerOf_twinOf hc, hpair]
    · simp [State.holdsLicence, hpair]
    · rw [hpair, pairCore_layerOf hc]
    · rw [← pairCore_not_layerOf hc]
      exact s.request_passLicence _ _
  · have hpair := State.pair_withheld hb
    have hframe := ((LicenceOnly.setPair s p { s.pair p with withheld := true }).trans (State.settleLicence_leaves _ p)).enginesOnly
    refine ⟨_, ?_, congrArg Pair.withheld hpair, congrArg Pair.holder hpair, by rw [hpair], hframe.keepsMemory, hframe.slots⟩
    change execWithheldIntervalStart s = _
    unfold execWithheldIntervalStart
    rw [hev]
    exact if_neg hd
  · have hx : ∃ t, exec .dutyWindowStart s = .next t ∧ t.pair p = (s.openWindow p).pair p ∧ EnginesOnly (s.openWindow p) t := by
      change ∃ t, execDutyWindowStart s = .next t ∧ _
      unfold execDutyWindowStart
      rw [hev]
      dsimp only
      split
      · exact ⟨_, rfl, rfl, rfl⟩
      · exact ⟨_, rfl, rfl, rfl⟩
    obtain ⟨t, hx, ht, hframe⟩ := hx
    have hframe := (s.openWindow_leaves p).enginesOnly.trans hframe
    obtain ⟨hopen, hholder⟩ := State.pair_openWindow_parked hh
    refine ⟨t, hx, by rw [ht, hopen], hframe.keepsMemory, hframe.slots, fun hroot => ?_, fun hnone hcrown => ?_⟩
    · rw [ht, hholder]
      exact if_pos hroot
    · have hroot : ¬(s.asks p).isSome = true := by simp [hnone]
      rw [ht, hholder]
      exact (if_neg hroot).trans (if_pos hcrown)

/-- Settles O26: each operation on the licence changes of an engine nothing but its request, and where it leaves the licence is read off its cases. -/
theorem enginePowerAndLicences : Obligations.EnginePowerAndLicences :=
  ⟨wakeAndLicence, enginesGateAndWake, licencesPassAndPark⟩

end Sys2Proof.Claims
end

section
/-! An access that loses its bank (06 R109, R119). -/

namespace Sys2Proof.Machine

theorem State.withBank_lost {s : State} {pa : Nat} (k : State → State) (h : s.winBank pa = none) : s.withBank pa k = s.forfeit := by
  rw [State.withBank, h]

/-- A load of the strand's own memory that loses its bank forfeits the cycle. -/
theorem State.doLoad_lost {s : State} {n pa : Nat} {va : Word} (f : InFlight) (l1 : Bool) (hr : Claims.Reaches s n va .read (.ownMem pa))
    (hw : s.winBank pa = none) : s.doLoad f n va l1 = s.forfeit := by
  obtain ⟨ha, ht⟩ := hr
  unfold State.doLoad
  rw [State.reach_ok _ ha ht rfl rfl (by simp), State.fillTlb_of_ownMem ht]
  exact State.withBank_lost _ hw

end Sys2Proof.Machine

namespace Sys2Proof.Claims

open Sys2Proof.Machine

/-- What all plain stores share: once their checks pass, and a release has nothing to wait for, they enter the store path at the place they
reach. -/
def Store.Runs (f : Store) (s : State) : Prop :=
  Settled s f.regs → (f.rel = true → s.me.unacked = []) → ∃ k, exec f.instr s = .next (s.reach f.size f.addr .write false true k) ∧
    ∀ p, k p s = s.storeTo p f.size f.addr f.value f.bytes f.st

theorem stores_run (s : State) (d a b : BitVec 7) (d' a' : BitVec 4) (o : BitVec 6) (o' : BitVec 3) (st : BitVec 2) :
    ∀ f ∈ stores s d a b d' a' o o' st, f.Runs s := by
  simp only [stores, List.forall_mem_cons]
  refine ⟨?_, ?_, ?_, ?_, ?_, ?_, ?_, List.forall_mem_nil _⟩
  case refine_6 => exact fun h hrel => ⟨_, congrArg Host.Outcome.next (h.guarded _), fun _ => released_of_acked _ (hrel rfl)⟩
  all_goals exact fun h _ => ⟨_, congrArg Host.Outcome.next (h.guarded _), fun _ => rfl⟩

/-- What an access that loses its bank leaves. -/
theorem forfeit_lost (s : State) : OnlyMe s s.forfeit ∧
    s.forfeit.me = { s.me with wait := .cond .bank, nextTick := s.now + 16 * tickLen s.coreId, losses := s.me.losses + 1 } :=
  ⟨OnlyMe.setMe s _, State.me_setMe s _⟩

theorem lostBanksForfeitTheIssue : LostBanksForfeitTheIssue := by
  intro s d a b d' a' o o' st pa hlost lost
  refine ⟨fun f hf hs hr => ?_, fun f hf hs hr hw hrel => ?_⟩
  · exact ⟨_, by rw [(loads_run s d a b d' a' o o' st f hf).exec hs, State.doLoad_lost _ _ hr hlost], forfeit_lost s⟩
  · obtain ⟨k, hx, hk⟩ := stores_run s d a b d' a' o o' st f hf hs hrel
    obtain ⟨ha, ht⟩ := hr
    rw [State.reach_ok _ ha ht rfl rfl fun _ => hw, State.fillTlb_of_ownMem ht, hk] at hx
    exact ⟨_, hx.trans (congrArg Host.Outcome.next (State.withBank_lost _ hlost)), forfeit_lost s⟩

end Sys2Proof.Claims
end

section
/-! A load that a DET job's home must serve (05 R106; 22 R354). -/

namespace Sys2Proof.Machine

/-- An access that translates to HBM has its address there. -/
theorem State.isHbm_of_translate {s : State} {core job : Nat} {va : Word} {acc : Access} {pa : Nat} {t : Bool}
    (h : s.translate core job va acc = .hbm pa t) : isHbm pa = true := by
  unfold State.translate State.translateBy at h
  dsimp only at h
  split at h
  · cases h
  split at h
  · cases h
  split at h
  · cases h
  split at h
  · split at h <;> cases h
  split at h
  · cases h
  unfold State.leafPlace at h
  dsimp only at h
  split at h
  · next hh =>
    split at h
    · cases h
    split at h
    · cases h; exact hh
    · cases h
  split at h
  · split at h <;> cases h
  · cases h

theorem State.injectFrom_congr {s t : State} (h : t.timed = s.timed) (src flits : Nat) :
    ∀ fuel m, t.injectFrom src flits fuel m = s.injectFrom src flits fuel m := by
  intro fuel
  induction fuel with
  | zero => intro m; rfl
  | succ fuel ih => intro m; simp only [State.injectFrom, h, ih]

/-- A packet between a home and another endpoint sets TIMED only from a core. -/
theorem State.lt_of_isTimed {s : State} {j src h : Nat} (ht : s.isTimed j src (homeEnd h) = true) : src < 1024 := by
  simp only [State.isTimed, homeEnd, Bool.and_eq_true, Bool.or_eq_true, decide_eq_true_eq] at ht
  exact ht.2.resolve_right (by simp)

theorem routerOf_homeEnd (h : Nat) : routerOf (homeEnd h) = homeRouter h := by
  unfold routerOf homeEnd
  rw [if_neg (by omega), Nat.add_sub_cancel_left]

/-- A packet of the timed channel reaches a home 2 mc for each hop and 6 mc after the mc of its injection (22 R354). -/
theorem State.due_carry_home {s : State} {j src h : Nat} (ht : s.isTimed j src (homeEnd h) = true) (flits : Nat) (e : Ev) :
    ((s.injectFrom src flits 4096 s.mcNow + 2 * hops src (homeRouter h) + 6) * mcTicks, Ev.timed s.nextTimed e) ∈
      (s.carry j src (homeEnd h) flits e).agenda := by
  have hsrc := s.lt_of_isTimed ht
  have hr : routerOf src = src := if_pos hsrc
  unfold State.carry
  rw [if_pos ht, if_pos hsrc, hr, routerOf_homeEnd]
  exact State.due_schedule _ _ _

end Sys2Proof.Machine

namespace Sys2Proof.Claims

open Sys2Proof.Machine

/-- A strand that waits for an answer, once its request is under way. -/
theorem leaves_rotation {s u : State} (h : SliceOnly s u) (st : BitVec 2) (f : Option InFlight) :
    let t := (u.leave st).setMe { (u.leave st).me with wait := .retry, inFlight := f }
    t.me.wait = .retry ∧ t.me.pc = s.me.pc ∧ KeepsRegs s t ∧ KeepsMemory s t ∧ KeepsSlots s t ∧ t.agenda = u.agenda := by
  have hme : (u.leave st).me = { s.me with nextTick := u.base + 16 * (1 + st.toNat) * tickLen u.coreId } := by
    rw [← h.me]; exact State.me_setMe _ _
  dsimp only
  refine ⟨?_, ?_, ?_, ⟨h.mem, h.fe⟩, fun id hid => ?_, rfl⟩
  · rw [State.me_setMe]
  · rw [State.me_setMe, hme]
  · unfold KeepsRegs; rw [State.me_setMe, hme]; exact ⟨rfl, rfl⟩
  · have hcur : u.cur = s.cur := by rw [h]
    have hid' : id ≠ u.cur := by rwa [hcur]
    rw [State.slot_setMe_other _ _ (show id ≠ (u.leave st).cur from hid')]
    unfold State.leave
    rw [State.slot_setMe_other _ _ hid']
    rw [h]
    rfl

/-- An access sent on the timed channel takes its strand out of rotation, and its request is on its way. -/
theorem askTimed_home {s : State} {pa : Nat} (f : InFlight) (op : MemOp) (va data data2 : Word) (ht : s.timedHome pa = true) (hp : isHbm pa = true) :
    let t := s.askTimed f (homeEnd (homeOf pa)) op va pa data data2 []
    t.me.wait = .retry ∧ t.me.pc = s.me.pc ∧ KeepsRegs s t ∧ KeepsMemory s t ∧ KeepsSlots s t ∧
      ∃ r : Request, r.op = op ∧ r.pa = some pa ∧ r.origin = .slot s.cur ∧
        ((s.injectFrom s.coreId 1 4096 s.mcNow + 2 * hops s.coreId (homeRouter (homeOf pa)) + 6) * mcTicks, Ev.timed s.nextTimed (.homeRequest r)) ∈
          t.agenda := by
  let s' := { s with fresh := s.fresh + 1 }
  let r : Request := { s.request op va data data2 [] with pa := some pa, tag := s.fresh + 1 }
  have hslice := (SliceOnly.setFresh s (s.fresh + 1)).trans (s'.carry_sliceOnly s.myGang.job s.coreId (homeEnd (homeOf pa)) 1 (.homeRequest r))
  have hdue := State.due_carry_home (s := s') ht 1 (.homeRequest r)
  rw [State.injectFrom_congr (s := s) (t := s') rfl] at hdue
  obtain ⟨hw, hpc, hk, hm, hsl, ha⟩ := leaves_rotation hslice f.st
    (some { f with tag := s.fresh + 1, pa := pa, va := va, park := op.parkKind, wrote := if op.registers && isHbm pa then some pa else none })
  unfold State.askTimed
  dsimp only
  rw [if_pos hp]
  exact ⟨hw, hpc, hk, hm, hsl, r, rfl, rfl, rfl, ha ▸ hdue⟩

theorem timedLoadsTravelExactly : TimedLoadsTravelExactly := by
  intro s d a b d' a' o o' st f hf tb pa hs hr hun ht
  have hrun := loads_run s d a b d' a' o o' st f hf
  have hleaves := (s.fillTlb_tlbs s.coreId s.myGang.job f.addr).leaves
  have hx := hrun.exec hs
  rw [doLoad_hbm f.flight f.l1 hr, not_held_of_uncached hun, if_neg Bool.false_ne_true, if_pos ht] at hx
  have hp := State.isHbm_of_translate hr.2
  have ht' := ((HomeSame.of_leaves hleaves).timedHome pa).trans ht
  generalize s.fillTlb s.coreId s.myGang.job f.addr = u at *
  obtain ⟨hw, hpc, hk, hm, hsl, r, hop, hpa, ho, hdue⟩ := askTimed_home { f.flight with fill := f.l1 } (.load f.size) f.addr 0 0 ht' hp
  have hinj : u.injectFrom s.coreId 1 4096 u.mcNow = s.injectFrom s.coreId 1 4096 s.mcNow := by
    rw [State.injectFrom_congr (s := s) (by rw [hleaves])]
    rw [hleaves]
    rfl
  have hnext : u.nextTimed = s.nextTimed := by rw [hleaves]
  have hslots : u.slots = s.slots := by rw [hleaves]
  rw [hleaves.coreId, hinj, hnext] at hdue
  rw [hleaves.cur] at ho
  refine ⟨_, r, hx, hw, hpc.trans (by rw [hleaves.me]), ?_, ?_, ?_, hop, hpa, ho, hdue⟩
  · unfold KeepsRegs at *; rwa [hleaves.me] at hk
  · unfold KeepsMemory at *; rwa [hleaves.mem, hleaves.fe] at hm
  · intro id hid
    rw [hsl id (by rwa [hleaves.cur])]
    exact congrArg (tget · id {}) hslots

end Sys2Proof.Claims
end

section
/-! Failing beats and uncorrectable words of HBM (25 R397, R398, R400). -/

namespace Sys2Proof.Machine

/-- Nothing but the logs differs. -/
def LogsOnly (s t : State) : Prop := t = { s with logs := t.logs, logLost := t.logLost }

theorem LogsOnly.trans {s t u : State} (h : LogsOnly s t) (h' : LogsOnly t u) : LogsOnly s u := by
  unfold LogsOnly at *
  rw [h']; conv_lhs => rw [h]

theorem State.logError_logsOnly (s : State) (ring : Nat) (e : Word) : LogsOnly s (s.logError ring e) := by
  unfold State.logError
  dsimp only
  split
  · rfl
  · split <;> rfl

theorem State.foldl_logError (ring : Nat) (e : Word) (l : List Nat) :
    ∀ s : State, LogsOnly s (l.foldl (fun (u : State) _ => u.logError ring e) s) := by
  induction l with
  | nil => exact fun _ => rfl
  | cons _ l ih => exact fun s => (s.logError_logsOnly ring e).trans (ih _)

/-- Nothing but the logs, the lanes in use and the damage marks differs. -/
def ErrorsOnly (s t : State) : Prop := t = { s with logs := t.logs, logLost := t.logLost, channels := t.channels, bad := t.bad }

section
variable {s t u : State}

theorem ErrorsOnly.trans (h : ErrorsOnly s t) (h' : ErrorsOnly t u) : ErrorsOnly s u := by
  unfold ErrorsOnly at *
  rw [h']; conv_lhs => rw [h]

theorem LogsOnly.bad (h : LogsOnly s t) : t.bad = s.bad := by rw [h]
theorem LogsOnly.channels (h : LogsOnly s t) : t.channels = s.channels := by rw [h]

theorem LogsOnly.errorsOnly (h : LogsOnly s t) : ErrorsOnly s t := by
  unfold ErrorsOnly
  conv_lhs => rw [h]
  rw [h]

end

/-- The damaged words are those there were and the new ones. -/
theorem State.mem_bad_damage {l : List Nat} {w : Nat} {s : State} : w ∈ (s.damage l).bad ↔ w ∈ l ∨ w ∈ s.bad := by
  unfold State.damage
  dsimp only
  generalize s.bad = b
  induction l generalizing b with
  | nil => simp
  | cons a l ih =>
    have hb : w ∈ (if b.contains a then b else natInsert b a) ↔ w = a ∨ w ∈ b := by
      split
      · next h => exact ⟨Or.inr, fun hw => hw.elim (· ▸ List.contains_iff_mem.mp h) id⟩
      · exact mem_natInsert
    rw [List.foldl_cons, ih, hb, List.mem_cons]
    exact or_left_comm.trans or_assoc.symm

theorem LogsOnly.damage {s u : State} (h : LogsOnly s u) (l : List Nat) :
    u.damage l = { s with logs := (u.damage l).logs, logLost := (u.damage l).logLost, bad := (u.damage l).bad } :=
  congrArg (fun v : State => { v with bad := (u.damage l).bad }) h

theorem State.damage_errorsOnly (s : State) (l : List Nat) : ErrorsOnly s (s.damage l) := rfl

/-! ## A beat that fails its parity so many times in a row -/

/-- The state and spare lanes of the pseudo-channel of an address. -/
def channelKey (pa : Nat) : Nat := stackOf pa * 16 + Config.pseudoChannel (lineAddr pa) % 16

/-- Up to four retries are logged. -/
def State.retried (s : State) (pa fails : Nat) : State :=
  (List.range (min fails 4)).foldl
    (fun (u : State) _ => u.logError (stackLog (stackOf pa) 0) (logWord 0 (Config.pseudoChannel (lineAddr pa) % 16) 0 pa)) s

/-- The pseudo-channel of an address takes a spare lane and stops until a tick. -/
def State.laneTaken (s : State) (pa : Nat) (c : Channel) (stop : Nat) : State :=
  { s with channels := tset s.channels (channelKey pa) { used := c.used + 1, stop := stop } }

/-- A spare lane taken, which is logged. -/
def State.swapped (s : State) (pa lane : Nat) (c : Channel) (stop : Nat) : State :=
  (s.laneTaken pa c stop).logError (stackLog (stackOf pa) 1) (logWord 1 (Config.pseudoChannel (lineAddr pa) % 16) lane pa)

/-- The words of a beat left uncorrectable, which is logged. -/
def State.beatLost (s : State) (pa : Nat) : State :=
  (s.damage (beatWords pa)).logError (stackLog (stackOf pa) 3) (logWord 3 (Config.pseudoChannel (lineAddr pa) % 16) 0 pa)

section
variable (s : State) (pa lane fails : Nat)

theorem State.retried_logsOnly : LogsOnly s (s.retried pa fails) := State.foldl_logError _ _ _ s

theorem State.beatLost_errorsOnly : ErrorsOnly s (s.beatLost pa) := (s.damage_errorsOnly _).trans (State.logError_logsOnly _ _ _).errorsOnly

theorem State.mem_bad_beatLost (w : Nat) : w ∈ (s.beatLost pa).bad ↔ w ∈ beatWords pa ∨ w ∈ s.bad := by
  unfold State.beatLost
  rw [(State.logError_logsOnly _ _ _).bad, State.mem_bad_damage]

theorem State.swapped_leaves (c : Channel) (stop : Nat) :
    ErrorsOnly s (s.swapped pa lane c stop) ∧ (s.swapped pa lane c stop).bad = s.bad ∧
      tget (s.swapped pa lane c stop).channels (channelKey pa) {} = { used := c.used + 1, stop := stop } := by
  have hlane : ErrorsOnly s (s.laneTaken pa c stop) := rfl
  have hl := State.logError_logsOnly (s.laneTaken pa c stop) (stackLog (stackOf pa) 1) (logWord 1 (Config.pseudoChannel (lineAddr pa) % 16) lane pa)
  unfold State.swapped
  refine ⟨hlane.trans hl.errorsOnly, hl.bad, ?_⟩
  rw [hl.channels]
  exact tget_tset_same _ _ _ _

/-- What a failing beat does after its retries (25 R397). -/
theorem State.beatError_eq : s.beatError pa lane fails =
    if fails < 5 then s.retried pa fails
    else if (tget s.channels (channelKey pa) {}).used < 2 then
      if fails = 5 then (s.retried pa fails).swapped pa lane (tget s.channels (channelKey pa) {}) (s.now + 2 * usTicks)
      else ((s.retried pa fails).swapped pa lane (tget s.channels (channelKey pa) {}) (s.now + 2 * usTicks)).beatLost pa
    else ((s.retried pa fails).logError (stackLog (stackOf pa) 4) (logWord 4 (Config.pseudoChannel (lineAddr pa) % 16) 0 pa)).beatLost pa :=
  rfl

/-- Every outcome of a beat leaves all but the logs, its lanes and damage marks. -/
theorem State.beatError_errorsOnly : ErrorsOnly s (s.beatError pa lane fails) := by
  have hr := s.retried_logsOnly pa fails
  have hw := State.swapped_leaves (s.retried pa fails) pa lane (tget s.channels (channelKey pa) {}) (s.now + 2 * usTicks)
  rw [s.beatError_eq]
  split
  · exact hr.errorsOnly
  split
  · split
    · exact hr.errorsOnly.trans hw.1
    · exact (hr.errorsOnly.trans hw.1).trans (State.beatLost_errorsOnly _ _)
  · exact (hr.trans (State.logError_logsOnly _ _ _)).errorsOnly.trans (State.beatLost_errorsOnly _ _)

end

section
variable {s : State} {pa lane fails : Nat}

/-- A beat that fails on after its swap, or finds no spare lane, leaves its words uncorrectable. -/
theorem State.mem_bad_beatError (h : 5 < fails ∨ fails = 5 ∧ 2 ≤ (tget s.channels (channelKey pa) {}).used) (w : Nat) :
    w ∈ (s.beatError pa lane fails).bad ↔ w ∈ beatWords pa ∨ w ∈ s.bad := by
  have hr := (s.retried_logsOnly pa fails).bad
  rw [s.beatError_eq, if_neg (by omega)]
  split
  · rw [if_neg (by omega), State.mem_bad_beatLost, (State.swapped_leaves _ _ _ _ _).2.1, hr]
  · rw [State.mem_bad_beatLost, (State.logError_logsOnly _ _ _).bad, hr]

end

end Sys2Proof.Machine

namespace Sys2Proof.Claims

open Sys2Proof.Machine

theorem exec_hwError {s : State} {h : HwError} (hev : s.ev = some (.hwError h)) : exec .homeRequest s = .next (s.hwError h) := by
  change execHomeRequest s = _
  unfold execHomeRequest
  rw [hev]

theorem failingBeatsAndWords : FailingBeatsAndWords := by
  intro s pa lane fails key used
  refine ⟨fun hev => ⟨s.beatError pa lane fails, exec_hwError hev, s.beatError_errorsOnly pa lane fails, fun h => ?_, fun h hu => ?_, fun h => ?_⟩,
    fun hev hp => ?_, fun hev => ?_⟩
  · rw [s.beatError_eq, if_pos h]
    exact ⟨(s.retried_logsOnly pa fails).bad, (s.retried_logsOnly pa fails).channels⟩
  · have hr := s.retried_logsOnly pa fails
    obtain ⟨-, hbad, hlane⟩ := State.swapped_leaves (s.retried pa fails) pa lane (tget s.channels key {}) (s.now + 2 * usTicks)
    rw [s.beatError_eq, if_neg (by omega), if_pos (show (tget s.channels (channelKey pa) {}).used < 2 from hu), if_pos h]
    exact ⟨hbad.trans hr.bad, hlane⟩
  · have hmem := State.mem_bad_beatError (lane := lane) h
    exact ⟨fun w hw => (hmem w).mpr (.inl hw), fun w hw => (hmem w).mpr (.inr hw)⟩
  · have hl := s.logError_logsOnly (stackLog (stackOf pa) 3) (logWord 3 (Config.pseudoChannel (lineAddr pa)) 0 pa)
    have hword : pa / 8 * 8 + pa % 2 = wordAddr pa := by rw [hp]; rfl
    have hx : exec .homeRequest s = .next ((s.logError (stackLog (stackOf pa) 3) (logWord 3 (Config.pseudoChannel (lineAddr pa)) 0 pa)).damage
        [wordAddr pa]) := by
      rw [← hword]
      exact exec_hwError hev
    exact ⟨_, hx, State.mem_bad_damage.mpr (.inl (List.mem_singleton_self _)), fun w hw => State.mem_bad_damage.mpr (.inr (by rwa [hl.bad])),
      hl.damage _⟩
  · exact ⟨_, exec_hwError hev, s.logError_logsOnly _ _⟩

end Sys2Proof.Claims
end

section
/-! Packets of other modules in the order of their flow (22 R350, R351, R353, R358). -/

namespace Sys2Proof.Machine

/-- The first pending step is performed where it goes before every instruction. -/
theorem step_performs_first {s : State} {t : Nat} {e : Ev} {rest : List (Nat × Ev)} (hs : s.agenda = (t, e) :: rest)
    (hr : ∀ tick id, s.firstReady s.slots = some (tick, id) → s.goesFirst t tick = true) : step s = s.perform t e rest := by
  unfold step
  cases h : s.firstReady s.slots with
  | none => simp [hs]
  | some k => simp [hs, hr k.1 k.2 h]

section
variable {s : State} {t engine : Nat} {h : PacketHead} {e : Ev} {rest : List (Nat × Ev)}

/-- The state in which a pending step is performed. -/
def State.atStep (s : State) (t : Nat) (e : Ev) (rest : List (Nat × Ev)) : State := { s with agenda := rest, now := max s.now t, ev := some e }

theorem State.perform_held {v : State} (hv : (s.atStep t e rest).heldPacket (.fromModule h engine e) = some v) :
    s.perform t (.fromModule h engine e) rest = .next v := by
  have hb : (s.atStep t e rest).heldBack (.fromModule h engine e) = some v := hv
  unfold State.atStep at hb
  unfold State.perform
  simp only [plainEv, hb]

theorem State.perform_free (hv : (s.atStep t e rest).heldPacket (.fromModule h engine e) = none) :
    s.perform t (.fromModule h engine e) rest = exec e.instr ((s.atStep t e rest).inFlow (.fromModule h engine e)) := by
  have hb : (s.atStep t e rest).heldBack (.fromModule h engine e) = none := hv
  unfold State.atStep at *
  unfold State.perform
  simp only [plainEv, hb]
  rfl

theorem State.heldPacket_stale {p : (Nat × Nat) × Nat} (hp : s.peers.find? (fun p => p.1 == (h.job, h.modul)) = some p) (hi : p.2 ≠ h.inc) :
    s.heldPacket (.fromModule h engine e) = some { s with incDrop := tset s.incDrop engine (counterUp (tget s.incDrop engine 0) 1) } := by
  unfold State.heldPacket
  dsimp only
  rw [hp]
  exact if_pos (by simpa using hi)

/-- A packet of the recorded incarnation: ahead of a gap it waits, and else its destination's router judges it. -/
theorem State.heldPacket_current (hp : ∀ p, s.peers.find? (fun p => p.1 == (h.job, h.modul)) = some p → p.2 = h.inc) :
    s.heldPacket (.fromModule h engine e) =
      if h.cls ≠ 3 ∧ h.fseq % 256 ≠ (s.flow h).next then
        some (s.setFlow h { s.flow h with held := (s.flow h).held ++ [(h.fseq % 256, .fromModule h engine e)] })
      else if s.routerRefuses h then some (((s.inFlow (.fromModule h engine e)).countDrop h.dst).reportDrop h.dst 0 0 h.job)
      else none := by
  have hany : (s.peers.find? (fun p => p.1 == (h.job, h.modul))).any (fun p => p.2 != h.inc) = false := by
    rw [Option.any_eq_false]
    exact fun p hf => by simpa using hp p hf
  unfold State.heldPacket
  dsimp only
  rw [hany]
  rfl

theorem State.inFlow_unordered (hc : h.cls = 3) : s.inFlow (.fromModule h engine e) = s := if_pos hc

theorem State.inFlow_alone (hc : h.cls ≠ 3) (hf : (s.flow h).held = []) :
    s.inFlow (.fromModule h engine e) = s.setFlow h { s.flow h with next := ((s.flow h).next + 1) % 256 } := by
  unfold State.inFlow
  simp only [if_neg hc, hf, List.find?_nil]

theorem State.inFlow_followed (hc : h.cls ≠ 3) {w : Ev} (hf : (s.flow h).held = [(((s.flow h).next + 1) % 256, w)]) :
    s.inFlow (.fromModule h engine e) = (s.setFlow h { s.flow h with next := ((s.flow h).next + 1) % 256, held := [] }).soon w := by
  unfold State.inFlow
  simp only [if_neg hc, hf, List.find?_cons, beq_self_eq_true, dropFirst, if_true]

end

end Sys2Proof.Machine

namespace Sys2Proof.Claims

open Sys2Proof.Machine

theorem packetsKeepTheirFlow : PacketsKeepTheirFlow := by
  intro s t engine h e rest hs hr u f
  have hstep : step s = s.perform t (.fromModule h engine e) rest := step_performs_first hs hr
  have hnext : ∀ v, u.heldPacket (.fromModule h engine e) = some v → step s = .next v :=
    fun v hv => hstep.trans (State.perform_held hv)
  have hexec : u.heldPacket (.fromModule h engine e) = none → step s = exec e.instr (u.inFlow (.fromModule h engine e)) :=
    fun hv => hstep.trans (State.perform_free hv)
  refine ⟨fun p hp hi => hnext _ (State.heldPacket_stale hp hi), fun hp => ?_⟩
  have hcur := State.heldPacket_current (s := u) (engine := engine) (e := e) hp
  have hin : (h.cls ≠ 3 → h.fseq % 256 = f.next) → ¬(h.cls ≠ 3 ∧ h.fseq % 256 ≠ (u.flow h).next) := fun ho hc => hc.2 (ho hc.1)
  refine ⟨fun hc hq => hnext _ ?_, fun href ho => hnext _ ?_, fun href hc => ?_, fun href hc hq => ?_⟩
  · rw [hcur]
    exact if_pos ⟨hc, hq⟩
  · rw [hcur, if_neg (hin ho)]
    exact if_pos href
  · have hu : u.routerRefuses h = false := href
    rw [hexec (by rw [hcur, if_neg (hin (absurd hc)), hu]; rfl), State.inFlow_unordered hc]
  · have hu : u.routerRefuses h = false := href
    have hx := hexec (by rw [hcur, if_neg (hin fun _ => hq), hu]; rfl)
    exact ⟨fun hf => hx.trans (congrArg _ (State.inFlow_alone hc hf)), fun w hf => hx.trans (congrArg _ (State.inFlow_followed hc hf))⟩

end Sys2Proof.Claims
end

section
/-! A vector step that raises an enabled flag (09 R185). -/

namespace Sys2Proof.Machine

/-- A step's cycles are at least its form's. -/
theorem State.shape_cc_le_vCycles (s : State) (v : VInstr) (m : Nat) : (v.op.shape (s.me.oxr 6)).cc ≤ s.vCycles v m := by
  unfold State.vCycles
  dsimp only
  omega

/-- The write that brings an FPE when a step's cycles have passed. -/
def State.fpeWrite (s : State) (on : BitVec 5) (addr : Word) (at_ : Nat) : DelayedWrite :=
  { at_ := at_, reg := none, fw := s.me.mode, value := addr, flags := BitVec.ofNat 5 on.toNat, pc := some s.me.pc }

/-- An unprefixed vector instruction whose FPE is pending until a tick. -/
def State.fpePending (s : State) (on : BitVec 5) (addr : Word) (at_ : Nat) (st : BitVec 2) : State :=
  let u := s.deferFpe (fpeTrap on addr) at_ st
  u.setMe { u.me with stepAt := at_ }

end Sys2Proof.Machine

namespace Sys2Proof.Claims

open Sys2Proof.Machine

/-- A step's checks and results look at neither cores nor clusters. -/
theorem StepChecks.of_leaves {s u : State} {op : VOp} {regs : List (BitVec 7)} {m : Nat} (h : CoresAndClusters s u) (hc : StepChecks s op regs m) :
    StepChecks u op regs m := by
  rw [h]; exact hc

theorem stepResult_of_leaves {s u : State} (op : VOp) (regs : List (BitVec 7)) (m : Nat) (h : CoresAndClusters s u) :
    stepResult u op regs m = stepResult s op regs m := by
  rw [h]; rfl

/-- No inbox lies at the bytes that a VQNT writes at B, and no other form writes there (09 R181; 18 R297). -/
theorem no_inbox_under_qnt {s : State} {op : VOp} {sh : VShape} {m p : Nat} (h : op = .qnt → s.inInbox p = false) :
    (op == .qnt && (List.range (((op.spans sh m).2.2 + 63) / 64)).any fun k => s.inInbox (p + 64 * k)) = false := by
  by_cases hq : op = .qnt
  · rw [no_inbox_of_lines, Bool.and_false]
    intro k hk hlt
    have hk0 : k = 0 := by rw [hq] at hk hlt; simp only [VOp.spans] at hk hlt; omega
    rw [hk0]
    exact h hq
  · simp [hq]

/-- A step whose checks pass and that raises an enabled flag traps, with the flags that are on. -/
theorem vStep_raises {s : State} {v : VInstr} {m : Nat} (count : Option (BitVec 7)) (hv : v.Ordered) (h : StepChecks s v.op v.regs m)
    (hon : stepFlags (stepResult s v.op v.regs m) &&& s.me.enables ≠ 0) :
    ∃ addr, s.vStep v m count = .trap (fpeTrap (stepFlags (stepResult s v.op v.regs m) &&& s.me.enables) addr) := by
  obtain ⟨-, -, hops, hin, hinb, hda, hdb, hdd⟩ := h
  have h0 : pointer s v.regs 0 = (s.rx v.d).toNat := rfl
  have h1 := pointer_one (s := s) hv
  have h2 := pointer_two (s := s) hv
  unfold stepResult stepFlags at hon ⊢
  unfold State.vStep
  generalize s.me.oxr 6 = w at *
  simp only [h0, h1, h2, List.forall_mem_cons] at hops hin hinb hda hdb hdd hon ⊢
  obtain ⟨⟨hald, hd⟩, ⟨hala, ha⟩, ⟨halb, hb⟩, -⟩ := hops
  split
  · next t ht =>
    rw [vAlign_eq_none hald hala halb] at ht
    cases ht
  split
  · next t ht =>
    have hinb' := no_inbox_under_qnt (sh := v.op.shape w) (m := m) hinb
    simp only [List.findSome?_cons, List.findSome?_nil, vXlat_eq_none hd, vXlat_eq_none ha, vXlat_eq_none hb, vProt_eq_none hd, vProt_eq_none ha,
      vProt_eq_none hb, no_inbox_of_lines hin, hinb', Bool.and_false, Bool.false_and, Bool.false_eq_true, if_false, Option.orElse_none] at ht
    cases ht
  rw [if_neg]
  · exact ⟨_, if_pos (bne_iff_ne.mpr hon)⟩
  · simp only [hda, Bool.false_or, Bool.or_eq_true, Bool.and_eq_true, bne_iff_ne, beq_iff_eq, not_or, not_and, Bool.not_eq_true]
    exact ⟨hdb, hdd⟩

section
variable {s u : State} {v : VInstr} {on : BitVec 5} {addr : Word}

/-- What an FPE still pending leaves. -/
theorem fpePending_leaves (h : CoresAndClusters s u) (at_ : Nat) (st : BitVec 2) :
    let t := u.fpePending on addr at_ st
    KeepsRegs s t ∧ KeepsMemory s t ∧ t.me.fcsr = s.me.fcsr ∧ t.me.writes = s.me.writes ++ [s.fpeWrite on addr at_] ∧
      (at_, Ev.delayedRegisterWrite s.coreId) ∈ t.agenda := by
  have hdue : (at_, Ev.delayedRegisterWrite u.coreId) ∈ (u.fpePending on addr at_ st).agenda := State.due_schedule _ _ _
  rw [h.coreId] at hdue
  refine ⟨?_, ⟨h.mem, h.fe⟩, ?_, ?_, hdue⟩
  all_goals simp [KeepsRegs, State.fpePending, State.deferFpe, State.fpeWrite, fpeTrap, h.me]

/-- An unprefixed vector instruction whose step ends in an FPE defers it to the end of the step's cycles. -/
theorem vector_defers (hb : v.bad (s.me.oxr 6) = false) (hs : Settled s v.regs)
    (ht : (s.vClaim v (v.op.shape (s.me.oxr 6)).n 8).vStep v (v.op.shape (s.me.oxr 6)).n none = .trap (fpeTrap on addr)) :
    s.vector v = (s.vClaim v (v.op.shape (s.me.oxr 6)).n 8).fpePending on addr
      (s.now + (8 + s.vCycles v (v.op.shape (s.me.oxr 6)).n) * tickLen s.coreId) v.st := by
  unfold State.vector
  rw [hb, if_neg Bool.false_ne_true, hs.guarded]
  dsimp only
  rw [ht]
  exact if_pos rfl

end

/-- What a vector instruction does where its step raises an enabled flag. -/
def TrapsAtTheEnd (s : State) (i : Instr) (op : VOp) (regs : List (BitVec 7)) : Prop :=
  Settled s regs → StepChecks s op regs (op.shape (s.me.oxr 6)).n → stepFlags (stepResult s op regs (op.shape (s.me.oxr 6)).n) &&& s.me.enables ≠ 0 →
    ∃ t w, exec i s = .next t ∧ KeepsRegs s t ∧ KeepsMemory s t ∧ t.me.fcsr = s.me.fcsr ∧ t.me.writes = s.me.writes ++ [w] ∧
      w.reg = none ∧ w.flags = stepFlags (stepResult s op regs (op.shape (s.me.oxr 6)).n) &&& s.me.enables ∧ w.pc = some s.me.pc ∧
      s.now + (8 + (op.shape (s.me.oxr 6)).cc) * tickLen s.coreId ≤ w.at_ ∧ (w.at_, Ev.delayedRegisterWrite s.coreId) ∈ t.agenda

theorem vector_traps {s : State} {i : Instr} {v : VInstr} {op : VOp} {regs : List (BitVec 7)} (hv : vecOf i = some v) (hop : v.op = op)
    (hregs : v.regs = regs) (hi : exec i s = .next (s.vector v)) : TrapsAtTheEnd s i op regs := by
  subst hop hregs
  intro hs hc hon
  have hl := s.vClaim_leaves v (v.op.shape (s.me.oxr 6)).n 8
  obtain ⟨addr, ht⟩ := vStep_raises none (vecOf_ordered hv) (hc.of_leaves hl) (by rwa [stepResult_of_leaves _ _ _ hl, hl.me])
  rw [stepResult_of_leaves _ _ _ hl, hl.me] at ht
  obtain ⟨hill, hnodup, -⟩ := hc
  have hb : v.bad (s.me.oxr 6) = false := by
    simp only [VInstr.bad, VInstr.clash, hill, hnodup, decide_true, Bool.not_true, Bool.or_false]
  obtain ⟨hr, hm, hf, hw, hdue⟩ := fpePending_leaves (addr := addr) hl (s.now + (8 + s.vCycles v (v.op.shape (s.me.oxr 6)).n) * tickLen s.coreId) v.st
  refine ⟨_, _, hi.trans (congrArg Host.Outcome.next (vector_defers hb hs ht)), hr, hm, hf, hw, rfl, ?_, rfl, ?_, hdue⟩
  · exact (BitVec.ofNat_toNat _ _).trans (BitVec.setWidth_eq _)
  · have hcc := s.shape_cc_le_vCycles v (v.op.shape (s.me.oxr 6)).n
    exact Nat.add_le_add_left (Nat.mul_le_mul_right _ (Nat.add_le_add_left hcc 8)) _

/-- Each form is the vector instruction of its operation and pointers. -/
theorem vectorTrapsAtTheStepsEnd : VectorTrapsAtTheStepsEnd := by
  intro s d a b st
  change ∀ f ∈ elementwise d a b st ++ blockwise d a b st, TrapsAtTheEnd s f.1 f.2.1 f.2.2
  simp only [elementwise, blockwise, List.cons_append, List.nil_append, List.forall_mem_cons]
  refine ⟨?_, ?_, ?_, ?_, ?_, ?_, ?_, ?_, ?_, ?_, ?_, ?_, ?_, ?_, ?_, List.forall_mem_nil _⟩
  all_goals exact vector_traps rfl rfl rfl rfl

end Sys2Proof.Claims
end

section
namespace Sys2Proof.Claims

/-- Settles O48: each part from the one operation it turns on: a forfeited bank, a packet of the timed channel, a deferred FPE, a beat's log, a flow. -/
theorem banksTimedPacketsAndErrors : Obligations.BanksTimedPacketsAndErrors :=
  ⟨lostBanksForfeitTheIssue, timedLoadsTravelExactly, vectorTrapsAtTheStepsEnd, failingBeatsAndWords, packetsKeepTheirFlow⟩

end Sys2Proof.Claims
end

section
/-! Steps of a core's slots that are no instruction (03 R57, R58, R70; 06 R111, R112, R121; 09 R173; 23 R375; 25 R388; 26 R410): what taking a trap leaves,
how late results land, and how a slot is removed, restored, stopped and resumed. -/

namespace Sys2Proof.Machine

/-! ## What a trap and a record leave of the slots (25 R384, R385; 26 R410) -/

/-- No slot differs, nor the clock. -/
def SlotsHeld (s t : State) : Prop := t.slots = s.slots ∧ t.now = s.now

section
variable {s t u : State}

theorem SlotsHeld.refl (s : State) : SlotsHeld s s := ⟨rfl, rfl⟩
theorem SlotsHeld.trans (h : SlotsHeld s t) (h' : SlotsHeld t u) : SlotsHeld s u := ⟨h'.1.trans h.1, h'.2.trans h.2⟩
theorem SlotsHeld.of_events (h : EventsOnly s t) : SlotsHeld s t := by rw [h]; exact ⟨rfl, rfl⟩
theorem SlotsHeld.of_store (h : StoreOnly s t) : SlotsHeld s t := by rw [h]; exact ⟨rfl, rfl⟩
theorem SlotsHeld.of_slice (h : SliceOnly s t) : SlotsHeld s t := by rw [h]; exact ⟨rfl, rfl⟩
theorem SlotsHeld.slot (h : SlotsHeld s t) (k : Nat) : t.slot k = s.slot k := congrArg (tget · k ({} : Slot)) h.1

end

theorem State.unitWrite_slotsHeld (s : State) (pa : Nat) (ws : List Word) : SlotsHeld s (s.unitWrite pa ws) :=
  (SlotsHeld.of_store (s.hbmWrite_storeOnly _ _ _)).trans (.of_slice (State.revokeWords_sliceOnly _ _))

theorem State.trace_slotsHeld (s : State) (j : Nat) (ws : List Word) : SlotsHeld s (s.trace j ws) := by
  unfold State.trace
  dsimp only
  split
  · exact .refl s
  split
  · exact (s.unitWrite_slotsHeld _ _).trans (.of_events (EventsOnly.setJob _ _ _))
  · exact .of_events (EventsOnly.setJob s _ _)

/-- A slot that enters firmware's handler for a trap. -/
def State.entered (s : State) (id : Nat) (t : TrapInfo) (epc : Word) : Slot :=
  { s.slot id with
    trapArea := s.trapRecord id t epc :: (s.slot id).trapArea, cause := t.word0, epc := epc, mode := true, pc := handlerPc, wait := .firmware,
    inFlight := none, lines := [], asyncTrap := false, nextTick := s.now + 16 * tickLen (id / 16), owed := none,
    nestedCsr := if (s.slot id).mode then ((s.slot id).cause, (s.slot id).epc) :: (s.slot id).nestedCsr else (s.slot id).nestedCsr }

/-- The state in which a slot has entered the handler, and the job's trace has recorded it. -/
def State.trapped (s : State) (id : Nat) (t : TrapInfo) (epc : Word) : State :=
  let u := { s.setSlot id (s.entered id t epc) with retries := s.retries.filter (fun r => r.origin != Origin.slot id) }
  let j := (s.gang (s.slot id).gang).job
  if (u.job j).traceTraps then
    u.trace j ([BitVec.ofNat 64 (id / 16 * 2 ^ 32 + id % 16 * 2 ^ 28 + 1), (s.slot id).vt] ++ (s.trapRecord id t epc).take 6)
  else u

section
variable (s : State) (id : Nat) (t : TrapInfo) (epc : Word)

/-- Firmware acts on a trap later, and at the second nesting level the gang goes and the job aborts (25 R385, R388). -/
theorem State.takeTrap_eq : s.takeTrap id t epc =
    if (s.slot id).mode then
      if (s.slot id).nestedCsr = [] then s.trapped id t epc
      else ((s.trapped id t epc).soon (.drop id)).startAbort (s.gang (s.slot id).gang).job 1 t.cause.code
    else (s.trapped id t epc).owe id t ((s.trapped id t epc).slotTick id ((s.trapped id t epc).now + 16 * tickLen (id / 16))) := rfl

theorem State.trapped_slotsHeld : SlotsHeld (s.setSlot id (s.entered id t epc)) (s.trapped id t epc) := by
  unfold State.trapped
  dsimp only
  split
  · exact (SlotsHeld.trans ⟨rfl, rfl⟩ (State.trace_slotsHeld _ _ _))
  · exact ⟨rfl, rfl⟩

/-- A trap changes its own slot alone. -/
theorem State.takeTrap_leaves : (s.takeTrap id t epc).now = s.now ∧ Claims.KeepsOthers s (s.takeTrap id t epc) id ∧
    ∃ o, (s.takeTrap id t epc).slot id = { s.entered id t epc with owed := o } := by
  have held : ∀ u, SlotsHeld (s.setSlot id (s.entered id t epc)) u → u.now = s.now ∧ Claims.KeepsOthers s u id ∧ u.slot id = s.entered id t epc :=
    fun u h => ⟨h.2, fun k hk => (h.slot k).trans (s.slot_setSlot_other _ hk), (h.slot id).trans (s.slot_setSlot id _)⟩
  have h := s.trapped_slotsHeld id t epc
  rw [s.takeTrap_eq]
  split
  · split
    · obtain ⟨hn, hk, hs⟩ := held _ h
      exact ⟨hn, hk, (s.entered id t epc).owed, hs⟩
    · have hsoon : SlotsHeld (s.trapped id t epc) ((s.trapped id t epc).soon (.drop id)) := ⟨rfl, rfl⟩
      obtain ⟨hn, hk, hs⟩ := held _ ((h.trans hsoon).trans (.of_events (State.startAbort_eventsOnly _ _ _ _)))
      exact ⟨hn, hk, (s.entered id t epc).owed, hs⟩
  · obtain ⟨hn, hk, hs⟩ := held _ h
    refine ⟨hn, fun k hne => (State.slot_setSlot_other _ _ hne).trans (hk k hne), some t, ?_⟩
    exact (State.slot_setSlot _ _ _).trans (by rw [hs])

end

/-! ## Late results (06 R112) -/

/-- A slot whose late results have all landed. -/
def Slot.noWrites (v : Slot) : Slot := { v with writes := [] }

/-- No result of a slot is due. -/
def State.idle (s : State) (id : Nat) : Prop := ∀ x ∈ (s.slot id).writes, s.now < x.at_

section
variable {s : State} {id : Nat}

theorem State.delayStep_eq (h : ∀ x ∈ (s.slot id).writes, x.reg ≠ none ∨ s.now < x.at_) : s.delayStep id = s := by
  unfold State.delayStep
  dsimp only
  rw [if_neg]
  simp only [List.any_eq_true, not_exists, not_and, Bool.and_eq_true, beq_iff_eq, decide_eq_true_eq]
  intro x hx hlate
  rcases h x hx with hr | hn
  · exact absurd hlate.1 hr
  · omega

theorem State.landSlot_idle (h : s.idle id) : s.landSlot id = s := by
  have hdue : (s.slot id).dueWrites s.now = [] := by
    unfold Slot.dueWrites
    rw [List.filter_eq_nil_iff.mpr fun x hx => by have := h x hx; simpa using this]
    rfl
  unfold State.landSlot
  rw [State.delayStep_eq fun x hx => .inr (h x hx)]
  exact if_pos hdue

/-- A slot's one result that is due lands. -/
theorem State.landSlot_due {w : DelayedWrite} (hw : (s.slot id).writes = [w]) (ha : w.at_ ≤ s.now) (hr : w.reg ≠ none) :
    s.landSlot id = (s.setSlot id (s.slot id).noWrites).landWrite id w := by
  have hdue : (s.slot id).dueWrites s.now = [w] := by simp [Slot.dueWrites, hw, ha, isort, insertBy]
  have hrest : (s.slot id).writes.filter (fun w => decide (s.now < w.at_)) = [] := by simp [hw, ha]
  unfold State.landSlot
  rw [State.delayStep_eq fun x hx => .inl (by rw [hw] at hx; rwa [List.mem_singleton.mp hx])]
  dsimp only
  rw [hdue, hrest]
  rfl

theorem State.landWrite_leaves (s : State) (id : Nat) (w : DelayedWrite) :
    (s.landWrite id w).now = s.now ∧ Claims.KeepsOthers s (s.landWrite id w) id := by
  unfold State.landWrite
  dsimp only
  split
  · split
    · obtain ⟨hn, hk, -⟩ := s.takeTrap_leaves id (fpeTrap (w.flags &&& (s.slot id).enables) (if w.reg = none then w.value else 0)) _
      exact ⟨hn, hk⟩
    · exact ⟨rfl, Claims.KeepsOthers.setSlot _ _ _⟩
  · exact ⟨rfl, Claims.KeepsOthers.setSlot _ _ _⟩

/-- A result with no enabled flag is in its register, and its flags are in fcsr. -/
theorem State.landWrite_lands {w : DelayedWrite} {r : BitVec 7} (hr : w.reg = some r) (hon : w.flags &&& (s.slot id).enables = 0) :
    s.landWrite id w = s.setSlot id (((s.slot id).wxBank w.fw r w.value).orFlags w.flags) := by
  unfold State.landWrite
  simp only [hr, hon]
  split
  · exact if_neg (by simp)
  · rfl

/-- One with an enabled flag traps. -/
theorem State.landWrite_traps {w : DelayedWrite} {pc : Word} (hp : w.pc = some pc) (hr : w.reg ≠ none) (hon : w.flags &&& (s.slot id).enables ≠ 0) :
    s.landWrite id w = s.takeTrap id (fpeTrap (w.flags &&& (s.slot id).enables) 0) pc := by
  unfold State.landWrite
  simp only [hp, if_neg hr]
  exact if_pos (by simpa using hon)

end

/-- A core-shared write sets its register, or adds to it, and an SADD's destination takes the old value (03 R57, R58). -/
theorem State.applyShared_leaves (s : State) (c : Nat) (w : SharedWrite) :
    (s.applyShared c w).core c = (s.core c).wsr w.reg (if w.add then (s.core c).sr w.reg + w.value else w.value) ∧
      Claims.KeepsMemory s (s.applyShared c w) ∧
      ∀ id fw r, w.dst = some (id, fw, r) → (s.applyShared c w).slot id = (s.slot id).wxBank fw r ((s.core c).sr w.reg) := by
  unfold State.applyShared
  dsimp only
  split
  · next id fw r hd =>
    refine ⟨s.core_setCore c _, ⟨rfl, rfl⟩, fun id' fw' r' h => ?_⟩
    cases hd.symm.trans h
    exact State.slot_setSlot _ _ _
  · next hd => exact ⟨s.core_setCore c _, ⟨rfl, rfl⟩, fun _ _ _ h => by cases hd.symm.trans h⟩

/-- The slots of a core whose results land, in their order. -/
def State.landSlots (s : State) (c : Nat) (l : List Nat) : State := l.foldl (fun (u : State) i => u.landSlot (c * 16 + i)) s

section
variable {s : State} {c : Nat}

theorem State.landSlots_idle {l : List Nat} (h : ∀ k ∈ l, s.idle (c * 16 + k)) : s.landSlots c l = s := by
  induction l with
  | nil => rfl
  | cons k l ih =>
    unfold State.landSlots at *
    rw [List.foldl_cons, State.landSlot_idle (h k List.mem_cons_self), ih fun j hj => h j (List.mem_cons_of_mem _ hj)]

/-- Only slot i has a result due, and it alone lands. -/
theorem State.landSlots_one {i : Nat} {w : DelayedWrite} (hi : i < 16) (h : ∀ k < 16, k ≠ i → s.idle (c * 16 + k))
    (hw : (s.slot (c * 16 + i)).writes = [w]) (ha : w.at_ ≤ s.now) (hr : w.reg ≠ none) :
    s.landSlots c (List.range 16) = (s.setSlot (c * 16 + i) (s.slot (c * 16 + i)).noWrites).landWrite (c * 16 + i) w := by
  obtain ⟨l, r, hl⟩ := List.append_of_mem (List.mem_range.mpr hi)
  have hnd : (l ++ i :: r).Nodup := hl ▸ List.nodup_range
  have hlt : ∀ k ∈ l ++ i :: r, k < 16 := fun k hk => List.mem_range.mp (hl ▸ hk)
  have hleft : ∀ k ∈ l, s.idle (c * 16 + k) := fun k hk =>
    h k (hlt k (List.mem_append_left _ hk)) fun he => (List.nodup_append.mp hnd).2.2 k hk i List.mem_cons_self he
  have hne : ∀ k ∈ r, k ≠ i := fun k hk he => (List.nodup_cons.mp (List.nodup_append.mp hnd).2.1).1 (he ▸ hk)
  obtain ⟨hn, ho⟩ := State.landWrite_leaves (s.setSlot (c * 16 + i) (s.slot (c * 16 + i)).noWrites) (c * 16 + i) w
  have hright : ∀ k ∈ r, ((s.setSlot (c * 16 + i) (s.slot (c * 16 + i)).noWrites).landWrite (c * 16 + i) w).idle (c * 16 + k) := by
    intro k hk
    have hki : c * 16 + k ≠ c * 16 + i := fun he => hne k hk (Nat.add_left_cancel he)
    unfold State.idle
    rw [hn, ho _ hki, s.slot_setSlot_other _ hki]
    exact h k (hlt k (List.mem_append_right _ (List.mem_cons_of_mem _ hk))) (hne k hk)
  have hidle := State.landSlots_idle hleft
  have hlast := State.landSlots_idle hright
  rw [← State.landSlot_due hw ha hr] at hlast ⊢
  unfold State.landSlots at *
  rw [hl, List.foldl_append, hidle, List.foldl_cons, hlast]

end

end Sys2Proof.Machine
end

section
/-! What is due on a core lands, and a slot is removed, restored, stopped, trapped or resumed as its step says. -/

namespace Sys2Proof.Machine

/-- A register of the strand's present window takes a late result. -/
theorem Slot.wxBank_mode (v : Slot) (r : BitVec 7) (w : Word) : v.wxBank v.mode r w = v.wx r w := by
  unfold Slot.wxBank Slot.wx
  split <;> rfl

/-- No removal of a slot is under way. -/
def State.unremoved (s : State) (id : Nat) : State :=
  { s with removals := s.removals.filter (· != id), agenda := s.agenda.filter fun e => e.2 != Ev.slotRemoval id }

/-- The cause of an FPE of a strand (23 R366). -/
theorem word0_fpeTrap (on : BitVec 5) (addr : Word) : (fpeTrap on addr).word0 = BitVec.ofNat 64 8 := by
  simp [TrapInfo.word0, fpeTrap, Cause.code]

section
variable {s : State} {c : Nat}

theorem exec_delayedRegisterWrite (hev : s.ev = some (.delayedRegisterWrite c)) : exec .delayedRegisterWrite s =
    .next (((s.core c).sPend.filter (fun w => decide (w.at_ ≤ s.now))).foldl (fun (u : State) w => u.applyShared c w)
      ((s.setCore c { s.core c with sPend := (s.core c).sPend.filter (fun w => decide (s.now < w.at_)) }).landSlots c (List.range 16))) := by
  change execDelayedRegisterWrite s = _
  unfold execDelayedRegisterWrite
  rw [hev]
  rfl

/-- Without a core-shared write that is due, only results of slots land. -/
theorem exec_delayedRegisterWrite_slots (hev : s.ev = some (.delayedRegisterWrite c)) (hp : ∀ x ∈ (s.core c).sPend, s.now < x.at_) :
    exec .delayedRegisterWrite s = .next ((s.setCore c (s.core c)).landSlots c (List.range 16)) := by
  have hdue : (s.core c).sPend.filter (fun w => decide (w.at_ ≤ s.now)) = [] :=
    List.filter_eq_nil_iff.mpr fun x hx => by have := hp x hx; simpa using this
  have hrest : (s.core c).sPend.filter (fun w => decide (s.now < w.at_)) = (s.core c).sPend :=
    List.filter_eq_self.mpr fun x hx => decide_eq_true (hp x hx)
  rw [exec_delayedRegisterWrite hev, hdue, hrest, List.foldl_nil]

/-- Without a result of a slot that is due, only the one core-shared write applies. -/
theorem exec_delayedRegisterWrite_shared {w : SharedWrite} (hev : s.ev = some (.delayedRegisterWrite c)) (hp : (s.core c).sPend = [w])
    (ha : w.at_ ≤ s.now) (hi : ∀ k < 16, s.idle (c * 16 + k)) :
    exec .delayedRegisterWrite s = .next ((s.setCore c { s.core c with sPend := [] }).applyShared c w) := by
  have hidle : (s.setCore c { s.core c with sPend := [] }).landSlots c (List.range 16) = s.setCore c { s.core c with sPend := [] } :=
    State.landSlots_idle fun k hk => hi k (List.mem_range.mp hk)
  have hdue : [w].filter (fun w => decide (w.at_ ≤ s.now)) = [w] := by simp [ha]
  have hrest : [w].filter (fun w => decide (s.now < w.at_)) = [] := by simp [ha]
  rw [exec_delayedRegisterWrite hev, hp, hdue, hrest, hidle, List.foldl_cons, List.foldl_nil]

/-- Only slot i has a result due: it lands, and nothing else. -/
theorem exec_delayedRegisterWrite_one {i : Nat} {w : DelayedWrite} (hev : s.ev = some (.delayedRegisterWrite c))
    (hp : ∀ x ∈ (s.core c).sPend, s.now < x.at_) (hi : i < 16) (h : ∀ k < 16, k ≠ i → s.idle (c * 16 + k))
    (hw : (s.slot (c * 16 + i)).writes = [w]) (ha : w.at_ ≤ s.now) (hr : w.reg ≠ none) :
    exec .delayedRegisterWrite s = .next
      (((s.setCore c (s.core c)).setSlot (c * 16 + i) (s.slot (c * 16 + i)).noWrites).landWrite (c * 16 + i) w) := by
  rw [exec_delayedRegisterWrite_slots hev hp, State.landSlots_one (s := s.setCore c (s.core c)) hi h hw ha hr]
  rfl

end

end Sys2Proof.Machine

namespace Sys2Proof.Claims

open Sys2Proof.Machine

theorem dueResultsLand : DueResultsLand := by
  intro s c i hi hev id
  refine ⟨fun w r hp ho hw ha hr hm hon => ?_, fun w pc hp ho hw ha hpc hr hon => ?_, fun w hp ha ho => ?_⟩
  · have hx := exec_delayedRegisterWrite_one hev hp hi (fun k hk hne => ho k hk hne) hw ha (by simp [hr])
    have hbank : (s.slot id).noWrites.wxBank (s.slot id).mode r w.value = (s.slot id).noWrites.wx r w.value := Slot.wxBank_mode _ _ _
    rw [State.landWrite_lands hr (by rw [State.slot_setSlot]; exact hon), State.setSlot_setSlot, State.slot_setSlot, hm, hbank] at hx
    refine ⟨_, hx, ?_⟩
    rw [State.slot_setSlot]
    exact ⟨Slot.rx_wx_same _ _ _, Slot.writes_wx _ _ _, by rw [Slot.orFlags, Slot.fcsr_wx]; rfl, Slot.pc_wx _ _ _, rfl, rfl⟩
  · have hx := exec_delayedRegisterWrite_one hev hp hi (fun k hk hne => ho k hk hne) hw ha hr
    rw [State.landWrite_traps hpc hr (by rw [State.slot_setSlot]; exact hon)] at hx
    have hslot : ((s.setCore c (s.core c)).setSlot id (s.slot id).noWrites).slot id = (s.slot id).noWrites := State.slot_setSlot _ _ _
    generalize (s.setCore c (s.core c)).setSlot id (s.slot id).noWrites = u at *
    obtain ⟨-, -, o, ht⟩ := u.takeTrap_leaves id (fpeTrap (w.flags &&& (u.slot id).enables) 0) pc
    refine ⟨_, hx, ?_⟩
    rw [ht]
    exact ⟨rfl, rfl, word0_fpeTrap _ _, (congrArg Slot.x hslot :), (congrArg Slot.fcsr hslot :), (congrArg Slot.writes hslot :)⟩
  · have hx := exec_delayedRegisterWrite_shared hev hp ha fun k hk => ho k hk
    obtain ⟨hcore, hmem, hdst⟩ := State.applyShared_leaves (s.setCore c { s.core c with sPend := [] }) c w
    rw [s.core_setCore] at hcore hdst
    refine ⟨_, hx, by rw [hcore]; rfl, hmem, by rw [hcore]; rfl, fun r hr => ?_⟩
    rw [hdst _ _ _ hr, State.slot_setCore, Slot.wxBank_mode, Slot.rx_wx_same]
    rfl

/-! ## Traps, removals, stops and delays (03 R70; 06 R111, R121; 23 R375; 25 R388; 26 R410) -/

section
variable {s : State} {id : Nat}

/-- No strand asked about the slot: nothing but the slot itself changes. -/
theorem tellAskers_none {v : Slot} (h : v.askers = []) : (s.setSlot id v).tellAskers id = s.setSlot id v := by
  have hv : ({ v with askers := [] } : Slot) = v := by rw [← h]
  unfold State.tellAskers
  dsimp only
  rw [State.slot_setSlot, h, hv, State.setSlot_setSlot]
  rfl

/-- A strand at an issue boundary, with no result on its way and no vector step running, is taken as it is. -/
theorem taking_here (hw : (s.slot id).wait = .none) (hr : s.resultsDue id = none) (ht : (s.slot id).stepAt + s.vLost id ≤ s.now) :
    s.taking id = .here (s.slot id) := by
  unfold State.taking
  dsimp only
  rw [hr, if_neg (by simp; omega), hw]

theorem firstCause_one (a : AsyncCause) : firstCause [a] = some a := by
  unfold firstCause
  simp only [List.find?_cons, List.find?_nil]
  cases ha : a.info.cause == .abort with
  | true => rfl
  | false => cases hd : a.info.cause != .deadlock <;> rfl

/-- A pending cause is raised at an issue boundary. -/
theorem exec_asyncTrapRaise {a : AsyncCause} (hev : s.ev = some (.asyncTrapRaise id)) (hp : (s.slot id).pending = [a]) (hl : (s.slot id).live = true)
    (hn : (s.slot id).n ≠ 0) (hm : (s.slot id).mode = false) (hw : (s.slot id).wait = .none) (hf : (s.slot id).fpHold ≤ s.now) :
    ∃ u v, exec .asyncTrapRaise s = .next (u.setSlot id { u.slot id with asyncTrap := true }) ∧
      u = (s.setSlot id v).takeTrap id a.info (s.slot id).pc ∧ v = { s.slot id with pending := [], rep := none } := by
  have hwithdraw : s.withdraw id = s := by
    unfold State.withdraw
    dsimp only
    rw [hw]
  refine ⟨_, _, ?_, rfl, rfl⟩
  change execAsyncTrapRaise s = _
  unfold execAsyncTrapRaise
  rw [hev]
  dsimp only
  rw [hp, firstCause_one]
  dsimp only
  rw [if_neg (Nat.not_lt.mpr hf), if_neg (by simp [hw]), if_pos (by simp [hl, hn, hm, hw, Slot.shut]), hwithdraw]
  simp only [dropFirst, if_true]

/-- An access, a result or a vector step holds up no removal or stop of the slot: it has no strand, or one of a gang at an issue boundary. -/
def Takeable (s : State) (id : Nat) : Prop :=
  (s.slot id).live = false ∨ ((s.gang (s.slot id).gang).isRoam = false ∧ (s.slot id).wait = .none ∧ s.resultsDue id = none ∧
    (s.slot id).stepAt + s.vLost id ≤ s.now)

theorem exec_slotRemoval (hev : s.ev = some (.slotRemoval id)) (ha : (s.slot id).askers = []) (htake : Takeable s id) :
    exec .slotRemoval s = .next (s.setSlot id { s.slot id with removed := true }) := by
  have htell : (s.setSlot id { s.slot id with removed := true }).tellAskers id = s.setSlot id { s.slot id with removed := true } :=
    tellAskers_none ha
  change execSlotRemoval s = _
  unfold execSlotRemoval
  rw [hev]
  by_cases hl : (s.slot id).live = false
  · exact (if_pos hl).trans (congrArg Host.Outcome.next htell)
  · obtain ⟨hroam, hw, hr, ht⟩ := htake.resolve_left hl
    dsimp only
    rw [if_neg hl, taking_here hw hr ht]
    dsimp only
    rw [hroam]
    exact (if_neg (by simp)).trans (congrArg Host.Outcome.next htell)

theorem exec_debugStop (hev : s.ev = some (.debugStop id)) (ha : (s.slot id).askers = []) (htake : Takeable s id) :
    exec .debugStop s = .next (s.setSlot id { s.slot id with stopped := true }) := by
  have htell : (s.setSlot id { s.slot id with stopped := true }).tellAskers id = s.setSlot id { s.slot id with stopped := true } :=
    tellAskers_none ha
  change execDebugStop s = _
  unfold execDebugStop
  rw [hev]
  by_cases hl : (s.slot id).live = false
  · exact (if_pos hl).trans (congrArg Host.Outcome.next htell)
  · obtain ⟨-, hw, hr, ht⟩ := htake.resolve_left hl
    dsimp only
    rw [if_neg hl, taking_here hw hr ht]
    exact congrArg Host.Outcome.next htell

theorem exec_slotRestore (hev : s.ev = some (.slotRestore id)) (ha : (s.slot id).askers = []) : exec .slotRestore s =
    .next (((s.unremoved id).setSlot id { s.slot id with removed := false, nextTick := max (s.slot id).nextTick s.now }).soon
      (.agingStep (clusterOf (id / 16)))) := by
  have htell : ((s.unremoved id).setSlot id { s.slot id with removed := false, nextTick := max (s.slot id).nextTick s.now }).tellAskers id =
      (s.unremoved id).setSlot id { s.slot id with removed := false, nextTick := max (s.slot id).nextTick s.now } := tellAskers_none ha
  rw [← htell]
  change execSlotRestore s = _
  unfold execSlotRestore
  split
  · next k hk =>
    cases hev.symm.trans hk
    rfl
  · next hk => exact absurd hev (hk id)

/-- A breakpoint's event and trace record leave the slots as its stop does. -/
theorem exec_breakpoint (hev : s.ev = some (.breakpoint id)) :
    ∃ t, exec .breakpoint s = .next t ∧ SlotsHeld (s.setSlot id { s.slot id with stopped := true, past := some (s.slot id).pc }) t := by
  change ∃ t, execBreakpoint s = _ ∧ _
  unfold execBreakpoint
  rw [hev]
  exact ⟨_, rfl, (SlotsHeld.of_events (State.postEvent_eventsOnly _ _ _ _ _ _)).trans (State.trace_slotsHeld _ _ _)⟩

theorem exec_suspDelayExpiry {u : Nat} (hid : id < 65536) (hev : s.ev = some (.suspDelayExpiry id)) (hw : (s.slot id).wait = .delay u)
    (hu : u ≤ s.now) : exec .suspDelayExpiry s = .next (s.complete id 4) := by
  change execSuspDelayExpiry s = _
  unfold execSuspDelayExpiry
  rw [hev]
  dsimp only
  rw [if_neg (by omega), hw]
  exact congrArg Host.Outcome.next (if_pos hu)

end

theorem slotStepsTakeEffect : SlotStepsTakeEffect := by
  intro s id v
  refine ⟨fun a hev hp hl hn hm hw hf => ?_, fun ha htake => ⟨fun hev => exec_slotRemoval hev ha htake, fun hev => exec_debugStop hev ha htake⟩,
    fun ha hev => ?_, fun hev => ?_, fun u hid hev hw hu => ?_⟩
  · obtain ⟨u, w, hx, hu, hw'⟩ := exec_asyncTrapRaise hev hp hl hn hm hw hf
    obtain ⟨-, -, o, ht⟩ := State.takeTrap_leaves (s.setSlot id w) id a.info v.pc
    have hslot := s.slot_setSlot id w
    refine ⟨_, hx, ?_⟩
    rw [State.slot_setSlot, hu, ht]
    refine ⟨rfl, rfl, rfl, ?_, rfl, ?_⟩
    · exact (congrArg Slot.pending hslot).trans (by rw [hw'])
    · exact (congrArg Slot.x hslot).trans (by rw [hw'])
  · have hslot := (s.unremoved id).slot_setSlot id { v with removed := false, nextTick := max v.nextTick s.now }
    exact ⟨_, exec_slotRestore hev ha, congrArg Slot.removed hslot, (congrArg Slot.pc hslot :), (congrArg Slot.x hslot :),
      fun k hk => State.slot_setSlot_other _ _ hk, rfl, rfl⟩
  · obtain ⟨t, hx, ht⟩ := exec_breakpoint hev
    have hslot := (ht.slot id).trans (s.slot_setSlot id _)
    exact ⟨t, hx, congrArg Slot.stopped hslot, congrArg Slot.past hslot, by rw [hslot], by rw [hslot],
      fun k hk => (ht.slot k).trans (s.slot_setSlot_other _ hk)⟩
  · have hslot : (s.complete id 4).slot id = { v with pc := v.pc + 4, wait := .none, lines := [] } := s.slot_setSlot id _
    exact ⟨_, exec_suspDelayExpiry hid hev hw hu, congrArg Slot.wait hslot, congrArg Slot.pc hslot, by rw [hslot], rfl,
      fun k hk => s.slot_setSlot_other _ hk⟩

/-- Settles O12: a late result or a trap changes its own slot alone, and what each step of a slot does at its boundary. -/
theorem dueStepsTakeEffect : Obligations.DueStepsTakeEffect :=
  ⟨dueResultsLand, slotStepsTakeEffect⟩

end Sys2Proof.Claims
end

section
/-! Memory across the functions of the state (07 R126): those that write no byte of it. What a function returns has the memory of
the state it was given; the equations rewrite (`simp`), and where a function answers only sometimes, they speak of an answer. -/

namespace Sys2Proof.Machine

open Host

@[simp] theorem State.mem_ite (c : Prop) [Decidable c] (s t : State) : (if c then s else t).mem = if c then s.mem else t.mem :=
  apply_ite State.mem c s t

@[simp] theorem foldl_mem {α : Type} {f : State → α → State} (hf : ∀ u a, (f u a).mem = u.mem) (l : List α) (s : State) :
    (l.foldl f s).mem = s.mem :=
  List.foldlRecOn (motive := fun u : State => u.mem = s.mem) l f rfl fun u hu a _ => (hf u a).trans hu

/-! ## The agenda, registers, jobs and traps -/

@[simp] theorem State.mem_setPart (s : State) (j p : Nat) (v : Part) : (s.setPart j p v).mem = s.mem := rfl

@[simp] theorem State.mem_scheduleOnce (s : State) (t : Nat) (e : Ev) : (s.scheduleOnce t e).mem = s.mem := by
  unfold State.scheduleOnce
  split <;> rfl

@[simp] theorem State.mem_countDrop (s : State) (router : Nat) : (s.countDrop router).mem = s.mem := rfl

@[simp] theorem State.mem_countClosed (s : State) : s.countClosed.mem = s.mem := rfl

@[simp] theorem State.mem_carry (s : State) (j src dst flits : Nat) (e : Ev) : (s.carry j src dst flits e).mem = s.mem := by
  unfold State.carry
  split <;> rfl

@[simp] theorem State.mem_carryBy (s : State) (j src dst flits : Nat) (e : Ev) : (s.carryBy j src dst flits e).mem = s.mem := by
  simp [State.carryBy]

theorem State.mem_of_timedLate (s : State) (id : Nat) (e : Ev) : ∀ t, s.timedLate id e = some t → t.mem = s.mem := by
  unfold State.timedLate
  split
  · simp
  · dsimp only
    split <;> simp

@[simp] theorem State.mem_revoke (s : State) (o w : Nat) : (s.revoke o w).mem = s.mem := by
  unfold State.revoke
  dsimp only
  split <;> simp

@[simp] theorem State.mem_noteScale (s : State) (pa : Nat) : (s.noteScale pa).mem = s.mem := by
  unfold State.noteScale
  split <;> rfl

@[simp] theorem State.mem_revokeWords (s : State) (l : List Nat) : (s.revokeWords l).mem = s.mem :=
  foldl_mem (fun u w => by split <;> simp) l s

@[simp] theorem State.mem_wx (s : State) (r : BitVec 7) (w : Word) : (s.wx r w).mem = s.mem := rfl

@[simp] theorem State.mem_retire (s : State) (bytes : Nat) (st : BitVec 2) : (s.retire bytes st).mem = s.mem := rfl

@[simp] theorem State.mem_retireTo (s : State) (pc : Word) (st : BitVec 2) : (s.retireTo pc st).mem = s.mem := rfl

@[simp] theorem State.mem_complete (s : State) (id bytes : Nat) : (s.complete id bytes).mem = s.mem := rfl

@[simp] theorem State.mem_block (s : State) (c : Cond) : (s.block c).mem = s.mem := rfl

@[simp] theorem State.mem_waitFor (s : State) (w : Wait) (st : BitVec 2 := 0) : (s.waitFor w st).mem = s.mem := rfl

theorem State.mem_of_poolAlloc (s : State) (j n : Nat) : ∀ r, s.poolAlloc j n = some r → r.2.mem = s.mem := by
  unfold State.poolAlloc
  dsimp only
  split <;> simp

@[simp] theorem State.mem_poolFree (s : State) (j va : Nat) : (s.poolFree j va).mem = s.mem := rfl

@[simp] theorem State.mem_fillTlb (s : State) (core job : Nat) (va : Word) : (s.fillTlb core job va).mem = s.mem :=
  (s.fillTlb_leaves core job va).mem

@[simp] theorem State.mem_fillUnit (s : State) (core job : Nat) (va : Word) : (s.fillUnit core job va).mem = s.mem := by
  unfold State.fillUnit
  dsimp only
  split
  · rfl
  · split <;> rfl

@[simp] theorem State.mem_countRecv (s : State) (j part : Nat) (red : Bool) : (s.countRecv j part red).mem = s.mem := rfl

@[simp] theorem State.mem_receive (s : State) (cl : Nat) (e : Entry) : (s.receive cl e).mem = s.mem := by
  unfold State.receive
  split <;> rfl

@[simp] theorem State.mem_enqueue (s : State) (cl : Nat) (e : Entry) : (s.enqueue cl e).mem = s.mem := by
  simp [State.enqueue]

@[simp] theorem State.mem_writeEvent (s : State) (ws : List Word) : (s.writeEvent ws).mem = s.mem := rfl

@[simp] theorem State.mem_postEvent (s : State) (kind job : Nat) (d1 d2 d3 : Word) : (s.postEvent kind job d1 d2 d3).mem = s.mem := by
  simp [State.postEvent]

@[simp] theorem State.mem_startAbort (s : State) (j source detail : Nat) : (s.startAbort j source detail).mem = s.mem := by
  simp [State.startAbort]

@[simp] theorem State.mem_owe (s : State) (id : Nat) (t : TrapInfo) (at_ : Nat) : (s.owe id t at_).mem = s.mem := rfl

@[simp] theorem State.mem_stray (s : State) : s.stray.mem = s.mem := rfl

@[simp] theorem State.mem_unparkOne (s : State) (p : Parked) : (s.unparkOne p).mem = s.mem := by
  unfold State.unparkOne
  split <;> simp

@[simp] theorem State.mem_unpark (s : State) (key : Nat) : (s.unpark key).mem = s.mem :=
  foldl_mem (fun _ _ => by simp) _ _

@[simp] theorem State.mem_returnFromTrap (s : State) (id : Nat) (pc : Word) : (s.returnFromTrap id pc).mem = s.mem :=
  foldl_mem (fun _ _ => by rfl) _ _

@[simp] theorem State.mem_postCause (s : State) (id : Nat) (t : TrapInfo) (now? : Wait → Bool) : (s.postCause id t now?).mem = s.mem := by
  simp [State.postCause]

@[simp] theorem State.mem_postEngine (s : State) (id gang : Nat) (t : TrapInfo) : (s.postEngine id gang t).mem = s.mem := by
  simp [State.postEngine]

@[simp] theorem State.mem_postAsync (s : State) (id : Nat) (t : TrapInfo) : (s.postAsync id t).mem = s.mem := s.mem_postCause id t _

@[simp] theorem State.mem_land (s : State) (d : BitVec 7) (v : Word) (lat : Nat) (st : BitVec 2) (flags : BitVec 5 := 0) :
    (s.land d v lat st flags).mem = s.mem := by
  unfold State.land
  split <;> rfl

@[simp] theorem State.mem_deferFpe (s : State) (t : TrapInfo) (at_ : Nat) (st : BitVec 2) : (s.deferFpe t at_ st).mem = s.mem := rfl

@[simp] theorem State.mem_landFp (s : State) (d : BitVec 7) (r : Nat × BitVec 5) (lat : Nat) (bytes : Nat) (st : BitVec 2) :
    (s.landFp d r lat bytes st).mem = s.mem := by
  simp [State.landFp]

/-! ## Banks, memory and accesses -/

@[simp] theorem State.mem_claim (s : State) (core : Nat) (c : Claim) : (s.claim core c).mem = s.mem := rfl

@[simp] theorem State.mem_unclaimAll (s : State) (core owner : Nat) : (s.unclaimAll core owner).mem = s.mem := by
  simp [State.unclaimAll, State.unclaim]

@[simp] theorem State.mem_claimLines (s : State) (c rank owner : Nat) (l : List (Nat × Nat)) : (s.claimLines c rank owner l).mem = s.mem := by
  refine foldl_mem (fun u src => foldl_mem (fun w p => ?_) _ u) _ s
  simp

theorem State.mem_of_winBank (s : State) (pa : Nat) : ∀ t, s.winBank pa = some t → t.mem = s.mem := by
  unfold State.winBank
  dsimp only
  split
  · simp
  · split <;> simp

@[simp] theorem State.mem_portClaim (s : State) (core pa n : Nat) : (s.portClaim core pa n).mem = s.mem := rfl

@[simp] theorem State.mem_acquire (s : State) (core : Nat) : (s.acquire core).mem = s.mem := foldl_mem (fun _ _ => by rfl) _ s

@[simp] theorem State.mem_fillLine (s : State) (core pa : Nat) : (s.fillLine core pa).mem = s.mem := rfl

@[simp] theorem State.mem_l1Store (s : State) (core pa n v : Nat) : (s.l1Store core pa n v).mem = s.mem := rfl

@[simp] theorem State.mem_l1Ack (s : State) (core pa : Nat) : (s.l1Ack core pa).mem = s.mem := rfl

@[simp] theorem State.mem_l1Refused (s : State) (core pa : Nat) : (s.l1Refused core pa).mem = s.mem := rfl

@[simp] theorem State.mem_l1Atomic (s : State) (core pa : Nat) : (s.l1Atomic core pa).mem = s.mem := by
  unfold State.l1Atomic
  split <;> rfl

@[simp] theorem State.mem_revokeAt (s : State) (o pa : Nat) : (s.revokeAt o pa).mem = s.mem := foldl_mem (fun _ _ => by rfl) _ s

@[simp] theorem State.mem_register (s : State) (pa own : Nat) : (s.register pa own).mem = s.mem := by
  unfold State.register
  dsimp only
  split <;> simp

@[simp] theorem State.mem_evictLine (s : State) (line : Nat) : (s.evictLine line).mem = s.mem := by
  simp [State.evictLine]

theorem State.mem_of_metaWord (s : State) (pa : Nat) : ∀ r, s.metaWord pa = some r → r.2.mem = s.mem := by
  unfold State.metaWord
  dsimp only
  split
  · simp
  · split <;> simp

/-- A line put into its home's slice. -/
theorem State.mem_metaWord_getD (s : State) (pa : Nat) : (((s.metaWord pa).map (·.2)).getD s).mem = s.mem := by
  cases h : s.metaWord pa with
  | none => rfl
  | some r => exact s.mem_of_metaWord pa r h

@[simp] theorem State.mem_bringIn (s : State) (pa : Nat) : (s.bringIn pa).mem = s.mem := by
  unfold State.bringIn
  dsimp only
  split
  · rfl
  · split
    · rw [State.mem_metaWord_getD]
    · split
      · rw [State.mem_metaWord_getD]; simp
      · rfl

@[simp] theorem State.mem_answer (s : State) (src : Nat) (o : Origin) (r : Reply) : (s.answer src o r).mem = s.mem := by
  unfold State.answer
  split
  · split <;> simp
  · rfl

@[simp] theorem State.mem_registerFor (s : State) (op : MemOp) (pa : Nat) (own : Option Nat) : (s.registerFor op pa own).mem = s.mem := by
  unfold State.registerFor
  split
  · split
    · exact foldl_mem (fun u w => u.mem_register w _) _ s
    · exact s.mem_revokeWords _
  · rfl

@[simp] theorem State.mem_lockMismatch (s : State) (a b home idx pa pb : Nat) : (s.lockMismatch a b home idx pa pb).mem = s.mem := by
  simp [State.lockMismatch]

@[simp] theorem State.mem_lockStore (s : State) (j idx pa n v : Nat) : (s.lockStore j idx pa n v).mem = s.mem := by
  unfold State.lockStore
  split
  · rfl
  · next o d first _ =>
    cases first
    · dsimp only
      split <;> simp
    · dsimp only
      split <;> simp

@[simp] theorem State.mem_lockFor (s : State) (o : Origin) (op : MemOp) (pa : Nat) (v : Nat) : (s.lockFor o op pa v).mem = s.mem := by
  unfold State.lockFor
  split <;> simp

@[simp] theorem State.mem_tableWritten (s : State) (table : Bool) (job : Nat) : (s.tableWritten table job).mem = s.mem := by
  unfold State.tableWritten
  split <;> rfl

@[simp] theorem State.mem_tableOp (s : State) (table : Bool) (op : MemOp) (o : Origin) : (s.tableOp table op o).mem = s.mem := by
  unfold State.tableOp
  split <;> simp

@[simp] theorem State.mem_feCount (s : State) (w : Nat) : (s.feCount w).mem = s.mem :=
  foldl_mem (fun _ _ => by split <;> simp) _ _

@[simp] theorem State.mem_leave (s : State) (st : BitVec 2) : (s.leave st).mem = s.mem := rfl

@[simp] theorem State.mem_logError (s : State) (ring : Nat) (e1 : Word) : (s.logError ring e1).mem = s.mem := by
  unfold State.logError
  dsimp only
  split
  · rfl
  · split <;> rfl

@[simp] theorem State.mem_logHbm (s : State) (pa : Nat) : (s.logHbm pa).mem = s.mem := by
  simp [State.logHbm]

@[simp] theorem State.mem_logCore (s : State) (core kind pch : Nat) : (s.logCore core kind pch).mem = s.mem := by
  simp [State.logCore]

@[simp] theorem State.mem_logLocal (s : State) (core : Nat) : (s.logLocal core).mem = s.mem := by
  simp [State.logLocal]

@[simp] theorem State.mem_markDamageOf (s : State) (g : Nat) (op : MemOp) (pa : Nat) : (s.markDamageOf g op pa).mem = s.mem := by
  simp [State.markDamageOf]

@[simp] theorem State.mem_markDamage (s : State) (op : MemOp) (pa : Nat) : (s.markDamage op pa).mem = s.mem := by
  simp [State.markDamage]

@[simp] theorem State.mem_askRemote (s : State) (f : InFlight) (modul : Nat) (op : MemOp) (va data data2 : Word) (acc : List Word) :
    (s.askRemote f modul op va data data2 acc).mem = s.mem := by
  unfold State.askRemote
  split <;> rfl

@[simp] theorem State.mem_askTimed (s : State) (f : InFlight) (dst : Nat) (op : MemOp) (va : Word) (pa : Nat) (data data2 : Word)
    (acc : List Word) (table : Bool := false) : (s.askTimed f dst op va pa data data2 acc table).mem = s.mem := by
  simp [State.askTimed]

@[simp] theorem State.mem_posting (s : State) (key : Nat) : (s.posting key).mem = s.mem := rfl

@[simp] theorem State.mem_postAck (s : State) (key : Nat) : (s.postAck key).mem = s.mem := rfl

@[simp] theorem State.mem_refusePosted (s : State) (id : Nat) (c : Cause) (va pc : Word) : (s.refusePosted id c va pc).mem = s.mem := by
  simp [State.refusePosted]

theorem State.mem_released (s : State) {k : State → State} (hk : ∀ u, (k u).mem = u.mem) : (s.released k).mem = s.mem := by
  simp [State.released, hk]

@[simp] theorem State.mem_prefLine (s : State) (core job : Nat) (va : Word) (leaf : Word) (level : Nat) :
    (s.prefLine core job va leaf level).mem = s.mem := by
  unfold State.prefLine
  split <;> simp

@[simp] theorem State.mem_joinWalk (s : State) (core job : Nat) (va : Word) : (s.joinWalk core job va).mem = s.mem := by
  unfold State.joinWalk
  dsimp only
  split <;> simp

@[simp] theorem State.mem_walkPlaces (s : State) (cl : Nat) : (s.walkPlaces cl).mem = s.mem :=
  foldl_mem (fun _ _ => by simp) _ _

@[simp] theorem State.mem_prefetch (s : State) (va : Word) : (s.prefetch va).mem = s.mem := by
  unfold State.prefetch
  dsimp only
  split
  · rfl
  · split <;> simp

theorem State.mem_of_pieceBanks (s : State) (l : List (Word × Nat)) : ∀ t, s.pieceBanks l = some t → t.mem = s.mem := by
  refine List.foldlRecOn (motive := fun o : Option State => ∀ t, o = some t → t.mem = s.mem) _ _ (by simp) ?_
  rintro (_ | u) hu p -
  · simp
  · dsimp only [Option.bind_some]
    split
    · exact fun t ht => (u.mem_of_winBank _ t ht).trans (hu u rfl)
    · split <;> simp [hu]

@[simp] theorem State.mem_bmovAt (s : State) (v : Slot) (t : Nat) : (s.bmovAt v t).mem = s.mem := rfl

@[simp] theorem State.mem_bmovLine (s : State) (va : Word) : (s.bmovLine va).mem = s.mem := by
  unfold State.bmovLine
  split <;> rfl

/-! ## Engines and rings -/

@[simp] theorem State.mem_setEng (s : State) (c : Nat) (e : Engine) : (s.setEng c e).mem = s.mem := rfl

@[simp] theorem State.mem_restartIdle (s : State) (c : Nat) : (s.restartIdle c).mem = s.mem := by
  unfold State.restartIdle
  split <;> rfl

@[simp] theorem State.mem_ifIdle (s : State) (c : Nat) : (s.ifIdle c).mem = s.mem := by
  simp [State.ifIdle]

@[simp] theorem State.mem_joinInrush (s : State) (c : Nat) : (s.joinInrush c).mem = s.mem := rfl

@[simp] theorem State.mem_wakeEngine (s : State) (c : Nat) : (s.wakeEngine c).mem = s.mem := by
  unfold State.wakeEngine
  split <;> simp

@[simp] theorem State.mem_grant (s : State) (p : Nat) (crown : Bool) (t : Nat) : (s.grant p crown t).mem = s.mem := rfl

@[simp] theorem State.mem_grantParked (s : State) (p : Nat) (crown : Bool) : (s.grantParked p crown).mem = s.mem := by
  unfold State.grantParked
  split <;> rfl

@[simp] theorem State.mem_watchHold (s : State) (p : Nat) : (s.watchHold p).mem = s.mem := by
  unfold State.watchHold
  split
  · dsimp only
    split
    · split <;> simp
    · rfl
  · rfl

@[simp] theorem State.mem_passLicence (s : State) (p : Nat) (crown : Bool) : (s.passLicence p crown).mem = s.mem := by
  simp [State.passLicence]

@[simp] theorem State.mem_settleLicence (s : State) (p : Nat) : (s.settleLicence p).mem = s.mem := by
  unfold State.settleLicence
  dsimp only
  split
  · split
    · rfl
    · split
      · rfl
      · split <;> simp
  · simp

@[simp] theorem State.mem_requestLicence (s : State) (c : Nat) : (s.requestLicence c).mem = s.mem := by
  simp [State.requestLicence]

@[simp] theorem State.mem_leaveLicence (s : State) (c : Nat) : (s.leaveLicence c).mem = s.mem := by
  simp [State.leaveLicence]

@[simp] theorem State.mem_endMigrating (s : State) (c : Nat) : (s.endMigrating c).mem = s.mem := by
  simp [State.endMigrating]

@[simp] theorem State.mem_dropFromCore (s : State) (g c : Nat) : (s.dropFromCore g c).mem = s.mem := by
  have hstarted (l : List Nat) (u : State) : (l.foldl (fun (u : State) ch => u.soon (.copyCommandStart c ch)) u).mem = u.mem :=
    foldl_mem (fun _ _ => by rfl) l u
  unfold State.dropFromCore
  dsimp only
  rw [State.mem_settleLicence]
  split <;> split <;> simp [hstarted]

@[simp] theorem State.mem_retryCommits (s : State) : s.retryCommits.mem = s.mem :=
  foldl_mem (fun _ _ => by simp) _ _

@[simp] theorem State.mem_retryReaders (s : State) (headers : List Nat) : (s.retryReaders headers).mem = s.mem :=
  foldl_mem (fun _ _ => by simp) _ _

@[simp] theorem State.mem_setMember (s : State) (c i : Nat) (m : Member) : (s.setMember c i m).mem = s.mem := rfl

@[simp] theorem State.mem_setRing (s : State) (r : Ring) : (s.setRing r).mem = s.mem := rfl

@[simp] theorem State.mem_dropRing (s : State) (r : Ring) : (s.dropRing r).mem = s.mem := rfl

theorem State.mem_withRing (s : State) (job ring : Nat) {k : Ring → State} (hk : ∀ r, (k r).mem = s.mem) :
    (s.withRing job ring k).mem = s.mem := by
  unfold State.withRing
  split
  · exact hk _
  · rfl

@[simp] theorem State.mem_slotFree (s : State) (r : Ring) (i : Nat) : (s.slotFree r i).mem = s.mem := by
  unfold State.slotFree
  split <;> simp

@[simp] theorem State.mem_ringSettle (s : State) (job ring : Nat) : (s.ringSettle job ring).mem = s.mem := by
  refine s.mem_withRing job ring fun r => ?_
  have hfree (u : State) (i : Nat) : (u.withRing job ring fun q => u.slotFree q i).mem = u.mem := u.mem_withRing job ring fun q => by simp
  simp [foldl_mem hfree]

@[simp] theorem State.mem_attnClaim (s : State) (cl id offset : Nat) (l : List (Nat × Nat)) :
    (s.attnClaim cl id offset l).mem = s.mem := foldl_mem (fun _ _ => foldl_mem (fun _ _ => by rfl) _ _) _ s

@[simp] theorem State.mem_attnUnclaim (s : State) (cl id : Nat) : (s.attnUnclaim cl id).mem = s.mem := foldl_mem (fun _ _ => by rfl) _ s

@[simp] theorem State.mem_attnPassed (s : State) (core i step at_ lo hi : Nat) : (s.attnPassed core i step at_ lo hi).mem = s.mem :=
  foldl_mem (fun _ _ => by simp) _ _

@[simp] theorem State.mem_attnWake (s : State) (r : Ring) : (s.attnWake r).mem = s.mem :=
  foldl_mem (fun _ _ => foldl_mem (fun _ _ => by rfl) _ _) _ s

@[simp] theorem State.mem_reachMember (s : State) (r : Ring) (step off : Nat) (bs : List Byte) (bad : Option Word) (p : Nat × Nat) :
    (s.reachMember r step off bs bad p).mem = s.mem := by
  unfold State.reachMember
  split <;> rfl

@[simp] theorem State.mem_beat (s : State) (job ring step off : Nat) (bs : List Byte) (bad : Option Word) :
    (s.beat job ring step off bs bad).mem = s.mem := by
  unfold State.beat
  split
  · rfl
  · split
    · rfl
    · split
      · split <;> simp
      · split <;> simp
      · rfl

@[simp] theorem State.mem_ownBeat (s : State) (job ring off : Nat) : (s.ownBeat job ring off).mem = s.mem :=
  s.mem_withRing job ring fun _ => State.mem_beat ..

@[simp] theorem State.mem_landMoved (s : State) (core i g step off : Nat) (bs : List Byte) (bad : Option Word) :
    (s.landMoved core i g step off bs bad).mem = s.mem := by
  unfold State.landMoved
  split
  · split
    · dsimp only
      generalize (if (State.member s _ i).any _ then State.memberRing s _ i else none) = ring
      split
      · simp
      · rfl
    · rfl
  · rfl

@[simp] theorem State.mem_ringLink (s : State) (job ring : Nat) : (s.ringLink job ring).mem = s.mem := by
  refine s.mem_withRing job ring fun r => ?_
  split
  · rfl
  · simp

@[simp] theorem State.mem_multicastOwn (s : State) (job ring : Nat) : (s.multicastOwn job ring).mem = s.mem :=
  s.mem_withRing job ring fun _ => foldl_mem (fun _ _ => by rfl) _ _

@[simp] theorem State.mem_ringComplete (s : State) (job ring : Nat) : (s.ringComplete job ring).mem = s.mem :=
  s.mem_withRing job ring fun _ => by simp

@[simp] theorem State.mem_endMember (s : State) (c i : Nat) (quiet : Bool) : (s.endMember c i quiet).mem = s.mem := by
  unfold State.endMember
  split
  · rfl
  · exact State.mem_withRing _ _ _ fun r => by simp

@[simp] theorem State.mem_endMemberships (s : State) (g : Nat) (quiet : Bool) : (s.endMemberships g quiet).mem = s.mem :=
  foldl_mem (fun _ _ => by simp) _ _

@[simp] theorem State.mem_attnKick (s : State) (cl : Nat) : (s.attnKick cl).mem = s.mem := by
  have hclaimed (l : List (Nat × Nat)) : (l.foldl (fun (u : State) e =>
      if (u.slot e.1).stepAt ≠ 0 then u
      else
        let w := (u.attnUnclaim cl e.1).attnClaim cl e.1 0 (u.attnGathers e.1)
        w.setSlot e.1 { w.slot e.1 with stepAt := max (max 1 w.now) (w.attnDue cl e.1 4) }) s).mem = s.mem := by
    refine foldl_mem (fun u e => ?_) l s
    split <;> simp
  unfold State.attnKick
  dsimp only
  split
  · exact hclaimed _
  · split <;> exact (State.mem_schedule ..).trans (hclaimed _)

@[simp] theorem State.mem_attnDrop (s : State) (cl g : Nat) : (s.attnDrop cl g).mem = s.mem := by
  simp [State.attnDrop]

@[simp] theorem State.mem_freeContexts (s : State) (g : Nat) : (s.freeContexts g).mem = s.mem :=
  foldl_mem (fun _ _ => by simp) _ _

/-! ## Gangs, slots and placement -/

@[simp] theorem State.mem_poke (s : State) (cl : Nat) : (s.poke cl).mem = s.mem := by
  unfold State.poke
  split <;> rfl

@[simp] theorem State.mem_resourcesFreed (s : State) : s.resourcesFreed.mem = s.mem :=
  foldl_mem (fun _ _ => by simp) _ _

@[simp] theorem State.mem_settleBuckets (s : State) : s.settleBuckets.mem = s.mem := rfl

@[simp] theorem State.mem_obeyResp (s : State) (id resp : Nat) : (s.obeyResp id resp).mem = s.mem := rfl

@[simp] theorem State.mem_handlerEnded (s : State) (task : Nat) : (s.handlerEnded task).mem = s.mem := by
  unfold State.handlerEnded
  split
  · split <;> simp
  · split <;> simp

@[simp] theorem State.mem_leaveWaits (s : State) (id : Nat) : (s.leaveWaits id).mem = s.mem := by
  simp [State.leaveWaits]

@[simp] theorem State.mem_dropLate (s : State) (id : Nat) : (s.dropLate id).mem = s.mem := rfl

@[simp] theorem State.mem_clearSlot (s : State) (id : Nat) : (s.clearSlot id).mem = s.mem := by
  rw [State.clearSlot, State.mem_setSlot]
  refine (foldl_mem (fun u a => ?_) _ _).trans (by simp)
  split <;> simp

@[simp] theorem State.mem_restoreParent (s : State) (id child : Nat) : (s.restoreParent id child).mem = s.mem := by
  unfold State.restoreParent
  dsimp only
  split <;> simp

@[simp] theorem State.mem_filterEntries (s : State) (keep : Entry → Bool) : (s.filterEntries keep).mem = s.mem := rfl

@[simp] theorem State.mem_dropRecords (s : State) (g : Nat) : (s.dropRecords g).mem = s.mem := by
  refine foldl_mem (fun u e => ?_) _ s
  split
  · split <;> simp
  · rfl

@[simp] theorem State.mem_leaveSlots (s : State) (g : Nat) : (s.leaveSlots g).1.mem = s.mem := by
  refine List.foldlRecOn (motive := fun u : State × List Nat => u.1.mem = s.mem) _ _ rfl fun u hu id _ => ?_
  dsimp only
  split <;> simp [hu]

@[simp] theorem State.mem_confirmCopy (s : State) (flags : BitVec 5) (core j : Nat) (p : List Word) (task copy : Nat) :
    (s.confirmCopy flags core j p task copy).mem = s.mem := by
  unfold State.confirmCopy
  split
  · rfl
  · split <;> simp

@[simp] theorem State.mem_confirmEnd (s : State) (q : Gang) : (s.confirmEnd q).mem = s.mem := by
  simp [State.confirmEnd]

@[simp] theorem State.mem_confirmEntry (s : State) (e : Entry) : (s.confirmEntry e).mem = s.mem := by
  simp [State.confirmEntry]

@[simp] theorem State.mem_leaveRecord (s : State) (id : Nat) (pc : Word) (resume : Nat × Word) : (s.leaveRecord id pc resume).2.mem = s.mem := by
  simp [State.leaveRecord]

@[simp] theorem State.mem_addRecord (s : State) (e : Entry) : (s.addRecord e).2.mem = s.mem := rfl

@[simp] theorem State.mem_resumeRecord (s : State) (r : Nat) : (s.resumeRecord r).mem = s.mem := by
  unfold State.resumeRecord
  split <;> simp

@[simp] theorem State.mem_postShared (s : State) (w : SharedWrite) : (s.postShared w).mem = s.mem := by
  unfold State.postShared
  split <;> rfl

@[simp] theorem State.mem_delayStep (s : State) (id : Nat) : (s.delayStep id).mem = s.mem := by
  simp [State.delayStep]

@[simp] theorem State.mem_applyShared (s : State) (c : Nat) (w : SharedWrite) : (s.applyShared c w).mem = s.mem := by
  unfold State.applyShared
  dsimp only
  split <;> simp

@[simp] theorem State.mem_withdraw (s : State) (id : Nat) : (s.withdraw id).mem = s.mem := by
  unfold State.withdraw
  dsimp only
  split
  · rfl
  · exact foldl_mem (fun _ _ => by rfl) _ _
  · exact foldl_mem (fun _ _ => State.mem_endMigrating ..) _ _
  · rfl

@[simp] theorem State.mem_calm (s : State) (id : Nat) : (s.calm id).mem = s.mem := by
  unfold State.calm
  dsimp only
  split <;> simp

@[simp] theorem State.mem_requeueHere (s : State) (id : Nat) (v : Slot) : (s.requeueHere id v).mem = s.mem := by
  unfold State.requeueHere
  dsimp only
  split
  · simp
  · simp
  · split <;> simp
  · simp

@[simp] theorem State.mem_holdForPool (s : State) (id : Nat) (v : Slot) : (s.holdForPool id v).mem = s.mem := by
  unfold State.holdForPool
  split <;> rfl

@[simp] theorem State.mem_claimCore (s : State) (c j : Nat) : (s.claimCore c j).mem = s.mem := by
  simp [State.claimCore]

@[simp] theorem State.mem_setFuse (s : State) (cl : Nat) (fuse : Bool) : (s.setFuse cl fuse).mem = s.mem := by
  unfold State.setFuse
  split
  · rfl
  · exact foldl_mem (fun _ _ => by rfl) _ _

@[simp] theorem State.mem_assign (s : State) (g c acc bars : Nat) : (s.assign g c acc bars).mem = s.mem := rfl

@[simp] theorem State.mem_mapEntries (s : State) (f : Entry → Entry) : (s.mapEntries f).mem = s.mem := rfl

@[simp] theorem State.mem_moveSlot (s : State) (a b : Nat) : (s.moveSlot a b).mem = s.mem :=
  (foldl_mem (fun _ _ => by rfl) _ _).trans s.mem_settleBuckets

@[simp] theorem State.mem_moveEngine (s : State) (g c d : Nat) (slots : List (Nat × Nat)) : (s.moveEngine g c d slots).mem = s.mem := rfl

@[simp] theorem State.mem_moveUnits (s : State) (g c d : Nat) (slots : List (Nat × Nat)) : (s.moveUnits g c d slots).mem = s.mem := by
  unfold State.moveUnits
  dsimp only
  split
  · refine foldl_mem (fun u m => ?_) _ _
    split <;> rfl
  · refine (foldl_mem (fun u m => ?_) _ _).trans (foldl_mem (fun u m => ?_) _ _)
    · split <;> rfl
    · split <;> rfl

@[simp] theorem State.mem_copyMoved (s : State) (task job : Nat) (c : HedgeCopy) : (s.copyMoved task job c).mem = s.mem := rfl

@[simp] theorem State.mem_tellMoved (s : State) (g modul core : Nat) : (s.tellMoved g modul core).mem = s.mem := by
  unfold State.tellMoved
  dsimp only
  split
  · rfl
  · split <;> simp

@[simp] theorem State.mem_afterLeaving (s : State) (c : Nat) (uses : Bool) : (s.afterLeaving c uses).mem = s.mem := by
  simp [State.afterLeaving]

@[simp] theorem State.mem_moveShared (s : State) (c d : Nat) : (s.moveShared c d).mem = s.mem := rfl

@[simp] theorem State.mem_carryShared (s : State) (marked : Bool) (c d : Nat) : (s.carryShared marked c d).mem = s.mem := by
  unfold State.carryShared
  split <;> rfl

@[simp] theorem State.mem_installFwd (s : State) (c modul d g vt : Nat) (jobs : List Nat) : (s.installFwd c modul d g vt jobs).mem = s.mem := by
  unfold State.installFwd
  dsimp only
  split <;> simp

@[simp] theorem State.mem_settleSteps (s : State) (gs : List Nat) (c : Nat) : (s.settleSteps gs c).mem = s.mem :=
  foldl_mem (fun u _ => by split <;> simp) _ s

/-! ## Timelines, the matrix engine and copies -/

@[simp] theorem State.mem_setWindow (s : State) (k : BitVec 2) (v : Word) : (s.setWindow k v).mem = s.mem := rfl

theorem State.mem_of_engineBytes {s t : State} {gang pa n : Nat} {va : Word} {l : Bool} {bs : List Byte}
    (h : s.engineBytes gang va pa n l = .got bs t) : t.mem = s.mem := by
  unfold State.engineBytes at h
  split at h
  · split at h
    · cases h
    · split at h <;> cases h
      exact s.mem_logHbm pa
  · cases h; rfl

theorem State.mem_of_engineRead {s t : State} {core gang n : Nat} {va : Word} {bs : List Byte}
    (h : s.engineRead core gang va n = .got bs t) : t.mem = s.mem := by
  unfold State.engineRead at h
  dsimp only at h
  split at h <;> try cases h
  · exact mem_of_engineBytes h
  · exact (mem_of_engineBytes h).trans (s.mem_fillUnit ..)
  · exact (mem_of_engineBytes h).trans (by simp)

@[simp] theorem State.mem_claimPort (s : State) (c : Nat) (o : MxOp) : (s.claimPort c o).mem = s.mem := by
  unfold State.claimPort
  split
  · exact s.mem_claimLines ..
  · exact foldl_mem (fun _ _ => by rfl) _ s

@[simp] theorem State.mem_portStart (s : State) (c : Nat) : (s.portStart c).mem = s.mem := by
  unfold State.portStart
  dsimp only
  split
  · rfl
  · split
    · split <;> simp
    · simp

@[simp] theorem State.mem_engineKick (s : State) (c : Nat) : (s.engineKick c).mem = s.mem := by
  simp [State.engineKick]

@[simp] theorem State.mem_joinMcast (s : State) (c : Nat) (o : MxOp) : (s.joinMcast c o).2.mem = s.mem := by
  unfold State.joinMcast
  dsimp only
  split
  · rfl
  · split <;> rfl

@[simp] theorem State.mem_gatherOne (s : State) (c : Nat) : (s.gatherOne c).mem = s.mem := by
  unfold State.gatherOne
  dsimp only
  split
  · rfl
  · split <;> simp

@[simp] theorem State.mem_setMcast (s : State) (cl : Nat) (m : Mcast) (l : List RangeRead) : (s.setMcast cl m l).mem = s.mem := rfl

theorem State.mem_of_fetchPiece {s t : State} {c n : Nat} {o : MxOp} {shared : Bool} {va : Word} {r : RangeRead}
    (h : s.fetchPiece c o shared va n = .got r t) : t.mem = s.mem := by
  unfold State.fetchPiece at h
  split at h
  · cases h; rfl
  · cases h
  · split at h
    · cases h
    · cases h
    · next bs s1 hs1 =>
      rw [← mem_of_engineRead hs1]
      have hitem (p : Place) : ((Option.map (fun r : Word × State => r.2) (match p with
          | .hbm pa _ => s1.metaWord pa
          | _ => none)).getD s1).mem = s1.mem := by
        split
        · exact s1.mem_metaWord_getD _
        · rfl
      cases h
      split
      · exact (State.mem_setMcast ..).trans (hitem _)
      · exact hitem _

/-- The state that a gathering of rows leaves. -/
def Gathered.state : Gathered → State
  | .rows _ s | .fault _ s | .ask _ s => s

theorem State.mem_virtualRow (c : Nat) (o : MxOp) (fmt : Nat) (shared : Bool) (l : List (Word × Nat)) : ∀ (s : State) (acc : List Byte)
    (m : List Nat) (asks : List (Nat × Nat × Nat)), (s.virtualRow c o fmt shared l acc m asks).state.mem = s.mem := by
  induction l with
  | nil => intro s acc m asks; unfold State.virtualRow; split <;> rfl
  | cons p l ih =>
    intro s acc m asks
    unfold State.virtualRow
    split
    · rfl
    · exact ih ..
    · exact ih ..
    · next h => exact (ih ..).trans (mem_of_fetchPiece h)

theorem State.mem_localRow (s : State) (c : Nat) (o : MxOp) (a len : Nat) : (s.localRow c o a len).state.mem = s.mem := by
  unfold State.localRow
  split
  · rfl
  · split
    · next h => exact mem_of_engineBytes h
    · rfl
    · rfl

theorem State.mem_operand (c : Nat) (o : MxOp) (fmt base stride scale : Nat) (virt shared : Bool) (n : Nat) : ∀ (s : State) (r : Nat)
    (acc : List (List Nat)) (asks : List (Nat × Nat × Nat)),
    (s.operand c o fmt base stride scale virt shared n r acc asks).state.mem = s.mem := by
  induction n with
  | zero => intro s r acc asks; unfold State.operand; split <;> rfl
  | succ n ih =>
    intro s r acc asks
    have hv := s.mem_virtualRow c o fmt shared
      (linePieces (mxRowBytes fmt o.k / 16 + 2) (BitVec.ofNat 64 (base + r * stride)) (mxRowBytes fmt o.k)) [] [] []
    have hl := s.mem_localRow c o (base + r * stride) (mxRowBytes fmt o.k)
    unfold State.operand
    dsimp only
    split
    · split
      all_goals rename_i h; rw [h] at hv
      · exact hv
      · exact (ih ..).trans hv
      · exact (ih ..).trans hv
    · split
      all_goals rename_i h; rw [h] at hl
      · exact hl
      · exact hl
      · next s1 =>
        have hm := s1.mem_localRow c o (scale + r * (o.k / 16)) (o.k / 16)
        split
        · split
          all_goals rename_i h; rw [h] at hm
          · exact hm.trans hl
          · exact hm.trans hl
          · exact (ih ..).trans (hm.trans hl)
        · exact (ih ..).trans hl

@[simp] theorem State.mem_discardFollowOn (s : State) (c : Nat) (o : MxOp) (t : TrapInfo) : (s.discardFollowOn c o t).mem = s.mem := by
  simp [State.discardFollowOn]

@[simp] theorem State.mem_gatherDone (s : State) (c : Nat) (o : MxOp) (as bs : List (List Nat)) : (s.gatherDone c o as bs).mem = s.mem := by
  simp [State.gatherDone]

@[simp] theorem State.mem_askRanges (s : State) (c : Nat) (o : MxOp) (shared : Bool) (l : List (Nat × Nat × Nat)) :
    (s.askRanges c o shared l).mem = s.mem := by
  unfold State.askRanges
  dsimp only
  split
  · rfl
  · split
    · rfl
    · split <;> simp only [State.mem_setMcast, State.mem_setEng]
      all_goals exact List.foldlRecOn (motive := fun u : State × List RangeRead => u.1.mem = s.mem) _ _ rfl fun _ hu _ _ => hu

@[simp] theorem State.mem_streamDone (s : State) (c : Nat) (o : MxOp) : (s.streamDone c o).mem = s.mem := rfl

@[simp] theorem State.mem_setTiles (s : State) (c : Nat) (o : MxOp) (els : List Nat) (flags : BitVec 4) (clear : Bool) :
    (s.setTiles c o els flags clear).mem = s.mem := rfl

@[simp] theorem State.mem_setModeWord (s : State) (w : Word) : (s.setModeWord w).mem = s.mem := rfl

@[simp] theorem State.mem_appendCopy (s : State) (kind : CopyKind) (d a b : BitVec 7) (st : BitVec 2) (fo : Option MxOp) :
    (s.appendCopy kind d a b st fo).mem = s.mem := by
  unfold State.appendCopy
  dsimp only
  split <;> simp

@[simp] theorem State.mem_markTile (s : State) (pa job : Nat) : (s.markTile pa job).mem = s.mem := by
  unfold State.markTile
  split <;> rfl

@[simp] theorem State.mem_setCopy (s : State) (c : Nat) (x y : CopyCmd) : (s.setCopy c x y).mem = s.mem := rfl

@[simp] theorem State.mem_sendCopy (s : State) (c dst : Nat) (p : Place) (r : Request) : (s.sendCopy c dst p r).mem = s.mem := by
  unfold State.sendCopy
  split <;> simp

theorem State.mem_of_readPart {s t : State} {c n : Nat} {x : CopyCmd} {va : Word} {p : CopyPart}
    (h : s.readPart c x va n = .part p t) : t.mem = s.mem := by
  unfold State.readPart at h
  dsimp only at h
  split at h
  · cases h
  · cases h
  · split at h
    · split at h <;> cases h
      simp
    · split at h
      · cases h; simp
      · cases h; simp
      · split at h <;> cases h
        next hr => exact mem_of_engineRead hr

@[simp] theorem State.mem_readAhead (s : State) (c : Nat) (x : CopyCmd) (n : Nat) : (s.readAhead c x n).1.mem = s.mem := by
  induction n generalizing s x with
  | zero => rfl
  | succ n ih =>
    unfold State.readAhead
    split
    · rfl
    · split
      · rfl
      · split
        · exact ih ..
        · split
          · next h => exact (ih ..).trans (mem_of_readPart h)
          · rfl
          · rfl

@[simp] theorem State.mem_issueFollowOn (s : State) (c : Nat) (x : CopyCmd) : (s.issueFollowOn c x).mem = s.mem := by
  unfold State.issueFollowOn
  dsimp only
  split <;> simp

@[simp] theorem State.mem_issueFollowOns (s : State) (c gang n : Nat) : (s.issueFollowOns c gang n).mem = s.mem := by
  induction n generalizing s with
  | zero => rfl
  | succ n ih =>
    unfold State.issueFollowOns
    split
    · rfl
    · simp [ih]

theorem State.mem_of_writeTurn {s t : State} {cl k : Nat} (h : s.writeTurn cl k = some t) : t.mem = s.mem := by
  simp only [State.writeTurn] at h
  generalize (if (s.cluster cl).copyAt = _ then (s.cluster cl).copyWon else []) = before at h
  split at h
  · cases h; rfl
  · split at h <;> cases h
    rfl

@[simp] theorem State.mem_claimWrite (s : State) (c : Nat) (x : CopyCmd) (pas : List Nat) : (s.claimWrite c x pas).mem = s.mem :=
  foldl_mem (fun _ _ => by rfl) _ _

@[simp] theorem State.mem_cpyWReturn (s : State) (id : Nat) (a : BitVec 7) : (s.cpyWReturn id a).mem = s.mem := by
  unfold State.cpyWReturn
  dsimp only
  split <;> simp

/-! ## Outboxes, the scheduler and tasks -/

@[simp] theorem State.mem_askLine (s : State) (modul : Nat) (va : Word) (n : Nat) : (s.askLine modul va n).mem = s.mem := by
  simp [State.askLine]

@[simp] theorem State.mem_askLineTimed (s : State) (va : Word) (pa n : Nat) : (s.askLineTimed va pa n).mem = s.mem := by
  simp [State.askLineTimed]

@[simp] theorem State.mem_result (s : State) (d : BitVec 7) (v : Word) (st : BitVec 2) : (s.result d v st).mem = s.mem := rfl

@[simp] theorem State.mem_newTask (s : State) (cl : Nat) : (s.newTask cl).2.mem = s.mem := rfl

@[simp] theorem State.mem_newGang (s : State) (cl : Nat) : (s.newGang cl).2.mem = s.mem := rfl

@[simp] theorem State.mem_setLp (s : State) (j n : Nat) (l : Lp) : (s.setLp j n l).mem = s.mem := rfl

@[simp] theorem State.mem_countSend (s : State) (j part v : Nat) : (s.countSend j part v).2.mem = s.mem := rfl

@[simp] theorem State.mem_route (s : State) (j part : Nat) (m : Message) : (s.route j part m).mem = s.mem := by
  simp [State.route]

@[simp] theorem State.mem_takeHomeSeq (s : State) (j h : Nat) : (s.takeHomeSeq j h).2.mem = s.mem := rfl

@[simp] theorem State.mem_senderSeq (s : State) (j : Nat) (lp : Option Nat) (cl : Nat) : (s.senderSeq j lp cl).2.2.mem = s.mem := by
  cases lp <;> rfl

@[simp] theorem State.mem_releaseMessage (s : State) (j part : Nat) (m : Message) : (s.releaseMessage j part m).mem = s.mem := by
  simp [State.releaseMessage]

@[simp] theorem State.mem_drainReleases (s : State) : s.drainReleases.mem = s.mem :=
  foldl_mem (fun _ _ => by simp) _ _

@[simp] theorem State.mem_releaseSpawn (s : State) (m : CommitMsg) (h : Nat) (o : OutEntry) (hdr : Word) :
    (s.releaseSpawn m h o hdr).mem = s.mem := by
  simp [State.releaseSpawn]

@[simp] theorem State.mem_startCore (s : State) (g : Nat) (e : Entry) (c i : Nat) : (s.startCore g e c i).mem = s.mem :=
  (foldl_mem (fun _ _ => by rfl) _ _).trans (by simp)

@[simp] theorem State.mem_resumeCore (s : State) (e : Entry) (v : Slot) (c : Nat) : (s.resumeCore e v c).mem = s.mem := by
  rw [State.resumeCore, State.mem_poolFree, State.mem_setSlot, State.mem_acquire, State.mem_claimCore, State.mem_setFuse]

@[simp] theorem State.mem_noteRecord (s : State) (r : HedgeRec) : (s.noteRecord r).mem = s.mem := by
  simp [State.noteRecord]

@[simp] theorem State.mem_recordCopy (s : State) (g : Nat) (e : Entry) (c : Nat) : (s.recordCopy g e c).mem = s.mem := by
  unfold State.recordCopy
  split
  · rfl
  · dsimp only
    split <;> simp

@[simp] theorem State.mem_hearRecord (s : State) (r : HedgeRec) : (s.hearRecord r).mem = s.mem := by
  unfold State.hearRecord
  split <;> simp

@[simp] theorem State.mem_takeEntry (s : State) (cl : Nat) (e : Entry) : (s.takeEntry cl e).mem = s.mem := rfl

@[simp] theorem State.mem_placeAt (s : State) (cl : Nat) (e : Entry) (a : Nat × Nat × Nat) (hungry steals : Nat) :
    (s.placeAt cl e a hungry steals).mem = s.mem := by
  unfold State.placeAt
  dsimp only
  split
  · simp
  · rw [State.mem_ite, State.mem_schedule, ite_self, State.mem_recordCopy]
    exact foldl_mem (fun u p => State.mem_startCore ..) _ _

@[simp] theorem State.mem_reserveFor (s : State) (cl : Nat) (e : Entry) : (s.reserveFor cl e).mem = s.mem := by
  unfold State.reserveFor
  split <;> rfl

@[simp] theorem State.mem_placeOrReserve (cl : Nat) (p : State × List Nat) (e : Entry) : (State.placeOrReserve cl p e).1.mem = p.1.mem := by
  unfold State.placeOrReserve
  dsimp only
  split
  · simp
  · split <;> simp

@[simp] theorem State.mem_placeAll (s : State) (cl : Nat) : (s.placeAll cl).mem = s.mem :=
  List.foldlRecOn (motive := fun p : State × List Nat => p.1.mem = s.mem) _ _ rfl fun _ hp _ _ => (State.mem_placeOrReserve ..).trans hp

@[simp] theorem State.mem_admitWaiting (s : State) (cl : Nat) : (s.admitWaiting cl).mem = s.mem := by
  refine foldl_mem (fun u e => ?_) _ _
  dsimp only
  split <;> simp

@[simp] theorem State.mem_nextAging (s : State) (cl : Nat) : (s.nextAging cl).mem = s.mem := by
  unfold State.nextAging
  dsimp only
  split <;> simp

@[simp] theorem State.mem_endTargets (s : State) (cl : Nat) : (s.endTargets cl).mem = s.mem := by
  unfold State.endTargets
  split <;> rfl

@[simp] theorem State.mem_planPreemption (s : State) (cl : Nat) : (s.planPreemption cl).mem = s.mem :=
  foldl_mem (fun _ _ => by simp) _ _

@[simp] theorem State.mem_probeNext (s : State) (cl v : Nat) : (s.probeNext cl v).mem = s.mem := rfl

@[simp] theorem State.mem_search (s : State) (cl : Nat) : (s.search cl).mem = s.mem := by
  unfold State.search
  dsimp only
  split
  · rfl
  · split
    · rfl
    · split <;> simp

@[simp] theorem State.mem_probeFailed (s : State) (p : Nat) : (s.probeFailed p).mem = s.mem := by
  unfold State.probeFailed
  dsimp only
  split <;> simp

@[simp] theorem State.mem_preemptFor (s : State) (e : Entry) (targets : List Nat) : (s.preemptFor e targets).mem = s.mem := by
  unfold State.preemptFor
  dsimp only
  split
  · rfl
  · split <;> rfl

@[simp] theorem State.mem_keepCore (s : State) (cl : Nat) (e : Entry) (c : Option Nat) : (s.keepCore cl e c).mem = s.mem := rfl

@[simp] theorem State.mem_startPasses (s : State) (j : Nat) : (s.startPasses j).mem = s.mem := by
  simp [State.startPasses]

@[simp] theorem State.mem_accept (s : State) (j : Nat) (p : List Word) (h : Word) (cl : Nat) (sent : Option Bool) :
    (s.accept j p h cl sent).mem = s.mem := by
  simp [State.accept]

@[simp] theorem State.mem_buffer (s : State) (d : BitVec 7) (st : BitVec 2) (o : OutEntry) : (s.buffer d st o).mem = s.mem := by
  simp [State.buffer]

@[simp] theorem State.mem_spawnNow (s : State) (d : BitVec 7) (st : BitVec 2) (p : List Word) (h : Word) : (s.spawnNow d st p h).mem = s.mem := by
  simp [State.spawnNow]

@[simp] theorem State.mem_setBarrier (s : State) (g c k : Nat) (b : Barrier) : (s.setBarrier g c k b).mem = s.mem := rfl

/-! ## Joined rings and attention -/

@[simp] theorem State.mem_joinRing (s : State) (r : RingDesc) (own : List (Nat × Nat)) (i : Nat) : (s.joinRing r own i).mem = s.mem := by
  unfold State.joinRing
  dsimp only
  split <;> simp

@[simp] theorem State.mem_setAttn (s : State) (cl i : Nat) (x : AttnCtx) : (s.setAttn cl i x).mem = s.mem := rfl

@[simp] theorem State.mem_attnIssue (s : State) (i : Instr) (idx : Nat) (st : BitVec 2) : (s.attnIssue i idx st).mem = s.mem :=
  s.mem_released fun _ => by simp

@[simp] theorem State.mem_attnPop (s : State) (cl : Nat) : (s.attnPop cl).mem = s.mem := by
  simp [State.attnPop]

@[simp] theorem State.mem_attnReturn (s : State) (d : BitVec 7) (v : Nat) : (s.attnReturn d v).mem = s.mem := rfl

/-! ## Fetches, homes and endpoints -/

@[simp] theorem State.mem_fetchRemote (s : State) (modul : Nat) (va : Word) : (s.fetchRemote modul va).mem = s.mem := by
  unfold State.fetchRemote
  split <;> rfl

@[simp] theorem State.mem_fetchTimed (s : State) (pa : Nat) (va : Word) : (s.fetchTimed pa va).mem = s.mem := by
  simp [State.fetchTimed]

@[simp] theorem State.mem_postedAnswer (s : State) (id key : Nat) (r : Reply) : (s.postedAnswer id key r).mem = s.mem := by
  unfold State.postedAnswer
  dsimp only
  split
  · rfl
  · split <;> simp

@[simp] theorem State.mem_fillFetched (s : State) (id : Nat) (f : InFlight) (r : Reply) : (s.fillFetched id f r).mem = s.mem := rfl

@[simp] theorem State.mem_refuse (s : State) (r : Request) (c : Cause) (level : Nat := 0) : (s.refuse r c level).mem = s.mem := by
  simp [State.refuse]

@[simp] theorem State.mem_damage (s : State) (l : List Nat) : (s.damage l).mem = s.mem := rfl

@[simp] theorem State.mem_beatError (s : State) (pa lane fails : Nat) : (s.beatError pa lane fails).mem = s.mem := by
  simp [State.beatError]

@[simp] theorem State.mem_commandStep (s : State) (k : Nat) : (s.commandStep k).mem = s.mem := by
  unfold State.commandStep
  split <;> rfl

@[simp] theorem State.mem_nextCommand (s : State) : s.nextCommand.mem = s.mem := by
  unfold State.nextCommand
  split <;> simp

@[simp] theorem State.mem_finish (s : State) (k : Nat) (st : Status) (cause : Nat) (ans : List Word) : (s.finish k st cause ans).mem = s.mem := by
  simp [State.finish]

@[simp] theorem State.mem_doorbell (s : State) (k : Nat) : (s.doorbell k).mem = s.mem := by
  simp [State.doorbell]

@[simp] theorem State.mem_clearCounter (s : State) (c : Counter) : (s.clearCounter c).mem = s.mem := by
  cases c <;> rfl

@[simp] theorem State.mem_drainEvents (s : State) (n : Nat) : (s.drainEvents n).mem = s.mem := by
  induction n generalizing s with
  | zero => rfl
  | succ n ih =>
    unfold State.drainEvents
    split
    · rfl
    · simp [ih]

/-! ## Virtual time, the fabric and commands -/

@[simp] theorem State.mem_undoTask (s : State) (j task : Nat) : (s.undoTask j task).mem = s.mem := rfl

@[simp] theorem State.mem_sendAnti (s : State) (j n : Nat) (e : LogEntry) : (s.sendAnti j n e).mem = s.mem := by
  simp [State.sendAnti]

@[simp] theorem State.mem_visit (s : State) (j p : Nat) (t : Token) : (s.visit j p t).2.mem = s.mem := rfl

@[simp] theorem State.mem_noteStuck (s : State) (j p : Nat) : (s.noteStuck j p).mem = s.mem := rfl

@[simp] theorem State.mem_publish (s : State) (j v : Nat) (n : Bool) : (s.publish j v n).mem = s.mem := by
  have hsoon (l : List Nat) : (l.foldl (fun (u : State) p => u.soon (.lwMarkArrival j p v)) s).mem = s.mem := foldl_mem (fun _ _ => by rfl) l s
  unfold State.publish
  dsimp only
  split <;> simp [hsoon]

@[simp] theorem State.mem_endCut (s : State) (j lw : Nat) : (s.endCut j lw).mem = s.mem := by
  simp [State.endCut]

@[simp] theorem State.mem_expireFwd (s : State) (c : Nat) : (s.expireFwd c).mem = s.mem := rfl

@[simp] theorem State.mem_wakeLow (s : State) (j c lw : Nat) : (s.wakeLow j c lw).mem = s.mem := by
  unfold State.wakeLow
  dsimp only
  rw [foldl_mem (α := Nat × Entry) fun u r => u.mem_resumeRecord r.1, foldl_mem]
  intro u i
  split <;> simp

@[simp] theorem State.mem_unwindHome (s : State) (j h a : Nat) :
    (s.unwindHome j h a).mem = s.mem := (State.mem_retryCommits _).trans (foldl_mem (fun _ _ => by rfl) _ s)

@[simp] theorem State.mem_setFlow (s : State) (h : PacketHead) (f : Flow) : (s.setFlow h f).mem = s.mem := rfl

@[simp] theorem State.mem_inFlow (s : State) (e : Ev) : (s.inFlow e).mem = s.mem := by
  unfold State.inFlow
  split
  · split
    · rfl
    · dsimp only
      split <;> simp
  · rfl

@[simp] theorem State.mem_setFibre (s : State) (g : Nat) (f : Fibre) : (s.setFibre g f).mem = s.mem := rfl

@[simp] theorem State.mem_planPark (s : State) (g : Nat) : (s.planPark g).mem = s.mem := rfl

@[simp] theorem State.mem_wakeFibre (s : State) (g : Nat) : (s.wakeFibre g).mem = s.mem := by
  simp [State.wakeFibre]

@[simp] theorem State.mem_settleFibre (s : State) (g : Nat) : (s.settleFibre g).mem = s.mem := by
  simp [State.settleFibre]

@[simp] theorem State.mem_becomeReady (s : State) (b : Nat) : (s.becomeReady b).mem = s.mem := by
  unfold State.becomeReady
  split
  · rfl
  · split
    · simp
    · split
      · exact foldl_mem (fun _ _ => by rfl) _ s
      · split
        · exact foldl_mem (fun u j => by split <;> rfl) _ s
        · rfl

@[simp] theorem State.mem_dropSide (s : State) (r : FmtRange) : (s.dropSide r).mem = s.mem := by
  unfold State.dropSide
  split <;> rfl

@[simp] theorem State.mem_resumeSlot (s : State) (id : Nat) : (s.resumeSlot id).mem = s.mem := by
  simp [State.resumeSlot]

/-! ## Commits, jobs, floats and the system instructions -/

@[simp] theorem State.mem_inboxOk (s : State) (q : Gang) : (s.inboxOk q).mem = s.mem := by
  unfold State.inboxOk
  split <;> rfl

@[simp] theorem State.mem_sendCommit (s : State) (m : CommitMsg) : (s.sendCommit m).mem = s.mem := by
  unfold State.sendCommit
  dsimp only
  split <;> simp

@[simp] theorem State.mem_haltStrand (s : State) : s.haltStrand.mem = s.mem := rfl

@[simp] theorem State.mem_answerCommit (s : State) (m : CommitMsg) (h : Nat) (a : Answer) : (s.answerCommit m h a).mem = s.mem := by
  unfold State.answerCommit
  split <;> simp

@[simp] theorem State.mem_sendCancel (s : State) (job task h : Nat) (c : HedgeCopy) : (s.sendCancel job task h c).mem = s.mem := by
  simp [State.sendCancel]

@[simp] theorem State.mem_recordWinner (s : State) (m : CommitMsg) (h : Nat) : (s.recordWinner m h).mem = s.mem :=
  foldl_mem (fun _ _ => by simp) _ _

@[simp] theorem State.mem_leaveHome (s : State) (m : CommitMsg) : (s.leaveHome m).mem = s.mem := by
  unfold State.leaveHome
  dsimp only
  split <;> simp

@[simp] theorem State.mem_inboxDoneFor (s : State) (m : CommitMsg) : (s.inboxDoneFor m).mem = s.mem := by
  unfold State.inboxDoneFor
  split <;> rfl

@[simp] theorem State.mem_turnAway (s : State) (m : CommitMsg) (h : Nat) (a : Answer) : (s.turnAway m h a).mem = s.mem := by
  simp [State.turnAway]

@[simp] theorem State.mem_learn (s : State) (j c x : Nat) : (s.learn j c x).mem = s.mem := rfl

@[simp] theorem State.mem_tellWork (s : State) (q : Gang) : (s.tellWork q).mem = s.mem := by
  simp [State.tellWork]

@[simp] theorem State.mem_forwardCancel (s : State) (j task : Nat) (c : HedgeCopy) : (s.forwardCancel j task c).mem = s.mem :=
  foldl_mem (fun _ _ => by split <;> simp) _ _

theorem State.mem_of_addBackup (s : State) (b : Backup) : ∀ r, s.addBackup b = some r → r.2.mem = s.mem := by
  unfold State.addBackup
  split
  · simp
  · split <;> simp

@[simp] theorem State.mem_enterBackup (s : State) (b : Backup) : (s.enterBackup b).mem = s.mem := by
  simp [State.enterBackup]

@[simp] theorem State.mem_startBackup (s : State) (b : Backup) : (s.startBackup b).mem = s.mem := by
  simp [State.startBackup]

@[simp] theorem State.mem_tryBackup (s : State) (home : Nat) (r : HedgeRec) (k slowModul slow : Nat) :
    (s.tryBackup home r k slowModul slow).mem = s.mem := by
  unfold State.tryBackup
  dsimp only
  split
  · simp
  · split
    · simp
    · split
      · split
        · next h => exact (State.mem_startBackup ..).trans ((State.mem_of_addBackup _ _ _ h).trans s.mem_settleBuckets)
        · simp
      · simp

@[simp] theorem State.mem_moveEstimate (s : State) (j c k work : Nat) : (s.moveEstimate j c k work).mem = s.mem := rfl

@[simp] theorem State.mem_hearHedge (s : State) (m : HedgeMsg) : (s.hearHedge m).mem = s.mem := by
  unfold State.hearHedge
  split
  · split <;> simp
  · simp
  · split
    · next h => exact (State.mem_send ..).trans (s.mem_of_addBackup _ _ h)
    · rfl
  all_goals simp

@[simp] theorem State.mem_openJob (s : State) (id : Nat) (j : Job) : (s.openJob id j).mem = s.mem := by
  simp [State.openJob]

@[simp] theorem State.mem_closeMarks (s : State) (j : Nat) : (s.closeMarks j).mem = s.mem :=
  foldl_mem (fun _ _ => by simp) _ _

@[simp] theorem State.mem_endLockstep (s : State) (j : Nat) : (s.endLockstep j).mem = s.mem := by
  unfold State.endLockstep
  split <;> rfl

@[simp] theorem State.mem_writeSlotmask (s : State) (w : Word) (st : BitVec 2) : (s.writeSlotmask w st).mem = s.mem := by
  unfold State.writeSlotmask
  dsimp only
  split
  · exact s.mem_retire 4 st
  · exact (State.mem_block _ _).trans (foldl_mem (fun _ _ => by rfl) _ s)

@[simp] theorem State.mem_askSlot (s : State) (id : Nat) (d : BitVec 7) (st : BitVec 2) : (s.askSlot id d st).mem = s.mem := rfl

theorem State.mem_fetchFor (s : State) (id : Nat) {k : State → State} (hk : ∀ u, (k u).mem = u.mem) : (s.fetchFor id k).mem = s.mem :=
  hk _

@[simp] theorem State.mem_skipWord (s : State) (id : Nat) : (s.skipWord id).mem = s.mem := by
  unfold State.skipWord
  dsimp only
  split
  · simp
  · split
    · simp
    · exact s.mem_fetchFor id fun u => u.mem_fetchRemote _ _
  · exact s.mem_fetchFor id fun u => u.mem_fetchTimed _ _
  all_goals simp

/-! ## Migrations, power, suspensions and vectors -/

@[simp] theorem State.mem_redirectWait (s : State) (c g dmod id : Nat) : (s.redirectWait c g dmod id).1.mem = s.mem := by
  unfold State.redirectWait
  dsimp only
  rw [apply_ite Prod.fst, State.mem_ite]
  exact ite_self _

@[simp] theorem State.mem_redirectWaits (s : State) (c g dmod : Nat) (ids : List Nat) : (s.redirectWaits c g dmod ids).1.mem = s.mem :=
  List.foldlRecOn (motive := fun p : State × List (Nat × Nat) => p.1.mem = s.mem) _ _ rfl fun _ hp _ _ => (State.mem_redirectWait ..).trans hp

@[simp] theorem State.mem_gangHere (s : State) (d g : Nat) : (s.gangHere d g).2.mem = s.mem := by
  unfold State.gangHere
  split <;> rfl

@[simp] theorem State.mem_installGang (s : State) (d g h : Nat) (x : Context) (slots : List (Nat × Nat)) (q : Gang) :
    (s.installGang d g h x slots q).mem = s.mem := rfl

@[simp] theorem State.mem_requeueRecords (s : State) (c : Nat) : (s.requeueRecords c).mem = s.mem :=
  foldl_mem (fun _ _ => by simp) _ _

@[simp] theorem State.mem_setDuty (s : State) (p w : Nat) : (s.setDuty p w).mem = s.mem := by
  simp [State.setDuty]

@[simp] theorem State.mem_raiseDuty (s : State) : s.raiseDuty.mem = s.mem := by
  unfold State.raiseDuty
  dsimp only
  split <;> simp

@[simp] theorem State.mem_removeRound (s : State) (cls : Nat) : (s.removeRound cls).mem = s.mem := foldl_mem (fun _ _ => by split <;> rfl) _ s

@[simp] theorem State.mem_reducePower (s : State) (w : Nat) : (s.reducePower w).mem = s.mem := by
  unfold State.reducePower
  split <;> simp

@[simp] theorem State.mem_restorePower (s : State) : s.restorePower.mem = s.mem := by
  unfold State.restorePower
  split
  · simp
  · split <;> rfl

@[simp] theorem State.mem_setIdleGate (s : State) (g c : Nat) : (s.setIdleGate g c).mem = s.mem := by
  unfold State.setIdleGate
  split <;> rfl

@[simp] theorem State.mem_resumeBy (s : State) (kind : Nat) (operand : Word) : (s.resumeBy kind operand).mem = s.mem := rfl

@[simp] theorem State.mem_vClaim (s : State) (v : VInstr) (m ahead : Nat) : (s.vClaim v m ahead).mem = s.mem :=
  foldl_mem (fun _ _ => by rfl) _ _

@[simp] theorem State.mem_busyFor (s : State) (cc : Nat) : (s.busyFor cc).mem = s.mem := rfl

@[simp] theorem State.mem_toIssue (s : State) (tick id : Nat) : (s.toIssue tick id).mem = s.mem := by
  simp [State.toIssue]

end Sys2Proof.Machine
end

section
/-! Memory across the functions of the state (07 R126): those that may write it keep its canonical form, as the writes of bytes and
words do (`memWrite_wf`, `memPut_wf`, `memWords_wf`). A function that is given what comes next keeps the form where that does. -/

namespace Sys2Proof.Machine

open Host

@[simp] theorem Memory.wf_ite (c : Prop) [Decidable c] (m n : List Host.Cell) :
    Memory.wf (if c then m else n) = if c then Memory.wf m else Memory.wf n :=
  apply_ite Memory.wf c m n

theorem foldl_wf {α : Type} {f : State → α → State} (hf : ∀ u a, Memory.wf u.mem → Memory.wf (f u a).mem) (l : List α) {s : State}
    (h : Memory.wf s.mem) : Memory.wf (l.foldl f s).mem :=
  List.foldlRecOn (motive := fun u : State => Memory.wf u.mem) l f h fun u hu a _ => hf u a hu

/-- An operation that leaves memory in its canonical form wherever it finds it there. -/
def KeepsWf (k : State → State) : Prop := ∀ u : State, Memory.wf u.mem → Memory.wf (k u).mem

theorem wf_ite_of {c : Prop} [Decidable c] {s t : State} (hs : Memory.wf s.mem) (ht : Memory.wf t.mem) : Memory.wf (if c then s else t).mem := by
  split
  · exact hs
  · exact ht

theorem State.wf_withBank {s : State} (h : Memory.wf s.mem) (pa : Nat) {k : State → State} (hk : KeepsWf k) :
    Memory.wf (s.withBank pa k).mem := by
  unfold State.withBank
  split
  · next hs => exact hk _ (s.mem_of_winBank pa _ hs ▸ h)
  · exact h

theorem State.wf_released {s : State} (h : Memory.wf s.mem) {k : State → State} (hk : KeepsWf k) : Memory.wf (s.released k).mem := by
  unfold State.released
  split
  · exact hk s h
  · exact h

theorem State.wf_whenLanded {s : State} (h : Memory.wf s.mem) {k : State → State} (hk : KeepsWf k) : Memory.wf (s.whenLanded k).mem := by
  unfold State.whenLanded
  split
  · exact hk s h
  · exact h

theorem State.wf_engineAwake {s : State} (h : Memory.wf s.mem) {k : State → State} (hk : KeepsWf k) : Memory.wf (s.engineAwake k).mem := by
  unfold State.engineAwake
  split
  · exact hk _ (by simpa using h)
  · simpa using h

theorem State.wf_streamPlace {s : State} (h : Memory.wf s.mem) {k : State → State} (hk : KeepsWf k) : Memory.wf (s.streamPlace k).mem := by
  unfold State.streamPlace
  split
  · exact hk s h
  · exact h

theorem State.wf_command {s : State} (h : Memory.wf s.mem) (n : Nat) {k : State → State} (hk : KeepsWf k) : Memory.wf (s.command n k).mem := by
  unfold State.command
  split
  · exact hk s h
  · exact h

theorem State.wf_afterAbort {s : State} (h : Memory.wf s.mem) (j : Nat) (again : Ev) {k : State → State} (hk : KeepsWf k) :
    Memory.wf (s.afterAbort j again k).mem := by
  unfold State.afterAbort
  split
  · exact h
  · exact hk s h

theorem State.wf_arrive {s : State} (h : Memory.wf s.mem) (j : Nat) (m : Message) {k : Nat → State → State} (hk : ∀ n, KeepsWf (k n)) :
    Memory.wf (s.arrive j m k).mem := by
  unfold State.arrive
  dsimp only
  split
  · exact h
  · split
    · simpa using h
    · split
      · simpa using h
      · exact hk _ _ (by simpa using h)

theorem State.wf_answered {s : State} (h : Memory.wf s.mem) (id : Nat) (again : Ev) {k : State → State} (hk : KeepsWf k) :
    Memory.wf (s.answered id again k).mem := by
  unfold State.answered
  dsimp only
  split
  · split
    · exact h
    · exact hk s h
  · exact h

/-! ## The agenda, registers, jobs and traps -/

@[simp] theorem State.wf_writeWords {s : State} (h : Memory.wf s.mem) (a : Nat) (ws : List Word) : Memory.wf (s.writeWords a ws).mem := by
  simp [State.writeWords, h, memWords_wf]

@[simp] theorem State.wf_hbmWrite {s : State} (h : Memory.wf s.mem) (pa v n : Nat) : Memory.wf (s.hbmWrite pa v n).mem := by
  simp [State.hbmWrite, h, memWrite_wf]

@[simp] theorem State.wf_unitWrite {s : State} (h : Memory.wf s.mem) (pa : Nat) (ws : List Word) : Memory.wf (s.unitWrite pa ws).mem := by
  simp [State.unitWrite, memWrite_wf, h]

@[simp] theorem State.wf_writeArea {s : State} (h : Memory.wf s.mem) (j va : Nat) (ws : List Word) : Memory.wf (s.writeArea j va ws).mem := by
  unfold State.writeArea
  split <;> simp [h]

@[simp] theorem State.wf_trace {s : State} (h : Memory.wf s.mem) (j : Nat) (ws : List Word) : Memory.wf (s.trace j ws).mem := by
  unfold State.trace
  dsimp only
  split
  · exact h
  · rw [State.mem_setJob]
    split
    · exact wf_unitWrite h ..
    · exact h

@[simp] theorem State.wf_launchHandler {s : State} (h : Memory.wf s.mem) (core j : Nat) (rcd : List Word) (waiter : Option (Nat × TrapInfo)) :
    Memory.wf (s.launchHandler core j rcd waiter).mem := by
  unfold State.launchHandler
  dsimp only
  split
  · simpa using h
  · split
    · split <;> simpa using h
    · next hp =>
      have hwritten (va : Nat) (ws : List Word) := wf_writeArea (s.mem_of_poolAlloc _ _ _ hp ▸ h) j va ws
      split <;> simp [hwritten]

@[simp] theorem State.wf_firmwareAct {s : State} (h : Memory.wf s.mem) (id : Nat) (t : TrapInfo) (rcd : List Word) :
    Memory.wf (s.firmwareAct id t rcd).mem := by
  unfold State.firmwareAct
  split <;> simp [h]

@[simp] theorem State.wf_takeTrap {s : State} (h : Memory.wf s.mem) (id : Nat) (t : TrapInfo) (epc : Word) :
    Memory.wf (s.takeTrap id t epc).mem := by
  have htraced (c : Bool) (j : Nat) (ws : List Word) : KeepsWf fun u => if c then u.trace j ws else u := fun u hu => by
    dsimp only
    split
    · exact wf_trace hu j ws
    · exact hu
  unfold State.takeTrap
  dsimp only
  split
  · split
    · exact htraced _ _ _ _ (by exact h)
    · rw [State.mem_startAbort, State.mem_soon]
      exact htraced _ _ _ _ (by exact h)
  · exact htraced _ _ _ _ (by exact h)

@[simp] theorem State.wf_trapHere {s : State} (h : Memory.wf s.mem) (t : TrapInfo) : Memory.wf (s.trapHere t).mem := by
  simp [State.trapHere, h]

theorem State.wf_guarded {s : State} (h : Memory.wf s.mem) (regs : List (BitVec 7)) {k : State → State} (hk : KeepsWf k) :
    Memory.wf (s.guarded regs k).mem := by
  unfold State.guarded
  split
  · exact wf_trapHere h _
  · split
    · exact wf_trapHere h _
    · exact hk s h

theorem State.wf_guardedPriv {s : State} (h : Memory.wf s.mem) (regs : List (BitVec 7)) {k : State → State} (hk : KeepsWf k) :
    Memory.wf (s.guardedPriv regs k).mem := by
  unfold State.guardedPriv
  split
  · exact wf_trapHere h _
  · split
    · exact wf_guarded h regs hk
    · exact wf_trapHere h _

theorem State.wf_guardedWith {s : State} (h : Memory.wf s.mem) (extra : Option Nat) (regs : List (BitVec 7)) {k : State → State}
    (hk : KeepsWf k) : Memory.wf (s.guardedWith extra regs k).mem := by
  unfold State.guardedWith
  split
  · exact wf_trapHere h _
  · exact wf_guarded h regs hk

theorem State.wf_guardedRun {s : State} (h : Memory.wf s.mem) (r : BitVec 7) (n : Nat) (regs : List (BitVec 7)) {k : State → State}
    (hk : KeepsWf k) : Memory.wf (s.guardedRun r n regs k).mem := by
  unfold State.guardedRun
  split
  · exact wf_trapHere h _
  · split
    · exact wf_trapHere h _
    · exact wf_guarded h _ hk

@[simp] theorem State.wf_alu {s : State} (h : Memory.wf s.mem) (bytes lat : Nat) (regs : List (BitVec 7)) (d : BitVec 7) (st : BitVec 2)
    (v : State → Word) : Memory.wf (s.alu bytes lat regs d st v).mem :=
  wf_guarded h regs fun u hu => by simpa using hu

/-! ## Banks, memory and accesses -/

theorem State.wf_reach {s : State} (h : Memory.wf s.mem) (n : Nat) (va : Word) (acc : Access) (home writes : Bool) {k : Place → State → State}
    (hk : ∀ p, KeepsWf (k p)) : Memory.wf (s.reach n va acc home writes k).mem := by
  unfold State.reach
  split
  · exact wf_trapHere h _
  · split
    · exact wf_trapHere h _
    · exact wf_trapHere h _
    · split
      · exact wf_trapHere h _
      · exact hk _ _ (by simpa using h)

@[simp] theorem State.wf_hbmPut {s : State} (h : Memory.wf s.mem) (pa : Nat) (bs : List Byte) : Memory.wf (s.hbmPut pa bs).mem := by
  simp [State.hbmPut, h, memPut_wf]

@[simp] theorem State.wf_setDrAcc {s : State} (h : Memory.wf s.mem) (k : DrKind) (pa : Nat) (v : Int) : Memory.wf (s.setDrAcc k pa v).mem :=
  wf_hbmWrite h ..

@[simp] theorem State.wf_homeData {s : State} (h : Memory.wf s.mem) (op : MemOp) (pa : Nat) (data data2 : Word) (acc : List Word) :
    Memory.wf (s.homeData op pa data data2 acc).2.mem := by
  unfold State.homeData
  split
  case h_1 => split <;> exact h
  case h_10 => dsimp only; split <;> simp [h, memWrite_wf]
  case h_14 =>
    split
    · exact wf_setDrAcc h ..
    · exact h
  case h_15 => split <;> exact h
  all_goals simp [h, memWrite_wf]

@[simp] theorem State.wf_homePerform {s : State} (h : Memory.wf s.mem) (op : MemOp) (pa : Nat) (data data2 : Word) (acc : List Word)
    (own : Option Nat) : Memory.wf (s.homePerform op pa data data2 acc own).2.2.mem := by
  simp [State.homePerform, wf_homeData h]

@[simp] theorem State.wf_feScan {s : State} (h : Memory.wf s.mem) (w n : Nat) : Memory.wf (s.feScan w n).mem := by
  induction n generalizing s with
  | zero => exact h
  | succ n ih =>
    unfold State.feScan
    split
    · exact h
    · apply ih
      rw [State.mem_answer, State.mem_lockFor]
      exact wf_homePerform (by simpa using h) ..

@[simp] theorem State.wf_feChanged {s : State} (h : Memory.wf s.mem) (w : Nat) : Memory.wf (s.feChanged w).mem := by
  rw [State.feChanged, State.mem_feCount]
  exact wf_feScan h w _

theorem State.wf_of_serve {s t : State} (h : Memory.wf s.mem) {op : MemOp} {pa : Nat} {data data2 : Word} {acc vals : List Word}
    {own : Option Nat} {isPrivate tw : Bool} (hs : s.serve op pa data data2 acc own isPrivate = .done vals tw t) : Memory.wf t.mem := by
  have hp : Memory.wf ((s.bringIn pa).homePerform op pa data data2 acc own).2.2.mem := wf_homePerform (by simpa using h) ..
  unfold State.serve at hs
  dsimp only at hs
  split at hs
  · cases hs
  · split at hs <;> cases hs
    simp [hp]

@[simp] theorem State.wf_deliver {s : State} (h : Memory.wf s.mem) (id : Nat) (f : InFlight) (r : Reply) : Memory.wf (s.deliver id f r).mem := by
  unfold State.deliver
  dsimp only
  split
  · apply wf_takeTrap
    simp [h]
  · split
    · exact wf_takeTrap h ..
    · have hfilled (u : State) (hu : Memory.wf u.mem) : Memory.wf (match f.wrote with
          | some pa => u.l1Atomic (id / 16) pa
          | none => if f.fill && (u.drKind f.pa).isNone then u.fillLine (id / 16) f.pa else u).mem := by
        split <;> simp [hu]
      split
      · exact wf_takeTrap (hfilled _ (by simp [h])) ..
      · exact hfilled _ (by simp [h])

@[simp] theorem State.wf_reply {s : State} (h : Memory.wf s.mem) (f : InFlight) (r : Reply) : Memory.wf (s.reply f r).mem := by
  simp [State.reply, h]

@[simp] theorem State.wf_atHome {s : State} (h : Memory.wf s.mem) (f : InFlight) (op : MemOp) (va : Word) (pa : Nat) (data data2 : Word)
    (acc : List Word) (table : Bool) : Memory.wf (s.atHome f op va pa data data2 acc table).mem := by
  unfold State.atHome
  split
  · apply wf_reply
    simp [h]
  · next hs =>
    have hserved := wf_of_serve (by simpa using h) hs
    apply wf_reply
    rw [State.mem_markDamage]
    split <;> simp [hserved]
  · simp [h]

@[simp] theorem State.wf_homeAccess {s : State} (h : Memory.wf s.mem) (f : InFlight) (op : MemOp) (va : Word) (p : Place) (data data2 : Word)
    (acc : List Word) : Memory.wf (s.homeAccess f op va p data data2 acc).mem := by
  unfold State.homeAccess
  split <;> simp [h]

@[simp] theorem State.wf_serveTimed {s : State} (h : Memory.wf s.mem) (id pa : Nat) (r : Request) : Memory.wf (s.serveTimed id pa r).mem := by
  unfold State.serveTimed
  dsimp only
  split
  · simpa using h
  · split
    · simp [h]
    · next hs =>
      have hserved := wf_of_serve (by simpa using h) hs
      split
      · rw [State.mem_carry]
        split <;> simp [hserved]
      · rw [State.mem_answer, State.mem_markDamageOf]
        split <;> simp [hserved]
    · simp [h]

@[simp] theorem State.wf_strandDamage {s : State} (h : Memory.wf s.mem) (id : Nat) : Memory.wf (s.strandDamage id).mem := by
  simp [State.strandDamage, h]

@[simp] theorem State.wf_localDamage {s : State} (h : Memory.wf s.mem) (id : Nat) : Memory.wf (s.localDamage id).mem := by
  simp [State.localDamage, h]

@[simp] theorem State.wf_doLoad {s : State} (h : Memory.wf s.mem) (f : InFlight) (n : Nat) (va : Word) (useL1 : Bool) :
    Memory.wf (s.doLoad f n va useL1).mem := by
  have hlocal (pa : Nat) : KeepsWf fun u => if u.damagedLocal pa n then (u.logLocal ((windowCore pa).getD 0)).strandDamage u.cur
      else u.reply f { vals := [BitVec.ofNat 64 (memRead u.mem pa n)] } := fun u hu => by
    dsimp only
    split
    · exact wf_strandDamage (by simpa using hu) _
    · exact wf_reply hu ..
  refine wf_reach h n va .read false false fun p u hu => ?_
  dsimp only
  split
  · exact wf_withBank hu _ (hlocal _)
  · split
    · exact wf_reply (by simpa using hu) ..
    · split
      · simpa using hu
      · exact hlocal _ _ (by simpa using hu)
  · simp [hu]
  · simpa using hu
  · exact hu

@[simp] theorem State.wf_localWrite {s : State} (h : Memory.wf s.mem) (pa v n : Nat) : Memory.wf (s.localWrite pa v n).mem := by
  simp [State.localWrite, h, memWrite_wf]

@[simp] theorem State.wf_post {s : State} (h : Memory.wf s.mem) (p : Place) (va : Word) (n v : Nat) (words : List Word) :
    Memory.wf (s.post p va n v words).mem := by
  unfold State.post
  dsimp only
  split
  · exact wf_localWrite h ..
  · split
    · simpa using h
    · split
      · simpa using h
      · exact wf_localWrite (by simpa using h) ..
  · split
    · simpa using h
    · split
      · next hs => simpa using wf_of_serve (by simpa using h) hs
      · simpa using h
      · exact h
  · exact h
  · exact h

@[simp] theorem State.wf_storeTo {s : State} (h : Memory.wf s.mem) (p : Place) (n : Nat) (va v : Word) (bytes : Nat) (st : BitVec 2) :
    Memory.wf (s.storeTo p n va v bytes st).mem := by
  have hput : KeepsWf fun u => (u.post p va n (v.toNat % 2 ^ (8 * n)) []).retire bytes st := fun u hu => wf_post hu ..
  unfold State.storeTo
  dsimp only
  split
  · exact wf_withBank h _ hput
  · split
    · exact h
    · split
      · exact hput s h
      · exact h
  · split
    · exact hput s h
    · exact h

@[simp] theorem State.wf_doStore {s : State} (h : Memory.wf s.mem) (n : Nat) (va v : Word) (bytes : Nat) (st : BitVec 2) :
    Memory.wf (s.doStore n va v bytes st).mem :=
  wf_reach h n va .write false true fun _ _ hu => wf_storeTo hu ..

@[simp] theorem State.wf_atomic {s : State} (h : Memory.wf s.mem) (op : MemOp) (n : Nat) (d a b : BitVec 7) (st : BitVec 2) :
    Memory.wf (s.atomic op n d a b st).mem :=
  wf_guarded h _ fun _ hu => wf_reach hu n _ .rmw true true fun _ _ hv => wf_released hv fun _ hx => wf_homeAccess hx ..

@[simp] theorem State.wf_drInit {s : State} (h : Memory.wf s.mem) (k : DrKind) (a : BitVec 7) (st : BitVec 2) :
    Memory.wf (s.drInit k a st).mem := by
  refine wf_guarded h _ fun u hu => wf_reach hu 64 _ .write true true fun p v hv => ?_
  have hserved := wf_homeAccess hv (flight none 0 4 st false) (.drinit k) (v.rx a) p 0 0 []
  dsimp only
  split
  · split <;> exact hserved
  · exact hserved

@[simp] theorem State.wf_dRed {s : State} (h : Memory.wf s.mem) (f : DrFmt) (d a : BitVec 7) (st : BitVec 2) : Memory.wf (s.dRed f d a st).mem :=
  wf_guarded h _ fun _ hu => wf_reach hu 64 _ .rmw true true fun _ _ hv => wf_homeAccess hv ..

@[simp] theorem State.wf_dRead {s : State} (h : Memory.wf s.mem) (f : DrFmt) (d a : BitVec 7) (st : BitVec 2) :
    Memory.wf (s.dRead f d a st).mem :=
  wf_reach h 64 _ .read true false fun _ _ hu => wf_released hu fun _ hv => wf_homeAccess hv ..

theorem State.wf_of_readPiece {s t : State} (h : Memory.wf s.mem) {va : Word} {n : Nat} {bs : List Byte} (hs : s.readPiece va n = .got bs t) :
    Memory.wf t.mem := by
  have hfilled : Memory.wf (s.fillTlb s.coreId s.myGang.job va).mem := by simpa using h
  unfold State.readPiece at hs
  dsimp only at hs
  split at hs
  · cases hs
  · cases hs
  · cases hs
  · split at hs <;> cases hs
    exact h
  · split at hs
    · cases hs
    · split at hs
      · cases hs
      · split at hs <;> cases hs
        exact h
  · split at hs
    · cases hs; exact hfilled
    · split at hs
      · cases hs
      · split at hs
        · next hserve =>
          have hserved := wf_of_serve hfilled hserve
          cases hs
          split <;> simpa using hserved
        · cases hs
        · cases hs; exact hfilled

theorem State.wf_of_readPieces (l : List (Word × Nat)) :
    ∀ {s t : State} {acc bs : List Byte}, Memory.wf s.mem → s.readPieces l acc = .got bs t → Memory.wf t.mem := by
  induction l with
  | nil => intro s t acc bs h hs; cases hs; exact h
  | cons p l ih =>
    intro s t acc bs h hs
    unfold State.readPieces at hs
    split at hs
    · next hp => exact ih (wf_of_readPiece h hp) hs
    · next hp => exact absurd hs (hp _ _)

theorem State.wf_writePieces (l : List (Word × Nat)) :
    ∀ {s : State} (bs : List Byte) (done : Nat), Memory.wf s.mem → Memory.wf (s.writePieces l bs done).2.mem := by
  induction l with
  | nil => exact fun bs done h => h
  | cons p l ih =>
    intro s bs done h
    unfold State.writePieces
    split
    · exact h
    · exact ih _ _ (wf_post (by simpa using h) ..)

@[simp] theorem State.wf_bmovWrite {s : State} (h : Memory.wf s.mem) (d a b : BitVec 7) : Memory.wf (s.bmovWrite d a b).mem := by
  unfold State.bmovWrite
  dsimp only
  split
  · exact wf_trapHere (by simp [h]) _
  · have hwritten (l : List (Word × Nat)) (bs : List Byte) (done : Nat) :
        Memory.wf ((if s.me.bput = 0 then s.bmovLine (s.rx d) else s).writePieces l bs done).2.mem := wf_writePieces l bs done (by simp [h])
    simp [hwritten]

theorem State.wf_bmovRead (d a b : BitVec 7) (l : List (Word × Nat)) : ∀ {s : State}, Memory.wf s.mem → Memory.wf (s.bmovRead d a b l).mem := by
  induction l with
  | nil => exact fun h => wf_bmovWrite h d a b
  | cons p l ih =>
    intro s h
    unfold State.bmovRead
    split
    · next hp => exact ih (wf_of_readPiece (t := _) h hp :)
    · split
      · exact wf_localDamage h _
      · exact wf_trapHere h _
    · simpa using h
    · simpa using h

@[simp] theorem State.wf_bmovStep {s : State} (h : Memory.wf s.mem) (d a b : BitVec 7) : Memory.wf (s.bmovStep d a b).mem := by
  unfold State.bmovStep
  dsimp only
  split
  · exact wf_bmovWrite h ..
  · split
    · exact h
    · split
      · exact h
      · next hb => exact wf_bmovRead _ _ _ _ (s.mem_of_pieceBanks _ _ hb ▸ h)

/-! ## Engines and rings -/

@[simp] theorem State.wf_settleBuffer {s : State} (h : Memory.wf s.mem) (header buf : Nat) : Memory.wf (s.settleBuffer header buf).mem := by
  simp [State.settleBuffer, h]

@[simp] theorem State.wf_endReaders {s : State} (h : Memory.wf s.mem) (l : List Reader) : Memory.wf (s.endReaders l).mem := by
  rw [State.endReaders, State.mem_retryReaders]
  exact foldl_wf (fun u r hu => wf_settleBuffer hu ..) l h

@[simp] theorem State.wf_dropReaders {s : State} (h : Memory.wf s.mem) (c g : Nat) : Memory.wf (s.dropReaders c g).mem := by
  simp [State.dropReaders, h]

@[simp] theorem State.wf_landIn {s : State} (h : Memory.wf s.mem) (r : Ring) (p : Nat × Nat) (m : Member) (step off : Nat) (bs : List Byte)
    (bad : Option Word) : Memory.wf (s.landIn r p m step off bs bad).mem := by
  simp [State.landIn, h, memPut_wf]

/-! ## Gangs, slots and placement -/

@[simp] theorem State.wf_stampWrite {s : State} (h : Memory.wf s.mem) (j : Nat) (ws : List Word) : Memory.wf (s.stampWrite j ws).mem := by
  simp [State.stampWrite, h]

@[simp] theorem State.wf_stampGang {s : State} (h : Memory.wf s.mem) (g : Nat) (out : Ending) : Memory.wf (s.stampGang g out).mem := by
  simp [State.stampGang, h]

@[simp] theorem State.wf_stampEntry {s : State} (h : Memory.wf s.mem) (e : Entry) (out : Ending) : Memory.wf (s.stampEntry e out).mem := by
  simp [State.stampEntry, h]

@[simp] theorem State.wf_abandonMigr {s : State} (h : Memory.wf s.mem) (g : Nat) (dropped : Bool) : Memory.wf (s.abandonMigr g dropped).mem := by
  refine foldl_wf (fun u m hu => ?_) _ h
  dsimp only
  split
  · exact wf_deliver (by simpa using hu) ..
  · simpa using hu

@[simp] theorem State.wf_removeGang {s : State} (h : Memory.wf s.mem) (g : Nat) (quiet : Bool) : Memory.wf (s.removeGang g quiet).mem := by
  have hdropped (l : List Nat) : Memory.wf (l.foldl (fun (u : State) c => (u.dropReaders c g).dropFromCore g c) s).mem :=
    foldl_wf (fun u c hu => by simpa using wf_dropReaders hu c g) l h
  have hended (l : List Nat) := wf_abandonMigr (s := ((l.foldl (fun (u : State) c => (u.dropReaders c g).dropFromCore g c) s).endMemberships g
    quiet).freeContexts g) (by simpa using hdropped l) g false
  unfold State.removeGang
  dsimp only
  rw [State.mem_resourcesFreed]
  split <;> simp [hended]

@[simp] theorem State.wf_dropGang {s : State} (h : Memory.wf s.mem) (g : Nat) (out : Ending) (quiet : Bool) :
    Memory.wf (s.dropGang g out quiet).mem := by
  rw [State.dropGang, State.mem_dropRecords]
  exact foldl_wf (fun u x hu => wf_removeGang (wf_abandonMigr (wf_stampGang hu x out) x true) x quiet) _ (by simpa using h)

@[simp] theorem State.wf_dropArriving {s : State} (h : Memory.wf s.mem) (gone : Gang → Bool) (out : Ending) :
    Memory.wf (s.dropArriving gone out).mem :=
  foldl_wf (fun u q hu => by simpa using wf_stampGang (by simpa using hu) _ out) _ h

@[simp] theorem State.wf_requeue {s : State} (h : Memory.wf s.mem) (g : Nat) (out : Ending) (again : Nat) :
    Memory.wf (s.requeue g out again).mem := by
  simp [State.requeue, h]

theorem State.wf_of_saveStrand {s t : State} (h : Memory.wf s.mem) {id : Nat} {operand : Word} (hs : s.saveStrand id operand = some t) :
    Memory.wf t.mem := by
  unfold State.saveStrand at hs
  dsimp only at hs
  split at hs <;> cases hs
  next hp => exact wf_writeArea (s.mem_of_poolAlloc _ _ _ hp ▸ h) ..

@[simp] theorem State.wf_landWrite {s : State} (h : Memory.wf s.mem) (id : Nat) (w : DelayedWrite) : Memory.wf (s.landWrite id w).mem := by
  unfold State.landWrite
  split <;> simp [h]

@[simp] theorem State.wf_landSlot {s : State} (h : Memory.wf s.mem) (id : Nat) : Memory.wf (s.landSlot id).mem := by
  unfold State.landSlot
  dsimp only
  split
  · simpa using h
  · exact foldl_wf (fun u x hu => wf_landWrite hu id x) _ (by simpa using h)

@[simp] theorem State.wf_handlerRetry {s : State} (h : Memory.wf s.mem) (id : Nat) : Memory.wf (s.handlerRetry id).mem := by
  unfold State.handlerRetry
  dsimp only
  split <;> simp [h]

theorem State.wf_of_parkAway {s t : State} (h : Memory.wf s.mem) {id : Nat} {f : InFlight} (hs : s.parkAway id f = some t) : Memory.wf t.mem := by
  unfold State.parkAway at hs
  dsimp only at hs
  split at hs
  · cases hs
  · next s1 h1 =>
    have hsaved : Memory.wf s1.mem := by
      split at h1
      · cases h1
      · exact wf_of_saveStrand h h1
    split at hs <;> cases hs
    · simpa using hsaved
    · exact hsaved

@[simp] theorem State.wf_forcePark {s : State} (h : Memory.wf s.mem) (id : Nat) : Memory.wf (s.forcePark id).mem := by
  unfold State.forcePark
  split
  · exact h
  · split
    · exact h
    · split
      · next f _ =>
        cases hp : s.parkAway id f with
        | none => exact h
        | some t => exact wf_of_parkAway h hp
      · exact h

@[simp] theorem State.wf_tellAskers {s : State} (h : Memory.wf s.mem) (id : Nat) : Memory.wf (s.tellAskers id).mem := by
  refine foldl_wf (fun u a hu => ?_) _ h
  split
  · exact wf_deliver hu ..
  · exact hu

@[simp] theorem State.wf_moveMemory {s : State} (h : Memory.wf s.mem) (c d : Nat) : Memory.wf (s.moveMemory c d).mem :=
  foldl_wf (fun u a hu => by simp [hu, memPut_wf]) _ h

@[simp] theorem State.wf_movePart {s : State} (h : Memory.wf s.mem) (g c d : Nat) : Memory.wf (s.movePart g c d).mem := by
  simp [State.movePart, h]

@[simp] theorem State.wf_takeStrands {s : State} (h : Memory.wf s.mem) (gs : List Nat) (c : Nat) : Memory.wf (s.takeStrands gs c).mem := by
  refine foldl_wf (fun u id hu => ?_) _ h
  split
  · exact wf_forcePark hu id
  · simpa using hu
  · exact hu

@[simp] theorem State.wf_moveParts {s : State} (h : Memory.wf s.mem) (gs : List Nat) (c d : Nat) : Memory.wf (s.moveParts gs c d).mem :=
  foldl_wf (fun u a hu => by simp [hu]) _ h

@[simp] theorem State.wf_needMxf64 {s : State} (h : Memory.wf s.mem) : Memory.wf (s.needMxf64).mem := by
  unfold State.needMxf64
  dsimp only
  split
  · exact wf_trapHere h _
  · split
    · split
      · rw [State.mem_installFwd]
        split
        · simpa using wf_moveParts (by simpa using h) ..
        · exact wf_moveParts (by simpa using h) ..
      · exact wf_takeStrands h ..
    · exact h

/-! ## Timelines, the matrix engine and copies -/

@[simp] theorem State.wf_enginePut {s : State} (h : Memory.wf s.mem) (core job : Nat) (p : Place) (bs : List Byte) :
    Memory.wf (s.enginePut core job p bs).mem := by
  unfold State.enginePut
  split <;> simp [h, memPut_wf]

@[simp] theorem State.wf_gatherFault {s : State} (h : Memory.wf s.mem) (c : Nat) (o : MxOp) (t : TrapInfo) :
    Memory.wf (s.gatherFault c o t).mem := by
  simp [State.gatherFault, h]

@[simp] theorem State.wf_gatherAll {s : State} (h : Memory.wf s.mem) (c : Nat) (o : MxOp) : Memory.wf (s.gatherAll c o).mem := by
  have ha := mem_operand c o o.fmtA o.a.toNat o.strideA o.scaleA o.virtA false 32 s 0 [] []
  unfold State.gatherAll
  split <;> (rename_i hs; rw [hs] at ha)
  · exact wf_gatherFault (ha ▸ h) ..
  · simpa using (ha ▸ h : Memory.wf _)
  · next s1 =>
    have hb := mem_operand c o o.fmtB o.b.toNat o.strideB o.scaleB o.virtB o.group.isSome 32 s1 0 [] []
    split <;> (rename_i hs; rw [hs] at hb)
    · exact wf_gatherFault (hb ▸ ha ▸ h) ..
    · simpa using (hb ▸ ha ▸ h : Memory.wf _)
    · split
      · exact wf_gatherFault (hb ▸ ha ▸ h) ..
      · simpa using (hb ▸ ha ▸ h : Memory.wf _)

@[simp] theorem State.wf_gatherEnds {s : State} (h : Memory.wf s.mem) (c : Nat) (o : MxOp) : Memory.wf (s.gatherEnds c o).mem := by
  simp [State.gatherEnds, h]

@[simp] theorem State.wf_rangeReply {s : State} (h : Memory.wf s.mem) (c : Nat) (r : Reply) : Memory.wf (s.rangeReply c r).mem := by
  unfold State.rangeReply
  dsimp only
  split
  · split
    · exact wf_gatherFault h ..
    · exact h
  · split
    · exact foldl_wf (fun u i hu => foldl_wf (fun v o hv => wf_gatherFault hv ..) _ hu) _ h
    · exact foldl_wf (fun u i hu => by exact hu) _ (by exact h)
  · exact h

@[simp] theorem State.wf_portEffect {s : State} (h : Memory.wf s.mem) (c : Nat) (o : MxOp) : Memory.wf (s.portEffect c o).mem := by
  unfold State.portEffect
  dsimp only
  split
  · exact h
  · rw [State.mem_ite, State.mem_postEngine]
    exact (congrArg Memory.wf (ite_self _)).trans h
  · exact wf_enginePut h ..
  · exact h
  · exact h

@[simp] theorem State.wf_portOp {s : State} (h : Memory.wf s.mem) (kind : MxKind) (d : BitVec 3) (a : Word) (st : BitVec 2) :
    Memory.wf (s.portOp kind d a st).mem := by
  unfold State.portOp
  dsimp only
  split
  · exact wf_trapHere h _
  · split
    · exact wf_trapHere h _
    · split
      · exact wf_needMxf64 h
      · split
        · exact wf_trapHere h _
        · refine wf_ite_of (wf_trapHere h _) ?_
          exact wf_streamPlace h fun u hu => wf_engineAwake hu fun v hv => by simpa using hv

@[simp] theorem State.wf_copy {s : State} (h : Memory.wf s.mem) (kind : CopyKind) (d a b : BitVec 7) (st : BitVec 2) :
    Memory.wf (s.copy kind d a b st).mem := by
  refine wf_guarded h _ fun u hu => ?_
  have hentry (fo : Option MxOp) : KeepsWf fun v => if (v.core v.coreId).channelUsed (bits (u.rx d) 0 2) < 16 then v.appendCopy kind d a b st fo
      else v.block (.channelRoom (bits (u.rx d) 0 2)) := fun v hv => by simp [hv]
  dsimp only
  split
  · exact wf_trapHere hu _
  · split
    · split
      · exact wf_trapHere hu _
      · exact wf_needMxf64 hu
      · exact wf_streamPlace hu (hentry _)
    · exact hentry none u hu

@[simp] theorem State.wf_cpyWFault {s : State} (h : Memory.wf s.mem) (c : Nat) (x : CopyCmd) (t : TrapInfo) :
    Memory.wf (s.cpyWFault c x t).mem := by
  simp [State.cpyWFault, h]

@[simp] theorem State.wf_copyFault {s : State} (h : Memory.wf s.mem) (c : Nat) (x : CopyCmd) (t : TrapInfo) :
    Memory.wf (s.copyFault c x t).mem := by
  simp [State.copyFault, h]

@[simp] theorem State.wf_endReader {s : State} (h : Memory.wf s.mem) (c : Nat) (x : CopyCmd) : Memory.wf (s.endReader c x).mem := by
  simp [State.endReader, h]

@[simp] theorem State.wf_copyStep {s : State} (h : Memory.wf s.mem) (c : Nat) (x y : CopyCmd) (read : Option Nat) :
    Memory.wf (s.copyStep c x y read).mem := by
  have hread (o : Option Nat) (u : State) (hu : Memory.wf u.mem) : Memory.wf (match o with
      | some t => if y.rAt = o then u else u.schedule t (.copyChunkReadReply c y.ch)
      | none => u).mem := by
    split <;> simp [hu]
  have hwrite (o : Option Nat) (u : State) (hu : Memory.wf u.mem) : Memory.wf (match o with
      | some t => u.schedule t (.copyChunkWrite c y.ch)
      | none => u).mem := by
    split <;> simp [hu]
  unfold State.copyStep
  dsimp only
  split
  · exact wf_endReader (by exact hwrite _ _ (hread _ _ (by exact h))) _ _
  · exact hwrite _ _ (hread _ _ (by exact h))

@[simp] theorem State.wf_copyReads {s : State} (h : Memory.wf s.mem) (c : Nat) (x : CopyCmd) : Memory.wf (s.copyReads c x).mem := by
  have hgo (u : State) (hu : Memory.wf u.mem) (y : CopyCmd) (t : Option Nat) :
      Memory.wf ((u.readAhead c y 128).1.copyStep c x (u.readAhead c y 128).2 t).mem :=
    wf_copyStep (by simpa using hu) _ _ _ _
  unfold State.copyReads
  dsimp only
  split
  · exact hgo s h _ _
  · split
    · exact wf_copyStep h ..
    · split
      · next hb => exact hgo _ (mem_of_engineBytes hb ▸ h) _ _
      · exact wf_copyStep h ..
      · exact h

@[simp] theorem State.wf_copyComplete {s : State} (h : Memory.wf s.mem) (c : Nat) (x : CopyCmd) : Memory.wf (s.copyComplete c x).mem := by
  simp [State.copyComplete, h]

@[simp] theorem State.wf_selectVersion {s : State} (h : Memory.wf s.mem) (c : Nat) (x : CopyCmd) : Memory.wf (s.selectVersion c x).mem := by
  unfold State.selectVersion
  dsimp only
  split
  · exact wf_copyFault h ..
  · exact wf_copyFault h ..
  · split
    · exact wf_copyFault (by simpa using h) ..
    · exact wf_copyStep (by simpa using h) ..

@[simp] theorem State.wf_chunkDone {s : State} (h : Memory.wf s.mem) (c : Nat) (x : CopyCmd) (keys : List Nat) (n : Nat) :
    Memory.wf (s.chunkDone c x keys n).mem := by
  unfold State.chunkDone
  dsimp only
  split <;> simp [h]

@[simp] theorem State.wf_writeLocal {s : State} (h : Memory.wf s.mem) (c : Nat) (x : CopyCmd) (pas : List Nat) (bs : List Byte) :
    Memory.wf (s.writeLocal c x pas bs).mem := by
  unfold State.writeLocal
  dsimp only
  split
  · simpa using h
  · split
    · exact h
    · exact wf_chunkDone (foldl_wf (fun u pa hu => wf_enginePut hu ..) pas h) ..

@[simp] theorem State.wf_writeChunk {s : State} (h : Memory.wf s.mem) (c : Nat) (x : CopyCmd) (bs : List Byte) :
    Memory.wf (s.writeChunk c x bs).mem := by
  unfold State.writeChunk
  dsimp only
  split
  · exact wf_chunkDone h ..
  · split
    · exact wf_chunkDone (by simpa using h) ..
    · split
      · split
        · exact wf_copyFault h ..
        · exact wf_writeLocal h ..
      · split
        · exact wf_copyFault h ..
        · split
          · exact wf_copyFault h ..
          · split
            · simp [h]
            · split
              · simpa using h
              · exact wf_writeLocal (by simpa using h) ..
              · exact wf_chunkDone (wf_enginePut (by simpa using h) ..) ..

@[simp] theorem State.wf_copyReply {s : State} (h : Memory.wf s.mem) (c : Nat) (x : CopyCmd) (r : Reply) : Memory.wf (s.copyReply c x r).mem := by
  unfold State.copyReply
  dsimp only
  split
  · split
    · exact wf_copyFault h ..
    · exact wf_chunkDone h ..
  · split
    · exact h
    · split <;> exact wf_copyStep h ..

@[simp] theorem State.wf_engineReply {s : State} (h : Memory.wf s.mem) (c : Nat) (r : Reply) : Memory.wf (s.engineReply c r).mem := by
  unfold State.engineReply
  split
  · exact h
  · split
    · exact wf_copyReply h ..
    · exact wf_rangeReply h ..

@[simp] theorem State.wf_serveCopy {s : State} (h : Memory.wf s.mem) (c : Nat) (x : CopyCmd) (pa : Nat) (r : Request) :
    Memory.wf (s.serveCopy c x pa r).mem := by
  unfold State.serveCopy
  dsimp only
  split
  · split
    · simpa using h
    · rw [State.mem_carry]
      exact wf_enginePut h ..
  · split
    · next hb =>
      rw [State.mem_carry, mem_of_engineBytes hb]
      simpa using h
    · simpa using h
  · exact h

/-! ## Outboxes, the scheduler and tasks -/

theorem State.wf_withLine {s : State} (h : Memory.wf s.mem) (va : Word) (n : Nat) {k : List Word → State → State} (hk : ∀ l, KeepsWf (k l)) :
    Memory.wf (s.withLine va n k).mem := by
  unfold State.withLine
  split
  · exact hk _ s h
  · dsimp only
    split
    · exact h
    · next u hb =>
      have hu : Memory.wf u.mem := s.mem_of_pieceBanks _ _ hb ▸ h
      split
      · next hr => exact hk _ _ (wf_of_readPieces _ hu hr)
      · split
        · exact wf_localDamage hu _
        · exact wf_trapHere hu _
      · simpa using hu
      · simpa using hu

theorem State.wf_operand64 {s : State} (h : Memory.wf s.mem) (va : Word) {k : List Word → State → State} (hk : ∀ l, KeepsWf (k l)) :
    Memory.wf (s.operand64 va k).mem := by
  unfold State.operand64
  split
  · exact wf_trapHere h _
  · exact wf_withLine h va 64 hk

@[simp] theorem State.wf_performAction {s : State} (h : Memory.wf s.mem) (a : Held) : Memory.wf (s.performAction a).mem := by
  unfold State.performAction
  dsimp only
  split
  · simpa using h
  · split
    · simpa using h
    · split <;> simpa using h
  · exact wf_trace h ..

@[simp] theorem State.wf_performHeld {s : State} (h : Memory.wf s.mem) (j n : Nat) : Memory.wf (s.performHeld j n).mem :=
  foldl_wf (fun _ a hu => wf_performAction hu a) _ h

@[simp] theorem State.wf_releaseEntry {s : State} (h : Memory.wf s.mem) (m : CommitMsg) (n : Nat) (o : OutEntry) (i : Nat) :
    Memory.wf (s.releaseEntry m n o i).mem := by
  unfold State.releaseEntry
  dsimp only
  split
  · simpa using h
  · exact h
  · rw [State.mem_releaseMessage]
    split
    · simpa using h
    · exact wf_unitWrite (by simpa using h) _ _

@[simp] theorem State.wf_releaseOutbox {s : State} (h : Memory.wf s.mem) (m : CommitMsg) (n : Nat) : Memory.wf (s.releaseOutbox m n).mem :=
  wf_performHeld (foldl_wf (fun _ _ hu => wf_releaseEntry hu ..) _ h) m.job n

@[simp] theorem State.wf_releaseRest {s : State} (h : Memory.wf s.mem) (m : CommitMsg) : Memory.wf (s.releaseRest m).mem :=
  foldl_wf (fun u a hu => by simp [hu]) _ h

@[simp] theorem State.wf_offer {s : State} (h : Memory.wf s.mem) (j : Nat) (p : List Word) (known : Bool) (sent : Option Bool) :
    Memory.wf (s.offer j p known sent).mem := by
  unfold State.offer
  split
  · simpa using h
  · dsimp only
    apply wf_stampWrite
    split <;> simpa using h

@[simp] theorem State.wf_offerBoth {s : State} (h : Memory.wf s.mem) (j : Nat) (p : List Word) (known : Bool) (sent : Option Bool) :
    Memory.wf (s.offerBoth j p known sent).mem := by
  have hoffered := wf_offer h j p known sent
  unfold State.offerBoth
  dsimp only
  split
  · split
    · exact wf_offer hoffered ..
    · exact hoffered
  · exact hoffered

theorem State.wf_spawnOperands {s : State} (h : Memory.wf s.mem) (d a : BitVec 7) (confinedOk : Bool) {k : List Word → Word → State → State}
    (hk : ∀ p w, KeepsWf (k p w)) : Memory.wf (s.spawnOperands d a confinedOk k).mem := by
  refine wf_guarded h _ fun u hu => wf_operand64 hu _ fun p v hv => wf_withLine hv _ 64 fun hs x hx => ?_
  have htrap (t : TrapInfo) := wf_trapHere hx t
  have hgo (q : List Word) (w : Word) := hk q w x hx
  simp [htrap, hgo]

@[simp] theorem State.wf_runInline {s : State} (h : Memory.wf s.mem) (d : BitVec 7) (st : BitVec 2) (p : List Word) (hdr : Word) :
    Memory.wf (s.runInline d st p hdr).mem := by
  unfold State.runInline
  dsimp only
  split
  · exact h
  · next hp =>
    simpa using wf_writeArea (s.mem_of_poolAlloc _ _ _ hp ▸ h) ..

/-! ## Joined rings and attention -/

@[simp] theorem State.wf_rjoin {s : State} (h : Memory.wf s.mem) (d a : BitVec 7) (st : BitVec 2) : Memory.wf (s.rjoin d a st).mem := by
  refine wf_operand64 h _ fun ws u hu => ?_
  dsimp only
  split
  · exact wf_trapHere hu _
  · split
    · exact wf_trapHere hu _
    · split
      · exact wf_trapHere hu _
      · split
        · exact wf_trapHere hu _
        · split
          · exact wf_trapHere hu _
          · split <;> simpa using hu

theorem State.wf_withMember {s : State} (h : Memory.wf s.mem) (x : Word) {k : Nat → Member → Ring → State}
    (hk : ∀ i m r, Memory.wf (k i m r).mem) : Memory.wf (s.withMember x k).mem := by
  unfold State.withMember
  split
  · exact wf_trapHere h _
  · split
    · split
      · exact wf_trapHere h _
      · split
        · exact hk ..
        · exact wf_trapHere h _
    · exact wf_trapHere h _

@[simp] theorem State.wf_attnWrite {s : State} (h : Memory.wf s.mem) (core gang a : Nat) (bs : List Byte) :
    Memory.wf (s.attnWrite core gang a bs).mem := by
  simp [State.attnWrite, h]

theorem State.wf_withContext {s : State} (h : Memory.wf s.mem) (x : Word) (traps : List (Option TrapInfo)) {k : Nat → AttnCtx → State}
    (hk : ∀ i c, Memory.wf (k i c).mem) : Memory.wf (s.withContext x traps k).mem := by
  unfold State.withContext
  dsimp only
  generalize (if x.toNat < 8 then s.attnCtx (clusterOf s.coreId) x.toNat else none) = c
  split
  · exact wf_trapHere h _
  · split
    · exact wf_trapHere h _
    · split
      · split
        · exact hk ..
        · exact wf_trapHere h _
      · exact wf_trapHere h _

@[simp] theorem State.wf_attnFault {s : State} (h : Memory.wf s.mem) (i : Nat) (x : AttnCtx) (t : TrapInfo) :
    Memory.wf (s.attnFault i x t).mem := by
  simp [State.attnFault, h]

@[simp] theorem State.wf_attnInitDone {s : State} (h : Memory.wf s.mem) (d : BitVec 7) (i : Nat) (x : AttnCtx) :
    Memory.wf (s.attnInitDone d i x).mem := by
  simp [State.attnInitDone, h]

@[simp] theorem State.wf_attnStepDone {s : State} (h : Memory.wf s.mem) (d b : BitVec 7) (i : Nat) (x : AttnCtx) :
    Memory.wf (s.attnStepDone d b i x).mem := by
  unfold State.attnStepDone
  dsimp only
  split
  · rw [State.mem_attnReturn, State.mem_ite, State.mem_acquire, ite_self, State.mem_setAttn]
    exact wf_attnWrite h ..
  all_goals exact wf_attnFault h ..

@[simp] theorem State.wf_attnFinDone {s : State} (h : Memory.wf s.mem) (d : BitVec 7) (i : Nat) (x : AttnCtx) :
    Memory.wf (s.attnFinDone d i x).mem := by
  unfold State.attnFinDone
  dsimp only
  split
  · exact wf_attnFault h ..
  · rw [State.mem_attnReturn, State.mem_setAttn]
    exact wf_attnWrite (wf_attnWrite h ..) ..

@[simp] theorem State.wf_attnPerform {s : State} (h : Memory.wf s.mem) (i : Instr) (idx : Nat) (x : AttnCtx) :
    Memory.wf (s.attnPerform i idx x).mem := by
  unfold State.attnPerform
  split <;> simp [h]

@[simp] theorem State.wf_attnTurn {s : State} (h : Memory.wf s.mem) (id : Nat) (again : Ev) : Memory.wf (s.attnTurn id again).mem := by
  unfold State.attnTurn
  dsimp only
  split
  · split
    · exact h
    · split
      · exact h
      · next x _ =>
        have hat : Memory.wf ({ s with cur := id } : State).mem := h
        split
        · split
          · exact h
          · split
            · simpa using h
            · rw [State.mem_attnPop]
              exact wf_attnPerform hat _ _ _
        · split
          · simpa using h
          · split
            · rw [State.mem_attnPop]
              exact wf_attnFault hat _ _ _
            · exact h
            · simpa using h
  · exact h

/-! ## Fetches, homes and endpoints -/

@[simp] theorem State.wf_lateAnswer {s : State} (h : Memory.wf s.mem) (key : Nat) (r : Reply) : Memory.wf (s.lateAnswer key r).mem := by
  refine foldl_wf (fun u p hu => ?_) _ h
  split
  · dsimp only
    split
    · exact hu
    · split
      · exact wf_deliver (by simp [hu]) ..
      · simp [hu]
  · split <;> simpa using hu
  · simpa using hu
  · split <;> simpa using hu

@[simp] theorem State.wf_accMore {s : State} (h : Memory.wf s.mem) (id : Nat) (f : InFlight) (d : BitVec 7) :
    Memory.wf (s.accMore id f d).mem := by
  unfold State.accMore
  dsimp only
  split <;> simp [h]

@[simp] theorem State.wf_bmovPiece {s : State} (h : Memory.wf s.mem) (id : Nat) (d a b : BitVec 7) (r : Reply) :
    Memory.wf (s.bmovPiece id d a b r).mem := by
  unfold State.bmovPiece
  dsimp only
  split
  · exact h
  · exact wf_bmovRead _ _ _ _ h

@[simp] theorem State.wf_portService {s : State} (h : Memory.wf s.mem) (r : Request) (pa c : Nat) : Memory.wf (s.portService r pa c).mem := by
  unfold State.portService
  dsimp only
  split
  · split <;> simpa using h
  · split <;> simpa using h
  · split
    · rw [State.mem_carry]
      exact wf_localWrite h ..
    · rw [State.mem_answer]
      exact wf_localWrite h ..
  · simpa using h

@[simp] theorem State.wf_serveFabric {s : State} (h : Memory.wf s.mem) (r : Request) : Memory.wf (s.serveFabric r).mem := by
  unfold State.serveFabric
  dsimp only
  refine wf_ite_of h (wf_ite_of (by simpa using h) ?_)
  split
  · simpa using h
  · split
    · split
      · simpa using h
      · split
        · simpa using h
        · split
          · simp [h]
          · next hs =>
            have hserved := wf_of_serve h hs
            simp only [State.mem_ite, State.mem_unpark, State.mem_answer, ite_self]
            split <;> exact hserved
          · simpa using h
    · exact h
    · simpa using h
    · simpa using h

@[simp] theorem State.wf_hwError {s : State} (h : Memory.wf s.mem) (h : HwError) : Memory.wf (s.hwError h).mem := by
  unfold State.hwError
  split <;> simp [h]

@[simp] theorem State.wf_stageByte {s : State} (h : Memory.wf s.mem) (pa : Nat) (b : Byte) : Memory.wf (s.stageByte pa b).mem := by
  unfold State.stageByte
  split
  · exact h
  · simpa using memWrite_wf 1 _ _ _ h

theorem State.wf_stageBytes (bs : List Byte) : ∀ {s : State} (pa : Nat), Memory.wf s.mem → Memory.wf (s.stageBytes pa bs).mem := by
  induction bs with
  | nil => exact fun pa h => h
  | cons b bs ih => exact fun pa h => ih _ (wf_stageByte h pa b)

/-! ## Virtual time, the fabric and commands -/

@[simp] theorem State.wf_enterInbox {s : State} (h : Memory.wf s.mem) (j n i : Nat) (e : InboxEntry) : Memory.wf (s.enterInbox j n i e).mem := by
  simp [State.enterInbox, h]

theorem State.wf_of_enterOverflow {s t : State} (h : Memory.wf s.mem) {j n : Nat} {e : InboxEntry} (hs : s.enterOverflow j n e = some t) :
    Memory.wf t.mem := by
  unfold State.enterOverflow at hs
  split at hs <;> cases hs
  next hp => exact wf_writeArea (by simpa using (s.mem_of_poolAlloc _ _ _ hp ▸ h : Memory.wf _)) _ _ _

theorem State.wf_refill (j n k : Nat) : ∀ {s : State}, Memory.wf s.mem → Memory.wf (s.refill j n k).mem := by
  induction k with
  | zero => exact fun h => h
  | succ k ih =>
    intro s h
    unfold State.refill
    dsimp only
    split
    · exact ih (wf_enterInbox (by simpa using h) _ _ _ _)
    · exact h

@[simp] theorem State.wf_exchange {s : State} (h : Memory.wf s.mem) (j n : Nat) : Memory.wf (s.exchange j n).mem := by
  unfold State.exchange
  dsimp only
  split <;> simp [h]

theorem State.wf_exchangeAll (j n k : Nat) : ∀ {s : State}, Memory.wf s.mem → Memory.wf (s.exchangeAll j n k).mem := by
  induction k with
  | zero => exact fun h => h
  | succ k ih => exact fun h => ih (wf_exchange h j n)

@[simp] theorem State.wf_dropInbox {s : State} (h : Memory.wf s.mem) (j n : Nat) (e : InboxEntry) : Memory.wf (s.dropInbox j n e).mem := by
  rw [State.dropInbox, State.mem_soon]
  refine wf_refill _ _ _ ?_
  split <;> simpa using h

@[simp] theorem State.wf_place {s : State} (h : Memory.wf s.mem) (j n : Nat) (m : Message) (st : InboxState) :
    Memory.wf (s.place j n m st).mem := by
  unfold State.place
  dsimp only
  split
  · rw [State.mem_soon]
    exact wf_enterInbox (by simpa using h) _ _ _ _
  · split
    · next hs => rw [State.mem_soon]; exact wf_exchange (wf_of_enterOverflow (by simpa using h) hs) _ _
    · exact h

@[simp] theorem State.wf_discardEntries {s : State} (h : Memory.wf s.mem) (out : Ending) (gone : Entry → Bool) :
    Memory.wf (s.discardEntries out gone).mem := by
  rw [State.discardEntries, State.mem_resourcesFreed]
  refine foldl_wf (fun u p hu => ?_) _ (by simpa using h)
  split
  · exact hu
  · rw [State.mem_confirmEntry]
    exact wf_stampEntry (by simpa using hu) _ _

@[simp] theorem State.wf_dropTask {s : State} (h : Memory.wf s.mem) (j task : Nat) (out : Ending) : Memory.wf (s.dropTask j task out).mem :=
  wf_discardEntries (foldl_wf (fun u g hu => by
    rw [State.mem_confirmEnd]
    exact wf_dropGang hu ..) _ h) _ _

@[simp] theorem State.wf_cancelHere {s : State} (h : Memory.wf s.mem) (j n : Nat) (bound : Key) : Memory.wf (s.cancelHere j n bound).mem := by
  refine foldl_wf (fun u o hu => by exact hu) _ (foldl_wf (fun u t hu => ?_) _ h)
  rw [State.mem_undoTask]
  exact wf_dropTask hu ..

@[simp] theorem State.wf_cancelChildren {s : State} (h : Memory.wf s.mem) (j n : Nat) (bound : Key) :
    Memory.wf (s.cancelChildren j n bound).mem :=
  foldl_wf (fun u m hu => by exact hu) _ (wf_cancelHere h j n bound)

@[simp] theorem State.wf_rollback {s : State} (h : Memory.wf s.mem) (j n : Nat) (k : Key) : Memory.wf (s.rollback j n k).mem := by
  have hdropped (l : List InboxEntry) : Memory.wf (l.foldl (fun (u : State) e => u.dropTask j e.task .rolledBack) s).mem :=
    foldl_wf (fun u e hu => wf_dropTask hu ..) l h
  unfold State.rollback
  dsimp only
  rw [State.mem_soon]
  refine wf_exchangeAll _ _ _ ?_
  rw [State.mem_retryCommits]
  refine wf_cancelChildren ?_ _ _ _
  refine foldl_wf (fun u e hu => ?_) _ ?_
  · simpa using hu
  · split <;> simpa using hdropped _

@[simp] theorem State.wf_annihilate {s : State} (h : Memory.wf s.mem) (j n : Nat) (e : InboxEntry) : Memory.wf (s.annihilate j n e).mem := by
  simp [State.annihilate, h]

@[simp] theorem State.wf_takeArrival {s : State} (h : Memory.wf s.mem) (j : Nat) (m : Message) : Memory.wf (s.takeArrival j m).mem := by
  have hback (c : Bool) (n : Nat) : KeepsWf fun u => if c then u.rollback j n m.key else u := fun u hu => by
    dsimp only
    split
    · exact wf_rollback hu ..
    · exact hu
  unfold State.takeArrival
  dsimp only
  split
  · refine wf_arrive h j m fun n u hu => ?_
    have hu' := hback (s.undoes j m) n u hu
    dsimp only at hu'
    split
    · exact wf_annihilate hu' _ _ _
    · exact wf_place hu' _ _ _ _
  · refine wf_arrive h j m fun n u hu => ?_
    split
    · exact wf_annihilate hu _ _ _
    · exact wf_place (hback (s.straggles j m) n u hu) _ _ _ _

theorem State.wf_takeArrivals (j n k : Nat) : ∀ {s : State}, Memory.wf s.mem → Memory.wf (s.takeArrivals j n k).mem := by
  induction k with
  | zero => exact fun h => h
  | succ k ih =>
    intro s h
    unfold State.takeArrivals
    split
    · exact h
    · split
      · exact h
      · exact ih (wf_takeArrival (by simpa using h) _ _)

@[simp] theorem State.wf_takeInq {s : State} (h : Memory.wf s.mem) (j n : Nat) : Memory.wf (s.takeInq j n).mem := wf_takeArrivals j n _ h

@[simp] theorem State.wf_reachInbox {s : State} (h : Memory.wf s.mem) (j : Nat) (m : Message) : Memory.wf (s.reachInbox j m).mem := by
  simp [State.reachInbox, h]

@[simp] theorem State.wf_inboxSettle {s : State} (h : Memory.wf s.mem) (j n : Nat) : Memory.wf (s.inboxSettle j n).mem := by
  unfold State.inboxSettle
  dsimp only
  split
  · exact wf_exchangeAll _ _ _ (by simpa using h)
  · exact h

@[simp] theorem State.wf_writeStatus {s : State} (h : Memory.wf s.mem) (j n : Nat) : Memory.wf (s.writeStatus j n).mem := by
  simp [State.writeStatus, h]

@[simp] theorem State.wf_fossil {s : State} (h : Memory.wf s.mem) (j n lw : Nat) : Memory.wf (s.fossil j n lw).mem :=
  wf_writeStatus (wf_refill _ _ _ (by exact h)) j n

@[simp] theorem State.wf_reportDeadlock {s : State} (h : Memory.wf s.mem) (j g : Nat) : Memory.wf (s.reportDeadlock j g).mem := by
  unfold State.reportDeadlock
  dsimp only
  split
  · exact h
  · next hp =>
    rw [State.mem_postEvent]
    have hwritten (va : Nat) (ws : List Word) := wf_writeArea (s.mem_of_poolAlloc _ _ _ hp ▸ h) j va ws
    exact wf_launchHandler (by exact hwritten _ _) _ _ _ _

@[simp] theorem State.wf_deadlocks {s : State} (h : Memory.wf s.mem) (j : Nat) (quiet : Bool) : Memory.wf (s.deadlocks j quiet).mem :=
  foldl_wf (fun u a hu => by simp [hu]) _ h

@[simp] theorem State.wf_passEnd {s : State} (h : Memory.wf s.mem) (j : Nat) (t : Token) : Memory.wf (s.passEnd j t).mem := by
  simp [State.passEnd, h]

@[simp] theorem State.wf_enterPass {s : State} (h : Memory.wf s.mem) (j p : Nat) (t : Token) : Memory.wf (s.enterPass j p t).mem := by
  simp [State.enterPass, h]

@[simp] theorem State.wf_unwindLp {s : State} (h : Memory.wf s.mem) (j n a : Nat) : Memory.wf (s.unwindLp j n a).mem :=
  wf_exchangeAll _ _ _ (wf_refill _ _ _ (foldl_wf (fun u e hu => by simpa using hu) _ h))

@[simp] theorem State.wf_unwindCore {s : State} (h : Memory.wf s.mem) (j c a : Nat) : Memory.wf (s.unwindCore j c a).mem := by
  have hdropped (l : List (Nat × Gang)) (u : State) (hu : Memory.wf u.mem) (o : Nat × Gang → Ending) :
      Memory.wf (l.foldl (fun (u : State) g => (u.dropGang g.1 (o g) true).confirmEnd g.2) u).mem :=
    foldl_wf (fun v g hv => by
      rw [State.mem_confirmEnd]
      exact wf_dropGang hv _ _ _) l hu
  unfold State.unwindCore
  dsimp only
  refine foldl_wf (fun u l hu => wf_unwindLp hu _ _ _) _ ?_
  have hgone := wf_dropArriving h (fun q => q.job == j && (s.contexts.any fun e => e.2.1 == c && e.2.2.gangs.any fun g => g.2 == q) &&
    decide (a ≤ packetVt q.packet)) .dropped
  split
  · exact wf_discardEntries (by exact hdropped _ _ hgone _) _ _
  · exact hdropped _ _ hgone _

@[simp] theorem State.wf_abortDone {s : State} (h : Memory.wf s.mem) (j a : Nat) (reason : Word) : Memory.wf (s.abortDone j a reason).mem := by
  simp [State.abortDone, h]

@[simp] theorem State.wf_abortPart {s : State} (h : Memory.wf s.mem) (j p : Nat) (second : Bool) (a : Nat) :
    Memory.wf (s.abortPart j p second a).mem := by
  simp [State.abortPart, h]

@[simp] theorem State.wf_abortOn {s : State} (h : Memory.wf s.mem) (j : Nat) (second : Bool) (a : Nat) (reason : Word) :
    Memory.wf (s.abortOn j second a reason).mem := by
  unfold State.abortOn
  dsimp only
  split <;> simp [h]

@[simp] theorem State.wf_reportDrop {s : State} (h : Memory.wf s.mem) (core slot addr j : Nat) :
    Memory.wf (s.reportDrop core slot addr j).mem := by
  simp [State.reportDrop, h]

theorem State.wf_of_heldPacket {s t : State} (h : Memory.wf s.mem) {e : Ev} (hs : s.heldPacket e = some t) : Memory.wf t.mem := by
  unfold State.heldPacket at hs
  split at hs
  · split at hs
    · cases hs; exact h
    · dsimp only at hs
      split at hs
      · cases hs; exact h
      · split at hs <;> cases hs
        exact wf_reportDrop (by simpa using h) _ _ _ _
  · cases hs

theorem State.wf_of_heldBack {s t : State} (h : Memory.wf s.mem) {e : Ev} (hs : s.heldBack e = some t) : Memory.wf t.mem := by
  unfold State.heldBack at hs
  split at hs
  · exact s.mem_of_timedLate _ _ _ hs ▸ h
  · exact wf_of_heldPacket h hs

/-! ## Commits, jobs, floats and the system instructions -/

theorem State.wf_checkDone {s : State} (h : Memory.wf s.mem) {k : State → State} (hk : KeepsWf k) : Memory.wf (s.checkDone k).mem := by
  unfold State.checkDone
  dsimp only
  split
  · exact hk s h
  · split
    case h_5 => exact hk s h
    all_goals exact wf_trapHere h _

theorem State.wf_checkTile {s : State} (h : Memory.wf s.mem) (a : Word) {k : Nat → State → State} (hk : ∀ n, KeepsWf (k n)) :
    Memory.wf (s.checkTile a k).mem := by
  unfold State.checkTile
  dsimp only
  split
  · exact hk 0 s h
  · split
    · exact wf_trapHere h _
    · refine wf_withLine h _ 8 fun l u hu => ?_
      split
      · exact wf_trapHere hu _
      · split
        · exact wf_trapHere hu _
        · exact hk _ u hu

@[simp] theorem State.wf_finishAlone {s : State} (h : Memory.wf s.mem) (m : CommitMsg) : Memory.wf (s.finishAlone m).mem := by
  simp [State.finishAlone, h]

@[simp] theorem State.wf_commitNow {s : State} (h : Memory.wf s.mem) (a : Word) (size : Nat) : Memory.wf (s.commitNow a size).mem := by
  refine wf_released h fun u hu => ?_
  split
  · exact hu
  · split
    · exact wf_trapHere hu _
    · split
      · exact wf_localDamage hu _
      · split
        · exact wf_finishAlone hu _
        · simpa using hu

@[simp] theorem State.wf_haltNow {s : State} (h : Memory.wf s.mem) : Memory.wf (s.haltNow).mem := by
  refine wf_guarded h _ fun u hu => ?_
  split
  · exact wf_checkDone hu fun v hv => wf_commitNow hv _ _
  · refine wf_released hu fun v hv => ?_
    split <;> simpa using hv

@[simp] theorem State.wf_homePut {s : State} (h : Memory.wf s.mem) (pa : Nat) (bs : List Byte) : Memory.wf (s.homePut pa bs).mem := by
  simp [State.homePut, h]

theorem State.wf_writeBuffer (core j n : Nat) :
    ∀ {s : State} (base : Nat) (bs : List Byte), Memory.wf s.mem → Memory.wf (s.writeBuffer core j base n bs).mem := by
  induction n with
  | zero => exact fun base bs h => h
  | succ n ih =>
    intro s base bs h
    unfold State.writeBuffer
    split
    · exact h
    · split
      · exact ih _ _ (wf_homePut h _ _)
      · exact h

@[simp] theorem State.wf_writeHeader {s : State} (h : Memory.wf s.mem) (pa i : Nat) (hdr : List Word) (m : CommitMsg) :
    Memory.wf (s.writeHeader pa i hdr m).mem :=
  wf_unitWrite (wf_unitWrite h _ _) _ _

@[simp] theorem State.wf_addDone {s : State} (h : Memory.wf s.mem) (core j : Nat) (va : Word) : Memory.wf (s.addDone core j va).mem := by
  unfold State.addDone
  split
  · exact h
  · split
    · exact wf_homePerform (by simpa using h) _ _ _ _ _ _
    · exact h
    · exact h

@[simp] theorem State.wf_commitStep {s : State} (h : Memory.wf s.mem) (m : CommitMsg) (n : Nat) : Memory.wf (s.commitStep m n).mem := by
  rw [State.commitStep, State.mem_answerCommit, State.mem_recordWinner]
  exact wf_addDone (wf_releaseOutbox (by simpa using h) _ _) _ _ _

@[simp] theorem State.wf_commitTile {s : State} (h : Memory.wf s.mem) (m : CommitMsg) : Memory.wf (s.commitTile m).mem := by
  unfold State.commitTile
  dsimp only
  split
  · split
    · simpa using h
    · split
      · simpa using h
      · split
        · exact wf_commitStep (by simpa using h) _ _
        · split
          · simpa using h
          · simpa using h
          · exact wf_commitStep (wf_writeHeader (wf_writeBuffer _ _ _ _ _ (by simpa using h)) _ _ _ _) _ _
  · simpa using h

@[simp] theorem State.wf_serveCommit {s : State} (h : Memory.wf s.mem) (m : CommitMsg) : Memory.wf (s.serveCommit m).mem := by
  simp [State.serveCommit, h]

@[simp] theorem State.wf_branch {s : State} (h : Memory.wf s.mem) (regs : List (BitVec 7)) (o : BitVec 9) (st : BitVec 2) (taken : State → Bool) :
    Memory.wf (s.branch regs o st taken).mem :=
  wf_guarded h _ fun u hu => by simpa using hu

@[simp] theorem State.wf_fp3 {s : State} (h : Memory.wf s.mem) (f : Fmt) (lat : Nat) (d a b : BitVec 7) (st : BitVec 2)
    (op : Rm → Fv → Fv → Nat × BitVec 5) : Memory.wf (s.fp3 f lat d a b st op).mem :=
  wf_guarded h _ fun u hu => by simpa using hu

@[simp] theorem State.wf_fpBits {s : State} (h : Memory.wf s.mem) (regs : List (BitVec 7)) (d : BitVec 7) (st : BitVec 2)
    (r : State → Nat × BitVec 5) : Memory.wf (s.fpBits regs d st r).mem :=
  wf_guarded h _ fun u hu => by simpa using hu

@[simp] theorem State.wf_closeTasks {s : State} (h : Memory.wf s.mem) (j : Nat) : Memory.wf (s.closeTasks j).mem := by
  refine foldl_wf (fun u g hu => ?_) _ (wf_dropArriving (wf_discardEntries h _ _) _ _)
  split
  · rw [State.mem_confirmEnd]
    exact wf_dropGang hu _ _ _
  · exact hu

@[simp] theorem State.wf_closeLps {s : State} (h : Memory.wf s.mem) (j : Nat) : Memory.wf (s.closeLps j).mem :=
  foldl_wf (fun u a hu => by simp [hu]) _ h

@[simp] theorem State.wf_closeJob {s : State} (h : Memory.wf s.mem) (j : Nat) : Memory.wf (s.closeJob j).mem := by
  unfold State.closeJob
  dsimp only
  split <;> simp [h]

theorem State.wf_withCsr {s : State} (h : Memory.wf s.mem) (d : BitVec 7) (c : BitVec 9) (writes : Bool) {k : Csr → State → State}
    (hk : ∀ r, KeepsWf (k r)) : Memory.wf (s.withCsr d c writes k).mem := by
  unfold State.withCsr
  split
  · exact wf_trapHere h _
  · split
    · exact wf_trapHere h _
    · split
      · exact wf_trapHere h _
      · split
        · exact wf_trapHere h _
        · exact wf_guarded h _ (hk _)

@[simp] theorem State.wf_csrUpdate {s : State} (h : Memory.wf s.mem) (d : BitVec 7) (c : BitVec 9) (st : BitVec 2) (f : Word → Word → Word) :
    Memory.wf (s.csrUpdate d c st f).mem := by
  refine wf_withCsr h d c true fun r u hu => ?_
  dsimp only
  split <;> simpa using hu

@[simp] theorem State.wf_dropDamaged {s : State} (h : Memory.wf s.mem) (g : Nat) : Memory.wf (s.dropDamaged g).mem := by
  simp [State.dropDamaged, h]

/-! ## Migrations, power, suspensions and vectors -/

@[simp] theorem State.wf_migrEnd {s : State} (h : Memory.wf s.mem) (m : Migr) (status : Nat) : Memory.wf (s.migrEnd m status).mem := by
  unfold State.migrEnd
  dsimp only
  split <;> simp [h]

@[simp] theorem State.wf_partLeft {s : State} (h : Memory.wf s.mem) (g c : Nat) : Memory.wf (s.partLeft g c).mem := by
  rw [State.partLeft, State.mem_afterLeaving]
  refine foldl_wf (fun u x hu => ?_) _ ?_
  · dsimp only
    split <;> exact hu
  · rw [State.mem_setCore]
    refine foldl_wf (fun u x hu => wf_dropReaders hu _ _) _ (foldl_wf (fun u x hu => by exact hu) _ ?_)
    exact foldl_wf (fun u a hu => by simpa using hu) _ (by simpa using h)

@[simp] theorem State.wf_sendContext {s : State} (h : Memory.wf s.mem) (m : Migr) (gs : List Nat) : Memory.wf (s.sendContext m gs).mem := by
  refine foldl_wf (fun u g hu => wf_partLeft hu _ _) _ ?_
  rw [State.mem_send]
  refine List.foldlRecOn (motive := fun p : State × List (Nat × Nat) => Memory.wf p.1.mem) _ _ ?_ fun p hp g _ => ?_
  · exact foldl_wf (fun u g hu => by simpa using hu) _ h
  · simpa using hp

@[simp] theorem State.wf_installContext {s : State} (h : Memory.wf s.mem) (d : Nat) (x : Context) : Memory.wf (s.installContext d x).mem := by
  rw [State.installContext, State.mem_resourcesFreed]
  refine foldl_wf (fun u p hu => ?_) _ ?_
  · split
    · exact hu
    · exact foldl_wf (fun v e hv => by exact hv) _ (by exact hu)
  · have hwritten : KeepsWf fun u => x.memory.foldl (fun (u : State) l =>
        { (u.markLocal (localBase d + l.1) 64) with mem := memPut u.mem (localBase d + l.1) l.2 }) u :=
      fun u hu => foldl_wf (fun v l hv => memPut_wf _ _ _ hv) _ hu
    have hnamed (gs : List (Nat × Gang)) (u : State) (hu : Memory.wf u.mem) : Memory.wf (gs.foldl (fun (p : List (Nat × Nat) × State) g =>
        (p.1 ++ [(g.1, (p.2.gangHere d g.1).1)], (p.2.gangHere d g.1).2.setGang (p.2.gangHere d g.1).1 g.2)) ([], u)).2.mem :=
      List.foldlRecOn (motive := fun p : List (Nat × Nat) × State => Memory.wf p.2.mem) _ _ hu fun p hp g _ => by simpa using hp
    split
    · exact hwritten _ (foldl_wf (fun u g hu => by simpa using hu) _ (hnamed _ _ (by simpa using h)))
    · exact hwritten _ (foldl_wf (fun u g hu => by simpa using hu) _ (hnamed _ _ (by simpa using h)))

@[simp] theorem State.wf_migrMove {s : State} (h : Memory.wf s.mem) (m : Migr) (gs : List Nat) : Memory.wf (s.migrMove m gs).mem := by
  simp [State.migrMove, h]

@[simp] theorem State.wf_evacuate {s : State} (h : Memory.wf s.mem) (c g : Nat) : Memory.wf (s.evacuate c g).mem := by
  unfold State.evacuate
  split
  · exact wf_requeue (by simpa using h) _ _ _
  · split
    · exact h
    · split
      · rw [State.mem_installFwd, State.mem_carryShared]
        exact wf_movePart (by simpa using h) _ _ _
      · exact wf_takeStrands h _ _

theorem State.wf_roamAway {s : State} (h : Memory.wf s.mem) (bytes : Nat) (resume : Nat × Word) {k : Entry → State → State}
    (hk : ∀ e, KeepsWf (k e)) : Memory.wf (s.roamAway bytes resume k).mem := by
  refine wf_whenLanded h fun u hu => wf_released hu fun v hv => ?_
  dsimp only
  split
  · exact hv
  · split
    · exact hv
    · next hs => exact hk _ _ (by simpa using wf_of_saveStrand (by simpa using hv) hs)

@[simp] theorem State.wf_suspendNext {s : State} (h : Memory.wf s.mem) (bytes : Nat) (st : BitVec 2) :
    Memory.wf (s.suspendNext bytes st).mem := by
  unfold State.suspendNext
  split
  · exact wf_roamAway h _ _ fun e u hu => by simpa using hu
  · exact h

@[simp] theorem State.wf_suspendFe {s : State} (h : Memory.wf s.mem) (full : Bool) (va : Word) (st : BitVec 2) :
    Memory.wf (s.suspendFe full va st).mem := by
  refine wf_reach h 8 va .read true false fun p u hu => ?_
  dsimp only
  split
  · split
    · exact wf_roamAway hu _ _ fun e v hv => by simpa using hv
    · exact wf_homeAccess (by simpa using hu) _ _ _ _ _ _ _
  · split
    · exact hu
    · split
      · exact wf_roamAway hu _ _ fun e v hv => by simpa using hv
      · simpa using hu
  · exact hu

@[simp] theorem State.wf_suspendDelay {s : State} (h : Memory.wf s.mem) (n : Nat) (st : BitVec 2) : Memory.wf (s.suspendDelay n st).mem := by
  unfold State.suspendDelay
  dsimp only
  split
  · exact h
  · split
    · exact wf_roamAway h _ _ fun e u hu => by simpa using hu
    · simpa using h

@[simp] theorem State.wf_suspendLow {s : State} (h : Memory.wf s.mem) (v : Nat) (st : BitVec 2) : Memory.wf (s.suspendLow v st).mem := by
  unfold State.suspendLow
  split
  · exact h
  · split
    · exact wf_roamAway h _ _ fun e u hu => by simpa using hu
    · simpa using h

@[simp] theorem State.wf_yieldStrand {s : State} (h : Memory.wf s.mem) (bytes : Nat) (st : BitVec 2) :
    Memory.wf (s.yieldStrand bytes st).mem := by
  simp [State.yieldStrand, h]

/-- What a step of a vector instruction leaves, if it is done, has its memory in canonical form. -/
def VEnd.Wf : VEnd → Prop
  | .done s => Memory.wf s.mem
  | _ => True

@[simp] theorem VEnd.wf_done (s : State) : (VEnd.done s).Wf ↔ Memory.wf s.mem := Iff.rfl

theorem VEnd.wf_ite {c : Prop} [Decidable c] {d e : VEnd} (hd : d.Wf) (he : e.Wf) : (if c then d else e).Wf := by
  split
  · exact hd
  · exact he

@[simp] theorem State.wf_vStep {s : State} (h : Memory.wf s.mem) (v : VInstr) (m : Nat) (count : Option (BitVec 7)) : (s.vStep v m count).Wf := by
  unfold State.vStep
  dsimp only
  split
  · trivial
  · split
    · trivial
    · refine VEnd.wf_ite trivial (VEnd.wf_ite trivial (wf_ite_of ?_ ?_))
      all_goals exact memPut_wf _ _ _ (memPut_wf _ _ _ h)

@[simp] theorem State.wf_vTrap {s : State} (h : Memory.wf s.mem) {e : VEnd} (he : e.Wf) : Memory.wf (s.vTrap e).mem := by
  cases e with
  | done t => exact he
  | trap t => exact wf_trapHere (by simpa using h) _
  | damaged => exact wf_localDamage (by simpa using h) _

theorem State.wf_of_vStep {s t : State} (h : Memory.wf s.mem) {v : VInstr} {m : Nat} {count : Option (BitVec 7)}
    (hd : s.vStep v m count = .done t) : Memory.wf t.mem :=
  (VEnd.wf_done t).mp (hd ▸ wf_vStep h v m count)

@[simp] theorem State.wf_vector {s : State} (h : Memory.wf s.mem) (v : VInstr) : Memory.wf (s.vector v).mem := by
  unfold State.vector
  split
  · exact wf_trapHere h _
  · refine wf_guarded h _ fun u hu => ?_
    dsimp only
    have hstep := wf_vStep (s := u.vClaim v (v.op.shape (u.me.oxr 6)).n 8) (by simpa using hu) v (v.op.shape (u.me.oxr 6)).n none
    split
    · next hs =>
      rw [hs] at hstep
      simpa using hstep
    · split
      · simpa using hu
      · exact wf_vTrap hu trivial
    · exact wf_vTrap hu trivial

@[simp] theorem State.wf_repPair {s : State} (h : Memory.wf s.mem) (c : BitVec 7) (body : Instr) : Memory.wf (s.repPair c body).mem := by
  unfold State.repPair
  split
  · exact wf_trapHere h _
  · split
    · exact wf_trapHere h _
    · refine wf_guarded h _ fun u hu => ?_
      dsimp only
      split
      · exact hu
      · rw [State.mem_vSchedule]
        exact hu

end Sys2Proof.Machine
end

section
/-! Memory across the meanings of the instructions and steps (07 R126): each that does more than call one function of the state
ends in a state whose memory has its canonical form, if it goes on. -/

namespace Sys2Proof.Machine

open Host State

/-- The state that an outcome goes on with, if any, has its memory in canonical form. -/
def EndsWf : Outcome State Fault Refusal → Prop
  | .next t => Memory.wf t.mem
  | _ => True

@[simp] theorem endsWf_next (t : State) : EndsWf (.next t) ↔ Memory.wf t.mem := Iff.rfl

theorem endsWf_ite {c : Prop} [Decidable c] {o p : Outcome State Fault Refusal} (ho : EndsWf o) (hp : EndsWf p) :
    EndsWf (if c then o else p) := by
  split
  · exact ho
  · exact hp

variable {s : State} (h : Memory.wf s.mem)

include h

/-! ## Banks, memory and accesses -/

theorem endsWf_execStRel (d a : BitVec 7) (st : BitVec 2) : EndsWf (execStRel d a st s) :=
  wf_guarded h _ fun _ hu => wf_reach hu _ _ _ _ _ fun _ _ hv => wf_released hv fun _ hw => wf_storeTo hw ..

theorem endsWf_execFenceAcq (st : BitVec 2) : EndsWf (execFenceAcq st s) := by
  simp [execFenceAcq, h]

theorem endsWf_execFenceRel (st : BitVec 2) : EndsWf (execFenceRel st s) := wf_released h fun u hu => by simpa using hu

theorem endsWf_execFenceFull (st : BitVec 2) : EndsWf (execFenceFull st s) := wf_released h fun u hu => by simpa using hu

theorem endsWf_execDredAcc (d a : BitVec 7) (st : BitVec 2) : EndsWf (execDredAcc d a st s) := by
  refine wf_guardedRun h _ _ _ fun u hu => wf_reach hu _ _ _ _ _ fun p v hv => ?_
  dsimp only
  split
  · exact wf_trapHere hv _
  · exact wf_homeAccess hv ..

theorem endsWf_execDreadAcc (d a : BitVec 7) (st : BitVec 2) : EndsWf (execDreadAcc d a st s) := wf_guardedRun h _ _ _ fun _ hu => wf_dRead hu ..

theorem endsWf_execPref (a : BitVec 7) (st : BitVec 2) : EndsWf (execPref a st s) := by
  unfold execPref
  rw [endsWf_next]
  split
  · exact wf_trapHere h _
  · simpa using h

theorem endsWf_execBmov (d a b : BitVec 7) (st : BitVec 2) : EndsWf (execBmov d a b st s) := wf_guarded h _ fun u hu => by simp [hu]

/-! ## Engines and rings -/

theorem endsWf_execEngineGate : EndsWf (execEngineGate s) := by
  unfold execEngineGate
  split
  · dsimp only
    split
    · simp [h]
    · simp [h]
  · exact h

theorem endsWf_execBreakEvenHoldExpiry : EndsWf (execBreakEvenHoldExpiry s) := by
  unfold execBreakEvenHoldExpiry
  split
  · split
    · simp [h]
    · exact h
  · exact h

theorem endsWf_execInrushAdmission : EndsWf (execInrushAdmission s) := by
  unfold execInrushAdmission
  split
  · dsimp only
    split
    · simp [h]
    · split
      · simp [h]
      · simp [h]
  · exact h

theorem endsWf_execEngineWakeComplete : EndsWf (execEngineWakeComplete s) := by
  unfold execEngineWakeComplete
  split
  · dsimp only
    split
    · simp [h]
    · simp [h]
  · exact h

theorem endsWf_execHoldQuantumExpiry : EndsWf (execHoldQuantumExpiry s) := by
  unfold execHoldQuantumExpiry
  split
  · simp [h]
  · exact h

theorem endsWf_execWithheldIntervalStart : EndsWf (execWithheldIntervalStart s) := by
  unfold execWithheldIntervalStart
  split
  · dsimp only
    split
    · simp [h]
    · simp [h]
  · exact h

theorem endsWf_execDutyWindowStart : EndsWf (execDutyWindowStart s) := by
  unfold execDutyWindowStart
  split
  · dsimp only
    split
    · simp [h]
    · simp [h]
  · exact h

theorem endsWf_execRillBeat : EndsWf (execRillBeat s) := by
  unfold execRillBeat
  split
  · simp [h]
  · dsimp only
    split
    · exact h
    · simp [h]
    · simpa using h
  · exact h

theorem endsWf_execRillToken : EndsWf (execRillToken s) := by
  unfold execRillToken
  split
  · refine endsWf_ite h ?_
    split
    · exact h
    · simp [h]
  · exact h

theorem endsWf_execReadOut : EndsWf (execReadOut s) := by
  unfold execReadOut
  split
  · split
    · exact h
    · refine endsWf_ite h ?_
      dsimp only
      split
      · split
        · exact h
        · simpa using h
      · exact h
  · exact h

theorem endsWf_execRingBreak : EndsWf (execRingBreak s) := by
  unfold execRingBreak
  split
  · rw [endsWf_next, State.mem_withRing _ _ _ fun r => ?_]
    · exact h
    · split
      · simp
      · simp
  · exact h

theorem endsWf_execRingAnnouncement : EndsWf (execRingAnnouncement s) := by
  unfold execRingAnnouncement
  split
  · simp [h]
  · exact h

/-! ## Gangs, slots and placement -/

theorem endsWf_execDelayedRegisterWrite : EndsWf (execDelayedRegisterWrite s) := by
  unfold execDelayedRegisterWrite
  split
  · rw [endsWf_next]
    refine foldl_wf (fun u w hu => by simpa using hu) _ (foldl_wf (fun u i hu => wf_landSlot hu _) _ ?_)
    simpa using h
  · exact h

theorem endsWf_execAsyncTrapRaise : EndsWf (execAsyncTrapRaise s) := by
  unfold execAsyncTrapRaise
  split
  · dsimp only
    split
    · refine endsWf_ite (by simpa using h) (endsWf_ite h (endsWf_ite ?_ (wf_handlerRetry h _)))
      rw [endsWf_next, State.mem_setSlot]
      exact wf_takeTrap (by simpa using h) ..
    · exact wf_handlerRetry h _
  · exact wf_launchHandler h ..
  · exact h

theorem endsWf_execBmovStep : EndsWf (execBmovStep s) := by
  unfold execBmovStep
  split
  · dsimp only
    split
    · simp [h]
    · simp [h]
  · exact h

theorem endsWf_execDebugStop : EndsWf (execDebugStop s) := by
  unfold execDebugStop
  split
  · dsimp only
    split
    · simp [h]
    · split
      · simp [h]
      · simp [h]
      · simp [h]
  · exact h

theorem endsWf_execSlotRemoval : EndsWf (execSlotRemoval s) := by
  unfold execSlotRemoval
  split
  · dsimp only
    refine endsWf_ite (by simp [h]) ?_
    split
    · simp [h]
    · simp [h]
    · refine endsWf_ite (endsWf_ite (by simp [h]) ?_) (by simp [h])
      split
      · simpa using h
      · next hs => simp [wf_of_saveStrand (by simpa using h) hs]
  · exact h

theorem endsWf_execSlotRestore : EndsWf (execSlotRestore s) := by
  unfold execSlotRestore
  split
  · simp [h]
  · exact h

theorem endsWf_execBreakpoint : EndsWf (execBreakpoint s) := by
  unfold execBreakpoint
  split
  · simp [h]
  · exact h

theorem endsWf_execSuspDelayExpiry : EndsWf (execSuspDelayExpiry s) := by
  unfold execSuspDelayExpiry
  split
  · refine endsWf_ite (by simpa using h) ?_
    split
    · simp [h]
    · exact h
  · exact h

theorem endsWf_execInstructionFetchFault : EndsWf (execInstructionFetchFault s) := by
  unfold execInstructionFetchFault
  split
  · simp [h]
  · exact h

/-! ## Timelines, the matrix engine and copies -/

theorem endsWf_execTlw (a b : BitVec 7) (st : BitVec 2) : EndsWf (execTlw a b st s) := by
  refine wf_guarded h _ fun u hu => ?_
  dsimp only
  refine wf_ite_of (wf_trapHere hu _) ?_
  split
  · exact wf_trapHere hu _
  · simp [hu]

theorem endsWf_execTlr (d a : BitVec 7) (st : BitVec 2) : EndsWf (execTlr d a st s) := by
  refine wf_guarded h _ fun u hu => ?_
  dsimp only
  refine wf_ite_of (wf_trapHere hu _) ?_
  split
  · exact wf_trapHere hu _
  · simpa using hu

theorem endsWf_execGatherBegin : EndsWf (execGatherBegin s) := by
  unfold execGatherBegin
  split
  · simp [h]
  · exact h

theorem endsWf_execGatherEnd : EndsWf (execGatherEnd s) := by
  unfold execGatherEnd
  split
  · rw [endsWf_next]
    refine foldl_wf (fun u o hu => ?_) _ h
    dsimp only
    split
    · exact wf_gatherEnds hu ..
    · exact hu
  · exact h

theorem endsWf_execArrayStart : EndsWf (execArrayStart s) := by
  unfold execArrayStart
  split
  · dsimp only
    refine endsWf_ite h (endsWf_ite (by simpa using h) (endsWf_ite (by simpa using h) (endsWf_ite (by simpa using h) (endsWf_ite h ?_))))
    split
    · simpa using h
    · simpa using h
  · exact h

theorem endsWf_execMxopComplete : EndsWf (execMxopComplete s) := by
  unfold execMxopComplete
  split
  · dsimp only
    split
    · split
      · simp [h]
      · simp [h]
    · simp [h]
  · exact h

theorem endsWf_execPortOperationComplete : EndsWf (execPortOperationComplete s) := by
  unfold execPortOperationComplete
  split
  · dsimp only
    split
    · split
      · simp [h]
      · simp [h]
    · simp [h]
  · exact h

theorem endsWf_execMxop (d : BitVec 3) (a b : BitVec 7) (st : BitVec 2) : EndsWf (execMxop d a b st s) := by
  refine wf_guardedWith h _ _ fun u hu => ?_
  dsimp only
  split
  · exact wf_trapHere hu _
  · exact wf_needMxf64 hu
  · exact wf_streamPlace hu fun v hv => wf_engineAwake hv fun w hw => wf_released hw fun x hx => by simpa using hx

theorem endsWf_execMxuc (a : BitVec 7) (st : BitVec 2) : EndsWf (execMxuc a st s) :=
  wf_guarded h _ fun u hu => wf_ite_of (wf_trapHere hu _) (wf_engineAwake hu fun v hv => by simpa using hv)

theorem endsWf_execMxmode (d a : BitVec 7) (st : BitVec 2) : EndsWf (execMxmode d a st s) :=
  wf_guarded h _ fun u hu => wf_engineAwake hu fun v hv => by simp [hv]

theorem endsWf_execWake (st : BitVec 2) : EndsWf (execWake st s) := by
  simp [execWake, h]

theorem endsWf_execLicr (st : BitVec 2) : EndsWf (execLicr st s) := by
  simp [execLicr, h]

theorem endsWf_execCpyW (d a b : BitVec 7) (st : BitVec 2) : EndsWf (execCpyW d a b st s) := by
  unfold execCpyW
  rw [endsWf_next]
  dsimp only
  split
  · exact wf_trapHere h _
  · exact wf_trapHere h _
  · refine wf_guarded h _ fun u hu => wf_ite_of (wf_trapHere hu _) (wf_released hu fun v hv => ?_)
    simp [hv]

theorem endsWf_execCopyCommandStart : EndsWf (execCopyCommandStart s) := by
  unfold execCopyCommandStart
  split
  · dsimp only
    split
    · simpa using h
    · exact endsWf_ite (by simpa using h) (endsWf_ite (by simpa using h) (endsWf_ite (by simp [h]) (endsWf_ite (by simp [h]) (by simp [h]))))
  · exact h

theorem endsWf_execCopyChunkReadReply : EndsWf (execCopyChunkReadReply s) := by
  unfold execCopyChunkReadReply
  split
  · split
    · exact h
    · simp [h]
  · exact h

theorem endsWf_execCopyChunkWrite : EndsWf (execCopyChunkWrite s) := by
  unfold execCopyChunkWrite
  split
  · split
    · exact h
    · refine endsWf_ite h ?_
      dsimp only
      split
      · simpa using h
      · refine endsWf_ite (wf_writeChunk (by simpa using h) ..) ?_
        split
        · next ht => exact wf_writeChunk (State.mem_of_writeTurn ht ▸ by simpa using h) ..
        · simpa using h
  · exact h

/-! ## Outboxes, the scheduler and tasks -/

theorem endsWf_execAgingStep : EndsWf (execAgingStep s) := by
  unfold execAgingStep
  split
  · simp [h]
  · simp [h]
  · exact h

theorem endsWf_execStealProbe : EndsWf (execStealProbe s) := by
  unfold execStealProbe
  split
  · refine endsWf_ite (by simpa using h) (endsWf_ite h ?_)
    split
    · simpa using h
    · simpa using h
  · exact h

theorem endsWf_execProbeAnswer : EndsWf (execProbeAnswer s) := by
  unfold execProbeAnswer
  split
  · dsimp only
    split
    · split
      · simp [h]
      · simp [h]
    · simp [h]
  · exact h

theorem endsWf_execStealRetryExpiry : EndsWf (execStealRetryExpiry s) := by
  unfold execStealRetryExpiry
  split
  · dsimp only
    split
    · exact h
    · split
      · simp [h]
      · simp [h]
      · simp [h]
  · exact h

theorem endsWf_execPreemption : EndsWf (execPreemption s) := by
  unfold execPreemption
  split
  · rw [endsWf_next]
    refine foldl_wf (fun u e hu => wf_ite_of hu ?_) _ h
    dsimp only
    split
    · simpa using hu
    · exact hu
    · simpa using hu
  · exact h

theorem endsWf_execHostLaunch : EndsWf (execHostLaunch s) := by
  unfold execHostLaunch
  split
  · split
    · exact h
    · exact endsWf_ite h (wf_offerBoth h ..)
  · exact h

theorem endsWf_execPeerLaunch : EndsWf (execPeerLaunch s) := by
  unfold execPeerLaunch
  split
  · dsimp only
    split
    · simp [h]
    · simp [h]
  · exact h

theorem endsWf_execSpawn (d a : BitVec 7) (st : BitVec 2) : EndsWf (execSpawn d a st s) := wf_spawnOperands h _ _ _ fun p q u hu => by simp [hu]

theorem endsWf_execSpawnInl (d a : BitVec 7) (st : BitVec 2) : EndsWf (execSpawnInl d a st s) := wf_spawnOperands h _ _ _ fun p q u hu => by
    refine wf_ite_of (by simpa using hu) (wf_ite_of (wf_whenLanded hu fun v hv => ?_) (by simpa using hu))
    exact wf_runInline hv ..

theorem endsWf_execSend (d a : BitVec 7) (st : BitVec 2) : EndsWf (execSend d a st s) := by
  refine wf_guarded h _ fun u hu => wf_operand64 hu _ fun ws v hv => ?_
  refine wf_ite_of (wf_trapHere hv _) (wf_ite_of (wf_trapHere hv _) (wf_released hv fun w hw => ?_))
  simp [hw]

theorem endsWf_execIrrev (d a : BitVec 7) (st : BitVec 2) : EndsWf (execIrrev d a st s) := by
  refine wf_guarded h _ fun u hu => wf_operand64 hu _ fun ws v hv => ?_
  exact wf_ite_of (wf_trapHere hv _) (wf_ite_of (wf_trapHere hv _) (by simpa using hv))

theorem endsWf_execBarc (d : BitVec 3) (a : BitVec 7) (st : BitVec 2) : EndsWf (execBarc d a st s) :=
  wf_guardedWith h _ _ fun u hu => wf_ite_of (wf_trapHere hu _) (by simpa using hu)

theorem endsWf_execBar (d : BitVec 3) (st : BitVec 2) : EndsWf (execBar d st s) := by
  refine wf_guardedWith h _ _ fun u hu => wf_ite_of (wf_trapHere hu _) (wf_released hu fun v hv => ?_)
  dsimp only
  refine wf_ite_of (by simpa using hv) ?_
  simp [hv]

theorem endsWf_execBarw (d : BitVec 3) (st : BitVec 2) : EndsWf (execBarw d st s) :=
  wf_guardedWith h _ _ fun u hu => wf_ite_of (wf_trapHere hu _) (by simp [hu])

theorem endsWf_execBarrierArrival : EndsWf (execBarrierArrival s) := by
  unfold execBarrierArrival
  split
  · rw [endsWf_next]
    dsimp only
    exact wf_ite_of (foldl_wf (fun u m hu => by simpa using hu) _ h) h
  · exact h

theorem endsWf_execBarrierRelease : EndsWf (execBarrierRelease s) := by
  unfold execBarrierRelease
  split
  · dsimp only
    split
    · simp [h]
    · simp [h]
  · exact h

/-! ## Joined rings and attention -/

theorem endsWf_execRjoin (d a : BitVec 7) (st : BitVec 2) : EndsWf (execRjoin d a st s) := by
  refine wf_guarded h _ fun u hu => ?_
  dsimp only
  split
  · exact wf_released hu fun v hv => wf_rjoin hv ..
  · simp [hu]

theorem endsWf_execRwait (d a b : BitVec 7) (st : BitVec 2) : EndsWf (execRwait d a b st s) := by
  refine wf_guarded h _ fun u hu => wf_withMember hu _ fun i m r => ?_
  dsimp only
  refine wf_ite_of (wf_trapHere hu _) ?_
  split
  · exact wf_trapHere hu _
  · simp [hu]

theorem endsWf_execRsend (d a b : BitVec 7) (st : BitVec 2) : EndsWf (execRsend d a b st s) := by
  refine wf_guarded h _ fun u hu => wf_withMember hu _ fun i m r => ?_
  refine wf_ite_of (wf_trapHere hu _) (wf_ite_of (wf_trapHere hu _) (wf_ite_of ?_ (wf_ite_of ?_ (by simpa using hu))))
  · simp [hu]
  · exact wf_released hu fun v hv => by simpa using hv

theorem endsWf_execRrel (a b : BitVec 7) (st : BitVec 2) : EndsWf (execRrel a b st s) := by
  refine wf_guarded h _ fun u hu => wf_withMember hu _ fun i m r => ?_
  exact wf_ite_of (wf_trapHere hu _) (wf_ite_of (by simpa using hu) (wf_released hu fun v hv => by simpa using hv))

theorem endsWf_execRleave (a : BitVec 7) (st : BitVec 2) : EndsWf (execRleave a st s) := by
  refine wf_guarded h _ fun u hu => wf_withMember hu _ fun i m r => ?_
  exact wf_ite_of (wf_trapHere hu _) (wf_released hu fun v hv => by simpa using hv)

theorem endsWf_execAttnInit (d a : BitVec 7) (st : BitVec 2) : EndsWf (execAttnInit d a st s) := by
  refine wf_guarded h _ fun u hu => wf_operand64 hu _ fun ws v hv => ?_
  dsimp only
  split
  · exact wf_trapHere hv _
  · split
    · simpa using hv
    · exact wf_released hv fun w hw => by simpa using hw

theorem endsWf_execAttnStep (d a b : BitVec 7) (st : BitVec 2) : EndsWf (execAttnStep d a b st s) := by
  refine wf_guarded h _ fun u hu => wf_withContext hu _ _ fun i x => ?_
  split
  · exact wf_trapHere hu _
  · simpa using hu

theorem endsWf_execAttnFin (d a : BitVec 7) (st : BitVec 2) : EndsWf (execAttnFin d a st s) := by
  refine wf_guarded h _ fun u hu => wf_withContext hu _ _ fun i x => ?_
  split
  · exact wf_trapHere hu _
  · simpa using hu

theorem endsWf_execEngineReturn : EndsWf (execEngineReturn s) := by
  unfold execEngineReturn
  split
  · dsimp only
    split
    · simp [h]
    · simp [h]
    · exact h
  · exact h

theorem endsWf_execAttentionEngineComplete : EndsWf (execAttentionEngineComplete s) := by
  unfold execAttentionEngineComplete
  split
  · split
    · exact wf_attnTurn h ..
    · exact h
  · exact h

/-! ## Fetches, homes and endpoints -/

theorem endsWf_execHomeReply : EndsWf (execHomeReply s) := by
  unfold execHomeReply
  split
  · dsimp only
    iterate 6 refine endsWf_ite (by simp [h]) ?_
    split
    · simp [h]
    · refine endsWf_ite (by simp [h]) (endsWf_ite (by simp [h]) ?_)
      split
      · refine endsWf_ite ?_ (endsWf_ite (by simp [h]) ?_)
        · split
          · simp [h]
          · exact h
        · split
          · simp [h]
          · simp [h]
      · split
        · simp [h]
        · simp [h]
      · simp [h]
      · exact h
  · exact h

theorem endsWf_execStoreAcknowledge : EndsWf (execStoreAcknowledge s) := by
  unfold execStoreAcknowledge
  split
  · simp [h]
  · exact h

theorem endsWf_execRevocation : EndsWf (execRevocation s) := by
  unfold execRevocation
  split
  · simp [h]
  · exact h

theorem endsWf_execPortAccess : EndsWf (execPortAccess s) := by
  unfold execPortAccess
  split
  · split
    · simpa using h
    · refine endsWf_ite (by simpa using h) (endsWf_ite (by simpa using h) ?_)
      split
      · simpa using h
      · exact wf_portService h ..
  · exact h

theorem endsWf_execHomeRequest : EndsWf (execHomeRequest s) := by
  unfold execHomeRequest
  split
  · split
    · split
      · exact wf_serveCopy h ..
      · exact wf_serveTimed h ..
    · exact wf_serveFabric h _
  · exact wf_hwError h _
  · exact h

theorem endsWf_execParkSave : EndsWf (execParkSave s) := by
  unfold execParkSave
  split
  · dsimp only
    split
    · simpa using h
    · refine endsWf_ite (by simpa using h) (endsWf_ite ?_ ?_)
      · split
        · next f _ _ =>
          refine endsWf_ite ?_ h
          cases hp : s.parkAway _ f with
          | none => simpa using h
          | some t => exact wf_of_parkAway h hp
        · exact h
      · split
        · exact h
        · split
          · simpa using h
          · next hs => simpa using wf_of_saveStrand h hs
  · exact h

theorem endsWf_execParkConfirm : EndsWf (execParkConfirm s) := by
  unfold execParkConfirm
  split
  · split
    · exact h
    · dsimp only
      split
      · exact h
      · exact endsWf_ite h (endsWf_ite (by simpa using h) (by simpa using h))
  · exact h

theorem endsWf_execMetadataUpdate : EndsWf (execMetadataUpdate s) := by
  unfold execMetadataUpdate
  split
  · simp [h]
  · exact h

theorem endsWf_execTlbWalkComplete : EndsWf (execTlbWalkComplete s) := by
  unfold execTlbWalkComplete
  split
  · dsimp only
    split
    · exact h
    · rw [endsWf_next, State.mem_walkPlaces]
      refine foldl_wf (fun u p hu => ?_) _ (by simpa using h)
      split
      · exact hu
      · simpa using hu
  · exact h

theorem endsWf_execHostRegisterWrite : EndsWf (execHostRegisterWrite s) := by
  unfold execHostRegisterWrite
  split
  · refine endsWf_ite h (endsWf_ite ?_ ?_)
    · exact endsWf_ite h h
    · split <;> simpa using h
  · simpa using h
  · exact h

theorem endsWf_execNotSupportedCommand : EndsWf (execNotSupportedCommand s) := by
  unfold execNotSupportedCommand
  split
  · exact wf_command h _ fun u hu => by simpa using hu
  · exact h

theorem endsWf_execIdentify : EndsWf (execIdentify s) := by
  unfold execIdentify
  split
  · exact wf_command h _ fun u hu => by simpa using hu
  · exact h

theorem endsWf_execAttest : EndsWf (execAttest s) := by
  unfold execAttest
  split
  · exact wf_command h _ fun u hu => by simpa using hu
  · exact h

theorem endsWf_execEvqheadAdvance : EndsWf (execEvqheadAdvance s) := by
  unfold execEvqheadAdvance
  split
  · exact endsWf_ite (by simpa using h) h
  · exact h

theorem endsWf_execStagingAccess : EndsWf (execStagingAccess s) := by
  unfold execStagingAccess
  split
  · dsimp only
    refine endsWf_ite h (endsWf_ite trivial ?_)
    split
    · exact wf_stageBytes _ _ h
    · simpa using h
  · exact h

/-! ## Virtual time, the fabric and commands -/

theorem endsWf_execVersionRevocation : EndsWf (execVersionRevocation s) := by
  unfold execVersionRevocation
  split
  · simp [h]
  · exact h

theorem endsWf_execMessageArrival : EndsWf (execMessageArrival s) := by
  unfold execMessageArrival
  split
  · simp [h]
  · exact h

theorem endsWf_execAntiMessageArrival : EndsWf (execAntiMessageArrival s) := by
  unfold execAntiMessageArrival
  split
  · simp [h]
  · exact h

theorem endsWf_execInboxDispatch : EndsWf (execInboxDispatch s) := by
  unfold execInboxDispatch
  split
  · dsimp only
    refine endsWf_ite (by simp [h]) ?_
    split
    · simp [h]
    · refine endsWf_ite (by simp [h]) ?_
      split
      · simp [h]
      · refine endsWf_ite (by simp [h]) ?_
        split
        · simp [h]
        · split
          · simp [h]
          · simp [h]
  · exact h

theorem endsWf_execLwTokenVisit : EndsWf (execLwTokenVisit s) := by
  unfold execLwTokenVisit
  split
  · refine endsWf_ite h (endsWf_ite ?_ ?_)
    · split
      · simpa using h
      · simp [h]
    · simp [h]
  · exact h

theorem endsWf_execLwgapExpiry : EndsWf (execLwgapExpiry s) := by
  unfold execLwgapExpiry
  split
  · dsimp only
    split
    · simp [h]
    · split
      · simp [h]
      · simp [h]
  · exact h

theorem endsWf_execLwMarkArrival : EndsWf (execLwMarkArrival s) := by
  unfold execLwMarkArrival
  split
  · dsimp only
    refine endsWf_ite h (endsWf_ite (by simp [h]) (endsWf_ite h (endsWf_ite ?_ (by simp [h]))))
    simp only [endsWf_next, State.mem_poke, State.mem_retryCommits, State.mem_drainReleases]
    exact foldl_wf (fun u n hu => by simp [hu]) _ (by simp [h])
  · exact h

theorem endsWf_execAbortTokenVisit : EndsWf (execAbortTokenVisit s) := by
  unfold execAbortTokenVisit
  split
  · dsimp only
    refine endsWf_ite h (endsWf_ite (by simp [h]) (endsWf_ite (by simp [h]) ?_))
    split
    · simp [h]
    · simp [h]
  · exact h

theorem endsWf_execRestart : EndsWf (execRestart s) := by
  unfold execRestart
  split
  · dsimp only
    refine endsWf_ite h ?_
    have hwoken (l : List (Nat × Lp)) (n : Nat) (u : State) : (l.foldl (fun (u : State) l => u.soon (.inboxDispatch n l.1)) u).mem = u.mem :=
      foldl_mem (fun _ _ => by simp) _ _
    split
    · simp [h, hwoken]
    · simp [h, hwoken]
  · exact h

theorem endsWf_execPacketRefusal : EndsWf (execPacketRefusal s) := by
  unfold execPacketRefusal
  split
  · dsimp only
    refine endsWf_ite (endsWf_ite (by simp [h]) ?_) (by simp [h])
    split
    · simp [h]
    · simp [h]
  · exact h

theorem endsWf_execIncarnationAnnouncement : EndsWf (execIncarnationAnnouncement s) := by
  unfold execIncarnationAnnouncement
  split
  · dsimp only
    split
    · simp [h]
    · simp [h]
  · exact h

theorem endsWf_execReset : EndsWf (execReset s) := foldl_wf (fun u j hu => by simpa using hu) _ (show Memory.wf State.reset.mem from rfl)

theorem endsWf_execGroupPark : EndsWf (execGroupPark s) := by
  unfold execGroupPark
  split
  · dsimp only
    split
    · simp [h]
    · simp [h]
  · exact h

theorem endsWf_execGroupWake : EndsWf (execGroupWake s) := by
  unfold execGroupWake
  split
  · simp [h]
  · simp [h]
  · exact h

theorem endsWf_execHeaterSettle : EndsWf (execHeaterSettle s) := by
  unfold execHeaterSettle
  split
  · simp [h]
  · exact h

theorem endsWf_execLockComplete : EndsWf (execLockComplete s) := by
  unfold execLockComplete
  split
  · dsimp only
    split
    · simp [h]
    · simp [h]
  · exact h

theorem endsWf_execReadySet : EndsWf (execReadySet s) := by
  unfold execReadySet
  split
  · exact endsWf_ite h (by simpa using h)
  · exact h

theorem endsWf_execTenantMap : EndsWf (execTenantMap s) := by
  unfold execTenantMap
  split
  · rw [endsWf_next]
    refine wf_command h _ fun u hu => ?_
    dsimp only
    split
    · simp [hu]
    · simp [hu]
  · exact h

theorem endsWf_execFormatRange : EndsWf (execFormatRange s) := by
  unfold execFormatRange
  split
  · rw [endsWf_next]
    refine wf_command h _ fun u hu => ?_
    dsimp only
    split
    · simpa using hu
    · split
      · simpa using hu
      · refine wf_afterAbort hu _ _ fun v hv => wf_ite_of (by simpa using hv) ?_
        split
        · simpa using hv
        · simpa using hv
  · exact h

theorem endsWf_execActSet : EndsWf (execActSet s) := by
  unfold execActSet
  split
  · rw [endsWf_next]
    refine wf_command h _ fun u hu => ?_
    dsimp only
    split
    · simpa using hu
    · exact wf_afterAbort hu _ _ fun v hv => by simpa using hv
  · exact h

theorem endsWf_execGroupSet : EndsWf (execGroupSet s) := by
  unfold execGroupSet
  split
  · rw [endsWf_next]
    refine wf_command h _ fun u hu => ?_
    dsimp only
    split
    · simpa using hu
    · split
      · simpa using hu
      · simpa using hu
      · exact wf_afterAbort hu _ _ fun v hv => wf_ite_of (by simpa using hv) (wf_ite_of (by simpa using hv) (by simpa using hv))
  · exact h

theorem endsWf_execCircuitChange : EndsWf (execCircuitChange s) := by
  unfold execCircuitChange
  split
  · rw [endsWf_next]
    refine wf_command h _ fun u hu => ?_
    dsimp only
    split
    · simp [hu]
    · simp [hu]
  · exact h

theorem endsWf_execParkPolicy : EndsWf (execParkPolicy s) := by
  unfold execParkPolicy
  split
  · rw [endsWf_next]
    refine wf_command h _ fun u hu => ?_
    dsimp only
    split
    · simp [hu]
    · simp [hu]
  · exact h

theorem endsWf_execTraceCtl : EndsWf (execTraceCtl s) := by
  unfold execTraceCtl
  split
  · rw [endsWf_next]
    refine wf_command h _ fun u hu => ?_
    dsimp only
    split
    · simpa using hu
    · split
      · split
        · simpa using hu
        · exact wf_ite_of (by simpa using hu) (by simpa using hu)
      · simpa using hu
      · simpa using hu
      · simpa using hu
  · exact h

theorem endsWf_execLockstep : EndsWf (execLockstep s) := by
  unfold execLockstep
  split
  · rw [endsWf_next]
    refine wf_command h _ fun u hu => ?_
    dsimp only
    split
    · simpa using hu
    · refine wf_afterAbort hu _ _ fun v hv => wf_afterAbort hv _ _ fun w hw => ?_
      refine wf_ite_of (by simpa using hw) (wf_ite_of (by simpa using hw) (wf_ite_of (by simpa using hw) ?_))
      simpa using hw
  · exact h

/-! ## Commits, jobs, floats and the system instructions -/

theorem endsWf_execCommit (a : BitVec 7) (st : BitVec 2) : EndsWf (execCommit a st s) :=
  wf_guarded h _ fun u hu => wf_checkTile hu _ fun size v hv => wf_checkDone hv fun w hw => wf_ite_of (by simpa using hw) (wf_commitNow hw ..)

theorem endsWf_execHalt (st : BitVec 2) : EndsWf (execHalt st s) := by
  simp [execHalt, h]

theorem endsWf_execHaltShort : EndsWf (execHaltShort s) := by
  simp [execHaltShort, h]

theorem endsWf_execCommitArrival : EndsWf (execCommitArrival s) := by
  unfold execCommitArrival
  split
  · dsimp only
    refine endsWf_ite (by simpa using h) (endsWf_ite (by simpa using h) ?_)
    simp [h]
  · simp [h]
  · exact h

theorem endsWf_execCommitAnswer : EndsWf (execCommitAnswer s) := by
  unfold execCommitAnswer
  split
  · dsimp only
    split
    · exact h
    · split
      · simp [h]
      · simp [h]
      · refine endsWf_ite (by simp [h]) (endsWf_ite (by simp [h]) (by simp [h]))
      · refine endsWf_ite (by simp [h]) ?_
        refine wf_takeTrap ?_ ..
        rw [State.mem_setGang]
        split
        · simpa using h
        · exact h
  · exact h

theorem endsWf_execCancel : EndsWf (execCancel s) := by
  unfold execCancel
  split
  · simp only [endsWf_next, State.mem_forwardCancel]
    exact wf_discardEntries (foldl_wf (fun u g hu => wf_ite_of (by simp [hu]) (by simp [hu])) _ (by simp [h])) ..
  · simp [h]
  · exact h

theorem endsWf_execDropConfirmation : EndsWf (execDropConfirmation s) := by
  unfold execDropConfirmation
  split
  · exact h
  · exact h

theorem endsWf_execCheckpoint : EndsWf (execCheckpoint s) := by
  unfold execCheckpoint
  split
  · dsimp only
    split
    · simp [h]
    · simp [h]
  · exact h

theorem endsWf_execWeirReport : EndsWf (execWeirReport s) := by
  unfold execWeirReport
  split
  · refine endsWf_ite (by simpa using h) ?_
    dsimp only
    refine endsWf_ite (endsWf_ite ?_ (by simpa using h)) (by simpa using h)
    split
    · simpa using h
    · simpa using h
  · simpa using h
  · exact h

theorem endsWf_execFcvt (d a : BitVec 7) (q : BitVec 1) (t v : BitVec 3) (st : BitVec 2) : EndsWf (execFcvt d a q t v st s) := by
  unfold execFcvt
  split
  · exact endsWf_ite (wf_trapHere h _) (wf_guarded h _ fun u hu => by simpa using hu)
  · exact wf_trapHere h _

theorem endsWf_execIcvt (d a : BitVec 7) (g b w : BitVec 1) (v : BitVec 3) (st : BitVec 2) : EndsWf (execIcvt d a g b w v st s) :=
  endsWf_ite (wf_trapHere h _) (wf_guarded h _ fun u hu => wf_ite_of (by simpa using hu) (by simpa using hu))

theorem endsWf_execJobOpen : EndsWf (execJobOpen s) := by
  unfold execJobOpen
  split
  · rw [endsWf_next]
    refine wf_command h _ fun u hu => ?_
    dsimp only
    split
    · simpa using hu
    · refine wf_afterAbort hu _ _ fun v hv => ?_
      split
      · simpa using hv
      · simpa using hv
  · exact h

theorem endsWf_execJobClose : EndsWf (execJobClose s) := by
  unfold execJobClose
  split
  · rw [endsWf_next]
    refine wf_command h _ fun u hu => ?_
    split
    · simp [hu]
    · simp [hu]
  · exact h

theorem endsWf_execCsrr (d : BitVec 7) (c : BitVec 9) (st : BitVec 2) : EndsWf (execCsrr d c st s) :=
  wf_withCsr h _ _ _ fun r u hu => by simpa using hu

theorem endsWf_execEret (st : BitVec 2) : EndsWf (execEret st s) :=
  wf_guardedPriv h _ fun u hu => wf_ite_of (wf_trapHere hu _) (by simpa using hu)

theorem endsWf_execAbort (a : BitVec 7) (st : BitVec 2) : EndsWf (execAbort a st s) := wf_guarded h _ fun u hu => by simp [hu]

theorem endsWf_execFwd (d a : BitVec 7) (st : BitVec 2) : EndsWf (execFwd d a st s) := by
  refine wf_guardedPriv h _ fun u hu => wf_ite_of (wf_trapHere hu _) (wf_withLine hu _ _ fun ws v hv => ?_)
  simp [hv]

theorem endsWf_execForwardingEntryExpiry : EndsWf (execForwardingEntryExpiry s) := by
  unfold execForwardingEntryExpiry
  split
  · dsimp only
    split
    · simp [h]
    · simp [h]
  · exact h

theorem endsWf_execSlot (d a : BitVec 7) (st : BitVec 2) : EndsWf (execSlot d a st s) := by
  refine wf_guardedPriv h _ fun u hu => ?_
  dsimp only
  refine wf_ite_of (wf_trapHere hu _) ?_
  split
  · simp [hu]
  · simp [hu]
  · simp [hu]
  · simp [hu]

theorem endsWf_execXinv (a : BitVec 7) (st : BitVec 2) : EndsWf (execXinv a st s) := by
  refine wf_guarded h _ fun u hu => ?_
  rw [State.mem_retire]
  exact foldl_wf (fun v c hv => by simpa using hv) _ hu

theorem endsWf_execXprobe (d a : BitVec 7) (st : BitVec 2) : EndsWf (execXprobe d a st s) := by
  refine wf_guardedPriv h _ fun u hu => ?_
  split
  · simpa using hu
  · exact wf_trapHere hu _

theorem endsWf_execRetry : EndsWf (execRetry s) := by
  unfold execRetry
  split
  · exact wf_answered h _ _ fun u hu => by simpa using hu
  · exact h

theorem endsWf_execSkip : EndsWf (execSkip s) := by
  unfold execSkip
  split
  · exact wf_answered h _ _ fun u hu => wf_ite_of (by simpa using hu) (by simpa using hu)
  · exact h

theorem endsWf_execDrop : EndsWf (execDrop s) := by
  unfold execDrop
  split
  · exact wf_answered h _ _ fun u hu => wf_ite_of (wf_dropDamaged hu _) (by simp [hu])
  · exact h

theorem endsWf_execAbortResp : EndsWf (execAbortResp s) := by
  unfold execAbortResp
  split
  · exact wf_answered h _ _ fun u hu => by simpa using hu
  · exact h

/-! ## Migrations, power, suspensions and vectors -/

theorem endsWf_execMigr (d a : BitVec 7) (st : BitVec 2) : EndsWf (execMigr d a st s) := by
  unfold execMigr
  rw [endsWf_next]
  split
  · exact wf_trapHere h _
  · exact wf_trapHere h _
  · exact wf_guardedPriv h _ fun u hu => by simpa using hu

theorem endsWf_execMigrRequestArrival : EndsWf (execMigrRequestArrival s) := by
  unfold execMigrRequestArrival
  split
  · dsimp only
    split
    · simp [h]
    · split
      · simp [h]
      · simp [h]
  · exact h

theorem endsWf_execContextStreamEnd : EndsWf (execContextStreamEnd s) := by
  unfold execContextStreamEnd
  split
  · split
    · exact h
    · exact endsWf_ite (by simp [h]) (endsWf_ite (by simp [h]) (endsWf_ite (by simp [h]) (by simp [h])))
  · simpa using h
  · split
    · exact h
    · simp [h]
  · exact h

theorem endsWf_execHaltc (d a : BitVec 7) (st : BitVec 2) : EndsWf (execHaltc d a st s) := by
  refine wf_guardedPriv h _ fun u hu => wf_ite_of (wf_trapHere hu _) (wf_ite_of ?_ ?_)
  · rw [State.mem_result, State.mem_poke]
    exact foldl_wf (fun v i hv => by simpa using hv) _ (by simpa using hu)
  · have hemptied (l : List Nat) (c : Nat) {v : State} (hv : Memory.wf v.mem) :
        Memory.wf (l.foldl (fun (v : State) g => if (v.core c).migrating then v else v.evacuate c g) v).mem :=
      foldl_wf (fun w g hw => wf_ite_of hw (wf_evacuate hw ..)) _ hv
    simp [hu, hemptied]

theorem endsWf_execPowerMeasurement : EndsWf (execPowerMeasurement s) := by
  unfold execPowerMeasurement
  split
  · dsimp only
    refine endsWf_ite (by simpa using h) (endsWf_ite (by simpa using h) (endsWf_ite ?_ (by simpa using h)))
    split
    · simpa using h
    · simp [h]
  · exact h

theorem endsWf_execPowerCap : EndsWf (execPowerCap s) := by
  unfold execPowerCap
  split
  · rw [endsWf_next]
    refine wf_command h _ fun u hu => ?_
    dsimp only
    refine wf_ite_of (by simpa using hu) ?_
    split
    · simpa using hu
    · simp [hu]
  · exact h

theorem endsWf_execSusp (a : BitVec 7) (st : BitVec 2) : EndsWf (execSusp a st s) := by
  refine wf_guardedRun h _ _ _ fun u hu => ?_
  dsimp only
  split
  · exact wf_suspendNext hu ..
  · exact wf_suspendDelay hu ..
  · exact wf_suspendFe hu ..
  · exact wf_suspendFe hu ..
  · exact wf_suspendLow hu ..
  · exact wf_trapHere hu _

theorem endsWf_execRep (a : BitVec 7) (st : BitVec 2) : EndsWf (execRep a st s) := by
  refine wf_guarded h _ fun u hu => ?_
  split
  · exact wf_trapHere hu _
  · exact wf_trapHere hu _
  · simpa using hu
  · simpa using hu
  · next hf =>
    have hv := (State.fetchWord_leaves hf).mem ▸ hu
    split
    · exact wf_repPair hv ..
    · exact wf_trapHere hv _

theorem endsWf_execVectorStep : EndsWf (execVectorStep s) := by
  unfold execVectorStep
  split
  · dsimp only
    split
    · split
      · exact h
      · refine endsWf_ite h (endsWf_ite (by simpa using h) ?_)
        split
        · next hd =>
          have ht := wf_of_vStep (by exact h) hd
          simp [ht, mem_vSchedule]
        · exact wf_vTrap (by exact h) (wf_vStep (by exact h) ..)
    · exact h
  · exact h

end Sys2Proof.Machine
end

section
/-! Every step keeps the canonical form of memory (07 R126): by the instruction or pending step that is performed, and by how a step
comes to it (06 R108). -/

namespace Sys2Proof.Machine

open Host State

theorem exec_endsWf {s : State} (h : Memory.wf s.mem) (i : Instr) : EndsWf (exec i s) := by
  cases i with
  | add | sub | mul | mulh | mulhu | div | divu | rem | remu | min | max | minu | maxu | and | or | xor | andn | shl | shr | sar | rol
  | seq | sne | slt | sltu | sel | bfx | bfi | addsh | shli | shri | sari | mov | clz | ctz | popc | sextB | sextH | sextW | zextB | zextH
  | zextW | rdcyc | rdid | srd | addi | andi | ori | xori | li | lih | fabsF32 | fnegF32 | fclassF32 | fabsF64 | fnegF64 | fclassF64 | oxr
  | twr | movShort | addiShort | addShort | subShort | andShort | orShort | xorShort | shliShort | shriShort | liShort => exact wf_alu h ..
  | sadd | swr | dbnz | j | call | ret | jr | jalr | fminF32 | fmaxF32 | ffmaF32 | fsqrtF32 | fminF64 | fmaxF64 | ffmaF64 | fsqrtF64 | oxl
  | oxli | twx | tww | licq | work | tvt | lwait | retShort | jrShort => exact wf_guarded h _ fun u hu => by simpa using hu
  | bz | bnz | bltz | bgez | beq | bne | blt | bltu => exact wf_branch h ..
  | rep a st => exact endsWf_execRep h a st
  | susp a st => exact endsWf_execSusp h a st
  | halt st => exact endsWf_execHalt h st
  | yield | yieldShort => exact wf_guarded h _ fun u hu => wf_yieldStrand hu ..
  | nop | lbsync | hint | nopShort => exact (endsWf_next _).2 (by simpa using h)
  | ldB | ldBU | ldH | ldHU | ldW | ldWU | ldD | ldx | ldAcq | ldDShort => exact wf_guarded h _ fun u hu => wf_doLoad hu ..
  | stB | stH | stW | stD | stx | stDShort => exact wf_guarded h _ fun u hu => wf_doStore hu ..
  | stRel d a st => exact endsWf_execStRel h d a st
  | fenceAcq st => exact endsWf_execFenceAcq h st
  | fenceRel st => exact endsWf_execFenceRel h st
  | fenceFull st => exact endsWf_execFenceFull h st
  | feq | fesetE | fesetF | ldfeFf | ldfeFe | ldfeEf => exact wf_guarded h _ fun u hu => wf_reach hu _ _ _ _ _ fun p v hv => wf_homeAccess hv ..
  | pref a st => exact endsWf_execPref h a st
  | drinitF32 | drinitF64 => exact wf_drInit h ..
  | dredF32 | dredBf16 | dredF64 => exact wf_dRed h ..
  | dredAcc d a st => exact endsWf_execDredAcc h d a st
  | dreadF32 | dreadBf16 | dreadF64 => exact wf_guarded h _ fun u hu => wf_dRead hu ..
  | dreadAcc d a st => exact endsWf_execDreadAcc h d a st
  | bmov d a b st => exact endsWf_execBmov h d a b st
  | stfeFf | stfeFe | stfeEf | stfeXf =>
    exact wf_guarded h _ fun u hu => wf_reach hu _ _ _ _ _ fun p v hv => wf_released hv fun w hw => wf_homeAccess hw ..
  | atomAdd | atomAnd | atomOr | atomXor | atomMin | atomMax | atomMinu | atomMaxu | atomSwap | cas | fatomAddF32 | fatomAddF64 =>
    exact wf_atomic h ..
  | faddF32 | fsubF32 | fmulF32 | fdivF32 | faddF64 | fsubF64 | fmulF64 | fdivF64 => exact wf_fp3 h ..
  | fcmpEqF32 | fcmpLtF32 | fcmpLeF32 | fcmpUnF32 | fcmpEqF64 | fcmpLtF64 | fcmpLeF64 | fcmpUnF64 => exact wf_fpBits h ..
  | fcvt d a q t v st => exact endsWf_execFcvt h d a q t v st
  | icvt d a g b w v st => exact endsWf_execIcvt h d a g b w v st
  | vadd | vsub | vmul | vfma | vmax | vmin | vscale | vcmp | vset | vexp2 | vrcp | vred | vcvt | vqnt | vdeq => exact wf_vector h ..
  | cpy | cpyV | cpym => exact wf_copy h ..
  | cpyW d a b st => exact endsWf_execCpyW h d a b st
  | tlw a b st => exact endsWf_execTlw h a b st
  | tlr d a st => exact endsWf_execTlr h d a st
  | mxop d a b st => exact endsWf_execMxop h d a b st
  | mxz => exact wf_portOp h ..
  | mxld | mxst => exact wf_guardedWith h _ _ fun u hu => wf_portOp hu ..
  | mxuc a st => exact endsWf_execMxuc h a st
  | mxmode d a st => exact endsWf_execMxmode h d a st
  | licr st => exact endsWf_execLicr h st
  | spawn d a st => exact endsWf_execSpawn h d a st
  | spawnInl d a st => exact endsWf_execSpawnInl h d a st
  | commit a st => exact endsWf_execCommit h a st
  | send d a st => exact endsWf_execSend h d a st
  | irrev d a st => exact endsWf_execIrrev h d a st
  | barc d a st => exact endsWf_execBarc h d a st
  | bar d st => exact endsWf_execBar h d st
  | barw d st => exact endsWf_execBarw h d st
  | rjoin d a st => exact endsWf_execRjoin h d a st
  | rsend d a b st => exact endsWf_execRsend h d a b st
  | rwait d a b st => exact endsWf_execRwait h d a b st
  | rrel a b st => exact endsWf_execRrel h a b st
  | rleave a st => exact endsWf_execRleave h a st
  | attnInit d a st => exact endsWf_execAttnInit h d a st
  | attnStep d a b st => exact endsWf_execAttnStep h d a b st
  | attnFin d a st => exact endsWf_execAttnFin h d a st
  | csrr d c st => exact endsWf_execCsrr h d c st
  | csrw | csrs | csrc => exact wf_csrUpdate h ..
  | trap => exact wf_guarded h _ fun u hu => wf_takeTrap hu ..
  | eret st => exact endsWf_execEret h st
  | migr d a st => exact endsWf_execMigr h d a st
  | slot d a st => exact endsWf_execSlot h d a st
  | xinv a st => exact endsWf_execXinv h a st
  | xprobe d a st => exact endsWf_execXprobe h d a st
  | fwd d a st => exact endsWf_execFwd h d a st
  | abort a st => exact endsWf_execAbort h a st
  | haltc d a st => exact endsWf_execHaltc h d a st
  | wake st => exact endsWf_execWake h st
  | haltShort => exact endsWf_execHaltShort h
  | delayedRegisterWrite => exact endsWf_execDelayedRegisterWrite h
  | asyncTrapRaise => exact endsWf_execAsyncTrapRaise h
  | vectorStep => exact endsWf_execVectorStep h
  | bmovStep => exact endsWf_execBmovStep h
  | slotRemoval => exact endsWf_execSlotRemoval h
  | slotRestore => exact endsWf_execSlotRestore h
  | debugStop => exact endsWf_execDebugStop h
  | breakpoint => exact endsWf_execBreakpoint h
  | suspDelayExpiry => exact endsWf_execSuspDelayExpiry h
  | homeRequest => exact endsWf_execHomeRequest h
  | parkSave => exact endsWf_execParkSave h
  | parkConfirm => exact endsWf_execParkConfirm h
  | homeReply => exact endsWf_execHomeReply h
  | storeAcknowledge => exact endsWf_execStoreAcknowledge h
  | revocation => exact endsWf_execRevocation h
  | portAccess => exact endsWf_execPortAccess h
  | metadataUpdate => exact endsWf_execMetadataUpdate h
  | tlbWalkComplete => exact endsWf_execTlbWalkComplete h
  | copyCommandStart => exact endsWf_execCopyCommandStart h
  | copyChunkReadReply => exact endsWf_execCopyChunkReadReply h
  | copyChunkWrite => exact endsWf_execCopyChunkWrite h
  | gatherBegin => exact endsWf_execGatherBegin h
  | gatherEnd => exact endsWf_execGatherEnd h
  | arrayStart => exact endsWf_execArrayStart h
  | mxopComplete => exact endsWf_execMxopComplete h
  | portOperationComplete => exact endsWf_execPortOperationComplete h
  | holdQuantumExpiry => exact endsWf_execHoldQuantumExpiry h
  | dutyWindowStart => exact endsWf_execDutyWindowStart h
  | withheldIntervalStart => exact endsWf_execWithheldIntervalStart h
  | engineGate => exact endsWf_execEngineGate h
  | breakEvenHoldExpiry => exact endsWf_execBreakEvenHoldExpiry h
  | inrushAdmission => exact endsWf_execInrushAdmission h
  | engineWakeComplete => exact endsWf_execEngineWakeComplete h
  | engineReturn => exact endsWf_execEngineReturn h
  | attentionEngineComplete => exact endsWf_execAttentionEngineComplete h
  | barrierArrival => exact endsWf_execBarrierArrival h
  | barrierRelease => exact endsWf_execBarrierRelease h
  | agingStep => exact endsWf_execAgingStep h
  | stealProbe => exact endsWf_execStealProbe h
  | probeAnswer => exact endsWf_execProbeAnswer h
  | stealRetryExpiry => exact endsWf_execStealRetryExpiry h
  | preemption => exact endsWf_execPreemption h
  | commitArrival => exact endsWf_execCommitArrival h
  | commitAnswer => exact endsWf_execCommitAnswer h
  | cancel => exact endsWf_execCancel h
  | dropConfirmation => exact endsWf_execDropConfirmation h
  | checkpoint => exact endsWf_execCheckpoint h
  | weirReport => exact endsWf_execWeirReport h
  | messageArrival => exact endsWf_execMessageArrival h
  | antiMessageArrival => exact endsWf_execAntiMessageArrival h
  | inboxDispatch => exact endsWf_execInboxDispatch h
  | versionRevocation => exact endsWf_execVersionRevocation h
  | lwTokenVisit => exact endsWf_execLwTokenVisit h
  | lwgapExpiry => exact endsWf_execLwgapExpiry h
  | lwMarkArrival => exact endsWf_execLwMarkArrival h
  | abortTokenVisit => exact endsWf_execAbortTokenVisit h
  | restart => exact endsWf_execRestart h
  | ringAnnouncement => exact endsWf_execRingAnnouncement h
  | rillToken => exact endsWf_execRillToken h
  | rillBeat => exact endsWf_execRillBeat h
  | readOut => exact endsWf_execReadOut h
  | ringBreak => exact endsWf_execRingBreak h
  | packetRefusal => exact endsWf_execPacketRefusal h
  | groupPark => exact endsWf_execGroupPark h
  | groupWake => exact endsWf_execGroupWake h
  | heaterSettle => exact endsWf_execHeaterSettle h
  | lockComplete => exact endsWf_execLockComplete h
  | reset => exact endsWf_execReset h
  | incarnationAnnouncement => exact endsWf_execIncarnationAnnouncement h
  | readySet => exact endsWf_execReadySet h
  | migrRequestArrival => exact endsWf_execMigrRequestArrival h
  | contextStreamEnd => exact endsWf_execContextStreamEnd h
  | forwardingEntryExpiry => exact endsWf_execForwardingEntryExpiry h
  | powerMeasurement => exact endsWf_execPowerMeasurement h
  | retry => exact endsWf_execRetry h
  | skip => exact endsWf_execSkip h
  | drop => exact endsWf_execDrop h
  | abortResp => exact endsWf_execAbortResp h
  | hostLaunch => exact endsWf_execHostLaunch h
  | peerLaunch => exact endsWf_execPeerLaunch h
  | stagingAccess => exact endsWf_execStagingAccess h
  | hostRegisterWrite => exact endsWf_execHostRegisterWrite h
  | identify => exact endsWf_execIdentify h
  | attest => exact endsWf_execAttest h
  | jobOpen => exact endsWf_execJobOpen h
  | jobClose => exact endsWf_execJobClose h
  | tenantMap => exact endsWf_execTenantMap h
  | formatRange => exact endsWf_execFormatRange h
  | actSet => exact endsWf_execActSet h
  | powerCap => exact endsWf_execPowerCap h
  | groupSet => exact endsWf_execGroupSet h
  | circuitChange => exact endsWf_execCircuitChange h
  | parkPolicy => exact endsWf_execParkPolicy h
  | traceCtl => exact endsWf_execTraceCtl h
  | lockstep => exact endsWf_execLockstep h
  | illegalEncoding => exact wf_trapHere h ..
  | instructionFetchFault => exact endsWf_execInstructionFetchFault h
  | notSupportedCommand => exact endsWf_execNotSupportedCommand h
  | evqheadAdvance => exact endsWf_execEvqheadAdvance h

theorem State.perform_endsWf {s : State} (h : Memory.wf s.mem) (t : Nat) (e : Ev) (rest : List (Nat × Ev)) : EndsWf (s.perform t e rest) := by
  unfold State.perform
  dsimp only
  split
  · next hs => exact wf_of_heldBack (by exact h) hs
  · exact exec_endsWf (by simpa using h) _

theorem State.instead_endsWf {s : State} (h : Memory.wf s.mem) (e : Ev) : EndsWf (s.instead e) := exec_endsWf (by exact h) _

theorem State.runFetched_endsWf {s : State} (h : Memory.wf s.mem) (core job : Nat) (pc : Word) :
    EndsWf (s.runFetched (s.fetchWord core job pc)) := by
  unfold State.runFetched
  split
  · next hf =>
    have ht := (State.fetchWord_leaves hf).mem ▸ h
    split
    · exact exec_endsWf ht _
    · exact instead_endsWf ht _
  · exact instead_endsWf h _
  · exact wf_trapHere h _
  · simpa using h
  · simpa using h

theorem State.issue_endsWf {s : State} (h : Memory.wf s.mem) : EndsWf s.issue :=
  endsWf_ite (instead_endsWf h _) (endsWf_ite (instead_endsWf h _) (runFetched_endsWf h ..))

theorem step_endsWf {s : State} (h : Memory.wf s.mem) : EndsWf (step s) := by
  unfold step
  split
  · exact endsWf_ite (perform_endsWf h ..) (issue_endsWf (by simpa using h))
  · exact perform_endsWf h ..
  · exact issue_endsWf (by simpa using h)
  · exact h

end Sys2Proof.Machine
end

section
/-! The canonical form of memory, at reset and in every step (07 R126). -/

namespace Sys2Proof.Claims

open Sys2Proof.Machine

/-- Settles O59: whatever is performed ends with memory in its canonical form (`step_endsWf`). -/
theorem everyStepKeepsTheInvariant : Obligations.EveryStepKeepsTheInvariant := by
  intro s t hs ht
  have hends := step_endsWf hs
  rw [ht] at hends
  exact hends

/-- Settles O58: memory lists no byte at reset. -/
theorem resetMeetsTheInvariant : Obligations.ResetMeetsTheInvariant := rfl

end Sys2Proof.Claims
end

section
/-! Rounding (08 R151 to R153). In units of its last place the exact number is a rational P and the rounded one an integer Q, and every finite value
of the format is an integer too, or lies beyond an integer that lies no farther from zero than P. -/

namespace Sys2Proof.Claims

open Sys2Proof.Machine

/-! ## Magnitudes with a sign -/

/-- A magnitude with its sign. -/
def signedRat (neg : Bool) (p : ℚ) : ℚ := if neg then -p else p

/-- A whole magnitude with its sign. -/
def signed (neg : Bool) (q : Nat) : Int := if neg then -q else q

theorem cast_signed (neg : Bool) (q : Nat) : (signed neg q : ℚ) = signedRat neg q := by cases neg <;> simp [signed, signedRat]

theorem abs_signedRat (neg : Bool) {p : ℚ} (hp : 0 ≤ p) : |signedRat neg p| = p := by
  cases neg <;> simp [signedRat, abs_of_nonneg hp]

theorem abs_signedRat_sub (neg : Bool) (p q : ℚ) : |signedRat neg p - signedRat neg q| = |p - q| := by
  cases neg
  · rfl
  · simp only [signedRat, if_true, neg_sub_neg, abs_sub_comm]

theorem signedRat_inj {neg : Bool} {p q : ℚ} : signedRat neg p = signedRat neg q ↔ p = q := by cases neg <;> simp [signedRat]

theorem signedRat_mul (neg : Bool) (p c : ℚ) : signedRat neg (p * c) = signedRat neg p * c := by cases neg <;> simp [signedRat]

theorem ratOf_eq_signedRat (neg : Bool) (m : Nat) (e : Int) : ratOf neg m e = signedRat neg (m * 2 ^ e) := by
  cases neg <;> simp [ratOf, signedRat]

theorem ratOf_eq_mul (neg : Bool) (m : Nat) (e u : Int) : ratOf neg m e = ratOf neg m (e - u) * 2 ^ u := by
  rw [ratOf_eq_signedRat, ratOf_eq_signedRat, ← signedRat_mul, mul_assoc, ← zpow_add₀ two_ne_zero, sub_add_cancel]

theorem abs_ratOf (neg : Bool) (m : Nat) (e : Int) : |ratOf neg m e| = m * 2 ^ e := by
  rw [ratOf_eq_signedRat, abs_signedRat _ (by positivity)]

theorem signed_mul (neg : Bool) (q : Nat) (u : Int) : (signed neg q : ℚ) * 2 ^ u = ratOf neg q u := by
  rw [cast_signed, ratOf_eq_signedRat, signedRat_mul]

/-! ## Rounding to an integer -/

/-- The integer Q is P rounded by the mode: less than one from it, on the side that the mode names, at most a half from it under RNE (08 R151). -/
structure IsRounding (rm : Rm) (P : ℚ) (Q : Int) : Prop where
  close : |(Q : ℚ) - P| < 1
  nearest : rm = .rne → |(Q : ℚ) - P| ≤ 1 / 2
  down : rm = .rdn → (Q : ℚ) ≤ P
  up : rm = .rup → P ≤ Q
  toZero : rm = .rtz → |(Q : ℚ)| ≤ |P|

section
variable {rm : Rm} {neg : Bool} {q : Nat} {φ : ℚ}

/-- The integer part is the rounding where the mode does not point away from zero. -/
theorem isRounding_truncated (h0 : 0 ≤ φ) (h1 : φ < 1) (hne : rm = .rne → φ ≤ 1 / 2) (hdn : rm = .rdn → neg = true → φ = 0)
    (hup : rm = .rup → neg = false → φ = 0) : IsRounding rm (signedRat neg (q + φ)) (signed neg q) := by
  have hdist : |(signed neg q : ℚ) - signedRat neg (q + φ)| = φ := by
    rw [cast_signed, abs_signedRat_sub, sub_add_cancel_left, abs_neg, abs_of_nonneg h0]
  refine ⟨hdist.trans_lt h1, fun h => hdist.trans_le (hne h), fun h => ?_, fun h => ?_, fun _ => ?_⟩
  · rw [cast_signed]
    cases neg
    · simpa [signedRat] using h0
    · simp [signedRat, hdn h rfl]
  · rw [cast_signed]
    cases neg
    · simp [signedRat, hup h rfl]
    · simpa [signedRat] using h0
  · rw [cast_signed, abs_signedRat _ (by positivity), abs_signedRat _ (by positivity)]
    linarith

/-- The next integer away from zero is the rounding where the mode points that way. -/
theorem isRounding_raised (h0 : 0 < φ) (h1 : φ ≤ 1) (hne : rm = .rne → 1 / 2 ≤ φ) (hz : rm ≠ .rtz) (hdn : rm = .rdn → neg = true)
    (hup : rm = .rup → neg = false) : IsRounding rm (signedRat neg (q + φ)) (signed neg (q + 1)) := by
  have hdist : |(signed neg (q + 1) : ℚ) - signedRat neg (q + φ)| = 1 - φ := by
    rw [cast_signed, abs_signedRat_sub, Nat.cast_succ, add_sub_add_left_eq_sub, abs_of_nonneg (sub_nonneg.2 h1)]
  refine ⟨by rw [hdist]; linarith, fun h => ?_, fun h => ?_, fun h => ?_, fun h => absurd h hz⟩
  · rw [hdist]
    linarith [hne h]
  · rw [cast_signed, hdn h]
    simpa [signedRat] using h1
  · rw [cast_signed, hup h]
    simpa [signedRat] using h1

end

theorem roundUp_exact (rm : Rm) (neg : Bool) (q : Nat) {d : Nat} (hd : 0 < d) : roundUp rm neg q 0 d = false := by
  cases rm <;> simp [roundUp, hd.ne]

/-- What `roundUp` chooses for the integer part q and the fraction r / d is their rounding. -/
theorem isRounding_roundUp (rm : Rm) (neg : Bool) (q : Nat) {r d : Nat} (hr : r < d) :
    IsRounding rm (signedRat neg (q + r / d)) (signed neg (if roundUp rm neg q r d then q + 1 else q)) := by
  have hd : (0 : ℚ) < d := by exact_mod_cast Nat.zero_lt_of_lt hr
  have h1 : (r / d : ℚ) < 1 := (div_lt_one hd).2 (by exact_mod_cast hr)
  split
  · next h =>
    have hr0 : 0 < r := Nat.pos_of_ne_zero fun h0 => by simp [h0, roundUp_exact, Nat.zero_lt_of_lt hr] at h
    refine isRounding_raised (by positivity) h1.le ?_ ?_ ?_ ?_ <;> rintro rfl
    · have hhalf : 1 * d ≤ r * 2 := by simp [roundUp] at h; omega
      rw [div_le_div_iff₀ two_pos hd]
      exact_mod_cast hhalf
    · simp [roundUp] at h
    · exact (Bool.and_eq_true_iff.1 h).1
    · simpa using (Bool.and_eq_true_iff.1 h).1
  · next h =>
    refine isRounding_truncated (by positivity) h1 ?_ ?_ ?_ <;> rintro rfl
    · have hhalf : r * 2 ≤ 1 * d := by simp [roundUp] at h; omega
      rw [div_le_div_iff₀ hd two_pos]
      exact_mod_cast hhalf
    · simpa [roundUp, hd.ne'] using h
    · simpa [roundUp, hd.ne'] using h

/-- It is exact just where nothing remains. -/
theorem roundUp_exact_iff (rm : Rm) (neg : Bool) (q : Nat) {r d : Nat} (hr : r < d) :
    r = 0 ↔ (signed neg (if roundUp rm neg q r d then q + 1 else q) : ℚ) = signedRat neg (q + r / d) := by
  have hd : (0 : ℚ) < d := by exact_mod_cast Nat.zero_lt_of_lt hr
  rw [cast_signed, signedRat_inj]
  constructor
  · rintro rfl
    simp [roundUp_exact rm neg q hr]
  · intro h
    have h1 : (r / d : ℚ) < 1 := (div_lt_one hd).2 (by exact_mod_cast hr)
    split at h
    · push_cast at h
      linarith
    · have : (r / d : ℚ) = 0 := by linarith
      simpa [hd.ne'] using this

/-- num / den × 2^e in units of 2^u. -/
def inUnits (num den : Nat) (e u : Int) : ℚ := num * 2 ^ (e - u) / den

theorem inUnits_mul (num den : Nat) (e u : Int) : inUnits num den e u * 2 ^ u = num * 2 ^ e / den := by
  rw [inUnits, div_mul_eq_mul_div, mul_assoc, ← zpow_add₀ two_ne_zero, sub_add_cancel]

theorem ratOf_div_eq (neg : Bool) (num den : Nat) (e u : Int) : ratOf neg num e / den = signedRat neg (inUnits num den e u) * 2 ^ u := by
  rw [← signedRat_mul, inUnits_mul, ratOf_eq_signedRat, div_eq_mul_inv, div_eq_mul_inv, ← signedRat_mul]

/-- `roundAt` takes quotient and remainder of the number in units as a fraction of two integers. -/
theorem roundAt_eq (rm : Rm) (neg : Bool) (num : Nat) {den : Nat} (hd : 0 < den) (e u : Int) :
    ∃ n d : Nat, 0 < d ∧ (n / d : ℚ) = inUnits num den e u ∧
      roundAt rm neg num den e u = (if roundUp rm neg (n / d) (n % d) d then n / d + 1 else n / d, n % d == 0) := by
  unfold inUnits
  obtain ⟨k, hk | hk⟩ := Int.eq_nat_or_neg (e - u)
  · refine ⟨num * 2 ^ k, den, hd, by simp [hk], ?_⟩
    simp [roundAt, hk]
  · rcases k.eq_zero_or_pos with rfl | hpos
    · refine ⟨num, den, hd, by simp [hk], ?_⟩
      simp [roundAt, hk]
    · refine ⟨num, den * 2 ^ k, by positivity, by simp [hk]; field_simp, ?_⟩
      simp [roundAt, hk, hpos.ne']

theorem div_add_mod_div (n : Nat) {d : Nat} (hd : 0 < d) : ((n / d : Nat) : ℚ) + (n % d : Nat) / d = n / d := by
  have : (d : ℚ) ≠ 0 := by exact_mod_cast hd.ne'
  rw [eq_div_iff this, add_mul, div_mul_cancel₀ _ this]
  exact_mod_cast Nat.div_add_mod' n d

/-- In units of 2^u, `roundAt` gives the rounding of the number and tells whether it is exact. -/
theorem roundAt_isRounding (rm : Rm) (neg : Bool) (num : Nat) {den : Nat} (hd : 0 < den) (e u : Int) :
    let a := roundAt rm neg num den e u
    let P := signedRat neg (inUnits num den e u)
    IsRounding rm P (signed neg a.1) ∧ (a.2 = true ↔ (signed neg a.1 : ℚ) = P) := by
  obtain ⟨n, d, hd', hnd, ha⟩ := roundAt_eq rm neg num hd e u
  have hr := Nat.mod_lt n hd'
  simp only [ha, beq_iff_eq, ← hnd, ← div_add_mod_div n hd']
  exact ⟨isRounding_roundUp rm neg _ hr, roundUp_exact_iff rm neg _ hr⟩

theorem roundAt_near (rm : Rm) (neg : Bool) (num : Nat) {den : Nat} (hd : 0 < den) (e u : Int) :
    |((roundAt rm neg num den e u).1 : ℚ) - inUnits num den e u| < 1 := by
  have h := (roundAt_isRounding rm neg num hd e u).1.close
  rwa [cast_signed, abs_signedRat_sub] at h

/-! ## The values beside a rounding -/

/-- T is an integer, or an integer lies between T and P, P possibly being it. -/
def Apart (P T : ℚ) : Prop := ∃ i : Int, T = i ∨ (T < i ∧ i ≤ P) ∨ (P ≤ i ∧ i < T)

theorem IsRounding.not_between {rm : Rm} {P T : ℚ} {Q : Int} (h : IsRounding rm P Q) (ht : Apart P T) :
    ¬ ((Q : ℚ) < T ∧ T < P) ∧ ¬ (P < T ∧ T < Q) := by
  obtain ⟨hlo, hhi⟩ := abs_lt.1 h.close
  obtain ⟨i, hi⟩ := ht
  constructor
  · rintro ⟨h1, h2⟩
    have hQi : (Q : ℚ) < i := by rcases hi with rfl | ⟨hi, hi'⟩ | ⟨hi, hi'⟩ <;> linarith
    have : (Q : ℚ) + 1 ≤ i := by exact_mod_cast hQi
    rcases hi with rfl | ⟨hi, hi'⟩ | ⟨hi, hi'⟩ <;> linarith
  · rintro ⟨h1, h2⟩
    have hiQ : (i : ℚ) < Q := by rcases hi with rfl | ⟨hi, hi'⟩ | ⟨hi, hi'⟩ <;> linarith
    have : (i : ℚ) + 1 ≤ Q := by exact_mod_cast hiQ
    rcases hi with rfl | ⟨hi, hi'⟩ | ⟨hi, hi'⟩ <;> linarith

/-- No integer is nearer than one at most a half away. -/
theorem nearest_integer {P : ℚ} {Q : Int} (h : |(Q : ℚ) - P| ≤ 1 / 2) (i : Int) : |(Q : ℚ) - P| ≤ |(i : ℚ) - P| := by
  rcases eq_or_ne Q i with rfl | hne
  · rfl
  · have h1 : (1 : ℚ) ≤ |(Q : ℚ) - i| := by exact_mod_cast Int.one_le_abs (sub_ne_zero.2 hne)
    have h2 := abs_sub_le (Q : ℚ) P i
    rw [abs_sub_comm P] at h2
    linarith

theorem IsRounding.nearest_apart {P T : ℚ} {Q : Int} (h : IsRounding .rne P Q) (ht : Apart P T) : |(Q : ℚ) - P| ≤ |T - P| := by
  obtain ⟨i, hi⟩ := ht
  refine (nearest_integer (h.nearest rfl) i).trans ?_
  rcases hi with rfl | ⟨h1, h2⟩ | ⟨h1, h2⟩
  · rfl
  · rw [abs_of_nonpos (by linarith), abs_of_nonpos (by linarith)]
    linarith
  · rw [abs_of_nonneg (by linarith), abs_of_nonneg (by linarith)]
    linarith

/-- A whole number of units is an integer. -/
theorem apart_of_le {b : Bool} {n : Nat} {j u : Int} (P : ℚ) (h : u ≤ j) : Apart P (ratOf b n (j - u)) := by
  obtain ⟨k, hk⟩ := Int.eq_ofNat_of_zero_le (sub_nonneg.2 h)
  exact ⟨signed b (n * 2 ^ k), .inl (by simp [hk, ratOf_eq_signedRat, cast_signed])⟩

/-- A number smaller than an integer that P reaches is apart from P. -/
theorem apart_of_small {neg : Bool} {p T : ℚ} {N : Nat} (hT : |T| < N) (hp : N ≤ p) : Apart (signedRat neg p) T := by
  obtain ⟨h1, h2⟩ := abs_lt.1 hT
  cases neg
  · exact ⟨N, .inr (.inl ⟨by exact_mod_cast h2, by exact_mod_cast hp⟩)⟩
  · exact ⟨-N, .inr (.inr ⟨by simpa [signedRat] using hp, by exact_mod_cast h1⟩)⟩

/-! ## The binary order of a quotient -/

/-- The comparison in `ratLog2`, without its split on the sign of the exponent. -/
theorem ratLog2_test (num : Nat) {den : Nat} (hd : 0 < den) (k : Int) :
    (if 0 ≤ k then decide (den * 2 ^ k.toNat ≤ num) else decide (den ≤ num * 2 ^ (-k).toNat)) = true ↔ (2 : ℚ) ^ k ≤ num / den := by
  rw [le_div_iff₀ (by exact_mod_cast hd)]
  obtain ⟨n, rfl | rfl⟩ := Int.eq_nat_or_neg k
  · simp only [Int.natCast_nonneg, if_true, Int.toNat_natCast, decide_eq_true_eq, zpow_natCast, mul_comm den]
    exact_mod_cast Iff.rfl
  · rcases n.eq_zero_or_pos with rfl | hpos
    · simp
    · have : ¬ (0 : Int) ≤ -n := by omega
      rw [if_neg this, neg_neg, Int.toNat_natCast, decide_eq_true_eq, zpow_neg, zpow_natCast, inv_mul_le_iff₀ (by positivity), mul_comm]
      exact_mod_cast Iff.rfl

theorem two_zpow_log2_bounds {n : Nat} (hn : 0 < n) : (2 : ℚ) ^ (n.log2 : Int) ≤ n ∧ (n : ℚ) < 2 ^ ((n.log2 : Int) + 1) := by
  constructor
  · exact_mod_cast Nat.log2_self_le hn.ne'
  · exact_mod_cast Nat.lt_log2_self

/-- The binary order of a quotient is the difference of the orders, or one less. -/
theorem quotient_log2_bounds {num den : Nat} (hn : 0 < num) (hd : 0 < den) :
    (2 : ℚ) ^ ((num.log2 : Int) - den.log2 - 1) ≤ num / den ∧ (num / den : ℚ) < 2 ^ ((num.log2 : Int) - den.log2 + 1) := by
  obtain ⟨hn1, hn2⟩ := two_zpow_log2_bounds hn
  obtain ⟨hd1, hd2⟩ := two_zpow_log2_bounds hd
  have hd' : (0 : ℚ) < den := by exact_mod_cast hd
  rw [le_div_iff₀ hd', div_lt_iff₀ hd']
  constructor
  · calc (2 : ℚ) ^ ((num.log2 : Int) - den.log2 - 1) * den ≤ 2 ^ ((num.log2 : Int) - den.log2 - 1) * 2 ^ ((den.log2 : Int) + 1) := by gcongr
      _ = 2 ^ (num.log2 : Int) := by rw [← zpow_add₀ two_ne_zero]; congr 1; omega
      _ ≤ num := hn1
  · calc (num : ℚ) < 2 ^ ((num.log2 : Int) + 1) := hn2
      _ = 2 ^ ((num.log2 : Int) - den.log2 + 1) * 2 ^ (den.log2 : Int) := by rw [← zpow_add₀ two_ne_zero]; congr 1; omega
      _ ≤ 2 ^ ((num.log2 : Int) - den.log2 + 1) * den := by gcongr

theorem ratLog2_bounds {num den : Nat} (hn : 0 < num) (hd : 0 < den) (e : Int) :
    (2 : ℚ) ^ ratLog2 num den e ≤ num * 2 ^ e / den ∧ (num * 2 ^ e / den : ℚ) < 2 ^ (ratLog2 num den e + 1) := by
  obtain ⟨hlo, hhi⟩ := quotient_log2_bounds hn hd
  have he : (0 : ℚ) < 2 ^ e := by positivity
  simp only [ratLog2, ratLog2_test num hd, mul_div_right_comm, add_right_comm _ e 1, zpow_add₀ (two_ne_zero (α := ℚ)) _ e,
    mul_le_mul_iff_left₀ he, mul_lt_mul_iff_left₀ he]
  by_cases hk : (2 : ℚ) ^ ((num.log2 : Int) - den.log2) ≤ num / den
  · simpa [hk] using hhi
  · simpa [hk] using ⟨hlo, not_le.1 hk⟩

/-! ## The values of a format -/

/-- What `decode` takes of the layout of E4M3, the format whose largest exponent holds finite values. -/
def LayoutFits (f : Fmt) : Prop := f.e4m3 = true → f.eb = 4 ∧ f.mb = 3

theorem layoutFits_of_mem {f : Fmt} (hf : f ∈ [fp64, fp32, bf16, fE4m3, fE5m2]) : LayoutFits f := by
  unfold LayoutFits
  revert f
  decide

/-- A finite value has at most a full mantissa, over an exponent no less than the subnormals' (08 R143). -/
theorem decode_fin_bounds {f : Fmt} {w n : Nat} {b : Bool} {j : Int} (h : f.decode w = .fin b n j) :
    n < 2 ^ (f.mb + 1) ∧ f.emin - f.mb ≤ j := by
  have hm := Nat.mod_lt w (Nat.two_pow_pos f.mb)
  simp only [Fmt.decode, Fmt.emin] at h ⊢
  split_ifs at h <;> obtain ⟨-, rfl, rfl⟩ := Fv.fin.inj h <;> constructor <;> omega

/-- Below infinity the exponent field is not that of infinities and NaNs; in E4M3 the bits are not those of NaN. -/
theorem fields_of_lt_infBits {f : Fmt} (hf : LayoutFits f) {v : Nat} (hv : v < f.infBits) :
    v / 2 ^ f.mb < 2 ^ f.eb ∧ (if f.e4m3 then ¬ (v / 2 ^ f.mb = 15 ∧ v % 2 ^ f.mb = 7) else v / 2 ^ f.mb ≠ 2 ^ f.eb - 1) := by
  unfold Fmt.infBits at hv
  split at hv
  · next h4 =>
    obtain ⟨heb, hmb⟩ := hf h4
    simp only [h4, heb, hmb, if_true]
    omega
  · next h4 =>
    have := (Nat.div_lt_iff_lt_mul (Nat.two_pow_pos f.mb)).2 hv
    rw [if_neg h4]
    exact ⟨this.trans_le (Nat.sub_le _ _), this.ne⟩

section
variable {f : Fmt} (neg : Bool) {v : Nat}

theorem withSign_mod (f : Fmt) (v : Nat) : f.withSign neg v % 2 ^ f.mb = v % 2 ^ f.mb := by
  cases neg <;> simp [Fmt.withSign, Fmt.signBit, pow_add]

theorem withSign_exponent (hv : v / 2 ^ f.mb < 2 ^ f.eb) : f.withSign neg v / 2 ^ f.mb % 2 ^ f.eb = v / 2 ^ f.mb := by
  cases neg <;> simp [Fmt.withSign, Fmt.signBit, pow_add, Nat.add_mul_div_right, Nat.mod_eq_of_lt hv]

theorem withSign_sign (hv : v / 2 ^ f.mb < 2 ^ f.eb) : decide (f.withSign neg v / f.signBit % 2 = 1) = neg := by
  have : v < f.signBit := by rwa [Fmt.signBit, pow_add, ← Nat.div_lt_iff_lt_mul (by positivity)]
  cases neg <;> simp [Fmt.withSign, Nat.div_eq_of_lt this, Nat.add_div_right _ (pos_of_gt this)]

theorem decode_withSign (hf : LayoutFits f) (hv : v < f.infBits) :
    f.decode (f.withSign neg v) = if v / 2 ^ f.mb = 0 then .fin neg v (f.emin - f.mb)
      else .fin neg (v % 2 ^ f.mb + 2 ^ f.mb) ((v / 2 ^ f.mb : Nat) - f.bias - f.mb) := by
  obtain ⟨he, hfin⟩ := fields_of_lt_infBits hf hv
  have h0 : v / 2 ^ f.mb = 0 → v % 2 ^ f.mb = v := fun h => Nat.mod_eq_of_lt (by simpa [Nat.div_eq_zero_iff] using h)
  simp only [Fmt.decode, withSign_mod, withSign_exponent neg he, withSign_sign neg he]
  split at hfin
  · next h4 =>
    rw [if_pos h4, if_neg hfin]
    exact ite_congr rfl (fun h => by rw [h0 h]) fun _ => rfl
  · next h4 =>
    rw [if_neg h4, if_neg hfin]
    exact ite_congr rfl (fun h => by rw [h0 h]) fun _ => rfl

/-- A normal value: the exponent field one above `base`, the mantissa's leading bit left out (08 R143). -/
theorem decode_normal (hf : LayoutFits f) {base r : Nat} (hr : r < 2 ^ f.mb) (hv : base * 2 ^ f.mb + (2 ^ f.mb + r) < f.infBits) :
    f.decode (f.withSign neg (base * 2 ^ f.mb + (2 ^ f.mb + r))) = .fin neg (2 ^ f.mb + r) (base + (f.emin - f.mb)) := by
  have hM := Nat.two_pow_pos f.mb
  rw [decode_withSign neg hf hv, mul_comm base, Nat.mul_add_div hM, Nat.mul_add_mod, Nat.add_div_left _ hM, Nat.add_mod_left,
    Nat.div_eq_of_lt hr, Nat.mod_eq_of_lt hr, if_neg (by omega), add_comm r, Fmt.emin]
  congr 1
  push_cast
  ring

/-- The bits that an exponent `base` above the subnormals' and a mantissa q make hold q units; a mantissa of 2^(mb + 1) carries into the exponent. -/
theorem decode_assembled (hf : LayoutFits f) {base q : Nat} (hv : base * 2 ^ f.mb + q < f.infBits)
    (hq : q ≤ 2 ^ (f.mb + 1)) (hb : base = 0 ∨ 2 ^ f.mb ≤ q) :
    ∃ m k, f.decode (f.withSign neg (base * 2 ^ f.mb + q)) = .fin neg m k ∧ ratOf neg m k = ratOf neg q (base + (f.emin - f.mb)) := by
  have hM := Nat.two_pow_pos f.mb
  rw [pow_succ] at hq
  rcases lt_or_ge q (2 ^ f.mb) with hlt | hge
  · obtain rfl : base = 0 := hb.resolve_right (not_le.2 hlt)
    exact ⟨q, f.emin - f.mb, by rw [decode_withSign neg hf hv]; simp [Nat.div_eq_of_lt hlt], by simp⟩
  · obtain ⟨r, rfl⟩ := Nat.exists_eq_add_of_le hge
    rcases lt_or_ge r (2 ^ f.mb) with hr | hr
    · exact ⟨_, _, decode_normal neg hf hr hv, rfl⟩
    · obtain rfl : r = 2 ^ f.mb := by omega
      have hcarry : base * 2 ^ f.mb + (2 ^ f.mb + 2 ^ f.mb) = (base + 1) * 2 ^ f.mb + (2 ^ f.mb + 0) := by ring
      rw [hcarry] at hv ⊢
      refine ⟨_, _, decode_normal neg hf hM hv, ?_⟩
      rw [ratOf, ratOf, Nat.cast_succ, add_right_comm, zpow_add_one₀ two_ne_zero]
      push_cast
      ring

end

/-! ## Rounding to a format -/

/-- The exponent of the last place to which `roundRat` rounds. -/
def unitExp (f : Fmt) (num den : Nat) (e : Int) : Int := max (ratLog2 num den e - f.mb) (f.emin - f.mb)

section
variable {f : Fmt} {rm : Rm} {neg : Bool} {num den : Nat} {e : Int}

/-- In units of the last place the mantissa has at most its width. -/
theorem inUnits_unitExp_lt (hn : 0 < num) (hd : 0 < den) : inUnits num den e (unitExp f num den e) < 2 ^ (f.mb + 1) := by
  have hu : ratLog2 num den e - f.mb ≤ unitExp f num den e := le_max_left _ _
  refine lt_of_mul_lt_mul_right ?_ (by positivity : (0 : ℚ) ≤ 2 ^ unitExp f num den e)
  calc _ = (num * 2 ^ e / den : ℚ) := inUnits_mul ..
    _ < 2 ^ (ratLog2 num den e + 1) := (ratLog2_bounds hn hd e).2
    _ ≤ 2 ^ (((f.mb + 1 : Nat) : Int) + unitExp f num den e) := zpow_le_zpow_right₀ one_le_two (by omega)
    _ = _ := by rw [zpow_add₀ two_ne_zero, zpow_natCast]

/-- Above the subnormals the mantissa is full. -/
theorem le_inUnits_unitExp (hn : 0 < num) (hd : 0 < den) (h : f.emin - f.mb < unitExp f num den e) :
    2 ^ f.mb ≤ inUnits num den e (unitExp f num den e) := by
  have hu : unitExp f num den e = ratLog2 num den e - f.mb := max_eq_left (by unfold unitExp at h; omega)
  refine le_of_mul_le_mul_right ?_ (by positivity : (0 : ℚ) < 2 ^ unitExp f num den e)
  calc (2 ^ f.mb * 2 ^ unitExp f num den e : ℚ) = 2 ^ ratLog2 num den e := by
        rw [← zpow_natCast, ← zpow_add₀ two_ne_zero, hu, add_sub_cancel]
    _ ≤ num * 2 ^ e / den := (ratLog2_bounds hn hd e).1
    _ = _ := (inUnits_mul ..).symm

theorem roundAt_unitExp_le (hn : 0 < num) (hd : 0 < den) : (roundAt rm neg num den e (unitExp f num den e)).1 ≤ 2 ^ (f.mb + 1) := by
  obtain ⟨-, hhi⟩ := abs_lt.1 (roundAt_near rm neg num hd e (unitExp f num den e))
  have : ((roundAt rm neg num den e (unitExp f num den e)).1 : ℚ) < 2 ^ (f.mb + 1) + 1 := by
    linarith [inUnits_unitExp_lt (f := f) (e := e) hn hd]
  exact Nat.lt_succ_iff.1 (by exact_mod_cast this)

theorem le_roundAt_unitExp (hn : 0 < num) (hd : 0 < den) (h : f.emin - f.mb < unitExp f num den e) :
    2 ^ f.mb ≤ (roundAt rm neg num den e (unitExp f num den e)).1 := by
  obtain ⟨hlo, -⟩ := abs_lt.1 (roundAt_near rm neg num hd e (unitExp f num den e))
  have : (2 ^ f.mb : ℚ) < (roundAt rm neg num den e (unitExp f num den e)).1 + 1 := by linarith [le_inUnits_unitExp hn hd h]
  exact Nat.lt_succ_iff.1 (by exact_mod_cast this)

/-- Every finite value of the format is apart from the exact number. -/
theorem decode_apart (hn : 0 < num) (hd : 0 < den) {w n : Nat} {b : Bool} {j : Int} (h : f.decode w = .fin b n j) :
    Apart (signedRat neg (inUnits num den e (unitExp f num den e))) (ratOf b n (j - unitExp f num den e)) := by
  obtain ⟨hm, hj⟩ := decode_fin_bounds h
  rcases le_or_gt (unitExp f num den e) j with hle | hlt
  · exact apart_of_le _ hle
  · refine apart_of_small (N := 2 ^ f.mb) ?_ (by exact_mod_cast le_inUnits_unitExp hn hd (hj.trans_lt hlt))
    rw [abs_ratOf]
    calc (n * 2 ^ (j - unitExp f num den e) : ℚ) ≤ n * 2 ^ (-1 : Int) := by gcongr <;> [norm_num; omega]
      _ < (2 ^ (f.mb + 1) : Nat) * 2 ^ (-1 : Int) := by gcongr
      _ = (2 ^ f.mb : Nat) := by push_cast; ring

/-- The bits of a rounding that does not overflow are put together from the exponent of its unit and its number of units; NX says whether it is inexact. -/
theorem roundRat_of_no_overflow (hn : 0 < num) (h : (f.roundRat rm false neg num den e).2 &&& flagOF = 0) :
    let a := roundAt rm neg num den e (unitExp f num den e)
    let v := (unitExp f num den e + f.mb + f.bias - 1).toNat * 2 ^ f.mb + a.1
    v < f.infBits ∧ (f.roundRat rm false neg num den e).1 = f.withSign neg v ∧
      ((f.roundRat rm false neg num den e).2 &&& flagNX = 0 ↔ a.2 = true) := by
  simp only [unitExp, Fmt.roundRat, hn.ne', if_false] at h ⊢
  split at h
  · exact absurd (show (flagOF ||| flagNX) &&& flagOF = 0 from h) (by decide)
  · next hv =>
    rw [if_neg hv]
    refine ⟨not_le.1 hv, ?_⟩
    split
    · next ha => exact ⟨rfl, by simp [ha]⟩
    · next ha =>
      refine ⟨rfl, ?_⟩
      simp only [ha]
      split <;> decide

/-- The rounding holds as many units as `roundAt` gives, with the sign of the number. -/
theorem roundRat_decode (hf : LayoutFits f) (hn : 0 < num) (hd : 0 < den) (h : (f.roundRat rm false neg num den e).2 &&& flagOF = 0) :
    ∃ m k, f.decode (f.roundRat rm false neg num den e).1 = .fin neg m k ∧
      ratOf neg m k = signed neg (roundAt rm neg num den e (unitExp f num den e)).1 * 2 ^ unitExp f num den e := by
  obtain ⟨hv, hbits, -⟩ := roundRat_of_no_overflow hn h
  have hle : f.emin - f.mb ≤ unitExp f num den e := le_max_right _ _
  obtain ⟨base, hbase⟩ := Int.eq_ofNat_of_zero_le (sub_nonneg.2 hle)
  have hb : (unitExp f num den e + f.mb + f.bias - 1).toNat = base := by simp only [Fmt.emin] at hbase; omega
  have hu : unitExp f num den e = base + (f.emin - f.mb) := by omega
  rw [hb] at hv hbits
  rw [hbits, signed_mul]
  nth_rw 3 [hu]
  exact decode_assembled neg hf hv (roundAt_unitExp_le hn hd)
    (base.eq_zero_or_pos.imp_right fun hpos => le_roundAt_unitExp hn hd (by omega))

end

/-- Settles O15: in units of its last place the result is the number rounded to an integer, and every finite value of the format is apart from the number. -/
theorem roundingIsCorrect : Obligations.RoundingIsCorrect := by
  intro f hf rm neg num den e hn hd x r h
  obtain ⟨m, k, hdec, hval⟩ := roundRat_decode (layoutFits_of_mem hf) hn hd h
  obtain ⟨-, -, hnx⟩ := roundRat_of_no_overflow hn h
  obtain ⟨hr, hexact⟩ := roundAt_isRounding rm neg num hd e (unitExp f num den e)
  have hx : x = signedRat neg (inUnits num den e (unitExp f num den e)) * 2 ^ unitExp f num den e := ratOf_div_eq ..
  have hU : (0 : ℚ) < 2 ^ unitExp f num den e := by positivity
  refine ⟨m, k, hdec, ?_⟩
  rw [hval, hx, hnx, hexact, mul_left_inj' hU.ne', abs_mul, abs_mul]
  refine ⟨Iff.rfl, fun hm => (mul_le_mul_iff_left₀ hU).2 (hr.down hm), fun hm => (mul_le_mul_iff_left₀ hU).2 (hr.up hm),
    fun hm => mul_le_mul_of_nonneg_right (hr.toZero hm) (abs_nonneg _), fun w b n j hw => ?_⟩
  have ha := decode_apart (neg := neg) (e := e) hn hd hw
  obtain ⟨h1, h2⟩ := hr.not_between ha
  rw [ratOf_eq_mul b n j (unitExp f num den e)]
  simp only [mul_lt_mul_iff_left₀ hU, ← sub_mul, abs_mul, mul_le_mul_iff_left₀ (abs_pos_of_pos hU)]
  exact ⟨h1, h2, fun hm => by subst hm; exact hr.nearest_apart ha⟩

end Sys2Proof.Claims
end

section
/-! Scalar floating-point results (09 R165 to R173): how a result lands with its flags (06 R112; 23 R365), and the arithmetic and the comparisons. -/

namespace Sys2Proof.Machine

/-! ## Operands (09 R165) -/

theorem fp32_bitsOf (w : Word) : fp32.bitsOf w = w.toNat % 2 ^ 32 := rfl

theorem fp64_bitsOf (w : Word) : fp64.bitsOf w = w.toNat := Nat.mod_eq_of_lt w.isLt

theorem fp32_ofWord (w : Word) : fp32.ofWord w = fp32.decode (w.toNat % 2 ^ 32) := rfl

theorem fp64_ofWord (w : Word) : fp64.ofWord w = fp64.decode w.toNat := by rw [Fmt.ofWord, fp64_bitsOf]

/-! ## A result and its landing (09 R173; 06 R112) -/

section
variable {s : State} {d : BitVec 7} {r : Nat × BitVec 5} {lat n : Nat} {st : BitVec 2}

theorem State.landFp_now (hon : r.2 &&& s.me.enables = 0) (hl : lat ≤ 16 * (1 + st.toNat)) :
    s.landFp d r lat n st = (s.land d (BitVec.ofNat 64 r.1) lat st r.2).retire n st := if_pos ⟨hon, hl⟩

/-- The pending result of a floating-point instruction, with its flags and the instruction's address. -/
def State.fpWrite (s : State) (d : BitVec 7) (r : Nat × BitVec 5) (lat : Nat) : DelayedWrite :=
  { at_ := s.now + lat * tickLen s.coreId, reg := some d, fw := s.me.mode, value := BitVec.ofNat 64 r.1, flags := r.2, pc := some s.me.pc }

/-- The strand with one more pending result, whose landing is due. -/
def State.postWrite (s : State) (w : DelayedWrite) : State :=
  (s.setMe { s.me with writes := s.me.writes ++ [w] }).schedule w.at_ (.delayedRegisterWrite s.coreId)

theorem State.landFp_later (h : r.2 &&& s.me.enables ≠ 0 ∨ 16 * (1 + st.toNat) < lat) :
    s.landFp d r lat n st = (s.postWrite (s.fpWrite d r lat)).retire n st :=
  if_neg fun ⟨hon, hl⟩ => h.elim (absurd hon) (Nat.not_lt.mpr hl)

end
end Sys2Proof.Machine

namespace Sys2Proof.Claims

open Sys2Proof.Machine

section
variable {s : State} {d a b : BitVec 7} {r : Nat × BitVec 5} {lat : Nat} {st : BitVec 2} {i : Instr} {regs : List (BitVec 7)}

/-- A result without an enabled flag that lands before the strand's next issue. -/
theorem landed_fp (hl : lat ≤ 16 * (1 + st.toNat)) (hd : s.me.regOk d.toNat = true) :
    let t := (s.land d (BitVec.ofNat 64 r.1) lat st r.2).retire 4 st
    Writes s t d (BitVec.ofNat 64 r.1) ∧ GoesOn s t (s.me.pc + 4) st ∧ t.me.fcsr = s.me.fcsr ||| r.2.setWidth 64 ∧
      KeepsStrand (s.setMe { s.me with fcsr := t.me.fcsr }) t ∧ OnlyMe s t := by
  dsimp only
  rw [s.land_now d _ r.2 hl]
  refine ⟨⟨?_, fun q hq hne => ?_⟩, ?_, ?_, ?_, (OnlyMe.setMe s _).trans (OnlyMe.retire _ _ _)⟩
  · simp only [State.rx, State.me_retire, State.me_setMe, Slot.rx_advance]
    exact s.me.rx_wx_same d _
  · simp only [State.rx, State.me_retire, State.me_setMe, Slot.rx_advance]
    exact s.me.rx_wx_other _ hd hq hne
  · simp [GoesOn, State.base]
  · simp [Slot.orFlags]
  · unfold KeepsStrand Slot.wx
    split <;> simp [Slot.advance, Slot.orFlags]

/-- A result that is pending until its own tick. -/
theorem posted_goesOn (s : State) (w : DelayedWrite) (st : BitVec 2) :
    let t := (s.postWrite w).retire 4 st
    KeepsRegs s t ∧ GoesOn s t (s.me.pc + 4) st ∧ KeepsStrand s t ∧ t.me.writes = s.me.writes ++ [w] ∧
      (w.at_, Ev.delayedRegisterWrite s.coreId) ∈ t.agenda ∧ t = { s with slots := t.slots, agenda := t.agenda } ∧ KeepsSlots s t := by
  refine ⟨?_, ?_, ?_, ?_, State.due_schedule _ _ _, rfl, fun id hid => ?_⟩
  · simp [KeepsRegs, State.postWrite]
  · simp [GoesOn, State.base, State.postWrite]
  · simp [KeepsStrand, Slot.advance, State.postWrite]
  · simp [State.postWrite]
  · exact ((OnlyMe.retire (s.postWrite w) 4 st).2 id hid).trans (s.slot_setMe_other _ hid)

/-- A scalar floating-point instruction whose checks pass and that lands a result computed from the state. -/
theorem completes_fp {k : State → Nat × BitVec 5} (hi : exec i s = .next (s.guarded regs fun s => s.landFp d (k s) lat 4 st)) (hk : k s = r)
    (hd : d ∈ regs) (h : Settled s regs) :
    FloatForm.Completes { instr := i, regs := regs, dest := d, result := r, lat := lat, st := st } s := by
  subst hk
  rw [h.guarded] at hi
  refine ⟨fun hon hl => ⟨_, hi, ?_⟩, fun hlate => ⟨_, hi, ?_⟩⟩
  · rw [State.landFp_now hon hl]
    exact landed_fp hl (h.regOk hd)
  · rw [State.landFp_later hlate]
    exact posted_goesOn s (s.fpWrite d (k s) lat) st

theorem completes_fp3 {k : State → Nat × BitVec 5} (hi : exec i s = .next (s.guarded [d, a, b] fun s => s.landFp d (k s) lat 4 st)) (hk : k s = r)
    (h : Settled s [d, a, b]) : FloatForm.Completes { instr := i, regs := [d, a, b], dest := d, result := r, lat := lat, st := st } s :=
  completes_fp hi hk List.mem_cons_self h

theorem completes_fp2 {k : State → Nat × BitVec 5} (hi : exec i s = .next (s.guarded [d, a] fun s => s.landFp d (k s) lat 4 st)) (hk : k s = r)
    (h : Settled s [d, a]) : FloatForm.Completes { instr := i, regs := [d, a], dest := d, result := r, lat := lat, st := st } s :=
  completes_fp hi hk List.mem_cons_self h

end

/-! ## Arithmetic and comparisons (09 R167 to R169) -/

/-- What a comparison writes, as the model has it. -/
theorem ite_eq_relation (r : Bool × BitVec 5) : ((if r.1 then 1 else 0, r.2) : Nat × BitVec 5) = relation r := by
  obtain ⟨holds, flags⟩ := r
  cases holds <;> rfl

/-- Settles O13: each instruction lands one result, of its operands as its format reads them. -/
theorem floatResults : Obligations.FloatResults := by
  intro s d a b st
  simp only [floats, List.forall_mem_cons]
  exact ⟨completes_fp3 rfl rfl, completes_fp3 rfl rfl, completes_fp3 rfl rfl, completes_fp3 rfl rfl, completes_fp3 rfl rfl, completes_fp2 rfl rfl,
    completes_fp3 rfl rfl, completes_fp3 rfl rfl,
    completes_fp3 rfl (ite_eq_relation _), completes_fp3 rfl (ite_eq_relation _), completes_fp3 rfl (ite_eq_relation _),
    completes_fp3 rfl (ite_eq_relation _),
    completes_fp3 rfl (by simp only [fp64_ofWord]), completes_fp3 rfl (by simp only [fp64_ofWord]), completes_fp3 rfl (by simp only [fp64_ofWord]),
    completes_fp3 rfl (by simp only [fp64_ofWord]), completes_fp3 rfl (by simp only [fp64_ofWord]), completes_fp2 rfl (by simp only [fp64_ofWord]),
    completes_fp3 rfl (by simp only [fp64_bitsOf]), completes_fp3 rfl (by simp only [fp64_bitsOf]),
    completes_fp3 rfl (by rw [ite_eq_relation, fp64_ofWord, fp64_ofWord]), completes_fp3 rfl (by rw [ite_eq_relation, fp64_ofWord, fp64_ofWord]),
    completes_fp3 rfl (by rw [ite_eq_relation, fp64_ofWord, fp64_ofWord]), completes_fp3 rfl (by rw [ite_eq_relation, fp64_ofWord, fp64_ofWord]),
    List.forall_mem_nil _⟩

end Sys2Proof.Claims
end

section
/-! Sign operations and classes (09 R168, R170), and conversions between formats and integers (09 R171, R172; 08 R154). -/

namespace Sys2Proof.Machine

/-! ## Signs and classes -/

/-- The low bits of a word under a mask. -/
theorem ofNat_mod_eq_and (x : Word) (n : Nat) : BitVec.ofNat 64 (x.toNat % 2 ^ n) = x &&& BitVec.ofNat 64 (2 ^ n - 1) := by
  rw [← Nat.and_two_pow_sub_one_eq_mod, BitVec.ofNat_and, BitVec.ofNat_toNat, BitVec.setWidth_eq]

theorem fp32_abs_eq_and (x : Word) : BitVec.ofNat 64 (fp32.bitsOf x % 2 ^ 31) = x &&& 0x7FFFFFFF := by
  rw [fp32_bitsOf, Nat.mod_mod_of_dvd _ (Nat.pow_dvd_pow 2 (by decide))]
  exact ofNat_mod_eq_and x 31

theorem fp64_abs_eq_and (x : Word) : BitVec.ofNat 64 (fp64.bitsOf x % 2 ^ 63) = x &&& 0x7FFFFFFFFFFFFFFF := by
  rw [fp64_bitsOf]
  exact ofNat_mod_eq_and x 63

theorem ofNat_fp64_bitsOf (x : Word) : BitVec.ofNat 64 (fp64.bitsOf x) = x := by
  rw [fp64_bitsOf, BitVec.ofNat_toNat, BitVec.setWidth_eq]

/-- FCLASS gives one of ten bits (09 R170). -/
theorem classify_eq_two_pow (f : Fmt) (v : Nat) : ∃ k < 10, f.classify v = 2 ^ k := by
  unfold Fmt.classify
  dsimp only
  split
  · split
    · exact ⟨8, by decide, rfl⟩
    · exact ⟨9, by decide, rfl⟩
  · split
    · exact ⟨0, by decide, rfl⟩
    · exact ⟨7, by decide, rfl⟩
  · split
    · split
      · exact ⟨3, by decide, rfl⟩
      · exact ⟨4, by decide, rfl⟩
    split
    · split
      · exact ⟨2, by decide, rfl⟩
      · exact ⟨5, by decide, rfl⟩
    · split
      · exact ⟨1, by decide, rfl⟩
      · exact ⟨6, by decide, rfl⟩

end Sys2Proof.Machine

namespace Sys2Proof.Claims

open Sys2Proof.Machine

theorem classWord_eq_two_pow (f : Fmt) (v : Nat) : ∃ k, k < 10 ∧ BitVec.ofNat 64 (f.classify v) = BitVec.ofNat 64 (2 ^ k) := by
  obtain ⟨k, hk, h⟩ := classify_eq_two_pow f v
  exact ⟨k, hk, by rw [h]⟩

theorem floatSignsAndClasses : FloatSignsAndClasses := by
  intro s d a st
  simp only [signsAndClasses, List.forall_mem_cons]
  refine ⟨fun h => ⟨completes_alu2 rfl latInt_le (fp32_abs_eq_and _) h, by simp⟩,
    fun h => ⟨completes_alu2 rfl latInt_le (ofNat_mod_eq_and _ 32) h, by simp⟩,
    fun h => ⟨completes_alu2 rfl latInt_le (fp64_abs_eq_and _) h, by simp⟩,
    fun h => ⟨completes_alu2 rfl latInt_le (ofNat_fp64_bitsOf _) h, by simp⟩,
    fun h => ⟨completes_alu2 rfl latInt_le rfl h, fun _ => classWord_eq_two_pow _ _⟩,
    fun h => ⟨completes_alu2 rfl latInt_le (by rw [fp64_bitsOf]) h, fun _ => classWord_eq_two_pow _ _⟩, List.forall_mem_nil _⟩

/-! ## Conversions -/

/-- The least, the greatest and the operand of ICVT, by signedness and width. -/
theorem icvt_operand_and_limits (h w : BitVec 1) (x : Word) :
    icvtIn (h == 1) (w == 1) x = integerOf h w x ∧ icvtLo (h == 1) (w == 1) = leastOf h w ∧ icvtHi (h == 1) (w == 1) = greatestOf h w := by
  have hnarrow : (sextN x 32).toInt = (x.setWidth 32).toInt := by rw [sextN_eq, BitVec.toInt_signExtend_of_le (by decide)]
  have hunsigned : ((x.toNat % 2 ^ 32 : Nat) : Int) = (x.setWidth 32).toNat := by rw [BitVec.toNat_setWidth]
  rcases h.eq_zero_or_eq_one with rfl | rfl <;> rcases w.eq_zero_or_eq_one with rfl | rfl
  · exact ⟨rfl, rfl, rfl⟩
  · exact ⟨hnarrow, rfl, rfl⟩
  · exact ⟨rfl, rfl, rfl⟩
  · exact ⟨hunsigned, rfl, rfl⟩

/-- The format of a code of ICVT (02 R38). -/
theorem fmtOf_icvt : ∀ v : BitVec 3, v.toNat ≤ 2 → fmtOf v.toNat = some (if v = 0 then fp64 else if v = 1 then fp32 else bf16) := by
  decide

section
variable {s : State} {d a : BitVec 7} {q h w : BitVec 1} {t v : BitVec 3} {st : BitVec 2} {src dst : Fmt}

theorem exec_fcvt (hsrc : fmtOf v.toNat = some src) (hdst : fmtOf t.toNat = some dst) (htv : t ≠ v) :
    exec (.fcvt d a q t v st) s = .next (s.guarded [d, a] fun s =>
      s.landFp d (fpConvert src dst s.me.rm (q == 1) (src.bitsOf (s.rx a))) (if t = 0 ∨ v = 0 then latFp64 else latFp) 4 st) := by
  change execFcvt d a q t v st s = _
  unfold execFcvt
  rw [hsrc, hdst]
  exact if_neg htv

theorem exec_icvt_fromInt (hv : v.toNat ≤ 2) (hsrc : fmtOf v.toNat = some src) :
    exec (.icvt d a 0 h w v st) s = .next (s.guarded [d, a] fun s =>
      s.landFp d (src.round s.me.rm false (ofSigned (integerOf h w (s.rx a)) 0)) (if v = 0 then latFp64 else latFp) 4 st) := by
  obtain rfl := Option.some.inj ((fmtOf_icvt v hv).symm.trans hsrc)
  simp only [← (icvt_operand_and_limits h w _).1]
  exact if_neg (Nat.not_lt.mpr hv)

theorem exec_icvt_toInt (hv : v.toNat ≤ 2) (hsrc : fmtOf v.toNat = some src) :
    exec (.icvt d a 1 h w v st) s = .next (s.guarded [d, a] fun s =>
      let r := toIntClamp s.me.rm (leastOf h w) (greatestOf h w) (src.ofWord (s.rx a))
      s.landFp d ((BitVec.ofInt 64 r.1).toNat, r.2) (if v = 0 then latFp64 else latFp) 4 st) := by
  obtain rfl := Option.some.inj ((fmtOf_icvt v hv).symm.trans hsrc)
  obtain ⟨-, hlo, hhi⟩ := icvt_operand_and_limits h w (s.rx a)
  rw [← hlo, ← hhi]
  exact if_neg (Nat.not_lt.mpr hv)

end

theorem conversionResults : ConversionResults := by
  intro s d a q h w t v st src dst hsrc hdst
  simp only [conversions, List.forall_mem_append]
  refine ⟨?_, ?_⟩
  · by_cases htv : t ≠ v
    · rw [if_pos htv, List.forall_mem_singleton]
      exact completes_fp2 (exec_fcvt hsrc hdst htv) rfl
    · rw [if_neg htv]
      exact List.forall_mem_nil _
  · by_cases hv : v.toNat ≤ 2
    · rw [if_pos hv]
      simp only [List.forall_mem_cons]
      exact ⟨completes_fp2 (exec_icvt_fromInt hv hsrc) rfl, completes_fp2 (exec_icvt_toInt hv hsrc) rfl, List.forall_mem_nil _⟩
    · rw [if_neg hv]
      exact List.forall_mem_nil _

/-- Settles O14: signs and classes are functions of the operand's bits, and a conversion lands one result of the formats that its codes name. -/
theorem floatSignsClassesAndConversions : Obligations.FloatSignsClassesAndConversions := ⟨floatSignsAndClasses, conversionResults⟩

end Sys2Proof.Claims
end

section
/-! The elements of a vector step (09 R177, R178): as they stand in memory, and as an elementwise form computes them. -/

namespace Sys2Proof.Machine

/-! ## Elements in a row -/

theorem length_toBytes (n : Nat) : ∀ v, (toBytes v n).length = n := by
  induction n with
  | zero => intro v; rfl
  | succ n ih => intro v; rw [toBytes, List.length_cons, ih]

theorem elements_memBytes (m : List Host.Cell) (z : Nat) : ∀ n a,
    elements (memBytes m a (n * z)) z n = (List.range n).map fun i => memRead m (a + i * z) z
  | 0, a => rfl
  | n + 1, a => by
    have hlen : (memBytes m a z).length = z := length_memBytes m z a
    rw [show (n + 1) * z = z + n * z by ring, memBytes_add, elements, List.take_left' hlen, List.drop_left' hlen, ofBytes_memBytes,
      elements_memBytes m z n, List.range_succ_eq_map, List.map_cons, List.map_map]
    simp only [Function.comp_def, Nat.succ_eq_add_one, Nat.zero_mul, Nat.add_zero, Nat.add_one_mul, Nat.add_assoc, Nat.add_comm z]

theorem getD_elements_memBytes (m : List Host.Cell) (z a : Nat) {n i : Nat} (h : i < n) :
    (elements (memBytes m a (n * z)) z n).getD i 0 = memRead m (a + i * z) z := by
  simp [elements_memBytes, List.getD_eq_getElem?_getD, h]

theorem memRead_memPut_toBytes (m : List Host.Cell) (a v z : Nat) : memRead (memPut m a (toBytes v z)) a z = v % 256 ^ z := by
  have h := memWrite_ofBytes (toBytes v z) m a
  rw [length_toBytes] at h
  rw [← h, memRead_memWrite, ofBytes_toBytes, Nat.mod_mod]

theorem length_flatMap_toBytes {α : Type} (g : α → Nat) (z : Nat) (l : List α) : (l.flatMap fun r => toBytes (g r) z).length = l.length * z := by
  simp [List.length_flatMap, length_toBytes]

/-- Numbers of z bytes written in a row are read back each at its place. -/
theorem memRead_memPut_flatMap {α : Type} (g : α → Nat) (z : Nat) : ∀ (l : List α) (m : List Host.Cell) (a i : Nat) (h : i < l.length),
    memRead (memPut m a (l.flatMap fun r => toBytes (g r) z)) (a + i * z) z = g l[i] % 256 ^ z
  | [], _, _, _, h => absurd h (Nat.not_lt_zero _)
  | r :: l, m, a, i, h => by
    rw [List.flatMap_cons, memPut_append, length_toBytes]
    cases i with
    | zero =>
      rw [Nat.zero_mul, Nat.add_zero, memRead_congr z _ (memPut m a (toBytes (g r) z)) a fun x _ hx => memByte_memPut_other _ _ _ _ (.inl hx),
        memRead_memPut_toBytes]
      rfl
    | succ i =>
      rw [show a + (i + 1) * z = a + z + i * z by ring, memRead_memPut_flatMap g z l _ _ i (Nat.lt_of_succ_lt_succ h)]
      rfl

/-! ## Elementwise forms -/

/-- A form whose step computes each element of D from one element of A and B (09 R178, R179). -/
def VOp.isElementwise : VOp → Bool
  | .red | .qnt | .deq => false
  | _ => true

section
variable {op : VOp} (h : op.isElementwise = true)
include h

theorem VOp.spans_elementwise (sh : VShape) (m : Nat) : op.spans sh m = (m * sh.zd, m * sh.za, m * sh.zb) := by
  cases op with
  | red | qnt | deq => cases h
  | _ => rfl

theorem VOp.compute_elementwise (w : Word) (rm : Rm) (ox7 : Word) (sh : VShape) (m : Nat) (dB aB bB : List Byte) :
    let rs := (List.range m).map fun i => op.element w rm (ox7.toNat % 2 ^ ((fmtOf (vFmt w)).getD fp32).width)
      ((elements aB sh.za m).getD i 0) ((elements bB sh.zb m).getD i 0)
    op.compute w rm ox7 sh m dB aB bB = { dBytes := rs.flatMap fun r => toBytes r.1 sh.zd, flags := rs.zipIdx.map fun p => (some p.2, p.1.2) } := by
  cases op with
  | red | qnt | deq => cases h
  | _ => rfl

end
end Sys2Proof.Machine

namespace Sys2Proof.Claims

open Sys2Proof.Machine

section
variable {s t : State} {op : VOp} {regs : List (BitVec 7)} {m : Nat}

/-- The bytes that an elementwise step writes at D are the results in a row, and it writes none at B. -/
theorem stepResult_elementwise (h : op.isElementwise = true) :
    let w := s.me.oxr 6
    let sh := op.shape w
    (stepResult s op regs m).bBytes = [] ∧ (stepResult s op regs m).dBytes = (List.range m).flatMap fun i =>
      toBytes (op.element w s.me.rm ((s.me.oxr 7).toNat % 2 ^ ((fmtOf (vFmt w)).getD fp32).width)
        (memRead s.mem (localBase s.coreId + pointer s regs 1 + i * sh.za) sh.za)
        (memRead s.mem (localBase s.coreId + pointer s regs 2 + i * sh.zb) sh.zb)).1 sh.zd := by
  unfold stepResult
  simp only [VOp.compute_elementwise h, VOp.spans_elementwise h, List.flatMap_map, true_and]
  refine List.flatMap_congr fun i hi => ?_
  rw [getD_elements_memBytes _ _ _ (List.mem_range.mp hi), getD_elements_memBytes _ _ _ (List.mem_range.mp hi)]

/-- An elementwise step leaves at D each element's result, and no other byte changed. -/
theorem StepDone.elements (hd : StepDone s t op regs m) (h : op.isElementwise = true) :
    let w := s.me.oxr 6
    let sh := op.shape w
    (∀ i, i < m → memRead t.mem (localBase s.coreId + pointer s regs 0 + i * sh.zd) sh.zd =
      (op.element w s.me.rm ((s.me.oxr 7).toNat % 2 ^ ((fmtOf (vFmt w)).getD fp32).width)
        (memRead s.mem (localBase s.coreId + pointer s regs 1 + i * sh.za) sh.za)
        (memRead s.mem (localBase s.coreId + pointer s regs 2 + i * sh.zb) sh.zb)).1 % 2 ^ (8 * sh.zd)) ∧
    (∀ x, (x < localBase s.coreId + pointer s regs 0 ∨ localBase s.coreId + pointer s regs 0 + m * sh.zd ≤ x) →
      memByte t.mem x = memByte s.mem x) := by
  obtain ⟨hmem, -⟩ := hd
  obtain ⟨hB, hD⟩ := stepResult_elementwise (s := s) (regs := regs) (m := m) h
  rw [hB, memPut, hD] at hmem
  rw [hmem]
  refine ⟨fun i hi => ?_, fun x hx => memByte_memPut_other _ _ _ _ ?_⟩
  · rw [memRead_memPut_flatMap _ _ _ _ _ i (by rwa [List.length_range]), List.getElem_range, Nat.pow_mul]
  · rwa [length_flatMap_toBytes, List.length_range]

end
end Sys2Proof.Claims
end

section
/-! What a vector instruction leaves of the machine (09 R177, R183): its bank claims, its bytes, its registers and its gang's count of work. -/

namespace Sys2Proof.Machine

/-- All of a strand that a vector instruction leaves. -/
def Slot.VectorKept (v w : Slot) : Prop :=
  w = { v with x := w.x, shadow := w.shadow, pc := w.pc, wait := w.wait, lines := w.lines, nextTick := w.nextTick, writes := w.writes,
               inFlight := w.inFlight, fcsr := w.fcsr, stepAt := w.stepAt }

theorem Slot.VectorKept.trans {u v w : Slot} (h : u.VectorKept v) (h' : v.VectorKept w) : u.VectorKept w := by
  unfold Slot.VectorKept at *
  rw [h']; conv_lhs => rw [h]

theorem Slot.RegsOnly.vectorKept {v w : Slot} (h : v.RegsOnly w) : v.VectorKept w := by
  unfold Slot.RegsOnly at h
  rw [h]; rfl

/-- All of the state outside the tables and lists that a vector instruction changes. -/
def State.VectorKept (s t : State) : Prop :=
  t = { s with mem := t.mem, bad := t.bad, used := t.used, slots := t.slots, gangs := t.gangs, cores := t.cores }

theorem State.VectorKept.trans {s t u : State} (h : s.VectorKept t) (h' : t.VectorKept u) : s.VectorKept u := by
  unfold State.VectorKept at *
  rw [h']; conv_lhs => rw [h]

theorem State.VectorKept.cur {s t : State} (h : s.VectorKept t) : t.cur = s.cur := by rw [h]

theorem State.gang_setGang_other (s : State) {g k : Nat} (v : Gang) (h : k ≠ g) : (s.setGang g v).gang k = s.gang k :=
  tget_tset_other _ _ _ h

end Sys2Proof.Machine

namespace Sys2Proof.Claims

open Sys2Proof.Machine

section
variable {s t u : State}

theorem keepsStrand_iff_vectorKept :
    KeepsStrand (s.setMe { s.me with fcsr := t.me.fcsr, stepAt := t.me.stepAt }) t ↔ s.me.VectorKept t.me := by
  unfold KeepsStrand
  rw [State.me_setMe]
  rfl

theorem stepKeeps_iff : StepKeeps s t ↔ s.VectorKept t ∧ KeepsSlots s t ∧ KeepsCores s t ∧ s.me.VectorKept t.me ∧
    ∀ g, t.gang g = { s.gang g with work := (t.gang g).work } := by
  rw [← keepsStrand_iff_vectorKept]
  rfl

theorem StepKeeps.refl (s : State) : StepKeeps s s :=
  stepKeeps_iff.mpr ⟨rfl, fun _ _ => rfl, KeepsCores.refl s, rfl, fun _ => rfl⟩

theorem StepKeeps.trans (h : StepKeeps s t) (h' : StepKeeps t u) : StepKeeps s u := by
  rw [stepKeeps_iff] at *
  obtain ⟨hstate, hslots, hcores, hme, hgangs⟩ := h
  obtain ⟨hstate', hslots', hcores', hme', hgangs'⟩ := h'
  refine ⟨hstate.trans hstate', fun id hid => ?_, hcores.trans hcores', hme.trans hme', fun g => ?_⟩
  · exact (hslots' id (hstate.cur ▸ hid)).trans (hslots id hid)
  · rw [hgangs' g]; conv_lhs => rw [hgangs g]

theorem StepKeeps.setMe {v : Slot} (h : s.me.VectorKept v) : StepKeeps s (s.setMe v) :=
  stepKeeps_iff.mpr ⟨rfl, (OnlyMe.setMe s v).2, KeepsCores.of_cores rfl, by rwa [State.me_setMe], fun _ => rfl⟩

theorem StepKeeps.putLocal (s : State) (p : Nat) (bs : List Byte) : StepKeeps s (s.putLocal p bs) := by
  unfold State.putLocal State.markLocal
  split <;> exact stepKeeps_iff.mpr ⟨rfl, fun _ _ => rfl, KeepsCores.of_cores rfl, rfl, fun _ => rfl⟩

theorem StepKeeps.worked (s : State) : StepKeeps s s.worked := by
  unfold State.worked
  split
  · refine stepKeeps_iff.mpr ⟨rfl, fun _ _ => rfl, KeepsCores.of_cores rfl, rfl, fun g => ?_⟩
    by_cases hg : g = s.me.gang
    · subst hg; rw [State.gang_setGang]; rfl
    · rw [s.gang_setGang_other _ hg]
  · exact StepKeeps.refl s

/-- A step of a vector instruction. -/
theorem StepKeeps.stepped (s : State) (v : VInstr) (m : Nat) (count : Option (BitVec 7)) (o : VOut) : StepKeeps s (s.stepped v m count o) := by
  unfold State.stepped
  refine (((StepKeeps.putLocal s _ _).trans (StepKeeps.putLocal _ _ _)).trans (StepKeeps.setMe ?_)).trans (StepKeeps.worked _)
  rw [VInstr.advance_eq_foldl]
  refine Slot.VectorKept.trans ?_ ((Slot.RegsOnly.foldl_bump _ _).trans (Slot.RegsOnly.counted _ _ _)).vectorKept
  rfl

theorem StepKeeps.claims (s : State) (c : Nat) (l : List Claim) : StepKeeps s (s.setCore c { s.core c with claims := l }) :=
  stepKeeps_iff.mpr ⟨rfl, fun _ _ => rfl, KeepsCores.setCore rfl, rfl, fun _ => rfl⟩

/-- Line accesses take cycles of banks. -/
theorem StepKeeps.claimAll (core rank owner : Nat) (l : List (Nat × Nat)) : ∀ s : State, StepKeeps s (s.claimAll core rank owner l) := by
  induction l with
  | nil => exact StepKeeps.refl
  | cons p l ih => exact fun s => (StepKeeps.claims s core _).trans (ih _)

theorem StepKeeps.vClaim (s : State) (v : VInstr) (m ahead : Nat) : StepKeeps s (s.vClaim v m ahead) :=
  (StepKeeps.claims s _ _).trans (StepKeeps.claimAll _ _ _ _ _)

end
end Sys2Proof.Claims
end

section
/-! An unprefixed vector instruction whose step runs (09 R177 to R183): the pointers advance, and the strand goes on. -/

namespace Sys2Proof.Machine

/-- An instruction's end after its step: it goes on, no sooner than the step's cycles have passed. -/
def State.stepEnd (s : State) (st : BitVec 2) (cc done : Nat) : State :=
  let u := (s.retire 4 st).busyFor cc
  u.setMe { u.me with stepAt := done }

theorem State.me_stepEnd (s : State) (st : BitVec 2) (cc done : Nat) : (s.stepEnd st cc done).me =
    { s.me.advance s.base 0 s.coreId st 4 with nextTick := (s.stepEnd st cc done).me.nextTick, stepAt := done } := by
  simp [State.stepEnd, State.busyFor]

theorem State.rx_stepEnd (s : State) (st : BitVec 2) (cc done : Nat) (r : BitVec 7) : (s.stepEnd st cc done).rx r = s.rx r := by
  rw [State.rx, State.me_stepEnd]
  rfl

end Sys2Proof.Machine

namespace Sys2Proof.Claims

open Sys2Proof.Machine

section
variable {s t u : State} {v : VInstr} {m : Nat} {o : VOut}

theorem StepRuns.of_leaves {op : VOp} {regs : List (BitVec 7)} (h : CoresAndClusters s u) (hr : StepRuns s op regs m) : StepRuns u op regs m := by
  rw [h]; exact hr

theorem StepDone.of_leaves {op : VOp} {regs : List (BitVec 7)} (h : CoresAndClusters s u) (hd : StepDone u t op regs m) : StepDone s t op regs m := by
  rw [h] at hd; exact hd

/-! ## The pointers that advance -/

theorem rx_stepped_none (r : BitVec 7) : (s.stepped v m none o).rx r =
    ((v.moves (v.op.spans (v.op.shape (s.me.oxr 6)) m)).foldl Slot.bump (s.me.orFlags (stepFlags o))).rx r := by
  rw [State.rx, me_stepped]
  rfl

/-- A reduction's D is none of the registers that advance (09 R180). -/
theorem ne_d_of_mem_moves {sp : Nat × Nat × Nat} {p : BitVec 7 × Nat} (hnd : v.regs.Nodup) (hop : v.op = .red) (hp : p ∈ v.moves sp) : p.1 ≠ v.d := by
  obtain ⟨hd, -⟩ := List.nodup_cons.mp hnd
  rw [VInstr.moves, if_pos hop, List.nil_append] at hp
  have hmem : p.1 ∈ v.a.toList ++ v.b.toList := by
    rcases List.mem_append.mp hp with hp | hp <;> obtain ⟨r, hr, rfl⟩ := List.mem_map.mp hp <;> simp [hr]
  exact fun e => hd (e ▸ hmem)

section
variable (hok : ∀ r ∈ v.regs, s.me.regOk r.toNat = true)
include hok

theorem rx_stepped_none_other {r : BitVec 7} (hr : s.me.regOk r.toNat = true)
    (h : ∀ p ∈ v.moves (v.op.spans (v.op.shape (s.me.oxr 6)) m), p.1 ≠ r) : (s.stepped v m none o).rx r = s.rx r := by
  rw [rx_stepped_none]
  exact Slot.rx_foldl_bump_other hr fun p hp => ⟨hok p.1 (fst_mem_regs hp), h p hp⟩

theorem rx_stepped_none_of_move (hnd : v.regs.Nodup) {p : BitVec 7 × Nat} (hp : p ∈ v.moves (v.op.spans (v.op.shape (s.me.oxr 6)) m)) :
    (s.stepped v m none o).rx p.1 = s.rx p.1 + BitVec.ofNat 64 p.2 := by
  rw [rx_stepped_none]
  exact Slot.rx_foldl_bump_mem (hnd.sublist (v.moves_sublist _)) (fun q hq => hok q.1 (fst_mem_regs hq)) hp

/-- The state that an unprefixed step leaves is what its statement says. -/
theorem stepDone_stepped_none (hv : v.Ordered) (hnd : v.regs.Nodup) :
    StepDone s (s.stepped v m none (stepResult s v.op v.regs m)) v.op v.regs m := by
  have h2 := pointer_two (s := s) hv
  refine ⟨?_, by simp [State.stepped], ?_, fun d hd => ?_, fun a ha => ?_, fun b hb => ?_⟩
  · simp only [State.stepped, mem_worked, State.mem_setMe, mem_putLocal, h2]
    rfl
  · rw [regsOnly_stepped]; rfl
  · obtain rfl : v.d = d := by simpa [VInstr.regs] using hd
    split
    · next hop => exact rx_stepped_none_other hok (hok v.d List.mem_cons_self) fun p => ne_d_of_mem_moves hnd hop
    · next hop => exact rx_stepped_none_of_move hok hnd (p := (v.d, _)) (by simp [VInstr.moves, hop])
  · exact rx_stepped_none_of_move hok hnd (p := (a, _)) (by simp [VInstr.moves, a_of_regs hv ha])
  · exact rx_stepped_none_of_move hok hnd (p := (b, _)) (by simp [VInstr.moves, b_of_regs hv hb])

end

/-! ## The instruction -/

theorem StepKeeps.stepEnd (s : State) (st : BitVec 2) (cc done : Nat) : StepKeeps s (s.stepEnd st cc done) := by
  unfold State.stepEnd State.busyFor State.retire
  refine ((StepKeeps.setMe ?_).trans (StepKeeps.setMe ?_)).trans (StepKeeps.setMe ?_) <;> rfl

/-- Core cycles from a vector instruction's issue to its step's end (09 R183). -/
def stepCycles (s : State) (v : VInstr) : Nat := 8 + s.vCycles v (v.op.shape (s.me.oxr 6)).n

/-- The state that an unprefixed vector instruction leaves. -/
def vectorDone (s : State) (v : VInstr) : State :=
  let n := (v.op.shape (s.me.oxr 6)).n
  ((s.vClaim v n 8).stepped v n none (stepResult (s.vClaim v n 8) v.op v.regs n)).stepEnd v.st (stepCycles s v)
    (s.now + stepCycles s v * tickLen s.coreId)

theorem not_bad_of_checks {regs : List (BitVec 7)} (hregs : v.regs = regs) (h : StepChecks s v.op regs m) : v.bad (s.me.oxr 6) = false := by
  subst hregs
  obtain ⟨hill, hnodup, -⟩ := h
  simp only [VInstr.bad, VInstr.clash, hill, hnodup, decide_true, Bool.not_true, Bool.or_false]

theorem vector_of_runs (hv : v.Ordered) (hs : Settled s v.regs) (hr : StepRuns s v.op v.regs (v.op.shape (s.me.oxr 6)).n) :
    s.vector v = vectorDone s v := by
  have hstep := vStep_of_runs none hv (hr.of_leaves (s.vClaim_leaves v (v.op.shape (s.me.oxr 6)).n 8))
  unfold State.vector
  rw [not_bad_of_checks rfl hr.1, if_neg Bool.false_ne_true, hs.guarded]
  dsimp only
  rw [hstep]
  rfl

/-- What an unprefixed vector instruction whose step runs leaves. -/
theorem vectorDone_runs (hv : v.Ordered) (hs : Settled s v.regs) (hnd : v.regs.Nodup) :
    let t := vectorDone s v
    StepDone s t v.op v.regs (v.op.shape (s.me.oxr 6)).n ∧ StepKeeps s t ∧ t.me.pc = s.me.pc + 4 ∧ t.me.wait = .none ∧
      ∀ r, s.me.regOk r.toNat = true → r ∉ v.regs → t.rx r = s.rx r := by
  have hl := s.vClaim_leaves v (v.op.shape (s.me.oxr 6)).n 8
  have hclaim := StepKeeps.vClaim s v (v.op.shape (s.me.oxr 6)).n 8
  unfold vectorDone
  dsimp only
  generalize hn : (v.op.shape (s.me.oxr 6)).n = n at *
  generalize s.vClaim v n 8 = u at *
  have hok : ∀ r ∈ v.regs, u.me.regOk r.toNat = true := fun r hr => by rw [hl.me]; exact hs.regOk hr
  have hdone : StepDone u _ v.op v.regs n := stepDone_stepped_none hok hv hnd
  have hkeeps := hclaim.trans (StepKeeps.stepped u v n none (stepResult u v.op v.regs n))
  have hother : ∀ r, s.me.regOk r.toNat = true → r ∉ v.regs → (u.stepped v n none (stepResult u v.op v.regs n)).rx r = s.rx r := fun r hr hne => by
    rw [← hl.rx]
    exact rx_stepped_none_other hok (hl.me ▸ hr) fun p hp e => hne (e ▸ fst_mem_regs hp)
  have hpc : (u.stepped v n none (stepResult u v.op v.regs n)).me.pc = s.me.pc := by rw [regsOnly_stepped, ← hl.me]; rfl
  generalize u.stepped v n none (stepResult u v.op v.regs n) = s1 at *
  refine ⟨(hdone.of_leaves hl).congr ⟨rfl, rfl⟩ (by rw [State.me_stepEnd]; rfl) fun r => s1.rx_stepEnd _ _ _ r,
    hkeeps.trans (StepKeeps.stepEnd s1 _ _ _), ?_, ?_, fun r hr hne => (s1.rx_stepEnd _ _ _ r).trans (hother r hr hne)⟩
  · rw [State.me_stepEnd, ← hpc]; rfl
  · rw [State.me_stepEnd]; rfl

end

/-! ## The forms -/

/-- What a vector instruction does where its step runs. -/
def RunsOneStep (s : State) (i : Instr) (op : VOp) (regs : List (BitVec 7)) : Prop :=
  Settled s regs → StepRuns s op regs (op.shape (s.me.oxr 6)).n →
    ∃ t, exec i s = .next t ∧ StepDone s t op regs (op.shape (s.me.oxr 6)).n ∧ StepKeeps s t ∧ t.me.pc = s.me.pc + 4 ∧ t.me.wait = .none ∧
      ∀ r, s.me.regOk r.toNat = true → r ∉ regs → t.rx r = s.rx r

theorem runsOneStep {s : State} {i : Instr} {v : VInstr} {op : VOp} {regs : List (BitVec 7)} (hv : vecOf i = some v) (hop : v.op = op)
    (hregs : v.regs = regs) (hi : exec i s = .next (s.vector v)) : RunsOneStep s i op regs := by
  subst hop hregs
  intro hs hr
  have ⟨⟨_, hnd, _⟩, _⟩ := hr
  exact ⟨_, hi.trans (congrArg Host.Outcome.next (vector_of_runs (vecOf_ordered hv) hs hr)), vectorDone_runs (vecOf_ordered hv) hs hnd⟩

/-- Each elementwise form is the vector instruction of its operation and pointers. -/
theorem elementwise_runs (s : State) (d a b : BitVec 7) (st : BitVec 2) :
    ∀ f ∈ elementwise d a b st, RunsOneStep s f.1 f.2.1 f.2.2 ∧ f.2.1.isElementwise = true := by
  simp only [elementwise, List.forall_mem_cons]
  refine ⟨?_, ?_, ?_, ?_, ?_, ?_, ?_, ?_, ?_, ?_, ?_, ?_, List.forall_mem_nil _⟩
  all_goals exact ⟨runsOneStep rfl rfl rfl rfl, rfl⟩

theorem elementwiseVectorSteps : ElementwiseVectorSteps := by
  intro s d a b st f hf w sh hs hr
  obtain ⟨hruns, hop⟩ := elementwise_runs s d a b st f hf
  obtain ⟨t, hx, hdone, hkeeps, hpc, hwait, hregs⟩ := hruns hs hr
  exact ⟨t, hx, hdone, hkeeps, hpc, hwait, hregs, hdone.elements hop⟩

theorem blockwiseVectorSteps : BlockwiseVectorSteps := by
  intro s d a b st
  change ∀ f ∈ blockwise d a b st, RunsOneStep s f.1 f.2.1 f.2.2
  simp only [blockwise, List.forall_mem_cons]
  exact ⟨runsOneStep rfl rfl rfl rfl, runsOneStep rfl rfl rfl rfl, runsOneStep rfl rfl rfl rfl, List.forall_mem_nil _⟩

/-- Settles O16: a step that runs advances the pointers of its form, and an elementwise one leaves each result at its place. -/
theorem vectorSteps : Obligations.VectorSteps := ⟨elementwiseVectorSteps, blockwiseVectorSteps⟩

end Sys2Proof.Claims
end

section
/-! Operand-extension and twin window registers (10 R189, R209; 06 R116), and the timeline's wait and read (10 R192, R200, R201). -/

namespace Sys2Proof.Machine

/-! ## Entries of a table, found by their key -/

theorem find?_tset_same {α : Type} (t : Table α) (k : Nat) (v : α) : (tset t k v).find? (fun e => e.1 == k) = some (k, v) := by
  induction t with
  | nil => simp [tset]
  | cons e r ih =>
    obtain ⟨i, w⟩ := e
    by_cases h : i = k <;> simp [tset, h, ih]

theorem State.pair_setPair_other (s : State) {p k : Nat} (v : Pair) (h : k ≠ p) : (s.setPair p v).pair k = s.pair k :=
  tget_tset_other _ _ _ h

/-! ## Windows (06 R116) -/

section
variable (s : State) (k : BitVec 2) (v : Word)

theorem State.pair_setWindow : (s.setWindow k v).pair (pairOf s.coreId) =
    { s.pair (pairOf s.coreId) with
      w := tset (s.pair (pairOf s.coreId)).w (s.cur % 16) ((s.windows s.cur).set k.toNat v k.isLt)
      wOld := tset (s.pair (pairOf s.coreId)).wOld (s.cur % 16) (s.now, s.windowsAtStart s.cur) } :=
  s.pair_setPair _ _

theorem State.pair_setWindow_other {p : Nat} (h : p ≠ pairOf s.coreId) : (s.setWindow k v).pair p = s.pair p :=
  s.pair_setPair_other _ h

theorem State.windows_setWindow_same : (s.setWindow k v).windows s.cur = (s.windows s.cur).set k.toNat v k.isLt := by
  rw [State.windows, show pairOf (s.cur / 16) = pairOf s.coreId from rfl, s.pair_setWindow, tget_tset_same]

/-- A write of a window reaches no other slot's windows than the issuing slot's and its twin's. -/
theorem State.windows_setWindow_other {id : Nat} (h : pairOf (id / 16) ≠ pairOf s.coreId ∨ id % 16 ≠ s.cur % 16) :
    (s.setWindow k v).windows id = s.windows id := by
  unfold State.windows
  by_cases hp : pairOf (id / 16) = pairOf s.coreId
  · rw [hp, s.pair_setWindow]
    exact tget_tset_other _ _ _ (h.resolve_left (absurd hp))
  · rw [s.pair_setWindow_other k v hp]

/-- A write keeps what the cycle found in the windows (06 R116). -/
theorem State.windowsAtStart_setWindow : (s.setWindow k v).windowsAtStart s.cur = s.windowsAtStart s.cur := by
  conv_lhs => unfold State.windowsAtStart
  rw [show pairOf (s.cur / 16) = pairOf s.coreId from rfl, s.pair_setWindow]
  simp only [find?_tset_same]
  exact if_pos rfl

end
end Sys2Proof.Machine

namespace Sys2Proof.Claims

open Sys2Proof.Machine

/-! ## Operand-extension registers (10 R189) -/

/-- What OXL and OXLI leave. -/
theorem goesOn_wox (s : State) (k : BitVec 3) (v : Word) (st : BitVec 2) :
    let t := (s.setMe (s.me.wox k v)).retire 4 st
    t.me.ox = s.me.ox.set k.toNat v k.isLt ∧ GoesOn s t (s.me.pc + 4) st ∧ KeepsRegs s t ∧ KeepsStrand (s.setMe { s.me with ox := t.me.ox }) t ∧
      OnlyMe s t := by
  refine ⟨?_, ?_, ?_, ?_, (OnlyMe.setMe s _).trans (OnlyMe.retire _ 4 st)⟩
  · simp [Slot.wox]
  · simp [GoesOn, Slot.wox, State.base]
  · simp [KeepsRegs, Slot.wox]
  · simp [KeepsStrand, Slot.wox, Slot.advance]

/-- Settles O18: OXL and OXLI are one write of an operand-extension register, and OXR one fixed-latency result. -/
theorem operandExtensionRegisters : Obligations.OperandExtensionRegisters := by
  intro s d a k i st
  have hl : latInt ≤ 16 * (1 + st.toNat) := by have := latInt_le; omega
  refine ⟨fun h => ?_, ?_, fun h => ?_⟩
  · exact ⟨_, congrArg Host.Outcome.next (h.guarded _), goesOn_wox s k (s.rx a) st⟩
  · exact ⟨_, congrArg Host.Outcome.next ((settled_nil s).guarded _), goesOn_wox s k (i.setWidth 64) st⟩
  · obtain ⟨hw, hg, hk, ho⟩ := retire_landing (n := 4) (v := s.oxr k) hl (h.regOk List.mem_cons_self)
    exact ⟨_, congrArg Host.Outcome.next (h.guarded _), hw, hg, hk, ho⟩

/-! ## Twin window registers (10 R209; 06 R116) -/

theorem windowAtStart_iff {s : State} {k : BitVec 2} {v : Word} : WindowAtStart s k v ↔ v = s.windowAtStart k := by
  have hp : s.pair (s.coreId % 512) = s.pair (pairOf (s.cur / 16)) := rfl
  unfold WindowAtStart State.windowAtStart State.windowsAtStart
  rw [hp]
  cases (s.pair (pairOf (s.cur / 16))).wOld.find? (fun e => e.1 == s.cur % 16) with
  | none => rfl
  | some e =>
    by_cases he : e.2.1 = s.now
    · simp only [if_pos he]
    · simp only [if_neg he]
      rfl

section
variable {s t u : State} {k : BitVec 2} {v : Word}

theorem onlyWindow_setWindow (s : State) (k : BitVec 2) (v : Word) : OnlyWindow s (s.setWindow k v) k v := by
  have hof : ∀ (u : State) id j, windowOf u id j = (u.windows id)[j.toNat]'j.isLt := fun _ _ _ => rfl
  refine ⟨rfl, fun _ _ => rfl, ?_, fun j hj => ?_, fun id j h => ?_, fun p => ?_, fun j w h => ?_⟩
  · rw [hof, s.windows_setWindow_same]
    exact Vector.getElem_set_self _
  · rw [hof, s.windows_setWindow_same, Vector.getElem_set_ne _ _ fun e => hj (BitVec.eq_of_toNat_eq e.symm)]
    rfl
  · rw [hof, s.windows_setWindow_other k v h]
    rfl
  · by_cases hp : p = pairOf s.coreId
    · subst hp; rw [s.pair_setWindow]
    · rw [s.pair_setWindow_other k v hp]
  · rw [windowAtStart_iff] at h ⊢
    rw [h, State.windowAtStart, State.windowAtStart]
    congr 1
    exact (s.windowsAtStart_setWindow k v).symm

/-- The issuing strand goes on beside a window that it has written. -/
theorem OnlyWindow.onlyMe (h : OnlyWindow s t k v) (h' : OnlyMe t u) : OnlyWindow s u k v := by
  obtain ⟨hf, hsl, hv, hj, hid, hp, hst⟩ := h
  obtain ⟨hf', hsl'⟩ := h'
  have hcur : t.cur = s.cur := by rw [hf]
  have hpair : ∀ p, u.pair p = t.pair p := fun p => by rw [hf']; rfl
  have hof : ∀ id j, windowOf u id j = windowOf t id j := fun id j => by simp only [windowOf, hpair]
  have hws : ∀ j, u.windowAtStart j = t.windowAtStart j := fun j => by rw [hf']; rfl
  refine ⟨?_, fun id h => (hsl' id (hcur ▸ h)).trans (hsl id h), (hof _ _).trans hv, fun j h => (hof _ _).trans (hj j h),
    fun id j h => (hof _ _).trans (hid id j h), fun p => by rw [hpair, ← hp p], fun j w h => ?_⟩
  · rw [hf']; conv_lhs => rw [hf]
  · have := hst j w h
    rw [windowAtStart_iff] at this ⊢
    rw [this, hws]

/-- Settles O19: TWR reads the windows as the cycle found them, and TWW and TWX leave one window changed. -/
theorem twinWindowRegisters : Obligations.TwinWindowRegisters := by
  intro s d a w st
  have hl : latInt ≤ 16 * (1 + st.toNat) := by have := latInt_le; omega
  refine ⟨fun h => ?_, fun h => ?_, fun h => ?_⟩
  · obtain ⟨hw, hg, hk, ho⟩ := retire_landing (n := 4) (v := s.windowAtStart w) hl (h.regOk List.mem_cons_self)
    exact ⟨_, _, windowAtStart_iff.mpr rfl, congrArg Host.Outcome.next (h.guarded _), hw, hg, hk, ho⟩
  · obtain ⟨hg, hr, hk, ho⟩ := goesOn_retire (st := st) (s.setWindow w (s.rx a)) 4
    exact ⟨_, congrArg Host.Outcome.next (h.guarded _), (onlyWindow_setWindow s w _).onlyMe ho, hr, hg, hk⟩
  · obtain ⟨hw, hg, hk, ho⟩ := retire_landing (s := s.setWindow w (s.rx d)) (n := 4) (v := s.window w) hl (h.regOk List.mem_cons_self)
    exact ⟨_, congrArg Host.Outcome.next (h.guarded _), (onlyWindow_setWindow s w _).onlyMe ho, hw, hg, hk⟩

end

/-! ## The timeline (10 R192, R200, R201) -/

/-- A selector that is in order for TLR is so for a TLW that has waited (10 R199, R200). -/
theorem selectorTrap_waits {s : State} {core gang : Nat} {sel : Word} (waits : Bool) (h : s.selectorTrap core gang sel = none) :
    s.selectorTrap core gang sel waits = none := by
  cases waits with
  | false => exact h
  | true =>
    unfold State.selectorTrap at *
    dsimp only at *
    by_cases hk : 4 ≤ bits sel 0 4
    · rw [if_pos hk] at h; cases h
    rw [if_neg hk] at h ⊢
    generalize bits sel 0 4 = kind at h
    match kind with
    | 0 => rfl
    | 1 =>
      rw [Bool.or_true, Bool.and_true]
      by_cases hok : ((s.slot (core * 16 + bits sel 4 4)).live && ((s.slot (core * 16 + bits sel 4 4)).streamCounter gang).isSome) = true
      · exact if_pos hok
      · rw [Bool.not_eq_true] at hok
        rw [hok, Bool.false_and] at h
        cases h
    | 2 => exact h
    | _ + 3 => exact h

/-- What an instruction that writes one register and goes on leaves. -/
theorem goesOn_wx {s : State} {d : BitVec 7} (v : Word) (hd : s.me.regOk d.toNat = true) (st : BitVec 2) :
    let t := (s.wx d v).retire 4 st
    Writes s t d v ∧ GoesOn s t (s.me.pc + 4) st ∧ KeepsStrand s t ∧ OnlyMe s t := by
  obtain ⟨hw, hg, hk, -, -⟩ := retire_writes_after_engines (show EnginesOnly s s from rfl) v hd 4 st
  exact ⟨hw, hg, hk, (OnlyMe.setMe s _).trans (OnlyMe.retire _ 4 st)⟩

theorem writePointer_eq (s : State) (core gang ch : Nat) :
    s.writePointer core gang ch = (((s.core core).copies.filter fun k => k.gang == gang && k.ch == ch && k.kind != .cpyW &&
      k.state != .followOnPending).head?.map fun k => BitVec.ofNat 64 k.wp).getD 0xFFFFFFFFFFFFFFFF := by
  rw [List.head?_filter, State.writePointer]
  split
  · next h => rw [h]; rfl
  · next h => rw [h]; rfl

/-- Settles O20: with its selector in order TLW compares the counter with x[B], and TLR reads one word. -/
theorem timelineWaitsAndReads : Obligations.TimelineWaitsAndReads := by
  intro s d a b st sel hsel
  refine ⟨fun h h8 => ?_, fun h h8 => ?_⟩
  · have hx : exec (.tlw a b st) s = .next (if (s.rx b).toNat ≤ s.counter s.coreId s.me.gang sel then (s.acquire s.coreId).retire 4 st
        else s.block (.timeline sel (s.rx b).toNat)) := by
      refine congrArg Host.Outcome.next ((h.guarded _).trans ?_)
      rw [if_neg (by simpa [bitAt] using h8), selectorTrap_waits _ hsel]
    refine ⟨fun hle => ?_, fun hlt => ?_⟩
    · have ha := acquire_aside s s.coreId
      obtain ⟨hg, hr, hk⟩ := retire_after ha 4 st
      rw [if_pos hle] at hx
      refine ⟨_, hx, hg, hr, hk, (acquire_keepsStore s _).memory, fun id hid => ?_, ha.cores⟩
      exact ((OnlyMe.retire (s.acquire s.coreId) 4 st).2 id (by rwa [ha.cur])).trans (ha.slot id)
    · rw [if_neg (Nat.not_le.mpr hlt)] at hx
      exact ⟨_, hx, by simp [State.block], by simp [State.block], by simp [KeepsRegs, State.block], OnlyMe.setMe s _⟩
  · have h0 : (bitAt sel 8 && bits sel 0 4 != 0) = false := by
      cases hb : sel.getLsbD 8 with
      | false => rw [bitAt, hb]; rfl
      | true => rw [h8 hb]; exact Bool.and_false _
    have hx : exec (.tlr d a st) s = .next ((s.wx d (if bitAt sel 8 then s.writePointer s.coreId s.me.gang (bits sel 4 2)
        else BitVec.ofNat 64 (s.counter s.coreId s.me.gang sel))).retire 4 st) := by
      refine congrArg Host.Outcome.next ((h.guarded _).trans ?_)
      rw [if_neg (Bool.eq_false_iff.mp h0), hsel]
    rw [writePointer_eq] at hx
    obtain ⟨hw, hg, hk, ho⟩ := goesOn_wx _ (h.regOk List.mem_cons_self) st
    exact ⟨_, hx, hg, hk, ho, hw⟩

end Sys2Proof.Claims
end

section
/-! Copies as they are issued (10 R193 to R196, R198): the command that joins its channel, the follow-on's place in the stream, and the registers
that CPY.W hands to the engine and takes back. -/

namespace Sys2Proof.Machine

/-! ## A command joins its channel (12 R224) -/

/-- The command that a copy instruction appends: what its issue captures (10 R193). -/
def State.copyCommand (s : State) (kind : CopyKind) (d a b : BitVec 7) (fo : Bool) : CopyCmd :=
  let ch := bits (s.rx d) 0 2
  { entry := (s.core s.coreId).copyEntry ch, gang := s.me.gang, slot := s.cur % 16, ch := ch, kind := kind, src := s.rx a, dst := s.rx b,
    ox0 := s.oxr 0, ox2 := s.oxr 2, ox1 := if kind = .cpyV then s.oxr 1 else 0,
    fo := if fo then some [s.oxr 3, s.oxr 4, s.oxr 5, s.oxr 7] else none, fac := bits (s.rx d) 3 3,
    num := tget s.myGang.chIssued (chKey s.coreId ch) 0 + 1, mxNum := if fo then s.me.mxNext else 0, tmask := bits (s.rx d) 8 8,
    after := s.me.unacked }

/-- A numbered command is in its channel, and its gang has issued that number (10 R193). -/
def State.numbered (s : State) (x : CopyCmd) : State :=
  (s.setCore s.coreId ((s.core s.coreId).chain x)).setGang s.me.gang
    { s.myGang with chIssued := tset s.myGang.chIssued (chKey s.coreId x.ch) x.num }

/-- A follow-on has its place and number in its stream (10 R198). -/
def State.reserved (s : State) (o : MxOp) : State :=
  let u := s.setEng s.coreId { s.eng s.coreId with ops := (s.eng s.coreId).ops ++ [{ o with num := s.me.mxNext, stage := .notReady }] }
  u.setMe { u.me with mxNext := u.me.mxNext + 1 }

theorem State.core_numbered (s : State) (x : CopyCmd) : (s.numbered x).core s.coreId = (s.core s.coreId).chain x := s.core_setCore _ _

theorem State.gang_numbered (s : State) (x : CopyCmd) :
    (s.numbered x).gang s.me.gang = { s.myGang with chIssued := tset s.myGang.chIssued (chKey s.coreId x.ch) x.num } := State.gang_setGang _ _ _

theorem State.me_reserved (s : State) (o : MxOp) : (s.reserved o).me = { s.me with mxNext := s.me.mxNext + 1 } := State.me_setMe _ _

theorem State.gang_reserved (s : State) (o : MxOp) (g : Nat) : (s.reserved o).gang g = s.gang g := rfl

theorem State.slot_reserved_other (s : State) (o : MxOp) {id : Nat} (h : id ≠ s.cur) : (s.reserved o).slot id = s.slot id :=
  State.slot_setSlot_other _ (id := s.cur) _ h

theorem State.copies_reserved (s : State) (o : MxOp) : ((s.reserved o).core s.coreId).copies = (s.core s.coreId).copies := by
  simp [State.reserved, State.setEng]

theorem State.ops_reserved (s : State) (o : MxOp) :
    ((s.reserved o).core s.coreId).eng.ops = (s.core s.coreId).eng.ops ++ [{ o with num := s.me.mxNext, stage := .notReady }] :=
  congrArg (fun k => k.eng.ops) (s.core_setCore _ _)

section
variable (s : State) (kind : CopyKind) (d a b : BitVec 7) (st : BitVec 2)

theorem State.appendCopy_none : s.appendCopy kind d a b st none =
    (((s.numbered (s.copyCommand kind d a b false)).wx d (BitVec.ofNat 64 (s.copyCommand kind d a b false).num)).retire 4 st).soon
      (.copyCommandStart s.coreId (bits (s.rx d) 0 2)) := rfl

theorem State.appendCopy_some (o : MxOp) : s.appendCopy kind d a b st (some o) =
    ((((s.numbered (s.copyCommand kind d a b true)).reserved o).wx d (BitVec.ofNat 64 (s.copyCommand kind d a b true).num)).retire 4 st).soon
      (.copyCommandStart s.coreId (bits (s.rx d) 0 2)) := rfl

end

/-! ## Runs of registers -/

theorem Slot.rxs_eq_map (v : Slot) : ∀ n r, v.rxs r n = (List.range n).map fun i => v.rx (BitVec.ofNat 7 (r + i))
  | 0, _ => rfl
  | n + 1, r => by
    rw [Slot.rxs, Slot.rxs_eq_map v n, List.range_succ_eq_map, List.map_cons, List.map_map]
    simp only [Function.comp_def, Nat.succ_eq_add_one, Nat.add_zero, Nat.add_assoc, Nat.add_comm 1]

/-- What a register of the job's bank holds after a run of registers was written. -/
theorem Slot.rx_wxs (r : BitVec 7) : ∀ (ws : List Word) (v : Slot) (q : Nat), v.mode = false → q + ws.length ≤ 128 →
    (v.wxs q ws).rx r = if q ≤ r.toNat ∧ r.toNat < q + ws.length then ws.getD (r.toNat - q) 0 else v.rx r
  | [], v, q, _, _ => (if_neg (by simp only [List.length_nil]; omega)).symm
  | w :: ws, v, q, hm, hl => by
    rw [List.length_cons] at hl
    have hr := r.isLt
    have hq : (BitVec.ofNat 7 q).toNat = q := by rw [BitVec.toNat_ofNat]; omega
    have hx : (v.wx (BitVec.ofNat 7 q) w).rx r = if r.toNat = q then w else v.rx r := by
      simp only [Slot.rx, Slot.wx, hm, Bool.false_eq_true, if_false, Vector.getElem_set, hq, eq_comm]
    rw [Slot.wxs, Slot.rx_wxs r ws _ (q + 1) (by rw [Slot.mode_wx, hm]) (by omega), hx, List.length_cons]
    by_cases h1 : r.toNat = q
    · rw [if_neg (by omega), if_pos h1, if_pos (by omega), h1, Nat.sub_self]; rfl
    by_cases h2 : q + 1 ≤ r.toNat ∧ r.toNat < q + 1 + ws.length
    · rw [if_pos h2, if_pos (by omega), show r.toNat - q = (r.toNat - (q + 1)) + 1 by omega]; rfl
    · rw [if_neg h2, if_neg h1, if_neg (by omega)]

theorem getD_toWords : ∀ n v i, i < n → (toWords v n).getD i 0 = BitVec.ofNat 64 (v / 2 ^ (64 * i))
  | 0, _, _, h => absurd h (Nat.not_lt_zero _)
  | n + 1, v, 0, _ => by rw [toWords, List.getD_cons_zero, Nat.mul_zero, Nat.pow_zero, Nat.div_one]
  | n + 1, v, i + 1, h => by
    rw [toWords, List.getD_cons_succ, getD_toWords n _ i (by omega), Nat.div_div_eq_div_mul, ← Nat.pow_add]
    congr 3
    omega

theorem CopyCmd.toRegs_of_cpyW {x : CopyCmd} (h : x.kind = .cpyW) : x.toRegs = x.ctl.getLsbD 6 := by
  simp [CopyCmd.toRegs, h, bitAt]

end Sys2Proof.Machine

namespace Sys2Proof.Claims

open Sys2Proof.Machine

/-! ## A command at the end of its core's store -/

theorem joins_chain {s t : State} {c : Nat} {x : CopyCmd} (h : (t.core c).copies = ((s.core c).chain x).copies) :
    Joins s t c { x with next := (x.entry + 1) % 16 } := by
  refine ⟨_, h, ?_⟩
  rw [List.map_map]
  refine List.map_congr_left fun y _ => ?_
  dsimp only [Function.comp]
  split <;> rfl

section
variable {s t u : State} {d : BitVec 7} {x : CopyCmd} {e : Ev}

/-- What the strand that issues a copy keeps and gets: its number in x[d], beside the engine's and the gang's own counts. -/
theorem copy_goesOn {m : Nat} (v : Word) (hcur : u.cur = s.cur) (hnow : u.now = s.now) (hm : KeepsMemory s u) (hsl : KeepsSlots s u) (hme : u.me = { s.me with mxNext := m })
    (hd : s.me.regOk d.toNat = true) (st : BitVec 2) (e : Ev) :
    let t := ((u.wx d v).retire 4 st).soon e
    Writes s t d v ∧ GoesOn s t (s.me.pc + 4) st ∧ KeepsSlots s t ∧ KeepsStrand (s.setMe { s.me with mxNext := m }) t ∧ t.me.mxNext = m ∧
      t.myGang = u.gang s.me.gang ∧ (s.now, e) ∈ t.agenda ∧ KeepsMemory s t := by
  obtain ⟨hw, hg, hk, ho⟩ := goesOn_wx v (s := u) (d := d) (by rw [hme]; exact hd) st
  have hbase : u.base = s.base := by rw [State.base, hme, hnow]; rfl
  have hid : u.coreId = s.coreId := congrArg (· / 16) hcur
  refine ⟨?_, ?_, fun id h => ?_, ?_, ?_, ?_, hnow ▸ State.due_soon ((u.wx d v).retire 4 st) e, hm⟩
  · unfold Writes State.rx at *
    rw [hme] at hw
    exact hw
  · unfold GoesOn at *
    rw [hme, hbase, hid] at hg
    exact hg
  · exact (ho.2 id (by rwa [hcur])).trans (hsl id h)
  · unfold KeepsStrand at *
    rw [State.me_setMe, ← hme]
    exact hk
  · rw [State.me_soon, State.me_retire, Slot.mxNext_advance, State.me_wx, Slot.mxNext_wx, hme]
  · rw [State.myGang, State.me_soon, State.me_retire, Slot.gang_advance, State.me_wx, Slot.gang_wx, hme]
    rfl

/-- The command stands at the end of its channel with the number that x[d] gets. -/
theorem appended {kind : CopyKind} {a b : BitVec 7} {fo : Bool} (hc : (t.core s.coreId).copies = ((s.core s.coreId).chain (s.copyCommand kind d a b fo)).copies)
    (hg : t.myGang = { s.myGang with chIssued := tset s.myGang.chIssued (chKey s.coreId (bits (s.rx d) 0 2)) (s.copyCommand kind d a b fo).num })
    (hw : Writes s t d (BitVec.ofNat 64 (s.copyCommand kind d a b fo).num)) (he : (s.now, Ev.copyCommandStart s.coreId (bits (s.rx d) 0 2)) ∈ t.agenda) :
    Appended s t kind d a b fo := by
  refine ⟨_, joins_chain hc, rfl, rfl, rfl, rfl, rfl, rfl, rfl, rfl, fun hk => if_pos hk, rfl, rfl, rfl, rfl, rfl, ?_, hw, ?_, ?_, he⟩
  · cases fo <;> rfl
  · rw [hg]; exact tget_tset_same _ _ _ _
  · rw [hg]

end

/-! ## CPY, CPY.V and CPYM (10 R193 to R195, R198) -/

section
variable {s : State} {i : Instr} {kind : CopyKind} {d a b : BitVec 7} {st : BitVec 2}

theorem copy_plain (h : Settled s [d, a, b]) (hm : kind = .cpyM → bits (s.rx d) 8 8 ≠ 0)
    (hroom : (s.core s.coreId).channelUsed (bits (s.rx d) 0 2) < 16) (hf : (s.rx d).getLsbD 2 = false) :
    s.copy kind d a b st = s.appendCopy kind d a b st none := by
  refine (h.guarded _).trans ?_
  rw [if_neg fun hk => hm hk.1 hk.2, if_neg (show ¬bitAt (s.rx d) 2 = true from Bool.eq_false_iff.mp hf)]
  exact if_pos hroom

theorem copy_with_followOn {o : MxOp} (h : Settled s [d, a, b]) (hm : kind = .cpyM → bits (s.rx d) 8 8 ≠ 0)
    (hroom : (s.core s.coreId).channelUsed (bits (s.rx d) 0 2) < 16) (hf : (s.rx d).getLsbD 2 = true) (ho : s.followOn (s.rx d) = .ok o)
    (hplace : (s.eng s.coreId).places (s.cur % 16) s.me.gang < 8) : s.copy kind d a b st = s.appendCopy kind d a b st (some o) := by
  refine (h.guarded _).trans ?_
  rw [if_neg fun hk => hm hk.1 hk.2, if_pos (show bitAt (s.rx d) 2 = true from hf), ho]
  exact (if_pos hplace).trans (if_pos hroom)

/-- What one of the copy instructions that append a command does. -/
theorem copyIssued (hi : exec i s = .next (s.copy kind d a b st)) (h : Settled s [d, a, b]) (hm : kind = .cpyM → bits (s.rx d) 8 8 ≠ 0)
    (hroom : (s.core s.coreId).channelUsed (bits (s.rx d) 0 2) < 16) :
    ((s.rx d).getLsbD 2 = false →
      ∃ t, exec i s = .next t ∧ Appended s t kind d a b false ∧ GoesOn s t (s.me.pc + 4) st ∧ KeepsStrand s t ∧ KeepsMemory s t ∧
        KeepsSlots s t ∧ (t.core s.coreId).eng = (s.core s.coreId).eng) ∧
    ((s.rx d).getLsbD 2 = true → ∀ o, s.followOn (s.rx d) = .ok o → (s.eng s.coreId).places (s.cur % 16) s.me.gang < 8 →
      ∃ t, exec i s = .next t ∧ Appended s t kind d a b true ∧ GoesOn s t (s.me.pc + 4) st ∧ KeepsMemory s t ∧ KeepsSlots s t ∧
        (t.core s.coreId).eng.ops = (s.core s.coreId).eng.ops ++ [{ o with num := s.me.mxNext, stage := .notReady }] ∧
        t.me.mxNext = s.me.mxNext + 1) := by
  have hd : s.me.regOk d.toNat = true := h.regOk List.mem_cons_self
  refine ⟨fun hf => ?_, fun hf o ho hplace => ?_⟩
  · have hcore := s.core_numbered (s.copyCommand kind d a b false)
    obtain ⟨hw, hg, hsl, hk, -, htg, he, hmem⟩ := copy_goesOn (s := s) (u := s.numbered (s.copyCommand kind d a b false))
      (BitVec.ofNat 64 (s.copyCommand kind d a b false).num) rfl rfl ⟨rfl, rfl⟩ (fun _ _ => rfl) rfl hd st (.copyCommandStart s.coreId (bits (s.rx d) 0 2))
    rw [copy_plain h hm hroom hf, s.appendCopy_none] at hi
    refine ⟨_, hi, appended (congrArg Core.copies hcore) (htg.trans (s.gang_numbered _)) hw he, hg, ?_, hmem, hsl, ?_⟩
    · unfold KeepsStrand at *
      rwa [State.me_setMe] at hk
    · exact (congrArg Core.eng hcore).trans rfl
  · have hcopies := State.copies_reserved (s.numbered (s.copyCommand kind d a b true)) o
    have hops := State.ops_reserved (s.numbered (s.copyCommand kind d a b true)) o
    rw [show (s.numbered (s.copyCommand kind d a b true)).coreId = s.coreId from rfl, s.core_numbered] at hcopies hops
    obtain ⟨hw, hg, hsl, -, hmx, htg, he, hmem⟩ := copy_goesOn (s := s) (u := (s.numbered (s.copyCommand kind d a b true)).reserved o)
      (BitVec.ofNat 64 (s.copyCommand kind d a b true).num) rfl rfl ⟨rfl, rfl⟩ (fun _ hid => State.slot_reserved_other (s.numbered _) o hid)
      (State.me_reserved _ o) hd st (.copyCommandStart s.coreId (bits (s.rx d) 0 2))
    rw [copy_with_followOn h hm hroom hf ho hplace, s.appendCopy_some] at hi
    refine ⟨_, hi, appended hcopies (htg.trans ((State.gang_reserved _ o _).trans (s.gang_numbered _))) hw he, hg, hmem, hsl, hops, hmx⟩

theorem copiesAreIssued : CopiesAreIssued := by
  intro s d a b st
  exact List.forall_mem_cons.mpr ⟨copyIssued rfl, List.forall_mem_cons.mpr ⟨copyIssued rfl, List.forall_mem_cons.mpr ⟨copyIssued rfl,
    List.forall_mem_nil _⟩⟩⟩

end

/-! ## CPY.W (10 R196; 06 R117) -/

/-- The command by which CPY.W hands its registers to the engine. -/
def wordsCommand (s : State) (d a b : BitVec 7) : CopyCmd :=
  let ch := bits (s.rx b) 7 2
  { entry := (s.core s.coreId).copyEntry ch, gang := s.me.gang, slot := s.cur % 16, ch := ch, kind := .cpyW, src := s.rx d, dst := s.rx d,
    ctl := s.rx b, got := if bitAt (s.rx b) 6 then [] else (s.me.rxs a.toNat (bits (s.rx b) 0 6 + 1)).flatMap fun w => toBytes w.toNat 8 }

/-- The state after CPY.W has handed its registers over. -/
def handedOver (s : State) (d a b : BitVec 7) (st : BitVec 2) : State :=
  let u := (s.setCore s.coreId ((s.core s.coreId).chain (wordsCommand s d a b))).leave st
  (u.setMe { u.me with wait := .engine, rep := some (.cpyW d a b st, a) }).soon (.copyCommandStart s.coreId (bits (s.rx b) 7 2))

theorem Settled.append {s : State} {l l' : List (BitVec 7)} (h : Settled s l) (h' : Settled s l') : Settled s (l ++ l') := by
  obtain ⟨hb, he⟩ := h
  obtain ⟨hb', he'⟩ := h'
  unfold Settled Slot.badReg Slot.earlyReg at *
  rw [List.find?_append, List.find?_append, hb, hb']
  refine ⟨rfl, ?_⟩
  split at he
  · next hc =>
    rw [if_pos hc] at he' ⊢
    rw [he, he']; rfl
  · next hc => rw [if_neg hc]

theorem exec_cpyW {s : State} {d a b : BitVec 7} {st : BitVec 2} (h : Settled s [d, a, b]) (hr : s.me.runBad a (bits (s.rx b) 0 6 + 1) = none)
    (hrun : Settled s (regRun a (bits (s.rx b) 0 6 + 1))) (halign : (s.rx d).toNat % 8 = 0) (hack : s.me.unacked = [])
    (hroom : (s.core s.coreId).channelUsed (bits (s.rx b) 7 2) < 16) : exec (.cpyW d a b st) s = .next (handedOver s d a b st) := by
  change execCpyW d a b st s = _
  unfold execCpyW
  dsimp only
  rw [h.1, hr]
  dsimp only
  rw [((h.mono (regs' := [d, b]) (by simp)).append hrun).guarded, if_neg (by simpa using halign), released_of_acked _ hack, if_pos hroom]
  rfl

theorem cpyW_handsOver {s : State} (d a b : BitVec 7) (st : BitVec 2) :
    let n := bits (s.rx b) 0 6 + 1
    let x : CopyCmd := { wordsCommand s d a b with next := ((wordsCommand s d a b).entry + 1) % 16 }
    let t := handedOver s d a b st
    Joins s t s.coreId x ∧
      ((s.rx b).getLsbD 6 = false → x.got = (List.range n).flatMap fun i => toBytes (s.rx (BitVec.ofNat 7 (a.toNat + i))).toNat 8) ∧
      ((s.rx b).getLsbD 6 = true → x.got = []) := by
  refine ⟨joins_chain (congrArg Core.copies (s.core_setCore _ _)), fun h => ?_, fun h => if_pos h⟩
  refine (if_neg (Bool.eq_false_iff.mp h)).trans ?_
  rw [Slot.rxs_eq_map, List.flatMap_map]
  rfl

/-- The registers return to their strand with what the move has read. -/
theorem cpyWReturn_eq {s : State} {id : Nat} {x : CopyCmd} (a : BitVec 7)
    (hx : (s.core (id / 16)).copies.find? (fun y => y.kind == .cpyW && y.slot == id % 16 && y.state == .followOnPending) = some x) :
    s.cpyWReturn id a = (s.setCore (id / 16) { s.core (id / 16) with copies := (s.core (id / 16)).copies.filter (· != x) }).setSlot id
      { (if x.ctl.getLsbD 6 then (s.slot id).wxs a.toNat (toWords (ofBytes x.got) (bits x.ctl 0 6 + 1)) else s.slot id) with
        pc := (s.slot id).pc + 4, wait := .none, rep := none } := by
  have hk : x.kind = .cpyW := by have := List.find?_some hx; simp_all
  unfold State.cpyWReturn
  dsimp only
  rw [hx]
  dsimp only
  rw [CopyCmd.toRegs_of_cpyW hk]
  rfl

theorem registerCopies : RegisterCopies := by
  intro s d a b st n ch
  refine ⟨fun h hr hrun halign hack hroom => ?_, fun id x => ?_⟩
  · obtain ⟨hj, hgot, hgot'⟩ := cpyW_handsOver (s := s) d a b st
    refine ⟨_, exec_cpyW h hr hrun halign hack hroom, ?_, ?_, ?_, ?_, ⟨rfl, rfl⟩, fun id hid => ?_, rfl, State.due_soon _ _,
      _, hj, rfl, rfl, rfl, rfl, rfl, rfl, rfl, rfl, rfl, hgot, hgot'⟩
    · simp [handedOver]
    · simp [handedOver]
    · simp [handedOver, State.leave]
    · simp [handedOver, State.leave, KeepsRegs]
    · exact (State.slot_setSlot_other _ (id := s.cur) _ hid).trans (State.slot_setSlot_other _ (id := s.cur) _ hid)
  · intro u m hev hwait hrep hmode hm hx
    have hexec : exec .engineReturn s = .next (s.cpyWReturn id a) := by
      change execEngineReturn s = _
      unfold execEngineReturn
      rw [hev]
      dsimp only
      rw [show (s.slot id).wait = _ from hwait, show (s.slot id).rep = _ from hrep]
    rw [cpyWReturn_eq a hx] at hexec
    refine ⟨_, hexec, ?_, ?_, ⟨rfl, rfl⟩, fun k hk => State.slot_setSlot_other _ _ hk, congrArg Core.copies (s.core_setCore _ _), fun r => ?_⟩
    · rw [State.slot_setSlot]
    · rw [State.slot_setSlot]; rfl
    · rw [State.slot_setSlot]
      change Slot.rx (if x.ctl.getLsbD 6 = true then _ else _) r = _
      cases hdir : x.ctl.getLsbD 6 with
      | false => rfl
      | true =>
        rw [if_pos rfl, Slot.rx_wxs r _ (s.slot id) _ hmode (by rw [length_toWords]; exact hm), length_toWords]
        by_cases hin : a.toNat ≤ r.toNat ∧ r.toNat < a.toNat + m
        · rw [if_pos hin, if_pos ⟨rfl, hin⟩, getD_toWords _ _ _ (by omega)]
        · rw [if_neg hin, if_neg fun hc => hin hc.2]
          rfl

/-- Settles O21: a copy is one command at the end of its channel's chain, and CPY.W's registers come back by the step that ends its move. -/
theorem copyInstructions : Obligations.CopyInstructions := ⟨copiesAreIssued, registerCopies⟩

end Sys2Proof.Claims
end

section
/-! A copy channel at work (12 R222, R224, R225; 06 R119): the banks its accesses hold, the commands of its core's store, and the steps of one that
reads and writes its own core's local memory. -/

namespace Sys2Proof.Machine

/-! ## A requester's cycles at a core's banks (06 R119) -/

/-- A requester holds a cycle at or after a given one. -/
def HoldsFrom (owner n : Nat) (l : List Claim) : Prop := ∃ q ∈ l, q.owner = owner ∧ n ≤ q.cycle

theorem HoldsFrom.cons {owner n : Nat} {l : List Claim} {c : Claim} (h : (c.owner = owner ∧ n ≤ c.cycle) ∨ HoldsFrom owner n l) : HoldsFrom owner n (c :: l) := by
  rcases h with h | ⟨q, hq, h⟩
  · exact ⟨c, List.mem_cons_self, h⟩
  · exact ⟨q, List.mem_cons_of_mem _ hq, h⟩

/-- A claim put in another's cycle moves the other on, so that neither's requester loses its place. -/
theorem holdsFrom_placeClaim {owner n : Nat} : ∀ (fuel : Nat) (l : List Claim) (c : Claim), ((c.owner = owner ∧ n ≤ c.cycle) ∨ HoldsFrom owner n l) →
    HoldsFrom owner n (placeClaim l c fuel)
  | 0, _, _, h => HoldsFrom.cons h
  | fuel + 1, l, c, h => by
    have moved : ∀ x y : Claim, y.owner = x.owner → y.cycle = x.cycle + 1 →
        HoldsFrom owner n (placeClaim (c :: l.filter (· != x)) y fuel) := by
      intro x y ho hc
      refine holdsFrom_placeClaim fuel _ _ ?_
      rcases h with h | ⟨q, hq, hqo, hqn⟩
      · exact .inr (HoldsFrom.cons (.inl h))
      by_cases hqx : q = x
      · exact .inl ⟨by rw [ho, ← hqx, hqo], by rw [hc, ← hqx]; omega⟩
      · exact .inr ⟨q, List.mem_cons_of_mem _ (List.mem_filter.mpr ⟨hq, by simpa using hqx⟩), hqo, hqn⟩
    have back : ∀ y : Claim, y.owner = c.owner → y.cycle = c.cycle + 1 → HoldsFrom owner n (placeClaim l y fuel) := by
      intro y ho hc
      refine holdsFrom_placeClaim fuel _ _ ?_
      rcases h with ⟨hco, hcn⟩ | h
      · exact .inl ⟨ho.trans hco, by omega⟩
      · exact .inr h
    unfold placeClaim
    split
    · exact HoldsFrom.cons h
    split
    · split
      · exact moved _ _ rfl rfl
      · exact back _ rfl rfl
    · split
      · exact moved _ _ rfl rfl
      · exact back _ rfl rfl

theorem tickLen_pos (c : Nat) : 0 < tickLen c := by
  unfold tickLen
  split <;> omega

theorem lastClaim_of_holdsFrom {k : Core} {owner n : Nat} (h : HoldsFrom owner n k.claims) : ∃ y, k.lastClaim owner = some y ∧ n ≤ y := by
  have go : ∀ (l : List Claim) (m : Option Nat), ((∃ y, m = some y ∧ n ≤ y) ∨ ∃ q ∈ l, n ≤ q.cycle) →
      ∃ y, l.foldl (fun m c => some (max (m.getD 0) c.cycle)) m = some y ∧ n ≤ y := by
    intro l
    induction l with
    | nil => exact fun m h => h.resolve_right (by simp)
    | cons c l ih =>
      intro m h
      refine ih _ ?_
      rcases h with ⟨y, rfl, hy⟩ | ⟨q, hq, hqn⟩
      · exact .inl ⟨_, rfl, le_trans hy (le_max_left _ _)⟩
      rcases List.mem_cons.mp hq with rfl | hq
      · exact .inl ⟨_, rfl, le_trans hqn (le_max_right _ _)⟩
      · exact .inr ⟨q, hq, hqn⟩
  obtain ⟨q, hq, ho, hn⟩ := h
  exact go _ _ (.inr ⟨q, List.mem_filter.mpr ⟨hq, by simpa using ho⟩, hn⟩)

/-- The first cycle that begins at or after now ends after now. -/
theorem State.now_lt_cycleTick (s : State) (c : Nat) {y : Nat} (h : s.cycleFrom c ≤ y) : s.now < s.cycleTick c (y + 1) := by
  have hpos := tickLen_pos c
  have hdiv := Nat.lt_mul_div_succ (s.now - s.startOf c + (tickLen c - 1)) hpos
  have hle : tickLen c * (s.cycleFrom c + 1) ≤ (y + 1) * tickLen c := by
    rw [Nat.mul_comm]; exact Nat.mul_le_mul_right _ (by omega)
  unfold State.cycleTick
  unfold State.cycleFrom at hle
  omega

theorem State.cycleOf_le_cycleFrom (s : State) (c : Nat) : s.cycleOf c ≤ s.cycleFrom c := Nat.div_le_div_right (Nat.le_add_right _ _)

theorem State.cycleFrom_claim (s : State) (k c : Nat) (cl : Claim) : (s.claim k cl).cycleFrom c = s.cycleFrom c := rfl

theorem State.holdsFrom_claim (s : State) (core : Nat) (c : Claim) {owner : Nat}
    (h : (c.owner = owner ∧ s.cycleFrom core ≤ c.cycle) ∨ HoldsFrom owner (s.cycleFrom core) (s.core core).claims) :
    HoldsFrom owner ((s.claim core c).cycleFrom core) ((s.claim core c).core core).claims := by
  rw [State.cycleFrom_claim, State.claim, State.core_setCore]
  refine holdsFrom_placeClaim _ _ _ (h.imp_right fun ⟨q, hq, ho, hn⟩ => ⟨q, List.mem_filter.mpr ⟨hq, ?_⟩, ho, hn⟩)
  have := s.cycleOf_le_cycleFrom core
  simp only [decide_eq_true_eq]
  omega

/-- A requester that holds a cycle from the present one on has its access performed at a tick that lies ahead. -/
theorem State.claimEnds_of_holdsFrom {s : State} {core owner : Nat} (h : HoldsFrom owner (s.cycleFrom core) (s.core core).claims) :
    ∃ t, s.claimEnds core owner = some t := by
  obtain ⟨y, hy, hn⟩ := lastClaim_of_holdsFrom h
  refine ⟨s.cycleTick core (y + 1), ?_⟩
  rw [State.claimEnds, hy]
  exact if_pos (s.now_lt_cycleTick core hn)

theorem State.copies_claim (s : State) (core k : Nat) (c : Claim) : ((s.claim core c).core k).copies = (s.core k).copies := by
  unfold State.claim
  dsimp only
  by_cases h : k = core
  · subst h; rw [State.core_setCore]
  · rw [State.core_setCore_other _ _ h]

theorem State.claim_enginesOnly (s : State) (core : Nat) (c : Claim) : EnginesOnly s (s.claim core c) := rfl

/-! ## The commands of a core's store -/

theorem State.core_setCopy (s : State) (c : Nat) (x y : CopyCmd) : (s.setCopy c x y).core c = (s.core c).setCopy x y := s.core_setCore _ _

theorem State.setCopy_enginesOnly (s : State) (c : Nat) (x y : CopyCmd) : EnginesOnly s (s.setCopy c x y) := rfl

/-- A command of a store that has changed stands there as it has changed. -/
theorem State.mem_setCopy_copies {s : State} {c : Nat} {x : CopyCmd} (y : CopyCmd) (h : x ∈ (s.core c).copies) : y ∈ ((s.setCopy c x y).core c).copies := by
  rw [s.core_setCopy]
  exact List.mem_map.mpr ⟨x, h, if_pos rfl⟩

theorem Core.channelHead_mem {k : Core} {ch : Nat} {x : CopyCmd} (h : k.channelHead ch = some x) : x ∈ k.copies := List.mem_of_find?_eq_some h

theorem State.copies_setEng (s : State) (c k : Nat) (e : Engine) : ((s.setEng c e).core k).copies = (s.core k).copies := by
  unfold State.setEng
  by_cases h : k = c
  · subst h; rw [State.core_setCore]
  · rw [State.core_setCore_other _ _ h]

theorem State.copies_restartIdle (s : State) (c k : Nat) : ((s.restartIdle c).core k).copies = (s.core k).copies := by
  unfold State.restartIdle
  split
  · exact s.copies_setEng c k _
  · rfl

theorem State.copies_wakeEngine (s : State) (c k : Nat) : ((s.wakeEngine c).core k).copies = (s.core k).copies := by
  unfold State.wakeEngine
  split
  · split <;> exact s.copies_setEng c k _
  · rfl
  · rfl
  · exact s.copies_restartIdle c k

theorem EnginesOnly.setCore (s : State) (c : Nat) (k : Core) : EnginesOnly s (s.setCore c k) := rfl
theorem EnginesOnly.schedule (s : State) (t : Nat) (e : Ev) : EnginesOnly s (s.schedule t e) := rfl

/-! ## Follow-ons that issue (10 R198; 12 R226) -/

/-- Follow-ons have issued: of a core's store only complete commands are gone, none of them a CPY.W, and beside it only engines changed. -/
structure FollowOnsIssued (s t : State) (c : Nat) : Prop where
  frame : EnginesOnly s t
  copies : ∃ l : List CopyCmd, (t.core c).copies = (s.core c).copies.filter (fun y => !l.contains y) ∧
    ∀ y ∈ l, y.state = .followOnPending ∧ y.kind ≠ .cpyW

theorem FollowOnsIssued.refl (s : State) (c : Nat) : FollowOnsIssued s s c :=
  ⟨rfl, [], by simp, by simp⟩

theorem FollowOnsIssued.trans {s t u : State} {c : Nat} (h : FollowOnsIssued s t c) (h' : FollowOnsIssued t u c) : FollowOnsIssued s u c := by
  obtain ⟨hf, l, hl, hd⟩ := h
  obtain ⟨hf', l', hl', hd'⟩ := h'
  refine ⟨hf.trans hf', l ++ l', ?_, fun y hy => (List.mem_append.mp hy).elim (hd y) (hd' y)⟩
  rw [hl', hl, List.filter_filter]
  refine List.filter_congr fun y _ => ?_
  rw [Bool.eq_iff_iff]
  simp only [Bool.and_eq_true, Bool.not_eq_true', List.contains_eq_mem, decide_eq_false_iff_not, List.mem_append, not_or, and_comm]

theorem State.issueFollowOn_issued (s : State) (c : Nat) {x : CopyCmd} (hs : x.state = .followOnPending) (hk : x.kind ≠ .cpyW) :
    FollowOnsIssued s (s.issueFollowOn c x) c := by
  have hrm : ((s.setCore c { s.core c with copies := (s.core c).copies.filter (· != x) }).core c).copies =
      (s.core c).copies.filter (fun y => !([x] : List CopyCmd).contains y) := by
    rw [State.core_setCore]
    refine List.filter_congr fun y _ => ?_
    rw [List.contains_cons, List.contains_nil, Bool.or_false]
    rfl
  unfold State.issueFollowOn
  dsimp only
  split
  · exact ⟨rfl, [x], hrm, by simp [hs, hk]⟩
  · refine ⟨(EnginesOnly.setCore s c _).trans ((EnginesOnly.setEng _ c _).trans ((State.wakeEngine_enginesOnly _ c).trans (EnginesOnly.schedule _ _ _))),
      [x], ?_, by simp [hs, hk]⟩
    rw [State.core_soon, State.copies_wakeEngine, State.copies_setEng]
    exact hrm

theorem Core.readyFollowOn_complete {k : Core} {gang : Nat} {x : CopyCmd} (h : k.readyFollowOn gang = some x) : x.state = .followOnPending ∧ x.kind ≠ .cpyW := by
  unfold Core.readyFollowOn at h
  split at h
  · next y hy =>
    split at h
    · next hc =>
      cases h
      have := List.find?_some hy
      exact ⟨hc.1, by rintro hk; simp_all⟩
    · cases h
  · cases h

theorem State.issueFollowOns_issued (c gang : Nat) : ∀ (n : Nat) (s : State), FollowOnsIssued s (s.issueFollowOns c gang n) c
  | 0, s => FollowOnsIssued.refl s c
  | n + 1, s => by
    unfold State.issueFollowOns
    split
    · exact FollowOnsIssued.refl s c
    · next x hx =>
      obtain ⟨hst, hk⟩ := Core.readyFollowOn_complete hx
      exact (s.issueFollowOn_issued c hst hk).trans (State.issueFollowOns_issued c gang n _)

theorem State.foldl_issueFollowOns (c : Nat) : ∀ (l : List Nat) (s : State),
    FollowOnsIssued s (l.foldl (fun (u : State) g => u.issueFollowOns c g 64) s) c
  | [], s => FollowOnsIssued.refl s c
  | g :: l, s => (State.issueFollowOns_issued c g 64 s).trans (State.foldl_issueFollowOns c l _)

theorem FollowOnsIssued.channelHead {s t : State} {c : Nat} (h : FollowOnsIssued s t c) (ch : Nat) : (t.core c).channelHead ch = (s.core c).channelHead ch := by
  obtain ⟨-, l, hl, hd⟩ := h
  rw [Core.channelHead, hl, List.find?_filter]
  refine congrArg (List.find? · _) (funext fun y => ?_)
  rw [Bool.eq_iff_iff]
  by_cases hy : y ∈ l
  · simp [(hd y hy).1]
  · simp [hy]

theorem FollowOnsIssued.mem {s t : State} {c : Nat} {x : CopyCmd} (h : FollowOnsIssued s t c) (hx : x ∈ (s.core c).copies)
    (hs : x.state ≠ .followOnPending ∨ x.kind = .cpyW) : x ∈ (t.core c).copies := by
  obtain ⟨-, l, hl, hd⟩ := h
  rw [hl, List.mem_filter]
  refine ⟨hx, ?_⟩
  have : x ∉ l := fun hm => hs.elim (fun h => h (hd x hm).1) (hd x hm).2
  simpa using this

/-! ## An engine's access to the local memory of its own core (10 R193; 25 R392) -/

theorem Job.ordinary_ownMemory (j : Job) {a : Nat} (h : a < 0x200000) : j.ordinary a = a := by
  unfold Job.ordinary
  rw [if_neg]
  omega

section
variable (s : State) (core job : Nat) {va : Word}

theorem State.translateUnit_ownMemory (acc : Access) (h : va.toNat < 0x180000) : s.translateUnit core job va acc = .ownMem (localBase core + va.toNat) := by
  simp [State.translateUnit, State.translateBy, Job.ordinary_ownMemory (s.job job) (show va.toNat < 0x200000 by omega), h]

theorem State.fillUnit_ownMemory (h : va.toNat < 0x180000) : s.fillUnit core job va = s := by
  unfold State.fillUnit
  dsimp only
  rw [Job.ordinary_ownMemory (s.job job) (show va.toNat < 0x200000 by omega)]
  exact if_pos (.inl (by omega))

end

theorem windowCore_localBase {c n : Nat} (hc : c < 1024) (hn : n < 0x200000) : windowCore (localBase c + n) = some c := by
  unfold windowCore localBase
  rw [if_pos (by omega)]
  congr 1
  omega

/-! ## The next steps of a command (12 R225) -/

section
variable {s : State} {c : Nat} {x y : CopyCmd}

/-- A command with no chunk to write goes on to read at a tick. -/
theorem State.copyStep_reads (t : Nat) (hk : y.kind ≠ .cpyV) (hr : y.rAt = none) (hn : y.ready = false) :
    s.copyStep c x y (some t) = (s.setCopy c x { y with rAt := some t }).schedule t (.copyChunkReadReply c y.ch) := by
  simp [State.copyStep, hk, hr, hn]

/-- A command that waits for nothing but the write of its next chunk is due to write it. -/
theorem State.copyStep_writes (hk : y.kind ≠ .cpyV) (hr : y.rAt = none) (hn : y.ready = true) (htag : y.wtag = 0) (hw : y.wAt = none) :
    s.copyStep c x y none = (s.setCopy c x { y with wAt := some (max s.now y.due) }).schedule (max s.now y.due) (.copyChunkWrite c y.ch) := by
  simp [State.copyStep, hk, hr, hn, htag, hw]

end
end Sys2Proof.Machine
end

section
/-! What a copy channel reads (10 R193; 12 R225; 06 R119): its first command starts, sends for a part, and takes the part when its bank's cycle has ended. -/

namespace Sys2Proof.Machine

section
variable {s : State} {c : Nat} {x : CopyCmd}

/-! ## Parts sent for -/

theorem State.readAhead_banked (h : x.banked.isSome = true) : ∀ n, s.readAhead c x n = (s, x)
  | 0 => rfl
  | _ + 1 => by rw [State.readAhead, if_pos h]

theorem State.readAhead_all (h : x.nextPiece = none) : ∀ n, s.readAhead c x n = (s, x)
  | 0 => rfl
  | _ + 1 => by rw [State.readAhead, h, ite_self]

theorem State.readAhead_part {u : State} {off n fuel : Nat} {va : Word} {p : CopyPart} (hb : x.banked = none) (hn : x.nextPiece = some (off, va, n))
    (hw : x.kind = .cpyW → x.toRegs = true) (hp : s.readPart c x va n = .part p u) :
    s.readAhead c x (fuel + 1) = u.readAhead c (x.addPart off p) fuel := by
  have hw' : ¬(x.kind = .cpyW ∧ (!x.toRegs) = true) := fun h => by simp [hw h.1] at h
  rw [State.readAhead, hb, hn]
  dsimp only
  rw [if_neg (by simp), if_neg hw', hp]

/-- The claim of a channel's read of its own core's local memory. -/
def readClaim (s : State) (c : Nat) (x : CopyCmd) (va : Word) : Claim :=
  { bank := bankOf (localBase c + va.toNat), cycle := s.cycleFrom c, rank := copyRank c c, owner := ownerCopy c x.ch }

/-- The bank and the port of a core's local memory are taken for a part there. -/
def State.claimRead (s : State) (c : Nat) (x : CopyCmd) (va : Word) : State :=
  (s.claim c (readClaim s c x va)).claim c { readClaim s c x va with bank := portBank }

/-- A part that waits for its bank in its own core's local memory. -/
def ownPart (c : Nat) (va : Word) (n : Nat) : CopyPart := { va := va, n := n, key := localBase c + va.toNat, bank := some c }

theorem State.readPart_ownMemory (x : CopyCmd) {va : Word} (n : Nat) (h : va.toNat < 0x180000) :
    s.readPart c x va n = .part (ownPart c va n) (s.claimRead c x va) := by
  unfold State.readPart
  dsimp only
  rw [s.translateUnit_ownMemory c _ .read h]
  dsimp only [State.timedEnd, Place.bankCore, Place.key]
  rw [s.fillUnit_ownMemory c _ h]
  rfl

theorem State.claimEnds_claimRead (x : CopyCmd) (va : Word) : ∃ t, (s.claimRead c x va).claimEnds c (ownerCopy c x.ch) = some t := by
  have hle : (s.claim c (readClaim s c x va)).cycleFrom c ≤ (readClaim s c x va).cycle := (s.cycleFrom_claim c c _).le
  exact State.claimEnds_of_holdsFrom (State.holdsFrom_claim _ c { readClaim s c x va with bank := portBank } (.inl ⟨rfl, hle⟩))

theorem State.copies_claimRead (x : CopyCmd) (va : Word) (k : Nat) : ((s.claimRead c x va).core k).copies = (s.core k).copies :=
  (State.copies_claim _ _ _ _).trans (State.copies_claim _ _ _ _)

/-! ## Chunks of one part -/

theorem CopyCmd.banked_none (h : x.ahead = []) : x.banked = none := by rw [CopyCmd.banked, h]; rfl

theorem CopyCmd.banked_one {off t : Nat} {p : CopyPart} (h : x.ahead = [{ off := off, parts := [p] }]) (hd : p.data = none) (hb : p.bank = some t) :
    x.banked = some (off, 0, p, t) := by
  simp [CopyCmd.banked, h, hd, hb]

theorem CopyCmd.banked_read {k : CopyChunk} {p : CopyPart} (h : x.ahead = [k]) (hk : k.parts = [p]) (hd : p.data.isSome = true) : x.banked = none := by
  obtain ⟨bs, hbs⟩ := Option.isSome_iff_exists.mp hd
  simp [CopyCmd.banked, h, hk, hbs]

theorem CopyCmd.not_ready {off : Nat} {p : CopyPart} (h : x.ahead = [{ off := off, parts := [p] }]) (hd : p.data = none) : x.ready = false := by
  simp [CopyCmd.ready, h, CopyChunk.bytes, hd]

theorem CopyCmd.not_ready_of_nil (h : x.ahead = []) : x.ready = false := by rw [CopyCmd.ready, h]

theorem CopyCmd.nextPiece_first (h : x.ahead = []) (hw : x.wp < x.total) (hn : 0 < x.chunkLen x.wp) :
    x.nextPiece = some (x.wp, x.srcAt x.wp, min (x.chunkLen x.wp) (64 - (x.srcAt x.wp).toNat % 64)) := by
  have hp : (x.pieces x.wp)[0]? = some (x.srcAt x.wp, min (x.chunkLen x.wp) (64 - (x.srcAt x.wp).toNat % 64)) := by
    rw [CopyCmd.pieces, linePieces, if_neg (by omega)]; rfl
  simp [CopyCmd.nextPiece, h, hw, hp]

theorem CopyCmd.addPart_first (h : x.ahead = []) (p : CopyPart) : x.addPart x.wp p = { x with ahead := [{ off := x.wp, parts := [p] }] } := by
  simp [CopyCmd.addPart, h]

/-- The first part of the chunk at the write pointer, from its own core's local memory. -/
def firstPart (c : Nat) (x : CopyCmd) : CopyPart := ownPart c (x.srcAt x.wp) (min (x.chunkLen x.wp) (64 - (x.srcAt x.wp).toNat % 64))

theorem State.readAhead_first (h : x.ahead = []) (hw : x.wp < x.total) (hdir : x.kind = .cpyW → x.toRegs = true) (hn : 0 < x.chunkLen x.wp)
    (hva : (x.srcAt x.wp).toNat < 0x180000) (n : Nat) :
    s.readAhead c x (n + 1) = (s.claimRead c x (x.srcAt x.wp), { x with ahead := [{ off := x.wp, parts := [firstPart c x] }] }) := by
  rw [State.readAhead_part (CopyCmd.banked_none h) (CopyCmd.nextPiece_first h hw hn) hdir (s.readPart_ownMemory x _ hva), CopyCmd.addPart_first h]
  exact State.readAhead_banked (Option.isSome_of_eq_some (CopyCmd.banked_one (p := firstPart c x) rfl rfl rfl)) n

/-- Nothing is left to send for: the one chunk in hand is the last, in one part. -/
theorem CopyCmd.nextPiece_last {k : CopyChunk} {p : CopyPart} {q : Word × Nat} (h : x.ahead = [k]) (hf : k.fault = none) (hk : k.parts = [p])
    (hp : x.pieces k.off = [q]) (hl : k.off + x.chunkLen k.off = x.total) : x.nextPiece = none := by
  simp [CopyCmd.nextPiece, h, hf, CopyCmd.sent, hk, hp, hl]

theorem CopyCmd.ready_last {k : CopyChunk} {p : CopyPart} {q : Word × Nat} (h : x.ahead = [k]) (hk : k.parts = [p]) (hd : p.data.isSome = true)
    (hp : x.pieces k.off = [q]) : x.ready = true := by
  obtain ⟨bs, hbs⟩ := Option.isSome_iff_exists.mp hd
  simp [CopyCmd.ready, h, CopyCmd.sent, CopyChunk.bytes, hk, hp, hbs]

/-! ## A channel reads on -/

/-- A command that has a part at a bank reads on when the bank's cycle has ended. -/
theorem State.copyReads_sends {u : State} {y : CopyCmd} {b : Nat × Nat × CopyPart × Nat} {t : Nat} (hb : CopyCmd.banked { x with rAt := none } = none)
    (hr : s.readAhead c { x with rAt := none } 128 = (u, y)) (hy : y.banked = some b) (ht : u.claimEnds b.2.2.2 (ownerCopy c x.ch) = some t) :
    s.copyReads c x = u.copyStep c x y (some t) := by
  unfold State.copyReads
  dsimp only
  rw [hb]
  dsimp only
  rw [hr]
  dsimp only
  rw [hy]
  dsimp only
  rw [ht]

/-- A command whose part has its bank's cycle behind it, and nothing more to send for. -/
theorem State.copyReads_takes {y : CopyCmd} {off i t : Nat} {p : CopyPart} {bs : List Byte} (hb : CopyCmd.banked { x with rAt := none } = some (off, i, p, t))
    (hc : s.claimEnds t (ownerCopy c x.ch) = none) (he : s.engineBytes x.gang p.va p.key p.n true = .got bs s)
    (hy : CopyCmd.putPart { x with rAt := none } off i bs = y) (hyb : y.banked = none) (hyn : y.nextPiece = none) :
    s.copyReads c x = s.copyStep c x y none := by
  unfold State.copyReads
  dsimp only
  rw [hb]
  dsimp only
  rw [hc]
  dsimp only
  rw [he]
  dsimp only
  rw [hy, State.readAhead_all hyn]
  dsimp only
  rw [hyb, hyn]

theorem State.engineBytes_sound (gang : Nat) (va : Word) (pa n : Nat) (l : Bool) (h : s.bad = []) : s.engineBytes gang va pa n l = .got (memBytes s.mem pa n) s := by
  simp [State.engineBytes, h]

end
end Sys2Proof.Machine

namespace Sys2Proof.Claims

open Sys2Proof.Machine

section
variable {s : State} {c ch : Nat} {x : CopyCmd}

/-! ## The steps of the statement -/

theorem exec_copyCommandStart (hhead : (s.core c).channelHead ch = some x) (hch : x.ch = ch) (hev : s.ev = some (.copyCommandStart c ch)) (hq : x.state = .queued)
    (hk : x.kind ≠ .cpyV) (hw : s.writesBefore c x.slot x.after = false) (ht : x.total ≠ 0) :
    ∃ u, FollowOnsIssued s u c ∧ exec .copyCommandStart s = .next ((u.setCopy c x { x.atRest with state := .running, rAt := some s.now }).schedule s.now
      (.copyChunkReadReply c ch)) := by
  have hu := State.foldl_issueFollowOns c (((s.core c).copies.filter (·.state == .followOnPending)).map (·.gang)) s
  have hx : exec .copyCommandStart s = execCopyCommandStart s := rfl
  unfold execCopyCommandStart at hx
  rw [hev] at hx
  dsimp only at hx
  generalize (((s.core c).copies.filter (·.state == .followOnPending)).map (·.gang)).foldl (fun (u : State) g => u.issueFollowOns c g 64) s = u at hu hx
  have hw' : u.writesBefore c x.slot x.after = false := by
    rw [← hw, State.writesBefore, State.slot, hu.frame.slots]; rfl
  rw [hu.channelHead, hhead] at hx
  dsimp only at hx
  rw [if_neg (by simp [hq]), if_neg (by simp [hw']), if_neg (fun h => hk h.1), if_neg ht,
    State.copyStep_reads (y := { x.atRest with state := .running }) _ hk rfl (CopyCmd.not_ready_of_nil (by simp [CopyCmd.atRest, hk])), hu.frame.now] at hx
  exact ⟨u, hu, by rw [hx, ← hch]; rfl⟩

theorem exec_copyChunkReadReply (hhead : (s.core c).channelHead ch = some x) (hev : s.ev = some (.copyChunkReadReply c ch)) (hr : x.state = .running)
    (hat : x.rAt = some s.now) : exec .copyChunkReadReply s = .next (s.copyReads c x) := by
  change execCopyChunkReadReply s = _
  unfold execCopyChunkReadReply
  rw [hev]
  dsimp only
  rw [hhead]
  exact congrArg Host.Outcome.next (if_pos ⟨hr, hat⟩)

/-- The first part of the chunk at the write pointer takes its bank. -/
theorem copyReads_first (hat : x.ahead = []) (hw : x.wp < x.total) (hdir : x.kind = .cpyW → x.toRegs = true) (hk : x.kind ≠ .cpyV) (hn : 0 < x.chunkLen x.wp)
    (hva : (x.srcAt x.wp).toNat < 0x180000) {at_ : Nat} (hc : (s.claimRead c x (x.srcAt x.wp)).claimEnds c (ownerCopy c x.ch) = some at_) :
    s.copyReads c x = ((s.claimRead c x (x.srcAt x.wp)).setCopy c x { x with
      rAt := some at_, ahead := [{ off := x.wp, parts := [firstPart c x] }] }).schedule at_ (.copyChunkReadReply c x.ch) := by
  have hr := State.readAhead_first (s := s) (c := c) (x := { x with rAt := none }) hat hw hdir hn hva 127
  exact (State.copyReads_sends (CopyCmd.banked_none hat) hr (CopyCmd.banked_one (p := firstPart c x) rfl rfl rfl) hc).trans
    (State.copyStep_reads (y := { x with rAt := none, ahead := [{ off := x.wp, parts := [firstPart c x] }] }) at_ hk rfl (CopyCmd.not_ready rfl rfl))

/-- The part of the command's last chunk has come from its bank: the chunk is due to be written. -/
theorem copyReads_last {p : CopyPart} (hat : x.ahead = [{ off := x.wp, parts := [p] }]) (hb : p.bank = some c) (hd : p.data = none) (hn : p.n = x.chunkLen x.wp)
    (hl : x.wp + p.n = x.total) (htag : x.wtag = 0) (hw : x.wAt = none) (hp : x.pieces x.wp = [(p.va, p.n)]) (hk : x.kind ≠ .cpyV)
    (hc : s.claimEnds c (ownerCopy c x.ch) = none) (hbad : s.bad = []) :
    s.copyReads c x = (s.setCopy c x { x with
      rAt := none, wAt := some (max s.now x.due)
      ahead := [{ off := x.wp, parts := [{ p with data := some (memBytes s.mem p.key p.n) }] }] }).schedule (max s.now x.due) (.copyChunkWrite c x.ch) := by
  let y : CopyCmd := { x with rAt := none, ahead := [{ off := x.wp, parts := [{ p with data := some (memBytes s.mem p.key p.n) }] }] }
  have hput : CopyCmd.putPart { x with rAt := none } x.wp 0 (memBytes s.mem p.key p.n) = y := by
    simp [CopyCmd.putPart, hat, y]
  have hlast : y.nextPiece = none := CopyCmd.nextPiece_last (q := (p.va, p.n)) rfl rfl rfl hp ((congrArg (x.wp + ·) hn.symm).trans hl)
  exact (State.copyReads_takes (CopyCmd.banked_one hat hd hb) hc (State.engineBytes_sound _ _ _ _ _ hbad) hput (CopyCmd.banked_read rfl rfl rfl) hlast).trans
    (State.copyStep_writes (y := y) hk rfl (CopyCmd.ready_last rfl rfl rfl hp) htag hw)

theorem copyCommandsRead : CopyCommandsRead := by
  intro s c ch x hhead hch
  have hmem := Core.channelHead_mem hhead
  subst hch
  refine ⟨fun hev hq hk hw ht => ?_, fun hev hr hat ha hwp hdir hk hn hva => ?_, fun p hev hr hat ha hb hd hn hl _ htag hw hp hk hc hbad => ?_⟩
  · obtain ⟨u, hu, hx⟩ := exec_copyCommandStart hhead rfl hev hq hk hw ht
    refine ⟨_, hx, hu.frame.keepsMemory, hu.frame.slots, ?_, State.due_schedule _ _ _⟩
    have hy : ({ x.atRest with state := .running, rAt := some s.now } : CopyCmd) =
        { x with state := .running, ahead := [], wtag := 0, claimed := false, rAt := some s.now, wAt := none } := by
      simp [CopyCmd.atRest, hk]
    rw [hy]
    exact State.mem_setCopy_copies _ (hu.mem hmem (.inl (by simp [hq])))
  · intro n pa
    obtain ⟨at_, hc⟩ := State.claimEnds_claimRead (s := s) (c := c) x (x.srcAt x.wp)
    refine ⟨_, at_, (exec_copyChunkReadReply hhead hev hr hat).trans (congrArg Host.Outcome.next (copyReads_first ha hwp
      (fun h => (CopyCmd.toRegs_of_cpyW h).trans (hdir h)) hk hn hva hc)), ⟨rfl, rfl⟩, rfl, ?_,
      State.due_schedule _ _ _, State.mem_setCopy_copies _ (by rw [State.copies_claimRead]; exact hmem)⟩
    rw [← hc]
    unfold State.claimEnds
    rw [State.core_schedule, State.core_setCopy]
    rfl
  · exact ⟨_, (exec_copyChunkReadReply hhead hev hr hat).trans (congrArg Host.Outcome.next (copyReads_last ha hb hd hn hl htag hw hp hk hc hbad)), ⟨rfl, rfl⟩, rfl,
      State.due_schedule _ _ _, State.mem_setCopy_copies _ hmem⟩

end
end Sys2Proof.Claims
end

section
/-! What a copy channel writes (10 R193, R196; 12 R222, R225; 06 R119): with the turn it takes the banks of its destination, then its bytes are there and the
write pointer moves on; the words of a CPY.W go to the strand instead. -/

namespace Sys2Proof.Machine

section
variable {s : State} {c : Nat} {x : CopyCmd}

/-! ## Where a chunk is written -/

theorem State.writeChunk_ownMemory {bs : List Byte} (hbs : bs ≠ []) (hm : x.kind ≠ .cpyM) (hr : x.toRegs = false) (hva : (x.dstAt x.wp).toNat < 0x180000)
    (hin : s.inInbox (localBase c + (x.dstAt x.wp).toNat) = false) :
    s.writeChunk c x bs = s.writeLocal c x [localBase c + (x.dstAt x.wp).toNat] bs := by
  unfold State.writeChunk
  dsimp only
  rw [if_neg (by simpa using hbs), if_neg (by simp [hr]), if_neg hm, s.translateUnit_ownMemory c _ .write hva]
  dsimp only
  rw [if_neg (by simp [State.mayWriteFor, hin, State.engineRefusal])]
  dsimp only [State.timedEnd, Place.bankCore, Place.key]
  rw [s.fillUnit_ownMemory c _ hva]

theorem State.writeChunk_toRegs {bs : List Byte} (hbs : bs ≠ []) (hr : x.toRegs = true) :
    s.writeChunk c x bs = (s.setCopy c x { x with got := x.got ++ bs }).chunkDone c { x with got := x.got ++ bs } [] bs.length := by
  unfold State.writeChunk
  dsimp only
  rw [if_neg (by simpa using hbs), if_pos hr]

section
variable (s : State) (core job pa : Nat) (bs : List Byte)

theorem State.mem_enginePut_own : (s.enginePut core job (.ownMem pa) bs).mem = memPut s.mem pa bs := rfl
theorem State.fe_enginePut_own : (s.enginePut core job (.ownMem pa) bs).fe = s.fe := State.fe_markLocal s pa bs.length
theorem State.slots_enginePut_own : (s.enginePut core job (.ownMem pa) bs).slots = s.slots := State.slots_markLocal s pa bs.length
theorem State.now_enginePut_own : (s.enginePut core job (.ownMem pa) bs).now = s.now := State.now_markLocal s pa bs.length
theorem State.core_enginePut_own (k : Nat) : (s.enginePut core job (.ownMem pa) bs).core k = s.core k := State.core_markLocal s pa bs.length k

end

/-- A chunk whose destination's bank is yet to be taken takes it (06 R119). -/
theorem State.writeLocal_claims (pa : Nat) (bs : List Byte) (h : x.claimed = false) : ∃ u, EnginesOnly s u ∧ (∀ k, (u.core k).copies = (s.core k).copies) ∧
    s.writeLocal c x [pa] bs =
      (u.setCopy c x { x with claimed := true, wAt := some (s.now + tickLen c) }).schedule (s.now + tickLen c) (.copyChunkWrite c x.ch) := by
  unfold State.writeLocal State.claimWrite
  rw [h]
  exact ⟨_, State.claim_enginesOnly _ _ _, fun k => State.copies_claim _ _ k _, rfl⟩

/-- A chunk whose bank's cycle has ended is written. -/
theorem State.writeLocal_puts {n : Nat} (bs : List Byte) (h : x.claimed = true) (hc : c < 1024) (hn : n < 0x200000)
    (he : s.claimEnds c (ownerCopy c x.ch + 1) = none) :
    s.writeLocal c x [localBase c + n] bs = (s.enginePut c (s.gang x.gang).job (.ownMem (localBase c + n)) bs).chunkDone c x [localBase c + n] bs.length := by
  unfold State.writeLocal
  rw [h]
  dsimp only [List.filterMap, List.foldl]
  rw [windowCore_localBase hc hn, Option.getD_some, he]
  rw [if_neg (by simp)]
  exact if_neg (Nat.not_lt_zero s.now)

/-! ## The write pointer moves on -/

theorem State.chunkDone_continues {k : CopyChunk} {keys : List Nat} {n : Nat} (ha : x.ahead = [k]) (hf : k.fault = none) (hc : x.claimed = true)
    (hk : x.kind ≠ .cpyV) (hr : x.rAt = none) (hn : x.wp + n ≠ x.total) :
    s.chunkDone c x keys n = (s.setCopy c x { x with
      wp := x.wp + n, ahead := [], wtag := 0, claimed := false, due := s.now, rAt := some s.now, wAt := none }).schedule s.now (.copyChunkReadReply c x.ch) := by
  have hy : CopyCmd.reread { x with wp := x.wp + n, ahead := x.ahead.tail, wtag := 0, claimed := false, wAt := none } keys n =
      { x with wp := x.wp + n, ahead := [], wtag := 0, claimed := false, wAt := none } := by
    simp [CopyCmd.reread, ha]
  have hfault : x.ahead.head?.bind (·.fault) = none := by rw [ha]; exact hf
  unfold State.chunkDone
  dsimp only
  rw [hfault, hy]
  dsimp only
  refine (if_neg hn).trans ?_
  rw [if_pos hc]
  exact State.copyStep_reads (y := { x with wp := x.wp + n, ahead := [], wtag := 0, claimed := false, due := s.now, wAt := none }) s.now hk hr
    (CopyCmd.not_ready_of_nil rfl)

/-- The registers of a CPY.W return once its last words have come (10 R196; 06 R117). -/
theorem State.chunkDone_returns {k : CopyChunk} {n : Nat} (ha : x.ahead = [k]) (hf : k.fault = none) (hk : x.kind = .cpyW) (hn : x.wp + n = x.total) :
    ∃ u, FollowOnsIssued ((s.setCopy c x { x with wp := x.wp + n, ahead := [], wtag := 0, claimed := false, wAt := none }).setCopy c
        { x with wp := x.wp + n, ahead := [], wtag := 0, claimed := false, wAt := none }
        { x with wp := x.wp + n, state := .followOnPending, ahead := [], wtag := 0, claimed := false, rAt := none, wAt := none }) u c ∧
      s.chunkDone c x [] n = (u.soon (.engineReturn (c * 16 + x.slot))).soon (.copyCommandStart c x.ch) := by
  have hy : CopyCmd.reread { x with wp := x.wp + n, ahead := x.ahead.tail, wtag := 0, claimed := false, wAt := none } [] n =
      { x with wp := x.wp + n, ahead := [], wtag := 0, claimed := false, wAt := none } := by
    simp [CopyCmd.reread, ha]
  have hfault : x.ahead.head?.bind (·.fault) = none := by rw [ha]; exact hf
  refine ⟨_, State.issueFollowOns_issued c x.gang 64 _, ?_⟩
  unfold State.chunkDone
  dsimp only
  rw [hfault, hy]
  dsimp only
  exact (if_pos hn).trans (if_pos hk)

/-! ## The turn of the copy engine (12 R225) -/

theorem State.writeTurn_won {cl k : Nat} (hat : (s.cluster cl).copyAt = s.cycleTick (clusterCore cl 0) (s.cycleOf (clusterCore cl 0)))
    (hwon : (s.cluster cl).copyWon.contains k = true) : s.writeTurn cl k = some s := by
  unfold State.writeTurn
  dsimp only
  rw [if_pos hat]
  exact if_pos hwon

end
end Sys2Proof.Machine

namespace Sys2Proof.Claims

open Sys2Proof.Machine

section
variable {s : State} {c ch : Nat} {x : CopyCmd} {k : CopyChunk} {bs : List Byte}

/-- The state in which a channel writes: its command has no further write due. -/
def atWrite (s : State) (c : Nat) (x : CopyCmd) : State := s.setCopy c x { x with wAt := none }

theorem exec_copyChunkWrite (hhead : (s.core c).channelHead ch = some x) (hev : s.ev = some (.copyChunkWrite c ch)) (hr : x.state = .running)
    (hat : x.wAt = some s.now) (htag : x.wtag = 0) (ha : x.ahead = [k]) (hbs : k.bytes = some bs) (ht : x.claimed = false → HasTurn s c ch) :
    exec .copyChunkWrite s = .next ((atWrite s c x).writeChunk c { x with wAt := none } bs) := by
  have hbytes : x.ahead.head?.bind (·.bytes) = some bs := by rw [ha]; exact hbs
  have hx : exec .copyChunkWrite s = execCopyChunkWrite s := rfl
  unfold execCopyChunkWrite at hx
  rw [hev] at hx
  dsimp only at hx
  rw [hhead] at hx
  dsimp only at hx
  rw [if_neg (by simp [hr, hat, htag]), hbytes] at hx
  dsimp only at hx
  rw [hx]
  unfold atWrite
  by_cases hc : x.claimed = true
  · exact if_pos hc
  · obtain ⟨hat, hwon⟩ := ht (Bool.eq_false_iff.mpr hc)
    rw [if_neg hc, State.writeTurn_won (s := s.setCopy c x { x with wAt := none }) hat hwon]

theorem copyCommandsWrite : CopyCommandsWrite := by
  intro s c ch x k bs hhead hch hc hev hr hat htag ha hf hbs hne
  have hmem := Core.channelHead_mem hhead
  subst hch
  have hmem0 : ({ x with wAt := none } : CopyCmd) ∈ ((atWrite s c x).core c).copies := State.mem_setCopy_copies _ hmem
  refine ⟨fun hm hk hregs hva => ?_, fun hregs hcl hturn hlast => ?_⟩
  · intro pa hin
    have hwrite := State.writeChunk_ownMemory (s := atWrite s c x) (c := c) (x := { x with wAt := none }) hne hm hregs hva hin
    refine ⟨fun hcl hturn => ?_, fun hcl he hn hrat => ?_⟩
    · obtain ⟨u, hu, hcopies, hx⟩ := State.writeLocal_claims (s := atWrite s c x) (c := c) (x := { x with wAt := none }) pa bs hcl
      have hframe := (State.setCopy_enginesOnly s c x { x with wAt := none }).trans hu
      refine ⟨_, (exec_copyChunkWrite hhead hev hr hat htag ha hbs fun _ => hturn).trans (congrArg Host.Outcome.next (hwrite.trans hx)), hframe.keepsMemory,
        hframe.slots, ?_, State.due_schedule _ _ _⟩
      exact State.mem_setCopy_copies _ ((hcopies c).symm ▸ hmem0)
    · have hends : (atWrite s c x).claimEnds c (ownerCopy c x.ch + 1) = none := by
        rw [← he]
        unfold State.claimEnds atWrite
        rw [State.core_setCopy]
        rfl
      have hputs := State.writeLocal_puts (s := atWrite s c x) (c := c) (x := { x with wAt := none }) bs hcl hc (by omega : (x.dstAt x.wp).toNat < 0x200000) hends
      have hmemPut := State.mem_enginePut_own (atWrite s c x) c ((atWrite s c x).gang x.gang).job pa bs
      have hfe := State.fe_enginePut_own (atWrite s c x) c ((atWrite s c x).gang x.gang).job pa bs
      have hslots := State.slots_enginePut_own (atWrite s c x) c ((atWrite s c x).gang x.gang).job pa bs
      have hnow := State.now_enginePut_own (atWrite s c x) c ((atWrite s c x).gang x.gang).job pa bs
      have hcore := State.core_enginePut_own (atWrite s c x) c ((atWrite s c x).gang x.gang).job pa bs c
      have hx := (exec_copyChunkWrite hhead hev hr hat htag ha hbs fun h => absurd h (by simp [hcl])).trans (congrArg Host.Outcome.next (hwrite.trans hputs))
      have hat' : (atWrite s c x).now = s.now := (State.setCopy_enginesOnly s c x _).now
      generalize (atWrite s c x).enginePut c ((atWrite s c x).gang x.gang).job (.ownMem pa) bs = u at hmemPut hfe hslots hnow hcore hx
      have hdone := State.chunkDone_continues (s := u) (c := c) (x := { x with wAt := none }) (keys := [pa]) ha hf hcl hk hrat hn
      rw [hnow, hat', ← htag] at hdone
      exact ⟨_, hx.trans (congrArg Host.Outcome.next hdone), hmemPut, hfe, hslots, State.mem_setCopy_copies _ (hcore ▸ hmem0), State.due_schedule _ _ _⟩
  · have hk : x.kind = .cpyW := by
      simp only [CopyCmd.toRegs, Bool.and_eq_true, beq_iff_eq] at hregs
      exact hregs.1
    have hwrite := State.writeChunk_toRegs (s := atWrite s c x) (c := c) (x := { x with wAt := none }) hne hregs
    obtain ⟨u, hu, hx⟩ := State.chunkDone_returns (s := (atWrite s c x).setCopy c { x with wAt := none } { x with got := x.got ++ bs, wAt := none }) (c := c)
      (x := { x with got := x.got ++ bs, wAt := none }) ha hf hk hlast
    refine ⟨_, (exec_copyChunkWrite hhead hev hr hat htag ha hbs fun _ => hturn).trans (congrArg Host.Outcome.next (hwrite.trans hx)),
      hu.frame.keepsMemory, hu.frame.slots, ?_, ?_⟩
    · have hlast' := hu.mem (State.mem_setCopy_copies _ (State.mem_setCopy_copies _ (State.mem_setCopy_copies _ hmem0))) (.inr hk)
      simp only [hlast] at hlast'
      rw [htag, hcl]
      exact hlast'
    · have hnow : u.now = s.now := ((State.setCopy_enginesOnly s c x { x with wAt := none }).trans ((State.setCopy_enginesOnly _ c _ _).trans
        ((State.setCopy_enginesOnly _ c _ _).trans ((State.setCopy_enginesOnly _ c _ _).trans hu.frame)))).now
      rw [← hnow]
      exact mem_agendaInsert_of_mem _ _ _ (State.due_soon u _)

/-- Settles O22: each step of a command is one change of its entry, and what is read or written stands in its own core's memory. -/
theorem copyCommandsRun : Obligations.CopyCommandsRun := ⟨copyCommandsRead, copyCommandsWrite⟩

end
end Sys2Proof.Claims
end

section
/-! Matrix operations as they are issued (10 R203, R205, R206; 12 R216, R217): the operation that joins its engine, the accumulator port that may take
it at once, the microprogram and the mode word. -/

namespace Sys2Proof.Machine

/-! ## Lines that a transfer claims leave every engine as it was (06 R119) -/

/-- Nothing but cores, licences, in-rush queues and the agenda differs, and no engine. -/
structure KeepsEngines (s t : State) : Prop where
  frame : EnginesOnly s t
  eng : ∀ k, t.eng k = s.eng k

theorem KeepsEngines.refl (s : State) : KeepsEngines s s := ⟨rfl, fun _ => rfl⟩

theorem KeepsEngines.trans {s t u : State} (h : KeepsEngines s t) (h' : KeepsEngines t u) : KeepsEngines s u :=
  ⟨h.frame.trans h'.frame, fun k => (h'.eng k).trans (h.eng k)⟩

theorem KeepsEngines.foldl {α : Type} {f : State → α → State} (hf : ∀ u x, KeepsEngines u (f u x)) : ∀ (l : List α) (s : State), KeepsEngines s (l.foldl f s)
  | [], s => .refl s
  | x :: l, s => (hf s x).trans (KeepsEngines.foldl hf l (f s x))

theorem KeepsEngines.schedule (s : State) (t : Nat) (e : Ev) : KeepsEngines s (s.schedule t e) := ⟨rfl, fun _ => rfl⟩

theorem KeepsEngines.scheduleOnce (s : State) (t : Nat) (e : Ev) : KeepsEngines s (s.scheduleOnce t e) := by
  unfold State.scheduleOnce
  split
  · exact .refl s
  · exact .schedule s t e

theorem KeepsEngines.setCore {s : State} {c : Nat} {k : Core} (h : k.eng = s.eng c) : KeepsEngines s (s.setCore c k) := by
  refine ⟨rfl, fun j => ?_⟩
  unfold State.eng
  by_cases hj : j = c
  · rw [hj, State.core_setCore]; exact h
  · rw [State.core_setCore_other _ _ hj]

theorem KeepsEngines.claim (s : State) (c : Nat) (x : Claim) : KeepsEngines s (s.claim c x) := .setCore rfl

theorem KeepsEngines.unclaimAll (s : State) (c owner : Nat) : KeepsEngines s (s.unclaimAll c owner) := by
  refine .foldl (fun u i => ?_) _ s
  dsimp only
  split
  · exact .setCore rfl
  · exact .refl u

theorem KeepsEngines.claimLines (s : State) (c rank owner : Nat) (l : List (Nat × Nat)) : KeepsEngines s (s.claimLines c rank owner l) := by
  refine .foldl (fun u src => .foldl (fun w p => ?_) _ u) _ s
  dsimp only
  split
  · exact .claim _ _ _
  · exact (KeepsEngines.claim _ _ _).trans (.claim _ _ _)

theorem KeepsEngines.claimPort (s : State) (c : Nat) (o : MxOp) : KeepsEngines s (s.claimPort c o) := by
  unfold State.claimPort
  split
  · exact .claimLines _ _ _ _ _
  · exact .foldl (fun u p => (KeepsEngines.claim _ _ _).trans (.claim _ _ _)) _ s

/-! ## What an operation keeps as it starts (12 R217) -/

/-- An operation with its start marked or begun: everything else about it stands. -/
def MxOp.Advanced (o p : MxOp) : Prop := ∃ r g n, p = { o with ready := r, stage := g, began := n }

theorem MxOp.Advanced.refl (o : MxOp) : o.Advanced o := ⟨_, _, _, rfl⟩

theorem MxOp.Advanced.trans {o p q : MxOp} (h : o.Advanced p) (h' : p.Advanced q) : o.Advanced q := by
  obtain ⟨_, _, _, rfl⟩ := h
  obtain ⟨_, _, _, rfl⟩ := h'
  exact ⟨_, _, _, rfl⟩

/-- Each operation of an engine is still one of another's, further on at most. -/
def Engine.KeepsOps (e f : Engine) : Prop := ∀ o ∈ e.ops, ∃ p ∈ f.ops, o.Advanced p

theorem Engine.KeepsOps.trans {e f g : Engine} (h : e.KeepsOps f) (h' : f.KeepsOps g) : e.KeepsOps g := fun o ho => by
  obtain ⟨p, hp, hop⟩ := h o ho
  obtain ⟨q, hq, hpq⟩ := h' p hp
  exact ⟨q, hq, hop.trans hpq⟩

theorem Engine.keepsOps_markReady (e : Engine) (now : Nat) : e.KeepsOps (e.markReady now) := fun o ho =>
  ⟨_, List.mem_map_of_mem ho, by split; exacts [⟨_, _, _, rfl⟩, .refl o]⟩

theorem Engine.keepsOps_update {e f : Engine} {x y : MxOp} (h : x.Advanced y) (hf : f.ops = (e.update x y).ops) : e.KeepsOps f := fun o ho => by
  rw [hf]
  refine ⟨_, List.mem_map_of_mem ho, ?_⟩
  split
  · next hx => exact hx ▸ h
  · exact .refl o

/-- The accumulator port's start changes engines alone, and of its own engine's operations only where they stand. -/
theorem State.portStart_keeps (s : State) (c : Nat) : EnginesOnly s (s.portStart c) ∧ (s.eng c).KeepsOps ((s.portStart c).eng c) := by
  have hmark : ((s.eng c).KeepsOps ((s.setEng c ((s.eng c).markReady s.now)).eng c)) := by
    rw [State.eng_setEng]; exact (s.eng c).keepsOps_markReady s.now
  unfold State.portStart
  generalize hu : s.setEng c ((s.eng c).markReady s.now) = u at hmark ⊢
  have hframe : EnginesOnly s u := hu ▸ EnginesOnly.setEng s c _
  have keeps : ∀ t, KeepsEngines u t → EnginesOnly s t ∧ (s.eng c).KeepsOps (t.eng c) := fun t h => ⟨hframe.trans h.frame, h.eng c ▸ hmark⟩
  dsimp only
  split
  · exact keeps u (.refl u)
  split
  · split
    · exact keeps u (.refl u)
    · exact keeps _ (.scheduleOnce _ _ _)
  · next o _ =>
    have hstart : ∀ v (e : Engine), KeepsEngines u v → e.ops = ((u.eng c).update o { o with stage := .running, began := u.now }).ops →
        EnginesOnly s (v.setEng c e) ∧ (s.eng c).KeepsOps ((v.setEng c e).eng c) := fun v e h he =>
      ⟨hframe.trans (h.frame.trans (.setEng _ _ _)), hmark.trans (by rw [State.eng_setEng]; exact Engine.keepsOps_update ⟨_, _, _, rfl⟩ he)⟩
    have hafter : ∀ v t, EnginesOnly s v ∧ (s.eng c).KeepsOps (v.eng c) → KeepsEngines v t → EnginesOnly s t ∧ (s.eng c).KeepsOps (t.eng c) :=
      fun v t hv h => ⟨hv.1.trans h.frame, h.eng c ▸ hv.2⟩
    have hbegun := hstart (u.unclaimAll c (ownerAcc c)) { (u.eng c).update o { o with stage := .running, began := u.now } with
      portBusy := some (u.now + o.portCycles * tickLen c) } (.unclaimAll u c _) rfl
    exact hafter _ _ hbegun ((KeepsEngines.claimPort _ c o).trans (.schedule _ _ _))

/-! ## The checks of the words (10 R203) -/

/-- A check that does not pass gives no operation. -/
theorem MxCheck.of_ite {p : Prop} [Decidable p] {x y : MxCheck} {o : MxOp} (hx : x ≠ .ok o) (h : (if p then x else y) = .ok o) : y = .ok o := by
  split at h
  · exact absurd h hx
  · exact h

/-- An operation whose words pass is the one that they give, with no number. -/
theorem State.mxCheck_ok {s : State} {d : BitVec 3} {a b ox4 ox5 ox7 : Word} {kind : MxKind} {o : MxOp} (h : s.mxCheck d a b ox4 ox5 ox7 kind = .ok o) :
    o.num = 0 ∧ o.kind = kind ∧ o.mtag = bits ox4 24 8 ∧ o.a = a ∧ o.b = b := by
  unfold State.mxCheck at h
  cases ht : s.mxTiles d.toNat (bits ox4 0 3 == 0 && bits ox4 3 3 == 0) with
  | error f => simp [ht] at h
  | ok tiles =>
    simp only [ht] at h
    have hwords := MxCheck.of_ite (by simp) (MxCheck.of_ite (by simp) (MxCheck.of_ite (by simp) (MxCheck.of_ite (by simp) (MxCheck.of_ite (by simp) h))))
    split at hwords
    · cases hwords
    · cases hwords
      exact ⟨rfl, rfl, rfl, rfl, rfl⟩

theorem State.guardedWith_none (s : State) (regs : List (BitVec 7)) (k : State → State) : s.guardedWith none regs k = s.guarded regs k := rfl

/-! ## An awake engine with a place free (06 R124; 12 R216) -/

theorem State.engineAwake_awake {s : State} (h : (s.eng s.coreId).gate = .awake) (k : State → State) : s.engineAwake k = k (s.restartIdle s.coreId) :=
  if_pos (by rw [Engine.isAwake, h]; rfl)

theorem State.streamPlace_free {s : State} (h : (s.eng s.coreId).places (s.cur % 16) s.me.gang < 8) (k : State → State) : s.streamPlace k = k s := if_pos h

theorem State.ops_restartIdle (s : State) (c : Nat) : ((s.restartIdle c).eng c).ops = (s.eng c).ops := by rw [State.eng_restartIdle]

theorem State.tile_restartIdle (s : State) (c k i : Nat) : ((s.restartIdle c).core k).tile i = (s.core k).tile i := by
  unfold State.restartIdle
  split
  · by_cases hk : k = c
    · rw [hk, State.core_schedule, State.setEng, State.core_setCore]; rfl
    · rw [State.core_schedule, State.setEng, State.core_setCore_other _ _ hk]
  · rfl

/-! ## The flags in the mode word (10 R206) -/

/-- The accumulators of a core with the flags that a mode word gives to those listed, each with its place in the gang's list. -/
def withFlags (w : Word) (l : List (Nat × Nat)) (t : Table Tile) : Table Tile :=
  l.foldl (fun (t : Table Tile) p => tset t p.1 { tget t p.1 {} with flags := BitVec.ofNat 4 (bits w (8 + 4 * p.2) 4) }) t

theorem State.setModeWord_eq (s : State) (w : Word) : s.setModeWord w =
    (s.setCore s.coreId { s.myCore with tiles := withFlags w (tget s.myGang.tiles s.coreId []).zipIdx s.myCore.tiles }).setMe { s.me with uc := bitAt w 0 } := rfl

theorem State.me_setModeWord (s : State) (w : Word) : (s.setModeWord w).me = { s.me with uc := bitAt w 0 } := State.me_setMe _ _

theorem State.core_setModeWord (s : State) (w : Word) : (s.setModeWord w).core s.coreId =
    { s.core s.coreId with tiles := withFlags w (tget s.myGang.tiles s.coreId []).zipIdx (s.core s.coreId).tiles } := s.core_setCore _ _

theorem EnginesOnly.myGang {s t : State} (h : EnginesOnly s t) : t.myGang = s.myGang := by
  have hg : t.gang = s.gang := by rw [h]; rfl
  rw [State.myGang, hg, h.me]
  rfl

theorem State.modeWord_restartIdle (s : State) : (s.restartIdle s.coreId).modeWord = s.modeWord := by
  have hw := State.restartIdle_enginesOnly s s.coreId
  unfold State.modeWord
  rw [hw.me, hw.myGang, hw.coreId]
  simp only [State.myCore, hw.coreId, State.tile_restartIdle]

theorem tget_withFlags_other (w : Word) (p : Nat) : ∀ (l : List (Nat × Nat)) (t : Table Tile), p ∉ l.map Prod.fst → tget (withFlags w l t) p {} = tget t p {}
  | [], _, _ => rfl
  | x :: l, t, h => by
    rw [List.map_cons, List.mem_cons, not_or] at h
    exact (tget_withFlags_other w p l _ h.2).trans (tget_tset_other _ _ _ h.1)

theorem tget_withFlags (w : Word) {p k : Nat} : ∀ (l : List (Nat × Nat)) (t : Table Tile), (l.map Prod.fst).Nodup → (p, k) ∈ l →
    tget (withFlags w l t) p {} = { tget t p {} with flags := BitVec.ofNat 4 (bits w (8 + 4 * k) 4) }
  | x :: l, t, hl, hp => by
    rw [List.map_cons, List.nodup_cons] at hl
    rcases List.mem_cons.mp hp with rfl | hp
    · exact (tget_withFlags_other w p l _ hl.1).trans (tget_tset_same _ _ _ _)
    · have hne : p ≠ x.1 := fun h => hl.1 (h ▸ List.mem_map_of_mem (f := Prod.fst) hp)
      rw [← tget_tset_other t { tget t x.1 {} with flags := BitVec.ofNat 4 (bits w (8 + 4 * x.2) 4) } {} hne]
      exact tget_withFlags w l _ hl.2 hp

end Sys2Proof.Machine

namespace Sys2Proof.Claims

open Sys2Proof.Machine

/-! ## A strand whose stream's words alone differ -/

/-- Of the issuing strand only its stream's next number, microprogram and UC differ; memory and the other slots are as before. -/
structure StreamWords (s v : State) : Prop where
  cur : v.cur = s.cur
  now : v.now = s.now
  me : v.me = { s.me with mxNext := v.me.mxNext, ucode := v.me.ucode, uc := v.me.uc }
  memory : KeepsMemory s v
  slots : KeepsSlots s v

section
variable {s v w u t : State} {d : BitVec 7} {x : Word} {at_ : Word} {st : BitVec 2}

theorem StreamWords.setMe (h : EnginesOnly s w) {y : Slot} (hy : y = { s.me with mxNext := y.mxNext, ucode := y.ucode, uc := y.uc }) :
    StreamWords s (w.setMe y) := by
  refine ⟨h.cur, h.now, ?_, h.keepsMemory, fun id hid => ?_⟩
  · rw [State.me_setMe]; exact hy
  · exact (State.slot_setSlot_other w (id := w.cur) _ (by rwa [h.cur])).trans (congrArg (fun l => tget l id ({} : Slot)) h.slots)

theorem StreamWords.coreId (h : StreamWords s v) : v.coreId = s.coreId := congrArg (· / 16) h.cur

theorem StreamWords.goesOn (h : StreamWords s v) (hg : GoesOn v t at_ st) : GoesOn s t at_ st := by
  have hbase : v.base = s.base := by rw [State.base, h.me, h.now]; rfl
  unfold GoesOn at *
  rwa [hbase, h.coreId] at hg

theorem StreamWords.pc (h : StreamWords s v) : v.me.pc = s.me.pc := by rw [h.me]

theorem StreamWords.keepsRegs (h : StreamWords s v) (hr : KeepsRegs v t) : KeepsRegs s t := by
  unfold KeepsRegs at *
  rwa [h.me] at hr

theorem StreamWords.rx (h : StreamWords s v) (r : BitVec 7) : v.rx r = s.rx r := by
  rw [State.rx, h.me]
  rfl

theorem StreamWords.keepsSlots (h : StreamWords s v) (hs : KeepsSlots v t) : KeepsSlots s t :=
  fun id hid => (hs id (by rwa [h.cur])).trans (h.slots id hid)

/-- An instruction goes on once the stream's words have changed and the engine has done its part. -/
theorem StreamWords.retire (h : StreamWords s v) (hu : EnginesOnly v u) (st : BitVec 2) :
    let t := u.retire 4 st
    GoesOn s t (s.me.pc + 4) st ∧ KeepsRegs s t ∧ KeepsMemory s t ∧ KeepsSlots s t ∧
      t.me.mxNext = v.me.mxNext ∧ t.me.ucode = v.me.ucode ∧ t.me.uc = v.me.uc := by
  obtain ⟨hg, hr, hk, hm, hs⟩ := retire_after_engines hu 4 st
  rw [h.pc] at hg
  exact ⟨h.goesOn hg, h.keepsRegs hr, ⟨hm.1.trans h.memory.1, hm.2.trans h.memory.2⟩, h.keepsSlots hs, by rw [hk], by rw [hk], by rw [hk]⟩

/-- The same with a result in x[d]. -/
theorem StreamWords.retire_writes (h : StreamWords s v) (hd : s.me.regOk d.toNat = true) (x : Word) (st : BitVec 2) :
    let t := (v.wx d x).retire 4 st
    Writes s t d x ∧ GoesOn s t (s.me.pc + 4) st ∧ KeepsMemory s t ∧ KeepsSlots s t ∧ t.me.uc = v.me.uc := by
  have hok : ∀ r, v.me.regOk r = s.me.regOk r := fun r => by rw [h.me]; rfl
  obtain ⟨hw, hg, hk, hm, hs⟩ := retire_writes_after_engines (show EnginesOnly v v from rfl) x (by rw [hok]; exact hd) 4 st
  rw [h.pc] at hg
  exact ⟨⟨hw.1, fun r hr hne => (hw.2 r (by rw [hok]; exact hr) hne).trans (h.rx r)⟩, h.goesOn hg, ⟨hm.1.trans h.memory.1, hm.2.trans h.memory.2⟩,
    h.keepsSlots hs, by rw [hk]⟩

end

/-! ## Matrix operations as they are issued (10 R203, R205) -/

section
variable {s : State} {d : BitVec 3} {a b : BitVec 7} {st : BitVec 2} {tiles : List Nat}

theorem mxTiles_of_accumulators (h : AccumulatorsOf s d tiles) : s.mxTiles d.toNat (bits (s.oxr 4) 0 3 == 0) = .ok tiles := by
  obtain ⟨hwide, hone⟩ := h
  unfold State.mxTiles State.acTile
  by_cases hw : bits (s.oxr 4) 0 3 = 0
  · obtain ⟨-, -, t, u, ht, hu, rfl⟩ := hwide hw
    rw [ht, hu, hw]
    rfl
  · obtain ⟨t, ht, rfl⟩ := hone hw
    rw [ht, beq_eq_false_iff_ne.mpr hw]
    split <;> simp_all

theorem mxRegwin_of_accumulators (h : AccumulatorsOf s d tiles) : s.mxRegwin d (bits (s.oxr 4) 0 3 == 0) = none := by
  rw [State.mxRegwin, mxTiles_of_accumulators h]

/-- What an MXOP leaves: its operation in the engine, and its strand waiting for the gather. -/
theorem mxop_waits {w : State} (h : EnginesOnly s w) (o : MxOp) (st : BitVec 2) :
    let u := (w.setEng s.coreId { w.eng s.coreId with ops := (w.eng s.coreId).ops ++ [o] }).leave st
    let t := (u.setMe { u.me with wait := .gather }).soon (.gatherBegin s.coreId)
    (engineOf t s.coreId).ops = (w.eng s.coreId).ops ++ [o] ∧ t.me.wait = .gather ∧ t.me.pc = s.me.pc ∧ KeepsRegs s t ∧ KeepsMemory s t ∧
      KeepsSlots s t ∧ (s.now, Ev.gatherBegin s.coreId) ∈ t.agenda := by
  have hv := h.trans (EnginesOnly.setEng w s.coreId { w.eng s.coreId with ops := (w.eng s.coreId).ops ++ [o] })
  have hops : ((w.setEng s.coreId { w.eng s.coreId with ops := (w.eng s.coreId).ops ++ [o] }).eng s.coreId).ops = (w.eng s.coreId).ops ++ [o] := by
    rw [State.eng_setEng]
  generalize w.setEng s.coreId { w.eng s.coreId with ops := (w.eng s.coreId).ops ++ [o] } = v at hv hops
  intro u t
  have hleave : u.me = { v.me with nextTick := v.base + 16 * (1 + st.toNat) * tickLen v.coreId } := State.me_setMe _ _
  have hme : t.me = { u.me with wait := .gather } := State.me_setMe _ _
  rw [hleave, hv.me] at hme
  refine ⟨hops, by rw [hme], by rw [hme], by rw [KeepsRegs, hme]; exact ⟨rfl, rfl⟩, hv.keepsMemory, fun id hid => ?_, ?_⟩
  · have hid' : id ≠ v.cur := by rwa [hv.cur]
    exact (State.slot_setSlot_other u (id := v.cur) _ hid').trans ((State.slot_setSlot_other v (id := v.cur) _ hid').trans
      (congrArg (fun l => tget l id ({} : Slot)) hv.slots))
  · rw [← hv.now]
    exact State.due_soon (u.setMe { u.me with wait := .gather }) _

/-- The operation that an accumulator-port instruction appends (10 R205). -/
def portCommand (s : State) (kind : MxKind) (d : BitVec 3) (x : Word) (tiles : List Nat) : MxOp :=
  { slot := s.cur % 16, gang := s.me.gang, num := s.me.mxNext, kind := kind, d := d, tiles := tiles, a := x,
    pa := (s.clusterLocal s.coreId s.myGang.job x.toNat (accBytes s)).getD 0, after := if kind = .mxz then [] else s.me.unacked }

/-- A stream with its next number given to an operation of its engine. -/
def portIssued (s w : State) (o : MxOp) : State :=
  (w.setEng s.coreId { w.eng s.coreId with ops := (w.eng s.coreId).ops ++ [o] }).setMe { s.me with mxNext := s.me.mxNext + 1 }

/-- The address of MXLD or MXST is one that it may use: aligned, in a local memory of the cluster that runs the job, and for MXST neither an inbox
nor another core's where the gang is confined (10 R205). -/
def PortAddress (s : State) (kind : MxKind) (x : Word) : Prop :=
  kind ≠ .mxz → x.toNat % 64 = 0 ∧ ∃ pa, s.clusterLocal s.coreId s.myGang.job x.toNat (accBytes s) = some pa ∧
    (kind = .mxst → (∀ i, i < accBytes s / 64 → s.inInbox (pa + 64 * i) = false) ∧
      (s.myGang.confined = true → s.myGang.cores.contains (clusterCore (clusterOf s.coreId) (bits x 21 3)) = true))

theorem portOp_issues {kind : MxKind} {x : Word} (ht : AccumulatorsOf s d tiles) (hopen : StreamOpen s) (ha : PortAddress s kind x) :
    s.portOp kind d x st = ((portIssued s (s.restartIdle s.coreId) (portCommand s kind d x tiles)).portStart s.coreId).retire 4 st := by
  obtain ⟨hawake, hplace⟩ := hopen
  have hw := State.restartIdle_enginesOnly s s.coreId
  have hbytes : (if (bits (s.oxr 4) 0 3 == 0) = true then 8192 else 4096) = accBytes s := by simp [accBytes]
  have heven : ¬(bits (s.oxr 4) 0 3 == 0 && d.toNat % 2 == 1) = true := fun h => by
    rw [Bool.and_eq_true, beq_iff_eq, beq_iff_eq] at h
    have := (ht.1 h.1).1
    omega
  have hext : ¬(bits (s.oxr 4) 0 3 == 0 && !bitAt (extsOf s.coreId) 1) = true := fun h => by
    rw [Bool.and_eq_true, beq_iff_eq] at h
    obtain ⟨hz, hno⟩ := h
    obtain ⟨-, he, -⟩ := ht.1 hz
    rw [bitAt, he] at hno
    exact absurd hno (by decide)
  have halign : ¬(kind != .mxz && x.toNat % 64 != 0) = true := fun h => by
    rw [Bool.and_eq_true, bne_iff_ne, bne_iff_ne] at h
    exact h.2 (ha h.1).1
  unfold State.portOp
  dsimp only
  rw [mxTiles_of_accumulators ht]
  dsimp only
  rw [if_neg heven, if_neg hext, if_neg halign, hbytes, if_neg ?_, State.streamPlace_free hplace, State.engineAwake_awake hawake]
  · unfold portIssued portCommand
    rw [hw.coreId, hw.me, hw.cur]
  · rw [Bool.and_eq_true, bne_iff_ne]
    rintro ⟨hk, hbad⟩
    obtain ⟨-, pa, hpa, hstore⟩ := ha hk
    rw [hpa] at hbad
    have hst : kind = .mxst := by
      by_contra h
      simp [h] at hbad
    obtain ⟨hin, hconf⟩ := hstore hst
    have hinbox : (List.range (accBytes s / 64)).any (fun i => s.inInbox (pa + 64 * i)) = false := by simpa using hin
    by_cases hc : s.myGang.confined = true
    · simp [hinbox, List.contains_iff_mem.mp (hconf hc)] at hbad
    · simp [hinbox, hc] at hbad

/-- An accumulator-port instruction that is what `portOp` makes of it: its operation is in the engine, and its strand goes on. -/
theorem portOp_goesOn {kind : MxKind} {x : Word} (ht : AccumulatorsOf s d tiles) (hopen : StreamOpen s) (ha : PortAddress s kind x) :
    let t := s.portOp kind d x st
    GoesOn s t (s.me.pc + 4) st ∧ t.me.mxNext = s.me.mxNext + 1 ∧ KeepsRegs s t ∧ KeepsMemory s t ∧ KeepsSlots s t ∧
      ∃ o ∈ (engineOf t s.coreId).ops, o.kind = kind ∧ o.num = s.me.mxNext ∧ o.slot = s.cur % 16 ∧ o.gang = s.me.gang ∧ o.tiles = tiles ∧ o.a = x ∧
        (kind ≠ .mxz → s.clusterLocal s.coreId s.myGang.job x.toNat (accBytes s) = some o.pa ∧ o.after = s.me.unacked) := by
  rw [portOp_issues ht hopen ha]
  have hw := State.restartIdle_enginesOnly s s.coreId
  generalize s.restartIdle s.coreId = w at hw
  have hv : StreamWords s (portIssued s w (portCommand s kind d x tiles)) := StreamWords.setMe (hw.trans (.setEng _ _ _)) rfl
  have hnext : (portIssued s w (portCommand s kind d x tiles)).me.mxNext = s.me.mxNext + 1 := congrArg Slot.mxNext (State.me_setMe _ _)
  have hmem : portCommand s kind d x tiles ∈ ((portIssued s w (portCommand s kind d x tiles)).eng s.coreId).ops := by
    change _ ∈ ((w.setEng s.coreId _).eng s.coreId).ops
    rw [State.eng_setEng]
    exact List.mem_append_right _ List.mem_cons_self
  generalize portIssued s w (portCommand s kind d x tiles) = v at hv hnext hmem
  obtain ⟨hframe, hkeeps⟩ := State.portStart_keeps v s.coreId
  obtain ⟨hg, hr, hm, hs, hn, -, -⟩ := hv.retire hframe st
  obtain ⟨_, ho, r, g, n, rfl⟩ := hkeeps _ hmem
  refine ⟨hg, hn.trans hnext, hr, hm, hs, _, ho, rfl, rfl, rfl, rfl, rfl, rfl, fun hk => ⟨?_, if_neg hk⟩⟩
  obtain ⟨-, pa, hpa, -⟩ := ha hk
  exact hpa.trans (congrArg some (by rw [portCommand, hpa]; rfl))

theorem portForms_exec : ∀ f ∈ portForms s d a st, AccumulatorsOf s d tiles → Settled s f.2.2.1 → exec f.1 s = .next (s.portOp f.2.1 d f.2.2.2 st) := by
  refine List.forall_mem_cons.mpr ⟨fun _ _ => rfl, List.forall_mem_cons.mpr ⟨fun ht h => ?_, List.forall_mem_cons.mpr ⟨fun ht h => ?_, by simp⟩⟩⟩
  all_goals
    refine congrArg Host.Outcome.next ?_
    rw [mxRegwin_of_accumulators ht, State.guardedWith_none, h.guarded]

theorem matrixOperationsAreIssued : MatrixOperationsAreIssued := by
  intro s d a b st
  refine ⟨fun hwin hset ⟨hawake, hplace⟩ hack o ho => ?_, ?_⟩
  · obtain ⟨hnum, hkind, hmtag, hoa, hob⟩ := State.mxCheck_ok ho
    have hw := State.restartIdle_enginesOnly s s.coreId
    obtain ⟨hops, hwait⟩ := mxop_waits hw { o with ready := some s.now } st
    refine ⟨_, ?_, hops.trans (by rw [State.ops_restartIdle]; rfl), hnum, hkind, hmtag, hoa, hob, hwait⟩
    refine congrArg Host.Outcome.next ?_
    rw [hwin, State.guardedWith_none, hset.guarded, ho]
    dsimp only
    rw [State.streamPlace_free hplace, State.engineAwake_awake hawake, released_of_acked _ (by rw [hw.me, hack]), hw.coreId, hw.now]
  · exact fun f hf tiles ht hset hopen ha => ⟨_, portForms_exec f hf ht hset, portOp_goesOn ht hopen ha⟩

/-! ## Microprogram and mode word (10 R206) -/

theorem microprogramAndModeWord : MicroprogramAndModeWord := by
  intro s d a st hawake
  have hw := State.restartIdle_enginesOnly s s.coreId
  refine ⟨fun hset hok => ?_, fun hset hdone => ?_⟩
  · have hx : exec (.mxuc a st) s = .next (((s.restartIdle s.coreId).setMe { s.me with ucode := some (s.rx a) }).retire 4 st) := by
      refine congrArg Host.Outcome.next ((hset.guarded _).trans ?_)
      rw [if_neg (by simp [hok]), State.engineAwake_awake hawake, hw.me, hw.rx]
    have hv : StreamWords s ((s.restartIdle s.coreId).setMe { s.me with ucode := some (s.rx a) }) := .setMe hw rfl
    have hme := State.me_setMe (s.restartIdle s.coreId) { s.me with ucode := some (s.rx a) }
    generalize (s.restartIdle s.coreId).setMe { s.me with ucode := some (s.rx a) } = v at hx hv hme
    obtain ⟨hg, hr, hm, hs, hn, hc, hu⟩ := hv.retire (u := v) rfl st
    rw [hme] at hn hc hu
    exact ⟨_, hx, hc, hg, hr, hm, hs, hn, hu⟩
  · have hx : exec (.mxmode d a st) s = .next ((((s.restartIdle s.coreId).setModeWord (s.rx a)).wx d s.modeWord).retire 4 st) := by
      refine congrArg Host.Outcome.next ((hset.guarded _).trans ?_)
      rw [State.engineAwake_awake hawake, if_pos (by rw [hw.me]; exact hdone), hw.rx, State.modeWord_restartIdle]
    have hcore := State.core_setModeWord (s.restartIdle s.coreId) (s.rx a)
    have hme := State.me_setModeWord (s.restartIdle s.coreId) (s.rx a)
    have hv : StreamWords s ((s.restartIdle s.coreId).setModeWord (s.rx a)) := by
      rw [State.setModeWord_eq]
      exact .setMe (hw.trans (.setCore _ _ _)) (by rw [hw.me])
    rw [hw.coreId, hw.myGang] at hcore
    generalize (s.restartIdle s.coreId).setModeWord (s.rx a) = v at hx hcore hme hv
    obtain ⟨hwr, hg, hm, hs, hu⟩ := hv.retire_writes (hset.regOk List.mem_cons_self) s.modeWord st
    refine ⟨_, hx, hwr, hg, hu.trans (by rw [hme]; rfl), hm, hs, fun k p hnd hp => ?_⟩
    have htile : (v.core s.coreId).tile p = { s.myCore.tile p with flags := BitVec.ofNat 4 (bits (s.rx a) (8 + 4 * k) 4) } := by
      have hold : tget ((s.restartIdle s.coreId).core s.coreId).tiles p {} = s.myCore.tile p := State.tile_restartIdle s s.coreId s.coreId p
      rw [hcore, Core.tile, tget_withFlags _ _ _ (by rwa [List.zipIdx_map_fst]) (List.mk_mem_zipIdx_iff_getElem?.mpr hp), hold]
    have hid : (((v.wx d s.modeWord).retire 4 st)).myCore = v.core s.coreId := congrArg v.core hv.coreId
    rw [hid, htile]
    exact ⟨rfl, rfl⟩

/-- Settles O23: an engine's list takes what an instruction appends, and the port's start changes no operation but in where it stands. -/
theorem matrixInstructions : Obligations.MatrixInstructions := ⟨matrixOperationsAreIssued, microprogramAndModeWord⟩

end
end Sys2Proof.Claims
end

section
/-! Gathers and the array's start (10 R203; 12 R214 to R217): what is begun stands, the ends of a gather's lines, and an engine of array operations that looks
again at what it may begin. -/

namespace Sys2Proof.Machine

/-! ## The operations of an engine (12 R217) -/

theorem mem_of_firstByRank {o : MxOp} : ∀ {l : List MxOp}, firstByRank l = some o → o ∈ l := by
  have go : ∀ (l : List MxOp) (b : Option MxOp), l.foldl (fun b o => match b with
      | none => some o
      | some x => if o.rank < x.rank then some o else some x) b = some o → b = some o ∨ o ∈ l := by
    intro l
    induction l with
    | nil => exact fun b h => .inl h
    | cons x l ih =>
      intro b h
      rcases ih _ h with hx | hl
      · cases b with
        | none => exact .inr (List.mem_cons.mpr (.inl (Option.some.inj hx).symm))
        | some y =>
          dsimp only at hx
          split at hx
          · exact .inr (List.mem_cons.mpr (.inl (Option.some.inj hx).symm))
          · exact .inl hx
      · exact .inr (List.mem_cons_of_mem _ hl)
  exact fun {l} h => (go l none h).resolve_left (by simp)

theorem mem_filter_of_firstByRank {l : List MxOp} {p : MxOp → Bool} {o : MxOp} (h : firstByRank (l.filter p) = some o) : o ∈ l ∧ p o = true :=
  List.mem_filter.mp (mem_of_firstByRank h)

/-- What may begin its gather is an array operation that waits. -/
theorem Engine.waits_of_mayGather {e : Engine} {o : MxOp} (h : e.mayGather o = true) : o.isArray = true ∧ o.stage = .waiting := by
  simp only [Engine.mayGather, Bool.and_eq_true, beq_iff_eq] at h
  exact h.1

theorem Engine.mem_update_of_ne {e : Engine} {o p q : MxOp} (h : q ∈ e.ops) (hne : q ≠ o) : q ∈ (e.update o p).ops :=
  List.mem_map.mpr ⟨q, h, if_neg hne⟩

theorem Engine.mem_update {e : Engine} {o : MxOp} (p : MxOp) (h : o ∈ e.ops) : p ∈ (e.update o p).ops := List.mem_map.mpr ⟨o, h, if_pos rfl⟩

theorem Engine.ops_update_single {e : Engine} {o : MxOp} (p : MxOp) (h : e.ops = [o]) : (e.update o p).ops = [p] := by
  simp [Engine.update, h]

theorem MxOp.before_self (o : MxOp) : o.before o = false := by
  by_cases h : o.num = 0 <;> simp [MxOp.before, h]

/-- Alone in its engine, an operation stands at the head of its stream. -/
theorem Engine.isHead_single {e : Engine} {o : MxOp} (h : e.ops = [o]) : e.isHead o = true := by
  simp [Engine.isHead, h, o.before_self]

/-- Only an operation of the port is marked as it comes to the head of its stream. -/
theorem Engine.mem_markReady {e : Engine} {o : MxOp} (now : Nat) (h : o ∈ e.ops) (ha : o.isArray = true) : o ∈ (e.markReady now).ops :=
  List.mem_map.mpr ⟨o, h, if_neg (by simp [ha])⟩

theorem Engine.markReady_of_array {e : Engine} (now : Nat) (h : ∀ o ∈ e.ops, o.isArray = true) : e.markReady now = e := by
  have hops : e.ops.map (fun o => if !o.isArray && o.stage == .waiting && o.ready.isNone && e.isHead o then { o with ready := some now } else o) = e.ops :=
    (List.map_congr_left fun o ho => if_neg (by simp [h o ho])).trans (List.map_id _)
  rw [Engine.markReady, hops]

/-! ## What is begun stands -/

theorem foldl_agenda {α : Type} {f : State → α → State} (hf : ∀ u x, (f u x).agenda = u.agenda) :
    ∀ (l : List α) (s : State), (l.foldl f s).agenda = s.agenda
  | [], _ => rfl
  | x :: l, s => (foldl_agenda hf l (f s x)).trans (hf s x)

theorem State.agenda_unclaimAll (s : State) (c owner : Nat) : (s.unclaimAll c owner).agenda = s.agenda :=
  foldl_agenda (fun u i => by dsimp only; split <;> rfl) _ s

theorem State.agenda_claimLines (s : State) (c rank owner : Nat) (l : List (Nat × Nat)) : (s.claimLines c rank owner l).agenda = s.agenda :=
  foldl_agenda (fun u src => foldl_agenda (fun w p => by dsimp only; split <;> rfl) _ u) _ s

theorem State.agenda_claimPort (s : State) (c : Nat) (o : MxOp) : (s.claimPort c o).agenda = s.agenda := by
  unfold State.claimPort
  split
  · exact s.agenda_claimLines _ _ _ _
  · refine foldl_agenda (fun u p => ?_) _ s
    rfl

/-- Memory and the slots are as before, every event that was due still is, and every array operation of an engine that has begun stands there as it did. -/
structure KeepsBegun (c : Nat) (s t : State) : Prop where
  memory : Claims.KeepsMemory s t
  slots : t.slots = s.slots
  agenda : ∀ x ∈ s.agenda, x ∈ t.agenda
  ops : ∀ o ∈ (s.eng c).ops, o.isArray = true → o.stage ≠ .waiting → o ∈ (t.eng c).ops

theorem KeepsBegun.refl (c : Nat) (s : State) : KeepsBegun c s s := ⟨⟨rfl, rfl⟩, rfl, fun _ h => h, fun _ h _ _ => h⟩

theorem KeepsBegun.trans {c : Nat} {s t u : State} (h : KeepsBegun c s t) (h' : KeepsBegun c t u) : KeepsBegun c s u :=
  ⟨⟨h'.memory.1.trans h.memory.1, h'.memory.2.trans h.memory.2⟩, h'.slots.trans h.slots, fun x hx => h'.agenda x (h.agenda x hx),
    fun o ho ha hs => h'.ops o (h.ops o ho ha hs) ha hs⟩

theorem KeepsBegun.of_engines {c : Nat} {s t : State} (h : KeepsEngines s t) (ha : t.agenda = s.agenda) : KeepsBegun c s t :=
  ⟨h.frame.keepsMemory, h.frame.slots, fun x hx => ha ▸ hx, fun o ho _ _ => by rwa [h.eng c]⟩

theorem KeepsBegun.schedule (c : Nat) (s : State) (t : Nat) (e : Ev) : KeepsBegun c s (s.schedule t e) :=
  ⟨⟨rfl, rfl⟩, rfl, fun _ hx => mem_agendaInsert_of_mem _ _ _ hx, fun _ h _ _ => h⟩

theorem KeepsBegun.scheduleOnce (c : Nat) (s : State) (t : Nat) (e : Ev) : KeepsBegun c s (s.scheduleOnce t e) := by
  unfold State.scheduleOnce
  split
  · exact .refl c s
  · exact .schedule c s t e

theorem KeepsBegun.setEng {c : Nat} {s : State} {e : Engine} (h : ∀ o ∈ (s.eng c).ops, o.isArray = true → o.stage ≠ .waiting → o ∈ e.ops) :
    KeepsBegun c s (s.setEng c e) := ⟨⟨rfl, rfl⟩, rfl, fun _ hx => hx, fun o ho ha hs => by rw [State.eng_setEng]; exact h o ho ha hs⟩

theorem State.joinMcast_keepsBegun (s : State) (c : Nat) (o : MxOp) : KeepsBegun c s (s.joinMcast c o).2 := by
  unfold State.joinMcast
  dsimp only
  split
  · exact .refl c s
  split
  · exact .refl c s
  · exact ⟨⟨rfl, rfl⟩, rfl, fun _ hx => hx, fun _ h _ _ => h⟩

/-- The lines of an operation take their banks, without those it held before. -/
theorem State.reclaim_keepsEngines (s : State) (c rank owner : Nat) (l : List (Nat × Nat)) :
    KeepsEngines s ((s.unclaimAll c owner).claimLines c rank owner l) := (KeepsEngines.unclaimAll s c owner).trans (.claimLines _ _ _ _ _)

theorem State.reclaim_keepsBegun (s : State) (c rank owner : Nat) (l : List (Nat × Nat)) :
    KeepsBegun c s ((s.unclaimAll c owner).claimLines c rank owner l) :=
  .of_engines (s.reclaim_keepsEngines c rank owner l) ((State.agenda_claimLines _ _ _ _ _).trans (s.agenda_unclaimAll c owner))

/-- A gather that takes a buffer set changes of the engine only an operation that waited. -/
theorem State.gatherOne_keepsBegun (s : State) (c : Nat) : KeepsBegun c s (s.gatherOne c) := by
  unfold State.gatherOne
  dsimp only
  split
  · exact .refl c s
  split
  · exact .refl c s
  · next o ho =>
    obtain ⟨-, hwait⟩ := Engine.waits_of_mayGather (mem_filter_of_firstByRank ho).2
    exact ((s.joinMcast_keepsBegun c o).trans (State.reclaim_keepsBegun _ _ _ _ _)).trans
      ((KeepsBegun.setEng fun q hq _ hs => Engine.mem_update_of_ne hq fun h => hs (h ▸ hwait)).trans (.schedule _ _ _ _))

/-- The accumulator port takes an operation of its own. -/
theorem State.portStart_keepsBegun (s : State) (c : Nat) : KeepsBegun c s (s.portStart c) := by
  have hmark : KeepsBegun c s (s.setEng c ((s.eng c).markReady s.now)) := .setEng fun o ho ha _ => Engine.mem_markReady _ ho ha
  unfold State.portStart
  generalize s.setEng c ((s.eng c).markReady s.now) = u at hmark ⊢
  refine hmark.trans ?_
  dsimp only
  split
  · exact .refl c u
  split
  · split
    · exact .refl c u
    · exact .scheduleOnce _ _ _ _
  · next o ho =>
    have hport : o.isArray = false := by
      obtain ⟨-, hp⟩ := List.mem_filter.mp (mem_filter_of_firstByRank ho).1
      simp only [Bool.and_eq_true, Bool.not_eq_true', and_assoc] at hp
      exact hp.1
    have hfree : KeepsEngines u (u.unclaimAll c (ownerAcc c)) := .unclaimAll u c _
    refine (KeepsBegun.of_engines hfree (u.agenda_unclaimAll c _)).trans ((KeepsBegun.setEng fun q hq ha _ => ?_).trans
      ((KeepsBegun.of_engines (.claimPort _ c o) (State.agenda_claimPort _ c o)).trans (.schedule _ _ _ _)))
    rw [hfree.eng c] at hq
    exact Engine.mem_update_of_ne hq fun h => by simp [h, hport] at ha

/-! ## The end of a gather's lines (12 R215) -/

/-- A transfer takes a cycle for each line that a core supplies. -/
theorem State.le_lineCycles (s : State) (owner : Nat) (l : List (Nat × Nat)) (src : Nat) : (l.filter fun p => p.1 == src).length ≤ s.lineCycles owner l := by
  rw [State.lineCycles, ← List.foldl_map (f := fun src => (l.filter fun p => p.1 == src).length + (s.core src).claimLost owner) (g := max), List.foldl_max]
  by_cases h : src ∈ l.map (·.1)
  · have hmem := List.mem_map_of_mem (f := fun src => (l.filter fun p => p.1 == src).length + (s.core src).claimLost owner) (List.mem_eraseDups.mpr h)
    have hle := List.le_max?_getD_of_mem hmem (k := 0)
    omega
  · have hnil : l.filter (fun p => p.1 == src) = [] :=
      List.filter_eq_nil_iff.mpr fun p hp hsrc => h (List.mem_map.mpr ⟨p, hp, beq_iff_eq.mp hsrc⟩)
    rw [hnil]
    exact Nat.zero_le _

theorem State.le_gatherDue (s : State) (c : Nat) (o : MxOp) (src : Nat) :
    o.began + (4 + ((o.localLines c).filter fun p => p.1 == src).length) * tickLen c ≤ s.gatherDue c o := by
  have h := s.le_lineCycles (o.owner c) (o.localLines c) src
  refine Nat.add_le_add_left (le_trans (Nat.mul_le_mul_right _ ?_) (le_max_left _ _)) _
  omega

/-- A free buffer set goes to the operation that became ready first (12 R214). -/
theorem State.gatherOne_takes {s : State} {c : Nat} {o : MxOp} (hawake : (s.eng c).gate = .awake) (hfree : (s.eng c).sets < 2) (htag : o.mtag = 0)
    (hfirst : firstByRank ((s.eng c).ops.filter (s.eng c).mayGather) = some o) :
    ∃ at_, { o with stage := .gathering at_, group := none, began := s.now } ∈ ((s.gatherOne c).eng c).ops ∧
      (at_, Ev.gatherEnd c) ∈ (s.gatherOne c).agenda ∧
      ∀ src, s.now + (4 + ((o.localLines c).filter fun p => p.1 == src).length) * tickLen c ≤ at_ := by
  have hgo : ¬((!(s.eng c).isAwake || decide (2 ≤ (s.eng c).sets)) = true) := by
    simp [Engine.isAwake, hawake, hfree]
  have hjoin : s.joinMcast c o = (none, s) := if_pos (.inl htag)
  have hclaim := s.reclaim_keepsEngines c rankMatrix (o.owner c) (o.localLines c)
  unfold State.gatherOne
  dsimp only
  rw [if_neg hgo, hfirst]
  dsimp only
  rw [hjoin]
  dsimp only
  generalize (s.unclaimAll c (o.owner c)).claimLines c rankMatrix (o.owner c) (o.localLines c) = u at hclaim ⊢
  refine ⟨_, ?_, State.due_schedule _ _ _, fun src => u.le_gatherDue c { o with group := none, began := s.now } src⟩
  rw [State.eng_schedule, State.eng_setEng]
  exact Engine.mem_update _ (by rw [hclaim.eng c]; exact (mem_filter_of_firstByRank hfirst).1)

/-! ## An engine of array operations looks again at what it may begin -/

theorem State.portStart_of_array {s : State} {c : Nat} (h : ∀ o ∈ (s.eng c).ops, o.isArray = true) : s.portStart c = s.setEng c (s.eng c) := by
  have hnone : ∀ e : Engine, (s.eng c).ops.filter (fun o => !o.isArray && o.stage == .waiting && e.isHead o && e.tilesFree o) = [] := fun e =>
    List.filter_eq_nil_iff.mpr fun o ho => by simp [h o ho]
  unfold State.portStart
  rw [Engine.markReady_of_array s.now h]
  dsimp only
  rw [State.eng_setEng, hnone]
  split <;> rfl

/-- The steps that an engine of array operations enters as it looks again. -/
theorem State.engineKick_of_array {s : State} {c : Nat} (h : ∀ o ∈ (s.eng c).ops, o.isArray = true) :
    s.engineKick c = ((s.setEng c (s.eng c)).soon (.gatherBegin c)).soon (.arrayStart c) := by
  rw [State.engineKick, State.portStart_of_array h]

theorem State.eng_engineKick_of_array {s : State} {c : Nat} (h : ∀ o ∈ (s.eng c).ops, o.isArray = true) : (s.engineKick c).eng c = s.eng c := by
  rw [State.engineKick_of_array h]
  exact s.eng_setEng c _

/-! ## A gather's end (10 R203; 08 R161) -/

section
variable {s u v : State} {c : Nat} {o : MxOp} {as bs : List (List Nat)}

/-- With every row of both operands read, and every block paired, the gather has ended. -/
theorem State.gatherAll_of_rows (ha : s.operand c o o.fmtA o.a.toNat o.strideA o.scaleA o.virtA false 32 0 [] [] = .rows as u)
    (hb : u.operand c o o.fmtB o.b.toNat o.strideB o.scaleB o.virtB o.group.isSome 32 0 [] [] = .rows bs v)
    (hpair : o.fmtA = 5 → unpaired o.k as = false ∧ unpaired o.k bs = false) : s.gatherAll c o = v.gatherDone c o as bs := by
  unfold State.gatherAll
  rw [ha]
  dsimp only
  rw [hb]
  refine if_neg fun h => ?_
  simp [hpair h.1] at h

/-- GATHER_END of an engine's only operation, its lines all come. -/
theorem exec_gatherEnd {at_ : Nat} (hev : s.ev = some (.gatherEnd c)) (hops : (s.eng c).ops = [o]) (hstage : o.stage = .gathering at_) (hat : at_ ≤ s.now)
    (hremote : o.remote = []) (hdue : s.gatherDue c o ≤ s.now) : exec .gatherEnd s = .next (s.gatherAll c o) := by
  have hgathers : o.gathers s.now = true := by simp [MxOp.gathers, hstage, hat]
  have hends : s.gatherEnds c o = s.gatherAll c o := by
    rw [State.gatherEnds, hremote]
    exact (if_neg (by simp)).trans (if_neg (not_lt.mpr hdue))
  change execGatherEnd s = _
  unfold execGatherEnd
  rw [hev]
  simp [hops, hgathers, hends]

/-- An MXOP whose gather has ended takes its stream's next number, and its strand goes on. -/
theorem State.gatherDone_numbers (hkind : o.kind = .mxop) (hops : (v.eng c).ops = [o]) :
    let t := v.gatherDone c o as bs
    let id := c * 16 + o.slot
    t.slot id = { v.slot id with mxNext := (v.slot id).mxNext + 1, pc := (v.slot id).pc + 4, wait := .none } ∧
      (t.eng c).ops = [{ o with stage := .gathered v.now, opsA := as, opsB := bs, remote := [], num := (v.slot id).mxNext }] := by
  intro t id
  let o1 : MxOp := { o with stage := .gathered v.now, opsA := as, opsB := bs, remote := [], num := (v.slot id).mxNext }
  let w := (v.setEng c ((v.eng c).update o o1)).setSlot id { v.slot id with mxNext := (v.slot id).mxNext + 1, pc := (v.slot id).pc + 4, wait := .none }
  have hw : (w.eng c).ops = [o1] := by
    change ((v.setEng c _).eng c).ops = _
    rw [State.eng_setEng]
    exact Engine.ops_update_single _ hops
  have harr : ∀ p ∈ (w.eng c).ops, p.isArray = true := by
    rw [hw]
    simp [o1, MxOp.isArray, hkind]
  have ht : t = w.engineKick c := if_pos hkind
  refine ⟨?_, by rw [ht, State.eng_engineKick_of_array harr, hw]⟩
  rw [ht, State.engineKick_of_array harr]
  exact State.slot_setSlot _ _ _

end

/-! ## The array's start (12 R217) -/

/-- Alone in its engine and gathered, an operation is the one that the array takes. -/
theorem Engine.canRun_single {e : Engine} {o : MxOp} (hops : e.ops = [o]) (harr : o.isArray = true) (hg : o.isGathered = true) : e.canRun = [o] := by
  have hstage : (o.stage == .running) = false := by
    rw [beq_eq_false_iff_ne]
    intro h
    simp [MxOp.isGathered, h] at hg
  simp [Engine.canRun, hops, harr, hg, Engine.isHead_single hops, Engine.tilesFree, hstage]

/-- ARRAY_START of an idle array that has the licence and one gathered operation. -/
theorem exec_arrayStart {s : State} {c : Nat} {o : MxOp} (hev : s.ev = some (.arrayStart c)) (hawake : (s.eng c).gate = .awake)
    (hidle : (s.eng c).arrayBusy = none) (hheld : s.holdsLicence c = true) (hopen : (s.pair (pairOf c)).withheld = false)
    (hsettled : (s.pair (pairOf c)).granted = none) (hfree : (s.pair (pairOf c)).freeAt ≤ s.now) (hops : (s.eng c).ops = [o])
    (harr : o.isArray = true) (hg : o.isGathered = true) :
    let at_ := s.cycleTick c (s.cycleOf c + o.cycles)
    exec .arrayStart s =
      .next ((s.setEng c { (s.eng c).update o { o with stage := .running } with arrayBusy := some at_ }).schedule at_ (.mxopComplete c)) := by
  have hbegin : ¬((s.eng c).arrayBusy.isSome || !(s.eng c).isAwake) = true := by simp [hidle, Engine.isAwake, hawake]
  have hhead : ¬((s.eng c).ops.any fun o => o.isArray && o.isGathered && (s.eng c).isHead o) = false := by
    simp [hops, harr, hg, Engine.isHead_single hops]
  have hunsettled : s.unsettled (pairOf c) = false := by rw [State.unsettled, hsettled]
  change execArrayStart s = _
  unfold execArrayStart
  rw [hev]
  dsimp only
  rw [if_neg hbegin, if_neg hhead, if_neg (by simp [hheld]), if_neg (by omega), if_neg (by simp [hunsettled]), hopen,
    Engine.canRun_single hops harr hg]
  rfl

end Sys2Proof.Machine

namespace Sys2Proof.Claims

open Sys2Proof.Machine

/-- Settles O24: what a gather takes stands while the engine looks on, and an operation alone in its engine is the one that the array takes. -/
theorem gathersAndTheArrayStart : Obligations.GathersAndTheArrayStart := by
  intro s c o
  refine ⟨fun hev hawake hfree htag hfirst => ?_, fun at_ as bs u v hev hops hstage hat hremote hkind hdue ha hb hv hpair => ?_,
    fun hev hawake hidle hheld hopen hsettled hat _ hops harr hg => ?_⟩
  · obtain ⟨at_, hop, hend, hbound⟩ := State.gatherOne_takes hawake hfree htag hfirst
    obtain ⟨harr, -⟩ := Engine.waits_of_mayGather (mem_filter_of_firstByRank hfirst).2
    have hrest := ((s.gatherOne c).gatherOne_keepsBegun c).trans (State.portStart_keepsBegun _ c)
    have hall := (s.gatherOne_keepsBegun c).trans hrest
    refine ⟨((s.gatherOne c).gatherOne c).portStart c, at_, ?_, hrest.ops _ hop harr (by simp), hrest.agenda _ hend, hall.memory, hall.slots, hbound⟩
    change execGatherBegin s = _
    unfold execGatherBegin
    rw [hev]
  · obtain ⟨hslot, hops'⟩ := State.gatherDone_numbers (as := as) (bs := bs) hkind hv
    refine ⟨v.gatherDone c o as bs, ?_, congrArg Slot.pc hslot, congrArg Slot.wait hslot, congrArg Slot.mxNext hslot, State.mem_gatherDone v c o as bs, hops'⟩
    rw [exec_gatherEnd hev hops hstage hat hremote hdue, State.gatherAll_of_rows ha hb hpair]
  · refine ⟨_, exec_arrayStart hev hawake hidle hheld hopen hsettled hat hops harr hg, ?_, ?_, State.due_schedule _ _ _, ⟨rfl, rfl⟩, rfl⟩
    · exact congrArg Engine.arrayBusy (s.eng_setEng c _)
    · exact (congrArg Engine.ops (s.eng_setEng c _)).trans (Engine.ops_update_single _ hops)

end Sys2Proof.Claims
end

section
/-! Matrix operations complete (12 R217, R220; 07 R138; 16 R283; 10 R205): what accumulators hold, the stream's counter, and an engine with nothing left. -/

namespace Sys2Proof.Machine

/-! ## Accumulators that the engine's other changes leave -/

@[simp] theorem State.tile_setEng (s : State) (c : Nat) (e : Engine) (k i : Nat) : ((s.setEng c e).core k).tile i = (s.core k).tile i := by
  by_cases h : k = c
  · rw [h, State.setEng, State.core_setCore]; rfl
  · rw [State.setEng, State.core_setCore_other _ _ h]

theorem State.tile_scheduleOnce (s : State) (t : Nat) (e : Ev) (k i : Nat) : ((s.scheduleOnce t e).core k).tile i = (s.core k).tile i := by
  unfold State.scheduleOnce
  split <;> rfl

section
variable (s : State) (p : Nat) (crown : Bool) (k i : Nat)

theorem State.tile_grant (t : Nat) : ((s.grant p crown t).core k).tile i = (s.core k).tile i := by simp [State.grant]

theorem State.tile_watchHold : ((s.watchHold p).core k).tile i = (s.core k).tile i := by
  unfold State.watchHold
  split
  · dsimp only
    split
    · split
      · exact s.tile_scheduleOnce _ _ k i
      · rfl
    · rfl
  · rfl

theorem State.tile_passLicence : ((s.passLicence p crown).core k).tile i = (s.core k).tile i := by
  unfold State.passLicence
  dsimp only
  split
  · rw [State.tile_watchHold, State.tile_setEng, s.tile_grant]
  · exact s.tile_grant _ _ k i _

theorem State.tile_grantParked : ((s.grantParked p crown).core k).tile i = (s.core k).tile i := by
  unfold State.grantParked
  dsimp only
  split <;> exact s.tile_grant _ _ k i _

theorem State.tile_settleLicence : ((s.settleLicence p).core k).tile i = (s.core k).tile i := by
  unfold State.settleLicence
  dsimp only
  split
  · split
    · rfl
    split
    · rfl
    split
    · split
      · rfl
      split
      · exact s.tile_watchHold p k i
      · exact s.tile_passLicence p _ k i
    · split <;> rfl
  · split
    · rfl
    split
    · exact s.tile_grantParked p false k i
    split
    · exact s.tile_grantParked p true k i
    · rfl

end

/-! ## An engine with no operation left -/

/-- An engine without operations looks again at what it may begin, and its idle count starts: nothing but that count differs in it. -/
theorem State.kicked_of_empty {s : State} {c : Nat} (h : (s.eng c).ops = []) :
    let t := (s.engineKick c).ifIdle c
    EnginesOnly s t ∧ t.eng c = { s.eng c with idleSince := (t.eng c).idleSince } ∧ ∀ i, (t.core c).tile i = (s.core c).tile i := by
  have harr : ∀ o ∈ (s.eng c).ops, o.isArray = true := by simp [h]
  have heng := State.eng_engineKick_of_array harr
  have hframe : EnginesOnly s (s.engineKick c) := by rw [State.engineKick_of_array harr]; rfl
  have htile : ∀ i, ((s.engineKick c).core c).tile i = (s.core c).tile i := fun i => by
    rw [State.engineKick_of_array harr]
    exact s.tile_setEng c _ c i
  generalize s.engineKick c = u at heng hframe htile
  intro t
  by_cases hidle : (u.core c).engineIdle = true
  · have ht : t = u.restartIdle c := if_pos hidle
    have he := u.eng_restartIdle c
    rw [heng] at he
    rw [ht]
    exact ⟨hframe.trans (u.restartIdle_enginesOnly c), he, fun i => (u.tile_restartIdle c c i).trans (htile i)⟩
  · have ht : t = u := if_neg hidle
    rw [ht, heng]
    exact ⟨hframe, rfl, htile⟩

/-! ## The end of an operation in its engine and its stream (07 R138) -/

/-- An engine's operation has ended: its engine is as given, and its stream's counter stands at its number. -/
def State.opEnded (s : State) (c : Nat) (o : MxOp) (e : Engine) : State := (s.setEng c e).streamDone c o

theorem State.opEnded_leaves {s : State} {c : Nat} {o : MxOp} (e : Engine) (h : (s.slot (c * 16 + o.slot)).gang = o.gang) :
    let t := s.opEnded c o e
    (t.slot (c * 16 + o.slot)).mxDone = o.num ∧ t.eng c = e ∧ ∀ i, (t.core c).tile i = (s.core c).tile i := by
  refine ⟨?_, s.eng_setEng c e, fun i => s.tile_setEng c e c i⟩
  have hgang : ((s.setEng c e).slot (c * 16 + o.slot)).gang = o.gang := h
  rw [State.opEnded, State.streamDone, State.slot_setSlot, Slot.setStream, if_pos hgang]

/-- The work of an operation's copy counts its array cycles (16 R283). -/
def State.countCycles (s : State) (o : MxOp) : State :=
  if (s.gang o.gang).live then s.setGang o.gang { s.gang o.gang with work := min ((s.gang o.gang).work + o.cycles) (2 ^ 64 - 1) } else s

theorem State.countCycles_leaves (s : State) (o : MxOp) : s.countCycles o = { s with gangs := (s.countCycles o).gangs } := by
  unfold State.countCycles
  split <;> rfl

theorem State.work_countCycles {s : State} {o : MxOp} (h : (s.gang o.gang).live = true) :
    ((s.countCycles o).gang o.gang).work = min ((s.gang o.gang).work + o.cycles) (2 ^ 64 - 1) := by
  rw [State.countCycles, if_pos h, State.gang_setGang]

/-! ## Elements and flags of accumulators (12 R220) -/

theorem State.eng_setTiles (s : State) (c : Nat) (o : MxOp) (els : List Nat) (flags : BitVec 4) (clear : Bool) (k : Nat) :
    (s.setTiles c o els flags clear).eng k = s.eng k := by
  unfold State.eng State.setTiles
  by_cases h : k = c
  · rw [h, State.core_setCore]
  · rw [State.core_setCore_other _ _ h]

theorem holdsTiles_setTiles (s : State) (c : Nat) (o : MxOp) (els : List Nat) (flags : BitVec 4) (clear : Bool) :
    Claims.HoldsTiles s (s.setTiles c o els flags clear) c o.tiles els fun i => (if clear then 0 else ((s.core c).tile i).flags) ||| flags := by
  unfold Claims.HoldsTiles State.setTiles
  simp only [State.core_setCore, Core.tile]
  refine ⟨fun k hk => ?_, fun k l hne hkl => ?_, fun k hk => ?_⟩
  · simp [hk]
  · simp [hkl, tget_tset_other _ _ _ hne]
  · cases ht : o.tiles with
    | nil => rfl
    | cons a r =>
      rw [ht, List.mem_cons, not_or] at hk
      cases r with
      | nil => exact tget_tset_other _ _ _ hk.1
      | cons b r =>
        rw [List.mem_cons, not_or] at hk
        exact (tget_tset_other _ _ _ hk.2.1).trans (tget_tset_other _ _ _ hk.1)

/-- An operation that clears leaves the elements that it is given, and no flag. -/
theorem holdsTiles_clear (s : State) (c : Nat) (o : MxOp) (els : List Nat) :
    Claims.HoldsTiles s (s.setTiles c o els 0 true) c o.tiles els fun _ => 0 := by
  simpa using holdsTiles_setTiles s c o els 0 true

theorem holdsTiles_of_tiles {s t u : State} {c : Nat} {tiles els : List Nat} {f : Nat → BitVec 4} (h : Claims.HoldsTiles s t c tiles els f)
    (hu : ∀ i, (u.core c).tile i = (t.core c).tile i) : Claims.HoldsTiles s u c tiles els f := by
  obtain ⟨hone, hpair, hrest⟩ := h
  exact ⟨fun k hk => (hu k).trans (hone k hk), fun k l hne hkl => ⟨(hu k).trans (hpair k l hne hkl).1, (hu l).trans (hpair k l hne hkl).2⟩,
    fun k hk => (hu k).trans (hrest k hk)⟩

/-! ## MXOP_COMPLETE (12 R217, R220) -/

section
variable {s : State} {c at_ : Nat} {o : MxOp}

/-- An MXOP's sums are in its accumulator and its flags are added. -/
def State.withSums (s : State) (c : Nat) (o : MxOp) : State :=
  let r := o.result ((s.core c).tile (o.tiles.getD 0 0)) ((s.core c).tile (o.tiles.getD 1 0))
  s.setTiles c o (r.map (·.1)) (tileFlags (r.foldl (fun (f : BitVec 5) x => f ||| x.2) 0)) false

theorem exec_mxopComplete (hev : s.ev = some (.mxopComplete c)) (hops : (s.eng c).ops = [o]) (hstage : o.stage = .running)
    (hbusy : (s.eng c).arrayBusy = some at_) (hat : at_ ≤ s.now) (harr : o.isArray = true) :
    exec .mxopComplete s = .next ((((((s.withSums c o).opEnded c o { s.eng c with ops := [], arrayBusy := none }).countCycles o).settleLicence
      (pairOf c)).engineKick c).ifIdle c) := by
  have hfind : [o].find? (fun o => o.isArray && o.stage == .running) = some o := by simp [harr, hstage]
  have hgone : [o].filter (· != o) = [] := by simp
  change execMxopComplete s = _
  unfold execMxopComplete
  rw [hev]
  dsimp only
  rw [hops, hfind, hbusy]
  dsimp only
  rw [if_neg (by omega), hgone, State.eng_setTiles]
  rfl

/-! ## PORT_OPERATION_COMPLETE (10 R205; 12 R217) -/

/-- A fault that becomes pending for a strand leaves its gang, the FE bits and the cores. -/
theorem State.postEngine_leaves (s : State) (id gang : Nat) (t : TrapInfo) :
    (s.postEngine id gang t).fe = s.fe ∧ (s.postEngine id gang t).cores = s.cores ∧ ((s.postEngine id gang t).slot id).gang = (s.slot id).gang := by
  unfold State.postEngine
  dsimp only
  split
  · exact ⟨rfl, rfl, rfl⟩
  split
  · exact ⟨rfl, rfl, by rw [State.slot_setSlot]⟩
  · unfold State.postCause
    dsimp only
    split
    · exact ⟨rfl, rfl, by rw [State.slot_soon, State.slot_setSlot]⟩
    · exact ⟨rfl, rfl, by rw [State.slot_setSlot]⟩

/-- The elements of an accumulator, or of a pair, as they stand in memory (10 R205). -/
def MxOp.elements (o : MxOp) (m : List Host.Cell) : List Nat :=
  (List.range 1024).map fun i => memRead m (o.pa + i * (if o.tiles.length = 2 then 8 else 4)) (if o.tiles.length = 2 then 8 else 4)

theorem State.portEffect_mxz (hk : o.kind = .mxz) : s.portEffect c o = s.setTiles c o (List.replicate 1024 0) 0 true := by
  rw [State.portEffect, hk]

/-- MXLD's accumulator takes the elements in memory, and only where a word of memory is damaged does a fault become pending. -/
theorem State.portEffect_mxld (hk : o.kind = .mxld) :
    s.portEffect c o = s.setTiles c o (o.elements s.mem) 0 true ∨
    s.bad ≠ [] ∧ ∃ g t, s.portEffect c o = ((s.setTiles c o (o.elements s.mem) 0 true).setGang o.gang g).postEngine (c * 16 + o.slot) o.gang t := by
  rw [State.portEffect, hk, MxOp.elements]
  simp only [beq_iff_eq]
  by_cases h : ((MemOp.span (.load (if o.tiles.length = 2 then 8192 else 4096)) o.pa).any s.bad.contains) = true
  · rw [if_pos h]
    exact .inr ⟨fun hbad => by simp [hbad] at h, _, _, rfl⟩
  · exact .inl (if_neg h)

theorem State.portEffect_mxst (hk : o.kind = .mxst) : s.portEffect c o =
    s.enginePut c (s.gang o.gang).job (.ownMem o.pa) (o.image ((s.core c).tile (o.tiles.getD 0 0)) ((s.core c).tile (o.tiles.getD 1 0))) := by
  rw [State.portEffect, hk]

theorem State.mem_portEffect_mxld (hk : o.kind = .mxld) : (s.portEffect c o).mem = s.mem := by
  rcases State.portEffect_mxld (s := s) (c := c) hk with h | ⟨-, g, t, h⟩
  · rw [h, State.mem_setTiles]
  · rw [h, State.mem_postEngine]
    rfl

/-- Whatever an operation has done to accumulators or memory, FE bits, the engine and the gang of the operation's slot are as before. -/
theorem State.portEffect_leaves (s : State) (c : Nat) (o : MxOp) :
    (s.portEffect c o).fe = s.fe ∧ (s.portEffect c o).eng c = s.eng c ∧
      ((s.portEffect c o).slot (c * 16 + o.slot)).gang = (s.slot (c * 16 + o.slot)).gang := by
  cases hk : o.kind with
  | mxz =>
    rw [State.portEffect_mxz hk]
    exact ⟨rfl, s.eng_setTiles c o _ _ _ c, rfl⟩
  | mxld =>
    rcases State.portEffect_mxld (s := s) (c := c) hk with h | ⟨-, g, t, h⟩
    · rw [h]
      exact ⟨rfl, s.eng_setTiles c o _ _ _ c, rfl⟩
    · obtain ⟨hfe, hcores, hgang⟩ := ((s.setTiles c o (o.elements s.mem) 0 true).setGang o.gang g).postEngine_leaves (c * 16 + o.slot) o.gang t
      rw [h]
      exact ⟨hfe, (congrArg (fun l => (tget l c ({} : Core)).eng) hcores).trans (s.eng_setTiles c o _ _ _ c), hgang⟩
  | mxst =>
    rw [State.portEffect_mxst hk]
    exact ⟨State.fe_enginePut_own .., congrArg Core.eng (State.core_enginePut_own ..),
      congrArg (fun l => (tget l (c * 16 + o.slot) ({} : Slot)).gang) (State.slots_enginePut_own ..)⟩
  | mxop | followOn =>
    rw [State.portEffect, hk]
    exact ⟨rfl, rfl, rfl⟩

/-- What PORT_OPERATION_COMPLETE of an engine's only operation does, by the cycles that its lines lost. -/
theorem exec_portOperationComplete (hev : s.ev = some (.portOperationComplete c)) (hops : (s.eng c).ops = [o]) (hstage : o.stage = .running)
    (hbusy : (s.eng c).portBusy = some at_) (harr : o.isArray = false) :
    exec .portOperationComplete s = .next
      (if s.now < at_ + s.portLost c o * tickLen c then
        (s.setEng c { s.eng c with portBusy := some at_ }).schedule (at_ + s.portLost c o * tickLen c) (.portOperationComplete c)
      else (((s.portEffect c o).opEnded c o { s.eng c with ops := [], portBusy := none }).engineKick c).ifIdle c) := by
  have hfind : [o].find? (fun o => !o.isArray && o.stage == .running) = some o := by simp [harr, hstage]
  have hgone : [o].filter (· != o) = [] := by simp
  change execPortOperationComplete s = _
  unfold execPortOperationComplete
  rw [hev]
  dsimp only
  rw [hops, hfind, hbusy]
  dsimp only
  rw [(s.portEffect_leaves c o).2.1, hops, hgone, apply_ite Host.Outcome.next]
  rfl

end
end Sys2Proof.Machine

namespace Sys2Proof.Claims

open Sys2Proof.Machine

section
variable {s : State} {c at_ : Nat} {o : MxOp}

/-- An MXOP completes in its accumulator, in its stream and in its copy's work. -/
theorem mxop_completes (hev : s.ev = some (.mxopComplete c)) (hops : (s.eng c).ops = [o]) (hstage : o.stage = .running)
    (hbusy : (s.eng c).arrayBusy = some at_) (hat : at_ ≤ s.now) (harr : o.isArray = true) (hgang : (s.slot (c * 16 + o.slot)).gang = o.gang) :
    let k := s.core c
    let r := o.result (k.tile (o.tiles.getD 0 0)) (k.tile (o.tiles.getD 1 0))
    ∃ t, exec .mxopComplete s = .next t ∧ (t.slot (c * 16 + o.slot)).mxDone = o.num ∧ KeepsMemory s t ∧ (t.eng c).ops = [] ∧
      (t.eng c).arrayBusy = none ∧
      HoldsTiles s t c o.tiles (r.map (·.1)) (fun i => (k.tile i).flags ||| tileFlags (r.foldl (fun f x => f ||| x.2) 0)) ∧
      ((s.gang o.gang).live = true → (t.gang o.gang).work = min ((s.gang o.gang).work + o.cycles) (2 ^ 64 - 1)) := by
  intro k r
  have hsums : HoldsTiles s (s.withSums c o) c o.tiles (r.map (·.1)) (fun i => (k.tile i).flags ||| tileFlags (r.foldl (fun f x => f ||| x.2) 0)) :=
    holdsTiles_setTiles s c o _ _ false
  have hx := exec_mxopComplete hev hops hstage hbusy hat harr
  obtain ⟨hdone, heng, htile⟩ := State.opEnded_leaves (s := s.withSums c o) { s.eng c with ops := [], arrayBusy := none } hgang
  have hmem : KeepsMemory s ((s.withSums c o).opEnded c o { s.eng c with ops := [], arrayBusy := none }) := ⟨rfl, rfl⟩
  have hsame : ((s.withSums c o).opEnded c o { s.eng c with ops := [], arrayBusy := none }).gang o.gang = s.gang o.gang := rfl
  generalize (s.withSums c o).opEnded c o { s.eng c with ops := [], arrayBusy := none } = u at hx hdone heng htile hmem hsame
  have hcount := u.countCycles_leaves o
  have hwork : (s.gang o.gang).live = true → ((u.countCycles o).gang o.gang).work = min ((s.gang o.gang).work + o.cycles) (2 ^ 64 - 1) := fun h => by
    rw [State.work_countCycles (by rw [hsame]; exact h), hsame]
  generalize u.countCycles o = v at hx hcount hwork
  have hlic := v.settleLicence_leaves (pairOf c)
  have htile' := v.tile_settleLicence (pairOf c) c
  generalize v.settleLicence (pairOf c) = w at hx hlic htile'
  have hv : v.eng c = { s.eng c with ops := [], arrayBusy := none } := by rw [hcount]; exact heng
  have hw : (w.eng c).ops = [] ∧ (w.eng c).arrayBusy = none := by rw [hlic.eng c, hv]; exact ⟨rfl, rfl⟩
  obtain ⟨hkick, hkeng, hktile⟩ := State.kicked_of_empty hw.1
  have hframe := hlic.enginesOnly.trans hkick
  refine ⟨_, hx, ?_, ?_, by rw [hkeng]; exact hw.1, by rw [hkeng]; exact hw.2, holdsTiles_of_tiles hsums fun i => ?_, fun h => ?_⟩
  · rw [State.slot, hframe.slots, hcount]
    exact hdone
  · obtain ⟨hm, hf⟩ := hframe.keepsMemory
    rw [hcount] at hm hf
    exact ⟨hm.trans hmem.1, hf.trans hmem.2⟩
  · refine (hktile i).trans ((htile' i).trans ?_)
    rw [hcount]
    exact htile i
  · rw [← hwork h, hframe]
    rfl

/-- A port operation whose lines lost no cycle beyond now completes: what its effect leaves in accumulators and memory stands. -/
theorem port_completes (hev : s.ev = some (.portOperationComplete c)) (hops : (s.eng c).ops = [o]) (hstage : o.stage = .running)
    (hbusy : (s.eng c).portBusy = some at_) (harr : o.isArray = false) (hgang : (s.slot (c * 16 + o.slot)).gang = o.gang)
    (hdue : at_ + s.portLost c o * tickLen c ≤ s.now) :
    ∃ t, exec .portOperationComplete s = .next t ∧ (t.slot (c * 16 + o.slot)).mxDone = o.num ∧ t.fe = s.fe ∧ (t.eng c).ops = [] ∧
      (t.eng c).portBusy = none ∧ t.mem = (s.portEffect c o).mem ∧ ∀ i, (t.core c).tile i = ((s.portEffect c o).core c).tile i := by
  have hx := exec_portOperationComplete hev hops hstage hbusy harr
  rw [if_neg (by omega)] at hx
  obtain ⟨hfe, -, hgang'⟩ := s.portEffect_leaves c o
  obtain ⟨hdone, heng, htile⟩ := State.opEnded_leaves (s := s.portEffect c o) { s.eng c with ops := [], portBusy := none } (hgang'.trans hgang)
  have hmem : KeepsMemory (s.portEffect c o) ((s.portEffect c o).opEnded c o { s.eng c with ops := [], portBusy := none }) := ⟨rfl, rfl⟩
  generalize (s.portEffect c o).opEnded c o { s.eng c with ops := [], portBusy := none } = u at hx hdone heng htile hmem
  obtain ⟨hkick, hkeng, hktile⟩ := State.kicked_of_empty (s := u) (c := c) (by rw [heng])
  obtain ⟨hm, hf⟩ := hkick.keepsMemory
  refine ⟨_, hx, ?_, hf.trans (hmem.2.trans hfe), by rw [hkeng, heng], by rw [hkeng, heng], hm.trans hmem.1, fun i => (hktile i).trans (htile i)⟩
  rw [State.slot, hkick.slots]
  exact hdone

end

/-- Settles O25: an operation's end is its effect on accumulators or memory, then its stream's counter, and an engine that has nothing left. -/
theorem matrixOperationsComplete : Obligations.MatrixOperationsComplete := by
  intro s c o at_ hat hops hstage hgang k id
  refine ⟨fun hev hbusy harr => mxop_completes hev hops hstage hbusy hat harr hgang, fun hev hbusy harr => ⟨fun hlate => ?_, fun hdue => ?_⟩⟩
  · have hx := exec_portOperationComplete hev hops hstage hbusy harr
    rw [if_pos hlate] at hx
    exact ⟨_, hx, State.due_schedule _ _ _, (congrArg Engine.ops (s.eng_setEng c _)).trans hops, congrArg Engine.portBusy (s.eng_setEng c _), ⟨rfl, rfl⟩,
      fun _ _ => rfl⟩
  · obtain ⟨t, hx, hdone, hfe, hnone, hidle, hmem, htile⟩ := port_completes hev hops hstage hbusy harr hgang hdue
    refine ⟨t, hx, hdone, hfe, hnone, hidle, fun hk => ?_, fun hk => ?_, fun hk => ?_⟩
    · rw [State.portEffect_mxz hk] at hmem htile
      exact ⟨hmem, holdsTiles_of_tiles (holdsTiles_clear s c o _) htile⟩
    · refine ⟨hmem.trans (State.mem_portEffect_mxld hk), fun hbad => ?_⟩
      rw [(State.portEffect_mxld hk).resolve_right fun h => h.1 hbad] at htile
      exact holdsTiles_of_tiles (holdsTiles_clear s c o (o.elements s.mem)) htile
    · rw [State.portEffect_mxst hk] at hmem htile
      rw [State.mem_enginePut_own] at hmem
      exact ⟨hmem, by simp, by simp, fun i _ => (htile i).trans (congrArg (fun k => k.tile i) (State.core_enginePut_own ..))⟩

end Sys2Proof.Claims
end

section
/-! READY bits (23 R367): a packet's packet is performed as what it carries, though what the outer one carries is neither a reset nor a READY_SET. -/

namespace Sys2Proof.Claims

open Sys2Proof.Machine

/-- The header of a class 3 packet, which needs no place in a flow (22 R351). -/
def beatHead : PacketHead := { modul := 0, inc := 0, src := 0, dst := 0, cls := 3, fseq := 0 }

/-- A reset in a packet that is itself in a packet. -/
def resetInPackets : Ev := .fromModule beatHead 0 (.fromModule beatHead 0 .reset)

/-- A module with a READY bit set, at which that packet is due. -/
def resetDue : State := { State.reset with ready := 1, agenda := [(0, resetInPackets)] }

theorem step_resetDue : step resetDue = .next { State.reset with incarnation := 1 } := rfl

/-- Refutes O60: `Ev.instr` looks through every packet around a step and `plainEv` through one, so a reset in two packets clears READY bits, and
what the outer packet brings is the inner packet. -/
theorem not_readyBitsClearOnlyAtReset : ¬ Obligations.ReadyBitsClearOnlyAtReset := by
  unfold Obligations.ReadyBitsClearOnlyAtReset
  intro h
  obtain hready | ⟨k, r, hk, hplain⟩ := h resetDue _ step_resetDue
  · exact absurd hready (by decide)
  · cases hk
    obtain he | ⟨b, he, -⟩ := hplain <;> cases he

end Sys2Proof.Claims
end

section
/-! What reset leaves (23 R367; 06 R123; 22 R359, R361; 03 R60). -/

namespace Sys2Proof.Claims

/-- Settles O57: the tables of the reset state are empty, so each entry reads as its kind's default. -/
theorem resetState : Obligations.ResetState :=
  ⟨rfl, rfl, fun _ => rfl, fun _ => rfl, fun _ => ⟨rfl, rfl⟩, fun _ => ⟨rfl, rfl⟩, fun _ => rfl, rfl, fun _ => rfl, fun _ => rfl, fun _ => rfl⟩

end Sys2Proof.Claims
end

section
/-! The agenda under the state's operations: what is due stays due. -/

namespace Sys2Proof.Machine

theorem mem_agendaInsert_iff {l : List (Nat × Ev)} {t : Nat} {e : Ev} {x : Nat × Ev} : x ∈ agendaInsert l t e ↔ x = (t, e) ∨ x ∈ l := by
  induction l with
  | nil => simp [agendaInsert]
  | cons c r ih =>
    simp only [agendaInsert]
    split
    · simp
    · simp only [List.mem_cons, ih]
      exact or_left_comm

@[simp] theorem State.mem_agenda_schedule {s : State} {t : Nat} {e : Ev} {x : Nat × Ev} :
    x ∈ (s.schedule t e).agenda ↔ x = (t, e) ∨ x ∈ s.agenda := mem_agendaInsert_iff

@[simp] theorem State.mem_agenda_soon {s : State} {e : Ev} {x : Nat × Ev} : x ∈ (s.soon e).agenda ↔ x = (s.now, e) ∨ x ∈ s.agenda :=
  mem_agendaInsert_iff

theorem State.mem_agenda_startAbort {s : State} {x : Nat × Ev} (h : x ∈ s.agenda) (j source detail : Nat) :
    x ∈ (s.startAbort j source detail).agenda := by
  unfold State.startAbort
  dsimp only
  split
  · exact h
  · split
    · exact State.mem_agenda_soon.2 (.inr h)
    · exact h

/-- Events due now, one after another, leave the rest of the state. -/
theorem State.foldl_soon {α : Type} (e : α → Ev) (l : List α) (s : State) :
    ∃ a, l.foldl (fun (u : State) x => u.soon (e x)) s = { s with agenda := a } := by
  induction l generalizing s with
  | nil => exact ⟨_, rfl⟩
  | cons x l ih =>
    obtain ⟨a, ha⟩ := ih (s.soon (e x))
    exact ⟨a, ha⟩

/-- Every unit that looks at its queue is all that freed resources add. -/
theorem State.poke_agenda (s : State) (cl : Nat) :
    ∃ a, s.poke cl = { s with agenda := a } ∧ (s.now, .agingStep cl) ∈ a ∧ ∀ e ∈ s.agenda, e ∈ a := by
  unfold State.poke
  split
  · next h => exact ⟨s.agenda, rfl, by simpa using h, fun _ h => h⟩
  · exact ⟨_, rfl, State.due_soon s _, fun _ h => State.mem_agenda_soon.2 (.inr h)⟩

theorem State.foldl_poke {α : Type} (f : α → Nat) (l : List α) (s : State) :
    ∃ a, l.foldl (fun (u : State) x => u.poke (f x)) s = { s with agenda := a } ∧ (∀ x ∈ l, (s.now, .agingStep (f x)) ∈ a) ∧ ∀ e ∈ s.agenda, e ∈ a := by
  induction l generalizing s with
  | nil => exact ⟨s.agenda, rfl, by simp, fun _ h => h⟩
  | cons x l ih =>
    obtain ⟨a, h, hx, hs⟩ := s.poke_agenda (f x)
    obtain ⟨b, h', hl, ha⟩ := ih { s with agenda := a }
    rw [List.foldl_cons, h]
    exact ⟨b, h', List.forall_mem_cons.2 ⟨ha _ hx, hl⟩, fun e he => ha e (hs e he)⟩

theorem State.resourcesFreed_agenda (s : State) : ∃ a, s.resourcesFreed = { s with agenda := a } ∧ ∀ e ∈ s.agenda, e ∈ a := by
  obtain ⟨a, h, -, ha⟩ := State.foldl_poke Prod.fst s.clusters s
  exact ⟨a, h, ha⟩

theorem State.retryCommits_agenda (s : State) : ∃ a, s.retryCommits = { s with agenda := a } := by
  unfold State.retryCommits
  generalize s.commits.filter _ = l
  induction l generalizing s with
  | nil => exact ⟨_, rfl⟩
  | cons m l ih =>
    rw [List.foldl_cons, State.scheduleOnce]
    split
    · exact ih s
    · exact ih _

end Sys2Proof.Machine
end

section
/-! Taking a trap, taking one in a handler, and returning from one (25 R384, R385, R388; 23 R366, R371). -/

namespace Sys2Proof.Machine

/-- A strand that returns from a trap stands at the address with bit 0 cleared, with the innermost record gone (23 R371). -/
theorem State.slot_returnFromTrap (s : State) (id : Nat) (pc : Word) :
    (s.returnFromTrap id pc).slot id =
      { s.slot id with pc := pc &&& ~~~1, mode := false, cause := 0, nestedCsr := (s.slot id).nestedCsr.tail,
                       trapArea := (s.slot id).trapArea.tail, handlerBlock := none, owed := none, wait := .none,
                       nextTick := s.now + 16 * tickLen (id / 16) } := by
  unfold State.returnFromTrap
  dsimp only
  obtain ⟨a, ha⟩ := State.foldl_soon (fun k : CopyCmd => Ev.copyCommandStart (id / 16) k.ch) (((s.setSlot id _).core (id / 16)).copies.filter _) _
  rw [ha]
  exact State.slot_setSlot ..

end Sys2Proof.Machine

namespace Sys2Proof.Claims

open Sys2Proof.Machine

theorem trapEntry : TrapEntry := by
  intro s id t epc hm
  obtain ⟨-, -, o, hslot⟩ := s.takeTrap_leaves id t epc
  dsimp only
  rw [hslot]
  refine ⟨rfl, rfl, rfl, rfl, rfl, rfl, rfl, rfl, rfl, rfl, rfl, rfl, rfl, ?_⟩
  simp [State.entered, hm]

theorem nestedTrapEntry : NestedTrapEntry := by
  intro s id t epc hm
  obtain ⟨hnow, -, o, hslot⟩ := s.takeTrap_leaves id t epc
  dsimp only
  refine ⟨?_, by rw [hslot]; rfl, by rw [hslot]; rfl, by rw [hslot]; rfl, by rw [hslot]; rfl, fun hn => ?_⟩
  · rw [hslot]
    simp [State.entered, hm]
  · rw [hnow, s.takeTrap_eq, if_pos hm, if_neg hn]
    refine State.mem_agenda_startAbort ?_ _ _ _
    have hheld : (s.trapped id t epc).now = s.now := (s.trapped_slotsHeld id t epc).2
    exact hheld ▸ State.due_soon _ _

theorem trapReturn : TrapReturn := by
  intro s id pc
  dsimp only
  rw [s.slot_returnFromTrap id pc]
  exact ⟨rfl, rfl, rfl, rfl, rfl, rfl, rfl, rfl, rfl, rfl, rfl, rfl, rfl⟩

/-- Settles O10. -/
theorem trapEntryAndReturn : Obligations.TrapEntryAndReturn := ⟨trapEntry, nestedTrapEntry, trapReturn⟩

end Sys2Proof.Claims
end

section
/-! The checks of an instruction (25 R386, R387; 01 R14, R22; 02 R42; 04 R77; 06 R113): each raises its trap with nothing done. -/

namespace Sys2Proof.Machine

section
variable {s : State} {n : Nat} {va : Word} {acc : Access} {home writes : Bool} (k : Place → State → State)

/-- An address that is not a multiple of the access's size traps ALIGN (25 R387 stage 7). -/
theorem State.reach_misaligned (ha : va.toNat % n ≠ 0) :
    s.reach n va acc home writes k = s.trapHere { cause := .align, addr := va } := if_pos ha

/-- An aligned address that does not translate traps XLAT with the level (25 R392). -/
theorem State.reach_untranslated {l : Nat} (h : Claims.Reaches s n va acc (.xlat l)) :
    s.reach n va acc home writes k = s.trapHere { cause := .xlat, addr := va, detail := l } := by
  obtain ⟨ha, ht⟩ := h
  rw [State.reach, if_neg (by simpa using ha), ht]

/-- A translation that refuses the access traps PROT. -/
theorem State.reach_refused (h : Claims.Reaches s n va acc .prot) :
    s.reach n va acc home writes k = s.trapHere { cause := .prot, addr := va } := by
  obtain ⟨ha, ht⟩ := h
  rw [State.reach, if_neg (by simpa using ha), ht]

/-- A place that the strand may not write traps PROT (25 R387 stage 8). -/
theorem State.reach_forbidden {p : Place} (h : Claims.Reaches s n va acc p) (hp : (Claims.placeAddr p).isSome = true) (hw : s.mayWrite p = false) :
    s.reach n va acc home true k = s.trapHere { cause := .prot, addr := va } := by
  obtain ⟨ha, ht⟩ := h
  subst ht
  rw [State.reach, if_neg (by simpa using ha)]
  split
  · next h => rw [h] at hp; cases hp
  · rfl
  · rw [hw]; simp

end

end Sys2Proof.Machine

namespace Sys2Proof.Claims

open Sys2Proof.Machine

/-- Every three-register form looks at its registers before anything else. -/
theorem threeRegister_alu (s : State) (d a b : BitVec 7) (k st : BitVec 2) :
    ∀ f ∈ threeRegister s d a b k st, ∃ lat v, exec f.instr s = .next (s.alu 4 lat f.regs d st v) := by
  simp only [threeRegister, List.forall_mem_cons]
  iterate 19 refine ⟨⟨_, _, rfl⟩, ?_⟩
  exact List.forall_mem_nil _

theorem registerChecksTrapFirst : RegisterChecksTrapFirst := by
  intro s d a b k st f hf r
  obtain ⟨lat, v, hexec⟩ := threeRegister_alu s d a b k st f hf
  exact ⟨fun hbad => hexec.trans (congrArg _ (s.guarded_regwin _ _ hbad)),
    fun hbad hearly => hexec.trans (congrArg _ (s.guarded_early _ _ hbad hearly))⟩

/-- Every plain store checks its address before it waits or writes. -/
theorem stores_reach (s : State) (d a b : BitVec 7) (d' a' : BitVec 4) (o : BitVec 6) (o' : BitVec 3) (st : BitVec 2) :
    ∀ f ∈ stores s d a b d' a' o o' st, Settled s f.regs → ∃ k, exec f.instr s = .next (s.reach f.size f.addr .write false true k) := by
  simp only [stores, List.forall_mem_cons]
  iterate 7 refine ⟨fun h => ⟨_, congrArg Host.Outcome.next (h.guarded _)⟩, ?_⟩
  exact List.forall_mem_nil _

theorem accessChecksTrap : AccessChecksTrap := by
  intro s d a b d' a' o o' st
  refine ⟨fun f hf hs => ?_, fun f hf hs => ?_⟩
  · have hexec := (loads_run s d a b d' a' o o' st f hf).exec hs
    exact ⟨fun ha => hexec.trans (congrArg _ (State.reach_misaligned _ ha)),
      fun l hl => hexec.trans (congrArg _ (State.reach_untranslated _ hl)), fun hp => hexec.trans (congrArg _ (State.reach_refused _ hp))⟩
  · obtain ⟨k, hk⟩ := stores_reach s d a b d' a' o o' st f hf hs
    refine ⟨fun ha => hk.trans (congrArg _ (State.reach_misaligned k ha)), fun l hl => hk.trans (congrArg _ (State.reach_untranslated k hl)),
      fun p hr hp => hk.trans (congrArg _ ?_)⟩
    obtain rfl | ⟨hplace, hw⟩ := hp
    · exact State.reach_refused k hr
    · exact State.reach_forbidden k hr hplace hw

theorem fetchAndDecodeTraps : FetchAndDecodeTraps := by
  intro s w addr level
  have hfault (p : Bool) (h : s.ev = some (.instructionFetchFault p addr level)) :
      exec .instructionFetchFault s = .next (s.trapHere (fetchTrap p addr level)) := by
    show execInstructionFetchFault s = _
    simp only [execInstructionFetchFault, h]
  exact ⟨fun _ => rfl, hfault true, hfault false⟩

/-- Settles O11. -/
theorem checksTrap : Obligations.ChecksTrap := ⟨registerChecksTrapFirst, accessChecksTrap, fetchAndDecodeTraps⟩

end Sys2Proof.Claims
end

section
/-! The system instructions (23 R369 to R379) and what shared endings of an instruction leave: its result, its checks and its line. -/

namespace Sys2Proof.Machine

/-- A privileged instruction whose checks pass, at firmware privilege. -/
theorem State.guardedPriv_ok {s : State} {regs : List (BitVec 7)} (hm : s.me.mode = true) (h : Claims.Settled s regs) (k : State → State) :
    s.guardedPriv regs k = k s := by
  simp [State.guardedPriv, h.1, hm, h.guarded]

/-- At job privilege it traps PRIV with nothing done (25 R387 stage 4). -/
theorem State.guardedPriv_job {s : State} {regs : List (BitVec 7)} (hm : s.me.mode = false) (h : s.me.badReg regs = none) (k : State → State) :
    s.guardedPriv regs k = s.trapHere { cause := .priv } := by
  simp [State.guardedPriv, h, hm]

theorem State.badReg_subset {v : Slot} {l l' : List (BitVec 7)} (h : v.badReg l' = none) (hl : l ⊆ l') : v.badReg l = none := by
  simp only [Slot.badReg, List.find?_eq_none] at h ⊢
  exact fun r hr => h r (hl hr)

end Sys2Proof.Machine

namespace Sys2Proof.Claims

open Sys2Proof.Machine

/-- The strand of u, its cursor, the time and memory are those of s: an instruction that goes on from u goes on from s. -/
structure SameStrand (s u : State) : Prop where
  me : u.me = s.me
  cur : u.cur = s.cur
  now : u.now = s.now
  mem : u.mem = s.mem
  fe : u.fe = s.fe

theorem SameStrand.base {s u : State} (h : SameStrand s u) : u.base = s.base := by simp [State.base, h.me, h.now]
theorem SameStrand.coreId {s u : State} (h : SameStrand s u) : u.coreId = s.coreId := by simp [State.coreId, h.cur]
theorem SameStrand.rfl {s : State} : SameStrand s s := ⟨.refl _, .refl _, .refl _, .refl _, .refl _⟩

/-- Going on past a word of n bytes. -/
theorem SameStrand.goesOn {s u : State} (h : SameStrand s u) (n : Nat) (st : BitVec 2) :
    GoesOn s (u.retire n st) (s.me.pc + BitVec.ofNat 64 n) st := by
  have hgo := GoesOn.retire u n st
  unfold GoesOn at hgo ⊢
  rwa [h.me, h.base, h.coreId] at hgo

/-- A result of class VAR is in x[D], and the strand goes on. -/
theorem SameStrand.answers {s u : State} (h : SameStrand s u) {d : BitVec 7} (hd : s.me.regOk d.toNat = true) (v : Word) (st : BitVec 2) :
    Answers s (u.result d v st) d v st := by
  refine ⟨⟨?_, fun r hr hne => ?_⟩, ?_, h.mem, h.fe⟩
  · simp [State.rx, State.result]
  · simp [State.rx, State.result, h.me, s.me.rx_wx_other v hd hr hne]
  · simp [GoesOn, State.result, State.base_wx, h.me, h.base]
    simp [State.coreId, State.wx, h.cur]

theorem OnlyMe.result (s : State) (d : BitVec 7) (v : Word) (st : BitVec 2) : OnlyMe s (s.result d v st) :=
  OnlyMe.trans (OnlyMe.setMe _ _) (OnlyMe.retire _ _ _)

/-- What an instruction leaves is untouched by a later change of another slot. -/
theorem Answers.setSlot_other {s t : State} {d : BitVec 7} {v : Word} {st : BitVec 2} (h : Answers s t d v st) {id : Nat} (hid : id ≠ t.cur) (w : Slot) :
    Answers s (t.setSlot id w) d v st := by
  have hme : (t.setSlot id w).me = t.me := State.slot_setSlot_other t w (Ne.symm hid)
  unfold Answers Writes GoesOn State.rx at *
  rw [hme]
  exact h

/-- An operand's line that is there is what the instruction goes on with. -/
theorem LineAt.withLine {s u : State} {va : Word} {n : Nat} {ws : List Word} (h : LineAt s va n ws u) (k : List Word → State → State) :
    s.withLine va n k = k ws u := by
  rcases h with ⟨hl, rfl⟩ | ⟨hl, -, -, w, bs, hw, hr, rfl⟩
  · simp [State.withLine, hl]
  · simp [State.withLine, hl, hw, hr]

theorem LineAt.me {s u : State} {va : Word} {n : Nat} {ws : List Word} (h : LineAt s va n ws u) : u.me = s.me ∧ u.cur = s.cur := by
  rcases h with ⟨-, rfl⟩ | ⟨-, hslots, hcur, -⟩
  · exact ⟨rfl, rfl⟩
  · exact ⟨by simp [State.me, State.slot, hslots, hcur], hcur⟩

/-! ## The instructions one by one -/

section
variable {s : State} {d a : BitVec 7} {st : BitVec 2}

theorem exec_trap (h : Settled s [a]) :
    exec (.trap a st) s = .next (s.takeTrap s.cur { cause := .forwarded, origin := 7, info := (s.rx a).setWidth 32 } (s.me.pc + 4)) :=
  congrArg Host.Outcome.next (h.guarded _)

theorem exec_eret (hm : s.me.mode = true) : exec (.eret st) s =
    .next (if bits s.me.cause 0 8 = 0 then s.trapHere { cause := .illegal } else s.returnFromTrap s.cur s.me.epc) :=
  congrArg Host.Outcome.next (State.guardedPriv_ok hm (settled_nil s) _)

theorem bits_low_byte (w : Word) : bits w 0 8 = w.toNat % 256 := by simp [bits]

/-- The state in which MIGR's request is on its way (23 R372). -/
def migrSent (s : State) (d a : BitVec 7) (st : BitVec 2) : State :=
  let s1 := s.leave st
  let s2 := s1.setMe { s1.me with wait := .migr, inFlight := some { dst := some d, st := st } }
  ({ s2 with migrs := s2.migrs ++ [{ slot := s.cur, gang := (s.rx a).toNat, score := bits (s.rx (a + 1)) 0 10, dcore := bits (s.rx (a + 1)) 10 10,
                                     dmod := bits (s.rx (a + 1)) 20 12, len := 0, dest := d }] } : State).soon (.migrRequestArrival s.cur)

theorem exec_migr (hb : s.me.badReg [d, a] = none) (hr : s.me.runBad a 2 = none) :
    exec (.migr d a st) s = .next (s.guardedPriv [d, a, a + 1] fun s => migrSent s d a st) := by
  show execMigr d a st s = _
  unfold execMigr
  rw [hb, hr]
  rfl

theorem privileged_traps (hm : s.me.mode = false) : ∀ p ∈ privileged d a st, s.me.badReg p.2 = none →
    (p.1 = .migr d a st → s.me.runBad a 2 = none) → exec p.1 s = .next (s.takeTrap s.cur { cause := .priv } s.me.pc) := by
  simp only [privileged, List.forall_mem_cons]
  iterate 5 refine ⟨fun hb _ => congrArg Host.Outcome.next (State.guardedPriv_job hm hb _), ?_⟩
  refine ⟨fun hb hr => ?_, List.forall_mem_nil _⟩
  rw [exec_migr (State.badReg_subset hb (by simp)) (hr trivial)]
  exact congrArg Host.Outcome.next (State.guardedPriv_job hm hb _)

theorem fwd_writes {ws : List Word} {u : State} (hm : s.me.mode = true) (h : Settled s [d, a]) (ha : (s.rx a).toNat % 64 = 0)
    (hl : LineAt s (s.rx a) 32 ws u) :
    ∃ t, exec (.fwd d a st) s = .next t ∧ Answers u t d (tget (u.core u.coreId).fwd (bits (ws.getD 0 0) 56 4) {}).f0 st ∧
      tget (t.core u.coreId).fwd (bits (ws.getD 0 0) 56 4) {} =
        { f0 := (ws.getD 0 0) &&& 0x80FFF000000003FF, f1 := (ws.getD 1 0) &&& 0xFFFFFFFF, f2 := ws.getD 2 0, f3 := ws.getD 3 0,
          jobs := u.fwdJobs u.coreId (bits (ws.getD 1 0) 0 32) } := by
  have hd : u.me.regOk d.toNat = true := hl.me.1 ▸ h.regOk (by simp)
  refine ⟨_, congrArg Host.Outcome.next ((State.guardedPriv_ok hm h _).trans
    ((if_neg (by simpa using ha)).trans (hl.withLine _))), ?_, ?_⟩
  · dsimp only
    split
    · exact SameStrand.answers ⟨rfl, rfl, rfl, rfl, rfl⟩ hd _ _
    · exact SameStrand.answers ⟨rfl, rfl, rfl, rfl, rfl⟩ hd _ _
  · dsimp only
    split <;> simp [State.result, State.retire, State.wx, State.core, State.setCore, State.schedule, State.setMe]

/-- Asking for an operation on another slot: the strand waits, its question the last of that slot's (23 R375). -/
theorem askSlot_waits {u : State} {id : Nat} (hid : id ≠ s.cur) (hu : u = { s.askSlot id d st with agenda := u.agenda }) :
    u.me.wait = .retry ∧ u.me.pc = s.me.pc ∧ KeepsRegs s u ∧ KeepsMemory s u ∧ (u.slot id).askers = (s.slot id).askers ++ [(s.cur, s.slotState id)] := by
  have hme : u.me = (s.askSlot id d st).me := by rw [hu]; rfl
  have hslot : u.slot id = (s.askSlot id d st).slot id := by rw [hu]; rfl
  have hask : (s.askSlot id d st).me = { s.me with nextTick := s.base + 16 * (1 + st.toNat) * tickLen s.coreId, wait := .retry, inFlight := some { dst := some d, st := st } } := by
    unfold State.askSlot State.leave
    simp only [State.me]
    rw [State.slot_setSlot_other _ _ (by exact Ne.symm hid)]
    simp [State.setMe]
  refine ⟨by rw [hme, hask], by rw [hme, hask], ⟨by rw [hme, hask], by rw [hme, hask]⟩, ⟨by rw [hu]; rfl, by rw [hu]; rfl⟩, ?_⟩
  rw [hslot]
  simp [State.askSlot, State.leave, State.setMe, State.slot_setSlot_other _ _ hid]

section
variable {id : Nat} (hm : s.me.mode = true) (h : Settled s [d, a]) (hsel : bits (s.rx a) 6 10 * 16 + bits (s.rx a) 0 4 = id) (hid : id ≠ s.cur)
include hm h hsel hid

/-- SLOT on a slot that stands as the operation would leave it, or that a debug stop ends, answers at once (23 R375). -/
theorem slot_answers (hk : bits (s.rx a) 4 2 = 0 ∧ (s.slot id).removed = true ∨ bits (s.rx a) 4 2 = 1 ∧ (s.slot id).removed = false ∨
      bits (s.rx a) 4 2 = 2 ∧ (s.slot id).stopped = true ∨ bits (s.rx a) 4 2 = 3) :
    ∃ t, exec (.slot d a st) s = .next t ∧ Answers s t d (BitVec.ofNat 64 (s.slotState id)) st ∧
      (bits (s.rx a) 4 2 = 3 → (t.slot id).stopped = false) := by
  have hans := SameStrand.rfl.answers (h.regOk (r := d) (by simp)) (BitVec.ofNat 64 (s.slotState id)) st
  refine ⟨_, congrArg Host.Outcome.next (State.guardedPriv_ok hm h _), ?_⟩
  simp only [hsel, if_neg hid]
  obtain ⟨hk, hv⟩ | ⟨hk, hv⟩ | ⟨hk, hv⟩ | hk := hk
  · simp only [hk, hv]
    exact ⟨hans, by simp⟩
  · simp only [hk, hv]
    exact ⟨hans, by simp⟩
  · simp only [hk, hv]
    exact ⟨hans, by simp⟩
  · have hkeep := (OnlyMe.result s d (BitVec.ofNat 64 (s.slotState id)) st).2 id hid
    simp only [hk]
    cases hv : (s.slot id).stopped
    · exact ⟨hans, fun _ => (congrArg Slot.stopped hkeep).trans hv⟩
    · exact ⟨hans.setSlot_other hid _, fun _ => by simp⟩

/-- SLOT that changes a slot has its operation due, and the strand waits (23 R375). -/
theorem slot_asks (hk : bits (s.rx a) 4 2 = 0 ∧ (s.slot id).removed = false ∨ bits (s.rx a) 4 2 = 1 ∧ (s.slot id).removed = true ∨
      bits (s.rx a) 4 2 = 2 ∧ (s.slot id).stopped = false) :
    ∃ t, exec (.slot d a st) s = .next t ∧ t.me.wait = .retry ∧ t.me.pc = s.me.pc ∧ KeepsRegs s t ∧ KeepsMemory s t ∧
      (t.slot id).askers = (s.slot id).askers ++ [(s.cur, s.slotState id)] ∧
      ∃ at_, (at_, match bits (s.rx a) 4 2 with
        | 0 => Ev.slotRemoval id
        | 1 => Ev.slotRestore id
        | _ => Ev.debugStop id) ∈ t.agenda := by
  have hwaits (u : State) (hu : u = { s.askSlot id d st with agenda := u.agenda }) (e : Ev) (he : ∃ n, (n, e) ∈ u.agenda) :
      u.me.wait = .retry ∧ u.me.pc = s.me.pc ∧ KeepsRegs s u ∧ KeepsMemory s u ∧
        (u.slot id).askers = (s.slot id).askers ++ [(s.cur, s.slotState id)] ∧ ∃ n, (n, e) ∈ u.agenda := by
    obtain ⟨hw, hpc, hregs, hmem, hask⟩ := askSlot_waits hid hu
    exact ⟨hw, hpc, hregs, hmem, hask, he⟩
  refine ⟨_, congrArg Host.Outcome.next (State.guardedPriv_ok hm h _), ?_⟩
  simp only [hsel, if_neg hid]
  obtain ⟨hk, hv⟩ | ⟨hk, hv⟩ | ⟨hk, hv⟩ := hk
  all_goals simp only [hk, hv]
  · exact hwaits _ rfl _ ⟨_, State.due_schedule _ _ _⟩
  · exact hwaits _ rfl _ ⟨_, State.due_schedule _ _ _⟩
  · exact hwaits _ rfl _ ⟨_, State.due_soon _ _⟩

end

/-! ## Instruction caches, probes and ABORT -/

theorem foldl_clears_icache (l : List Nat) (u : State) :
    ∃ cs, l.foldl (fun (u : State) c => u.setCore c { u.core c with icache := [] }) u = { u with cores := cs } ∧
      ∀ c, (c ∈ l ∨ (u.core c).icache = []) → (tget cs c {}).icache = [] := by
  induction l generalizing u with
  | nil => exact ⟨u.cores, rfl, fun c hc => hc.resolve_left (by simp)⟩
  | cons x l ih =>
    obtain ⟨cs, hcs, hempty⟩ := ih (u.setCore x { u.core x with icache := [] })
    refine ⟨cs, hcs, fun c hc => hempty c ?_⟩
    by_cases hx : c = x
    · exact .inr (by simp [hx])
    · rw [List.mem_cons] at hc
      refine hc.imp (·.resolve_left hx) fun he => ?_
      simpa [State.core, State.setCore, tget_tset_other _ _ _ hx] using he

theorem xinv_empties (h : Settled s [a]) :
    ∃ t, exec (.xinv a st) s = .next t ∧ GoesOn s t (s.me.pc + 4) st ∧ KeepsRegs s t ∧ KeepsStrand s t ∧ KeepsMemory s t ∧ KeepsSlots s t ∧
      ∀ c, (if (s.rx a).getLsbD 0 then c ∈ s.myGang.cores else c = s.coreId) → (t.core c).icache = [] := by
  obtain ⟨cs, hcs, hempty⟩ := foldl_clears_icache (if bitAt (s.rx a) 0 then s.myGang.cores else [s.coreId]) s
  have hexec : exec (.xinv a st) s = .next (({ s with cores := cs } : State).retire 4 st) :=
    congrArg Host.Outcome.next ((h.guarded _).trans (congrArg (State.retire · 4 st) hcs))
  refine ⟨_, hexec, (SameStrand.mk rfl rfl rfl rfl rfl).goesOn 4 st, ?_, ?_, ⟨rfl, rfl⟩, ?_, fun c hc => hempty c (.inl ?_)⟩
  · exact KeepsRegs.retire { s with cores := cs } 4 st
  · exact KeepsStrand.retire { s with cores := cs } 4 st
  · exact (OnlyMe.retire { s with cores := cs } 4 st).2
  · rw [bitAt]
    revert hc
    split_ifs
    · exact id
    · exact List.mem_singleton.2

theorem xprobe_reads (hm : s.me.mode = true) (h : Settled s [d, a]) :
    (∀ w, s.probeWord (s.rx a) = some w → ∃ t, exec (.xprobe d a st) s = .next t ∧ Answers s t d w st ∧ OnlyMe s t) ∧
      (s.probeWord (s.rx a) = none → exec (.xprobe d a st) s = .next (s.takeTrap s.cur { cause := .illegal } s.me.pc)) := by
  have hexec : exec (.xprobe d a st) s = .next (match s.probeWord (s.rx a) with
      | some w => s.result d w st
      | none => s.trapHere { cause := .illegal }) := congrArg Host.Outcome.next (State.guardedPriv_ok hm h _)
  refine ⟨fun w hw => ⟨_, by rw [hexec, hw], SameStrand.rfl.answers (h.regOk (by simp)) w st, OnlyMe.result s d w st⟩, fun hn => ?_⟩
  rw [hexec, hn]
  rfl

theorem abort_begins (h : Settled s [a]) (ho : s.myJob.isOpen = true) (hn : s.myJob.abort = .none) :
    ∃ t, exec (.abort a st) s = .next t ∧ t.me.wait = .cond .never ∧ (t.job s.myGang.job).abort = .first ∧
      (t.job s.myGang.job).reason = BitVec.ofNat 64 (s.myJob.self * 2 ^ 48 + (s.rx a).toNat % 2 ^ 32) ∧ KeepsMemory s t := by
  have hexec : exec (.abort a st) s = .next ((s.startAbort s.myGang.job 0 (bits (s.rx a) 0 32)).block .never) :=
    congrArg Host.Outcome.next ((h.guarded _).trans (if_neg (by simp [ho])))
  refine ⟨_, hexec, by simp [State.block], ?_⟩
  have ho' : (s.job s.myGang.job).isOpen = true := ho
  have hn' : (s.job s.myGang.job).abort = .none := hn
  have hbits : bits (s.rx a) 0 32 % 2 ^ 32 = (s.rx a).toNat % 2 ^ 32 := by simp [bits]
  simp only [State.startAbort, ho', hn', hbits, State.myJob]
  simp only [Bool.true_eq_false, reduceCtorEq, or_self, if_false]
  split <;> simp [State.block, State.job, State.setJob, State.soon, State.schedule, State.send, State.setMe, State.setSlot, KeepsMemory]

/-! ## HALTC and MIGR -/

/-- The slots of a list of numbers are present after a return to service, and the others as they were. -/
theorem foldl_restores (l : List Nat) (c : Nat) (u : State) :
    ∃ ss, l.foldl (fun (u : State) i => u.setSlot (c * 16 + i) { u.slot (c * 16 + i) with removed := false }) u = { u with slots := ss } ∧
      (∀ i, (i ∈ l ∨ (u.slot (c * 16 + i)).removed = false) → (tget ss (c * 16 + i) {}).removed = false) ∧
      ∀ id, (∀ i ∈ l, id ≠ c * 16 + i) → tget ss id {} = u.slot id := by
  induction l generalizing u with
  | nil => exact ⟨u.slots, rfl, fun i hi => hi.resolve_left (by simp), fun _ _ => rfl⟩
  | cons x l ih =>
    obtain ⟨ss, hss, hback, hkeep⟩ := ih (u.setSlot (c * 16 + x) { u.slot (c * 16 + x) with removed := false })
    refine ⟨ss, hss, fun i hi => hback i ?_, fun id hid => ?_⟩
    · by_cases hx : i = x
      · exact .inr (by simp [hx])
      · rw [State.slot_setSlot_other _ _ (by omega)]
        exact hi.imp_left fun hm => (List.mem_cons.1 hm).resolve_left hx
    · rw [hkeep id fun i hi => hid i (List.mem_cons_of_mem _ hi), State.slot_setSlot_other _ _ (hid x List.mem_cons_self)]

theorem restored {u : State} (hu : SameStrand s u) {c : Nat} (hc : c ≠ s.coreId) (cl : Nat) :
    let t := ((List.range 16).foldl (fun (u : State) i => u.setSlot (c * 16 + i) { u.slot (c * 16 + i) with removed := false }) u).poke cl
    SameStrand s t ∧ t.cores = u.cores ∧ ∀ i, i < 16 → c * 16 + i ≠ s.cur ∧ (t.slot (c * 16 + i)).removed = false := by
  obtain ⟨ss, hss, hback, hkeep⟩ := foldl_restores (List.range 16) c u
  obtain ⟨l, hl, -⟩ := State.poke_agenda { u with slots := ss } cl
  have hcur (i : Nat) (hi : i ∈ List.range 16) : s.cur ≠ c * 16 + i := by
    have : s.cur / 16 ≠ c := fun he => hc he.symm
    have := List.mem_range.1 hi
    omega
  dsimp only
  rw [hss, hl]
  refine ⟨⟨?_, hu.cur, hu.now, hu.mem, hu.fe⟩, rfl, fun i hi => ⟨Ne.symm (hcur i (List.mem_range.2 hi)), hback i (.inl (List.mem_range.2 hi))⟩⟩
  rw [← hu.me]
  exact hkeep _ (hu.cur ▸ hcur)

theorem core_result (u : State) (d : BitVec 7) (v : Word) (st : BitVec 2) (c : Nat) : (u.result d v st).core c = u.core c := rfl

section
variable (hm : s.me.mode = true) (h : Settled s [d, a]) (hc : bits (s.rx a) 0 10 ≠ s.coreId)
include hm h hc

theorem haltc_returns (hb : (s.rx a).getLsbD 16 = true) :
    ∃ t, exec (.haltc d a st) s = .next t ∧ Answers s t d 0 st ∧ (t.core (bits (s.rx a) 0 10)).halted = false ∧
      ∀ i, i < 16 → (t.slot (bits (s.rx a) 0 10 * 16 + i)).removed = false := by
  refine ⟨_, congrArg Host.Outcome.next (State.guardedPriv_ok hm h _), ?_⟩
  obtain ⟨hsame, hcores, hback⟩ := restored (s := s) (u := { s.setCore (bits (s.rx a) 0 10) { s.core (bits (s.rx a) 0 10) with halted := false } with
    removals := (s.setCore (bits (s.rx a) 0 10) { s.core (bits (s.rx a) 0 10) with halted := false }).removals.filter fun id => id / 16 != bits (s.rx a) 0 10 })
    ⟨rfl, rfl, rfl, rfl, rfl⟩ hc (clusterOf (bits (s.rx a) 0 10))
  simp only [if_neg hc, bitAt, if_pos hb]
  refine ⟨hsame.answers (h.regOk (by simp)) 0 st, ?_, fun i hi => ?_⟩
  · rw [core_result, State.core, hcores]
    simp [State.setCore]
  · rw [(OnlyMe.result _ d 0 st).2 _ (hsame.cur.symm ▸ (hback i hi).1)]
    exact (hback i hi).2

theorem haltc_halts (hb : (s.rx a).getLsbD 16 = false) (hlive : s.me.live = true) (hr : s.records = []) (hg : s.gangsOn (bits (s.rx a) 0 10) = []) :
    ∃ t, exec (.haltc d a st) s = .next t ∧ Answers s t d (BitVec.ofNat 64 (s.core (bits (s.rx a) 0 10)).haltDrops) st ∧
      (t.core (bits (s.rx a) 0 10)).halted = true := by
  refine ⟨_, congrArg Host.Outcome.next (State.guardedPriv_ok hm h _), ?_⟩
  simp only [if_neg hc, bitAt, hb, Bool.false_eq_true, if_false]
  generalize bits (s.rx a) 0 10 = c at *
  have hnone : (s.setCore c { s.core c with halted := true }).requeueRecords c = s.setCore c { s.core c with halted := true } := by
    simp [State.requeueRecords, hr]
  have hg' : (s.setCore c { s.core c with halted := true }).gangsOn c = [] := hg
  have hme : (s.setCore c { s.core c with halted := true }).me = s.me := rfl
  rw [hnone, hg']
  simp only [List.foldl_nil, hme, hlive, Bool.true_eq_false, if_false, hg', if_true, State.core_setCore]
  refine ⟨SameStrand.answers ⟨rfl, rfl, rfl, rfl, rfl⟩ (h.regOk (by simp)) _ st, ?_⟩
  rw [core_result, State.core_setCore]

end

theorem migr_sends (hm : s.me.mode = true) (hr : s.me.runBad a 2 = none) (h : Settled s [d, a, a + 1]) :
    ∃ t, exec (.migr d a st) s = .next t ∧ t.me.wait = .migr ∧ t.me.pc = s.me.pc ∧ KeepsRegs s t ∧ KeepsMemory s t ∧
      t.migrs = s.migrs ++ [{ slot := s.cur, gang := (s.rx a).toNat, score := bits (s.rx (a + 1)) 0 10, dcore := bits (s.rx (a + 1)) 10 10,
                              dmod := bits (s.rx (a + 1)) 20 12, len := 0, dest := d }] ∧
      (s.now, Ev.migrRequestArrival s.cur) ∈ t.agenda := by
  refine ⟨_, (exec_migr (State.badReg_subset h.1 (by simp)) hr).trans (congrArg Host.Outcome.next (State.guardedPriv_ok hm h _)), ?_⟩
  simp [migrSent, State.leave, KeepsRegs, KeepsMemory, State.me, State.slot, State.setMe, State.setSlot]

end

/-- Settles O34. -/
theorem systemInstructions : Obligations.SystemInstructions := by
  intro s d a st
  refine ⟨exec_trap, fun hm hc => ?_, fun hm hc => ?_, fun p hp hm => privileged_traps hm p hp, fun ws u hm h ha hl => fwd_writes hm h ha hl,
    fun hm h hid => ⟨slot_answers hm h rfl hid, slot_asks hm h rfl hid⟩, xinv_empties, xprobe_reads, abort_begins,
    haltc_returns, haltc_halts, migr_sends⟩
  · rw [exec_eret hm, bits_low_byte, if_neg hc]
  · rw [exec_eret hm, bits_low_byte, if_pos hc]
    rfl

end Sys2Proof.Claims
end

section
/-! The host's windows: mailbox, doorbell, event ring and staging (26 R401, R402, R406; 22 R359). -/

namespace Sys2Proof.Machine

/-! ## Staging -/

theorem State.stageByte_writes {s : State} (hd : s.drLines = []) (ht : s.tileMarks = []) (pa : Nat) (b : Byte) :
    ∃ u, s.stageByte pa b = u ∧ u.mem = memWrite s.mem pa b.toNat 1 ∧ u.fe = s.fe ∧ u.slots = s.slots ∧ u.drLines = [] ∧ u.tileMarks = [] := by
  have hk : s.drKind pa = none := by simp [State.drKind, hd]
  refine ⟨_, if_neg (by simp [hk, ht]), ?_⟩
  have hstore := s.hbmWrite_storeOnly pa b.toNat 1
  have hslice := (s.hbmWrite pa b.toNat 1).registerFor_sliceOnly (.store 1) pa none
  unfold StoreOnly at hstore
  unfold SliceOnly at hslice
  refine ⟨by simp, ?_, ?_, ?_, ?_⟩
  all_goals rw [hslice]; dsimp only
  · rw [hstore]
  · rw [hstore]
  · rw [State.drLines_hbmWrite, hd]
  · rw [hstore]
    exact ht

/-- A posted write of the host puts its bytes and nothing else (26 R401). -/
theorem State.stageBytes_writes (bs : List Byte) : ∀ {s : State} (_ : s.drLines = []) (_ : s.tileMarks = []) (pa : Nat),
    memBytes (s.stageBytes pa bs).mem pa bs.length = bs ∧
    (∀ x, (x < pa ∨ pa + bs.length ≤ x) → memByte (s.stageBytes pa bs).mem x = memByte s.mem x) ∧
    (s.stageBytes pa bs).fe = s.fe ∧ (s.stageBytes pa bs).slots = s.slots := by
  induction bs with
  | nil => exact fun _ _ _ => ⟨rfl, fun _ _ => rfl, rfl, rfl⟩
  | cons b bs ih =>
    intro s hd ht pa
    obtain ⟨u, hu, hmem, hfe, hslots, hd', ht'⟩ := s.stageByte_writes hd ht pa b
    obtain ⟨hbytes, hother, hfe', hslots'⟩ := ih hd' ht' (pa + 1)
    rw [State.stageBytes, hu]
    refine ⟨?_, fun x hx => ?_, hfe'.trans hfe, hslots'.trans hslots⟩
    · rw [List.length_cons, memBytes, hbytes, hother pa (by omega), hmem]
      simp [memWrite]
    · rw [List.length_cons] at hx
      rw [hother x (by omega), hmem, memByte_memWrite_other 1 _ _ _ _ (by omega)]

/-! ## Mailbox slots -/

@[simp] theorem getD_fixedWords {n i : Nat} (l : List Word) (h : i < n) : (fixedWords n l).getD i 0 = l.getD i 0 := by
  simp [fixedWords, List.getD_eq_getElem?_getD, h]

@[simp] theorem length_fixedWords (n : Nat) (l : List Word) : (fixedWords n l).length = n := by simp [fixedWords]

/-- The step of a slot's command only adds to what is due and to what is sent. -/
theorem State.commandStep_eq (s : State) (k : Nat) : ∃ a o, s.commandStep k = { s with agenda := a, out := o } ∧ (∀ e ∈ s.out, e ∈ o) ∧ ∀ e ∈ s.agenda, e ∈ a := by
  unfold State.commandStep
  split
  case h_3 => exact ⟨s.agenda, _, rfl, fun e he => List.mem_cons_of_mem _ he, fun _ he => he⟩
  all_goals exact ⟨_, s.out, rfl, fun _ he => he, fun _ he => State.mem_agenda_soon.2 (.inr he)⟩

theorem State.doorbell_free {s : State} {k : Nat} (hr : s.ready.getLsbD 1 = true) (hb : (s.mail k).busy = false) :
    ∃ t, s.doorbell k = t ∧ t.mail k = { s.mail k with busy := true } ∧ t.bells = s.bells ++ [k] ∧ t.slots = s.slots ∧ t.mem = s.mem := by
  refine ⟨_, (if_neg (by simp [hr])).trans (if_neg (by simp [hb])), ?_⟩
  dsimp only
  split
  · obtain ⟨a, o, h, -⟩ := State.commandStep_eq { s with mailbox := tset s.mailbox k { s.mail k with busy := true }, bells := s.bells ++ [k] } k
    rw [h]
    exact ⟨tget_tset_same _ _ _ _, rfl, rfl, rfl⟩
  · exact ⟨tget_tset_same _ _ _ _, rfl, rfl, rfl⟩

/-! ## Counters -/

theorem State.counterOf_clearCounter (s : State) (c : Counter) : (s.clearCounter c).counterOf c = 0 := by
  cases c <;> simp [State.clearCounter, State.counterOf]

theorem State.counterOf_clearCounter_other (s : State) {c d : Counter} (h : d ≠ c) : (s.clearCounter c).counterOf d = s.counterOf d := by
  cases c with
  | tnDrop r => cases d with
    | tnDrop q => exact tget_tset_other _ _ _ (by simpa using h)
    | _ => rfl
  | incDrop r => cases d with
    | incDrop q => exact tget_tset_other _ _ _ (by simpa using h)
    | _ => rfl
  | tmiss j => cases d with
    | tmiss q => exact congrArg Job.tmiss (tget_tset_other _ _ _ (by simpa using h))
    | _ => rfl
  | clDrop => cases d with
    | clDrop => exact absurd rfl h
    | _ => rfl
  | wakes g => cases d with
    | wakes q => exact congrArg Fibre.wakes (tget_tset_other _ _ _ (by simpa using h))
    | narrow q =>
      by_cases hq : q = g
      · subst hq
        simp [State.clearCounter, State.counterOf]
      · exact congrArg Fibre.narrow (tget_tset_other _ _ _ hq)
    | _ => rfl
  | narrow g => cases d with
    | narrow q => exact congrArg Fibre.narrow (tget_tset_other _ _ _ (by simpa using h))
    | wakes q =>
      by_cases hq : q = g
      · subst hq
        simp [State.clearCounter, State.counterOf]
      · exact congrArg Fibre.wakes (tget_tset_other _ _ _ hq)
    | _ => rfl

theorem State.clearCounter_keeps (s : State) (c : Counter) : (s.clearCounter c).slots = s.slots ∧ (s.clearCounter c).mem = s.mem := by
  cases c <;> exact ⟨rfl, rfl⟩

end Sys2Proof.Machine

namespace Sys2Proof.Claims

open Sys2Proof.Machine

section
variable {s : State}

theorem hostRegisterWrite_mailbox {off : Nat} {v : Word} (he : s.ev = some (.hostRegisterWrite off v)) (hr : s.ready.getLsbD 0 = true) (ho : off < 0x800) :
    ((s.mail (off / 256)).busy = true → exec .hostRegisterWrite s = .next { s with mbDrop := s.mbDrop + 1 }) ∧
    ((s.mail (off / 256)).busy = false → ∃ t, exec .hostRegisterWrite s = .next t ∧ t = { s with mailbox := t.mailbox } ∧ t.hostRegister off = v ∧
      (∀ i, i < 32 → i ≠ off % 256 / 8 → t.mailWord (off / 256) i = s.mailWord (off / 256) i) ∧ ∀ k, k ≠ off / 256 → t.mail k = s.mail k) := by
  have hexec : exec .hostRegisterWrite s = if (s.mail (off / 256)).busy then .next { s with mbDrop := s.mbDrop + 1 }
      else .next { s with mailbox := tset s.mailbox (off / 256) { s.mail (off / 256) with words := (fixedWords 32 (s.mail (off / 256)).words).set (off % 256 / 8) v } } := by
    show execHostRegisterWrite s = _
    unfold execHostRegisterWrite
    rw [he]
    simp only [hr, Bool.true_eq_false, if_false, ho, if_true]
  refine ⟨fun hb => by rw [hexec, if_pos hb], fun hb => ⟨_, by rw [hexec, if_neg (by simp [hb])], rfl, ?_, fun i hi hne => ?_, fun k hk => ?_⟩⟩
  · have hw : off % 256 / 8 < 32 := by omega
    simp [State.hostRegister, ho, State.mailWord, State.mail, List.getD_eq_getElem?_getD, hw]
  · have hset : ((fixedWords 32 (s.mail (off / 256)).words).set (off % 256 / 8) v).getD i 0 = (fixedWords 32 (s.mail (off / 256)).words).getD i 0 := by
      simp [List.getD_eq_getElem?_getD, List.getElem?_set_ne (Ne.symm hne)]
    rw [getD_fixedWords _ hi] at hset
    simpa [State.mailWord, State.mail] using hset
  · simp [State.mail, tget_tset_other _ _ _ hk]

theorem hostRegisterWrite_doorbell {v : Word} (he : s.ev = some (.hostRegisterWrite 0x800 v)) (hr : s.ready.getLsbD 0 = true) (hr1 : s.ready.getLsbD 1 = true) :
    ((s.mail (bits v 0 3)).busy = true → exec .hostRegisterWrite s = .next { s with mbDrop := s.mbDrop + 1 }) ∧
    ((s.mail (bits v 0 3)).busy = false → ∃ t, exec .hostRegisterWrite s = .next t ∧ t.mail (bits v 0 3) = { s.mail (bits v 0 3) with busy := true } ∧
      t.bells = s.bells ++ [bits v 0 3] ∧ t.slots = s.slots ∧ t.mem = s.mem) := by
  have hexec : exec .hostRegisterWrite s = .next (s.doorbell (bits v 0 3)) := by
    show execHostRegisterWrite s = _
    unfold execHostRegisterWrite
    rw [he]
    simp [hr]
  refine ⟨fun hb => ?_, fun hb => ?_⟩
  · rw [hexec, State.doorbell, if_neg (by simp [hr1]), if_pos hb]
  · obtain ⟨t, ht, h⟩ := State.doorbell_free hr1 hb
    exact ⟨t, by rw [hexec, ht], h⟩

theorem hostRegisterWrite_windows {off : Nat} {v : Word} (he : s.ev = some (.hostRegisterWrite off v)) (hr : s.ready.getLsbD 0 = true) :
    (off = 0x810 → exec .hostRegisterWrite s = .next { s with evqBase := v &&& ~~~0xFFF }) ∧
    (off = 0x818 → exec .hostRegisterWrite s = .next (s.soon (.evqheadAdvance (bits v 0 32)))) ∧
    (off = 0x820 → exec .hostRegisterWrite s = .next { s with stageBase := v &&& ~~~0xFFFFFFFFF }) := by
  refine ⟨?_, ?_, ?_⟩
  all_goals
    rintro rfl
    show execHostRegisterWrite s = _
    unfold execHostRegisterWrite
    rw [he]
    simp [hr]

theorem hostRegisterWrite_clears {c : Counter} (he : s.ev = some (.clearCounter c)) :
    ∃ t, exec .hostRegisterWrite s = .next t ∧ t.counterOf c = 0 ∧ (∀ d, d ≠ c → t.counterOf d = s.counterOf d) ∧ t.slots = s.slots ∧ t.mem = s.mem := by
  refine ⟨s.clearCounter c, ?_, s.counterOf_clearCounter c, fun d => s.counterOf_clearCounter_other, s.clearCounter_keeps c⟩
  show execHostRegisterWrite s = _
  unfold execHostRegisterWrite
  rw [he]

theorem evqheadAdvance_moves {v : Nat} (he : s.ev = some (.evqheadAdvance v)) :
    (s.evqHead ≤ v → v ≤ s.evqTail → s.evHeld = [] → exec .evqheadAdvance s = .next { s with evqHead := v }) ∧
    (∀ e, s.evqHead ≤ v → v ≤ s.evqTail → s.evHeld = [e] → s.evqTail < v + 128 → ∃ t, exec .evqheadAdvance s = .next t ∧ t.evqHead = v ∧ t.evHeld = [] ∧
      t.evqTail = s.evqTail + 1 ∧ Out.msix 1 ∈ t.out ∧ ∃ bs, Out.hostWrite (s.evqBase.toNat + 32 * (s.evqTail % 128)) bs ∈ t.out) ∧
    (v < s.evqHead ∨ s.evqTail < v → exec .evqheadAdvance s = .next s) := by
  have hexec : exec .evqheadAdvance s = if s.evqHead ≤ v ∧ v ≤ s.evqTail then .next ({ s with evqHead := v }.drainEvents 64) else .next s := by
    show execEvqheadAdvance s = _
    unfold execEvqheadAdvance
    rw [he]
  refine ⟨fun h1 h2 hh => ?_, fun e h1 h2 hh hroom => ?_, fun h => by rw [hexec, if_neg (by omega)]⟩
  · rw [hexec, if_pos ⟨h1, h2⟩, State.drainEvents]
    simp [hh]
  · refine ⟨_, by rw [hexec, if_pos ⟨h1, h2⟩, State.drainEvents], ?_⟩
    simp only [hh, if_pos hroom]
    rw [State.drainEvents]
    simp [State.writeEvent, State.send]

theorem stagingAccess_reaches {off n : Nat} {w : Option (List Byte)} (he : s.ev = some (.stagingAccess off n w)) (hr : s.ready.getLsbD 0 = true) :
    (hbmEnd < s.stageBase.toNat + off + n ∨ 2 ^ 36 < off + n → exec .stagingAccess s = .fault .stagingOutsideHbm) ∧
    (s.stageBase.toNat + off + n ≤ hbmEnd → off + n ≤ 2 ^ 36 → w = none →
      exec .stagingAccess s = .next (s.send (.stagingRead (memBytes s.mem (s.stageBase.toNat + off) n)))) ∧
    (∀ bs, s.stageBase.toNat + off + n ≤ hbmEnd → off + n ≤ 2 ^ 36 → w = some bs → bs.length = n → s.drLines = [] → s.tileMarks = [] →
      ∃ t, exec .stagingAccess s = .next t ∧ memBytes t.mem (s.stageBase.toNat + off) n = bs ∧
        (∀ x, (x < s.stageBase.toNat + off ∨ s.stageBase.toNat + off + n ≤ x) → memByte t.mem x = memByte s.mem x) ∧ t.fe = s.fe ∧ t.slots = s.slots) := by
  have hbeyond (h : ¬(hbmEnd < s.stageBase.toNat + off + n ∨ 2 ^ 36 < off + n)) : execStagingAccess s = .next (match w with
      | some bs => s.stageBytes (s.stageBase.toNat + off) (bs.take n)
      | none => s.send (.stagingRead (memBytes s.mem (s.stageBase.toNat + off) n))) := by
    simp only [execStagingAccess, he, hr, Bool.true_eq_false, if_false, if_neg h]
    cases w <;> rfl
  refine ⟨fun h => ?_, fun h1 h2 hw => ?_, fun bs h1 h2 hw hl hd ht => ?_⟩
  · show execStagingAccess s = _
    simp only [execStagingAccess, he, hr, Bool.true_eq_false, if_false, if_pos h]
  · subst hw
    exact hbeyond (by omega)
  · subst hl hw
    refine ⟨_, hbeyond (by omega), ?_⟩
    dsimp only
    rw [List.take_length]
    exact State.stageBytes_writes bs hd ht _

end

/-- Settles O50. -/
theorem hostWindows : Obligations.HostWindows := by
  intro s
  refine ⟨fun off v he hr => ⟨hostRegisterWrite_mailbox he hr, ?_, hostRegisterWrite_windows he hr⟩, fun c => hostRegisterWrite_clears,
    fun v => evqheadAdvance_moves, fun off n w => stagingAccess_reaches⟩
  rintro rfl
  exact hostRegisterWrite_doorbell he hr

end Sys2Proof.Claims
end

section
/-! The completion of the host's commands (26 R402, R403). -/

namespace Sys2Proof.Machine

theorem State.nextCommand_eq (s : State) : ∃ a o, s.nextCommand = { s with agenda := a, out := o } ∧ (∀ e ∈ s.out, e ∈ o) ∧ ∀ e ∈ s.agenda, e ∈ a := by
  unfold State.nextCommand
  split
  · exact ⟨s.agenda, s.out, rfl, fun _ h => h, fun _ h => h⟩
  · exact s.commandStep_eq _

/-- A command's completion: the answer in its slot, the interrupt raised, and beyond these only what is due and sent. -/
theorem State.finish_eq (s : State) (k : Nat) (st : Status) (cause : Nat) (ans : List Word) :
    ∃ a o, s.finish k st cause ans = { s with
      mailbox := tset s.mailbox k { words := s.mailWord k 0 :: Claims.answerWord (s.mailWord k 0) cause st :: fixedWords 30 ans, busy := false }
      bells := s.bells.filter (· != k), agenda := a, out := o } ∧ Out.msix 0 ∈ o ∧ ∀ e ∈ s.agenda, e ∈ a := by
  obtain ⟨a, o, h, ho, ha⟩ := State.nextCommand_eq (({ s with
    mailbox := tset s.mailbox k { words := s.mailWord k 0 :: Claims.answerWord (s.mailWord k 0) cause st :: fixedWords 30 ans, busy := false }
    bells := s.bells.filter (· != k) } : State).send (.msix 0))
  exact ⟨a, o, h, ho _ List.mem_cons_self, ha⟩

section
variable (s : State) (k : Nat) (st : Status) (cause : Nat) (ans : List Word)

@[simp] theorem State.slots_finish : (s.finish k st cause ans).slots = s.slots := by
  obtain ⟨a, o, h, -⟩ := s.finish_eq k st cause ans
  rw [h]
@[simp] theorem State.jobs_finish : (s.finish k st cause ans).jobs = s.jobs := by
  obtain ⟨a, o, h, -⟩ := s.finish_eq k st cause ans
  rw [h]
@[simp] theorem State.ranges_finish : (s.finish k st cause ans).ranges = s.ranges := by
  obtain ⟨a, o, h, -⟩ := s.finish_eq k st cause ans
  rw [h]
@[simp] theorem State.side_finish : (s.finish k st cause ans).side = s.side := by
  obtain ⟨a, o, h, -⟩ := s.finish_eq k st cause ans
  rw [h]
@[simp] theorem State.tenants_finish : (s.finish k st cause ans).tenants = s.tenants := by
  obtain ⟨a, o, h, -⟩ := s.finish_eq k st cause ans
  rw [h]
@[simp] theorem State.cores_finish : (s.finish k st cause ans).cores = s.cores := by
  obtain ⟨a, o, h, -⟩ := s.finish_eq k st cause ans
  rw [h]
@[simp] theorem State.fibres_finish : (s.finish k st cause ans).fibres = s.fibres := by
  obtain ⟨a, o, h, -⟩ := s.finish_eq k st cause ans
  rw [h]
@[simp] theorem State.cap_finish : (s.finish k st cause ans).cap = s.cap := by
  obtain ⟨a, o, h, -⟩ := s.finish_eq k st cause ans
  rw [h]
@[simp] theorem State.rings_finish : (s.finish k st cause ans).rings = s.rings := by
  obtain ⟨a, o, h, -⟩ := s.finish_eq k st cause ans
  rw [h]
@[simp] theorem State.held_finish : (s.finish k st cause ans).held = s.held := by
  obtain ⟨a, o, h, -⟩ := s.finish_eq k st cause ans
  rw [h]
@[simp] theorem State.drLines_finish : (s.finish k st cause ans).drLines = s.drLines := by
  obtain ⟨a, o, h, -⟩ := s.finish_eq k st cause ans
  rw [h]

end

end Sys2Proof.Machine

namespace Sys2Proof.Claims

open Sys2Proof.Machine

/-- A command ends from a state whose mailbox and slots are as they were. -/
theorem Completed.of_finish {s u : State} (hm : u.mailbox = s.mailbox) (hs : u.slots = s.slots) (k : Nat) (st : Status) (cause : Nat) (ans : List Word) :
    Completed s (u.finish k st cause ans) k st cause ans := by
  obtain ⟨a, o, h, ho, -⟩ := u.finish_eq k st cause ans
  have hw : u.mailWord k 0 = s.mailWord k 0 := by simp [State.mailWord, State.mail, hm]
  rw [h, hw]
  exact ⟨tget_tset_same _ _ _ _, ho, by simp, hs⟩

theorem Replies.of_finish {s u : State} {i : Instr} {k : Nat} {st : Status} {cause : Nat} {ans : List Word} (h : exec i s = .next (u.finish k st cause ans))
    (hu : u.mailbox = s.mailbox ∧ u.slots = s.slots ∧ u.mem = s.mem) : Replies s i k st cause ans :=
  ⟨_, h, .of_finish hu.1 hu.2.1 k st cause ans, (State.mem_finish ..).trans hu.2.2⟩

theorem Turn.command {s : State} {k : Nat} {e : Ev} (h : Turn s k e) (body : State → State) : s.command k body = body s := if_pos h.2

theorem Settled2.afterAbort {s : State} {j : Nat} (h : Settled2 s j) (again : Ev) (body : State → State) : s.afterAbort j again body = body s :=
  if_neg (by simp [h.1, h.2])

end Sys2Proof.Claims
end

section
/-! The host's commands on tenants, format ranges, access control and jobs (26 R403, R404, R417; 08 R155, R158; 15 R269, R271; 16 R288). -/

namespace Sys2Proof.Claims

open Sys2Proof.Machine

/-- The range that FORMAT_RANGE's arguments describe (08 R155). -/
def argRange (s : State) (k j : Nat) : FmtRange :=
  { base := s.arg k 2 &&& 0x8700FFFFFFFFFFC0, lim := s.arg k 3 &&& 0xFFFFFFFFFFC0, scl := s.arg k 4 &&& 0xFFFFFFFFFFF8, job := j }

/-- The rest of FORMAT_RANGE for an open job whose abort is not under way (26 R417; 08 R155, R158). -/
def formatRangeFor (s : State) (k j : Nat) : State :=
  let n := (s.arg k 1).toNat
  let old := tget s.ranges n {}
  let r := argRange s k j
  if old.on && old.job != j && (s.job old.job).isOpen then s.finish k .refused 2 []
  else match r.refusal ((s.ranges.filter fun e => e.1 != n && e.2.on).map (·.2)) with
    | some c => s.finish k .refused c []
    | none => ((({ s with ranges := tset s.ranges n r } : State).dropSide old).dropSide r).finish k .ok 0 []

/-- A range's lines keep no side bits, and nothing due writes some (08 R158). -/
theorem dropSide_eq (s : State) (r : FmtRange) : ∃ d a, s.dropSide r = { s with side := d, agenda := a } ∧
    (r.on = true → ∀ e ∈ d, e.1 < 64 * r.first ∨ 64 * (r.first + r.lines) ≤ e.1) := by
  unfold State.dropSide
  split
  · refine ⟨_, _, rfl, fun _ e he => ?_⟩
    have hout := (List.mem_filter.1 he).2
    simp only [FmtRange.has, Bool.not_eq_true', decide_eq_false_iff_not] at hout
    omega
  · next hoff => exact ⟨_, _, rfl, fun hon => absurd hon hoff⟩

section
variable {s : State} {k : Nat}

/-- The first argument outside its range is the one that a command answers. -/
theorem badArg_false (l : List Bool) : badArg (false :: l) = some 0 := rfl
theorem badArg_true (l : List Bool) : badArg (true :: l) = (badArg l).map (· + 1) := by simp [badArg, List.findIdx?_cons]
theorem badArg_nil : badArg [] = none := rfl

/-! ## TENANT_MAP -/

theorem settleBuckets_valid (s : State) (n : Nat) : (tget s.settleBuckets.tenants n {}).valid = (tget s.tenants n {}).valid := by
  have hl (l : Table Tenant) (f : Nat → Tenant → Nat) :
      (tget (l.map fun t : Nat × Tenant => (t.1, { t.2 with level := f t.1 t.2, atTick := s.now })) n {}).valid = (tget l n {}).valid := by
    induction l with
    | nil => rfl
    | cons e l ih =>
      simp only [List.map_cons, tget]
      split
      · rfl
      · exact ih
  exact hl s.tenants fun i t => min (t.cap * 1000 * 12288) (t.level + t.rate * s.tenantTicks i t.atTick)


theorem no_tenant_meets {n x y w d : Nat} (hm : ∀ o ∈ s.tenants, o.1 ≠ n → o.2.valid = true → rectsMeet x y w d o.2.x o.2.y o.2.w o.2.h = false) :
    (s.tenants.any fun o => o.1 != n && o.2.valid && rectsMeet x y w d o.2.x o.2.y o.2.w o.2.h) = false := by
  simp only [List.any_eq_false, Bool.and_eq_true, bne_iff_ne, not_and, Bool.not_eq_true]
  exact fun o ho hne => hm o ho hne.1 hne.2

section
variable (h : Turn s k (.tenantMap k))
include h

theorem tenantMap_unnamed (hn : (s.arg k 0).toNat = 0 ∨ 4096 ≤ (s.arg k 0).toNat) : Replies s .tenantMap k .invalid 0 [] := by
  have hbad : decide (1 ≤ (s.arg k 0).toNat ∧ (s.arg k 0).toNat < 4096) = false := by simp; omega
  refine Replies.of_finish (u := s) ?_ ⟨rfl, rfl, rfl⟩
  show execTenantMap s = _
  simp only [execTenantMap, h.1, h.command, hbad, badArg_false]

section
variable (h1 : 1 ≤ (s.arg k 0).toNat) (h2 : (s.arg k 0).toNat < 4096) (hx : bits (s.arg k 1) 0 5 + (bits (s.arg k 1) 9 5 + 1) ≤ 32)
  (hy : bits (s.arg k 1) 5 4 + (bits (s.arg k 1) 14 4 + 1) ≤ 16) (hr : 1 ≤ (s.arg k 2).toNat) (hr' : (s.arg k 2).toNat ≤ 64)
  (hc : 1 ≤ (s.arg k 3).toNat) (hc' : (s.arg k 3).toNat ≤ 65535)
include h1 h2 hx hy hr hr' hc hc'

/-- TENANT_MAP with its arguments in their ranges. -/
theorem exec_tenantMap : exec .tenantMap s = .next
    (if s.tenants.any (fun o => o.1 != (s.arg k 0).toNat && o.2.valid && rectsMeet (bits (s.arg k 1) 0 5) (bits (s.arg k 1) 5 4)
        (bits (s.arg k 1) 9 5 + 1) (bits (s.arg k 1) 14 4 + 1) o.2.x o.2.y o.2.w o.2.h) then s.finish k .refused 1 []
    else if s.jobs.any (fun j => j.2.isOpen && j.2.tenant == (s.arg k 0).toNat && !rectInside j.2.subX j.2.subY j.2.subW j.2.subH
        (bits (s.arg k 1) 0 5) (bits (s.arg k 1) 5 4) (bits (s.arg k 1) 9 5 + 1) (bits (s.arg k 1) 14 4 + 1)) then s.finish k .refused 2 []
    else ({ s.settleBuckets with
      tenants := tset s.settleBuckets.tenants (s.arg k 0).toNat
        { valid := true, x := bits (s.arg k 1) 0 5, y := bits (s.arg k 1) 5 4, w := bits (s.arg k 1) 9 5 + 1, h := bits (s.arg k 1) 14 4 + 1,
          rate := (s.arg k 2).toNat, cap := (s.arg k 3).toNat,
          level := if (tget s.settleBuckets.tenants (s.arg k 0).toNat {}).valid then
              min (tget s.settleBuckets.tenants (s.arg k 0).toNat {}).level ((s.arg k 3).toNat * 1000 * 12288)
            else (s.arg k 3).toNat * 1000 * 12288, atTick := s.now } } : State).resourcesFreed.finish k .ok 0 []) := by
  show execTenantMap s = _
  simp only [execTenantMap, h.1, h.command, h1, h2, hx, hy, hr, hr', hc, hc', and_self, decide_true, badArg_true, badArg_nil, Option.map_none]

theorem tenantMap_meets (hm : ∃ o ∈ s.tenants, o.1 ≠ (s.arg k 0).toNat ∧ o.2.valid = true ∧ rectsMeet (bits (s.arg k 1) 0 5) (bits (s.arg k 1) 5 4)
    (bits (s.arg k 1) 9 5 + 1) (bits (s.arg k 1) 14 4 + 1) o.2.x o.2.y o.2.w o.2.h = true) : Replies s .tenantMap k .refused 1 [] := by
  refine Replies.of_finish (u := s) ?_ ⟨rfl, rfl, rfl⟩
  rw [exec_tenantMap h h1 h2 hx hy hr hr' hc hc', if_pos]
  simpa [List.any_eq_true, and_assoc] using hm

section
variable (hm : ∀ o ∈ s.tenants, o.1 ≠ (s.arg k 0).toNat → o.2.valid = true → rectsMeet (bits (s.arg k 1) 0 5) (bits (s.arg k 1) 5 4)
    (bits (s.arg k 1) 9 5 + 1) (bits (s.arg k 1) 14 4 + 1) o.2.x o.2.y o.2.w o.2.h = false)
include hm

theorem tenantMap_outside (hj : ∃ j ∈ s.jobs, j.2.isOpen = true ∧ j.2.tenant = (s.arg k 0).toNat ∧ rectInside j.2.subX j.2.subY j.2.subW j.2.subH
    (bits (s.arg k 1) 0 5) (bits (s.arg k 1) 5 4) (bits (s.arg k 1) 9 5 + 1) (bits (s.arg k 1) 14 4 + 1) = false) : Replies s .tenantMap k .refused 2 [] := by
  refine Replies.of_finish (u := s) ?_ ⟨rfl, rfl, rfl⟩
  rw [exec_tenantMap h h1 h2 hx hy hr hr' hc hc', if_neg (by rw [no_tenant_meets hm]; simp), if_pos]
  simpa [List.any_eq_true, and_assoc] using hj

theorem tenantMap_sets (hj : ∀ j ∈ s.jobs, j.2.isOpen = true → j.2.tenant = (s.arg k 0).toNat → rectInside j.2.subX j.2.subY j.2.subW j.2.subH
    (bits (s.arg k 1) 0 5) (bits (s.arg k 1) 5 4) (bits (s.arg k 1) 9 5 + 1) (bits (s.arg k 1) 14 4 + 1) = true) :
    ∃ t, exec .tenantMap s = .next t ∧ Completed s t k .ok 0 [] ∧ t.mem = s.mem ∧ ((tget s.tenants (s.arg k 0).toNat {}).valid = false →
      tget t.tenants (s.arg k 0).toNat {} =
        { valid := true, x := bits (s.arg k 1) 0 5, y := bits (s.arg k 1) 5 4, w := bits (s.arg k 1) 9 5 + 1, h := bits (s.arg k 1) 14 4 + 1,
          rate := (s.arg k 2).toNat, cap := (s.arg k 3).toNat, level := (s.arg k 3).toNat * 1000 * 12288, atTick := s.now }) := by
  have hin : (s.jobs.any fun j => j.2.isOpen && j.2.tenant == (s.arg k 0).toNat && !rectInside j.2.subX j.2.subY j.2.subW j.2.subH
      (bits (s.arg k 1) 0 5) (bits (s.arg k 1) 5 4) (bits (s.arg k 1) 9 5 + 1) (bits (s.arg k 1) 14 4 + 1)) = false := by
    simp only [List.any_eq_false, Bool.and_eq_true, beq_iff_eq, Bool.not_eq_true', not_and, Bool.not_eq_false]
    exact fun j hmem ho => hj j hmem ho.1 ho.2
  refine ⟨_, by rw [exec_tenantMap h h1 h2 hx hy hr hr' hc hc', if_neg (by rw [no_tenant_meets hm]; simp), if_neg (by rw [hin]; simp)], ?_⟩
  obtain ⟨a, hfree, -⟩ := State.resourcesFreed_agenda ({ s.settleBuckets with tenants := tset s.settleBuckets.tenants (s.arg k 0).toNat _ } : State)
  rw [hfree]
  refine ⟨.of_finish rfl rfl k .ok 0 [], State.mem_finish .., fun hold => ?_⟩
  rw [← settleBuckets_valid s] at hold
  rw [State.tenants_finish]
  simp [hold]

end

end

end

/-! ## FORMAT_RANGE -/

section
variable (h : Turn s k (.formatRange k))
include h

theorem exec_formatRange : exec .formatRange s = .next
    (match badArg [decide ((s.arg k 0).toNat < 64), decide ((s.arg k 1).toNat < 8), bits (s.arg k 2) 56 3 == 5] with
      | some i => s.finish k .invalid i []
      | none =>
        match s.jobOfSlot (s.arg k 0).toNat with
        | none => s.finish k .refused 1 []
        | some j => s.afterAbort j (.formatRange k) fun s => formatRangeFor s k j) := by
  show execFormatRange s = _
  simp only [execFormatRange, h.1, h.command]
  rfl

theorem formatRange_bad {i : Nat} (hb : badArg [decide ((s.arg k 0).toNat < 64), decide ((s.arg k 1).toNat < 8), bits (s.arg k 2) 56 3 == 5] = some i) :
    Replies s .formatRange k .invalid i [] := by
  refine Replies.of_finish (u := s) ?_ ⟨rfl, rfl, rfl⟩
  rw [exec_formatRange h, hb]

section
variable (h1 : (s.arg k 0).toNat < 64) (h2 : (s.arg k 1).toNat < 8) (h3 : bits (s.arg k 2) 56 3 = 5)
include h1 h2 h3

theorem formatRange_unnamed (hj : s.jobOfSlot (s.arg k 0).toNat = none) : Replies s .formatRange k .refused 1 [] := by
  refine Replies.of_finish (u := s) ?_ ⟨rfl, rfl, rfl⟩
  simp [exec_formatRange h, badArg_true, badArg_nil, h1, h2, h3, hj]

theorem exec_formatRange_job {j : Nat} (hj : s.jobOfSlot (s.arg k 0).toNat = some j) (ha : Settled2 s j) :
    exec .formatRange s = .next (formatRangeFor s k j) := by
  simp [exec_formatRange h, badArg_true, badArg_nil, h1, h2, h3, hj, ha.afterAbort]

end

end

section
variable {j : Nat}

theorem formatRange_taken (hexec : exec .formatRange s = .next (formatRangeFor s k j)) (ho : (tget s.ranges (s.arg k 1).toNat {}).on = true) (hj : (tget s.ranges (s.arg k 1).toNat {}).job ≠ j)
    (hopen : (s.job (tget s.ranges (s.arg k 1).toNat {}).job).isOpen = true) : Replies s .formatRange k .refused 2 [] := by
  refine Replies.of_finish (u := s) ?_ ⟨rfl, rfl, rfl⟩
  rw [hexec, formatRangeFor, if_pos (by simp only [ho, hopen, Bool.true_and, Bool.and_true, bne_iff_ne]; exact hj)]

section
variable (hfree : (tget s.ranges (s.arg k 1).toNat {}).on = false ∨ (tget s.ranges (s.arg k 1).toNat {}).job = j ∨
  (s.job (tget s.ranges (s.arg k 1).toNat {}).job).isOpen = false)
include hfree

theorem formatRangeFor_free : formatRangeFor s k j =
    match (argRange s k j).refusal ((s.ranges.filter fun e => e.1 != (s.arg k 1).toNat && e.2.on).map (·.2)) with
    | some c => s.finish k .refused c []
    | none => ((({ s with ranges := tset s.ranges (s.arg k 1).toNat (argRange s k j) } : State).dropSide
        (tget s.ranges (s.arg k 1).toNat {})).dropSide (argRange s k j)).finish k .ok 0 [] := by
  refine if_neg ?_
  simp only [Bool.and_eq_true, bne_iff_ne, not_and, Bool.not_eq_true]
  obtain ho | hj | hc := hfree
  · exact fun h => absurd (h.1.symm.trans ho) (by simp)
  · exact fun h => absurd hj h.2
  · exact fun _ => hc

end

section
variable (hexec : exec .formatRange s = .next (formatRangeFor s k j)) (hfree : (tget s.ranges (s.arg k 1).toNat {}).on = false ∨
  (tget s.ranges (s.arg k 1).toNat {}).job = j ∨ (s.job (tget s.ranges (s.arg k 1).toNat {}).job).isOpen = false)
include hexec hfree

theorem formatRange_refused {c : Nat}
    (hc : (argRange s k j).refusal ((s.ranges.filter fun e => e.1 != (s.arg k 1).toNat && e.2.on).map (·.2)) = some c) :
    Replies s .formatRange k .refused c [] := by
  refine Replies.of_finish (u := s) ?_ ⟨rfl, rfl, rfl⟩
  rw [hexec, formatRangeFor_free hfree, hc]

theorem formatRange_sets (hc : (argRange s k j).refusal ((s.ranges.filter fun e => e.1 != (s.arg k 1).toNat && e.2.on).map (·.2)) = none) :
    ∃ t, exec .formatRange s = .next t ∧ Completed s t k .ok 0 [] ∧ t.mem = s.mem ∧ tget t.ranges (s.arg k 1).toNat {} = argRange s k j ∧
      ((argRange s k j).on = true → ∀ e ∈ t.side, e.1 < 64 * (argRange s k j).first ∨ 64 * ((argRange s k j).first + (argRange s k j).lines) ≤ e.1) := by
  refine ⟨_, by rw [hexec, formatRangeFor_free hfree, hc], ?_⟩
  generalize argRange s k j = r
  obtain ⟨d, a, hu, -⟩ := dropSide_eq ({ s with ranges := tset s.ranges (s.arg k 1).toNat r } : State) (tget s.ranges (s.arg k 1).toNat {})
  rw [hu]
  obtain ⟨d', a', hv, hs⟩ := dropSide_eq ({ s with ranges := tset s.ranges (s.arg k 1).toNat r, side := d, agenda := a } : State) r
  rw [hv]
  refine ⟨.of_finish rfl rfl k .ok 0 [], State.mem_finish .., ?_⟩
  rw [State.ranges_finish, State.side_finish]
  exact ⟨tget_tset_same _ _ _ _, hs⟩

end

end

/-! ## ACT_SET -/

section
variable (h : Turn s k (.actSet k))
include h

theorem actSet_unnamed (hj : 65536 ≤ (s.arg k 0).toNat) : Replies s .actSet k .invalid 0 [] := by
  have hbad : decide ((s.arg k 0).toNat < 65536) = false := decide_eq_false (by omega)
  refine Replies.of_finish (u := s) ?_ ⟨rfl, rfl, rfl⟩
  show execActSet s = _
  simp only [execActSet, h.1, h.command, hbad, badArg_false]

section
variable (hj : (s.arg k 0).toNat < 65536) (hn : (s.arg k 1).toNat < 32) (hm : (s.arg k 2).toNat < 4096) (ht : (s.arg k 3).toNat < 4096)
include hj hn hm ht

theorem actSet_unspecified (hv : 1 < (s.arg k 4).toNat) : Replies s .actSet k .invalid 4 [] := by
  have hbad : decide ((s.arg k 4).toNat < 2) = false := decide_eq_false (by omega)
  refine Replies.of_finish (u := s) ?_ ⟨rfl, rfl, rfl⟩
  show execActSet s = _
  simp only [execActSet, h.1, h.command, hj, hn, hm, ht, hbad, decide_true, badArg_true, badArg_false, Option.map_some]

theorem actSet_sets (ha : Settled2 s (s.arg k 0).toNat) (hv : (s.arg k 4).toNat < 2) :
    ∃ t, exec .actSet s = .next t ∧ Completed s t k .ok 0 [] ∧ t.mem = s.mem ∧
      (t.job (s.arg k 0).toNat).act = if (s.arg k 4).toNat = 1 then tset (s.job (s.arg k 0).toNat).act (s.arg k 1).toNat ((s.arg k 2).toNat, (s.arg k 3).toNat)
        else tdel (s.job (s.arg k 0).toNat).act (s.arg k 1).toNat := by
  have hexec : exec .actSet s = .next ((s.setJob (s.arg k 0).toNat { s.job (s.arg k 0).toNat with
      act := if (s.arg k 4).toNat = 1 then tset (s.job (s.arg k 0).toNat).act (s.arg k 1).toNat ((s.arg k 2).toNat, (s.arg k 3).toNat)
        else tdel (s.job (s.arg k 0).toNat).act (s.arg k 1).toNat }).finish k .ok 0 []) := by
    show execActSet s = _
    simp only [execActSet, h.1, h.command, hj, hn, hm, ht, hv, decide_true, badArg_true, badArg_nil, Option.map_none, ha.afterAbort]
  refine ⟨_, hexec, .of_finish rfl rfl k .ok 0 [], State.mem_finish .., ?_⟩
  rw [State.job, State.jobs_finish]
  exact congrArg Job.act (tget_tset_same _ _ _ _)

end

end

/-! ## JOB_OPEN -/

section
variable {rcd : List Word} (h : Turn s k (.jobOpen k rcd))
include h

theorem exec_jobOpen : exec .jobOpen s = .next
    (match badArg [decide ((s.arg k 0).toNat < 64), (recordJob (fun i => rcd.getD i 0) (s.arg k 0).toNat (s.job (bits (rcd.getD 0 0) 0 16))).inRange] with
    | some i => s.finish k .invalid i []
    | none => s.afterAbort (bits (rcd.getD 0 0) 0 16) (.jobOpen k rcd) fun s =>
        match s.judgeOpen (bits (rcd.getD 0 0) 0 16) (recordJob (fun i => rcd.getD i 0) (s.arg k 0).toNat (s.job (bits (rcd.getD 0 0) 0 16)))
            (rcd.getD 12 0).toNat (rcd.getD 13 0).toNat with
        | .answer st c => s.finish k st c []
        | .opens j => (s.openJob (bits (rcd.getD 0 0) 0 16) j).finish k .ok 0 []) := by
  show execJobOpen s = _
  simp only [execJobOpen, h.1, h.command]
  rfl

end

/-- A job that opens is the record's, with its pages and its LPs (26 R404, R416). -/
theorem judgeOpen_opens {id tableVa count : Nat} {j o : Job} (h : s.judgeOpen id j tableVa count = .opens o) : o.isOpen = j.isOpen ∧ o.jslot = j.jslot := by
  unfold State.judgeOpen at h
  split at h
  · cases h
  split at h
  · cases h
  split at h
  · cases h
  split at h
  · cases h
  dsimp only at h
  split at h
  · cases h
  split at h
  · cases h
  split at h
  · cases h
  split at h
  · cases h
  · cases h
    exact ⟨rfl, rfl⟩

theorem openJob_opens (id : Nat) (o : Job) : (s.openJob id o).mailbox = s.mailbox ∧ (s.openJob id o).slots = s.slots ∧ (s.openJob id o).job id = o ∧
    ∀ cl ∈ o.clusters, (s.now, Ev.agingStep cl) ∈ (s.openJob id o).agenda := by
  obtain ⟨a, hpoke, hdue, -⟩ := State.foldl_poke (fun cl => cl) o.clusters ({ s.setJob id o with
    cores := (s.setJob id o).cores.map fun c => (c.1, if o.covers c.1 then { c.2 with icache := [] } else c.2) } : State)
  unfold State.openJob
  dsimp only at hpoke
  dsimp only
  rw [hpoke]
  split
  · exact ⟨rfl, rfl, tget_tset_same _ _ _ _, fun cl hcl => State.mem_agenda_soon.2 (.inr (hdue cl hcl))⟩
  · exact ⟨rfl, rfl, tget_tset_same _ _ _ _, hdue⟩

section
variable {rcd : List Word} (h : Turn s k (.jobOpen k rcd))
include h

theorem jobOpen_unnamed (hn : 64 ≤ (s.arg k 0).toNat) : Replies s .jobOpen k .invalid 0 [] := by
  have hbad : decide ((s.arg k 0).toNat < 64) = false := decide_eq_false (by omega)
  refine Replies.of_finish (u := s) ?_ ⟨rfl, rfl, rfl⟩
  rw [exec_jobOpen h, hbad, badArg_false]

section
variable (hn : (s.arg k 0).toNat < 64)
include hn

theorem jobOpen_outside (hr : (recordJob (fun i => rcd.getD i 0) (s.arg k 0).toNat (s.job (bits (rcd.getD 0 0) 0 16))).inRange = false) :
    Replies s .jobOpen k .invalid 1 [] := by
  refine Replies.of_finish (u := s) ?_ ⟨rfl, rfl, rfl⟩
  rw [exec_jobOpen h, decide_eq_true hn, hr, badArg_true, badArg_false]
  rfl

section
variable (hr : (recordJob (fun i => rcd.getD i 0) (s.arg k 0).toNat (s.job (bits (rcd.getD 0 0) 0 16))).inRange = true)
  (ha : Settled2 s (bits (rcd.getD 0 0) 0 16))
include hr ha

theorem jobOpen_answers {st : Status} {c : Nat} (hj : s.judgeOpen (bits (rcd.getD 0 0) 0 16)
      (recordJob (fun i => rcd.getD i 0) (s.arg k 0).toNat (s.job (bits (rcd.getD 0 0) 0 16))) (rcd.getD 12 0).toNat (rcd.getD 13 0).toNat = .answer st c) :
    Replies s .jobOpen k st c [] := by
  refine Replies.of_finish (u := s) ?_ ⟨rfl, rfl, rfl⟩
  rw [exec_jobOpen h, decide_eq_true hn, hr, badArg_true, badArg_true, badArg_nil]
  simp only [Option.map_none, ha.afterAbort, hj]

theorem jobOpen_opens {o : Job} (hj : s.judgeOpen (bits (rcd.getD 0 0) 0 16)
      (recordJob (fun i => rcd.getD i 0) (s.arg k 0).toNat (s.job (bits (rcd.getD 0 0) 0 16))) (rcd.getD 12 0).toNat (rcd.getD 13 0).toNat = .opens o) :
    ∃ t, exec .jobOpen s = .next t ∧ Completed s t k .ok 0 [] ∧ t.mem = s.mem ∧ t.job (bits (rcd.getD 0 0) 0 16) = o ∧
      (∀ cl ∈ o.clusters, (s.now, Ev.agingStep cl) ∈ t.agenda) ∧ o.isOpen = true ∧ o.jslot = (s.arg k 0).toNat := by
  obtain ⟨hmail, hslots, hjob, hdue⟩ := openJob_opens (s := s) (bits (rcd.getD 0 0) 0 16) o
  have hexec : exec .jobOpen s = .next ((s.openJob (bits (rcd.getD 0 0) 0 16) o).finish k .ok 0 []) := by
    rw [exec_jobOpen h, decide_eq_true hn, hr, badArg_true, badArg_true, badArg_nil]
    simp only [Option.map_none, ha.afterAbort, hj]
  obtain ⟨b, ot, hfin, -, hkeep⟩ := State.finish_eq (s.openJob (bits (rcd.getD 0 0) 0 16) o) k .ok 0 []
  refine ⟨_, hexec, .of_finish hmail hslots k .ok 0 [], (State.mem_finish ..).trans (State.mem_openJob ..), ?_, fun cl hcl => ?_, judgeOpen_opens hj⟩
  · rw [State.job, State.jobs_finish]
    exact hjob
  · rw [hfin]
    exact hkeep _ (hdue cl hcl)

end

end

end

end

/-- Settles O52. -/
theorem tenantJobAndRangeCommands : Obligations.TenantJobAndRangeCommands := by
  intro s k
  refine ⟨fun h => ⟨tenantMap_unnamed h, fun h1 h2 hx hy hr hr' hc hc' => ⟨tenantMap_meets h h1 h2 hx hy hr hr' hc hc', fun hm =>
      ⟨tenantMap_outside h h1 h2 hx hy hr hr' hc hc' hm, tenantMap_sets h h1 h2 hx hy hr hr' hc hc' hm⟩⟩⟩,
    fun h => ⟨fun h1 => ?_, fun h1 h2 => ?_, fun h1 h2 h3 => ?_, fun h1 h2 h3 => ⟨formatRange_unnamed h h1 h2 h3, fun j hj ha =>
      have hexec := exec_formatRange_job h h1 h2 h3 hj ha
      ⟨formatRange_taken hexec, fun hfree => ⟨fun c => formatRange_refused hexec hfree, formatRange_sets hexec hfree⟩⟩⟩⟩,
    fun h => ⟨actSet_unnamed h, fun hj hn hm ht ha => ⟨fun hv => ?_, fun hv => ?_, actSet_unspecified h hj hn hm ht⟩⟩,
    fun rcd h => ⟨jobOpen_unnamed h, jobOpen_outside h, fun hn hr ha => ⟨fun st c => jobOpen_answers h hn hr ha, fun o => jobOpen_opens h hn hr ha⟩⟩⟩
  · exact formatRange_bad h (by rw [decide_eq_false (by omega)]; rfl)
  · exact formatRange_bad h (by rw [decide_eq_true h1, decide_eq_false (by omega)]; rfl)
  · exact formatRange_bad h (by rw [decide_eq_true h1, decide_eq_true h2, beq_eq_false_iff_ne.2 h3]; rfl)
  · obtain ⟨t, ht, hdone, hmem, hact⟩ := actSet_sets h hj hn hm ht ha (by simp [hv])
    refine ⟨t, ht, hdone, hmem, ?_⟩
    rw [hact, if_pos (by simp [hv])]
    exact tget_tset_same _ _ _ _
  · obtain ⟨t, ht, hdone, hmem, hact⟩ := actSet_sets h hj hn hm ht ha (by simp [hv])
    refine ⟨t, ht, hdone, hmem, ?_⟩
    rw [hact, if_neg (by simp [hv])]
    simp [tdel]

end Sys2Proof.Claims
end

section
/-! The host's commands on groups, traces and lockstep (26 R403, R410, R411, R416, R417; 22 R355, R357, R360). -/

namespace Sys2Proof.Claims

open Sys2Proof.Machine

/-- The job's group, its circuits and the members' incarnations as CIRCUIT_CHANGE leaves them (22 R357 step 4). -/
def circuitsChanged (s : State) (k : Nat) : State :=
  let j := (s.arg k 0).toNat
  let g := s.groupArg k
  let s1 := s.setJob j { s.job j with group := g.members, circuits := g.circuits, self := g.self, groupBusy := false }
  { s1 with fresh := s.fresh + 1, peers := (s1.peers.filter fun p => p.1.1 != j) ++ g.members.map fun m => ((j, m.1), m.2) }

/-- What TRACE_CTL does for an open job, by its operation (26 R410, R416). -/
def traceControl (s : State) (k j op n : Nat) : State :=
  match op with
  | 0 =>
    match s.area (s.job j).root n (64 * (s.arg k 3).toNat) with
    | none => s.finish k .refused 1 []
    | some pages =>
      if (areaStacks pages n (64 * (s.arg k 3).toNat)).any (fun h => s.ready.getLsbD (2 + h) = false) then s.finish k .notReady 0 []
      else (s.setJob j { s.job j with traceBase := n, traceEntries := (s.arg k 3).toNat, traceNext := 0, tracePages := pages,
                                      traceTraps := bitAt (s.arg k 4) 0 }).finish k .ok 0 []
  | 1 => (s.setJob j { s.job j with breakpoints := (List.range n).map fun i => (slotNamed (s.arg k (3 + 2 * i)), s.arg k (4 + 2 * i)) }).finish k .ok 0 []
  | 2 => (s.setJob j { s.job j with breakpoints := [] }).finish k .ok 0 []
  | _ => (s.resumeSlot (slotNamed (s.arg k 2))).finish k .ok 0 []

/-- What LOCKSTEP does for two open jobs whose aborts are not under way (26 R411, R417). -/
def lockstepPair (s : State) (k a b d : Nat) : State :=
  if !(s.job a).det || !(s.job b).det then s.finish k .refused 1 []
  else if (s.job a).tenant ≠ (s.job b).tenant ∨ (s.job a).subW ≠ (s.job b).subW ∨ (s.job a).subH ≠ (s.job b).subH then s.finish k .refused 2 []
  else if d % 0x20000 ≠ 0 then s.finish k .refused 3 []
  else ((s.setJob a { s.job a with lockstep := some (b, d, true), streams := [] }).setJob b
    { s.job b with lockstep := some (a, d, false), streams := [] }).finish k .ok 0 []

section
variable {s : State} {k : Nat}

/-! ## GROUP_SET and CIRCUIT_CHANGE -/

/-- What GROUP_SET does for a group that its arguments describe rightly (22 R357; 26 R417). -/
def groupChange (s : State) (j k : Nat) (g : GroupArg) : State :=
  if (List.range 16).any (fun e => g.engines.testBit e && !s.ready.getLsbD (22 + e)) then s.finish k .notReady 0 []
  else if s.breaksRing j g then s.finish k .refused 1 []
  else (s.setJob j { s.job j with groupBusy := true }).soon (.circuitChange k)

section
variable (h : Turn s k (.groupSet k))
include h

theorem groupSet_unnamed (hj : 65536 ≤ (s.arg k 0).toNat) : Replies s .groupSet k .invalid 0 [] := by
  have hbad : decide ((s.arg k 0).toNat < 65536) = false := decide_eq_false (by omega)
  refine Replies.of_finish (u := s) ?_ ⟨rfl, rfl, rfl⟩
  show execGroupSet s = _
  simp only [execGroupSet, h.1, h.command, hbad, badArg_false]

theorem exec_groupSet (hj : (s.arg k 0).toNat < 65536) (h1 : 1 ≤ (s.groupArg k).self) (hm : ∃ m ∈ (s.groupArg k).members, m.1 = (s.groupArg k).self)
    (hz : ∀ m ∈ (s.groupArg k).members, m.1 ≠ 0)
    (hc : ∀ c ∈ (s.groupArg k).circuits, (∃ m ∈ (s.groupArg k).members, m.1 = c.1) ∧ ∃ m ∈ (s.groupArg k).members, m.1 = c.2.1)
    (ha : Settled2 s (s.arg k 0).toNat) : exec .groupSet s = .next (groupChange s (s.arg k 0).toNat k (s.groupArg k)) := by
  have hself : (decide (1 ≤ (s.groupArg k).self) && (s.groupArg k).members.any fun m => m.1 == (s.groupArg k).self) = true := by simpa [h1] using hm
  have hzero : ((s.groupArg k).members.map (·.1)).findIdx? (fun m => m == 0) = none := by simpa using hz
  have hends : (s.groupArg k).circuits.findIdx? (fun c => !(((s.groupArg k).self :: (s.groupArg k).members.map (·.1)).contains c.1 &&
      ((s.groupArg k).self :: (s.groupArg k).members.map (·.1)).contains c.2.1)) = none := by
    rw [List.findIdx?_eq_none_iff]
    intro c hmem
    obtain ⟨⟨a, ha, ha'⟩, b, hb, hb'⟩ := hc c hmem
    have hin (x : Nat × Nat) (hx : x ∈ (s.groupArg k).members) : ((s.groupArg k).self :: (s.groupArg k).members.map (·.1)).contains x.1 = true :=
      List.contains_iff_mem.2 (List.mem_cons_of_mem _ (List.mem_map_of_mem hx))
    rw [← ha', ← hb', hin a ha, hin b hb]
    rfl
  show execGroupSet s = _
  simp only [execGroupSet, h.1, h.command, hj, decide_true, hself, badArg_true, badArg_nil, Option.map_none, hzero, hends, ha.afterAbort]
  rfl

end

theorem groupChange_answers {j : Nat} {g : GroupArg} (hexec : exec .groupSet s = .next (groupChange s j k g)) :
    ((∃ e, e < 16 ∧ g.engines.testBit e = true ∧ s.ready.getLsbD (22 + e) = false) → Replies s .groupSet k .notReady 0 []) ∧
    ((∀ e, e < 16 → g.engines.testBit e = true → s.ready.getLsbD (22 + e) = true) →
      (s.breaksRing j g = true → Replies s .groupSet k .refused 1 []) ∧
      (s.breaksRing j g = false → ∃ t, exec .groupSet s = .next t ∧ (t.job j).groupBusy = true ∧ (s.now, Ev.circuitChange k) ∈ t.agenda ∧
        t.slots = s.slots ∧ t.mem = s.mem)) := by
  refine ⟨fun he => ?_, fun he => ?_⟩
  · refine Replies.of_finish (u := s) ?_ ⟨rfl, rfl, rfl⟩
    rw [hexec, groupChange, if_pos (by simpa [List.any_eq_true] using he)]
  · have hready : ¬((List.range 16).any fun e => g.engines.testBit e && !s.ready.getLsbD (22 + e)) = true := by simpa [List.any_eq_true] using he
    refine ⟨fun hb => Replies.of_finish (u := s) ?_ ⟨rfl, rfl, rfl⟩, fun hb => ⟨_, hexec, ?_⟩⟩
    · rw [hexec, groupChange, if_neg hready, if_pos hb]
    · rw [groupChange, if_neg hready, if_neg (by simp [hb])]
      exact ⟨congrArg Job.groupBusy (tget_tset_same _ _ _ _), State.due_soon _ _, rfl, rfl⟩

section
variable (h : Turn s k (.circuitChange k))
include h

theorem circuitChange_waits (ht : s.groupTraffic (s.arg k 0).toNat = true) :
    exec .circuitChange s = .next (s.schedule (s.now + usTicks) (.circuitChange k)) := by
  show execCircuitChange s = _
  simp only [execCircuitChange, h.1, h.command, ht, if_true]

theorem exec_circuitChange (ht : s.groupTraffic (s.arg k 0).toNat = false) : exec .circuitChange s = .next ((circuitsChanged s k).retryCommits.finish k .ok 0
    [BitVec.ofNat 64 (Config.linkNs (s.fresh + 1)), BitVec.ofNat 64 (groupRate (s.groupArg k).circuits)]) := by
  show execCircuitChange s = _
  simp only [execCircuitChange, h.1, h.command, ht, Bool.false_eq_true, if_false]
  rfl

theorem circuitChange_changes (ht : s.groupTraffic (s.arg k 0).toNat = false) :
    ∃ t, exec .circuitChange s = .next t ∧ (t.job (s.arg k 0).toNat).group = (s.groupArg k).members ∧
      (t.job (s.arg k 0).toNat).circuits = (s.groupArg k).circuits ∧ (t.job (s.arg k 0).toNat).self = (s.groupArg k).self ∧
      (t.job (s.arg k 0).toNat).groupBusy = false ∧
      Completed s t k .ok 0 [BitVec.ofNat 64 (Config.linkNs (s.fresh + 1)), BitVec.ofNat 64 (groupRate (s.groupArg k).circuits)] ∧ t.mem = s.mem := by
  refine ⟨_, exec_circuitChange h ht, ?_⟩
  obtain ⟨a, hretry⟩ := State.retryCommits_agenda (circuitsChanged s k)
  rw [hretry]
  have hjob : (circuitsChanged s k).job (s.arg k 0).toNat = { s.job (s.arg k 0).toNat with
      group := (s.groupArg k).members, circuits := (s.groupArg k).circuits, self := (s.groupArg k).self, groupBusy := false } := tget_tset_same _ _ _ _
  have hfin : ∀ st cause ans, (({ circuitsChanged s k with agenda := a } : State).finish k st cause ans).job (s.arg k 0).toNat =
      (circuitsChanged s k).job (s.arg k 0).toNat := fun _ _ _ => by rw [State.job, State.jobs_finish]; rfl
  rw [hfin, hjob]
  exact ⟨rfl, rfl, rfl, rfl, .of_finish rfl rfl k .ok 0 _, State.mem_finish ..⟩

end

/-! ## TRACE_CTL -/

section
variable (h : Turn s k (.traceCtl k))
include h

theorem exec_traceCtl {j op n : Nat} (hj : (s.arg k 0).toNat = j) (hop : (s.arg k 1).toNat = op) (hn : (s.arg k 2).toNat = n) : exec .traceCtl s = .next
    (match badArg [decide (j < 65536) && (s.job j).isOpen, decide (op < 4), op != 1 || decide (n ≤ 4)] with
    | some i => s.finish k .invalid i []
    | none => traceControl s k j op n) := by
  subst hj hop hn
  show execTraceCtl s = _
  simp only [execTraceCtl, h.1, h.command]
  rfl

theorem traceCtl_bad {i : Nat} (hb : badArg [decide ((s.arg k 0).toNat < 65536) && (s.job (s.arg k 0).toNat).isOpen, decide ((s.arg k 1).toNat < 4),
    (s.arg k 1).toNat != 1 || decide ((s.arg k 2).toNat ≤ 4)] = some i) : Replies s .traceCtl k .invalid i [] := by
  refine Replies.of_finish (u := s) ?_ ⟨rfl, rfl, rfl⟩
  rw [exec_traceCtl h rfl rfl rfl, hb]

section
variable (hj : (s.arg k 0).toNat < 65536) (ho : (s.job (s.arg k 0).toNat).isOpen = true)
include hj ho

theorem exec_traceCtl_job {op n : Nat} (hop : (s.arg k 1).toNat = op) (hlt : op < 4) (hn : (s.arg k 2).toNat = n) (hn' : op ≠ 1 ∨ n ≤ 4) :
    exec .traceCtl s = .next (traceControl s k (s.arg k 0).toNat op n) := by
  have h3 : (op != 1 || decide (n ≤ 4)) = true := by simpa using hn'
  rw [exec_traceCtl h rfl hop hn, decide_eq_true hj, ho, decide_eq_true hlt, h3]
  rfl

end

end

/-! ## LOCKSTEP -/

section
variable (h : Turn s k (.lockstep k))
include h

theorem exec_lockstep : exec .lockstep s = .next
    (match badArg [(s.job (s.arg k 0).toNat).isOpen, (s.job (s.arg k 1).toNat).isOpen && (s.arg k 0).toNat != (s.arg k 1).toNat] with
    | some i => s.finish k .invalid i []
    | none => s.afterAbort (s.arg k 0).toNat (.lockstep k) fun s => s.afterAbort (s.arg k 1).toNat (.lockstep k) fun s =>
        lockstepPair s k (s.arg k 0).toNat (s.arg k 1).toNat (s.arg k 2).toNat) := by
  show execLockstep s = _
  simp only [execLockstep, h.1, h.command]
  rfl

end

/-- Setting a job's control block is all that a trace or breakpoint command does beside its answer. -/
theorem jobSet_completes {i : Instr} {j : Nat} {job : Job} (hexec : exec i s = .next ((s.setJob j job).finish k .ok 0 [])) :
    ∃ t, exec i s = .next t ∧ Completed s t k .ok 0 [] ∧ t.mem = s.mem ∧ t.job j = job := by
  refine ⟨_, hexec, .of_finish rfl rfl k .ok 0 [], State.mem_finish .., ?_⟩
  rw [State.job, State.jobs_finish]
  exact tget_tset_same _ _ _ _

theorem traceRing_answers {j n : Nat} (hexec : exec .traceCtl s = .next (traceControl s k j 0 n)) :
    (s.area (s.job j).root n (64 * (s.arg k 3).toNat) = none → Replies s .traceCtl k .refused 1 []) ∧
    (∀ l, s.area (s.job j).root n (64 * (s.arg k 3).toNat) = some l → (∃ h ∈ areaStacks l n (64 * (s.arg k 3).toNat), s.ready.getLsbD (2 + h) = false) →
      Replies s .traceCtl k .notReady 0 []) ∧
    (∀ l, s.area (s.job j).root n (64 * (s.arg k 3).toNat) = some l → (∀ h ∈ areaStacks l n (64 * (s.arg k 3).toNat), s.ready.getLsbD (2 + h) = true) →
      ∃ t, exec .traceCtl s = .next t ∧ Completed s t k .ok 0 [] ∧ t.mem = s.mem ∧ (t.job j).traceBase = n ∧
        (t.job j).traceEntries = (s.arg k 3).toNat ∧ (t.job j).traceNext = 0 ∧ (t.job j).traceTraps = bitAt (s.arg k 4) 0) := by
  rw [traceControl] at hexec
  refine ⟨fun ha => ?_, fun l ha hr => ?_, fun l ha hr => ?_⟩
  all_goals simp only [ha] at hexec
  · exact Replies.of_finish (u := s) hexec ⟨rfl, rfl, rfl⟩
  · rw [if_pos (by simpa [List.any_eq_true] using hr)] at hexec
    exact Replies.of_finish (u := s) hexec ⟨rfl, rfl, rfl⟩
  · rw [if_neg (by simpa [List.any_eq_true] using hr)] at hexec
    obtain ⟨t, ht, hdone, hmem, hjob⟩ := jobSet_completes hexec
    exact ⟨t, ht, hdone, hmem, by rw [hjob], by rw [hjob], by rw [hjob], by rw [hjob]⟩

theorem slot_resumeSlot (id : Nat) : ((s.resumeSlot id).slot id).stopped = false ∧ (∀ i, i ≠ id → (s.resumeSlot id).slot i = s.slot i) := by
  unfold State.resumeSlot
  dsimp only
  split
  · exact ⟨by simp, fun i hi => s.slot_setSlot_other _ hi⟩
  · next h => exact ⟨by simpa using h, fun _ _ => rfl⟩

theorem traceResume_answers {j n : Nat} (hexec : exec .traceCtl s = .next (traceControl s k j 3 n)) :
    ∃ t, exec .traceCtl s = .next t ∧ (t.slot (slotNamed (s.arg k 2))).stopped = false ∧ (∀ id, id ≠ slotNamed (s.arg k 2) → t.slot id = s.slot id) ∧
      (t.mail k).busy = false ∧ t.mem = s.mem := by
  obtain ⟨hstop, hother⟩ := slot_resumeSlot (s := s) (slotNamed (s.arg k 2))
  have hcontrol : traceControl s k j 3 n = (s.resumeSlot (slotNamed (s.arg k 2))).finish k .ok 0 [] := rfl
  have hslot (id : Nat) : (traceControl s k j 3 n).slot id = (s.resumeSlot (slotNamed (s.arg k 2))).slot id := by
    rw [hcontrol, State.slot, State.slots_finish]
    rfl
  obtain ⟨a, o, hfin, -⟩ := (s.resumeSlot (slotNamed (s.arg k 2))).finish_eq k .ok 0 []
  refine ⟨_, hexec, by rw [hslot, hstop], fun id hid => by rw [hslot, hother id hid], ?_, (State.mem_finish ..).trans (State.mem_resumeSlot ..)⟩
  rw [hcontrol, hfin]
  exact congrArg MailSlot.busy (tget_tset_same _ _ _ _)

theorem lockstep_answers {a b d : Nat} (hexec : exec .lockstep s = .next (lockstepPair s k a b d)) (hab : a ≠ b) :
    ((s.job a).det = false ∨ (s.job b).det = false → Replies s .lockstep k .refused 1 []) ∧
    ((s.job a).det = true → (s.job b).det = true →
      ((s.job a).tenant ≠ (s.job b).tenant ∨ (s.job a).subW ≠ (s.job b).subW ∨ (s.job a).subH ≠ (s.job b).subH → Replies s .lockstep k .refused 2 []) ∧
      ((s.job a).tenant = (s.job b).tenant → (s.job a).subW = (s.job b).subW → (s.job a).subH = (s.job b).subH →
        (d % 0x20000 ≠ 0 → Replies s .lockstep k .refused 3 []) ∧
        (d % 0x20000 = 0 → ∃ t, exec .lockstep s = .next t ∧ Completed s t k .ok 0 [] ∧ t.mem = s.mem ∧ (t.job a).lockstep = some (b, d, true) ∧
          (t.job b).lockstep = some (a, d, false)))) := by
  rw [lockstepPair] at hexec
  refine ⟨fun hdet => ?_, fun ha hb => ⟨fun hne => ?_, fun ht hw hh => ⟨fun hd => ?_, fun hd => ?_⟩⟩⟩
  · rw [if_pos (by simpa using hdet)] at hexec
    exact Replies.of_finish (u := s) hexec ⟨rfl, rfl, rfl⟩
  · rw [if_neg (by simp [ha, hb]), if_pos hne] at hexec
    exact Replies.of_finish (u := s) hexec ⟨rfl, rfl, rfl⟩
  · rw [if_neg (by simp [ha, hb]), if_neg (by simp [ht, hw, hh]), if_pos hd] at hexec
    exact Replies.of_finish (u := s) hexec ⟨rfl, rfl, rfl⟩
  · rw [if_neg (by simp [ha, hb]), if_neg (by simp [ht, hw, hh]), if_neg (by simp [hd])] at hexec
    refine ⟨_, hexec, .of_finish rfl rfl k .ok 0 [], State.mem_finish .., ?_, ?_⟩
    · rw [State.job, State.jobs_finish]
      refine congrArg Job.lockstep ((tget_tset_other _ _ _ hab).trans (tget_tset_same _ _ _ _))
    · rw [State.job, State.jobs_finish]
      exact congrArg Job.lockstep (tget_tset_same _ _ _ _)

/-! ## A command that firmware has not turned to -/

theorem command_idle (h : s.bells.head? ≠ some k) (body : State → State) : s.command k body = s := if_neg h

end

/-- Settles O53. -/
theorem groupTraceAndLockstepCommands : Obligations.GroupTraceAndLockstepCommands := by
  intro s k
  refine ⟨fun h => ⟨groupSet_unnamed h, fun hj h1 hm hz hc ha => groupChange_answers (exec_groupSet h hj h1 hm hz hc ha)⟩,
    fun h => ⟨circuitChange_waits h, circuitChange_changes h⟩, fun h => ⟨fun hj => ?_, fun hj ho => ⟨fun hop => ?_, fun hop => ?_, fun hop => ⟨fun hn => ?_, fun hn => ?_⟩,
      fun hop => ?_, fun hop => ?_⟩⟩, fun h => ⟨fun ha => ?_, fun ha hb => ?_, fun ha hb hab hsa hsb => ?_⟩, ?_⟩
  · refine traceCtl_bad h ?_
    have hbad : (decide ((s.arg k 0).toNat < 65536) && (s.job (s.arg k 0).toNat).isOpen) = false := by
      obtain hj | hc := hj
      · simp [hj]
      · simp [hc]
    rw [hbad]
    rfl
  · refine traceCtl_bad h ?_
    rw [decide_eq_true hj, ho, decide_eq_false (by omega)]
    rfl
  · exact traceRing_answers (exec_traceCtl_job h hj ho (op := 0) (by simp [hop]) (by omega) rfl (by omega))
  · refine traceCtl_bad h ?_
    rw [decide_eq_true hj, ho, hop, decide_eq_false (Nat.not_le.2 hn)]
    rfl
  · obtain ⟨t, ht, hdone, hmem, hjob⟩ := jobSet_completes (exec_traceCtl_job h hj ho (op := 1) (by simp [hop]) (by omega) rfl (.inr hn))
    exact ⟨t, ht, hdone, hmem, by rw [hjob]⟩
  · obtain ⟨t, ht, hdone, hmem, hjob⟩ := jobSet_completes (exec_traceCtl_job h hj ho (op := 2) (by simp [hop]) (by omega) rfl (by omega))
    exact ⟨t, ht, hdone, hmem, by rw [hjob]⟩
  · exact traceResume_answers (exec_traceCtl_job h hj ho (op := 3) (by simp [hop]) (by omega) rfl (by omega))
  · refine Replies.of_finish (u := s) ?_ ⟨rfl, rfl, rfl⟩
    rw [exec_lockstep h, ha]
    rfl
  · refine Replies.of_finish (u := s) ?_ ⟨rfl, rfl, rfl⟩
    have hbad : ((s.job (s.arg k 1).toNat).isOpen && (s.arg k 0).toNat != (s.arg k 1).toNat) = false := by
      obtain hb | hab := hb
      · simp [hb]
      · simp [hab]
    rw [exec_lockstep h, ha, hbad]
    rfl
  · refine lockstep_answers ?_ hab
    have hgood : ((s.job (s.arg k 1).toNat).isOpen && (s.arg k 0).toNat != (s.arg k 1).toNat) = true := by simp [hb, hab]
    rw [exec_lockstep h, ha, hgood, badArg_true, badArg_true, badArg_nil]
    simp only [Option.map_none, hsa.afterAbort, hsb.afterAbort]
  · intro i hi hb he
    simp only [List.mem_cons, List.not_mem_nil, or_false] at hi
    rcases hi with rfl | rfl | rfl | rfl | rfl | rfl | rfl | rfl | rfl | rfl | rfl | rfl | rfl
    all_goals
      simp only [exec, execIdentify, execAttest, execJobClose, execTenantMap, execFormatRange, execActSet, execPowerCap, execGroupSet, execCircuitChange,
        execParkPolicy, execTraceCtl, execLockstep, execNotSupportedCommand]
      split
      · next k' h =>
        have hk : k' = k := by simpa [h] using he
        rw [command_idle (hk ▸ hb)]
      · rfl

end Sys2Proof.Claims
end

section
/-! Barriers (13 R246 to R249): BARC, BAR, BARW, and the release of a barrier. -/

namespace Sys2Proof.Claims

open Sys2Proof.Machine

/-- What an instruction that only goes on leaves: registers, the strand's other state, memory and the other slots. -/
structure GoesPast (s t : State) (n : Nat) (st : BitVec 2) : Prop where
  goesOn : GoesOn s t (s.me.pc + BitVec.ofNat 64 n) st
  regs : KeepsRegs s t
  strand : KeepsStrand s t
  memory : KeepsMemory s t
  slots : KeepsSlots s t

theorem SameStrand.goesPast {s u : State} (h : SameStrand s u) (hs : u.slots = s.slots) (n : Nat) (st : BitVec 2) : GoesPast s (u.retire n st) n st where
  goesOn := h.goesOn n st
  regs := by
    have hr := KeepsRegs.retire u n st
    rwa [KeepsRegs, h.me] at hr
  strand := by
    have hk := KeepsStrand.retire u n st
    rwa [KeepsStrand, h.me] at hk
  memory := ⟨h.mem, h.fe⟩
  slots := fun id hid => by
    rw [(OnlyMe.retire u n st).2 id (h.cur.symm ▸ hid), State.slot, hs]
    rfl

theorem GoesPast.schedule {s t : State} {n : Nat} {st : BitVec 2} (h : GoesPast s t n st) (k : Nat) (e : Ev) : GoesPast s (t.schedule k e) n st :=
  ⟨h.goesOn, h.regs, h.strand, h.memory, h.slots⟩

section
variable {s : State} {d : BitVec 3} {a : BitVec 7} {st : BitVec 2} {r : Nat} (hr : s.bxReg s.me.gang s.coreId d.toNat = some r)
include hr

theorem badBarrier_none : s.badBarrier d = none := by simp [State.badBarrier, hr]

theorem barrierOf_me : s.barrierOf s.me.gang s.coreId d.toNat = (s.core s.coreId).barrier r := by simp [State.barrierOf, hr]

theorem barrier_setBarrier (b : Barrier) : ((s.setBarrier s.me.gang s.coreId d.toNat b).core s.coreId).barrier r = b := by
  simp [State.setBarrier, Core.barrier, hr]

theorem barc_sets (h : Settled s [a]) (hi : s.barcIllegal d (s.rx a) = false) :
    ∃ t, exec (.barc d a st) s = .next t ∧ (t.core s.coreId).barrier r = { word := s.rx a &&& 0xFFFFFFFFF } ∧ GoesPast s t 4 st := by
  refine ⟨(s.setBarrier s.me.gang s.coreId d.toNat { word := s.rx a &&& 0xFFFFFFFFF }).retire 4 st, ?_, barrier_setBarrier hr _,
    SameStrand.goesPast (s := s) (u := s.setBarrier _ _ _ _) ⟨rfl, rfl, rfl, rfl, rfl⟩ rfl 4 st⟩
  show execBarc d a st s = _
  rw [execBarc, badBarrier_none hr, State.guardedWith, h.guarded, if_neg (by simp [hi])]

/-- The register once the issuing slot has arrived (13 R248). -/
def arrivedAt (b : Barrier) (slot : Nat) : Barrier :=
  { b with arrived := b.arrived ++ [(slot, b.gen)], lastGen := tset b.lastGen slot b.gen }

theorem bar_arrives (hs : s.cur % 16 ∈ ((s.core s.coreId).barrier r).slots) (hu : s.me.unacked = [])
    (ha : ∀ e ∈ ((s.core s.coreId).barrier r).arrived, e.1 ≠ s.cur % 16) :
    ∃ t, exec (.bar d st) s = .next t ∧
      ((t.core s.coreId).barrier r).arrived = ((s.core s.coreId).barrier r).arrived ++ [(s.cur % 16, ((s.core s.coreId).barrier r).gen)] ∧
      ((t.core s.coreId).barrier r).word = ((s.core s.coreId).barrier r).word ∧ GoesPast s t 4 st ∧
      ((∀ i ∈ ((s.core s.coreId).barrier r).slots, i = s.cur % 16 ∨ ∃ e ∈ ((s.core s.coreId).barrier r).arrived, e.1 = i) →
        (s.sweepTick s.me.gang s.coreId (s.barrierCorner s.me.gang s.coreId ((s.core s.coreId).barrier r).word),
          Ev.barrierArrival s.coreId s.me.gang d.toNat) ∈ t.agenda) := by
  have hb := barrierOf_me hr
  have hexec : exec (.bar d st) s = .next
      (if (arrivedAt (s.barrierOf s.me.gang s.coreId d.toNat) (s.cur % 16)).slots.all fun i =>
          (arrivedAt (s.barrierOf s.me.gang s.coreId d.toNat) (s.cur % 16)).arrived.any fun e => e.1 == i then
        ((s.setBarrier s.me.gang s.coreId d.toNat (arrivedAt (s.barrierOf s.me.gang s.coreId d.toNat) (s.cur % 16))).retire 4 st).schedule
          (s.sweepTick s.me.gang s.coreId (s.barrierCorner s.me.gang s.coreId (s.barrierOf s.me.gang s.coreId d.toNat).word))
          (.barrierArrival s.coreId s.me.gang d.toNat)
      else (s.setBarrier s.me.gang s.coreId d.toNat (arrivedAt (s.barrierOf s.me.gang s.coreId d.toNat) (s.cur % 16))).retire 4 st) := by
    have hslot : (!(s.barrierOf s.me.gang s.coreId d.toNat).slots.contains (s.cur % 16)) = false := by simpa [hb] using hs
    have hnone : ((s.barrierOf s.me.gang s.coreId d.toNat).arrived.any fun e => e.1 == s.cur % 16) = false := by simpa [hb] using ha
    show execBar d st s = _
    rw [execBar, badBarrier_none hr, State.guardedWith, (settled_nil s).guarded]
    simp only [hslot, Bool.false_eq_true, if_false, released_of_acked _ hu, hnone]
    rfl
  rw [hb] at hexec
  have hpast := SameStrand.goesPast (s := s) (u := s.setBarrier s.me.gang s.coreId d.toNat (arrivedAt ((s.core s.coreId).barrier r) (s.cur % 16)))
    ⟨rfl, rfl, rfl, rfl, rfl⟩ rfl 4 st
  have hset := barrier_setBarrier hr (arrivedAt ((s.core s.coreId).barrier r) (s.cur % 16))
  split at hexec
  · refine ⟨_, hexec, (congrArg Barrier.arrived hset :), (congrArg Barrier.word hset :), hpast.schedule _ _, fun _ => State.due_schedule _ _ _⟩
  · next hall =>
    refine ⟨_, hexec, (congrArg Barrier.arrived hset :), (congrArg Barrier.word hset :), hpast, fun hin => absurd ?_ hall⟩
    refine List.all_eq_true.2 fun i hi => ?_
    have := hin i hi
    simp only [arrivedAt, List.any_append, List.any_cons, List.any_nil, Bool.or_false, Bool.or_eq_true, List.any_eq_true, beq_iff_eq]
    obtain h1 | h1 := hin i hi
    · exact .inr h1.symm
    · exact .inl h1

theorem barw_goes (hs : s.cur % 16 ∈ ((s.core s.coreId).barrier r).slots)
    (hg : (s.cur % 16, ((s.core s.coreId).barrier r).gen) ∉ ((s.core s.coreId).barrier r).lastGen) :
    ∃ t, exec (.barw d st) s = .next t ∧ GoesPast s t 4 st := by
  have hb := barrierOf_me hr
  have haside := acquire_aside s s.coreId
  have hstore := acquire_keepsStore s s.coreId
  refine ⟨_, ?_, SameStrand.goesPast ⟨haside.me, haside.cur, haside.now, hstore.mem, hstore.fe⟩ haside.slots 4 st⟩
  have hslot : (!(s.barrierOf s.me.gang s.coreId d.toNat).slots.contains (s.cur % 16)) = false := by simpa [hb] using hs
  have hnone : ((s.barrierOf s.me.gang s.coreId d.toNat).lastGen.any fun e => e.1 == s.cur % 16 && e.2 == (s.barrierOf s.me.gang s.coreId d.toNat).gen) = false := by
    rw [hb]
    refine List.any_eq_false.2 fun e he hc => hg ?_
    simp only [Bool.and_eq_true, beq_iff_eq] at hc
    exact hc.1 ▸ hc.2 ▸ he
  show execBarw d st s = _
  rw [execBarw, badBarrier_none hr, State.guardedWith, (settled_nil s).guarded]
  simp only [hslot, hnone, Bool.false_eq_true, if_false]

end

section
variable {s : State} {c g k : Nat}

theorem foldl_schedule_due {α : Type} (f : α → Nat) (e : α → Ev) (l : List α) (u : State) :
    ∃ a, l.foldl (fun (u : State) m => u.schedule (f m) (e m)) u = { u with agenda := a } ∧ (∀ m ∈ l, (f m, e m) ∈ a) ∧ ∀ x ∈ u.agenda, x ∈ a := by
  induction l generalizing u with
  | nil => exact ⟨u.agenda, rfl, by simp, fun _ h => h⟩
  | cons m l ih =>
    obtain ⟨a, h, hdue, hkeep⟩ := ih (u.schedule (f m) (e m))
    refine ⟨a, h, List.forall_mem_cons.2 ⟨hkeep _ (State.due_schedule _ _ _), hdue⟩, fun x hx => hkeep x (State.mem_agenda_schedule.2 (.inr hx))⟩

theorem barrierArrival_releases (he : s.ev = some (.barrierArrival c g k)) (hl : s.members g (s.barrierOf g c k).word ≠ [])
    (ha : s.arriving g k (s.members g (s.barrierOf g c k).word) = false)
    (hm : ∀ m ∈ s.members g (s.barrierOf g c k).word, (s.barrierOf g m k).config = (s.barrierOf g c k).config ∧
      (s.barrierOf g m k).gen = (s.barrierOf g c k).gen ∧ ∀ i ∈ (s.barrierOf g m k).slots, ∃ e ∈ (s.barrierOf g m k).arrived, e.1 = i) :
    ∃ t, exec .barrierArrival s = .next t ∧ t = { s with agenda := t.agenda } ∧ ∀ m ∈ s.members g (s.barrierOf g c k).word,
      (s.sweepTick g (s.barrierCorner g c (s.barrierOf g c k).word) m, Ev.barrierRelease m g k) ∈ t.agenda := by
  obtain ⟨a, hfold, hdue, -⟩ := foldl_schedule_due (fun m => s.sweepTick g (s.barrierCorner g c (s.barrierOf g c k).word) m)
    (fun m => Ev.barrierRelease m g k) (s.members g (s.barrierOf g c k).word) s
  have hready : ((s.members g (s.barrierOf g c k).word).all fun m => (s.barrierOf g m k).config == (s.barrierOf g c k).config &&
      (s.barrierOf g m k).gen == (s.barrierOf g c k).gen && (s.barrierOf g m k).slots.all fun i => (s.barrierOf g m k).arrived.any fun e => e.1 == i) = true := by
    refine List.all_eq_true.2 fun m hmem => ?_
    obtain ⟨hconf, hgen, harr⟩ := hm m hmem
    simp only [hconf, hgen, beq_self_eq_true, Bool.true_and, List.all_eq_true, List.any_eq_true, beq_iff_eq]
    exact harr
  have hexec : exec .barrierArrival s = .next ((s.members g (s.barrierOf g c k).word).foldl (fun (u : State) m =>
      u.schedule (s.sweepTick g (s.barrierCorner g c (s.barrierOf g c k).word) m) (.barrierRelease m g k)) s) := by
    show execBarrierArrival s = _
    simp only [execBarrierArrival, he, hready, ha, List.isEmpty_eq_false_iff.2 hl, Bool.not_false, Bool.and_self, if_true]
  rw [hfold] at hexec
  exact ⟨_, hexec, rfl, hdue⟩

theorem bits_eq_extract (v : Word) (lo n : Nat) : bits v lo n = (v.extractLsb' lo n).toNat := by
  simp [bits, BitVec.extractLsb'_toNat, Nat.shiftRight_eq_div_pow]

theorem genMask_bit : ∀ i : Fin 64, (0xFFFF000000000000 : Word).getLsbD i = decide (48 ≤ i.val) := by decide

/-- GEN takes a new value, and the configuration stays (13 R246). -/
theorem merge_gen (w : Word) {n : Nat} (hn : n < 65536) : bits (merge w (BitVec.ofNat 64 (n * 2 ^ 48)) 0xFFFF000000000000) 48 16 = n ∧
    bits (merge w (BitVec.ofNat 64 (n * 2 ^ 48)) 0xFFFF000000000000) 0 36 = bits w 0 36 := by
  constructor
  · have h : bits (merge w (BitVec.ofNat 64 (n * 2 ^ 48)) 0xFFFF000000000000) 48 16 = bits (BitVec.ofNat 64 (n * 2 ^ 48)) 48 16 := by
      rw [bits_eq_extract, bits_eq_extract]
      congr 1
      ext i hi
      have hm := genMask_bit ⟨48 + i, by omega⟩
      simp only [merge, BitVec.getElem_extractLsb', BitVec.getLsbD_or, BitVec.getLsbD_and, BitVec.getLsbD_not, hm]
      simp
    rw [h, bits, BitVec.toNat_ofNat]
    omega
  · rw [bits_eq_extract, bits_eq_extract]
    congr 1
    ext i hi
    have hm := genMask_bit ⟨i, by omega⟩
    simp only [merge, BitVec.getElem_extractLsb', BitVec.getLsbD_or, BitVec.getLsbD_and, BitVec.getLsbD_not, Nat.zero_add, hm]
    have : ¬ 48 ≤ i := by omega
    have : i < 64 := by omega
    simp [*]

theorem barrierRelease_advances (he : s.ev = some (.barrierRelease c g k)) (ha : (s.barrierOf g c k).arrived ≠ []) :
    ∃ t, exec .barrierRelease s = .next t ∧ (t.barrierOf g c k).gen = ((s.barrierOf g c k).gen + 1) % 2 ^ 16 ∧
      (t.barrierOf g c k).arrived = [] ∧ (t.barrierOf g c k).config = (s.barrierOf g c k).config ∧ KeepsMemory s t ∧ t.slots = s.slots := by
  obtain ⟨hgen, hconf⟩ := merge_gen (s.barrierOf g c k).word (n := ((s.barrierOf g c k).gen + 1) % 65536) (Nat.mod_lt _ (by omega))
  have hset (b : Barrier) : (s.setBarrier g c k b).barrierOf g c k = b := by
    simp [State.barrierOf, State.setBarrier, State.bxReg, State.gang, Core.barrier, State.core, State.setCore]
  have hexec : exec .barrierRelease s = .next (s.setBarrier g c k { s.barrierOf g c k with
      word := merge (s.barrierOf g c k).word (BitVec.ofNat 64 (((s.barrierOf g c k).gen + 1) % 65536 * 2 ^ 48)) 0xFFFF000000000000, arrived := [] }) := by
    show execBarrierRelease s = _
    simp only [execBarrierRelease, he, if_neg ha]
  exact ⟨_, hexec, (congrArg Barrier.gen (hset _)).trans hgen, congrArg Barrier.arrived (hset _), (congrArg Barrier.config (hset _)).trans hconf, ⟨rfl, rfl⟩, rfl⟩

end

/-- Settles O30. -/
theorem barriersSynchronise : Obligations.BarriersSynchronise := by
  intro s d a st r hr
  refine ⟨fun h hi => ?_, fun hs hu ha => ?_, fun hs hg => ?_, fun c g k => barrierArrival_releases, fun c g k he _ => barrierRelease_advances he⟩
  · obtain ⟨t, ht, hb, hp⟩ := barc_sets hr h hi
    exact ⟨t, ht, hb, hp.goesOn, hp.regs, hp.strand, hp.memory, hp.slots⟩
  · obtain ⟨t, ht, harr, hw, hp, hlast⟩ := bar_arrives hr hs hu ha
    exact ⟨t, ht, harr, hw, hp.goesOn, hp.regs, hp.strand, hp.memory, hp.slots, hlast⟩
  · obtain ⟨t, ht, hp⟩ := barw_goes hr hs hg
    exact ⟨t, ht, hp.goesOn, hp.regs, hp.strand, hp.memory, hp.slots⟩

end Sys2Proof.Claims
end

section
/-! WORK, TVT, LWAIT, and the ends of a gang: HALT and COMMIT (13 R237, R238, R243 to R245; 03 R72). -/

namespace Sys2Proof.Claims

open Sys2Proof.Machine

section
variable {s : State} {d a : BitVec 7} {st : BitVec 2}

theorem work_counts (h : Settled s [a]) :
    ∃ t, exec (.work a st) s = .next t ∧ t.myGang = { s.myGang with work := min (2 ^ 64 - 1) (s.myGang.work + (s.rx a).toNat) } ∧ GoesPast s t 4 st := by
  refine ⟨_, congrArg Host.Outcome.next (h.guarded _), ?_, SameStrand.goesPast (s := s) (u := s.setGang s.me.gang _) ⟨rfl, rfl, rfl, rfl, rfl⟩ rfl 4 st⟩
  simp [State.myGang, State.gang, State.setGang, State.me, State.slot, State.retire, State.setMe, State.setSlot]

theorem tvt_tests (h : Settled s [d]) :
    ∃ t, exec (.tvt d st) s = .next t ∧ Answers s t d (flag (s.me.vt.toNat ≤ s.lwAt s.myGang.job s.coreId)) st ∧ OnlyMe s t :=
  ⟨_, congrArg Host.Outcome.next (h.guarded _), SameStrand.rfl.answers (h.regOk (by simp)) _ st, OnlyMe.result s d _ st⟩

theorem lwait_goes (h : Settled s [d, a]) :
    ((s.rx a).toNat ≤ s.lwAt s.myGang.job s.coreId → ∃ t, exec (.lwait d a st) s = .next t ∧
      Answers s t d (BitVec.ofNat 64 (s.lwAt s.myGang.job s.coreId)) st ∧ OnlyMe s t) ∧
    (s.lwAt s.myGang.job s.coreId < (s.rx a).toNat → ∃ t, exec (.lwait d a st) s = .next t ∧ t.me.wait = .cond (.lwAtLeast (s.rx a).toNat) ∧
      t.me.pc = s.me.pc ∧ KeepsRegs s t ∧ OnlyMe s t) := by
  refine ⟨fun hl => ⟨_, congrArg Host.Outcome.next ((h.guarded _).trans (if_pos hl)), SameStrand.rfl.answers (h.regOk (by simp)) _ st, OnlyMe.result s d _ st⟩,
    fun hl => ⟨_, congrArg Host.Outcome.next ((h.guarded _).trans (if_neg (by omega))), ?_⟩⟩
  simp [State.block, KeepsRegs, OnlyMe.setMe]

/-! ## HALT and COMMIT -/

theorem exec_halt : ∀ i ∈ haltForms st, exec i s = .next s.haltNow :=
  List.forall_mem_cons.2 ⟨rfl, List.forall_mem_cons.2 ⟨rfl, List.forall_mem_nil _⟩⟩

theorem checkDone_passes (h : DonePasses s) (k : State → State) : s.checkDone k = k s := by
  unfold State.checkDone
  obtain hz | ⟨pa, tb, ht⟩ := h
  · exact if_pos hz
  · dsimp only
    split
    · rfl
    · rw [ht]

theorem alone_donePasses (h : s.myGang.alone = true) : DonePasses s := by
  simp only [Gang.alone, Bool.and_eq_true, beq_iff_eq] at h
  exact .inl h.2

/-- A gang that may end commits with no result bytes where its task names no tile (13 R237). -/
theorem commitNow_ends (h : MayEnd s) (a : Word) :
    s.commitNow a 0 = if s.myGang.alone then s.finishAlone (s.commitMsg a 0) else s.sendCommit (s.commitMsg a 0) := by
  obtain ⟨hu, hq, hd⟩ := h
  have hnone : s.damagedLocal (localBase s.coreId + a.toNat) 0 = false := rfl
  rw [State.commitNow, released_of_acked _ hu]
  simp only [hq, hd, hnone, Bool.true_eq_false, Bool.false_eq_true, if_false]

/-- A commit for a home of this module arrives at the cycle's end, and the strand waits (13 R238; log 84). -/
theorem sendCommit_arrives (h : NearHome s) (m : CommitMsg) (hm : m.gang = s.me.gang) :
    (s.sendCommit m).me.wait = .commit ∧ (s.sendCommit m).myGang.commit = some (m, s.cur) ∧
      (s.cycleEnd, Ev.commitArrival m) ∈ (s.sendCommit m).agenda ∧ KeepsMemory s (s.sendCommit m) ∧ KeepsSlots s (s.sendCommit m) := by
  have hsent : s.sendCommit m = ((s.setGang m.gang { s.gang m.gang with commit := some (m, s.cur) }).waitFor .commit).schedule s.cycleEnd (.commitArrival m) := by
    have hgang : s.gang m.gang = s.myGang := by rw [hm]; rfl
    unfold State.sendCommit
    rw [hgang]
    dsimp only
    obtain hn | ⟨k, hk, ht⟩ := h
    · rw [hn]
    · rw [hk]
      exact if_neg (by rw [Bool.not_eq_true]; exact ht)
  rw [hsent]
  refine ⟨by simp [State.waitFor, State.me, State.slot, State.schedule, State.setMe, State.setSlot], ?_, State.due_schedule _ _ _, ⟨rfl, rfl⟩, fun id hid => ?_⟩
  · simp [State.myGang, State.waitFor, State.me, State.slot, State.schedule, State.setMe, State.setSlot, State.gang, State.setGang, hm]
  · exact State.slot_setSlot_other _ _ hid

theorem haltNow_leaves (h : MayEnd s) (hr : 1 < s.myGang.running) :
    s.haltNow.me.n = 0 ∧ s.haltNow.me.wait = .cond .never ∧ s.haltNow.myGang.running = s.myGang.running - 1 ∧ KeepsMemory s s.haltNow ∧ KeepsSlots s s.haltNow := by
  have hhalt : s.haltNow = s.haltStrand := by
    rw [State.haltNow, (settled_nil s).guarded, if_neg (by omega), released_of_acked _ h.1, h.2.1]
    rfl
  rw [hhalt]
  refine ⟨by simp [State.haltStrand], by simp [State.haltStrand], ?_, ⟨rfl, rfl⟩, fun id hid => State.slot_setSlot_other _ _ hid⟩
  simp [State.haltStrand, State.settleBuckets, State.myGang, State.me, State.slot, State.setMe, State.setSlot, State.gang, State.setGang]

theorem haltNow_commits (hr : s.myGang.running ≤ 1) (hd : DonePasses s) : s.haltNow = s.commitNow 0 0 := by
  rw [State.haltNow, (settled_nil s).guarded, if_pos hr, checkDone_passes hd]

theorem exec_commit (h : Settled s [a]) (hr : s.myGang.running ≤ 1) (ht : packetTile s.myGang.packet = 0) (hd : DonePasses s) :
    exec (.commit a st) s = .next (s.commitNow (s.rx a) 0) := by
  refine congrArg Host.Outcome.next ((h.guarded _).trans ((if_pos ht).trans ((checkDone_passes hd _).trans (if_neg (by omega)))))

end

/-- Settles O28. -/
theorem workTimeAndEnds : Obligations.WorkTimeAndEnds := by
  intro s d a st
  refine ⟨fun h => ?_, tvt_tests, lwait_goes, fun i hi h => ⟨fun hr => ⟨_, exec_halt i hi, haltNow_leaves h hr⟩, fun hr ha => ?_, fun hr ha hd hn => ?_⟩,
    fun h hs hr ht hd => ⟨fun ha => ?_, fun ha hn => ?_⟩⟩
  · obtain ⟨t, ht, hw, hp⟩ := work_counts h
    exact ⟨t, ht, hw, hp.goesOn, hp.regs, hp.strand, hp.memory, hp.slots⟩
  · rw [exec_halt i hi, haltNow_commits hr (alone_donePasses ha), commitNow_ends h, if_pos ha]
    rfl
  · refine ⟨_, exec_halt i hi, ?_⟩
    rw [haltNow_commits hr hd, commitNow_ends h, if_neg (by simp [ha])]
    exact sendCommit_arrives hn _ rfl
  · rw [exec_commit hs hr ht hd, commitNow_ends h, if_pos ha]
    rfl
  · refine ⟨_, exec_commit hs hr ht hd, ?_⟩
    rw [commitNow_ends h, if_neg (by simp [ha])]
    exact sendCommit_arrives hn _ rfl

end Sys2Proof.Claims
end

section
/-! SPAWN, SPAWN.INL, SEND and IRREV (13 R232 to R236, R240, R241). -/

namespace Sys2Proof.Claims

open Sys2Proof.Machine

theorem Answers.of_state {s t u : State} {d : BitVec 7} {v : Word} {st : BitVec 2} (h : Answers s t d v st) (hme : u.me = t.me) (hmem : u.mem = t.mem)
    (hfe : u.fe = t.fe) : Answers s u d v st := by
  unfold Answers Writes GoesOn State.rx at *
  rw [hme, hmem, hfe]
  exact h

section
variable {s u v : State} {d a : BitVec 7} {st : BitVec 2} {ws hs : List Word}

theorem Operand.me {va : Word} (h : Operand s va ws u) : u.me = s.me ∧ u.cur = s.cur := h.2.me

theorem Operand.operand64 {va : Word} (h : Operand s va ws u) (k : List Word → State → State) : s.operand64 va k = k ws u := by
  rw [State.operand64, if_neg (by simpa using h.1), h.2.withLine]

theorem buffer_buffered (hd : s.me.regOk d.toNat = true) (hroom : s.myGang.outbox.length < 256) (o : OutEntry) : Buffered s (s.buffer d st o) d o st := by
  rw [State.buffer, if_neg (by omega)]
  refine ⟨?_, SameStrand.answers ⟨rfl, rfl, rfl, rfl, rfl⟩ hd _ st⟩
  simp [State.myGang, State.result, State.retire, State.wx, State.me, State.slot, State.setMe, State.setSlot, State.gang, State.setGang]

/-! ## Spawning -/

/-- The operands of a spawn are there and its checks pass (13 R234, R235). -/
theorem spawnOperands_passes (h : Settled s [d, a]) (ho : Operand s (s.rx a) ws u) (hl : LineAt u (ws.getD 1 0 &&& ~~~63) 64 hs v)
    (hp : PacketAccepted v ws (hs.getD 0 0)) {confinedOk : Bool} (hc : v.myGang.confined = true → confinedOk = true) (k : List Word → Word → State → State) :
    s.spawnOperands d a confinedOk k = k ws (hs.getD 0 0) v := by
  obtain ⟨h0, hhdr, hjob, hten, hvt, hhedge⟩ := hp
  have hconf : (v.myGang.confined && !confinedOk) = false := by
    cases hv : v.myGang.confined
    · rfl
    · simp [hc hv]
  have hpriv : bitAt (ws.getD 0 0) 0 = false := h0
  have hmust : ¬(packetHedge ws = true ∧ packetTile ws = 0 ∧ packetDone ws = 0) := fun ⟨hw, ht, hd⟩ => (hhedge hw).elim (· ht) (· hd)
  rw [State.spawnOperands, h.guarded, ho.operand64]
  simp only [hl.withLine, hconf, hpriv, hhdr, hjob, hten, Nat.not_lt.2 hvt, hmust, Bool.false_eq_true, Bool.true_eq_false, ne_eq, not_true_eq_false, or_self, if_false]

theorem full_eq_false {c : Cluster} : c.full = false ↔ c.cistern.length < 4096 ∧ c.waiting = [] := by
  simp [Cluster.full]

/-- A task entered in a queue with room stands last in it (15 R258). -/
theorem enqueue_room {cl : Nat} (h : (s.cluster cl).full = false) {e : Entry} (he : e.sent = none) :
    s.enqueue cl e = (s.setCluster cl { (s.cluster cl).endSearch with cistern := (s.cluster cl).cistern ++ [e] }).soon (.agingStep cl) := by
  have hsent : ({ e with sent := none } : Entry) = e := by
    rw [← he]
  rw [State.enqueue]
  dsimp only
  rw [if_pos (full_eq_false.1 h), hsent, State.receive, he]

theorem spawnNow_spawned (hd : s.me.regOk d.toNat = true) (hroom : (s.cluster (clusterOf s.coreId)).full = false) (p : List Word) (h : Word) :
    Spawned s (s.spawnNow d st p h) d p h st := by
  have hroom' : (((s.newTask (clusterOf s.coreId)).2).cluster (clusterOf s.coreId)).full = false := by
    rw [State.newTask, State.cluster_setCluster]
    exact hroom
  rw [State.spawnNow, enqueue_room hroom' rfl]
  refine ⟨SameStrand.answers ⟨rfl, rfl, rfl, rfl, rfl⟩ hd _ st, ?_, ?_⟩
  all_goals simp [State.result, State.retire, State.wx, State.cluster, State.setCluster, State.newTask, State.setMe, State.setSlot, State.soon, State.schedule, Cluster.endSearch]
  rfl

/-! ## A child inline -/

theorem acquire_cores (s : State) (c : Nat) : ∃ cs, s.acquire c = { s with cores := cs } := by
  unfold State.acquire
  generalize (if (s.cluster (clusterOf c)).fused then (List.range 8).map (clusterCore (clusterOf c)) else [c]) = l
  induction l generalizing s with
  | nil => exact ⟨s.cores, rfl⟩
  | cons x l ih =>
    obtain ⟨cs, h⟩ := ih (s.setCore x (s.core x).selfInvalidate)
    exact ⟨cs, h⟩

theorem gang_assign (s : State) (g c acc bars : Nat) : ∃ ts bs, (s.assign g c acc bars).gang g = { s.gang g with tiles := ts, bars := bs } := by
  unfold State.assign
  exact ⟨_, _, State.gang_setGang _ _ _⟩

theorem runInline_runs (hm : s.me.mode = false) (p : List Word) (h : Word) (hp : (s.poolAlloc s.myGang.job (128 + 8 * s.me.n)).isSome = true) :
    RunsInline s (s.runInline d st p h) d p h := by
  obtain ⟨⟨va, s1⟩, hp⟩ := Option.isSome_iff_exists.1 hp
  unfold State.runInline
  dsimp only
  rw [hp]
  dsimp only
  generalize ((s1.writeArea s.myGang.job va (s.me.saveWords 0)).newTask (clusterOf s.coreId)) = task
  generalize task.2.newGang (clusterOf s.coreId) = g
  generalize hq : g.2.setGang g.1 _ = u
  have hgang : (u.gang g.1).inline = some s.cur ∧ (u.gang g.1).packet = p := by
    rw [← hq, State.gang_setGang]
    exact ⟨rfl, rfl⟩
  obtain ⟨ts, bs, hassign⟩ := gang_assign u g.1 s.coreId (hdrAcc h) (hdrBars h)
  obtain ⟨cs, hac⟩ := acquire_cores (u.assign g.1 s.coreId (hdrAcc h) (hdrBars h)) s.coreId
  rw [hac]
  refine ⟨?_, ?_, ?_, ?_, ?_, ?_, ?_, ?_, ?_, ?_⟩
  · exact ⟨_, congrArg Slot.saved (State.me_setMe _ _), rfl, rfl, rfl, rfl, rfl, rfl, rfl, rfl⟩
  · exact congrArg Slot.pc (State.me_setMe _ _)
  · exact congrArg Slot.wait (State.me_setMe _ _)
  · exact congrArg Slot.lr (State.me_setMe _ _)
  · exact congrArg Slot.fcsr (State.me_setMe _ _)
  · exact congrArg Slot.vt (State.me_setMe _ _)
  · rw [State.rx, State.me_setMe]
    simp [Slot.rx, hm, Slot.launch]
  · exact congrArg Slot.n (State.me_setMe _ _)
  · rw [State.myGang, State.me_setMe]
    exact (congrArg Gang.inline hassign).trans hgang.1
  · rw [State.myGang, State.me_setMe]
    exact (congrArg Gang.packet hassign).trans hgang.2

/-! ## Messages and actions -/

/-- A sealed message is no anti-message, and keeps its destination (13 R240). -/
theorem sealMessage_positive (ws : List Word) {sender : Nat} (seq vt : Nat) (h : sender < 2 ^ 32) : bitAt (sealMessage ws sender seq vt).w1 63 = false := by
  have hlt : seq % 2 ^ 31 * 2 ^ 32 + sender < 2 ^ 63 := by omega
  rw [bitAt]
  simp only [sealMessage, BitVec.getLsbD_ofNat, Nat.testBit_lt_two_pow hlt, Bool.and_false]

theorem sealMessage_dest (ws : List Word) (sender seq vt : Nat) : (sealMessage ws sender seq vt).dest = bits (ws.getD 2 0) 0 32 := by
  have hlt : bits (ws.getD 2 0) 0 32 < 2 ^ 32 := bits_lt _ _ _
  simp only [Message.dest, sealMessage]
  rw [bits, BitVec.toNat_ofNat]
  omega

/-- Taking a sequence number keeps the strand, memory, and what places an LP. -/
theorem senderSeq_keeps (s : State) (j : Nat) (lp : Option Nat) (cl : Nat) : SameStrand s (s.senderSeq j lp cl).2.2 ∧
    (∀ n, ((s.senderSeq j lp cl).2.2.lp j n).home = (s.lp j n).home) ∧
    ∀ src dst, (s.senderSeq j lp cl).2.2.isTimed j src dst = s.isTimed j src dst := by
  cases lp with
  | none => exact ⟨⟨rfl, rfl, rfl, rfl, rfl⟩, fun _ => rfl, fun _ _ => rfl⟩
  | some n =>
    have hjob : (s.senderSeq j (some n) cl).2.2.job j = { s.job j with lps := tset (s.job j).lps n { s.lp j n with nseq := (s.lp j n).nseq + 1 } } :=
      State.job_setJob _ _ _
    refine ⟨⟨rfl, rfl, rfl, rfl, rfl⟩, fun k => ?_, fun src dst => ?_⟩
    · rw [State.lp, hjob]
      by_cases hk : k = n
      · subst hk
        rw [tget_tset_same]
        rfl
      · rw [tget_tset_other _ _ _ hk]
        rfl
    · rw [State.isTimed, hjob]
      rfl

/-- A message routed off the timed channel arrives now, with its colour (18 R307). -/
theorem route_arrives {j part : Nat} {m : Message} (hpos : bitAt m.w1 63 = false) (ht : s.isTimed j part (s.lp j m.dest).home = false) :
    SameStrand s (s.route j part m) ∧ ∃ c, (s.now, Ev.messageArrival j { m with colour := c }) ∈ (s.route j part m).agenda := by
  have hjob : ∃ ps, (s.countSend j part m.w0.toNat).2.job j = { s.job j with parts := ps } := ⟨_, State.job_setJob _ _ _⟩
  obtain ⟨ps, hjob⟩ := hjob
  have htimed : (s.countSend j part m.w0.toNat).2.isTimed j part (s.lp j m.dest).home = false := by
    rw [State.isTimed, hjob]
    exact ht
  have hroute : s.route j part m = (s.countSend j part m.w0.toNat).2.soon
      (.messageArrival j { m with colour := (s.countSend j part m.w0.toNat).1 }) := by
    rw [State.route, hpos]
    exact if_neg (by rw [htimed]; simp)
  rw [hroute]
  exact ⟨⟨rfl, rfl, rfl, rfl, rfl⟩, _, State.due_soon _ _⟩

section
variable (h : Settled s [d, a]) (ho : Operand s (s.rx a) ws u)
include h ho

theorem irrev_buffers (hk : irrevKind ws < 3) (hl : 0 < irrevLen ws) (hl' : irrevLen ws ≤ 48) (ha : u.irrevAllowed ws = true) (hroom : u.myGang.outbox.length < 256) :
    ∃ t, exec (.irrev d a st) s = .next t ∧ Buffered u t d { kind := .irrev, words := ws, cluster := clusterOf u.coreId } st := by
  refine ⟨_, congrArg Host.Outcome.next ((h.guarded _).trans ((ho.operand64 _).trans ((if_neg (by omega)).trans (if_neg (by simp [ha]))))), ?_⟩
  exact buffer_buffered (ho.me.1 ▸ h.regOk (by simp)) hroom _

section
variable (hvt : u.me.vt.toNat < (ws.getD 0 0).toNat) (hdest : u.myJob.declares (bits (ws.getD 2 0) 0 32) = true) (hu : u.me.unacked = [])
include hvt hdest hu

theorem exec_send : exec (.send d a st) s = .next
    (if u.myGang.confined then u.buffer d st { kind := .send, words := ws, cluster := clusterOf u.coreId }
    else if u.messageRoom u.myGang.job (bits (ws.getD 2 0) 0 32) = false then u.block (.overflowRoom (bits (ws.getD 2 0) 0 32))
    else ((u.senderSeq u.myGang.job (u.myGang.lp.map (·.1)) (clusterOf u.coreId)).2.2.route u.myGang.job u.coreId
      (sealMessage ws (u.senderSeq u.myGang.job (u.myGang.lp.map (·.1)) (clusterOf u.coreId)).1
        (u.senderSeq u.myGang.job (u.myGang.lp.map (·.1)) (clusterOf u.coreId)).2.1 u.me.vt.toNat)).result d
      (BitVec.ofNat 64 (u.senderSeq u.myGang.job (u.myGang.lp.map (·.1)) (clusterOf u.coreId)).2.1) st) :=
  congrArg Host.Outcome.next ((h.guarded _).trans ((ho.operand64 _).trans ((if_neg (by omega)).trans ((if_neg (by rw [hdest]; decide)).trans
    (released_of_acked _ hu)))))

theorem send_buffers (hc : u.myGang.confined = true) (hroom : u.myGang.outbox.length < 256) :
    ∃ t, exec (.send d a st) s = .next t ∧ Buffered u t d { kind := .send, words := ws, cluster := clusterOf u.coreId } st :=
  ⟨_, (exec_send h ho hvt hdest hu).trans (congrArg Host.Outcome.next (if_pos hc)), buffer_buffered (ho.me.1 ▸ h.regOk (by simp)) hroom _⟩

theorem send_sends (hc : u.myGang.confined = false) (hroom : u.messageRoom u.myGang.job (bits (ws.getD 2 0) 0 32) = true)
    (hlp : ∀ k, u.myGang.lp = some k → k.1 < 2 ^ 32)
    (ht : u.isTimed u.myGang.job u.coreId (u.lp u.myGang.job (bits (ws.getD 2 0) 0 32)).home = false) :
    let r := u.senderSeq u.myGang.job (u.myGang.lp.map (·.1)) (clusterOf u.coreId)
    ∃ t c, exec (.send d a st) s = .next t ∧ Answers u t d (BitVec.ofNat 64 r.2.1) st ∧
      (u.now, Ev.messageArrival u.myGang.job { sealMessage ws r.1 r.2.1 u.me.vt.toNat with colour := c }) ∈ t.agenda := by
  intro r
  have hexec := (exec_send (st := st) h ho hvt hdest hu).trans (congrArg Host.Outcome.next ((if_neg (by simp [hc])).trans (if_neg (by rw [hroom]; decide))))
  obtain ⟨hseq, hhome, htimed⟩ := senderSeq_keeps u u.myGang.job (u.myGang.lp.map (·.1)) (clusterOf u.coreId)
  have hsender : r.1 < 2 ^ 32 := by
    show (u.senderSeq u.myGang.job (u.myGang.lp.map (·.1)) (clusterOf u.coreId)).1 < 2 ^ 32
    cases hk : u.myGang.lp with
    | none => simp [State.senderSeq]
    | some k => exact hlp k hk
  obtain ⟨hsame, c, harr⟩ := route_arrives (s := r.2.2) (j := u.myGang.job) (part := u.coreId) (sealMessage_positive ws r.2.1 u.me.vt.toNat hsender)
    (by rw [sealMessage_dest, hhome, htimed]; exact ht)
  have hall : SameStrand u (r.2.2.route u.myGang.job u.coreId (sealMessage ws r.1 r.2.1 u.me.vt.toNat)) :=
    ⟨hsame.me.trans hseq.me, hsame.cur.trans hseq.cur, hsame.now.trans hseq.now, hsame.mem.trans hseq.mem, hsame.fe.trans hseq.fe⟩
  refine ⟨_, c, hexec, hall.answers (ho.me.1 ▸ h.regOk (by simp)) _ st, ?_⟩
  rw [hseq.now] at harr
  exact harr

end

end

end

/-- Settles O27. -/
theorem taskInstructions : Obligations.TaskInstructions := by
  intro s u v d a st ws hs h ho
  refine ⟨fun hl hp => ⟨fun hc hroom => ?_, fun hc hroom => ⟨?_, ?_⟩, fun hc hfull hin hm hlate hpool => ?_⟩,
    fun hvt hdest hu => ⟨send_buffers h ho hvt hdest hu, fun hc hroom => send_sends h ho hvt hdest hu hc hroom⟩, irrev_buffers h ho⟩
  all_goals have hd : v.me.regOk d.toNat = true := hl.me.1 ▸ ho.me.1 ▸ h.regOk (by simp)
  · refine ⟨_, congrArg Host.Outcome.next ((spawnOperands_passes h ho hl hp (fun _ => rfl) _).trans (if_pos hc)), buffer_buffered hd hroom _⟩
  · refine ⟨_, congrArg Host.Outcome.next ((spawnOperands_passes h ho hl hp (fun _ => rfl) _).trans ((if_neg (by simp [hc])).trans (if_neg (by simp [hroom])))),
      spawnNow_spawned hd hroom _ _⟩
  · refine ⟨_, congrArg Host.Outcome.next ((spawnOperands_passes h ho hl hp (fun hc' => absurd (hc.symm.trans hc') (by simp)) _).trans (if_pos hroom)),
      spawnNow_spawned hd hroom _ _⟩
  · have hlanded (k : State → State) : v.whenLanded k = k v := by rw [State.whenLanded, hlate]
    refine ⟨_, congrArg Host.Outcome.next ((spawnOperands_passes h ho hl hp (fun hc' => absurd (hc.symm.trans hc') (by simp)) _).trans
      ((if_neg (by simp [hfull])).trans ((if_pos hin).trans (hlanded _)))), runInline_runs hm _ _ hpool⟩

end Sys2Proof.Claims
end

section
/-! What is due stays due, and what has left the module has left it: the agenda and the packets sent only grow under the operations that a step
is made of, and the clock stands. -/

namespace Sys2Proof.Machine

/-- The clock stands, no pending step is lost, and no packet that was sent is called back. -/
structure Later (s t : State) : Prop where
  now : t.now = s.now
  agenda : ∀ e ∈ s.agenda, e ∈ t.agenda
  out : ∀ o ∈ s.out, o ∈ t.out

namespace Later

theorem of_same {s t : State} (hn : t.now = s.now) (ha : t.agenda = s.agenda) (ho : t.out = s.out) : Later s t :=
  ⟨hn, fun _ h => ha ▸ h, fun _ h => ho ▸ h⟩

theorem refl (s : State) : Later s s := of_same rfl rfl rfl

theorem trans {s t u : State} (h : Later s t) (h' : Later t u) : Later s u :=
  ⟨h'.now.trans h.now, fun e he => h'.agenda e (h.agenda e he), fun o ho => h'.out o (h.out o ho)⟩

theorem foldl {α : Type} {f : State → α → State} (h : ∀ u x, Later u (f u x)) (l : List α) (s : State) : Later s (l.foldl f s) := by
  induction l generalizing s with
  | nil => exact refl s
  | cons x l ih => exact (h s x).trans (ih _)

theorem ite {s t u : State} {c : Prop} [Decidable c] (ht : Later s t) (hu : Later s u) : Later s (if c then t else u) := by
  split
  · exact ht
  · exact hu

theorem schedule (s : State) (t : Nat) (e : Ev) : Later s (s.schedule t e) :=
  ⟨rfl, fun _ h => State.mem_agenda_schedule.2 (.inr h), fun _ h => h⟩

theorem soon (s : State) (e : Ev) : Later s (s.soon e) := schedule s s.now e

theorem scheduleOnce (s : State) (t : Nat) (e : Ev) : Later s (s.scheduleOnce t e) := ite (refl s) (schedule s t e)

theorem send (s : State) (o : Out) : Later s (s.send o) :=
  ⟨rfl, fun _ h => h, fun _ h => List.mem_cons_of_mem _ h⟩

theorem poke (s : State) (cl : Nat) : Later s (s.poke cl) := ite (refl s) (soon s _)

theorem resourcesFreed (s : State) : Later s s.resourcesFreed := foldl (f := fun u (c : Nat × Cluster) => u.poke c.1) (fun u c => poke u c.1) s.clusters s

theorem carry (s : State) (j src dst flits : Nat) (e : Ev) : Later s (s.carry j src dst flits e) := by
  unfold State.carry
  exact ite ⟨rfl, fun _ h => State.mem_agenda_schedule.2 (.inr h), fun _ h => h⟩ (soon s e)

theorem setJob (s : State) (j : Nat) (v : Job) : Later s (s.setJob j v) := of_same rfl rfl rfl
theorem setPart (s : State) (j p : Nat) (v : Part) : Later s (s.setPart j p v) := of_same rfl rfl rfl
theorem setCluster (s : State) (c : Nat) (v : Cluster) : Later s (s.setCluster c v) := of_same rfl rfl rfl
theorem setGang (s : State) (g : Nat) (v : Gang) : Later s (s.setGang g v) := of_same rfl rfl rfl

theorem retryCommits (s : State) : Later s s.retryCommits := foldl (fun u m => scheduleOnce u _ _) _ s

/-! ## Writes to memory -/

theorem noteScale (s : State) (pa : Nat) : Later s (s.noteScale pa) := by
  unfold State.noteScale
  split
  · exact soon s _
  · exact refl s

theorem hbmWrite (s : State) (pa v n : Nat) : Later s (s.hbmWrite pa v n) :=
  trans (t := { s with mem := memWrite s.mem pa v n, bad := s.bad.filter (fun w => !(wordSpan pa n).contains w) }) (of_same rfl rfl rfl)
    (foldl (fun u w => noteScale u w) _ _)

theorem revoke (s : State) (o w : Nat) : Later s (s.revoke o w) := by
  unfold State.revoke
  dsimp only
  split
  · exact carry s _ _ _ _ _
  · exact soon s _

theorem revokeWords (s : State) (l : List Nat) : Later s (s.revokeWords l) := by
  refine foldl (fun u w => ?_) l s
  split
  · exact trans (t := { u with owners := tdel u.owners w }) (of_same rfl rfl rfl) (revoke _ _ _)
  · exact refl u

theorem unitWrite (s : State) (pa : Nat) (ws : List Word) : Later s (s.unitWrite pa ws) := (hbmWrite s _ _ _).trans (revokeWords _ _)

theorem writeArea (s : State) (j va : Nat) (ws : List Word) : Later s (s.writeArea j va ws) := by
  unfold State.writeArea
  split
  · exact unitWrite s _ _
  · exact refl s

theorem stampWrite (s : State) (j : Nat) (ws : List Word) : Later s (s.stampWrite j ws) := by
  unfold State.stampWrite
  exact ite (setJob s _ _) ((writeArea s _ _ _).trans (setJob _ _ _))

/-! ## Queues, records and reports -/

theorem receive (s : State) (cl : Nat) (e : Entry) : Later s (s.receive cl e) := by
  unfold State.receive
  split
  · exact refl s
  · exact setPart s _ _ _

theorem enqueue (s : State) (cl : Nat) (e : Entry) : Later s (s.enqueue cl e) := by
  unfold State.enqueue
  exact (ite ((setCluster s _ _).trans (receive _ _ _)) (setCluster s _ _)).trans (soon _ _)

theorem confirmCopy (s : State) (flags : BitVec 5) (core j : Nat) (p : List Word) (task copy : Nat) :
    Later s (s.confirmCopy flags core j p task copy) := by
  unfold State.confirmCopy
  split
  · exact refl s
  · split
    · exact send s _
    · exact carry s _ _ _ _ _
    · exact soon s _

theorem startAbort (s : State) (j source detail : Nat) : Later s (s.startAbort j source detail) := by
  unfold State.startAbort
  exact ite (refl s) (ite ((setJob s _ _).trans (soon _ _)) ((setJob s _ _).trans (send _ _)))

theorem postEvent (s : State) (kind job : Nat) (d1 d2 d3 : Word) : Later s (s.postEvent kind job d1 d2 d3) := by
  unfold State.postEvent
  refine ite ?_ (ite (of_same rfl rfl rfl) (of_same rfl rfl rfl))
  exact ⟨rfl, fun _ h => h, fun _ h => List.mem_cons_of_mem _ (List.mem_cons_of_mem _ h)⟩

end Later

/-- A step that is due already is not planned twice. -/
theorem State.scheduleOnce_agenda (s : State) (t : Nat) (e : Ev) : ∃ a, s.scheduleOnce t e = { s with agenda := a } ∧ ∀ x ∈ s.agenda, x ∈ a := by
  unfold State.scheduleOnce
  split
  · exact ⟨s.agenda, rfl, fun _ h => h⟩
  · exact ⟨_, rfl, fun _ h => State.mem_agenda_schedule.2 (.inr h)⟩

theorem State.mem_out_send (s : State) (o : Out) : o ∈ (s.send o).out := List.mem_cons_self

/-- A packet never sets out before the mesh cycle in which it is sent (22 R354). -/
theorem State.le_injectFrom (s : State) (src flits fuel m : Nat) : m ≤ s.injectFrom src flits fuel m := by
  induction fuel generalizing m with
  | zero => exact le_refl m
  | succ fuel ih =>
    rw [State.injectFrom]
    split
    · exact (Nat.le_succ m).trans (ih (m + 1))
    · exact le_refl m

end Sys2Proof.Machine

namespace Sys2Proof.Claims

open Sys2Proof.Machine

theorem OnItsWay.later {s t u : State} {j : Nat} {e : Ev} (h : OnItsWay s t j e) (hu : Later t u) : OnItsWay s u j e := by
  obtain h | ⟨hd, d, n, hlt, h⟩ := h
  · exact .inl (hu.agenda _ h)
  · exact .inr ⟨hd, d, n, hlt, hu.agenda _ h⟩

/-- The same event, said of an earlier state with the same clock and the same kind of job. -/
theorem OnItsWay.of_now {s s' t : State} {j : Nat} {e : Ev} (h : OnItsWay s' t j e) (hn : s'.now = s.now) (hd : (s'.job j).det = (s.job j).det) :
    OnItsWay s t j e := by
  unfold OnItsWay at *
  rwa [hn, hd] at h

theorem onItsWay_soon (s : State) (j : Nat) (e : Ev) : OnItsWay s (s.soon e) j e := .inl (State.due_soon s e)

/-- A packet of the module is under way once it is carried (22 R354). -/
theorem onItsWay_carry (s : State) (j src dst flits : Nat) (e : Ev) : OnItsWay s (s.carry j src dst flits e) j e := by
  unfold State.carry
  split
  · next ht =>
    have hdet : (s.job j).det = true := by
      simp only [State.isTimed, Bool.and_eq_true] at ht
      exact ht.1.1.1.1.2
    refine .inr ⟨hdet, _, _, ?_, State.due_schedule _ _ _⟩
    have hm : s.now / mcTicks ≤ if src < 1024 then s.injectFrom src flits 4096 s.mcNow else s.mcNow := by
      split
      · exact s.le_injectFrom _ _ _ _
      · exact le_refl _
    have hmc : 0 < mcTicks := by decide
    calc s.now < (s.now / mcTicks + 1) * mcTicks := by rw [mul_comm]; exact Nat.lt_mul_div_succ s.now hmc
      _ ≤ _ := Nat.mul_le_mul_right _ (by omega)
  · exact onItsWay_soon s j e

end Sys2Proof.Claims
end

section
/-! Refused packets, incarnations, reset, fibre groups, READY and the power cap (22 R353, R358, R361; 26 R407, R409; 06 R121, R123). -/

namespace Sys2Proof.Machine

/-! ## Fibre groups (22 R361) -/

section
variable (s : State) (g : Nat)

theorem State.fibre_setFibre (f : Fibre) : (s.setFibre g f).fibre g = f := tget_tset_same _ _ _ _

/-- A parked group begins to wake, and both steps of the wake are due. -/
theorem State.wakeFibre_parked (h : (s.fibre g).st = .parked) :
    ∃ a, s.wakeFibre g = { s with fibres := tset s.fibres g { s.fibre g with st := .waking, settled := false, wakes := counterUp (s.fibre g).wakes 1 }, agenda := a } ∧
      (s.now + 8 * usTicks, Ev.heaterSettle g) ∈ a ∧ (s.now + 9 * usTicks, Ev.lockComplete g) ∈ a := by
  rw [State.wakeFibre, if_pos h]
  exact ⟨_, rfl, State.mem_agenda_schedule.2 (.inr (State.due_schedule _ _ _)), State.due_schedule _ _ _⟩

theorem State.planPark_due {f : Fibre} (h : s.fibre g = f) : (max s.now (f.quietSince + f.hold * usTicks), Ev.groupPark g) ∈ (s.planPark g).agenda :=
  h ▸ State.due_schedule _ _ _

theorem State.wakeFibre_of_not_parked (h : (s.fibre g).st ≠ .parked) : s.wakeFibre g = s := by
  rw [State.wakeFibre, if_neg h]

end

/-! ## What follows from readiness (26 R407) -/

/-- Becoming ready plans steps, restarts fibre groups' quiet time and starts a frond's clock. -/
theorem State.becomeReady_leaves (s : State) (b : Nat) :
    (s.becomeReady b).ready = s.ready ∧ (s.becomeReady b).slots = s.slots ∧ (s.becomeReady b).mem = s.mem := by
  unfold State.becomeReady
  split
  · exact ⟨rfl, rfl, rfl⟩
  split
  · dsimp only
    split
    · obtain ⟨a, h, -⟩ := s.resourcesFreed_agenda
      exact ⟨by rw [h], by rw [h], by rw [h]⟩
    · split
      · obtain ⟨a, h, -⟩ := State.resourcesFreed_agenda { s with start0 := s.now }
        exact ⟨by rw [h], by rw [h], by rw [h]⟩
      · obtain ⟨a, h, -⟩ := State.resourcesFreed_agenda { s with start1 := s.now }
        exact ⟨by rw [h], by rw [h], by rw [h]⟩
  split
  · exact ⟨rfl, rfl, rfl⟩
  split
  · induction s.jobs generalizing s with
    | nil => exact ⟨rfl, rfl, rfl⟩
    | cons j l ih =>
      rw [List.foldl_cons]
      split
      · exact ih (s.soon _)
      · exact ih s
  · exact ⟨rfl, rfl, rfl⟩

/-- Each open job whose passes begin on this module is told that its Low-Water unit is ready (18 R311). -/
theorem State.becomeReady_lowWater (s : State) {j : Nat × Job} (hj : j ∈ s.jobs) (ho : j.2.isOpen = true) (hf : j.2.firstModule = j.2.self) :
    (s.now, Ev.lwgapExpiry j.1) ∈ (s.becomeReady 38).agenda := by
  have hstep (u : State) (x : Nat × Job) : Later u (if x.2.isOpen && x.2.firstModule == x.2.self then u.soon (.lwgapExpiry x.1) else u) :=
    .ite (.soon _ _) (.refl u)
  show _ ∈ (s.jobs.foldl _ s).agenda
  obtain ⟨l, k, hl⟩ := List.append_of_mem hj
  rw [hl, List.foldl_append, List.foldl_cons]
  refine (Later.foldl hstep k _).agenda _ ?_
  rw [if_pos (by simp [ho, hf]), ← (Later.foldl hstep l s).now]
  exact State.due_soon _ _

/-! ## Removal of slots (06 R121) -/

/-- A core's last present slot is named, and its end planned. -/
def State.removeLast (u : State) (c : Nat) : State :=
  match u.lastSlot c with
  | some i => { u with removals := (c * 16 + i) :: u.removals }.schedule (u.nextRotation c) (.slotRemoval (c * 16 + i))
  | none => u

theorem State.removeRound_eq (s : State) (cls : Nat) : s.removeRound cls = (coresOfClass cls).foldl State.removeLast s := rfl

theorem State.removeLast_of_some {s : State} {c i : Nat} (h : s.lastSlot c = some i) :
    s.removeLast c = { s with removals := (c * 16 + i) :: s.removals }.schedule (s.nextRotation c) (.slotRemoval (c * 16 + i)) := by
  rw [State.removeLast, h]

theorem State.removeLast_of_none {s : State} {c : Nat} (h : s.lastSlot c = none) : s.removeLast c = s := by
  rw [State.removeLast, h]

theorem State.lt_of_lastSlot {s : State} {c i : Nat} (h : s.lastSlot c = some i) : i < 16 :=
  List.mem_range.1 (List.mem_of_mem_drop (List.mem_reverse.1 (List.mem_of_find?_eq_some h)))

/-- What one core is about to lose is nothing to another core. -/
theorem State.lastSlot_of_other (s : State) {c d i : Nat} (h : d ≠ c) (hi : i < 16) (a : List (Nat × Ev)) :
    ({ s with removals := (c * 16 + i) :: s.removals, agenda := a } : State).lastSlot d = s.lastSlot d := by
  refine List.find?_congr fun n hn => ?_
  have hn16 : n < 16 := List.mem_range.1 (List.mem_of_mem_drop (List.mem_reverse.1 hn))
  have hne : d * 16 + n ≠ c * 16 + i := by omega
  show (!(s.slot _).removed && !((c * 16 + i) :: s.removals).contains (d * 16 + n)) = _
  simp [hne]

/-- A round removes nothing of the slots' own: it names each core's last present slot and plans its end. -/
theorem State.foldl_removeRound (l : List Nat) (hl : l.Nodup) (s : State) :
    ∃ a r, l.foldl State.removeLast s = { s with agenda := a, removals := r } ∧
      (∀ e ∈ s.agenda, e ∈ a) ∧ (∀ x ∈ s.removals, x ∈ r) ∧
      ∀ c ∈ l, ∀ i, s.lastSlot c = some i → (s.nextRotation c, Ev.slotRemoval (c * 16 + i)) ∈ a ∧ c * 16 + i ∈ r := by
  induction l generalizing s with
  | nil => exact ⟨_, _, rfl, fun _ h => h, fun _ h => h, by simp⟩
  | cons c l ih =>
    obtain ⟨hc, hl⟩ := List.nodup_cons.1 hl
    rw [List.foldl_cons]
    cases hlast : s.lastSlot c with
    | none =>
      obtain ⟨a, r, h, ha, hr, hall⟩ := ih hl s
      rw [State.removeLast_of_none hlast]
      refine ⟨a, r, h, ha, hr, fun d hd i hi => ?_⟩
      obtain rfl | hd := List.mem_cons.1 hd
      · rw [hlast] at hi
        cases hi
      · exact hall d hd i hi
    | some i =>
      obtain ⟨a, r, h, ha, hr, hall⟩ := ih hl ({ s with removals := (c * 16 + i) :: s.removals }.schedule (s.nextRotation c) (.slotRemoval (c * 16 + i)))
      rw [State.removeLast_of_some hlast]
      refine ⟨a, r, h, fun e he => ha e (State.mem_agenda_schedule.2 (.inr he)), fun x hx => hr x (List.mem_cons_of_mem _ hx), fun d hd k hk => ?_⟩
      obtain rfl | hd := List.mem_cons.1 hd
      · rw [hlast] at hk
        cases hk
        exact ⟨ha _ (State.due_schedule _ _ _), hr _ List.mem_cons_self⟩
      · exact hall d hd k ((s.lastSlot_of_other (fun (h : d = c) => hc (h ▸ hd)) (State.lt_of_lastSlot hlast) _).trans hk)

theorem coresOfClass_nodup (cls : Nat) : (coresOfClass cls).Nodup := List.nodup_range.filter _

/-- A change of a position's duty plans its windows. -/
theorem State.setDuty_leaves (s : State) (p w : Nat) : ∃ a ps, s.setDuty p w = { s with agenda := a, pairs := ps } ∧ ∀ e ∈ s.agenda, e ∈ a := by
  unfold State.setDuty
  dsimp only
  split
  · exact ⟨_, _, rfl, fun _ h => h⟩
  · generalize hu : s.setPair p _ = u
    obtain ⟨a, ha, hsa⟩ := u.scheduleOnce_agenda (max u.now (u.cycleTick p (u.cycleOf p / 16384 * 16384 + (16 - w) * 1024))) (.withheldIntervalStart p)
    rw [ha]
    obtain ⟨b, hb, hab⟩ := ({ u with agenda := a } : State).scheduleOnce_agenda (u.cycleTick p (u.cycleOf p / 16384 * 16384 + 16384)) (.dutyWindowStart p)
    subst hu
    exact ⟨b, _, hb, fun e he => hab e (hsa e he)⟩

theorem State.reducePower_of_class {s : State} (w : Nat) {cls : Nat} (h : [2, 3, 1].find? s.canRemove = some cls) : s.reducePower w = s.removeRound cls := by
  unfold State.reducePower
  split
  · next c hc =>
    obtain rfl := Option.some.inj (h.symm.trans hc)
    rfl
  · next hc => exact nomatch h.symm.trans hc

/-- Reducing power takes no slot yet, and nothing of what the machine holds in memory. -/
theorem State.reducePower_leaves (s : State) (w : Nat) :
    (s.reducePower w).slots = s.slots ∧ (s.reducePower w).mem = s.mem ∧ (s.reducePower w).cap = s.cap ∧ (s.reducePower w).lowSince = s.lowSince ∧
      Later s (s.reducePower w) := by
  unfold State.reducePower
  split
  · next cls _ =>
    obtain ⟨a, r, h, ha, -⟩ := State.foldl_removeRound _ (coresOfClass_nodup cls) s
    rw [State.removeRound_eq, h]
    exact ⟨rfl, rfl, rfl, rfl, rfl, ha, fun _ h => h⟩
  · have hraise : ∃ a ps, s.raiseDuty = { s with fresh := s.fresh + 1, agenda := a, pairs := ps } ∧ ∀ e ∈ s.agenda, e ∈ a := by
      unfold State.raiseDuty
      dsimp only
      split
      · exact State.setDuty_leaves { s with fresh := s.fresh + 1 } _ _
      · exact ⟨_, _, rfl, fun _ h => h⟩
    obtain ⟨a, ps, h, ha⟩ := hraise
    have hlater : Later s s.raiseDuty := by rw [h]; exact ⟨rfl, ha, fun _ h => h⟩
    have hpost := s.raiseDuty.postEvent_eventsOnly 5 0 (BitVec.ofNat 64 w) 0 0
    refine ⟨?_, ?_, ?_, ?_, hlater.trans (.postEvent _ _ _ _ _ _)⟩
    all_goals rw [hpost, h]

end Sys2Proof.Machine

namespace Sys2Proof.Claims

open Sys2Proof.Machine

section
variable {s : State}

theorem send_incarnations (l : List (Nat × Job)) (n : Nat) (u : State) :
    ∃ o, l.foldl (fun (v : State) j => v.send (.incarnation j.1 n)) u = { u with out := o } ∧ ∀ j ∈ l, Out.incarnation j.1 n ∈ o := by
  have hlater (v : State) (j : Nat × Job) : Later v (v.send (.incarnation j.1 n)) := .send _ _
  induction l generalizing u with
  | nil => exact ⟨_, rfl, by simp⟩
  | cons j l ih =>
    obtain ⟨o, h, hl⟩ := ih (u.send (.incarnation j.1 n))
    refine ⟨o, h, List.forall_mem_cons.2 ⟨?_, hl⟩⟩
    have := (Later.foldl hlater l (u.send (.incarnation j.1 n))).out _ (State.mem_out_send _ _)
    rwa [h] at this

theorem reset_restarts (s : State) :
    ∃ t, exec .reset s = .next t ∧ t = { State.reset with incarnation := s.incarnation + 1, now := s.now, fresh := s.fresh, out := t.out } ∧
      ∀ j ∈ s.jobs, j.2.isOpen = true → j.2.group ≠ [] → Out.incarnation j.1 (s.incarnation + 1).toNat ∈ t.out := by
  obtain ⟨o, h, hl⟩ := send_incarnations (s.jobs.filter fun j => j.2.isOpen && !j.2.group.isEmpty) (s.incarnation + 1).toNat
    { State.reset with incarnation := s.incarnation + 1, now := s.now, fresh := s.fresh, out := s.out }
  refine ⟨_, congrArg Host.Outcome.next h, rfl, fun j hj ho hg => hl j ?_⟩
  simp [hj, ho, hg]

/-- A member's new number stands, and what waits here for its old incarnation is gone (22 R358). -/
def peerRestarted (s : State) (j m inc link : Nat) : State :=
  { s with
    peers := ((j, m), inc) :: s.peers.filter fun p => p.1 != (j, m)
    flows := s.flows.filter fun f => f.link != link
    retries := s.retries.filter fun r => !r.origin.isOf j m
    parks := s.parks.filter fun p => !p.2.isOf j m }

theorem exec_incarnationAnnouncement {j m link : Nat} {inc : Nat} (he : s.ev = some (.incarnationAnnouncement j m inc link)) :
    exec .incarnationAnnouncement s =
      if (s.job j).isOpen && (s.job j).group.any fun g => g.1 == m then
        .next (((peerRestarted s j m inc link).setJob j { s.job j with group := (s.job j).group.filter fun g => g.1 != m }).startAbort j 3 0)
      else .next (peerRestarted s j m inc link) := by
  show execIncarnationAnnouncement s = _
  unfold execIncarnationAnnouncement peerRestarted
  split
  · next h =>
    cases he.symm.trans h
    rfl
  · next h => exact (h _ _ _ _ he).elim

theorem incarnation_announced {j m link : Nat} {inc : Nat} (he : s.ev = some (.incarnationAnnouncement j m inc link)) :
    ∃ t, exec .incarnationAnnouncement s = .next t ∧
      t.peers.find? (fun p => p.1 == (j, m)) = some ((j, m), inc) ∧ (∀ k, k ≠ (j, m) → t.peers.find? (fun p => p.1 == k) = s.peers.find? (fun p => p.1 == k)) ∧
      (∀ f ∈ t.flows, f.link ≠ link) ∧ (∀ r ∈ t.retries, ∀ n, r.origin ≠ .remote m j n) ∧ t.slots = s.slots ∧ t.mem = s.mem ∧
      ((s.job j).isOpen = true → (∃ g ∈ (s.job j).group, g.1 = m) → (s.job j).abort = .none ∨ (s.job j).abort = .stopped →
        (t.job j).abort = .first ∧ (t.job j).reason = BitVec.ofNat 64 (3 * 2 ^ 60 + (s.job j).self * 2 ^ 48) ∧ ∀ g ∈ (t.job j).group, g.1 ≠ m) := by
  have hrecorded (u : State) (hp : u.peers = ((j, m), inc) :: s.peers.filter (fun p => p.1 != (j, m)))
      (hf : u.flows = s.flows.filter fun f => f.link != link) (hr : u.retries = s.retries.filter fun r => !r.origin.isOf j m) :
      u.peers.find? (fun p => p.1 == (j, m)) = some ((j, m), inc) ∧ (∀ k, k ≠ (j, m) → u.peers.find? (fun p => p.1 == k) = s.peers.find? (fun p => p.1 == k)) ∧
        (∀ f ∈ u.flows, f.link ≠ link) ∧ ∀ r ∈ u.retries, ∀ n, r.origin ≠ .remote m j n := by
    rw [hp, hf, hr]
    refine ⟨by simp, fun k hk => ?_, by simp, fun r hr n ho => ?_⟩
    · rw [List.find?_cons_of_neg (by simpa using hk.symm), List.find?_filter]
      refine List.find?_congr fun p _ => ?_
      by_cases hpk : p.1 = k
      · simp [hpk, hk]
      · simp [hpk]
    · have := (List.mem_filter.1 hr).2
      simp [ho, Origin.isOf] at this
  have hexec := exec_incarnationAnnouncement he
  by_cases hmem : ((s.job j).isOpen && (s.job j).group.any fun g => g.1 == m) = true
  · rw [if_pos hmem] at hexec
    generalize hu : (peerRestarted s j m inc link).setJob j { s.job j with group := (s.job j).group.filter fun g => g.1 != m } = u at hexec
    have hab := u.startAbort_eventsOnly j 3 0
    have hjob : u.job j = { s.job j with group := (s.job j).group.filter fun g => g.1 != m } := by
      rw [← hu]
      exact State.job_setJob _ _ _
    obtain ⟨hp, hk, hf, hr⟩ := hrecorded (u.startAbort j 3 0) (by rw [hab, ← hu]; rfl) (by rw [hab, ← hu]; rfl) (by rw [hab, ← hu]; rfl)
    refine ⟨_, hexec, hp, hk, hf, hr, by rw [hab, ← hu]; rfl, by rw [hab, ← hu]; rfl, fun ho _ ha => ?_⟩
    have hgo : ¬((u.job j).isOpen = false ∨ (u.job j).abort = .first ∨ (u.job j).abort = .second) := by
      rw [hjob]
      obtain ha | ha := ha <;> simp [ho, ha]
    have habj : ((u.startAbort j 3 0).job j) = { u.job j with abort := .first, reason := BitVec.ofNat 64 (3 * 2 ^ 60 + (u.job j).self * 2 ^ 48 + 0 % 2 ^ 32), abortA := 2 ^ 64 - 1, circled := false, abortCycle := u.now / mcTicks } := by
      unfold State.startAbort
      rw [if_neg hgo]
      split <;> exact State.job_setJob _ _ _
    rw [habj, hjob, Nat.zero_mod, Nat.add_zero]
    exact ⟨rfl, rfl, by simp⟩
  · rw [if_neg hmem] at hexec
    obtain ⟨hp, hk, hf, hr⟩ := hrecorded (peerRestarted s j m inc link) rfl rfl rfl
    refine ⟨_, hexec, hp, hk, hf, hr, rfl, rfl, fun ho hg _ => absurd ?_ hmem⟩
    obtain ⟨g, hg, rfl⟩ := hg
    simp only [ho, Bool.true_and, List.any_eq_true]
    exact ⟨g, hg, by simp⟩

theorem group_parks {g : Nat} (he : s.ev = some (.groupPark g)) :
    ((s.fibre g).st = .wide → (s.fibre g).queue ≤ (s.fibre g).low → (s.fibre g).quietSince + (s.fibre g).hold * usTicks ≤ s.now → ∃ t, exec .groupPark s = .next t ∧ t = { s with fibres := t.fibres } ∧
      t.fibre g = { s.fibre g with st := .parked }) ∧
    ((s.fibre g).st ≠ .wide ∨ (s.fibre g).low < (s.fibre g).queue ∨ s.now < (s.fibre g).quietSince + (s.fibre g).hold * usTicks → exec .groupPark s = .next s) := by
  have hexec : exec .groupPark s = if (s.fibre g).st = .wide ∧ (s.fibre g).queue ≤ (s.fibre g).low ∧ (s.fibre g).quietSince + (s.fibre g).hold * usTicks ≤ s.now
      then .next (s.setFibre g { s.fibre g with st := .parked }) else .next s := by
    show execGroupPark s = _
    simp only [execGroupPark, he]
  rw [hexec]
  refine ⟨fun h1 h2 h3 => ⟨_, if_pos ⟨h1, h2, h3⟩, rfl, State.fibre_setFibre _ _ _⟩, fun h => if_neg ?_⟩
  rintro ⟨h1, h2, h3⟩
  obtain h | h | h := h
  · exact h h1
  · omega
  · omega

theorem group_wakes {g : Nat} (he : s.ev = some (.groupWake g)) :
    ((s.fibre g).st = .parked → ∃ t, exec .groupWake s = .next t ∧ (t.fibre g).st = .waking ∧ (t.fibre g).settled = false ∧ (t.fibre g).wakes = counterUp (s.fibre g).wakes 1 ∧
      (s.now + 8 * usTicks, Ev.heaterSettle g) ∈ t.agenda ∧ (s.now + 9 * usTicks, Ev.lockComplete g) ∈ t.agenda ∧ t.slots = s.slots) ∧
    ((s.fibre g).st ≠ .parked → exec .groupWake s = .next s) := by
  have hexec : exec .groupWake s = .next (s.wakeFibre g) := by
    show execGroupWake s = _
    simp only [execGroupWake, he]
  rw [hexec]
  refine ⟨fun h => ?_, fun h => congrArg _ (s.wakeFibre_of_not_parked g h)⟩
  obtain ⟨a, hw, hsettle, hlock⟩ := s.wakeFibre_parked g h
  have hf := s.fibre_setFibre g { s.fibre g with st := .waking, settled := false, wakes := counterUp (s.fibre g).wakes 1 }
  exact ⟨_, congrArg _ hw, congrArg Fibre.st hf, congrArg Fibre.settled hf, congrArg Fibre.wakes hf, hsettle, hlock, rfl⟩

/-- The queue's length reaches its group, which has been quiet from now on where it was not quiet before. -/
def quietFrom (s : State) (g : Nat) : Nat := if (s.fibre g).queue ≤ (s.fibre g).low then (s.fibre g).quietSince else s.now

theorem queues_reach {g n : Nat} (he : s.ev = some (.linkQueue g n)) :
    ((s.fibre g).st = .parked → (s.fibre g).high < n → ∃ t, exec .groupWake s = .next t ∧ (t.fibre g).st = .waking ∧ (t.fibre g).queue = n ∧
      (t.fibre g).wakes = counterUp (s.fibre g).wakes 1 ∧ (s.now + 8 * usTicks, Ev.heaterSettle g) ∈ t.agenda ∧
      (s.now + 9 * usTicks, Ev.lockComplete g) ∈ t.agenda ∧ t.slots = s.slots) ∧
    ((s.fibre g).st = .wide → n ≤ (s.fibre g).low → ∃ t, exec .groupWake s = .next t ∧ t.fibre g = { s.fibre g with queue := n, quietSince := quietFrom s g } ∧
      (max s.now (quietFrom s g + (s.fibre g).hold * usTicks), Ev.groupPark g) ∈ t.agenda ∧ t.slots = s.slots) := by
  have hexec : exec .groupWake s = .next ((s.setFibre g { s.fibre g with queue := n, quietSince := quietFrom s g }).settleFibre g) := by
    show execGroupWake s = _
    simp only [execGroupWake, he]
    rfl
  have hf := s.fibre_setFibre g { s.fibre g with queue := n, quietSince := quietFrom s g }
  generalize hu : s.setFibre g { s.fibre g with queue := n, quietSince := quietFrom s g } = u at hexec hf
  have hslots : u.slots = s.slots := by rw [← hu]; rfl
  have hnow : u.now = s.now := by rw [← hu]; rfl
  rw [hexec, State.settleFibre]
  dsimp only
  refine ⟨fun hst hn => ?_, fun hst hn => ?_⟩
  · have hpark : (u.fibre g).st = .parked := by rw [hf]; exact hst
    rw [if_pos ⟨hpark, by rw [hf]; exact hn⟩]
    obtain ⟨a, hw, hsettle, hlock⟩ := u.wakeFibre_parked g hpark
    have hf' := u.fibre_setFibre g { u.fibre g with st := .waking, settled := false, wakes := counterUp (u.fibre g).wakes 1 }
    rw [hf] at hf' hw
    rw [hnow] at hsettle hlock
    exact ⟨_, congrArg _ hw, congrArg Fibre.st hf', congrArg Fibre.queue hf', congrArg Fibre.wakes hf', hsettle, hlock, hslots⟩
  · have hwide : (u.fibre g).st = .wide := by rw [hf]; exact hst
    rw [if_neg (by rw [hwide]; simp), if_pos ⟨hwide, by rw [hf]; exact hn⟩]
    refine ⟨_, rfl, hf, ?_, hslots⟩
    have hdue := u.planPark_due g hf
    rwa [hnow] at hdue

theorem heaters_settle {g : Nat} (he : s.ev = some (.heaterSettle g)) (hw : (s.fibre g).st = .waking) :
    ∃ t, exec .heaterSettle s = .next t ∧ t = { s with fibres := t.fibres } ∧ t.fibre g = { s.fibre g with settled := true } := by
  have hexec : exec .heaterSettle s = .next (s.setFibre g { s.fibre g with settled := true }) := by
    show execHeaterSettle s = _
    simp only [execHeaterSettle, he, if_pos hw]
  exact ⟨_, hexec, rfl, State.fibre_setFibre _ _ _⟩

theorem lock_completes {g : Nat} (he : s.ev = some (.lockComplete g)) (hw : (s.fibre g).st = .waking) (hs : (s.fibre g).settled = true) :
    ∃ t, exec .lockComplete s = .next t ∧ (t.fibre g).st = .wide ∧
      (t.fibre g).low = (s.fibre g).low ∧ (t.fibre g).high = (s.fibre g).high ∧ (t.fibre g).hold = (s.fibre g).hold ∧ t.slots = s.slots ∧ t.mem = s.mem := by
  let f : Fibre := { s.fibre g with st := .wide, settled := false, narrow := counterUp (s.fibre g).narrow (Config.narrowFlits (s.fresh + 1)) }
  have hexec : exec .lockComplete s = .next (({ s with fresh := s.fresh + 1 }.setFibre g f).planPark g) := by
    show execLockComplete s = _
    simp only [execLockComplete, he, hw, hs, and_self, if_true]
    rfl
  have hf : (({ s with fresh := s.fresh + 1 }.setFibre g f).planPark g).fibre g = f := State.fibre_setFibre _ _ _
  exact ⟨_, hexec, by rw [hf], by rw [hf], by rw [hf], by rw [hf], rfl, rfl⟩

theorem ready_sets {b : Nat} (he : s.ev = some (.readySet b)) :
    (39 ≤ b ∨ s.ready.getLsbD b = true → exec .readySet s = .next s) ∧
      (b < 39 → s.ready.getLsbD b = false → ∃ t, exec .readySet s = .next t ∧ t.ready = s.ready ||| BitVec.ofNat 64 (2 ^ b) ∧ t.slots = s.slots ∧ t.mem = s.mem ∧
        (b = 1 → (s.now + 50 * usTicks, Ev.powerMeasurement) ∈ t.agenda) ∧
        (b = 38 → ∀ j ∈ s.jobs, j.2.isOpen = true → j.2.firstModule = j.2.self → (s.now, Ev.lwgapExpiry j.1) ∈ t.agenda)) := by
  have hexec : exec .readySet s = if 39 ≤ b ∨ s.ready.getLsbD b then .next s
      else .next ({ s with ready := s.ready ||| BitVec.ofNat 64 (2 ^ b) }.becomeReady b) := by
    show execReadySet s = _
    simp only [execReadySet, he]
  rw [hexec]
  refine ⟨fun h => if_pos h, fun hb hr => ?_⟩
  rw [if_neg (by rw [hr]; simp; omega)]
  obtain ⟨hready, hslots, hmem⟩ := State.becomeReady_leaves { s with ready := s.ready ||| BitVec.ofNat 64 (2 ^ b) } b
  refine ⟨_, rfl, hready, hslots, hmem, ?_, ?_⟩
  · rintro rfl
    exact State.due_schedule _ _ _
  · rintro rfl j hj ho hf
    exact State.becomeReady_lowWater { s with ready := s.ready ||| BitVec.ofNat 64 (2 ^ 38) } hj ho hf

theorem packets_refused {cls id addr : Nat} {posted : Bool} {j : Nat} (he : s.ev = some (.packetRefusal cls id addr posted j)) :
    tget (s.countDrop (id / 16)).tnDrop (id / 16) 0 = counterUp (tget s.tnDrop (id / 16) 0) 1 ∧
      (∀ f, cls = 0 → posted = false → (s.slot id).inFlight = some f → exec .packetRefusal s =
        .next ((s.countDrop (id / 16)).takeTrap id { cause := .prot, origin := 5, addr := BitVec.ofNat 64 addr } (s.slot id).pc)) ∧
      (cls ≠ 0 → (s.job j).isOpen = false → exec .packetRefusal s = .next (s.countDrop (id / 16))) := by
  refine ⟨tget_tset_same _ _ _ _, fun f hc hp hf => ?_, fun hc ho => ?_⟩
  · show execPacketRefusal s = _
    simp only [execPacketRefusal, he, hc, hp, hf, if_true, Bool.false_eq_true, if_false]
    rfl
  · have hrep : (s.countDrop (id / 16)).reportDrop (id / 16) (id % 16) addr j = s.countDrop (id / 16) := by
      rw [State.reportDrop]
      exact if_neg (by rw [show (s.countDrop (id / 16)).job j = s.job j from rfl, ho]; simp)
    show execPacketRefusal s = _
    simp only [execPacketRefusal, he, if_neg hc, hrep]

theorem power_restored {u : State} {id : Nat} {r : List Nat} (hd : u.dutied = []) (hr : u.removals = id :: r) :
    u.restorePower = { u with removals := r }.schedule (u.nextRotation (id / 16)) (.slotRestore id) := by
  rw [State.restorePower, hd]
  dsimp only
  rw [hr]

/-- Lowering or restoring power leaves the strands, memory and the cap. -/
theorem restorePower_leaves (u : State) : u.restorePower.slots = u.slots ∧ u.restorePower.mem = u.mem ∧ u.restorePower.cap = u.cap ∧ Later u u.restorePower := by
  unfold State.restorePower
  split
  · next p _ _ =>
    obtain ⟨a, ps, h, ha⟩ := u.setDuty_leaves p ((u.pair p).duty - 1)
    rw [h]
    exact ⟨rfl, rfl, rfl, rfl, ha, fun _ h => h⟩
  · split
    · exact ⟨rfl, rfl, rfl, .refl u⟩
    · exact ⟨rfl, rfl, rfl, rfl, fun _ h => State.mem_agenda_schedule.2 (.inr h), fun _ h => h⟩

end

theorem fabricAndReadiness : FabricAndReadiness := fun s =>
  ⟨fun _ _ _ _ _ he => packets_refused he, fun _ _ _ _ he => incarnation_announced he, reset_restarts s, fun _ he => group_parks he, fun _ he => group_wakes he,
    fun _ _ he => queues_reach he, fun _ he hw => heaters_settle he hw, fun _ he hw hs => lock_completes he hw hs, fun _ he => ready_sets he⟩

/-- The controller has measured, and its next measurement is due. -/
def powerMeasured (s : State) : State := { s with fresh := s.fresh + 1 }.schedule (s.now + 50 * usTicks) .powerMeasurement

/-- What the controller does with what it has measured (26 R409). -/
def powerSettled (s u : State) (w : Nat) : State :=
  if s.cap = 0 then u
  else if s.cap < w then { u with lowSince := none }.reducePower w
  else if w * 100 < s.cap * 95 then
    match s.lowSince with
    | none => { u with lowSince := some s.now }
    | some t => if t + 1000 * usTicks ≤ s.now then u.restorePower else u
  else { u with lowSince := none }

theorem exec_powerMeasurement {s : State} (he : s.ev = some .powerMeasurement) :
    exec .powerMeasurement s = .next (powerSettled s (powerMeasured s) (Config.measuredPower (s.fresh + 1))) := by
  show execPowerMeasurement s = _
  unfold execPowerMeasurement powerSettled powerMeasured
  split
  · dsimp only
    split
    · rfl
    split
    · rfl
    split
    · cases s.lowSince with
      | none => rfl
      | some t => rfl
    · rfl
  · next h => exact (h he).elim

theorem not_below_of_over {c w : Nat} (h : c < w) : ¬ w * 100 < c * 95 := by omega

theorem powerIsCapped : PowerIsCapped := by
  intro s he w
  have hexec := exec_powerMeasurement he
  change exec .powerMeasurement s = .next (powerSettled s (powerMeasured s) w) at hexec
  clear_value w
  have hdue : (s.now + 50 * usTicks, Ev.powerMeasurement) ∈ (powerMeasured s).agenda := State.due_schedule _ _ _
  unfold powerSettled at hexec
  by_cases hcap : s.cap = 0
  · rw [if_pos hcap] at hexec
    exact ⟨_, hexec, hdue, rfl, rfl, rfl, fun h => absurd hcap h, fun _ _ _ h => absurd hcap h, fun h => absurd hcap h⟩
  rw [if_neg hcap] at hexec
  by_cases hover : s.cap < w
  · rw [if_pos hover] at hexec
    obtain ⟨hslots, hmem, hcap', hlow, hlater⟩ := State.reducePower_leaves { powerMeasured s with lowSince := none } w
    refine ⟨_, hexec, hlater.agenda _ hdue, hslots, hmem, hcap', fun _ _ cls hcls c hc i hi => ?_, fun _ _ _ _ h => absurd h (not_below_of_over hover), fun _ _ => hlow⟩
    obtain ⟨a, r, hr, -, -, hall⟩ := State.foldl_removeRound _ (coresOfClass_nodup cls) { powerMeasured s with lowSince := none }
    have hreduce := State.reducePower_of_class (s := { powerMeasured s with lowSince := none }) w hcls
    rw [hreduce, State.removeRound_eq, hr]
    exact hall c hc i hi
  rw [if_neg hover] at hexec
  by_cases hbelow : w * 100 < s.cap * 95
  · rw [if_pos hbelow] at hexec
    cases hsince : s.lowSince with
    | none =>
      rw [hsince] at hexec
      exact ⟨_, hexec, hdue, rfl, rfl, rfl, fun _ h => absurd h hover, fun _ _ _ _ _ h => absurd h (by simp), fun _ h => absurd h (not_le_of_gt hbelow)⟩
    | some t0 =>
      rw [hsince] at hexec
      dsimp only at hexec
      by_cases hlong : t0 + 1000 * usTicks ≤ s.now
      · rw [if_pos hlong] at hexec
        obtain ⟨hslots, hmem, hcap', hlater⟩ := restorePower_leaves (powerMeasured s)
        refine ⟨_, hexec, hlater.agenda _ hdue, hslots, hmem, hcap', fun _ h => absurd h hover, fun id r t1 _ _ ht _ hd hr => ?_, fun _ h => absurd h (not_le_of_gt hbelow)⟩
        rw [power_restored (u := powerMeasured s) hd hr]
        exact ⟨State.due_schedule _ _ _, rfl⟩
      · rw [if_neg hlong] at hexec
        refine ⟨_, hexec, hdue, rfl, rfl, rfl, fun _ h => absurd h hover, fun id r t1 _ _ ht h => ?_, fun _ h => absurd h (not_le_of_gt hbelow)⟩
        cases ht
        exact absurd h hlong
  · rw [if_neg hbelow] at hexec
    exact ⟨_, hexec, hdue, rfl, rfl, rfl, fun _ h => absurd h hover, fun _ _ _ _ h => absurd h hbelow, fun _ _ => rfl⟩

/-- Settles O49. -/
theorem fabricReadinessAndPower : Obligations.FabricReadinessAndPower := ⟨fabricAndReadiness, powerIsCapped⟩

end Sys2Proof.Claims
end

section
/-! Checkpoints of running copies, their reports to the Weir, and backups (16 R285 to R290). -/

namespace Sys2Proof.Machine

section
variable (s : State)

/-- A bucket settled now has nothing to add (16 R288). -/
theorem State.settleBuckets_of_settled (h : ∀ t ∈ s.tenants, t.2.atTick = s.now ∧ t.2.level ≤ t.2.cap * 1000 * 12288) : s.settleBuckets = s := by
  have hmap : s.settleBuckets.tenants = s.tenants := by
    refine (List.map_congr_left fun t ht => ?_).trans (List.map_id _)
    obtain ⟨hat, hlevel⟩ := h t ht
    have hticks : s.tenantTicks t.1 t.2.atTick = 0 := by simp [State.tenantTicks, hat]
    rw [hticks, Nat.mul_zero, Nat.add_zero, min_eq_right hlevel, ← hat]
    rfl
  show { s with tenants := s.settleBuckets.tenants } = s
  rw [hmap]

theorem State.settled_settleBuckets : ∀ t ∈ s.settleBuckets.tenants, t.2.atTick = s.now ∧ t.2.level ≤ t.2.cap * 1000 * 12288 := by
  intro t ht
  obtain ⟨x, -, rfl⟩ := List.mem_map.1 ht
  exact ⟨rfl, min_le_left _ _⟩

/-- A task enters its cluster's queue, or waits there; nothing else differs but the step in which the unit looks again. -/
theorem State.enqueue_queuesOnly (cl : Nat) (e : Entry) (h : e.sent = none) :
    ∃ a cs, s.enqueue cl e = { s with agenda := a, clusters := cs } := by
  unfold State.enqueue State.receive
  rw [h]
  dsimp only
  split <;> exact ⟨_, _, rfl⟩

theorem State.enterBackup_queuesOnly (b : Backup) : ∃ a cs, s.enterBackup b = { s with agenda := a, clusters := cs } := by
  unfold State.enterBackup
  exact s.enqueue_queuesOnly _ _ rfl

/-- A backup joins a queue of this module, or goes to another one. -/
theorem State.startBackup_leaves (b : Backup) (hs : s.settleBuckets = s) :
    let tn := tget s.tenants (s.job b.job).tenant {}
    ∃ a cs o, s.startBackup b =
      { s with tenants := tset s.tenants (s.job b.job).tenant { tn with level := tn.level - b.charge * 12288 }, agenda := a, clusters := cs, out := o } := by
  intro tn
  unfold State.startBackup
  dsimp only
  rw [hs]
  split
  · obtain ⟨a, cs, h⟩ := State.enterBackup_queuesOnly
      { s with tenants := tset s.tenants (s.job b.job).tenant { tn with level := tn.level - b.charge * 12288 } } b
    exact ⟨a, cs, _, h⟩
  · exact ⟨_, _, _, rfl⟩

end

end Sys2Proof.Machine

namespace Sys2Proof.Claims

open Sys2Proof.Machine

section
variable {s : State}

/-- The module whose home holds the record of a gang's task. -/
def recordModule (s : State) (g : Nat) : Nat :=
  match s.arbPlace ((s.gang g).cores.headD 0) (s.gang g).job (s.gang g).packet with
  | .away r => r
  | _ => (s.job (s.gang g).job).self

/-- What a checkpoint's report says. -/
def reportOf (s : State) (g k : Nat) : Ev :=
  .weirReport (s.gang g).job (packetClass (s.gang g).packet) k (s.gang g).work (s.reportedAs g).1 (s.reportedAs g).2 (recordModule s g)

/-- A checkpoint noted and reported, here or to the module of the Weir. -/
def reported (s : State) (g k : Nat) : State :=
  if (s.job (s.gang g).job).weirHere then (s.setGang g { s.gang g with check := k }).schedule s.cycleEnd (reportOf s g k)
  else (s.setGang g { s.gang g with check := k }).send
    (.weir (s.gang g).job (packetClass (s.gang g).packet) k (s.gang g).work (s.reportedAs g).1 (s.reportedAs g).2 (recordModule s g))

theorem exec_checkpoint {g k : Nat} (he : s.ev = some (.checkpoint g k)) (hg : ∃ x ∈ s.gangs, x.1 = g) (hf : (s.gang g).flags.getLsbD 0 = true) :
    exec .checkpoint s = .next ((reported s g k).schedule ((reported s g k).checkTick (s.gang g) (k + 1)) (.checkpoint g (k + 1))) := by
  have hany : (s.gangs.any fun e => e.1 == g) = true := by
    obtain ⟨x, hx, rfl⟩ := hg
    exact List.any_eq_true.2 ⟨x, hx, beq_self_eq_true _⟩
  show execCheckpoint s = _
  unfold execCheckpoint
  split
  · next h =>
    cases he.symm.trans h
    dsimp only
    rw [if_neg (by rw [hany, hf]; decide)]
    rfl
  · next h => exact (h _ _ he).elim

theorem checkpoint_reports {g k : Nat} (he : s.ev = some (.checkpoint g k)) (hg : ∃ x ∈ s.gangs, x.1 = g) (hf : (s.gang g).flags.getLsbD 0 = true) :
    ∃ t, exec .checkpoint s = .next t ∧ (t.gang g).check = k ∧ (s.checkTick (s.gang g) (k + 1), Ev.checkpoint g (k + 1)) ∈ t.agenda ∧
      ((s.job (s.gang g).job).weirHere = true → (s.cycleEnd, reportOf s g k) ∈ t.agenda) ∧
      ((s.job (s.gang g).job).weirHere = false →
        Out.weir (s.gang g).job (packetClass (s.gang g).packet) k (s.gang g).work (s.reportedAs g).1 (s.reportedAs g).2 (recordModule s g) ∈ t.out) ∧
      t.slots = s.slots ∧ t.mem = s.mem := by
  have hsame : (reported s g k).gangs = tset s.gangs g { s.gang g with check := k } ∧ (reported s g k).jobs = s.jobs ∧
      (reported s g k).slots = s.slots ∧ (reported s g k).mem = s.mem := by
    unfold reported
    split <;> exact ⟨rfl, rfl, rfl, rfl⟩
  obtain ⟨hgangs, hjobs, hslots, hmem⟩ := hsame
  have htick : (reported s g k).checkTick (s.gang g) (k + 1) = s.checkTick (s.gang g) (k + 1) := by
    simp only [State.checkTick, State.job, hjobs]
  refine ⟨_, exec_checkpoint he hg hf, ?_, ?_, fun hw => ?_, fun hw => ?_, hslots, hmem⟩
  · show (tget (reported s g k).gangs g {}).check = k
    rw [hgangs, tget_tset_same]
  · rw [htick]
    exact State.due_schedule _ _ _
  · refine State.mem_agenda_schedule.2 (.inr ?_)
    rw [reported, if_pos hw]
    exact State.due_schedule _ _ _
  · show _ ∈ (reported s g k).out
    rw [reported, if_neg (by simp [hw])]
    exact State.mem_out_send _ _

/-- The report is taken: what follows once the estimate has moved (16 R286). -/
def reportTaken (s : State) (j c k work task copy home : Nat) : State :=
  if decide (work < tget (s.job j).weirQ (c * 64 + (min k 64 - 1)) 0) && decide ((tget (s.job j).classes c {}).kmin ≤ k) then
    if home = (s.job j).self then
      match (s.moveEstimate j c k work).slowCopy j task copy with
      | some (r, sm, sc) => (s.moveEstimate j c k work).tryBackup home r k sm sc
      | none => s.moveEstimate j c k work
    else (s.moveEstimate j c k work).send (.hedge home (.ask (s.job j).self j k task copy))
  else s.moveEstimate j c k work

section
variable {j c k work task copy home : Nat}

theorem exec_weirReport (he : s.ev = some (.weirReport j c k work task copy home)) : exec .weirReport s =
    if s.yields (beforeReport j task copy) then .next (s.soon (.weirReport j c k work task copy home)) else .next (reportTaken s j c k work task copy home) := by
  show execWeirReport s = _
  unfold execWeirReport reportTaken
  split
  · next h =>
    cases he.symm.trans h
    dsimp only
    split
    · rfl
    split
    · split
      · cases (s.moveEstimate j c k work).slowCopy j task copy with
        | none => rfl
        | some x => rfl
      · rfl
    · rfl
  · next h => exact nomatch he.symm.trans h
  · next h _ => exact (h _ _ _ _ _ _ _ he).elim

/-- A class's estimate after a report (16 R286). -/
def movedEstimate (s : State) (j c k work : Nat) : Nat :=
  let p := tget (s.job j).classes c {}
  let qb := tget (s.job j).weirQ (c * 64 + (min k 64 - 1)) 0
  if work < qb then qb - (2 ^ p.d - 2 ^ (p.d - p.m)) else min (2 ^ 64 - 1) (qb + 2 ^ (p.d - p.m))

theorem moveEstimate_eq : s.moveEstimate j c k work = s.setJob j { s.job j with weirQ := tset (s.job j).weirQ (c * 64 + (min k 64 - 1)) (movedEstimate s j c k work) } := rfl

theorem weirQ_moveEstimate : tget ((s.moveEstimate j c k work).job j).weirQ (c * 64 + (min k 64 - 1)) 0 = movedEstimate s j c k work := by
  rw [moveEstimate_eq, State.job_setJob]
  exact tget_tset_same _ _ _ _

/-- No copy of the task may get a backup (16 R286, R288). -/
theorem slowCopy_none {u : State} (h : ∀ r ∈ u.hedges, r.task = task → r.job = j → (u.job j).maxc ≤ r.copies.length ∨ 2 < r.next ∨ r.winner.isSome = true) :
    u.slowCopy j task copy = none := by
  unfold State.slowCopy
  split
  · rfl
  · next r hr =>
    have hp := List.find?_some hr
    simp only [Bool.and_eq_true, beq_iff_eq] at hp
    refine if_pos ?_
    obtain h | h | h := h r (List.mem_of_find?_eq_some hr) hp.1 hp.2
    · exact .inr (.inr h)
    · exact .inr (.inl h)
    · exact .inl h

theorem slowCopy_some {u : State} {r : HedgeRec} {x : HedgeCopy} (hr : u.hedges.find? (fun r => r.task == task && r.job == j) = some r)
    (hlen : r.copies.length < (u.job j).maxc) (hnext : r.next ≤ 2) (hwin : r.winner = none) (hx : r.copies.find? (fun x => x.copy == copy) = some x) :
    u.slowCopy j task copy = some (r, x.modul, x.core) := by
  unfold State.slowCopy
  rw [hr]
  dsimp only
  rw [if_neg (by rw [hwin]; simp; omega), hx]
  rfl

/-- A report that asks for no backup moves its estimate and touches nothing else (16 R286). -/
theorem report_moves (h : ∀ r ∈ s.hedges, r.task = task → r.job = j → tget (s.job j).weirQ (c * 64 + (min k 64 - 1)) 0 ≤ work ∨
      k < (tget (s.job j).classes c {}).kmin ∨ (s.job j).maxc ≤ r.copies.length ∨ 2 < r.next ∨ r.winner.isSome = true) :
    let t := reportTaken s j c k work task copy home
    tget (t.job j).weirQ (c * 64 + (min k 64 - 1)) 0 = movedEstimate s j c k work ∧ t.hedges = s.hedges ∧ t.clusters = s.clusters ∧ t.slots = s.slots := by
  intro t
  have hmoved : tget ((s.moveEstimate j c k work).job j).weirQ (c * 64 + (min k 64 - 1)) 0 = movedEstimate s j c k work ∧
      (s.moveEstimate j c k work).hedges = s.hedges ∧ (s.moveEstimate j c k work).clusters = s.clusters ∧ (s.moveEstimate j c k work).slots = s.slots :=
    ⟨weirQ_moveEstimate, rfl, rfl, rfl⟩
  show tget ((reportTaken s j c k work task copy home).job j).weirQ _ 0 = _ ∧ _
  unfold t reportTaken
  split
  · next hbehind =>
    simp only [Bool.and_eq_true, decide_eq_true_eq] at hbehind
    split
    · rw [slowCopy_none fun r hr ht hj => ?_]
      · exact hmoved
      · have hjob : ((s.moveEstimate j c k work).job j).maxc = (s.job j).maxc := by rw [moveEstimate_eq, State.job_setJob]
        rw [hjob]
        obtain h | h | h := h r hr ht hj
        · omega
        · omega
        · exact h
    · exact hmoved
  · exact hmoved

/-- A backup of a record that may have one takes its charge, and the record names the new copy (16 R288 to R290). -/
theorem tryBackup_starts {u : State} {r : HedgeRec} {sm sc modul cl : Nat} {only : List Nat} (hset : u.settleBuckets = u) (hr : r ∈ u.hedges)
    (hfind : u.hedges.find? (fun x => x.task == r.task && x.job == r.job) = some r) (hlen : r.copies.length < (u.job r.job).maxc) (hnext : r.next ≤ 2)
    (hwin : r.winner = none) (htarget : u.backupTarget r sm sc = some (modul, cl, only)) :
    let charge := (u.job r.job).charge (packetClass r.packet) k (hdrW r.hdr * hdrH r.hdr * hdrLayers r.hdr)
    let tn := (u.job r.job).tenant
    charge * 12288 ≤ (tget u.tenants tn {}).level →
      let t := u.tryBackup (u.job r.job).self r k sm sc
      t.jobs = u.jobs ∧ (tget t.tenants tn {}).level = (tget u.tenants tn {}).level - charge * 12288 ∧
        ∃ r' ∈ t.hedges, r'.task = r.task ∧ r'.next = r.next + 1 ∧ ∃ y ∈ r'.copies, y.copy = r.next ∧ y.modul = modul := by
  intro charge tn hcharge t
  let b : Backup := { job := r.job, task := r.task, copy := r.next, packet := r.packet, hdr := r.hdr, flags := r.flags, bind := r.bind,
                      parent := r.parent, charge := charge, slowModul := sm, slow := sc, modul := modul, cluster := cl, only := only }
  let c : HedgeCopy := { copy := r.next, modul := modul, core := clusterCore cl 0, gang := 0 }
  let v : State := { u with hedges := u.hedges.map fun x => if x = r then { x with next := r.next + 1, copies := x.copies ++ [c] } else x }
  have hadd : u.addBackup b = some (b, v) := by
    rw [State.addBackup, hfind]
    have hgo : ¬(r.winner.isSome ∨ 2 < r.next ∨ (u.job r.job).maxc ≤ r.copies.length) := by
      rw [hwin]
      simp
      omega
    exact if_neg hgo
  have ht : t = v.startBackup b := by
    show u.tryBackup (u.job r.job).self r k sm sc = _
    unfold State.tryBackup
    dsimp only
    rw [hset, if_neg (by rw [Nat.not_lt, Nat.le_div_iff_mul_le (by decide)]; exact hcharge), htarget]
    dsimp only
    rw [if_pos rfl, hadd]
  have hv : v.settleBuckets = v := by
    have hu := congrArg State.tenants hset
    refine State.settleBuckets_of_settled v fun x hx => ?_
    exact u.settled_settleBuckets x (hu ▸ hx)
  obtain ⟨a, cs, o, h⟩ := v.startBackup_leaves b hv
  rw [ht, h]
  refine ⟨rfl, ?_, _, List.mem_map_of_mem hr, ?_⟩
  · show (tget (tset u.tenants tn _) tn {}).level = _
    rw [tget_tset_same]
    rfl
  · rw [if_pos rfl]
    exact ⟨rfl, rfl, c, by simp, rfl, rfl⟩

end

end

/-- Settles O42. -/
theorem checkpointsAndReports : Obligations.CheckpointsAndReports := by
  refine fun s => ⟨fun g k he hg hf => checkpoint_reports he hg hf, fun j c k work task copy home he hy => (exec_weirReport he).trans (if_pos hy),
    fun j c k work task copy home he hy => ?_⟩
  have hexec := (exec_weirReport he).trans (if_neg (by rw [hy]; decide))
  refine ⟨fun h => ⟨_, hexec, report_moves h⟩, fun hw hk hh => ?_, fun r x u modul cl only hh hr hw hk hlen hnext hwin hu hx htarget hcharge => ?_⟩
  · have ht : reportTaken s j c k work task copy home = (s.moveEstimate j c k work).send (.hedge home (.ask (s.job j).self j k task copy)) := by
      rw [reportTaken, if_pos (by simp [hw, hk]), if_neg hh]
    rw [ht] at hexec
    exact ⟨_, hexec, weirQ_moveEstimate, State.mem_out_send _ _, rfl, rfl⟩
  · have hkey := List.find?_some hr
    simp only [Bool.and_eq_true, beq_iff_eq] at hkey
    obtain ⟨htask, hjob⟩ := hkey
    have hmoved : (s.moveEstimate j c k work).settleBuckets = u := hu.symm
    have hjobs : u.job j = (s.moveEstimate j c k work).job j := by rw [hu]; rfl
    have hsame : (u.job j).maxc = (s.job j).maxc ∧ (u.job j).self = (s.job j).self ∧ (u.job j).tenant = (s.job j).tenant ∧
        ∀ n m g, (u.job j).charge n m g = (s.job j).charge n m g := by
      rw [hjobs, moveEstimate_eq, State.job_setJob]
      exact ⟨rfl, rfl, rfl, fun _ _ _ => rfl⟩
    obtain ⟨hmaxc, hself, htenant, hch⟩ := hsame
    have hhedges : u.hedges = s.hedges := by rw [hu]; rfl
    have hset : u.settleBuckets = u := State.settleBuckets_of_settled u (by rw [hu]; exact State.settled_settleBuckets _)
    have ht : reportTaken s j c k work task copy home = u.tryBackup (u.job r.job).self r k x.modul x.core := by
      have hslow := slowCopy_some (u := s.moveEstimate j c k work) hr (by rw [← hjobs, hmaxc]; exact hlen) hnext hwin hx
      rw [reportTaken, if_pos (by simp [hw, hk]), if_pos hh, hslow, hh, hjob, hself]
      show State.tryBackup _ _ _ _ _ _ = _
      unfold State.tryBackup
      rw [hmoved, hset]
    obtain ⟨hj, hlevel, hrec⟩ := tryBackup_starts (k := k) hset (hhedges ▸ List.mem_of_find?_eq_some hr) (by rw [hhedges, htask, hjob]; exact hr)
      (by rw [hjob, hmaxc]; exact hlen) hnext hwin htarget (by rw [hjob, hch, htenant]; exact hcharge)
    rw [ht] at hexec
    generalize u.tryBackup (u.job r.job).self r k x.modul x.core = t at hexec hj hlevel hrec
    refine ⟨t, hexec, ?_, ?_, ?_⟩
    · rw [State.job, hj]
      exact (congrArg (fun q : Job => tget q.weirQ _ 0) hjobs).trans weirQ_moveEstimate
    · rw [hjob, hch, htenant] at hlevel
      exact hlevel
    · rwa [htask] at hrec

end Sys2Proof.Claims
end

section
/-! A module's part of a ring under the operations of its unit (21 R336 to R346), and the traffic of a ring. -/

namespace Sys2Proof.Machine

section
variable {s : State} {job ring : Nat} {r q : Ring}

theorem State.key_of_ring (h : s.ring job ring = some r) : r.job = job ∧ r.ring = ring := by
  simpa using List.find?_some h

theorem State.withRing_of_ring (h : s.ring job ring = some r) (k : Ring → State) : s.withRing job ring k = k r := by
  rw [State.withRing, h]

theorem State.withRing_of_none (h : s.ring job ring = none) (k : Ring → State) : s.withRing job ring k = s := by
  rw [State.withRing, h]

/-- A change to a ring's part is what the module holds of that ring then. -/
theorem State.ring_setRing (h : s.ring job ring = some r) (hj : q.job = r.job) (hr : q.ring = r.ring) : (s.setRing q).ring job ring = some q := by
  obtain ⟨hkj, hkr⟩ := State.key_of_ring h
  have hsame : ((fun x : Ring => x.job == job && x.ring == ring) ∘ fun x => if x.job = q.job ∧ x.ring = q.ring then q else x) =
      fun x => x.job == job && x.ring == ring := by
    funext x
    simp only [Function.comp_apply]
    split
    · next hx => simp [hx.1, hx.2]
    · rfl
  show List.find? _ (s.rings.map _) = some q
  rw [List.find?_map, hsame]
  show (s.ring job ring).map _ = some q
  rw [h]
  simp [hj, hr]

/-- Nothing differs but what the module holds of its rings, where its slots have moved on, and the tokens sent (21 R338, R339). -/
structure SlotsMoved (s t : State) (job ring : Nat) (r : Ring) : Prop where
  same : t = { s with rings := t.rings, out := t.out }
  slots : ∃ l, t.ring job ring = some { r with slots := l }
  out : ∀ o ∈ s.out, o ∈ t.out

theorem SlotsMoved.refl (h : s.ring job ring = some r) : SlotsMoved s s job ring r := ⟨rfl, ⟨r.slots, h⟩, fun _ h => h⟩

theorem SlotsMoved.of_slots {t u : State} {l : Table RingSlot} (h : SlotsMoved s t job ring r) (h' : SlotsMoved t u job ring { r with slots := l }) :
    SlotsMoved s u job ring r := by
  obtain ⟨hs, -, ho⟩ := h
  obtain ⟨hs', ⟨l', hl'⟩, ho'⟩ := h'
  exact ⟨by rw [hs']; conv_lhs => rw [hs], ⟨l', hl'⟩, fun o h => ho' o (ho o h)⟩

theorem State.slotFree_moves (h : s.ring job ring = some r) (i : Nat) : SlotsMoved s (s.slotFree r i) job ring r := by
  have hset (l : Table RingSlot) (o : Out) : SlotsMoved s ((s.setRing { r with slots := l }).send o) job ring r :=
    ⟨rfl, ⟨l, State.ring_setRing h rfl rfl⟩, fun _ h => List.mem_cons_of_mem _ h⟩
  unfold State.slotFree
  split
  · split
    · exact hset _ _
    · exact .refl h
  · split
    · exact hset _ _
    · exact .refl h
  · exact .refl h

/-- A part with members stays when its slots are looked through. -/
theorem State.ringSettle_moves (h : s.ring job ring = some r) (hm : r.members ≠ []) : SlotsMoved s (s.ringSettle job ring) job ring r := by
  have hall (l : List Nat) : ∀ (u : State) (q : Ring), u.ring job ring = some q →
      SlotsMoved u (l.foldl (fun (u : State) i => u.withRing job ring fun q => u.slotFree q i) u) job ring q := by
    induction l with
    | nil => exact fun u q hu => .refl hu
    | cons i l ih =>
      intro u q hu
      rw [List.foldl_cons, State.withRing_of_ring hu]
      have hi := State.slotFree_moves hu i
      obtain ⟨sl, hsl⟩ := hi.slots
      exact hi.of_slots (ih _ _ hsl)
  unfold State.ringSettle
  rw [State.withRing_of_ring h, if_neg hm]
  split
  · exact .refl h
  · exact hall _ s r h

namespace SlotsMoved
variable {t : State}

theorem mem (h : SlotsMoved s t job ring r) : t.mem = s.mem := by rw [h.same]
theorem cores (h : SlotsMoved s t job ring r) : t.cores = s.cores := by rw [h.same]
theorem fe (h : SlotsMoved s t job ring r) : t.fe = s.fe := by rw [h.same]
theorem strands (h : SlotsMoved s t job ring r) : t.slots = s.slots := by rw [h.same]
theorem anns (h : SlotsMoved s t job ring r) : t.anns = s.anns := by rw [h.same]
theorem member (h : SlotsMoved s t job ring r) (c i : Nat) : t.member c i = s.member c i := by
  rw [State.member, State.member, State.core, State.core, h.cores]

end SlotsMoved

theorem State.member_setMember (s : State) (c i : Nat) (m : Member) : (s.setMember c i m).member c i = some m := by
  have htset (l : Table Member) : (tset l i m).find? (fun x => x.1 == i) = some (i, m) := by
    induction l with
    | nil => simp [tset]
    | cons x l ih =>
      rw [tset]
      split
      · simp
      · next hx => rw [List.find?_cons_of_neg (by simpa using hx), ih]
  rw [State.member, State.setMember, State.core_setCore]
  show ((tset _ i m).find? _).map _ = _
  rw [htset]
  rfl

/-- A module's clusters whose attention engines are empty have nothing to wake. -/
theorem State.attnWake_of_empty (h : ∀ p ∈ r.members, (s.cluster (clusterOf p.1)).attnQ = []) : s.attnWake r = s := by
  unfold State.attnWake
  generalize r.members = l at h
  induction l with
  | nil => rfl
  | cons p l ih =>
    rw [List.foldl_cons, h p List.mem_cons_self]
    exact ih fun x hx => h x (List.mem_cons_of_mem _ hx)

theorem State.attnPassed_of_empty (core i step at_ lo hi : Nat) (h : (s.cluster (clusterOf core)).attnQ = []) :
    s.attnPassed core i step at_ lo hi = s := by
  unfold State.attnPassed
  dsimp only
  rw [h]
  rfl

end

end Sys2Proof.Machine

namespace Sys2Proof.Claims

open Sys2Proof.Machine

section
variable {s : State} {job ring : Nat} {r : Ring}

/-! ## Announcements and tokens (21 R336, R338) -/

theorem exec_ringAnnouncement {a : Announce} (he : s.ev = some (.ringAnnouncement a)) :
    exec .ringAnnouncement s = .next (if s.ringless a.job then s else { s with anns := s.anns ++ [a] }.ringLink a.job a.ring) := by
  show execRingAnnouncement s = _
  unfold execRingAnnouncement
  split
  · next h =>
    cases he.symm.trans h
    rfl
  · next h => exact (h _ he).elim

/-- The one announcement of a ring is what its part goes by. -/
theorem firstAnns_one {l : List Announce} {a : Announce} (h : ∀ b ∈ l, b.job = a.job → b.ring ≠ a.ring) : firstAnns (l ++ [a]) a.job a.ring = [a] := by
  have hnone : l.foldl (fun (acc : List Announce) b =>
      if b.job = a.job ∧ b.ring = a.ring ∧ !acc.any (fun c => c.modul == b.modul) then acc ++ [b] else acc) [] = [] := by
    induction l with
    | nil => rfl
    | cons b l ih =>
      rw [List.foldl_cons, if_neg fun hb => h b List.mem_cons_self hb.1 hb.2.1]
      exact ih fun c hc => h c (List.mem_cons_of_mem _ hc)
  rw [firstAnns, List.foldl_append, hnone]
  simp

/-- A complete part with the links that its announcements give it (21 R336, R337). -/
def linkedPart (r : Ring) (l : List Announce) (self : Nat) : Ring :=
  let other := fun (p : Nat) => (l.find? (fun a => a.pos == p && a.k == r.k && a.s == r.s && a.bsz == r.bsz)).map (·.modul)
  { r with
    conflict := r.conflict || l.any (fun a => r.clash a self) ||
      l.any (fun a => l.any (fun b => a.pos == b.pos && a.modul != b.modul && (a.pos == (r.pos + 1) % r.k || a.pos == (r.pos + r.k - 1) % r.k)))
    linkPred := other ((r.pos + r.k - 1) % r.k)
    linkSucc := other ((r.pos + 1) % r.k) }

theorem ringLink_eq (h : s.ring job ring = some r) (hc : r.complete = true) :
    let q := linkedPart r (firstAnns s.anns job ring) (s.job job).self
    s.ringLink job ring = (if q.conflict then (s.setRing q).attnWake q else s.setRing q).ringSettle job ring := by
  unfold State.ringLink
  rw [State.withRing_of_ring h, if_neg (by rw [hc]; decide)]
  rfl

/-- The announcement of the next position makes its module the successor of a complete part (21 R336). -/
theorem ringLink_succeeds {a : Announce} (h : s.ring a.job a.ring = some r) (hc : r.complete = true) (hm : r.members ≠ []) (hconf : r.conflict = false)
    (hfit : FitsAsSuccessor r a) (hanns : ∀ b ∈ s.anns, b.job = a.job → b.ring ≠ a.ring) :
    ∃ q0 q, SlotsMoved (({ s with anns := s.anns ++ [a] } : State).setRing q0) ({ s with anns := s.anns ++ [a] }.ringLink a.job a.ring) a.job a.ring q ∧
      q.linkSucc = some a.modul ∧ q.conflict = false ∧ q.members = r.members := by
  obtain ⟨hpos, hother, hk, hs, hb⟩ := hfit
  have h' : ({ s with anns := s.anns ++ [a] } : State).ring a.job a.ring = some r := h
  have hclash (self : Nat) : r.clash a self = false := by simp [Ring.clash, hother, hk, hs, hb]
  let q := linkedPart r [a] (s.job a.job).self
  have hq : q.conflict = false ∧ q.linkSucc = some a.modul := by
    simp [q, linkedPart, hclash, hconf, hpos, hk, hs, hb]
  have hlink : { s with anns := s.anns ++ [a] }.ringLink a.job a.ring = (({ s with anns := s.anns ++ [a] } : State).setRing q).ringSettle a.job a.ring := by
    have heq := ringLink_eq h' hc
    rw [firstAnns_one hanns] at heq
    exact heq.trans (congrArg (State.ringSettle · _ _) (if_neg (show ¬ q.conflict = true by rw [hq.1]; decide)))
  rw [hlink]
  exact ⟨q, q, State.ringSettle_moves (State.ring_setRing h' rfl rfl) hm, hq.2, hq.1, rfl⟩

theorem announcement_links {a : Announce} (he : s.ev = some (.ringAnnouncement a)) :
    (s.ringless a.job = true → exec .ringAnnouncement s = .next s) ∧
      (s.ringless a.job = false → s.ring a.job a.ring = none → exec .ringAnnouncement s = .next { s with anns := s.anns ++ [a] }) ∧
      (∀ r, s.ringless a.job = false → s.ring a.job a.ring = some r → r.complete = true → r.members ≠ [] → r.broken = false → r.conflict = false → FitsAsSuccessor r a →
        (∀ b ∈ s.anns, b.job = a.job → b.ring ≠ a.ring) → ∃ t q, exec .ringAnnouncement s = .next t ∧ t.anns = s.anns ++ [a] ∧ t.ring a.job a.ring = some q ∧
          q.linkSucc = some a.modul ∧ q.conflict = false ∧ q.members = r.members ∧ t.mem = s.mem ∧ t.slots = s.slots) := by
  rw [exec_ringAnnouncement he]
  refine ⟨fun h => by rw [if_pos h], fun h hr => ?_, fun r h hr hc hm _ hconf hfit hanns => ?_⟩
  · rw [if_neg (by simp [h])]
    exact congrArg _ (State.withRing_of_none (s := { s with anns := s.anns ++ [a] }) hr _)
  · rw [if_neg (by simp [h])]
    obtain ⟨q0, q, hmoved, hsucc, hq, hmem⟩ := ringLink_succeeds hr hc hm hconf hfit hanns
    obtain ⟨l, hl⟩ := hmoved.slots
    exact ⟨_, _, rfl, hmoved.anns, hl, hsucc, hq, hmem, hmoved.mem, hmoved.strands⟩

theorem token_admits {step : Nat} (he : s.ev = some (.rillToken job ring step)) :
    (s.ringless job = true → exec .rillToken s = .next s) ∧
      (s.ringless job = false → s.ring job ring = none → exec .rillToken s = .next s.countClosed) ∧
      (∀ r, s.ringless job = false → s.ring job ring = some r → (r.broken = true ∨ r.k ≤ step → exec .rillToken s = .next s) ∧
        (r.broken = false → step < r.k → ∃ t, exec .rillToken s = .next t ∧ t = { s with rings := t.rings } ∧
          t.ring job ring = some { r with tokens := r.tokens ++ [step] })) := by
  have hexec : exec .rillToken s = if s.ringless job then .next s else
      match s.ring job ring with
      | none => .next s.countClosed
      | some r => .next (if r.broken ∨ r.k ≤ step then s else s.setRing { r with tokens := r.tokens ++ [step] }) := by
    show execRillToken s = _
    unfold execRillToken
    split
    · next h =>
      cases he.symm.trans h
      rfl
    · next h => exact (h _ _ _ he).elim
  rw [hexec]
  refine ⟨fun h => if_pos h, fun h hr => ?_, fun r h hr => ?_⟩
  · rw [if_neg (by simp [h]), hr]
  · rw [if_neg (by simp [h]), hr]
    refine ⟨fun hb => congrArg _ (if_pos hb), fun hb hk => ⟨_, congrArg _ (if_neg ?_), rfl, State.ring_setRing hr rfl rfl⟩⟩
    rw [hb]
    simp
    omega

/-! ## Beats (21 R339 to R341) -/

/-- A beat that has reached its member's core takes a bank there and is due at the end of the cycle it holds. -/
theorem reachMember_claims {p : Nat × Nat} {m : Member} (h : s.member p.1 p.2 = some m) (r : Ring) (step off : Nat) (bs : List Byte) (bad : Option Word) :
    ∃ at_, KeepsMemory s (s.reachMember r step off bs bad p) ∧ (s.reachMember r step off bs bad p).slots = s.slots ∧
      (at_, Ev.rillLand (ownerRill (s.fresh + 1)) p.1 p.2 m.gang step off bs bad) ∈ (s.reachMember r step off bs bad p).agenda := by
  unfold State.reachMember
  rw [h]
  exact ⟨_, ⟨rfl, rfl⟩, rfl, State.due_schedule _ _ _⟩

theorem beat_reaches {step : Nat} {p : Nat × Nat} {m : Member} (hr : s.ring job ring = some r) (hb : r.broken = false) (hp : r.members = [p])
    (hm : s.member p.1 p.2 = some m) (hslot : tget r.slots (step % r.s) .init = .await step ∨ ∃ ro, tget r.slots (step % r.s) .init = .held step ro)
    (off : Nat) (bs : List Byte) (bad : Option Word) :
    ∃ at_, KeepsMemory s (s.beat job ring step off bs bad) ∧ (s.beat job ring step off bs bad).slots = s.slots ∧
      (at_, Ev.rillLand (ownerRill (s.fresh + 1)) p.1 p.2 m.gang step off bs bad) ∈ (s.beat job ring step off bs bad).agenda := by
  have hbeat : s.beat job ring step off bs bad = s.reachMember r step off bs bad p := by
    unfold State.beat
    rw [hr]
    dsimp only
    rw [if_neg (by simp [hb]), hp]
    obtain hslot | ⟨ro, hslot⟩ := hslot <;> rw [hslot] <;> exact if_pos rfl
  rw [hbeat]
  exact reachMember_claims hm r step off bs bad

/-- A beat of the OWN block carries its bytes, wherever they lie, and the damaged word among them (19 R323; 25 R398). -/
theorem ownBeat_eq (hr : s.ring job ring = some r) (off : Nat) (data : List Byte) :
    ∃ hurt, s.ownBeat job ring off = s.beat job ring 0 off (beatBytes s r 0 off data) hurt :=
  ⟨_, State.withRing_of_ring hr _⟩

theorem exec_rillBeat {step off : Nat} {data : List Byte} {bad : Option Word} (he : s.ev = some (.rillBeat job ring step off data bad)) :
    exec .rillBeat s = .next (if s.ringless job then s else if step = 0 then s.ownBeat job ring off else s.beat job ring step off data bad) := by
  show execRillBeat s = _
  unfold execRillBeat
  split
  · next h =>
    cases he.symm.trans h
    rfl
  · next h => exact nomatch he.symm.trans h
  · next h _ => exact (h _ _ _ _ _ _ he).elim

theorem beats_arrive {step off : Nat} {data : List Byte} {bad : Option Word} (he : s.ev = some (.rillBeat job ring step off data bad)) :
    (s.ringless job = true → exec .rillBeat s = .next s) ∧
      (s.ringless job = false → step ≠ 0 → s.ring job ring = none → exec .rillBeat s = .next s.countClosed) ∧
      (∀ r p m, s.ringless job = false → s.ring job ring = some r → r.broken = false → r.members = [p] → s.member p.1 p.2 = some m →
        (tget r.slots (step % r.s) .init = .await step ∨ ∃ ro, tget r.slots (step % r.s) .init = .held step ro) →
        ∃ t at_ b, exec .rillBeat s = .next t ∧ KeepsMemory s t ∧ t.slots = s.slots ∧ (step ≠ 0 → b = bad) ∧
          (at_, Ev.rillLand (ownerRill (s.fresh + 1)) p.1 p.2 m.gang step off (beatBytes s r step off data) b) ∈ t.agenda) := by
  rw [exec_rillBeat he]
  refine ⟨fun h => by rw [if_pos h], fun h h0 hr => ?_, fun r p m h hr hb hp hm hslot => ?_⟩
  · rw [if_neg (by simp [h]), if_neg h0, State.beat, hr]
  · rw [if_neg (by simp [h])]
    by_cases h0 : step = 0
    · subst h0
      obtain ⟨hurt, hown⟩ := ownBeat_eq hr off data
      obtain ⟨at_, hk, hs, hdue⟩ := beat_reaches hr hb hp hm hslot off (beatBytes s r 0 off data) hurt
      rw [if_pos rfl, hown]
      exact ⟨_, at_, hurt, rfl, hk, hs, fun h => absurd rfl h, hdue⟩
    · rw [if_neg h0]
      obtain ⟨at_, hk, hs, hdue⟩ := beat_reaches hr hb hp hm hslot off data bad
      refine ⟨_, at_, bad, rfl, hk, hs, fun _ => rfl, ?_⟩
      rw [beatBytes, if_neg h0]
      exact hdue

/-- What a member has of a step once a beat of it has landed. -/
theorem land_has (m : Member) (r : Ring) (step off : Nat) (bad : Option Word) :
    off / 64 ∈ tget (m.land r step off bad).landed step [] ∧ (m.land r step off bad).oldest = m.oldest ∧ (m.land r step off bad).buf = m.buf ∧
      (m.land r step off bad).gang = m.gang := by
  refine ⟨?_, rfl, rfl, rfl⟩
  show off / 64 ∈ tget (tset m.landed step (natInsert (tget m.landed step []) (off / 64))) step []
  rw [tget_tset_same]
  exact mem_natInsert.2 (.inl rfl)

/-- A beat lands: its bytes stand in the member's buffer (21 R341). -/
theorem landIn_lands {core i : Nat} {m : Member} (hm : s.member core i = some m) (hr : s.ring m.job m.ring = some r) (hin : (core, i) ∈ r.members)
    (hq : (s.cluster (clusterOf core)).attnQ = []) (step off : Nat) (data : List Byte) (bad : Option Word) :
    let t := (s.landIn r (core, i) m step off data bad).ringSettle m.job m.ring
    t.mem = memPut s.mem (blockAt (core, i) m r step + off) data ∧ t.member core i = some (m.land r step off bad) ∧ t.slots = s.slots ∧ t.fe = s.fe := by
  intro t
  let pa := localBase core + m.buf + step % r.s * r.block + off
  obtain ⟨r1, hland, hkey, hmembers⟩ : ∃ r1 : Ring, s.landIn r (core, i) m step off data bad =
      (let u := ((s.setMember core i (m.land r step off bad)).setRing r1).markLocal pa data.length
       { u with mem := memPut u.mem pa data, bad := u.bad.filter (fun w => decide (w + 8 ≤ pa ∨ pa + data.length ≤ w)) }) ∧
      (r1.job = r.job ∧ r1.ring = r.ring) ∧ r1.members = r.members := by
    unfold State.landIn
    dsimp only
    split
    all_goals
      refine ⟨_, State.attnPassed_of_empty _ _ _ _ _ _ ?_, ⟨rfl, rfl⟩, rfl⟩
      rw [State.cluster, State.clusters_markLocal]
      exact hq
  have hlocal (u : State) : ∃ l, u.markLocal pa data.length = { u with used := l } := by
    unfold State.markLocal
    split
    · exact ⟨u.used, rfl⟩
    · exact ⟨_, rfl⟩
  obtain ⟨l, hl⟩ := hlocal ((s.setMember core i (m.land r step off bad)).setRing r1)
  rw [hl] at hland
  have hring : (s.landIn r (core, i) m step off data bad).ring m.job m.ring = some r1 := by
    rw [hland]
    exact State.ring_setRing (s := s.setMember core i (m.land r step off bad)) hr hkey.1 hkey.2
  have hmoved := State.ringSettle_moves hring (by rw [hmembers]; exact List.ne_nil_of_mem hin)
  refine ⟨hmoved.mem.trans (by rw [hland]; rfl), (hmoved.member _ _).trans ?_, hmoved.strands.trans (by rw [hland]; rfl), hmoved.fe.trans (by rw [hland]; rfl)⟩
  rw [hland]
  exact State.member_setMember s core i _

section
variable {owner core i g step off : Nat} {data : List Byte} {bad : Option Word}

theorem exec_rillLand (he : s.ev = some (.rillLand owner core i g step off data bad)) : exec .rillBeat s =
    match if (s.member core i).any fun m => m.gang == g then s.memberRing core i else none, s.claimEnds core owner with
    | some _, some t => .next (s.schedule t (.rillLand owner core i g step off data bad))
    | some (m, r), none => .next (if r.broken then s else (s.landIn r (core, i) m step off data bad).ringSettle m.job m.ring)
    | none, _ => .next (s.landMoved core i g step off data bad) := by
  show execRillBeat s = _
  unfold execRillBeat
  split
  · next h => exact nomatch he.symm.trans h
  · next h =>
    cases he.symm.trans h
    rfl
  · next h => exact (h _ _ _ _ _ _ _ _ he).elim

theorem beats_land (he : s.ev = some (.rillLand owner core i g step off data bad)) :
    ((∀ m, s.member core i = some m → m.gang ≠ g) → exec .rillBeat s = .next (s.landMoved core i g step off data bad)) ∧
      (∀ m r, s.member core i = some m → m.gang = g → s.ring m.job m.ring = some r → (core, i) ∈ r.members →
        (∀ at_, s.claimEnds core owner = some at_ → exec .rillBeat s = .next (s.schedule at_ (.rillLand owner core i g step off data bad))) ∧
        (s.claimEnds core owner = none → r.broken = true → exec .rillBeat s = .next s) ∧
        (s.claimEnds core owner = none → r.broken = false → (s.cluster (clusterOf core)).attnQ = [] →
          ∃ t n, exec .rillBeat s = .next t ∧ t.mem = memPut s.mem (blockAt (core, i) m r step + off) data ∧ t.member core i = some n ∧
            off / 64 ∈ tget n.landed step [] ∧ n.oldest = m.oldest ∧ n.buf = m.buf ∧ n.gang = m.gang ∧ t.slots = s.slots ∧ t.fe = s.fe)) := by
  rw [exec_rillLand he]
  refine ⟨fun h => ?_, fun m r hm hg hr hin => ?_⟩
  · have hgone : ((s.member core i).any fun m => m.gang == g) = false := by
      cases hm : s.member core i with
      | none => rfl
      | some m => simpa using h m hm
    rw [hgone]
    rfl
  · have hthere : (if (s.member core i).any fun m => m.gang == g then s.memberRing core i else none) = some (m, r) := by
      rw [if_pos (by rw [hm]; simp [hg]), State.memberRing, hm]
      show (s.ring m.job m.ring).map _ = _
      rw [hr]
      rfl
    rw [hthere]
    refine ⟨fun at_ hc => by rw [hc], fun hc hb => by rw [hc]; simp [hb], fun hc hb hq => ?_⟩
    rw [hc]
    dsimp only
    rw [if_neg (by simp [hb])]
    obtain ⟨hmem, hmember, hslots, hfe⟩ := landIn_lands hm hr hin hq step off data bad
    obtain ⟨hhas, hold, hbuf, hgang⟩ := land_has m r step off bad
    exact ⟨_, _, rfl, hmem, hmember, hhas, hold, hbuf, hgang, hslots, hfe⟩

end

/-! ## Read-outs and breaks (21 R339, R346) -/

/-- A ring's part after the read-out of a step (21 R339). -/
def readOutPart (r : Ring) (step : Nat) : Ring :=
  { r with
    slots := match tget r.slots (step % r.s) .init with
      | .held t _ => if t = step then tset r.slots (step % r.s) (.held t true) else r.slots
      | _ => r.slots
    readOut := step + 1 }

theorem readOut_sends {step succ : Nat} {p : Nat × Nat} {m : Member} (he : s.ev = some (.readOut job ring step)) (hr : s.ring job ring = some r)
    (hb : r.broken = false) (hp : r.members.find? (fun p => ((s.member p.1 p.2).map (·.lead)).getD false) = some p) (hm : s.member p.1 p.2 = some m)
    (hsucc : r.linkSucc = some succ) :
    ∃ t q, exec .readOut s = .next t ∧ t.ring job ring = some q ∧ q.readOut = step + 1 ∧ t.mem = s.mem ∧ t.slots = s.slots ∧
        Out.rillBeats succ job ring (step + 1) (memBytes s.mem (blockAt p m r step) r.block) (((m.uncorr.find? fun e => e.1 == step).map (·.2)).or
          (if s.damagedLocal (blockAt p m r step) r.block then some 0 else none)) ∈ t.out := by
  let o : Out := .rillBeats succ job ring (step + 1) (memBytes s.mem (blockAt p m r step) r.block) (((m.uncorr.find? fun e => e.1 == step).map (·.2)).or
    (if s.damagedLocal (blockAt p m r step) r.block then some 0 else none))
  have hexec : exec .readOut s = .next (((s.setRing (readOutPart r step)).send o).ringSettle job ring) := by
    show execReadOut s = _
    unfold execReadOut readOutPart
    split
    · next h =>
      cases he.symm.trans h
      rw [hr]
      dsimp only
      rw [if_neg (by simp [hb]), hp, hsucc]
      dsimp only
      rw [hm]
      rfl
    · next h => exact (h _ _ _ he).elim
  have hring : ((s.setRing (readOutPart r step)).send o).ring job ring = some (readOutPart r step) := State.ring_setRing (s := s) hr rfl rfl
  have hmoved := State.ringSettle_moves hring (show r.members ≠ [] from List.ne_nil_of_mem (List.mem_of_find?_eq_some hp))
  obtain ⟨l, hl⟩ := hmoved.slots
  exact ⟨_, _, hexec, hl, rfl, hmoved.mem, hmoved.strands, hmoved.out _ (State.mem_out_send _ _)⟩

theorem break_ends (he : s.ev = some (.ringBreak job ring)) :
    (s.ring job ring = none → exec .ringBreak s = .next s) ∧
      (∀ r, s.ring job ring = some r →
        (r.breakAt = none → exec .ringBreak s = .next ((s.setRing { r with breakAt := some s.cycleEnd }).schedule s.cycleEnd (.ringBreak job ring))) ∧
        (∀ d, r.breakAt = some d → s.now < d → exec .ringBreak s = .next s) ∧
        (∀ d, r.breakAt = some d → d ≤ s.now → NoAttention s r → ∃ t, exec .ringBreak s = .next t ∧ t = { s with rings := t.rings } ∧
          t.ring job ring = some { r with broken := true, tokens := [] })) := by
  have hexec : exec .ringBreak s = .next (s.withRing job ring fun r =>
      match r.breakAt with
      | none => (s.setRing { r with breakAt := some s.cycleEnd }).schedule s.cycleEnd (.ringBreak job ring)
      | some t => if s.now < t then s else (s.setRing { r with broken := true, tokens := [] }).attnWake r) := by
    show execRingBreak s = _
    unfold execRingBreak
    split
    · next h =>
      cases he.symm.trans h
      rfl
    · next h => exact (h _ _ he).elim
  rw [hexec]
  refine ⟨fun h => congrArg _ (State.withRing_of_none h _), fun r hr => ?_⟩
  rw [State.withRing_of_ring hr]
  have hdue (d : Nat) (h : r.breakAt = some d) : (match r.breakAt with
      | none => (s.setRing { r with breakAt := some s.cycleEnd }).schedule s.cycleEnd (.ringBreak job ring)
      | some t => if s.now < t then s else (s.setRing { r with broken := true, tokens := [] }).attnWake r) =
      if s.now < d then s else (s.setRing { r with broken := true, tokens := [] }).attnWake r := by
    split
    · next h' => exact nomatch h.symm.trans h'
    · next t h' =>
      cases h.symm.trans h'
      rfl
  refine ⟨fun h => by rw [h], fun d h hd => ?_, fun d h hd hq => ?_⟩
  · rw [hdue d h, if_pos hd]
  · rw [hdue d h, if_neg (Nat.not_lt.2 hd), State.attnWake_of_empty (s := s.setRing { r with broken := true, tokens := [] }) hq]
    exact ⟨_, rfl, rfl, State.ring_setRing hr rfl rfl⟩

end

/-- Settles O47. -/
theorem ringTraffic : Obligations.RingTraffic := by
  refine fun s job ring => ⟨fun a he hj hr => ?_, fun _ he => token_admits he, fun _ _ _ _ he => beats_arrive he, fun _ _ _ _ _ _ _ _ he => beats_land he,
    fun _ _ _ _ _ he hr hb hp hm hsucc => readOut_sends he hr hb hp hm hsucc, break_ends⟩
  subst hj
  subst hr
  exact announcement_links he

end Sys2Proof.Claims
end

section
/-! RJOIN, RWAIT, RSEND, RREL and RLEAVE (19 R321 to R327). -/

namespace Sys2Proof.Claims

open Sys2Proof.Machine

section
variable {s u : State} {d a b : BitVec 7} {st : BitVec 2} {m : Member} {r : Ring}

/-- The checks of a membership index pass (19 R321). -/
theorem MemberAt.withMember {x : Word} (h : MemberAt s x m r) (k : Nat → Member → Ring → State) : s.withMember x k = k x.toNat m r := by
  obtain ⟨hx, hm, hg, hr⟩ := h
  rw [State.withMember, if_neg (by omega), hm]
  dsimp only
  rw [if_neg (by simp [hg]), hr]

/-! ## Joining (19 R323) -/

theorem State.me_block (s : State) (c : Cond) : (s.block c).me = { s.me with wait := .cond c, nextTick := s.now + 1, issuedAt := some s.base } := State.me_setMe _ _

/-- A membership taken in a ring of which this module holds nothing yet. -/
theorem joinRing_first {q : RingDesc} (hr : u.ring u.myGang.job q.ring = none) (hn : q.ncl ≠ 1) (own : List (Nat × Nat)) (i : Nat) :
    let m : Member := { gang := u.me.gang, job := u.myGang.job, ring := q.ring, lead := q.lead, buf := q.buf % 2 ^ 21 }
    u.joinRing q own i = { (u.setMember u.coreId i m).block .ringJoined with
      rings := u.rings ++ [{ job := u.myGang.job, ring := q.ring, k := q.k, pos := q.pos, s := q.s, bsz := q.bsz, ncl := q.ncl, own := q.own,
                             members := [(u.coreId, i)], joining := [(u.cur, q.lead, i)], ownPa := own }] } := by
  intro m
  have hr' : ((u.setMember u.coreId i m).block .ringJoined).ring u.myGang.job q.ring = none := hr
  unfold State.joinRing
  dsimp only
  rw [hr, hr']
  exact if_neg fun h => hn h.1.symm

theorem rjoin_joins {ws : List Word} {i : Nat} {own : List (Nat × Nat)} (h : Settled s [d, a]) (hj : ∀ r ∈ s.rings, ∀ w ∈ r.joining, w.1 ≠ s.cur)
    (hu : s.me.unacked = []) (ho : Operand s (s.rx a) ws u) (hc : u.myGang.confined = false) (hbad : (ringDesc ws).bad u.coreId = false)
    (hr : u.ring u.myGang.job (ringDesc ws).ring = none) (hown : u.ownBlock (ringDesc ws).own (ringDesc ws).block = .ok own)
    (hi : (List.range 4).find? (fun i => (u.member u.coreId i).isNone) = some i) :
    exec (.rjoin d a st) s = .next (u.joinRing (ringDesc ws) own i) := by
  have hnone : s.rings.find? (fun r => r.joining.any fun w => w.1 == s.cur) = none := by
    refine List.find?_eq_none.2 fun r hr h => ?_
    obtain ⟨w, hw, he⟩ := List.any_eq_true.1 h
    exact hj r hr w hw (by simpa using he)
  have hjoin : s.rjoin d a st = u.joinRing (ringDesc ws) own i := by
    rw [State.rjoin, ho.operand64]
    dsimp only
    rw [hr, if_neg (by simp [hc]), if_neg (by simp [hbad]), if_neg (by simp), hown]
    dsimp only
    rw [if_neg (by simp), hi]
  refine congrArg Host.Outcome.next ((h.guarded _).trans ?_)
  rw [hnone]
  exact (released_of_acked _ hu).trans hjoin

theorem rjoin_answers {w : Nat × Bool × Nat} (h : Settled s [d, a]) (hr : s.rings.find? (fun q => q.joining.any fun w => w.1 == s.cur) = some r)
    (hc : r.complete = true) (hw : r.joining.find? (fun w => w.1 == s.cur) = some w) :
    ∃ t, exec (.rjoin d a st) s = .next t ∧ Answers s t d (BitVec.ofNat 64 w.2.2) st := by
  refine ⟨_, congrArg Host.Outcome.next ((h.guarded _).trans ?_),
    SameStrand.answers (u := s.setRing { r with joining := r.joining.filter fun w => w.1 != s.cur }) ⟨rfl, rfl, rfl, rfl, rfl⟩ (h.regOk (by simp)) _ st⟩
  rw [hr]
  dsimp only
  rw [if_pos hc, hw]
  rfl

/-! ## Memberships (19 R324 to R327) -/

theorem rwait_answers (h : Settled s [d, a, b]) (hm : MemberAt s (s.rx a) m r) (hout : m.outside r (s.rx b).toNat = false)
    (htrap : s.stepTrap (s.rx a).toNat m r (s.rx b).toNat = none) (hhas : m.has r (s.rx b).toNat (s.rx d).toNat = true) :
    ∃ t, exec (.rwait d a b st) s = .next t ∧ Answers s t d (BitVec.ofNat 64 (m.pointer r.block (s.rx b).toNat)) st ∧ KeepsSlots s t ∧ KeepsCores s t := by
  have haside := acquire_aside s s.coreId
  have hstore := acquire_keepsStore s s.coreId
  have hsame : SameStrand s (s.acquire s.coreId) := ⟨haside.me, haside.cur, haside.now, hstore.mem, hstore.fe⟩
  have honly := OnlyMe.result (s.acquire s.coreId) d (BitVec.ofNat 64 (m.pointer r.block (s.rx b).toNat)) st
  refine ⟨_, congrArg Host.Outcome.next ((h.guarded _).trans ((hm.withMember _).trans ?_)), hsame.answers (h.regOk (by simp)) _ st, fun id hid => ?_, ?_⟩
  · dsimp only
    rw [if_neg (by simp [hout]), htrap]
    exact if_pos hhas
  · rw [honly.2 id (haside.cur.symm ▸ hid), haside.slot]
  · exact haside.cores.trans (.of_cores (by rw [honly.1]))

theorem rsend_sends (h : Settled s [d, a, b]) (hm : MemberAt s (s.rx a) m r) (hlead : m.lead = true) (hk : (s.rx b).toNat + 1 < r.k)
    (hsent : (s.rx b).toNat = r.sent) (hconf : r.conflict = false) (hu : s.me.unacked = []) (harr : m.arrived r.block (s.rx b).toNat = true)
    (htok : (s.rx b).toNat + 1 ∈ r.tokens) :
    ∃ t, exec (.rsend d a b st) s = .next t ∧ Answers s t d (BitVec.ofNat 64 ((s.rx b).toNat + 1)) st ∧
        (s.now, Ev.readOut m.job m.ring (s.rx b).toNat) ∈ t.agenda ∧ ∃ q, t.ring m.job m.ring = some q ∧ q.sent = r.sent + 1 := by
  let q : Ring := { r with sent := (s.rx b).toNat + 1, tokens := r.tokens.filter (· != (s.rx b).toNat + 1) }
  let t := ((s.setRing q).result d (BitVec.ofNat 64 ((s.rx b).toNat + 1)) st).soon (.readOut m.job m.ring (s.rx b).toNat)
  have hexec : exec (.rsend d a b st) s = .next t := by
    refine congrArg Host.Outcome.next ((h.guarded _).trans ((hm.withMember _).trans ?_))
    dsimp only
    rw [if_neg (by simp [hlead, ← hsent]; omega), if_neg (by simp [hconf]), if_neg (by simp [harr]), if_pos (by simpa using htok)]
    exact released_of_acked _ hu
  refine ⟨t, hexec, ?_, State.due_soon _ _, q, State.ring_setRing (s := s) hm.2.2.2 rfl rfl, by rw [← hsent]⟩
  exact SameStrand.answers (u := s.setRing q) ⟨rfl, rfl, rfl, rfl, rfl⟩ (h.regOk (by simp)) _ st

/-- A ring looked through by its unit leaves the strands and what they see, whatever becomes of the ring. -/
theorem ringSettle_leaves (s : State) (job ring : Nat) : SameStrand s (s.ringSettle job ring) ∧ (s.ringSettle job ring).slots = s.slots ∧
    (s.ringSettle job ring).cores = s.cores := by
  cases hr : s.ring job ring with
  | none =>
    rw [State.ringSettle, State.withRing_of_none hr]
    exact ⟨.rfl, rfl, rfl⟩
  | some r =>
    by_cases hm : r.members = []
    · rw [State.ringSettle, State.withRing_of_ring hr, if_pos hm]
      exact ⟨⟨rfl, rfl, rfl, rfl, rfl⟩, rfl, rfl⟩
    · have hmoved := State.ringSettle_moves hr hm
      exact ⟨⟨by rw [hmoved.same]; rfl, by rw [hmoved.same], by rw [hmoved.same], hmoved.mem, hmoved.fe⟩, hmoved.strands, hmoved.cores⟩

theorem rrel_releases (h : Settled s [a, b]) (hm : MemberAt s (s.rx a) m r) (hb : (s.rx b).toNat = m.oldest) (hk : m.oldest < r.k)
    (harr : m.arrived r.block m.oldest = true) (hu : s.me.unacked = []) :
    ∃ t, exec (.rrel a b st) s = .next t ∧ GoesOn s t (s.me.pc + 4) st ∧ KeepsRegs s t ∧ KeepsMemory s t ∧
        t.member s.coreId (s.rx a).toNat = some { m with oldest := m.oldest + 1 } := by
  let v := s.setMember s.coreId (s.rx a).toNat { m with oldest := m.oldest + 1 }
  have hexec : exec (.rrel a b st) s = .next ((v.ringSettle m.job m.ring).retire 4 st) := by
    refine congrArg Host.Outcome.next ((h.guarded _).trans ((hm.withMember _).trans ?_))
    rw [if_neg (by simp [hb]; omega), if_neg (by simp [harr])]
    exact released_of_acked _ hu
  obtain ⟨hsame, hslots, hcores⟩ := ringSettle_leaves v m.job m.ring
  have hs : SameStrand s (v.ringSettle m.job m.ring) := ⟨hsame.me, hsame.cur, hsame.now, hsame.mem, hsame.fe⟩
  have hpast := hs.goesPast (hslots.trans rfl) 4 st
  refine ⟨_, hexec, hpast.goesOn, hpast.regs, hpast.memory, ?_⟩
  have hmember : ((v.ringSettle m.job m.ring).retire 4 st).member s.coreId (s.rx a).toNat = v.member s.coreId (s.rx a).toNat := by
    show (((tget (v.ringSettle m.job m.ring).cores _ {}).members.find? _).map _) = _
    rw [hcores]
    rfl
  rw [hmember]
  exact State.member_setMember _ _ _ _

/-- A membership that ends is of its core no more, and the strands go on as they were (19 R327). -/
theorem endMember_leaves (s : State) (c i : Nat) (quiet : Bool) : SameStrand s (s.endMember c i quiet) ∧ (s.endMember c i quiet).slots = s.slots ∧
    (s.endMember c i quiet).member c i = none := by
  unfold State.endMember
  split
  · next hm => exact ⟨.rfl, rfl, hm⟩
  · next m _ =>
    generalize hu : s.setCore c { s.core c with members := (s.core c).members.filter (fun e => e.1 != i) } = u
    have hgone : u.member c i = none := by
      rw [← hu, State.member, State.core_setCore]
      simp [List.find?_eq_none]
    have hsame : SameStrand s u ∧ u.slots = s.slots := by
      rw [← hu]
      exact ⟨⟨rfl, rfl, rfl, rfl, rfl⟩, rfl⟩
    obtain ⟨hs, hslots⟩ := hsame
    cases hr : u.ring m.job m.ring with
    | none =>
      rw [State.withRing_of_none hr]
      exact ⟨hs, hslots, hgone⟩
    | some r =>
      rw [State.withRing_of_ring hr]
      dsimp only
      generalize hv : (if (m.lead && !quiet && !r.broken && decide (r.readOut < r.k - 1)) = true then _ else _ : State) = v
      have hv' : SameStrand u v ∧ v.slots = u.slots ∧ v.cores = u.cores := by
        rw [← hv]
        split <;> exact ⟨⟨rfl, rfl, rfl, rfl, rfl⟩, rfl, rfl⟩
      obtain ⟨hs', hslots', hcores'⟩ := hv'
      obtain ⟨hs'', hslots'', hcores''⟩ := ringSettle_leaves v m.job m.ring
      refine ⟨⟨hs''.me.trans (hs'.me.trans hs.me), hs''.cur.trans (hs'.cur.trans hs.cur), hs''.now.trans (hs'.now.trans hs.now),
        hs''.mem.trans (hs'.mem.trans hs.mem), hs''.fe.trans (hs'.fe.trans hs.fe)⟩, hslots''.trans (hslots'.trans hslots), ?_⟩
      rw [← hgone, State.member, State.member, State.core, State.core, hcores'', hcores']

theorem rleave_leaves (h : Settled s [a]) (hm : MemberAt s (s.rx a) m r) (hlead : m.lead = true → r.broken = true ∨ r.k ≤ r.sent + 1) (hu : s.me.unacked = []) :
    ∃ t, exec (.rleave a st) s = .next t ∧ GoesOn s t (s.me.pc + 4) st ∧ KeepsRegs s t ∧ KeepsMemory s t ∧ t.member s.coreId (s.rx a).toNat = none := by
  have hexec : exec (.rleave a st) s = .next ((s.endMember s.coreId (s.rx a).toNat false).retire 4 st) := by
    refine congrArg Host.Outcome.next ((h.guarded _).trans ((hm.withMember _).trans ?_))
    rw [if_neg ?_]
    · exact released_of_acked _ hu
    · simp only [Bool.and_eq_true, Bool.not_eq_true', decide_eq_true_eq]
      rintro ⟨⟨hl, hb⟩, hk⟩
      obtain h | h := hlead hl
      · rw [h] at hb
        cases hb
      · omega
  obtain ⟨hs, hslots, hgone⟩ := endMember_leaves s s.coreId (s.rx a).toNat false
  have hpast := hs.goesPast hslots 4 st
  exact ⟨_, hexec, hpast.goesOn, hpast.regs, hpast.memory, hgone⟩

end

/-- Settles O31. -/
theorem rillInstructions : Obligations.RillInstructions := by
  refine fun s d a b st => ⟨fun ws u i own h hj hu ho hrings hc hbad hr hown hn hi => ?_, fun r w h hr hc hw => rjoin_answers h hr hc hw,
    fun m r h hm hout htrap hhas => rwait_answers h hm hout htrap hhas, fun m r h hm hlead hk hsent hconf hu harr htok => rsend_sends h hm hlead hk hsent hconf hu harr htok,
    fun m r h hm hb hk harr hu => rrel_releases h hm hb hk harr hu, fun m r h hm hlead hu => rleave_leaves h hm hlead hu⟩
  have hexec := rjoin_joins (st := st) h hj hu ho hc hbad hr hown hi
  rw [joinRing_first hr hn] at hexec
  refine ⟨_, hexec, ?_, ?_, rfl, ?_, _, List.mem_append_right _ (List.mem_singleton_self _), rfl, rfl, rfl⟩
  · exact congrArg Slot.wait (State.me_block (u.setMember u.coreId i _) .ringJoined)
  · exact (congrArg Slot.pc (State.me_block (u.setMember u.coreId i _) .ringJoined)).trans rfl
  · exact State.member_setMember u u.coreId i _

end Sys2Proof.Claims
end

section
/-! Requests of other modules: at a port of local memory (07 R141; 22 R353), and at a home (22 R355, R356). -/

namespace Sys2Proof.Claims

open Sys2Proof.Machine

section
variable {s : State} {r : Request} {m j k : Nat}

/-- The refusal of a request of another module goes back over the fabric. -/
theorem refuse_remote (ho : r.origin = .remote m j k) : s.refuse r .prot =
    s.send (.reply m j k { refusal := some Cause.prot.code, addr := r.va, posted := r.op.isStore, tag := r.tag }) := by
  rw [State.refuse, ho]
  rfl

/-- What a refusal leaves, and that it has been sent. -/
theorem refused_remote (ho : r.origin = .remote m j k) : KeepsMemory s (s.refuse r .prot) ∧ (s.refuse r .prot).slots = s.slots ∧
    Out.reply m j k { refusal := some Cause.prot.code, addr := r.va, posted := r.op.isStore, tag := r.tag } ∈ (s.refuse r .prot).out := by
  rw [refuse_remote ho]
  exact ⟨⟨rfl, rfl⟩, rfl, State.mem_out_send s _⟩

/-! ## At a port -/

theorem exec_portAccess (he : s.ev = some (.portAccess r)) : exec .portAccess s =
    match s.portPlace r with
    | .error (c, l) => .next (s.refuse r c l)
    | .ok (pa, c) =>
      if !s.inTenant (s.job r.job).tenant c then .next ((s.countDrop c).refuse r .prot)
      else if r.turn = 0 then
        let n := s.fresh + 1
        let u := { s with fresh := n }.portClaim c pa n
        .next (u.schedule ((u.claimEnds c (ownerPort n)).getD s.now) (.portAccess { r with turn := n }))
      else match s.claimEnds c (ownerPort r.turn) with
        | some t => .next (s.schedule t (.portAccess r))
        | none => .next (s.portService r pa c) := by
  show execPortAccess s = _
  unfold execPortAccess
  split
  · next h =>
    cases he.symm.trans h
    rfl
  · next h => exact (h _ he).elim

/-- A request that maps to local memory is for that core's port, unless it writes an inbox. -/
theorem portPlace_window {pa c : Nat} (hpa : r.pa = none) (hm : MapsTo s r r.op.access (.window pa c)) :
    s.portPlace r = if r.op.isStore && s.inInbox pa then .error (.prot, 0) else .ok (pa, c) := by
  obtain ⟨leaf, level, hw, hp⟩ := hm
  rw [State.portPlace, hpa]
  dsimp only
  rw [hw]
  dsimp only
  rw [hp]

/-- A load at a port is answered with local memory's bytes. -/
theorem portService_load {n pa c : Nat} (ho : r.origin = .remote m j k) (hop : r.op = .load n) (hd : s.damagedLocal pa n = false) :
    s.portService r pa c = s.send (.reply m j k { vals := toWords (memRead s.mem pa n) ((n + 7) / 8), addr := r.va, tag := r.tag }) := by
  rw [State.portService, hop]
  dsimp only
  rw [if_neg (by simp [hd]), ho]
  rfl

/-- A store at a port writes local memory's bytes. -/
theorem portService_store {n pa c : Nat} (ho : r.origin = .remote m j k) (hop : r.op = .store n) (hn : n ≤ 8) :
    s.portService r pa c = (s.localWrite pa r.data.toNat n).send (.reply m j k { addr := r.va, posted := true, tag := r.tag }) := by
  rw [State.portService, hop, ho]
  dsimp only
  rw [if_pos hn]
  rfl

theorem localWrite_leaves (s : State) (pa v n : Nat) : (s.localWrite pa v n).fe = s.fe ∧ (s.localWrite pa v n).slots = s.slots ∧
    (s.localWrite pa v n).cores = s.cores := by
  unfold State.localWrite State.markLocal
  split <;> exact ⟨rfl, rfl, rfl⟩

/-- The place at the bank that a request takes, and that it comes again when it holds it. -/
theorem portTurn_leaves (s : State) (c pa t : Nat) (r : Request) :
    let u := ({ s with fresh := s.fresh + 1 } : State).portClaim c pa (s.fresh + 1)
    KeepsMemory s (u.schedule t (.portAccess { r with turn := s.fresh + 1 })) ∧ (u.schedule t (.portAccess { r with turn := s.fresh + 1 })).slots = s.slots ∧
      KeepsCores s (u.schedule t (.portAccess { r with turn := s.fresh + 1 })) ∧
      (u.schedule t (.portAccess { r with turn := s.fresh + 1 })).fresh = s.fresh + 1 := by
  intro u
  have haside := claim_aside ({ s with fresh := s.fresh + 1 } : State) c
    { bank := bankOf pa, cycle := ({ s with fresh := s.fresh + 1 } : State).cycleFrom c, rank := rankPort, owner := ownerPort (s.fresh + 1) }
  exact ⟨⟨rfl, rfl⟩, rfl, haside.cores, rfl⟩

/-! ## At a home -/

theorem exec_homeRequest (he : s.ev = some (.homeRequest r)) (hpa : r.pa = none) : exec .homeRequest s = .next (s.serveFabric r) := by
  show execHomeRequest s = _
  unfold execHomeRequest
  split
  · next h =>
    cases he.symm.trans h
    rw [hpa]
  · next h => exact nomatch he.symm.trans h
  · next h _ => exact (h _ he).elim

/-- Whether the sender belongs to the job's group. -/
theorem stranger_iff : (!((s.job r.job).group.any fun x => x.1 == m)) = true ↔ ¬ ∃ x ∈ (s.job r.job).group, x.1 = m := by
  rw [Bool.not_eq_true', ← Bool.not_eq_true, List.any_eq_true]
  exact not_congr (exists_congr fun x => and_congr_right fun _ => beq_iff_eq)

theorem serveFabric_stranger (ho : r.origin = .remote m j k) (hopen : (s.job r.job).isOpen = true) (hm : ¬ ∃ x ∈ (s.job r.job).group, x.1 = m) :
    s.serveFabric r = s := by
  rw [State.serveFabric, ho]
  dsimp only
  exact if_pos (Bool.and_eq_true_iff.2 ⟨hopen, stranger_iff.2 hm⟩)

theorem serveFabric_foreign (ho : r.origin = .remote m j k)
    (h : (s.job r.job).isOpen = false ∨ ((∃ x ∈ (s.job r.job).group, x.1 = m) ∧ (s.job r.job).tenant ≠ r.tenant)) :
    s.serveFabric r = (s.refuse r .prot).countDrop (homeRouter (homeOf (r.va.toNat % 2 ^ 48))) := by
  have hmember : ¬ ((s.job r.job).isOpen && !((s.job r.job).group.any fun x => x.1 == m)) = true := by
    obtain h | ⟨hm, -⟩ := h
    · simp [h]
    · rw [Bool.and_eq_true]
      exact fun hb => stranger_iff.1 hb.2 hm
  rw [State.serveFabric, ho]
  dsimp only
  rw [if_neg hmember, if_pos (h.imp_right And.right)]

/-- A member's request that maps to HBM stands before its home. -/
structure FabricRequest (s : State) (r : Request) (m j k pa : Nat) (table : Bool) : Prop where
  origin : r.origin = .remote m j k
  isOpen : (s.job r.job).isOpen = true
  member : ∃ x ∈ (s.job r.job).group, x.1 = m
  tenant : (s.job r.job).tenant = r.tenant
  maps : MapsTo s r r.op.access (.hbm pa table)

theorem FabricRequest.serveFabric {pa : Nat} {table : Bool} (h : FabricRequest s r m j k pa table) : s.serveFabric r =
    if table && r.op.writes then s.refuse r .prot
    else if r.op == .dred .acc && !r.late && s.drKind pa == some .f64 then s.answer (homeEnd (homeOf pa)) r.origin { more := true, addr := r.va }
    else
      match s.serve r.op pa r.data r.data2 r.acc none false with
      | .refused c => (if c = .uncorrectable then s.logHbm pa else s).refuse { r with va := s.refusedAt r.op pa c r.va } c
      | .done vals tw s0 =>
        let s1 := match r.op with
          | .drinit _ => s0.drMarkedBy pa r.job
          | _ => s0
        let s2 := s1.answer (homeEnd (homeOf pa)) r.origin { vals := vals, trapWriter := tw, addr := r.va, posted := r.op.isStore,
                                                             items := match r.op with
                                                               | .load n => s1.sideItems pa n
                                                               | _ => [] }
        if tw then s2.unpark (wordAddr pa) else s2
      | .wait => { s.bringIn pa with retries := s.retries ++ [{ addr := wordAddr pa, origin := r.origin, op := r.op, data := r.data, va := r.va }] } := by
  obtain ⟨ho, hopen, hm, ht, leaf, level, hw, hp⟩ := h
  have hmember : ¬ ((s.job r.job).isOpen && !((s.job r.job).group.any fun x => x.1 == m)) = true := by
    rw [Bool.and_eq_true]
    exact fun hb => stranger_iff.1 hb.2 hm
  rw [State.serveFabric, ho]
  dsimp only
  rw [if_neg hmember, if_neg (by rw [hopen, ht]; simp), hw]
  dsimp only
  rw [hp] <;> rfl

theorem fabricRequest_load {pa n : Nat} {table : Bool} (h : FabricRequest s r m j k pa table) (hop : r.op = .load n) (hn : n ≤ 8) (hr : s.homeRefusal r.op pa false = none) :
    ∃ t l, s.serveFabric r = t ∧ KeepsMemory s t ∧ t.slots = s.slots ∧
      Out.reply m j k { vals := [BitVec.ofNat 64 (memRead s.mem pa n)], addr := r.va, items := l } ∈ t.out := by
  obtain ⟨u, hserve, haside, hdone⟩ := serve_done (s := s) (op := .load n) (pa := pa) (data := r.data) (data2 := r.data2) (acc := r.acc) none
    (hop ▸ hr) rfl (.inl rfl)
  have hdata : s.homeData (.load n) pa r.data r.data2 r.acc = ([BitVec.ofNat 64 (memRead s.mem pa n)], s) := if_pos hn
  have hmem := hdone.mem
  rw [hdata] at hserve hmem
  refine ⟨_, u.sideItems pa n, ?_, ⟨?_, ?_⟩, ?_, State.mem_out_send u _⟩
  · rw [h.serveFabric, h.origin, hop, if_neg (by simp [MemOp.writes]), if_neg (by simp), hserve]
    rfl
  · exact hmem
  · exact hdone.fe rfl
  · exact haside.slots

theorem fabricRequest_store {pa n : Nat} (h : FabricRequest s r m j k pa false) (hop : r.op = .store n) (hn : n ≤ 8) (hr : s.homeRefusal r.op pa false = none) :
    ∃ t, s.serveFabric r = t ∧ t.mem = memWrite s.mem pa r.data.toNat n ∧ t.fe = s.fe ∧ t.slots = s.slots ∧
      Out.reply m j k { addr := r.va, posted := true } ∈ t.out := by
  obtain ⟨u, hserve, haside, hdone⟩ := serve_done (s := s) (op := .store n) (pa := pa) (data := r.data) (data2 := r.data2) (acc := r.acc) none
    (hop ▸ hr) rfl (.inl rfl)
  have hdata : s.homeData (.store n) pa r.data r.data2 r.acc = ([], s.hbmWrite pa r.data.toNat n) :=
    congrArg (fun v => ([], s.hbmWrite pa v n)) (if_pos hn)
  have hmem := hdone.mem
  rw [hdata] at hserve hmem
  refine ⟨_, ?_, ?_, ?_, ?_, State.mem_out_send u _⟩
  · rw [h.serveFabric, h.origin, hop, if_neg (by simp), if_neg (by simp), hserve]
    rfl
  · exact hmem.trans (State.mem_hbmWrite _ _ _ _)
  · exact hdone.fe rfl
  · exact haside.slots

/-- An access that the FE bit refuses is no reduction. -/
theorem not_dred_of_waits {op : MemOp} {full : Bool} (h : op.servable full = false) : (op == .dred .acc) = false := by
  rw [beq_eq_false_iff_ne]
  rintro rfl
  cases h

theorem fabricRequest_waits {pa : Nat} {table : Bool} (h : FabricRequest s r m j k pa table) (ht : table = true → r.op.writes = false)
    (hr : s.homeRefusal r.op pa false = none) (hs : r.op.servable (s.feBit pa) = false) :
    ∃ t, s.serveFabric r = t ∧ KeepsMemory s t ∧ t.slots = s.slots ∧
      t.retries = s.retries ++ [{ addr := wordAddr pa, origin := r.origin, op := r.op, data := r.data, va := r.va }] := by
  have hb := s.bringIn_sliceOnly pa
  have hsame := HomeSame.of_slice hb
  have hserve : s.serve r.op pa r.data r.data2 r.acc none false = .wait := by
    unfold State.serve
    simp only [hsame.homeRefusal, hr, hsame.feBit, hs, Bool.false_eq_true, if_false]
  refine ⟨{ s.bringIn pa with retries := s.retries ++ [{ addr := wordAddr pa, origin := r.origin, op := r.op, data := r.data, va := r.va }] }, ?_,
    ⟨hb.mem, hb.fe⟩, (Aside.of_slice hb).slots, rfl⟩
  have htable : ¬ (table && r.op.writes) = true := by
    cases table with
    | false => simp
    | true => simp [ht rfl]
  rw [h.serveFabric, if_neg htable, if_neg (by simp [not_dred_of_waits hs]), hserve]

theorem fabricRequest_tableWrite {pa : Nat} (h : FabricRequest s r m j k pa true) (hw : r.op.writes = true) : s.serveFabric r = s.refuse r .prot := by
  rw [h.serveFabric, if_pos (by simp [hw])]

end

/-- Settles O36. -/
theorem homesServeOtherModules : Obligations.HomesServeOtherModules := by
  refine fun s r m j k ho hpa => ⟨fun he => ⟨fun n pa c hop hm => ?_, fun n pa c hop hm hin => ?_⟩, fun he => ?_⟩
  · have hexec := exec_portAccess he
    have hplace : s.portPlace r = .ok (pa, c) := by
      rw [portPlace_window hpa hm]
      obtain h | ⟨-, h⟩ := hop
      · rw [h]
        rfl
      · rw [h, Bool.and_false]
        rfl
    rw [hplace] at hexec
    dsimp only at hexec
    refine ⟨fun ht => ?_, fun ht => ?_⟩
    · rw [ht] at hexec
      obtain ⟨hmem, hslots, hout⟩ := refused_remote (s := s.countDrop c) ho
      refine ⟨_, hexec, hmem, hslots, ?_, hout⟩
      rw [refuse_remote ho]
      exact tget_tset_same _ _ _ _
    · rw [if_neg (by simp [ht])] at hexec
      refine ⟨fun h0 => ?_, fun at_ h0 hends => ?_, fun h0 hends => ⟨fun hload hd => ?_, fun hstore hn => ?_⟩⟩
      · rw [if_pos h0] at hexec
        obtain ⟨hmem, hslots, hcores, hfresh⟩ := portTurn_leaves s c pa
          (((({ s with fresh := s.fresh + 1 } : State).portClaim c pa (s.fresh + 1)).claimEnds c (ownerPort (s.fresh + 1))).getD s.now) r
        exact ⟨_, _, hexec, hmem, hslots, hcores, hfresh, State.due_schedule _ _ _⟩
      · rw [if_neg h0, hends] at hexec
        exact hexec
      · rw [if_neg h0, hends, portService_load ho hload hd] at hexec
        exact ⟨_, hexec, ⟨rfl, rfl⟩, rfl, KeepsCores.of_cores rfl, State.mem_out_send s _⟩
      · rw [if_neg h0, hends, portService_store ho hstore hn] at hexec
        obtain ⟨hfe, hslots, hcores⟩ := localWrite_leaves s pa r.data.toNat n
        exact ⟨_, hexec, rfl, fun x hx => memByte_memWrite_other n s.mem pa _ x hx, hfe, hslots, KeepsCores.of_cores hcores, State.mem_out_send _ _⟩
  · have hplace : s.portPlace r = .error (.prot, 0) := by
      rw [portPlace_window hpa (by rw [hop]; exact hm), hop, hin]
      rfl
    have hexec := exec_portAccess he
    rw [hplace] at hexec
    obtain ⟨hmem, hslots, hout⟩ := refused_remote (s := s) ho
    rw [hop] at hout
    exact ⟨_, hexec, hmem, hslots, hout⟩
  · have hexec := exec_homeRequest he hpa
    refine ⟨fun hopen hm => hexec.trans (congrArg _ (serveFabric_stranger ho hopen hm)), fun h => ?_, fun hopen hm ht =>
      ⟨fun n pa tb hop hn hmap hr => ?_, fun n pa hop hn hmap hr => ?_, fun pa tb hmap htb hr hs => ?_, fun pa hmap hw => ?_⟩⟩
    · obtain ⟨hmem, hslots, hout⟩ := refused_remote (s := s) ho
      refine ⟨_, hexec.trans (congrArg _ (serveFabric_foreign ho h)), hmem, hslots, hout, ?_⟩
      rw [refuse_remote ho]
      exact tget_tset_same _ _ _ _
    · obtain ⟨t, l, hserve, hmem, hslots, hout⟩ := fabricRequest_load ⟨ho, hopen, hm, ht, by rw [hop]; exact hmap⟩ hop hn hr
      exact ⟨t, l, hexec.trans (congrArg _ hserve), hmem, hslots, hout⟩
    · obtain ⟨t, hserve, h⟩ := fabricRequest_store ⟨ho, hopen, hm, ht, by rw [hop]; exact hmap⟩ hop hn hr
      exact ⟨t, hexec.trans (congrArg _ hserve), h⟩
    · obtain ⟨t, hserve, h⟩ := fabricRequest_waits ⟨ho, hopen, hm, ht, hmap⟩ htb hr hs
      exact ⟨t, hexec.trans (congrArg _ hserve), h⟩
    · obtain ⟨hmem, hslots, hout⟩ := refused_remote (s := s) ho
      exact ⟨_, hexec.trans (congrArg _ (fabricRequest_tableWrite ⟨ho, hopen, hm, ht, hmap⟩ hw)), hmem, hslots, hout⟩

end Sys2Proof.Claims
end

section
/-! The two circuits of an abort and the restart (18 R317, R318, R418). -/

namespace Sys2Proof.Machine

section
variable {s t : State} {j : Nat}

/-! ## The mapping of a job (25 R392) -/

/-- What a translation for a job consults is the same, but that the job's group may have lost members. -/
structure MappingKept (s t : State) (j : Nat) : Prop where
  mem : t.mem = s.mem
  ready : t.ready = s.ready
  tenants : t.tenants = s.tenants
  tlb : ∀ c, (t.core c).tlb = (s.core c).tlb
  sharedTlb : ∀ cl, (t.cluster cl).tlb = (s.cluster cl).tlb
  self : (t.job j).self = (s.job j).self
  root : (t.job j).root = (s.job j).root
  tenant : (t.job j).tenant = (s.job j).tenant
  group : ∀ m, (t.job j).group.any (fun x => x.1 == m) = true → (s.job j).group.any (fun x => x.1 == m) = true

theorem MappingKept.leafPlace (h : MappingKept s t j) (va : Nat) (acc : Access) (leaf : Word) (level : Nat) (held : Bool) :
    t.leafPlace j va acc leaf level held = s.leafPlace j va acc leaf level held := by
  unfold State.leafPlace State.inTenant
  rw [h.ready, h.tenants, h.tenant]

theorem MappingKept.leafOf (h : MappingKept s t j) (c va : Nat) : t.leafOf c j va = s.leafOf c j va := by
  unfold State.leafOf
  rw [h.tlb, h.sharedTlb, h.mem, h.root]

/-- An address maps as before, or named a module that has left the group. -/
theorem MappingKept.translate (h : MappingKept s t j) (c : Nat) (va : Word) (acc : Access) :
    t.translate c j va acc = s.translate c j va acc ∨ t.translate c j va acc = .xlat 4 ∧ ∃ n, s.translate c j va acc = .remote n := by
  unfold State.translate State.translateBy Job.ordinary
  dsimp only
  simp only [h.tlb, h.sharedTlb, h.leafOf, h.leafPlace, h.self]
  generalize (if (s.job j).self ≠ 0 ∧ va.toNat / 2 ^ 48 = (s.job j).self then va.toNat % 2 ^ 48 else va.toNat) = a
  by_cases hm : a / 2 ^ 48 ≠ 0 ∧ a / 2 ^ 48 ≠ (s.job j).self
  · rw [if_pos hm, if_pos hm]
    by_cases ht : (t.job j).group.any (fun x => x.1 == a / 2 ^ 48) = true
    · rw [if_pos ht, if_pos (h.group _ ht)]
      exact .inl rfl
    · rw [if_neg ht]
      by_cases hs : (s.job j).group.any (fun x => x.1 == a / 2 ^ 48) = true
      · rw [if_pos hs]
        split_ifs
        · exact .inl rfl
        · exact .inl rfl
        · exact .inl rfl
        · exact .inr ⟨rfl, _, rfl⟩
      · rw [if_neg hs]
        exact .inl rfl
  · rw [if_neg hm, if_neg hm]
    exact .inl rfl

/-- A header that could not be read cannot be read where members have left. -/
theorem MappingKept.readHeader_error (h : MappingKept s t j) {c l : Nat} {va : Word} (he : s.readHeader c j va = .error l) :
    ∃ l', t.readHeader c j va = .error l' := by
  unfold State.readHeader at *
  obtain ht | ⟨ht, -⟩ := h.translate c va .read
  · rw [ht, h.mem]
    exact ⟨l, he⟩
  · rw [ht]
    exact ⟨4, rfl⟩

/-! ## What the parts of the second circuit leave -/

/-- Events due now, one after another: each is due, and nothing else changes. -/
theorem State.foldl_soon_due {α : Type} (e : α → Ev) (l : List α) (s : State) : ∃ a, l.foldl (fun (u : State) x => u.soon (e x)) s = { s with agenda := a } ∧
    (∀ x ∈ l, (s.now, e x) ∈ a) ∧ ∀ y ∈ s.agenda, y ∈ a := by
  induction l generalizing s with
  | nil => exact ⟨s.agenda, rfl, fun _ h => (List.not_mem_nil h).elim, fun _ h => h⟩
  | cons x l ih =>
    obtain ⟨a, ha, hl, hs⟩ := ih (s.soon (e x))
    exact ⟨a, ha, List.forall_mem_cons.2 ⟨hs _ (State.due_soon s _), hl⟩, fun y hy => hs y (State.mem_agenda_soon.2 (.inr hy))⟩

theorem State.setJob_setJob (s : State) (j : Nat) (v w : Job) : (s.setJob j v).setJob j w = s.setJob j w := by
  unfold State.setJob
  rw [tset_tset]

/-- Events due now, one after another, leave the rest of the state, whatever each takes from the state. -/
theorem State.foldl_soon_of {α : Type} (e : State → α → Ev) (l : List α) (s : State) : ∃ a, l.foldl (fun (u : State) x => u.soon (e u x)) s = { s with agenda := a } := by
  induction l generalizing s with
  | nil => exact ⟨_, rfl⟩
  | cons x l ih =>
    obtain ⟨a, ha⟩ := ih (s.soon (e s x))
    exact ⟨a, ha⟩

/-- A home that unwinds withdraws what it holds at or above the step, and leaves all else but what is due. -/
theorem State.unwindHome_eq (s : State) (j h a : Nat) : ∃ g, s.unwindHome j h a = { s with
    agenda := g
    held := s.held.filter fun x => !(x.job == j && x.home == h && decide (a ≤ x.vt))
    commits := s.commits.filter fun m => !(m.job == j && decide (a ≤ m.version))
    relWait := s.relWait.filter fun r => !(r.2.1 == j && r.1 == 1024 + h && !r.2.2.external && decide (a ≤ r.2.2.vt)) } := by
  unfold State.unwindHome
  dsimp only
  obtain ⟨g, hg⟩ := State.foldl_soon_of (fun u pa => Ev.versionRevocation pa a (tget u.tileRback pa 0))
    ((s.tileMarks.filter fun t => t.2 == j && homeOf t.1 == h).map (·.1)) s
  rw [hg]
  obtain ⟨g', hg'⟩ := State.retryCommits_agenda { s with
    agenda := g
    held := s.held.filter fun x => !(x.job == j && x.home == h && decide (a ≤ x.vt))
    commits := s.commits.filter fun m => !(m.job == j && decide (a ≤ m.version))
    relWait := s.relWait.filter fun r => !(r.2.1 == j && r.1 == 1024 + h && !r.2.2.external && decide (a ≤ r.2.2.vt)) }
  exact ⟨g', hg'⟩

/-- An event for the host leaves jobs and slots. -/
theorem State.postEvent_leaves (s : State) (kind job : Nat) (d1 d2 d3 : Word) :
    (s.postEvent kind job d1 d2 d3).jobs = s.jobs ∧ (s.postEvent kind job d1 d2 d3).slots = s.slots := by
  unfold State.postEvent
  dsimp only
  split
  · exact ⟨rfl, rfl⟩
  · split <;> exact ⟨rfl, rfl⟩

/-- A cut that ends leaves the job's mapping and its slots, and is over. -/
theorem State.endCut_leaves (s : State) (j lw : Nat) : MappingKept s (s.endCut j lw) j ∧ (s.endCut j lw).slots = s.slots ∧
    (s.endCut j lw).job j = { s.job j with cut := false } := by
  unfold State.endCut
  dsimp only
  generalize hup : (fun (e : Entry) => if e.job = j ∧ e.late ∧ e.isTicket = false then
    { e with late := false, packet := e.packet.set 3 (BitVec.ofNat 64 (max lw (packetVt e.packet))) } else e) = up
  obtain ⟨a, ha, -⟩ := State.resourcesFreed_agenda ((s.setJob j { s.job j with cut := false }).mapEntries up)
  rw [ha]
  have hjob := State.job_setJob s j { s.job j with cut := false }
  refine ⟨⟨rfl, rfl, rfl, fun _ => rfl, fun cl => ?_, (congrArg Job.self hjob :), (congrArg Job.root hjob :), (congrArg Job.tenant hjob :), fun m hm => ?_⟩, rfl, hjob⟩
  · exact (congrArg Cluster.tlb (tget_map (fun c : Cluster => { c with cistern := c.cistern.map up, waiting := c.waiting.map up, stolen := c.stolen.map up }) cl {} s.clusters) :)
  · rw [← (congrArg Job.group hjob :)]
    exact hm

/-- An abort whose handler cannot be launched leaves its job stopped at A. -/
theorem State.abortDone_stops {a l : Nat} {reason : Word}
    (h : s.readHeader ((s.job j).ringParts.headD 0 % 1024) j ((s.job j).hGang &&& ~~~63) = .error l) :
    ((s.abortDone j a reason).job j).abort = .stopped ∧ ((s.abortDone j a reason).job j).abortA = a ∧ (s.abortDone j a reason).slots = s.slots := by
  unfold State.abortDone
  dsimp only
  generalize hu : s.setJob j { s.job j with abort := .stopped, abortA := a, reason := reason, circled := false, doneAway := 0 } = u
  have hjob : u.job j = { s.job j with abort := .stopped, abortA := a, reason := reason, circled := false, doneAway := 0 } := by
    rw [← hu]
    exact State.job_setJob _ _ _
  have hkept : MappingKept s u j := by
    subst hu
    exact ⟨rfl, rfl, rfl, fun _ => rfl, fun _ => rfl, (congrArg Job.self hjob :), (congrArg Job.root hjob :), (congrArg Job.tenant hjob :), fun m hm => (congrArg Job.group hjob :) ▸ hm⟩
  have hslots : u.slots = s.slots := by
    rw [← hu]
    rfl
  obtain ⟨hcut, hslots', hjob'⟩ := State.endCut_leaves u j (s.job j).lwMax
  generalize u.endCut j (s.job j).lwMax = v at *
  obtain ⟨l', hl⟩ := hkept.readHeader_error h
  obtain ⟨l'', hl⟩ := hcut.readHeader_error hl
  have hnone : v.handlerHeader ((s.job j).ringParts.headD 0 % 1024) j = none := by
    unfold State.handlerHeader
    dsimp only
    rw [hjob', hjob, hl]
  rw [hnone, if_neg (by simp)]
  obtain ⟨hj, hs⟩ := v.postEvent_leaves 2 j (BitVec.ofNat 64 a) reason 0
  obtain ⟨g, hg, -⟩ := State.resourcesFreed_agenda (v.postEvent 2 j (BitVec.ofNat 64 a) reason 0)
  rw [hg]
  have hfinal : ({ v.postEvent 2 j (BitVec.ofNat 64 a) reason 0 with agenda := g } : State).job j = v.job j := by
    show tget (v.postEvent 2 j (BitVec.ofNat 64 a) reason 0).jobs j {} = _
    rw [hj]
    rfl
  rw [hfinal, hjob', hjob]
  exact ⟨rfl, rfl, hs.trans (hslots'.trans hslots)⟩

end

end Sys2Proof.Machine

namespace Sys2Proof.Claims

open Sys2Proof.Machine

section
variable {s : State} {j p a since : Nat} {second : Bool} {reason : Word}

/-! ## The token at a part -/

/-- A job whose group a member may have left, all else as it was. -/
theorem without_eq (x : Job) (reason : Word) : ∃ g, x.without reason = { x with group := g } ∧ g.Sublist x.group := by
  unfold Job.without
  split
  · exact ⟨_, rfl, List.filter_sublist⟩
  · exact ⟨_, rfl, List.Sublist.refl _⟩

section
variable (x : Job) (reason : Word)

@[simp] theorem isOpen_without : (x.without reason).isOpen = x.isOpen := by obtain ⟨g, hg, -⟩ := without_eq x reason; rw [hg]
@[simp] theorem self_without : (x.without reason).self = x.self := by obtain ⟨g, hg, -⟩ := without_eq x reason; rw [hg]
@[simp] theorem circled_without : (x.without reason).circled = x.circled := by obtain ⟨g, hg, -⟩ := without_eq x reason; rw [hg]
@[simp] theorem ringParts_without : (x.without reason).ringParts = x.ringParts := by obtain ⟨g, hg, -⟩ := without_eq x reason; rw [hg]; rfl
@[simp] theorem part_without (p : Nat) : (x.without reason).part p = x.part p := by obtain ⟨g, hg, -⟩ := without_eq x reason; rw [hg]; rfl
@[simp] theorem outranks_without (why : Word) (since : Nat) : (x.without reason).outranks why since = x.outranks why since := by
  obtain ⟨g, hg, -⟩ := without_eq x reason
  rw [hg]
  rfl
@[simp] theorem root_without : (x.without reason).root = x.root := by obtain ⟨g, hg, -⟩ := without_eq x reason; rw [hg]
@[simp] theorem tenant_without : (x.without reason).tenant = x.tenant := by obtain ⟨g, hg, -⟩ := without_eq x reason; rw [hg]
@[simp] theorem hGang_without : (x.without reason).hGang = x.hGang := by obtain ⟨g, hg, -⟩ := without_eq x reason; rw [hg]
@[simp] theorem reason_without : (x.without reason).reason = x.reason := by obtain ⟨g, hg, -⟩ := without_eq x reason; rw [hg]

end

/-- The job as the token leaves it at a part: in its circuit's phase, with the lowest lw so far. -/
def circling (s : State) (j p : Nat) (second : Bool) (a : Nat) (why : Word) (since : Nat) (reason : Word) : Job :=
  { (s.job j).without reason with
    abort := if second then .second else .first
    abortA := if second then a else min a ((s.job j).part p).lw
    reason := why
    circled := true
    abortCycle := since }

/-- The reason that the token carries on (18 R418). -/
def carriedReason (s : State) (j p : Nat) (second : Bool) (reason : Word) : Word :=
  if second ∧ (s.job j).ringParts.head? = some p ∧ ((s.job j).without reason).firstModule = (s.job j).self ∧ (s.job j).circled then (s.job j).reason else reason

theorem carriedReason_first (s : State) (j p : Nat) (reason : Word) : carriedReason s j p false reason = reason := if_neg (by simp)

theorem carriedReason_second (s : State) (j p : Nat) (reason : Word) : carriedReason s j p true reason =
    if (s.job j).ringParts.head? = some p ∧ ((s.job j).without reason).firstModule = (s.job j).self ∧ (s.job j).circled = true then (s.job j).reason else reason := by
  unfold carriedReason
  simp only [true_and]

/-- The part after the token's visit. -/
def visited (s : State) (j p : Nat) (second : Bool) (a since : Nat) (reason : Word) : State :=
  (s.setJob j (circling s j p second a (carriedReason s j p second reason) since reason)).abortPart j p second a

theorem exec_abortTokenVisit (he : s.ev = some (.abortTokenVisit j p second a reason since)) (hp : p ≠ 4096) (ho : (s.job j).isOpen = true)
    (h : second = true ∨ (s.job j).circled = false ∨ (s.job j).ringParts.head? ≠ some p) : exec .abortTokenVisit s =
    match nextIn (s.job j).ringParts p with
    | some r => .next ((visited s j p second a since reason).schedule (s.now + visitTicks p)
        (.abortTokenVisit j r second (if second then a else min a ((s.job j).part p).lw) (carriedReason s j p second reason) since))
    | none => .next ((visited s j p second a since reason).abortOn j second (if second then a else min a ((s.job j).part p).lw)
        (carriedReason s j p second reason)) := by
  have hgo : ¬ (second = false ∧ (s.job j).circled = true ∧ (s.job j).ringParts.head? = some p) := by
    rintro ⟨h1, h2, h3⟩
    obtain h | h | h := h
    · cases h1.symm.trans h
    · cases h2.symm.trans h
    · exact h h3
  show execAbortTokenVisit s = _
  unfold execAbortTokenVisit visited circling carriedReason
  split
  · next h' =>
    cases he.symm.trans h'
    dsimp only
    simp only [isOpen_without, self_without, circled_without, ringParts_without, part_without, reason_without]
    rw [if_neg (by simp [ho]), if_neg hp, if_neg hgo, State.setJob_setJob] <;> rfl
  · next h' => exact (h' _ _ _ _ _ _ he).elim

theorem exec_abortTokenVisit_closed (he : s.ev = some (.abortTokenVisit j p second a reason since)) (ho : (s.job j).isOpen = false) :
    exec .abortTokenVisit s = .next s := by
  show execAbortTokenVisit s = _
  unfold execAbortTokenVisit
  split
  · next h' =>
    cases he.symm.trans h'
    exact if_pos (by rw [isOpen_without, ho])
  · next h' => exact (h' _ _ _ _ _ _ he).elim

/-- A second abort's token ends where the first has begun, and gives it its reason where it outranks it (18 R418). -/
theorem exec_abortTokenVisit_second (he : s.ev = some (.abortTokenVisit j p false a reason since)) (hp : p ≠ 4096) (ho : (s.job j).isOpen = true)
    (hc : (s.job j).circled = true) (hh : (s.job j).ringParts.head? = some p) : exec .abortTokenVisit s =
    .next (s.setJob j (if since = (s.job j).abortCycle ∧ bits reason 48 12 < bits (s.job j).reason 48 12
      then { (s.job j).without reason with reason := reason } else (s.job j).without reason)) := by
  show execAbortTokenVisit s = _
  unfold execAbortTokenVisit
  split
  · next h' =>
    cases he.symm.trans h'
    dsimp only
    simp only [isOpen_without, circled_without, ringParts_without, outranks_without]
    rw [if_neg (by simp [ho]), if_neg hp, if_pos ⟨trivial, hc, hh⟩, State.setJob_setJob]
    unfold Job.outranks
    by_cases ht : since = (s.job j).abortCycle ∧ bits reason 48 12 < bits (s.job j).reason 48 12
    · rw [if_pos ht, if_pos (by simpa using ht)]
    · rw [if_neg ht, if_neg (by simpa using ht)]
  · next h' => exact (h' _ _ _ _ _ _ he).elim

/-- On the first circuit a part stops and freezes its lw (18 R317). -/
theorem visited_first (s : State) (j p a since : Nat) (reason : Word) : visited s j p false a since reason =
    s.setJob j { circling s j p false a reason since reason with parts := tset (s.job j).parts p { (s.job j).part p with frozen := true } } := by
  obtain ⟨g, hg, -⟩ := without_eq (s.job j) reason
  unfold visited State.abortPart State.setPart
  rw [carriedReason_first, if_neg (by simp), State.job_setJob, State.setJob_setJob]
  unfold circling
  rw [hg]
  rfl

theorem job_visited_first (s : State) (j p a since : Nat) (reason : Word) : (visited s j p false a since reason).job j =
    { circling s j p false a reason since reason with parts := tset (s.job j).parts p { (s.job j).part p with frozen := true } } := by
  rw [visited_first]
  exact State.job_setJob _ _ _

/-- On the second circuit a home withdraws what it holds at or above A (18 R318). -/
theorem visited_second_eq (s : State) (j a since : Nat) (reason : Word) (hp : 1024 ≤ p) : ∃ g, visited s j p true a since reason =
    { s.setJob j (circling s j p true a (carriedReason s j p true reason) since reason) with
      agenda := g
      held := s.held.filter fun x => !(x.job == j && x.home == p - 1024 && decide (a ≤ x.vt))
      commits := s.commits.filter fun m => !(m.job == j && decide (a ≤ m.version))
      relWait := s.relWait.filter fun r => !(r.2.1 == j && r.1 == 1024 + (p - 1024) && !r.2.2.external && decide (a ≤ r.2.2.vt)) } := by
  unfold visited State.abortPart
  rw [if_pos rfl, if_neg (by omega)]
  exact State.unwindHome_eq _ j (p - 1024) a

/-- The second circuit has returned, which the other modules learn. -/
theorem abortOn_returned (h : (s.job j).nextModule = none) (a : Nat) (reason : Word) : s.abortOn j true a reason =
    if (s.job j).group.any (fun m => m.1 != (s.job j).self) then (s.abortDone j a reason).send (.abortDone j a reason) else s.abortDone j a reason := by
  unfold State.abortOn
  dsimp only
  rw [h]
  rfl

/-- The first circuit has returned to the module where it began. -/
theorem abortOn_second (h : (s.job j).nextModule = none) (hf : (s.job j).firstModule = (s.job j).self) (a : Nat) (reason : Word) :
    s.abortOn j false a reason = s.soon (.abortTokenVisit j ((s.job j).ringParts.headD 1024) true a (s.job j).reason (s.job j).abortCycle) := by
  unfold State.abortOn
  dsimp only
  rw [h]
  dsimp only
  rw [if_neg (by simp), if_pos hf]

/-- What the token has changed of its job leaves the job's mapping. -/
theorem mappingKept_circling {t : State} {why : Word} (hjob : t.job j = circling s j p second a why since reason) (hmem : t.mem = s.mem) (hready : t.ready = s.ready)
    (htenants : t.tenants = s.tenants) (hcores : t.cores = s.cores) (hclusters : t.clusters = s.clusters) : MappingKept s t j := by
  obtain ⟨g, hg, hsub⟩ := without_eq (s.job j) reason
  refine ⟨hmem, hready, htenants, fun c => congrArg (fun l => (tget l c {}).tlb) hcores, fun cl => congrArg (fun l => (tget l cl {}).tlb) hclusters,
    (congrArg Job.self hjob :).trans (self_without _ _), (congrArg Job.root hjob :).trans (root_without _ _),
    (congrArg Job.tenant hjob :).trans (tenant_without _ _), fun m hm => ?_⟩
  have hgroup : (t.job j).group = g := (congrArg Job.group hjob :).trans (congrArg Job.group hg)
  rw [hgroup] at hm
  obtain ⟨x, hx, he⟩ := List.any_eq_true.1 hm
  exact List.any_eq_true.2 ⟨x, hsub.subset hx, he⟩

theorem abortOn_next {m : Nat} (h : (s.job j).nextModule = some m) (second : Bool) (a : Nat) (reason : Word) :
    s.abortOn j second a reason = s.send (.abortToken m j second a reason (s.job j).abortCycle) := by
  unfold State.abortOn
  dsimp only
  rw [h]

/-- The first circuit has returned, and the second begins (18 R317). -/
theorem firstCircuit_returns (he : s.ev = some (.abortTokenVisit j p false a reason since)) (hp : p ≠ 4096) (ho : (s.job j).isOpen = true)
    (hgo : (s.job j).circled = false ∨ (s.job j).ringParts.head? ≠ some p) (hn : nextIn (s.job j).ringParts p = none)
    (hmod : ((s.job j).without reason).nextModule = none) (hfirst : ((s.job j).without reason).firstModule = (s.job j).self) :
    ∃ t, exec .abortTokenVisit s = .next t ∧
      (s.now, Ev.abortTokenVisit j ((s.job j).ringParts.headD 1024) true (min a ((s.job j).part p).lw) reason since) ∈ t.agenda := by
  have hexec := exec_abortTokenVisit he hp ho (.inr hgo)
  have hjob := job_visited_first s j p a since reason
  rw [hn, carriedReason_first] at hexec
  have hring : ((visited s j p false a since reason).job j).ringParts = (s.job j).ringParts := by
    rw [hjob]
    exact ringParts_without _ _
  have hself : ((visited s j p false a since reason).job j).self = (s.job j).self := by
    rw [hjob]
    exact self_without _ _
  rw [abortOn_second (by rw [hjob]; exact hmod) (by rw [hself, ← hfirst, hjob]; rfl), hring, hjob, visited_first] at hexec
  exact ⟨_, hexec, State.due_soon _ _⟩

/-- The second circuit has returned, and the job stays stopped at A (18 R318). -/
theorem secondCircuit_stops {l : Nat} (he : s.ev = some (.abortTokenVisit j p true a reason since)) (hp : p ≠ 4096) (ho : (s.job j).isOpen = true)
    (hhome : 1024 ≤ p) (hn : nextIn (s.job j).ringParts p = none) (hmod : ((s.job j).without reason).nextModule = none)
    (hl : s.readHeader ((s.job j).ringParts.headD 0 % 1024) j ((s.job j).hGang &&& ~~~63) = .error l) :
    ∃ t, exec .abortTokenVisit s = .next t ∧ (t.job j).abort = .stopped ∧ (t.job j).abortA = a ∧ t.slots = s.slots := by
  have hexec := exec_abortTokenVisit he hp ho (.inl rfl)
  obtain ⟨g, hg⟩ := visited_second_eq s j a since reason hhome
  rw [hn, hg] at hexec
  generalize ht : ({ s.setJob j (circling s j p true a (carriedReason s j p true reason) since reason) with
    agenda := g
    held := s.held.filter fun x => !(x.job == j && x.home == p - 1024 && decide (a ≤ x.vt))
    commits := s.commits.filter fun m => !(m.job == j && decide (a ≤ m.version))
    relWait := s.relWait.filter fun r => !(r.2.1 == j && r.1 == 1024 + (p - 1024) && !r.2.2.external && decide (a ≤ r.2.2.vt)) } : State) = u at hexec
  have hjob : u.job j = circling s j p true a (carriedReason s j p true reason) since reason := by
    rw [← ht]
    exact State.job_setJob _ _ _
  have hkept : MappingKept s u j := by
    subst ht
    exact mappingKept_circling hjob rfl rfl rfl rfl rfl
  have hslots : u.slots = s.slots := by
    rw [← ht]
    rfl
  have hparts : (u.job j).ringParts = (s.job j).ringParts := by
    rw [hjob]
    exact ringParts_without _ _
  have hgang : (u.job j).hGang = (s.job j).hGang := by
    rw [hjob]
    exact hGang_without _ _
  obtain ⟨l', hl'⟩ := hkept.readHeader_error hl
  obtain ⟨habort, ha, hs⟩ := State.abortDone_stops (a := a) (reason := carriedReason s j p true reason) (by rw [hparts, hgang]; exact hl')
  refine ⟨_, hexec.trans (congrArg _ (abortOn_returned (by rw [hjob]; exact hmod) _ _)), ?_⟩
  split
  · exact ⟨habort, ha, hs.trans hslots⟩
  · exact ⟨habort, ha, hs.trans hslots⟩

/-! ## The restart -/

/-- A part goes on: its lw moves again, its unit looks at its queue, and its inboxes dispatch (18 R318). -/
theorem restarted_part (s : State) (j p : Nat) : ∃ g,
    (if p < 1024 then ((s.job j).lpsAt p).foldl (fun (u : State) l => u.soon (.inboxDispatch j l.1))
        ((s.setPart j p { (s.job j).part p with frozen := false }).poke (clusterOf p))
      else s.setPart j p { (s.job j).part p with frozen := false }) =
      { s.setPart j p { (s.job j).part p with frozen := false } with agenda := g } ∧
    (p < 1024 → ∀ l ∈ (s.job j).lpsAt p, (s.now, Ev.inboxDispatch j l.1) ∈ g) := by
  by_cases hp : p < 1024
  · rw [if_pos hp]
    obtain ⟨g, hg, -, -⟩ := State.poke_agenda (s.setPart j p { (s.job j).part p with frozen := false }) (clusterOf p)
    rw [hg]
    generalize hu : ({ s.setPart j p { (s.job j).part p with frozen := false } with agenda := g } : State) = u
    have hnow : u.now = s.now := by
      rw [← hu]
      rfl
    obtain ⟨g', hg', hl, -⟩ := State.foldl_soon_due (fun l : Nat × Lp => Ev.inboxDispatch j l.1) ((s.job j).lpsAt p) u
    rw [hg', ← hu]
    exact ⟨g', rfl, fun _ l hl' => hnow ▸ hl l hl'⟩
  · rw [if_neg hp]
    exact ⟨_, rfl, fun h => absurd h hp⟩

theorem frozen_restarted (s : State) (j p : Nat) : (((s.setPart j p { (s.job j).part p with frozen := false }).job j).part p).frozen = false := by
  unfold State.setPart
  rw [State.job_setJob]
  exact congrArg Part.frozen (tget_tset_same _ _ _ _)

/-- The end of a restart on this module: the stop is over, the other modules learn it, and the job's one token starts again (18 R306, R318). -/
theorem restarted_end (u : State) (j : Nat) (first : Prop) [Decidable first] (others : Bool) :
    let v := u.setJob j { u.job j with abort := .none }
    let w := if others then v.send (.restart j) else v
    let t := (if first then w.soon (.lwgapExpiry j) else w).resourcesFreed
    t.job j = { u.job j with abort := .none } ∧ (first → (u.now, Ev.lwgapExpiry j) ∈ t.agenda) ∧ (others = true → Out.restart j ∈ t.out) ∧
      t.slots = u.slots ∧ t.mem = u.mem ∧ ∀ e ∈ u.agenda, e ∈ t.agenda := by
  intro v w t
  have hw : w.job j = { u.job j with abort := .none } ∧ (others = true → Out.restart j ∈ w.out) ∧ w.slots = u.slots ∧ w.mem = u.mem ∧
      w.now = u.now ∧ w.agenda = u.agenda := by
    have hv : v.job j = { u.job j with abort := .none } := State.job_setJob _ _ _
    cases others with
    | false => exact ⟨hv, fun h => (Bool.false_ne_true h).elim, rfl, rfl, rfl, rfl⟩
    | true => exact ⟨hv, fun _ => State.mem_out_send _ _, rfl, rfl, rfl, rfl⟩
  obtain ⟨hjob, hout, hslots, hmem, hnow, hagenda⟩ := hw
  obtain ⟨g, hg, hdue⟩ := State.resourcesFreed_agenda (if first then w.soon (.lwgapExpiry j) else w)
  have ht : t = { (if first then w.soon (.lwgapExpiry j) else w) with agenda := g } := hg
  rw [ht]
  by_cases hf : first
  · rw [if_pos hf]
    exact ⟨hjob, fun _ => hdue _ (by rw [if_pos hf, ← hnow]; exact State.due_soon w _), hout, hslots, hmem,
      fun e he => hdue e (by rw [if_pos hf]; exact State.mem_agenda_soon.2 (.inr (hagenda ▸ he)))⟩
  · rw [if_neg hf]
    exact ⟨hjob, fun h => absurd h hf, hout, hslots, hmem, fun e he => hdue e (by rw [if_neg hf]; exact hagenda ▸ he)⟩

/-- The part of a restart, before the token goes on. -/
theorem exec_restart (he : s.ev = some (.restart j p)) (ho : (s.job j).isOpen = true) (ha : (s.job j).abort = .stopped) :
    ∃ g, (p < 1024 → ∀ l ∈ (s.job j).lpsAt p, (s.now, Ev.inboxDispatch j l.1) ∈ g) ∧ exec .restart s =
      let u : State := { s.setPart j p { (s.job j).part p with frozen := false } with agenda := g }
      match nextIn (s.job j).ringParts p with
      | some r => .next (u.schedule (s.now + visitTicks p) (.restart j r))
      | none =>
        let v := u.setJob j { u.job j with abort := .none }
        let w := if (s.job j).group.any (fun m => m.1 != (s.job j).self) then v.send (.restart j) else v
        .next ((if (s.job j).firstModule = (s.job j).self then w.soon (.lwgapExpiry j) else w).resourcesFreed) := by
  obtain ⟨g, hg, hl⟩ := restarted_part s j p
  refine ⟨g, hl, ?_⟩
  show execRestart s = _
  unfold execRestart
  split
  · next h' =>
    cases he.symm.trans h'
    dsimp only
    rw [if_neg (by simp [ho, ha]), hg] <;> rfl
  · next h' => exact (h' _ _ he).elim

/-- The last part of a module restarts it. -/
theorem restart_ends {g : List (Nat × Ev)} (h : exec .restart s =
      let u : State := { s.setPart j p { (s.job j).part p with frozen := false } with agenda := g }
      let v := u.setJob j { u.job j with abort := .none }
      let w := if (s.job j).group.any (fun m => m.1 != (s.job j).self) then v.send (.restart j) else v
      .next ((if (s.job j).firstModule = (s.job j).self then w.soon (.lwgapExpiry j) else w).resourcesFreed)) :
    ∃ t, exec .restart s = .next t ∧ (t.job j).abort = .none ∧ ((t.job j).part p).frozen = false ∧
      ((s.job j).firstModule = (s.job j).self → (s.now, Ev.lwgapExpiry j) ∈ t.agenda) ∧
      ((∃ m ∈ (s.job j).group, m.1 ≠ (s.job j).self) → Out.restart j ∈ t.out) ∧ t.slots = s.slots ∧ t.mem = s.mem := by
  have hfrozen := frozen_restarted s j p
  generalize hu : ({ s.setPart j p { (s.job j).part p with frozen := false } with agenda := g } : State) = u at h
  have hpart : ((u.job j).part p).frozen = false ∧ u.now = s.now ∧ u.slots = s.slots ∧ u.mem = s.mem := by
    rw [← hu]
    exact ⟨hfrozen, rfl, rfl, rfl⟩
  obtain ⟨hpart, hnow, hslots, hmem⟩ := hpart
  obtain ⟨hjob, hfirst, hothers, hslots', hmem', -⟩ := restarted_end u j ((s.job j).firstModule = (s.job j).self) ((s.job j).group.any fun m => m.1 != (s.job j).self)
  refine ⟨_, h, ?_, ?_, fun hf => hnow ▸ hfirst hf, fun ⟨m, hm, hne⟩ => hothers (List.any_eq_true.2 ⟨m, hm, by simpa using hne⟩), hslots'.trans hslots, hmem'.trans hmem⟩
  · rw [hjob]
  · rw [hjob]
    exact hpart

end

/-- Settles O46. -/
theorem abortCircuits : Obligations.AbortCircuits := by
  refine fun s j p a since second reason => ⟨fun he hp => ⟨exec_abortTokenVisit_closed he, fun ho h2 hc hh => ?_, fun r ho h2 hgo hn => ?_,
    fun r ho h2 hhome hn => ?_, fun l ho h2 hhome hn hmod hl => ?_, fun r ho h2 hgo hn hmod => ?_, fun ho h2 hgo hn hmod hfirst => ?_⟩,
    fun he ho ha => ⟨fun r hn => ?_, fun hn => ?_⟩⟩
  · subst h2
    exact exec_abortTokenVisit_second he hp ho hc hh
  · subst h2
    have hexec := exec_abortTokenVisit he hp ho (.inr hgo)
    rw [hn, carriedReason_first] at hexec
    have hjob := job_visited_first s j p a since reason
    refine ⟨_, hexec, ?_, (congrArg Job.abort hjob :), ?_, ?_, ?_⟩
    · exact (congrArg (fun x : Job => (x.part p).frozen) hjob :).trans (congrArg Part.frozen (tget_tset_same _ _ _ _))
    · rw [visited_first]
      exact State.due_schedule _ _ _
    · rw [visited_first]
      rfl
    · rw [visited_first]
      rfl
  · subst h2
    have hexec := exec_abortTokenVisit he hp ho (.inl rfl)
    obtain ⟨g, hg⟩ := visited_second_eq s j a since reason hhome
    rw [hn, hg] at hexec
    refine ⟨_, hexec, congrArg Job.abort (State.job_setJob s j _), fun x hx hj hh => ?_, fun m hm hj => ?_, ?_, rfl⟩
    · have hk := (List.mem_filter.1 hx).2
      simpa [hj, hh] using hk
    · have hk := (List.mem_filter.1 hm).2
      simpa [hj] using hk
    · refine (carriedReason_second s j p reason) ▸ State.due_schedule _ _ _
  · subst h2
    exact secondCircuit_stops he hp ho hhome hn hmod hl
  · subst h2
    have hexec := exec_abortTokenVisit he hp ho (.inr hgo)
    have hjob := job_visited_first s j p a since reason
    rw [hn, carriedReason_first] at hexec
    rw [abortOn_next (m := r) (by rw [hjob]; exact hmod), hjob] at hexec
    exact ⟨_, hexec, State.mem_out_send _ _⟩
  · subst h2
    exact firstCircuit_returns he hp ho hgo hn hmod hfirst
  · obtain ⟨g, hl, hexec⟩ := exec_restart he ho ha
    rw [hn] at hexec
    refine ⟨_, hexec, ?_, State.due_schedule _ _ _, fun hp l hl' => ?_, rfl, rfl⟩
    · exact frozen_restarted s j p
    · exact State.mem_agenda_schedule.2 (.inr (hl hp l hl'))
  · obtain ⟨g, hl, hexec⟩ := exec_restart he ho ha
    rw [hn] at hexec
    exact restart_ends hexec

end Sys2Proof.Claims
end

section
/-! Inboxes dispatch their lowest message (18 R299, R300), and versions are revoked (18 R303). -/

namespace Sys2Proof.Machine

/-! ## The state fields of a tile's header (16 R278) -/

/-- A field after a write under a mask. -/
theorem extractLsb'_merge (old new mask : Word) {lo n : Nat} (h : lo + n ≤ 64) : (merge old new mask).extractLsb' lo n =
    (old.extractLsb' lo n &&& ~~~mask.extractLsb' lo n) ||| (new.extractLsb' lo n &&& mask.extractLsb' lo n) := by
  ext i hi
  have : lo + i < 64 := by omega
  simp [merge, this]

theorem tileMask_field : ∀ i k : Fin 4, (BitVec.ofNat 64 (3 * 2 ^ (2 * i.val))).extractLsb' (2 * k.val) 2 = if k = i then 3#2 else 0#2 := by decide

theorem tileValue_field : ∀ i st : Fin 4, (BitVec.ofNat 64 (st.val * 2 ^ (2 * i.val))).extractLsb' (2 * i.val) 2 = BitVec.ofNat 2 st := by decide

theorem tileState_eq_extract (w : Word) (i : Nat) : tileState w i = (w.extractLsb' (2 * i) 2).toNat := Claims.bits_eq_extract w _ _

/-- A buffer's state field takes a value, and the others stay. -/
theorem tileState_merge (w : Word) {i k st : Nat} (hi : i < 4) (hk : k < 4) (hst : st < 4) :
    tileState (merge w (BitVec.ofNat 64 (st * 2 ^ (2 * i))) (BitVec.ofNat 64 (3 * 2 ^ (2 * i)))) k = if k = i then st else tileState w k := by
  have hmask := tileMask_field ⟨i, hi⟩ ⟨k, hk⟩
  rw [tileState_eq_extract, extractLsb'_merge _ _ _ (by omega), hmask]
  by_cases h : k = i
  · subst h
    have hval := tileValue_field ⟨k, hk⟩ ⟨st, hst⟩
    have hnot : ~~~(3#2) = 0#2 := by decide
    rw [if_pos rfl, if_pos rfl, hnot, BitVec.and_zero, BitVec.zero_or, hval, show (3#2) = BitVec.allOnes 2 from rfl, BitVec.and_allOnes, BitVec.toNat_ofNat]
    exact Nat.mod_eq_of_lt hst
  · have hnot : ~~~(0#2) = BitVec.allOnes 2 := by decide
    rw [if_neg (by simpa using h), if_neg h, BitVec.and_zero, BitVec.or_zero, hnot, BitVec.and_allOnes, tileState_eq_extract]

/-! ## Revocation (18 R303) -/

section
variable (s : State) (pa v : Nat)

/-- The state of a buffer once every visible one at or above the version is emptied; one that is read is emptied when its reader leaves. -/
def revokedState (w : Word) (i : Nat) : Nat :=
  if tileState w i = 1 ∧ v ≤ ((s.readWords pa 8).getD (2 + i) 0).toNat then
    if s.readers.any (fun r => r.header == pa && r.buf == i) then 3 else 0
  else tileState w i

/-- The header's word of states after one buffer has been looked at. -/
def revokeBuffer (w : Word) (i : Nat) : Word :=
  if tileState w i = 1 ∧ v ≤ ((s.readWords pa 8).getD (2 + i) 0).toNat then
    merge w (BitVec.ofNat 64 ((if s.readers.any (fun r => r.header == pa && r.buf == i) then 3 else 0) * 2 ^ (2 * i))) (BitVec.ofNat 64 (3 * 2 ^ (2 * i)))
  else w

theorem tileState_revokeBuffer (w : Word) {i k : Nat} (hi : i < 4) (hk : k < 4) :
    tileState (revokeBuffer s pa v w i) k = if k = i then revokedState s pa v w k else tileState w k := by
  unfold revokeBuffer revokedState
  by_cases h : tileState w i = 1 ∧ v ≤ ((s.readWords pa 8).getD (2 + i) 0).toNat
  · rw [if_pos h, tileState_merge w hi hk (by split <;> decide)]
    split
    · next he =>
      subst he
      rw [if_pos h]
    · rfl
  · rw [if_neg h]
    split
    · next he =>
      subst he
      rw [if_neg h]
    · rfl

/-- What becomes of a buffer depends on its own state alone. -/
theorem revokedState_congr {w w' : Word} {k : Nat} (h : tileState w' k = tileState w k) : revokedState s pa v w' k = revokedState s pa v w k := by
  unfold revokedState
  rw [h]

theorem tileState_foldl_revokeBuffer (l : List Nat) (hl : ∀ i ∈ l, i < 4) (hn : l.Nodup) (w : Word) {k : Nat} (hk : k < 4) :
    tileState (l.foldl (revokeBuffer s pa v) w) k = if k ∈ l then revokedState s pa v w k else tileState w k := by
  induction l generalizing w with
  | nil => rfl
  | cons i l ih =>
    obtain ⟨hi, hl⟩ := List.forall_mem_cons.1 hl
    obtain ⟨hil, hn⟩ := List.nodup_cons.1 hn
    have hstep := tileState_revokeBuffer s pa v w hi hk
    rw [List.foldl_cons, ih hl hn]
    by_cases hki : k = i
    · subst hki
      rw [if_neg hil, hstep, if_pos rfl, if_pos List.mem_cons_self]
    · rw [if_neg hki] at hstep
      rw [revokedState_congr s pa v hstep, hstep]
      simp [hki]

/-- The header's word of states once the versions are revoked. -/
def revokedWord : Word := (List.range 4).foldl (revokeBuffer s pa v) (BitVec.ofNat 64 (memRead s.mem (pa + 48) 8))

theorem tileState_revokedWord {k : Nat} (hk : k < 4) :
    tileState (revokedWord s pa v) k = revokedState s pa v (BitVec.ofNat 64 (memRead s.mem (pa + 48) 8)) k := by
  unfold revokedWord
  rw [tileState_foldl_revokeBuffer s pa v _ (fun i => List.mem_range.1) List.nodup_range _ hk, if_pos (List.mem_range.2 hk)]

end

/-- The words of a header are its memory's. -/
theorem State.readWords_getD (s : State) (pa : Nat) (n : Nat) : ∀ {i : Nat}, i < n → (s.readWords pa n).getD i 0 = BitVec.ofNat 64 (memRead s.mem (pa + 8 * i) 8) := by
  induction n generalizing pa with
  | zero => exact fun h => absurd h (Nat.not_lt_zero _)
  | succ n ih =>
    intro i hi
    cases i with
    | zero => rfl
    | succ i =>
      rw [State.readWords, List.getD_cons_succ, ih (pa + 8) (by omega)]
      congr 2
      omega

theorem memRead_lt (m : List Host.Cell) (a n : Nat) : memRead m a n < 256 ^ n := by
  induction n generalizing a with
  | zero => exact Nat.one_pos
  | succ n ih =>
    have hb := (memByte m a).isLt
    have hr := ih (a + 1)
    rw [memRead, Nat.pow_succ]
    omega

/-- A word that a unit writes is in memory then, and no other byte is written. -/
theorem State.unitWrite_word (s : State) (pa : Nat) (w : Word) : memRead (s.unitWrite pa [w]).mem pa 8 = w.toNat ∧
    ∀ x, (x < pa ∨ pa + 8 ≤ x) → memByte (s.unitWrite pa [w]).mem x = memByte s.mem x := by
  have hmem : (s.unitWrite pa [w]).mem = memWrite s.mem pa w.toNat 8 := by
    unfold State.unitWrite
    rw [State.revokeWords_sliceOnly _ _, State.mem_hbmWrite]
    rfl
  rw [hmem]
  exact ⟨(memRead_memWrite 8 _ _ _).trans (Nat.mod_eq_of_lt w.isLt), fun x hx => memByte_memWrite_other 8 _ _ _ x hx⟩

theorem State.unitWrite_leaves (s : State) (pa : Nat) (ws : List Word) : (s.unitWrite pa ws).slots = s.slots ∧ (s.unitWrite pa ws).commits = s.commits := by
  have hstore := s.hbmWrite_storeOnly pa (ws.foldr (fun w n => w.toNat + 2 ^ 64 * n) 0) (8 * ws.length)
  unfold State.unitWrite
  rw [State.revokeWords_sliceOnly _ _]
  rw [hstore]
  exact ⟨rfl, rfl⟩

/-! ## Dispatch (18 R300) -/

section
variable {s t : State} {j n : Nat}

/-- A header that was read is read as before. -/
theorem MappingKept.readHeader_ok (h : MappingKept s t j) {c : Nat} {va w : Word} (he : s.readHeader c j va = .ok w) : t.readHeader c j va = .ok w := by
  unfold State.readHeader at *
  obtain ht | ⟨-, m, hm⟩ := h.translate c va .read
  · rw [ht, h.mem]
    exact he
  · rw [hm] at he
    cases he

theorem State.drainReleases_of_none (h : s.relWait = []) : s.drainReleases = s := by
  unfold State.drainReleases
  rw [h, List.foldl_nil, ← h]

theorem State.inboxSettle_of_idle (h : ∀ x ∈ (s.lp j n).inbox, x.st ≠ .run) : s.inboxSettle j n = s := by
  unfold State.inboxSettle
  dsimp only
  rw [if_neg]
  rw [List.any_eq_true]
  rintro ⟨x, hx, hr⟩
  exact h x hx (by simpa using (Bool.and_eq_true_iff.1 hr).1)

theorem State.takeInq_of_empty (h : (s.lp j n).inq = []) : s.takeInq j n = s := by
  unfold State.takeInq
  rw [h]
  rfl

theorem State.lp_setLp (s : State) (j n : Nat) (l : Lp) : (s.setLp j n l).lp j n = l := by
  unfold State.lp State.setLp
  rw [State.job_setJob]
  exact tget_tset_same _ _ _ _

end

end Sys2Proof.Machine

namespace Sys2Proof.Claims

open Sys2Proof.Machine

section
variable {s : State} {j n : Nat} {e : InboxEntry} {h : Word}

/-- The state in which an inbox of a module where nothing waits to be released chooses its message. -/
def choosing (s : State) (j n : Nat) : State := s.setCluster (clusterOf (s.lp j n).home) (s.cluster (clusterOf (s.lp j n).home))

/-- The task of a message, and the state with it dispatched and its entry RUN. -/
def dispatchTask (s : State) (j n : Nat) (e : InboxEntry) (h : Word) : Entry :=
  ((choosing s j n).newTask (clusterOf (s.lp j n).home)).2.inboxTask j n e h
    ((choosing s j n).newTask (clusterOf (s.lp j n).home)).1

def dispatched (s : State) (j n : Nat) (e : InboxEntry) (h : Word) : State :=
  (((choosing s j n).newTask (clusterOf (s.lp j n).home)).2.setLp j n { s.lp j n with
    inbox := (s.lp j n).inbox.map fun x => if x = e then { x with st := .run, task := (dispatchTask s j n e h).task } else x
    lvt := some (e.msg.w0, e.msg.w1, e.msg.w2) }).enqueue (clusterOf (s.lp j n).home) (dispatchTask s j n e h)

theorem mappingKept_choosing (s : State) (j n : Nat) : MappingKept s (choosing s j n) j := by
  refine ⟨rfl, rfl, rfl, fun _ => rfl, fun cl => ?_, rfl, rfl, rfl, fun _ hm => hm⟩
  unfold choosing State.cluster State.setCluster
  by_cases hc : cl = clusterOf (s.lp j n).home
  · rw [← hc, tget_tset_same]
  · rw [tget_tset_other _ _ _ hc]

theorem exec_inboxDispatch (he : s.ev = some (.inboxDispatch j n)) (hw : s.relWait = []) (ho : (s.job j).isOpen = true) (ht : (s.job j).terminated = false)
    (hf : ((s.job j).part (s.lp j n).home).frozen = false) (hq : (s.lp j n).inq = []) (hi : ∀ x ∈ (s.lp j n).inbox, x.st ≠ .run)
    (hl : lowest ((s.lp j n).inbox.filter fun x => x.st == .pos) = some e)
    (hlw : (s.job j).opt = true ∨ e.msg.w0.toNat ≤ s.lwAt j (s.lp j n).home)
    (hr : s.readHeader (s.lp j n).home j ((s.job j).inGang &&& ~~~63) = .ok h) (hh : headerOk h = true)
    (htick : ∀ x ∈ (s.cluster (clusterOf (s.lp j n).home)).cistern, x.isTicket = false) (hwait : (s.cluster (clusterOf (s.lp j n).home)).waiting = [])
    (hroom : (s.cluster (clusterOf (s.lp j n).home)).cistern.length < 4096) : exec .inboxDispatch s = .next (dispatched s j n e h) := by
  have hnone : ∀ f : Entry → Bool, (s.cluster (clusterOf (s.lp j n).home)).cistern.any (fun x => x.isTicket && f x) = false := fun f => by
    rw [← Bool.not_eq_true, List.any_eq_true]
    rintro ⟨x, hx, h⟩
    rw [htick x hx] at h
    cases h
  have hkeep : ∀ f : Entry → Bool, (s.cluster (clusterOf (s.lp j n).home)).cistern.filter (fun x => !(x.isTicket && f x)) =
      (s.cluster (clusterOf (s.lp j n).home)).cistern := fun f => List.filter_eq_self.2 fun x hx => by
    rw [htick x hx]
    rfl
  have hrun : (s.lp j n).inbox.any (fun x => x.st == .run) = false := by
    rw [← Bool.not_eq_true, List.any_eq_true]
    rintro ⟨x, hx, h⟩
    exact hi x hx (by simpa using h)
  have hheader := (mappingKept_choosing s j n).readHeader_ok hr
  have hfull : ((choosing s j n).cluster (clusterOf (s.lp j n).home)).full = false := by
    rw [choosing, State.cluster_setCluster]
    exact full_eq_false.2 ⟨hroom, hwait⟩
  show execInboxDispatch s = _
  unfold execInboxDispatch
  split
  · next h' =>
    cases he.symm.trans h'
    dsimp only
    rw [State.drainReleases_of_none hw, State.inboxSettle_of_idle hi, State.takeInq_of_empty hq]
    simp only [Bool.and_assoc]
    rw [hkeep, hnone, if_neg (by simp [ho, ht, hf, hrun]), hl]
    generalize hu : s.setCluster (clusterOf (s.lp j n).home) _ = u
    obtain rfl : choosing s j n = u := hu
    have hmark : ¬ (!(s.job j).opt && decide ((choosing s j n).lwAt j (s.lp j n).home < e.msg.w0.toNat)) = true := by
      rw [Bool.and_eq_true, decide_eq_true_eq, Bool.not_eq_true']
      rintro ⟨hopt, hlt⟩
      obtain hopt' | hle := hlw
      · cases hopt.symm.trans hopt'
      · exact absurd hlt (Nat.not_lt.2 hle)
    dsimp only
    rw [if_neg hmark, hheader]
    dsimp only
    rw [if_neg (by simp [hh, hwait]), if_neg (by simp [hfull]), if_neg (by simp)]
    rfl
  · next h' => exact (h' _ _ he).elim

theorem dispatchTask_task (s : State) (j n : Nat) (e : InboxEntry) (h : Word) : (dispatchTask s j n e h).task =
    clusterOf (s.lp j n).home * 2 ^ 25 + (s.cluster (clusterOf (s.lp j n).home)).taskCount := by
  show _ + ((choosing s j n).cluster _).taskCount = _
  rw [choosing, State.cluster_setCluster]

/-- A dispatched message's task stands last in its cluster's queue, and its entry is RUN. -/
theorem dispatched_leaves (hroom : (s.cluster (clusterOf (s.lp j n).home)).cistern.length < 4096)
    (hwait : (s.cluster (clusterOf (s.lp j n).home)).waiting = []) :
    ((dispatched s j n e h).cluster (clusterOf (s.lp j n).home)).cistern = (s.cluster (clusterOf (s.lp j n).home)).cistern ++ [dispatchTask s j n e h] ∧
      (dispatched s j n e h).lp j n = { s.lp j n with
        inbox := (s.lp j n).inbox.map fun x => if x = e then { x with st := .run, task := (dispatchTask s j n e h).task } else x
        lvt := some (e.msg.w0, e.msg.w1, e.msg.w2) } ∧
      (dispatched s j n e h).slots = s.slots ∧ (dispatched s j n e h).mem = s.mem := by
  unfold dispatched
  generalize hu : (((choosing s j n).newTask (clusterOf (s.lp j n).home)).2.setLp j n _) = u
  have hcluster : u.cluster (clusterOf (s.lp j n).home) = { s.cluster (clusterOf (s.lp j n).home) with
      taskCount := ((s.cluster (clusterOf (s.lp j n).home)).taskCount + 1) % 2 ^ 25 } := by
    rw [← hu]
    show ((choosing s j n).newTask _).2.cluster _ = _
    rw [State.newTask, State.cluster_setCluster, choosing, State.cluster_setCluster]
  have hlp := State.lp_setLp ((choosing s j n).newTask (clusterOf (s.lp j n).home)).2 j n { s.lp j n with
    inbox := (s.lp j n).inbox.map fun x => if x = e then { x with st := .run, task := (dispatchTask s j n e h).task } else x
    lvt := some (e.msg.w0, e.msg.w1, e.msg.w2) }
  rw [hu] at hlp
  have hrest : u.slots = s.slots ∧ u.mem = s.mem := by
    rw [← hu]
    exact ⟨rfl, rfl⟩
  rw [enqueue_room (by rw [hcluster]; exact full_eq_false.2 ⟨hroom, hwait⟩) rfl]
  refine ⟨?_, hlp, hrest⟩
  show (State.cluster (u.setCluster _ _) _).cistern = _
  rw [State.cluster_setCluster, hcluster]

/-! ## Revocation (18 R303) -/

theorem exec_versionRevocation {pa v rback : Nat} (he : s.ev = some (.versionRevocation pa v rback)) : exec .versionRevocation s =
    .next { s.unitWrite (pa + 48) [revokedWord s pa v] with tileRback := tset (s.unitWrite (pa + 48) [revokedWord s pa v]).tileRback pa rback } := by
  have hword : (List.range 4).foldl (revokeBuffer s pa v) ((s.readWords pa 8).getD 6 0) = revokedWord s pa v := by
    rw [State.readWords_getD s pa 8 (by omega)]
    rfl
  show execVersionRevocation s = _
  unfold execVersionRevocation
  split
  · next h' =>
    cases he.symm.trans h'
    dsimp only
    rw [← hword]
    rfl
  · next h' => exact (h' _ _ _ he).elim

/-- What becomes of a buffer, said of memory. -/
theorem revokedState_eq {pa v i : Nat} (hi : i < 4) : revokedState s pa v (BitVec.ofNat 64 (memRead s.mem (pa + 48) 8)) i =
    if tileState (BitVec.ofNat 64 (memRead s.mem (pa + 48) 8)) i = 1 ∧ v ≤ memRead s.mem (pa + 16 + 8 * i) 8 then
      (if (∃ r ∈ s.readers, r.header = pa ∧ r.buf = i) then 3 else 0)
    else tileState (BitVec.ofNat 64 (memRead s.mem (pa + 48) 8)) i := by
  have hversion : ((s.readWords pa 8).getD (2 + i) 0).toNat = memRead s.mem (pa + 16 + 8 * i) 8 := by
    rw [State.readWords_getD s pa 8 (by omega), show pa + 8 * (2 + i) = pa + 16 + 8 * i by omega, BitVec.toNat_ofNat]
    exact Nat.mod_eq_of_lt (memRead_lt _ _ 8)
  have hread : (s.readers.any fun r => r.header == pa && r.buf == i) = true ↔ ∃ r ∈ s.readers, r.header = pa ∧ r.buf = i := by
    simp
  unfold revokedState
  rw [hversion]
  simp only [hread]

end

/-- Settles O44. -/
theorem inboxesDispatchAndVersionsRevoke : Obligations.InboxesDispatchAndVersionsRevoke := by
  refine fun s => ⟨fun j n e h he hw ho ht hf hq hi hl hlw hr hh htick hwait hroom => ?_, fun pa v rback he => ?_⟩
  · obtain ⟨hcistern, hlp, hslots, hmem⟩ := dispatched_leaves (e := e) (h := h) hroom hwait
    exact ⟨_, dispatchTask s j n e h, exec_inboxDispatch he hw ho ht hf hq hi hl hlw hr hh htick hwait hroom, hcistern, rfl, rfl, dispatchTask_task s j n e h,
      rfl, rfl, rfl, (congrArg Lp.inbox hlp :), (congrArg Lp.lvt hlp :), hslots, hmem⟩
  · obtain ⟨hword, hbytes⟩ := s.unitWrite_word (pa + 48) (revokedWord s pa v)
    obtain ⟨hslots, hcommits⟩ := s.unitWrite_leaves (pa + 48) [revokedWord s pa v]
    refine ⟨_, exec_versionRevocation he, fun i hi => ?_, fun x hx => hbytes x (by omega), tget_tset_same _ _ _ _, hcommits, hslots⟩
    show tileState (BitVec.ofNat 64 (memRead (s.unitWrite (pa + 48) [revokedWord s pa v]).mem (pa + 48) 8)) i = _
    rw [hword, BitVec.ofNat_toNat, BitVec.setWidth_eq, tileState_revokedWord s pa v hi, revokedState_eq hi]

end Sys2Proof.Claims
end

section
/-! Hungry clusters search and steal (15 R264, R265, R273). -/

namespace Sys2Proof.Claims

open Sys2Proof.Machine

section
variable {s : State} {p v : Nat}

theorem length_dropFirst {α : Type} [DecidableEq α] {l : List α} {x : α} (h : x ∈ l) : (dropFirst l x).length + 1 = l.length := by
  induction l with
  | nil => exact (List.not_mem_nil h).elim
  | cons a l ih =>
    rw [dropFirst]
    split
    · rfl
    · next hne => exact congrArg (· + 1) (ih ((List.mem_cons.1 h).resolve_left (Ne.symm hne)))

/-! ## A probe (15 R265) -/

theorem exec_stealProbe_yields (he : s.ev = some (.stealProbe p v)) (hy : s.yields (beforeProbe p v) = true) :
    exec .stealProbe s = .next (s.soon (.stealProbe p v)) := by
  show execStealProbe s = _
  unfold execStealProbe
  split
  · next h =>
    cases he.symm.trans h
    exact if_pos hy
  · next h => exact (h _ _ he).elim

/-- A probe in its turn, of a cluster that searches. -/
theorem exec_stealProbe (he : s.ev = some (.stealProbe p v)) (hh : (s.cluster p).hungry.isSome = true) (hp : (s.cluster p).probing = none)
    (hv : (s.cluster p).probes.head? = some v) (hy : s.yields (beforeProbe p v) = false) : exec .stealProbe s =
    match s.stealable p v with
    | none => .next ((s.setCluster p { s.cluster p with probing := some v }).soon (.probeAnswer p false))
    | some e => .next ((((s.takeEntry v e).setCluster p { (s.takeEntry v e).cluster p with probing := some v, stolen := some { e with reserved := none } }).soon
        (.probeAnswer p true)).poke v) := by
  have hgo : ¬ ((s.cluster p).hungry.isNone = true ∨ (s.cluster p).probing.isSome = true ∨ (s.cluster p).probes.head? ≠ some v) := by
    rintro (h | h | h)
    · rw [Option.isNone_iff_eq_none] at h
      rw [h] at hh
      cases hh
    · rw [hp] at h
      cases h
    · exact h hv
  show execStealProbe s = _
  unfold execStealProbe
  split
  · next h =>
    cases he.symm.trans h
    dsimp only
    rw [if_neg (by simp [hy]), if_neg hgo] <;> rfl
  · next h => exact (h _ _ he).elim

/-- A stolen entry has left its queue for the hungry cluster, whose unit hears of it. -/
theorem stolen_leaves {t : State} {e : Entry} (he : e ∈ (s.cluster v).cistern)
    (ht : (((s.takeEntry v e).setCluster p { (s.takeEntry v e).cluster p with probing := some v, stolen := some { e with reserved := none } }).soon
      (.probeAnswer p true)).poke v = t) :
    (t.cluster v).cistern.length + 1 = (s.cluster v).cistern.length ∧ (t.cluster p).stolen = some { e with reserved := none } ∧
      (t.cluster p).probing = some v ∧ (s.now, Ev.probeAnswer p true) ∈ t.agenda ∧ t.slots = s.slots := by
  have htake : ((s.takeEntry v e).cluster v).cistern = dropFirst (s.cluster v).cistern e := by
    rw [State.takeEntry, State.cluster_setCluster]
  generalize hw : s.takeEntry v e = w at *
  have hrest : w.now = s.now ∧ w.slots = s.slots := by
    rw [← hw]
    exact ⟨rfl, rfl⟩
  obtain ⟨hnow, hslots⟩ := hrest
  generalize hu : w.setCluster p { w.cluster p with probing := some v, stolen := some { e with reserved := none } } = u at *
  have hp : u.cluster p = { w.cluster p with probing := some v, stolen := some { e with reserved := none } } := by
    rw [← hu]
    exact State.cluster_setCluster _ _ _
  have hv : (u.cluster v).cistern = dropFirst (s.cluster v).cistern e := by
    by_cases hvp : v = p
    · rw [hvp, hp, ← hvp]
      exact htake
    · rw [← htake, ← hu]
      exact congrArg Cluster.cistern (tget_tset_other _ _ _ hvp)
  obtain ⟨a, ha, -, hdue⟩ := State.poke_agenda (u.soon (.probeAnswer p true)) v
  have hnow' : u.now = s.now ∧ u.slots = s.slots := by
    rw [← hu]
    exact ⟨hnow, hslots⟩
  rw [← ht, ha]
  refine ⟨?_, (congrArg Cluster.stolen hp :), (congrArg Cluster.probing hp :), hdue _ (hnow'.1 ▸ State.due_soon u _), hnow'.2⟩
  exact (congrArg (fun l : List Entry => l.length + 1) hv :).trans (length_dropFirst he)

/-! ## Its answer (15 R264) -/

/-- A stolen entry that its cluster cannot place joins its queue. -/
theorem exec_probeAnswer_enqueue {e : Entry} (he : s.ev = some (.probeAnswer p true)) (hs : (s.cluster p).stolen = some e)
    (hn : ∀ a ∈ withLayers e.hdr (clusterPositions p), (s.setCluster p { (s.cluster p).endSearch with stolen := none }).canPlace e a = false) :
    exec .probeAnswer s = .next ((s.setCluster p { (s.cluster p).endSearch with stolen := none }).enqueue p e) := by
  have hnone : (withLayers e.hdr (clusterPositions p)).find? ((s.setCluster p { (s.cluster p).endSearch with stolen := none }).canPlace e) = none :=
    List.find?_eq_none.2 fun a ha => by simp [hn a ha]
  show execProbeAnswer s = _
  unfold execProbeAnswer
  split
  · next h =>
    cases he.symm.trans h
    dsimp only
    rw [hs]
    dsimp only
    rw [hnone]
  · next h => exact (h _ _ he).elim

theorem exec_probeAnswer_failed (he : s.ev = some (.probeAnswer p false)) :
    exec .probeAnswer s = .next (if (s.cluster p).probing.isNone then s else s.probeFailed p) := by
  show execProbeAnswer s = _
  unfold execProbeAnswer
  split
  · next h =>
    cases he.symm.trans h
    rfl
  · next h => exact (h _ _ he).elim

/-- An entry that a cluster with room takes stands last in its queue, whether or not a peer's packet is counted with it. -/
theorem enqueue_joins {u : State} {cl : Nat} {e : Entry} (h : (u.cluster cl).cistern.length < 4096 ∧ (u.cluster cl).waiting = []) :
    (u.enqueue cl e).cluster cl = { (u.cluster cl).endSearch with cistern := (u.cluster cl).cistern ++ [{ e with sent := none }] } ∧
      (u.enqueue cl e).slots = u.slots ∧ (u.enqueue cl e).mem = u.mem := by
  rw [State.enqueue]
  dsimp only
  rw [if_pos h]
  have hset := State.cluster_setCluster u cl { (u.cluster cl).endSearch with cistern := (u.cluster cl).cistern ++ [{ e with sent := none }] }
  unfold State.receive
  split
  · exact ⟨hset, rfl, rfl⟩
  · exact ⟨hset, rfl, rfl⟩

theorem probeFailed_next {c : Nat} {r : List Nat} (h : (s.cluster p).probes = v :: c :: r) : s.probeFailed p =
    (s.setCluster p { s.cluster p with steals := (s.cluster p).steals + 1, probes := c :: r, probing := none }).probeNext p c := by
  rw [State.probeFailed, h]
  rfl

theorem probeFailed_last (h : (s.cluster p).probes = [v]) : s.probeFailed p =
    (s.setCluster p { s.cluster p with steals := (s.cluster p).steals + 1, probes := [], probing := none, retryAt := s.now + usTicks }).schedule (s.now + usTicks)
      (.stealRetryExpiry p) := by
  rw [State.probeFailed, h]
  rfl

/-! ## The end of a pause (15 R264) -/

theorem exec_stealRetryExpiry_early (he : s.ev = some (.stealRetryExpiry p)) (hn : s.now < (s.cluster p).retryAt) : exec .stealRetryExpiry s = .next s := by
  show execStealRetryExpiry s = _
  unfold execStealRetryExpiry
  split
  · next h =>
    cases he.symm.trans h
    exact if_pos (.inr (.inr hn))
  · next h => exact (h _ he).elim

theorem exec_stealRetryExpiry (he : s.ev = some (.stealRetryExpiry p)) (hh : (s.cluster p).hungry.isSome = true) (h0 : (s.cluster p).retryAt ≠ 0)
    (hn : (s.cluster p).retryAt ≤ s.now) : exec .stealRetryExpiry s =
    match s.isHungry p, s.searchOrder p with
    | true, v :: r => .next ((s.setCluster p { s.cluster p with probes := v :: r, retryAt := 0 }).probeNext p v)
    | true, [] => .next (s.setCluster p (s.cluster p).endSearch)
    | false, _ => .next (s.setCluster p (s.cluster p).fed) := by
  have hgo : ¬ ((s.cluster p).hungry.isNone = true ∨ (s.cluster p).retryAt = 0 ∨ s.now < (s.cluster p).retryAt) := by
    rintro (h | h | h)
    · rw [Option.isNone_iff_eq_none] at h
      rw [h] at hh
      cases hh
    · exact h0 h
    · exact absurd h (Nat.not_lt.2 hn)
  show execStealRetryExpiry s = _
  unfold execStealRetryExpiry
  split
  · next h =>
    cases he.symm.trans h
    dsimp only
    rw [if_neg hgo] <;> rfl
  · next h => exact (h _ he).elim

end

theorem hungryClustersSearch : HungryClustersSearch := by
  refine fun s p v => ⟨fun he hh hp hv hy => ⟨fun hn => ?_, fun e hs hmem => ?_⟩, exec_stealProbe_yields, fun he e hs hn hlen hwait => ?_,
    fun he hp => ⟨fun c r hl => ?_, fun hl => ?_⟩, fun he hp => ?_, fun he hh h0 hn => ⟨fun r hy ho => ?_, fun hy => ?_⟩, exec_stealRetryExpiry_early⟩
  · rw [exec_stealProbe he hh hp hv hy, hn]
  · have hexec := exec_stealProbe he hh hp hv hy
    rw [hs] at hexec
    exact ⟨_, hexec, stolen_leaves hmem rfl⟩
  · have hset := State.cluster_setCluster s p { (s.cluster p).endSearch with stolen := none }
    obtain ⟨hcluster, hslots, -⟩ := enqueue_joins (u := s.setCluster p { (s.cluster p).endSearch with stolen := none }) (cl := p) (e := e)
      (by rw [hset]; exact ⟨hlen, hwait⟩)
    rw [hset] at hcluster
    exact ⟨_, exec_probeAnswer_enqueue he hs hn, congrArg Cluster.cistern hcluster, congrArg Cluster.stolen hcluster, hslots⟩
  · have hexec := exec_probeAnswer_failed he
    rw [if_neg (by simpa [Option.isSome_iff_ne_none] using hp), probeFailed_next hl] at hexec
    have hset := State.cluster_setCluster s p { s.cluster p with steals := (s.cluster p).steals + 1, probes := c :: r, probing := none }
    exact ⟨_, hexec, (congrArg Cluster.probes hset :), (congrArg Cluster.steals hset :), State.due_schedule _ _ _, rfl⟩
  · have hexec := exec_probeAnswer_failed he
    rw [if_neg (by simpa [Option.isSome_iff_ne_none] using hp), probeFailed_last hl] at hexec
    have hset := State.cluster_setCluster s p { s.cluster p with steals := (s.cluster p).steals + 1, probes := [], probing := none, retryAt := s.now + usTicks }
    exact ⟨_, hexec, (congrArg Cluster.probes hset :), (congrArg Cluster.retryAt hset :), State.due_schedule _ _ _, rfl⟩
  · exact (exec_probeAnswer_failed he).trans (congrArg _ (if_pos (by rw [hp]; rfl)))
  · have hexec := exec_stealRetryExpiry he hh h0 hn
    rw [hy, ho] at hexec
    have hset := State.cluster_setCluster s p { s.cluster p with probes := v :: r, retryAt := 0 }
    exact ⟨_, hexec, (congrArg Cluster.probes hset :), (congrArg Cluster.retryAt hset :), State.due_schedule _ _ _, rfl⟩
  · have hexec := exec_stealRetryExpiry he hh h0 hn
    rw [hy] at hexec
    have hset := State.cluster_setCluster s p (s.cluster p).fed
    exact ⟨_, hexec, (congrArg Cluster.hungry hset :), rfl⟩

end Sys2Proof.Claims
end

section
/-! Launches by the host and by peers (15 R268 to R270), and pre-emption (25 R395). -/

namespace Sys2Proof.Machine

/-! ## Sorting -/

theorem insertBy_eq_orderedInsert {α : Type} (le : α → α → Bool) (x : α) (l : List α) : insertBy le x l = l.orderedInsert (fun a b => le a b = true) x := by
  induction l with
  | nil => rfl
  | cons y l ih =>
    rw [insertBy, List.orderedInsert_cons, ih]

/-- The model's sort is the library's. -/
theorem isort_eq_insertionSort {α : Type} (le : α → α → Bool) (l : List α) : isort le l = l.insertionSort (fun a b => le a b = true) := by
  induction l with
  | nil => rfl
  | cons x l ih =>
    rw [List.insertionSort_cons, ← ih, ← insertBy_eq_orderedInsert]
    rfl

/-- A sorted list stays. -/
theorem isort_of_pairwise {α : Type} {le : α → α → Bool} {l : List α} (h : l.Pairwise fun a b => le a b = true) : isort le l = l := by
  rw [isort_eq_insertionSort]
  exact h.insertionSort_eq

/-- The order in which firmware takes victims is total (25 R395). -/
theorem firmwareTakes_total (a b : Gang) : firmwareTakes a b = true ∨ firmwareTakes b a = true := by
  simp only [firmwareTakes, decide_eq_true_eq]
  omega

theorem firmwareTakes_trans {a b c : Gang} (h : firmwareTakes a b = true) (h' : firmwareTakes b c = true) : firmwareTakes a c = true := by
  simp only [firmwareTakes, decide_eq_true_eq] at *
  omega

/-- The candidates of a core stand in the order in which firmware takes them. -/
theorem State.candidates_pairwise (s : State) (e : Entry) (c : Nat) : (s.candidates e c).Pairwise fun a b => firmwareTakes a.2 b.2 = true := by
  unfold State.candidates
  rw [isort_eq_insertionSort]
  have : Std.Total fun a b : Nat × Gang => firmwareTakes a.2 b.2 = true := ⟨fun a b => firmwareTakes_total a.2 b.2⟩
  have : IsTrans (Nat × Gang) fun a b => firmwareTakes a.2 b.2 = true := ⟨fun a b c => firmwareTakes_trans⟩
  exact List.pairwise_insertionSort _ _

end Sys2Proof.Machine

namespace Sys2Proof.Claims

open Sys2Proof.Machine

section
variable {s t : State} {j cl : Nat} {p : List Word} {h : Word}

/-! ## Launches -/

theorem packetJob_set (p : List Word) (w : Word) : packetJob (p.set 3 w) = packetJob p := by
  unfold packetJob
  rw [List.getD_eq_getElem?_getD, List.getD_eq_getElem?_getD, List.getElem?_set_ne (by decide)]

/-- A packet is accepted only for its own job, of a sender that may launch for it, and by a unit with room (15 R270). -/
theorem launchCheck_ok {known : Bool} (hc : s.launchCheck j p known = .ok (h, cl)) : known = true ∧ packetJob p = j ∧ (s.cluster cl).full = false := by
  unfold State.launchCheck at hc
  dsimp only at hc
  split at hc
  · cases hc
  · next hknown =>
    simp only [Bool.or_eq_true, Bool.not_eq_true', bne_iff_ne, not_or, Bool.not_eq_false, ne_eq, not_not] at hknown
    obtain ⟨⟨⟨hk, hj⟩, -⟩, -⟩ := hknown
    refine ⟨hk, hj, ?_⟩
    split at hc
    · cases hc
    split at hc
    · cases hc
    split at hc
    · cases hc
    split at hc
    · cases hc
    split at hc
    · cases hc
    split at hc
    · cases hc
    · next hcl =>
      obtain ⟨rfl, rfl⟩ := Prod.mk.inj (Except.ok.inj hc)
      have hfound := List.find?_some hcl
      rw [Bool.and_eq_true, Bool.not_eq_true'] at hfound
      exact hfound.2

theorem startPasses_leaves (s : State) (j : Nat) : (s.startPasses j).clusters = s.clusters ∧ (s.startPasses j).slots = s.slots ∧ (s.startPasses j).mem = s.mem := by
  unfold State.startPasses
  dsimp only
  split
  · split <;> exact ⟨rfl, rfl, rfl⟩
  · exact ⟨rfl, rfl, rfl⟩

/-- An accepted packet joins its unit's queue, its VT raised to lw (18 R310). -/
theorem accept_accepts (hj : packetJob p = j) (hroom : (s.cluster cl).full = false) (sent : Option Bool) : Accepted s (s.accept j p h cl sent) j p h cl := by
  unfold State.accept
  dsimp only
  generalize hs1 : s.setJob j { s.job j with nextLaunch := (s.job j).nextLaunch + (if bitAt (p.getD 6 0) 46 then 0 else 1) } = s1
  have hfirst : s1.cluster cl = s.cluster cl ∧ s1.slots = s.slots ∧ s1.mem = s.mem := by
    rw [← hs1]
    exact ⟨rfl, rfl, rfl⟩
  obtain ⟨hcl1, hslots1, hmem1⟩ := hfirst
  generalize he : ({ (s1.newTask cl).2.taskEntry (p.set 3 (BitVec.ofNat 64 (max (packetVt p) (s.lwAt j ((s.job j).shareCore cl))))) h (s1.newTask cl).1 with
    late := (s.job j).cutPassed ((s.job j).shareCore cl), sent := sent } : Entry) = e
  have hentry : e.hdr = h ∧ e.job = j ∧ e.copy = 0 ∧ e.packet = p.set 3 (BitVec.ofNat 64 (max (packetVt p) (s.lwAt j ((s.job j).shareCore cl)))) ∧
      e.task = cl * 2 ^ 25 + (s.cluster cl).taskCount := by
    rw [← he, ← hcl1]
    exact ⟨rfl, (packetJob_set _ _).trans hj, rfl, rfl, rfl⟩
  obtain ⟨hhdr, hjob, hcopy, hpacket, htask⟩ := hentry
  have hset : (s1.newTask cl).2.cluster cl = { s.cluster cl with taskCount := ((s.cluster cl).taskCount + 1) % 2 ^ 25 } := by
    rw [State.newTask, State.cluster_setCluster, hcl1]
  obtain ⟨hcluster, hslots, hmem⟩ := enqueue_joins (u := (s1.newTask cl).2) (cl := cl) (e := e) (by rw [hset]; exact full_eq_false.1 hroom)
  obtain ⟨hcs, hss, hms⟩ := startPasses_leaves ((s1.newTask cl).2.enqueue cl e) j
  rw [hset] at hcluster
  generalize hw : (s1.newTask cl).2.enqueue cl e = w at *
  have hfinal : (w.startPasses j).cluster cl = w.cluster cl := by
    rw [State.cluster, hcs]
    rfl
  rw [hcluster] at hfinal
  have haccepted : Accepted s (w.startPasses j) j p h cl :=
    ⟨{ e with sent := none }, congrArg Cluster.cistern hfinal, hhdr, hjob, hcopy, hpacket, htask, congrArg Cluster.taskCount hfinal,
      hss.trans (hslots.trans hslots1), hms.trans (hmem.trans hmem1)⟩
  split
  · exact haccepted
  · exact haccepted

/-! ## Packets that are refused -/

theorem stampWrite_leaves (s : State) (j : Nat) (ws : List Word) : (s.stampWrite j ws).clusters = s.clusters ∧ (s.stampWrite j ws).slots = s.slots := by
  have hwrite : ∀ a, (s.writeArea j a ws).clusters = s.clusters ∧ (s.writeArea j a ws).slots = s.slots := fun a => by
    unfold State.writeArea
    split
    · next pa _ =>
      have hstore := s.hbmWrite_storeOnly pa (ws.foldr (fun w n => w.toNat + 2 ^ 64 * n) 0) (8 * ws.length)
      unfold State.unitWrite
      rw [State.revokeWords_sliceOnly _ _]
      rw [hstore]
      exact ⟨rfl, rfl⟩
    · exact ⟨rfl, rfl⟩
  unfold State.stampWrite
  dsimp only
  split
  · exact ⟨rfl, rfl⟩
  · exact hwrite _

theorem offer_accepted {known : Bool} (sent : Option Bool) (hc : s.launchCheck j p known = .ok (h, cl)) : Accepted s (s.offer j p known sent) j p h cl := by
  obtain ⟨-, hj, hroom⟩ := launchCheck_ok hc
  rw [State.offer, hc]
  exact accept_accepts hj hroom sent

theorem offer_refused {known : Bool} {c : Refused} (sent : Option Bool) (hc : s.launchCheck j p known = .error c) :
    (s.offer j p known sent).clusters = s.clusters ∧ (s.offer j p known sent).slots = s.slots := by
  rw [State.offer, hc]
  dsimp only
  cases sent with
  | none => exact stampWrite_leaves _ _ _
  | some red =>
    exact ⟨(stampWrite_leaves _ _ _).1.trans rfl, (stampWrite_leaves _ _ _).2.trans rfl⟩

theorem offerBoth_alone {known : Bool} (sent : Option Bool) (ha : Alone s j) : s.offerBoth j p known sent = s.offer j p known sent := by
  unfold State.offerBoth
  dsimp only
  rw [show (s.job j).lockstep = none from ha]

/-! ## The launch windows -/

theorem exec_hostLaunch {jslot off : Nat} (he : s.ev = some (.hostLaunch jslot off p)) : exec .hostLaunch s =
    match s.jobs.find? (fun j => j.2.isOpen && j.2.jslot == jslot) with
    | none => .next { s with launchDrop := s.launchDrop + 1 }
    | some (j, _) =>
      if p.length ≠ 8 ∨ off % 64 ≠ 0 then .next { s with launchDrop := s.launchDrop + 1 }
      else .next (s.offerBoth j p true none) := by
  show execHostLaunch s = _
  unfold execHostLaunch
  split
  · next h =>
    cases he.symm.trans h
    rfl
  · next h => exact (h _ _ _ he).elim

theorem exec_peerLaunch {modul tenant : Nat} {red : Bool} (he : s.ev = some (.peerLaunch j modul tenant red p)) : exec .peerLaunch s =
    if (s.job j).isOpen = false then .next s.countClosed
    else .next (s.offerBoth j p ((s.job j).act.any fun a => a.2 == (modul, tenant)) (some red)) := by
  show execPeerLaunch s = _
  unfold execPeerLaunch
  split
  · next h =>
    cases he.symm.trans h
    rfl
  · next h => exact (h _ _ _ _ _ he).elim

theorem launchCheck_unknown (s : State) (j : Nat) (p : List Word) : s.launchCheck j p false = .error .prot := rfl

/-! ## Pre-emption (25 R395) -/

/-- A state in which nothing differs but which cores the entries of queues keep. -/
structure ReservationsOnly (s t : State) : Prop where
  same : t = { s with clusters := t.clusters }
  fused : ∀ c, (t.cluster c).fused = (s.cluster c).fused
  attn : ∀ c, (t.cluster c).attn = (s.cluster c).attn

theorem ReservationsOnly.refl (s : State) : ReservationsOnly s s := ⟨rfl, fun _ => rfl, fun _ => rfl⟩

theorem keepCore_reservationsOnly (s : State) (cl : Nat) (e : Entry) (c : Option Nat) : ReservationsOnly s (s.keepCore cl e c) := by
  unfold State.keepCore
  refine ⟨rfl, fun x => ?_, fun x => ?_⟩
  all_goals
    by_cases hx : x = cl
    · subst hx
      rw [State.cluster_setCluster]
    · unfold State.cluster State.setCluster
      rw [tget_tset_other _ _ _ hx]

/-- What pre-emption chooses depends on nothing that an entry keeps. -/
theorem ReservationsOnly.candidates (h : ReservationsOnly s t) (e : Entry) (c : Nat) : t.candidates e c = s.candidates e c := by
  rw [h.same]
  rfl

theorem ReservationsOnly.partNeed (h : ReservationsOnly s t) (g c : Nat) : t.partNeed g c = s.partNeed g c := by
  have hctx : ∀ g, t.partCtxs g c = s.partCtxs g c := fun g => by
    unfold State.partCtxs
    rw [h.attn, h.same]
    rfl
  unfold State.partNeed
  simp only [hctx, h.fused]
  rw [h.same]
  rfl

theorem ReservationsOnly.hasRoom (h : ReservationsOnly s t) (c : Nat) (n : Need) : t.hasRoom c n = s.hasRoom c n := by
  unfold State.hasRoom
  rw [h.attn, h.fused, h.same]
  rfl

theorem ReservationsOnly.victimPlace (h : ReservationsOnly s t) (g c : Nat) (l : List Nat) : t.victimPlace g c l = s.victimPlace g c l := by
  unfold State.victimPlace
  simp only [h.partNeed, h.hasRoom]
  rw [h.same]
  rfl

/-- Cores that give nothing may be left out. -/
theorem flatMap_filter_nonempty {α β : Type} (f : α → List β) (l : List α) : (l.filter fun x => !(f x).isEmpty).flatMap f = l.flatMap f := by
  induction l with
  | nil => rfl
  | cons x l ih =>
    cases hx : f x with
    | nil => simp [hx, ih]
    | cons y r => simp [hx, ih]

/-- The migration that moves a victim. -/
def victimMove (s : State) (g c d : Nat) : Migr :=
  { slot := 2 ^ 32 + g, gang := g, score := c, dcore := d, dmod := (s.job (s.gang g).job).self, len := 0, dest := 0 }

/-- Firmware moves the first candidate of the one target core that has any. -/
theorem preemptFor_moves {e : Entry} {l : List Nat} {c g d : Nat} {q : Gang} {r : List (Nat × Gang)}
    (hl : l.filter (fun x => !(s.candidates e x).isEmpty) = [c]) (hs : ∀ m ∈ s.migrs, m.score ∉ l) (hc : s.candidates e c = (g, q) :: r)
    (hg : ∀ m ∈ s.migrs, m.gang ≠ g) (hd : s.victimPlace g c l = some d) :
    s.preemptFor e l = { s with migrs := s.migrs ++ [victimMove s g c d] }.soon (.migrRequestArrival (2 ^ 32 + g)) := by
  have hall : (l.flatMap fun c => (s.candidates e c).map fun g => (c, g)) = (s.candidates e c).map fun g => (c, g) := by
    rw [← flatMap_filter_nonempty]
    simp only [List.isEmpty_map]
    rw [hl, List.flatMap_singleton]
  have hsorted : isort (fun (a b : Nat × Nat × Gang) => firmwareTakes a.2.2 b.2.2) ((s.candidates e c).map fun g => (c, g)) =
      (s.candidates e c).map fun g => (c, g) := isort_of_pairwise (List.pairwise_map.2 (s.candidates_pairwise e c))
  have hscore : ¬ (s.migrs.any fun m => l.contains m.score) = true := by
    rw [List.any_eq_true]
    rintro ⟨m, hm, hin⟩
    exact hs m hm (List.contains_iff_mem.1 hin)
  have hgang : ¬ (s.migrs.any fun m => m.gang == g) = true := by
    rw [List.any_eq_true]
    rintro ⟨m, hm, heq⟩
    exact hg m hm (by simpa using heq)
  unfold State.preemptFor
  dsimp only
  rw [hall, hsorted, hc, if_neg hscore, List.map_cons, List.filterMap_cons]
  dsimp only
  rw [if_neg hgang, hd]
  rfl

/-- Pre-emption for the one entry that has waited long enough. -/
theorem exec_preemption (he : s.ev = some (.preemption cl)) {l : List Entry} (hp : s.preemptors cl = l) : exec .preemption s = .next (l.foldl (fun (u : State) e =>
      if u.now < e.since + (u.job e.job).preemptWait * usTicks then u
      else match e.oneCore, e.reserved with
        | false, some a => u.preemptFor e (e.coresAt a)
        | false, none => u
        | true, _ => (u.keepCore cl e (u.targetCore cl e)).preemptFor e (u.targetCore cl e).toList) s) := by
  subst hp
  show execPreemption s = _
  unfold execPreemption
  split
  · next h =>
    cases he.symm.trans h
    rfl
  · next h => exact (h _ he).elim

/-- What a move leaves, and that it is under way. -/
theorem move_leaves {u : State} (e : Entry) {l : List Nat} {c g d : Nat} {q : Gang} {r : List (Nat × Gang)} (hu : ReservationsOnly s u)
    (hl : l.filter (fun x => !(s.candidates e x).isEmpty) = [c]) (hs : ∀ m ∈ s.migrs, m.score ∉ l) (hc : s.candidates e c = (g, q) :: r)
    (hg : ∀ m ∈ s.migrs, m.gang ≠ g) (hd : s.victimPlace g c l = some d) :
    (s.now, Ev.migrRequestArrival (2 ^ 32 + g)) ∈ (u.preemptFor e l).agenda ∧
      (∃ m, (u.preemptFor e l).migrs = s.migrs ++ [m] ∧ m.gang = g ∧ m.score = c ∧ m.dcore = d) ∧ (u.preemptFor e l).slots = s.slots ∧
      (u.preemptFor e l).clusters = u.clusters := by
  have hmigrs : u.migrs = s.migrs := by rw [hu.same]
  have hnow : u.now = s.now := by rw [hu.same]
  have hslots : u.slots = s.slots := by rw [hu.same]
  rw [preemptFor_moves (by simp only [hu.candidates]; exact hl) (hmigrs ▸ hs) ((hu.candidates e c).trans hc) (hmigrs ▸ hg) ((hu.victimPlace g c l).trans hd)]
  exact ⟨hnow ▸ State.due_soon _ _, ⟨victimMove u g c d, congrArg (· ++ _) hmigrs, rfl, rfl, rfl⟩, hslots, rfl⟩

/-- A one-core entry that is the only one of its kind keeps its target core. -/
theorem reserved_keepCore {e f : Entry} {c : Nat} (hf : f ∈ ((s.keepCore cl e (some c)).cluster cl).cistern) (hs : f.same e = true)
    (hone : (s.cluster cl).cistern.filter (fun x => x.same e) = [e]) : f.reserved = some (coreX c, coreY c, coreZ c) := by
  rw [State.keepCore, State.cluster_setCluster] at hf
  obtain ⟨x, hx, rfl⟩ := List.mem_map.1 hf
  have hsame : x.same e = true := by
    split at hs
    · exact hs
    · exact hs
  have hxe : x = e := by
    have : x ∈ (s.cluster cl).cistern.filter (fun x => x.same e) := List.mem_filter.2 ⟨hx, hsame⟩
    rw [hone] at this
    exact List.mem_singleton.1 this
  rw [if_pos hxe]
  rfl

end

theorem launchesAndPreemption : LaunchesAndPreemption := by
  refine fun s data => ⟨fun jslot off he => ⟨fun hbad => ?_, fun j r hj ha hlen hoff => ⟨fun h cl hc => ?_, fun c hc => ?_⟩⟩,
    fun j modul tenant red he hlen => ⟨fun ho => ?_, fun ho ha => ⟨fun h cl hc => ?_, fun hk => ?_⟩⟩,
    fun cl e a c g q d r he hp hwait => ?_, fun cl he hp => ?_⟩
  · have hexec := exec_hostLaunch he
    cases hf : s.jobs.find? (fun j => j.2.isOpen && j.2.jslot == jslot) with
    | none =>
      rw [hf] at hexec
      exact hexec
    | some j =>
      rw [hf] at hexec
      have hbad' : data.length ≠ 8 ∨ off % 64 ≠ 0 := by
        refine hbad.resolve_left fun h => ?_
        have hfound := List.find?_some hf
        rw [h j (List.mem_of_find?_eq_some hf)] at hfound
        cases hfound
      exact hexec.trans (if_pos hbad')
  · have hexec := exec_hostLaunch he
    rw [hj] at hexec
    dsimp only at hexec
    rw [if_neg (by simp [hlen, hoff]), offerBoth_alone _ ha] at hexec
    exact ⟨_, hexec, offer_accepted none hc⟩
  · have hexec := exec_hostLaunch he
    rw [hj] at hexec
    dsimp only at hexec
    rw [if_neg (by simp [hlen, hoff]), offerBoth_alone _ ha] at hexec
    exact ⟨_, hexec, offer_refused none hc⟩
  · exact (exec_peerLaunch he).trans (if_pos ho)
  · have hexec := exec_peerLaunch he
    rw [if_neg (by simp [ho]), offerBoth_alone _ ha] at hexec
    exact ⟨(launchCheck_ok hc).1, _, hexec, offer_accepted _ hc⟩
  · have hexec := exec_peerLaunch he
    rw [if_neg (by simp [ho]), offerBoth_alone _ ha, hk] at hexec
    exact ⟨_, hexec, offer_refused _ (launchCheck_unknown s j data)⟩
  · intro l hres hl hs hc hg hd
    have hexec := exec_preemption he hp
    rw [List.foldl_cons, List.foldl_nil, if_neg (Nat.not_lt.2 hwait)] at hexec
    cases ho : e.oneCore with
    | false =>
      have hla : l = e.coresAt a := by simp only [l, ho, Bool.false_eq_true, if_false]
      rw [ho, hres ho] at hexec
      dsimp only at hexec
      rw [← hla] at hexec
      obtain ⟨hdue, hm, hslots, -⟩ := move_leaves e (.refl s) hl hs hc hg hd
      exact ⟨_, hexec, hdue, hm, hslots, fun h => absurd h (by simp)⟩
    | true =>
      have hla : l = (s.targetCore cl e).toList := by simp only [l, ho, if_true]
      obtain ⟨hdue, hm, hslots, hclusters⟩ := move_leaves e (keepCore_reservationsOnly s cl e (s.targetCore cl e)) hl hs hc hg hd
      rw [ho] at hexec
      dsimp only at hexec
      rw [← hla] at hexec
      refine ⟨_, hexec, hdue, hm, hslots, fun _ f hf hsame _ hone => ?_⟩
      have htarget : s.targetCore cl e = some c := by
        have hmem : c ∈ l := (List.mem_filter.1 (hl ▸ List.mem_singleton_self c)).1
        rw [hla] at hmem
        exact Option.mem_toList.1 hmem
      rw [State.cluster, hclusters, htarget] at hf
      exact reserved_keepCore hf hsame hone
  · rw [exec_preemption he hp, List.foldl_nil]

/-- Settles O39. -/
theorem searchLaunchAndPreemption : Obligations.SearchLaunchAndPreemption := ⟨hungryClustersSearch, launchesAndPreemption⟩

end Sys2Proof.Claims
end

section
/-! A unit places a whole gang or leaves its entry where it is (15 R255, R260, R262, R263). -/

namespace Sys2Proof.Machine

/-! ## The cores of a gang (15 R255) -/

theorem hdrLayers_le (h : Word) : hdrLayers h ≤ 2 := by
  have := bits_lt h 33 1
  unfold hdrLayers
  omega

/-- The cores of an entry's gang are distinct. -/
theorem Entry.coresAt_nodup (e : Entry) (a : Nat × Nat × Nat) : (e.coresAt a).Nodup := by
  unfold Entry.coresAt
  split
  · exact List.nodup_nil
  · next hfit =>
    have hx : a.1 + hdrW e.hdr ≤ 32 ∧ a.2.1 + hdrH e.hdr ≤ 16 := by omega
    have hlt : (({ hdr := e.hdr, x0 := a.1, y0 := a.2.1, z0 := a.2.2 } : Gang).placed).Pairwise (· < ·) := by
      unfold Gang.placed coreOf
      dsimp only
      refine List.pairwise_flatMap.2 ⟨fun l _ => List.pairwise_flatMap.2 ⟨fun j _ => ?_, ?_⟩, ?_⟩
      · exact List.pairwise_map.2 (List.pairwise_lt_range.imp fun h => by omega)
      · refine List.pairwise_lt_range.imp fun {j j'} hj x hx y hy => ?_
        obtain ⟨i, hi, rfl⟩ := List.mem_map.1 hx
        obtain ⟨i', hi', rfl⟩ := List.mem_map.1 hy
        have := List.mem_range.1 hi
        omega
      · refine (List.pairwise_lt_range (n := hdrLayers e.hdr)).imp_of_mem fun {l l'} hl hl' hll x hx y hy => ?_
        obtain ⟨j, hj, hx⟩ := List.mem_flatMap.1 hx
        obtain ⟨i, hi, rfl⟩ := List.mem_map.1 hx
        obtain ⟨j', hj', hy⟩ := List.mem_flatMap.1 hy
        obtain ⟨i', hi', rfl⟩ := List.mem_map.1 hy
        have h2 := hdrLayers_le e.hdr
        have hl2 := List.mem_range.1 hl'
        have := List.mem_range.1 hi
        have := List.mem_range.1 hj
        have htwo : hdrLayers e.hdr = 2 := by omega
        rw [if_pos htwo, if_pos htwo]
        omega
    exact hlt.imp fun h => Nat.ne_of_lt h

/-! ## The start of strands (01 R23; 06 R110) -/

section
variable {s t u : State} {g cl c i : Nat} {e : Entry}

/-- The queues stand as they were, and a gang but for its tiles and barriers. -/
structure PlacingKept (s t : State) (g : Nat) : Prop where
  cistern : ∀ cl, (t.cluster cl).cistern = (s.cluster cl).cistern
  waiting : ∀ cl, (t.cluster cl).waiting = (s.cluster cl).waiting
  gang : ∃ ts bs, t.gang g = { s.gang g with tiles := ts, bars := bs }

theorem PlacingKept.of_same (hc : t.clusters = s.clusters) (hg : t.gangs = s.gangs) : PlacingKept s t g := by
  refine ⟨fun cl => ?_, fun cl => ?_, (s.gang g).tiles, (s.gang g).bars, ?_⟩
  · rw [State.cluster, hc]
    rfl
  · rw [State.cluster, hc]
    rfl
  · rw [State.gang, hg]
    rfl

theorem PlacingKept.trans (h : PlacingKept s t g) (h' : PlacingKept t u g) : PlacingKept s u g := by
  obtain ⟨ts, bs, hg⟩ := h.gang
  obtain ⟨ts', bs', hg'⟩ := h'.gang
  exact ⟨fun cl => (h'.cistern cl).trans (h.cistern cl), fun cl => (h'.waiting cl).trans (h.waiting cl), ts', bs', by rw [hg', hg]⟩

/-- A cluster of which only other things change keeps its queue. -/
theorem PlacingKept.setCluster {k : Cluster} (hc : k.cistern = (s.cluster cl).cistern) (hw : k.waiting = (s.cluster cl).waiting) :
    PlacingKept s (s.setCluster cl k) g := by
  refine ⟨fun x => ?_, fun x => ?_, (s.gang g).tiles, (s.gang g).bars, rfl⟩
  all_goals
    by_cases hx : x = cl
    · subst hx
      rw [State.cluster_setCluster]
      assumption
    · unfold State.cluster State.setCluster
      rw [tget_tset_other _ _ _ hx]

theorem foldl_setCore_leaves (f : State → Nat → Core) (l : List Nat) (s : State) :
    (l.foldl (fun (u : State) i => u.setCore (clusterCore cl i) (f u i)) s).clusters = s.clusters ∧
      (l.foldl (fun (u : State) i => u.setCore (clusterCore cl i) (f u i)) s).gangs = s.gangs ∧
      (l.foldl (fun (u : State) i => u.setCore (clusterCore cl i) (f u i)) s).slots = s.slots := by
  induction l generalizing s with
  | nil => exact ⟨rfl, rfl, rfl⟩
  | cons i l ih => exact ih _

theorem State.setFuse_placing (s : State) (g cl : Nat) (fuse : Bool) : PlacingKept s (s.setFuse cl fuse) g ∧ (s.setFuse cl fuse).slots = s.slots := by
  unfold State.setFuse
  split
  · exact ⟨.of_same rfl rfl, rfl⟩
  · obtain ⟨hc, hg, hs⟩ := foldl_setCore_leaves (cl := cl) (fun u i => { u.core (clusterCore cl i) with l1 := [] }) (List.range 8)
      (s.setCluster cl { s.cluster cl with fused := fuse })
    have hset : PlacingKept s (s.setCluster cl { s.cluster cl with fused := fuse }) g := .setCluster rfl rfl
    exact ⟨hset.trans (.of_same hc hg), hs⟩

theorem State.claimCore_placing (s : State) (g c j : Nat) : PlacingKept s (s.claimCore c j) g ∧ (s.claimCore c j).slots = s.slots := by
  unfold State.claimCore
  dsimp only
  generalize hu : (if (s.pair (pairOf c)).tenant = (s.job j).tenant then _ else _ : State) = u
  have hleaves : u.clusters = s.clusters ∧ u.gangs = s.gangs ∧ u.slots = s.slots := by
    rw [← hu]
    split
    · split <;> exact ⟨rfl, rfl, rfl⟩
    · split <;> exact ⟨rfl, rfl, rfl⟩
  obtain ⟨hc, hg, hs⟩ := hleaves
  obtain ⟨a, ha, -⟩ := u.poke_agenda (clusterOf c)
  rw [ha]
  exact ⟨.of_same hc hg, hs⟩

theorem State.assign_placing (s : State) (g c acc bars : Nat) : PlacingKept s (s.assign g c acc bars) g ∧ (s.assign g c acc bars).slots = s.slots :=
  ⟨⟨fun _ => rfl, fun _ => rfl, Claims.gang_assign s g c acc bars⟩, rfl⟩

theorem State.acquire_placing (s : State) (g c : Nat) : PlacingKept s (s.acquire c) g ∧ (s.acquire c).slots = s.slots := by
  obtain ⟨cs, h⟩ := Claims.acquire_cores s c
  rw [h]
  exact ⟨.of_same rfl rfl, rfl⟩

/-- Strands launched in distinct slots: each stands there, and every other slot is as it was. -/
theorem foldl_setSlot {α : Type} (key : α → Nat) (f : Slot → α → Slot) (l : List α) (hn : (l.map key).Nodup) (s : State) :
    (∀ x ∈ l, (l.foldl (fun (u : State) x => u.setSlot (key x) (f (u.slot (key x)) x)) s).slot (key x) = f (s.slot (key x)) x) ∧
      (∀ id, id ∉ l.map key → (l.foldl (fun (u : State) x => u.setSlot (key x) (f (u.slot (key x)) x)) s).slot id = s.slot id) := by
  induction l generalizing s with
  | nil => exact ⟨fun _ h => (List.not_mem_nil h).elim, fun _ _ => rfl⟩
  | cons y l ih =>
    obtain ⟨hy, hn⟩ := List.nodup_cons.1 hn
    obtain ⟨hin, hout⟩ := ih hn (s.setSlot (key y) (f (s.slot (key y)) y))
    refine ⟨fun x hx => ?_, fun id hid => ?_⟩
    · obtain rfl | hx := List.mem_cons.1 hx
      · rw [List.foldl_cons, hout _ hy, State.slot_setSlot]
      · have hne : key x ≠ key y := fun h => hy (h ▸ List.mem_map_of_mem hx)
        rw [List.foldl_cons, hin x hx, State.slot_setSlot_other _ _ hne]
    · rw [List.map_cons, List.mem_cons, not_or] at hid
      rw [List.foldl_cons, hout id hid.2, State.slot_setSlot_other _ _ hid.1]

theorem foldl_setSlot_leaves {α : Type} (key : α → Nat) (f : Slot → α → Slot) (l : List α) (s : State) :
    (l.foldl (fun (u : State) x => u.setSlot (key x) (f (u.slot (key x)) x)) s).clusters = s.clusters ∧
      (l.foldl (fun (u : State) x => u.setSlot (key x) (f (u.slot (key x)) x)) s).gangs = s.gangs := by
  induction l generalizing s with
  | nil => exact ⟨rfl, rfl⟩
  | cons y l ih => exact ih _

end

end Sys2Proof.Machine

namespace Sys2Proof.Claims

open Sys2Proof.Machine

section
variable {s t u : State} {g cl c i : Nat} {e : Entry}

theorem freeSlots_lt {x : Nat} (h : x ∈ s.freeSlots c) : x < 16 := List.mem_range.1 (List.mem_filter.1 h).1

theorem freeSlots_nodup (s : State) (c : Nat) : (s.freeSlots c).Nodup := List.nodup_range.filter _

theorem freeSlots_congr (h : ∀ k, k < 16 → t.slot (c * 16 + k) = s.slot (c * 16 + k)) : t.freeSlots c = s.freeSlots c := by
  unfold State.freeSlots
  refine List.filter_congr fun k hk => ?_
  rw [h k (List.mem_range.1 hk)]

theorem launched_launch (old : Slot) (g idx : Nat) (e : Entry) (tid : Word) (slot tick : Nat) :
    Launched (old.launch g idx e.packet e.hdr tid e.ox1 slot tick) g e idx :=
  ⟨rfl, rfl, rfl, rfl, rfl, rfl, rfl, rfl, rfl, rfl, rfl, rfl, rfl⟩

/-- One core's strands stand in its lowest free slots, and no other core's slot changes. -/
theorem startCore_starts (hb : e.bind = []) :
    PlacingKept s (s.startCore g e c i) g ∧
      (∀ k ∈ ((s.freeSlots c).take (hdrSpc e.hdr)).zipIdx, Launched ((s.startCore g e c i).slot (c * 16 + k.1)) g e (i * hdrSpc e.hdr + k.2)) ∧
      ∀ id, id / 16 ≠ c → (s.startCore g e c i).slot id = s.slot id := by
  unfold State.startCore
  dsimp only
  have hslots : (s.entryNeed e i).slots = [] := by
    unfold State.entryNeed
    rw [hb]
    rfl
  rw [if_pos hslots]
  obtain ⟨h1, hs1⟩ := s.setFuse_placing g (clusterOf c) (s.entryNeed e i).fuse
  generalize s.setFuse (clusterOf c) (s.entryNeed e i).fuse = s1 at *
  obtain ⟨h2, hs2⟩ := s1.claimCore_placing g c e.job
  generalize s1.claimCore c e.job = s2 at *
  obtain ⟨h3, hs3⟩ := s2.assign_placing g c (s.entryNeed e i).acc (s.entryNeed e i).bars
  generalize s2.assign g c (s.entryNeed e i).acc (s.entryNeed e i).bars = s3 at *
  obtain ⟨h4, hs4⟩ := s3.acquire_placing g c
  generalize s3.acquire c = s4 at *
  have hkept := ((h1.trans h2).trans h3).trans h4
  have hslots4 : s4.slots = s.slots := hs4.trans (hs3.trans (hs2.trans hs1))
  generalize hl : ((s.freeSlots c).take (s.entryNeed e i).spc).zipIdx = l
  have hfst : l.map Prod.fst = (s.freeSlots c).take (hdrSpc e.hdr) := by
    rw [← hl, List.zipIdx_map_fst]
    rfl
  have hkeys : (l.map fun p => c * 16 + p.1).Nodup := by
    have : (l.map fun p => c * 16 + p.1) = (l.map Prod.fst).map (c * 16 + ·) := by rw [List.map_map]; rfl
    rw [this, hfst]
    exact ((freeSlots_nodup s c).sublist (List.take_sublist _ _)).map fun a b h => by omega
  obtain ⟨hin, hout⟩ := foldl_setSlot (fun p : Nat × Nat => c * 16 + p.1)
    (fun v p => v.launch g (i * (s.entryNeed e i).spc + p.2) e.packet e.hdr (tidOf e.packet e.flags e.task e.copy false) e.ox1 p.1 (s.nextRotation c)) l hkeys s4
  obtain ⟨hc, hg⟩ := foldl_setSlot_leaves (fun p : Nat × Nat => c * 16 + p.1)
    (fun v p => v.launch g (i * (s.entryNeed e i).spc + p.2) e.packet e.hdr (tidOf e.packet e.flags e.task e.copy false) e.ox1 p.1 (s.nextRotation c)) l s4
  refine ⟨hkept.trans (.of_same hc hg), fun k hk => ?_, fun id hid => ?_⟩
  · rw [hin k (hl ▸ hk)]
    exact launched_launch _ _ _ _ _ _ _
  · refine (hout id fun hmem => ?_).trans (by rw [State.slot, hslots4]; rfl)
    obtain ⟨p, hp, rfl⟩ := List.mem_map.1 hmem
    have hlt : p.1 < 16 := freeSlots_lt (List.mem_of_mem_take (hfst ▸ List.mem_map_of_mem hp))
    omega

/-- Core after core of a gang, on distinct cores: each has its strands. -/
theorem foldl_startCore (hb : e.bind = []) (l : List (Nat × Nat)) (hn : (l.map Prod.fst).Nodup) (s : State) :
    PlacingKept s (l.foldl (fun (u : State) p => u.startCore g e p.1 p.2) s) g ∧
      (∀ p ∈ l, ∀ k ∈ ((s.freeSlots p.1).take (hdrSpc e.hdr)).zipIdx,
        Launched ((l.foldl (fun (u : State) p => u.startCore g e p.1 p.2) s).slot (p.1 * 16 + k.1)) g e (p.2 * hdrSpc e.hdr + k.2)) ∧
      ∀ id, id / 16 ∉ l.map Prod.fst → (l.foldl (fun (u : State) p => u.startCore g e p.1 p.2) s).slot id = s.slot id := by
  induction l generalizing s with
  | nil => exact ⟨.of_same rfl rfl, fun _ h => (List.not_mem_nil h).elim, fun _ _ => rfl⟩
  | cons y l ih =>
    obtain ⟨hy, hn⟩ := List.nodup_cons.1 hn
    obtain ⟨hkept, hstart, hother⟩ := startCore_starts (s := s) (g := g) (c := y.1) (i := y.2) hb
    obtain ⟨hkept', hin, hout⟩ := ih hn (s.startCore g e y.1 y.2)
    refine ⟨hkept.trans hkept', fun p hp k hk => ?_, fun id hid => ?_⟩
    · obtain rfl | hp := List.mem_cons.1 hp
      · have hlt : k.1 < 16 := freeSlots_lt (List.mem_of_mem_take (List.fst_mem_of_mem_zipIdx hk))
        rw [List.foldl_cons, hout _ (by rwa [show (p.1 * 16 + k.1) / 16 = p.1 by omega])]
        exact hstart k hk
      · have hne : p.1 ≠ y.1 := fun h => hy (h ▸ List.mem_map_of_mem hp)
        have hfree : (s.startCore g e y.1 y.2).freeSlots p.1 = s.freeSlots p.1 := freeSlots_congr fun k hk => hother _ (by omega)
        exact hin p hp k (hfree ▸ hk)
    · rw [List.map_cons, List.mem_cons, not_or] at hid
      rw [List.foldl_cons, hout id hid.2, hother id hid.1]

/-! ## Placing -/

theorem recordCopy_leaves (s : State) (g : Nat) (e : Entry) (c : Nat) : (s.recordCopy g e c).clusters = s.clusters ∧
    (s.recordCopy g e c).gangs = s.gangs ∧ (s.recordCopy g e c).slots = s.slots := by
  unfold State.recordCopy State.noteRecord
  split
  · exact ⟨rfl, rfl, rfl⟩
  · dsimp only
    split
    · split
      · exact ⟨rfl, rfl, rfl⟩
      · split <;> exact ⟨rfl, rfl, rfl⟩
    · exact ⟨rfl, rfl, rfl⟩
    · exact ⟨rfl, rfl, rfl⟩

/-- An entry that has left its queue. -/
theorem takeEntry_only (hc : (s.cluster cl).cistern = [e]) : ((s.takeEntry cl e).cluster cl).cistern = [] ∧
    ((s.takeEntry cl e).cluster cl).waiting = (s.cluster cl).waiting := by
  rw [State.takeEntry, State.cluster_setCluster]
  refine ⟨?_, rfl⟩
  rw [hc]
  exact if_pos rfl

/-- A whole gang stands where its unit has placed it (15 R255, R260). -/
theorem placeAt_new {a : Nat × Nat × Nat} {hungry steals : Nat} (hn : e.cont = none) (hb : e.bind = []) : ∃ g,
    ((s.placeAt cl e a hungry steals).cluster cl).cistern = (s.cluster cl).cistern ∧
      ((s.placeAt cl e a hungry steals).cluster cl).waiting = (s.cluster cl).waiting ∧
      Placed ((s.placeAt cl e a hungry steals).gang g) e a ∧
      ∀ p ∈ (e.coresAt a).zipIdx, ∀ k ∈ ((s.freeSlots p.1).take (hdrSpc e.hdr)).zipIdx,
        Launched ((s.placeAt cl e a hungry steals).slot (p.1 * 16 + k.1)) g e (p.2 * hdrSpc e.hdr + k.2) := by
  refine ⟨(s.settleBuckets.newGang cl).1, ?_⟩
  unfold State.placeAt
  dsimp only
  rw [hn]
  dsimp only
  generalize hg : (s.settleBuckets.newGang cl).1 = g
  generalize hq : ({
    live := true, job := e.job, packet := e.packet, hdr := e.hdr, task := e.task, copy := e.copy, flags := e.flags,
    x0 := a.1, y0 := a.2.1, z0 := a.2.2, running := hdrStrands e.hdr, retries := e.retries, enq := e.enq,
    deq := s.settleBuckets.stamp, hungry := hungry, steals := steals, prio := e.effPrio s.settleBuckets.stamp, lp := e.lp, rback := e.rback,
    handlerFor := e.handlerFor, ox1 := e.ox1, only := e.only, parent := e.parent } : Gang) = q
  have hplaced : ∀ ts bs, Placed { q with tiles := ts, bars := bs } e a := fun ts bs => by
    rw [← hq]
    exact ⟨rfl, rfl, rfl, rfl, rfl, rfl, rfl, rfl, rfl⟩
  have hnew : PlacingKept s (s.settleBuckets.newGang cl).2 g := .trans (.of_same (t := s.settleBuckets) rfl rfl) (.setCluster rfl rfl)
  obtain ⟨hkept, hstart, -⟩ := foldl_startCore (g := g) hb (e.coresAt a).zipIdx (by rw [List.zipIdx_map_fst]; exact e.coresAt_nodup a)
    ((s.settleBuckets.newGang cl).2.setGang g q)
  generalize hu : (e.coresAt a).zipIdx.foldl (fun (u : State) p => u.startCore g e p.1 p.2) ((s.settleBuckets.newGang cl).2.setGang g q) = u at *
  obtain ⟨hc, hgs, hs⟩ := recordCopy_leaves u g e ((e.coresAt a).headD 0)
  generalize u.recordCopy g e ((e.coresAt a).headD 0) = v at *
  obtain ⟨ts, bs, hgang⟩ := hkept.gang
  rw [State.gang_setGang] at hgang
  have hv : (v.cluster cl).cistern = (s.cluster cl).cistern ∧ (v.cluster cl).waiting = (s.cluster cl).waiting ∧ Placed (v.gang g) e a ∧
      ∀ p ∈ (e.coresAt a).zipIdx, ∀ k ∈ ((s.freeSlots p.1).take (hdrSpc e.hdr)).zipIdx,
        Launched (v.slot (p.1 * 16 + k.1)) g e (p.2 * hdrSpc e.hdr + k.2) := by
    refine ⟨?_, ?_, ?_, fun p hp k hk => ?_⟩
    · rw [State.cluster, hc]
      exact (hkept.cistern cl).trans (hnew.cistern cl)
    · rw [State.cluster, hc]
      exact (hkept.waiting cl).trans (hnew.waiting cl)
    · rw [State.gang, hgs]
      show Placed (u.gang g) e a
      rw [hgang]
      exact hplaced ts bs
    · rw [State.slot, hs]
      exact hstart p hp k hk
  split
  · exact hv
  · exact hv

/-- A requeued strand goes on in a slot as its save area and its continuation give it. -/
def Resumed (x v : Slot) : Prop := x.live = true ∧ x.gang = v.gang ∧ x.pc = v.pc ∧ x.n = v.n ∧ x.wait = .none

theorem resumeCore_resumes {v : Slot} {l : List Nat} (hb : e.bind = []) :
    (∀ cl, ((s.resumeCore e v c).cluster cl).cistern = (s.cluster cl).cistern) ∧ (∀ cl, ((s.resumeCore e v c).cluster cl).waiting = (s.cluster cl).waiting) ∧
      (s.freeSlots c = i :: l → Resumed ((s.resumeCore e v c).slot (c * 16 + i)) v) := by
  unfold State.resumeCore
  dsimp only
  rw [if_pos hb]
  obtain ⟨h1, hs1⟩ := s.setFuse_placing 0 (clusterOf c) (s.entryNeed e 0).fuse
  generalize s.setFuse (clusterOf c) (s.entryNeed e 0).fuse = s1 at *
  obtain ⟨h2, hs2⟩ := s1.claimCore_placing 0 c e.job
  generalize s1.claimCore c e.job = s2 at *
  obtain ⟨h3, hs3⟩ := s2.acquire_placing 0 c
  generalize s2.acquire c = s3 at *
  have hkept := (h1.trans h2).trans h3
  refine ⟨hkept.cistern, hkept.waiting, fun hf => ?_⟩
  rw [hf]
  show Resumed (State.slot (s3.setSlot (c * 16 + i) _) _) v
  rw [State.slot_setSlot]
  refine ⟨rfl, ?_, ?_, ?_, rfl⟩ <;> simp only [Slot.restoreWords]

/-- A requeued strand stands in the first free slot of its core (15 R261, R267). -/
theorem placeAt_resumed {a : Nat × Nat × Nat} {hungry steals : Nat} {v : Slot} (hv : e.cont = some v) (hb : e.bind = []) :
    ((s.placeAt cl e a hungry steals).cluster cl).cistern = (s.cluster cl).cistern ∧
      ((s.placeAt cl e a hungry steals).cluster cl).waiting = (s.cluster cl).waiting ∧
      ∀ c r, e.coresAt a = c :: r → ∀ i l, s.freeSlots c = i :: l → Resumed ((s.placeAt cl e a hungry steals).slot (c * 16 + i)) v := by
  unfold State.placeAt
  dsimp only
  rw [hv]
  dsimp only
  generalize hw : s.settleBuckets.setGang e.gang _ = w
  have hsame : w.clusters = s.clusters ∧ w.slots = s.slots := by
    rw [← hw]
    exact ⟨rfl, rfl⟩
  obtain ⟨hclusters, hslots⟩ := hsame
  have hfree : ∀ c, w.freeSlots c = s.freeSlots c := fun c => freeSlots_congr fun k _ => by
    rw [State.slot, hslots]
    rfl
  obtain ⟨hc, -, hs⟩ := recordCopy_leaves (w.resumeCore e v ((e.coresAt a).headD 0)) e.gang e ((e.coresAt a).headD 0)
  rw [State.cluster, State.cluster, hc]
  have hcl : w.cluster cl = s.cluster cl := congrArg (fun l : Table Cluster => tget l cl {}) hclusters
  refine ⟨?_, ?_, fun c r hcores i l hi => ?_⟩
  · exact ((resumeCore_resumes (i := 0) (l := []) hb).1 cl).trans (congrArg _ hcl)
  · exact ((resumeCore_resumes (i := 0) (l := []) hb).2.1 cl).trans (congrArg _ hcl)
  · rw [State.slot, hs, hcores]
    exact (resumeCore_resumes hb).2.2 ((hfree c).trans hi)

/-! ## The rest of a unit's step -/

/-- Slots, gangs and memory are the same, and so are the tasks and copies of a unit's queue. -/
structure UnitKept (s t : State) (cl : Nat) : Prop where
  slots : t.slots = s.slots
  gangs : t.gangs = s.gangs
  mem : t.mem = s.mem
  entries : (t.cluster cl).cistern.map (fun f => (f.task, f.copy)) = (s.cluster cl).cistern.map fun f => (f.task, f.copy)

theorem UnitKept.refl (s : State) (cl : Nat) : UnitKept s s cl := ⟨rfl, rfl, rfl, rfl⟩

theorem UnitKept.trans (h : UnitKept s t cl) (h' : UnitKept t u cl) : UnitKept s u cl :=
  ⟨h'.slots.trans h.slots, h'.gangs.trans h.gangs, h'.mem.trans h.mem, h'.entries.trans h.entries⟩

theorem UnitKept.agenda (s : State) (cl : Nat) (a : List (Nat × Ev)) : UnitKept s { s with agenda := a } cl := ⟨rfl, rfl, rfl, rfl⟩

theorem UnitKept.setCluster {k : Cluster} (h : k.cistern.map (fun f => (f.task, f.copy)) = (s.cluster cl).cistern.map fun f => (f.task, f.copy)) :
    UnitKept s (s.setCluster cl k) cl := by
  refine ⟨rfl, rfl, rfl, ?_⟩
  rw [State.cluster_setCluster]
  exact h

/-- A change that keeps each entry's task and copy. -/
theorem UnitKept.mapEntries {k : Cluster} (f : Entry → Entry) (hf : ∀ x, (f x).task = x.task ∧ (f x).copy = x.copy)
    (hk : k.cistern = (s.cluster cl).cistern.map f) : UnitKept s (s.setCluster cl k) cl := by
  refine .setCluster ?_
  rw [hk, List.map_map]
  exact List.map_congr_left fun x _ => Prod.ext (hf x).1 (hf x).2

theorem UnitKept.endTargets (s : State) (cl : Nat) : UnitKept s (s.endTargets cl) cl := by
  unfold State.endTargets
  split
  · exact .refl _ _
  · refine .mapEntries _ (fun x => ?_) rfl
    split <;> exact ⟨rfl, rfl⟩

theorem UnitKept.scheduleOnce (s : State) (cl t : Nat) (e : Ev) : UnitKept s (s.scheduleOnce t e) cl := by
  obtain ⟨a, h, -⟩ := s.scheduleOnce_agenda t e
  rw [h]
  exact .agenda _ _ _

theorem UnitKept.nextAging (s : State) (cl : Nat) : UnitKept s (s.nextAging cl) cl := by
  unfold State.nextAging
  dsimp only
  split
  · exact .refl _ _
  · exact .scheduleOnce _ _ _ _

theorem UnitKept.planPreemption (s : State) (cl : Nat) : UnitKept s (s.planPreemption cl) cl := by
  unfold State.planPreemption
  generalize s.preemptors cl = l
  induction l generalizing s with
  | nil => exact .refl _ _
  | cons x l ih =>
    rw [List.foldl_cons]
    refine .trans ?_ (ih _)
    split
    · exact .scheduleOnce _ _ _ _
    · exact .refl _ _

theorem UnitKept.search (s : State) (cl : Nat) : UnitKept s (s.search cl) cl := by
  unfold State.search
  dsimp only
  split
  · exact .setCluster rfl
  · split
    · exact .refl _ _
    · split
      · exact .setCluster rfl
      · refine .trans ?_ (UnitKept.agenda _ cl _)
        exact .setCluster rfl

/-- Where nothing waits, nothing is admitted. -/
theorem admitWaiting_none (h : (s.cluster cl).waiting = []) : s.admitWaiting cl = s.setCluster cl (s.cluster cl) := by
  unfold State.admitWaiting
  dsimp only
  rw [h, List.take_nil, if_pos rfl, List.map_nil, List.append_nil, List.drop_nil, List.foldl_nil]
  congr 1
  rw [← h]

/-- A queue that holds something is its cluster's already. -/
theorem setCluster_self (h : (s.cluster cl).cistern ≠ []) : s.setCluster cl (s.cluster cl) = s := by
  have hset : ∀ l : Table Cluster, tget l cl {} ≠ {} → tset l cl (tget l cl {}) = l := by
    intro l hl
    induction l with
    | nil => exact absurd rfl hl
    | cons y l ih =>
      rw [tget] at hl ⊢
      rw [tset]
      split at hl
      · next hy => rw [if_pos hy, if_pos hy, ← hy]
      · next hy => rw [if_neg hy, if_neg hy, ih hl]
  have hne : tget s.clusters cl {} ≠ {} := fun h' => h (congrArg Cluster.cistern h')
  unfold State.setCluster State.cluster
  rw [hset _ hne]

/-- The step of a unit whose one entry has had its turn. -/
theorem exec_agingStep (he : s.ev = some (.agingStep cl)) (hr : s.relWait = []) (hc : (s.cluster cl).cistern = [e]) (hw : (s.cluster cl).waiting = [])
    (hw' : ((State.placeOrReserve cl (s, []) e).1.cluster cl).waiting = []) :
    ∃ t, exec .agingStep s = .next t ∧ UnitKept (State.placeOrReserve cl (s, []) e).1 t cl := by
  have hadmit : s.drainReleases.admitWaiting cl = s := by
    rw [State.drainReleases_of_none hr, admitWaiting_none hw, setCluster_self (by rw [hc]; simp)]
  have hranked : s.ranked cl = [e] := by
    unfold State.ranked
    rw [hc]
    rfl
  have hplace : s.placeAll cl = (State.placeOrReserve cl (s, []) e).1 := by
    unfold State.placeAll
    rw [hranked]
    rfl
  have hexec : exec .agingStep s = .next (((((((s.drainReleases.admitWaiting cl).placeAll cl).admitWaiting cl).endTargets cl).nextAging cl).planPreemption cl).search cl) := by
    show execAgingStep s = _
    unfold execAgingStep
    split
    · next h =>
      cases he.symm.trans h
      rfl
    · next h => exact nomatch he.symm.trans h
    · next h _ => exact (h _ he).elim
  rw [hadmit, hplace, admitWaiting_none hw'] at hexec
  refine ⟨_, hexec, ?_⟩
  exact (UnitKept.setCluster rfl).trans ((UnitKept.endTargets _ _).trans ((UnitKept.nextAging _ _).trans ((UnitKept.planPreemption _ _).trans (.search _ _))))

/-- An entry with an anchor is placed there. -/
theorem placeOrReserve_places {a : Nat × Nat × Nat} (ha : (e.anchors cl).find? (s.canPlace e) = some a) : (State.placeOrReserve cl (s, []) e).1 =
    ((s.takeEntry cl e).placeAt cl e a 0 (s.cluster cl).steals).setCluster cl (((s.takeEntry cl e).placeAt cl e a 0 (s.cluster cl).steals).cluster cl).fed := by
  unfold State.placeOrReserve
  dsimp only
  rw [ha]

/-- An entry that fits nowhere stays, with a reservation or without. -/
theorem placeOrReserve_stays (ha : ∀ a ∈ e.anchors cl, s.canPlace e a = false) : UnitKept s (State.placeOrReserve cl (s, []) e).1 cl ∧
    ((State.placeOrReserve cl (s, []) e).1.cluster cl).waiting = (s.cluster cl).waiting := by
  have hnone : (e.anchors cl).find? (s.canPlace e) = none := List.find?_eq_none.2 fun a h => by simp [ha a h]
  unfold State.placeOrReserve
  dsimp only
  rw [hnone]
  dsimp only
  split
  · exact ⟨.refl _ _, rfl⟩
  · unfold State.reserveFor
    split
    · refine ⟨.mapEntries (fun f => if f = e then { f with reserved := s.firstRect cl e } else f) (fun x => ?_) rfl, ?_⟩
      · split <;> exact ⟨rfl, rfl⟩
      · rw [State.cluster_setCluster]
    · exact ⟨.refl _ _, rfl⟩

end

/-- Settles O38. -/
theorem unitsPlaceWholeGangs : Obligations.UnitsPlaceWholeGangs := by
  refine fun s cl e he hr hc hw => ⟨fun a ha hn hb => ?_, fun a v ha hv hb => ?_, fun ha => ?_⟩
  · obtain ⟨hempty, hwait⟩ := takeEntry_only hc
    obtain ⟨g, hcistern, hwaiting, hplaced, hlaunched⟩ := placeAt_new (s := s.takeEntry cl e) (cl := cl) (a := a) (hungry := 0) (steals := (s.cluster cl).steals) hn hb
    have hturn := placeOrReserve_places ha
    generalize (s.takeEntry cl e).placeAt cl e a 0 (s.cluster cl).steals = u at *
    obtain ⟨t, hexec, hkept⟩ := exec_agingStep he hr hc hw (by rw [hturn, State.cluster_setCluster]; exact hwaiting.trans (hwait.trans hw))
    rw [hturn] at hkept
    refine ⟨t, g, hexec, ?_, ?_, fun p hp k hk => ?_⟩
    · have hentries := hkept.entries
      rw [State.cluster_setCluster] at hentries
      exact List.map_eq_nil_iff.1 (hentries.trans (congrArg (List.map _) (hcistern.trans hempty)))
    · rw [State.gang, hkept.gangs]
      exact hplaced
    · rw [State.slot, hkept.slots]
      exact hlaunched p hp k hk
  · obtain ⟨hempty, hwait⟩ := takeEntry_only hc
    obtain ⟨hcistern, hwaiting, hresumed⟩ := placeAt_resumed (s := s.takeEntry cl e) (cl := cl) (a := a) (hungry := 0) (steals := (s.cluster cl).steals) hv hb
    have hturn := placeOrReserve_places ha
    generalize (s.takeEntry cl e).placeAt cl e a 0 (s.cluster cl).steals = u at *
    obtain ⟨t, hexec, hkept⟩ := exec_agingStep he hr hc hw (by rw [hturn, State.cluster_setCluster]; exact hwaiting.trans (hwait.trans hw))
    rw [hturn] at hkept
    refine ⟨t, hexec, ?_, fun c r hcores i l hi => ?_⟩
    · have hentries := hkept.entries
      rw [State.cluster_setCluster] at hentries
      exact List.map_eq_nil_iff.1 (hentries.trans (congrArg (List.map _) (hcistern.trans hempty)))
    · rw [State.slot, hkept.slots]
      exact hresumed c r hcores i l hi
  · obtain ⟨hkept, hwait⟩ := placeOrReserve_stays ha
    obtain ⟨t, hexec, hkept'⟩ := exec_agingStep he hr hc hw (hwait.trans hw)
    have hall := hkept.trans hkept'
    refine ⟨t, hexec, hall.slots, hall.mem, hall.gangs, ?_⟩
    rw [hall.entries, hc]
    rfl

end Sys2Proof.Claims
end

section
/-! ATTN.INIT, ATTN.STEP and ATTN.FIN: their issue (19 R330 to R332; 06 R117) and what the array leaves (21 R348). -/

namespace Sys2Proof.Machine

section
variable {s t u : State} {cl id : Nat}

/-! ## The engine's queue -/

/-- Nothing that an operation of the engine sees differs but when its gather's words have come. -/
structure QueueMoved (s t : State) : Prop where
  same : t = { s with slots := t.slots, cores := t.cores, agenda := t.agenda }
  slot : ∀ id, ∃ n, t.slot id = { s.slot id with stepAt := n }

theorem QueueMoved.refl (s : State) : QueueMoved s s := ⟨rfl, fun _ => ⟨_, rfl⟩⟩

theorem QueueMoved.trans (h : QueueMoved s t) (h' : QueueMoved t u) : QueueMoved s u := by
  refine ⟨?_, fun id => ?_⟩
  · rw [h'.same]
    conv_lhs => rw [h.same]
  · obtain ⟨n, hn⟩ := h.slot id
    obtain ⟨m, hm⟩ := h'.slot id
    exact ⟨m, by rw [hm, hn]⟩

theorem QueueMoved.of_cores (cs : Table Core) : QueueMoved s { s with cores := cs } := ⟨rfl, fun _ => ⟨_, rfl⟩⟩
theorem QueueMoved.of_agenda (a : List (Nat × Ev)) : QueueMoved s { s with agenda := a } := ⟨rfl, fun _ => ⟨_, rfl⟩⟩

theorem foldl_cores {α : Type} (f : State → α → State) (hf : ∀ u x, ∃ cs, f u x = { u with cores := cs }) (l : List α) (s : State) :
    ∃ cs, l.foldl f s = { s with cores := cs } := by
  induction l generalizing s with
  | nil => exact ⟨_, rfl⟩
  | cons x l ih =>
    obtain ⟨cs, h⟩ := hf s x
    obtain ⟨cs', h'⟩ := ih { s with cores := cs }
    rw [List.foldl_cons, h]
    exact ⟨cs', h'⟩

theorem State.attnUnclaim_cores (s : State) (cl id : Nat) : ∃ cs, s.attnUnclaim cl id = { s with cores := cs } :=
  foldl_cores (fun (u : State) i => u.unclaim (clusterCore cl i) (ownerAttention id) 0) (fun _ _ => ⟨_, rfl⟩) _ s

theorem State.attnClaim_cores (s : State) (cl id offset : Nat) (l : List (Nat × Nat)) : ∃ cs, s.attnClaim cl id offset l = { s with cores := cs } :=
  foldl_cores _ (fun u k => foldl_cores (fun (w : State) (p : (Nat × Nat) × Nat) => w.claim (clusterCore cl (k / 3))
    { bank := k % 3, cycle := w.cycleOf (clusterCore cl (k / 3)) + offset + p.2, rank := rankAttention, owner := ownerAttention id })
    (fun _ _ => ⟨_, rfl⟩) _ u) _ s

theorem QueueMoved.setStepAt (s : State) (id n : Nat) : QueueMoved s (s.setSlot id { s.slot id with stepAt := n }) := by
  refine ⟨rfl, fun k => ?_⟩
  by_cases hk : k = id
  · subst hk
    exact ⟨n, State.slot_setSlot _ _ _⟩
  · exact ⟨(s.slot k).stepAt, by rw [State.slot_setSlot_other _ _ hk]⟩

/-- The engine's first operations begin their gathers. -/
theorem QueueMoved.attnKick (s : State) (cl : Nat) : QueueMoved s (s.attnKick cl) := by
  unfold State.attnKick
  dsimp only
  generalize hs1 : ((s.cluster cl).attnQ.take 2).foldl _ s = s1
  have hfold : ∀ (l : List (Nat × Nat)) (u : State), QueueMoved u (l.foldl (fun (u : State) e =>
      if (u.slot e.1).stepAt ≠ 0 then u
      else ((u.attnUnclaim cl e.1).attnClaim cl e.1 0 (u.attnGathers e.1)).setSlot e.1
        { ((u.attnUnclaim cl e.1).attnClaim cl e.1 0 (u.attnGathers e.1)).slot e.1 with
          stepAt := max (max 1 ((u.attnUnclaim cl e.1).attnClaim cl e.1 0 (u.attnGathers e.1)).now)
            (((u.attnUnclaim cl e.1).attnClaim cl e.1 0 (u.attnGathers e.1)).attnDue cl e.1 4) }) u) := by
    intro l
    induction l with
    | nil => exact .refl
    | cons e l ih =>
      intro u
      rw [List.foldl_cons]
      refine .trans ?_ (ih _)
      split
      · exact .refl u
      · generalize u.attnGathers e.1 = gathers
        obtain ⟨cs, h⟩ := u.attnUnclaim_cores cl e.1
        rw [h]
        obtain ⟨cs', h'⟩ := State.attnClaim_cores { u with cores := cs } cl e.1 0 gathers
        rw [h']
        exact (QueueMoved.of_cores cs').trans (.setStepAt { u with cores := cs' } _ _)
  have hmoved : QueueMoved s s1 := hs1 ▸ hfold _ s
  split
  · exact hmoved
  · split
    · exact hmoved.trans (.of_agenda _)
    · exact hmoved.trans (.of_agenda _)

theorem QueueMoved.mem (h : QueueMoved s t) : t.mem = s.mem := by rw [h.same]
theorem QueueMoved.fe (h : QueueMoved s t) : t.fe = s.fe := by rw [h.same]
theorem QueueMoved.cur (h : QueueMoved s t) : t.cur = s.cur := by rw [h.same]
theorem QueueMoved.cluster (h : QueueMoved s t) (k : Nat) : t.cluster k = s.cluster k := by rw [h.same]; rfl
theorem QueueMoved.me (h : QueueMoved s t) : ∃ n, t.me = { s.me with stepAt := n } := by
  rw [State.me, h.cur]
  exact h.slot s.cur

/-! ## Contexts (19 R328) -/

theorem State.attnCtx_setAttn (s : State) (cl i : Nat) (x : AttnCtx) : (s.setAttn cl i x).attnCtx cl i = some x := by
  unfold State.setAttn State.attnCtx
  rw [State.cluster_setCluster, find?_tset_same]
  rfl

theorem attnQ_setAttn (s : State) (cl i : Nat) (x : AttnCtx) : ((s.setAttn cl i x).cluster cl).attnQ = (s.cluster cl).attnQ := by
  rw [State.setAttn, State.cluster_setCluster]

/-- A range's place is where the engine finds it (10 R191). -/
theorem clusterLocal_place {core j a n pa : Nat} (h : s.clusterLocal core j a n = some pa) : clusterPlace core a = pa := by
  unfold State.clusterLocal at h
  dsimp only at h
  split at h
  · cases h
  · rw [← Option.some.inj h]
    unfold clusterPlace
    omega

theorem firstTrap_none {l : List (Option TrapInfo)} (h : ∀ o ∈ l, o = none) : firstTrap l = none := by
  unfold firstTrap
  exact List.findSome?_eq_none_iff.2 fun o ho => h o ho

end

end Sys2Proof.Machine

namespace Sys2Proof.Claims

open Sys2Proof.Machine

section
variable {s u : State} {d a b : BitVec 7} {st : BitVec 2}

/-! ## Issue (06 R117) -/

theorem attnIssue_issues {i : Instr} {idx : Nat} (hu : s.me.unacked = []) : AttentionIssued s (s.attnIssue i idx st) i idx ∧
    (s.attnIssue i idx st).attnCtx (clusterOf s.coreId) = s.attnCtx (clusterOf s.coreId) := by
  unfold State.attnIssue
  rw [released_of_acked _ hu]
  dsimp only
  generalize hw : ((s.leave st).setMe _) = w
  have hme : w.me = { (s.leave st).me with wait := .engine, rep := some (i, BitVec.ofNat 7 idx), stepAt := 0 } := by
    rw [← hw]
    exact State.me_setMe _ _
  have hleave : (s.leave st).me = { s.me with nextTick := s.base + 16 * (1 + st.toNat) * tickLen s.coreId } := State.me_setMe _ _
  have hrest : w.cur = s.cur ∧ w.mem = s.mem ∧ w.fe = s.fe ∧ w.clusters = s.clusters := by
    rw [← hw]
    exact ⟨rfl, rfl, rfl, rfl⟩
  obtain ⟨hcur, hmem, hfe, hclusters⟩ := hrest
  have hcl : w.cluster (clusterOf s.coreId) = s.cluster (clusterOf s.coreId) := congrArg (fun l : Table Cluster => tget l (clusterOf s.coreId) {}) hclusters
  rw [hcl]
  have hset := State.cluster_setCluster w (clusterOf s.coreId)
    { s.cluster (clusterOf s.coreId) with attnQ := (s.cluster (clusterOf s.coreId)).attnQ ++ [(s.cur, s.me.gang)] }
  have hq := QueueMoved.attnKick (w.setCluster (clusterOf s.coreId)
    { s.cluster (clusterOf s.coreId) with attnQ := (s.cluster (clusterOf s.coreId)).attnQ ++ [(s.cur, s.me.gang)] }) (clusterOf s.coreId)
  obtain ⟨n, hn⟩ := hq.me
  have hn' := hn.trans (congrArg (fun v : Slot => { v with stepAt := n }) (hme.trans (congrArg (fun v : Slot =>
    { v with wait := .engine, rep := some (i, BitVec.ofNat 7 idx), stepAt := 0 }) hleave)))
  have hcluster := (hq.cluster (clusterOf s.coreId)).trans hset
  refine ⟨⟨congrArg Slot.wait hn', congrArg Slot.rep hn', (congrArg Slot.pc hn' :), ⟨(congrArg Slot.x hn' :), (congrArg Slot.shadow hn' :)⟩,
    ⟨hq.mem.trans hmem, hq.fe.trans hfe⟩, congrArg Cluster.attnQ hcluster⟩, funext fun k => ?_⟩
  exact congrArg (fun c : Cluster => (c.attn.find? (fun a => a.1 == k)).map (·.2)) hcluster

theorem attnInit_issues {ws : List Word} {i : Nat} (h : Settled s [d, a]) (ho : Operand s (s.rx a) ws u) (hu : s.me.unacked = [])
    (hqa : bits (ws.getD 0 0) 0 24 % 64 = 0) (hsa : bits (ws.getD 1 0) 0 24 % 64 = 0)
    (hq : u.rangeTrap u.coreId u.me.gang (bits (ws.getD 0 0) 0 24) qBytes false = none)
    (hs : u.rangeTrap u.coreId u.me.gang (bits (ws.getD 1 0) 0 24) saBytes true = none) (hi : u.attnSlot (clusterOf u.coreId) = some i) :
    exec (.attnInit d a st) s = .next ((u.setAttn (clusterOf u.coreId) i
      { gang := u.me.gang, qa := bits (ws.getD 0 0) 0 24, sa := bits (ws.getD 1 0) 0 24, scale := BitVec.ofNat 32 (ws.getD 2 0).toNat,
        causal := (ws.getD 3 0).getLsbD 32, qpos := bits (ws.getD 3 0) 0 32 }).attnIssue (.attnInit d a st) i st) := by
  refine congrArg Host.Outcome.next ((h.guarded _).trans ((ho.operand64 _).trans ?_))
  dsimp only
  rw [firstTrap_none, hi]
  · exact released_of_acked _ (by rw [ho.me.1]; exact hu)
  · simp only [List.mem_cons, List.not_mem_nil, or_false, forall_eq_or_imp, forall_eq]
    exact ⟨if_pos hqa, if_pos hsa, hq, hs⟩

/-- The checks of a context pass (19 R321). -/
theorem ContextAt.withContext {x : Word} {y : AttnCtx} (h : ContextAt s x y) {traps : List (Option TrapInfo)} (ht : firstTrap traps = none)
    (k : Nat → AttnCtx → State) : s.withContext x traps k = k x.toNat y := by
  obtain ⟨hx, hy, hf, hg⟩ := h
  unfold State.withContext
  dsimp only
  rw [if_pos hx, hy, if_neg (by simp [hf]; omega), ht]
  exact if_pos hg

theorem attnStep_issues {y : AttnCtx} (h : Settled s [d, a, b]) (hy : ContextAt s (s.rx a) y) (hb : (s.rx b).toNat % 64 = 0)
    (hk : s.rangeTrap s.coreId s.me.gang (s.rx b).toNat kvBytes false = none) (hq : s.rangeTrap s.coreId s.me.gang y.qa qBytes false = none)
    (hs : s.rangeTrap s.coreId s.me.gang y.sa saBytes true = none)
    (hl : ∀ l, linkOf (s.oxr 2) = some l → s.linkTrap s.coreId s.me.gang (s.rx b).toNat l.1 l.2 = none) :
    exec (.attnStep d a b st) s = .next (s.attnIssue (.attnStep d a b st) (s.rx a).toNat st) := by
  refine congrArg Host.Outcome.next ((h.guarded _).trans ((hy.withContext ?_ _).trans ?_))
  · refine firstTrap_none ?_
    simp only [List.mem_cons, List.not_mem_nil, or_false, forall_eq_or_imp, forall_eq]
    exact ⟨if_pos hb, hk⟩
  · rw [firstTrap_none]
    simp only [List.mem_cons, List.not_mem_nil, or_false, forall_eq_or_imp, forall_eq]
    refine ⟨hq, hs, ?_⟩
    cases hlink : linkOf (s.oxr 2) with
    | none => rfl
    | some l => exact hl l hlink

theorem attnFin_issues {y : AttnCtx} (h : Settled s [d, a]) (hy : ContextAt s (s.rx a) y) (hs : s.rangeTrap s.coreId s.me.gang y.sa saBytes true = none) :
    exec (.attnFin d a st) s = .next (s.attnIssue (.attnFin d a st) (s.rx a).toNat st) := by
  refine congrArg Host.Outcome.next ((h.guarded _).trans ((hy.withContext rfl _).trans ?_))
  rw [hs]

/-! ## The array's end (21 R348) -/

section
variable {id idx : Nat} {i : Instr} {x : AttnCtx}

/-- The engine's turn at an operation whose array has ended. -/
theorem attnTurn_due (h : AttentionDue s id i idx x) (again : Ev) :
    s.attnTurn id again = (({ s with cur := id } : State).attnPerform i idx x).attnPop (clusterOf (id / 16)) := by
  obtain ⟨hwait, hrep, hidx, hstep, ⟨r, hq⟩, hfree, hends, hctx, -⟩ := h
  have hlt : (BitVec.ofNat 7 idx).toNat = idx := by
    rw [BitVec.toNat_ofNat]
    omega
  have hle : (s.cluster (clusterOf (id / 16))).attnFree ≤ s.now := le_trans (le_max_left _ _) hends
  unfold State.attnTurn
  dsimp only
  rw [hq, hrep]
  dsimp only
  rw [if_neg (by simp only [ne_eq, hwait, not_true_eq_false, false_or]; omega), hlt, hctx]
  dsimp only
  rw [if_pos hfree, if_neg (by omega), if_neg (by omega)]

theorem exec_attentionEngineComplete (he : s.ev = some (.attentionEngineComplete id)) (hw : (s.slot id).wait = .engine) :
    exec .attentionEngineComplete s = .next (s.attnTurn id (.attentionEngineComplete id)) := by
  show execAttentionEngineComplete s = _
  unfold execAttentionEngineComplete
  split
  · next h =>
    cases he.symm.trans h
    rw [hw]
  · next h => exact (h _ he).elim

theorem exec_engineReturn (he : s.ev = some (.engineReturn id)) (hw : (s.slot id).wait = .engine) {n : BitVec 7}
    (hr : (s.slot id).rep = some (.attnStep d a b st, n)) : exec .engineReturn s = .next (s.attnTurn id (.engineReturn id)) := by
  show execEngineReturn s = _
  unfold execEngineReturn
  split
  · next h =>
    cases he.symm.trans h
    dsimp only
    rw [hw, hr]
  · next h => exact (h _ he).elim

/-- The registers of an operation's strand return, and the next operation takes its turn: the strand goes on with the value. -/
theorem returned_goesOn (u : State) (v cl : Nat) : let t := (u.attnReturn d v).attnPop cl
    (t.slot u.cur).rx d = BitVec.ofNat 64 v ∧ (t.slot u.cur).pc = u.me.pc + 4 ∧ (t.slot u.cur).wait = .none ∧ t.mem = u.mem ∧
      t.attnCtx cl = u.attnCtx cl := by
  intro t
  have hwx : (u.wx d (BitVec.ofNat 64 v)).me = u.me.wx d (BitVec.ofNat 64 v) := State.me_setMe _ _
  have hpc : (u.me.wx d (BitVec.ofNat 64 v)).pc = u.me.pc := by
    unfold Slot.wx
    split <;> rfl
  have hme : (u.attnReturn d v).me = { u.me.wx d (BitVec.ofNat 64 v) with pc := u.me.pc + 4, wait := .none, rep := none } := by
    unfold State.attnReturn
    dsimp only
    rw [State.me_setMe, hwx, hpc]
  have hq := QueueMoved.attnKick ((u.attnReturn d v).setCluster cl { (u.attnReturn d v).cluster cl with
    attnQ := ((u.attnReturn d v).cluster cl).attnQ.tail, attnFree := 0 }) cl
  obtain ⟨n, hn⟩ := hq.slot u.cur
  have hslot : t.slot u.cur = { u.me.wx d (BitVec.ofNat 64 v) with pc := u.me.pc + 4, wait := .none, rep := none, stepAt := n } :=
    hn.trans (congrArg (fun w : Slot => { w with stepAt := n }) hme)
  have hcluster := (hq.cluster cl).trans (State.cluster_setCluster _ _ _)
  rw [hslot]
  refine ⟨?_, rfl, rfl, hq.mem, funext fun k => ?_⟩
  · exact (Slot.rx_congr rfl rfl rfl d).trans (Slot.rx_wx_same u.me d (BitVec.ofNat 64 v))
  · exact congrArg (fun c : Cluster => (c.attn.find? (fun a => a.1 == k)).map (·.2)) hcluster

/-! ## What the operations leave (19 R330 to R332) -/

/-- The engine writes a range where its address places it, and the strands stay. -/
theorem attnWrite_writes {u : State} {core g sa n pa : Nat} (h : u.clusterLocal core (u.gang g).job sa n = some pa) (bs : List Byte) :
    (u.attnWrite core g sa bs).mem = memPut u.mem pa bs ∧ (u.attnWrite core g sa bs).slots = u.slots ∧ (u.attnWrite core g sa bs).cur = u.cur := by
  unfold State.attnWrite
  rw [clusterLocal_place h]
  refine ⟨State.mem_enginePut_own _ _ _ _ _, State.slots_enginePut_own _ _ _ _ _, ?_⟩
  unfold State.enginePut State.markLocal
  dsimp only
  split <;> rfl

/-- A write of the engine leaves all but bytes and marks. -/
theorem attnWrite_same (u : State) (core g sa : Nat) (bs : List Byte) : u.attnWrite core g sa bs =
    { u with mem := (u.attnWrite core g sa bs).mem, bad := (u.attnWrite core g sa bs).bad, used := (u.attnWrite core g sa bs).used } := by
  unfold State.attnWrite State.enginePut State.markLocal
  dsimp only
  split <;> rfl

theorem initDone_leaves {pa : Nat} (h : AttentionDue s id (.attnInit d a st) idx x)
    (hp : s.clusterLocal (id / 16) (s.gang x.gang).job x.sa saBytes = some pa) (again : Ev) :
    let t := s.attnTurn id again
    t.mem = memPut s.mem pa attnFresh ∧ (t.slot id).rx d = BitVec.ofNat 64 idx ∧ (t.slot id).pc = (s.slot id).pc + 4 ∧ (t.slot id).wait = .none := by
  intro t
  have ht : t = ((({ s with cur := id } : State).attnWrite (id / 16) x.gang x.sa attnFresh).attnReturn d idx).attnPop (clusterOf (id / 16)) := attnTurn_due h again
  obtain ⟨hmem, hslots, hcur⟩ := attnWrite_writes (u := { s with cur := id }) (core := id / 16) (g := x.gang) (sa := x.sa) (n := saBytes) (pa := pa) hp attnFresh
  generalize ({ s with cur := id } : State).attnWrite (id / 16) x.gang x.sa attnFresh = w at *
  have hme : w.me = s.slot id := by
    rw [State.me, hcur, State.slot, hslots]
    rfl
  obtain ⟨hrx, hpc, hwait, hmem', -⟩ := returned_goesOn (d := d) w idx (clusterOf (id / 16))
  rw [hcur] at hrx hpc hwait
  rw [ht]
  exact ⟨hmem'.trans hmem, hrx, hpc.trans (by rw [hme]), hwait⟩

/-- A context of the cluster takes a new value as its operation ends. -/
theorem setAttn_leaves (w : State) (cl : Nat) (y : AttnCtx) : (w.setAttn cl idx y).mem = w.mem ∧ (w.setAttn cl idx y).slots = w.slots ∧
    (w.setAttn cl idx y).cur = w.cur ∧ (w.setAttn cl idx y).attnCtx cl idx = some y := ⟨rfl, rfl, rfl, State.attnCtx_setAttn w cl idx y⟩

/-- What the end of a step or of a division leaves, from the state with its writes done. -/
theorem contextDone_leaves {w : State} {m : List Host.Cell} {v : Nat} (y : AttnCtx) (hmem : w.mem = m) (hslots : w.slots = s.slots) (hcur : w.cur = id) :
    let t := ((w.setAttn (clusterOf (id / 16)) idx y).attnReturn d v).attnPop (clusterOf (id / 16))
    t.mem = m ∧ (t.slot id).rx d = BitVec.ofNat 64 v ∧ (t.slot id).pc = (s.slot id).pc + 4 ∧ (t.slot id).wait = .none ∧
      t.attnCtx (clusterOf (id / 16)) idx = some y := by
  intro t
  obtain ⟨hrx, hpc, hwait, hmem', hctx⟩ := returned_goesOn (d := d) (w.setAttn (clusterOf (id / 16)) idx y) v (clusterOf (id / 16))
  obtain ⟨hmem2, hslots2, hcur2, hctx2⟩ := setAttn_leaves (idx := idx) w (clusterOf (id / 16)) y
  have hme : (w.setAttn (clusterOf (id / 16)) idx y).me = s.slot id := by
    rw [State.me, hcur2, hcur, State.slot, hslots2, hslots]
    rfl
  rw [hcur2, hcur] at hrx hpc hwait
  exact ⟨hmem'.trans (hmem2.trans hmem), hrx, hpc.trans (by rw [hme]), hwait, (congrFun hctx idx).trans hctx2⟩

/-- What the engine looks up does not depend on whose turn it is. -/
theorem clusterLocal_turn {core g sa n pa : Nat} (h : s.clusterLocal core (s.gang g).job sa n = some pa) :
    ({ s with cur := id } : State).clusterLocal core (({ s with cur := id } : State).gang g).job sa n = some pa := h

theorem attnRead_turn (core g sa n : Nat) : ({ s with cur := id } : State).attnRead core g sa n = s.attnRead core g sa n := rfl

theorem stepDone_leaves {q k m area : List Byte} {pa : Nat} (h : AttentionDue s id (.attnStep d a b st) idx x) (hl : linkOf ((s.slot id).oxr 2) = none)
    (hq : s.attnRead (id / 16) x.gang x.qa qBytes = .ok q) (hk : s.attnRead (id / 16) x.gang ((s.slot id).rx b).toNat kvBytes = .ok k)
    (hm : s.attnRead (id / 16) x.gang x.sa saBytes = .ok m) (harea : attnStepArea x ((s.slot id).oxr 3).toNat q k m = area)
    (hp : s.clusterLocal (id / 16) (s.gang x.gang).job x.sa area.length = some pa) (again : Ev) :
    let t := s.attnTurn id again
    t.mem = memPut s.mem pa area ∧ (t.slot id).rx d = BitVec.ofNat 64 (x.counter + 1) ∧
      (t.slot id).pc = (s.slot id).pc + 4 ∧ (t.slot id).wait = .none ∧ t.attnCtx (clusterOf (id / 16)) idx = some { x with counter := x.counter + 1 } := by
  intro t
  obtain ⟨hmem, hslots, hcur⟩ := attnWrite_writes (clusterLocal_turn (id := id) hp) area
  have hdone : ({ s with cur := id } : State).attnStepDone d b idx x =
      ((({ s with cur := id } : State).attnWrite (id / 16) x.gang x.sa area).setAttn (clusterOf (id / 16)) idx
        { x with counter := x.counter + 1 }).attnReturn d (x.counter + 1) := by
    have hq' : ({ s with cur := id } : State).attnRead (id / 16) x.gang x.qa qBytes = .ok q := (attnRead_turn _ _ _ _).trans hq
    have hk' : ({ s with cur := id } : State).attnRead (id / 16) x.gang (({ s with cur := id } : State).rx b).toNat kvBytes = .ok k := (attnRead_turn _ _ _ _).trans hk
    have hm' : ({ s with cur := id } : State).attnRead (id / 16) x.gang x.sa saBytes = .ok m := (attnRead_turn _ _ _ _).trans hm
    have harea' : attnStepArea x (({ s with cur := id } : State).oxr 3).toNat q k m = area := harea
    have hl' : ¬ (linkOf (({ s with cur := id } : State).oxr 2)).isSome = true := by
      show ¬ (linkOf ((s.slot id).oxr 2)).isSome = true
      rw [hl]
      simp
    unfold State.attnStepDone
    dsimp only
    rw [show ({ s with cur := id } : State).coreId = id / 16 from rfl, hq', hk', hm']
    dsimp only
    rw [if_neg hl', harea']
  have ht : t = ((({ s with cur := id } : State).attnStepDone d b idx x)).attnPop (clusterOf (id / 16)) := attnTurn_due h again
  rw [ht, hdone]
  exact contextDone_leaves { x with counter := x.counter + 1 } hmem hslots hcur

theorem finDone_leaves {m : List Byte} {pa pb : Nat} (h : AttentionDue s id (.attnFin d a st) idx x)
    (hm : s.attnRead (id / 16) x.gang x.sa saBytes = .ok m) {r : Flagged (List Nat)} {fl : Nat}
    (hr : attnDivide (chunks 128 64 (codesOf 4 (m.take kvBytes))) (codesOf 4 ((m.drop 33024).take 256)) = r) (hfl : ofBytes ((m.drop 33280).take 8) = fl)
    (hpa : s.clusterLocal (id / 16) (s.gang x.gang).job x.sa (fp32Bytes r.1).length = some pa)
    (hpb : s.clusterLocal (id / 16) (s.gang x.gang).job (x.sa + 33280) 8 = some pb) (again : Ev) :
    let t := s.attnTurn id again
    t.mem = memPut (memPut s.mem pa (fp32Bytes r.1)) pb (toBytes (fl / 16 * 16 + (BitVec.ofNat 4 fl ||| tileFlags r.2).toNat) 8) ∧
      (t.slot id).rx d = BitVec.ofNat 64 (x.counter + 1) ∧ (t.slot id).pc = (s.slot id).pc + 4 ∧ (t.slot id).wait = .none ∧
      t.attnCtx (clusterOf (id / 16)) idx = some { x with counter := x.counter + 1, finished := true } := by
  intro t
  obtain ⟨hmem, hslots, hcur⟩ := attnWrite_writes (clusterLocal_turn (id := id) hpa) (fp32Bytes r.1)
  have hdone : ({ s with cur := id } : State).attnFinDone d idx x =
      (((({ s with cur := id } : State).attnWrite (id / 16) x.gang x.sa (fp32Bytes r.1)).attnWrite (id / 16) x.gang (x.sa + 33280)
        (toBytes (fl / 16 * 16 + (BitVec.ofNat 4 fl ||| tileFlags r.2).toNat) 8)).setAttn (clusterOf (id / 16)) idx
        { x with counter := x.counter + 1, finished := true }).attnReturn d (x.counter + 1) := by
    have hm' : ({ s with cur := id } : State).attnRead (id / 16) x.gang x.sa saBytes = .ok m := (attnRead_turn _ _ _ _).trans hm
    unfold State.attnFinDone
    dsimp only
    rw [show ({ s with cur := id } : State).coreId = id / 16 from rfl, hm']
    dsimp only
    rw [hr, hfl]
  have ht : t = ((({ s with cur := id } : State).attnFinDone d idx x)).attnPop (clusterOf (id / 16)) := attnTurn_due h again
  have hsame := attnWrite_same ({ s with cur := id } : State) (id / 16) x.gang x.sa (fp32Bytes r.1)
  rw [ht, hdone]
  generalize ({ s with cur := id } : State).attnWrite (id / 16) x.gang x.sa (fp32Bytes r.1) = w at *
  have hpb' : w.clusterLocal (id / 16) (w.gang x.gang).job (x.sa + 33280) 8 = some pb := by
    rw [hsame]
    exact hpb
  obtain ⟨hmem', hslots', hcur'⟩ := attnWrite_writes hpb' (toBytes (fl / 16 * 16 + (BitVec.ofNat 4 fl ||| tileFlags r.2).toNat) 8)
  exact contextDone_leaves { x with counter := x.counter + 1, finished := true } (hmem'.trans (by rw [hmem])) (hslots'.trans hslots) (hcur'.trans hcur)

end

end

/-- Settles O32. -/
theorem attentionInstructions : Obligations.AttentionInstructions := by
  refine fun s d a b st => ⟨fun ws u i h ho hu hqa hsa hq hs hi => ?_, fun y h hu hy hb hk hq hs hl => ?_, fun y h hu hy hs => ?_,
    fun id idx x pa he h hp => ?_, fun id idx x q k m pa he h hl hq hk hm hp => ?_, fun id idx x m pa pb he h hm hpa hpb => ?_⟩
  · obtain ⟨hissued, hctx⟩ := attnIssue_issues (s := u.setAttn (clusterOf u.coreId) i
      { gang := u.me.gang, qa := bits (ws.getD 0 0) 0 24, sa := bits (ws.getD 1 0) 0 24, scale := BitVec.ofNat 32 (ws.getD 2 0).toNat,
        causal := (ws.getD 3 0).getLsbD 32, qpos := bits (ws.getD 3 0) 0 32 }) (i := .attnInit d a st) (idx := i) (st := st) (by rw [← hu, ← ho.me.1]; rfl)
    refine ⟨_, attnInit_issues h ho hu hqa hsa hq hs hi, ?_, (congrFun hctx i).trans (State.attnCtx_setAttn _ _ _ _)⟩
    obtain ⟨hwait, hrep, hpc, hregs, hmem, hq⟩ := hissued
    exact ⟨hwait, hrep, hpc, hregs, hmem, hq.trans (congrArg (· ++ _) (attnQ_setAttn _ _ _ _))⟩
  · exact ⟨_, attnStep_issues h hy hb hk hq hs hl, (attnIssue_issues hu).1⟩
  · exact ⟨_, attnFin_issues h hy hs, (attnIssue_issues hu).1⟩
  · exact ⟨_, exec_attentionEngineComplete he h.1, initDone_leaves h hp _⟩
  · exact ⟨_, exec_engineReturn he h.1 h.2.1, stepDone_leaves h hl hq hk hm rfl hp _⟩
  · obtain ⟨hmem, hrx, hpc, hwait, hctx⟩ := finDone_leaves h hm rfl rfl hpa hpb (.attentionEngineComplete id)
    exact ⟨_, exec_attentionEngineComplete he h.1, hrx, hmem, hpc, hwait, hctx⟩

end Sys2Proof.Claims
end

section
/-! A home arbitrates commits (16 R276 to R281): whose turn it is, the answers, and the version that a commit writes. -/

namespace Sys2Proof.Machine

/-! ## What an answer leaves (13 R238; 16 R280) -/

/-- Nothing but the commits that wait, the records of HEDGE tasks and what is sent differs. -/
def Answering (s t : State) : Prop :=
  t = { s with commits := t.commits, hedges := t.hedges, agenda := t.agenda, out := t.out, timed := t.timed, nextTimed := t.nextTimed }

/-- Nothing but what is sent differs. -/
def SentOnly (s t : State) : Prop := t = { s with agenda := t.agenda, out := t.out, timed := t.timed, nextTimed := t.nextTimed }

section
variable {s t u : State} {m : CommitMsg}

theorem Answering.trans (h : Answering s t) (h' : Answering t u) : Answering s u := by
  unfold Answering at *
  rw [h']; conv_lhs => rw [h]

theorem SentOnly.trans (h : SentOnly s t) (h' : SentOnly t u) : SentOnly s u := by
  unfold SentOnly at *
  rw [h']; conv_lhs => rw [h]

theorem SentOnly.answering (h : SentOnly s t) : Answering s t := by
  unfold SentOnly at h
  unfold Answering
  rw [h]

theorem SentOnly.foldl {α : Type} {f : State → α → State} (h : ∀ u x, SentOnly u (f u x)) (l : List α) (s : State) : SentOnly s (l.foldl f s) := by
  induction l generalizing s with
  | nil => rfl
  | cons x l ih => exact (h s x).trans (ih _)

theorem State.carry_sentOnly (s : State) (j src dst flits : Nat) (e : Ev) : SentOnly s (s.carry j src dst flits e) := by
  unfold State.carry
  split <;> rfl

theorem State.answerCommit_sentOnly (s : State) (m : CommitMsg) (h : Nat) (a : Answer) : SentOnly s (s.answerCommit m h a) := by
  unfold State.answerCommit
  split
  · exact s.carry_sentOnly _ _ _ _ _
  · rfl

theorem State.sendCancel_sentOnly (s : State) (job task h : Nat) (c : HedgeCopy) : SentOnly s (s.sendCancel job task h c) := by
  unfold State.sendCancel
  split
  · exact s.carry_sentOnly _ _ _ _ _
  · rfl

theorem State.recordWinner_answering (s : State) (m : CommitMsg) (h : Nat) : Answering s (s.recordWinner m h) := by
  have hfold := SentOnly.foldl (fun u c => u.sendCancel_sentOnly m.job m.task h c)
    ((s.hedges.filter (fun r : HedgeRec => r.task == m.task && r.job == m.job)).flatMap fun r => r.copies.filter fun c => c.copy != m.copy)
    { s with hedges := s.hedges.map fun (r : HedgeRec) => if r.task == m.task && r.job == m.job then { r with winner := some m.copy } else r }
  unfold State.recordWinner State.freeRecords
  dsimp only
  rw [hfold]
  rfl

/-- The only commit that waits leaves its home. -/
theorem State.leaveHome_last (h : s.commits = [m]) : s.leaveHome m = { s with commits := [] } := by
  have hd : dropFirst s.commits m = [] := by simp [h, dropFirst]
  unfold State.leaveHome
  simp only [hd, List.find?_nil]

theorem State.performHeld_none (h : s.held = []) (j home : Nat) : s.performHeld j home = s := by
  have hf : ∀ p, s.held.filter p = [] := fun p => by rw [h, List.filter_nil]
  unfold State.performHeld
  simp only [hf, isort]
  calc { s with held := [] } = { s with held := s.held } := congrArg (fun l => { s with held := l }) h.symm
    _ = s := rfl

end

end Sys2Proof.Machine

namespace Sys2Proof.Claims

open Sys2Proof.Machine

section
variable {s t u : State} {m : CommitMsg}

theorem told_answerCommit (hn : u.now = s.now) (hj : u.jobs = s.jobs) (h : Nat) (a : Answer) : Told s (u.answerCommit m h a) m a := by
  unfold Told State.answerCommit
  split
  · exact (onItsWay_carry u _ _ _ _ _).of_now hn (by unfold State.job; rw [hj])
  · exact u.mem_out_send _

/-- The same answer, said of an earlier state with the same clock and the same jobs. -/
theorem Told.of_now {a : Answer} (h : Told s t m a) (hn : s.now = u.now) (hj : s.jobs = u.jobs) : Told u t m a := by
  have hd : (s.job m.job).det = (u.job m.job).det := by unfold State.job; rw [hj]
  unfold Told at *
  cases hm : m.modul with
  | none =>
    simp only [hm] at h
    exact OnItsWay.of_now h hn hd
  | some r =>
    simp only [hm] at h
    exact h

/-- An answer that makes nothing visible ends the commit's wait. -/
theorem turnAway_tells (hc : s.commits = [m]) (h : Nat) (a : Answer) : Told s (s.turnAway m h a) m a ∧
    Answering s (s.turnAway m h a) ∧ (s.turnAway m h a).hedges = s.hedges ∧ (s.turnAway m h a).commits = [] := by
  unfold State.turnAway
  rw [State.leaveHome_last hc]
  have hs := State.answerCommit_sentOnly { s with commits := [] } m h a
  refine ⟨told_answerCommit (u := { s with commits := [] }) rfl rfl h a, ?_, ?_, ?_⟩
  · exact Answering.trans (t := { s with commits := [] }) rfl hs.answering
  · rw [hs]
  · rw [hs]

theorem inboxDoneFor_plain (h : Plain m) : u.inboxDoneFor m = u := by
  unfold State.inboxDoneFor
  obtain h | h := h
  · simp only [h]
  · split
    · next _ _ h' => exact nomatch h.symm.trans h'
    · rfl

/-- The end of a commit's step: the winner is recorded and the answer goes out. -/
theorem answeredOk (hn : u.now = s.now) (hj : u.jobs = s.jobs) (h : Nat) : Told s ((u.recordWinner m h).answerCommit m h .commitOk) m .commitOk ∧
    Answering u ((u.recordWinner m h).answerCommit m h .commitOk) := by
  have hr := u.recordWinner_answering m h
  refine ⟨told_answerCommit ?_ ?_ h _, hr.trans (State.answerCommit_sentOnly _ m h _).answering⟩
  · rw [hr]; exact hn
  · rw [hr]; exact hj

/-- A commit that releases nothing becomes visible: what is left is its completion counter. -/
theorem commitStep_silent (hc : s.commits = [m]) (hs : Silent s m) (h : Nat) : s.commitStep m h =
    ((({ s with commits := [] }.addDone (s.commitCore m) m.job m.done).recordWinner m h).answerCommit m h .commitOk) := by
  obtain ⟨ho, hh, hp⟩ := hs
  unfold State.commitStep State.releaseOutbox
  rw [State.leaveHome_last hc, inboxDoneFor_plain hp, ho, List.zipIdx_nil, List.filter_nil, List.foldl_nil, State.performHeld_none (s := { s with commits := [] }) hh]

theorem commitStep_tells (hc : s.commits = [m]) (hs : Silent s m) (hd : m.done = 0) (h : Nat) :
    Told s (s.commitStep m h) m .commitOk ∧ Answering s (s.commitStep m h) := by
  have he : { s with commits := [] }.addDone (s.commitCore m) m.job m.done = { s with commits := [] } := if_pos hd
  rw [commitStep_silent hc hs, he]
  obtain ⟨ht, ha⟩ := answeredOk (u := { s with commits := [] }) (s := s) (m := m) rfl rfl h
  exact ⟨ht, Answering.trans (t := { s with commits := [] }) rfl ha⟩


/-! ## The turn of a commit (16 R281; 18 R318) -/

/-- The home once the commit has taken its place. -/
def arrived (s : State) (m : CommitMsg) : State := { s with commits := [m] }

section
variable (he : s.ev = some (.commitArrival m))
include he

theorem exec_commitArrival : exec .commitArrival s = .next (
    if !s.commits.contains m && s.now % mcTicks != 0 then s.schedule s.cycleEnd (.commitArrival m)
    else if !s.commits.contains m && s.yields (s.beforeCommit m) then s.soon (.commitArrival m)
    else
      let s1 := if s.commits.contains m then s else { s with commits := s.commits ++ [m] }
      if s1.commits.find? (fun x => x.sameTile m) = some m then s1.serveCommit m else s1) := by
  show execCommitArrival s = _
  unfold execCommitArrival
  split
  · next n hn =>
    cases he.symm.trans hn
    dsimp only
    split
    · rfl
    · split <;> rfl
  · next hn => exact nomatch he.symm.trans hn
  · next h _ => exact (h _ he).elim

theorem exec_commitArrival_place (hm : m ∉ s.commits) (hn : s.now % mcTicks = 0) (hy : s.yields (s.beforeCommit m) = false) :
    exec .commitArrival s = .next (if (s.commits ++ [m]).find? (fun x => x.sameTile m) = some m
      then State.serveCommit { s with commits := s.commits ++ [m] } m else { s with commits := s.commits ++ [m] }) := by
  have hcon : s.commits.contains m = false := by simpa using hm
  rw [exec_commitArrival he]
  simp only [hcon, hn, hy, Bool.not_false, Bool.true_and, bne_self_eq_false, Bool.false_eq_true, if_false]

theorem exec_commitArrival_alone (h : CommitAlone s m) : exec .commitArrival s = .next ((arrived s m).serveCommit m) := by
  obtain ⟨hc, hn, hy⟩ := h
  have hsame : m.sameTile m = true := by simp [CommitMsg.sameTile]
  rw [exec_commitArrival_place he (by simp [hc]) hn hy]
  simp only [hc, List.nil_append, List.find?_cons, hsame, if_true]
  rfl

/-- Another commit to the same tile goes first. -/
theorem exec_commitArrival_behind (hm : m ∉ s.commits) (hn : s.now % mcTicks = 0) (hy : s.yields (s.beforeCommit m) = false)
    (h : ∃ x ∈ s.commits, x.sameTile m = true) : exec .commitArrival s = .next { s with commits := s.commits ++ [m] } := by
  have hfirst : (s.commits ++ [m]).find? (fun x => x.sameTile m) ≠ some m := by
    obtain ⟨y, hy⟩ := Option.isSome_iff_exists.mp (List.find?_isSome.mpr h)
    rw [List.find?_append, hy]
    exact fun h' => hm (Option.some.inj h' ▸ List.mem_of_find?_eq_some hy)
  rw [exec_commitArrival_place he hm hn hy, if_neg hfirst]

end

theorem serveCommit_won (h : ∃ r ∈ s.hedges, r.task = m.task ∧ r.job = m.job ∧ r.winner.isSome = true) :
    (arrived s m).serveCommit m = (arrived s m).turnAway m ((arrived s m).commitHome m) .cancelled := by
  obtain ⟨r, hr, ht, hj, hw⟩ := h
  have hwon : (arrived s m).hedges.any (fun r => r.task == m.task && r.job == m.job && r.winner.isSome) = true :=
    List.any_eq_true.mpr ⟨r, hr, by simp [ht, hj, hw]⟩
  exact if_pos (.inl hwon)

theorem serveCommit_of_serves (h : HomeServes s m) : (arrived s m).serveCommit m =
    if m.tile = 0 then (arrived s m).commitStep m ((arrived s m).commitHome m) else (arrived s m).commitTile m := by
  obtain ⟨-, ho, ha, hw, hl, hd⟩ := h
  have hwon : s.hedges.any (fun r => r.task == m.task && r.job == m.job && r.winner.isSome) = false :=
    List.any_eq_false.mpr fun r hr => by
      simp only [Bool.and_eq_true, beq_iff_eq, not_and]
      exact fun ht => by simp [hw r hr ht.1 ht.2]
  have hundone : ((s.job m.job).abort != .none && (s.job m.job).abort != .first && decide ((s.job m.job).abortA ≤ m.version)) = false := by
    obtain ha | ha | ha := ha
    · simp [ha]
    · simp [ha]
    · simp [Nat.not_le.mpr ha]
  have hstay : ¬ ((m.modul.isNone = true ∧ s.logRoom m = false) ∨ s.doneCutOff m = true) := by
    rintro (⟨hm, hr⟩ | hc)
    · exact nomatch hr.symm.trans (hl (Option.isNone_iff_eq_none.mp hm))
    · exact nomatch hc.symm.trans hd
  have hgo : ¬ (s.hedges.any (fun r => r.task == m.task && r.job == m.job && r.winner.isSome) = true ∨
      ((s.job m.job).abort != .none && (s.job m.job).abort != .first && decide ((s.job m.job).abortA ≤ m.version)) = true ∨
      (s.job m.job).isOpen = false) := by
    rw [hwon, hundone, ho]
    simp
  exact (if_neg hgo).trans (if_neg hstay)


/-! ## The completion counter and the actions (13 R238, R242) -/

/-- 1 is added at a completion counter of this module, and nothing that the answer needs is changed. -/
theorem addDone_counts {core j pa : Nat} {va : Word} {tb : Bool} (hv : va ≠ 0) (ht : s.translate core j va .rmw = .hbm pa tb) :
    (s.addDone core j va).mem = memWrite s.mem pa (s.homeWord pa + 1).toNat 8 ∧ (s.addDone core j va).slots = s.slots ∧
      (s.addDone core j va).now = s.now ∧ (s.addDone core j va).jobs = s.jobs := by
  have he : s.addDone core j va = ((s.tableWritten tb j).homePerform (.atom .add) pa 1 0 [] none).2.2 := by
    unfold State.addDone
    rw [if_neg hv, ht]
  have htab : (s.tableWritten tb j).mem = s.mem ∧ (s.tableWritten tb j).slots = s.slots ∧ (s.tableWritten tb j).now = s.now ∧
      (s.tableWritten tb j).jobs = s.jobs := by
    unfold State.tableWritten
    split <;> exact ⟨rfl, rfl, rfl, rfl⟩
  rw [he, homePerform_eq none (.inl rfl)]
  generalize s.tableWritten tb j = u at *
  obtain ⟨hmem, hslots, hnow, hjobs⟩ := htab
  have hstore := u.homeData_storeOnly (.atom .add) pa 1 0 []
  have hslice := State.registerFor_sliceOnly (u.homeData (.atom .add) pa 1 0 []).2 (.atom .add) pa none
  have hp : performed u (.atom .add) pa 1 0 [] none = (u.homeData (.atom .add) pa 1 0 []).2.registerFor (.atom .add) pa none :=
    congrArg (fun (u : State) => u.registerFor (.atom .add) pa none) (if_pos rfl)
  have hadd : (u.homeData (.atom .add) pa 1 0 []).2.mem = memWrite s.mem pa (s.homeWord pa + 1).toNat 8 := by
    unfold State.homeData
    rw [State.mem_hbmWrite, hmem]
    unfold State.homeWord
    rw [hmem]
    rfl
  rw [hp, hslice]
  refine ⟨hadd, ?_, ?_, ?_⟩
  · rw [hstore]; exact hslots
  · rw [hstore]; exact hnow
  · rw [hstore]; exact hjobs

/-- A commit that names no tile adds 1 at its completion counter. -/
theorem commitStep_counts {pa : Nat} {tb : Bool} (hc : s.commits = [m]) (hs : Silent s m) (hd : m.done ≠ 0)
    (ht : s.translate (s.commitCore m) m.job m.done .rmw = .hbm pa tb) (h : Nat) : Told s (s.commitStep m h) m .commitOk ∧
    (s.commitStep m h).mem = memWrite s.mem pa (s.homeWord pa + 1).toNat 8 ∧ (s.commitStep m h).slots = s.slots := by
  obtain ⟨hmem, hslots, hnow, hjobs⟩ := addDone_counts (s := { s with commits := [] }) hd ht
  rw [commitStep_silent hc hs]
  obtain ⟨htold, ha⟩ := answeredOk (s := s) (m := m) hnow hjobs h
  refine ⟨htold, ?_, ?_⟩
  · rw [ha]; exact hmem
  · rw [ha]; exact hslots

/-- The action that a commit's first outbox entry asks for (13 R241). -/
def firstAction (m : CommitMsg) (h : Nat) (o : OutEntry) : Held :=
  { home := h, job := m.job, vt := m.version, task := m.task, entry := 0, words := o.words, gang := m.gang, key := m.lp }

/-- An action of a version that lw has not passed is held at the home (13 R242). -/
theorem commitStep_holds {o : OutEntry} {h : Nat} (hc : s.commits = [m]) (hd : m.done = 0) (ho : m.outbox = [o]) (hk : o.kind = .irrev)
    (hh : s.held = []) (hp : Plain m) (hl : s.lwAt m.job (1024 + h) ≤ m.version) : Told s (s.commitStep m h) m .commitOk ∧
    (s.commitStep m h).mem = s.mem ∧ ∃ a, (s.commitStep m h).held = [a] ∧ a.words = o.words ∧ a.vt = m.version ∧ a.job = m.job := by
  have hhome : m.atHome o = true := by simp [CommitMsg.atHome, hk]
  have hentry : State.releaseEntry { s with commits := [] } m h o 0 = { s with commits := [], held := [firstAction m h o] } := by
    unfold State.releaseEntry
    rw [hk, hh]
    rfl
  have hdue : (decide (m.version < s.lwAt m.job (1024 + h))) = false := decide_eq_false (Nat.not_lt.mpr hl)
  have hkeep : State.performHeld { s with commits := [], held := [firstAction m h o] } m.job h = { s with commits := [], held := [firstAction m h o] } := by
    have hlw : (State.lwAt { s with commits := [], held := [firstAction m h o] } m.job (1024 + h)) = s.lwAt m.job (1024 + h) := rfl
    have hb : ((firstAction m h o).job == m.job && (firstAction m h o).home == h && decide ((firstAction m h o).vt < s.lwAt m.job (1024 + h))) = false := by
      exact (congrArg _ hdue).trans (Bool.and_false _)
    unfold State.performHeld
    simp only [hlw, List.filter_cons, List.filter_nil, hb, Bool.not_false, Bool.false_eq_true, if_true, if_false, isort]
    rfl
  have hrel : State.releaseOutbox { s with commits := [] } m h = { s with commits := [], held := [firstAction m h o] } := by
    have hl : (m.outbox.zipIdx).filter (fun o => m.atHome o.1) = [(o, 0)] := by rw [ho]; simp [hhome]
    unfold State.releaseOutbox
    rw [hl]
    exact (congrArg (fun (u : State) => u.performHeld m.job h) hentry).trans hkeep
  have hstep : s.commitStep m h = (({ s with commits := [], held := [firstAction m h o] } : State).recordWinner m h).answerCommit m h .commitOk := by
    unfold State.commitStep
    rw [State.leaveHome_last hc, inboxDoneFor_plain hp, hrel]
    exact congrArg (fun (u : State) => (u.recordWinner m h).answerCommit m h .commitOk) (if_pos hd)
  obtain ⟨htold, ha⟩ := answeredOk (s := s) (u := { s with commits := [], held := [firstAction m h o] }) (m := m) rfl rfl h
  rw [hstep]
  refine ⟨htold, ?_, firstAction m h o, ?_, rfl, rfl, rfl⟩
  · rw [ha]
  · rw [ha]

end

end Sys2Proof.Claims
end

section
/-! A commit's version: the buffer chosen, its bytes, and the header that makes it visible (16 R279, R281). -/

namespace Sys2Proof.Machine

/-! ## Bytes and words -/

theorem memBytes_memPut (bs : List Byte) : ∀ (m : List Host.Cell) (a : Nat), memBytes (memPut m a bs) a bs.length = bs := by
  induction bs with
  | nil => exact fun _ _ => rfl
  | cons b bs ih =>
    intro m a
    rw [List.length_cons, memBytes, memPut, ih, memByte_memPut_other _ _ _ _ (.inl (Nat.lt_succ_self a)), memByte_memSet_same]

theorem memBytes_congr {m m' : List Host.Cell} (n : Nat) : ∀ a, (∀ x, a ≤ x → x < a + n → memByte m x = memByte m' x) → memBytes m a n = memBytes m' a n := by
  induction n with
  | zero => exact fun _ _ => rfl
  | succ n ih =>
    intro a h
    rw [memBytes, memBytes, h a (le_refl a) (by omega), ih (a + 1) fun x hx hx' => h x (by omega) (by omega)]

/-- Four state fields of two bits in one number. -/
theorem stateFields_get (f : Nat → Nat) (hf : ∀ k, f k < 4) {i : Nat} (hi : i < 4) :
    (List.range 4).foldl (fun (n : Nat) k => n + f k * 2 ^ (2 * k)) 0 / 2 ^ (2 * i) % 4 = f i ∧
      (List.range 4).foldl (fun (n : Nat) k => n + f k * 2 ^ (2 * k)) 0 < 256 := by
  have h0 := hf 0
  have h1 := hf 1
  have h2 := hf 2
  have h3 := hf 3
  have he : (List.range 4).foldl (fun (n : Nat) k => n + f k * 2 ^ (2 * k)) 0 = f 0 + f 1 * 4 + f 2 * 16 + f 3 * 64 := by
    simp [List.range_succ]
  rw [he]
  match i, hi with
  | 0, _ => exact ⟨by omega, by omega⟩
  | 1, _ => exact ⟨by omega, by omega⟩
  | 2, _ => exact ⟨by omega, by omega⟩
  | 3, _ => exact ⟨by omega, by omega⟩

theorem commitMask_high : (0xFFFFFFFF000000FF : Word).extractLsb' 32 32 = BitVec.allOnes 32 := by decide

theorem commitMask_state : ∀ i : Fin 4, (0xFFFFFFFF000000FF : Word).extractLsb' (2 * i.val) 2 = BitVec.allOnes 2 := by decide

/-- A header's word of states takes a count of commits and four states. -/
theorem merge_states (w : Word) {c st i : Nat} (hc : c < 2 ^ 32) (hst : st < 256) (hi : i < 4) :
    bits (merge w (BitVec.ofNat 64 (c * 2 ^ 32 + st)) 0xFFFFFFFF000000FF) 32 32 = c ∧
      tileState (merge w (BitVec.ofNat 64 (c * 2 ^ 32 + st)) 0xFFFFFFFF000000FF) i = st / 2 ^ (2 * i) % 4 := by
  have hv : (BitVec.ofNat 64 (c * 2 ^ 32 + st)).toNat = c * 2 ^ 32 + st := by
    rw [BitVec.toNat_ofNat]
    omega
  constructor
  · rw [Claims.bits_eq_extract, extractLsb'_merge _ _ _ (by omega), commitMask_high, BitVec.not_allOnes, BitVec.and_zero, BitVec.zero_or,
      BitVec.and_allOnes, ← Claims.bits_eq_extract, bits, hv]
    omega
  · rw [tileState_eq_extract, extractLsb'_merge _ _ _ (by omega), commitMask_state ⟨i, hi⟩, BitVec.not_allOnes, BitVec.and_zero, BitVec.zero_or,
      BitVec.and_allOnes, ← tileState_eq_extract, tileState, bits, hv]
    match i, hi with
    | 0, _ => omega
    | 1, _ => omega
    | 2, _ => omega
    | 3, _ => omega

/-! ## What writing a version changes (07 R128; 16 R281) -/

/-- Bytes, damage marks, reduction lines, what the homes hold of lines and what is sent are all that differs. -/
def WroteOnly (s t : State) : Prop :=
  t = { s with mem := t.mem, bad := t.bad, drLines := t.drLines, fresh := t.fresh, owners := t.owners, resident := t.resident, side := t.side,
               agenda := t.agenda, timed := t.timed, nextTimed := t.nextTimed }

section
variable {s t u : State}

theorem WroteOnly.trans (h : WroteOnly s t) (h' : WroteOnly t u) : WroteOnly s u := by
  unfold WroteOnly at *
  rw [h']; conv_lhs => rw [h]

theorem WroteOnly.of_storeOnly (h : StoreOnly s t) : WroteOnly s t := by
  unfold StoreOnly at h
  unfold WroteOnly
  rw [h]

theorem WroteOnly.of_slice (h : SliceOnly s t) : WroteOnly s t := by
  unfold SliceOnly at h
  unfold WroteOnly
  rw [h]

theorem WroteOnly.of_agenda (h : AgendaOnly s t) : WroteOnly s t := by
  unfold AgendaOnly at h
  unfold WroteOnly
  rw [h]

theorem State.unitWrite_wroteOnly (s : State) (pa : Nat) (ws : List Word) : WroteOnly s (s.unitWrite pa ws) :=
  (WroteOnly.of_storeOnly (s.hbmWrite_storeOnly _ _ _)).trans (WroteOnly.of_slice (State.revokeWords_sliceOnly _ _))

theorem State.mem_unitWrite_eq (s : State) (pa : Nat) (ws : List Word) :
    (s.unitWrite pa ws).mem = memWrite s.mem pa (ws.foldr (fun w n => w.toNat + 2 ^ 64 * n) 0) (8 * ws.length) := by
  unfold State.unitWrite
  rw [State.revokeWords_sliceOnly _ _, State.mem_hbmWrite]

theorem State.foldl_revoke_slice (l : List (Nat × Nat)) : ∀ s : State, SliceOnly s (l.foldl (fun (u : State) o => u.revoke o.2 o.1) s) := by
  induction l with
  | nil => exact SliceOnly.refl
  | cons o l ih => exact fun s => (s.revoke_sliceOnly _ _).trans (ih _)

theorem State.hbmPut_wrote (s : State) (pa : Nat) (bs : List Byte) : WroteOnly s (s.hbmPut pa bs) ∧ (s.hbmPut pa bs).mem = memPut s.mem pa bs := by
  have hnote : ∀ (l : List Nat) (u : State), AgendaOnly u (l.foldl (fun (u : State) i => u.noteScale (wordAddr pa + 8 * i)) u) := fun l u => by
    rw [← List.foldl_map (f := fun i => wordAddr pa + 8 * i) (g := fun (u : State) w => u.noteScale w)]
    exact State.foldl_noteScale _ _
  unfold State.hbmPut
  dsimp only
  rw [hnote]
  exact ⟨rfl, rfl⟩

theorem State.homePut_wrote (s : State) (pa : Nat) (bs : List Byte) : WroteOnly s (s.homePut pa bs) ∧ (s.homePut pa bs).mem = memPut s.mem pa bs := by
  obtain ⟨hw, hm⟩ := State.hbmPut_wrote { s with owners := s.owners.filter fun o => !decide (pa < o.1 + 8 ∧ o.1 < pa + bs.length) } pa bs
  have hs := State.foldl_revoke_slice (s.owners.filter fun o => decide (pa < o.1 + 8 ∧ o.1 < pa + bs.length))
    (State.hbmPut { s with owners := s.owners.filter fun o => !decide (pa < o.1 + 8 ∧ o.1 < pa + bs.length) } pa bs)
  refine ⟨?_, ?_⟩
  · exact WroteOnly.trans (t := { s with owners := s.owners.filter fun o => !decide (pa < o.1 + 8 ∧ o.1 < pa + bs.length) }) rfl
      (hw.trans (WroteOnly.of_slice hs))
  · exact hs.mem.trans hm

theorem State.writeBuffer_wroteOnly (core j fuel : Nat) : ∀ (s : State) (base : Nat) (bs : List Byte), WroteOnly s (s.writeBuffer core j base fuel bs) := by
  induction fuel with
  | zero => exact fun _ _ _ => rfl
  | succ fuel ih =>
    intro s base bs
    unfold State.writeBuffer
    split
    · rfl
    · split
      · exact (s.homePut_wrote _ _).1.trans (ih _ _ _)
      · rfl

/-- A buffer of one page takes its bytes. -/
theorem State.mem_writeBuffer_page {core j base b fuel : Nat} {tb : Bool} {bs : List Byte} (hl : bs.length = 4096)
    (ht : s.translate core j (BitVec.ofNat 64 base) .read = .hbm b tb) : (s.writeBuffer core j base (fuel + 1) bs).mem = memPut s.mem b bs := by
  have hne : bs ≠ [] := by rintro rfl; exact absurd hl (by decide)
  have htake : bs.take 4096 = bs := List.take_of_length_le (le_of_eq hl)
  have hdrop : bs.drop 4096 = [] := List.drop_eq_nil_of_le (le_of_eq hl)
  have hend : ∀ (u : State), u.writeBuffer core j (base + 4096) fuel [] = u := fun u => by
    cases fuel with
    | zero => rfl
    | succ n => unfold State.writeBuffer; exact if_pos rfl
  unfold State.writeBuffer
  rw [if_neg hne, ht]
  dsimp only
  rw [htake, hdrop, hend]
  exact (s.homePut_wrote _ _).2

/-- The state of a buffer once a new version has taken buffer i (16 R279, R281). -/
def nextState (s : State) (pa i : Nat) (h : List Word) (m : CommitMsg) (k : Nat) : Nat :=
  if k = i then 1
  else if tileState (h.getD 6 0) k = 1 ∧ (h.getD (2 + k) 0).toNat = m.version then
    (if s.readers.any (fun r => r.header == pa && r.buf == k) then 3 else 0)
  else tileState (h.getD 6 0) k

theorem nextState_lt (s : State) (pa i : Nat) (h : List Word) (m : CommitMsg) (k : Nat) : nextState s pa i h m k < 4 := by
  unfold nextState
  split
  · decide
  · split
    · split <;> decide
    · exact bits_lt _ _ _

theorem State.writeHeader_eq (s : State) (pa i : Nat) (h : List Word) (m : CommitMsg) : s.writeHeader pa i h m =
    (s.unitWrite (pa + 16 + 8 * i) [BitVec.ofNat 64 m.version]).unitWrite (pa + 48)
      [merge (h.getD 6 0) (BitVec.ofNat 64 ((bits (h.getD 6 0) 32 32 + 1) % 2 ^ 32 * 2 ^ 32 +
        (List.range 4).foldl (fun (n : Nat) k => n + nextState s pa i h m k * 2 ^ (2 * k)) 0)) 0xFFFFFFFF000000FF,
       merge (h.getD 7 0) (BitVec.ofNat 64 (m.copy * 2 ^ 32 + m.task)) 0xFFFFFFFFF] := rfl

/-- A header that has taken a new version: the version of the buffer, its state, and the count of commits. -/
theorem State.writeHeader_writes (s : State) {pa i : Nat} {h : List Word} {m : CommitMsg} (hi : i < 4) :
    WroteOnly s (s.writeHeader pa i h m) ∧
      BitVec.ofNat 64 (memRead (s.writeHeader pa i h m).mem (pa + 16 + 8 * i) 8) = BitVec.ofNat 64 m.version ∧
      tileState (BitVec.ofNat 64 (memRead (s.writeHeader pa i h m).mem (pa + 48) 8)) i = 1 ∧
      bits (BitVec.ofNat 64 (memRead (s.writeHeader pa i h m).mem (pa + 48) 8)) 32 32 = (bits (h.getD 6 0) 32 32 + 1) % 2 ^ 32 ∧
      ∀ x, (x < pa ∨ pa + 64 ≤ x) → memByte (s.writeHeader pa i h m).mem x = memByte s.mem x := by
  have hfi : nextState s pa i h m i = 1 := if_pos rfl
  obtain ⟨hfield, hsum⟩ := stateFields_get _ (nextState_lt s pa i h m) hi
  rw [State.writeHeader_eq]
  generalize (List.range 4).foldl (fun (n : Nat) k => n + nextState s pa i h m k * 2 ^ (2 * k)) 0 = st at *
  obtain ⟨hcount, hstate⟩ := merge_states (h.getD 6 0) (c := (bits (h.getD 6 0) 32 32 + 1) % 2 ^ 32) (Nat.mod_lt _ (by decide)) hsum hi
  generalize merge (h.getD 6 0) (BitVec.ofNat 64 ((bits (h.getD 6 0) 32 32 + 1) % 2 ^ 32 * 2 ^ 32 + st)) 0xFFFFFFFF000000FF = w6 at *
  generalize merge (h.getD 7 0) (BitVec.ofNat 64 (m.copy * 2 ^ 32 + m.task)) 0xFFFFFFFFF = w7
  obtain ⟨hver, hother⟩ := s.unitWrite_word (pa + 16 + 8 * i) (BitVec.ofNat 64 m.version)
  have hkeep := s.unitWrite_wroteOnly (pa + 16 + 8 * i) [BitVec.ofNat 64 m.version]
  generalize s.unitWrite (pa + 16 + 8 * i) [BitVec.ofNat 64 m.version] = u at *
  have hmem : (u.unitWrite (pa + 48) [w6, w7]).mem = memWrite u.mem (pa + 48) (w6.toNat + 2 ^ 64 * w7.toNat) 16 := u.mem_unitWrite_eq _ _
  have hw6 : memRead (u.unitWrite (pa + 48) [w6, w7]).mem (pa + 48) 8 = w6.toNat := by
    have := w6.isLt
    rw [hmem, memRead_memWrite_le (by omega)]
    omega
  have hback : BitVec.ofNat 64 w6.toNat = w6 := BitVec.ofNat_toNat .. |>.trans (BitVec.setWidth_eq _)
  refine ⟨hkeep.trans (u.unitWrite_wroteOnly _ _), ?_, ?_, ?_, fun x hx => ?_⟩
  · rw [hmem, memRead_memWrite_other _ _ _ _ _ _ (.inl (by omega)), hver, BitVec.ofNat_toNat, BitVec.setWidth_eq]
  · rw [hw6, hback, hstate, hfield, hfi]
  · rw [hw6, hback, hcount]
  · rw [hmem, memByte_memWrite_other _ _ _ _ _ (by omega), hother x (by omega)]

/-- A buffer is one of the four. -/
theorem chooseBuffer_lt {pa lw i : Nat} {h : List Word} (hi : s.chooseBuffer pa h lw = .take i) : i < 4 := by
  unfold State.chooseBuffer at hi
  dsimp only at hi
  split at hi
  · next k hk =>
    cases hi
    exact List.mem_range.mp (List.mem_filter.mp (List.mem_of_find?_eq_some hk)).1
  · split at hi
    · next k r hk =>
      cases hi
      have hmem : i ∈ isort _ _ := hk ▸ List.mem_cons_self
      rw [isort_eq_insertionSort, List.mem_insertionSort] at hmem
      exact List.mem_range.mp (List.mem_filter.mp hmem).1
    · split at hi <;> exact nomatch hi

end

end Sys2Proof.Machine

namespace Sys2Proof.Claims

open Sys2Proof.Machine

section
variable {s : State} {m : CommitMsg} {pa : Nat} {h : List Word}

/-- The home with the commit's header marked as in use (16 R276). -/
def headerMarked (s : State) (m : CommitMsg) (pa : Nat) : State := (arrived s m).markTile pa m.job

theorem headerMarked_eq (s : State) (m : CommitMsg) (pa : Nat) : ∃ l, headerMarked s m pa = { s with commits := [m], tileMarks := l } ∧ ∃ o, (pa, o) ∈ l := by
  unfold headerMarked State.markTile
  split
  · next h =>
    obtain ⟨⟨a, o⟩, hm, ha⟩ := List.any_eq_true.mp h
    cases eq_of_beq ha
    exact ⟨s.tileMarks, rfl, o, hm⟩
  · exact ⟨_, rfl, m.job, List.mem_append_right _ (List.mem_singleton.mpr rfl)⟩

theorem commitTile_bad (hb : ∀ pa h, s.header (s.commitCore m) m.job m.tile ≠ .ok pa h) :
    ∃ home, (arrived s m).commitTile m = (arrived s m).turnAway m home .prot := by
  unfold State.commitTile
  dsimp only
  split
  · next pa h he => exact (hb pa h he).elim
  · exact ⟨_, rfl⟩

/-- What a home does with a commit of a version for which it finds a buffer, none, or one that is still read (16 R279). -/
def atChoice (s : State) (m : CommitMsg) (pa : Nat) (h : List Word) : Choice → State
  | .full => (headerMarked s m pa).turnAway m (homeOf pa) .versionFull
  | .wait => { headerMarked s m pa with commits := (headerMarked s m pa).commits.map fun x => if x = m then { m with reader := some pa } else x }
  | .take i => (((headerMarked s m pa).writeBuffer (s.commitCore m) m.job (((h.getD 1 0) &&& ~~~0xFFF).toNat + i * m.size) 17 m.bytes).writeHeader pa i h m).commitStep m
      (homeOf pa)

/-- What a home does for a commit whose header it accepts (16 R279). -/
theorem commitTile_ok (hk : s.header (s.commitCore m) m.job m.tile = .ok pa h) (hlp : m.lp = none) : (arrived s m).commitTile m =
    if m.size ≠ 0 ∧ tileSize (h.getD 0 0) ≠ m.size then (headerMarked s m pa).turnAway m (homeOf pa) .prot
    else if m.size = 0 then (headerMarked s m pa).commitStep m (homeOf pa)
    else atChoice s m pa h ((headerMarked s m pa).chooseBuffer pa h
      ((headerMarked s m pa).lwAt ((((headerMarked s m pa).tileMarks.find? fun t => t.1 == pa).map (·.2)).getD m.job) (1024 + homeOf pa))) := by
  have hk' : (arrived s m).header ((arrived s m).commitCore m) m.job m.tile = .ok pa h := hk
  have hno : ¬ (m.lp.isSome = true ∧ m.rback < tget (headerMarked s m pa).tileRback pa 0) := by simp [hlp]
  unfold State.commitTile
  dsimp only
  rw [hk']
  dsimp only
  refine congrArg _ ((if_neg hno).trans (congrArg _ ?_))
  unfold atChoice
  split <;> next hc => simp only [headerMarked, hc] <;> rfl

theorem writes_commits {u : State} (hw : WroteOnly s u) : u.commits = s.commits ∧ u.held = s.held ∧ u.now = s.now ∧ u.jobs = s.jobs := by
  unfold WroteOnly at hw
  rw [hw]
  exact ⟨rfl, rfl, rfl, rfl⟩

/-- The version of a commit is written, and the commit becomes visible (16 R279, R281). -/
theorem atChoice_take {i : Nat} (hi : i < 4) (hs : Silent s m) (hd : m.done = 0) : Told s (atChoice s m pa h (.take i)) m .commitOk ∧
    BitVec.ofNat 64 (memRead (atChoice s m pa h (.take i)).mem (pa + 16 + 8 * i) 8) = BitVec.ofNat 64 m.version ∧
    tileState (BitVec.ofNat 64 (memRead (atChoice s m pa h (.take i)).mem (pa + 48) 8)) i = 1 ∧
    bits (BitVec.ofNat 64 (memRead (atChoice s m pa h (.take i)).mem (pa + 48) 8)) 32 32 = (bits (h.getD 6 0) 32 32 + 1) % 2 ^ 32 ∧
    ∀ b tb, m.bytes.length = 4096 → b + 4096 ≤ pa ∨ pa + 64 ≤ b →
      s.translate (s.commitCore m) m.job (BitVec.ofNat 64 (((h.getD 1 0) &&& ~~~0xFFF).toNat + i * m.size)) .read = .hbm b tb →
      memBytes (atChoice s m pa h (.take i)).mem b 4096 = m.bytes := by
  unfold atChoice
  dsimp only
  obtain ⟨l, hl, -⟩ := headerMarked_eq s m pa
  rw [hl]
  have hbytes : ∀ b tb, m.bytes.length = 4096 →
      s.translate (s.commitCore m) m.job (BitVec.ofNat 64 (((h.getD 1 0) &&& ~~~0xFFF).toNat + i * m.size)) .read = .hbm b tb →
      (State.writeBuffer { s with commits := [m], tileMarks := l } (s.commitCore m) m.job (((h.getD 1 0) &&& ~~~0xFFF).toNat + i * m.size) 17 m.bytes).mem =
        memPut s.mem b m.bytes := fun b tb hlen ht => State.mem_writeBuffer_page (s := { s with commits := [m], tileMarks := l }) hlen ht
  have hbuf := State.writeBuffer_wroteOnly (s.commitCore m) m.job 17 { s with commits := [m], tileMarks := l } (((h.getD 1 0) &&& ~~~0xFFF).toNat + i * m.size) m.bytes
  generalize State.writeBuffer { s with commits := [m], tileMarks := l } (s.commitCore m) m.job (((h.getD 1 0) &&& ~~~0xFFF).toNat + i * m.size) 17 m.bytes = u at *
  obtain ⟨hhead, hver, hstate, hcount, hother⟩ := u.writeHeader_writes (pa := pa) (h := h) (m := m) hi
  generalize u.writeHeader pa i h m = v at *
  obtain ⟨hcommits, hheld, hnow, hjobs⟩ := writes_commits (hbuf.trans hhead)
  obtain ⟨ho, hh, hp⟩ := hs
  obtain ⟨htold, ha⟩ := commitStep_tells (s := v) (m := m) hcommits ⟨ho, hheld.trans hh, hp⟩ hd (homeOf pa)
  have hmem : (v.commitStep m (homeOf pa)).mem = v.mem := by rw [ha]
  rw [hmem]
  refine ⟨?_, hver, hstate, hcount, fun b tb hlen hout ht => ?_⟩
  · exact htold.of_now hnow hjobs
  · rw [memBytes_congr 4096 b fun x hx hx' => hother x (by omega), hbytes b tb hlen ht]
    conv_lhs => rw [← hlen]
    exact memBytes_memPut _ _ _

end

end Sys2Proof.Claims
end

section
/-! What a home that serves a commit answers and leaves (16 R276 to R281). -/

namespace Sys2Proof.Claims

open Sys2Proof.Machine

/-- A refusal is told, and changes no memory. -/
theorem told_turnAway {s u : State} {m : CommitMsg} {home : Nat} {a : Answer} (hx : exec .commitArrival s = .next (u.turnAway m home a)) (hc : u.commits = [m])
    (hn : u.now = s.now) (hj : u.jobs = s.jobs) (hm : u.mem = s.mem) : ∃ t, exec .commitArrival s = .next t ∧ Told s t m a ∧ t.mem = s.mem := by
  obtain ⟨htold, ha, -, -⟩ := turnAway_tells hc home a
  refine ⟨_, hx, htold.of_now hn hj, ?_⟩
  rw [ha]
  exact hm

section
variable {s : State} {m : CommitMsg} {pa : Nat} {h : List Word} (he : s.ev = some (.commitArrival m)) (hs : HomeServes s m)
include he hs

theorem exec_commitArrival_step (ht : m.tile = 0) :
    exec .commitArrival s = .next ((arrived s m).commitStep m ((arrived s m).commitHome m)) := by
  rw [exec_commitArrival_alone he hs.1, serveCommit_of_serves hs, if_pos ht]

theorem exec_commitArrival_tile (ht : m.tile ≠ 0) : exec .commitArrival s = .next ((arrived s m).commitTile m) := by
  rw [exec_commitArrival_alone he hs.1, serveCommit_of_serves hs, if_neg ht]

/-- A commit that names no tile, and releases nothing (16 R281; 13 R238). -/
theorem commit_without_tile (ht : m.tile = 0) (hq : Silent s m) :
    (m.done = 0 → ∃ t, exec .commitArrival s = .next t ∧ Told s t m .commitOk ∧ t.mem = s.mem ∧ t.slots = s.slots) ∧
    (∀ pa tb, m.done ≠ 0 → s.translate (s.commitCore m) m.job m.done .rmw = .hbm pa tb → ∃ t, exec .commitArrival s = .next t ∧ Told s t m .commitOk ∧
      t.mem = memWrite s.mem pa (s.homeWord pa + 1).toNat 8 ∧ t.slots = s.slots) := by
  refine ⟨fun hd => ?_, fun pa tb hd htr => ?_⟩
  · obtain ⟨htold, ha⟩ := commitStep_tells (s := arrived s m) (m := m) rfl hq hd ((arrived s m).commitHome m)
    exact ⟨_, exec_commitArrival_step he hs ht, htold, by rw [ha]; rfl, by rw [ha]; rfl⟩
  · obtain ⟨htold, hmem, hslots⟩ := commitStep_counts (s := arrived s m) (m := m) rfl hq hd htr ((arrived s m).commitHome m)
    exact ⟨_, exec_commitArrival_step he hs ht, htold, hmem, hslots⟩

/-- A commit of a tile without a version (16 R276). -/
theorem commit_marks (ht : m.tile ≠ 0) (hz : m.size = 0) (hd : m.done = 0) (hlp : m.lp = none) (hq : Silent s m)
    (hk : s.header (s.commitCore m) m.job m.tile = .ok pa h) :
    ∃ t, exec .commitArrival s = .next t ∧ Told s t m .commitOk ∧ t.mem = s.mem ∧ ∃ o, (pa, o) ∈ t.tileMarks := by
  have hx := exec_commitArrival_tile he hs ht
  rw [commitTile_ok hk hlp, if_neg (fun hc => hc.1 hz), if_pos hz] at hx
  obtain ⟨l, hl, hmark⟩ := headerMarked_eq s m pa
  rw [hl] at hx
  obtain ⟨htold, ha⟩ := commitStep_tells (s := { s with commits := [m], tileMarks := l }) (m := m) rfl hq hd (homeOf pa)
  refine ⟨_, hx, htold, ?_, ?_⟩
  · rw [ha]
  · rw [ha]; exact hmark

/-- A commit of a version whose size the header does not give (13 R237). -/
theorem commit_wrong_size (ht : m.tile ≠ 0) (hz : m.size ≠ 0) (hlp : m.lp = none) (hk : s.header (s.commitCore m) m.job m.tile = .ok pa h)
    (hb : tileSize (h.getD 0 0) ≠ m.size) : ∃ t, exec .commitArrival s = .next t ∧ Told s t m .prot ∧ t.mem = s.mem := by
  have hx := exec_commitArrival_tile he hs ht
  rw [commitTile_ok hk hlp, if_pos ⟨hz, hb⟩] at hx
  obtain ⟨l, hl, -⟩ := headerMarked_eq s m pa
  rw [hl] at hx
  exact told_turnAway hx rfl rfl rfl rfl

/-- A commit of a version meets the buffers of its tile (16 R279). -/
theorem exec_commitArrival_choice {owner : Nat} (ht : m.tile ≠ 0) (hz : m.size ≠ 0) (hlp : m.lp = none)
    (hk : s.header (s.commitCore m) m.job m.tile = .ok pa h) (ho : (pa, owner) ∈ s.tileMarks) (hu : ∀ x ∈ s.tileMarks, x.1 = pa → x.2 = owner)
    (hb : tileSize (h.getD 0 0) = m.size) :
    exec .commitArrival s = .next (atChoice s m pa h (s.chooseBuffer pa h (s.lwAt owner (1024 + homeOf pa)))) := by
  have hsame : headerMarked s m pa = arrived s m := if_pos (List.any_eq_true.mpr ⟨_, ho, beq_self_eq_true pa⟩)
  have howner : ((s.tileMarks.find? fun t => t.1 == pa).map (·.2)).getD m.job = owner := by
    obtain ⟨x, hx⟩ := Option.isSome_iff_exists.mp (List.find?_isSome (p := fun t : Nat × Nat => t.1 == pa).mpr ⟨(pa, owner), ho, beq_self_eq_true pa⟩)
    rw [hx]
    exact hu x (List.mem_of_find?_eq_some hx) (eq_of_beq (List.find?_some (p := fun t : Nat × Nat => t.1 == pa) hx))
  have hx := exec_commitArrival_tile he hs ht
  rw [commitTile_ok hk hlp, if_neg (fun hc => hc.2 hb), if_neg hz, hsame] at hx
  rw [← howner]
  exact hx

end

end Sys2Proof.Claims

open Sys2Proof Sys2Proof.Machine Sys2Proof.Claims

/-- Settles O40. -/
theorem homesArbitrateCommits : Obligations.HomesArbitrateCommits := by
  intro s m he
  refine ⟨fun hm hn => ?_, fun hm hn hy => ?_, fun hm hn hy hx => exec_commitArrival_behind he hm hn hy hx, fun ha hw => ?_,
    fun hs _ ht hq => commit_without_tile he hs ht hq, fun o hs _ ht hd ho hk hh hp hl => ?_, fun hs ht hb => ?_,
    fun pa h hs ht hz hd hlp hq hk => commit_marks he hs ht hz hd hlp hq hk,
    fun pa h hs ht hz hlp hk => ⟨commit_wrong_size he hs ht hz hlp hk, fun owner ho hu hb => ?_⟩⟩
  · rw [exec_commitArrival he]
    simp [hm, hn]
  · rw [exec_commitArrival he]
    simp [hm, hn, hy]
  · obtain ⟨htold, ha', hhedges, hcommits⟩ := turnAway_tells (s := arrived s m) (m := m) rfl ((arrived s m).commitHome m) .cancelled
    refine ⟨_, (exec_commitArrival_alone he ha).trans (congrArg _ (serveCommit_won hw)), htold, ?_, ?_, hhedges, hcommits⟩
    · rw [ha']; rfl
    · rw [ha']; rfl
  · obtain ⟨htold, hmem, hheld⟩ := commitStep_holds (s := arrived s m) (m := m) rfl hd ho hk hh hp hl
    exact ⟨_, exec_commitArrival_step he hs ht, htold, hmem, hheld⟩
  · obtain ⟨home, hx⟩ := commitTile_bad hb
    exact told_turnAway ((exec_commitArrival_tile he hs ht).trans (congrArg _ hx)) rfl rfl rfl rfl
  · have hx := exec_commitArrival_choice he hs ht hz hlp hk ho hu hb
    obtain ⟨l, hl, -⟩ := headerMarked_eq s m pa
    refine ⟨fun hc => ?_, fun hc => ?_, fun i hc hq hd => ?_⟩
    · rw [hc] at hx
      refine hx.trans (congrArg _ ?_)
      have hsame : headerMarked s m pa = arrived s m := if_pos (List.any_eq_true.mpr ⟨_, ho, beq_self_eq_true pa⟩)
      have hsame' : s.markTile pa m.job = s := if_pos (List.any_eq_true.mpr ⟨_, ho, beq_self_eq_true pa⟩)
      unfold atChoice
      dsimp only
      rw [hsame, hsame']
      simp only [arrived, List.map_cons, List.map_nil, if_true]
    · rw [hc] at hx
      unfold atChoice at hx
      rw [hl] at hx
      exact told_turnAway hx rfl rfl rfl rfl
    · rw [hc] at hx
      obtain ⟨htold, hver, hstate, hcount, hbytes⟩ := atChoice_take (pa := pa) (h := h) (chooseBuffer_lt hc) hq hd
      exact ⟨_, hx, htold, hver, hstate, hcount, fun b tb _ hlen hout htr => hbytes b tb hlen hout htr⟩
end

section
/-! The Low-Water token, its passes and its marks (18 R306 to R315). -/

namespace Sys2Proof.Machine

/-! ## What stays of the jobs' rings -/

/-- No strand has changed, and each job keeps its parts of this module, its group and its marks. -/
structure RingStays (s t : State) : Prop where
  slots : t.slots = s.slots
  ringParts : ∀ j, (t.job j).ringParts = (s.job j).ringParts
  group : ∀ j, (t.job j).group = (s.job j).group
  self : ∀ j, (t.job j).self = (s.job j).self
  lw : ∀ j p, ((t.job j).part p).lw = ((s.job j).part p).lw

/-- What a job's new value keeps of it, every job keeps. -/
theorem State.job_setJob_of {α : Type} {f : Job → α} {s : State} {j : Nat} {v : Job} (h : f v = f (s.job j)) (k : Nat) : f ((s.setJob j v).job k) = f (s.job k) := by
  by_cases hk : k = j
  · rw [hk, State.job_setJob, h]
  · exact congrArg f (tget_tset_other s.jobs v {} hk)

namespace RingStays

theorem of_jobs {s t : State} (hs : t.slots = s.slots) (hj : t.jobs = s.jobs) : RingStays s t := by
  have hjob : ∀ j, t.job j = s.job j := fun j => by unfold State.job; rw [hj]
  exact ⟨hs, fun j => by rw [hjob], fun j => by rw [hjob], fun j => by rw [hjob], fun j p => by rw [hjob]⟩

theorem refl (s : State) : RingStays s s := of_jobs rfl rfl

theorem trans {s t u : State} (h : RingStays s t) (h' : RingStays t u) : RingStays s u :=
  ⟨h'.slots.trans h.slots, fun j => (h'.ringParts j).trans (h.ringParts j), fun j => (h'.group j).trans (h.group j),
    fun j => (h'.self j).trans (h.self j), fun j p => (h'.lw j p).trans (h.lw j p)⟩

theorem foldl {α : Type} {f : State → α → State} (h : ∀ u x, RingStays u (f u x)) (l : List α) (s : State) : RingStays s (l.foldl f s) := by
  induction l generalizing s with
  | nil => exact refl s
  | cons x l ih => exact (h s x).trans (ih _)

theorem ite {s t u : State} {c : Prop} [Decidable c] (ht : RingStays s t) (hu : RingStays s u) : RingStays s (if c then t else u) := by
  split
  · exact ht
  · exact hu

/-- A job takes a value that keeps what its ring is made of. -/
theorem setJob {s : State} {j : Nat} {v : Job} (hr : v.ringParts = (s.job j).ringParts) (hg : v.group = (s.job j).group)
    (hs : v.self = (s.job j).self) (hl : ∀ p, (v.part p).lw = ((s.job j).part p).lw) : RingStays s (s.setJob j v) :=
  ⟨rfl, State.job_setJob_of hr, State.job_setJob_of hg, State.job_setJob_of hs, fun k p => State.job_setJob_of (f := fun x : Job => (x.part p).lw) (hl p) k⟩

theorem setPart {s : State} {j p : Nat} {v : Part} (h : v.lw = ((s.job j).part p).lw) : RingStays s (s.setPart j p v) := by
  refine setJob rfl rfl rfl fun k => ?_
  by_cases hk : k = p
  · subst hk
    exact (congrArg Part.lw (tget_tset_same (s.job j).parts k v {}) :).trans h
  · exact (congrArg Part.lw (tget_tset_other (s.job j).parts v {} hk) :)

theorem setLp (s : State) (j n : Nat) (l : Lp) : RingStays s (s.setLp j n l) := setJob rfl rfl rfl fun _ => rfl

theorem schedule (s : State) (t : Nat) (e : Ev) : RingStays s (s.schedule t e) := of_jobs rfl rfl
theorem soon (s : State) (e : Ev) : RingStays s (s.soon e) := of_jobs rfl rfl
theorem send (s : State) (o : Out) : RingStays s (s.send o) := of_jobs rfl rfl
theorem mapEntries (s : State) (f : Entry → Entry) : RingStays s (s.mapEntries f) := of_jobs rfl rfl
theorem setCluster (s : State) (c : Nat) (v : Cluster) : RingStays s (s.setCluster c v) := of_jobs rfl rfl

theorem carry (s : State) (j src dst flits : Nat) (e : Ev) : RingStays s (s.carry j src dst flits e) := by
  have h := s.carry_sentOnly j src dst flits e
  exact of_jobs (by rw [h]) (by rw [h])

theorem poke (s : State) (cl : Nat) : RingStays s (s.poke cl) := ite (refl s) (soon s _)

theorem resourcesFreed (s : State) : RingStays s s.resourcesFreed :=
  foldl (f := fun u (c : Nat × Cluster) => u.poke c.1) (fun u c => poke u c.1) s.clusters s

/-! ## Memory and pools -/

theorem unitWrite (s : State) (pa : Nat) (ws : List Word) : RingStays s (s.unitWrite pa ws) := by
  have h := s.unitWrite_wroteOnly pa ws
  exact of_jobs (by rw [h]) (by rw [h])

theorem writeArea (s : State) (j va : Nat) (ws : List Word) : RingStays s (s.writeArea j va ws) := by
  unfold State.writeArea
  split
  · exact unitWrite s _ ws
  · exact refl s

theorem writeWords (s : State) (a : Nat) (ws : List Word) : RingStays s (s.writeWords a ws) := by
  unfold State.writeWords State.markLocal
  split <;> exact of_jobs rfl rfl

theorem poolFree (s : State) (j va : Nat) : RingStays s (s.poolFree j va) := setJob rfl rfl rfl fun _ => rfl

theorem trace (s : State) (j : Nat) (ws : List Word) : RingStays s (s.trace j ws) := by
  unfold State.trace
  refine ite (refl s) ?_
  split
  · exact (unitWrite s _ ws).trans (setJob rfl rfl rfl fun _ => rfl)
  · exact setJob rfl rfl rfl fun _ => rfl

/-! ## Queues, reports and messages -/

theorem receive (s : State) (cl : Nat) (e : Entry) : RingStays s (s.receive cl e) := by
  unfold State.receive
  split
  · exact refl s
  · exact setPart rfl

theorem enqueue (s : State) (cl : Nat) (e : Entry) : RingStays s (s.enqueue cl e) := by
  unfold State.enqueue
  exact (ite ((setCluster s _ _).trans (receive _ _ _)) (setCluster s _ _)).trans (soon _ _)

theorem startAbort (s : State) (j source detail : Nat) : RingStays s (s.startAbort j source detail) := by
  unfold State.startAbort
  refine ite (refl s) (ite ?_ ?_)
  · refine trans ?_ (soon _ _)
    exact setJob rfl rfl rfl fun _ => rfl
  · refine trans ?_ (send _ _)
    exact setJob rfl rfl rfl fun _ => rfl

theorem postEvent (s : State) (kind job : Nat) (d1 d2 d3 : Word) : RingStays s (s.postEvent kind job d1 d2 d3) := by
  obtain ⟨hj, hs⟩ := s.postEvent_leaves kind job d1 d2 d3
  exact of_jobs hs hj

theorem countSend (s : State) (j part v : Nat) : RingStays s (s.countSend j part v).2 := setPart rfl

theorem route (s : State) (j part : Nat) (m : Message) : RingStays s (s.route j part m) := by
  unfold State.route
  exact trans (countSend s _ _ _) (carry _ _ _ _ _ _)

theorem releaseMessage (s : State) (j part : Nat) (m : Message) : RingStays s (s.releaseMessage j part m) := by
  unfold State.releaseMessage
  exact ite (of_jobs rfl rfl) (route s _ _ _)

theorem drainReleases (s : State) : RingStays s s.drainReleases :=
  trans (t := { s with relWait := [] }) (of_jobs rfl rfl) (foldl (fun u _ => releaseMessage u _ _ _) _ _)

theorem performAction (s : State) (a : Held) : RingStays s (s.performAction a) := by
  unfold State.performAction
  dsimp only
  split
  · exact of_jobs rfl rfl
  · split
    · exact trans (t := (s.takeHomeSeq a.job a.home).2) (of_jobs rfl rfl) (releaseMessage _ _ _ _)
    · split <;> exact of_jobs rfl rfl
  · exact trace s _ _

theorem performHeld (s : State) (j h : Nat) : RingStays s (s.performHeld j h) :=
  trans (t := { s with held := s.held.filter fun (a : Held) => !(a.job == j && a.home == h && decide (a.vt < s.lwAt j (1024 + h))) }) (of_jobs rfl rfl)
    (foldl (fun u a => performAction u a) _ _)

theorem enterInbox (s : State) (j n i : Nat) (e : InboxEntry) : RingStays s (s.enterInbox j n i e) := (setLp s j n _).trans (writeWords _ _ _)

theorem refill (j n fuel : Nat) : ∀ s : State, RingStays s (s.refill j n fuel) := by
  induction fuel with
  | zero => exact refl
  | succ fuel ih =>
    intro s
    unfold State.refill
    dsimp only
    split
    · exact (((setLp s j n _).trans (poolFree _ j _)).trans (enterInbox _ j n _ _)).trans (ih _)
    · exact refl s

theorem fossil (s : State) (j n lw : Nat) : RingStays s (s.fossil j n lw) := by
  unfold State.fossil State.writeStatus
  exact ((setLp s j n _).trans (refill _ _ _ _)).trans (unitWrite _ _ _)

theorem resumeRecord (s : State) (r : Nat) : RingStays s (s.resumeRecord r) := by
  unfold State.resumeRecord
  split
  · exact refl s
  · exact trans (t := { s with records := s.records.filter (fun x => x.1 != r) }) (of_jobs rfl rfl) (enqueue _ _ _)

theorem retryCommits (s : State) : RingStays s s.retryCommits :=
  foldl (fun u _ => ite (refl u) (schedule u _ _)) _ s

theorem endCut (s : State) (j lw : Nat) : RingStays s (s.endCut j lw) := by
  unfold State.endCut
  refine trans ?_ (resourcesFreed _)
  refine trans ?_ (mapEntries _ _)
  exact setJob rfl rfl rfl fun _ => rfl

end RingStays

end Sys2Proof.Machine
end

section
/-! The end of a pass (18 R309, R310, R315, R316). -/

namespace Sys2Proof.Machine

theorem State.job_postEvent (s : State) (kind job : Nat) (d1 d2 d3 : Word) (j : Nat) : (s.postEvent kind job d1 d2 d3).job j = s.job j := by
  unfold State.job
  rw [(s.postEvent_leaves kind job d1 d2 d3).1]

theorem State.poolAlloc_eq {s t : State} {j n va : Nat} (h : s.poolAlloc j n = some (va, t)) :
    ∃ l, t = s.setJob j { s.job j with poolUsed := l } := by
  unfold State.poolAlloc at h
  dsimp only at h
  split at h
  · exact nomatch h
  · obtain ⟨-, ht⟩ := Prod.mk.inj (Option.some.inj h)
    exact ⟨_, ht.symm⟩

/-- A step of a pass: the clock stands, nothing pending or sent is lost, and the jobs keep their rings. -/
structure Onward (s t : State) : Prop where
  later : Later s t
  rings : RingStays s t

namespace Onward

theorem trans {s t u : State} (h : Onward s t) (h' : Onward t u) : Onward s u := ⟨h.later.trans h'.later, h.rings.trans h'.rings⟩

theorem foldl {α : Type} {f : State → α → State} (h : ∀ u x, Onward u (f u x)) (l : List α) (s : State) : Onward s (l.foldl f s) :=
  ⟨Later.foldl (fun u x => (h u x).later) l s, RingStays.foldl (fun u x => (h u x).rings) l s⟩

theorem ite {s t u : State} {c : Prop} [Decidable c] (ht : Onward s t) (hu : Onward s u) : Onward s (if c then t else u) :=
  ⟨Later.ite ht.later hu.later, RingStays.ite ht.rings hu.rings⟩

theorem refl (s : State) : Onward s s := ⟨Later.refl s, RingStays.refl s⟩
theorem soon (s : State) (e : Ev) : Onward s (s.soon e) := ⟨Later.soon s e, RingStays.soon s e⟩
theorem schedule (s : State) (t : Nat) (e : Ev) : Onward s (s.schedule t e) := ⟨Later.schedule s t e, RingStays.schedule s t e⟩
theorem send (s : State) (o : Out) : Onward s (s.send o) := ⟨Later.send s o, RingStays.send s o⟩
theorem setCluster (s : State) (c : Nat) (v : Cluster) : Onward s (s.setCluster c v) := ⟨Later.setCluster s c v, RingStays.setCluster s c v⟩
theorem setGang (s : State) (g : Nat) (v : Gang) : Onward s (s.setGang g v) := ⟨Later.setGang s g v, RingStays.of_jobs rfl rfl⟩
theorem writeArea (s : State) (j va : Nat) (ws : List Word) : Onward s (s.writeArea j va ws) := ⟨Later.writeArea s j va ws, RingStays.writeArea s j va ws⟩
theorem enqueue (s : State) (cl : Nat) (e : Entry) : Onward s (s.enqueue cl e) := ⟨Later.enqueue s cl e, RingStays.enqueue s cl e⟩
theorem startAbort (s : State) (j source detail : Nat) : Onward s (s.startAbort j source detail) :=
  ⟨Later.startAbort s j source detail, RingStays.startAbort s j source detail⟩
theorem postEvent (s : State) (kind job : Nat) (d1 d2 d3 : Word) : Onward s (s.postEvent kind job d1 d2 d3) :=
  ⟨Later.postEvent s kind job d1 d2 d3, RingStays.postEvent s kind job d1 d2 d3⟩

theorem poolAlloc {s t : State} {j n va : Nat} (h : s.poolAlloc j n = some (va, t)) : Onward s t := by
  obtain ⟨l, rfl⟩ := State.poolAlloc_eq h
  exact ⟨Later.setJob _ _ _, RingStays.setJob rfl rfl rfl fun _ => rfl⟩

theorem mapEntries (s : State) (f : Entry → Entry) : Onward s (s.mapEntries f) := ⟨Later.of_same rfl rfl rfl, RingStays.mapEntries s f⟩
theorem resourcesFreed (s : State) : Onward s s.resourcesFreed := ⟨Later.resourcesFreed s, RingStays.resourcesFreed s⟩

theorem endCut (s : State) (j lw : Nat) : Onward s (s.endCut j lw) := by
  refine trans ?_ (resourcesFreed _)
  refine trans ?_ (mapEntries _ _)
  exact ⟨Later.setJob _ _ _, RingStays.setJob rfl rfl rfl fun _ => rfl⟩

/-- A job's handler task is launched for no strand that waits. -/
theorem launchHandler (s : State) (core j : Nat) (rcd : List Word) : Onward s (s.launchHandler core j rcd none) := by
  unfold State.launchHandler
  dsimp only
  split
  · exact startAbort s j 1 _
  · split
    · exact schedule s _ _
    · next hp =>
      refine trans (poolAlloc hp) ?_
      refine trans ?_ (enqueue _ _ _)
      exact trans (writeArea _ _ _ _) (setCluster _ _ _)

theorem reportDeadlock (s : State) (j g : Nat) : Onward s (s.reportDeadlock j g) := by
  unfold State.reportDeadlock
  dsimp only
  split
  · exact refl s
  · next hp =>
    refine trans (poolAlloc hp) ?_
    refine trans ?_ (postEvent _ _ _ _ _ _)
    refine trans ?_ (launchHandler _ _ _ _)
    exact trans (writeArea _ _ _ _) (setGang _ _ _)

theorem deadlocks (s : State) (j : Nat) (quiet : Bool) : Onward s (s.deadlocks j quiet) := by
  unfold State.deadlocks
  exact trans (t := { s with gangs := s.gangs.map fun g => if g.2.job = j then (g.1, { g.2 with dlSeen := quiet && g.2.dlNow, dlNow := false }) else g })
    ⟨Later.of_same rfl rfl rfl, RingStays.of_jobs rfl rfl⟩ (foldl (fun u _ => reportDeadlock u _ _) _ _)

theorem publish (s : State) (j v : Nat) (n : Bool) : Onward s (s.publish j v n) := by
  unfold State.publish
  refine ite (trans ?_ (send _ _)) ?_
  all_goals exact foldl (fun u _ => soon u _) _ _

end Onward

/-- A new mark is on its way to every part of the module, and to the other modules. -/
theorem State.publish_sends (s : State) (j v : Nat) (n : Bool) :
    (∀ r ∈ (s.job j).ringParts, (s.now, Ev.lwMarkArrival j r v) ∈ (s.publish j v n).agenda) ∧
      ((∃ m ∈ (s.job j).group, m.1 ≠ (s.job j).self) → Out.lwMark j v n true ∈ (s.publish j v n).out) := by
  obtain ⟨a, hf, hdue, -⟩ := State.foldl_soon_due (fun p => Ev.lwMarkArrival j p v) (s.job j).ringParts s
  unfold State.publish
  dsimp only
  rw [hf]
  refine ⟨fun r hr => ?_, fun ⟨m, hm, hne⟩ => ?_⟩
  · split
    · exact hdue r hr
    · exact hdue r hr
  · rw [if_pos (List.any_eq_true.mpr ⟨m, hm, by simpa using hne⟩)]
    exact State.mem_out_send _ _

end Sys2Proof.Machine
end

section
/-! The token's visits, its passes and its marks at the parts of a module (18 R306 to R315). -/

namespace Sys2Proof.Claims

open Sys2Proof.Machine

section
variable {s : State} {j p v : Nat} {tok : Token}

/-! ## A visit (18 R309, R312) -/

theorem exec_lwTokenVisit (he : s.ev = some (.lwTokenVisit j p tok)) : exec .lwTokenVisit s =
    if (s.job j).isOpen = false ∨ (s.job j).abort ≠ .none ∨ (tok.start = true ∧ (s.job j).passing = true) then .next s
    else if p = 4096 then .next (((s.job j).nextModule.map fun m => s.send (.lwToken m j tok)).getD (s.passEnd j tok))
    else .next ((((s.enterPass j p tok).noteStuck j p).visit j p tok).2.schedule (s.now + visitTicks p)
      (.lwTokenVisit j ((nextIn (s.job j).ringParts p).getD 4096) (((s.enterPass j p tok).noteStuck j p).visit j p tok).1)) := by
  show execLwTokenVisit s = _
  unfold execLwTokenVisit
  split
  · next h =>
    cases he.symm.trans h
    dsimp only
    split
    · rfl
    · split
      · cases (s.job j).nextModule <;> rfl
      · rfl
  · next h => exact (h _ _ _ he).elim

/-- The job while the token is at a part of the module. -/
def passing (s : State) (j : Nat) (tok : Token) : Job := { s.job j with cut := true, passing := true, token := { n := tok.n } }

theorem enterPass_eq (hc : (s.job j).cut = false ∨ (s.job j).token.n = tok.n) (hf : (s.job j).ringParts.head? ≠ some p ∨ (s.job j).nextModule = none) :
    s.enterPass j p tok = s.setJob j (passing s j tok) := by
  have hcut : ¬ ((s.job j).cut && (s.job j).token.n != tok.n) = true := by
    obtain h | h := hc <;> simp [h]
  have hfirst : ¬ ((s.job j).ringParts.head? = some p ∧ (s.job j).nextModule.isSome = true) := by
    rintro ⟨h, hm⟩
    obtain h' | h' := hf
    · exact h' h
    · rw [h'] at hm
      exact Bool.false_ne_true hm
  unfold State.enterPass
  dsimp only
  rw [if_neg hcut, if_neg hfirst]
  rfl

/-- A home that arbitrates is found as before. -/
theorem arbPlace_here {t : State} (h : MappingKept s t j) (c : Nat) (w : List Word) (home : Nat) :
    (t.arbPlace c j w == ArbPlace.here home) = (s.arbPlace c j w == ArbPlace.here home) := by
  unfold State.arbPlace
  dsimp only
  obtain ht | ⟨ht, m, hm⟩ := h.translate c (if w.getD 5 0 = 0 then w.getD 7 0 else w.getD 5 0) .read
  · rw [ht]
  · rw [ht, hm]
    rfl

theorem filter_map_of_same {α β : Type} {f : α → α} {q : α → Bool} {g : α → β} (hq : ∀ x, q (f x) = q x) (hg : ∀ x, g (f x) = g x) (l : List α) :
    ((l.map f).filter q).map g = (l.filter q).map g := by
  induction l with
  | nil => rfl
  | cons x l ih =>
    rw [List.map_cons, List.filter_cons, List.filter_cons, hq]
    split
    · rw [List.map_cons, List.map_cons, hg, ih]
    · exact ih

/-- The part of a module that the token is at, once it has entered and the standing gangs are counted. -/
def entered (s : State) (j p : Nat) (tok : Token) : State := (s.setJob j (passing s j tok)).noteStuck j p

theorem job_entered (s : State) (j p : Nat) (tok : Token) : (entered s j p tok).job j = passing s j tok := State.job_setJob s j _

theorem mappingKept_entered (s : State) (j p : Nat) (tok : Token) : MappingKept s (entered s j p tok) j :=
  have hjob := job_entered s j p tok
  ⟨rfl, rfl, rfl, fun _ => rfl, fun _ => rfl, (congrArg Job.self hjob :), (congrArg Job.root hjob :), (congrArg Job.tenant hjob :), fun m hm => by
    rw [hjob] at hm
    exact hm⟩

/-- Nothing that a visit takes the minimum of is changed by the token's entry or by the count of standing gangs. -/
theorem localMin_entered (s : State) (j p : Nat) (tok : Token) : (entered s j p tok).localMin j p = s.localMin j p := by
  have hjob := job_entered s j p tok
  have harb := fun m : CommitMsg => arbPlace_here (mappingKept_entered s j p tok) (s.job j).anyCore [0, 0, 0, 0, 0, m.tile, 0, m.done] (p - 1024)
  have hlps : ((entered s j p tok).job j).lpsAt p = (s.job j).lpsAt p := by rw [hjob]; rfl
  have hshare : ((entered s j p tok).job j).shareCore (clusterOf p) = (s.job j).shareCore (clusterOf p) := by rw [hjob]; rfl
  have hany : ((entered s j p tok).job j).anyCore = (s.job j).anyCore := by rw [hjob]; rfl
  have hruns : ((entered s j p tok).gangs.filter fun g => g.2.job == j && g.2.cores.headD 0 == p).map (fun g => packetVt g.2.packet) =
      (s.gangs.filter fun g => g.2.job == j && g.2.cores.headD 0 == p).map fun g => packetVt g.2.packet := by
    refine filter_map_of_same (fun g => ?_) (fun g => ?_) s.gangs
    · split <;> rfl
    · split <;> rfl
  have hcommits : (entered s j p tok).commits.filter (fun m => m.job == j &&
        (entered s j p tok).arbPlace (s.job j).anyCore j [0, 0, 0, 0, 0, m.tile, 0, m.done] == .here (p - 1024)) =
      s.commits.filter fun m => m.job == j && s.arbPlace (s.job j).anyCore j [0, 0, 0, 0, 0, m.tile, 0, m.done] == .here (p - 1024) :=
    List.filter_congr fun m _ => by rw [harb]
  unfold State.localMin
  dsimp only
  rw [hlps, hshare, hany, hruns, hcommits]
  rfl

/-- The part as the token takes it to a colour: the counts of that colour begin anew where it had the other (18 R309). -/
def coloured (q : Part) (n : Bool) : Part :=
  if q.red = n then q
  else if n then { q with red := true, sentR := 0, recvR := 0, redmin := 2 ^ 64 - 1 }
  else { q with red := false, sentW := 0, recvW := 0, redmin := 2 ^ 64 - 1 }

theorem coloured_counts (q : Part) (n : Bool) : (coloured q n).red = n ∧ (coloured q n).lw = q.lw ∧ (coloured q n).mark = q.mark ∧
    (coloured q n).redmin = (if q.red = n then q.redmin else 2 ^ 64 - 1) ∧
    (if n then ((coloured q n).sentW : Int) - (coloured q n).recvW else ((coloured q n).sentR : Int) - (coloured q n).recvR) =
      if n then (q.sentW : Int) - q.recvW else (q.sentR : Int) - q.recvR := by
  unfold coloured
  by_cases h : q.red = n
  · rw [if_pos h, if_pos h]
    exact ⟨h, rfl, rfl, rfl, rfl⟩
  · rw [if_neg h, if_neg h]
    cases n <;> exact ⟨rfl, rfl, rfl, rfl, rfl⟩

theorem visit_eq (u : State) (j p : Nat) (tok : Token) : u.visit j p tok =
    ({ n := tok.n, c := tok.c + (if tok.n then ((coloured ((u.job j).part p) tok.n).sentW : Int) - (coloured ((u.job j).part p) tok.n).recvW
          else ((coloured ((u.job j).part p) tok.n).sentR : Int) - (coloured ((u.job j).part p) tok.n).recvR),
       m := min tok.m (min (u.localMin j p) (coloured ((u.job j).part p) tok.n).redmin), mark := tok.mark || (coloured ((u.job j).part p) tok.n).mark, quiet := tok.quiet },
     u.setPart j p { coloured ((u.job j).part p) tok.n with mark := false }) := rfl

/-- A visit takes the part's counts and minimum into the token, and the part's colour is the token's. -/
theorem visit_carries (he : s.ev = some (.lwTokenVisit j p tok)) (ho : (s.job j).isOpen = true) (ha : (s.job j).abort = .none)
    (hst : tok.start = false ∨ (s.job j).passing = false) (hp : p ≠ 4096) (hc : (s.job j).cut = false ∨ (s.job j).token.n = tok.n)
    (hf : (s.job j).ringParts.head? ≠ some p ∨ (s.job j).nextModule = none) :
    ∃ t, exec .lwTokenVisit s = .next t ∧ (s.now + visitTicks p, Ev.lwTokenVisit j ((nextIn (s.job j).ringParts p).getD 4096)
        { n := tok.n, c := tok.c + (if tok.n then (((s.job j).part p).sentW : Int) - ((s.job j).part p).recvW else (((s.job j).part p).sentR : Int) - ((s.job j).part p).recvR),
          m := min tok.m (min (s.localMin j p) (if ((s.job j).part p).red = tok.n then ((s.job j).part p).redmin else 2 ^ 64 - 1)),
          mark := tok.mark || ((s.job j).part p).mark, quiet := tok.quiet }) ∈ t.agenda ∧
      ((t.job j).part p).red = tok.n ∧ ((t.job j).part p).lw = ((s.job j).part p).lw ∧ t.slots = s.slots ∧ t.mem = s.mem := by
  have hgo : ¬ ((s.job j).isOpen = false ∨ (s.job j).abort ≠ .none ∨ (tok.start = true ∧ (s.job j).passing = true)) := by
    rintro (h | h | ⟨h, h'⟩)
    · exact nomatch h.symm.trans ho
    · exact h ha
    · obtain hst | hst := hst
      · exact nomatch h.symm.trans hst
      · exact nomatch h'.symm.trans hst
  have hpart : ((entered s j p tok).job j).part p = (s.job j).part p := by rw [job_entered]; rfl
  obtain ⟨hred, hlw, hmark, hmin, hcount⟩ := coloured_counts ((s.job j).part p) tok.n
  have hx := exec_lwTokenVisit he
  rw [if_neg hgo, if_neg hp, enterPass_eq hc hf, visit_eq] at hx
  change exec .lwTokenVisit s = .next (((entered s j p tok).setPart j p { coloured (((entered s j p tok).job j).part p) tok.n with mark := false }).schedule (s.now + visitTicks p)
    (.lwTokenVisit j ((nextIn (s.job j).ringParts p).getD 4096)
      { n := tok.n, c := tok.c + (if tok.n then ((coloured (((entered s j p tok).job j).part p) tok.n).sentW : Int) - (coloured (((entered s j p tok).job j).part p) tok.n).recvW
          else ((coloured (((entered s j p tok).job j).part p) tok.n).sentR : Int) - (coloured (((entered s j p tok).job j).part p) tok.n).recvR),
        m := min tok.m (min ((entered s j p tok).localMin j p) (coloured (((entered s j p tok).job j).part p) tok.n).redmin),
        mark := tok.mark || (coloured (((entered s j p tok).job j).part p) tok.n).mark, quiet := tok.quiet })) at hx
  rw [hpart, localMin_entered, hcount, hmin, hmark] at hx
  have hnew : (((entered s j p tok).setPart j p { coloured ((s.job j).part p) tok.n with mark := false }).job j).part p =
      { coloured ((s.job j).part p) tok.n with mark := false } := by
    unfold State.setPart
    rw [State.job_setJob]
    exact tget_tset_same _ _ _ _
  refine ⟨_, hx, State.due_schedule _ _ _, ?_, ?_, rfl, rfl⟩
  · exact (congrArg Part.red hnew :).trans hred
  · exact (congrArg Part.lw hnew :).trans hlw

/-! ## The end of a pass (18 R309, R310, R315) -/

/-- The next pass begins after LWGAP. -/
def passAgain (s : State) (j : Nat) (tok : Token) (n : Bool) (u : State) : State :=
  (u.setJob j { u.job j with token := { n := n, quiet := tok.c == 0 && !tok.mark } }).schedule (u.now + (s.job j).lwgap * usTicks) (.lwgapExpiry j)

theorem passEnd_publishes (ha : (s.job j).abort = .none) (hc : tok.c = 0) (hm : tok.m < 2 ^ 64 - 1) : s.passEnd j tok =
    passAgain s j tok (!tok.n) ((((s.deadlocks j (tok.c == 0 && !tok.mark)).publish j (max (s.job j).lwMax tok.m) tok.n).endCut j (max (s.job j).lwMax tok.m))) := by
  unfold State.passEnd
  dsimp only
  rw [if_neg (not_not_intro ha), if_neg (not_not_intro hc), if_pos hm]
  rfl

theorem passEnd_terminates (ha : (s.job j).abort = .none) (hc : tok.c = 0) (hm : 2 ^ 64 - 1 ≤ tok.m) (hopt : (s.job j).opt = true) (hq : tok.mark = false) :
    ∃ u, u = ((s.deadlocks j (tok.c == 0 && !tok.mark)).publish j (2 ^ 64 - 1) tok.n).endCut j (2 ^ 64 - 1) ∧
      s.passEnd j tok = (u.setJob j { u.job j with terminated := true }).postEvent 1 j 0 0 0 := by
  have hend : ((s.job j).opt && !tok.mark) = true := by rw [hopt, hq]; rfl
  refine ⟨_, rfl, ?_⟩
  unfold State.passEnd
  dsimp only
  rw [if_neg (not_not_intro ha), if_neg (not_not_intro hc), if_neg (Nat.not_lt.mpr hm), if_pos hend]

/-- A mark that a pass publishes is on its way once the pass has been judged for deadlocks. -/
theorem published (hq : Bool) (v : Nat) (n : Bool) {t : State} (ht : Later (((s.deadlocks j hq).publish j v n).endCut j v) t) :
    (∀ r ∈ (s.job j).ringParts, (s.now, Ev.lwMarkArrival j r v) ∈ t.agenda) ∧
      ((∃ m ∈ (s.job j).group, m.1 ≠ (s.job j).self) → Out.lwMark j v n true ∈ t.out) := by
  obtain ⟨hlater, hrings⟩ := Onward.deadlocks s j hq
  obtain ⟨hparts, hothers⟩ := (s.deadlocks j hq).publish_sends j v n
  rw [hrings.ringParts, hlater.now] at hparts
  rw [hrings.group, hrings.self] at hothers
  have hcut := (Onward.endCut ((s.deadlocks j hq).publish j v n) j v).later.trans ht
  exact ⟨fun r hr => hcut.agenda _ (hparts r hr), fun h => hcut.out _ (hothers h)⟩

section
variable (he : s.ev = some (.lwTokenVisit j 4096 tok)) (ho : (s.job j).isOpen = true) (ha : (s.job j).abort = .none)
  (hst : tok.start = false ∨ (s.job j).passing = false) (hn : (s.job j).nextModule = none) (hc : tok.c = 0)
include he ho ha hst

theorem exec_lwTokenVisit_last : exec .lwTokenVisit s = .next (((s.job j).nextModule.map fun m => s.send (.lwToken m j tok)).getD (s.passEnd j tok)) := by
  have hgo : ¬ ((s.job j).isOpen = false ∨ (s.job j).abort ≠ .none ∨ (tok.start = true ∧ (s.job j).passing = true)) := by
    rintro (h | h | ⟨h, h'⟩)
    · exact nomatch h.symm.trans ho
    · exact h ha
    · obtain hst | hst := hst
      · exact nomatch h.symm.trans hst
      · exact nomatch h'.symm.trans hst
  rw [exec_lwTokenVisit he, if_neg hgo, if_pos rfl]

include hn hc

/-- A pass that has ended with every message received publishes its lw, and the next begins LWGAP after. -/
theorem pass_publishes (hm : tok.m < 2 ^ 64 - 1) : ∃ t, exec .lwTokenVisit s = .next t ∧
    (∀ r ∈ (s.job j).ringParts, (s.now, Ev.lwMarkArrival j r (max (s.job j).lwMax tok.m)) ∈ t.agenda) ∧
    ((∃ m ∈ (s.job j).group, m.1 ≠ (s.job j).self) → Out.lwMark j (max (s.job j).lwMax tok.m) tok.n true ∈ t.out) ∧
    (s.now + (s.job j).lwgap * usTicks, Ev.lwgapExpiry j) ∈ t.agenda := by
  have hx := exec_lwTokenVisit_last he ho ha hst
  rw [hn, passEnd_publishes ha hc hm] at hx
  have hnow := ((Onward.deadlocks s j (tok.c == 0 && !tok.mark)).trans
    ((Onward.publish _ j (max (s.job j).lwMax tok.m) tok.n).trans (Onward.endCut _ j (max (s.job j).lwMax tok.m)))).later.now
  have hsend := published (s := s) (j := j) (tok.c == 0 && !tok.mark) (max (s.job j).lwMax tok.m) tok.n
    (t := passAgain s j tok (!tok.n) (((s.deadlocks j (tok.c == 0 && !tok.mark)).publish j (max (s.job j).lwMax tok.m) tok.n).endCut j (max (s.job j).lwMax tok.m)))
    ((Later.setJob _ _ _).trans (Later.schedule _ _ _))
  refine ⟨_, hx, hsend.1, hsend.2, ?_⟩
  rw [← hnow]
  exact State.due_schedule _ _ _

/-- A pass that finds nothing left of an OPT job ends it. -/
theorem pass_terminates (hm : 2 ^ 64 - 1 ≤ tok.m) (hopt : (s.job j).opt = true) (hq : tok.mark = false) : ∃ t, exec .lwTokenVisit s = .next t ∧
    (t.job j).terminated = true ∧ (∀ r ∈ (s.job j).ringParts, (s.now, Ev.lwMarkArrival j r (2 ^ 64 - 1)) ∈ t.agenda) ∧
    ((∃ m ∈ (s.job j).group, m.1 ≠ (s.job j).self) → Out.lwMark j (2 ^ 64 - 1) tok.n true ∈ t.out) := by
  have hx := exec_lwTokenVisit_last he ho ha hst
  obtain ⟨u, hu, hp⟩ := passEnd_terminates ha hc hm hopt hq
  rw [hn, hp, Option.map_none, Option.getD_none] at hx
  have hlater : Later u ((u.setJob j { u.job j with terminated := true }).postEvent 1 j 0 0 0) := (Later.setJob _ _ _).trans (Later.postEvent _ _ _ _ _ _)
  rw [hu] at hlater
  obtain ⟨hparts, hothers⟩ := published (s := s) (j := j) (tok.c == 0 && !tok.mark) (2 ^ 64 - 1) tok.n hlater
  rw [← hu] at hparts hothers
  refine ⟨_, hx, ?_, hparts, hothers⟩
  rw [State.job_postEvent, State.job_setJob]

end

/-! ## The next pass (18 R306, R312) -/

theorem exec_lwgapExpiry (he : s.ev = some (.lwgapExpiry j)) : exec .lwgapExpiry s = .next (
    if (s.job j).isOpen = false ∨ (s.job j).terminated ∨ (s.job j).abort ≠ .none ∨ s.ready.getLsbD 38 = false then s
    else if (s.job j).firstModule = (s.job j).self then s.soon (.lwTokenVisit j ((s.job j).ringParts.headD 1024) (s.job j).token)
    else s.send (.lwToken (s.job j).firstModule j (s.job j).token)) := by
  show execLwgapExpiry s = _
  unfold execLwgapExpiry
  split
  · next h =>
    cases he.symm.trans h
    dsimp only
    split
    · rfl
    · split <;> rfl
  · next h => exact (h _ he).elim

/-! ## A mark at a part (18 R310, R311) -/

theorem exec_lwMarkArrival (he : s.ev = some (.lwMarkArrival j p v)) (ho : (s.job j).isOpen = true) : exec .lwMarkArrival s = .next (
    if 4096 ≤ p then (if (s.job j).cut && (s.job j).token.n == (p == 4097) then s.endCut j (max v (s.job j).lwMax) else s)
    else if ((s.job j).part p).frozen ∨ v < ((s.job j).part p).lw then s
    else
      let s1 := s.setPart j p { (s.job j).part p with lw := v }
      let s2 := if v = 2 ^ 64 - 1 ∧ (s.job j).opt then s1.setJob j { s1.job j with terminated := true } else s1
      if p < 1024 then
        ((((((s.job j).lpsAt p).map (·.1)).foldl (fun (u : State) n => (u.fossil j n v).soon (.inboxDispatch j n)) ((s2.wakeLow j p v).expireFwd p)).drainReleases.retryCommits).poke (clusterOf p))
      else s2.performHeld j (p - 1024)) := by
  show execLwMarkArrival s = _
  unfold execLwMarkArrival
  split
  · next h =>
    cases he.symm.trans h
    dsimp only
    rw [if_neg (by rw [ho]; exact Bool.noConfusion)]
    split
    · rfl
    · split
      · rfl
      · split <;> rfl
  · next h => exact (h _ _ _ he).elim

/-- A strand of the job that waits for a lw that has come goes on. -/
def wakeSlot (j c lw : Nat) (u : State) (i : Nat) : State :=
  match (u.slot (c * 16 + i)).wait with
  | .low x => if (u.gang (u.slot (c * 16 + i)).gang).job = j ∧ x ≤ lw then u.complete (c * 16 + i) 4 else u
  | _ => u

theorem wakeSlot_leaves (j c lw : Nat) (u : State) (i : Nat) : (wakeSlot j c lw u i).jobs = u.jobs ∧ (wakeSlot j c lw u i).gangs = u.gangs ∧
    ∀ k, k ≠ c * 16 + i → (wakeSlot j c lw u i).slot k = u.slot k := by
  have hcomplete : ∀ k, k ≠ c * 16 + i → (u.complete (c * 16 + i) 4).slot k = u.slot k := fun k hk => u.slot_setSlot_other _ hk
  unfold wakeSlot
  split
  · split
    · exact ⟨rfl, rfl, hcomplete⟩
    · exact ⟨rfl, rfl, fun _ _ => rfl⟩
  · exact ⟨rfl, rfl, fun _ _ => rfl⟩

theorem foldl_wakeSlot_leaves (j c lw : Nat) (l : List Nat) : ∀ u : State, (l.foldl (wakeSlot j c lw) u).jobs = u.jobs ∧ (l.foldl (wakeSlot j c lw) u).gangs = u.gangs ∧
    ∀ k, (∀ i ∈ l, k ≠ c * 16 + i) → (l.foldl (wakeSlot j c lw) u).slot k = u.slot k := by
  induction l with
  | nil => exact fun u => ⟨rfl, rfl, fun _ _ => rfl⟩
  | cons i l ih =>
    intro u
    obtain ⟨hjobs, hgangs, hslot⟩ := wakeSlot_leaves j c lw u i
    obtain ⟨hjobs', hgangs', hslot'⟩ := ih (wakeSlot j c lw u i)
    exact ⟨hjobs'.trans hjobs, hgangs'.trans hgangs, fun k hk =>
      (hslot' k fun i' hi' => hk i' (List.mem_cons_of_mem _ hi')).trans (hslot k (hk i List.mem_cons_self))⟩

/-- Of the slots of a core, each is looked at once. -/
theorem foldl_wakeSlot_wakes {c lw i x : Nat} (l : List Nat) (hl : l.Nodup) (hi : i ∈ l) : ∀ u : State, (u.slot (c * 16 + i)).wait = .low x →
    (u.gang (u.slot (c * 16 + i)).gang).job = j → x ≤ lw → ((l.foldl (wakeSlot j c lw) u).slot (c * 16 + i)).wait = .none ∧
      ((l.foldl (wakeSlot j c lw) u).slot (c * 16 + i)).pc = (u.slot (c * 16 + i)).pc + 4 := by
  induction l with
  | nil => exact (List.not_mem_nil hi).elim
  | cons k l ih =>
    intro u hw hg hx
    obtain ⟨hk, hl⟩ := List.nodup_cons.mp hl
    obtain ⟨-, hgangs, hslot⟩ := wakeSlot_leaves j c lw u k
    obtain rfl | hi := List.mem_cons.mp hi
    · have hlater := (foldl_wakeSlot_leaves j c lw l (wakeSlot j c lw u i)).2.2 (c * 16 + i) fun i' hi' h =>
        hk ((Nat.add_left_cancel h) ▸ hi')
      have hwake : wakeSlot j c lw u i = u.complete (c * 16 + i) 4 := by
        unfold wakeSlot
        rw [hw]
        exact if_pos ⟨hg, hx⟩
      rw [List.foldl_cons, hlater, hwake, State.complete, State.slot_setSlot]
      exact ⟨rfl, rfl⟩
    · have hne : c * 16 + i ≠ c * 16 + k := fun h => hk ((Nat.add_left_cancel h) ▸ hi)
      have hsame := hslot _ hne
      have hgang : (wakeSlot j c lw u k).gang ((wakeSlot j c lw u k).slot (c * 16 + i)).gang = u.gang (u.slot (c * 16 + i)).gang := by
        rw [hsame, State.gang, hgangs]
        rfl
      have hrest := ih hl hi (wakeSlot j c lw u k) (by rw [hsame]; exact hw) (by rw [hgang]; exact hg) hx
      rw [hsame] at hrest
      exact hrest

/-- The lw of a core lets its job's waiting strands go on, and falls at none of its parts. -/
theorem wakeLow_wakes (u : State) (j c lw : Nat) : (∀ p, (((u.wakeLow j c lw).job j).part p).lw = ((u.job j).part p).lw) ∧
    ∀ i x, i < 16 → (u.slot (c * 16 + i)).wait = .low x → (u.gang (u.slot (c * 16 + i)).gang).job = j → x ≤ lw →
      ((u.wakeLow j c lw).slot (c * 16 + i)).wait = .none ∧ ((u.wakeLow j c lw).slot (c * 16 + i)).pc = (u.slot (c * 16 + i)).pc + 4 := by
  obtain ⟨hjobs, -, -⟩ := foldl_wakeSlot_leaves j c lw (List.range 16) u
  have hwakes := fun i x hi hw hg hx => foldl_wakeSlot_wakes (j := j) (c := c) (lw := lw) (i := i) (x := x) (List.range 16) List.nodup_range (List.mem_range.mpr hi) u hw hg hx
  have hx : u.wakeLow j c lw = (((List.range 16).foldl (wakeSlot j c lw) u).records.filter fun r => r.2.job == j && r.2.core == c &&
      (r.2.cont.map fun v => v.resume.1 == 4 && decide (v.resume.2.toNat ≤ lw)).getD false).foldl (fun (u : State) r => u.resumeRecord r.1)
      ((List.range 16).foldl (wakeSlot j c lw) u) := rfl
  rw [hx]
  generalize (List.range 16).foldl (wakeSlot j c lw) u = w at *
  have hrest := RingStays.foldl (f := fun (u : State) (r : Nat × Entry) => u.resumeRecord r.1) (fun u r => RingStays.resumeRecord u r.1)
    (w.records.filter fun r => r.2.job == j && r.2.core == c && (r.2.cont.map fun v => v.resume.1 == 4 && decide (v.resume.2.toNat ≤ lw)).getD false) w
  refine ⟨fun p => (hrest.lw j p).trans ?_, fun i x hi hw hg hx => ?_⟩
  · rw [State.job, hjobs]
    rfl
  · rw [State.slot, hrest.slots]
    exact hwakes i x hi hw hg hx

/-- A mark that reaches a part raises its lw. -/
theorem mark_raises (he : s.ev = some (.lwMarkArrival j p v)) (ho : (s.job j).isOpen = true) (hp : p < 4096) (hf : ((s.job j).part p).frozen = false)
    (hv : ((s.job j).part p).lw ≤ v) : ∃ t, exec .lwMarkArrival s = .next t ∧ ((t.job j).part p).lw = v ∧
      ∀ i x, p < 1024 → i < 16 → (s.slot (p * 16 + i)).wait = .low x → (s.gang (s.slot (p * 16 + i)).gang).job = j → x ≤ v →
        (t.slot (p * 16 + i)).wait = .none ∧ (t.slot (p * 16 + i)).pc = (s.slot (p * 16 + i)).pc + 4 := by
  have hgo : ¬ (((s.job j).part p).frozen = true ∨ v < ((s.job j).part p).lw) := by
    rintro (h | h)
    · exact nomatch h.symm.trans hf
    · exact Nat.not_lt.mpr hv h
  have hx := exec_lwMarkArrival he ho
  rw [if_neg (Nat.not_le.mpr hp), if_neg hgo] at hx
  dsimp only at hx
  have hset : (((s.setPart j p { (s.job j).part p with lw := v }).job j).part p).lw = v := by
    unfold State.setPart
    rw [State.job_setJob]
    exact (congrArg Part.lw (tget_tset_same (s.job j).parts p _ {}) :)
  have hs2 : ∃ u, (if v = 2 ^ 64 - 1 ∧ (s.job j).opt then
      (s.setPart j p { (s.job j).part p with lw := v }).setJob j { (s.setPart j p { (s.job j).part p with lw := v }).job j with terminated := true }
      else s.setPart j p { (s.job j).part p with lw := v }) = u ∧ ((u.job j).part p).lw = v ∧ u.slots = s.slots ∧ u.gangs = s.gangs := by
    refine ⟨_, rfl, ?_⟩
    split
    · refine ⟨?_, rfl, rfl⟩
      rw [State.job_setJob]
      exact hset
    · exact ⟨hset, rfl, rfl⟩
  obtain ⟨u, hu, hlw, hslots, hgangs⟩ := hs2
  rw [hu] at hx
  by_cases hcore : p < 1024
  · rw [if_pos hcore] at hx
    obtain ⟨hw, hwakes⟩ := wakeLow_wakes u j p v
    generalize u.wakeLow j p v = w at *
    have hfwd : RingStays w (w.expireFwd p) := RingStays.of_jobs rfl rfl
    have hfold := RingStays.foldl (f := fun (u : State) n => (u.fossil j n v).soon (.inboxDispatch j n)) (fun u n => (RingStays.fossil u j n v).trans (RingStays.soon _ _))
      (((s.job j).lpsAt p).map (·.1)) (w.expireFwd p)
    have hrest := (hfwd.trans hfold).trans (((RingStays.drainReleases _).trans (RingStays.retryCommits _)).trans (RingStays.poke _ (clusterOf p)))
    refine ⟨_, hx, (hrest.lw j p).trans ((hw p).trans hlw), fun i x _ hi hwait hg hx' => ?_⟩
    have hslot : ∀ k, u.slot k = s.slot k := fun k => by rw [State.slot, hslots]; rfl
    have hgang : ∀ g, u.gang g = s.gang g := fun g => by rw [State.gang, hgangs]; rfl
    have hdone := hwakes i x hi (by rw [hslot]; exact hwait) (by rw [hslot, hgang]; exact hg) hx'
    rw [hslot] at hdone
    rw [State.slot, hrest.slots]
    exact hdone
  · rw [if_neg hcore] at hx
    exact ⟨_, hx, ((RingStays.performHeld u j (p - 1024)).lw j p).trans hlw, fun _ _ h => absurd h hcore⟩

end

end Sys2Proof.Claims

open Sys2Proof Sys2Proof.Machine Sys2Proof.Claims

/-- Settles O45. -/
theorem lowWaterPasses : Obligations.LowWaterPasses := by
  intro s j p tok
  refine ⟨fun he => ⟨fun h => ?_, fun ⟨ho, ha, hst⟩ hp hc hf => visit_carries he ho ha hst hp hc hf, fun r ⟨ho, ha, hst⟩ hp hn => ?_,
    fun ⟨ho, ha, hst⟩ hp hn hc => ?_⟩, fun he ho ht ha hr => ⟨fun hf => ?_, fun hf => ?_⟩, fun v he ho => ⟨fun hp hcut hn => ?_, fun hp hf => ?_, fun hp hf hv => mark_raises he ho hp hf hv⟩⟩
  · rw [exec_lwTokenVisit he, if_pos h]
  · subst hp
    rw [exec_lwTokenVisit_last he ho ha hst, hn]
    rfl
  · subst hp
    exact ⟨fun hm => pass_publishes he ho ha hst hn hc hm, fun hm hopt hq => pass_terminates he ho ha hst hn hc hm hopt hq⟩
  · rw [exec_lwgapExpiry he]
    simp [ho, ht, ha, hr, hf]
  · rw [exec_lwgapExpiry he]
    simp [ho, ht, ha, hr, hf]
  · rw [exec_lwMarkArrival he ho]
    simp [hp, hcut, hn]
  · rw [exec_lwMarkArrival he ho, if_neg (Nat.not_le.mpr hp), if_pos hf]
end

section
/-! What the end of a gang keeps (15 R274, R275): the host's mailbox, the entries of copies that have moved away, and, but for those that leave, the
queues. -/

namespace Sys2Proof.Machine

/-- The host's mailbox and the copies that have moved away are as before, and no queue has a new entry. -/
structure EndKeeps (s t : State) : Prop where
  mailbox : t.mailbox = s.mailbox
  away : t.awayTasks = s.awayTasks
  entries : ∀ c ∈ t.clusters, ∀ e ∈ c.2.entries, ∃ d ∈ s.clusters, e ∈ d.2.entries

theorem mem_tset {α : Type} {t : Table α} {k : Nat} {v : α} {x : Nat × α} (h : x ∈ tset t k v) : x ∈ t ∨ x = (k, v) := by
  induction t with
  | nil => exact .inr (List.mem_singleton.mp h)
  | cons e r ih =>
    obtain ⟨i, w⟩ := e
    rw [tset] at h
    split at h
    · obtain h | h := List.mem_cons.mp h
      · exact .inr h
      · exact .inl (List.mem_cons_of_mem _ h)
    · obtain h | h := List.mem_cons.mp h
      · exact .inl (h ▸ List.mem_cons_self)
      · exact (ih h).imp (List.mem_cons_of_mem _) id

/-- An entry of a cluster stands in the table of clusters. -/
theorem State.entries_cluster {s : State} {cl : Nat} {e : Entry} (h : e ∈ (s.cluster cl).entries) : ∃ d ∈ s.clusters, e ∈ d.2.entries := by
  unfold State.cluster at h
  generalize s.clusters = t at *
  induction t with
  | nil => exact (List.not_mem_nil h).elim
  | cons d r ih =>
    obtain ⟨i, w⟩ := d
    rw [tget] at h
    split at h
    · exact ⟨_, List.mem_cons_self, h⟩
    · obtain ⟨d, hd, he⟩ := ih h
      exact ⟨d, List.mem_cons_of_mem _ hd, he⟩

namespace EndKeeps

theorem of_same {s t : State} (hm : t.mailbox = s.mailbox) (ha : t.awayTasks = s.awayTasks) (hc : t.clusters = s.clusters) : EndKeeps s t :=
  ⟨hm, ha, fun c h _ he => ⟨c, hc ▸ h, he⟩⟩

theorem refl (s : State) : EndKeeps s s := of_same rfl rfl rfl

theorem trans {s t u : State} (h : EndKeeps s t) (h' : EndKeeps t u) : EndKeeps s u :=
  ⟨h'.mailbox.trans h.mailbox, h'.away.trans h.away, fun c hc e he => by
    obtain ⟨d, hd, hed⟩ := h'.entries c hc e he
    exact h.entries d hd e hed⟩

/-- The same from a state in which only what the host and the queues do not see was set. -/
theorem after {s u t : State} (h : EndKeeps u t) (hm : u.mailbox = s.mailbox) (ha : u.awayTasks = s.awayTasks) (hc : u.clusters = s.clusters) :
    EndKeeps s t := (of_same hm ha hc).trans h

theorem foldl {α : Type} {f : State → α → State} (h : ∀ u x, EndKeeps u (f u x)) (l : List α) (s : State) : EndKeeps s (l.foldl f s) := by
  induction l generalizing s with
  | nil => exact refl s
  | cons x l ih => exact (h s x).trans (ih _)

theorem ite {s t u : State} {c : Prop} [Decidable c] (ht : EndKeeps s t) (hu : EndKeeps s u) : EndKeeps s (if c then t else u) := by
  split
  · exact ht
  · exact hu

/-- A cluster takes a value with no new entry. -/
theorem setCluster {s : State} {cl : Nat} {v : Cluster} (h : ∀ e ∈ v.entries, e ∈ (s.cluster cl).entries) : EndKeeps s (s.setCluster cl v) :=
  ⟨rfl, rfl, fun c hc e he => by
    obtain hc | rfl := mem_tset hc
    · exact ⟨c, hc, he⟩
    · exact State.entries_cluster (h e he)⟩

/-- Every cluster loses entries, or none. -/
theorem mapClusters {s t : State} {f : Nat × Cluster → Nat × Cluster} (hc : t.clusters = s.clusters.map f) (hf : ∀ c, ∀ e ∈ (f c).2.entries, e ∈ c.2.entries)
    (hm : t.mailbox = s.mailbox) (ha : t.awayTasks = s.awayTasks) : EndKeeps s t :=
  ⟨hm, ha, fun c h e he => by
    rw [hc] at h
    obtain ⟨d, hd, rfl⟩ := List.mem_map.mp h
    exact ⟨d, hd, hf d e he⟩⟩

/-! ## Steps in the agenda, packets and memory -/

theorem soon (s : State) (e : Ev) : EndKeeps s (s.soon e) := of_same rfl rfl rfl
theorem schedule (s : State) (t : Nat) (e : Ev) : EndKeeps s (s.schedule t e) := of_same rfl rfl rfl
theorem scheduleOnce (s : State) (t : Nat) (e : Ev) : EndKeeps s (s.scheduleOnce t e) := ite (refl s) (schedule s t e)
theorem send (s : State) (o : Out) : EndKeeps s (s.send o) := of_same rfl rfl rfl
theorem setJob (s : State) (j : Nat) (v : Job) : EndKeeps s (s.setJob j v) := of_same rfl rfl rfl
theorem setPart (s : State) (j p : Nat) (v : Part) : EndKeeps s (s.setPart j p v) := of_same rfl rfl rfl
theorem setGang (s : State) (g : Nat) (v : Gang) : EndKeeps s (s.setGang g v) := of_same rfl rfl rfl
theorem setSlot (s : State) (id : Nat) (v : Slot) : EndKeeps s (s.setSlot id v) := of_same rfl rfl rfl
theorem setCore (s : State) (c : Nat) (v : Core) : EndKeeps s (s.setCore c v) := of_same rfl rfl rfl
theorem setPair (s : State) (p : Nat) (v : Pair) : EndKeeps s (s.setPair p v) := of_same rfl rfl rfl
theorem poolFree (s : State) (j va : Nat) : EndKeeps s (s.poolFree j va) := of_same rfl rfl rfl

theorem of_sent {s t : State} (h : SentOnly s t) : EndKeeps s t := by
  unfold SentOnly at h
  exact of_same (by rw [h]) (by rw [h]) (by rw [h])

theorem of_wrote {s t : State} (h : WroteOnly s t) : EndKeeps s t := by
  unfold WroteOnly at h
  exact of_same (by rw [h]) (by rw [h]) (by rw [h])

theorem carry (s : State) (j src dst flits : Nat) (e : Ev) : EndKeeps s (s.carry j src dst flits e) := of_sent (s.carry_sentOnly j src dst flits e)
theorem unitWrite (s : State) (pa : Nat) (ws : List Word) : EndKeeps s (s.unitWrite pa ws) := of_wrote (s.unitWrite_wroteOnly pa ws)

theorem writeArea (s : State) (j va : Nat) (ws : List Word) : EndKeeps s (s.writeArea j va ws) := by
  unfold State.writeArea
  split
  · exact unitWrite s _ ws
  · exact refl s

theorem poke (s : State) (cl : Nat) : EndKeeps s (s.poke cl) := ite (refl s) (soon s _)

theorem resourcesFreed (s : State) : EndKeeps s s.resourcesFreed :=
  foldl (f := fun u (c : Nat × Cluster) => u.poke c.1) (fun u c => poke u c.1) s.clusters s

theorem retryCommits (s : State) : EndKeeps s s.retryCommits := foldl (fun u _ => scheduleOnce u _ _) _ s
theorem retryReaders (s : State) (l : List Nat) : EndKeeps s (s.retryReaders l) := foldl (fun u _ => scheduleOnce u _ _) _ s

theorem stampWrite (s : State) (j : Nat) (ws : List Word) : EndKeeps s (s.stampWrite j ws) := by
  unfold State.stampWrite
  exact ite (setJob s _ _) ((writeArea s _ _ _).trans (setJob _ _ _))

theorem trace (s : State) (j : Nat) (ws : List Word) : EndKeeps s (s.trace j ws) := by
  unfold State.trace
  refine ite (refl s) ?_
  split
  · exact (unitWrite s _ ws).trans (setJob _ _ _)
  · exact setJob s _ _

theorem confirmCopy (s : State) (flags : BitVec 5) (core j : Nat) (p : List Word) (task copy : Nat) :
    EndKeeps s (s.confirmCopy flags core j p task copy) := by
  unfold State.confirmCopy
  split
  · exact refl s
  · split
    · exact send s _
    · exact carry s _ _ _ _ _
    · exact soon s _

theorem confirmEnd (s : State) (q : Gang) : EndKeeps s (s.confirmEnd q) := confirmCopy s _ _ _ _ _ _

theorem startAbort (s : State) (j source detail : Nat) : EndKeeps s (s.startAbort j source detail) := by
  unfold State.startAbort
  exact ite (refl s) (ite ((setJob s _ _).trans (soon _ _)) ((setJob s _ _).trans (send _ _)))

/-! ## The slots of a gang (03 R72) -/

theorem dropLate (s : State) (id : Nat) : EndKeeps s (s.dropLate id) := of_same rfl rfl rfl

theorem leaveWaits (s : State) (id : Nat) : EndKeeps s (s.leaveWaits id) := by
  unfold State.leaveWaits
  exact ite (of_same rfl rfl rfl) (of_same rfl rfl rfl)

theorem clearSlot (s : State) (id : Nat) : EndKeeps s (s.clearSlot id) := by
  unfold State.clearSlot
  refine trans ?_ (setSlot _ _ _)
  refine trans ?_ (foldl (fun u a => ite (refl u) (poolFree u _ a)) _ _)
  refine trans ?_ (leaveWaits _ _)
  exact trans (t := s.settleBuckets) (of_same rfl rfl rfl) (dropLate _ _)

theorem restoreParent (s : State) (id child : Nat) : EndKeeps s (s.restoreParent id child) := by
  unfold State.restoreParent
  refine ((dropLate s id).trans (leaveWaits _ id)).trans ?_
  generalize (s.dropLate id).leaveWaits id = u
  dsimp only
  split
  · exact refl u
  · refine trans ?_ (poolFree _ _ _)
    exact ite (setSlot u _ _) ((setSlot u _ _).trans (poolFree _ _ _))

theorem leaveSlots (s : State) (g : Nat) : EndKeeps s (s.leaveSlots g).1 := by
  refine List.foldlRecOn (motive := fun u : State × List Nat => EndKeeps s u.1) _ _ (refl s) fun u hu id _ => ?_
  dsimp only
  split
  · exact hu.trans (restoreParent _ _ _)
  · exact hu.trans (clearSlot _ _)

/-! ## Engines and licences (10 R207) -/

theorem setEng (s : State) (c : Nat) (e : Engine) : EndKeeps s (s.setEng c e) := of_same rfl rfl rfl

theorem settleLicence (s : State) (p : Nat) : EndKeeps s (s.settleLicence p) := by
  have h := (s.settleLicence_leaves (p := p)).frame
  exact of_same (by rw [h]) (by rw [h]) (by rw [h])

theorem endMigrating (s : State) (c : Nat) : EndKeeps s (s.endMigrating c) := (setCore s _ _).trans (settleLicence _ _)

theorem ifIdle (s : State) (c : Nat) : EndKeeps s (s.ifIdle c) := by
  unfold State.ifIdle State.restartIdle
  refine ite ?_ (refl s)
  split
  · exact (setEng s _ _).trans (schedule _ _ _)
  · exact refl s

theorem dropFromCore (s : State) (g c : Nat) : EndKeeps s (s.dropFromCore g c) := by
  have hstarted : ∀ (k : Core) (l : List Nat), EndKeeps s (l.foldl (fun (u : State) ch => u.soon (.copyCommandStart c ch)) (s.setCore c k)) :=
    fun k l => (setCore s c k).trans (foldl (fun u ch => soon u (.copyCommandStart c ch)) l _)
  unfold State.dropFromCore
  refine trans ?_ (settleLicence _ _)
  refine ite (trans ?_ (setEng _ _ _)) ?_
  all_goals exact ite ((((hstarted _ _).trans (soon _ _)).trans (soon _ _)).trans (ifIdle _ _)) (hstarted _ _)

/-! ## Accesses, rings, attention and handlers -/

theorem traced {s u : State} (h : EndKeeps s u) {c : Prop} [Decidable c] {j : Nat} {ws : List Word} : EndKeeps s (if c then u.trace j ws else u) :=
  ite (h.trans (trace u j ws)) h

theorem owe (s : State) (id : Nat) (t : TrapInfo) (n : Nat) : EndKeeps s (s.owe id t n) := of_same rfl rfl rfl

theorem takeTrap (s : State) (id : Nat) (t : TrapInfo) (epc : Word) : EndKeeps s (s.takeTrap id t epc) := by
  unfold State.takeTrap
  dsimp only
  split
  · split
    · refine traced ?_
      exact of_same rfl rfl rfl
    · refine trans ?_ (startAbort _ _ _ _)
      refine trans ?_ (soon _ _)
      refine traced ?_
      exact of_same rfl rfl rfl
  · refine trans ?_ (owe _ _ _ _)
    refine traced ?_
    exact of_same rfl rfl rfl

theorem acquire (s : State) (c : Nat) : EndKeeps s (s.acquire c) := foldl (fun u k => setCore u k _) _ s

theorem l1Atomic (s : State) (c pa : Nat) : EndKeeps s (s.l1Atomic c pa) := ite (refl s) (setCore s _ _)

theorem fillLine (s : State) (c pa : Nat) : EndKeeps s (s.fillLine c pa) := of_same rfl rfl rfl

theorem deliver (s : State) (id : Nat) (f : InFlight) (r : Reply) : EndKeeps s (s.deliver id f r) := by
  unfold State.deliver
  dsimp only
  split
  · exact trans (ite (setGang s _ _) (refl s)) (takeTrap _ _ _ _)
  · split
    · exact takeTrap s _ _ _
    · refine ite (trans ?_ (takeTrap _ _ _ _)) ?_
      all_goals
        split
        · exact (ite ((setSlot s _ _).trans (acquire _ _)) (setSlot s _ _)).trans (l1Atomic _ _ _)
        · exact ite ((ite ((setSlot s _ _).trans (acquire _ _)) (setSlot s _ _)).trans (fillLine _ _ _)) (ite ((setSlot s _ _).trans (acquire _ _)) (setSlot s _ _))

theorem abandonMigr (s : State) (g : Nat) (dropped : Bool) : EndKeeps s (s.abandonMigr g dropped) := by
  unfold State.abandonMigr
  refine after (foldl (fun u m => ?_) _ _) rfl rfl rfl
  dsimp only
  split
  · exact (endMigrating u _).trans (deliver _ _ _ _)
  · exact endMigrating u _

theorem withRing {s : State} {job ring : Nat} {k : Ring → State} (h : ∀ r, EndKeeps s (k r)) : EndKeeps s (s.withRing job ring k) := by
  unfold State.withRing
  split
  · exact h _
  · exact refl s

theorem setRing (s : State) (r : Ring) : EndKeeps s (s.setRing r) := of_same rfl rfl rfl

theorem slotFree (s : State) (r : Ring) (i : Nat) : EndKeeps s (s.slotFree r i) := by
  unfold State.slotFree
  split
  · exact ite ((setRing s _).trans (send _ _)) (refl s)
  · exact ite ((setRing s _).trans (send _ _)) (refl s)
  · exact refl s

theorem ringSettle (s : State) (job ring : Nat) : EndKeeps s (s.ringSettle job ring) :=
  withRing fun _ => ite (of_same rfl rfl rfl) (ite (refl s) (foldl (fun u i => withRing fun q => slotFree u q i) _ s))

theorem endMember (s : State) (c i : Nat) (quiet : Bool) : EndKeeps s (s.endMember c i quiet) := by
  unfold State.endMember
  split
  · exact refl s
  · refine trans (setCore s _ _) (withRing fun r => ?_)
    refine trans ?_ (ringSettle _ _ _)
    exact ite (((setRing _ _).trans (soon _ _)).trans (send _ _)) (setRing _ _)

theorem attnKick (s : State) (cl : Nat) : EndKeeps s (s.attnKick cl) := by
  have hclaimed : ∀ l : List (Nat × Nat), EndKeeps s (l.foldl (fun (u : State) e =>
      if (u.slot e.1).stepAt ≠ 0 then u
      else
        let w := (u.attnUnclaim cl e.1).attnClaim cl e.1 0 (u.attnGathers e.1)
        w.setSlot e.1 { w.slot e.1 with stepAt := max (max 1 w.now) (w.attnDue cl e.1 4) }) s) := fun l => by
    refine foldl (fun u e => ite (refl u) (trans ?_ (setSlot _ _ _))) l s
    have hunclaim : EndKeeps u (u.attnUnclaim cl e.1) := foldl (fun w i => setCore w _ _) _ u
    exact hunclaim.trans (foldl (fun w k => foldl (fun v x => setCore v _ _) _ w) _ _)
  unfold State.attnKick
  dsimp only
  split
  · exact hclaimed _
  · split <;> exact (hclaimed _).trans (schedule _ _ _)

theorem attnDrop (s : State) (cl g : Nat) : EndKeeps s (s.attnDrop cl g) := by
  unfold State.attnDrop
  refine ite (refl s) (ite ?_ (trans ?_ (attnKick _ _)))
  · exact setCluster fun _ h => h
  · exact setCluster fun _ h => h

theorem freeContexts (s : State) (g : Nat) : EndKeeps s (s.freeContexts g) := by
  unfold State.freeContexts
  have hdrop := foldl (f := fun (u : State) (c : Nat × Cluster) => u.attnDrop c.1 g) (fun u c => attnDrop u c.1 g) s.clusters s
  generalize s.clusters.foldl (fun (u : State) (c : Nat × Cluster) => u.attnDrop c.1 g) s = w at *
  exact hdrop.trans (mapClusters (s := w) rfl (fun _ _ h => h) rfl rfl)

theorem settleBuffer (s : State) (header buf : Nat) : EndKeeps s (s.settleBuffer header buf) := ite (unitWrite s _ _) (refl s)

theorem endReaders (s : State) (l : List Reader) : EndKeeps s (s.endReaders l) := by
  have hsettled := foldl (f := fun (u : State) (r : Reader) => u.settleBuffer r.header r.buf) (fun u r => settleBuffer u r.header r.buf) l
    { s with readers := s.readers.filter fun r => !l.contains r }
  exact trans (after (s := s) hsettled rfl rfl rfl) (retryReaders _ _)

theorem dropReaders (s : State) (c g : Nat) : EndKeeps s (s.dropReaders c g) := endReaders s _

theorem endMemberships (s : State) (g : Nat) (quiet : Bool) : EndKeeps s (s.endMemberships g quiet) :=
  foldl (f := fun (u : State) (p : Nat × Nat) => u.endMember p.1 p.2 quiet) (fun u p => endMember u p.1 p.2 quiet) _ s

theorem handlerEnded (s : State) (task : Nat) : EndKeeps s (s.handlerEnded task) := by
  unfold State.handlerEnded
  split
  · split
    · exact of_same rfl rfl rfl
    · exact refl s
  · split
    · exact refl s
    · exact of_same rfl rfl rfl

/-! ## Entries and gangs -/

/-- Entries that leave the queues. -/
theorem filterEntries (s : State) (keep : Entry → Bool) : EndKeeps s (s.filterEntries keep) :=
  mapClusters rfl (fun c e he => by
    simp only [Cluster.entries, List.mem_append, List.mem_filter, Option.mem_toList, Option.filter_eq_some_iff] at he ⊢
    exact he.imp (Or.imp And.left And.left) And.left) rfl rfl

theorem removeGang (s : State) (g : Nat) (quiet : Bool) : EndKeeps s (s.removeGang g quiet) := by
  have hcores := foldl (fun u c => (dropReaders u c g).trans (dropFromCore _ g c)) (s.gang g).cores s
  unfold State.removeGang
  dsimp only
  refine trans ?_ (resourcesFreed _)
  refine hcores.trans ?_
  generalize (s.gang g).cores.foldl (fun (u : State) c => (u.dropReaders c g).dropFromCore g c) s = u
  have hfree := ((endMemberships u g quiet).trans (freeContexts _ g)).trans (abandonMigr _ g false)
  refine hfree.trans ?_
  generalize ((u.endMemberships g quiet).freeContexts g).abandonMigr g false = w
  have hgone : EndKeeps w { w with gangs := tdel w.gangs g } := of_same rfl rfl rfl
  have hhandler := ite (c := (s.gang g).handlerFor.isSome = true) (hgone.trans (handlerEnded _ (s.gang g).task)) hgone
  split
  · exact hhandler.trans (soon _ _)
  · exact hhandler

theorem dropRecords (s : State) (g : Nat) : EndKeeps s (s.dropRecords g) := by
  have hfreed : ∀ l : List Entry, EndKeeps s (l.foldl (fun (u : State) e =>
      match e.cont with
      | some v => if v.save = 0 then u else u.poolFree e.job v.save
      | none => u) s) := fun l => by
    refine foldl (fun u e => ?_) l s
    split
    · exact ite (refl u) (poolFree u _ _)
    · exact refl u
  unfold State.dropRecords
  dsimp only
  exact ((hfreed _).trans (filterEntries _ _)).trans (of_same rfl rfl rfl)

theorem dropGang (s : State) (g : Nat) (out : Ending) (quiet : Bool) : EndKeeps s (s.dropGang g out quiet) := by
  unfold State.dropGang
  refine trans (leaveSlots s g) (trans (foldl (fun u h => ?_) _ _) (dropRecords _ g))
  exact ((stampWrite u _ _).trans (abandonMigr _ h true)).trans (removeGang _ h quiet)

end EndKeeps

end Sys2Proof.Machine
end

section
/-! Answers to a commit at its gang, CANCEL, and confirmed ends (13 R238; 16 R277, R280, R282; 18 R299; 23 R373). -/

namespace Sys2Proof.Claims

open Sys2Proof.Machine

/-! ## Confirmed ends (16 R280) -/

/-- Copies end: nothing pending or sent is lost, and slots, queues, cores, contexts and the copies that have moved away stay. -/
structure CopiesEnd (s t : State) : Prop where
  later : Later s t
  slots : t.slots = s.slots
  clusters : t.clusters = s.clusters
  cores : t.cores = s.cores
  contexts : t.contexts = s.contexts
  away : t.awayTasks = s.awayTasks
  gangs : ∀ x ∈ t.gangs, x ∈ s.gangs
  det : ∀ j, (t.job j).det = (s.job j).det

namespace CopiesEnd

section
variable {s t u : State}

theorem refl (s : State) : CopiesEnd s s := ⟨Later.refl s, rfl, rfl, rfl, rfl, rfl, fun _ h => h, fun _ => rfl⟩

theorem trans (h : CopiesEnd s t) (h' : CopiesEnd t u) : CopiesEnd s u :=
  ⟨h.later.trans h'.later, h'.slots.trans h.slots, h'.clusters.trans h.clusters, h'.cores.trans h.cores, h'.contexts.trans h.contexts,
    h'.away.trans h.away, fun x hx => h.gangs x (h'.gangs x hx), fun j => (h'.det j).trans (h.det j)⟩

theorem foldl {α : Type} {f : State → α → State} (h : ∀ u x, CopiesEnd u (f u x)) (l : List α) (s : State) : CopiesEnd s (l.foldl f s) := by
  induction l generalizing s with
  | nil => exact refl s
  | cons x l ih => exact (h s x).trans (ih _)

theorem ite {c : Prop} [Decidable c] (ht : CopiesEnd s t) (hu : CopiesEnd s u) : CopiesEnd s (if c then t else u) := by
  split
  · exact ht
  · exact hu

theorem of_sent (hl : Later s t) (h : SentOnly s t) : CopiesEnd s t := by
  unfold SentOnly at h
  refine ⟨hl, by rw [h], by rw [h], by rw [h], by rw [h], by rw [h], fun x hx => ?_, fun j => ?_⟩
  · rw [h] at hx
    exact hx
  · rw [h]
    rfl

theorem of_wrote (hl : Later s t) (h : WroteOnly s t) : CopiesEnd s t := by
  unfold WroteOnly at h
  refine ⟨hl, by rw [h], by rw [h], by rw [h], by rw [h], by rw [h], fun x hx => ?_, fun j => ?_⟩
  · rw [h] at hx
    exact hx
  · rw [h]
    rfl

end

theorem soon (s : State) (e : Ev) : CopiesEnd s (s.soon e) := of_sent (Later.soon s e) rfl
theorem send (s : State) (o : Out) : CopiesEnd s (s.send o) := of_sent (Later.send s o) rfl
theorem stray (s : State) : CopiesEnd s s.stray := ⟨Later.of_same rfl rfl rfl, rfl, rfl, rfl, rfl, rfl, fun _ h => h, fun _ => rfl⟩

theorem setJob (s : State) {j : Nat} {v : Job} (h : v.det = (s.job j).det) : CopiesEnd s (s.setJob j v) :=
  ⟨Later.setJob s j v, rfl, rfl, rfl, rfl, rfl, fun _ h => h, State.job_setJob_of h⟩

theorem writeArea (s : State) (j va : Nat) (ws : List Word) : CopiesEnd s (s.writeArea j va ws) := by
  unfold State.writeArea
  split
  · exact of_wrote (Later.unitWrite s _ ws) (s.unitWrite_wroteOnly _ ws)
  · exact refl s

theorem stampWrite (s : State) (j : Nat) (ws : List Word) : CopiesEnd s (s.stampWrite j ws) := by
  have hw := writeArea s j ((s.job j).stampBase + 64 * ((s.job j).stampNext % (s.job j).stampEntries)) ws
  unfold State.stampWrite
  dsimp only
  split
  · exact setJob s rfl
  · exact hw.trans (setJob _ rfl)

theorem receive (s : State) (cl : Nat) (e : Entry) : CopiesEnd s (s.receive cl e) := by
  unfold State.receive
  split
  · exact refl s
  · exact setJob s rfl

theorem confirmCopy (s : State) (flags : BitVec 5) (core j : Nat) (p : List Word) (task copy : Nat) :
    CopiesEnd s (s.confirmCopy flags core j p task copy) := by
  unfold State.confirmCopy
  split
  · exact refl s
  · split
    · exact send s _
    · exact of_sent (Later.carry s _ _ _ _ _) (s.carry_sentOnly _ _ _ _ _)
    · exact soon s _

theorem resourcesFreed (s : State) : CopiesEnd s s.resourcesFreed :=
  foldl (f := fun u (c : Nat × Cluster) => u.poke c.1) (fun u _ => ite (refl u) (soon u _)) s.clusters s

end CopiesEnd

section
variable {s t u : State} {j task copy : Nat}

theorem Confirmed.later (h : Confirmed s t j task copy) (hu : Later t u) : Confirmed s u j task copy :=
  h.imp (fun h => h.later hu) fun ⟨m, h⟩ => ⟨m, hu.out _ h⟩

theorem Confirmed.before (h : Confirmed u t j task copy) (hu : CopiesEnd s u) : Confirmed s t j task copy :=
  h.imp_left fun h => h.of_now hu.later.now (hu.det j)

/-- A HEDGE copy's end is on its way to its home. -/
theorem confirmCopy_confirms (s : State) {flags : BitVec 5} (core : Nat) (p : List Word) (hf : flags.getLsbD 0 = true) :
    Confirmed s (s.confirmCopy flags core j p task copy) j task copy := by
  have hne : ¬ flags.getLsbD 0 = false := by rw [hf]; exact Bool.noConfusion
  unfold State.confirmCopy
  rw [if_neg hne]
  split
  · exact .inr ⟨_, State.mem_out_send _ _⟩
  · exact .inl (onItsWay_carry _ _ _ _ _ _)
  · exact .inl (onItsWay_soon _ _ _)

/-- Of copies that end one after another, one confirms its end. -/
theorem CopiesEnd.foldl_confirms {α : Type} {f : State → α → State} (h : ∀ u x, CopiesEnd u (f u x)) {x : α} (hc : ∀ u, Confirmed u (f u x) j task copy)
    (l : List α) (hx : x ∈ l) : ∀ s, Confirmed s (l.foldl f s) j task copy := by
  induction l with
  | nil => exact (List.not_mem_nil hx).elim
  | cons y l ih =>
    intro s
    obtain rfl | hx := List.mem_cons.mp hx
    · exact (hc s).later (CopiesEnd.foldl h l _).later
    · exact (ih hx (f s y)).before (h s y)

/-! ## What a CANCEL ends (16 R282) -/

/-- A gang of a context that waits for room ends (06 R117). -/
def endArriving (free : Nat) (out : Ending) (u : State) (q : Gang) : State :=
  ({ (u.setGang free q).stampGang free out with gangs := tdel ((u.setGang free q).stampGang free out).gangs free }).confirmEnd q

theorem endArriving_ends (free : Nat) (out : Ending) (u : State) (q : Gang) : CopiesEnd u (endArriving free out u q) := by
  refine CopiesEnd.trans ?_ (CopiesEnd.confirmCopy _ _ _ _ _ _ _)
  have hstamp : CopiesEnd (u.setGang free q) ((u.setGang free q).stampGang free out) := CopiesEnd.stampWrite _ _ _
  obtain ⟨hlater, hslots, hclusters, hcores, hcontexts, haway, hgangs, hdet⟩ := hstamp
  refine ⟨(Later.setGang u free q).trans (hlater.trans (Later.of_same rfl rfl rfl)), hslots, hclusters, hcores, hcontexts, haway, fun x hx => ?_, hdet⟩
  obtain ⟨hx, hne⟩ := List.mem_filter.mp hx
  obtain h | rfl := mem_tset (hgangs x hx)
  · exact h
  · simp at hne

theorem endArriving_confirms (free : Nat) (out : Ending) {q : Gang} (hf : q.flags.getLsbD 0 = true) (u : State) :
    Confirmed u (endArriving free out u q) q.job q.task q.copy := by
  have hstamp : CopiesEnd (u.setGang free q) ((u.setGang free q).stampGang free out) := CopiesEnd.stampWrite _ _ _
  have hc := confirmCopy_confirms (j := q.job) (task := q.task) (copy := q.copy)
    { (u.setGang free q).stampGang free out with gangs := tdel ((u.setGang free q).stampGang free out).gangs free } (q.cores.headD 0) q.packet hf
  exact hc.imp_left fun h => h.of_now hstamp.later.now (hstamp.det q.job)

/-- A queued copy ends. -/
def endQueued (out : Ending) (u : State) (p : Nat × Entry) : State :=
  if p.2.isTicket then u else ((u.receive p.1 p.2).stampEntry p.2 out).confirmEntry p.2

theorem endQueued_ends (out : Ending) (u : State) (p : Nat × Entry) : CopiesEnd u (endQueued out u p) :=
  CopiesEnd.ite (CopiesEnd.refl u) (((CopiesEnd.receive u _ _).trans (CopiesEnd.stampWrite _ _ _)).trans (CopiesEnd.confirmCopy _ _ _ _ _ _ _))

theorem endQueued_confirms (out : Ending) {p : Nat × Entry} (ht : p.2.isTicket = false) (hf : p.2.flags.getLsbD 0 = true) (u : State) :
    Confirmed u (endQueued out u p) p.2.job p.2.task p.2.copy := by
  have hne : ¬ p.2.isTicket = true := by rw [ht]; exact Bool.noConfusion
  unfold endQueued
  rw [if_neg hne]
  exact (confirmCopy_confirms _ _ _ hf).before ((CopiesEnd.receive u _ _).trans (CopiesEnd.stampWrite _ _ _))

end

end Sys2Proof.Claims
end

section
/-! CANCEL, step by step (16 R282). -/

namespace Sys2Proof.Claims

open Sys2Proof.Machine

section
variable {s : State} {j task copy : Nat} {c : HedgeCopy}

/-! ## Copies in contexts that wait for room (06 R117) -/

/-- A gang of a context is a copy that a CANCEL names. -/
def isCopy (j task copy : Nat) (q : Gang) : Bool := q.job == j && q.task == task && q.copy == copy

theorem isCopy_iff {q : Gang} : isCopy j task copy q = true ↔ q.job = j ∧ q.task = task ∧ q.copy = copy := by
  simp [isCopy, and_assoc]

/-- What a CANCEL leaves once the copy is in no context. -/
def unarrived (s : State) (j task copy : Nat) : State := s.dropArriving (isCopy j task copy) .cancel

theorem unarrived_of_none (h : ∀ q ∈ s.contextGangs, ¬ (q.job = j ∧ q.task = task ∧ q.copy = copy)) : unarrived s j task copy = s := by
  have hl : s.contextGangs.filter (isCopy j task copy) = [] := List.filter_eq_nil_iff.mpr fun q hq hc => h q hq (isCopy_iff.mp hc)
  unfold unarrived State.dropArriving
  dsimp only
  rw [hl, if_pos rfl]
  rfl

/-- The contexts without the copy's gangs. -/
def leftContexts (s : State) (j task copy : Nat) : List (Nat × Nat × Context) :=
  if s.contextGangs.filter (isCopy j task copy) = [] then s.contexts
  else (s.contexts.map fun e => (e.1, e.2.1, e.2.2.without (isCopy j task copy))).filter fun e => !e.2.2.gangs.isEmpty

theorem unarrived_eq (s : State) (j task copy : Nat) : unarrived s j task copy =
    (s.contextGangs.filter (isCopy j task copy)).foldl (endArriving (s.gangs.foldl (fun m e => max m (e.1 + 1)) 0) .cancel)
      { s with contexts := leftContexts s j task copy } := rfl

theorem unarrived_ends (s : State) (j task copy : Nat) : CopiesEnd { s with contexts := leftContexts s j task copy } (unarrived s j task copy) := by
  rw [unarrived_eq]
  exact CopiesEnd.foldl (endArriving_ends _ _) _ _

/-- No context that waits for room holds the copy. -/
theorem leftContexts_without : ∀ e ∈ leftContexts s j task copy, ∀ q ∈ e.2.2.gangs, ¬ (q.2.job = j ∧ q.2.task = task ∧ q.2.copy = copy) := by
  intro e he q hq hc
  have hcopy : isCopy j task copy q.2 = true := isCopy_iff.mpr hc
  unfold leftContexts at he
  split at he
  · next hnone =>
    have hmem : q.2 ∈ s.contextGangs := List.mem_flatMap.mpr ⟨e, he, List.mem_map.mpr ⟨q, hq, rfl⟩⟩
    exact List.filter_eq_nil_iff.mp hnone q.2 hmem hcopy
  · obtain ⟨x, -, rfl⟩ := List.mem_map.mp (List.mem_filter.mp he).1
    have hkept := (List.mem_filter.mp hq).2
    simp [hcopy] at hkept

theorem unarrived_confirms {q : Gang} (hq : q ∈ s.contextGangs) (hc : q.job = j ∧ q.task = task ∧ q.copy = copy) (hf : q.flags.getLsbD 0 = true) :
    Confirmed s (unarrived s j task copy) j task copy := by
  obtain ⟨rfl, rfl, rfl⟩ := hc
  have hmem : q ∈ s.contextGangs.filter (isCopy q.job q.task q.copy) := List.mem_filter.mpr ⟨hq, isCopy_iff.mpr ⟨rfl, rfl, rfl⟩⟩
  rw [unarrived_eq]
  exact CopiesEnd.foldl_confirms (endArriving_ends _ _) (endArriving_confirms _ _ hf) _ hmem _

/-! ## Queued copies -/

/-- An entry that a CANCEL takes out of its queue. -/
def isQueued (j task copy : Nat) (e : Entry) : Bool := (e.job == j && e.task == task && e.copy == copy && !e.isTicket) && e.cont.isNone

theorem isQueued_iff {e : Entry} : isQueued j task copy e = true ↔ e.job = j ∧ e.task = task ∧ e.copy = copy ∧ e.isTicket = false ∧ e.cont = none := by
  simp [isQueued, and_assoc]

/-- The copy's entries, with their clusters. -/
def queuedCopies (s : State) (j task copy : Nat) : List (Nat × Entry) :=
  s.clusters.flatMap fun c => (c.2.entries.filter (isQueued j task copy)).map fun e => (c.1, e)

/-- What a CANCEL leaves once the copy is in no queue. -/
def unqueued (s : State) (j task copy : Nat) : State :=
  s.discardEntries .cancel fun e => e.job == j && e.task == task && e.copy == copy && !e.isTicket

theorem unqueued_eq (s : State) (j task copy : Nat) : unqueued s j task copy =
    ((queuedCopies s j task copy).foldl (endQueued .cancel) (s.filterEntries fun e => !isQueued j task copy e)).resourcesFreed := rfl

theorem unqueued_ends (s : State) (j task copy : Nat) : CopiesEnd (s.filterEntries fun e => !isQueued j task copy e) (unqueued s j task copy) := by
  rw [unqueued_eq]
  exact (CopiesEnd.foldl (endQueued_ends _) _ _).trans (CopiesEnd.resourcesFreed _)

theorem filterEntries_self {keep : Entry → Bool} (h : ∀ c ∈ s.clusters, ∀ e ∈ c.2.entries, keep e = true) : s.filterEntries keep = s := by
  have hmap : s.clusters.map (fun c => (c.1, { c.2 with
      cistern := c.2.cistern.filter keep, waiting := c.2.waiting.filter keep, stolen := c.2.stolen.filter keep })) = s.clusters := by
    refine (List.map_congr_left fun c hc => ?_).trans (List.map_id _)
    have hall := h c hc
    have h1 : c.2.cistern.filter keep = c.2.cistern := List.filter_eq_self.mpr fun e he => hall e (by simp [Cluster.entries, he])
    have h2 : c.2.waiting.filter keep = c.2.waiting := List.filter_eq_self.mpr fun e he => hall e (by simp [Cluster.entries, he])
    have h3 : c.2.stolen.filter keep = c.2.stolen := by
      cases hs : c.2.stolen with
      | none => rfl
      | some e => exact Option.filter_some_pos (hall e (by simp [Cluster.entries, hs]))
    rw [h1, h2, h3]
    rfl
  unfold State.filterEntries
  rw [hmap]

/-- No queue holds the copy but as a continuation or a ticket. -/
theorem unqueued_of_none (h : ∀ c ∈ s.clusters, ∀ e ∈ c.2.entries, isQueued j task copy e = false) : unqueued s j task copy = s.resourcesFreed := by
  have hl : queuedCopies s j task copy = [] := List.flatMap_eq_nil_iff.mpr fun c hc => by
    rw [List.filter_eq_nil_iff.mpr fun e he => by simp [h c hc e he], List.map_nil]
  rw [unqueued_eq, hl, filterEntries_self fun c hc e he => by rw [h c hc e he]; rfl]
  rfl

theorem filterEntries_none (s : State) (j task copy : Nat) : ∀ c ∈ (s.filterEntries fun e => !isQueued j task copy e).clusters, ∀ e ∈ c.2.entries,
    isQueued j task copy e = false := by
  intro c hc e he
  obtain ⟨d, -, rfl⟩ := List.mem_map.mp hc
  simp only [Cluster.entries, List.mem_append, List.mem_filter, Option.mem_toList, Option.filter_eq_some_iff, Bool.not_eq_eq_eq_not, Bool.not_true] at he
  exact he.elim (Or.rec And.right And.right) And.right

theorem unqueued_confirms {e : Entry} (he : ∃ k ∈ s.clusters, e ∈ k.2.entries) (hc : isQueued j task copy e = true) (hf : e.flags.getLsbD 0 = true) :
    Confirmed (s.filterEntries fun e => !isQueued j task copy e) (unqueued s j task copy) j task copy := by
  obtain ⟨k, hk, he⟩ := he
  have hmem : (k.1, e) ∈ queuedCopies s j task copy := List.mem_flatMap.mpr ⟨k, hk, List.mem_map.mpr ⟨e, List.mem_filter.mpr ⟨he, hc⟩, rfl⟩⟩
  obtain ⟨rfl, rfl, rfl, ht, -⟩ := isQueued_iff.mp hc
  rw [unqueued_eq]
  exact (CopiesEnd.foldl_confirms (endQueued_ends _) (endQueued_confirms .cancel (p := (k.1, e)) ht hf) _ hmem _).later (CopiesEnd.resourcesFreed _).later

end

end Sys2Proof.Claims
end

section
/-! The answer to a commit, and CANCEL as a whole (13 R238; 16 R282). -/

namespace Sys2Proof.Claims

open Sys2Proof.Machine

section
variable {s : State} {g id j task copy : Nat} {c : HedgeCopy} {m : CommitMsg}

/-! ## Copies that have moved away (23 R373) -/

/-- A CANCEL passes a forwarding entry of the core that the copy left. -/
def passOn (j task : Nat) (c : HedgeCopy) (u : State) (a : Nat × Nat × Nat × Nat × Nat) : State :=
  match u.fwdTo a.2.2.2.2 [a.2.2.2.1] with
  | some f => if bits f.f0 44 12 = 0 then u else u.send (.cancel (bits f.f0 44 12) j task c)
  | none => u.stray

theorem passOn_ends (j task : Nat) (c : HedgeCopy) (u : State) (a : Nat × Nat × Nat × Nat × Nat) : CopiesEnd u (passOn j task c u a) := by
  unfold passOn
  split
  · exact CopiesEnd.ite (CopiesEnd.refl u) (CopiesEnd.send u _)
  · exact CopiesEnd.stray u

/-- The copies that have moved away and that a CANCEL names. -/
def movedCopies (s : State) (j task : Nat) (c : HedgeCopy) : List (Nat × Nat × Nat × Nat × Nat) :=
  s.awayTasks.filter fun a => a.1 == j && a.2.1 == task && a.2.2.1 == c.copy && (c.gang == 0 || a.2.2.2.1 == c.gang)

theorem forwardCancel_eq (s : State) (j task : Nat) (c : HedgeCopy) : s.forwardCancel j task c = (movedCopies s j task c).foldl (passOn j task c) s := rfl

theorem mem_movedCopies {a : Nat × Nat × Nat × Nat × Nat} : a ∈ movedCopies s j task c ↔ a ∈ s.awayTasks ∧ GoneAway a j task c := by
  simp [movedCopies, GoneAway, and_assoc]

theorem forwardCancel_none (h : ∀ a ∈ s.awayTasks, ¬ GoneAway a j task c) : s.forwardCancel j task c = s := by
  have hl : movedCopies s j task c = [] := List.eq_nil_iff_forall_not_mem.mpr fun a ha => h a (mem_movedCopies.mp ha).1 (mem_movedCopies.mp ha).2
  rw [forwardCancel_eq, hl]
  rfl

/-- The CANCEL goes to the module that a forwarding entry names. -/
theorem forwardCancel_sends {a : Nat × Nat × Nat × Nat × Nat} {f : FwdEntry} (hf : bits f.f0 44 12 ≠ 0) (l : List (Nat × Nat × Nat × Nat × Nat)) (ha : a ∈ l) :
    ∀ s : State, s.fwdTo a.2.2.2.2 [a.2.2.2.1] = some f → Out.cancel (bits f.f0 44 12) j task c ∈ (l.foldl (passOn j task c) s).out := by
  induction l with
  | nil => exact (List.not_mem_nil ha).elim
  | cons b l ih =>
    intro s hs
    obtain rfl | ha := List.mem_cons.mp ha
    · refine (CopiesEnd.foldl (passOn_ends j task c) l _).later.out _ ?_
      have hpass : passOn j task c s a = s.send (.cancel (bits f.f0 44 12) j task c) := by
        unfold passOn
        rw [hs]
        exact if_neg hf
      rw [hpass]
      exact State.mem_out_send _ _
    · refine ih ha _ ?_
      have hcores := (passOn_ends j task c s b).cores
      unfold State.fwdTo State.core at *
      rw [hcores]
      exact hs

/-! ## CANCEL (16 R282) -/

/-- A running copy is dropped where the CANCEL finds it, and counted as a stray where it does not. -/
def endRunning (c : HedgeCopy) (u : State) (g : Nat × Gang) : State :=
  if u.follows c g then (u.dropGang g.1 .cancel false).confirmEnd g.2 else u.stray

theorem exec_cancel (he : s.ev = some (.cancel j task c)) : exec .cancel s = .next
    ((unqueued ((((unarrived s j task c.copy).namedCopies j task c).filter fun g => g.2.commit.isNone).foldl (endRunning c) (unarrived s j task c.copy)) j task c.copy).forwardCancel
      j task c) := by
  show execCancel s = _
  unfold execCancel
  split
  · next h =>
    cases he.symm.trans h
    rfl
  · next h => exact nomatch he.symm.trans h
  · next h _ => exact (h _ _ _ he).elim

theorem endRunning_keeps (c : HedgeCopy) (u : State) (g : Nat × Gang) : EndKeeps u (endRunning c u g) :=
  EndKeeps.ite ((EndKeeps.dropGang u _ _ _).trans (EndKeeps.confirmEnd _ _)) (EndKeeps.of_same rfl rfl rfl)

/-- Where the copy is a gang of the module and nothing else of it, the gang ends. -/
theorem exec_cancel_gang {q : Gang} (he : s.ev = some (.cancel j task c)) (hl : (s.namedCopies j task c).filter (fun x => x.2.commit.isNone) = [(g, q)])
    (hq : NotQueued s j task c.copy) (ha : ∀ a ∈ s.awayTasks, ¬ GoneAway a j task c) : exec .cancel s = .next (endRunning c s (g, q)).resourcesFreed := by
  obtain ⟨hentries, hcontexts⟩ := hq
  have hkeep := endRunning_keeps c s (g, q)
  have hnone : ∀ k ∈ (endRunning c s (g, q)).clusters, ∀ e ∈ k.2.entries, isQueued j task c.copy e = false := by
    intro k hk e hek
    obtain ⟨d, hd, hed⟩ := hkeep.entries k hk e hek
    refine Bool.eq_false_iff.mpr fun hc => ?_
    obtain ⟨hj, ht, hcp, -, hcont⟩ := isQueued_iff.mp hc
    have hsome := hentries d hd e hed hj ht hcp
    rw [hcont] at hsome
    exact Bool.false_ne_true hsome
  have haway : ∀ a ∈ (endRunning c s (g, q)).resourcesFreed.awayTasks, ¬ GoneAway a j task c := by
    rw [(EndKeeps.resourcesFreed _).away, hkeep.away]
    exact ha
  rw [exec_cancel he, unarrived_of_none hcontexts, hl, List.foldl_cons, List.foldl_nil, unqueued_of_none hnone, forwardCancel_none haway]

/-- Where the module's gangs of the copy have all committed, only what waits is looked at. -/
theorem exec_cancel_waiting (he : s.ev = some (.cancel j task c))
    (hg : ∀ x ∈ s.gangs, x.2.job = j → x.2.task = task → x.2.copy = c.copy → x.2.commit.isSome = true) :
    exec .cancel s = .next ((unqueued (unarrived s j task c.copy) j task c.copy).forwardCancel j task c) := by
  have hnone : ((unarrived s j task c.copy).namedCopies j task c).filter (fun g => g.2.commit.isNone) = [] := by
    refine List.filter_eq_nil_iff.mpr fun x hx hc => ?_
    have hmem : x ∈ (unarrived s j task c.copy).gangs.filter fun g => g.2.job == j && g.2.task == task && g.2.copy == c.copy := by
      unfold State.namedCopies at hx
      dsimp only at hx
      split at hx
      · exact (List.mem_filter.mp hx).1
      · exact hx
    obtain ⟨hgang, hcopy⟩ := List.mem_filter.mp hmem
    simp only [Bool.and_eq_true, beq_iff_eq] at hcopy
    have hsome := hg x ((unarrived_ends s j task c.copy).gangs x hgang) hcopy.1.1 hcopy.1.2 hcopy.2
    rw [Option.isSome_iff_exists] at hsome
    obtain ⟨y, hy⟩ := hsome
    rw [hy] at hc
    exact Bool.false_ne_true hc
  rw [exec_cancel he, hnone, List.foldl_nil]

/-- What a CANCEL for a copy that waits leaves. -/
structure CancelLeaves (s t : State) (j task : Nat) (c : HedgeCopy) : Prop where
  slots : t.slots = s.slots
  queues : ∀ d ∈ t.clusters, ∀ f ∈ d.2.entries, isQueued j task c.copy f = false
  contexts : ∀ x ∈ t.contextGangs, ¬ (x.job = j ∧ x.task = task ∧ x.copy = c.copy)

/-- The steps of a CANCEL for a copy that waits. -/
theorem waiting_ends (s : State) (j task : Nat) (c : HedgeCopy) :
    CopiesEnd ((unarrived s j task c.copy).filterEntries fun e => !isQueued j task c.copy e) ((unqueued (unarrived s j task c.copy) j task c.copy).forwardCancel j task c) := by
  refine (unqueued_ends _ j task c.copy).trans ?_
  rw [forwardCancel_eq]
  exact CopiesEnd.foldl (passOn_ends j task c) _ _

theorem waiting_leaves (s : State) (j task : Nat) (c : HedgeCopy) :
    CancelLeaves s ((unqueued (unarrived s j task c.copy) j task c.copy).forwardCancel j task c) j task c := by
  have hends := waiting_ends s j task c
  have harr := unarrived_ends s j task c.copy
  refine ⟨hends.slots.trans harr.slots, ?_, ?_⟩
  · rw [hends.clusters]
    exact filterEntries_none _ j task c.copy
  · have hcontexts : ((unqueued (unarrived s j task c.copy) j task c.copy).forwardCancel j task c).contexts = leftContexts s j task c.copy :=
      hends.contexts.trans harr.contexts
    unfold State.contextGangs
    rw [hcontexts]
    intro x hx
    obtain ⟨e, he, hx⟩ := List.mem_flatMap.mp hx
    obtain ⟨q, hq, rfl⟩ := List.mem_map.mp hx
    exact leftContexts_without e he q hq

theorem waiting_confirms_queued {k : Nat × Cluster} {e : Entry} (hk : k ∈ s.clusters) (he : e ∈ k.2.entries) (hc : isQueued j task c.copy e = true)
    (hf : e.flags.getLsbD 0 = true) : Confirmed s ((unqueued (unarrived s j task c.copy) j task c.copy).forwardCancel j task c) j task c.copy := by
  have harr := unarrived_ends s j task c.copy
  have hentry : ∃ k ∈ (unarrived s j task c.copy).clusters, e ∈ k.2.entries := ⟨k, by rw [harr.clusters]; exact hk, he⟩
  have hconf : Confirmed s (unqueued (unarrived s j task c.copy) j task c.copy) j task c.copy := (unqueued_confirms hentry hc hf).imp_left fun h => h.of_now (s := s) harr.later.now (harr.det j)
  refine hconf.later ?_
  rw [forwardCancel_eq]
  exact (CopiesEnd.foldl (passOn_ends j task c) _ _).later

theorem waiting_confirms_arriving {e : Nat × Nat × Context} {q : Nat × Gang} (he : e ∈ s.contexts) (hq : q ∈ e.2.2.gangs)
    (hc : q.2.job = j ∧ q.2.task = task ∧ q.2.copy = c.copy) (hf : q.2.flags.getLsbD 0 = true) :
    Confirmed s ((unqueued (unarrived s j task c.copy) j task c.copy).forwardCancel j task c) j task c.copy := by
  have hmem : q.2 ∈ s.contextGangs := List.mem_flatMap.mpr ⟨e, he, List.mem_map.mpr ⟨q, hq, rfl⟩⟩
  have hfilter : Later (unarrived s j task c.copy) ((unarrived s j task c.copy).filterEntries fun e => !isQueued j task c.copy e) := Later.of_same rfl rfl rfl
  exact (unarrived_confirms hmem hc hf).later (hfilter.trans (waiting_ends s j task c).later)

theorem waiting_passes {a : Nat × Nat × Nat × Nat × Nat} {f : FwdEntry} (ha : a ∈ s.awayTasks) (hg : GoneAway a j task c)
    (hf : s.fwdTo a.2.2.2.2 [a.2.2.2.1] = some f) (hm : bits f.f0 44 12 ≠ 0) :
    Out.cancel (bits f.f0 44 12) j task c ∈ ((unqueued (unarrived s j task c.copy) j task c.copy).forwardCancel j task c).out := by
  have harr := unarrived_ends s j task c.copy
  have hun := unqueued_ends (unarrived s j task c.copy) j task c.copy
  have haway : (unqueued (unarrived s j task c.copy) j task c.copy).awayTasks = s.awayTasks := hun.away.trans harr.away
  have hcores : (unqueued (unarrived s j task c.copy) j task c.copy).cores = s.cores := hun.cores.trans harr.cores
  rw [forwardCancel_eq]
  refine forwardCancel_sends hm _ (mem_movedCopies.mpr ⟨by rw [haway]; exact ha, hg⟩) _ ?_
  unfold State.fwdTo State.core at *
  rw [hcores]
  exact hf

/-- What a CANCEL leaves of the copy in a queue is a continuation, which its gang's end takes with it, or a ticket. -/
theorem continued_or_ticket {f : Entry} (h : isQueued j task copy f = false) (hj : f.job = j) (ht : f.task = task) (hc : f.copy = copy) :
    f.cont.isSome = true ∨ f.isTicket = true := by
  by_contra hcon
  obtain ⟨hcont, htk⟩ := not_or.mp hcon
  have hq : isQueued j task copy f = true := isQueued_iff.mpr ⟨hj, ht, hc, Bool.eq_false_iff.mpr htk, by simpa using hcont⟩
  exact nomatch h.symm.trans hq

/-! ## Answers to a commit (13 R238; 16 R277; 18 R299) -/

/-- A copy that no home arbitrates confirms nothing. -/
theorem confirmEnd_plain {u : State} {q : Gang} (h : q.flags.getLsbD 0 = false) : u.confirmEnd q = u := if_pos h

section
variable (hc : (s.gang g).commit = some (m, id))
include hc

theorem exec_commitOk (hf : (s.gang g).flags.getLsbD 0 = false) (he : s.ev = some (.commitAnswer g .commitOk)) (hl : (s.gang g).lp = none) :
    exec .commitAnswer s = .next ((s.releaseRest m).dropGang g .commitOk false) := by
  have hin : s.inboxOk (s.gang g) = s := by
    unfold State.inboxOk
    rw [hl]
  have htell : ∀ u : State, u.tellWork (s.gang g) = u := fun u => if_pos hf
  show execCommitAnswer s = _
  unfold execCommitAnswer
  rw [he]
  dsimp only
  rw [hc]
  dsimp only
  rw [hin, htell, confirmEnd_plain hf]

theorem exec_commitCancelled (hf : (s.gang g).flags.getLsbD 0 = false) (he : s.ev = some (.commitAnswer g .cancelled)) : exec .commitAnswer s = .next (s.dropGang g .cancel false) := by
  show execCommitAnswer s = _
  unfold execCommitAnswer
  rw [he]
  dsimp only
  rw [hc]
  dsimp only
  rw [confirmEnd_plain hf]

theorem exec_commitProt (he : s.ev = some (.commitAnswer g .prot)) (hu : (s.gang g).undone = false) (hl : (s.gang g).lp = none) :
    exec .commitAnswer s = .next ((s.setGang g { s.gang g with commit := none }).takeTrap id { cause := .prot, origin := 5, addr := m.tile } (s.slot id).pc) := by
  show execCommitAnswer s = _
  unfold execCommitAnswer
  rw [he]
  dsimp only
  rw [hc]
  dsimp only
  rw [hu, hl]
  rfl

/-- A gang that a rollback has undone meanwhile ends (18 R304). -/
theorem exec_commitUndone (hf : (s.gang g).flags.getLsbD 0 = false) (he : s.ev = some (.commitAnswer g .prot) ∨ s.ev = some (.commitAnswer g .versionFull)) (hu : (s.gang g).undone = true) :
    exec .commitAnswer s = .next (s.dropGang g .rolledBack false) := by
  show execCommitAnswer s = _
  unfold execCommitAnswer
  obtain he | he := he
  all_goals
    rw [he]
    dsimp only
    rw [hc]
    dsimp only
    rw [if_pos hu, confirmEnd_plain hf]

theorem exec_versionFull (he : s.ev = some (.commitAnswer g .versionFull)) (hu : (s.gang g).undone = false) : exec .commitAnswer s = .next
    (if (s.gang g).inline.isSome then
      (s.setGang g { s.gang g with commit := none }).setSlot id { s.slot id with wait := .cond (.lwChange (s.lwAt (s.gang g).job (id / 16))) }
    else (s.setGang g { s.gang g with outbox := [], commit := none }).requeue g .versionFull (s.gang g).retries) := by
  have hno : ¬ (s.gang g).undone = true := by rw [hu]; exact Bool.noConfusion
  show execCommitAnswer s = _
  unfold execCommitAnswer
  rw [he]
  dsimp only
  rw [hc]
  dsimp only
  rw [if_neg hno]
  split <;> rfl

end

/-! ## Confirmed ends at the home (16 R280) -/

theorem exec_dropConfirmation (he : s.ev = some (.dropConfirmation j task copy)) : exec .dropConfirmation s = .next
    { s with hedges := (s.hedges.map fun (r : HedgeRec) =>
        if r.task = task ∧ r.job = j then { r with copies := r.copies.filter fun c => c.copy != copy || some c.copy == r.winner } else r).filter fun r =>
          !(r.winner.isSome && r.copies.all fun c => some c.copy == r.winner) } := by
  show execDropConfirmation s = _
  unfold execDropConfirmation
  split
  · next h =>
    cases he.symm.trans h
    rfl
  · next h => exact (h _ _ _ he).elim

/-- The copy has left its record, and no record is left of which only the winner is. -/
theorem dropConfirmation_leaves {l : List HedgeRec} {r : HedgeRec} (hr : r ∈ (l.map fun (r : HedgeRec) =>
      if r.task = task ∧ r.job = j then { r with copies := r.copies.filter fun c => c.copy != copy || some c.copy == r.winner } else r).filter fun r =>
        !(r.winner.isSome && r.copies.all fun c => some c.copy == r.winner)) :
    (r.task = task → r.job = j → ∀ c ∈ r.copies, c.copy = copy → r.winner = some copy) ∧ ¬ (r.winner.isSome = true ∧ ∀ c ∈ r.copies, some c.copy = r.winner) := by
  obtain ⟨hr, hopen⟩ := List.mem_filter.mp hr
  obtain ⟨x, -, hx⟩ := List.mem_map.mp hr
  refine ⟨fun ht hj c hc hcopy => ?_, fun ⟨hw, hall⟩ => ?_⟩
  · split at hx
    · subst hx
      have hkept := (List.mem_filter.mp hc).2
      simp only [hcopy, bne_self_eq_false, Bool.false_or, beq_iff_eq] at hkept
      exact hkept.symm
    · next hno =>
      subst hx
      exact (hno ⟨ht, hj⟩).elim
  · have hend : (r.winner.isSome && r.copies.all fun c => some c.copy == r.winner) = true := by
      rw [hw, Bool.true_and]
      exact List.all_eq_true.mpr fun c hc => beq_iff_eq.mpr (hall c hc)
    rw [hend] at hopen
    exact Bool.false_ne_true hopen

end

end Sys2Proof.Claims

open Sys2Proof Sys2Proof.Machine Sys2Proof.Claims

/-- Settles O41. -/
theorem commitAnswersAndCancels : Obligations.CommitAnswersAndCancels := by
  intro s g id j task copy c m
  refine ⟨fun hc hf => ⟨fun he hl => exec_commitOk hc hf he hl, fun he => exec_commitCancelled hc hf he, fun he hu hl => exec_commitProt hc he hu hl,
    fun he hu => exec_commitUndone hc hf he hu, fun he hu hi => ?_, fun he hu hi => ?_⟩, fun he => ⟨fun q hl hq ha => ⟨fun hfol => ?_, fun hfol => ?_⟩, fun hg => ⟨fun k hk e hek hj ht hcp hcont hf htk => ?_,
    fun e hee q hq hj ht hcp hf => ?_, fun a ha hgone f hfwd hmod => ?_⟩⟩, fun he => ?_⟩
  · rw [exec_versionFull hc he hu, hi]
    rfl
  · have hx := exec_versionFull hc he hu
    rw [if_pos hi] at hx
    refine ⟨_, hx, ?_, ?_, fun k hk => State.slot_setSlot_other _ _ hk, rfl⟩
    · rw [State.gang_setSlot, State.gang_setGang]
    · rw [State.slot_setSlot]
  · rw [exec_cancel_gang he hl hq ha, endRunning, if_pos hfol]
  · rw [exec_cancel_gang he hl hq ha, endRunning, if_neg (by rw [hfol]; exact Bool.noConfusion)]
  · obtain ⟨hslots, hqueues, -⟩ := waiting_leaves s j task c
    exact ⟨_, exec_cancel_waiting he hg, waiting_confirms_queued hk hek (isQueued_iff.mpr ⟨hj, ht, hcp, htk, hcont⟩) hf, hslots,
      fun d hd f hfd hfj hft hfc => continued_or_ticket (hqueues d hd f hfd) hfj hft hfc⟩
  · obtain ⟨hslots, -, hcontexts⟩ := waiting_leaves s j task c
    exact ⟨_, exec_cancel_waiting he hg, waiting_confirms_arriving hee hq ⟨hj, ht, hcp⟩ hf, hslots, hcontexts⟩
  · exact ⟨_, exec_cancel_waiting he hg, waiting_passes ha hgone hfwd hmod⟩
  · exact ⟨_, exec_dropConfirmation he, rfl, fun r hr => dropConfirmation_leaves hr⟩
end

section
/-! IDENTIFY, ATTEST, POWER_CAP, PARK_POLICY, unknown codes and JOB_CLOSE (26 R403, R405, R408, R409; 22 R361). -/

namespace Sys2Proof.Machine

/-! ## What the close of a job keeps (26 R405) -/

namespace EndKeeps

theorem receive (s : State) (cl : Nat) (e : Entry) : EndKeeps s (s.receive cl e) := by
  unfold State.receive
  split
  · exact refl s
  · exact setPart s _ _ _

theorem endQueued (out : Ending) (u : State) (p : Nat × Entry) : EndKeeps u (Claims.endQueued out u p) :=
  ite (refl u) (((receive u _ _).trans (stampWrite _ _ _)).trans (confirmCopy _ _ _ _ _ _ _))

theorem discardEntries (s : State) (out : Ending) (gone : Entry → Bool) : EndKeeps s (s.discardEntries out gone) := by
  unfold State.discardEntries
  refine trans ?_ (resourcesFreed _)
  exact (filterEntries s _).trans (foldl (f := Claims.endQueued out) (endQueued out) _ _)

theorem endArriving (free : Nat) (out : Ending) (u : State) (q : Gang) : EndKeeps u (Claims.endArriving free out u q) := by
  refine trans ?_ (confirmEnd _ _)
  exact trans ((setGang u free q).trans (stampWrite _ _ _)) (of_same rfl rfl rfl)

theorem dropArriving (s : State) (gone : Gang → Bool) (out : Ending) : EndKeeps s (s.dropArriving gone out) := by
  have hfold : ∀ (free : Nat) (l : List Gang) (u : State), EndKeeps u (l.foldl (Claims.endArriving free out) u) := fun free l u =>
    foldl (endArriving free out) l u
  unfold State.dropArriving
  refine after (hfold _ _ _) rfl rfl rfl

theorem closeTasks (s : State) (j : Nat) : EndKeeps s (s.closeTasks j) := by
  unfold State.closeTasks
  refine trans ((discardEntries s _ _).trans (dropArriving _ _ _)) (foldl (fun u g => ?_) _ _)
  exact ite ((dropGang u _ _ _).trans (confirmEnd _ _)) (refl u)

theorem closeLps (s : State) (j : Nat) : EndKeeps s (s.closeLps j) :=
  foldl (f := fun (u : State) (l : Nat × Lp) => (u.setLp j l.1 { u.lp j l.1 with inbox := [], overflow := [] }).writeStatus j l.1)
    (fun u _ => (setJob u _ _).trans (unitWrite _ _ _)) _ s

theorem endLockstep (s : State) (j : Nat) : EndKeeps s (s.endLockstep j) := by
  unfold State.endLockstep
  split
  · exact setJob s _ _
  · exact refl s

end EndKeeps

/-- Side bits of ranges are dropped one range after another. -/
theorem State.mailbox_dropSides (l : List FmtRange) : ∀ s : State, (l.foldl (fun (u : State) r => u.dropSide r) s).mailbox = s.mailbox := by
  induction l with
  | nil => exact fun _ => rfl
  | cons r l ih =>
    intro s
    obtain ⟨d, a, hd, -⟩ := Claims.dropSide_eq s r
    have hone : (s.dropSide r).mailbox = s.mailbox := by rw [hd]
    exact (ih _).trans hone

theorem State.mailbox_closeMarks (s : State) (j : Nat) : (s.closeMarks j).mailbox = s.mailbox :=
  State.mailbox_dropSides _ s

/-- Homes and units hold nothing of the job. -/
theorem State.closeMarks_clears (s : State) (j : Nat) : (∀ r ∈ (s.closeMarks j).rings, r.job ≠ j) ∧ (∀ x ∈ (s.closeMarks j).held, x.job ≠ j) ∧
    (∀ r ∈ (s.closeMarks j).ranges, r.2.job ≠ j) ∧ ∀ l ∈ (s.closeMarks j).drLines, l.2.2 ≠ j := by
  unfold State.closeMarks
  refine ⟨fun r hr => ?_, fun x hx => ?_, fun r hr => ?_, fun l hl => ?_⟩
  · exact bne_iff_ne.mp (List.mem_filter.mp hr).2
  · exact bne_iff_ne.mp (List.mem_filter.mp hx).2
  · exact bne_iff_ne.mp (List.mem_filter.mp hr).2
  · exact bne_iff_ne.mp (List.mem_filter.mp hl).2

theorem tget_tdel {α : Type} (t : Table α) (k : Nat) (d : α) : tget (tdel t k) k d = d := by
  induction t with
  | nil => rfl
  | cons e r ih =>
    obtain ⟨i, v⟩ := e
    by_cases h : i = k
    · simpa [tdel, h] using ih
    · simpa [tdel, tget, h] using ih

/-- Waiting commits and queues are looked at again: nothing differs but the agenda. -/
theorem State.retryCommits_resourcesFreed (s : State) : ∃ a, s.retryCommits.resourcesFreed = { s with agenda := a } := by
  obtain ⟨a, ha⟩ := s.retryCommits_agenda
  obtain ⟨b, hb, -⟩ := s.retryCommits.resourcesFreed_agenda
  exact ⟨b, by rw [hb, ha]⟩

/-- A job is closed: the mailbox is as it was, the job is not open, and homes and units hold nothing of it. -/
theorem State.closeJob_closes (s : State) (j : Nat) : (s.closeJob j).mailbox = s.mailbox ∧ ((s.closeJob j).job j).isOpen = false ∧
    (∀ r ∈ (s.closeJob j).rings, r.job ≠ j) ∧ (∀ x ∈ (s.closeJob j).held, x.job ≠ j) ∧
    (∀ r ∈ (s.closeJob j).ranges, r.2.job ≠ j) ∧ ∀ l ∈ (s.closeJob j).drLines, l.2.2 ≠ j := by
  have hkeep := (((EndKeeps.endLockstep s j).trans (EndKeeps.closeTasks _ j)).trans (EndKeeps.closeLps _ j)).mailbox
  unfold State.closeJob
  generalize ((s.endLockstep j).closeTasks j).closeLps j = u at *
  have hclears := u.closeMarks_clears j
  have hmail := (u.mailbox_closeMarks j).trans hkeep
  generalize u.closeMarks j = w at *
  dsimp only
  split
  all_goals
    obtain ⟨a, ha⟩ := State.retryCommits_resourcesFreed _
    rw [ha]
    exact ⟨hmail, (congrArg Job.isOpen (tget_tdel w.jobs j {}) :), hclears⟩

end Sys2Proof.Machine

namespace Sys2Proof.Claims

open Sys2Proof.Machine

section
variable {s : State} {k : Nat}

/-! ## Commands without arguments (26 R403, R408) -/

theorem notSupported_answers (h : Turn s k (.notSupportedCommand k)) : Replies s .notSupportedCommand k .notSupported 0 [] := by
  refine Replies.of_finish (u := s) ?_ ⟨rfl, rfl, rfl⟩
  show execNotSupportedCommand s = _
  simp only [execNotSupportedCommand, h.1, h.command]

theorem identify_answers (h : Turn s k (.identify k)) : Replies s .identify k .ok 0 (fixedWords 2 Config.serial ++
    [BitVec.ofNat 64 s.incarnation.toNat, Config.romVersion] ++ fixedWords 13 Config.identityKey ++ [Config.cfgLength]) := by
  refine Replies.of_finish (u := s) ?_ ⟨rfl, rfl, rfl⟩
  show execIdentify s = _
  simp only [execIdentify, h.1, h.command]

theorem attest_answers (h : Turn s k (.attest k)) : ∃ body, body = (List.range 6).map (s.arg k) ++ fixedWords 6 Config.cfgDigest ++
      [Config.romVersion, BitVec.ofNat 64 s.incarnation.toNat] ∧ Replies s .attest k .ok 0 (body ++ fixedWords 12 (Config.attestSignature body)) := by
  refine ⟨_, rfl, Replies.of_finish (u := s) ?_ ⟨rfl, rfl, rfl⟩⟩
  show execAttest s = _
  simp only [execAttest, h.1, h.command]

/-! ## POWER_CAP (26 R409; 06 R123) -/

/-- What POWER_CAP answers: the power measured, the slots removed and the positions with W other than 0. -/
def powerWords (s : State) : List Word :=
  [BitVec.ofNat 64 (Config.measuredPower (s.fresh + 1)), BitVec.ofNat 64 (s.slots.filter fun e => e.2.removed).length, BitVec.ofNat 64 s.dutied.length]

/-- The answer of POWER_CAP, with a new measurement. -/
def powerAnswer (s u : State) (k : Nat) (st : Status) (cause : Nat) : State := State.finish { u with fresh := s.fresh + 1 } k st cause
  [BitVec.ofNat 64 (Config.measuredPower (s.fresh + 1)), BitVec.ofNat 64 (u.slots.filter fun e => e.2.removed).length, BitVec.ofNat 64 u.dutied.length]

/-- The cores that POWER_CAP names. -/
def gatedCores (s : State) (k : Nat) : List Nat := if bitAt (s.arg k 1) 42 then List.range 1024 else [bits (s.arg k 1) 32 10]

/-- The cap that POWER_CAP sets. -/
def capSet (s : State) (k : Nat) : State := if bits (s.arg k 0) 0 16 = 0 then s else { s with cap := bits (s.arg k 0) 0 16, lowSince := none }

/-- What POWER_CAP sets. -/
def powerSet (s : State) (k : Nat) : State :=
  if bits (s.arg k 1) 0 17 = 0 then capSet s k
  else (gatedCores s k).foldl (fun (u : State) c => u.setIdleGate (bits (s.arg k 1) 0 17) c) (capSet s k)

theorem exec_powerCap (h : Turn s k (.powerCap k)) : exec .powerCap s = .next (
    if s.arg k 2 ≠ 0 then powerAnswer s s k .notSupported 0
    else ((badArg [bits (s.arg k 0) 0 16 == 0 || decide (1000 ≤ bits (s.arg k 0) 0 16 ∧ bits (s.arg k 0) 0 16 ≤ 6000),
        bits (s.arg k 1) 0 17 == 0 || decide (256 ≤ bits (s.arg k 1) 0 17 ∧ bits (s.arg k 1) 0 17 ≤ 65536)]).map fun i => powerAnswer s s k .invalid i).getD
      (powerAnswer s (powerSet s k) k .ok 0)) := by
  show execPowerCap s = _
  unfold execPowerCap
  split
  · next n hn =>
    cases h.1.symm.trans hn
    rw [h.command]
    dsimp only
    split
    · rfl
    · cases badArg [bits (s.arg k 0) 0 16 == 0 || decide (1000 ≤ bits (s.arg k 0) 0 16 ∧ bits (s.arg k 0) 0 16 ≤ 6000),
        bits (s.arg k 1) 0 17 == 0 || decide (256 ≤ bits (s.arg k 1) 0 17 ∧ bits (s.arg k 1) 0 17 ≤ 65536)] <;> rfl
  · next hn => exact (hn _ h.1).elim

/-- A refusal of POWER_CAP changes nothing. -/
theorem powerAnswer_replies {st : Status} {cause : Nat} (hx : exec .powerCap s = .next (powerAnswer s s k st cause)) :
    Replies s .powerCap k st cause (powerWords s) :=
  Replies.of_finish (u := { s with fresh := s.fresh + 1 }) hx ⟨rfl, rfl, rfl⟩

/-- IDLE_GATE of a core's engine is set, and the rest but what is due stays. -/
theorem setIdleGate_eq (u : State) (g c : Nat) : ∃ a, u.setIdleGate g c = { u.setEng c { u.eng c with idleGate := g } with agenda := a } := by
  unfold State.setIdleGate
  dsimp only
  split <;> exact ⟨_, rfl⟩

theorem foldl_setIdleGate (g : Nat) (l : List Nat) : ∀ u : State, ∃ cs a, l.foldl (fun (u : State) c => u.setIdleGate g c) u = { u with cores := cs, agenda := a } ∧
    ∀ c, (c ∈ l ∨ (u.eng c).idleGate = g) → (tget cs c {}).eng.idleGate = g := by
  induction l with
  | nil => exact fun u => ⟨u.cores, u.agenda, rfl, fun c hc => hc.elim (fun h => (List.not_mem_nil h).elim) id⟩
  | cons x l ih =>
    intro u
    obtain ⟨a, ha⟩ := setIdleGate_eq u g x
    obtain ⟨cs, b, hb, hset⟩ := ih (u.setIdleGate g x)
    refine ⟨cs, b, by rw [List.foldl_cons, hb, ha]; rfl, fun c hc => hset c ?_⟩
    rw [ha]
    by_cases hx : c = x
    · subst hx
      exact .inr (congrArg (fun k : Core => k.eng.idleGate) (State.core_setCore u c { u.core c with eng := { u.eng c with idleGate := g } }))
    · refine hc.imp (fun h => (List.mem_cons.mp h).resolve_left hx) fun h => ?_
      exact (congrArg (fun k : Core => k.eng.idleGate) (State.core_setCore_other u { u.core x with eng := { u.eng x with idleGate := g } } hx)).trans h

theorem capSet_eq (s : State) (k : Nat) : ∃ n l, capSet s k = { s with cap := n, lowSince := l } ∧ n = if bits (s.arg k 0) 0 16 = 0 then s.cap else bits (s.arg k 0) 0 16 := by
  unfold capSet
  split <;> exact ⟨_, _, rfl, rfl⟩

theorem powerSet_sets (s : State) (k : Nat) : ∃ n l cs a, powerSet s k = { s with cap := n, lowSince := l, cores := cs, agenda := a } ∧
    (n = if bits (s.arg k 0) 0 16 = 0 then s.cap else bits (s.arg k 0) 0 16) ∧
    (bits (s.arg k 1) 0 17 ≠ 0 → ∀ c ∈ gatedCores s k, (tget cs c {}).eng.idleGate = bits (s.arg k 1) 0 17) := by
  obtain ⟨n, l, hcap, hn⟩ := capSet_eq s k
  unfold powerSet
  rw [hcap]
  split
  · next hz => exact ⟨n, l, s.cores, s.agenda, rfl, hn, fun h => (h hz).elim⟩
  · obtain ⟨cs, a, hf, hset⟩ := foldl_setIdleGate (bits (s.arg k 1) 0 17) (gatedCores s k) { s with cap := n, lowSince := l }
    exact ⟨n, l, cs, a, hf, hn, fun _ c hc => hset c (.inl hc)⟩

theorem powerCap_sets (h : Turn s k (.powerCap k)) (h2 : s.arg k 2 = 0)
    (hc : bits (s.arg k 0) 0 16 = 0 ∨ 1000 ≤ bits (s.arg k 0) 0 16 ∧ bits (s.arg k 0) 0 16 ≤ 6000)
    (hg : bits (s.arg k 1) 0 17 = 0 ∨ 256 ≤ bits (s.arg k 1) 0 17 ∧ bits (s.arg k 1) 0 17 ≤ 65536) : ∃ t, exec .powerCap s = .next t ∧
    Completed s t k .ok 0 (powerWords s) ∧ t.mem = s.mem ∧ t.cap = (if bits (s.arg k 0) 0 16 = 0 then s.cap else bits (s.arg k 0) 0 16) ∧
    ∀ c, c < 1024 → bits (s.arg k 1) 0 17 ≠ 0 → (bitAt (s.arg k 1) 42 = true ∨ c = bits (s.arg k 1) 32 10) → (t.eng c).idleGate = bits (s.arg k 1) 0 17 := by
  have hcap : (bits (s.arg k 0) 0 16 == 0 || decide (1000 ≤ bits (s.arg k 0) 0 16 ∧ bits (s.arg k 0) 0 16 ≤ 6000)) = true := by simpa using hc
  have hgate : (bits (s.arg k 1) 0 17 == 0 || decide (256 ≤ bits (s.arg k 1) 0 17 ∧ bits (s.arg k 1) 0 17 ≤ 65536)) = true := by simpa using hg
  have hx := exec_powerCap h
  rw [if_neg (not_not_intro h2), hcap, hgate, badArg_true, badArg_true, badArg_nil] at hx
  obtain ⟨n, l, cs, a, hset, hn, hcores⟩ := powerSet_sets s k
  rw [hset] at hx
  refine ⟨_, hx, Completed.of_finish rfl rfl k .ok 0 _, State.mem_finish .., (State.cap_finish ..).trans hn, fun c hlt hne hnamed => ?_⟩
  have hmem : c ∈ gatedCores s k := by
    unfold gatedCores
    split
    · exact List.mem_range.mpr hlt
    · next hno => exact List.mem_singleton.mpr (hnamed.resolve_left hno)
  have hfinish : ∀ u : State, ((u.finish k .ok 0 (powerWords s)).eng c).idleGate = (tget u.cores c {}).eng.idleGate := fun u => by
    unfold State.eng State.core
    rw [State.cores_finish]
  exact (hfinish _).trans (hcores hne c hmem)

/-! ## PARK_POLICY (22 R361) -/

/-- A fibre group with its new policy. -/
def newPolicy (s : State) (k : Nat) : Fibre :=
  let f := s.fibre (s.arg k 0).toNat
  { f with low := (s.arg k 1).toNat, high := (s.arg k 2).toNat, hold := (s.arg k 3).toNat,
           quietSince := if f.low = (s.arg k 1).toNat then f.quietSince else s.now }

theorem exec_parkPolicy (h : Turn s k (.parkPolicy k)) : exec .parkPolicy s = .next (
    ((badArg [decide ((s.arg k 0).toNat < 64), decide ((s.arg k 1).toNat ≤ 1024), decide ((s.arg k 1).toNat + 1 ≤ (s.arg k 2).toNat ∧ (s.arg k 2).toNat ≤ 4096),
        decide (1 ≤ (s.arg k 3).toNat ∧ (s.arg k 3).toNat ≤ 1000)]).map fun i => s.finish k .invalid i []).getD
      (((s.setFibre (s.arg k 0).toNat (newPolicy s k)).settleFibre (s.arg k 0).toNat).finish k .ok 0 [])) := by
  show execParkPolicy s = _
  unfold execParkPolicy
  split
  · next n hn =>
    cases h.1.symm.trans hn
    rw [h.command]
    dsimp only
    cases badArg [decide ((s.arg k 0).toNat < 64), decide ((s.arg k 1).toNat ≤ 1024), decide ((s.arg k 1).toNat + 1 ≤ (s.arg k 2).toNat ∧ (s.arg k 2).toNat ≤ 4096),
      decide (1 ≤ (s.arg k 3).toNat ∧ (s.arg k 3).toNat ≤ 1000)] <;> rfl
  · next hn => exact (hn _ h.1).elim

/-- An argument of PARK_POLICY out of its range. -/
theorem parkPolicy_refuses (h : Turn s k (.parkPolicy k)) {i : Nat}
    (hb : badArg [decide ((s.arg k 0).toNat < 64), decide ((s.arg k 1).toNat ≤ 1024), decide ((s.arg k 1).toNat + 1 ≤ (s.arg k 2).toNat ∧ (s.arg k 2).toNat ≤ 4096),
      decide (1 ≤ (s.arg k 3).toNat ∧ (s.arg k 3).toNat ≤ 1000)] = some i) : Replies s .parkPolicy k .invalid i [] := by
  refine Replies.of_finish (u := s) ?_ ⟨rfl, rfl, rfl⟩
  rw [exec_parkPolicy h, hb]
  rfl

/-- A fibre group that its queue exceeds wakes; any other only plans. -/
theorem settleFibre_settles (u : State) (g : Nat) : ∃ fs a, u.settleFibre g = { u with fibres := fs, agenda := a } ∧
    ((u.fibre g).st = .parked → (u.fibre g).high < (u.fibre g).queue →
      tget fs g {} = { u.fibre g with st := .waking, settled := false, wakes := counterUp (u.fibre g).wakes 1 }) ∧
    ((u.fibre g).st ≠ .parked ∨ (u.fibre g).queue ≤ (u.fibre g).high → fs = u.fibres) := by
  unfold State.settleFibre
  dsimp only
  split
  · next hw =>
    obtain ⟨a, ha, -, -⟩ := u.wakeFibre_parked g hw.1
    exact ⟨_, a, ha, fun _ _ => tget_tset_same _ _ _ _, fun hn => (hn.elim (· hw.1) (Nat.not_le.mpr hw.2)).elim⟩
  · next hw =>
    split
    · exact ⟨u.fibres, _, rfl, fun hp hq => (hw ⟨hp, hq⟩).elim, fun _ => rfl⟩
    · exact ⟨u.fibres, _, rfl, fun hp hq => (hw ⟨hp, hq⟩).elim, fun _ => rfl⟩

theorem parkPolicy_sets (h : Turn s k (.parkPolicy k)) (hg : (s.arg k 0).toNat < 64) (hl : (s.arg k 1).toNat ≤ 1024) (hlh : (s.arg k 1).toNat < (s.arg k 2).toNat)
    (hh : (s.arg k 2).toNat ≤ 4096) (h1 : 1 ≤ (s.arg k 3).toNat) (h2 : (s.arg k 3).toNat ≤ 1000) : ∃ t, exec .parkPolicy s = .next t ∧ Completed s t k .ok 0 [] ∧
    t.mem = s.mem ∧ (t.fibre (s.arg k 0).toNat).low = (s.arg k 1).toNat ∧ (t.fibre (s.arg k 0).toNat).high = (s.arg k 2).toNat ∧
    (t.fibre (s.arg k 0).toNat).hold = (s.arg k 3).toNat ∧
    ((s.fibre (s.arg k 0).toNat).st = .parked → (s.arg k 2).toNat < (s.fibre (s.arg k 0).toNat).queue → (t.fibre (s.arg k 0).toNat).st = .waking) ∧
    ((s.fibre (s.arg k 0).toNat).st ≠ .parked ∨ (s.fibre (s.arg k 0).toNat).queue ≤ (s.arg k 2).toNat → t.fibre (s.arg k 0).toNat = newPolicy s k) := by
  have hx := exec_parkPolicy h
  rw [decide_eq_true hg, decide_eq_true hl, decide_eq_true (And.intro (Nat.succ_le_of_lt hlh) hh), decide_eq_true (And.intro h1 h2), badArg_true, badArg_true, badArg_true, badArg_true,
    badArg_nil] at hx
  simp only [Option.map_none, Option.getD_none] at hx
  obtain ⟨fs, a, hset, hwake, hstay⟩ := settleFibre_settles (s.setFibre (s.arg k 0).toNat (newPolicy s k)) (s.arg k 0).toNat
  have hpol : (s.setFibre (s.arg k 0).toNat (newPolicy s k)).fibre (s.arg k 0).toNat = newPolicy s k := tget_tset_same _ _ _ _
  rw [hpol] at hwake hstay
  rw [hset] at hx
  have hfib : ∀ u : State, (u.finish k .ok 0 []).fibre (s.arg k 0).toNat = tget u.fibres (s.arg k 0).toNat {} := fun u => by
    unfold State.fibre
    rw [State.fibres_finish]
  have hnew : ((s.fibre (s.arg k 0).toNat).st = .parked ∧ (s.arg k 2).toNat < (s.fibre (s.arg k 0).toNat).queue → tget fs (s.arg k 0).toNat {} =
        { newPolicy s k with st := .waking, settled := false, wakes := counterUp (newPolicy s k).wakes 1 }) ∧
      ((s.fibre (s.arg k 0).toNat).st ≠ .parked ∨ (s.fibre (s.arg k 0).toNat).queue ≤ (s.arg k 2).toNat → tget fs (s.arg k 0).toNat {} = newPolicy s k) :=
    ⟨fun hw => hwake hw.1 hw.2, fun hs => by rw [hstay hs]; exact tget_tset_same _ _ _ _⟩
  have hranges : ∃ st settled wakes, tget fs (s.arg k 0).toNat {} = { newPolicy s k with st := st, settled := settled, wakes := wakes } := by
    by_cases hw : (s.fibre (s.arg k 0).toNat).st = .parked ∧ (s.arg k 2).toNat < (s.fibre (s.arg k 0).toNat).queue
    · exact ⟨_, _, _, hnew.1 hw⟩
    · exact ⟨_, _, _, hnew.2 ((not_and_or.mp hw).imp_right Nat.not_lt.mp)⟩
  obtain ⟨st, settled, wakes, hpolicy⟩ := hranges
  refine ⟨_, hx, Completed.of_finish rfl rfl k .ok 0 [], State.mem_finish .., ?_⟩
  rw [hfib]
  refine ⟨by rw [hpolicy]; rfl, by rw [hpolicy]; rfl, by rw [hpolicy]; rfl, fun hp hq => ?_, fun hs => hnew.2 hs⟩
  rw [hnew.1 ⟨hp, hq⟩]

/-! ## JOB_CLOSE (26 R405) -/

theorem jobClose_unnamed (h : Turn s k (.jobClose k)) (hj : s.jobOfSlot (s.arg k 0).toNat = none) : Replies s .jobClose k .invalid 0 [] := by
  refine Replies.of_finish (u := s) ?_ ⟨rfl, rfl, rfl⟩
  show execJobClose s = _
  simp only [execJobClose, h.1, h.command, hj]

theorem exec_jobClose {j : Nat} (h : Turn s k (.jobClose k)) (hj : s.jobOfSlot (s.arg k 0).toNat = some j) :
    exec .jobClose s = .next ((s.closeJob j).finish k .ok 0 []) := by
  show execJobClose s = _
  simp only [execJobClose, h.1, h.command, hj]

theorem jobClose_ends {j : Nat} (h : Turn s k (.jobClose k)) (hj : s.jobOfSlot (s.arg k 0).toNat = some j) : ∃ t, exec .jobClose s = .next t ∧
    (t.job j).isOpen = false ∧ Out.msix 0 ∈ t.out ∧ k ∉ t.bells ∧ (t.mail k).busy = false ∧
    (t.mail k).words.getD 1 0 = answerWord (s.mailWord k 0) 0 .ok ∧ (∀ r ∈ t.rings, r.job ≠ j) ∧ (∀ x ∈ t.held, x.job ≠ j) ∧
    (∀ r ∈ t.ranges, r.2.job ≠ j) ∧ ∀ l ∈ t.drLines, l.2.2 ≠ j := by
  have hx := exec_jobClose h hj
  obtain ⟨hmail, hopen, hrings, hheld, hranges, hdr⟩ := s.closeJob_closes j
  generalize s.closeJob j = u at *
  have hword : u.mailWord k 0 = s.mailWord k 0 := by simp [State.mailWord, State.mail, hmail]
  obtain ⟨hslot, hmsix, hbell, -⟩ := Completed.of_finish (s := u) rfl rfl k .ok 0 []
  rw [hword] at hslot
  refine ⟨_, hx, ?_, hmsix, hbell, by rw [hslot], by rw [hslot]; rfl, ?_, ?_, ?_, ?_⟩
  · rw [State.job, State.jobs_finish]
    exact hopen
  · rw [State.rings_finish]
    exact hrings
  · rw [State.held_finish]
    exact hheld
  · rw [State.ranges_finish]
    exact hranges
  · rw [State.drLines_finish]
    exact hdr

end

end Sys2Proof.Claims

open Sys2Proof Sys2Proof.Machine Sys2Proof.Claims

/-- Settles O51. -/
theorem moduleCommands : Obligations.ModuleCommands := by
  intro s k
  refine ⟨notSupported_answers, identify_answers, attest_answers, fun h => ⟨fun h2 => ?_, fun h2 hc hr => ?_, fun h2 hc hg hr => ?_, fun h2 hc hg => powerCap_sets h h2 hc hg⟩,
    fun h => ⟨fun hg hl hlh hh h1 h2 => parkPolicy_sets h hg hl hlh hh h1 h2, fun hg => parkPolicy_refuses h ?_, fun hg hl => parkPolicy_refuses h ?_,
      fun hg hl hh => parkPolicy_refuses h ?_, fun hg hl hlh hh hh2 => parkPolicy_refuses h ?_⟩, fun h => ⟨jobClose_unnamed h, fun j hj => jobClose_ends h hj⟩⟩
  · have hx := exec_powerCap h
    rw [if_pos h2] at hx
    exact powerAnswer_replies hx
  · have hcap : (bits (s.arg k 0) 0 16 == 0 || decide (1000 ≤ bits (s.arg k 0) 0 16 ∧ bits (s.arg k 0) 0 16 ≤ 6000)) = false := by
      simp only [Bool.or_eq_false_iff, beq_eq_false_iff_ne, decide_eq_false_iff_not]
      omega
    have hx := exec_powerCap h
    rw [if_neg (not_not_intro h2), hcap, badArg_false] at hx
    exact powerAnswer_replies hx
  · have hcap : (bits (s.arg k 0) 0 16 == 0 || decide (1000 ≤ bits (s.arg k 0) 0 16 ∧ bits (s.arg k 0) 0 16 ≤ 6000)) = true := by simpa using hc
    have hgate : (bits (s.arg k 1) 0 17 == 0 || decide (256 ≤ bits (s.arg k 1) 0 17 ∧ bits (s.arg k 1) 0 17 ≤ 65536)) = false := by
      simp only [Bool.or_eq_false_iff, beq_eq_false_iff_ne, decide_eq_false_iff_not]
      omega
    have hx := exec_powerCap h
    rw [if_neg (not_not_intro h2), hcap, hgate, badArg_true, badArg_false] at hx
    exact powerAnswer_replies hx
  · rw [decide_eq_false (Nat.not_lt.mpr hg), badArg_false]
  · rw [decide_eq_true hg, decide_eq_false (Nat.not_le.mpr hl), badArg_true, badArg_false]
    rfl
  · rw [decide_eq_true hg, decide_eq_true hl, decide_eq_false (by omega), badArg_true, badArg_true, badArg_false]
    rfl
  · rw [decide_eq_true hg, decide_eq_true hl, decide_eq_true (And.intro (Nat.succ_le_of_lt hlh) hh), decide_eq_false (by omega), badArg_true, badArg_true,
      badArg_true, badArg_false]
    rfl
end

section
/-! Messages and anti-messages at an inbox, and the rollback of an LP (18 R299, R301, R302, R305). -/

namespace Sys2Proof.Claims

open Sys2Proof.Machine

section
variable {s t u : State} {j n : Nat} {m : Message}

/-! ## The turn of an arrival -/

/-- The inbox as a message is taken: nothing of it has changed. -/
def taking (s : State) (j n : Nat) : State := s.setLp j n (s.lp j n)

/-- The arrival is counted at the LP's home core (18 R307). -/
def countedIn (s : State) (j : Nat) (m : Message) : State := (taking s j m.dest).countRecv j (s.lp j m.dest).home m.colour

theorem lp_taking (s : State) (j n : Nat) : (taking s j n).lp j n = s.lp j n := State.lp_setLp s j n _

theorem job_setLp (s : State) (j n : Nat) (l : Lp) : (s.setLp j n l).job j = { s.job j with lps := tset (s.job j).lps n l } := State.job_setJob s j _

/-- What a message that is taken consults of its job. -/
structure SameRules (s t : State) (j : Nat) : Prop where
  isOpen : (t.job j).isOpen = (s.job j).isOpen
  opt : (t.job j).opt = (s.job j).opt
  det : (t.job j).det = (s.job j).det
  unwound : ∀ m, (t.job j).unwound m = (s.job j).unwound m
  lw : ∀ p, t.lwAt j p = s.lwAt j p

theorem sameRules_setLp (s : State) (j n : Nat) (l : Lp) : SameRules s (s.setLp j n l) j := by
  have hjob := job_setLp s j n l
  refine ⟨(congrArg Job.isOpen hjob :), (congrArg Job.opt hjob :), (congrArg Job.det hjob :), fun m => (congrArg (fun x : Job => x.unwound m) hjob :), fun p => ?_⟩
  unfold State.lwAt
  rw [hjob]
  rfl

theorem setLp_setLp (s : State) (j n : Nat) (l l' : Lp) : (s.setLp j n l).setLp j n l' = s.setLp j n l' := by
  have hjob := job_setLp s j n l
  change (s.setLp j n l).setJob j { (s.setLp j n l).job j with lps := tset ((s.setLp j n l).job j).lps n l' } = _
  rw [hjob]
  exact (State.setJob_setJob s j _ _).trans (congrArg (fun x => s.setJob j { s.job j with lps := x }) (tset_tset _ _ _ _))

theorem declares_taking (s : State) (j n : Nat) : ((taking s j n).job j).declares n = true := by
  have hkey : ∀ (t : Table Lp) (v : Lp), (tset t n v).any (fun l => l.1 == n) = true := fun t v => by
    induction t with
    | nil => simp [tset]
    | cons e r ih =>
      obtain ⟨i, w⟩ := e
      rw [tset]
      split
      · simp
      · rw [List.any_cons, ih, Bool.or_true]
  have hjob := job_setLp s j n (s.lp j n)
  exact (congrArg (fun x : Job => x.declares n) hjob :).trans (hkey _ _)

/-- A message that need not wait is taken at once where none is before it. -/
theorem reachInbox_takes (ho : (s.job j).isOpen = true) (hd : (s.job j).declares m.dest = true) (hq : (s.lp j m.dest).inq = [])
    (hw : (s.setLp j m.dest { s.lp j m.dest with inq := [m] }).arrivalWaits j m = false) : s.reachInbox j m = (taking s j m.dest).takeArrival j m := by
  have hgo : ((s.job j).isOpen && (s.job j).declares m.dest) = true := by rw [ho, hd]; rfl
  have hlp : (s.setLp j m.dest { s.lp j m.dest with inq := [m] }).lp j m.dest = { s.lp j m.dest with inq := [m] } := State.lp_setLp _ _ _ _
  have hback : (s.setLp j m.dest { s.lp j m.dest with inq := [m] }).setLp j m.dest { s.lp j m.dest with inq := [] } = taking s j m.dest := by
    rw [setLp_setLp, taking, ← hq]
  unfold State.reachInbox
  rw [if_pos hgo, hq, List.nil_append, State.takeInq, hlp]
  simp only [List.length_cons, List.length_nil, Nat.zero_add, State.takeArrivals, hlp, hw, Bool.false_eq_true, if_false, hback]

/-! ## The arrival at lw (18 R301, R307) -/

/-- A write to a part leaves the rest of its job. -/
theorem job_setPart_of {α : Type} {f : Job → α} (hf : ∀ (x : Job) (ps : Table Part), f { x with parts := ps } = f x) (s : State) (j p : Nat) (v : Part) (k : Nat) :
    f ((s.setPart j p v).job k) = f (s.job k) := State.job_setJob_of (hf (s.job j) _) k

theorem lp_setPart (s : State) (j p : Nat) (v : Part) (k n : Nat) : (s.setPart j p v).lp k n = s.lp k n :=
  job_setPart_of (f := fun x : Job => tget x.lps n {}) (fun _ _ => rfl) s j p v k

theorem lp_countedIn (s : State) (j : Nat) (m : Message) : (countedIn s j m).lp j m.dest = s.lp j m.dest :=
  (lp_setPart (taking s j m.dest) j _ _ j m.dest).trans (lp_taking s j m.dest)

theorem SameRules.trans (h : SameRules s t j) (h' : SameRules t u j) : SameRules s u j :=
  ⟨h'.isOpen.trans h.isOpen, h'.opt.trans h.opt, h'.det.trans h.det, fun m => (h'.unwound m).trans (h.unwound m), fun p => (h'.lw p).trans (h.lw p)⟩

theorem sameRules_countRecv (s : State) (j part : Nat) (red : Bool) : SameRules s (s.countRecv j part red) j := by
  refine ⟨job_setPart_of (f := Job.isOpen) (fun _ _ => rfl) s j part _ j, job_setPart_of (f := Job.opt) (fun _ _ => rfl) s j part _ j,
    job_setPart_of (f := Job.det) (fun _ _ => rfl) s j part _ j, fun m => job_setPart_of (f := fun x => x.unwound m) (fun _ _ => rfl) s j part _ j, fun p => ?_⟩
  have hrings : RingStays s (s.countRecv j part red) := RingStays.setPart rfl
  have hopen : ((s.countRecv j part red).job j).isOpen = (s.job j).isOpen := job_setPart_of (f := Job.isOpen) (fun _ _ => rfl) s j part _ j
  unfold State.lwAt
  rw [hrings.lw, hopen]

theorem sameRules_countedIn (s : State) (j : Nat) (m : Message) : SameRules s (countedIn s j m) j :=
  (sameRules_setLp s j m.dest _).trans (sameRules_countRecv _ j _ m.colour)

/-- A message at or above lw goes to its place. -/
theorem arrive_taken (ho : (s.job j).isOpen = true) (hu : (s.job j).unwound m = false) (hl : s.lwAt j (s.lp j m.dest).home ≤ m.w0.toNat) (k : Nat → State → State) :
    (taking s j m.dest).arrive j m k = k m.dest (countedIn s j m) := by
  obtain ⟨hopen, -, -, hunwound, hlw⟩ := sameRules_setLp s j m.dest (s.lp j m.dest)
  have hno : ¬ (((taking s j m.dest).job j).isOpen = false ∨ ((taking s j m.dest).job j).declares m.dest = false) := by
    rw [show ((taking s j m.dest).job j).isOpen = true from hopen.trans ho, declares_taking]
    simp
  have hun : ¬ ((taking s j m.dest).job j).unwound m = true := by
    rw [show ((taking s j m.dest).job j).unwound m = false from (hunwound m).trans hu]
    exact Bool.noConfusion
  have hnl : ¬ m.w0.toNat < (taking s j m.dest).lwAt j (s.lp j m.dest).home := by
    rw [show (taking s j m.dest).lwAt j (s.lp j m.dest).home = s.lwAt j (s.lp j m.dest).home from hlw _]
    exact Nat.not_lt.mpr hl
  unfold State.arrive
  dsimp only
  rw [if_neg hno, lp_taking, if_neg hun, if_neg hnl]
  rfl

/-- A message below lw is dropped and counted (18 R307). -/
theorem arrive_late (ho : (s.job j).isOpen = true) (hu : (s.job j).unwound m = false) (hl : m.w0.toNat < s.lwAt j (s.lp j m.dest).home) (k : Nat → State → State) :
    (taking s j m.dest).arrive j m k = (countedIn s j m).setLp j m.dest { s.lp j m.dest with late := (s.lp j m.dest).late + 1 } := by
  obtain ⟨hopen, -, -, hunwound, hlw⟩ := sameRules_setLp s j m.dest (s.lp j m.dest)
  have hno : ¬ (((taking s j m.dest).job j).isOpen = false ∨ ((taking s j m.dest).job j).declares m.dest = false) := by
    rw [show ((taking s j m.dest).job j).isOpen = true from hopen.trans ho, declares_taking]
    simp
  have hun : ¬ ((taking s j m.dest).job j).unwound m = true := by
    rw [show ((taking s j m.dest).job j).unwound m = false from (hunwound m).trans hu]
    exact Bool.noConfusion
  have hnl : m.w0.toNat < (taking s j m.dest).lwAt j (s.lp j m.dest).home := by
    rw [show (taking s j m.dest).lwAt j (s.lp j m.dest).home = s.lwAt j (s.lp j m.dest).home from hlw _]
    exact hl
  unfold State.arrive
  dsimp only
  rw [if_neg hno, lp_taking, if_neg hun, if_pos hnl]
  rfl

/-- A message that comes after nothing its LP has run is no straggler (18 R302). -/
theorem straggles_inOrder (h : InOrder s j m) (hr : SameRules s t j) (hl : (t.lp j m.dest).lvt = (s.lp j m.dest).lvt) : t.straggles j m = false := by
  unfold State.straggles
  rw [hr.opt, hl]
  obtain ho | hk := h
  · rw [ho]
    rfl
  · cases hv : lvtKey (s.lp j m.dest).lvt with
    | none => exact Bool.and_false _
    | some k =>
      rw [Option.map_some, Option.getD_some, hk k hv, Bool.and_false]

/-! ## The sign of a message and what it meets (18 R302, R305) -/

theorem straggles_same (hr : SameRules s t j) (hl : t.lp j m.dest = s.lp j m.dest) : t.straggles j m = s.straggles j m := by
  unfold State.straggles
  rw [hr.opt, hl]

theorem straggles_taking (s : State) (j : Nat) (m : Message) : (taking s j m.dest).straggles j m = s.straggles j m :=
  straggles_same (sameRules_setLp s j m.dest _) (lp_taking s j m.dest)

theorem undoes_same (hl : t.lp j m.dest = s.lp j m.dest) : t.undoes j m = s.undoes j m := by
  unfold State.undoes
  rw [hl]

section
variable (ho : (s.job j).isOpen = true) (hu : (s.job j).unwound m = false) (hl : s.lwAt j (s.lp j m.dest).home ≤ m.w0.toNat)

include ho hu hl

theorem takeArrival_enters (hb : bitAt m.w1 63 = false) (hs : s.straggles j m = false) (ha : (s.lp j m.dest).anti m.key = none) :
    (taking s j m.dest).takeArrival j m = (countedIn s j m).place j m.dest m .pos := by
  unfold State.takeArrival
  rw [if_neg (by rw [hb]; exact Bool.noConfusion), arrive_taken ho hu hl, lp_countedIn, ha, straggles_taking, hs]
  rfl

theorem takeArrival_straggles (hb : bitAt m.w1 63 = false) (hs : s.straggles j m = true) (ha : (s.lp j m.dest).anti m.key = none) :
    (taking s j m.dest).takeArrival j m = ((countedIn s j m).rollback j m.dest m.key).place j m.dest m .pos := by
  unfold State.takeArrival
  rw [if_neg (by rw [hb]; exact Bool.noConfusion), arrive_taken ho hu hl, lp_countedIn, ha, straggles_taking, hs]
  rfl

theorem takeArrival_meetsAnti {e : InboxEntry} (hb : bitAt m.w1 63 = false) (ha : (s.lp j m.dest).anti m.key = some e) :
    (taking s j m.dest).takeArrival j m = (countedIn s j m).annihilate j m.dest e := by
  unfold State.takeArrival
  rw [if_neg (by rw [hb]; exact Bool.noConfusion), arrive_taken ho hu hl, lp_countedIn, ha]

theorem takeArrival_meetsPositive {e : InboxEntry} (hb : bitAt m.w1 63 = true) (hs : s.undoes j m = false) (hp : (s.lp j m.dest).positive m.key = some e) :
    (taking s j m.dest).takeArrival j m = (countedIn s j m).annihilate j m.dest e := by
  unfold State.takeArrival
  rw [if_pos hb, arrive_taken ho hu hl, undoes_same (lp_taking s j m.dest), hs]
  simp only [Bool.false_eq_true, if_false, lp_countedIn, hp]

theorem takeArrival_waitsForPositive (hb : bitAt m.w1 63 = true) (hs : s.undoes j m = false) (hp : (s.lp j m.dest).positive m.key = none) :
    (taking s j m.dest).takeArrival j m = (countedIn s j m).place j m.dest m .anti := by
  unfold State.takeArrival
  rw [if_pos hb, arrive_taken ho hu hl, undoes_same (lp_taking s j m.dest), hs]
  simp only [Bool.false_eq_true, if_false, lp_countedIn, hp]

end

theorem anti_eq_none {l : Lp} {k : Key} (h : ∀ e ∈ l.inbox ++ l.overflow, e.st ≠ .anti) : l.anti k = none := by
  refine List.find?_eq_none.mpr fun e he => ?_
  simp [h e he]

theorem anti_of_only {l : Lp} {k : Key} {e : InboxEntry} (hi : l.inbox = [e]) (hov : l.overflow = []) (hst : e.st = .anti) (hk : e.msg.key = k) : l.anti k = some e := by
  simp [Lp.anti, hi, hov, hst, hk]

theorem positive_eq_none {l : Lp} {k : Key} (h : ∀ e ∈ l.inbox ++ l.overflow, e.st = .anti ∨ e.msg.key ≠ k) : l.positive k = none := by
  have hnone : ((l.inbox ++ l.overflow).filter fun e => e.st != .anti && e.msg.key == k) = [] := by
    refine List.filter_eq_nil_iff.mpr fun e he => ?_
    obtain hst | hk := h e he
    · simp [hst]
    · simp [hk]
  rw [Lp.positive, hnone]
  rfl

theorem positive_of_only {l : Lp} {k : Key} {e : InboxEntry} (hi : l.inbox = [e]) (hov : l.overflow = []) (hst : e.st = .pos) (hk : e.msg.key = k) :
    l.positive k = some e := by
  simp [Lp.positive, hi, hov, hst, hk]

/-! ## A place in the inbox (18 R301) -/

theorem job_of_jobs (h : t.jobs = s.jobs) (k : Nat) : t.job k = s.job k := by
  unfold State.job
  rw [h]

theorem lp_of_jobs (h : t.jobs = s.jobs) (k n : Nat) : t.lp k n = s.lp k n := by
  unfold State.lp
  rw [job_of_jobs h]

theorem writeWords_leaves (v : State) (a : Nat) (ws : List Word) : (v.writeWords a ws).jobs = v.jobs ∧ (v.writeWords a ws).mem = memWords v.mem a ws ∧
    (v.writeWords a ws).slots = v.slots ∧ (v.writeWords a ws).now = v.now ∧ (v.writeWords a ws).gangs = v.gangs ∧ (v.writeWords a ws).clusters = v.clusters ∧
    (v.writeWords a ws).agenda = v.agenda ∧ (v.writeWords a ws).out = v.out := by
  unfold State.writeWords State.markLocal
  split
  · exact ⟨rfl, rfl, rfl, rfl, rfl, rfl, rfl, rfl⟩
  · exact ⟨rfl, rfl, rfl, rfl, rfl, rfl, rfl, rfl⟩

theorem enterInbox_enters (s : State) (j n i : Nat) (e : InboxEntry) : ((s.enterInbox j n i e).lp j n).inbox = (s.lp j n).inbox ++ [{ e with idx := i }] ∧
    (s.enterInbox j n i e).mem = memWords s.mem ((s.lp j n).entryPa i) e.msg.words ∧ (s.enterInbox j n i e).slots = s.slots ∧ (s.enterInbox j n i e).now = s.now := by
  obtain ⟨hjobs, hmem, hslots, hnow, -⟩ := writeWords_leaves (s.setLp j n { s.lp j n with inbox := (s.lp j n).inbox ++ [{ e with idx := i }] }) ((s.lp j n).entryPa i) e.msg.words
  refine ⟨?_, hmem, hslots, hnow⟩
  exact (congrArg Lp.inbox (lp_of_jobs hjobs j n)).trans (congrArg Lp.inbox (State.lp_setLp s j n _))

/-- The arrival is numbered (18 R301). -/
def numbered (u : State) (j : Nat) : State := u.setJob j { u.job j with arrivals := (u.job j).arrivals + 1 }

theorem lp_numbered (u : State) (j n : Nat) : (numbered u j).lp j n = u.lp j n :=
  State.job_setJob_of (f := fun x : Job => tget x.lps n {}) (s := u) (j := j) (v := { u.job j with arrivals := (u.job j).arrivals + 1 }) rfl j

theorem numbered_leaves (u : State) (j : Nat) : (numbered u j).mem = u.mem ∧ (numbered u j).slots = u.slots ∧ (numbered u j).now = u.now := ⟨rfl, rfl, rfl⟩

/-- The entry that a message becomes before it has its place. -/
def unplaced (u : State) (j : Nat) (m : Message) (st : InboxState) : InboxEntry := { st := st, msg := m, at_ := (u.job j).arrivals }

/-- The place that a numbered arrival finds. -/
def placed (v : State) (j n : Nat) (m : Message) (e : InboxEntry) : State :=
  match (v.lp j n).freeIdx with
  | some i => (v.enterInbox j n i e).soon (.inboxDispatch j n)
  | none => match v.enterOverflow j n e with
    | some w => (w.exchange j n).soon (.inboxDispatch j n)
    | none => { v with relWait := v.relWait ++ [((v.lp j n).home, j, m)] }

theorem place_eq (u : State) (j n : Nat) (m : Message) (st : InboxState) : u.place j n m st = placed (numbered u j) j n m (unplaced u j m st) := rfl

theorem placed_enters {v : State} {e : InboxEntry} {i : Nat} (hi : (v.lp j n).freeIdx = some i) : placed v j n m e = (v.enterInbox j n i e).soon (.inboxDispatch j n) := by
  unfold placed
  rw [hi]

theorem soon_leaves (v : State) (e : Ev) : (v.soon e).jobs = v.jobs ∧ (v.soon e).mem = v.mem ∧ (v.soon e).slots = v.slots := ⟨rfl, rfl, rfl⟩

/-- The inbox unit takes the lowest free entry. -/
theorem place_enters {st : InboxState} {i : Nat} (hi : (u.lp j n).freeIdx = some i) :
    ((u.place j n m st).lp j n).inbox = (u.lp j n).inbox ++ [{ unplaced u j m st with idx := i }] ∧
      (u.place j n m st).mem = memWords u.mem ((u.lp j n).entryPa i) m.words ∧
      (u.now, Ev.inboxDispatch j n) ∈ (u.place j n m st).agenda ∧ (u.place j n m st).slots = u.slots := by
  obtain ⟨hinbox, hmem, hslots, hnow⟩ := enterInbox_enters (numbered u j) j n i (unplaced u j m st)
  obtain ⟨hmem', hslots', hnow'⟩ := numbered_leaves u j
  rw [lp_numbered] at hinbox hmem
  rw [hmem'] at hmem
  rw [place_eq, placed_enters ((congrArg Lp.freeIdx (lp_numbered u j n)).trans hi)]
  obtain ⟨hjobs, hmem2, hslots2⟩ := soon_leaves ((numbered u j).enterInbox j n i (unplaced u j m st)) (.inboxDispatch j n)
  have hdue := State.due_soon ((numbered u j).enterInbox j n i (unplaced u j m st)) (.inboxDispatch j n)
  rw [hnow, hnow'] at hdue
  exact ⟨(congrArg Lp.inbox (lp_of_jobs hjobs j n)).trans hinbox, hmem2.trans hmem, hdue, hslots2.trans (hslots.trans hslots')⟩

/-! ## A message and its opposite vanish (18 R305) -/

theorem annihilate_vanishes {e : InboxEntry} (hi : (u.lp j n).inbox = [e]) (hov : (u.lp j n).overflow = []) :
    ((u.annihilate j n e).lp j n).inbox = [] ∧ ((u.annihilate j n e).lp j n).annih = (u.lp j n).annih + 1 ∧ (u.annihilate j n e).mem = u.mem ∧
      (u.annihilate j n e).slots = u.slots := by
  have hdrop : u.dropInbox j n e = (u.setLp j n { u.lp j n with inbox := [] }).soon (.inboxDispatch j n) := by
    unfold State.dropInbox
    simp [hi, hov, State.refill, dropFirst]
  have hlp : (u.dropInbox j n e).lp j n = { u.lp j n with inbox := [] } := by
    rw [hdrop]
    exact State.lp_setLp u j n _
  have hann : (u.annihilate j n e).lp j n = { u.lp j n with inbox := [], annih := (u.lp j n).annih + 1 } := by
    unfold State.annihilate
    dsimp only
    rw [State.lp_setLp, hlp]
  refine ⟨congrArg Lp.inbox hann, congrArg Lp.annih hann, ?_, ?_⟩
  · change (u.dropInbox j n e).mem = _
    rw [hdrop]
    rfl
  · change (u.dropInbox j n e).slots = _
    rw [hdrop]
    rfl

/-! ## The lowest entry of a list is one of it -/

theorem mem_of_foldl_choice {α : Type} {f : Option α → α → Option α} (hf : ∀ b x y, f b x = some y → y = x ∨ b = some y) (l : List α) :
    ∀ (b : Option α) (y : α), l.foldl f b = some y → y ∈ l ∨ b = some y := by
  induction l with
  | nil => exact fun _ _ h => .inr h
  | cons x l ih =>
    intro b y h
    obtain hl | hx := ih _ y h
    · exact .inl (List.mem_cons_of_mem _ hl)
    · exact (hf b x y hx).imp (fun hy => List.mem_cons.mpr (.inl hy)) id

theorem mem_of_lowest {l : List InboxEntry} {e : InboxEntry} (h : lowest l = some e) : e ∈ l := by
  refine (mem_of_foldl_choice (fun b x y hy => ?_) l none e h).elim id fun h => absurd h (by simp)
  cases b with
  | none => exact .inl (Option.some.inj hy).symm
  | some z =>
    dsimp only at hy
    split at hy
    · exact .inl (Option.some.inj hy).symm
    · exact .inr hy

/-! ## What follows a rollback leaves the log, the count and the order of the inbox (18 R302) -/

/-- Only events, memory and messages change; what the inbox gains is not dispatched. -/
structure Rearranged (s t : State) (j n : Nat) : Prop where
  later : Later s t
  det : (t.job j).det = (s.job j).det
  gangs : t.gangs = s.gangs
  clusters : t.clusters = s.clusters
  rback : (t.lp j n).rback = (s.lp j n).rback
  log : (t.lp j n).log = (s.lp j n).log
  inbox : ∀ e ∈ (t.lp j n).inbox, e ∈ (s.lp j n).inbox ∨ e.st = .pos

namespace Rearranged

theorem of_jobs (hl : Later s t) (hj : t.jobs = s.jobs) (hg : t.gangs = s.gangs) (hc : t.clusters = s.clusters) : Rearranged s t j n := by
  have hlp := lp_of_jobs hj j n
  exact ⟨hl, congrArg Job.det (job_of_jobs hj j), hg, hc, congrArg Lp.rback hlp, congrArg Lp.log hlp, fun _ he => .inl ((congrArg Lp.inbox hlp) ▸ he)⟩

theorem refl (s : State) : Rearranged s s j n := of_jobs (Later.refl s) rfl rfl rfl

theorem trans (h : Rearranged s t j n) (h' : Rearranged t u j n) : Rearranged s u j n :=
  ⟨h.later.trans h'.later, h'.det.trans h.det, h'.gangs.trans h.gangs, h'.clusters.trans h.clusters, h'.rback.trans h.rback, h'.log.trans h.log,
    fun e he => (h'.inbox e he).elim (h.inbox e) .inr⟩

theorem foldl {α : Type} {f : State → α → State} (h : ∀ v x, Rearranged v (f v x) j n) (l : List α) (s : State) : Rearranged s (l.foldl f s) j n := by
  induction l generalizing s with
  | nil => exact refl s
  | cons x l ih => exact (h s x).trans (ih _)

theorem soon (s : State) (e : Ev) : Rearranged s (s.soon e) j n := of_jobs (Later.soon s e) rfl rfl rfl
theorem send (s : State) (o : Out) : Rearranged s (s.send o) j n := of_jobs (Later.send s o) rfl rfl rfl

theorem carry (s : State) (k src dst flits : Nat) (e : Ev) : Rearranged s (s.carry k src dst flits e) j n := by
  have h := s.carry_sentOnly k src dst flits e
  unfold SentOnly at h
  refine of_jobs (Later.carry s k src dst flits e) ?_ ?_ ?_
  · rw [h]
  · rw [h]
  · rw [h]

theorem unitWrite (s : State) (pa : Nat) (ws : List Word) : Rearranged s (s.unitWrite pa ws) j n := by
  have h := s.unitWrite_wroteOnly pa ws
  unfold WroteOnly at h
  refine of_jobs (Later.unitWrite s pa ws) ?_ ?_ ?_
  · rw [h]
  · rw [h]
  · rw [h]

theorem writeArea (s : State) (k va : Nat) (ws : List Word) : Rearranged s (s.writeArea k va ws) j n := by
  unfold State.writeArea
  split
  · exact unitWrite s _ ws
  · exact refl s

theorem writeWords (s : State) (a : Nat) (ws : List Word) : Rearranged s (s.writeWords a ws) j n := by
  obtain ⟨hjobs, -, -, hnow, hgangs, hclusters, hagenda, hout⟩ := writeWords_leaves s a ws
  exact of_jobs (Later.of_same hnow hagenda hout) hjobs hgangs hclusters

/-- A write to a job that keeps its LPs. -/
theorem setJob {k : Nat} {v : Job} (hd : v.det = (s.job k).det) (hl : v.lps = (s.job k).lps) : Rearranged s (s.setJob k v) j n := by
  have hlp : (s.setJob k v).lp j n = s.lp j n := State.job_setJob_of (f := fun x : Job => tget x.lps n {}) (congrArg (fun x => tget x n {}) hl) j
  exact ⟨Later.setJob s k v, State.job_setJob_of (f := Job.det) hd j, rfl, rfl, congrArg Lp.rback hlp, congrArg Lp.log hlp,
    fun _ he => .inl ((congrArg Lp.inbox hlp) ▸ he)⟩

theorem setLp {l : Lp} (hr : l.rback = (s.lp j n).rback) (hg : l.log = (s.lp j n).log) (hi : ∀ e ∈ l.inbox, e ∈ (s.lp j n).inbox ∨ e.st = .pos) :
    Rearranged s (s.setLp j n l) j n := by
  have hlp := State.lp_setLp s j n l
  exact ⟨Later.setJob s j _, (sameRules_setLp s j n l).det, rfl, rfl, (congrArg Lp.rback hlp).trans hr, (congrArg Lp.log hlp).trans hg,
    fun e he => hi e ((congrArg Lp.inbox hlp) ▸ he)⟩

theorem retryCommits (s : State) : Rearranged s s.retryCommits j n := by
  refine foldl (fun v c => ?_) _ s
  obtain ⟨a, ha, hsub⟩ := v.scheduleOnce_agenda v.now (.commitArrival c)
  have hl := Later.scheduleOnce v v.now (.commitArrival c)
  rw [ha] at hl ⊢
  exact of_jobs hl rfl rfl rfl

theorem route (s : State) (k part : Nat) (x : Message) : Rearranged s (s.route k part x) j n := by
  refine trans (t := (s.countSend k part x.w0.toNat).2) ?_ (carry _ _ _ _ _ _)
  exact setJob rfl rfl

theorem enterOverflow {e : InboxEntry} (h : s.enterOverflow j n e = some t) : Rearranged s t j n := by
  unfold State.enterOverflow at h
  split at h
  · exact absurd h (by simp)
  · next va s1 halloc =>
    have halloc' : Rearranged s s1 j n := by
      obtain ⟨l, hl⟩ := State.poolAlloc_eq halloc
      rw [hl]
      exact setJob rfl rfl
    cases h
    refine halloc'.trans (trans ?_ (writeArea _ j va _))
    exact setLp rfl rfl fun _ he => .inl he

theorem exchange (s : State) : Rearranged s (s.exchange j n) j n := by
  unfold State.exchange
  dsimp only
  split
  · next o p ho hp =>
    have hpos : o.st = .pos := by simpa using (List.mem_filter.mp (mem_of_lowest ho)).2
    split
    · refine trans (trans ?_ (writeWords _ _ _)) (writeArea _ _ _ _)
      refine setLp rfl rfl fun e he => ?_
      obtain he | he := List.mem_append.mp he
      · exact .inl (List.mem_filter.mp he).1
      · rw [List.mem_singleton] at he
        exact .inr (he ▸ hpos)
    · exact refl s
  · exact refl s

theorem exchangeAll (fuel : Nat) : ∀ s : State, Rearranged s (s.exchangeAll j n fuel) j n := by
  induction fuel with
  | zero => exact refl
  | succ fuel ih => exact fun s => (exchange s).trans (ih _)

theorem enterInbox {i : Nat} {e : InboxEntry} (he : e.st = .pos) : Rearranged s (s.enterInbox j n i e) j n := by
  refine trans ?_ (writeWords _ _ _)
  refine setLp rfl rfl fun x hx => ?_
  obtain hx | hx := List.mem_append.mp hx
  · exact .inl hx
  · rw [List.mem_singleton] at hx
    exact .inr (hx ▸ he)

theorem placed (s : State) {e : InboxEntry} (he : e.st = .pos) : Rearranged s (placed s j n m e) j n := by
  unfold Claims.placed
  split
  · exact (enterInbox he).trans (soon _ _)
  · split
    · next w hw => exact ((enterOverflow hw).trans (exchange w)).trans (soon _ _)
    · exact of_jobs (Later.of_same rfl rfl rfl) rfl rfl rfl

theorem place (s : State) : Rearranged s (s.place j n m .pos) j n := by
  rw [place_eq]
  have hn : Rearranged s (numbered s j) j n := setJob rfl rfl
  exact hn.trans (placed _ rfl)

end Rearranged

/-! ## Cancelled children and anti-messages (18 R302, R304) -/

/-- Where no copy on this module is a rolled-back task's child, only packets leave for other modules. -/
theorem cancelChildren_rearranges {k : Key} (h : NoChildren s) : Rearranged s (s.cancelChildren j n k) j n := by
  obtain ⟨hgangs, hclusters⟩ := h
  have ha : (s.gangs.filter fun g => g.2.job == j && fromKey n k g.2.parent) = [] := by
    refine List.filter_eq_nil_iff.mpr fun g hg => ?_
    rw [hgangs g hg]
    simp [fromKey]
  have hb : ((s.clusters.flatMap fun c => c.2.entries).filterMap fun e => if e.job == j && fromKey n k e.parent then some e.task else none) = [] := by
    refine List.filterMap_eq_nil_iff.mpr fun e he => ?_
    obtain ⟨c, hc, hce⟩ := List.mem_flatMap.mp he
    rw [hclusters c hc e hce]
    simp [fromKey]
  refine Rearranged.trans (t := s.cancelHere j n k) ?_ (Rearranged.foldl (fun v _ => Rearranged.send v _) _ _)
  unfold State.cancelHere
  dsimp only
  rw [ha, hb]
  exact Rearranged.foldl (fun v _ => Rearranged.send v _) _ _

theorem anti_bit (w : Word) : bitAt (w ||| 0x8000000000000000) 63 = true := by
  unfold bitAt
  rw [BitVec.getLsbD_or]
  simp

theorem sendAnti_sends (s : State) (j n : Nat) (e : LogEntry) : ∃ c, OnItsWay s (s.sendAnti j n e) j (.antiMessageArrival j (antiOf e c)) := by
  refine ⟨(s.countSend j (s.lp j n).home e.w0.toNat).1, ?_⟩
  unfold State.sendAnti State.route
  dsimp only
  rw [if_pos (anti_bit e.w1)]
  refine (onItsWay_carry _ j _ _ 1 _).of_now rfl ?_
  exact job_setPart_of (f := Job.det) (fun _ _ => rfl) s j _ _ j

theorem foldl_sendAnti_sends {e : LogEntry} (l : List LogEntry) (he : e ∈ l) :
    ∀ s : State, ∃ c, OnItsWay s (l.foldl (fun (u : State) x => u.sendAnti j n x) s) j (.antiMessageArrival j (antiOf e c)) := by
  induction l with
  | nil => exact absurd he List.not_mem_nil
  | cons x l ih =>
    intro s
    have hx : Rearranged s (s.sendAnti j n x) j n := Rearranged.route s _ _ _
    obtain rfl | he := List.mem_cons.mp he
    · obtain ⟨c, hc⟩ := sendAnti_sends s j n e
      exact ⟨c, hc.later (Rearranged.foldl (j := j) (n := n) (fun v _ => Rearranged.route v _ _ _) l _).later⟩
    · obtain ⟨c, hc⟩ := ih he (s.sendAnti j n x)
      exact ⟨c, hc.of_now hx.later.now hx.det⟩

/-! ## A rollback with nothing in RUN (18 R302) -/

/-- The LP as a rollback leaves it: its entries at or above the bound are POS, and its log is cut there. -/
def undone (l : Lp) (k : Key) : Lp :=
  ({ l with
    inbox := l.inbox.map fun (e : InboxEntry) => if (e.st == .run || e.st == .done) && keyLe (l.bound k) e.msg.key then { e with st := .pos, task := 0 } else e
    log := l.log.filter fun e => !keyLe (l.bound k) (keyOf e.tvrt e.tw1 e.tw2)
    rback := l.rback + 1 } : Lp).resetLvt

/-- The revocation of the LP's tile goes to its home (18 R303). -/
def revoking (v : State) (j : Nat) (l : Lp) (k : Key) : State :=
  match v.header l.home j (l.desc.getD 1 0 &&& ~~~63) with
  | .ok pa _ => v.carry j l.home (homeEnd (homeOf pa)) 1 (.versionRevocation pa k.1 (l.rback + 1))
  | _ => v

/-- The messages of the tasks that are undone are followed by their anti-messages. -/
def unsending (v : State) (j n : Nat) (l : Lp) (k : Key) : State :=
  (l.log.filter fun e => keyLe (l.bound k) (keyOf e.tvrt e.tw1 e.tw2)).foldl (fun (u : State) e => u.sendAnti j n e) v

/-- The actions held for the tasks that are undone are dropped. -/
def unholding (v : State) (j n : Nat) (bound : Key) : State := { v with held := v.held.filter fun a => !(a.job == j && fromKey n bound a.key) }

/-- What the rollback has done before it cancels children. -/
def undoing (u : State) (j n : Nat) (k : Key) : State :=
  unholding (unsending (revoking (u.setLp j n (undone (u.lp j n) k)) j (u.lp j n) k) j n (u.lp j n) k) j n ((u.lp j n).bound k)

theorem rollback_eq {k : Key} (h : ∀ e ∈ (u.lp j n).inbox, e.st ≠ .run) : u.rollback j n k =
    (((undoing u j n k).cancelChildren j n ((u.lp j n).bound k)).retryCommits.exchangeAll j n (u.lp j n).overflow.length).soon (.inboxDispatch j n) := by
  have hruns : ((u.lp j n).inbox.filter fun e => e.st == .run && keyLe ((u.lp j n).bound k) e.msg.key) = [] := by
    refine List.filter_eq_nil_iff.mpr fun e he => ?_
    simp [h e he]
  unfold State.rollback
  dsimp only
  rw [hruns]
  rfl

theorem revoking_rearranges (v : State) (l : Lp) (k : Key) : Rearranged v (revoking v j l k) j n := by
  unfold revoking
  split
  · exact Rearranged.carry v _ _ _ _ _
  · exact Rearranged.refl v

theorem unsending_rearranges (v : State) (l : Lp) (k : Key) : Rearranged v (unsending v j n l k) j n :=
  Rearranged.foldl (fun v _ => Rearranged.route v _ _ _) _ v

theorem unholding_rearranges (v : State) (k : Key) : Rearranged v (unholding v j n k) j n :=
  Rearranged.of_jobs (Later.of_same rfl rfl rfl) rfl rfl rfl

theorem undoing_rearranges (u : State) (j n : Nat) (k : Key) : Rearranged (u.setLp j n (undone (u.lp j n) k)) (undoing u j n k) j n :=
  ((revoking_rearranges _ _ k).trans (unsending_rearranges _ _ k)).trans (unholding_rearranges _ _)

theorem undoing_sends {k : Key} {e : LogEntry} (he : e ∈ (u.lp j n).log) (hk : keyLe ((u.lp j n).bound k) (keyOf e.tvrt e.tw1 e.tw2) = true) :
    ∃ c, OnItsWay u (undoing u j n k) j (.antiMessageArrival j (antiOf e c)) := by
  have hrev : Rearranged (u.setLp j n (undone (u.lp j n) k)) (revoking (u.setLp j n (undone (u.lp j n) k)) j (u.lp j n) k) j n := revoking_rearranges _ _ k
  obtain ⟨c, hc⟩ := foldl_sendAnti_sends (j := j) (n := n) ((u.lp j n).log.filter fun e => keyLe ((u.lp j n).bound k) (keyOf e.tvrt e.tw1 e.tw2))
    (List.mem_filter.mpr ⟨he, hk⟩) (revoking (u.setLp j n (undone (u.lp j n) k)) j (u.lp j n) k)
  have hdet : ((revoking (u.setLp j n (undone (u.lp j n) k)) j (u.lp j n) k).job j).det = (u.job j).det := hrev.det.trans (sameRules_setLp u j n _).det
  have hheld := (unholding_rearranges (j := j) (n := n) (unsending (revoking (u.setLp j n (undone (u.lp j n) k)) j (u.lp j n) k) j n (u.lp j n) k)
    ((u.lp j n).bound k)).later
  exact ⟨c, (hc.of_now (s := u) hrev.later.now hdet).later hheld⟩

theorem noChildren_undoing {k : Key} (h : NoChildren u) : NoChildren (undoing u j n k) := by
  have hr := undoing_rearranges u j n k
  unfold NoChildren
  rw [hr.gangs, hr.clusters]
  exact h

theorem rollback_rearranges {k : Key} (h : ∀ e ∈ (u.lp j n).inbox, e.st ≠ .run) (hn : NoChildren u) : Rearranged (undoing u j n k) (u.rollback j n k) j n := by
  rw [rollback_eq h]
  exact (((cancelChildren_rearranges (noChildren_undoing hn)).trans (Rearranged.retryCommits _)).trans (Rearranged.exchangeAll _ _)).trans (Rearranged.soon _ _)

theorem undone_keeps (l : Lp) (k : Key) : (undone l k).rback = l.rback + 1 ∧ (undone l k).log = l.log.filter fun e => !keyLe (l.bound k) (keyOf e.tvrt e.tw1 e.tw2) := ⟨rfl, rfl⟩

/-- Above the bound every entry is POS, where none is an anti-message. -/
theorem undone_pos {l : Lp} {k : Key} (h : ∀ e ∈ l.inbox, e.st ≠ .anti) : ∀ e ∈ (undone l k).inbox, keyLe (l.bound k) e.msg.key = true → e.st = .pos := by
  intro e he hk
  obtain ⟨x, hx, rfl⟩ := List.mem_map.mp he
  have hanti := h x hx
  split
  · rfl
  · next hback =>
    rw [if_neg hback] at hk
    cases hst : x.st with
    | pos => rfl
    | run => simp [hst, hk] at hback
    | done => simp [hst, hk] at hback
    | anti => exact absurd hst hanti

/-- What a straggler leaves of its LP once it has its place: rolled back, and above the bound nothing but what waits for dispatch (18 R302). -/
theorem straggler_rolls_back {k : Key} (h : ∀ e ∈ (u.lp j n).inbox, e.st ≠ .anti ∧ e.st ≠ .run) (hn : NoChildren u) :
    (((u.rollback j n k).place j n m .pos).lp j n).rback = (u.lp j n).rback + 1 ∧
      (∀ e ∈ (((u.rollback j n k).place j n m .pos).lp j n).inbox, keyLe ((u.lp j n).bound k) e.msg.key = true → e.st = .pos) ∧
      (∀ e ∈ (u.lp j n).log, keyLe ((u.lp j n).bound k) (keyOf e.tvrt e.tw1 e.tw2) = true →
        ∃ c, OnItsWay u ((u.rollback j n k).place j n m .pos) j (.antiMessageArrival j (antiOf e c))) ∧
      ∀ e ∈ (((u.rollback j n k).place j n m .pos).lp j n).log, keyLe ((u.lp j n).bound k) (keyOf e.tvrt e.tw1 e.tw2) = false := by
  have hend : Rearranged (undoing u j n k) ((u.rollback j n k).place j n m .pos) j n :=
    (rollback_rearranges (fun e he => (h e he).2) hn).trans (Rearranged.place _)
  have hall := (undoing_rearranges u j n k).trans hend
  have hlp := State.lp_setLp u j n (undone (u.lp j n) k)
  obtain ⟨hrback, hlog⟩ := undone_keeps (u.lp j n) k
  refine ⟨(hall.rback.trans (congrArg Lp.rback hlp)).trans hrback, fun e he hk => ?_, fun e he hk => ?_, fun e he => ?_⟩
  · obtain he | he := hall.inbox e he
    · rw [hlp] at he
      exact undone_pos (fun x hx => (h x hx).1) e he hk
    · exact he
  · obtain ⟨c, hc⟩ := undoing_sends he hk
    exact ⟨c, hc.later hend.later⟩
  · rw [hall.log, hlp, hlog] at he
    simpa using (List.mem_filter.mp he).2

/-! ## The arrivals (18 R299, R301, R305, R307) -/

theorem exec_messageArrival (he : s.ev = some (.messageArrival j m)) : exec .messageArrival s = .next (s.reachInbox j m) := by
  show execMessageArrival s = _
  unfold execMessageArrival
  split
  · next h =>
    cases he.symm.trans h
    rfl
  · next h => exact (h _ _ he).elim

theorem exec_antiMessageArrival (he : s.ev = some (.antiMessageArrival j m)) : exec .antiMessageArrival s = .next (s.reachInbox j m) := by
  show execAntiMessageArrival s = _
  unfold execAntiMessageArrival
  split
  · next h =>
    cases he.symm.trans h
    rfl
  · next h => exact (h _ _ he).elim

/-- A message of no open job or of no LP of it is counted (22 R359). -/
theorem reachInbox_closed (h : (s.job j).isOpen = false ∨ (s.job j).declares m.dest = false) : s.reachInbox j m = s.countClosed := by
  unfold State.reachInbox
  refine if_neg ?_
  obtain h | h := h
  · simp [h]
  · simp [h]

theorem waits_of_straggles (hb : bitAt m.w1 63 = false) (h : s.straggles j m = false) (l : List Message) :
    (s.setLp j m.dest { s.lp j m.dest with inq := l }).arrivalWaits j m = false := by
  have hlvt : ((s.setLp j m.dest { s.lp j m.dest with inq := l }).lp j m.dest).lvt = (s.lp j m.dest).lvt := by
    rw [State.lp_setLp]
  have hs : (s.setLp j m.dest { s.lp j m.dest with inq := l }).straggles j m = s.straggles j m := by
    unfold State.straggles
    rw [(sameRules_setLp s j m.dest _).opt, hlvt]
  unfold State.arrivalWaits
  rw [if_neg (by rw [hb]; exact Bool.noConfusion), hs, h]
  rfl

theorem waits_of_undoes (hb : bitAt m.w1 63 = true) (h : s.undoes j m = false) (l : List Message) :
    (s.setLp j m.dest { s.lp j m.dest with inq := l }).arrivalWaits j m = false := by
  have hs : (s.setLp j m.dest { s.lp j m.dest with inq := l }).undoes j m = s.undoes j m := by
    unfold State.undoes
    rw [State.lp_setLp]
    rfl
  unfold State.arrivalWaits
  rw [if_pos hb, hs, h]
  rfl

/-- No commit of the LP's task is under way where none of its entries is in RUN. -/
theorem waits_of_noRun (h : ∀ e ∈ (s.lp j m.dest).inbox, e.st ≠ .run) (l : List Message) :
    (s.setLp j m.dest { s.lp j m.dest with inq := l }).arrivalWaits j m = false := by
  have hnone : (s.lp j m.dest).inbox.find? (fun e => e.st == .run) = none := List.find?_eq_none.mpr fun e he => by simp [h e he]
  have hwait : (s.setLp j m.dest { s.lp j m.dest with inq := l }).mustWait j m.dest m.key = false := by
    unfold State.mustWait
    rw [State.lp_setLp]
    dsimp only
    rw [hnone]
  unfold State.arrivalWaits
  rw [hwait, Bool.and_false]

theorem undoes_of_positive (h : ∀ e, (s.lp j m.dest).positive m.key = some e → e.st = .pos) : s.undoes j m = false := by
  unfold State.undoes
  cases hp : (s.lp j m.dest).positive m.key with
  | none => rfl
  | some e => simp [h e hp]

theorem straggles_of_inOrder (h : InOrder s j m) : s.straggles j m = false := straggles_inOrder h ⟨rfl, rfl, rfl, fun _ => rfl, fun _ => rfl⟩ rfl

/-- A message in order takes the lowest free entry (18 R299, R301). -/
theorem message_enters {i : Nat} (he : s.ev = some (.messageArrival j m)) (hb : bitAt m.w1 63 = false) (hr : Reached s j m) (hord : InOrder s j m)
    (hanti : ∀ e ∈ (s.lp j m.dest).inbox ++ (s.lp j m.dest).overflow, e.st ≠ .anti) (hi : (s.lp j m.dest).freeIdx = some i) :
    ∃ t e, exec .messageArrival s = .next t ∧ (t.lp j m.dest).inbox = (s.lp j m.dest).inbox ++ [e] ∧ e.st = .pos ∧ e.msg = m ∧ e.idx = i ∧
      t.mem = memWords s.mem ((s.lp j m.dest).entryPa i) m.words ∧ (s.now, Ev.inboxDispatch j m.dest) ∈ t.agenda ∧ t.slots = s.slots := by
  obtain ⟨ho, hq, hd, hu, hl⟩ := hr
  have hs := straggles_of_inOrder hord
  obtain ⟨hinbox, hmem, hdue, hslots⟩ := place_enters (m := m) (st := .pos) ((congrArg Lp.freeIdx (lp_countedIn s j m)).trans hi)
  rw [lp_countedIn] at hinbox hmem
  refine ⟨_, _, ?_, hinbox, rfl, rfl, rfl, hmem, hdue, hslots⟩
  rw [exec_messageArrival he, reachInbox_takes ho hd hq (waits_of_straggles hb hs _), takeArrival_enters ho hu hl hb hs (anti_eq_none hanti)]

theorem countedIn_vanishes {e : InboxEntry} (hin : (s.lp j m.dest).inbox = [e]) (hov : (s.lp j m.dest).overflow = []) :
    (((countedIn s j m).annihilate j m.dest e).lp j m.dest).inbox = [] ∧
      (((countedIn s j m).annihilate j m.dest e).lp j m.dest).annih = (s.lp j m.dest).annih + 1 ∧
      ((countedIn s j m).annihilate j m.dest e).mem = s.mem ∧ ((countedIn s j m).annihilate j m.dest e).slots = s.slots := by
  have hlp := lp_countedIn s j m
  obtain ⟨hinbox, hannih, hmem, hslots⟩ := annihilate_vanishes ((congrArg Lp.inbox hlp).trans hin) ((congrArg Lp.overflow hlp).trans hov)
  exact ⟨hinbox, hannih.trans (congrArg (fun l : Lp => l.annih + 1) hlp), hmem, hslots⟩

/-- A message whose anti-message came first vanishes with it (18 R305). -/
theorem message_meetsAnti {e : InboxEntry} (he : s.ev = some (.messageArrival j m)) (hb : bitAt m.w1 63 = false) (hr : Reached s j m) (hord : InOrder s j m)
    (hin : (s.lp j m.dest).inbox = [e]) (hov : (s.lp j m.dest).overflow = []) (hst : e.st = .anti) (hk : e.msg.key = m.key) :
    exec .messageArrival s = .next ((countedIn s j m).annihilate j m.dest e) := by
  obtain ⟨ho, hq, hd, hu, hl⟩ := hr
  rw [exec_messageArrival he, reachInbox_takes ho hd hq (waits_of_straggles hb (straggles_of_inOrder hord) _),
    takeArrival_meetsAnti ho hu hl hb (anti_of_only hin hov hst hk)]

/-- A message below lw is dropped and counted (18 R307). -/
theorem message_late (he : s.ev = some (.messageArrival j m)) (hb : bitAt m.w1 63 = false) (ho : (s.job j).isOpen = true) (hd : (s.job j).declares m.dest = true)
    (hu : (s.job j).unwound m = false) (hq : (s.lp j m.dest).inq = []) (hlw : m.w0.toNat < s.lwAt j (s.lp j m.dest).home) (hord : InOrder s j m) :
    exec .messageArrival s = .next ((countedIn s j m).setLp j m.dest { s.lp j m.dest with late := (s.lp j m.dest).late + 1 }) := by
  rw [exec_messageArrival he, reachInbox_takes ho hd hq (waits_of_straggles hb (straggles_of_inOrder hord) _)]
  unfold State.takeArrival
  rw [if_neg (by rw [hb]; exact Bool.noConfusion), arrive_late ho hu hlw]

/-- A straggler rolls its LP back before it has its place (18 R302). -/
theorem message_straggles {k : Key} (he : s.ev = some (.messageArrival j m)) (hb : bitAt m.w1 63 = false) (hr : Reached s j m) (hopt : (s.job j).opt = true)
    (hlvt : lvtKey (s.lp j m.dest).lvt = some k) (hkey : keyLt m.key k = true)
    (hst : ∀ e ∈ (s.lp j m.dest).inbox ++ (s.lp j m.dest).overflow, e.st ≠ .anti ∧ e.st ≠ .run) :
    exec .messageArrival s = .next (((countedIn s j m).rollback j m.dest m.key).place j m.dest m .pos) := by
  obtain ⟨ho, hq, hd, hu, hl⟩ := hr
  have hs : s.straggles j m = true := by
    unfold State.straggles
    rw [hopt, hlvt, Option.map_some, Option.getD_some, hkey]
    rfl
  rw [exec_messageArrival he, reachInbox_takes ho hd hq (waits_of_noRun (fun e h => (hst e (List.mem_append_left _ h)).2) _),
    takeArrival_straggles ho hu hl hb hs (anti_eq_none fun e h => (hst e h).1)]

/-- An anti-message vanishes with its positive that waits for dispatch (18 R305). -/
theorem antiMessage_meetsPositive {e : InboxEntry} (he : s.ev = some (.antiMessageArrival j m)) (hb : bitAt m.w1 63 = true) (hr : Reached s j m)
    (hin : (s.lp j m.dest).inbox = [e]) (hov : (s.lp j m.dest).overflow = []) (hst : e.st = .pos) (hk : e.msg.key = m.key) :
    exec .antiMessageArrival s = .next ((countedIn s j m).annihilate j m.dest e) := by
  obtain ⟨ho, hq, hd, hu, hl⟩ := hr
  have hpos := positive_of_only hin hov hst hk
  have hs : s.undoes j m = false := undoes_of_positive fun x hx => by
    cases hpos.symm.trans hx
    exact hst
  rw [exec_antiMessageArrival he, reachInbox_takes ho hd hq (waits_of_undoes hb hs _), takeArrival_meetsPositive ho hu hl hb hs hpos]

/-- An anti-message without its positive waits for it in the inbox (18 R305). -/
theorem antiMessage_enters {i : Nat} (he : s.ev = some (.antiMessageArrival j m)) (hb : bitAt m.w1 63 = true) (hr : Reached s j m)
    (hno : ∀ e ∈ (s.lp j m.dest).inbox ++ (s.lp j m.dest).overflow, e.st = .anti ∨ e.msg.key ≠ m.key) (hi : (s.lp j m.dest).freeIdx = some i) :
    ∃ t e, exec .antiMessageArrival s = .next t ∧ (t.lp j m.dest).inbox = (s.lp j m.dest).inbox ++ [e] ∧ e.st = .anti ∧ e.msg = m ∧ e.idx = i ∧
      t.slots = s.slots := by
  obtain ⟨ho, hq, hd, hu, hl⟩ := hr
  have hpos := positive_eq_none hno
  have hs : s.undoes j m = false := undoes_of_positive fun x hx => by rw [hpos] at hx; exact absurd hx (by simp)
  obtain ⟨hinbox, -, -, hslots⟩ := place_enters (m := m) (st := .anti) ((congrArg Lp.freeIdx (lp_countedIn s j m)).trans hi)
  rw [lp_countedIn] at hinbox
  refine ⟨_, _, ?_, hinbox, rfl, rfl, rfl, hslots⟩
  rw [exec_antiMessageArrival he, reachInbox_takes ho hd hq (waits_of_undoes hb hs _), takeArrival_waitsForPositive ho hu hl hb hs hpos]

end

/-- Settles O43. -/
theorem messagesArrive : Obligations.MessagesArrive := by
  intro s j m
  dsimp only
  refine ⟨fun he hb => ⟨fun hclosed => ?_, fun hr hord => ⟨fun i hanti hi => message_enters he hb hr hord hanti hi, fun e hin hov hst hk => ?_⟩,
    fun ho hd hu hq hlw hord => ?_, fun k hr hopt hlvt hkey hst hnc => ?_⟩,
    fun he hb hr => ⟨fun e hin hov hst hk => ?_, fun i hno hi => antiMessage_enters he hb hr hno hi⟩⟩
  · rw [exec_messageArrival he, reachInbox_closed hclosed]
  · exact ⟨_, message_meetsAnti he hb hr hord hin hov hst hk, countedIn_vanishes hin hov⟩
  · have hlp := State.lp_setLp (countedIn s j m) j m.dest { s.lp j m.dest with late := (s.lp j m.dest).late + 1 }
    exact ⟨_, message_late he hb ho hd hu hq hlw hord, (congrArg Lp.late hlp :), (congrArg Lp.inbox hlp :), rfl, rfl⟩
  · have hback := straggler_rolls_back (u := countedIn s j m) (j := j) (n := m.dest) (m := m) (k := m.key)
    rw [lp_countedIn] at hback
    obtain ⟨hrback, hinbox, hsent, hlog⟩ := hback (fun e h => hst e (List.mem_append_left _ h)) hnc
    refine ⟨_, message_straggles he hb hr hopt hlvt hkey hst, hrback, hinbox, fun e h hk => ?_, hlog⟩
    obtain ⟨c, hc⟩ := hsent e h hk
    exact ⟨c, hc.of_now rfl (sameRules_countedIn s j m).det⟩
  · exact ⟨_, antiMessage_meetsPositive he hb hr hin hov hst hk, countedIn_vanishes hin hov⟩

end Sys2Proof.Claims
end
